-- ==== Sys2Proof/Word.lean ====
section
/-! DEFINITION. The word types of the module: bytes, words, 68-byte lines, and sparse tables of plain data. -/

namespace Sys2Proof

/-- One byte. -/
abbrev Byte := BitVec 8

/-- A scalar register or an instruction word (05 R136, R137). -/
abbrev Word := BitVec 64

/-- A line of 68 bytes, byte n at bits 8n to 8n + 7 (04 R118). -/
abbrev Line := BitVec 544

/-- An IEEE 754 binary32 value (04 Table 4-1). -/
abbrev F32 := BitVec 32

/-- A sparse table: keys strictly rising, no entry equal to what an unlisted key reads as. -/
abbrev SMap (α : Type) := List (Nat × α)

end Sys2Proof
end

