-- ==== Sys2Proof/Syntax.lean ====
section
/-! DEFINITION. The commands the module takes: one constructor of Instr per row of spec/opcode_table.json, with its operands. -/

namespace Sys2Proof

/-- A host port (01 Table 1-4). -/
inductive HostPort where
  | a | b
  deriving DecidableEq, Repr

/-- A PCIe function: number 0 is the PF, 1 to 16 the VFs of the port (09 R261). -/
structure Fn where
  port : HostPort
  num : Nat
  deriving DecidableEq, Repr

/-- A data descriptor of a list (09 R269): address, length, bytes 12 to 15. -/
structure Descr where
  addr : Nat
  len : Nat
  rsvd : Nat
  deriving DecidableEq, Repr

/-- A submission entry as fetched (09 Table 9-2) with the host memory it names. -/
structure Entry where
  /-- Function and queue the entry is fetched from. -/
  fn : Fn
  sqid : Nat
  /-- Byte 1. -/
  flags : Byte
  cid : BitVec 16
  part : Byte
  /-- Bytes 5 to 7. -/
  rsvd : BitVec 24
  dptr : BitVec 64
  dlen : BitVec 32
  /-- Bytes 20 to 63, byte 20 + n at place n; missing bytes are zero. -/
  params : List Byte
  /-- The descriptors DPTR names when LIST is 1. -/
  list : List Descr
  /-- The data read from host memory, or none when a read failed (DATA_ERROR). -/
  data : Option (List Byte)
  deriving DecidableEq, Repr

/-- Formats of Table 6-1 (06 R174). -/
structure FmtS where
  sd : Fin 32
  sa : Fin 32
  sb : Fin 32
  imm : BitVec 32
  deriving DecidableEq, Repr
structure FmtJ where
  sa : Fin 32
  sb : Fin 32
  target : BitVec 13
  deriving DecidableEq, Repr
structure FmtC where
  imm : BitVec 20
  deriving DecidableEq, Repr
structure FmtA where
  array : BitVec 8
  src : BitVec 16
  ifmt : BitVec 2
  /-- ROWS - 1. -/
  rows : BitVec 4
  acc : BitVec 9
  set : Bool
  clip : BitVec 5
  otd : BitVec 8
  deriving DecidableEq, Repr
structure FmtK where
  acc : BitVec 9
  /-- NB - 1. -/
  nb : BitVec 9
  line : BitVec 16
  ent : BitVec 5
  typ : BitVec 4
  clr : Bool
  deriving DecidableEq, Repr
structure FmtL where
  a : BitVec 16
  b : BitVec 16
  d : BitVec 16
  sc : Fin 32
  f : BitVec 3
  deriving DecidableEq, Repr
structure FmtQ where
  qn : Fin 16
  line : BitVec 16
  sd : Fin 32
  reg : Bool
  /-- N - 1. -/
  n : BitVec 6
  clr : Bool
  deriving DecidableEq, Repr

/-- A flit (04 Table 4-3): the header fields, the line, its source as a DEST code, and the sideband (08 Table 8-2). -/
structure Flit where
  cls : Fin 4
  poison : Bool
  /-- DEST, bits [28:18]. -/
  dst : BitVec 11
  /-- PART, bits [17:14]. -/
  tag : BitVec 4
  kind : Fin 8
  sub : Fin 16
  fmt : Fin 16
  last : Bool
  line : Line
  src : Nat
  /-- Scheduled flit, sideband S. -/
  sched : Bool
  /-- Virtual channel within the class, sideband VC: true for channel b. -/
  vcb : Bool
  /-- Sideband INJ: time base at injection modulo 4,096, class 0 only. -/
  inj : Nat
  /-- Sideband HOPS, saturating at 127. -/
  hops : Nat
  deriving DecidableEq, Repr

/-- Destination code of a flit (04 Table 4-4). -/
def Flit.dest (f : Flit) : Nat := f.dst.toNat
/-- Partition tag of a flit. -/
def Flit.part (f : Flit) : Nat := f.tag.toNat

/-- A class-3 management write of module firmware (07 R204, R231; 08 R245). -/
inductive MgmtOp where
  /-- Names the producer of KV intake channel 4 of a lantern. -/
  | channel4Producer (lantern producer : Nat)
  /-- Sets the destination of a lantern's management sluice entry. -/
  | mgmtSluiceDest (lantern dest : Nat)
  /-- Writes a line of a lantern's cache table region. -/
  | cacheTable (lantern line : Nat) (data : Line)
  /-- Writes the permit mask of a tag in a route table (08 R238). -/
  | permitMask (router part mask : Nat)
  /-- Writes the exception entries of a route table: first DEST, last DEST, port (08 R237). -/
  | routeExceptions (router : Nat) (entries : List (Nat × Nat × Nat))
  /-- Writes the idle bank of a port's order table and names the switch step. -/
  | orderBank (router port : Nat) (entries : List Word) (loop endi : Nat) (switchStep : Nat)
  deriving DecidableEq, Repr

/-- A unit with a configuration block (11 R351). -/
inductive CfgUnit where
  | lantern (n : Nat)
  | router (n : Nat)
  deriving DecidableEq, Repr

/-- A lockstep pair (11 R350). -/
inductive Proc where
  | a | b | lamplighter
  deriving DecidableEq, Repr

/-- A sampled token with its log-probability in FP16. -/
structure Tok where
  id : BitVec 32
  logp : BitVec 16
  poison : Bool
  deriving DecidableEq, Repr

/-- Where an interrupt's entries are counted (09 R268). -/
inductive IntSource where
  | queuePair (q : Nat)
  | runnel (part rn : Nat)
  | eventRing
  deriving DecidableEq, Repr

/-- A Zenden group as received (08 Table 8-8): flits each with its channel; codewords corrected and codewords that failed to decode. -/
structure ZGroup where
  idle : Bool
  gseq : Nat
  ack : Nat
  flits : List (Nat × Flit)
  /-- CHECK matches. -/
  check : Bool
  corrected : Nat
  failed : Nat
  deriving DecidableEq, Repr

/-- Why a Zenden port declares its link down (08 R257), or lost without a stated cause. -/
inductive ZDown where
  | lockLost | noHeader | resent8 | codewords
  deriving DecidableEq, Repr

/-- Readings of one sample (12 R377, R378), in 1/8 K: per field six sensors, then the coolant sensors. -/
structure Readings where
  fields : List (Nat × List Int)
  inlets : List Int
  outlets : List Int
  deriving DecidableEq, Repr

/-- Result of a lane test (08 R251): bad wires in FLIT, SB and CHK with their spare wires, and the most bad wires in one triplet. -/
structure LaneResult where
  wires : List (Nat × Nat)
  triplet : Nat
  deriving DecidableEq, Repr

/-- An SPDM endpoint (10 R308). -/
inductive SpdmEp where
  | pf (port : HostPort)
  | vf (fn : Fn)
  | i3c
  deriving DecidableEq, Repr

/-- JTAG instructions (10 R327): IDCODE, BYPASS, or a debug instruction. -/
inductive JtagOp where
  | idcode | bypass | debug (code : Nat)
  deriving DecidableEq, Repr

/-- The commands of the module, in the order of spec/opcode_table.json. -/
inductive Instr where
  -- Prafer commands (09 Table 9-5)
  | identify (e : Entry)
  | qpCreate (e : Entry)
  | qpDelete (e : Entry)
  | ringForm (e : Entry)
  | ringMode (e : Entry)
  | partCreate (e : Entry)
  | partDelete (e : Entry)
  | partSet (e : Entry)
  | programLoad (e : Entry)
  | partStart (e : Entry)
  | partDrain (e : Entry)
  | partQuery (e : Entry)
  | submit (e : Entry)
  | cancel (e : Entry)
  | reqQuery (e : Entry)
  | adapterLoad (e : Entry)
  | adapterRelease (e : Entry)
  | pause (e : Entry)
  | exportCtx (e : Entry)
  | importCtx (e : Entry)
  | discard (e : Entry)
  | setTtl (e : Entry)
  | weightOpen (e : Entry)
  | weightChunk (e : Entry)
  | weightClose (e : Entry)
  | weightStatus (e : Entry)
  | eraseWeights (e : Entry)
  | zeroise (e : Entry)
  | debugUnlock (e : Entry)
  | debugLock (e : Entry)
  | telemetryRead (e : Entry)
  | monitorSet (e : Entry)
  | eventRingSet (e : Entry)
  | counterSelect (e : Entry)
  | setSpares (e : Entry)
  | driftComp (e : Entry)
  | refreshSet (e : Entry)
  | refreshWindow (e : Entry)
  | recalibrate (e : Entry)
  | fwUpdate (e : Entry)
  | microcodeUpdate (e : Entry)
  | unassignedOpcode (e : Entry) (opcode : Byte)
  -- Doorbells and register writes
  | sqTail (fn : Fn) (q : Nat) (v : BitVec 32)
  | cqHead (fn : Fn) (q : Nat) (v : BitVec 32)
  | runnelCons (fn : Fn) (r : Nat) (v : BitVec 32)
  | mbCtrlEnable (fn : Fn) (v : BitVec 32)
  | mbCtrlDisable (fn : Fn) (v : BitVec 32)
  | evCons (fn : Fn) (v : BitVec 32)
  | alertStatusClear (fn : Fn) (v : BitVec 32)
  | traceCtrlWrite (fn : Fn) (v : BitVec 32)
  | pertHsdelayWrite (fn : Fn) (part i : Nat) (v : BitVec 32)
  | pertCreditWrite (fn : Fn) (part : Nat) (v : BitVec 32)
  | pertStretchWrite (fn : Fn) (part : Nat) (v : BitVec 32)
  | pertAdcWrite (fn : Fn) (part : Nat) (v : BitVec 32)
  | pertRetrain (fn : Fn) (part : Nat) (v : BitVec 32)
  | fiParity (fn : Fn) (part : Nat) (v : BitVec 32)
  | fiPoison (fn : Fn) (part : Nat) (v : BitVec 32)
  /-- A write of 4 or 8 bytes to BAR0, or to BAR2. -/
  | registerWrite (fn : Fn) (bar2 : Bool) (offset : Nat) (v : BitVec 64) (eight : Bool)
  -- Lantern instructions (06 Table 6-2), issued by lantern l
  | nop (l : Nat) (f : FmtC)
  | add (l : Nat) (f : FmtS)
  | sub (l : Nat) (f : FmtS)
  | and (l : Nat) (f : FmtS)
  | or (l : Nat) (f : FmtS)
  | xor (l : Nat) (f : FmtS)
  | shl (l : Nat) (f : FmtS)
  | shr (l : Nat) (f : FmtS)
  | sar (l : Nat) (f : FmtS)
  | mul (l : Nat) (f : FmtS)
  | slt (l : Nat) (f : FmtS)
  | sltu (l : Nat) (f : FmtS)
  | addi (l : Nat) (f : FmtS)
  | lih (l : Nat) (f : FmtS)
  | sld (l : Nat) (f : FmtS)
  | sst (l : Nat) (f : FmtS)
  | rds (l : Nat) (f : FmtS)
  | beq (l : Nat) (f : FmtJ)
  | bne (l : Nat) (f : FmtJ)
  | blt (l : Nat) (f : FmtJ)
  | bge (l : Nat) (f : FmtJ)
  | jmp (l : Nat) (f : FmtJ)
  | jr (l : Nat) (f : FmtJ)
  | step (l : Nat) (f : FmtC)
  | fence (l : Nat) (f : FmtC)
  | trapi (l : Nat) (f : FmtC)
  | aop (l : Nat) (f : FmtA)
  | aclr (l : Nat) (f : FmtK)
  | ard (l : Nat) (f : FmtK)
  | aexp (l : Nat) (f : FmtK)
  | aimp (l : Nat) (f : FmtK)
  | widot (l : Nat) (f : FmtL)
  | wfdot (l : Nat) (f : FmtL)
  | wvb (l : Nat) (f : FmtL)
  | wvu (l : Nat) (f : FmtL)
  | wred (l : Nat) (f : FmtL)
  | wsmx (l : Nat) (f : FmtL)
  | wqnt (l : Nat) (f : FmtL)
  | wgth (l : Nat) (f : FmtL)
  | wtopk (l : Nat) (f : FmtL)
  | wsmp (l : Nat) (f : FmtL)
  | qld (l : Nat) (f : FmtL)
  | ascr (l : Nat) (f : FmtL)
  | aval (l : Nat) (f : FmtL)
  | kapp (l : Nat) (f : FmtL)
  | kmark (l : Nat) (f : FmtL)
  | krew (l : Nat) (f : FmtL)
  | krel (l : Nat) (f : FmtL)
  | kwalk (l : Nat) (f : FmtL)
  | kxfr (l : Nat) (f : FmtL)
  | copy (l : Nat) (f : FmtL)
  | trd (l : Nat) (f : FmtL)
  | send (l : Nat) (f : FmtL)
  | clr (l : Nat) (f : FmtL)
  | recv (l : Nat) (f : FmtQ)
  | qpeek (l : Nat) (f : FmtQ)
  | qpop (l : Nat) (f : FmtQ)
  | qmark (l : Nat) (f : FmtQ)
  | qrewind (l : Nat) (f : FmtQ)
  | qrel (l : Nat) (f : FmtQ)
  | qstat (l : Nat) (f : FmtQ)
  -- Events of a lantern
  | storeError (l : Nat)
  /-- eng 0 to 6 in the bit order of FENCE, 7 the sequencer. -/
  | waitEnd (l eng : Nat)
  | arrayOpStart (l bank : Nat)
  | phaseComplete (l bank : Nat)
  | arrayOpComplete (l bank : Nat)
  | outlierResidual (l bank : Nat)
  | bankRestoreDone (l bank : Nat)
  | referenceOperation (l arr : Nat)
  | driftStaleTimeout (l arr : Nat)
  | temperatureUpdate (field : Nat)
  -- Fabric
  /-- Head flit of an input port's virtual channel; inPort 0 local, 1 north, 2 east, 3 south, 4 west. -/
  | flitHop (router inPort : Nat) (cls : Fin 4) (vcb : Bool)
  /-- Source as a DEST code. -/
  | weirRelease (src part : Nat)
  | linkCrcMismatch (router port link : Nat) (flit : Nat)
  | laneTestDone (router port link : Nat) (r : LaneResult)
  | orderRun (router port : Nat)
  | orderEndstep (router port : Nat)
  | qlineArrival (l : Nat)
  | accxArrival (l : Nat)
  | creditArrival (l : Nat)
  | xhdrArrival (l : Nat)
  | xdataArrival (l : Nat)
  | xackArrival (l : Nat)
  | kvReservedSub (l : Nat)
  | mgmtFlit (op : MgmtOp)
  | rimRunnel (tile : Nat)
  | rimEndnote (tile : Nat)
  | rimTrace
  | rimZendenChannel (tile : Nat)
  | rimUnlistedChannel (tile : Nat)
  -- Zenden
  | zendenGroupReceive (z : Nat) (g : ZGroup)
  | zendenAckTimeout (z : Nat)
  | zendenIdleHeader (z : Nat)
  | zendenLinkDown (z : Nat) (why : ZDown)
  | zendenLinkTrained (z : Nat) (peer : BitVec 64)
  | ringFormReceive (index : Nat)
  | ringDoneReceive (size : Nat)
  | ringFormTimeout
  -- Steps and faults
  | stepBoundary (part : Nat)
  | boundarySeen (l : Nat)
  | stepWatchdogExpiry (part : Nat)
  | partitionStop (part : Nat)
  | partitionFault (part : Nat)
  /-- Fail votes (voter, lantern) of the retest. -/
  | faultRetestDone (part : Nat) (votes : List (Nat × Nat))
  | partitionReloadDone (part : Nat)
  | configCrcRecompute (u : CfgUnit)
  | configScrub
  | calibrationScrub
  | driftSave
  | lockstepMismatch (p : Proc)
  | holdClear
  | standbySelftestDone (p : Proc) (pass : Bool)
  | lamplighterError
  | lamplighterRestartDone
  -- Serving
  | prefillDone (part : Nat) (tag : BitVec 64) (t : Tok)
  /-- The main model's tokens of a pass in position order, and the drafts proposed. -/
  | decodePassDone (part : Nat) (tag : BitVec 64) (toks : List Tok) (drafts : List (BitVec 32))
  | passStart (part : Nat) (tag : BitVec 64)
  | requestEnd (part : Nat) (tag : BitVec 64)
  | interruptTimer (fn : Fn) (src : IntSource)
  | cisternPauseDone (part : Nat) (tag : BitVec 64)
  /-- authOk is false when a cistern line failed authentication. -/
  | cisternResumeDone (part : Nat) (tag : BitVec 64) (authOk : Bool)
  | contextTtlExpiry (handle : BitVec 64)
  | arrayProgrammingDone (l arr : Nat) (ok : Bool)
  | weightLoadIdleTimeout (part : Nat)
  /-- Arrays whose erasure failed verify. -/
  | erasureDone (failed : List (Nat × Nat))
  | touchUpChunk (l arr : Nat) (ok : Bool)
  | refreshIdle (part : Nat)
  -- Power and host links
  | pwrEnAssert (slotId : Fin 16)
  | pwrEnDeassert
  | powerDownSaveDone
  | j1Connect (mv : Nat)
  | inputOvervoltageWarn (mv : Nat)
  | railFault (rail cause group mv : Nat)
  | phaseFailure (group : Nat)
  /-- Comparator: field sensors' diode 4 * field + n, or 400 + outlet sensor. -/
  | hardTrip (comparator : Nat)
  | perstAssert (p : HostPort)
  | perstDeassert (p : HostPort)
  | functionLevelReset (fn : Fn)
  | hostLinkDown (p : HostPort)
  | hostLinkReturn (p : HostPort)
  | hostLinkHoldTimeout (p : HostPort)
  | hostPortRetrain (p : HostPort) (ok : Bool)
  /-- cage 0, 1 host ports A, B; 2 to 5 Zenden ports. -/
  | cableInsert (cage : Nat) (answers powerOk : Bool)
  | sensorSample (r : Readings)
  | coolantStopClear
  | thermalModelUpdate
  | thermalDrainTimeout (part : Nat)
  | thermalHoldRelease (part : Nat)
  | capFactorUpdate
  /-- Measured package power of the window, mW. -/
  | powerWindow (part mw : Nat)
  /-- Input power and cistern power, mW. -/
  | flowEstimateUpdate (pin pcis : Nat)
  | flowBandRaise
  /-- Path resistance of the eight points of a field, micro-ohm; none a lost point. Field current, mA. -/
  | pathResistanceSample (field : Nat) (points : List (Option Nat)) (mA : Nat)
  | domainRampStart (field vcoreHeadroom vanaHeadroom : Nat)
  | rampHeadroomTimeout (field : Nat)
  | domainRampDone (field : Nat)
  | lanternTimeAcquired (l : Nat)
  | domainOffAfterWork (field : Nat)
  | vcoreVoltageStep (field : Nat)
  | timeBaseBroadcast
  -- Bring-up
  | vaonGood
  | romSelftestDone (pass : Bool)
  | lamplighterFwStart
  | firmwareMeasured (aOk bOk : Bool)
  | hostLinkTrained (p : HostPort) (ok : Bool)
  | cisternTrainingDone (failed : List Nat)
  | calibrationReconcile
  | fieldSelfTestDone (badRouters badIslands : List Nat)
  | neighbourTestDone (votes : List (Nat × Nat))
  | repairMapApply
  /-- The event brings nothing: what the probes measure is the state's. -/
  | retentionCheckDone (event : Unit)
  | dormantRecordCheck
  | readyAssert
  -- Security protocols
  | spdmGetVersion (ep : SpdmEp)
  | spdmGetCapabilities (ep : SpdmEp)
  | spdmNegotiateAlgorithms (ep : SpdmEp)
  | spdmGetDigests (ep : SpdmEp)
  | spdmGetCertificate (ep : SpdmEp) (slot : Nat)
  | spdmChallenge (ep : SpdmEp) (slot : Nat) (nonce : BitVec 256)
  | spdmGetMeasurements (ep : SpdmEp) (index : Nat) (sign : Bool)
  | spdmKeyExchange (ep : SpdmEp) (reqSession : Nat)
  | spdmFinish (ep : SpdmEp) (session : Nat) (ok : Bool)
  | spdmHeartbeat (ep : SpdmEp) (session : Nat)
  | spdmKeyUpdate (ep : SpdmEp) (session : Nat)
  | spdmEndSession (ep : SpdmEp) (session : Nat)
  | spdmUnsupportedRequest (ep : SpdmEp) (code : Nat)
  | pldmFirmwareUpdate (image : List Byte)
  | coolantKind (v : Nat)
  | pldmEventAck (mask : BitVec 32)
  | dynamicAddressAssign (addr : BitVec 7)
  | rstdaa
  | thermTripRelease
  | rimFunctionLost (tile : Nat)
  | phaseUpdateDone (ok : Bool)
  | jtagInstruction (op : JtagOp)
  | zendenActivateNotice (z : Nat)
  | refreshWindowEnd (part : Nat)
  | powerDownRestart
  deriving DecidableEq, Repr

end Sys2Proof
end

