-- ==== Sys2Proof/WellFormed.lean ====
section
/-! DEFINITION. Well-formed commands: every number of a unit that a command names is one of the module (01 R15 to R25, 09 R261 to R263). -/

namespace Sys2Proof

/-- Lanterns and routers 0 to 1,599 (01 R16). -/
def lanternOk (l : Nat) : Bool := decide (l < 1600)
/-- Fields 0 to 99 (01 R15). -/
def fieldOk (f : Nat) : Bool := decide (f < 100)
/-- Rim tiles 0 to 39 (13 Table 13-2). -/
def tileOk (t : Nat) : Bool := decide (t < 40)
/-- ADC banks 0 to 31 (01 R22). -/
def bankOk (b : Nat) : Bool := decide (b < 32)
/-- Wick arrays 0 to 255 (01 R22). -/
def arrOk (a : Nat) : Bool := decide (a < 256)
/-- Router ports 0 local, 1 north, 2 east, 3 south, 4 west (08 R232). -/
def portOk (p : Nat) : Bool := decide (p < 5)
/-- The links of a port (08 R232): 0 and 1 outbound, 2 and 3 the inbound links 0 and 1 (11 Table 11-4). -/
def linkOk (k : Nat) : Bool := decide (k < 4)
/-- Zenden ports Z0 to Z3 (01 Table 1-4). -/
def zenOk (z : Nat) : Bool := decide (z < 4)
/-- Partition numbers 0 to 15 (01 R28). -/
def partOk (p : Nat) : Bool := decide (p < 16)
/-- Function 0 the PF, 1 to 16 the VFs (09 R261). -/
def fnOk (fn : Fn) : Bool := decide (fn.num ≤ 16)
/-- A submission entry: its function and queue exist (09 R261, R263). -/
def entryOk (e : Entry) : Bool := fnOk e.fn && decide (e.sqid < 64)
def epOk : SpdmEp → Bool
  | .vf fn => fnOk fn
  | _ => true
def mgmtOk : MgmtOp → Bool
  | .channel4Producer l _ => lanternOk l
  | .mgmtSluiceDest l _ => lanternOk l
  | .cacheTable l _ _ => lanternOk l
  | .permitMask r pn _ => lanternOk r && partOk pn
  | .routeExceptions r es => lanternOk r && es.all (fun e => portOk e.2.2)
  | .orderBank r p _ _ _ _ => lanternOk r && portOk p
def cfgUnitOk : CfgUnit → Bool
  | .lantern n => lanternOk n
  | .router n => lanternOk n
def readingsOk (r : Readings) : Bool := r.fields.all (fun e => fieldOk e.1)
/-- Votes: the voter is a lantern or, at the edge, a rim tile as a DEST code (11 R335). -/
def votesOk (v : List (Nat × Nat)) : Bool := v.all (fun e => decide (e.1 < 1640) && lanternOk e.2)
def arraysOk (v : List (Nat × Nat)) : Bool := v.all (fun e => lanternOk e.1 && arrOk e.2)

/-- Is a command well formed? The module has every unit it names. -/
def Instr.wf : Instr → Bool
  | .identify e => entryOk e
  | .qpCreate e => entryOk e
  | .qpDelete e => entryOk e
  | .ringForm e => entryOk e
  | .ringMode e => entryOk e
  | .partCreate e => entryOk e
  | .partDelete e => entryOk e
  | .partSet e => entryOk e
  | .programLoad e => entryOk e
  | .partStart e => entryOk e
  | .partDrain e => entryOk e
  | .partQuery e => entryOk e
  | .submit e => entryOk e
  | .cancel e => entryOk e
  | .reqQuery e => entryOk e
  | .adapterLoad e => entryOk e
  | .adapterRelease e => entryOk e
  | .pause e => entryOk e
  | .exportCtx e => entryOk e
  | .importCtx e => entryOk e
  | .discard e => entryOk e
  | .setTtl e => entryOk e
  | .weightOpen e => entryOk e
  | .weightChunk e => entryOk e
  | .weightClose e => entryOk e
  | .weightStatus e => entryOk e
  | .eraseWeights e => entryOk e
  | .zeroise e => entryOk e
  | .debugUnlock e => entryOk e
  | .debugLock e => entryOk e
  | .telemetryRead e => entryOk e
  | .monitorSet e => entryOk e
  | .eventRingSet e => entryOk e
  | .counterSelect e => entryOk e
  | .setSpares e => entryOk e
  | .driftComp e => entryOk e
  | .refreshSet e => entryOk e
  | .refreshWindow e => entryOk e
  | .recalibrate e => entryOk e
  | .fwUpdate e => entryOk e
  | .microcodeUpdate e => entryOk e
  | .unassignedOpcode e _ => entryOk e
  | .sqTail fn q _ => fnOk fn && decide (q < 64)
  | .cqHead fn q _ => fnOk fn && decide (q < 64)
  | .runnelCons fn r _ => fnOk fn && decide (r < 1024)
  | .mbCtrlEnable fn _ => fnOk fn
  | .mbCtrlDisable fn _ => fnOk fn
  | .evCons fn _ => fnOk fn
  | .alertStatusClear fn _ => fnOk fn
  | .traceCtrlWrite fn _ => fnOk fn
  | .pertHsdelayWrite fn part i _ => fnOk fn && partOk part && decide (i < 4)
  | .pertCreditWrite fn part _ => fnOk fn && partOk part
  | .pertStretchWrite fn part _ => fnOk fn && partOk part
  | .pertAdcWrite fn part _ => fnOk fn && partOk part
  | .pertRetrain fn part _ => fnOk fn && partOk part
  | .fiParity fn part _ => fnOk fn && partOk part
  | .fiPoison fn part _ => fnOk fn && partOk part
  | .registerWrite fn _ _ _ _ => fnOk fn
  | .nop l _ => lanternOk l
  | .add l _ => lanternOk l
  | .sub l _ => lanternOk l
  | .and l _ => lanternOk l
  | .or l _ => lanternOk l
  | .xor l _ => lanternOk l
  | .shl l _ => lanternOk l
  | .shr l _ => lanternOk l
  | .sar l _ => lanternOk l
  | .mul l _ => lanternOk l
  | .slt l _ => lanternOk l
  | .sltu l _ => lanternOk l
  | .addi l _ => lanternOk l
  | .lih l _ => lanternOk l
  | .sld l _ => lanternOk l
  | .sst l _ => lanternOk l
  | .rds l _ => lanternOk l
  | .beq l _ => lanternOk l
  | .bne l _ => lanternOk l
  | .blt l _ => lanternOk l
  | .bge l _ => lanternOk l
  | .jmp l _ => lanternOk l
  | .jr l _ => lanternOk l
  | .step l _ => lanternOk l
  | .fence l _ => lanternOk l
  | .trapi l _ => lanternOk l
  | .aop l _ => lanternOk l
  | .aclr l _ => lanternOk l
  | .ard l _ => lanternOk l
  | .aexp l _ => lanternOk l
  | .aimp l _ => lanternOk l
  | .widot l _ => lanternOk l
  | .wfdot l _ => lanternOk l
  | .wvb l _ => lanternOk l
  | .wvu l _ => lanternOk l
  | .wred l _ => lanternOk l
  | .wsmx l _ => lanternOk l
  | .wqnt l _ => lanternOk l
  | .wgth l _ => lanternOk l
  | .wtopk l _ => lanternOk l
  | .wsmp l _ => lanternOk l
  | .qld l _ => lanternOk l
  | .ascr l _ => lanternOk l
  | .aval l _ => lanternOk l
  | .kapp l _ => lanternOk l
  | .kmark l _ => lanternOk l
  | .krew l _ => lanternOk l
  | .krel l _ => lanternOk l
  | .kwalk l _ => lanternOk l
  | .kxfr l _ => lanternOk l
  | .copy l _ => lanternOk l
  | .trd l _ => lanternOk l
  | .send l _ => lanternOk l
  | .clr l _ => lanternOk l
  | .recv l _ => lanternOk l
  | .qpeek l _ => lanternOk l
  | .qpop l _ => lanternOk l
  | .qmark l _ => lanternOk l
  | .qrewind l _ => lanternOk l
  | .qrel l _ => lanternOk l
  | .qstat l _ => lanternOk l
  | .storeError l => lanternOk l
  | .waitEnd l eng => lanternOk l && decide (eng < 8)
  | .arrayOpStart l bank => lanternOk l && bankOk bank
  | .phaseComplete l bank => lanternOk l && bankOk bank
  | .arrayOpComplete l bank => lanternOk l && bankOk bank
  | .outlierResidual l bank => lanternOk l && bankOk bank
  | .bankRestoreDone l bank => lanternOk l && bankOk bank
  | .referenceOperation l arr => lanternOk l && arrOk arr
  | .driftStaleTimeout l arr => lanternOk l && arrOk arr
  | .temperatureUpdate field => fieldOk field
  | .flitHop router inPort _ _ => lanternOk router && portOk inPort
  | .weirRelease src part => decide (src < 1640) && partOk part
  | .linkCrcMismatch router port link _ => lanternOk router && portOk port && linkOk link
  | .laneTestDone router port link _ => lanternOk router && portOk port && linkOk link
  | .orderRun router port => lanternOk router && portOk port
  | .orderEndstep router port => lanternOk router && portOk port
  | .qlineArrival l => lanternOk l
  | .accxArrival l => lanternOk l
  | .creditArrival l => lanternOk l
  | .xhdrArrival l => lanternOk l
  | .xdataArrival l => lanternOk l
  | .xackArrival l => lanternOk l
  | .kvReservedSub l => lanternOk l
  | .mgmtFlit op => mgmtOk op
  | .rimRunnel tile => tileOk tile
  | .rimEndnote tile => tileOk tile
  | .rimTrace => true
  | .rimZendenChannel tile => tileOk tile
  | .rimUnlistedChannel tile => tileOk tile
  | .zendenGroupReceive z _ => zenOk z
  | .zendenAckTimeout z => zenOk z
  | .zendenIdleHeader z => zenOk z
  | .zendenLinkDown z _ => zenOk z
  | .zendenLinkTrained z _ => zenOk z
  | .ringFormReceive _ => true
  | .ringDoneReceive _ => true
  | .ringFormTimeout => true
  | .stepBoundary part => partOk part
  | .boundarySeen l => lanternOk l
  | .stepWatchdogExpiry part => partOk part
  | .partitionStop part => partOk part
  | .partitionFault part => partOk part
  | .faultRetestDone part votes => partOk part && votesOk votes
  | .partitionReloadDone part => partOk part
  | .configCrcRecompute u => cfgUnitOk u
  | .configScrub => true
  | .calibrationScrub => true
  | .driftSave => true
  | .lockstepMismatch _ => true
  | .holdClear => true
  | .standbySelftestDone _ _ => true
  | .lamplighterError => true
  | .lamplighterRestartDone => true
  | .prefillDone part _ _ => partOk part
  | .decodePassDone part _ _ _ => partOk part
  | .passStart part _ => partOk part
  | .requestEnd part _ => partOk part
  | .interruptTimer fn _ => fnOk fn
  | .cisternPauseDone part _ => partOk part
  | .cisternResumeDone part _ _ => partOk part
  | .contextTtlExpiry _ => true
  | .arrayProgrammingDone l arr _ => lanternOk l && arrOk arr
  | .weightLoadIdleTimeout part => partOk part
  | .erasureDone failed => arraysOk failed
  | .touchUpChunk l arr _ => lanternOk l && arrOk arr
  | .refreshIdle part => partOk part
  | .pwrEnAssert _ => true
  | .pwrEnDeassert => true
  | .powerDownSaveDone => true
  | .j1Connect _ => true
  | .inputOvervoltageWarn _ => true
  | .railFault _ _ _ _ => true
  | .phaseFailure group => decide (group < 45)
  | .hardTrip comparator => decide (comparator < 404)
  | .perstAssert _ => true
  | .perstDeassert _ => true
  | .functionLevelReset fn => fnOk fn
  | .hostLinkDown _ => true
  | .hostLinkReturn _ => true
  | .hostLinkHoldTimeout _ => true
  | .hostPortRetrain _ _ => true
  | .cableInsert cage _ _ => decide (cage < 6)
  | .sensorSample r => readingsOk r
  | .coolantStopClear => true
  | .thermalModelUpdate => true
  | .thermalDrainTimeout part => partOk part
  | .thermalHoldRelease part => partOk part
  | .capFactorUpdate => true
  | .powerWindow part _ => partOk part
  | .flowEstimateUpdate _ _ => true
  | .flowBandRaise => true
  | .pathResistanceSample field _ _ => fieldOk field
  | .domainRampStart field _ _ => fieldOk field
  | .rampHeadroomTimeout field => fieldOk field
  | .domainRampDone field => fieldOk field
  | .lanternTimeAcquired l => lanternOk l
  | .domainOffAfterWork field => fieldOk field
  | .vcoreVoltageStep field => fieldOk field
  | .timeBaseBroadcast => true
  | .vaonGood => true
  | .romSelftestDone _ => true
  | .lamplighterFwStart => true
  | .firmwareMeasured _ _ => true
  | .hostLinkTrained _ _ => true
  | .cisternTrainingDone failed => failed.all (fun n => decide (n < 12))
  | .calibrationReconcile => true
  | .fieldSelfTestDone badRouters badIslands => badRouters.all lanternOk && badIslands.all fieldOk
  | .neighbourTestDone votes => votesOk votes
  | .repairMapApply => true
  | .retentionCheckDone _ => true
  | .dormantRecordCheck => true
  | .readyAssert => true
  | .spdmGetVersion ep => epOk ep
  | .spdmGetCapabilities ep => epOk ep
  | .spdmNegotiateAlgorithms ep => epOk ep
  | .spdmGetDigests ep => epOk ep
  | .spdmGetCertificate ep _ => epOk ep
  | .spdmChallenge ep _ _ => epOk ep
  | .spdmGetMeasurements ep _ _ => epOk ep
  | .spdmKeyExchange ep _ => epOk ep
  | .spdmFinish ep _ _ => epOk ep
  | .spdmHeartbeat ep _ => epOk ep
  | .spdmKeyUpdate ep _ => epOk ep
  | .spdmEndSession ep _ => epOk ep
  | .spdmUnsupportedRequest ep _ => epOk ep
  | .pldmFirmwareUpdate _ => true
  | .coolantKind _ => true
  | .pldmEventAck _ => true
  | .dynamicAddressAssign _ => true
  | .rstdaa => true
  | .thermTripRelease => true
  | .rimFunctionLost tile => tileOk tile
  | .phaseUpdateDone _ => true
  | .jtagInstruction _ => true
  | .zendenActivateNotice z => zenOk z
  | .refreshWindowEnd part => partOk part
  | .powerDownRestart => true

end Sys2Proof
end

