-- ==== Sys2Proof/Config.lean ====
section
/-! DEFINITION. What one module fixes and what the spec leaves open: constants without a body, so that no proof can see a value of them. -/

namespace Sys2Proof.Config

/-- FREE VALUE. Programming error of a cell after verify, in nS (03 Table 3-9: a distribution; the model holds it to the verify band): array, programming cycle, cell. -/
opaque cellError : Nat → Nat → Nat → Int
/-- FREE VALUE. What drift has left of a cell's conductance, in 2^-15 (03 Table 3-9: its exponent spreads from cell to cell, its time follows the temperature; the model holds it to 1): array, programming cycle, cell, powered seconds. -/
opaque cellKeep : Nat → Nat → Nat → Nat → Nat
/-- FREE VALUE. Read noise of conversion or read n, in 2^-12 product units (03 Table 3-9 gives a spread). -/
opaque readNoise : Nat → Int
/-- FREE VALUE. Noise of the ADC in conversion n, in 2^-12 code (03 Table 3-9 gives a spread). -/
opaque adcNoise : Nat → Int
/-- FREE VALUE. Differential non-linearity of an ADC at a code, in 2^-12 code (the model holds it and its sum to Table 3-9). -/
opaque adcDnl : Nat → Nat → Int
/-- FREE VALUE. Bytes the Lamplighter's generator draws (10 R299): draw n. -/
opaque drbg : Nat → BitVec 256
/-- SHA-384, named by FIPS 180-4 only (10 Table 10-1). -/
opaque sha384 : List Byte → BitVec 384
/-- AES-256-GCM decryption (10 Table 10-1): key, iv, additional data, ciphertext, tag; none when the tag fails. -/
opaque gcmOpen : BitVec 256 → List Byte → List Byte → List Byte → List Byte → Option (List Byte)
/-- AES-256-GCM encryption: ciphertext followed by the tag of 16 bytes. -/
opaque gcmSeal : BitVec 256 → List Byte → List Byte → List Byte → List Byte
/-- HKDF with SHA-384: salt, input key material, info; 32 bytes out (10 R316, R323). -/
opaque hkdf : List Byte → List Byte → List Byte → BitVec 256
/-- ECDH P-384: private key, peer public key; the shared x (10 R316). -/
opaque ecdh : BitVec 256 → List Byte → List Byte
/-- ML-KEM-1024 decapsulation: private key, ciphertext (10 R316). -/
opaque kemDecaps : BitVec 256 → List Byte → List Byte
/-- The P-384 public key of a private key, uncompressed, 97 bytes (10 Table 10-11). -/
opaque ecPublic : BitVec 256 → List Byte
/-- The ML-KEM-1024 encapsulation key of a private key, 1,568 bytes (10 Table 10-11). -/
opaque kemPublic : BitVec 256 → List Byte
/-- ECDSA P-384 signature: private key, random draw, message; 96 bytes. -/
opaque ecSign : BitVec 256 → BitVec 256 → List Byte → List Byte
/-- ML-DSA-87 signature: private key, random draw, message; 4,627 bytes. -/
opaque pqSign : BitVec 256 → BitVec 256 → List Byte → List Byte
/-- The alias private keys that Lamplighter firmware derives from the CDI (10 R306: the derivation's parameters are not given): P-384, ML-DSA-87. -/
opaque aliasEc : BitVec 256 → BitVec 256
opaque aliasPq : BitVec 256 → BitVec 256
/-- The certificate chain of the alias key that comes from a CDI (10 R306, R307: its encoding is X.509's). -/
opaque aliasChain : BitVec 256 → List Byte
/-- A measurement block in the DMTF format (10 R309 names the format only): index, content. -/
opaque dmtfBlock : Nat → List Byte → List Byte
/-- What an SPDM signature covers (10 R307 names DSP0274 only): the request's nonce and the state's draw. -/
opaque spdmMessage : BitVec 256 → Nat → List Byte
/-- ECDSA P-384 verification under the key of a slot: slot set (0 firmware, 1 debug), slot, message, signature. -/
opaque ecVerify : Nat → Nat → List Byte → List Byte → Bool
/-- ML-DSA-87 verification under the key of a slot. -/
opaque pqVerify : Nat → Nat → List Byte → List Byte → Bool
/-- The unique device secret the PUF regenerates (10 R306). -/
opaque uds : BitVec 256
/-- The Lamplighter ROM's digest (10 Table 10-6, index 1). -/
opaque romDigest : BitVec 384
/-- SHA-384 of this module's P-384 DeviceID public key (10 Table 10-15). -/
opaque devId : BitVec 384
/-- The module serial number (13 Table 13-8: per module). -/
opaque serial : BitVec 64
/-- true for SVW1-390-L1536, false for SVW1-390-L768 (00 Table 0-1). -/
opaque isL1536 : Bool
/-- FREE VALUE. Sign and payload of a NaN that an FP32 operation makes (04 R126 and 05 R162 give no payload). -/
opaque nanBits : BitVec 32
/-- FREE VALUE. Significand the accumulator takes for an FP32 or BF16 infinity or NaN (04 Table 4-9 gives none). -/
opaque accSpecial : BitVec 32 → Int
/-- FREE VALUE. DETAIL of the fault record of a trap cause for which no address, entry or TRAPI code is involved (06 R198): POWER_PLAN. -/
opaque trapDetail : Nat → Nat
/-- FREE VALUE. What WSMP reads of a request parameter line, whose layout no rule gives (06 Table 6-3): sampling, temperature, top-k, top-p, seed, position. -/
opaque wsmpParams : Line → Bool × BitVec 32 × Nat × BitVec 32 × BitVec 64 × Nat
/-- FREE VALUE. The request parameter line with its generator advanced. -/
opaque wsmpAdvance : Line → Line
/-- FREE VALUE. The lowest stage-1 logit among the 64 rescored candidates of a shortlist (03 R112): no operand of WSMP carries it. -/
opaque stageOneLow : List Line → BitVec 32
/-- FREE VALUE. Entries of a WTOPK result past the candidates given (no rule says what S > n leaves): index, value. -/
opaque topkPad : Nat → BitVec 32 × BitVec 32
/-- FREE VALUE. Where a NaN ranks among candidates (no rule orders NaNs). -/
opaque nanRank : BitVec 32 → BitVec 32
/-- FREE VALUE. CODE of an event record that a rule names and 13 Table 13-5 gives no code for: 0 RIM flit discarded (09 R298), 1 runnel flit discarded (09 R298). -/
opaque openCode : Nat → Nat
/-- The configured cable delay of a Zenden port, in ns (08 R256); no rule gives its width, 32 bits here (log 11). -/
opaque cableDelay : Nat → BitVec 32
/-- The digest of the key in an OTP key slot: set, slot (10 R303, Table 10-6 index 7). -/
opaque keySlotDigest : Nat → Nat → BitVec 384
/-- FREE VALUE. The power due under the step plans, in mW, of a field at prediction step n (12 R379). -/
opaque plannedPower : Nat → Nat → Nat
/-- FREE VALUE. Shares of a sequence under a cache layout digest (07 R203: which lanterns hold a layer's shares is the program's own): field index, slot, LAYOUT, S, J. -/
opaque cacheShares : BitVec 384 → List (Nat × Nat × Nat × Nat × Nat)
/-- FREE VALUE. Does module firmware spread the prompt of the request with this tag over the ring (07 R224, R226: it can)? -/
opaque ringSpread : BitVec 64 → Bool
/-- FREE VALUE. Does a line of the cistern pass authentication when it is read (00 R4): its place, the time? -/
opaque cisternIntact : Nat → Nat → Bool
/-- FREE VALUE. The cistern channel that holds a copy of weights, modulo 12 (10 R320, 11 R347 name none): the copy's number. -/
opaque copyChannel : Nat → Nat
/-- FREE VALUE. The 32 bytes of header and tag of a page image (07 R229 gives no layout): tag, image. -/
opaque imageHeader : Nat → Nat → BitVec 256
/-- FREE VALUE. Last position appended of a request that a fault ended within its prefill (09 Table 9-5 SUBMIT). -/
opaque appendedAt : BitVec 64 → Nat
/-- FREE VALUE. The lantern of a partition that counts its drafts (13 Table 13-1 sources 0x35, 0x36: no rule names it). -/
opaque draftLantern : Nat → Nat
/-- FREE VALUE. The cistern channel whose line failed authentication, modulo 12 (07 R230: the event names the request only). -/
opaque failedChannel : BitVec 64 → Nat
/-- FREE VALUE. Measured VCORE and VANA power of a field at a time, in mW (12 R433: the measurement comes from the power plate). -/
opaque fieldPower : Nat → Nat → Nat
/-- FREE VALUE. Last voltage measured on a rail whose fault is two phases out of service, in mV (12 R365). -/
opaque railVoltage : Nat → Nat
/-- FREE VALUE. Temperature the model takes where no healthy sensor gives one, in 1/8 K: 0 inlet, 1 outlet, 100 + f field f (12 R378 to R386 state none). -/
opaque noReading : Nat → Int
/-- FREE VALUE. PCIe generation that the training of a host port reaches: 0 for 7.0, 1 to 3 for those it falls back to (00 R8 Table 0-3 states no rule). -/
opaque linkGen : Nat → Fin 4
/-- FREE VALUE. Package digest of a chunk that is resident under 10 R319 and was not sent in this load, by its plaintext digest (10 R312 needs its ciphertext). -/
opaque residentDigest : BitVec 384 → BitVec 384
/-- FREE VALUE. Rank of an adapter package, by its header (09 R295 limits it; no rule says where it stands). -/
opaque adapterRank : List Byte → Nat
/-- FREE VALUE. The context record of 09 R291 as bytes, but for its page images (10 R324 gives no layout): last token, its position, adapter id and version, serial, per share LAYOUT, BASE, S, J, COUNT. -/
opaque contextText : Nat → Nat → Nat → Nat → Nat → List (Nat × Nat × Nat × Nat × Nat) → List Byte
/-- FREE VALUE. What such bytes say: last token, its position, adapter id and version, shares, and the page images that follow. -/
opaque contextParse : List Byte → Nat × Nat × Nat × Nat × List (Nat × Nat × Nat × Nat × Nat) × List Byte
/-- FREE VALUE. Size of BAR0 that IDENTIFY reports (13 Table 13-9; no rule gives it). -/
opaque bar0Size : Nat
/-- FREE VALUE. Code of a request state in REQ_QUERY's RESULT (09 Table 9-5 names the state, not its code): 0 PREFILL, 1 DECODE, 2 HELD, 3 ENDING. -/
opaque reqStateCode : Nat → BitVec 8
/-- FREE VALUE. Offset that a field recalibration measures (03 R97): measurement n, 3 bits residual or 8 bits band. -/
opaque recalOffset : Nat → BitVec 8
/-- FREE VALUE. Responder's half of an SPDM session number (10 R307 names DSP0274 only). -/
opaque spdmSession : Nat → Nat
/-- Digest of the image of a kind that the module shipped with (10 Table 10-3). -/
opaque shippedDigest : Nat → BitVec 384
/-- Its build identifier (10 Table 10-3). -/
opaque shippedBuild : Nat → BitVec 128

/-- Cycle count of a fabric island or rim tile at a time: each clock is its own (01 R23; 08 R252). -/
opaque fabricCycle : Nat → Nat → Nat
/-- How an island's copy of the time base moves against the master over 16 ns beside its correction: 0 holds, 1 gains, 2 loses (08 R240). -/
opaque islandStep : Nat → Nat → Nat

/-- Lines of a request as module firmware sends them: 0 the parameter line, then the prompt's token lines (06 R173; no layout is stated). -/
opaque requestLine : BitVec 64 → Nat → BitVec 544

end Sys2Proof.Config
end

