-- ==== Sys2Proof/Machine/Num.lean ====
section
/-! DEFINITION. Numbers: exact dyadic values, rounding to the floating-point types of 04 Table 4-1, FP32 operations, and the CRCs. -/

namespace Sys2Proof.Machine

/-- A floating-point value read exactly (04 R114): NaN, infinity, or (-1)^neg * m * 2^e. -/
inductive FV where
  | nan (neg : Bool)
  | inf (neg : Bool)
  | fin (neg : Bool) (m : Nat) (e : Int)
  deriving DecidableEq, Repr

/-- 2^k for an exponent that is not negative. -/
def pow2 (k : Int) : Nat := 2 ^ k.toNat

/-- An exact dyadic: m * 2^e. -/
structure Dy where
  m : Int
  e : Int
  deriving DecidableEq, Repr

def Dy.add (x y : Dy) : Dy :=
  if x.e ≤ y.e then ⟨x.m + y.m * (pow2 (y.e - x.e) : Int), x.e⟩
  else ⟨x.m * (pow2 (x.e - y.e) : Int) + y.m, y.e⟩

def Dy.mul (x y : Dy) : Dy := ⟨x.m * y.m, x.e + y.e⟩
def Dy.neg (x : Dy) : Dy := ⟨-x.m, x.e⟩
def Dy.zero : Dy := ⟨0, 0⟩
def Dy.le (x y : Dy) : Bool := decide (0 ≤ (y.add x.neg).m)
def Dy.lt (x y : Dy) : Bool := decide (0 < (y.add x.neg).m)

def Dy.toFV (x : Dy) : FV := .fin (decide (x.m < 0)) x.m.natAbs x.e
def FV.dy : FV → Dy
  | .fin n m e => ⟨if n then -(m : Int) else m, e⟩
  | _ => Dy.zero
/-- The dyadic as a rational number. -/
def Dy.rat (x : Dy) : Rat :=
  if 0 ≤ x.e then (x.m * (pow2 x.e : Int) : Int) else mkRat x.m (pow2 (-x.e))

def FV.isNan : FV → Bool
  | .nan _ => true
  | _ => false
def FV.neg : FV → Bool
  | .nan n => n
  | .inf n => n
  | .fin n _ _ => n
def FV.isZero : FV → Bool
  | .fin _ 0 _ => true
  | _ => false

/-- Quotient q and exponent u of num / den * 2^e at ulp 2^u, rounded to nearest, ties to even. -/
def roundAt (num den : Nat) (e u : Int) : Nat :=
  let n := if u ≤ e then num * pow2 (e - u) else num
  let d := if u ≤ e then den else den * pow2 (u - e)
  let q := n / d
  let r := n % d
  if d < 2 * r ∨ (2 * r = d ∧ q % 2 = 1) then q + 1 else q

/-- The exponent of the ulp for precision p and least exponent emin. -/
def ulpOf (p : Nat) (emin : Int) (num den : Nat) (e : Int) : Int :=
  let g : Int := (num.log2 : Int) - (den.log2 : Int) + e - (p : Int) + 1
  -- num / den lies in (2^(log2 num - log2 den - 1), 2^(log2 num - log2 den + 1))
  let below : Bool := if 0 ≤ (num.log2 : Int) - (den.log2 : Int)
    then decide (num < den * 2 ^ (num.log2 - den.log2)) else decide (num * 2 ^ (den.log2 - num.log2) < den)
  let g := if below then g - 1 else g
  if g < emin then emin else g

/-- Round num / den * 2^e to precision p: significand and exponent. -/
def roundQ (p : Nat) (emin : Int) (num den : Nat) (e : Int) : Nat × Int :=
  if num = 0 then (0, emin) else
  let u := ulpOf p emin num den e
  (roundAt num den e u, u)

/-- Decode sign, exponent field, mantissa field of an IEEE-like layout. -/
def decodeIEEE (mb : Nat) (bias : Int) (emax : Nat) (neg : Bool) (ex mant : Nat) : FV :=
  if ex = emax then (if mant = 0 then .inf neg else .nan neg)
  else if ex = 0 then .fin neg mant (1 - bias - mb)
  else .fin neg (2 ^ mb + mant) ((ex : Int) - bias - mb)

def decode32 (b : F32) : FV :=
  decodeIEEE 23 127 255 (b.getLsbD 31) (b.toNat / 2 ^ 23 % 256) (b.toNat % 2 ^ 23)

def decodeBF16 (b : Nat) : FV := decodeIEEE 7 127 255 (decide (b / 2 ^ 15 % 2 = 1)) (b / 2 ^ 7 % 256) (b % 2 ^ 7)
def decodeE5M2 (b : Nat) : FV := decodeIEEE 2 15 31 (decide (b / 128 % 2 = 1)) (b / 4 % 32) (b % 4)
def decodeE4M3 (b : Nat) : FV :=
  let neg := decide (b / 128 % 2 = 1)
  if b % 128 = 127 then .nan neg
  else if b / 8 % 16 = 0 then .fin neg (b % 8) (-9)
  else .fin neg (8 + b % 8) ((b / 8 % 16 : Nat) - 10)
def decodeFP4 (b : Nat) : FV :=
  let neg := decide (b / 8 % 2 = 1)
  if b / 2 % 4 = 0 then .fin neg (b % 2) (-1) else .fin neg (2 + b % 2) ((b / 2 % 4 : Nat) - 2)
/-- Two's complement of w bits. -/
def decodeInt (w b : Nat) : FV :=
  let b := b % 2 ^ w
  if b < 2 ^ (w - 1) then .fin false b 0 else .fin true (2 ^ w - b) 0

/-- Encode a rounded finite value of an IEEE-like layout of mb mantissa bits: (q, u) with ulp exponent at least 1 - bias - mb. -/
def encodeIEEE (mb : Nat) (bias : Int) (neg : Bool) (q : Nat) (u : Int) : Nat :=
  let eb := (2 * bias + 1).toNat  -- exponent field maximum
  let (q, u) := if q = 2 ^ (mb + 1) then (2 ^ mb, u + 1) else (q, u)
  let body := if q < 2 ^ mb then q else
    let ex := u + bias + mb
    if (eb : Int) ≤ ex then eb * 2 ^ mb else ex.toNat * 2 ^ mb + (q - 2 ^ mb)
  (if neg then (eb + 1) * 2 ^ mb else 0) + body

/-- Encode a rounded finite value that the layout holds: every value of the exponent field is a number's. -/
def encodeFin (mb : Nat) (bias : Int) (neg : Bool) (q : Nat) (u : Int) : Nat :=
  let (q, u) := if q = 2 ^ (mb + 1) then (2 ^ mb, u + 1) else (q, u)
  (if neg then (2 * bias + 2).toNat * 2 ^ mb else 0) + (if q < 2 ^ mb then q else (u + bias + mb).toNat * 2 ^ mb + (q - 2 ^ mb))

/-- A NaN an operation makes; sign and payload are free. -/
def qnan : F32 := 0x7FC00000#32 ||| (Config.nanBits &&& 0x803FFFFF#32)

/-- Round num / den * 2^e to FP32 (04 R126). -/
def round32 (neg : Bool) (num den : Nat) (e : Int) : F32 :=
  let (q, u) := roundQ 24 (-149) num den e
  BitVec.ofNat 32 (encodeIEEE 23 127 neg q u)

/-- FP32 of an exact value (04 Table 4-7): an exact zero is +0 (R114); a NaN keeps its sign, its payload is free. -/
def toF32 : FV → F32
  | .nan neg => (if neg then 0xFFC00000#32 else 0x7FC00000#32) ||| (Config.nanBits &&& 0x003FFFFF#32)
  | .inf neg => if neg then 0xFF800000#32 else 0x7F800000#32
  | .fin neg m e => if m = 0 then 0 else round32 neg m 1 e

def F32.ofDy (x : Dy) : F32 := toF32 x.toFV
def F32.ofRat (x : Rat) : F32 :=
  if x.num = 0 then 0 else round32 (decide (x.num < 0)) x.num.natAbs x.den 0
/-- The finite value of an FP32 pattern as an exact dyadic; zero for NaN and infinity. -/
def F32.dy (b : F32) : Dy := (decode32 b).dy

/-! FP32 operations, each rounded once (03 R68; 05 R162). -/

def fadd (a b : F32) : F32 :=
  match decode32 a, decode32 b with
  | .nan _, _ => qnan
  | _, .nan _ => qnan
  | .inf x, .inf y => if x = y then a else qnan
  | .inf _, _ => a
  | _, .inf _ => b
  | .fin x m e, .fin y n f =>
    if m = 0 ∧ n = 0 then (if x && y then 0x80000000#32 else 0)
    else F32.ofDy (Dy.add (FV.fin x m e).dy (FV.fin y n f).dy)

def fneg (a : F32) : F32 := a ^^^ 0x80000000#32
def fsub (a b : F32) : F32 := fadd a (fneg b)

def fmul (a b : F32) : F32 :=
  match decode32 a, decode32 b with
  | .nan _, _ => qnan
  | _, .nan _ => qnan
  | .inf x, y => if y.isZero then qnan else if x = y.neg then 0x7F800000#32 else 0xFF800000#32
  | x, .inf y => if x.isZero then qnan else if x.neg = y then 0x7F800000#32 else 0xFF800000#32
  | .fin x m e, .fin y n f =>
    if m * n = 0 then (if x = y then 0 else 0x80000000#32) else round32 (x != y) (m * n) 1 (e + f)

/-- a * b + c, rounded once. -/
def ffma (a b c : F32) : F32 :=
  match decode32 a, decode32 b, decode32 c with
  | .fin x m e, .fin y n f, .fin z k g =>
    let p := Dy.mul (FV.fin x m e).dy (FV.fin y n f).dy
    let s := Dy.add p (FV.fin z k g).dy
    if s.m = 0 then (if m * n = 0 ∧ k = 0 ∧ (x != y) ∧ z then 0x80000000#32 else 0) else F32.ofDy s
  | .fin _ _ _, .fin _ _ _, _ => if (decode32 c).isNan then qnan else c
  | _, _, _ => fadd (fmul a b) c

def fdiv (a b : F32) : F32 :=
  match decode32 a, decode32 b with
  | .nan _, _ => qnan
  | _, .nan _ => qnan
  | .inf _, .inf _ => qnan
  | .inf x, y => if x = y.neg then 0x7F800000#32 else 0xFF800000#32
  | x, .inf y => if x.neg = y then 0 else 0x80000000#32
  | .fin x m e, .fin y n f =>
    if n = 0 then (if m = 0 then qnan else if x = y then 0x7F800000#32 else 0xFF800000#32)
    else if m = 0 then (if x = y then 0 else 0x80000000#32)
    else round32 (x != y) m n (e - f)

/-- a < b on values; false when either is NaN. -/
def flt (a b : F32) : Bool :=
  match decode32 a, decode32 b with
  | .nan _, _ => false
  | _, .nan _ => false
  | .inf x, .inf y => x && !y
  | .inf x, _ => x
  | _, .inf y => !y
  | x, y => x.dy.lt y.dy

def fisNan (a : F32) : Bool := (decode32 a).isNan
def fmax (a b : F32) : F32 := if fisNan a || fisNan b then qnan else if flt a b then b else a
def fmin (a b : F32) : F32 := if fisNan a || fisNan b then qnan else if flt b a then b else a

/-- Integer square root by bits, from bit k down. -/
def isqrtGo (n : Nat) : Nat → Nat → Nat
  | 0, r => r
  | k + 1, r => let t := r + 2 ^ k; isqrtGo n k (if t * t ≤ n then t else r)
def isqrt (n : Nat) : Nat := isqrtGo n (n.log2 / 2 + 1) 0

/-- Reciprocal square root, correctly rounded (05 R162). -/
def frsqrt (a : F32) : F32 :=
  match decode32 a with
  | .nan _ => qnan
  | .inf neg => if neg then qnan else 0
  | .fin neg m e =>
    if m = 0 then (if neg then 0xFF800000#32 else 0x7F800000#32)
    else if neg then qnan
    else
      -- value m * 2^e with e made even: 1 / sqrt = sqrt(2^(2k) / m) * 2^(-k - e / 2)
      let (m, e) := if e % 2 = 0 then (m, e) else (2 * m, e - 1)
      let n := 2 ^ 200 / m
      let t := isqrt n
      let exact := decide (t * t * m = 2 ^ 200)
      round32 false (if exact then 2 * t else 2 * t + 1) 2 (-100 - e / 2)

/-- Bits of the fixed-point numbers of exp and ln. -/
def fxBits : Nat := 512

/-- Sum of x^i / i! from term t of index i on, fixed point. -/
def expSeries (x : Int) : Nat → Nat → Int → Int
  | 0, _, _ => 0
  | k + 1, i, t => t + expSeries x k (i + 1) (t * x / (2 ^ fxBits * (i + 1 : Int)))

/-- x squared n times, fixed point. -/
def fxSquare : Nat → Int → Int
  | 0, x => x
  | n + 1, x => fxSquare n (x * x / 2 ^ fxBits)

/-- exp of a dyadic between -110 and 100, fixed point. -/
def fxExp (x : Dy) : Int :=
  let y : Int := if 0 ≤ x.e then x.m * (2 ^ fxBits * pow2 x.e : Nat) else x.m * 2 ^ fxBits / (pow2 (-x.e) : Int)
  fxSquare 12 (expSeries (y / 4096) 60 0 (2 ^ fxBits))

/-- exp, correctly rounded to FP32 (05 R162). -/
def fexp (a : F32) : F32 :=
  match decode32 a with
  | .nan _ => qnan
  | .inf neg => if neg then 0 else 0x7F800000#32
  | .fin neg m e =>
    let x := (FV.fin neg m e).dy
    if m = 0 then 0x3F800000#32
    else if Dy.lt ⟨89, 0⟩ x then 0x7F800000#32
    else if Dy.lt x ⟨-104, 0⟩ then 0
    else if Dy.lt (Dy.mk (-1) (-40)) x && Dy.lt x (Dy.mk 1 (-40)) then 0x3F800000#32
    else round32 false (fxExp x).toNat 1 (-(fxBits : Int))

/-- Sum of z^(2i+1) / (2i+1) from index i on, fixed point. -/
def atanhSeries (zz : Int) : Nat → Nat → Int → Int
  | 0, _, _ => 0
  | k + 1, i, t => t / (2 * i + 1 : Int) + atanhSeries zz k (i + 1) (t * zz / 2 ^ fxBits)

/-- 2 atanh(z), fixed point. -/
def fxLog1 (z : Int) : Int := 2 * atanhSeries (z * z / 2 ^ fxBits) 240 0 z

/-- ln of a positive rational, fixed point. -/
def fxLn (num den : Nat) : Int :=
  let k : Int := (num.log2 : Int) - (den.log2 : Int)
  let num' := if k < 0 then num * pow2 (-k) else num
  let den' := if k < 0 then den else den * pow2 k
  let ln2 := fxLog1 (2 ^ fxBits / 3)
  k * ln2 + fxLog1 (((num' : Int) - den') * 2 ^ fxBits / (num' + den'))

/-- ln, correctly rounded to FP32. -/
def fln (a : F32) : F32 :=
  match decode32 a with
  | .nan _ => qnan
  | .inf neg => if neg then qnan else 0x7F800000#32
  | .fin neg m e =>
    if m = 0 then 0xFF800000#32 else if neg then qnan
    else if a = 0x3F800000#32 then 0
    else
      let r := if 0 ≤ e then fxLn (m * pow2 e) 1 else fxLn m (pow2 (-e))
      round32 (decide (r < 0)) r.natAbs 1 (-(fxBits : Int))

/-- Exact sum of finite FP32 values, rounded once (05 R162); NaN and infinities as addition gives. -/
def fsumExact (xs : List F32) : F32 :=
  if xs.any (fun x => match decode32 x with | .fin _ _ _ => false | _ => true)
  then xs.foldl fadd 0
  else F32.ofDy (xs.foldl (fun s x => s.add (F32.dy x)) Dy.zero)

/-- The nearest integer, ties to even, of num / den. -/
def rne (num : Int) (den : Nat) : Int :=
  let q := roundAt num.natAbs den 0 0
  if num < 0 then -(q : Int) else q

/-- round(x) of a rational, ties to even. -/
def ratRne (x : Rat) : Int := rne x.num x.den
/-- Rounded up to a whole number. -/
def ratCeil (x : Rat) : Nat := ((x.num + x.den - 1) / x.den).toNat
def ratFloor (x : Rat) : Int := x.num / x.den

def ratMax (x y : Rat) : Rat := if x < y then y else x
def ratMin (x y : Rat) : Rat := if y < x then y else x
def ratAbs (x : Rat) : Rat := if x < 0 then -x else x

/-- Square root of a rational, rounded to the nearest 1/n. -/
def ratSqrtAt (x : Rat) (n : Nat) : Nat :=
  (isqrt (4 * n * n * x.num.natAbs / x.den) + 1) / 2

/-! CRCs (03 R91; 08 R234). -/

/-- One bit of the reflected CRC-32C. -/
def crc32cBits : Nat → BitVec 32 → BitVec 32
  | 0, c => c
  | n + 1, c => crc32cBits n (if c.getLsbD 0 then (c >>> 1) ^^^ 0x82F63B78#32 else c >>> 1)

/-- CRC-32C over bytes (03 R91). -/
def crc32c (bs : List Byte) : BitVec 32 :=
  (bs.foldl (fun c b => crc32cBits 8 (c ^^^ b.setWidth 32)) 0xFFFFFFFF#32) ^^^ 0xFFFFFFFF#32

/-- CRC-16, polynomial 0x1021, initial 0xFFFF, over bits most significant of each byte first (08 R234). -/
def crc16Bit (c : BitVec 16) (b : Bool) : BitVec 16 :=
  if c.getLsbD 15 != b then (c <<< 1) ^^^ 0x1021#16 else c <<< 1
def crc16Byte (c : BitVec 16) (b : Byte) : BitVec 16 :=
  ((List.range 8).map (fun i => b.getLsbD (7 - i))).foldl crc16Bit c
def crc16 (bs : List Byte) : BitVec 16 := bs.foldl crc16Byte 0xFFFF#16

/-- The generator of 03 R98: one 32-bit step. -/
def xorshift (x : BitVec 32) : BitVec 32 :=
  let x := x ^^^ (x <<< 13)
  let x := x ^^^ (x >>> 17)
  x ^^^ (x <<< 5)

/-- n elements from -8 to +7 of the generator of 03 R98, seeded with x. -/
def probeVector : Nat → BitVec 32 → List Int
  | 0, _ => []
  | n + 1, x => let y := xorshift x; (((y >>> 28).toNat : Int) - 8) :: probeVector n y

end Sys2Proof.Machine
end

