-- ==== Sys2Proof/Machine/Table.lean ====
section
/-! DEFINITION. Sparse tables: a read of a key that is not listed answers the default; a write keeps keys strictly rising and lists no default. -/

namespace Sys2Proof.Machine

variable {α : Type}

/-- What table m holds at key k, where unlisted keys hold d. -/
def tget (d : α) : SMap α → Nat → α
  | [], _ => d
  | (j, v) :: rest, k => if j = k then v else tget d rest k

/-- Table m with no entry at key k. -/
def tdel : SMap α → Nat → SMap α
  | [], _ => []
  | (j, v) :: rest, k => if j = k then tdel rest k else (j, v) :: tdel rest k

/-- Table m with the entry v at key k, in key order. -/
def tins : SMap α → Nat → α → SMap α
  | [], k, v => [(k, v)]
  | (j, w) :: rest, k, v =>
    if j = k then (k, v) :: rest else if k < j then (k, v) :: (j, w) :: rest else (j, w) :: tins rest k v

/-- Table m with v at key k; writing the default removes the entry. -/
def tset [DecidableEq α] (d : α) (m : SMap α) (k : Nat) (v : α) : SMap α :=
  if v = d then tdel m k else tins m k v

/-- Table m with f applied to what key k holds. -/
def tupd [DecidableEq α] (d : α) (m : SMap α) (k : Nat) (f : α → α) : SMap α :=
  tset d m k (f (tget d m k))

/-- Every listed key is above b, keys strictly rising. -/
def tsorted : SMap α → Bool
  | [] => true
  | [_] => true
  | (j, _) :: (k, w) :: rest => decide (j < k) && tsorted ((k, w) :: rest)

/-- The canonical form: keys strictly rising, no entry equal to the default. -/
def twf [DecidableEq α] (d : α) (m : SMap α) : Bool :=
  tsorted m && m.all (fun e => decide (e.2 ≠ d))

/-- n entries f 0, ..., f (n - 1) written from key k on. -/
def tfill [DecidableEq α] (d : α) (m : SMap α) (k : Nat) : List α → SMap α
  | [] => m
  | v :: vs => tfill d (tset d m k v) (k + 1) vs

/-- Apply f to every element at a position of a list that a test selects. -/
def lmap (p : α → Bool) (f : α → α) (l : List α) : List α :=
  l.map (fun x => if p x then f x else x)

end Sys2Proof.Machine
end

