-- ==== Sys2Proof/Machine/Operands.lean ====
section
/-! DEFINITION. Operands: bytes and elements of a line, block cells and their scales, conversions and quantisation (04). -/

namespace Sys2Proof.Machine

/-! ## Bytes -/

/-- Byte i of a line (04 R118). -/
def lineByte (x : Line) (i : Nat) : Nat := x.toNat / 2 ^ (8 * i) % 256

/-- n bytes of a line from byte i on, little-endian (04 R113). -/
def lineField (x : Line) (i n : Nat) : Nat := x.toNat / 2 ^ (8 * i) % 2 ^ (8 * n)

/-- The number little-endian bytes spell. -/
def natOfBytes : List Byte → Nat
  | [] => 0
  | b :: bs => b.toNat + 256 * natOfBytes bs

/-- The n little-endian bytes of a number. -/
def bytesOfNat : Nat → Nat → List Byte
  | 0, _ => []
  | n + 1, x => BitVec.ofNat 8 x :: bytesOfNat n (x / 256)

def lineOfBytes (bs : List Byte) : Line := BitVec.ofNat 544 (natOfBytes bs)
def lineBytes (x : Line) : List Byte := bytesOfNat 68 x.toNat

/-- The number whose digits in base 2^w are given, lowest first. -/
def natOfDigits (w : Nat) : List Nat → Nat
  | [] => 0
  | d :: ds => d % 2 ^ w + 2 ^ w * natOfDigits w ds

/-- Line x with n bytes from byte i on replaced by v. -/
def lineSet (x : Line) (i n v : Nat) : Line :=
  let old := lineField x i n
  BitVec.ofNat 544 (x.toNat - old * 2 ^ (8 * i) + v % 2 ^ (8 * n) * 2 ^ (8 * i))

/-- Field of n bytes at place i of a list of bytes; missing bytes are zero. -/
def fieldAt (bs : List Byte) (i n : Nat) : Nat := natOfBytes ((bs.drop i).take n)

/-- Signed reading of w bits. -/
def signed (w x : Nat) : Int := if x % 2 ^ w < 2 ^ (w - 1) then (x % 2 ^ w : Nat) else ((x % 2 ^ w : Nat) : Int) - 2 ^ w

/-- w bits of an integer, two's complement. -/
def toBits (w : Nat) (x : Int) : Nat := (x % (2 ^ w : Nat)).toNat

/-! ## Elements: type codes are those of 04 Table 4-6, 0x0 to 0x7 -/

/-- Bits of an element (04 Table 4-1). -/
def elemBits (ty : Nat) : Nat :=
  if ty = 0 then 2 else if ty = 1 ∨ ty = 3 then 4 else if ty = 6 then 16 else if ty = 7 then 32 else 8

/-- Is it a type of block cells? -/
def isCell (ty : Nat) : Bool := decide (ty < 6)

/-- Elements of a block cell (04 Table 4-2). -/
def cellElems (ty : Nat) : Nat := 128 / elemBits ty

/-- Elements of a line (04 R118). -/
def lineElems (ty : Nat) : Nat := if ty = 6 then 34 else if ty = 7 then 17 else 4 * cellElems ty

/-- Scale byte of cell c (04 R116). -/
def cellScale (x : Line) (c : Nat) : Nat := lineByte x (17 * c + 16)

/-- Code of element n of a line (04 R118, Table 4-2). -/
def elemCode (ty : Nat) (x : Line) (n : Nat) : Nat :=
  let w := elemBits ty
  if isCell ty then
    let k := cellElems ty
    x.toNat / 2 ^ (8 * 17 * (n / k) + w * (n % k)) % 2 ^ w
  else x.toNat / 2 ^ (w * n) % 2 ^ w

/-- The element's own value, without its cell's scale. -/
def ownValue (ty code : Nat) : FV :=
  match ty with
  | 0 => decodeInt 2 code
  | 1 => decodeInt 4 code
  | 2 => decodeInt 8 code
  | 3 => decodeFP4 code
  | 4 => decodeE4M3 code
  | 5 => decodeE5M2 code
  | 6 => decodeBF16 code
  | _ => decode32 (BitVec.ofNat 32 code)

/-- A value times 2^k. -/
def FV.scale (v : FV) (k : Int) : FV :=
  match v with
  | .fin n m e => .fin n m (e + k)
  | v => v

/-- Element n of a line, its cell's scale applied (04 R117). -/
def elemValue (ty : Nat) (x : Line) (n : Nat) : FV :=
  let v := ownValue ty (elemCode ty x n)
  if isCell ty then v.scale ((cellScale x (n / cellElems ty) : Int) - 127) else v

/-- Is element n poisoned by a scale of 0xFF (04 R117)? -/
def elemBadScale (ty : Nat) (x : Line) (n : Nat) : Bool :=
  isCell ty && decide (cellScale x (n / cellElems ty) = 255)

/-- Cells with scale 0xFF among lines of a cell type (04 R117). -/
def badCells (ty : Nat) (xs : List (Line × Bool)) : Nat :=
  if isCell ty then (xs.map (fun x => ((List.range 4).filter (fun c => cellScale x.1 c == 255)).length)).sum else 0

/-! ## Conversions (04 R124, Table 4-7) -/

/-- A converted code, with what the module counts: NaNs (source 0x28) and saturations (source 0x29). -/
structure Cnv where
  code : Nat
  nans : Nat
  sats : Nat
  deriving DecidableEq, Repr

def cnvInt (w : Nat) : FV → Cnv
  | .nan _ => ⟨0, 1, 0⟩
  | .inf neg => ⟨if neg then 2 ^ (w - 1) else 2 ^ (w - 1) - 1, 0, 1⟩
  | .fin neg m e =>
    let q := roundAt m 1 e 0
    if neg then (if 2 ^ (w - 1) < q then ⟨2 ^ (w - 1), 0, 1⟩ else ⟨toBits w (-(q : Int)), 0, 0⟩)
    else (if 2 ^ (w - 1) ≤ q then ⟨2 ^ (w - 1) - 1, 0, 1⟩ else ⟨q, 0, 0⟩)

/-- Finite value to a layout of mb mantissa bits; maxQ * 2^maxU is the largest finite magnitude, of code maxCode. -/
def cnvSmall (mb : Nat) (bias : Int) (w maxQ : Nat) (maxU : Int) (maxCode : Nat) (neg : Bool) (m : Nat) (e : Int) : Cnv :=
  if m = 0 then ⟨0, 0, 0⟩ else
  let (q, u) := roundQ (mb + 1) (1 - bias - mb) m 1 e
  let sign := if neg then 2 ^ (w - 1) else 0
  if Dy.lt ⟨maxQ, maxU⟩ ⟨q, u⟩ then ⟨sign + maxCode, 0, 1⟩
  else ⟨encodeFin mb bias neg q u, 0, 0⟩

def signCode (neg : Bool) (w code : Nat) : Nat := (if neg then 2 ^ (w - 1) else 0) + code

def cnvFP4 : FV → Cnv
  | .nan _ => ⟨0, 1, 0⟩
  | .inf neg => ⟨signCode neg 4 7, 0, 1⟩
  | .fin neg m e =>
    if m = 0 then ⟨0, 0, 0⟩ else
    let (q, u) := roundQ 2 (-1) m 1 e
    if Dy.lt ⟨3, 1⟩ ⟨q, u⟩ then ⟨signCode neg 4 7, 0, 1⟩
    else
      -- magnitudes 0, 0.5, 1, 1.5, 2, 3, 4, 6: q * 2^u in half units
      let h := ((Dy.mk q (u + 1)).rat).floor.toNat
      ⟨signCode neg 4 (if h ≤ 4 then h else if h ≤ 6 then 5 else if h ≤ 8 then 6 else 7), 0, 0⟩

def cnvE4M3 : FV → Cnv
  | .nan neg => ⟨signCode neg 8 127, 1, 0⟩
  | .inf neg => ⟨signCode neg 8 126, 0, 1⟩
  | .fin neg m e => cnvSmall 3 7 8 14 5 126 neg m e

def cnvE5M2 : FV → Cnv
  | .nan neg => ⟨signCode neg 8 127, 1, 0⟩
  | .inf neg => ⟨signCode neg 8 124, 0, 0⟩
  | .fin neg m e => cnvSmall 2 15 8 7 13 123 neg m e

def cnvBF16 : FV → Cnv
  | .nan neg => ⟨signCode neg 16 (32704 + (Config.nanBits.toNat % 64)), 1, 0⟩
  | .inf neg => ⟨signCode neg 16 32640, 0, 0⟩
  | .fin neg m e =>
    if m = 0 then ⟨0, 0, 0⟩ else
    let (q, u) := roundQ 8 (-133) m 1 e
    ⟨encodeIEEE 7 127 neg q u, 0, 0⟩

/-- FP16 saturates at 65,504 (04 Table 4-7). -/
def cnvFP16 : FV → Cnv
  | .nan neg => ⟨signCode neg 16 (32256 + (Config.nanBits.toNat % 512)), 1, 0⟩
  | .inf neg => ⟨signCode neg 16 31744, 0, 0⟩
  | .fin neg m e => cnvSmall 10 15 16 2047 5 31743 neg m e

def cnv32 (v : FV) : Cnv := ⟨(toF32 v).toNat, if v.isNan then 1 else 0, 0⟩

/-- Conversion to a type of 04 Table 4-1, by code of Table 4-6. -/
def convert (ty : Nat) (v : FV) : Cnv :=
  match ty with
  | 0 => cnvInt 2 v
  | 1 => cnvInt 4 v
  | 2 => cnvInt 8 v
  | 3 => cnvFP4 v
  | 4 => cnvE4M3 v
  | 5 => cnvE5M2 v
  | 6 => cnvBF16 v
  | _ => cnv32 v

/-! ## Quantising a block cell (04 R125) -/

def qmaxOf (ty : Nat) : Nat :=
  match ty with
  | 0 => 1
  | 1 => 7
  | 2 => 127
  | 3 => 6
  | 4 => 448
  | _ => 57344

/-- Magnitude larger of two values, NaN left out. -/
def amax2 (a b : FV) : FV :=
  match a, b with
  | .nan _, y => y
  | x, .nan _ => x
  | .inf _, _ => .inf false
  | _, .inf _ => .inf false
  | .fin _ m e, .fin _ n f => if Dy.lt ⟨m, e⟩ ⟨n, f⟩ then .fin false n f else .fin false m e

/-- The scale code of a cell. -/
def cellScaleOf (ty : Nat) (vs : List FV) : Nat :=
  match vs.foldl amax2 (.fin false 0 0) with
  | .fin _ m k =>
    if m = 0 then 0 else
    let q := qmaxOf ty
    let d : Int := (m.log2 : Int) + k - (q.log2 : Int)
    let e := if Dy.le ⟨m, k⟩ ⟨q, d⟩ then d else d + 1
    (max 0 (min 254 (e + 127))).toNat
  | _ => 254

/-- A quantised cell: 136 bits, NaNs, saturations. -/
def quantCell (ty : Nat) (vs : List FV) : Cnv :=
  let s := cellScaleOf ty vs
  let cs := vs.map (fun v => convert ty (v.scale (127 - (s : Int))))
  ⟨natOfDigits (elemBits ty) (cs.map Cnv.code) + s * 2 ^ 128,
   (cs.map Cnv.nans).sum, (cs.map Cnv.sats).sum⟩

/-- Consecutive chunks of n elements of a list, k of them. -/
def chunks {α : Type} (n : Nat) : Nat → List α → List (List α)
  | 0, _ => []
  | k + 1, l => l.take n :: chunks n k (l.drop n)

/-- A line of type ty holding the values, zero after the last. -/
def packLine (ty : Nat) (vs : List FV) : Line × Nat × Nat :=
  if isCell ty then
    let k := cellElems ty
    let pad := vs ++ List.replicate (4 * k - vs.length) (.fin false 0 0)
    let cs := (chunks k 4 pad).map (quantCell ty)
    (BitVec.ofNat 544 (natOfDigits 136 (cs.map Cnv.code)), (cs.map Cnv.nans).sum, (cs.map Cnv.sats).sum)
  else
    let cs := vs.map (convert ty)
    (BitVec.ofNat 544 (natOfDigits (elemBits ty) (cs.map Cnv.code)), (cs.map Cnv.nans).sum, (cs.map Cnv.sats).sum)

/-- Lines of type ty for any number of values: data with NaNs and saturations. -/
def packLines (ty n : Nat) (vs : List FV) : List (Line × Nat × Nat) :=
  (chunks (lineElems ty) n vs).map (packLine ty)

/-- FP32 line of the patterns, zero after the last. -/
def line32 (xs : List F32) : Line := BitVec.ofNat 544 (natOfDigits 32 (xs.map BitVec.toNat))

/-- Element n of an FP32 line. -/
def elem32 (x : Line) (n : Nat) : F32 := BitVec.ofNat 32 (x.toNat / 2 ^ (32 * n) % 2 ^ 32)
/-- Element n of a BF16 line, as FP32 (exact). -/
def elemBF (x : Line) (n : Nat) : F32 := BitVec.ofNat 32 (x.toNat / 2 ^ (16 * n) % 2 ^ 16 * 2 ^ 16)

end Sys2Proof.Machine
end

