-- ==== Sys2Proof/Machine/State.lean ====
section
/-! DEFINITION. The state of the module: every register, store, queue, mode and pin the spec gives it, as plain data, and State.reset.
Each field says its width, the file and rule that name it, and its reset value. -/

namespace Sys2Proof.Machine

/-! ## Lines, accumulators, queues of a lantern -/

/-- A scratchpad line. -/
structure PadLine where
  /-- 68 bytes. 04 R118, 05 R142. Reset: DESIGN CHOICE 0 (log 2). -/
  data : Line := 0
  /-- 1 bit, full. 05 R144. Reset: empty (R147). -/
  full : Bool := false
  /-- 1 bit, poison tag. 04 R119. Reset: DESIGN CHOICE clear (log 2). -/
  poison : Bool := false
  /-- parity bit 0 stored inverted. 04 R119, 13 R405. Reset: DESIGN CHOICE clear (log 2). -/
  parBad : Bool := false
  /-- 4 bits, shadow format of the hazard detector. 06 R201. Reset: 0xA (R201). -/
  shadow : BitVec 4 := 0xA
  deriving DecidableEq, Repr

/-- A line of the key/value store. -/
structure KvLine where
  /-- 68 bytes. 05 R164. Reset: DESIGN CHOICE 0 (log 2). -/
  data : Line := 0
  /-- poison tag. 04 R119. Reset: DESIGN CHOICE clear (log 2). -/
  poison : Bool := false
  /-- parity bit 0 stored inverted. 04 R119, 13 R405. Reset: DESIGN CHOICE clear (log 2). -/
  parBad : Bool := false
  deriving DecidableEq, Repr

/-- A word of the program store. -/
structure ProgWord where
  /-- 64 bits. 05 R136. Reset: DESIGN CHOICE NOP (log 2). -/
  bits : Word := 0
  /-- parity bit inverted. 06 R176, 13 R405. Reset: DESIGN CHOICE clear (log 2). -/
  parBad : Bool := false
  deriving DecidableEq, Repr

/-- One output of an accumulator block. -/
structure AccOut where
  /-- register: 64-bit in fast form, 536-bit in extended form. 04 R128, R131. Reset: 0. -/
  val : Int := 0
  /-- had a contribution since the last clear. 04 R134. Reset: no. -/
  touched : Bool := false
  /-- poisoned. 05 Table 5-7. Reset: no. -/
  poison : Bool := false
  /-- tagged saturated. 02 R56, 04 R131. Reset: no. -/
  sat : Bool := false
  deriving DecidableEq, Repr

/-- An accumulator block. -/
structure Block where
  /-- extended form. 04 R130. Reset: fast. -/
  ext : Bool := false
  /-- nothing placed since the last clear. 04 R129. Reset: empty. -/
  empty : Bool := true
  /-- base B, pmin. 04 R129. Reset: 0. -/
  base : Int := 0
  /-- pmax. 04 R129. Reset: 0. -/
  pmax : Int := 0
  /-- 32 outputs. 04 R128. Reset: zero. -/
  outs : SMap AccOut := []
  deriving DecidableEq, Repr

/-- An inbound queue. -/
structure Queue where
  /-- base line. 05 R153. Reset: 0, unused. -/
  base : Nat := 0
  /-- depth, 0 when the queue has no region. 05 R153. Reset: 0. -/
  depth : Nat := 0
  /-- producer DEST code. 05 R152. Reset: 0. -/
  producer : Nat := 0
  /-- producer's sluice entry. 06 Table 6-13. Reset: 0. -/
  entry : Nat := 0
  /-- class its credits travel in. 06 R186. Reset: 0. -/
  cls : Fin 4 := 0
  /-- 32 bits, W. 05 R154. Reset: 0. -/
  w : BitVec 32 := 0
  /-- 32 bits, Rd. 05 R154. Reset: 0. -/
  rd : BitVec 32 := 0
  /-- 32 bits, M. 05 R154. Reset: 0. -/
  m : BitVec 32 := 0
  /-- mark valid. 05 R154. Reset: not valid. -/
  markV : Bool := false
  /-- 32 bits, L. 05 R154. Reset: 0. -/
  l : BitVec 32 := 0
  /-- UNDERRUN, sticky. 05 R159. Reset: 0. -/
  underrun : Bool := false
  /-- last-value register. 05 R157. Reset: 68 zero bytes. -/
  last : Line := 0
  /-- last-value register poisoned. 05 R157. Reset: no. -/
  lastPoison : Bool := false
  deriving DecidableEq, Repr

/-- A sluice entry. -/
structure Sluice where
  /-- DEST code. 05 R156, 06 Table 6-13. Reset: 0. -/
  dest : Nat := 0
  /-- 0 queue, 1 import lane, 2 KV intake channel, 3 headgate channel, 255 unused. 06 Table 6-13. Reset: unused. -/
  kind : Nat := 255
  /-- number of the queue, lane or channel. 06 Table 6-13. Reset: 0. -/
  num : Nat := 0
  /-- traffic class. 06 Table 6-13. Reset: 0. -/
  cls : Fin 4 := 0
  /-- grant G. 05 R156. Reset: 0. -/
  grant : Nat := 0
  /-- credit count C. 05 R156. Reset: 0; load sets G. -/
  credits : Nat := 0
  /-- FI_POISON armed. 13 R405. Reset: no. -/
  poisonNext : Bool := false
  deriving DecidableEq, Repr

/-- An import lane. -/
structure Lane where
  /-- named by the program image. 06 R185. Reset: no. -/
  used : Bool := false
  /-- producer DEST code. 06 R185. Reset: 0. -/
  producer : Nat := 0
  /-- producer's sluice entry. 06 Table 6-13. Reset: 0. -/
  entry : Nat := 0
  /-- class its credits travel in. 06 R186. Reset: 0. -/
  cls : Fin 4 := 0
  /-- 128 lines, oldest first, with poison. 06 R185. Reset: empty. -/
  buf : List (Line × Bool × Bool) := []
  deriving DecidableEq, Repr

/-- A KV message being received (07 R217, R218). -/
structure KvMsg where
  /-- descriptor line. 07 Table 7-5. Reset: none. -/
  desc : Nat
  /-- first local index. 07 Table 7-5. Reset: none. -/
  first : Nat
  /-- local indices. 07 Table 7-5. Reset: none. -/
  n : Nat
  /-- lines written so far. 07 R217. Reset: none. -/
  written : Nat
  /-- lines since the last XACK. 07 R217. Reset: none. -/
  unacked : Nat
  /-- check failed: the rest is discarded. 07 R218. Reset: none. -/
  rejected : Bool
  deriving DecidableEq, Repr

/-- A KV intake channel. -/
structure Intake where
  /-- producer named. 07 R217, R231. Reset: no. -/
  used : Bool := false
  /-- producer DEST code. 07 R217. Reset: 0. -/
  producer : Nat := 0
  /-- producer's sluice entry. 06 Table 6-13. Reset: 0. -/
  entry : Nat := 0
  /-- class its XACKs travel in. 07 R217, R231. Reset: 1. -/
  cls : Fin 4 := 1
  /-- message in progress. 07 R217. Reset: none. -/
  msg : Option KvMsg := none
  deriving DecidableEq, Repr

/-- A KV message of module firmware that the KV port sends through the management sluice entry (07 R228, R231). -/
structure KvMove where
  /-- descriptor line. 07 R205. -/
  desc : Nat
  /-- first local index and how many. 07 R216. -/
  first : Nat
  n : Nat
  /-- cistern address. 07 Table 7-5. -/
  caddr : Nat
  /-- flits still to be sent; none before the KV port takes the message, empty while it waits for its final XACK. 07 R217. -/
  flits : Option (List Flit)
  deriving DecidableEq, Repr

/-- A query register: two INT8 lines (05 R166). -/
structure QueryReg where
  /-- 128 INT8 elements with 8 scales. 05 R166. Reset: DESIGN CHOICE 0 (log 2). -/
  lo : Line := 0
  /-- second line. 05 R166. Reset: DESIGN CHOICE 0 (log 2). -/
  hi : Line := 0
  /-- poisoned. 05 Table 5-7. Reset: no. -/
  poison : Bool := false
  deriving DecidableEq, Repr

/-! ## Engine operations, with operands read at issue (06 R177) -/

/-- An array operation (02 Table 2-3). -/
structure ArrayOp where
  seq : Nat
  logical : Nat
  phys : Nat
  src : Nat
  ifmt : Fin 4
  rows : Nat
  acc : Nat
  set : Bool
  clip : Nat
  otd : Nat
  /-- inputs read: poison, operation scale code, driven amplitude per row. -/
  ready : Bool
  poison : Bool
  scale : Int
  amps : SMap Int
  /-- per outlier entry: digital row line and the signed factor. -/
  resid : List (Nat × Int)
  /-- at-issue charge counted against the step, 0.01 nJ. 02 R60. -/
  charged : Nat
  /-- temperature and drift scale in force at issue. 03 R72, R76. -/
  temp : Int
  drift : Nat
  deriving DecidableEq, Repr

/-- What an engine still has to do. -/
inductive EOp where
  | aop (p : ArrayOp)
  | aclr (acc nb : Nat)
  | ard (acc nb line : Nat) (typ : Nat) (clr : Bool)
  | aexp (acc nb ent : Nat) (clr : Bool)
  /-- blk: current block; left: blocks to place; taken: lines placed. -/
  | aimp (blk left lane taken : Nat)
  | widot (a b blk len outs typ : Nat) (clr : Bool)
  | wfdot (a b d len outs typ : Nat) (clr lines : Bool)
  | wvb (fn a b d n : Nat) (bfIn bfOut : Bool)
  | wvu (fn a d n : Nat) (bfIn bfOut : Bool)
  | wred (fn a d n : Nat) (bfIn : Bool)
  | wsmx (a b d n : Nat) (fromBuf toBuf : Bool)
  | wqnt (a d n typ : Nat)
  | wgth (a d row len fin fout : Nat)
  | wtopk (a b d n s : Nat) (idxLines : Bool)
  | wsmp (a b d s : Nat)
  | qld (a reg n : Nat)
  /-- i cycles of the phase already run. -/
  | ascr (desc g f first n h0 h i : Nat)
  | aval (desc g f blk first n h0 h : Nat) (clr : Bool) (i : Nat)
  | kapp (a desc pos heads : Nat) (bf : Bool)
  | kmark (desc : Nat)
  | krew (desc : Nat)
  | krel (desc : Nat)
  | kwalk (desc first n : Nat)
  | kxfr (a desc ent first n : Nat) (copy : Bool)
  /-- waits for the final XACK on a sluice entry. -/
  | kxfrAck (ent : Nat)
  /-- i lines already moved. -/
  | copy (src stride n dst i : Nat) (take : Bool)
  | trd (src dst stride : Nat) (big int8 : Bool) (off : Nat) (take : Bool)
  | send (src stride n ent fmt i : Nat) (take : Bool)
  | clr (first n : Nat)
  | recv (q dst n i : Nat)
  | recvReg (q : Nat) (sd : Fin 32)
  | qpeek (q dst : Nat) (reg : Bool) (sd : Fin 32) (pop : Bool)
  | qmark (q : Nat)
  | qrewind (q : Nat)
  | qrel (q : Nat)
  | qstat (q : Nat) (sd : Fin 32) (clr : Bool)
  /-- write-out of finished result lines to consecutive addresses, under the write rule of Table 5-3. -/
  | emit (addr : Nat) (lines : List PadLine)
  /-- flits of one sluice entry still to be sent, each on one credit. -/
  | inject (ent : Nat) (flits : List Flit)
  deriving DecidableEq, Repr

/-- An instruction in an engine: issue order, program index and word for a fault record, what is left to do. -/
structure EngEntry where
  seq : Nat
  idx : Nat
  word : Word
  op : EOp
  /-- operand lines it has read, in address order, with their poison. 05 R148. -/
  got : List (Line × Bool)
  deriving DecidableEq, Repr

/-- An engine of Table 5-1. -/
structure Engine where
  /-- instructions, oldest first. 05 R138. Reset: empty. -/
  q : List EngEntry := []
  /-- wait code of Table 6-7 the head is held on, 0 when none. 06 R192. Reset: 0. -/
  wait : Nat := 0
  /-- time the wait began, ns. 06 R192. Reset: 0. -/
  since : Nat := 0
  deriving DecidableEq, Repr

/-- A phase of an array operation, with its split in force (02 R45, R53, R55). -/
structure Phase where
  /-- phase weight, 16 or 1. 02 R45. -/
  weight : Nat
  /-- split: 1, 2, 4 or 16 sub-phases. 02 R53, R55. -/
  split : Nat
  /-- column groups converting. 02 R55. -/
  groups : List Nat
  /-- next sub-phase. 02 R54. -/
  sub : Nat
  /-- conversions of this pass: slice column, corrected code times 2^12, end code returned. -/
  got : List (Nat × Int × Bool)
  /-- a first pass of this phase is past: re-splits from here on. 02 R55. -/
  resplit : Bool
  deriving DecidableEq, Repr

/-- A conversion kept for the accumulator: slice column, corrected code times 2^12, phase weight, saturated (02 R48, R56). -/
structure Conv where
  col : Nat
  sig : Int
  weight : Nat
  sat : Bool
  deriving DecidableEq, Repr

/-- An array operation running on its bank. -/
structure Run where
  op : ArrayOp
  /-- phases still to run, the head in progress. 02 R45. -/
  todo : List Phase
  convs : List Conv
  /-- first-pass saturation flags: slice columns. 03 R85. -/
  firstSat : List Nat
  /-- outputs placed. 02 R50. -/
  placed : Bool
  /-- residual placed, or none needed. 03 R83. -/
  residDone : Bool
  /-- restore ended, or none needed. 02 R49. -/
  restored : Bool
  /-- wait code of 06 Table 6-7 its outputs are held on, 0 when none; time the wait began. 06 R192. -/
  wait : Nat := 0
  since : Nat := 0
  /-- the same of its residual. 03 R83, 06 R192. -/
  resWait : Nat := 0
  resSince : Nat := 0
  /-- weight columns that its digital rows poisoned. 03 R83. -/
  spoilt : List Nat := []
  /-- digital-row lines read so far. 05 R148. -/
  rows : List (Line × Bool) := []
  deriving DecidableEq, Repr

/-- An ADC bank. -/
structure Bank where
  /-- bank domain on. 01 R23, 12 R368. Reset: off (12 R366). -/
  on : Bool := false
  /-- issue slot, one operation. 02 R40. Reset: empty. -/
  slot : Option ArrayOp := none
  /-- wait code of 06 Table 6-7 the issue slot is held on, 0 when none; time the wait began. 06 R192. Reset: 0. -/
  wait : Nat := 0
  since : Nat := 0
  /-- operation converting or restoring. 02 R40. Reset: none. -/
  run : Option Run := none
  /-- operations past the bank whose outputs or residual are still to be placed. 02 R52, 03 R83. Reset: none. -/
  late : List Run := []
  /-- array in programming, erasure or touch-up. 02 R61. Reset: none. -/
  prog : Option Nat := none
  deriving DecidableEq, Repr

/-- A range monitor of a column group (03 R84 to R90). -/
structure Monitor where
  /-- mean. 03 R85. Reset: DESIGN CHOICE 0 (log 3). -/
  mu : Rat := 0
  /-- mean square. 03 R85. Reset: DESIGN CHOICE 0 (log 3). -/
  qq : Rat := 0
  /-- saturation rate. 03 R85. Reset: DESIGN CHOICE 0 (log 3). -/
  s : Rat := 0
  /-- operations captured since capture began. 03 R86, Table 3-3. Reset: 0. -/
  nsamp : Nat := 0
  /-- capturing. 03 R86. Reset: DESIGN CHOICE not capturing, no profile (log 3). -/
  capturing : Bool := false
  /-- capture complete. 03 R86. Reset: no. -/
  armed : Bool := false
  /-- running sums of the capture: mean, mean square, saturation. 03 R86. Reset: 0. -/
  sums : Rat × Rat × Rat := (0, 0, 0)
  /-- reference profile: mean, variance, saturation rate. 03 R86. Reset: 0. -/
  prof : Rat × Rat × Rat := (0, 0, 0)
  /-- events raised and not re-armed: RDF WARN, RDF ERROR, saturation rate. 03 R88. Reset: none. -/
  warned : Bool := false
  erred : Bool := false
  satWarned : Bool := false
  /-- unresolved saturation seen. 03 R88. Reset: no. -/
  unresolved : Bool := false
  /-- expected-profile mismatch. 03 R86. Reset: no. -/
  mismatch : Bool := false
  deriving DecidableEq, Repr

/-- A wick array: cells and what the field's store keeps of it (non-volatile), and its drift tracking. -/
structure WickArray where
  /-- 0 W2, 1 W4, 2 W8. 02 R35. Reset: DESIGN CHOICE 0, erased (log 4). -/
  mode : Fin 3 := 0
  /-- slice levels -3 to 3 by row * 2048 + column, 0 when not listed. 02 R33. Reset: erased (14 R431). -/
  cells : SMap Int := []
  /-- levels of the reference columns' cells by row * 16 + column, 0 when not listed. 02 R57, 03 R73. Reset: erased (14 R431). -/
  refs : SMap Int := []
  /-- FLAGS [0] programmed. 03 Table 3-6. Reset: no (14 R431). -/
  programmed : Bool := false
  /-- FLAGS [1] bad. 03 Table 3-6. Reset: no (log 5). -/
  bad : Bool := false
  /-- FLAGS [2] retired. 03 Table 3-6, 02 R65. Reset: no. -/
  retired : Bool := false
  /-- FLAGS [3] degraded. 03 R108. Reset: no. -/
  degraded : Bool := false
  /-- FLAGS [4] drift stale. 03 R77. Reset: no. -/
  stale : Bool := false
  /-- 32 bits, programming cycles. 02 R65. Reset: DESIGN CHOICE 0 (log 5). -/
  cycles : Nat := 0
  /-- 32 bits, PSEC. 03 Table 3-6. Reset: DESIGN CHOICE 0 (log 5). -/
  psec : Nat := 0
  /-- 32 signed 8-bit trims. 03 Table 3-6. Reset: DESIGN CHOICE 0 (log 5). -/
  trim : SMap Int := []
  /-- 16 signed 16-bit baselines, 2^-6 code. 03 R75. Reset: DESIGN CHOICE 0 (log 5). -/
  base : SMap Int := []
  /-- 16 bits, drift scale saved. 03 R78. Reset: 0x8000 (R75). -/
  driftSaved : Nat := 32768
  /-- 8 bits, REF0, 0.1 %. 03 R99. Reset: DESIGN CHOICE 0 (log 5). -/
  ref0 : Nat := 0
  /-- 8 bits, REFT saved, 0.1 %. 03 R78. Reset: DESIGN CHOICE 0 (log 5). -/
  reftSaved : Nat := 0
  /-- 8 bits, TPROG. 03 Table 3-6. Reset: DESIGN CHOICE 0 (log 5). -/
  tprog : Nat := 0
  /-- 32 bytes, retention signature. 11 R339. Reset: DESIGN CHOICE 0 (log 5). -/
  sig : SMap Nat := []
  /-- largest signature difference at the last check, 255 when not checked. 13 Table 13-13. Reset: 0xFF. -/
  sigDiff : Nat := 255
  /-- 16 bits, drift scale in force, 2^-15. 03 R76. Reset: 0x8000. -/
  drift : Nat := 32768
  /-- new scale waiting for a step boundary. 03 R76. Reset: none. -/
  driftNext : Option Nat := none
  /-- last 64 samples of the 16 reference columns, newest first. 03 R76. Reset: none. -/
  samples : List (List Rat) := []
  /-- samples since the last scale. 03 R76. Reset: 0. -/
  fresh : Nat := 0
  /-- unhealthy reference columns. 03 R76. Reset: none. -/
  badRef : List Nat := []
  /-- squared e_0 of the tracked REF. 03 R100. Reset: none. -/
  e0sq : Option Rat := none
  /-- tracked REF, 0.1 %. 03 R100. Reset: DESIGN CHOICE 0 (log 5). -/
  reft : Nat := 0
  /-- time of the last reference sample. 03 R77. Reset: 0. -/
  lastSample : Nat := 0
  /-- WARN below 0.85 raised. 03 R77. Reset: no. -/
  lowWarned : Bool := false
  /-- queued for a touch-up; rows done. 03 R106, R107. Reset: no. -/
  touchQueued : Bool := false
  touchRow : Nat := 0
  /-- powered time of the last touch-up, ns. 03 R106. Reset: none. -/
  touchLast : Option Nat := none
  /-- programming in progress: a retry already made. 02 R63. Reset: no. -/
  retried : Bool := false
  deriving DecidableEq, Repr

/-- An event counter (13 R389). -/
structure Counter where
  /-- 48 bits. 13 R389. Reset: 0. -/
  count : BitVec 48 := 0
  /-- 8 bits, source code. 13 R389. Reset: 0x00. -/
  source : Nat := 0
  /-- source and CLEAR waiting for a step boundary. 13 R391. Reset: none. -/
  next : Option (Nat × Bool) := none
  deriving DecidableEq, Repr

/-- What a logical array number names (02 R39). -/
inductive ArrayName where
  | standard | phys (a : Nat) | none
  deriving DecidableEq, Repr

/-- An event record (13 Table 13-4). -/
structure EventRec where
  time : Nat
  /-- 0 FATAL, 1 SECURITY, 2 ERROR, 3 WARN, 4 INFO, 5 TRACE. -/
  sev : Nat
  coalesced : Bool
  code : Nat
  part : Nat
  source : Nat
  unit : Nat
  count : Nat
  detail : Nat
  seq : Nat
  deriving DecidableEq, Repr

/-- A lantern. -/
structure Lantern where
  /-- lantern domain on. 01 R24, 12 R368. Reset: off (12 R366). -/
  on : Bool := false
  /-- time-base copy has a value. 08 R240. Reset: no. -/
  timeOk : Bool := false
  /-- sequencer runs a program. 06 R187. Reset: no. -/
  running : Bool := false
  /-- program index. 05 R136. Reset: 0 (06 R187). -/
  pc : Nat := 0
  /-- s1 to s31, 64 bits; s0 reads zero. 05 R137. Reset: DESIGN CHOICE 0 (log 2). -/
  regs : SMap Word := []
  /-- registers pending. 06 R177. Reset: none. -/
  pending : List (Fin 32) := []
  /-- instruction the sequencer holds, its wait code, the time the wait began. 06 R192. Reset: none. -/
  held : Option (Instr × Nat × Nat) := none
  /-- issue order count. 05 R139. Reset: 0. -/
  issued : Nat := 0
  /-- 8,192 words of 64 bits. 05 R136. Reset: DESIGN CHOICE NOP (log 2). -/
  store : SMap ProgWord := []
  /-- 65,536 lines. 05 R142. Reset: empty (R147). -/
  pad : SMap PadLine := []
  /-- 327,680 lines. 05 R164. Reset: DESIGN CHOICE 0 (log 2). -/
  kv : SMap KvLine := []
  /-- 512 blocks. 04 R128. Reset: empty. -/
  acc : SMap Block := []
  /-- Q0 to Q15. 05 R152. Reset: unused. -/
  queues : SMap Queue := []
  /-- 32 sluice entries; entry 32 is the management entry. 05 R156, 07 R231. Reset: unused. -/
  sluices : SMap Sluice := []
  /-- 8 import lanes. 06 R185. Reset: unused. -/
  lanes : SMap Lane := []
  /-- KV intake channels 0 to 4. 07 R217, R231. Reset: unused. -/
  intakes : SMap Intake := []
  /-- engines 0 array port, 1 accumulator port, 2 wide, 3 attention, 4 send, 5 queue, 6 KV port. 05 Table 5-1. Reset: empty. -/
  engines : SMap Engine := []
  /-- 64 query registers. 05 R166. Reset: DESIGN CHOICE 0 (log 2). -/
  queries : SMap QueryReg := []
  /-- score buffer, at most 4,096: query number, score, poisoned. 05 R167. Reset: empty. -/
  scores : List (Nat × F32 × Bool) := []
  /-- probability buffer, at most 4,096: query written, token, element, scale code, poisoned. 05 R168. Reset: empty. -/
  probs : List (Nat × Nat × Int × Nat × Bool) := []
  /-- queries written into the probability buffer, and first query of the group that the value phase takes next. 07 R221. Reset: 0. -/
  probIn : Nat := 0
  probOut : Nat := 0
  /-- look-aside buffer, at most 64: descriptor line, local page, page; most recent first. 07 R210. Reset: empty. -/
  lookaside : List (Nat × Nat × Nat) := []
  /-- cache table region base. 07 R204. Reset: 0. -/
  ctBase : Nat := 0
  /-- cache table region count. 07 R204. Reset: 0. -/
  ctCount : Nat := 0
  /-- lantern clock setting, 25 MHz steps over 0.8 GHz. 06 Table 6-13. Reset: PRESUMED 16, the nominal 1.2 GHz (log 7). -/
  clock : Nat := 16
  /-- weir exponent. 08 R247. Reset: 0 (R247 default). -/
  weirK : Nat := 0
  /-- time of the last class-0 injection. 08 R247. Reset: none. -/
  weirLast : Option Nat := none
  /-- class-0 flits the weir holds, each with the engine that made it. 08 R247. Reset: empty. -/
  weirHeld : List (Nat × Flit) := []
  /-- flits the engines have sent that have not entered the router, oldest first, each with its engine. 06 R185, 08 R236. Reset: empty. -/
  tx : List (Nat × Flit) := []
  /-- flits the local port has delivered, oldest first. 08 R249. Reset: empty. -/
  rx : List Flit := []
  /-- KV lines that wait in intake channels for the KV port, each with its channel, oldest first. 07 R217, R219. Reset: empty. -/
  kvIn : List (Nat × Flit) := []
  /-- channel whose message the KV port is taking. 07 R219. Reset: none. -/
  kvNow : Option Nat := none
  /-- message of module firmware that the KV port sends. 07 R228, R231. Reset: none. -/
  move : Option KvMove := none
  /-- number of the step the lantern is in. 06 R187. Reset: 0. -/
  step : Nat := 0
  /-- steps closed. 05 R140, 06 R187. Reset: 0. -/
  closed : Nat := 0
  /-- boundaries seen: the last boundary seen plus one. 06 R190. Reset: 0. -/
  seen : Nat := 0
  /-- declared charge of the step, 0.01 nJ. 06 R195. Reset: 0. -/
  declared : Nat := 0
  /-- at-issue charge so far in the step, 0.01 nJ. 06 R195. Reset: 0. -/
  charge : Nat := 0
  /-- outlier descriptors 1 to 255: FIRST, COUNT. 06 R183. Reset: 0. -/
  odesc : SMap (Nat × Nat) := []
  /-- outlier entries: row, dynamic, line. 06 R183. Reset: 0. -/
  oent : SMap (Nat × Bool × Nat) := []
  /-- temperature of its arrays in force, 1/8 K. 03 R71, R72. Reset: DESIGN CHOICE 45 degrees C (log 6). -/
  temp : Int := 360
  /-- temperature waiting for a step boundary. 03 R72. Reset: none. -/
  tempNext : Option Int := none
  /-- banks 0 to 31. 02 R40. Reset: idle, off. -/
  banks : SMap Bank := []
  /-- wick arrays 0 to 255, non-volatile. 01 R22. Reset: erased (14 R431). -/
  arrays : SMap WickArray := []
  /-- logical numbers that no longer follow L + L div 31. 02 R39. Reset: none. -/
  amap : SMap ArrayName := []
  /-- range codes by logical * 32 + group, stored as 7 - code. 02 R432. Reset: code 7. -/
  ranges : SMap Nat := []
  /-- the range table as module firmware wrote it through the Lamplighter, which holds its check value. 11 R352. Reset: code 7. -/
  goldRanges : SMap Nat := []
  /-- expected profiles of the program, by logical * 32 + group: three FP32 words. 03 R86, 06 Table 6-12. Reset: none. -/
  profiles : SMap (F32 × F32 × F32) := []
  /-- monitors by physical * 32 + group. 03 R84. Reset: none armed. -/
  monitors : SMap Monitor := []
  /-- trace latch, at most 4 records. 13 R402. Reset: empty. -/
  latch : List EventRec := []
  /-- 8 event counters. 13 R389. Reset: 0. -/
  counters : SMap Counter := []
  /-- parity mismatches per store: scratchpad, key/value store, queue regions. 05 R160. Reset: 0. -/
  parity : Nat × Nat × Nat := (0, 0, 0)
  /-- time of the last STORE_ERROR. 11 R346. Reset: none. -/
  storeErrAt : Option Nat := none
  /-- trapped (11 Table 11-6, LIST). 06 R198. Reset: no. -/
  trapped : Bool := false
  /-- check value of the configuration block as last recomputed differs from golden. 11 R351, R352. Reset: no. -/
  crcBad : Bool := false
  deriving DecidableEq, Repr

/-! ## Fabric -/

/-- An order-table bank (08 R242). -/
structure OrderBank where
  /-- 1,024 entries of 64 bits. 08 R242. Reset: DESIGN CHOICE 0 (log 2). -/
  entries : SMap Word := []
  /-- 10 bits, LOOP. 08 R242. Reset: 0. -/
  loop : Nat := 0
  /-- 10 bits, END. 08 R242. Reset: 0. -/
  endi : Nat := 0
  deriving DecidableEq, Repr

/-- One of the two links of a port. -/
structure Link where
  /-- in service. 08 R234, R251. Reset: DESIGN CHOICE in service (log 5). -/
  up : Bool := true
  /-- disabled by the repair map. 08 Table 8-6. Reset: no. -/
  disabled : Bool := false
  /-- CRC mismatches with their times, newest first. 08 R251. Reset: none. -/
  misses : List Nat := []
  /-- failures in a row of one flit: flit, count. 08 R234. Reset: none. -/
  fails : Option (Nat × Nat) := none
  /-- replays. 08 R234. Reset: 0. -/
  replays : Nat := 0
  /-- the last 4 flits it carried, oldest first, each with its CHK. 08 R234. Reset: none. -/
  kept : List (BitVec 16 × Flit) := []
  deriving DecidableEq, Repr

/-- Where the alternation of a virtual channel over a pair of links stands (08 R235). -/
structure LinkPair where
  /-- the next flit goes on link 1. Reset: link 0. -/
  next : Bool := false
  /-- PSEQ of the next flit. Reset: DESIGN CHOICE 0 (log 52). -/
  pseq : Bool := false
  deriving DecidableEq, Repr

/-- The two links of a port in one direction. -/
structure LinkDir where
  /-- links 0 and 1. 08 R232. Reset: in service. -/
  link : SMap Link := []
  /-- alternation by class * 2 + channel, 8 scheduled. 08 R235. Reset: link 0. -/
  pair : SMap LinkPair := []
  deriving DecidableEq, Repr

/-- A router port: 0 local, 1 north, 2 east, 3 south, 4 west. -/
structure RPort where
  /-- outbound links. 08 R232. Reset: in service. -/
  out : LinkDir := {}
  /-- links into the port from its lantern (port 0) or its headgate; those from another router are that router's outbound links. 08 R232. Reset: in service. -/
  inn : LinkDir := {}
  /-- input buffers by class * 2 + channel, oldest first; 8 is the scheduled buffer. 08 R236. Reset: empty. -/
  bufs : SMap (List Flit) := []
  /-- round robin of the output port: stream in turn (0 scheduled, 1 to 3 the classes), flits it has had of its turn. 08 R244, R246. Reset: DESIGN CHOICE stream 0, none (log 52). -/
  turn : Nat × Nat := (0, 0)
  /-- order table banks 0 and 1. 08 R242. Reset: empty. -/
  orders : SMap OrderBank := []
  /-- the banks as the Lamplighter passed them, behind the golden check value. 11 R352. Reset: empty. -/
  golden : SMap OrderBank := []
  /-- active bank. 08 R242. Reset: 0. -/
  bank : Nat := 0
  /-- scheduled port of a loaded program. 08 R241. Reset: no. -/
  sched : Bool := false
  /-- next entry. 08 R242. Reset: 0. -/
  entry : Nat := 0
  /-- flits forwarded of the current run. 08 R243. Reset: 0. -/
  done : Nat := 0
  /-- step count. 08 R243. Reset: 0. -/
  steps : Nat := 0
  /-- switch step named. 08 R245. Reset: none. -/
  switchAt : Option Nat := none
  deriving DecidableEq, Repr

/-- A router (one per lantern). -/
structure Router where
  /-- five ports. 08 R232. Reset: empty. -/
  ports : SMap RPort := []
  /-- exception entries, at most 16: first DEST, last DEST, output port. 08 R237. Reset: none. -/
  exceptions : List (Nat × Nat × Nat) := []
  /-- permit mask per partition tag: bit p allows output port p. 08 R238. Reset: none allowed (no partition exists, 14 R431). -/
  permit : SMap Nat := []
  /-- exceptions and permit masks as module firmware wrote them through the Lamplighter, which holds their check value. 11 R352. Reset: none. -/
  goldExceptions : List (Nat × Nat × Nat) := []
  /-- as goldExceptions. 11 R352. Reset: none. -/
  goldPermit : SMap Nat := []
  /-- configuration check differs from golden. 11 R352. Reset: no. -/
  crcBad : Bool := false
  deriving DecidableEq, Repr

/-- An entry of a headgate's table for a partition (06 Table 6-14). -/
structure HgEntry where
  dest : Nat := 0
  kind : Nat := 0
  sub : Nat := 0
  cls : Fin 4 := 0
  grant : Nat := 0
  /-- credits left toward that destination. 05 R156, 06 R173. -/
  credits : Nat := 0
  deriving DecidableEq, Repr

/-- A line of the cistern (00 R4; 07 R229). -/
structure CisLine where
  data : Line := 0
  poison : Bool := false
  /-- draw of the cistern key it is sealed under, 0 where nothing was written. 00 R4, 10 Table 10-2. -/
  sealed : Nat := 0
  deriving DecidableEq, Repr

/-- A KV message that a cistern headgate receives from a lantern (07 R216, R217, R231). -/
structure CisMsg where
  src : Nat
  /-- cistern address of the next line. 07 Table 7-5. -/
  addr : Nat
  /-- lines still to come. 07 R216. -/
  left : Nat
  /-- lines since the last XACK. 07 R217. -/
  unacked : Nat
  cls : Fin 4
  deriving DecidableEq, Repr

/-- A rim tile, numbered N0-N9, E0-E9, S0-S9, W0-W9 from 0 (13 Table 13-2). -/
structure RimTile where
  /-- function in service. 11 Table 11-5. Reset: in service. -/
  lost : Bool := false
  /-- its memory, host-port or Zenden controllers are switched on. 01 Table 1-3. Reset: off. -/
  ctrl : Bool := false
  /-- its SerDes or cistern PHY is switched on. 01 Table 1-3. Reset: off. -/
  serdes : Bool := false
  /-- flits the headgate has taken from the mesh, oldest first. 08 R249. Reset: empty. -/
  rx : List Flit := []
  /-- flits the headgate's output port holds for its edge routers, oldest first. 08 R237. Reset: empty. -/
  tx : List Flit := []
  /-- headgate tables, by partition * 16 + entry. 06 R173. Reset: unused. -/
  entries : SMap HgEntry := []
  /-- weir exponent per partition. 06 Table 6-14. Reset: 0. -/
  weirK : SMap Nat := []
  /-- last class-0 injection per partition, plus one. 08 R247. Reset: none. -/
  weirLast : SMap Nat := []
  /-- flits the weir holds. 08 R247. Reset: empty. -/
  weirHeld : List Flit := []
  /-- flits waiting for credits of their entry: entry key and flit. 05 R156, 06 R173. Reset: empty. -/
  held : List (Nat × Flit) := []
  /-- a cistern channel's moves wait for its new image until this time. 11 R358. Reset: 0. -/
  holdTo : Nat := 0
  /-- KV messages being received by a cistern headgate. 07 R216, R231. Reset: none. -/
  msgs : List CisMsg := []
  /-- RIM flits discarded. 09 R298. Reset: 0. -/
  discarded : Nat := 0
  /-- RIM flits handled since the last CREDIT flit, by (partition * 16 + channel) * 4096 + source. 09 R298. Reset: 0. -/
  handled : SMap Nat := []
  /-- 8 event counters. 13 R389. Reset: 0. -/
  counters : SMap Counter := []
  deriving DecidableEq, Repr

/-- What the rim channel carries (01 R27). -/
inductive RimMsg where
  /-- The time base. -/
  | time (value : BitVec 64)
  /-- Register traffic: the partition or unit it is about, and how many values. -/
  | register (about count : Nat)
  /-- A doorbell of a function of a host port: kind, number, value. -/
  | doorbell (fn : Fn) (kind num : Nat) (value : BitVec 32)
  /-- Weight-package ciphertext of a partition: its bytes. -/
  | cipher (part bytes : Nat)
  /-- An event record to E8. -/
  | event (rec : EventRec)
  deriving DecidableEq, Repr

/-- A stop of the rim channel (01 R26). -/
structure RimStop where
  /-- flits it has moved on the clockwise and on the counter-clockwise ring. 01 R26. Reset: 0. -/
  cw : Nat := 0
  ccw : Nat := 0
  /-- last message handed to its tile, with the tile that sent it. 01 R27. Reset: none. -/
  got : Option (Nat × RimMsg) := none
  deriving DecidableEq, Repr

/-- A group kept until it is acknowledged (08 R256). -/
structure KeptGroup where
  gseq : Nat
  flits : List (Nat × Flit)
  /-- times sent, and when last. -/
  times : Nat
  sentAt : Nat
  /-- header and trailer of the last sending. 08 Table 8-8. -/
  head : BitVec 32
  check : BitVec 32
  deriving DecidableEq, Repr

/-- A Zenden port Z0 to Z3. -/
structure Zenden where
  /-- link trained and up. 08 R257. Reset: down. -/
  up : Bool := false
  /-- training failed, or the port is held down. 11 Table 11-2, 14 R414. Reset: no. -/
  failed : Bool := false
  /-- serial of the peer. 08 R259. Reset: 0. -/
  peer : BitVec 64 := 0
  /-- 64-flit channel buffers: channel and flit, oldest first. 08 R258. Reset: empty. -/
  out : List (Nat × Flit) := []
  /-- next group sequence, 11 bits. 08 Table 8-8. Reset: 0. -/
  gseq : Nat := 0
  /-- groups sent and not acknowledged, at most 16, oldest first. 08 R256. Reset: none. -/
  kept : List KeptGroup := []
  /-- GSEQ expected next, 11 bits. 08 R256. Reset: 0. -/
  expect : Nat := 0
  /-- round robin of the sender, as RPort's. 08 R246, R255. Reset: DESIGN CHOICE none (log 54). -/
  turn : Nat × Nat := (0, 0)
  /-- 32 bits, last header sent, and its time. 08 R255, Table 8-8. Reset: 0. -/
  head : BitVec 32 := 0
  headerAt : Nat := 0
  /-- time of the last valid header received. 08 R257. Reset: 0. -/
  heardAt : Nat := 0
  /-- link-down rules suspended until this time. 11 R358, 13 R403. Reset: 0. -/
  suspendTo : Nat := 0
  /-- partition granted each channel 0 to 14, plus one. 08 R258. Reset: none. -/
  owner : SMap Nat := []
  /-- notices of a rim-firmware activation sent to the peer on channel 15. 11 R358. Reset: 0. -/
  notices : Nat := 0
  deriving DecidableEq, Repr

/-! ## Fields, power and heat -/

/-- A field sensor: 0 to 3 diodes, 4 and 5 ring oscillators (12 R377). -/
structure Sensor where
  /-- reading, 1/8 K. 12 R377. Reset: DESIGN CHOICE 45 degrees C (log 6). -/
  reading : Int := 360
  /-- unhealthy. 12 R377. Reset: healthy. -/
  bad : Bool := false
  /-- samples in a row that differ. 12 R377. Reset: 0. -/
  off : Nat := 0
  /-- samples in a row that agree. 12 R377. Reset: 0. -/
  agree : Nat := 0
  /-- thermal-model estimate, degrees C. 12 R433. Reset: DESIGN CHOICE 30 (log 6). -/
  est : Rat := 30
  /-- last 32 excesses, newest first. 12 R387. Reset: none. -/
  excess : List Rat := []
  deriving DecidableEq, Repr

/-- A domain waiting to be switched on: a lantern with its banks, or one bank (12 R368). -/
structure RampReq where
  lantern : Nat
  bank : Option Nat
  /-- time the request was made, or found no headroom. 12 R369. -/
  since : Nat
  /-- it has waited for headroom. 12 R369. -/
  delayed : Bool := false
  deriving DecidableEq, Repr

/-- A field. -/
structure Field where
  /-- fabric island bad: field unusable, routers bad. 11 Table 11-2. Reset: no (log 5). -/
  islandBad : Bool := false
  /-- spare lanterns, local indices. 01 R19. Reset: none chosen. -/
  spares : List Nat := []
  /-- slot map: lantern of each slot plus one, 0 vacant. 11 R338. Reset: not made. -/
  slots : List Nat := []
  /-- slot map made. 11 R338. Reset: no. -/
  mapMade : Bool := false
  /-- governor window: time and charge, newest first. 06 R196. Reset: empty. -/
  window : List (Nat × Nat) := []
  /-- declared charges by step: step, sum. 06 R195. Reset: none. -/
  declared : SMap Nat := []
  /-- six sensors. 12 R377. Reset: as Sensor. -/
  sensors : SMap Sensor := []
  /-- tier 0 to 3. 12 R380. Reset: DESIGN CHOICE T0 (log 6). -/
  tier : Nat := 0
  /-- forecast has stayed low since. 12 R380. Reset: none. -/
  coolSince : Option Nat := none
  /-- at T1 or lower since. 12 R382. Reset: none. -/
  t1Since : Option Nat := none
  /-- forecast, degrees C. 12 R379. Reset: DESIGN CHOICE 45 (log 6). -/
  forecast : Rat := 45
  /-- last temperature used for the arrays when no sensor is healthy. 03 R71. Reset: as Sensor. -/
  noTempWarned : Bool := false
  /-- measured VCORE and VANA power, mW. 12 R433. Reset: DESIGN CHOICE 0 (log 6). -/
  power : Nat := 0
  /-- VCORE domain, mV. 12 R364. Reset: 0, rails off. -/
  vcore : Nat := 0
  /-- domains waiting to ramp. 12 R368. Reset: none. -/
  ramps : List RampReq := []
  /-- ramp in progress. 12 R368. Reset: none. -/
  ramping : Option RampReq := none
  /-- ramp in progress at 4 µs spacing. 12 R369. Reset: no. -/
  slowRamp : Bool := false
  /-- domains on for firmware work: lantern, bank. 01 R30. Reset: none. -/
  work : List Nat := []
  /-- path resistance: last 64 measurements per point 0 to 7. 12 R370. Reset: none. -/
  sense : SMap (List Rat) := []
  /-- baseline per point. 12 R370. Reset: not taken (14 R431). -/
  baseline : SMap Rat := []
  /-- WARN raised per point. 12 R371. Reset: no. -/
  senseWarned : List Nat := []
  /-- derated quadrants. 12 R371. Reset: none. -/
  derated : List Nat := []
  /-- quadrants already marked bad by a sense point. 12 R371. Reset: none. -/
  senseBad : List Nat := []
  /-- 8 event counters. 13 R389. Reset: 0. -/
  counters : SMap Counter := []
  deriving DecidableEq, Repr

/-! ## Event records in staging -/

/-- Which entry of staging a record holds (13 R398). -/
inductive StageSlot where
  | overflow | reserved | summary | general
  deriving DecidableEq, Repr

/-- A record waiting in staging. -/
structure Staged where
  ev : EventRec
  slot : StageSlot
  /-- second, last record of its key. 13 R398. -/
  second : Bool
  deriving DecidableEq, Repr

/-- A staging queue with its drop counts and sequence numbers (13 R398, R399, R434). -/
structure Staging where
  /-- 24 bits, next SEQ. 13 R434. Reset: 0. -/
  seq : Nat := 0
  /-- waiting records, oldest first. 13 R398. Reset: empty. -/
  q : List Staged := []
  /-- drop counts for the summary: TRACE, INFO, WARN, ERROR. 13 R399. Reset: 0. -/
  drops : Nat × Nat × Nat × Nat := (0, 0, 0, 0)
  deriving DecidableEq, Repr

/-! ## Functions of the host ports -/

/-- A completion entry (09 Table 9-3). -/
structure Completion where
  result : BitVec 128
  detail : BitVec 32
  sqhd : Nat
  sqid : Nat
  cid : BitVec 16
  status : Byte
  /-- request whose slot it holds: partition, tag. 09 R267. -/
  req : Option (Nat × BitVec 64)
  deriving DecidableEq, Repr

/-- Counting of interrupt coalescing (09 R268). -/
structure IntCoal where
  /-- vector, 255 none. 09 R268. -/
  vector : Nat := 255
  /-- INT_COUNT. 09 R268. -/
  count : Nat := 0
  /-- INT_TIME, µs. 09 R268. -/
  time : Nat := 0
  /-- entries written since the last message. 09 R268. -/
  since : Nat := 0
  /-- time of the first entry not signalled. 09 R268. -/
  first : Option Nat := none
  deriving DecidableEq, Repr

/-- A queue pair (09 R265 to R268). -/
structure Qp where
  sqBase : Nat
  sqSize : Nat
  sqHead : Nat
  sqTail : Nat
  cqBase : Nat
  cqSize : Nat
  /-- entries the host has freed up to. -/
  cqHead : Nat
  cqTail : Nat
  phase : Bool
  int : IntCoal
  /-- completions held for want of room, oldest first. 09 R267. -/
  held : List Completion
  /-- commands fetched and not completed, SUBMIT excepted. 09 R273. -/
  busy : Nat
  /-- deletion waiting for them. 09 R273. -/
  deleting : Bool
  deriving DecidableEq, Repr

/-- A function's event ring (13 R397). -/
structure EvRing where
  base : Nat
  rlog2 : Nat
  minsev : Nat
  /-- records written. -/
  k : BitVec 32
  cons : BitVec 32
  int : IntCoal
  deriving DecidableEq, Repr

/-- A doorbell latched under HOLD (09 R265): kind, number, value. -/
structure Latched where
  /-- 0 SQ_TAIL, 1 CQ_HEAD, 2 RUNNEL_CONS, 3 EV_CONS. -/
  kind : Nat
  num : Nat
  val : BitVec 32
  deriving DecidableEq, Repr

/-- The registers and queues of a function. -/
structure Func where
  /-- 64 bits, MB_SQ0_BASE. 09 Table 9-1. Reset: 0x0. -/
  sq0Base : BitVec 64 := 0
  /-- 64 bits, MB_CQ0_BASE. 09 Table 9-1. Reset: 0x0. -/
  cq0Base : BitVec 64 := 0
  /-- 32 bits, MB_Q0_SIZE. 09 Table 9-1. Reset: 0x0. -/
  q0Size : BitVec 32 := 0
  /-- MB_CTRL[0] EN. 09 Table 9-1. Reset: 0. -/
  en : Bool := false
  /-- MB_STATUS[2] CFG_ERR. 09 Table 9-1. Reset: 0. -/
  cfgErr : Bool := false
  /-- 32 bits, MB_Q0_INT. 09 Table 9-1. Reset: 0x0. -/
  q0Int : BitVec 32 := 0
  /-- FN_STATUS[2:0]. 13 Table 13-8. Reset: 0x0. -/
  status : BitVec 3 := 0
  /-- EV_DROPS: TRACE, INFO, WARN, ERROR. 13 Table 13-8. Reset: 0. -/
  evDrops : Nat × Nat × Nat × Nat := (0, 0, 0, 0)
  /-- ALERT_STATUS[2:0], PF only. 13 Table 13-8. Reset: 0x0. -/
  alert : BitVec 3 := 0
  /-- ALERT_MASK[2], PF only. 13 Table 13-8. Reset: 0x0. -/
  alertMask : Bool := false
  /-- queue pairs 0 to 63. 09 R263. Reset: none. -/
  qps : SMap (Option Qp) := []
  /-- event ring. 13 R397. Reset: none. -/
  ring : Option EvRing := none
  /-- staging queue, 1,024 entries. 13 R398. Reset: empty. -/
  staging : Staging := {}
  /-- messages still owed for runnels whose request has ended: partition, runnel, coalescing. 09 R268. Reset: none. -/
  owed : List (Nat × Nat × IntCoal) := []
  /-- doorbells latched under HOLD, last write per doorbell. 09 R265. Reset: none. -/
  latched : List Latched := []
  /-- reset waiting for HOLD to clear. 14 R426. Reset: no. -/
  resetPending : Bool := false
  deriving DecidableEq, Repr

/-- What the module sends to a host: memory writes and MSI-X messages, in order. -/
inductive HostOut where
  | mem (port : HostPort) (addr : Nat) (bytes : List Byte)
  | msix (fn : Fn) (vector : Nat)
  deriving DecidableEq, Repr

/-- PCIe generations a host port runs: 7.0, falling back to 6.x, 5.0 and 4.0 (00 Table 0-3). -/
inductive PcieGen where
  | g7 | g6 | g5 | g4
  deriving DecidableEq, Repr

/-- A host port's link (14 R415, R425, R426). -/
structure HostLink where
  /-- released at about 404 ms. 14 R425. Reset: no. -/
  released : Bool := false
  /-- PERST pin asserted. 14 Table 14-4. Reset: asserted (an open pin reads asserted, R416). -/
  perst : Bool := true
  /-- link up. 14 R425. Reset: down. -/
  up : Bool := false
  /-- generation that its last training reached. 00 R8 Table 0-3. Reset: none. -/
  gen : Option PcieGen := none
  /-- training failed, retrains every 1 s. 11 Table 11-2. Reset: no. -/
  failed : Bool := false
  /-- held down by the cable's management memory. 14 R414. Reset: no. -/
  cableHold : Bool := false
  /-- time the link went down without PERST. 14 R415. Reset: none. -/
  downAt : Option Nat := none
  /-- memory writes held, oldest first. 14 R415. Reset: none. -/
  held : List HostOut := []
  deriving DecidableEq, Repr

/-! ## Partitions and requests -/

/-- States of Table 9-7 (09 R275). -/
inductive PState where
  | empty | loaded | serving | draining | faulted
  deriving DecidableEq, Repr

/-- States of Table 9-10 (09 R280). -/
inductive RState where
  | prefill | decode | held | ending
  deriving DecidableEq, Repr

/-- A fault record (11 Table 11-6). -/
structure FaultRec where
  cls : Nat
  cause : Nat
  part : Nat
  place : Nat
  step : Nat
  index : Nat
  word : Word
  detail : Nat
  time : Nat
  epoch : Nat
  outcome : Nat
  /-- lantern, index, did not answer, wait codes by engine. -/
  list : List (Nat × Nat × Bool × List Nat)
  deriving DecidableEq, Repr

/-- What a context record keeps of a share (07 R229): LAYOUT, BASE, S, J and COUNT. -/
structure ShareRec where
  layout : Nat
  base : Nat
  s : Nat
  j : Nat
  count : Nat
  deriving DecidableEq, Repr

/-- The part of a layer's cache that one lantern holds for a sequence (07 R203, R205, R208): its descriptor with the directory and page-table lines behind it, and its pages in local order. -/
structure Share where
  lantern : Nat
  desc : Nat
  lines : Nat
  pages : List Nat
  of : ShareRec
  deriving DecidableEq, Repr

/-- A page on its way to or from the cistern (07 R228 to R231): its share's place, its local indices, its image in the context. -/
structure PageMove where
  share : Nat
  first : Nat
  n : Nat
  image : Nat
  deriving DecidableEq, Repr

/-- Where a sequence's cache stands (07 R205, R228, R230). -/
inductive CacheStage where
  /-- Pages reserved; the descriptors are bound at the next step boundary. -/
  | bind
  /-- Descriptors ACTIVE. -/
  | live
  /-- Descriptors MOVING: pages to send to the cistern, pages on their way. -/
  | out (todo busy : List PageMove)
  /-- Descriptors MOVING: pages to bring back, pages on their way, a line has failed authentication. -/
  | back (todo busy : List PageMove) (failed : Bool)
  /-- Every page is back; the descriptors are ACTIVE from the next step boundary on. -/
  | ready
  deriving DecidableEq, Repr

/-- A request in flight (09 R278 to R290). -/
structure Request where
  tag : BitVec 64
  fn : Fn
  sqid : Nat
  sqhd : Nat
  cid : BitVec 16
  state : RState
  rbase : Nat
  rn : Nat
  rlog2 : Nat
  int : IntCoal
  /-- CONS and entries written. 09 R282. -/
  cons : BitVec 32
  written : BitVec 32
  /-- entries with a token written. 09 R283. -/
  delivered : Nat
  maxNew : Nat
  sample : Bool
  spec : Bool
  keep : Bool
  resume : Bool
  draftK : Nat
  topK : Nat
  temp : F32
  topP : F32
  seed : BitVec 64
  promptLen : Nat
  prompt : List (BitVec 32)
  ends : List (BitVec 32)
  stops : List (List (BitVec 32))
  keepTtl : Nat
  /-- adapter slot bound, plus one. 09 R296. -/
  adapter : Nat
  /-- positions before the prompt (resumed). 09 R278. -/
  pos0 : Nat
  /-- tokens generated under this SUBMIT, oldest first. 09 R284. -/
  gen : List (BitVec 32)
  /-- last 32 passes: proposed, accepted, newest first. 09 R288. -/
  passes : List (Nat × Nat)
  /-- drafting off until this many tokens are delivered. 09 R288. -/
  draftOff : Option Nat
  /-- a pass is running. 09 R281. -/
  inPass : Bool
  /-- why it ends: status of Table 9-4; runnel REASON; MATCH. 09 R280. -/
  endStatus : Nat
  reason : Nat
  hit : Nat
  /-- FINAL entry written. 09 R284. -/
  final : Bool
  /-- TTL of a PAUSE. 09 R290. -/
  pauseTtl : Nat
  /-- resume in progress: the context record. 07 R230. -/
  resuming : Bool
  /-- context handle given. 09 R291. -/
  handle : BitVec 64
  /-- sequence tag. 07 R205. -/
  seq : BitVec 32
  /-- shares with the pages reserved for them. 07 R227. -/
  shares : List Share
  /-- where they stand. 07 R228, R230. -/
  stage : CacheStage
  /-- tag under which the cistern holds its page images. 07 R229. -/
  image : Nat
  /-- owner table: first position, position after the last, ring index. 07 R224. -/
  owners : List (Nat × Nat × Nat)
  /-- last token of the record resumed, appended before the prompt. 09 R292. -/
  lastTok : Option (BitVec 32)
  /-- status of a store that failed, 0 none. 09 R291. -/
  storeErr : Nat
  /-- last position appended, when an end notice gave it. 09 Table 9-13. -/
  note : Option Nat
  /-- its completion waits in a full queue. 09 R267. -/
  written9 : Bool
  /-- its completion is discarded (queue deleted, function reset). 09 R262, R273. -/
  silent : Bool
  /-- its runnel writes are discarded (function reset). 09 R262. -/
  mute : Bool
  deriving DecidableEq, Repr

/-- A paused context (09 R291). -/
structure Context where
  handle : BitVec 64
  part : Nat
  layout : BitVec 384
  wset : BitVec 384
  lastTok : BitVec 32
  lastPos : Nat
  adapterId : Nat
  adapterVer : Nat
  /-- expiry time. 09 R293. -/
  expiry : Nat
  /-- its shares. 07 R229. -/
  shares : List ShareRec
  /-- tag under which the cistern holds its page images. 07 R229. -/
  image : Nat
  /-- a command that names it is in progress. 09 R293. -/
  busy : Bool
  deriving DecidableEq, Repr

/-- An adapter slot (09 R295). -/
structure Adapter where
  id : Nat
  ver : Nat
  current : Bool
  refs : Nat
  digest : BitVec 384
  deriving DecidableEq, Repr

/-- A chunk record kept in flash (10 R319): field, slot, kind, array, digest. -/
structure ChunkRec where
  index : Nat
  field : Nat
  slot : Nat
  kind : Nat
  arr : Nat
  digest : BitVec 384
  deriving DecidableEq, Repr

/-- A chunk being programmed or waiting for it, or LINES that wait for their lantern's domain: its descriptor, command and data (LINES: by line). -/
structure ChunkJob where
  chunk : ChunkRec
  lantern : Nat
  mode : Nat
  cells : SMap Int
  raw : BitVec 384
  fn : Fn
  sqid : Nat
  sqhd : Nat
  cid : BitVec 16
  /-- for a remap: no command waits. -/
  silent : Bool
  /-- its array is in programming: cells reset. 02 R62. -/
  started : Bool := false
  deriving DecidableEq, Repr

/-- Weight-set status (10 R318). -/
inductive WStatus where
  | complete | incomplete | absent
  deriving DecidableEq, Repr

/-- A copy of an applied LINES chunk's line kept in the cistern (10 R320). -/
structure LinesRec where
  field : Nat
  slot : Nat
  line : Nat
  data : Line
  /-- draw of the cistern key it is sealed under. 00 R4. -/
  sealed : Nat
  deriving DecidableEq, Repr

/-- An ARRAY or RANGE chunk of the weight reserve (11 R347): kind 1 ARRAY, 2 RANGE. -/
structure ReserveRec where
  field : Nat
  slot : Nat
  kind : Nat
  arr : Nat
  mode : Fin 3
  cells : SMap Int
  /-- draw of the cistern key it is sealed under. 00 R4. -/
  sealed : Nat
  deriving DecidableEq, Repr

/-- An open weight load (10 R315 to R319). -/
structure WeightLoad where
  header : List Byte
  chunks : Nat
  plain : BitVec 384
  /-- ephemeral secrets while held. -/
  eph : Option (BitVec 256 × BitVec 256)
  quote : List Byte
  hasKey : Bool
  badBlobs : Nat
  /-- applied chunks: index, package digest, plaintext digest. -/
  applied : List (Nat × BitVec 384 × BitVec 384)
  /-- time of the last chunk. 10 R318. -/
  lastAt : Nat
  deriving DecidableEq, Repr

/-- The weight set of a partition (10 R312 to R321). -/
structure WeightSet where
  /-- status. 10 R318. Reset: absent. -/
  status : WStatus := .absent
  /-- plaintext digest. 10 R309. Reset: none. -/
  plain : Option (BitVec 384) := none
  /-- package digest. 10 R309. Reset: none. -/
  package : Option (BitVec 384) := none
  /-- ALLOW entries. 10 R321. Reset: none. -/
  allow : List (BitVec 384) := []
  /-- DEBUG_ERASE. 10 Table 10-7. Reset: 0. -/
  debugErase : Bool := false
  /-- DOMAIN. 10 R323. Reset: 0. -/
  domain : BitVec 128 := 0
  /-- weight key. 10 Table 10-2. Reset: none. -/
  key : Option (BitVec 256) := none
  /-- exports under the session key. 10 R323. Reset: 0. -/
  exports : Nat := 0
  /-- open load. 10 R315. Reset: none. -/
  load : Option WeightLoad := none
  /-- chunk records in flash. 10 R319. Reset: none (14 R431). -/
  recs : List ChunkRec := []
  /-- plaintext digest that the chunk records belong to. 10 R319. Reset: none. -/
  recPlain : Option (BitVec 384) := none
  /-- chunks missing when the last load ended. 10 R318. Reset: 0. -/
  missing : Nat := 0
  /-- LINES copies in the cistern: field, slot, line, data. 10 R320. Reset: none. -/
  lines : List LinesRec := []
  /-- weight reserve: field, slot, array, mode, cells. 11 R347. Reset: none. -/
  reserve : List ReserveRec := []
  deriving DecidableEq, Repr

/-- The loaded program: header fields and what a reload needs (06 R169 to R173). -/
structure Program where
  /-- the image. 06 R169. -/
  image : List Byte
  ryile : Bool
  draft : Bool
  sched : Bool
  stepTime : Nat
  slots : Nat
  vocab : Nat
  ctxmax : Nat
  peak : Nat
  margin : F32
  clayout : BitVec 384
  wset : BitVec 384
  digest : BitVec 384
  deriving DecidableEq, Repr

/-- The monitor settings of a partition in force (03 Table 3-2). -/
structure MonSet where
  monW : Nat := 12
  captureN : Nat := 65536
  rdfWarn : Nat := 100
  rdfErr : Nat := 250
  satWarn : Nat := 64
  profTol : Nat := 250
  deriving DecidableEq, Repr

/-- A partition. -/
structure Partition where
  /-- state. 09 R275. -/
  state : PState
  fx0 : Nat
  fy0 : Nat
  w : Nat
  h : Nat
  quiet : Bool
  cistern : Bool
  port : HostPort
  vf : Nat
  zen : Nat
  hgonly : Nat
  zchan : BitVec 64
  /-- run-ahead window in force, and pending until PART_START. 06 R189, 09 R273. -/
  window : Nat
  windowNext : Option Nat
  /-- watchdog µs, and pending until a boundary. 06 R191, 09 R273. -/
  watchdog : Nat
  watchdogNext : Option Nat
  /-- power share, 0.1 W; pending; share when it last started. 12 R372, R375. -/
  share : Nat
  shareNext : Option Nat
  share0 : Nat
  /-- configuration epoch, 32 bits. 11 R354. -/
  epoch : Nat
  prog : Option Program := none
  wset : WeightSet := {}
  mon : MonSet := {}
  monNext : Option MonSet := none
  /-- drift compensation, and pending. 03 R79. -/
  drift : Bool := true
  driftNext : Option Bool := none
  /-- REF_REFRESH, 0.1 %. 03 R106. -/
  refresh : Nat := 20
  /-- refresh window: end time, arrays touched up. 03 R107. -/
  window10 : Option (Nat × Nat) := none
  /-- no running request since. 03 R107. -/
  idleSince : Option Nat := none
  /-- idle rule of R107 met: touch-ups may run. -/
  idleTouch : Bool := false
  /-- thermal hold; drain is thermal; its start. 12 R382. -/
  hold : Bool := false
  thermal : Option Nat := none
  /-- step tree running. 06 R198. -/
  running : Bool := false
  /-- boundaries so far: the number of the last boundary plus one. 06 R188. -/
  bound : Nat := 0
  /-- time of the last boundary or of the start. 06 R188. -/
  boundAt : Nat := 0
  /-- step time in force, ns. 12 R375. -/
  stepTime : Nat := 0
  /-- allowance per field, 0.01 nJ. 06 R194. -/
  allowance : Nat := 0
  /-- cap factor and monitor multiplier. 12 R374, R376. -/
  fP : Rat := 1
  mult : Rat := 1
  /-- cap factor that waits for a step boundary. 12 R374. Reset: none. -/
  fPNext : Option Rat := none
  /-- package power of the last window, mW. 12 R376. -/
  power : Nat := 0
  /-- ERROR at 20,000 ns raised. 12 R375. -/
  overWarned : Bool := false
  /-- perturbation registers, raw. 13 Table 13-8. -/
  hsdelay : SMap (BitVec 32) := []
  pcredit : BitVec 32 := 0
  pstretch : BitVec 32 := 0
  padc : BitVec 32 := 0
  /-- perturbation values in force since a boundary: stretch units, credits register, ADC register, delays. 13 R403. -/
  stretchOn : Nat := 0
  pcreditOn : BitVec 32 := 0
  padcOn : BitVec 32 := 0
  hsdelayOn : SMap (BitVec 32) := []
  /-- PERT_STATUS[0]; Zenden port retraining until. 13 Table 13-8. -/
  pertRefused : Bool := false
  retrain : Option (Nat × Nat) := none
  /-- TRACE_CTRL[2:0], TRACE_WIDX, trace SEQ. 13 R402. -/
  traceCtrl : BitVec 3 := 0
  traceWidx : BitVec 32 := 0
  traceSeq : Nat := 0
  traceRing : SMap (Option EventRec) := []
  /-- 64 aggregated counters. 13 R389. -/
  counters : SMap Counter := []
  /-- requests in flight. 09 R280. -/
  reqs : List Request := []
  /-- last 4,096 completed tags. 09 R289. -/
  doneTags : List (BitVec 64) := []
  /-- adapter slots 0 to 63. 09 R295. -/
  adapters : SMap (Option Adapter) := []
  /-- last 8 fault records, newest first. 11 R344. -/
  faults : List FaultRec := []
  /-- fault taken by firmware and not yet handled, then in handling: suspects. 11 R345. -/
  newFaults : List FaultRec := []
  handling : Option FaultRec := none
  suspects : List Nat := []
  /-- was DRAINING when it faulted. 11 R345. -/
  wasDraining : Bool := false
  /-- bad lanterns of the retest done, remap result. 11 R347. -/
  remapped : Nat := 0
  retested : Bool := false
  shortfall : Bool := false
  /-- times of program faults, newest first. 11 R349. -/
  progFaults : List Nat := []
  /-- authenticated debug in force, and its end pending. 10 R326, R327. -/
  debug : Bool := false
  debugEnd : Bool := false
  /-- slot of the lantern microcode that MICROCODE_UPDATE or ACTIVATE gave it, true for B; none for the slot the kind runs. 11 R359. -/
  micro : Option Bool := none
  /-- shares given up: their descriptors go IDLE and their pages return at the next step boundary. 07 R206, R214. -/
  freeing : List Share := []
  /-- quiet slot. 08 R252. -/
  slot : Nat := 0
  deriving DecidableEq, Repr

/-- A dormant partition record (11 R342). -/
structure Dormant where
  part : Nat
  fx0 : Nat
  fy0 : Nat
  w : Nat
  h : Nat
  plain : Option (BitVec 384)
  recs : List ChunkRec
  deriving DecidableEq, Repr

/-- A command that completes later (09 R266). -/
inductive WaitFor where
  /-- PART_DRAIN: requests cancelled. -/
  | drain (part cancelled : Nat)
  /-- CANCEL of a request. -/
  | cancel (part : Nat) (tag : BitVec 64)
  /-- PAUSE of a request. -/
  | pause (part : Nat) (tag : BitVec 64)
  /-- WEIGHT_CLOSE behind chunks. -/
  | weightClose (part : Nat)
  /-- ERASE_WEIGHTS, ZEROISE, PART_DELETE, PROGRAM_LOAD, PART_CREATE, DEBUG_UNLOCK behind an erasure: list in the data, result. -/
  | erase (list : Bool) (retire : Bool) (result : BitVec 128)
  | refreshWindow (part : Nat)
  /-- RECALIBRATE of offsets behind domains: its RESULT. -/
  | recal (result : Nat)
  | ringForm
  | qpDelete (q : Nat)
  | lamplighterFw
  | plateFw
  deriving DecidableEq, Repr

/-- A fetched command that completes later: where its completion goes, what it waits for (09 R266). -/
structure Waiting where
  fn : Fn
  sqid : Nat
  sqhd : Nat
  cid : BitVec 16
  /-- where its data goes: address, length. 09 R269. -/
  segs : List (Nat × Nat)
  what : WaitFor
  deriving DecidableEq, Repr

/-! ## Security, firmware, service -/

/-- A firmware slot A or B of a kind (10 R304). -/
structure FwSlot where
  /-- holds an image. 10 R304. -/
  present : Bool := false
  /-- SVN, 0 to 255. 10 Table 10-3. -/
  svn : Nat := 0
  /-- digest of the code; none for the image the module shipped with. 10 Table 10-3. -/
  digest : Option (BitVec 384) := none
  /-- Ehrair build identifier; none for the shipped image. 10 Table 10-3. -/
  build : Option (BitVec 128) := none
  deriving DecidableEq, Repr

/-- Firmware of one kind (10 R304; 11 R355). -/
structure FwKind where
  /-- slot A. 10 R304. Reset: DESIGN CHOICE the shipped image, SVN 0 (log 9). -/
  a : FwSlot := { present := true }
  /-- slot B. 10 R304. Reset: DESIGN CHOICE empty (log 9). -/
  b : FwSlot := {}
  /-- slot last marked active is B. 10 R304. Reset: DESIGN CHOICE A (log 9). -/
  activeB : Bool := false
  /-- slot B runs as the committed image since boot. 10 R304. Reset: A. -/
  runB : Bool := false
  /-- an image is staged in the slot that is not active. 11 R355. Reset: no. -/
  staged : Bool := false
  /-- targets that run the staged image. 11 R355. Reset: none. -/
  activated : List Nat := []
  deriving DecidableEq, Repr

/-- An SPDM session (10 R307). -/
structure Session where
  id : Nat
  ep : SpdmEp
  established : Bool
  /-- key generation. -/
  keyGen : Nat
  deriving DecidableEq, Repr

/-- What the Lamplighter answers on an endpoint (10 R307). -/
inductive SpdmAnswer where
  | version | capabilities | algorithms
  | digests (d : BitVec 384)
  | certificate (slot gen : Nat)
  | challengeAuth (sig : List Byte)
  | measurements (blocks : List (Nat × List Byte)) (signature : Option (List Byte))
  | keyExchange (session : Nat)
  | finish | heartbeat | keyUpdate | endSession
  | unsupportedRequest
  | unexpectedRequest
  /-- an error response whose code no rule gives. -/
  | otherError
  deriving DecidableEq, Repr

/-- The Lamplighter and the OTP (10). -/
structure Security where
  /-- ROM running since VAON good. 10 Table 10-5. Reset: no. -/
  rom : Bool := false
  /-- self-tests passed, UDS regenerated, DeviceID keys derived. 10 R300, R306. Reset: no. -/
  uds : Bool := false
  /-- Lamplighter firmware running; alias keys derived, generation. 10 R306. Reset: 0, no. -/
  fw : Bool := false
  aliasGen : Nat := 0
  /-- the compound device identifier. 10 R306. Reset: none. -/
  cdi : BitVec 256 := 0
  /-- restarting into new firmware. 11 R357. Reset: no. -/
  restarting : Bool := false
  /-- error state. 10 R300. Reset: no. -/
  error : Bool := false
  /-- retirement fuse. 10 Table 10-16. Reset: intact. -/
  retired : Bool := false
  /-- OTP locked. 10 Table 10-5. Reset: no. -/
  otpLocked : Bool := false
  /-- 64 counters of 8 bits. 10 R305. Reset: the SVN of the shipped images, DESIGN CHOICE 0 (log 9). -/
  counters : SMap Nat := []
  /-- revoked bits: set * 16 + kind * 4 + slot. 10 R303, R325. Reset: DESIGN CHOICE none revoked (log 9). -/
  revoked : List Nat := []
  /-- kinds 1 to 5. 10 R304. Reset: as FwKind. -/
  images : SMap FwKind := []
  /-- one update in progress. 11 R355. Reset: no. -/
  updating : Bool := false
  /-- power-plate update: group, phase, groups left. 12 R388. Reset: none. -/
  plate : Option (Nat × Nat × List Nat) := none
  /-- no acceptable image: serves PLDM only. 10 R304. Reset: no. -/
  pldmOnly : Bool := false
  /-- draws made from the DRBG. 10 R299. Reset: DESIGN CHOICE 0, the model's own index of free values (log 10). -/
  draws : Nat := 0
  /-- cistern key: draw index plus one, 0 none. 10 Table 10-2. Reset: none. -/
  cisternKey : Nat := 0
  /-- SPDM sessions. 10 R307. Reset: none. -/
  sessions : List Session := []
  /-- last answer per endpoint, newest first. 10 R307. Reset: none. -/
  answers : List (SpdmEp × SpdmAnswer) := []
  /-- debug unlocked since power-on: token digest, scope. 10 Table 10-6. Reset: no. -/
  unlocked : Option (BitVec 384 × Nat) := none
  /-- measurements that a command in progress changes, as they were before it: index, bytes if any. 10 R310. Reset: none. -/
  shown : List (Nat × Option (List Byte)) := []
  /-- route tables locked. 08 R238. Reset: no; locked when bring-up has written them (11 R331). -/
  routesLocked : Bool := false
  /-- JTAG debug instructions enabled. 10 R326. Reset: no. -/
  jtag : Bool := false
  /-- last JTAG data register: 0 none, 1 IDCODE, 2 BYPASS. 10 R327. Reset: DESIGN CHOICE none (log 2). -/
  jtagSel : Nat := 0
  deriving DecidableEq, Repr

/-- A calibration record with its copies, each of 256 bytes with byte 0 lowest, and what is in force (03 R91, R93, R94). -/
structure CalRec where
  /-- copy in slot 0 of the field's store. 03 R93. -/
  slot0 : BitVec 2048
  /-- copy in slot 1. 03 R93. -/
  slot1 : BitVec 2048
  /-- master copy in the flash. 03 R93. -/
  master : BitVec 2048
  /-- record whose values are in force. 03 R94. -/
  cur : BitVec 2048
  /-- committed record waiting for a step boundary. 03 R94. -/
  next : Option (BitVec 2048)
  deriving DecidableEq, Repr

/-- A repair map entry (11 Table 11-3). -/
structure RepairEntry where
  typ : Nat
  source : Nat
  place : Nat
  detail : Nat
  psec : Nat
  deriving DecidableEq, Repr

/-- A copy of the repair map: header and entries; the default check value is that of generation 0 with no entry (11 R337). -/
structure RepairCopy where
  /-- 32 bits, generation. 11 R337. Reset: DESIGN CHOICE 0 (log 9). -/
  gen : BitVec 32 := 0
  /-- up to 8,192. 11 R337. Reset: DESIGN CHOICE none, an unrepaired wafer (log 9). -/
  entries : List RepairEntry := []
  /-- 32 bits, CRC-32C over the rest of the copy. 11 R337. Reset: that of the copy. -/
  check : BitVec 32 := 0x2B60B55D
  deriving DecidableEq, Repr

/-- Progress of bring-up: rows of Table 11-1 that have ended (11 R331). -/
structure Boot where
  /-- PWR_EN taken as asserted and not deasserted. 14 R421. Reset: deasserted. -/
  pwrEn : Bool := false
  /-- power-down in progress; PWR_EN asserted again meanwhile. 12 R367, 14 R427. Reset: no. -/
  downAt : Option Nat := none
  again : Bool := false
  /-- rails on. 12 R366. Reset: off. -/
  rails : Bool := false
  vaon : Bool := false
  measured : Bool := false
  /-- control processors: firmware released; A, B in service; B active. 11 R350. Reset: no. -/
  released : Bool := false
  aUp : Bool := false
  bUp : Bool := false
  bActive : Bool := false
  cisternDone : Bool := false
  calDone : Bool := false
  selfTest : Bool := false
  neighbour : Bool := false
  repairDone : Bool := false
  retention : Bool := false
  dormantDone : Bool := false
  /-- READY. 11 R332. Reset: low. -/
  ready : Bool := false
  /-- HOLD. 09 R265. Reset: 0. -/
  hold : Bool := false
  holdAt : Nat := 0
  /-- SLOT_ID sampled. 14 Table 14-4. Reset: DESIGN CHOICE 0 (log 2). -/
  slotId : Nat := 0
  deriving DecidableEq, Repr

/-- Power plate, input, coolant (12). -/
structure Plant where
  /-- input, mV. 12 R361. Reset: DESIGN CHOICE 24,000 (log 6). -/
  vin : Nat := 24000
  /-- J1 connected. 14 R413. Reset: DESIGN CHOICE connected (log 6). -/
  j1 : Bool := true
  /-- over-voltage WARN raised this power-on. 12 Table 12-1. Reset: no. -/
  ovWarned : Bool := false
  /-- rail-fault log not yet reported: DETAIL. 12 R365. Reset: none. -/
  railLog : List Nat := []
  /-- hard-trip log not yet reported: comparator. 12 R383. Reset: none. -/
  tripLog : List Nat := []
  /-- the plate holds a rail fault until PWR_EN is deasserted. 12 R365. Reset: no. -/
  railHold : Bool := false
  /-- THERM_TRIP_N asserted. 12 R383. Reset: no. -/
  trip : Bool := false
  /-- ALERT_N asserted directly. 13 R401. Reset: no. -/
  alertDirect : Bool := false
  /-- set point of the rim's VCORE domain, mV. 01 R23, 12 R364. Reset: 0, off. -/
  rimVcore : Nat := 0
  /-- phases out of service per group 0 to 44. 12 R363. Reset: 0. -/
  phasesOut : SMap Nat := []
  /-- phase out for an update: group plus one. 12 R388. Reset: none. -/
  phaseUpd : Nat := 0
  /-- VPROG switch closed. 12 R366. Reset: open. -/
  vprog : Bool := false
  /-- coolant sensors 0, 1 inlet and 2, 3 outlet, 1/8 K. 12 R378. Reset: DESIGN CHOICE 30 degrees C (log 6). -/
  coolant : SMap Int := []
  coolBad : List Nat := []
  /-- samples in a row in disagreement per place. 12 R378. Reset: 0. -/
  disagree : Nat × Nat := (0, 0)
  inletLowWarned : Bool := false
  inletHighErr : Bool := false
  placeErr : Bool := false
  /-- PG25. 12 R384. Reset: water (14 R431). -/
  pg25 : Bool := false
  /-- input and cistern power, mW. 13 Table 13-11. Reset: DESIGN CHOICE 0 (log 6). -/
  pin : Nat := 0
  pcis : Nat := 0
  /-- flow estimate, L/min; samples of the last second. 12 R385. Reset: DESIGN CHOICE 10 (log 6). -/
  flow : Rat := 10
  flowSamples : List Rat := []
  /-- flow band 0 to 3; above the next band since. 12 R386. Reset: DESIGN CHOICE 0 (log 6). -/
  band : Nat := 0
  bandSince : Option Nat := none
  /-- estimates below 1.6 L/min. 12 Table 12-10. Reset: 0. -/
  lowFlow : Nat := 0
  /-- coolant stop in force; clear since. 12 R387. Reset: no. -/
  stop : Bool := false
  stopSince : Option Nat := none
  deriving DecidableEq, Repr

/-- Ring of modules (08 R259, R260). -/
structure Ring where
  /-- size, 0 standalone. 08 R259. Reset: DESIGN CHOICE 0 (log 2). -/
  size : Nat := 0
  /-- index. 08 R259. Reset: 0. -/
  index : Nat := 0
  /-- mode of Z1 and Z3: 0 SECOND, 1 BYPASS, 2 P2P. 08 R259. Reset: DESIGN CHOICE SECOND (log 2). -/
  mode : Nat := 0
  /-- formation started here. 08 R259. Reset: none. -/
  forming : Option Nat := none
  /-- time RING_FORM was passed on and RING_DONE is awaited. 08 Table 8-9. Reset: none. -/
  taken : Option Nat := none
  /-- RING_DONE has opened the channels. 08 Table 8-9. Reset: no. -/
  formed : Bool := false
  /-- primary port whose link was lost; bypass link joined; ring a chain. 08 R260. Reset: none. -/
  lost : Option Nat := none
  bypass : Bool := false
  chain : Bool := false
  /-- messages sent out of Z2 on channel 15: RING_FORM i as (0, i), RING_DONE n as (1, n). 08 Table 8-9. Reset: none. -/
  sent : List (Nat × Nat) := []
  deriving DecidableEq, Repr

/-- The management bus (14 R422; 13 R400). -/
structure Mgmt where
  /-- dynamic address; none while on SMBus. 14 R422. Reset: none. -/
  addr : Option (BitVec 7) := none
  /-- staging of the management path, 128 entries. 13 R400. Reset: empty. -/
  staging : Staging := {}
  /-- event messages sent, oldest first. 13 R400. Reset: none. -/
  sent : List EventRec := []
  deriving DecidableEq, Repr

/-- The state of the module. -/
structure State where
  /-- commands waiting, first in first out. DESIGN of the block model. Reset: empty. -/
  pending : List Instr := []
  /-- module time base, 64 bits, ns. 08 R239. Reset: 0, starts with the ROM. -/
  now : BitVec 64 := 0
  /-- powered seconds of the module, in ns. 11 Table 11-3. Reset: DESIGN CHOICE 0 (log 5). -/
  powered : Nat := 0
  /-- offset of each island's copy from the master, by island: 0-99 fields, 100-139 rim tiles, 200 + n lanterns. 08 R240. Reset: 0. -/
  skew : SMap Int := []
  /-- 1,600 lanterns. 01 R16. Reset: as Lantern. -/
  lanterns : SMap Lantern := []
  /-- 1,600 routers. 08 R232. Reset: as Router. -/
  routers : SMap Router := []
  /-- 100 fields. 01 R15. Reset: as Field. -/
  fields : SMap Field := []
  /-- 40 rim tiles. 01 R25. Reset: as RimTile. -/
  tiles : SMap RimTile := []
  /-- stops of the rim channel, by tile. 01 R25, R26. Reset: as RimStop. -/
  rim : SMap RimStop := []
  /-- Z0 to Z3. 08 R255. Reset: as Zenden. -/
  zen : SMap Zenden := []
  /-- functions: port A 0 to 16, port B 17 to 33. 09 R261. Reset: as Func. -/
  funcs : SMap Func := []
  /-- host links 0 A, 1 B. 14 R425. Reset: as HostLink. -/
  links : SMap HostLink := []
  /-- memory writes and messages issued to the hosts, newest first. 09 R270. Reset: none. -/
  out : List HostOut := []
  /-- partitions 0 to 15. 01 R28. Reset: none (14 R431). -/
  parts : SMap (Option Partition) := []
  /-- queue pair that module firmware fetched from last: function * 64 + queue. 09 R266. Reset: DESIGN CHOICE 0 (log 55). -/
  visit : Nat := 0
  /-- commands that complete later. 09 R266. Reset: none. -/
  waiting : List Waiting := []
  /-- paused contexts. 09 R291. Reset: none. -/
  contexts : List Context := []
  /-- next handle serial. 09 R291. Reset: DESIGN CHOICE 1 (log 2). -/
  serial : Nat := 1
  /-- chunks being programmed. 10 R317. Reset: none. -/
  jobs : List ChunkJob := []
  /-- arrays being erased, and those that failed. 02 R66. Reset: none. -/
  erasing : List (Nat × Nat) := []
  /-- lanterns whose offsets a RECALIBRATE measures once their domain is on, with its SETID. 01 R30, 11 R360. Reset: none. -/
  recal : List (Nat × BitVec 32) := []
  /-- an erasure has been verified since power-on: a record, no rule reads it. 02 R66. Reset: no. -/
  erased : Bool := false
  /-- routes unbounded or unroutable: source, destination, partition, kind. 08 R248, R237. Reset: none. -/
  routes : List (Nat × Nat × Nat × Nat) := []
  /-- spare setting in force and pending. 01 R18. Reset: 1, 1 (14 R431). -/
  spares : Nat := 1
  sparesNext : Nat := 1
  /-- bad lanterns, bad routers. 01 R19, R21. Reset: none (log 5). -/
  badLanterns : List Nat := []
  badRouters : List Nat := []
  /-- repair map copies. 11 R337. Reset: factory entries only, DESIGN CHOICE none (log 5). -/
  repair : RepairCopy := {}
  repair2 : RepairCopy := {}
  /-- slot maps were made under this spare setting. 11 R338. Reset: 1. -/
  slotSpares : Nat := 1
  /-- dormant records. 11 R342. Reset: none (14 R431). -/
  dormant : List Dormant := []
  /-- calibration records by kind * 2^32 + SUBJECT, the factory's when not listed. 03 R91. Reset: DESIGN CHOICE zero payloads, valid (log 5). -/
  cal : SMap CalRec := []
  /-- rewrites by scrubs. 03 R97. Reset: 0. -/
  calRewrites : Nat := 0
  /-- 24 bits, last sequence of a SETID given. 03 Table 3-4, 11 R360. Reset: DESIGN CHOICE 0 (log 5). -/
  setSeq : Nat := 0
  /-- lines of the cistern, by cistern address * 16 + channel. 07 R216, R229, Table 7-5. Reset: nothing written. -/
  cistern : SMap CisLine := []
  /-- 32 bits, next sequence tag. 07 R205. Reset: DESIGN CHOICE 1 (log 2). -/
  seqTag : BitVec 32 := 1
  /-- failed cistern channels; cistern enabled. 11 Table 11-2. Reset: none. -/
  badChannels : List Nat := []
  /-- conversions made: the model's own index of free values. DESIGN CHOICE (log 10). Reset: 0. -/
  draws : Nat := 0
  sec : Security := {}
  boot : Boot := {}
  plant : Plant := {}
  ring : Ring := {}
  mgmt : Mgmt := {}
  deriving DecidableEq, Repr

/-- The module as it leaves the factory, rails off, PWR_EN deasserted (14 R431; 12 Table 12-4). -/
def State.reset : State := {}

/-- Why the model stops with a fault. -/
inductive Fault where
  /-- Raised by any command that names a lantern, field, tile, port, bank, array, partition or function number the module does not have (01 R15 to R25). Safe: the machine has no such unit. -/
  | noSuchUnit
  deriving DecidableEq, Repr

/-- Why the model gives a command no meaning. -/
inductive Refusal where
  /-- Not modelled yet. Safe. -/
  | notModelled (mnemonic : String)
  /-- Raised by jtagInstruction for a debug instruction while it is enabled: 10 R326 enables them and no rule gives their effect. Safe. -/
  | jtagDebugInstruction
  deriving DecidableEq, Repr

end Sys2Proof.Machine
end

