-- ==== Sys2Proof/Machine/Ops.lean ====
section
/-! DEFINITION. Named operations over the units of the module: reading and updating one unit, geometry, partitions, destinations. -/

namespace Sys2Proof.Machine

/-- The outcome every meaning answers. -/
abbrev Out := Host.Outcome State Fault Refusal

/-- Next state s when the numbers a command names exist; a fault otherwise. -/
def guarded (ok : Bool) (s : State) : Out := if ok then .next s else .fault .noSuchUnit

/-! ## Units -/

def nLanterns : Nat := 1600
def nFields : Nat := 100
def nTiles : Nat := 40

def getL (s : State) (l : Nat) : Lantern := tget {} s.lanterns l
def setL (s : State) (l : Nat) (x : Lantern) : State := { s with lanterns := tset {} s.lanterns l x }
def updL (s : State) (l : Nat) (f : Lantern → Lantern) : State := setL s l (f (getL s l))

def getR (s : State) (r : Nat) : Router := tget {} s.routers r
def setR (s : State) (r : Nat) (x : Router) : State := { s with routers := tset {} s.routers r x }
def updR (s : State) (r : Nat) (f : Router → Router) : State := setR s r (f (getR s r))

def getRP (s : State) (r p : Nat) : RPort := tget {} (getR s r).ports p
def updRP (s : State) (r p : Nat) (f : RPort → RPort) : State :=
  updR s r (fun x => { x with ports := tupd {} x.ports p f })

def getF (s : State) (f : Nat) : Field := tget {} s.fields f
def setF (s : State) (f : Nat) (x : Field) : State := { s with fields := tset {} s.fields f x }
def updF (s : State) (f : Nat) (g : Field → Field) : State := setF s f (g (getF s f))

def getT (s : State) (t : Nat) : RimTile := tget {} s.tiles t
def setT (s : State) (t : Nat) (x : RimTile) : State := { s with tiles := tset {} s.tiles t x }
def updT (s : State) (t : Nat) (f : RimTile → RimTile) : State := setT s t (f (getT s t))

def getZ (s : State) (z : Nat) : Zenden := tget {} s.zen z
def setZ (s : State) (z : Nat) (x : Zenden) : State := { s with zen := tset {} s.zen z x }
def updZ (s : State) (z : Nat) (f : Zenden → Zenden) : State := setZ s z (f (getZ s z))

def portIx : HostPort → Nat
  | .a => 0
  | .b => 1
/-- Place of a function in the table: port A 0 to 16, port B 17 to 33. -/
def fnIx (fn : Fn) : Nat := 17 * portIx fn.port + fn.num
def fnOfIx (i : Nat) : Fn := if i < 17 then ⟨.a, i⟩ else ⟨.b, i - 17⟩

def getFn (s : State) (fn : Fn) : Func := tget {} s.funcs (fnIx fn)
/-- Resident weights of a set are lost: no longer complete, and with no load open its key goes (10 Table 10-2). -/
def weightsLost (w : WeightSet) : WeightSet :=
  { w with status := if w.status = .complete then .incomplete else w.status, key := if w.load.isSome then w.key else none }

def setFn (s : State) (fn : Fn) (x : Func) : State := { s with funcs := tset {} s.funcs (fnIx fn) x }
def updFn (s : State) (fn : Fn) (f : Func → Func) : State := setFn s fn (f (getFn s fn))

def getQp (s : State) (fn : Fn) (q : Nat) : Option Qp := tget none (getFn s fn).qps q
def setQp (s : State) (fn : Fn) (q : Nat) (x : Option Qp) : State :=
  updFn s fn (fun g => { g with qps := tset none g.qps q x })

def getLink (s : State) (p : HostPort) : HostLink := tget {} s.links (portIx p)
def updLink (s : State) (p : HostPort) (f : HostLink → HostLink) : State :=
  { s with links := tupd {} s.links (portIx p) f }

def getPart (s : State) (p : Nat) : Option Partition := tget none s.parts p
def setPart (s : State) (p : Nat) (x : Option Partition) : State := { s with parts := tset none s.parts p x }
/-- f applied to partition p when it exists. -/
def updPart (s : State) (p : Nat) (f : Partition → Partition) : State :=
  match getPart s p with
  | some x => setPart s p (some (f x))
  | none => s

def getBank (L : Lantern) (b : Nat) : Bank := tget {} L.banks b
def getArr (L : Lantern) (a : Nat) : WickArray := tget {} L.arrays a
def getEng (L : Lantern) (e : Nat) : Engine := tget {} L.engines e
def getQ (L : Lantern) (q : Nat) : Queue := tget {} L.queues q
def getSl (L : Lantern) (e : Nat) : Sluice := tget {} L.sluices e
def getLane (L : Lantern) (i : Nat) : Lane := tget {} L.lanes i
def getBlk (L : Lantern) (b : Nat) : Block := tget {} L.acc b

def updBank (s : State) (l b : Nat) (f : Bank → Bank) : State :=
  updL s l (fun L => { L with banks := tupd {} L.banks b f })
def updArr (s : State) (l a : Nat) (f : WickArray → WickArray) : State :=
  updL s l (fun L => { L with arrays := tupd {} L.arrays a f })
def updEng (s : State) (l e : Nat) (f : Engine → Engine) : State :=
  updL s l (fun L => { L with engines := tupd {} L.engines e f })
def updQ (s : State) (l q : Nat) (f : Queue → Queue) : State :=
  updL s l (fun L => { L with queues := tupd {} L.queues q f })
def updSl (s : State) (l e : Nat) (f : Sluice → Sluice) : State :=
  updL s l (fun L => { L with sluices := tupd {} L.sluices e f })
def updLane (s : State) (l i : Nat) (f : Lane → Lane) : State :=
  updL s l (fun L => { L with lanes := tupd {} L.lanes i f })

/-- Scalar register r; s0 reads zero (05 R137). -/
def getReg (L : Lantern) (r : Fin 32) : Word := if r = 0 then 0 else tget 0 L.regs r
/-- Scalar register r takes v; a write to s0 has no effect (05 R137). -/
def setReg (s : State) (l : Nat) (r : Fin 32) (v : Word) : State :=
  if r = 0 then s else updL s l (fun L => { L with regs := tset 0 L.regs r v })

/-! ## Time -/

/-- Module time, ns. -/
def nowNs (s : State) : Nat := s.now.toNat

/-- Islands with a copy of the time base: fields by number, rim tiles from 100, lanterns from 200 (08 R240). -/
def tileIsland (t : Nat) : Nat := 100 + t
def lanternIsland (l : Nat) : Nat := 200 + l
/-- An island's copy of the time base, ns (08 R240). -/
def localNow (s : State) (isl : Nat) : Nat := ((nowNs s : Int) + tget 0 s.skew isl).toNat

/-- Lantern cycles from time 0 to t at clock setting k (06 Table 6-13): 0.8 GHz + 25 MHz * k. -/
def cyclesAt (k t : Nat) : Nat := t * (32 + k) / 40

/-! ## Geometry (01 R16, R17) -/

def lanternX (l : Nat) : Nat := l % 40
def lanternY (l : Nat) : Nat := l / 40
/-- Field of a lantern. -/
def fieldOf (l : Nat) : Nat := lanternY l / 4 * 10 + lanternX l / 4
/-- Clock setting that lantern l runs at: its own, or the highest that its field's voltage carries while that is still being raised (12 R364). -/
def clockNow (s : State) (l : Nat) : Nat := min (getL s l).clock ((1000 * (getF s (fieldOf l)).vcore - 650000) / 3125)
/-- Local index of a lantern in its field. -/
def localIx (l : Nat) : Nat := lanternY l % 4 * 4 + lanternX l % 4
/-- Lantern of local index i in field f. -/
def lanternIn (f i : Nat) : Nat := (f / 10 * 4 + i / 4) * 40 + (f % 10 * 4 + i % 4)
def lanternsIn (f : Nat) : List Nat := (List.range 16).map (lanternIn f)
/-- Quadrant of a lantern in its field (01 R24 and after). -/
def quadrantOf (l : Nat) : Nat := lanternY l % 4 / 2 * 2 + lanternX l % 4 / 2

/-- Rim tile of a DEST code (04 Table 4-4), tiles numbered N, E, S, W. -/
def tileOfDest (d : Nat) : Option Nat := if 1600 ≤ d ∧ d < 1640 then some (d - 1600) else none
def destOfTile (t : Nat) : Nat := 1600 + t

/-- The port a tile belongs to: tiles of one port share tables (06 R173). The lower tile of the port, or the tile. -/
def tileMain (t : Nat) : Nat :=
  if t = 24 then 23 else if t = 26 then 25 else if t = 33 then 32 else if t = 37 then 36
  else if t = 13 then 12 else if t = 17 then 16 else t
/-- The two tiles of a port count as one source (06 R186). -/
def srcMain (d : Nat) : Nat :=
  match tileOfDest d with
  | some t => 1600 + tileMain t
  | none => d
/-- Zenden port of a tile (01 Table 1-4). -/
def tileZenden (t : Nat) : Option Nat :=
  match tileMain t with
  | 32 => some 0
  | 36 => some 1
  | 12 => some 2
  | 16 => some 3
  | _ => none
/-- First tile of a Zenden port. -/
def zendenTile (z : Nat) : Nat := if z = 0 then 32 else if z = 1 then 36 else if z = 2 then 12 else 16
/-- Host port of a tile. -/
def tileHost (t : Nat) : Option HostPort :=
  match tileMain t with
  | 23 => some .a
  | 25 => some .b
  | _ => none
def hostTile : HostPort → Nat
  | .a => 23
  | .b => 25
/-- Cistern tiles N0 to N9, S0, S9. -/
def tileCistern (t : Nat) : Bool := decide (t < 10) || t == 20 || t == 29
/-- Intake decryptors W4, W5, E4, E5. -/
def tileIntake (t : Nat) : Bool := t == 34 || t == 35 || t == 14 || t == 15
/-- Bit of HGONLY for a headgate-only tile (09 Table 9-6). -/
def hgonlyBit (t : Nat) : Option Nat :=
  match t with
  | 30 => some 0
  | 31 => some 1
  | 38 => some 2
  | 39 => some 3
  | 10 => some 4
  | 11 => some 5
  | 19 => some 6
  | _ => none
/-- Mesh classes a tile uses at its headgate (01 Table 1-4). -/
def meshClasses (t : Nat) : List (Fin 4) :=
  if tileCistern t then [2] else if (tileHost t).isSome then [0, 1, 3] else if (tileZenden t).isSome then [0, 1, 2]
  else if tileIntake t then [1] else if (hgonlyBit t).isSome then [0, 1, 2, 3] else [3]
/-- E8, S1, S2, S7, S8. -/
def tileE8 : Nat := 18
def tileS1 : Nat := 21
def tileS2 : Nat := 22
def tileS7 : Nat := 27
def tileS8 : Nat := 28

/-- The four lanterns beside a tile (01 R17). -/
def tileLanterns (t : Nat) : List Nat :=
  let k := t % 10 * 4
  (List.range 4).map (fun i =>
    if t < 10 then 39 * 40 + (k + i) else if t < 20 then (k + i) * 40 + 39
    else if t < 30 then k + i else (k + i) * 40)

/-! ## Partitions (01 R28, R31) -/

def inRect (p : Partition) (f : Nat) : Bool :=
  decide (p.fx0 ≤ f % 10 ∧ f % 10 < p.fx0 + p.w ∧ p.fy0 ≤ f / 10 ∧ f / 10 < p.fy0 + p.h)

/-- Partition field f belongs to. -/
def partOfField (s : State) (f : Nat) : Option Nat :=
  (s.parts.find? (fun e => match e.2 with | some p => inRect p f | none => false)).map (·.1)

/-- Partition of lantern l. -/
def partOf (s : State) (l : Nat) : Option Nat := partOfField s (fieldOf l)

/-- Fields of a partition in the order of their index (06 R171). -/
def partFields (p : Partition) : List Nat :=
  (List.range (p.w * p.h)).map (fun i => (p.fy0 + i / p.w) * 10 + p.fx0 + i % p.w)

/-- Index of field f in the rectangle (06 R171). -/
def fieldIndex (p : Partition) (f : Nat) : Nat := (f / 10 - p.fy0) * p.w + (f % 10 - p.fx0)

/-- Lantern of a slot of a field's slot map (11 R338). -/
def slotLantern (s : State) (f slot : Nat) : Option Nat :=
  match (getF s f).slots[slot]? with
  | some (n + 1) => some n
  | _ => none

/-- Lanterns a loaded program runs on, in field and slot order (06 R170). -/
def progLanterns (s : State) (p : Partition) : List Nat :=
  match p.prog with
  | none => []
  | some g => (partFields p).flatMap (fun f =>
      (List.range g.slots).filterMap (fun k => slotLantern s f k))

/-- Lanterns of every occupied slot of a partition. -/
def partLanterns (s : State) (p : Partition) : List Nat :=
  (partFields p).flatMap (fun f => (getF s f).slots.filterMap (fun n => if n = 0 then none else some (n - 1)))

/-- Is tile t granted to the partition (01 Table 1-5)? -/
def granted (p : Partition) (t : Nat) : Bool :=
  t == tileE8 || t == tileS1 || t == tileS8
  || (match tileHost t with | some h => h == p.port | none => false)
  || (tileCistern t && p.cistern)
  || (match tileZenden t with | some z => p.zen.testBit z | none => false)
  || (tileIntake t && p.wset.load.isSome)
  || (match hgonlyBit t with | some b => p.hgonly.testBit b | none => false)

/-- May partition p send to DEST d (04 R122)? -/
def destOk (s : State) (pn d : Nat) : Bool :=
  match getPart s pn with
  | none => false
  | some p =>
    if d < 1600 then inRect p (fieldOf d)
    else match tileOfDest d with
      | some t => granted p t
      | none => false

/-- Function a partition's virtual function is. -/
def boundFn (p : Partition) : Fn := ⟨p.port, p.vf⟩

/-- Partition a function is bound to. -/
def partBound (s : State) (fn : Fn) : Option Nat :=
  if fn.num = 0 then none else
  (s.parts.find? (fun e => match e.2 with | some p => p.port == fn.port && p.vf == fn.num | none => false)).map (·.1)

/-- Partitions that exist. -/
def allParts (s : State) : List (Nat × Partition) :=
  s.parts.filterMap (fun e => match e.2 with | some p => some (e.1, p) | none => none)

/-- f applied to every partition that exists. -/
def mapParts (s : State) (f : Nat → Partition → Partition) : State :=
  (allParts s).foldl (fun s e => updPart s e.1 (f e.1)) s

/-- s changed by f for every element of a list in turn. -/
def forEach {α : Type} (l : List α) (f : α → State → State) (s : State) : State := l.foldl (fun s x => f x s) s

/-- A partition has a request in a running state: PREFILL, DECODE, or a pass still in flight (03 R107; 09 R280). -/
def hasRunning (p : Partition) : Bool := p.reqs.any (fun r => r.inPass || decide (r.state = .prefill) || decide (r.state = .decode))

/-- Since when a partition has had no running request (03 R107). -/
def noteIdle (t : Nat) (p : Partition) : Partition :=
  if hasRunning p then { p with idleSince := none, idleTouch := false } else { p with idleSince := some (p.idleSince.getD t) }

/-- Is the partition under authenticated debug (10 R326)? -/
def debugOn (s : State) (pn : Nat) : Bool :=
  match getPart s pn with
  | some p => p.debug
  | none => false

/-! ## Requests -/

def findReq (p : Partition) (tag : BitVec 64) : Option Request := p.reqs.find? (fun r => r.tag == tag)
def updReq (s : State) (pn : Nat) (tag : BitVec 64) (f : Request → Request) : State :=
  updPart s pn (fun p => noteIdle (nowNs s) { p with reqs := lmap (fun r => r.tag == tag) f p.reqs })

end Sys2Proof.Machine
end

