-- ==== Sys2Proof/Machine/RimRing.lean ====
section
/-! DEFINITION. The rim channel: two counter-rotating rings of 40 stops, and what they carry (01 R25 to R27). -/

namespace Sys2Proof.Machine

/-- Place of a tile's stop on the clockwise ring: N0 to N9, E9 to E0, S9 to S0, W0 to W9 (01 R15, R26). -/
def rimPlace (t : Nat) : Nat := if t < 10 then t else if t < 20 then 29 - t else if t < 30 then 49 - t else t
/-- Tile of a place; the numbering is its own inverse. -/
def rimTile (i : Nat) : Nat := rimPlace (i % 40)

/-- Stops from tile a to tile b going clockwise. -/
def rimClockwise (a b : Nat) : Nat := (rimPlace b + 40 - rimPlace a) % 40
/-- Does a message from a to b take the clockwise ring: the one with fewer stops, clockwise on a tie (R26)? -/
def takesClockwise (a b : Nat) : Bool := decide (rimClockwise a b ≤ 20)

/-- Tiles whose stops a message from a to b leaves, in order. -/
def rimPath (a b : Nat) : List Nat :=
  let d := rimClockwise a b
  if takesClockwise a b then (List.range d).map (fun i => rimTile (rimPlace a + i))
  else (List.range (40 - d)).map (fun i => rimTile (rimPlace a + 40 - i))

/-- Corner field whose wires join the stop of a tile to the next one clockwise (R26). -/
def cornerOf (t : Nat) : Option Nat :=
  if t = 9 then some 99 else if t = 10 then some 9 else if t = 20 then some 0 else if t = 39 then some 90 else none

/-- Corner fields that a message from a to b crosses over their wires. -/
def rimCorners (a b : Nat) : List Nat :=
  (if takesClockwise a b then rimPath a b else (rimPath a b).map (fun t => rimTile (rimPlace t + 39))).filterMap cornerOf

/-- 72-byte flits of a message. -/
def rimFlits : RimMsg → Nat
  | .cipher _ n => max 1 ((n + 67) / 68)
  | _ => 1

/-- A message goes from the stop of tile a to that of tile b: the stops on its way each move its flits on the ring it takes, the last one hands it to its tile. -/
def rimSend (a b : Nat) (m : RimMsg) (s : State) : State :=
  let n := rimFlits m
  let moved := forEach (rimPath a b) (fun t s => { s with rim := tupd {} s.rim t (fun x =>
    if takesClockwise a b then { x with cw := x.cw + n } else { x with ccw := x.ccw + n }) }) s
  { moved with rim := tupd {} moved.rim b (fun x => { x with got := some (a, m) }) }

/-- Tile of the control processor that acts: S1, or S8 after a take-over (11 R350). -/
def firmwareTile (s : State) : Nat := if s.boot.bActive then tileS8 else tileS1

end Sys2Proof.Machine
end

