-- ==== Sys2Proof/Machine/Flags.lean ====
section
/-! DEFINITION. Flags and reports: event counters, event records and their staging, alert bits, interrupt messages, traces (13; 09 R268). -/

namespace Sys2Proof.Machine

/-! ## Counters (13 R389, R390) -/

/-- n more events of a source, on every counter set to it. -/
def bumpAll (m : SMap Counter) (src n : Nat) : SMap Counter :=
  m.map (fun e => if e.2.source = src ∧ src ≠ 0 then (e.1, { e.2 with count := e.2.count + BitVec.ofNat 48 n }) else e)

/-- The aggregated counters of the partition that holds field f. -/
def countPart (s : State) (f src n : Nat) : State :=
  match partOfField s f with
  | some pn => updPart s pn (fun p => { p with counters := bumpAll p.counters src n })
  | none => s

/-- n events of lantern l (scope L of 13 Table 13-1). -/
def countL (s : State) (l src n : Nat) : State :=
  if n = 0 then s else
  countPart (updL s l (fun L => { L with counters := bumpAll L.counters src n })) (fieldOf l) src n

/-- n events of field f (scope F). -/
def countF (s : State) (f src n : Nat) : State :=
  if n = 0 then s else
  countPart (updF s f (fun F => { F with counters := bumpAll F.counters src n })) f src n

/-- n events of rim tile t (scope R). -/
def countT (s : State) (t src n : Nat) : State :=
  if n = 0 then s else updT s t (fun T => { T with counters := bumpAll T.counters src n })

/-! ## Writes to the hosts -/

/-- A memory write or message for a port: held while its link is down without PERST (14 R415), counted under 0x67 when issued. -/
def sendHost (s : State) (p : HostPort) (o : HostOut) : State :=
  let k := getLink s p
  if k.downAt.isSome then updLink s p (fun k => { k with held := k.held ++ [o] })
  else if k.up then countT { s with out := o :: s.out } (hostTile p) 0x67 1
  else s

/-- An MSI-X message; vector 255 is none. -/
def sendMsix (s : State) (fn : Fn) (v : Nat) : State :=
  if v < 64 then sendHost s fn.port (.msix fn v) else s

/-- One more entry written on a source of interrupts; the flag says that its message falls due (09 R268). -/
def intWrite (c : IntCoal) (t : Nat) : IntCoal × Bool :=
  if c.count = 0 ∨ c.count ≤ c.since + 1 then ({ c with since := 0, first := none }, true)
  else ({ c with since := c.since + 1, first := some (c.first.getD t) }, false)

/-- The timed condition: INT_TIME µs since the first entry not yet signalled. -/
def intDue (c : IntCoal) (t : Nat) : Bool :=
  match c.first with
  | some f => decide (0 < c.time) && decide (f + 1000 * c.time ≤ t)
  | none => false

/-- Signalled: nothing waits for a message. -/
def intSent (c : IntCoal) : IntCoal := { c with since := 0, first := none }
/-- The host has consumed every entry: nothing is sent for them. -/
def intConsumed (c : IntCoal) : IntCoal := { c with first := none }

/-! ## Event records (13 R394 to R400) -/

def sevFatal : Nat := 0
def sevSecurity : Nat := 1
def sevError : Nat := 2
def sevWarn : Nat := 3
def sevInfo : Nat := 4
def sevTrace : Nat := 5
/-- SOURCE codes of Table 13-4. -/
def srcLantern : Nat := 1
def srcField : Nat := 2
def srcTile : Nat := 3
def srcFirmware : Nat := 4
def srcLamplighter : Nat := 5
def srcPlate : Nat := 6
/-- PART of a record of the module. -/
def partModule : Nat := 255

/-- The 32 bytes of a record (13 Table 13-4). -/
def eventBytes (r : EventRec) (phase : Bool) : List Byte :=
  bytesOfNat 8 r.time ++ bytesOfNat 1 r.sev ++ bytesOfNat 1 (if r.coalesced then 1 else 0) ++ bytesOfNat 2 r.code
    ++ bytesOfNat 1 r.part ++ bytesOfNat 1 r.source ++ bytesOfNat 2 r.unit ++ bytesOfNat 4 r.count
    ++ bytesOfNat 8 r.detail ++ bytesOfNat 3 r.seq ++ bytesOfNat 1 (if phase then 1 else 0)

def sameKey (a b : EventRec) : Bool :=
  a.code == b.code && a.part == b.part && a.source == b.source && a.unit == b.unit && a.sev == b.sev

/-- Drop counts, each saturating at 0xFFFF: one more of a severity. -/
def addDrop (d : Nat × Nat × Nat × Nat) (sev : Nat) : Nat × Nat × Nat × Nat :=
  let up := fun x => min 65535 (x + 1)
  if sev = 5 then (up d.1, d.2) else if sev = 4 then (d.1, up d.2.1, d.2.2)
  else if sev = 3 then (d.1, d.2.1, up d.2.2.1, d.2.2.2) else (d.1, d.2.1, d.2.2.1, up d.2.2.2)

def dropDetail (d : Nat × Nat × Nat × Nat) : Nat := d.1 + d.2.1 * 2 ^ 16 + d.2.2.1 * 2 ^ 32 + d.2.2.2 * 2 ^ 48

/-- The list without the last element a test holds of. -/
def dropLastWhere {α : Type} (p : α → Bool) (l : List α) : List α := (l.reverse.eraseP p).reverse

/-- Severity of the newest waiting record a test holds of. -/
def newestSev (p : Staged → Bool) (l : List Staged) : Option Nat := (l.reverse.find? p).map (·.ev.sev)

/-- Counts of a staging queue of the two sizes (13 R398, R400): general entries. -/
def slotCount (l : List Staged) (k : StageSlot) : Nat := (l.filter (fun x => x.slot == k)).length

/-- Merge r into the last record selected (13 R398). -/
def mergeInto (l : List Staged) (p : Staged → Bool) (r : EventRec) : List Staged :=
  lmap p (fun x =>
    let e := { x.ev with coalesced := true, time := r.time, detail := r.detail, count := x.ev.count + 1, seq := r.seq }
    { x with second := true, ev := e }) l

/-- A free entry for r: what is left of the queue, and the severity evicted. none when there is none. -/
def evictFor (l : List Staged) (sev : Nat) : Option (List Staged × Nat) :=
  let isTrace := fun x : Staged => x.ev.sev == 5 && x.slot == .general
  let isLower := fun x : Staged => decide (sev < x.ev.sev) && x.slot == .general
  if l.any isTrace then some (dropLastWhere isTrace l, 5)
  else match newestSev isLower l with
    | some v => some (dropLastWhere isLower l, v)
    | none => none

/-- The same for FATAL and SECURITY: TRACE, then INFO, WARN, ERROR. -/
def evictHigh (l : List Staged) : Option (List Staged × Nat) :=
  let is := fun (v : Nat) (x : Staged) => x.ev.sev == v && x.slot == .general
  [5, 4, 3, 2].findSome? (fun v => if l.any (is v) then some (dropLastWhere (is v) l, v) else none)

/-- Place record r, its number taken, in a staging queue with resv entries reserved and gen general (13 R398, R399): the queue and the severities dropped. -/
def stagePlace (resv gen : Nat) (l : List Staged) (r : EventRec) : List Staged × List Nat :=
  let room := decide (slotCount l .general < gen)
  let general := fun q : List Staged => q ++ [⟨r, .general, false⟩]
  if r.sev = 5 then (if room then (general l, []) else (l, [5]))
  else if 2 ≤ r.sev then
    let key := fun x : Staged => sameKey x.ev r
    let isLast := fun x : Staged => key x && x.second
    if l.any isLast then (mergeInto l isLast r, [])
    else if l.any key then
      let r2 : Staged := ⟨{ r with coalesced := true }, .general, true⟩
      if room then (l ++ [r2], [])
      else match evictFor l r.sev with
        | some (q, v) => (q ++ [r2], [v])
        | none => (mergeInto l key r, [])
    else if room then (general l, [])
    else match evictFor l r.sev with
      | some (q, v) => (general q, [v])
      | none => (l, [r.sev])
  else if slotCount l .reserved < resv then (l ++ [⟨r, .reserved, false⟩], [])
  else if room then (general l, [])
  else match evictHigh l with
    | some (q, v) => (general q, [v])
    | none =>
      let ofl := fun x : Staged => x.slot == .overflow && x.ev.code == r.code && x.ev.sev == r.sev
      if l.any ofl then
        (lmap ofl (fun x => { x with ev := { r with coalesced := true, count := x.ev.count + 1 } }) l, [])
      else (l ++ [⟨{ r with coalesced := true }, .overflow, false⟩], [])

/-- Drops join a waiting summary, or wait for one (13 R399). -/
def noteDrops (g : Staging) (vs : List Nat) : Staging :=
  vs.foldl (fun g v =>
    if g.q.any (fun x => x.slot == .summary) then
      let more := fun d : Nat => dropDetail (addDrop (d % 2 ^ 16, d / 2 ^ 16 % 2 ^ 16, d / 2 ^ 32 % 2 ^ 16, d / 2 ^ 48 % 2 ^ 16) v)
      { g with q := lmap (fun x => x.slot == .summary) (fun x => { x with ev := { x.ev with detail := more x.ev.detail } }) g.q }
    else { g with drops := addDrop g.drops v }) g

/-- An entry has freed: the drop summary is placed when drops wait for it (13 R399). -/
def placeSummary (g : Staging) (t : Nat) : Staging :=
  if g.drops = (0, 0, 0, 0) then g else
  let r : Staged := ⟨⟨t, 3, false, 0x0F00, 255, 4, 0, 1, dropDetail g.drops, g.seq⟩, .summary, false⟩
  { g with q := g.q ++ [r], seq := (g.seq + 1) % 2 ^ 24, drops := (0, 0, 0, 0) }

/-- Writes record r to the ring of a function, which has room (13 R397). -/
def ringWrite (s : State) (fn : Fn) (g : EvRing) (r : EventRec) : State :=
  let k := g.k.toNat
  let phase := decide (k / 2 ^ g.rlog2 % 2 = 0)
  let s := sendHost s fn.port (.mem fn.port (g.base + 32 * (k % 2 ^ g.rlog2)) (eventBytes r phase))
  let (c, due) := intWrite g.int (nowNs s)
  let s := updFn s fn (fun x => { x with ring := some { g with k := g.k + 1, int := c } })
  if due then sendMsix s fn c.vector else s

def ringRoom (g : EvRing) : Bool := decide ((g.k - g.cons).toNat < 2 ^ g.rlog2)

/-- Staged records go to the ring while it has room, in order; n bounds their number. -/
def drainRing (fn : Fn) : Nat → State → State
  | 0, s => s
  | n + 1, s =>
    let f := getFn s fn
    match f.ring, f.staging.q with
    | some g, x :: rest =>
      if ringRoom g then
        let s := ringWrite s fn g x.ev
        drainRing fn n (updFn s fn (fun f => { f with staging := placeSummary { f.staging with q := rest } (nowNs s) }))
      else s
    | _, _ => s

/-- Everything the ring can take now. -/
def drainFn (s : State) (fn : Fn) : State := drainRing fn ((getFn s fn).staging.q.length + 2) s

/-- A record raised for a function (13 R396 to R399, R434). -/
def offerFn (s : State) (fn : Fn) (r : EventRec) : State :=
  let f := getFn s fn
  let wanted := match f.ring with
    | some g => decide (r.sev ≤ g.minsev)
    | none => decide (r.sev ≠ 5)
  if !wanted then s else
  let r := { r with seq := f.staging.seq }
  let (q, drops) := stagePlace 192 767 f.staging.q r
  let st := noteDrops { f.staging with q := q, seq := (f.staging.seq + 1) % 2 ^ 24 } drops
  let s := updFn s fn (fun f =>
    { f with staging := st, evDrops := drops.foldl addDrop f.evDrops, status := if drops.isEmpty then f.status else f.status ||| 4#3 })
  drainFn s fn

/-- Staged records leave on the management bus, which has a dynamic address (13 R400). -/
def drainMgmt : Nat → State → State
  | 0, s => s
  | n + 1, s =>
    match s.mgmt.addr, s.mgmt.staging.q with
    | some _, x :: rest =>
      let g := placeSummary { s.mgmt.staging with q := rest } (nowNs s)
      drainMgmt n { s with mgmt := { s.mgmt with sent := s.mgmt.sent ++ [x.ev], staging := g } }
    | _, _ => s

def flushMgmt (s : State) : State := drainMgmt (s.mgmt.staging.q.length + 2) s

/-- A record raised for the management path (13 R400). -/
def offerMgmt (s : State) (r : EventRec) : State :=
  let g := s.mgmt.staging
  let r := { r with seq := g.seq }
  let (q, drops) := stagePlace 16 47 g.q r
  let g := noteDrops { g with q := q, seq := (g.seq + 1) % 2 ^ 24 } drops
  flushMgmt { s with mgmt := { s.mgmt with staging := g } }

def pfA : Fn := ⟨.a, 0⟩
def pfB : Fn := ⟨.b, 0⟩

/-- Bit of a severity in ALERT_STATUS (13 R401). -/
def alertBit (sev : Nat) : BitVec 3 := if sev = 0 then 1 else if sev = 1 then 2 else if sev = 2 then 4 else 0

/-- Island whose copy of the time base a record reads (08 R240): its lantern, field or tile, S1 for firmware, S2 for the Lamplighter and the plate. -/
def eventIsland (source unit : Nat) : Nat :=
  if source = srcLantern then lanternIsland unit else if source = srcField then unit else if source = srcTile then tileIsland unit
  else tileIsland (if source = srcFirmware then tileS1 else tileS2)

/-- Rim tile whose stop a record leaves for E8; records of lanterns and fields come over the mesh (01 R27). -/
def eventTile (s : State) (source unit : Nat) : Option Nat :=
  if source = srcTile then some unit else if source = srcFirmware then some (firmwareTile s)
  else if source = srcLamplighter ∨ source = srcPlate then some tileS2 else none

/-- A record is raised: alert bits first, then each destination (13 R396, R401). -/
def raiseEv (s : State) (sev code part source unit detail : Nat) : State :=
  let r : EventRec := ⟨localNow s (eventIsland source unit), sev, false, code, part, source, unit, 1, detail, 0⟩
  let s := updFn s pfA (fun f => { f with alert := f.alert ||| alertBit sev })
  let s := updFn s pfB (fun f => { f with alert := f.alert ||| alertBit sev })
  let s := offerFn s pfA r
  let s := offerFn s pfB r
  let s := match getPart s part with
    | some p => offerFn s (boundFn p) r
    | none => s
  let s := match eventTile s source unit with
    | some t => rimSend t tileE8 (.event r) s
    | none => s
  if sev ≤ 3 then offerMgmt s r else s

/-- A record about lantern l: PART is its partition. -/
def raiseL (s : State) (l sev code detail : Nat) : State :=
  raiseEv s sev code ((partOf s l).getD partModule) srcLantern l detail
/-- A record about field f. -/
def raiseF (s : State) (f sev code detail : Nat) : State :=
  raiseEv s sev code ((partOfField s f).getD partModule) srcField f detail
/-- A record of module firmware about the module. -/
def raiseM (s : State) (sev code detail : Nat) : State := raiseEv s sev code partModule srcFirmware 0 detail

/-- Is ALERT_N asserted (13 R401)? -/
def alertN (s : State) : Bool :=
  let on := fun f : Func => decide (f.alert &&& (if f.alertMask then 3#3 else 7#3) ≠ 0)
  s.plant.alertDirect || on (getFn s pfA) || on (getFn s pfB)

/-- An ineffective doorbell write (09 R265): counted under 0x68, DB_IGNORED set, a WARN record in the function's ring. -/
def badDoorbell (s : State) (fn : Fn) (offset : Nat) : State :=
  let s := countT s (hostTile fn.port) 0x68 1
  let s := updFn s fn (fun f => { f with status := f.status ||| 2#3 })
  offerFn s fn ⟨localNow s (tileIsland (hostTile fn.port)), 3, false, 0x0800, (partBound s fn).getD partModule, srcFirmware, 0, 1, offset, 0⟩

/-- RSVD_WRITE of a function (00 R12). -/
def rsvdWrite (s : State) (fn : Fn) : State := updFn s fn (fun f => { f with status := f.status ||| 1#3 })

/-! ## Traces (13 R402) -/

/-- A trace record of kind n (0 boundary, 1 closure, 2 wait ended) made by lantern l, when the partition selects it. -/
def traceL (s : State) (l n detail : Nat) : State :=
  match partOf s l with
  | none => s
  | some pn =>
    match getPart s pn with
    | none => s
    | some p =>
      if !p.traceCtrl.getLsbD n then s
      else if 4 ≤ (getL s l).latch.length then countL s l 0x37 1
      else
        let r : EventRec := ⟨localNow s (lanternIsland l), 5, false, 0x1000 + n, pn, 1, l, 1, detail, p.traceSeq⟩
        let s := updPart s pn (fun p => { p with traceSeq := (p.traceSeq + 1) % 2 ^ 24 })
        let s := updL s l (fun L => { L with latch := L.latch ++ [r] })
        let s := offerFn s pfA r
        let s := offerFn s pfB r
        offerFn s (boundFn p) r

end Sys2Proof.Machine
end

