-- ==== Sys2Proof/Machine/Acc.lean ====
section
/-! DEFINITION. The accumulator: contributions, the fast window, the second pass, readout, order between instructions (04 R127 to R135). -/

namespace Sys2Proof.Machine

/-- A contribution: output out of block blk gets sig * 2^p, with the poison and saturation tags of its source (04 R127). -/
structure Contr where
  blk : Nat
  out : Nat
  sig : Int
  p : Int
  poison : Bool
  sat : Bool
  deriving DecidableEq, Repr

/-- The accumulator after placements, with what is counted. -/
structure Placed where
  acc : SMap Block
  /-- second passes (04 R130). -/
  seconds : Nat
  /-- accumulator range events (04 R131). -/
  ranges : Nat
  deriving DecidableEq, Repr

def fits64 (x : Int) : Bool := decide (-(2 ^ 63) ≤ x) && decide (x < 2 ^ 63)

/-- Extended sets in use, of 4 (04 R128). -/
def extInUse (acc : SMap Block) : Nat := (acc.filter (fun e => e.2.ext)).length

/-- Every register of the block shifted left by k. -/
def shiftOuts (outs : SMap AccOut) (k : Int) : SMap AccOut :=
  outs.map (fun e => (e.1, { e.2 with val := e.2.val * (pow2 k : Int) }))

/-- The tags of a contribution reach its output whatever its significand. -/
def tagOut (b : Block) (c : Contr) : Block :=
  if c.poison || c.sat then
    { b with outs := tupd {} b.outs c.out (fun o => { o with poison := o.poison || c.poison, sat := o.sat || c.sat }) }
  else b

/-- Fast placement (04 R129); none when the block needs the second pass (R130). -/
def placeFast (b : Block) (c : Contr) : Option Block :=
  let addAt := fun (b : Block) => tupd {} b.outs c.out (fun o =>
    { o with val := o.val + c.sig * (pow2 (c.p - b.base) : Int), touched := true })
  let ok := fun b : Block => if b.outs.all (fun e => fits64 e.2.val) then some b else none
  if b.empty then
    let b := { b with empty := false, base := c.p, pmax := c.p }
    ok { b with outs := addAt b }
  else if 24 < max b.pmax c.p - min b.base c.p then none
  else
    let b := if c.p < b.base then { b with outs := shiftOuts b.outs (b.base - c.p), base := c.p } else b
    (ok { b with pmax := max b.pmax c.p }).bind (fun b => ok { b with outs := addAt b })

def extMax : Int := 2 ^ 535 - 1

/-- Placement in extended form: the register saturates at its end value and its output is tagged (04 R131). -/
def placeExt (b : Block) (c : Contr) : Block × Nat :=
  let v := (tget {} b.outs c.out).val + c.sig * (pow2 (c.p + 256) : Int)
  let big := decide (extMax < v) || decide (v < -extMax - 1)
  let v := if extMax < v then extMax else if v < -extMax - 1 then -extMax - 1 else v
  ({ b with outs := tupd {} b.outs c.out (fun o => { o with val := v, touched := true, sat := o.sat || big }) },
   if big then 1 else 0)

/-- The registers of a block copied into an extended set, exactly (04 R130). -/
def toExt (b : Block) : Block := { b with ext := true, outs := shiftOuts b.outs (b.base + 256) }

/-- Place one contribution; none when the second pass finds no free extended set (04 R132). -/
def placeOne (a : Placed) (c : Contr) : Option Placed :=
  let b := tagOut (tget {} a.acc c.blk) c
  if c.sig = 0 then some { a with acc := tset {} a.acc c.blk b }
  else if b.ext then
    let (b, n) := placeExt b c
    some { a with acc := tset {} a.acc c.blk b, ranges := a.ranges + n }
  else match placeFast b c with
    | some b => some { a with acc := tset {} a.acc c.blk b }
    | none =>
      if 4 ≤ extInUse a.acc then none
      else
        let (b, n) := placeExt (toExt b) c
        some ⟨tset {} a.acc c.blk b, a.seconds + 1, a.ranges + n⟩

def placeList : List Contr → Placed → Option Placed
  | [], a => some a
  | c :: cs, a => match placeOne a c with
    | some a => placeList cs a
    | none => none

/-- n blocks from b on emptied, in fast form (04 R132, R133). -/
def clearBlocks (acc : SMap Block) (b : Nat) : Nat → SMap Block
  | 0 => acc
  | n + 1 => clearBlocks (tset {} acc b {}) (b + 1) n

/-- Contributions placed in lantern l, with second passes (0x0B) and range events (0x0C) counted; none: wait 0x08. -/
def placeIn (s : State) (l : Nat) (cs : List Contr) : Option State :=
  match placeList cs ⟨(getL s l).acc, 0, 0⟩ with
  | none => none
  | some a => some (countL (countL (updL s l (fun L => { L with acc := a.acc })) l 0x0B a.seconds) l 0x0C a.ranges)

/-- The exact value of an output (04 R128, R134). -/
def outValue (b : Block) (o : AccOut) : FV :=
  .fin (decide (o.val < 0)) o.val.natAbs (if b.ext then -256 else b.base)

/-- The outputs of n blocks from b on, in order, with their tags. -/
def readBlocks (acc : SMap Block) (b n : Nat) : List (FV × Bool × Bool) :=
  (List.range (32 * n)).map (fun i =>
    let k := tget {} acc (b + i / 32)
    let o := tget {} k.outs (i % 32)
    (outValue k o, o.poison, o.sat))

/-- Significand and exponent of an FP32 value as a contribution (04 Table 4-9); an infinity or NaN has a free significand at its exponent field's place. -/
def contrOf32 (blk out : Nat) (x : F32) (poison : Bool) : Contr :=
  match decode32 x with
  | .fin neg m e => ⟨blk, out, if neg then -(m : Int) else m, e, poison, false⟩
  | _ => ⟨blk, out, Config.accSpecial x, 105, poison, false⟩

/-! ## Lines of accumulator registers (04 R135) -/

def maskOf (f : Nat → Bool) : Nat := natOfDigits 1 ((List.range 8).map (fun k => if f k then 1 else 0))

/-- Fast accumulator line q of a block (04 Table 4-10). -/
def fastLine (b : Block) (q : Nat) : Line :=
  let o := fun k => tget {} b.outs (8 * q + k)
  BitVec.ofNat 544 (natOfDigits 64 ((List.range 8).map (fun k => toBits 64 (o k).val))
    + (toBits 10 b.base + q * 1024) * 2 ^ 512 + maskOf (fun k => (o k).sat) * 2 ^ 528 + maskOf (fun k => (o k).poison) * 2 ^ 536)

/-- Extended accumulator line of output j (04 Table 4-11). -/
def extLine (b : Block) (j : Nat) : Line :=
  let o := tget {} b.outs j
  BitVec.ofNat 544 (toBits 536 o.val + (j + (if o.sat then 32 else 0) + (if o.poison then 64 else 0)) * 2 ^ 536)

/-- Lines of a block with whether they are poisoned and extended, in order (06 R185). -/
def exportLines (b : Block) : List (Line × Bool × Bool) :=
  if b.ext then (List.range 32).map (fun j => (extLine b j, (tget {} b.outs j).poison, true))
  else (List.range 4).map (fun q => (fastLine b q, (List.range 8).any (fun k => (tget {} b.outs (8 * q + k)).poison), false))

/-- Contributions of an imported line into block blk (04 R127, R135); poison of the flit poisons every output. -/
def importLine (blk : Nat) (x : Line) (poison ext : Bool) : List Contr :=
  if ext then
    let f := lineByte x 67
    [⟨blk, f % 32, signed 536 x.toNat, -256, poison || f / 64 % 2 == 1, f / 32 % 2 == 1⟩]
  else
    let h := lineField x 64 2
    let q := h / 1024 % 4
    (List.range 8).map (fun k =>
      ⟨blk, 8 * q + k, signed 64 (lineField x (8 * k) 8), signed 10 h,
       poison || (lineByte x 67).testBit k, (lineByte x 66).testBit k⟩)

/-- Is the line the last of its block (06 R185)? -/
def importLast (x : Line) (ext : Bool) : Bool :=
  if ext then lineByte x 67 % 32 == 31 else lineField x 64 2 / 1024 % 4 == 3

/-! ## Order (04 R133) -/

/-- Blocks an output count takes. -/
def blocksFor (n : Nat) : Nat := (n + 31) / 32

/-- Blocks of a weight mode: W2 64, W4 32, W8 16 (06 R182). -/
def modeBlocks (mode : Fin 3) : Nat := if mode = 0 then 64 else if mode = 1 then 32 else 16

/-- Blocks an operation in an engine still places into or clears: first, count, clears. -/
def opBlocks : EOp → Option (Nat × Nat × Bool)
  | .aclr a n => some (a, n, true)
  | .ard a n _ _ c => some (a, n, c)
  | .aexp a n _ c => some (a, n, c)
  | .aimp b n _ _ => some (b, n, false)
  | .widot _ _ b _ o _ c => some (b, blocksFor o, c)
  | .wfdot _ _ d _ o _ c ln => if ln then none else some (d, blocksFor o, c)
  | .aval _ g _ b _ _ _ h c _ => some (b, 4 * g * h, c)
  | _ => none

/-- Does it place contributions or clear, rather than read? -/
def opPlaces : EOp → Bool
  | .ard _ _ _ _ c => c
  | .aexp _ _ _ c => c
  | _ => true

def meets (a n b m : Nat) : Bool := decide (a < b + m) && decide (b < a + n)

/-- Blocks of an array operation. -/
def arrayBlocks (L : Lantern) (p : ArrayOp) : Nat × Nat := (p.acc, modeBlocks (getArr L p.phys).mode)

/-- Is an operation issued before seq still to place into, or clear, one of n blocks from b on? -/
def earlierPlaces (L : Lantern) (seq b n : Nat) : Bool :=
  L.engines.any (fun e => e.2.q.any (fun x => decide (x.seq < seq) && opPlaces x.op &&
    (match x.op with
     | .aop p => let k := arrayBlocks L p; meets k.1 k.2 b n
     | o => match opBlocks o with
       | some (c, m, _) => meets c m b n
       | none => false)))
  || L.banks.any (fun e =>
    (match e.2.slot with
     | some p => decide (p.seq < seq) && (let k := arrayBlocks L p; meets k.1 k.2 b n)
     | none => false)
    || (e.2.late ++ e.2.run.toList).any (fun r =>
      decide (r.op.seq < seq) && !(r.placed && r.residDone) && (let k := arrayBlocks L r.op; meets k.1 k.2 b n)))

/-- Is a clear issued before seq of one of n blocks from b on still to be done? -/
def earlierClears (L : Lantern) (seq b n : Nat) : Bool :=
  L.engines.any (fun e => e.2.q.any (fun x => decide (x.seq < seq) &&
    (match x.op with
     | .aop p => let k := arrayBlocks L p; p.set && meets k.1 k.2 b n
     | o => match opBlocks o with
       | some (c, m, true) => meets c m b n
       | _ => false)))
  || L.banks.any (fun e => match e.2.slot with
     | some p => p.set && decide (p.seq < seq) && (let k := arrayBlocks L p; meets k.1 k.2 b n)
     | none => false)

/-- A clearing operation or a readout waits for every earlier operation on its blocks; another one for earlier clears. -/
def accWaits (L : Lantern) (seq b n : Nat) (clears : Bool) : Bool :=
  if clears then earlierPlaces L seq b n else earlierClears L seq b n

end Sys2Proof.Machine
end

