-- ==== Sys2Proof/Machine/Codec.lean ====
section
/-! DEFINITION. Instruction words: the formats of 06 Table 6-1 and the opcodes of Table 6-2, both ways, and the checks of a word at load (R175). -/

namespace Sys2Proof.Machine

/-! ## Formats (06 R174): fields of a word below its opcode -/

def packS (op : Nat) (f : FmtS) : Word :=
  BitVec.ofNat 8 op ++ BitVec.ofNat 5 f.sd.val ++ BitVec.ofNat 5 f.sa.val ++ BitVec.ofNat 5 f.sb.val ++ (0 : BitVec 9) ++ f.imm
def packJ (op : Nat) (f : FmtJ) : Word :=
  BitVec.ofNat 8 op ++ (0 : BitVec 5) ++ BitVec.ofNat 5 f.sa.val ++ BitVec.ofNat 5 f.sb.val ++ (0 : BitVec 28) ++ f.target
def packC (op : Nat) (f : FmtC) : Word := BitVec.ofNat 8 op ++ (0 : BitVec 36) ++ f.imm
def packA (op : Nat) (f : FmtA) : Word :=
  BitVec.ofNat 8 op ++ f.array ++ f.src ++ f.ifmt ++ f.rows ++ f.acc ++ BitVec.ofBool f.set ++ f.clip ++ f.otd ++ (0 : BitVec 3)
def packK (op : Nat) (f : FmtK) : Word :=
  BitVec.ofNat 8 op ++ f.acc ++ f.nb ++ f.line ++ f.ent ++ f.typ ++ BitVec.ofBool f.clr ++ (0 : BitVec 12)
def packL (op : Nat) (f : FmtL) : Word :=
  BitVec.ofNat 8 op ++ f.a ++ f.b ++ f.d ++ BitVec.ofNat 5 f.sc.val ++ f.f
def packQ (op : Nat) (f : FmtQ) : Word :=
  BitVec.ofNat 8 op ++ BitVec.ofNat 4 f.qn.val ++ f.line ++ BitVec.ofNat 5 f.sd.val ++ BitVec.ofBool f.reg ++ f.n
    ++ BitVec.ofBool f.clr ++ (0 : BitVec 23)

/-- Five bits of a word as a register number. -/
def regAt (w : Word) (lo : Nat) : Fin 32 := (w.extractLsb' lo 5).toFin

def readS (w : Word) : FmtS := ⟨regAt w 51, regAt w 46, regAt w 41, w.extractLsb' 0 32⟩
def readJ (w : Word) : FmtJ := ⟨regAt w 46, regAt w 41, w.extractLsb' 0 13⟩
def readC (w : Word) : FmtC := ⟨w.extractLsb' 0 20⟩
def readA (w : Word) : FmtA :=
  ⟨w.extractLsb' 48 8, w.extractLsb' 32 16, w.extractLsb' 30 2, w.extractLsb' 26 4, w.extractLsb' 17 9, w.getLsbD 16,
   w.extractLsb' 11 5, w.extractLsb' 3 8⟩
def readK (w : Word) : FmtK :=
  ⟨w.extractLsb' 47 9, w.extractLsb' 38 9, w.extractLsb' 22 16, w.extractLsb' 17 5, w.extractLsb' 13 4, w.getLsbD 12⟩
def readL (w : Word) : FmtL :=
  ⟨w.extractLsb' 40 16, w.extractLsb' 24 16, w.extractLsb' 8 16, regAt w 3, w.extractLsb' 0 3⟩
def readQ (w : Word) : FmtQ :=
  ⟨(w.extractLsb' 52 4).toFin, w.extractLsb' 36 16, regAt w 31, w.getLsbD 30, w.extractLsb' 24 6, w.getLsbD 23⟩

/-- The word of an instruction; zero for a command that is none. -/
def encodeWord : Instr → Word
  | .nop _ f => packC 0x00 f
  | .step _ f => packC 0x20 f
  | .fence _ f => packC 0x21 f
  | .trapi _ f => packC 0x22 f
  | .add _ f => packS 0x01 f
  | .sub _ f => packS 0x02 f
  | .and _ f => packS 0x03 f
  | .or _ f => packS 0x04 f
  | .xor _ f => packS 0x05 f
  | .shl _ f => packS 0x06 f
  | .shr _ f => packS 0x07 f
  | .sar _ f => packS 0x08 f
  | .mul _ f => packS 0x09 f
  | .slt _ f => packS 0x0A f
  | .sltu _ f => packS 0x0B f
  | .addi _ f => packS 0x10 f
  | .lih _ f => packS 0x11 f
  | .sld _ f => packS 0x12 f
  | .sst _ f => packS 0x13 f
  | .rds _ f => packS 0x14 f
  | .beq _ f => packJ 0x18 f
  | .bne _ f => packJ 0x19 f
  | .blt _ f => packJ 0x1A f
  | .bge _ f => packJ 0x1B f
  | .jmp _ f => packJ 0x1C f
  | .jr _ f => packJ 0x1D f
  | .aop _ f => packA 0x40 f
  | .aclr _ f => packK 0x48 f
  | .ard _ f => packK 0x49 f
  | .aexp _ f => packK 0x4A f
  | .aimp _ f => packK 0x4B f
  | .widot _ f => packL 0x50 f
  | .wfdot _ f => packL 0x51 f
  | .wvb _ f => packL 0x52 f
  | .wvu _ f => packL 0x53 f
  | .wred _ f => packL 0x54 f
  | .wsmx _ f => packL 0x55 f
  | .wqnt _ f => packL 0x56 f
  | .wgth _ f => packL 0x57 f
  | .wtopk _ f => packL 0x58 f
  | .wsmp _ f => packL 0x59 f
  | .qld _ f => packL 0x60 f
  | .ascr _ f => packL 0x61 f
  | .aval _ f => packL 0x62 f
  | .kapp _ f => packL 0x68 f
  | .kmark _ f => packL 0x69 f
  | .krew _ f => packL 0x6A f
  | .krel _ f => packL 0x6B f
  | .kwalk _ f => packL 0x6C f
  | .kxfr _ f => packL 0x6D f
  | .copy _ f => packL 0x70 f
  | .trd _ f => packL 0x71 f
  | .send _ f => packL 0x72 f
  | .clr _ f => packL 0x73 f
  | .recv _ f => packQ 0x78 f
  | .qpeek _ f => packQ 0x79 f
  | .qpop _ f => packQ 0x7A f
  | .qmark _ f => packQ 0x7B f
  | .qrewind _ f => packQ 0x7C f
  | .qrel _ f => packQ 0x7D f
  | .qstat _ f => packQ 0x7E f
  | _ => 0

/-- The instruction of lantern l that a word's opcode and fields spell; none for an unassigned opcode (06 R179). -/
def decodeFields (l : Nat) (w : Word) : Option Instr :=
  match (w.extractLsb' 56 8).toNat with
  | 0x00 => some (.nop l (readC w))
  | 0x20 => some (.step l (readC w))
  | 0x21 => some (.fence l (readC w))
  | 0x22 => some (.trapi l (readC w))
  | 0x01 => some (.add l (readS w))
  | 0x02 => some (.sub l (readS w))
  | 0x03 => some (.and l (readS w))
  | 0x04 => some (.or l (readS w))
  | 0x05 => some (.xor l (readS w))
  | 0x06 => some (.shl l (readS w))
  | 0x07 => some (.shr l (readS w))
  | 0x08 => some (.sar l (readS w))
  | 0x09 => some (.mul l (readS w))
  | 0x0A => some (.slt l (readS w))
  | 0x0B => some (.sltu l (readS w))
  | 0x10 => some (.addi l (readS w))
  | 0x11 => some (.lih l (readS w))
  | 0x12 => some (.sld l (readS w))
  | 0x13 => some (.sst l (readS w))
  | 0x14 => some (.rds l (readS w))
  | 0x18 => some (.beq l (readJ w))
  | 0x19 => some (.bne l (readJ w))
  | 0x1A => some (.blt l (readJ w))
  | 0x1B => some (.bge l (readJ w))
  | 0x1C => some (.jmp l (readJ w))
  | 0x1D => some (.jr l (readJ w))
  | 0x40 => some (.aop l (readA w))
  | 0x48 => some (.aclr l (readK w))
  | 0x49 => some (.ard l (readK w))
  | 0x4A => some (.aexp l (readK w))
  | 0x4B => some (.aimp l (readK w))
  | 0x50 => some (.widot l (readL w))
  | 0x51 => some (.wfdot l (readL w))
  | 0x52 => some (.wvb l (readL w))
  | 0x53 => some (.wvu l (readL w))
  | 0x54 => some (.wred l (readL w))
  | 0x55 => some (.wsmx l (readL w))
  | 0x56 => some (.wqnt l (readL w))
  | 0x57 => some (.wgth l (readL w))
  | 0x58 => some (.wtopk l (readL w))
  | 0x59 => some (.wsmp l (readL w))
  | 0x60 => some (.qld l (readL w))
  | 0x61 => some (.ascr l (readL w))
  | 0x62 => some (.aval l (readL w))
  | 0x68 => some (.kapp l (readL w))
  | 0x69 => some (.kmark l (readL w))
  | 0x6A => some (.krew l (readL w))
  | 0x6B => some (.krel l (readL w))
  | 0x6C => some (.kwalk l (readL w))
  | 0x6D => some (.kxfr l (readL w))
  | 0x70 => some (.copy l (readL w))
  | 0x71 => some (.trd l (readL w))
  | 0x72 => some (.send l (readL w))
  | 0x73 => some (.clr l (readL w))
  | 0x78 => some (.recv l (readQ w))
  | 0x79 => some (.qpeek l (readQ w))
  | 0x7A => some (.qpop l (readQ w))
  | 0x7B => some (.qmark l (readQ w))
  | 0x7C => some (.qrewind l (readQ w))
  | 0x7D => some (.qrel l (readQ w))
  | 0x7E => some (.qstat l (readQ w))
  | _ => none

/-- Are the reserved bits of the word zero (06 R175)? -/
def reservedZero (i : Instr) (w : Word) : Bool := encodeWord i == w

/-- Fields an instruction does not use are zero, and its immediate fields lie in range (06 R175; Tables 6-2 to 6-4; R182). -/
def fieldsOk : Instr → Bool
  | .nop _ f => f.imm == 0
  | .add _ f => f.imm == 0
  | .sub _ f => f.imm == 0
  | .and _ f => f.imm == 0
  | .or _ f => f.imm == 0
  | .xor _ f => f.imm == 0
  | .shl _ f => f.imm == 0
  | .shr _ f => f.imm == 0
  | .sar _ f => f.imm == 0
  | .mul _ f => f.imm == 0
  | .slt _ f => f.imm == 0
  | .sltu _ f => f.imm == 0
  | .addi _ f => f.sb == 0
  | .lih _ f => f.sa == 0 && f.sb == 0
  | .sld _ f => f.sb == 0
  | .sst _ f => f.sd == 0
  | .rds _ f => f.sa == 0 && f.sb == 0 && decide (f.imm.toNat ≤ 7)
  | .beq _ _ => true
  | .bne _ _ => true
  | .blt _ _ => true
  | .bge _ _ => true
  | .jmp _ f => f.sa == 0 && f.sb == 0
  | .jr _ f => f.sb == 0 && f.target == 0
  | .step _ _ => true
  | .fence _ f => decide (f.imm.toNat < 128)
  | .trapi _ f => decide (f.imm.toNat < 65536)
  | .aop _ f => decide (f.array.toNat ≤ 247) && (decide (f.clip.toNat ≤ 15) || f.clip == 31)
  | .aclr _ f => f.line == 0 && f.ent == 0 && f.typ == 0 && !f.clr
  | .ard _ f => f.ent == 0 && decide (f.typ.toNat ≤ 7)
  | .aexp _ f => f.line == 0 && f.typ == 0
  | .aimp _ f => f.line == 0 && f.typ == 0 && !f.clr && decide (f.ent.toNat < 8)
  | .widot _ f => decide (f.d.toNat < 512) && decide (f.f.toNat ≤ 1)
  | .wfdot _ f => decide (f.f.toNat ≤ 3) && (f.f.getLsbD 1 || decide (f.d.toNat < 512))
  | .wvb _ f => decide (f.f.toNat ≤ 4)
  | .wvu _ f => f.b == 0 && decide (f.f.toNat ≤ 3)
  | .wred _ f => f.b == 0 && decide (f.f.toNat ≤ 2)
  | .wsmx _ f => decide (f.f.toNat ≤ 3) && (!f.f.getLsbD 0 || f.a == 0)
  | .wqnt _ f => f.b == 0 && f.f == 0
  | .wgth _ f => f.b == 0 && f.f == 0
  | .wtopk _ f => decide (f.f.toNat ≤ 1)
  | .wsmp _ f => f.f == 0
  | .qld _ f => f.b == 0 && f.f == 0 && decide (f.d.toNat < 64)
  | .ascr _ f => f.d == 0 && f.f == 0 && decide (f.b.toNat < 4096)
  | .aval _ f => decide (f.d.toNat < 512) && decide (f.b.toNat < 4096) && decide (f.f.toNat ≤ 1)
  | .kapp _ f => f.d == 0 && f.f == 0
  | .kmark _ f => f.a == 0 && f.d == 0 && f.f == 0
  | .krew _ f => f.a == 0 && f.d == 0 && f.f == 0
  | .krel _ f => f.a == 0 && f.d == 0 && f.f == 0
  | .kwalk _ f => f.a == 0 && f.d == 0 && f.f == 0
  | .kxfr _ f => decide (f.f.toNat ≤ 1) && (if f.f == 1 then f.d == 0 else f.a == 0 && decide (f.d.toNat < 32))
  | .copy _ f => f.b == 0 && decide (f.f.toNat ≤ 1)
  | .trd _ f => f.b == 0 && decide (f.f.toNat ≤ 1)
  | .send _ f => f.b == 0 && decide (f.d.toNat < 32) && decide (f.f.toNat ≤ 1)
  | .clr _ f => f.a == 0 && f.b == 0 && f.f == 0
  | .recv _ f => (if f.reg then f.line == 0 && f.n == 0 else f.sd == 0) && !f.clr
  | .qpeek _ f => (if f.reg then f.line == 0 else f.sd == 0) && f.n == 0 && !f.clr
  | .qpop _ f => (if f.reg then f.line == 0 else f.sd == 0) && f.n == 0 && !f.clr
  | .qmark _ f => f.line == 0 && f.sd == 0 && !f.reg && f.n == 0 && !f.clr
  | .qrewind _ f => f.line == 0 && f.sd == 0 && !f.reg && f.n == 0 && !f.clr
  | .qrel _ f => f.line == 0 && f.sd == 0 && !f.reg && f.n == 0 && !f.clr
  | .qstat _ f => f.line == 0 && !f.reg && f.n == 0
  | _ => false

/-- The instruction a word spells, when it passes the checks of 06 R175 that need no program image. -/
def decodeWord (l : Nat) (w : Word) : Option Instr :=
  match decodeFields l w with
  | some i => if reservedZero i w && fieldsOk i then some i else none
  | none => none

end Sys2Proof.Machine
end

