-- ==== Sys2Proof/Machine/Links.lean ====
section
/-! DEFINITION. What a link carries and how a flit passes one: header word, sideband, CHK, the pair of links, input buffers (04 R120; 08 R232 to R236, R241). -/

namespace Sys2Proof.Machine

/-! ## The words on the wires -/

/-- Header word of a flit (04 Table 4-3), reserved bits zero. -/
def headerWord (f : Flit) : BitVec 32 :=
  BitVec.ofNat 32 (f.cls.val * 2 ^ 30 + (if f.poison then 2 ^ 29 else 0) + f.dest * 2 ^ 18 + f.part * 2 ^ 14 + f.kind.val * 2 ^ 11
    + f.sub.val * 2 ^ 7 + f.fmt.val * 2 ^ 3 + (if f.last then 4 else 0))

/-- The 72 bytes of a flit: its header, then its line (04 R120). -/
def flitBytes (f : Flit) : List Byte := bytesOfNat 4 (headerWord f).toNat ++ lineBytes f.line

/-- Sideband of a flit (08 Table 8-2). -/
def sideband (f : Flit) (pseq : Bool) : BitVec 22 :=
  BitVec.ofNat 22 ((if f.sched then 2 ^ 21 else 0) + (if f.vcb then 2 ^ 20 else 0) + (if pseq then 2 ^ 19 else 0)
    + f.inj % 4096 * 128 + f.hops % 128)

/-- CHK of a flit: over FLIT byte by byte, each from its high bit down as the check value 0x29B1 asks (DEDUCED, log 52), then SB bits 0 to 21 (08 R234). -/
def chk (f : Flit) (pseq : Bool) : BitVec 16 :=
  ((List.range 22).map (sideband f pseq).getLsbD).foldl crc16Bit (crc16 (flitBytes f))

/-! ## The pair of links of a port (08 R234, R235) -/

/-- Links in service. -/
def working (d : LinkDir) : Nat := (if (tget {} d.link 0).up then 1 else 0) + (if (tget {} d.link 1).up then 1 else 0)

/-- Buffer of a virtual channel. -/
def vcKey (cls : Fin 4) (vcb : Bool) : Nat := 2 * cls.val + (if vcb then 1 else 0)
/-- Buffer and alternation key of a flit: its virtual channel, or the scheduled stream. -/
def flitKey (f : Flit) : Nat := if f.sched then 8 else vcKey f.cls f.vcb

/-- A link keeps the last 4 flits it carried. -/
def keepOn (x : Link) (fs : List (BitVec 16 × Flit)) : Link :=
  let all := x.kept ++ fs
  { x with kept := all.drop (all.length - 4) }

/-- A flit passes a pair: on link 0 and link 1 in turn, on the one in service while the other is out; PSEQ inverts on each flit. -/
def passLinks (f : Flit) (d : LinkDir) : LinkDir :=
  let q := tget {} d.pair (flitKey f)
  let both := decide (working d = 2)
  let k := if both then (if q.next then 1 else 0) else if (tget {} d.link 0).up then 0 else 1
  { link := tupd {} d.link k (fun x => keepOn x [(chk f q.pseq, f)]), pair := tset {} d.pair (flitKey f) ⟨both && !q.next, !q.pseq⟩ }

/-- A link leaves service: what it kept is sent again on the other link when that one works (R234). -/
def dropLink (k : Nat) (d : LinkDir) : LinkDir :=
  let x := tget {} d.link k
  let d := { d with link := tset {} d.link k { x with up := false, fails := none, misses := [], kept := [] } }
  if working d = 0 then d else { d with link := tupd {} d.link (1 - k) (fun y => keepOn y x.kept) }

/-- A link is in service again: the alternation resumes with link 0 (R235). -/
def restoreLink (k : Nat) (d : LinkDir) : LinkDir :=
  { link := tupd {} d.link k (fun x => { x with up := true, disabled := false }),
    pair := (d.pair.map (fun e => (e.1, { e.2 with next := false }))).filter (fun e => e.2 != {}) }

/-! ## Input buffers (08 R236) -/

/-- Flits a buffer holds: 4 for a virtual channel, 8 for the scheduled stream. -/
def bufDepth (key : Nat) : Nat := if key = 8 then 8 else 4
/-- Has input port i of router r room for a flit? -/
def bufRoom (s : State) (r i : Nat) (f : Flit) : Bool := decide ((tget [] (getRP s r i).bufs (flitKey f)).length < bufDepth (flitKey f))
/-- A flit is in an input buffer. -/
def fillBuf (f : Flit) (P : RPort) : RPort := { P with bufs := tupd [] P.bufs (flitKey f) (· ++ [f]) }
/-- Is the router in service (08 Table 8-6)? -/
def routerUp (s : State) (r : Nat) : Bool := !s.badRouters.contains r
/-- A flit comes in at a port over the links from the port's lantern or headgate. -/
def enterRouter (r i : Nat) (f : Flit) (s : State) : State := updRP s r i (fun P => fillBuf f { P with inn := passLinks f P.inn })

/-! ## From a lantern into its router (08 R236, R241) -/

/-- Is a flit that lantern l sends scheduled (08 R241)? -/
def isSched (s : State) (l : Nat) (f : Flit) : Bool :=
  match getPart s ((partOf s l).getD 16) with
  | some p => (match p.prog with | some g => g.sched | none => false) && f.cls != 0 && decide (f.dest < 1600) && inRect p (fieldOf f.dest)
  | none => false

/-- INJ: bits [11:0] of the island's copy of the time base at injection, class 0 in virtual-channel mode only (08 Table 8-2). -/
def injNow (s : State) (isl : Nat) (f : Flit) : Nat := if f.cls = 0 then localNow s isl % 4096 else 0

/-- Header and sideband fields that the injecting router sets. -/
def injected (s : State) (l : Nat) (f : Flit) : Flit :=
  { f with tag := BitVec.ofNat 4 ((partOf s l).getD 0), sched := isSched s l f, inj := injNow s (fieldOf l) f, hops := 0 }

/-- Flits of lantern l enter its router while there is room, each class in order; n bounds their number. -/
def feedLocal (l : Nat) : Nat → State → State
  | 0, s => s
  | n + 1, s =>
    if !routerUp s l || working (getRP s l 0).inn = 0 then s else
    match (getL s l).tx.find? (fun e => bufRoom s l 0 (injected s l e.2)) with
    | none => s
    | some e =>
      feedLocal l n (enterRouter l 0 (injected s l e.2) (updL s l (fun L => { L with tx := L.tx.erase e })))

/-- Everything that can enter now. -/
def feedL (s : State) (l : Nat) : State := feedLocal l (getL s l).tx.length s

/-! ## The repair map (11 R337) -/

/-- A repair map entry (11 Table 11-3). -/
def repairBytes (e : RepairEntry) : List Byte :=
  bytesOfNat 1 e.typ ++ bytesOfNat 1 e.source ++ bytesOfNat 2 0 ++ bytesOfNat 4 e.place ++ bytesOfNat 4 e.detail ++ bytesOfNat 4 e.psec

/-- CRC-32C over a copy of the repair map: header bytes 0 to 11 and the entries. -/
def repairCheck (gen : BitVec 32) (entries : List RepairEntry) : BitVec 32 :=
  crc32c (bytesOfNat 4 gen.toNat ++ bytesOfNat 4 entries.length ++ bytesOfNat 4 0 ++ entries.flatMap repairBytes)

def repairValid (c : RepairCopy) : Bool := c.check == repairCheck c.gen c.entries

/-- The valid copy of the newer generation; of none, an empty one (DESIGN CHOICE, log 53). -/
def bestRepair (a b : RepairCopy) : RepairCopy :=
  if repairValid a && repairValid b then (if 1 ≤ (b.gen - a.gen).toNat ∧ (b.gen - a.gen).toNat < 2 ^ 31 then b else a)
  else if repairValid a then a else if repairValid b then b else {}

/-- The map with one entry more, in both copies; false where it is full. -/
def mapAdd (e : RepairEntry) (s : State) : Option State :=
  if 8192 ≤ s.repair.entries.length then none else
  let es := s.repair.entries ++ [e]
  let c : RepairCopy := ⟨s.repair.gen + 1, es, repairCheck (s.repair.gen + 1) es⟩
  some { s with repair := c, repair2 := c }

/-- Does the map hold an entry of a type and a place? -/
def inMap (s : State) (typ place : Nat) : Bool := s.repair.entries.any (fun e => e.typ == typ && e.place == place)

end Sys2Proof.Machine
end

