-- ==== Sys2Proof/Machine/Sequencer.lean ====
section
/-! DEFINITION. The lantern sequencer and what its engines share: traps, scratchpad lines under the tag rules, sending flits, holding and issuing (05, 06). -/

namespace Sys2Proof.Machine

/-! ## Traps (06 R197, R198) -/

def causeWatchdog : Nat := 1
def causeCredit : Nat := 2
def causeRange : Nat := 3
def causePower : Nat := 4
def causePoison : Nat := 5
def causeProgram : Nat := 6
def causeStore : Nat := 7
def causeOrder : Nat := 8
def causeFormat : Nat := 9

/-- A fault of partition pn: its step tree stops and module firmware has a fault record to take (06 R198; 11 R344). -/
def raiseFault (s : State) (pn : Nat) (r : FaultRec) : State :=
  updPart s pn (fun p =>
    if p.state = .empty ∨ p.state = .loaded then p
    else { p with running := false, newFaults := p.newFaults ++ [{ r with part := pn, epoch := p.epoch, time := nowNs s }] })

/-- Lantern l traps (06 R198): cause, detail, instruction index and word. -/
def trapAt (s : State) (l cause detail idx : Nat) (word : Word) : State :=
  match partOf s l with
  | none => s
  | some pn =>
    let s' := updL s l (fun L => { L with trapped := true })
    raiseFault s' pn ⟨0, cause, pn, l, (getL s l).step, idx, word, detail % 2 ^ 32, nowNs s, 0, 0, []⟩

/-- Lantern l traps on what reaches it, at its program index. -/
def trapNow (s : State) (l cause detail : Nat) : State :=
  let L := getL s l
  trapAt s l cause detail L.pc (tget {} L.store L.pc).bits

/-- A fault of a class other than 0x00 (11 Table 11-5): class and the place coded as in Table 11-4. -/
def unitFault (s : State) (pn cls place : Nat) : State :=
  let step := match getPart s pn with | some p => p.bound | none => 0
  raiseFault s pn ⟨cls, 0, pn, place, step, 65535, 0, 0, nowNs s, 0, 0, []⟩

/-! ## What an attempt gives -/

/-- An attempt of the sequencer: done, a wait of 06 Table 6-7, or a trap. -/
inductive Try where
  | done (s : State)
  | hold (code : Nat) (s : State)
  | trap (cause detail : Nat) (s : State)
  deriving DecidableEq

/-- An attempt of an engine: done, go on with another operation, wait with it, or a trap. -/
inductive EngTry where
  | done (s : State)
  | more (op : EOp) (s : State)
  | wait (code : Nat) (op : EOp) (s : State)
  | trap (cause detail : Nat) (s : State)
  deriving DecidableEq

/-! ## Scratchpad lines (05 R142 to R148, R153, R160; 07 R204) -/

/-- Does a range of lines meet a queue region (05 R153)? -/
def meetsQueue (L : Lantern) (a n : Nat) : Bool := L.queues.any (fun e => decide (0 < e.2.depth) && meets a n e.2.base e.2.depth)
/-- Does it meet the cache table region (07 R204)? -/
def meetsTable (L : Lantern) (a n : Nat) : Bool := decide (0 < L.ctCount) && meets a n L.ctBase L.ctCount
/-- May an instruction address n lines from a on (05 R142, R153; 06 R178; 07 R204)? -/
def rangeOk (L : Lantern) (a n : Nat) : Bool := decide (a + n ≤ 65536) && !meetsQueue L a n && !meetsTable L a n

def padAt (L : Lantern) (a : Nat) : PadLine := tget {} L.pad a
def padFull (L : Lantern) (a n : Nat) : Bool := (List.range n).all (fun i => (padAt L (a + i)).full)

/-- A parity mismatch found in store n of lantern l: 0 scratchpad, 1 key/value store, 2 queue region (05 R160). -/
def parityMiss (s : State) (l n a : Nat) : State :=
  let s := countL s l (0x20 + n) 1
  let s := updL s l (fun L => { L with parity := (L.parity.1 + (if n = 0 then 1 else 0), L.parity.2.1 + (if n = 1 then 1 else 0),
                                                 L.parity.2.2 + (if n = 2 then 1 else 0)) })
  raiseL s l sevError (0x0300 + n) a

/-- What a delivery of a stored line counts and reports: its poison. -/
def deliver (s : State) (l n a : Nat) (poison parBad : Bool) : State × Bool :=
  let s := if parBad then parityMiss s l n a else s
  let p := poison || parBad
  (if p then countL s l 0x23 1 else s, p)

/-- Read of a full line, KEEP or TAKE (05 Table 5-3): the line with its poison. -/
def readPad (s : State) (l a : Nat) (take : Bool) : State × Line × Bool :=
  let x := padAt (getL s l) a
  let (s, p) := deliver s l 0 a x.poison x.parBad
  let s := if take then updL s l (fun L => { L with pad := tset {} L.pad a {} }) else s
  (s, x.data, p)

/-- n lines from a on as a KEEP read would deliver them now, with their poison. -/
def peekLines (L : Lantern) (a n : Nat) : List (Line × Bool) :=
  (List.range n).map (fun i => let x := padAt L (a + i); (x.data, x.poison || x.parBad))

/-- Write of an empty line (05 Table 5-3), with the shadow format of 06 R201. -/
def writePad (s : State) (l a : Nat) (x : Line) (poison : Bool) (shadow : BitVec 4) : State :=
  updL s l (fun L => { L with pad := tset {} L.pad a ⟨x, true, poison, false, shadow⟩ })

/-- The hazard detector (06 R201): under debug, a line of n from a on was written as a type other than the one read. -/
def hazard (s : State) (l a n ty : Nat) : Option Nat :=
  if debugOn s ((partOf s l).getD 16) then
    ((List.range n).map (a + ·)).find? (fun i =>
      let x := padAt (getL s l) i
      x.full && x.shadow != 0xA && x.shadow.toNat != ty)
  else none

/-- A line that an instruction reads as an operand: its address, TAKE or KEEP, and the type the hazard detector holds it to. -/
structure LineRead where
  addr : Nat
  take : Bool
  ty : Option Nat
  deriving DecidableEq, Repr

/-- n consecutive lines of a type, read KEEP. -/
def keepReads (a n ty : Nat) : List LineRead := (List.range n).map (fun i => ⟨a + i, false, some ty⟩)

/-- How a multi-line read stands: every line read, held on an empty line, or stopped by the hazard detector at a line. -/
inductive ReadEnd where
  | all
  | empty
  | hazard (line : Nat)
  deriving DecidableEq, Repr

/-- A multi-line read waits on each line in turn (05 R148): the lines read up to the first it is held on. -/
def gather (l : Nat) : List LineRead → State → State × List (Line × Bool) × ReadEnd
  | [], s => (s, [], .all)
  | r :: rs, s =>
    if !(padAt (getL s l) r.addr).full then (s, [], .empty)
    else match r.ty.bind (hazard s l r.addr 1) with
    | some i => (s, [], .hazard i)
    | none =>
      let (s, x, p) := readPad s l r.addr r.take
      let (s, xs, e) := gather l rs s
      (s, (x, p) :: xs, e)

/-- Finished result lines as an operation still to write them. -/
def resultLines (xs : List (Line × Bool)) (shadow : Nat) : List PadLine :=
  xs.map (fun x => ⟨x.1, true, x.2, false, BitVec.ofNat 4 shadow⟩)

/-- Write-out of result lines in address order, waiting on a full line (05 R144, R148). -/
def emitLines (l : Nat) : List PadLine → Nat → State → EngTry
  | [], _, s => .done s
  | x :: xs, a, s =>
    if (padAt (getL s l) a).full then .wait 0x02 (.emit a (x :: xs)) s
    else emitLines l xs (a + 1) (updL s l (fun L => { L with pad := tset {} L.pad a x }))

/-! ## Sending flits (05 R156; 06 R185, R186; 08 R247) -/

/-- Interval of the weir, ns (08 R247). -/
def weirP (k : Nat) : Nat := 8 * 2 ^ k
/-- May a class-0 flit leave now? -/
def weirOpen (last : Option Nat) (k t : Nat) : Bool :=
  match last with
  | some u => decide (u + weirP k ≤ t)
  | none => true

/-- A flit of engine eng leaves for the router of lantern l: counted by class (sources 0x2D to 0x30). -/
def launchL (s : State) (l eng : Nat) (f : Flit) : State :=
  countL (updL s l (fun L => { L with tx := L.tx ++ [(eng, f)] })) l (0x2D + f.cls.val) 1

/-- A flit made by engine eng of lantern l is injected; a class-0 flit may be held by the weir. -/
def injectL (s : State) (l eng : Nat) (f : Flit) : State :=
  let L := getL s l
  if f.cls = 0 then
    if L.weirHeld.isEmpty && weirOpen L.weirLast L.weirK (nowNs s) then
      launchL (updL s l (fun L => { L with weirLast := some (nowNs s) })) l eng f
    else updL s l (fun L => { L with weirHeld := L.weirHeld ++ [(eng, f)] })
  else launchL s l eng f

/-- A flit with the header fields of 04 Table 4-3; PART and INJ are set by the injecting router. -/
def mkFlit (src : Nat) (cls : Fin 4) (dest : Nat) (kind : Fin 8) (sub : Nat) (fmt : Nat) (last poison : Bool) (x : Line) : Flit :=
  { cls := cls, poison := poison, dst := BitVec.ofNat 11 dest, tag := 0, kind := kind, sub := ⟨sub % 16, Nat.mod_lt _ (by decide)⟩,
    fmt := ⟨fmt % 16, Nat.mod_lt _ (by decide)⟩, last := last, line := x, src := src, sched := false, vcb := false, inj := 0, hops := 0 }

/-- Credits that perturbation withholds from a sluice entry of lantern l (13 Table 13-8, PERT_CREDIT). -/
def withheld (s : State) (l ent : Nat) : Nat :=
  match getPart s ((partOf s l).getD 16) with
  | some p =>
    let v := p.pcreditOn.toNat
    if p.pcreditOn.getLsbD 31 ∧ v % 2048 = l ∧ v / 2048 % 32 = ent then v / 65536 % 4096 else 0
  | none => 0

/-- Credits a send through the entry may use: the entry's count less those withheld. -/
def creditsLeft (s : State) (l ent : Nat) : Nat := (getSl (getL s l) ent).credits - withheld s l ent

/-- Flits still to be sent through a sluice entry, one credit each (05 R156): POISON of an armed entry (13 R405) goes on the next. -/
def sendFlits (l eng ent : Nat) : List Flit → State → EngTry
  | [], s => .done s
  | f :: fs, s =>
    let e := getSl (getL s l) ent
    if creditsLeft s l ent = 0 then .wait 0x04 (.inject ent (f :: fs)) s
    else
      let f := { f with cls := e.cls, dst := BitVec.ofNat 11 e.dest, poison := f.poison || e.poisonNext }
      let s := updSl s l ent (fun e => { e with credits := e.credits - 1, poisonNext := false })
      sendFlits l eng ent fs (injectL s l eng f)

/-- Is the destination of a sluice entry one that lantern l may send to (04 R122)? -/
def slDestOk (s : State) (l ent : Nat) : Bool :=
  match partOf s l with
  | some pn => destOk s pn (getSl (getL s l) ent).dest
  | none => false

/-- A CREDIT flit of lantern l to a producer (06 R186). -/
def creditFlit (l : Nat) (cls : Fin 4) (dest kind num count : Nat) : Flit :=
  mkFlit l cls dest 3 num 0xA false false (BitVec.ofNat 544 (count % 2 ^ 32 + kind * 2 ^ 32))

/-- XACK of a receiver: count, last. -/
def xackLine (count : Nat) (last : Bool) : Line := BitVec.ofNat 544 (count % 2 ^ 32 + (if last then 2 ^ 32 else 0))

/-! ## Issue (05 R136, R138; 06 R177, R192) -/

/-- The sequencer may issue: domain on, time base acquired, program running, nothing held. -/
def canIssue (L : Lantern) : Bool := L.on && L.timeOk && L.running && !L.trapped && L.held.isNone

/-- After an instruction at index 8,191 that does not branch (05 R136). -/
def passEnd (s : State) (l : Nat) (i : Instr) : State :=
  if (getL s l).pc = 8192 then trapAt s l causeRange 8192 8191 (encodeWord i) else s

/-- The sequencer takes instruction i at the program index: t is tried on the state past it. -/
def attempt (l : Nat) (i : Instr) (t : State → Try) (s : State) : State :=
  let pc := (getL s l).pc
  let n := (getL s l).issued
  if (tget {} (getL s l).store pc).parBad then trapAt s l causeStore pc pc (encodeWord i)
  else match t (updL s l (fun L => { L with pc := pc + 1, issued := n + 1 })) with
  | .done s' => passEnd (countL s' l 0x02 1) l i
  | .hold c s' => updL s' l (fun L => { L with pc := pc, issued := n, held := some (i, c, nowNs s) })
  | .trap c d s' => trapAt (updL s' l (fun L => { L with pc := pc, issued := n })) l c d pc (encodeWord i)

/-- Lantern l issues instruction i when it may; a word that program load rejects (R175) never reaches the sequencer. -/
def issue (l : Nat) (i : Instr) (t : State → Try) (s : State) : State :=
  if canIssue (getL s l) && fieldsOk i then attempt l i t s else s

/-- Issue order of the instruction being tried. -/
def curSeq (L : Lantern) : Nat := L.issued - 1

/-- t, unless a register it uses is pending (06 R177). -/
def withRegs (l : Nat) (rs : List (Fin 32)) (t : State → Try) (s : State) : Try :=
  if rs.any (fun r => (getL s l).pending.contains r) then .hold 0x0E s else t s

/-- Depth of an engine's instruction queue (05 Table 5-1). -/
def engDepth (e : Nat) : Nat := if e = 0 then 4 else if e = 5 then 16 else 8

/-- Operation op goes to engine e, when its queue has a slot (05 R138). -/
def pushOp (l e : Nat) (op : EOp) (i : Instr) (s : State) : Try :=
  let L := getL s l
  if engDepth e ≤ (getEng L e).q.length then .hold 0x06 s
  else .done (updEng s l e (fun g => { g with q := g.q ++ [⟨curSeq L, L.pc - 1, encodeWord i, op, []⟩] }))

/-- OFS of an L-format instruction, and bits [47:0] of its SC register (06 R178). -/
def scOfs (w : Word) : Nat := w.toNat / 2 ^ 48
def scLow (w : Word) : Nat := w.toNat % 2 ^ 48
def bitsAt (x lo n : Nat) : Nat := x / 2 ^ lo % 2 ^ n

/-- Checks made at issue (06 R178): the first that fails traps with its detail. -/
def checked (cs : List (Bool × Nat)) (t : State → Try) (s : State) : Try :=
  match cs.find? (fun c => !c.1) with
  | some c => .trap causeRange c.2 s
  | none => t s

/-- A range of lines may be addressed; the detail is its first line. -/
def lineCheck (L : Lantern) (a n : Nat) : Bool × Nat := (rangeOk L a n, a)
/-- Lines a, a + stride, ... may each be addressed. -/
def strideCheck (L : Lantern) (a stride n : Nat) : Bool × Nat := ((List.range n).all (fun i => rangeOk L (a + i * stride) 1), a)
/-- n blocks from b on lie within 0 to 511. -/
def blockCheck (b n : Nat) : Bool × Nat := (decide (b + n ≤ 512), b)
/-- Bits [47:0] of SC that the table does not name, from bit k on, are zero (06 R180). -/
def scZero (w : Word) (k : Nat) : Bool × Nat := (decide (scLow w < 2 ^ k), scLow w)
/-- A parameter taken from SC lies from lo to hi. -/
def paramCheck (w : Word) (x lo hi : Nat) : Bool × Nat := (decide (lo ≤ x) && decide (x ≤ hi), scLow w)

/-- An instruction whose engine writes register sd: sd is pending from issue (06 R177). -/
def pushReg (l e : Nat) (sd : Fin 32) (op : EOp) (i : Instr) (s : State) : Try :=
  match pushOp l e op i s with
  | .done s => .done (updL s l (fun L => { L with pending := sd :: L.pending }))
  | r => r

/-- A wait has ended: a trace record of its code and cycles (13 R402). -/
def waitEnded (s : State) (l code since : Nat) : State :=
  if code = 0 then s else
  let k := clockNow s l
  traceL s l 2 (code + (cyclesAt k (nowNs s) - cyclesAt k since) * 256)

/-- Wait codes that array operations past the port are held on: in issue slots, their outputs, their residuals (06 R192). -/
def bankWaits (L : Lantern) : List Nat :=
  (L.banks.flatMap (fun b => (if b.2.slot.isSome then [b.2.wait] else [])
    ++ (b.2.late ++ b.2.run.toList).flatMap (fun r => [r.wait, r.resWait]))).filter (· != 0)

/-- Every instruction issued to engine e has completed; one that sends ends when its last line has entered the router (06 R185). -/
def engineIdle (L : Lantern) (e : Nat) : Bool :=
  (getEng L e).q.isEmpty && L.weirHeld.all (fun x => x.1 != e) && L.tx.all (fun x => x.1 != e)
    && (decide (e ≠ 0) || L.banks.all (fun b => b.2.slot.isNone && (b.2.late ++ b.2.run.toList).all (fun r => r.placed && r.residDone)))

/-- Every instruction issued has completed (05 R140). -/
def allIdle (L : Lantern) : Bool := (List.range 7).all (engineIdle L)

end Sys2Proof.Machine
end

