-- ==== Sys2Proof/Machine/Routes.lean ====
section
/-! DEFINITION. Routes over the furrows: ports, permit masks, paths, the class-0 conditions, quiet partitions (01 R17, R31, R32; 08 R237, R238, R248). -/

namespace Sys2Proof.Machine

/-! ## Ports: 0 local, 1 north, 2 east, 3 south, 4 west -/

def neighbour (r p : Nat) : Nat := if p = 1 then r + 40 else if p = 2 then r + 1 else if p = 3 then r - 40 else r - 1
/-- Input port a flit enters at when it leaves through port p. -/
def facing (p : Nat) : Nat := if p = 1 then 3 else if p = 2 then 4 else if p = 3 then 1 else 2

/-- Rim tile behind an outward port of an edge router (01 R17). -/
def edgeTile (r p : Nat) : Option Nat :=
  let x := lanternX r
  let y := lanternY r
  if p = 1 ∧ y = 39 then some (x / 4) else if p = 2 ∧ x = 39 then some (10 + y / 4)
  else if p = 3 ∧ y = 0 then some (20 + x / 4) else if p = 4 ∧ x = 0 then some (30 + y / 4) else none

/-- Side of a tile: 0 N, 1 E, 2 S, 3 W; its outward port is one more. -/
def tileSide (t : Nat) : Nat := t / 10
def tileVertical (t : Nat) : Bool := tileSide t % 2 == 0

/-- Lantern beside tile t at column or row v of its range. -/
def edgeLantern (t v : Nat) : Nat :=
  if tileSide t = 0 then 39 * 40 + v else if tileSide t = 1 then v * 40 + 39 else if tileSide t = 2 then v else v * 40

/-- Columns (rows for an E or W source) that destination d offers to a source tile t (R237). -/
def destRange (t d : Nat) : Nat × Nat :=
  match tileOfDest d with
  | none => let v := if tileVertical t then lanternX d else lanternY d; (v, v)
  | some u =>
    if tileVertical u = tileVertical t then (4 * (u % 10), 4 * (u % 10) + 3)
    else if tileSide u ≤ 1 then (39, 39) else (0, 0)

/-- Can headgate t inject at an edge lantern: the router is in service and so is a link into it (08 Table 8-6)? -/
def entryUp (s : State) (t r : Nat) : Bool := routerUp s r && decide (0 < working (getRP s r (tileSide t + 1)).inn)

/-- Edge lantern through which headgate t injects a flit for d (R237). Where that one's router or links are out, another of the tile's edge lanterns (01 R21; 08 Table 8-6): the lowest that is not, a choice of the model (DESIGN CHOICE, log 52). -/
def entryLantern (s : State) (t d : Nat) : Nat :=
  let lo := 4 * (t % 10)
  let hi := lo + 3
  let r := destRange t d
  let v := if r.1 ≤ hi ∧ lo ≤ r.2 then max lo r.1 else if hi < r.1 then hi else lo
  ((edgeLantern t v :: (List.range 4).map (fun i => edgeLantern t (lo + i))).find? (entryUp s t)).getD (edgeLantern t v)

/-- The lantern that stands as the source of a flit. -/
def sourceLantern (s : State) (src d : Nat) : Nat :=
  match tileOfDest src with
  | some t => entryLantern s t d
  | none => src

def clampTo (lo v : Nat) : Nat := if v < lo then lo else if lo + 3 < v then lo + 3 else v

/-- Lantern at which the route from src to d ends (R237). -/
def routeEnd (s : State) (src d : Nat) : Nat :=
  match tileOfDest d with
  | none => d
  | some t =>
    let a := sourceLantern s src d
    edgeLantern t (clampTo (4 * (t % 10)) (if tileVertical t then lanternX a else lanternY a))

/-- Exception entry of router r for destination d (R237). -/
def exceptionFor (s : State) (r d : Nat) : Option Nat :=
  ((getR s r).exceptions.find? (fun e => decide (e.1 ≤ d) && decide (d ≤ e.2.1))).map (·.2.2)

/-- Output port of a flit at router r on its dimension-ordered route. -/
def xyPort (s : State) (r src d : Nat) : Nat :=
  let e := routeEnd s src d
  if lanternX r < lanternX e then 2 else if lanternX e < lanternX r then 4
  else if lanternY r < lanternY e then 1 else if lanternY e < lanternY r then 3
  else match tileOfDest d with
    | some t => tileSide t + 1
    | none => 0

/-- Output port of a flit at router r: an exception's before the dimension-ordered one. -/
def nextPort (s : State) (r src d : Nat) : Nat := (exceptionFor s r d).getD (xyPort s r src d)

/-- Does port p of router r lead to another router? -/
def inward (r p : Nat) : Bool := decide (p ≠ 0) && (edgeTile r p).isNone

/-- Ports of the route from router r on, at most n. -/
def pathFrom (s : State) (src d : Nat) : Nat → Nat → List (Nat × Nat)
  | 0, _ => []
  | n + 1, r =>
    let p := nextPort s r src d
    (r, p) :: (if inward r p then pathFrom s src d n (neighbour r p) else [])

/-- Ports of the route from a source to a destination. -/
def pathPorts (s : State) (src d : Nat) : List (Nat × Nat) := pathFrom s src d 160 (sourceLantern s src d)

/-- Outbound links of a port in service; a bad router's ports, and its neighbours' ports toward it, have none (08 Table 8-6). -/
def linksUp (s : State) (r p : Nat) : Nat :=
  if routerUp s r && (!inward r p || routerUp s (neighbour r p)) then working (getRP s r p).out else 0

/-! ## Quiet partitions (01 R32; 08 R252) -/

/-- Fields on the dimension-ordered way from field a to field b. -/
def fieldWay (a b : Nat) : List Nat :=
  let xs := fun (x y : Nat) => (List.range (max x y + 1)).filter (fun v => decide (min x y ≤ v))
  (xs (a % 10) (b % 10)).map (fun x => a / 10 * 10 + x) ++ (xs (a / 10) (b / 10)).map (fun y => y * 10 + b % 10)

/-- Field a rim tile borders (01 R17). -/
def borderField (t : Nat) : Nat :=
  let k := t % 10
  if tileSide t = 0 then 90 + k else if tileSide t = 1 then 10 * k + 9 else if tileSide t = 2 then k else 10 * k

/-- Fields outside its rectangle that a partition's routes to and from its granted headgates cross. -/
def crossedFields (p : Partition) : List Nat :=
  let ts := (List.range nTiles).filter (granted p)
  ((partFields p).flatMap (fun f => ts.flatMap (fun t => fieldWay f (borderField t) ++ fieldWay (borderField t) f))).filter
    (fun f => !inRect p f)

/-! ## Traffic of the loaded programs (08 R248) -/

/-- A flow: source, destination, class, the partition it belongs to, the exponent of the source's weir for it. -/
structure Flow where
  src : Nat
  dest : Nat
  cls : Nat
  part : Nat
  k : Nat
  deriving DecidableEq, Repr

/-- Flows of partition pn: its sluice entries and headgate entries, and the credits that return for them. -/
def flowsOf (s : State) (pn : Nat) : List Flow :=
  match getPart s pn with
  | none => []
  | some p =>
    let kOf := fun d : Nat => match tileOfDest d with
      | some t => tget 0 (getT s t).weirK pn
      | none => (getL s d).weirK
    let ls := (progLanterns s p).flatMap (fun l =>
      (getL s l).sluices.filterMap (fun e => if e.2.kind = 255 then none else some (l, e.2.dest, e.2.cls.val)))
    let hs := (List.range nTiles).flatMap (fun t =>
      (getT s t).entries.filterMap (fun e => if e.1 / 16 = pn ∧ 0 < e.2.grant then some (1600 + t, e.2.dest, e.2.cls.val) else none))
    (ls ++ hs).flatMap (fun e => [⟨e.1, e.2.1, e.2.2, pn, kOf e.1⟩, ⟨e.2.1, e.1, e.2.2, pn, kOf e.2.1⟩])

def allFlows (s : State) : List Flow := (allParts s).flatMap (fun e => flowsOf s e.1)

/-- Port by which a flow enters the mesh: its router and input port. -/
def flowEntry (s : State) (f : Flow) : Nat × Nat :=
  match tileOfDest f.src with
  | some t => (sourceLantern s f.src f.dest, tileSide t + 1)
  | none => (f.src, 0)

/-- Ports of a flow's route. A headgate source's own output port toward its edge router comes first, named by that router's number plus 2,000 and its input port (R248). -/
def flowPorts (s : State) (f : Flow) : List (Nat × Nat) :=
  let ps := pathPorts s f.src f.dest
  if (tileOfDest f.src).isSome then let e := flowEntry s f; (e.1 + 2000, e.2) :: ps else ps

/-- Links in service of a port as flowPorts names it. -/
def flowLinks (s : State) (rp : Nat × Nat) : Nat :=
  if 2000 ≤ rp.1 then (if routerUp s (rp.1 - 2000) then working (getRP s (rp.1 - 2000) rp.2).inn else 0) else linksUp s rp.1 rp.2

/-- Sources of class 0 at a port with their exponents: a lantern is one source, a headgate one per partition its weir polices (R247). -/
def portSources (flows : List (Flow × List (Nat × Nat))) (rp : Nat × Nat) : List (Nat × Nat × Nat) :=
  ((flows.filter (fun f => f.2.contains rp)).map (fun f => (f.1.src, if f.1.src < 1600 then 16 else f.1.part, f.1.k))).eraseDups

/-- The source conditions at a port (R248): 16 sources and 1 flit per ns on two links, 8 and 0.5 on one. -/
def portBounded (s : State) (flows : List (Flow × List (Nat × Nat))) (rp : Nat × Nat) : Bool :=
  let ss := portSources flows rp
  let rate : Nat := (ss.map (fun e => 128 / 2 ^ e.2.2)).sum
  if flowLinks s rp = 2 then decide (ss.length ≤ 16) && decide (rate ≤ 1024) else decide (ss.length ≤ 8) && decide (rate ≤ 512)

/-- Class-0 flows with their ports. -/
def classZero (s : State) : List (Flow × List (Nat × Nat)) :=
  ((allFlows s).filter (fun f => f.cls == 0)).eraseDups.map (fun f => (f, flowPorts s f))

/-- Every class-0 route is within the bound (R248). -/
def boundHolds (s : State) : Bool :=
  let fs := classZero s
  fs.all (fun f => decide (f.2.length ≤ 80) && f.2.all (portBounded s fs))

/-- Routes that a repair leaves unbounded (kind 1) or without a working port (kind 2) (R237, R248). -/
def badRoutes (s : State) : List (Nat × Nat × Nat × Nat) :=
  let fs := classZero s
  let dead := (allFlows s).eraseDups.filter (fun f => (flowPorts s f).any (fun rp => flowLinks s rp == 0))
  let long := fs.filter (fun f => !dead.contains f.1 && !(decide (f.2.length ≤ 80) && f.2.all (portBounded s fs)))
  dead.map (fun f => (f.src, f.dest, f.part, 2)) ++ long.map (fun f => (f.1.src, f.1.dest, f.1.part, 1))

/-- Partitions whose routes use a port: outbound, or inbound from a lantern or a headgate (08 R234; 11 Table 11-5). -/
def partsUsing (s : State) (r p : Nat) (inb : Bool) : List Nat :=
  (allParts s).filterMap (fun e =>
    if (flowsOf s e.1).any (fun f => if inb then flowEntry s f == (r, p) else (pathPorts s f.src f.dest).contains (r, p)) then some e.1 else none)

/-- A link as 11 Table 11-4 codes it; links 2 and 3 of a port are its inbound links 0 and 1. -/
def linkCode (r p k : Nat) : Nat := r * 2 ^ 21 + p * 2 ^ 18 + k % 2 * 2 ^ 17 + k / 2 * 2 ^ 16

/-- The link a command names, under the name its sender has: router, port, inbound from a lantern or a headgate, 0 or 1. -/
def linkPlace (r p k : Nat) : Nat × Nat × Bool × Nat :=
  if k < 2 then (r, p, false, k) else if inward r p then (neighbour r p, facing p, false, k - 2) else (r, p, true, k - 2)

/-- The links of a port in one direction. -/
def getDir (s : State) (r p : Nat) (inb : Bool) : LinkDir := if inb then (getRP s r p).inn else (getRP s r p).out
def updDir (r p : Nat) (inb : Bool) (f : LinkDir → LinkDir) (s : State) : State :=
  updRP s r p (fun P => if inb then { P with inn := f P.inn } else { P with out := f P.out })

end Sys2Proof.Machine
end

