-- ==== Sys2Proof/Machine/RouteTables.lean ====
section
/-! DEFINITION. The route tables that module firmware writes and the Lamplighter locks: exceptions around ports out of service, permit masks, the class-0 bound checked again (01 R31, R32; 08 R237, R238, R248, R250). -/

namespace Sys2Proof.Machine

/-! ## Exceptions (08 R237; Table 8-6) -/

/-- Does a flit for d arrive when it leaves router r through port p? -/
def arrives (r p d : Nat) : Bool :=
  match tileOfDest d with
  | some t => edgeTile r p == some t
  | none => decide (p = 0) && decide (r = d)

/-- The ports qs taken in turn from router r: the ports passed, and the router reached unless the flit has arrived; none where one of them is out of service or leads elsewhere. -/
def followPorts (s : State) (d : Nat) : Nat → List Nat → Option (List (Nat × Nat) × Option Nat)
  | r, [] => some ([], some r)
  | r, q :: qs =>
    if linksUp s r q = 0 then none
    else if arrives r q d then some ([(r, q)], none)
    else if inward r q then (followPorts s d (neighbour r q) qs).map (fun x => ((r, q) :: x.1, x.2))
    else none

/-- Ways past a port out of service (DESIGN CHOICE, log 52): one port aside, toward the destination first, and, where the dimension-ordered route would turn back, on past the port. -/
def sideSteps (s : State) (r src d p : Nat) : List (List Nat) :=
  if p = 1 ∨ p = 3 then [[2, p], [4, p]]
  else
    let qs := if lanternY (routeEnd s src d) < lanternY r then [3, 1] else [1, 3]
    if inward r p then qs.map (fun q => [q]) else qs.map (fun q => [q, p])

/-- The route from router r on past at most m ports out of service and through at most n dimension-ordered ports. -/
def detour (s : State) (src d : Nat) : Nat → Nat → Nat → Option (List (Nat × Nat))
  | _, 0, _ => none
  | m, n + 1, r =>
    let p := xyPort s r src d
    let go := fun (m : Nat) (qs : List Nat) => match followPorts s d r qs with
      | none => none
      | some (ps, none) => some ps
      | some (ps, some r') => (detour s src d m n r').map (ps ++ ·)
    if linksUp s r p ≠ 0 then go m [p]
    else match m with
      | 0 => none
      | k + 1 => (sideSteps s r src d p).findSome? (go k)

/-- Entries with destination d added: an entry of the same port beside it grows, or a new one is added. -/
def coverDest (d p : Nat) : List (Nat × Nat × Nat) → List (Nat × Nat × Nat)
  | [] => [(d, d, p)]
  | e :: es =>
    if e.2.2 = p ∧ e.2.1 + 1 = d then (e.1, d, p) :: es
    else if e.2.2 = p ∧ d + 1 = e.1 then (d, e.2.1, p) :: es
    else e :: coverDest d p es

/-- Router r sends flits for d through port p. -/
def addException (d : Nat) (rp : Nat × Nat) (s : State) : State :=
  if (exceptionFor s rp.1 d).isSome then s else updR s rp.1 (fun R => { R with exceptions := coverDest d rp.2 R.exceptions })

/-- Consecutive ports that flows pass on channel b: from the first exception of each on. -/
def channelB (s : State) (fs : List Flow) : List ((Nat × Nat) × (Nat × Nat)) :=
  fs.flatMap (fun f =>
    let ps := (pathPorts s f.src f.dest).dropWhile (fun rp => (exceptionFor s rp.1 f.dest).isNone)
    ps.zip ps.tail)

/-- No cycle: what remains of edges that lead on, n times over, is empty. -/
def acyclic {α : Type} [BEq α] : Nat → List (α × α) → Bool
  | 0, es => es.isEmpty
  | n + 1, es => acyclic n (es.filter (fun e => es.any (fun g => g.1 == e.2)))

/-- Exceptions for one flow, written when every router keeps at most 16 entries and channel b stays free of cycles (R237). -/
def detourFlow (fs : List Flow) (f : Flow) (s : State) : State :=
  match detour s f.src f.dest 4 160 (sourceLantern s f.src f.dest) with
  | none => s
  | some ps =>
    let s' := forEach (ps.filter (fun rp => xyPort s rp.1 f.src f.dest != rp.2)) (addException f.dest) s
    let es := channelB s' fs
    if ps.all (fun rp => decide ((getR s' rp.1).exceptions.length ≤ 16)) && acyclic es.length es then s' else s

/-- The Lamplighter takes the check values of the exceptions written (11 R352). -/
def sealExceptions (s : State) : State :=
  { s with routers := (s.routers.map (fun e => (e.1, { e.2 with goldExceptions := e.2.exceptions }))).filter (fun e => e.2 != {}) }

/-- The exceptions of every router written afresh for the flows of the loaded programs. -/
def writeExceptions (s : State) : State :=
  let s := forEach ((s.routers.filter (fun e => !e.2.exceptions.isEmpty)).map (·.1)) (fun r => (updR · r (fun R => { R with exceptions := [] }))) s
  let fs := (allFlows s).eraseDups
  sealExceptions (forEach (fs.filter (fun f => (pathPorts s f.src f.dest).any (fun rp => linksUp s rp.1 rp.2 == 0))) (detourFlow fs) s)

/-! ## Permit masks (01 R31, R32; 08 R238) -/

/-- Columns and rows of lanterns, both ends included. -/
structure Box where
  x0 : Nat
  x1 : Nat
  y0 : Nat
  y1 : Nat
  deriving DecidableEq, Repr

/-- Lanterns of a partition's rectangle. -/
def rectBox (p : Partition) : Box := ⟨4 * p.fx0, 4 * (p.fx0 + p.w) - 1, 4 * p.fy0, 4 * (p.fy0 + p.h) - 1⟩
/-- Edge lanterns of a rim tile. -/
def tileBox (t : Nat) : Box :=
  let a := edgeLantern t (4 * (t % 10))
  let b := edgeLantern t (4 * (t % 10) + 3)
  ⟨lanternX a, lanternX b, lanternY a, lanternY b⟩

def clampIn (lo hi v : Nat) : Nat := max lo (min v hi)
def inSpan (lo hi v : Nat) : Bool := decide (lo ≤ v) && decide (v ≤ hi)

/-- Ports of an axis at coordinate v that legs use: up for those that start at a or above and end at b, down for those that start at d or below and end at c. -/
def legBits (up down a b c d v : Nat) : Nat := (if a ≤ v ∧ v < b then 2 ^ up else 0) ||| (if c < v ∧ v ≤ d then 2 ^ down else 0)

/-- Ports at (x, y) on the dimension-ordered routes among the lanterns of B. -/
def bitsWithin (B : Box) (x y : Nat) : Nat :=
  if inSpan B.x0 B.x1 x && inSpan B.y0 B.y1 y then 1 ||| legBits 2 4 B.x0 B.x1 B.x0 B.x1 x ||| legBits 1 3 B.y0 B.y1 B.y0 B.y1 y else 0

/-- Ports at (x, y) on the routes from the lanterns of B to tile t, whose edge lanterns are C. -/
def bitsToTile (B : Box) (t : Nat) (C : Box) (x y : Nat) : Nat :=
  let cols := inSpan (clampIn C.x0 C.x1 B.x0) (clampIn C.x0 C.x1 B.x1) x
  let rows := inSpan (clampIn C.y0 C.y1 B.y0) (clampIn C.y0 C.y1 B.y1) y
  (if inSpan B.y0 B.y1 y then legBits 2 4 B.x0 C.x0 C.x1 B.x1 x else 0)
    ||| (if cols then legBits 1 3 B.y0 C.y0 C.y1 B.y1 y else 0)
    ||| (if cols && rows then 2 ^ (tileSide t + 1) else 0)

/-- Ports at (x, y) on the routes from a tile with edge lanterns C to the lanterns of B. -/
def bitsFromTile (B C : Box) (x y : Nat) : Nat :=
  let rows := inSpan (clampIn C.y0 C.y1 B.y0) (clampIn C.y0 C.y1 B.y1) y
  (if rows then legBits 2 4 C.x1 B.x1 B.x0 C.x0 x else 0) ||| (if inSpan B.x0 B.x1 x then legBits 1 3 C.y1 B.y1 B.y0 C.y0 y else 0)

/-- Tiles a partition's flits may go to or come from: those granted, the intake decryptors whether or not a load is open. -/
def routeTiles (p : Partition) : List Nat := (List.range nTiles).filter (fun t => granted p t || tileIntake t)

/-- Routes from headgate to headgate: first lantern, last lantern, the last one's output port. -/
def tileWays (s : State) (p : Partition) : List (Nat × Nat × Nat) :=
  let ts := routeTiles p
  ts.flatMap (fun t => (ts.filter (fun u => u != t)).map (fun u =>
    (entryLantern s t (destOfTile u), routeEnd s (destOfTile t) (destOfTile u), tileSide u + 1)))

/-- Ports at (x, y) on such a route. -/
def bitsOnWay (w : Nat × Nat × Nat) (x y : Nat) : Nat :=
  let a := w.1
  let e := w.2.1
  (if y = lanternY a then legBits 2 4 (lanternX a) (lanternX e) (lanternX e) (lanternX a) x else 0)
    ||| (if x = lanternX e then legBits 1 3 (lanternY a) (lanternY e) (lanternY e) (lanternY a) y else 0)
    ||| (if x = lanternX e ∧ y = lanternY e then 2 ^ w.2.2 else 0)

/-- Ports of the routes of the loaded flows while exceptions are in force, by router. -/
def detourPorts (s : State) (pn : Nat) : List (Nat × Nat) :=
  if s.routers.all (fun e => e.2.exceptions.isEmpty) then [] else (flowsOf s pn).flatMap (fun f => pathPorts s f.src f.dest)

/-- Is router r inside the quiet rectangle of another partition (01 R32)? -/
def quietOther (s : State) (pn r : Nat) : Bool := (allParts s).any (fun e => e.1 != pn && e.2.quiet && inRect e.2 (fieldOf r))

/-- The permit mask of router r for tag pn: ports on its routes in its rectangle and between its lanterns and headgates, none inside another's quiet rectangle. -/
def maskFor (s : State) (pn : Nat) (p : Partition) (ways : List (Nat × Nat × Nat)) (more : List (Nat × Nat)) (r : Nat) : Nat :=
  if quietOther s pn r then 0 else
  let B := rectBox p
  let x := lanternX r
  let y := lanternY r
  let b := (routeTiles p).foldl (fun b t => b ||| bitsToTile B t (tileBox t) x y ||| bitsFromTile B (tileBox t) x y) (bitsWithin B x y)
  let b := ways.foldl (fun b w => b ||| bitsOnWay w x y) b
  more.foldl (fun b e => if e.1 = r then b ||| 2 ^ e.2 else b) b

/-- Does the Lamplighter apply a change that gives state t: flits of tag pn leave the mesh only toward its tiles, and no other partition holds its Zenden channels (10 R311)? -/
def lampAccepts (pn : Nat) (t : State) : Bool :=
  match getPart t pn with
  | none => true
  | some p =>
    t.routers.all (fun e => [1, 2, 3, 4].all (fun q => match edgeTile e.1 q with
      | some u => !(tget 0 e.2.permit pn).testBit q || granted p u || tileIntake u
      | none => true))
    && (allParts t).all (fun e => e.1 == pn || e.2.zchan &&& p.zchan == 0)

/-- The masks of tag pn in every route table: those of its partition, or none. -/
def maskTables (pn : Nat) (s : State) : State :=
  let mask := match getPart s pn with
    | some p => maskFor s pn p (tileWays s p) (detourPorts s pn)
    | none => fun _ => 0
  { s with routers := (List.range nLanterns).filterMap (fun r =>
      let R := getR s r
      let R := { R with permit := tset 0 R.permit pn (mask r), goldPermit := tset 0 R.goldPermit pn (mask r) }
      if R = {} then none else some (r, R)) }

/-- Module firmware has the masks of tag pn written through the Lamplighter, which refuses a change that R311 does not allow and reports it. -/
def writeMasks (pn : Nat) (s : State) : State :=
  let t := maskTables pn s
  if lampAccepts pn t then t else raiseEv s sevSecurity 0x0503 pn srcLamplighter 0 pn

/-- Every route table written for the partitions and programs there are. -/
def writeRoutes (s : State) : State := forEach ((allParts s).map (·.1)) writeMasks (writeExceptions s)

/-! ## After a repair (08 R248, R250) -/

/-- The route tables are written afresh for the links in service and R248 is checked again: the routes concerned are marked, reported by a WARN record. -/
def recheckRoutes (s : State) : State :=
  let s := writeRoutes s
  let rs := badRoutes s
  let new := rs.filter (fun r => !s.routes.contains r)
  let s := { s with routes := rs }
  new.foldl (fun s r => raiseEv s sevWarn 0x0402 r.2.2.1 srcFirmware 0 (r.1 + r.2.1 * 2048)) s

end Sys2Proof.Machine
end

