-- ==== Sys2Proof/Machine/KvStore.lean ====
section
/-! DEFINITION. Shares, sequence descriptors, pages and the KV walker; the operations of the KV port (07 R203 to R219). -/

namespace Sys2Proof.Machine

/-! ## Descriptors (07 R205) -/

/-- Fields of a sequence descriptor (07 Table 7-1). -/
structure Desc where
  dir : Nat
  hloc : Nat
  w : Nat
  guest : Bool
  state : Nat
  base : Nat
  s : Nat
  j : Nat
  count : Nat
  mark : Nat
  markV : Bool
  rel : Nat
  pages : Nat
  peer : Nat
  caddr : Nat
  layout : Nat
  deriving DecidableEq, Repr

def descOf (x : Line) : Desc :=
  let lay := lineByte x 6
  { dir := lineField x 4 2, hloc := lay % 32 + 1, w := if lay.testBit 5 then 2 else 1, guest := lay.testBit 6, state := lineByte x 7,
    base := lineField x 8 4, s := lineField x 12 2, j := lineField x 14 2, count := lineField x 16 4, mark := lineField x 20 4 % 2 ^ 21,
    markV := (lineField x 20 4).testBit 31, rel := lineField x 24 4, pages := lineField x 28 2, peer := lineField x 30 2,
    caddr := lineField x 32 8, layout := lay }

def descAt (L : Lantern) (d : Nat) : Desc := descOf (padAt L d).data

/-- A field of n bytes of the descriptor at line d takes v. -/
def setDesc (s : State) (l d i n v : Nat) : State :=
  updL s l (fun L => { L with pad := tupd {} L.pad d (fun x => { x with data := lineSet x.data i n v }) })

/-- The descriptor lies in the cache table region and is ACTIVE (07 R206). -/
def descOk (L : Lantern) (d : Nat) : Bool :=
  decide (L.ctBase ≤ d) && decide (d < L.ctBase + L.ctCount) && (descAt L d).state == 1

/-- Page depth T (07 Table 7-2). -/
def pageDepth (d : Desc) : Nat := 256 / (2 * d.w * d.hloc)

/-- Local index of a position, when it belongs to the share (07 R203). -/
def localIndex (d : Desc) (p : Nat) : Option Nat :=
  let t := pageDepth d
  if d.base ≤ p ∧ (p - d.base) / t % d.s = d.j then some ((p - d.base) / (d.s * t) * t + (p - d.base) % t) else none

/-- Counters of a descriptor after the KV-port instructions of a queue: COUNT, MARK, mark valid, REL. -/
def countOver (L : Lantern) (d : Nat) (q : List EngEntry) : Nat × Nat × Bool × Nat :=
  let k := descAt L d
  q.foldl (fun r x => match x.op with
    | .kapp _ e _ _ _ => if e = d then (r.1 + 1, r.2) else r
    | .kmark e => if e = d then (r.1, r.1, true, r.2.2.2) else r
    | .krew e => if e = d then (if r.2.2.1 then r.2.1 else r.2.2.2, r.2) else r
    | .krel e => if e = d then (r.1, r.2.1, false, r.1) else r
    | _ => r) (k.count, k.mark, k.markV, k.rel)

/-- The same after every KV-port instruction issued. -/
def countAhead (L : Lantern) (d : Nat) : Nat × Nat × Bool × Nat := countOver L d (getEng L 6).q

/-! ## Pages and the walker (07 R207 to R210) -/

/-- A 16-bit entry of a line of the cache table region. -/
def tableEntry (L : Lantern) (a n : Nat) : Nat := lineField (padAt L a).data (2 * n) 2

/-- A read of a line of the cache table region: a parity mismatch is counted and reported, a poisoned delivery counted (04 R119; 05 R160; 07 R204). Its poison reaches nothing (DESIGN CHOICE, log 51: 05 Table 5-7 has no row for it). -/
def tableRead (s : State) (l a : Nat) : State :=
  let x := padAt (getL s l) a
  (deliver s l 0 a x.poison x.parBad).1

/-- Directory entry of local page x, and its page entry (07 R208). -/
def dirLine (k : Desc) (x : Nat) : Nat := k.dir + x / 34 / 34
def dirEntry (L : Lantern) (k : Desc) (x : Nat) : Nat := tableEntry L (dirLine k x) (x / 34 % 34)

/-- Page number of local page x by the tables (07 R208, R209). -/
def walk (L : Lantern) (k : Desc) (x : Nat) : Option Nat :=
  let e := dirEntry L k x
  let p := tableEntry L e (x % 34)
  if k.pages ≤ x ∨ e = 0 ∨ p < 32768 ∨ 1279 < p % 2048 then none else some (p % 2048)

/-- The two reads of a walk, the second only where the directory entry is present (07 R209). -/
def walkReads (s : State) (l : Nat) (k : Desc) (x : Nat) : State :=
  if k.pages ≤ x then s else
  let e := dirEntry (getL s l) k x
  let s := tableRead s l (dirLine k x)
  if e = 0 then s else tableRead s l e

/-- Page number that the look-aside buffer holds for local page x of the share at d (07 R210). -/
def aside (L : Lantern) (d x : Nat) : Option Nat := (L.lookaside.find? (fun e => e.1 == d && e.2.1 == x)).map (·.2.2)

/-- The look-aside buffer with an entry most recently used (07 R210). -/
def touchEntry (b : List (Nat × Nat × Nat)) (d x p : Nat) : List (Nat × Nat × Nat) :=
  ((d, x, p) :: b.filter (fun e => !(e.1 == d && e.2.1 == x))).take 64

/-- Resolve a local page through the look-aside buffer, which then holds it; none: the access traps (R209). -/
def resolveOne (s : State) (l d x : Nat) : Option (State × Nat) :=
  let k := descAt (getL s l) d
  let hit := aside (getL s l) d x
  let s := if hit.isSome then s else walkReads s l k x
  match hit.orElse (fun _ => walk (getL s l) k x) with
  | none => none
  | some p => some (updL s l (fun L => { L with lookaside := touchEntry L.lookaside d x p }), p)

/-- A read or write resolves its page, and the walker the next page of the share ahead of use (07 R210). -/
def resolve (s : State) (l d x : Nat) : Option (State × Nat) :=
  match resolveOne s l d x with
  | none => none
  | some (s, p) =>
    let s := match resolveOne s l d (x + 1) with
      | some (s, _) => s
      | none => s
    some (updL s l (fun L => { L with lookaside := touchEntry L.lookaside d x p }), p)

/-- Address of line (c, i) of a share in page p (07 R207). -/
def kvAddr (k : Desc) (p c i : Nat) : Nat := p * 256 + (c * pageDepth k + i) % 256

/-- Read of a line of the key/value store, with what its delivery counts. -/
def readKv (s : State) (l a : Nat) : State × Line × Bool :=
  let x := tget {} (getL s l).kv a
  let (s, p) := deliver s l 1 a x.poison x.parBad
  (s, x.data, p)

def writeKv (s : State) (l a : Nat) (x : Line) (poison : Bool) : State :=
  updL s l (fun L => { L with kv := tset {} L.kv a ⟨x, poison, false⟩ })

/-- Lines of columns cs of local index i of the share at d; none: the walk traps. -/
def readShare (l d i : Nat) : List Nat → State → Option (State × List (Line × Bool))
  | [], s => some (s, [])
  | c :: cs, s =>
    let k := descAt (getL s l) d
    match resolve s l d (i / pageDepth k) with
    | none => none
    | some (s, p) =>
      let (s, x, b) := readKv s l (kvAddr k p c i)
      match readShare l d i cs s with
      | some (s, rest) => some (s, (x, b) :: rest)
      | none => none

/-- Lines of all columns of local indices first to first + n - 1, in index order (07 R216). -/
def readIndices (l d : Nat) : Nat → Nat → State → Option (State × List (Line × Bool))
  | _, 0, s => some (s, [])
  | i, n + 1, s =>
    let k := descAt (getL s l) d
    match readShare l d i (List.range (2 * k.w * k.hloc)) s with
    | none => none
    | some (s, xs) => match readIndices l d (i + 1) n s with
      | some (s, rest) => some (s, xs ++ rest)
      | none => none

/-- Writes of columns from c on of local index i. -/
def writeShare (l d i : Nat) : Nat → List (Line × Bool) → State → Option State
  | _, [], s => some s
  | c, x :: xs, s =>
    let k := descAt (getL s l) d
    match resolve s l d (i / pageDepth k) with
    | none => none
    | some (s, p) => writeShare l d i (c + 1) xs (writeKv s l (kvAddr k p c i) x.1 x.2)

/-! ## Order of KV accesses (05 R139, R165) -/

/-- One cycle of a phase: head, first member, members, first token, tokens. -/
structure Cycle where
  head : Nat
  m0 : Nat
  r : Nat
  t0 : Nat
  cnt : Nat
  /-- last cycle of its query group. -/
  fin : Bool
  deriving DecidableEq, Repr

/-- Smallest power of two not below r, at most 8. -/
def groupQ (r : Nat) : Nat := if r ≤ 1 then 1 else if r ≤ 2 then 2 else if r ≤ 4 then 4 else 8

/-- The cycles of a phase in order (05 R166): heads, query groups of at most 8, tokens. -/
def phaseCycles (g h n w : Nat) : List Cycle :=
  (List.range h).flatMap (fun a => (List.range ((g + 7) / 8)).flatMap (fun b =>
    let r := min 8 (g - 8 * b)
    let c := 64 / groupQ r / w
    let k := (n + c - 1) / c
    (List.range k).map (fun i => ⟨a, 8 * b, r, i * c, min c (n - i * c), decide (i + 1 = k)⟩)))

/-- Key (k = 0) or value (k = 1) columns of a head. -/
def headCols (k : Desc) (h kv : Nat) : List Nat := (List.range k.w).map (fun u => (2 * h + kv) * k.w + u)

/-- Store lines of columns cs of local index i of the share at d; none where its page does not resolve. -/
def shareLines (L : Lantern) (d i : Nat) (cs : List Nat) : List Nat :=
  let k := descAt L d
  let x := i / pageDepth k
  match (aside L d x).orElse (fun _ => walk L k x) with
  | some p => cs.map (fun c => kvAddr k p c i)
  | none => []

/-- Store lines that cycles of a phase read. -/
def phaseLines (L : Lantern) (d kv first h0 : Nat) (cs : List Cycle) : List Nat :=
  cs.flatMap (fun c => (List.range c.cnt).flatMap (fun t => shareLines L d (first + c.t0 + t) (headCols (descAt L d) (h0 + c.head) kv)))

/-- Store lines that the appends issued before seq are still to write. -/
def earlierWrites (L : Lantern) (seq : Nat) : List Nat :=
  let q := (getEng L 6).q
  q.flatMap (fun x => match x.op with
    | .kapp _ d _ _ _ =>
      let k := descAt L d
      if x.seq < seq then shareLines L d (countOver L d (q.filter (fun y => decide (y.seq < x.seq)))).1 (List.range (2 * k.w * k.hloc)) else []
    | _ => [])

/-- Store lines that the phases issued before seq are still to read. -/
def earlierReads (L : Lantern) (seq : Nat) : List Nat :=
  (getEng L 3).q.flatMap (fun x => if seq ≤ x.seq then [] else match x.op with
    | .ascr d g _ first n h0 h i => phaseLines L d 0 first h0 ((phaseCycles g h n (descAt L d).w).drop i)
    | .aval d g _ _ first n h0 h _ i => phaseLines L d 1 first h0 ((phaseCycles g h n (descAt L d).w).drop i)
    | _ => [])

/-- Have two lists of store lines a line in common? -/
def common (xs ys : List Nat) : Bool := !ys.isEmpty && xs.any (fun a => ys.contains a)

/-! ## Operations of the KV port -/

/-- Source elements of a KAPP with their poison (07 R212). -/
def kappElems (bf : Bool) (n : Nat) (xs : List (Line × Bool)) : List (FV × Bool) :=
  (List.range n).map (fun i =>
    let e := if bf then 34 else 17
    let x := xs.getD (i / e) (0, false)
    (decode32 (if bf then elemBF x.1 (i % e) else elem32 x.1 (i % e)), x.2))

/-- KAPP (07 R212, R213): keys and values of one position quantised and appended, after earlier reads of the lines it writes (05 R165). -/
def runKapp (l seq a d pos heads : Nat) (bf : Bool) (xs : List (Line × Bool)) (s : State) : EngTry :=
  let L := getL s l
  let k := descAt L d
  if common (shareLines L d k.count (List.range (2 * k.w * k.hloc))) (earlierReads L seq) then .wait 0x0F (.kapp a d pos heads bf) s
  else
    let ty := if k.w = 2 then 2 else 1
    let per := 128 / k.w
    let ys := (chunks per (2 * k.w * k.hloc) (kappElems bf (k.hloc * 256) xs)).map (fun c =>
      (packLine ty (c.map (·.1)), c.any (·.2)))
    let s2 := countL s l 0x28 (ys.map (fun y => y.1.2.1)).sum
    let s2 := countL s2 l 0x29 (ys.map (fun y => y.1.2.2)).sum
    match writeShare l d k.count 0 (ys.map (fun y => (y.1.1, y.2))) s2 with
    | none => .trap causeRange d s
    | some s3 => .done (setDesc s3 l d 16 4 (k.count + 1))

/-- KMARK (07 Table 7-3). -/
def runKmark (l d : Nat) (s : State) : EngTry :=
  .done (setDesc s l d 20 4 ((descAt (getL s l) d).count % 2 ^ 21 + 2 ^ 31))
/-- KREW (07 Table 7-3). -/
def runKrew (l d : Nat) (s : State) : EngTry :=
  let k := descAt (getL s l) d
  .done (setDesc s l d 16 4 (if k.markV then k.mark else k.rel))
/-- KREL (07 Table 7-3). -/
def runKrel (l d : Nat) (s : State) : EngTry :=
  let k := descAt (getL s l) d
  .done (setDesc (setDesc s l d 24 4 k.count) l d 20 4 (k.mark % 2 ^ 21))

/-- Pages x, x + 1, ... resolved in order (07 R211). -/
def walkPages (l d : Nat) : Nat → Nat → State → EngTry
  | _, 0, s => .done s
  | x, n + 1, s => match resolveOne s l d x with
    | none => .trap causeRange d s
    | some (s, _) => walkPages l d (x + 1) n s

/-- KWALK: at most 64 pages (07 R211). -/
def runKwalk (l d first n : Nat) (s : State) : EngTry :=
  let t := pageDepth (descAt (getL s l) d)
  walkPages l d (first / t) (min 64 ((first + n - 1) / t - first / t + 1)) s

/-- LAYOUT as a header gives it: without GUEST (07 Table 7-5). -/
def plainLayout (k : Desc) : Nat := k.layout - (if k.guest then 64 else 0)

/-- Header line of a KV message (07 Table 7-5). -/
def kvHeader (layout base s j desc first n caddr : Nat) : Line :=
  BitVec.ofNat 544 (desc + layout * 2 ^ 16 + base * 2 ^ 32 + s * 2 ^ 64 + j * 2 ^ 80 + first * 2 ^ 96 + n * 2 ^ 128 + caddr * 2 ^ 144)

/-- Flits of a KV message: the header, then the lines of type ty, the last with LAST (07 R215, R216). -/
def kvFlits (l ty : Nat) (head : Line) (xs : List (Line × Bool)) : List Flit :=
  let m := xs.length
  mkFlit l 1 0 1 0 0xA false false head :: (xs.zip (List.range m)).map (fun (x, i) => mkFlit l 1 0 1 1 ty (decide (i + 1 = m)) x.2 x.1)

/-- The message that moves lines of the share of a descriptor. -/
def kvMessage (l : Nat) (k : Desc) (desc first n caddr : Nat) (xs : List (Line × Bool)) : List Flit :=
  kvFlits l (if k.w = 2 then 2 else 1) (kvHeader (plainLayout k) k.base k.s k.j desc first n caddr) xs

/-- KXFR (07 R216): a KV message through a sluice entry, or a copy to the scratchpad. -/
def runKxfr (l a d ent first n : Nat) (copy : Bool) (s : State) : EngTry :=
  match readIndices l d first n s with
  | none => .trap causeRange d s
  | some (s1, xs) =>
    let k := descAt (getL s l) d
    if copy then .more (.emit a (resultLines xs (if k.w = 2 then 2 else 1))) s1
    else if !slDestOk s l ent then .trap causeRange ent s
    else
      let dest := (getSl (getL s l) ent).dest
      let cis := match tileOfDest dest with | some t => tileCistern t | none => false
      .more (.inject ent (kvMessage l k (if cis then 0 else k.peer) first n (if cis then k.caddr else 0) xs)) s1

end Sys2Proof.Machine
end

