-- ==== Sys2Proof/Machine/KvIntake.lean ====
section
/-! DEFINITION. KV messages that arrive at a lantern: intake channels, checks, writes, acknowledgements (07 R215 to R219, R231). -/

namespace Sys2Proof.Machine

/-- KV intake channel whose producer is the source (07 R217, R231). -/
def intakeOf (L : Lantern) (src : Nat) : Option Nat :=
  (L.intakes.find? (fun e => e.2.used && srcMain e.2.producer == srcMain src)).map (·.1)

/-- A KV flit from no channel's producer, or to a full channel (07 R217). -/
def kvViolation (l : Nat) (f : Flit) (s : State) : State := trapNow (countL s l 0x33 1) l causeCredit f.src

def setIntake (s : State) (l j : Nat) (f : Intake → Intake) : State := updL s l (fun L => { L with intakes := tupd {} L.intakes j f })

/-- An XACK of lantern l to the producer of channel j. -/
def sendXack (l j n : Nat) (last : Bool) (s : State) : State :=
  let k := tget {} (getL s l).intakes j
  injectL s l 6 (mkFlit l k.cls k.producer 1 2 0xA false false (xackLine n last))

/-- Checks of a header against its descriptor (07 R218; MOVING on channel 4, R231). -/
def headerOk (L : Lantern) (j : Nat) (x : Line) : Bool :=
  let d := lineField x 0 2
  let k := descAt L d
  let guestFree := k.guest && k.count == 0
  let n := lineField x 16 2
  let first := lineField x 12 4
  decide (L.ctBase ≤ d) && decide (d < L.ctBase + L.ctCount) && (k.state == 1 || (j == 4 && k.state == 2))
    && lineByte x 2 == plainLayout k && lineField x 8 2 == k.s && lineField x 10 2 == k.j
    && (guestFree || lineField x 4 4 == k.base) && first == k.count
    && decide ((first + n + pageDepth k - 1) / pageDepth k ≤ k.pages)

/-- The KV port takes a message of channel j, or takes none. -/
def setKvNow (s : State) (l : Nat) (j : Option Nat) : State := updL s l (fun L => { L with kvNow := j })

/-- A message is rejected: the lantern traps and the rest of it is discarded (07 R218). -/
def rejectMsg (l j : Nat) (m : KvMsg) (s : State) : State :=
  setKvNow (setIntake (trapNow s l causeRange m.desc) l j (fun k => { k with msg := some { m with rejected := true } })) l none

/-- XHDR (07 R218): a transfer header opens a message on its channel, and the KV port takes that message. -/
def takeHeader (l j : Nat) (f : Flit) (s : State) : State :=
  let d := lineField f.line 0 2
  let m : KvMsg := ⟨d, lineField f.line 12 4, lineField f.line 16 2, 0, 0, false⟩
  let s := tableRead s l d
  if headerOk (getL s l) j f.line then
    let k := descAt (getL s l) d
    let s := if k.guest && k.count == 0 then setDesc s l d 8 4 (lineField f.line 4 4) else s
    setKvNow (setIntake s l j (fun k => { k with msg := some m })) l (some j)
  else rejectMsg l j m s

/-- XDATA (07 R217, R218): a line of the message in progress is written; XACKs after every 16 lines and at the end. -/
def takeData (l j : Nat) (f : Flit) (s : State) : State :=
  match (tget {} (getL s l).intakes j).msg with
  | none => countL s l 0x33 1
  | some m =>
    if m.rejected then setIntake s l j (fun k => { k with msg := if f.last then none else some m }) else
    let k := descAt (getL s l) m.desc
    let cols := 2 * k.w * k.hloc
    match writeShare l m.desc (m.first + m.written / cols) (m.written % cols) [(f.line, f.poison)] s with
    | none => rejectMsg l j m s
    | some s =>
      let m := { m with written := m.written + 1, unacked := m.unacked + 1 }
      let (s, m) := if m.unacked = 16 then (sendXack l j 16 false s, { m with unacked := 0 }) else (s, m)
      if m.written = m.n * cols then
        let s := setDesc s l m.desc 16 4 (m.first + m.n)
        setKvNow (setIntake (sendXack l j (m.unacked + 1) true s) l j (fun k => { k with msg := none })) l none
      else setIntake s l j (fun k => { k with msg := some m })

/-- Is a message of module firmware on its way from the KV port (07 R228)? -/
def moving (L : Lantern) : Bool := L.move.any (fun m => m.flits.isSome)

/-- Is the KV port between its instructions (07 R219)? It is inside one that has read a line, is writing or sending, or waits for its final XACK; a message of module firmware counts as one. -/
def kvPortFree (L : Lantern) : Bool :=
  !moving L && match (getEng L 6).q with
  | [] => true
  | x :: _ => x.got.isEmpty && (match x.op with
    | .inject _ _ => false
    | .emit _ _ => false
    | .kxfrAck _ => false
    | _ => true)

/-- The arrival that the KV port takes next, in arrival order: of the message it is taking, else the oldest (07 R219). -/
def nextKv (L : Lantern) : Option (Nat × Flit) :=
  L.kvIn.find? (fun e => match L.kvNow with | some j => e.1 == j | none => true)

/-- One arrival taken. -/
def takeKv (l : Nat) (e : Nat × Flit) (s : State) : State :=
  let s := updL s l (fun L => { L with kvIn := L.kvIn.erase e })
  if e.2.sub = 0 then takeHeader l e.1 e.2 s else takeData l e.1 e.2 s

/-- The KV port, between its instructions, takes the arrivals that wait: n at most. -/
def serveArrivals (l : Nat) : Nat → State → State
  | 0, s => s
  | n + 1, s =>
    if !kvPortFree (getL s l) then s
    else match nextKv (getL s l) with
    | none => s
    | some e => serveArrivals l n (takeKv l e s)

/-- Every arrival that the KV port can take now. -/
def serveKv (l : Nat) (s : State) : State := serveArrivals l (getL s l).kvIn.length s

/-- May the KV port start an instruction of its own: no message is in progress (07 R219, R228)? -/
def kvPortOpen (L : Lantern) : Bool := L.kvNow.isNone && !moving L

/-! ## Messages of module firmware to the cistern (07 R228, R231) -/

/-- The message of module firmware that lantern l sends. -/
def setMove (s : State) (l : Nat) (m : Option KvMove) : State := updL s l (fun L => { L with move := m })

/-- Its flits leave while the management sluice entry has credits. -/
def feedMove (l : Nat) (s : State) : State :=
  match (getL s l).move with
  | some m =>
    match m.flits with
    | some (f :: fs) =>
      match sendFlits l 7 32 (f :: fs) s with
      | .done s => setMove s l (some { m with flits := some [] })
      | .wait _ (.inject _ rest) s => setMove s l (some { m with flits := some rest })
      | _ => s
    | _ => s
  | none => s

/-- The KV port takes the message of module firmware that waits, between its instructions. -/
def startMove (l : Nat) (s : State) : State :=
  match (getL s l).move with
  | some m =>
    if m.flits.isSome || !kvPortFree (getL s l) || !kvPortOpen (getL s l) then s
    else match readIndices l m.desc m.first m.n s with
    | none => trapNow (setMove s l none) l causeRange m.desc
    | some (t, xs) => feedMove l (setMove t l (some { m with flits := some (kvMessage l (descAt (getL s l) m.desc) 0 m.first m.n m.caddr xs) }))
  | none => s

/-- What the KV port does between its instructions: the arrivals, then a message of module firmware. -/
def portWork (l : Nat) (s : State) : State := startMove l (serveKv l s)

end Sys2Proof.Machine
end

