-- ==== Sys2Proof/Machine/Shares.lean ====
section
/-! DEFINITION. The shares of a sequence: pages reserved, descriptors bound, moved and given up at step boundaries, page images in the cistern (00 R4; 07 R203 to R208, R227 to R231). -/

namespace Sys2Proof.Machine

/-! ## Lines of the cistern (00 R4) -/

/-- Place of a line: its address on its channel. -/
def cisternPlace (ch addr : Nat) : Nat := addr * 16 + ch

/-- Cistern channel of a headgate: N0 to N9, then S0 and S9 (01 Table 1-4). -/
def channelOf (t : Nat) : Nat := if t < 10 then t else if t = 20 then 10 else 11
/-- Headgate of a channel. -/
def channelTile (c : Nat) : Nat := if c < 10 then c else if c = 10 then 20 else 29

/-- Does what is sealed under a draw of the cistern key, at a place, pass authentication now (00 R4; 10 Table 10-2)? -/
def authentic (s : State) (sealed place : Nat) : Bool := sealed == s.sec.cisternKey && sealed != 0 && Config.cisternIntact place (nowNs s)

/-- A line goes to the cistern, sealed. -/
def cisternWrite (s : State) (ch addr : Nat) (x : Line) (poison : Bool) : State :=
  { s with cistern := tset {} s.cistern (cisternPlace ch addr) ⟨x, poison, s.sec.cisternKey⟩ }

/-- A line of the cistern with its poison; none where it fails authentication. -/
def cisternRead (s : State) (ch addr : Nat) : Option (Line × Bool) :=
  let x := tget {} s.cistern (cisternPlace ch addr)
  if authentic s x.sealed (cisternPlace ch addr) then some (x.data, x.poison) else none

/-- Channel and address of line i of image k of a context: images go to CH0 to CH11 in turn (07 R229), one after the other on a channel (DESIGN CHOICE, log 51). -/
def imageAt (tag k i : Nat) : Nat × Nat := (k % 12, (tag * 2 ^ 20 + k / 12) * 256 + i)

/-- The page images of a context are erased. -/
def dropImages (s : State) (tag : Nat) : State :=
  { s with cistern := s.cistern.filter (fun e => e.1 / 2 ^ 32 != tag) }

/-! ## Reservation (07 R203, R227) -/

/-- Heads and lines per head of a LAYOUT byte, and its page depth (07 Tables 7-1, 7-2). -/
def layoutCols (lay : Nat) : Nat := 2 * (if lay.testBit 5 then 2 else 1) * (lay % 32 + 1)
def layoutDepth (lay : Nat) : Nat := 256 / layoutCols lay

/-- Local indices of a share that the positions from its BASE to n - 1 take (07 R203). -/
def shareCount (r : ShareRec) (n : Nat) : Nat :=
  let t := layoutDepth r.layout
  (n - r.base) / (r.s * t) * t + min t ((n - r.base) % (r.s * t) - r.j * t)

/-- Pages that hold n local indices at depth t. -/
def pagesFor (n t : Nat) : Nat := (n + t - 1) / t

/-- Lines of the cache table region that a share of n pages takes: its descriptor, directory lines, page-table lines (07 R208). -/
def directoryLines (n : Nat) : Nat := (n + 1155) / 1156
def tableLines (n : Nat) : Nat := (n + 33) / 34

/-- Shares bound to lantern l in a partition. -/
def sharesOn (p : Partition) (l : Nat) : List Share := (p.reqs.flatMap (·.shares) ++ p.freeing).filter (fun h => h.lantern == l)

/-- First n pages that no share holds (07 R227; lowest first, DESIGN CHOICE, log 51). -/
def freePages (held : List Share) (n : Nat) : Option (List Nat) :=
  let xs := ((List.range 1280).filter (fun g => !held.any (fun h => h.pages.contains g))).take n
  if xs.length = n then some xs else none

/-- First place in the cache table region of a lantern for n lines that no share uses. -/
def freeTable (L : Lantern) (held : List Share) (n : Nat) : Option Nat :=
  ((L.ctBase :: held.map (fun h => h.desc + h.lines)).filter (fun a =>
    decide (a + n ≤ L.ctBase + L.ctCount) && held.all (fun h => decide (a + n ≤ h.desc) || decide (h.desc + h.lines ≤ a)))).min?

/-- A share of positions up to n on lantern l beside those that hold pages there. -/
def takeShare (s : State) (held : List Share) (l n : Nat) (r : ShareRec) : Option Share :=
  let k := pagesFor (shareCount r n) (layoutDepth r.layout)
  let lines := 1 + directoryLines k + tableLines k
  match freePages held k, freeTable (getL s l) held lines with
  | some g, some a => some ⟨l, a, lines, g, r⟩
  | _, _ => none

/-- Shares of a sequence with pages for positions up to n: field index, slot and record of each; none where one finds no room. -/
def reserve (s : State) (p : Partition) (n : Nat) : List (Nat × Nat × ShareRec) → List Share → Option (List Share)
  | [], got => some got
  | (f, k, r) :: xs, got =>
    match (slotLantern s ((p.fy0 + f / p.w) * 10 + p.fx0 + f % p.w) k).bind (fun l =>
        takeShare s (sharesOn p l ++ got.filter (fun h => h.lantern == l)) l n r) with
    | some h => reserve s p n xs (got ++ [h])
    | none => none

/-- Where the shares of a sequence lie under a cache layout digest, as the program has them. -/
def sharePlan (layout : BitVec 384) : List (Nat × Nat × ShareRec) :=
  (Config.cacheShares layout).map (fun (f, k, lay, n, j) => (f, k, ⟨lay, 0, n, j, 0⟩))

/-- The same with the recorded fields of a context (07 R230). -/
def recordPlan (layout : BitVec 384) (rs : List ShareRec) : List (Nat × Nat × ShareRec) :=
  ((sharePlan layout).zip rs).map (fun (e, r) => (e.1, e.2.1, r))

/-! ## Descriptors (07 R205, R206, R208) -/

/-- A line of 34 entries of 16 bits. -/
def entryLine (xs : List Nat) : Line := BitVec.ofNat 544 (natOfDigits 16 xs)

/-- Descriptor, directory and page-table lines of a share, in the order they lie. -/
def shareTable (seq : BitVec 32) (st : Nat) (h : Share) : List Line :=
  let n := h.pages.length
  let d := directoryLines n
  let desc := seq.toNat + (h.desc + 1) * 2 ^ 32 + h.of.layout * 2 ^ 48 + st * 2 ^ 56 + h.of.base * 2 ^ 64 + h.of.s * 2 ^ 96 + h.of.j * 2 ^ 112 + n * 2 ^ 224
  BitVec.ofNat 544 desc
    :: (chunks 34 d ((List.range (tableLines n)).map (fun i => h.desc + 1 + d + i))).map entryLine
    ++ (chunks 34 (tableLines n) (h.pages.map (· + 2 ^ 15))).map entryLine

/-- Management writes of lines from a on into the cache table region: the look-aside buffer forgets (07 R210). -/
def tableWrite (s : State) (l a : Nat) (xs : List Line) : State :=
  updL s l (fun L => { L with
    pad := (xs.zipIdx).foldl (fun m (x, i) => tset {} m (a + i) ⟨x, false, false, false, 0xA⟩) L.pad, lookaside := [] })

/-- A share is bound to its descriptor, every field written (07 R205). -/
def bindShare (seq : BitVec 32) (st : Nat) (h : Share) (s : State) : State := tableWrite s h.lantern h.desc (shareTable seq st h)

/-- Its STATE changes (07 R206). -/
def setShareState (st : Nat) (h : Share) (s : State) : State :=
  updL (setDesc s h.lantern h.desc 7 1 st) h.lantern (fun L => { L with lookaside := [] })

/-- A share goes to MOVING, its mark dropped (07 R228). -/
def movingShare (h : Share) (s : State) : State := setShareState 2 h (setDesc s h.lantern h.desc 23 1 0)

/-- What a share holds now (07 R229). -/
def shareRec (s : State) (h : Share) : ShareRec := { h.of with count := (descAt (getL s h.lantern) h.desc).count }

/-- Pages of a cache. -/
def recPages (rs : List ShareRec) : Nat := (rs.map (fun r => pagesFor r.count (layoutDepth r.layout))).sum

/-- The pages of a cache as moves, one message each, in image order (07 R229, R231). -/
def pageMoves (rs : List ShareRec) : List PageMove :=
  (rs.zipIdx.flatMap (fun (r, i) =>
    let t := layoutDepth r.layout
    (List.range (pagesFor r.count t)).map (fun x => (i, x * t, min t (r.count - x * t))))).zipIdx.map (fun (m, k) => ⟨m.1, m.2.1, m.2.2, k⟩)

/-! ## Step boundaries (07 R206, R228, R230) -/

/-- A sequence at a step boundary: bound, taken to MOVING, or ACTIVE again. store: its cache is to go to the cistern. -/
def boundaryReq (store : Request → Bool) (pn : Nat) (r : Request) (s : State) : State :=
  match r.stage with
  | .bind =>
    let s := forEach r.shares (bindShare r.seq (if r.resuming then 2 else 1)) s
    updReq s pn r.tag (fun r => { r with stage := if r.resuming then .back (pageMoves (r.shares.map (·.of))) [] false else .live })
  | .live =>
    if store r && !r.inPass && !r.resuming then
      let s := forEach r.shares movingShare s
      updReq s pn r.tag (fun r => { r with stage := .out (pageMoves (r.shares.map (shareRec s))) [] })
    else s
  | .ready => updReq (forEach r.shares (setShareState 1) s) pn r.tag (fun r => { r with stage := .live, resuming := false, inPass := r.state == .prefill })
  | _ => s

/-- Shares given up go IDLE, their pages return (07 R206, R214). -/
def freeNow (s : State) (pn : Nat) : State :=
  match getPart s pn with
  | none => s
  | some p => updPart (forEach p.freeing (setShareState 0) s) pn (fun p => { p with freeing := [] })

/-- The sequences of a partition at a step boundary. -/
def boundaryShares (store : Request → Bool) (pn : Nat) (s : State) : State :=
  match getPart s pn with
  | none => s
  | some p => freeNow (forEach p.reqs (boundaryReq store pn) s) pn

/-- A request gives its shares up: at the next step boundary, or at once while no step program runs. -/
def giveUp (pn : Nat) (tag : BitVec 64) (s : State) : State :=
  match getPart s pn with
  | none => s
  | some p =>
    let s := updPart s pn (fun p => { p with
      freeing := p.freeing ++ (p.reqs.filter (fun r => r.tag == tag)).flatMap (·.shares)
      reqs := lmap (fun r => r.tag == tag) (fun r => { r with shares := [] }) p.reqs })
    if p.running then s else freeNow s pn

/-! ## Moves on their way (07 R228, R231) -/

/-- Is a page of the stage on its way? -/
def stageBusy (r : Request) : Bool :=
  match r.stage with
  | .out _ busy => !busy.isEmpty
  | .back _ busy _ => !busy.isEmpty
  | _ => false

/-- Lantern of a page of a request. -/
def moveLantern (r : Request) (m : PageMove) : Nat := (r.shares.map (·.lantern)).getD m.share 1600

/-- The message of lantern l has ended, to the cistern or from it. -/
def pageDone (s : State) (pn l : Nat) (toCistern : Bool) : State :=
  updPart s pn (fun p => { p with reqs := p.reqs.map (fun r =>
    match r.stage with
    | .out todo busy => if toCistern then { r with stage := .out todo (busy.filter (fun m => moveLantern r m != l)) } else r
    | .back todo busy failed => if toCistern then r else { r with stage := .back todo (busy.filter (fun m => moveLantern r m != l)) failed }
    | _ => r) })

end Sys2Proof.Machine
end

