-- ==== Sys2Proof/Machine/Fabric.lean ====
section
/-! DEFINITION. Flits in the furrows: hops, the weir, scheduled ports, CRC mismatches, lane tests, management writes (08 R232 to R254). -/

namespace Sys2Proof.Machine

/-! ## Credits and headgates -/

/-- A flit enters the output port of headgate t toward its edge routers: counted (source 0x61), INJ set (08 R249). -/
def launchT (s : State) (t : Nat) (f : Flit) : State :=
  countT (updT s t (fun T => { T with tx := T.tx ++ [{ f with inj := injNow s (tileIsland t) f }] })) t 0x61 1

/-- Headgate t injects a flit for a partition; a class-0 flit may be held by the weir (08 R247). -/
def injectT (s : State) (t : Nat) (f : Flit) : State :=
  let T := getT s t
  if f.cls = 0 then
    let last := tget 0 T.weirLast f.part
    if !T.weirHeld.any (fun g => g.part == f.part) && (last == 0 || weirOpen (some (last - 1)) (tget 0 T.weirK f.part) (nowNs s)) then
      launchT (updT s t (fun T => { T with weirLast := tset 0 T.weirLast f.part (nowNs s + 1) })) t f
    else updT s t (fun T => { T with weirHeld := T.weirHeld ++ [f] })
  else launchT s t f

/-- Headgate t sends a line through entry key (partition * 16 + entry): waits while the entry has no credit (05 R156; 06 R173). -/
def sendT (s : State) (t key : Nat) (f : Flit) : State :=
  let e := tget {} (getT s t).entries key
  if e.credits = 0 ∨ (getT s t).held.any (fun h => h.1 == key) then updT s t (fun T => { T with held := T.held ++ [(key, f)] })
  else injectT (updT s t (fun T => { T with entries := tset {} T.entries key { e with credits := e.credits - 1 } })) t f

/-- Flits held for want of credits leave while their entries have some; n bounds their number. -/
def releaseHeld (t : Nat) : Nat → State → State
  | 0, s => s
  | n + 1, s =>
    let T := getT s t
    match T.held.find? (fun h => decide (0 < (tget {} T.entries h.1).credits)) with
    | none => s
    | some h =>
      let s := updT s t (fun T => { T with held := T.held.erase h, entries := tupd {} T.entries h.1 (fun e => { e with credits := e.credits - 1 }) })
      releaseHeld t n (injectT s t h.2)

/-- A flit of a headgate, tagged with the partition it is for. -/
def tileFlit (t pn : Nat) (cls : Fin 4) (dest : Nat) (kind : Fin 8) (sub fmt : Nat) (x : Line) : Flit :=
  { mkFlit (1600 + t) cls dest kind sub fmt false false x with tag := BitVec.ofNat 4 pn }

/-! ## Cistern headgates (07 R216, R217, R231) -/

/-- n more credits for entry key of headgate t, at most its grant: what waits for them leaves (05 R156; 06 R173, R186; 07 R217). -/
def addTileCredits (t key n : Nat) (s : State) : State :=
  releaseHeld t ((getT s t).held.length) (updT s t (fun T => { T with entries := tupd {} T.entries key (fun e => { e with credits := min e.grant (e.credits + n) }) }))

/-- Entry key of the messages that a cistern headgate sends to lantern l, with a grant of 64 (07 R231). -/
def pageKey (l : Nat) : Nat := 4096 + l

/-- XACK at a cistern headgate: credits for the message it sends; the final one ends it (07 R217, R231). -/
def cisternXack (s : State) (t : Nat) (f : Flit) : State :=
  let s := addTileCredits t (pageKey f.src) (lineField f.line 0 4) s
  if lineByte f.line 4 = 1 then
    pageDone (updT s t (fun T => { T with entries := tset {} T.entries (pageKey f.src) {} })) f.part f.src false
  else s

/-- A KV flit arrives at a cistern headgate: a header opens a message, lines are sealed and kept at its cistern address, XACKs go back (07 R216, R217, R231); a reserved SUB is discarded and reported (07 R215). -/
def cisternKv (s : State) (t : Nat) (f : Flit) : State :=
  let T := getT s t
  if f.sub = 0 then
    let total := lineField f.line 16 2 * layoutCols (lineByte f.line 2)
    updT s t (fun T => { T with msgs := T.msgs.filter (fun m => m.src != f.src) ++ [⟨f.src, lineField f.line 18 8, total, 0, f.cls⟩] })
  else if f.sub = 1 then
    match T.msgs.find? (fun m => m.src == f.src) with
    | none => s
    | some m =>
      let s := cisternWrite s (channelOf t) m.addr f.line f.poison
      let xack := fun (n : Nat) (last : Bool) (s : State) => injectT s t (tileFlit t f.part m.cls f.src 1 2 0xA (xackLine n last))
      let m := { m with addr := m.addr + 1, left := m.left - 1, unacked := m.unacked + 1 }
      let (s, m) := if m.unacked = 16 then (xack 16 false s, { m with unacked := 0 }) else (s, m)
      if m.left = 0 then updT (xack (m.unacked + 1) true s) t (fun T => { T with msgs := T.msgs.filter (fun k => k.src != f.src) })
      else updT s t (fun T => { T with msgs := lmap (fun k => k.src == f.src) (fun _ => m) T.msgs })
  else if f.sub = 2 then cisternXack s t f
  else raiseEv s sevError 0x0404 f.part srcTile t f.sub.val

/-- Credits for a headgate's entries (06 R186). -/
def tileCredit (s : State) (t : Nat) (f : Flit) : State :=
  let main := tileMain t
  let n := lineField f.line 0 4
  let kind := lineByte f.line 4
  let hit := fun e : Nat × HgEntry => e.1 / 16 == f.part && e.2.dest == f.src && e.2.sub == f.sub.val && e.2.kind == (if kind = 0 then 0 else if kind = 1 then 2 else 4)
  match (getT s main).entries.find? hit with
  | none => s
  | some e =>
    let s := addTileCredits main e.1 n s
    match tileZenden t with
    | some z => updZ s z (fun Z => { Z with out := Z.out ++ [(e.1 % 16, f)] })
    | none => s

/-- Zenden channel of the KV message that lantern l sends: that of its KXFR's sluice entry (07 R216, R226; 08 R258; the header has no place for it: DEDUCED, log 51). -/
def kvChannel (L : Lantern) : Option Nat :=
  match (getEng L 6).q with
  | x :: _ => match x.op with
    | .inject e _ => some (getSl L e).num
    | .kxfrAck e => some (getSl L e).num
    | _ => none
  | [] => none

/-- A header or data flit of a KV message reaches Zenden port z: it goes to the message's channel with its SUB, or is discarded where that is not the partition's (08 R258). -/
def zendenKv (s : State) (t z : Nat) (f : Flit) : State :=
  let c := (kvChannel (getL s f.src)).getD 15
  if tget 0 (getZ s z).owner c = f.part + 1 then updZ s z (fun Z => { Z with out := Z.out ++ [(c, f)] })
  else raiseEv (countT s t 0x65 1) sevSecurity 0x0502 f.part srcTile t c

/-- A flit reaches rim tile t from the mesh: counted; a headgate not granted to its partition discards it, counts it in the field it borders (log 52) and reports it (08 R238); KV and CREDIT flits taken, others kept for the tile's function. -/
def deliverTile (s : State) (t : Nat) (f : Flit) : State :=
  let s := countT s t 0x60 1
  match getPart s f.part with
  | none => s
  | some p =>
    if !granted p t then raiseEv (countF s (borderField t) 0x45 1) sevSecurity 0x0501 f.part srcTile t f.part
    else if f.kind = 1 ∧ tileCistern t then cisternKv s t f
    else if f.kind = 1 ∧ f.sub.val < 3 then
      match tileZenden t with
      | some z =>
        if f.sub.val < 2 then zendenKv s t z f else
        match (getT s (tileMain t)).entries.find? (fun e => e.1 / 16 == f.part && e.2.dest == f.src && e.2.kind == 1) with
        | some e => updZ (addTileCredits (tileMain t) e.1 (lineField f.line 0 4) s) z (fun Z => { Z with out := Z.out ++ [(e.1 % 16, f)] })
        | none => s
      | none => s
    else if f.kind = 3 then tileCredit s t f
    else updT s (tileMain t) (fun T => { T with rx := T.rx ++ [f] })

/-! ## Scheduled ports (08 R241 to R245; 06 R201) -/

/-- Entry a scheduled port is at. -/
def orderEntry (P : RPort) : Word := tget 0 (tget {} P.orders P.bank).entries P.entry
def isRun (w : Word) : Bool := w.extractLsb' 62 2 == 0
def isEndstep (w : Word) : Bool := w.extractLsb' 62 2 == 1
def entryField (w : Word) (lo n : Nat) : Nat := w.toNat / 2 ^ lo % 2 ^ n

/-- An entry of Table 8-3. -/
def orderWordOk (w : Word) : Bool :=
  if isRun w then decide (entryField w 59 3 ≤ 4) && decide (entryField w 58 1 = 0) && decide (entryField w 47 11 < 1600)
    && decide (entryField w 36 11 < 1600) && decide (entryField w 33 3 ≤ 5) && decide (entryField w 0 17 = 0)
  else isEndstep w && decide (entryField w 12 50 = 0)

/-- The next entry: after END comes LOOP (R242). -/
def advanceEntry (P : RPort) : RPort :=
  let b := tget {} P.orders P.bank
  { P with entry := if P.entry = b.endi then b.loop else P.entry + 1, done := 0 }

/-! ## Slots of quiet partitions (08 R252) -/

/-- Cycle count of a fabric island, modulo 16: free, as its clock is its own. -/
def slotCycle (s : State) (isl : Nat) : Nat := Config.fabricCycle isl (nowNs s) % 16

/-- Slot that a flit of classes 1 to 3 is bound to: that of its partition when it is quiet. -/
def boundSlot (s : State) (f : Flit) : Option Nat :=
  match getPart s f.part with
  | some p => if p.quiet ∧ f.cls ≠ 0 then some p.slot else none
  | none => none

/-- Is router r outside the rectangle of partition pn? -/
def outsideOf (s : State) (pn r : Nat) : Bool :=
  match getPart s pn with
  | some p => !inRect p (fieldOf r)
  | none => false

/-- Does a flit wait at router r for its slot? -/
def slotHolds (s : State) (r : Nat) (f : Flit) : Bool :=
  match boundSlot s f with
  | some j => outsideOf s f.part r && slotCycle s (fieldOf r) != j
  | none => false

/-! ## From a headgate into its edge routers (08 R236, R237, R252) -/

/-- May the flit leave headgate t now: its router has room, a link is in service, its slot has come? -/
def mayEnter (s : State) (t : Nat) (f : Flit) : Bool :=
  let r := entryLantern s t f.dest
  entryUp s t r && bufRoom s r (tileSide t + 1) f && (match boundSlot s f with | some j => slotCycle s (tileIsland t) == j | none => true)

/-- Flits of headgate t enter the mesh while they may, each virtual channel in order; n bounds their number. -/
def feedTile (t : Nat) : Nat → State → State
  | 0, s => s
  | n + 1, s =>
    match (getT s t).tx.find? (mayEnter s t) with
    | none => s
    | some f => feedTile t n (enterRouter (entryLantern s t f.dest) (tileSide t + 1) { f with hops := 1 } (updT s t (fun T => { T with tx := T.tx.erase f })))

/-- Everything that can enter the mesh from headgate t now. -/
def feedT (t : Nat) (s : State) : State := feedTile t (getT s t).tx.length s

/-- Flits that wait in the lantern or the headgates of router r come in. -/
def feedRouter (s : State) (r : Nat) : State := forEach (([1, 2, 3, 4]).filterMap (edgeTile r)) feedT (feedL s r)

/-! ## Hops (08 R235 to R238, R244, R246, R254) -/

/-- A trace record of the latch as a flit for E8 (13 R402). -/
def traceFlit (l : Nat) (r : EventRec) : Flit := mkFlit l 3 (destOfTile tileE8) 4 0 0xA false false (lineOfBytes (eventBytes r false))

/-- Head flit of a virtual channel of an input port, and the state without it; trace records follow the lantern's own flits of class 3. -/
def takeIn (s : State) (r i : Nat) (cls : Fin 4) (vcb : Bool) : Option (Flit × State) :=
  match tget [] (getRP s r i).bufs (vcKey cls vcb) with
  | f :: rest => some (f, updRP s r i (fun P => { P with bufs := tset [] P.bufs (vcKey cls vcb) rest }))
  | [] =>
    match (getL s r).latch with
    | e :: rest => if i = 0 ∧ cls = 3 ∧ vcb = false then some (injected s r (traceFlit r e), updL s r (fun L => { L with latch := rest })) else none
    | [] => none

/-- Head of the scheduled buffer of input port i, and the state without it. -/
def takeSched (s : State) (r i : Nat) : Option (Flit × State) :=
  match tget [] (getRP s r i).bufs 8 with
  | f :: rest => some (f, updRP s r i (fun P => { P with bufs := tset [] P.bufs 8 rest }))
  | [] => none

/-- Is the channel one that Table 9-13 does not list for the tile? -/
def unlisted (t sub : Nat) : Bool :=
  if (tileHost t).isSome then decide (2 ≤ sub) else if (tileZenden t).isSome then sub == 15 else if t = tileE8 then decide (1 ≤ sub) else true

/-- Flits of the partition that the tile holds and a test selects are fewer than 64. -/
def below64 (s : State) (t : Nat) (f : Flit) (p : Flit → Bool) : Bool :=
  decide (((getT s (tileMain t)).rx.filter (fun g => g.tag == f.tag && p g)).length < 64)

/-- Room at a headgate: 64 flits of a quiet partition's classes 1 to 3 (R252); 64 RIM flits per partition on a listed channel of a host port and of E8 (09 R298). -/
def tileRoom (s : State) (t : Nat) (f : Flit) : Bool :=
  ((boundSlot s f).isNone || below64 s t f (·.cls != 0))
    && (f.kind != 4 || (tileZenden t).isSome || unlisted t f.sub.val || below64 s t f (fun g => g.kind == 4 && g.sub == f.sub))

/-- Room for a flit behind output port p of router r: in the next router's buffer, or at the headgate. -/
def roomBehind (s : State) (r p : Nat) (f : Flit) : Bool :=
  match edgeTile r p with
  | some t => tileRoom s t f
  | none => decide (p = 0) || bufRoom s (neighbour r p) (facing p) f

/-- Head flits of class k of a router with their input ports. -/
def headsOf (s : State) (r : Nat) (k : Fin 4) : List (Nat × Flit) :=
  (List.range 5).flatMap (fun i => ([false, true]).filterMap (fun v => (takeIn s r i k v).map (fun x => (i, x.1))))

/-- Does a head flit wait for output port p, free to go but for the port's choice? -/
def wantsPort (s : State) (r p : Nat) (h : Nat × Flit) : Bool :=
  nextPort s r h.2.src h.2.dest == p && roomBehind s r p h.2 && !slotHolds s r h.2

/-- Deadline of a class-0 flit in half ns, modulo 8,192. -/
def deadline (f : Flit) : Nat := (2 * f.inj + 25 * (f.hops + 1)) % 8192

/-- a before b, modulo 8,192. -/
def sooner (a b : Nat) : Bool := decide (4096 ≤ (a + 8192 - b) % 8192)

/-- A waiting class-0 flit that output port p serves before f of input port i (08 R244, R246). -/
def servedBefore (s : State) (r p i : Nat) (f : Flit) : Bool :=
  (headsOf s r 0).any (fun h => wantsPort s r p h
    && (f.cls != 0 || sooner (deadline h.2) (deadline f) || (deadline h.2 == deadline f && decide (h.1 < i))))

/-- A flit of a quiet partition waits for output port p in its slot, which no other partition's flit may take (08 R252). -/
def slotTaken (s : State) (r p : Nat) (f : Flit) : Bool :=
  ([1, 2, 3]).any (fun k => (headsOf s r k).any (fun h => h.2.tag != f.tag && (boundSlot s h.2).isSome && outsideOf s h.2.part r && wantsPort s r p h))

/-- Does the program of router r's partition run (R242)? -/
def portRuns (s : State) (r : Nat) : Bool :=
  match getPart s ((partOf s r).getD 16) with
  | some p => p.running
  | none => false

/-- Does a port that comes first in the order local, north, east, south, west name the same input (R243)? -/
def inputTaken (s : State) (r p i : Nat) : Bool :=
  (List.range p).any (fun q => let P := getRP s r q; P.sched && isRun (orderEntry P) && entryField (orderEntry P) 59 3 == i)

/-- Has the scheduled stream of output port p a flit that may go on but for the port's choice? -/
def schedWaits (s : State) (r p : Nat) : Bool :=
  let P := getRP s r p
  let i := entryField (orderEntry P) 59 3
  P.sched && portRuns s r && isRun (orderEntry P) && !inputTaken s r p i
    && (match takeSched s r i with | some (f, _) => roomBehind s r p f | none => false)

/-- Streams with something waiting at output port p: 0 scheduled, 1 to 3 the classes. -/
def streamsAt (s : State) (r p : Nat) : List Nat :=
  (if schedWaits s r p then [0] else []) ++ (([1, 2, 3] : List (Fin 4)).filter (fun k => (headsOf s r k).any (wantsPort s r p))).map (·.val)

/-- Weights of the round robin 16:8:4:1. -/
def weight (k : Nat) : Nat := if k = 0 then 16 else if k = 1 then 8 else if k = 2 then 4 else 1

/-- The stream whose turn it is among those that wait, with the flits it has had; a stream with nothing waiting is skipped. -/
def nextTurn (ws : List Nat) (t : Nat × Nat) : Nat × Nat :=
  if ws.contains t.1 ∧ t.2 < weight t.1 then t
  else match (([1, 2, 3, 4]).map (fun i => (t.1 + i) % 4)).find? ws.contains with
    | some k => (k, 0)
    | none => t

/-- Is it the turn of stream k at output port p (R244, R246)? -/
def inTurn (s : State) (r p k : Nat) : Bool := (nextTurn (streamsAt s r p) (getRP s r p).turn).1 == k

/-- A flit that its port does not permit: discarded, counted, reported (08 R238). -/
def permitDiscard (r : Nat) (f : Flit) (s : State) : State :=
  raiseEv (countF s (fieldOf r) 0x45 1) sevSecurity 0x0501 ((partOf s r).getD partModule) srcLantern r f.part

/-- May flits of tag pn take output port p of router r? -/
def permitted (s : State) (r p pn : Nat) : Bool := (tget 0 (getR s r).permit pn).testBit p

/-- A flit leaves router r through port p: counted, handed on. -/
def sendOut (s : State) (r p : Nat) (f : Flit) : State :=
  let s := countF s (fieldOf r) 0x40 1
  let s := if f.cls = 0 then countF s (fieldOf r) 0x41 1 else s
  let f := { f with hops := min 127 (f.hops + 1) }
  let s := updRP s r p (fun P => { P with out := passLinks f P.out })
  if p = 0 then
    if (getL s r).on then updL s r (fun L => { L with rx := L.rx ++ [f] })
    else raiseEv (countF s (fieldOf r) 0x44 1) sevError 0x0403 ((partOf s r).getD partModule) srcField (fieldOf r) (linkCode r 0 0)
  else match edgeTile r p with
    | some t => deliverTile s t f
    | none => updRP s (neighbour r p) (facing p) (fillBuf f)

/-- A flit of a stream leaves in the stream's turn. -/
def sendTurn (s : State) (r p k : Nat) (f : Flit) (s' : State) : State :=
  let t := nextTurn (streamsAt s r p) (getRP s r p).turn
  sendOut (if k = 4 then s' else updRP s' r p (fun P => { P with turn := (t.1, t.2 + 1) })) r p f

/-- FLIT_HOP: the head flit of a virtual channel goes on along its route (08 R237), when its output port would send it next. -/
def hop (r i : Nat) (cls : Fin 4) (vcb : Bool) (s : State) : State :=
  if !routerUp s r then s else
  let s := feedRouter s r
  match takeIn s r i cls vcb with
  | none => s
  | some (f, s') =>
    let p := nextPort s r f.src f.dest
    if !permitted s r p f.part then permitDiscard r f s'
    else if linksUp s r p = 0 then s'
    else if !roomBehind s r p f || slotHolds s r f || slotTaken s r p f || servedBefore s r p i f || (decide (cls ≠ 0) && !inTurn s r p cls.val) then s
    else sendTurn s r p (if cls = 0 then 4 else cls.val) { f with vcb := f.vcb || (exceptionFor s r f.dest).isSome } s'

/-- ORDER_RUN: the port forwards the head flit of the input its RUN entry names, in the scheduled stream's turn (R243, R244). -/
def runOrder (r p : Nat) (s : State) : State :=
  let P := getRP s r p
  let w := orderEntry P
  let i := entryField w 59 3
  if !P.sched || !portRuns s r || !isRun w || inputTaken s r p i || !routerUp s r then s else
  let s := feedRouter s r
  match takeSched s r i with
  | none => s
  | some (f, s') =>
    if !permitted s r p f.part then permitDiscard r f s'
    else if linksUp s r p = 0 then s'
    else if !roomBehind s r p f || servedBefore s r p i f || !inTurn s r p 0 then s else
    let same := decide (f.src = entryField w 47 11) && decide (f.dest = entryField w 36 11) && decide (f.kind.val = entryField w 33 3)
      && decide (f.sub.val = entryField w 29 4)
    if debugOn s ((partOf s r).getD 16) && !same then trapNow s r causeOrder P.entry else
    let s' := updRP s' r p (fun P => if P.done = entryField w 17 12 then advanceEntry P else { P with done := P.done + 1 })
    sendTurn s r p 0 f s'

/-- ORDER_ENDSTEP: the port adds to its step count and may switch banks (R243, R245). -/
def endstepOrder (r p : Nat) (s : State) : State :=
  let P := getRP s r p
  let w := orderEntry P
  if !P.sched || !portRuns s r || !isEndstep w then s else
  updRP s r p (fun P =>
    let P := { advanceEntry P with steps := P.steps + entryField w 0 12 + 1 }
    match P.switchAt with
    | some k => if k ≤ P.steps then { P with bank := 1 - P.bank, entry := 0, done := 0, switchAt := none } else P
    | none => P)

/-! ## The weir (08 R247) -/

/-- WEIR_RELEASE at a lantern. -/
def releaseLantern (l : Nat) (s : State) : State :=
  let L := getL s l
  match L.weirHeld with
  | [] => s
  | (e, f) :: rest =>
    if weirOpen L.weirLast L.weirK (nowNs s) then
      launchL (updL s l (fun L => { L with weirHeld := rest, weirLast := some (nowNs s) })) l e f
    else s

/-- WEIR_RELEASE at a headgate for a partition. -/
def releaseTile (t pn : Nat) (s : State) : State :=
  let T := getT s t
  let is := fun f : Flit => f.part == pn
  match T.weirHeld.find? is with
  | none => s
  | some f =>
    let last := tget 0 T.weirLast pn
    if last = 0 ∨ weirOpen (some (last - 1)) (tget 0 T.weirK pn) (nowNs s) then
      launchT (updT s t (fun T => { T with weirHeld := T.weirHeld.eraseP is, weirLast := tset 0 T.weirLast pn (nowNs s + 1) })) t f
    else s

/-! ## Errors on a link (08 R234, R250, R251) -/

/-- A repair map entry is added; a full map raises an ERROR record (11 R337). -/
def addRepair (s : State) (e : RepairEntry) : State :=
  match mapAdd { e with psec := s.powered / 1000000000 } s with
  | some t => t
  | none => raiseM s sevError 0x0305 e.place

/-- Flits waiting for an output port of router r are discarded (R234). -/
def dropWaiting (r p : Nat) (s : State) : State :=
  updR s r (fun R => { R with ports := R.ports.map (fun e => (e.1, { e.2 with
    bufs := (e.2.bufs.map (fun b => (b.1, if b.1 = 8 then b.2 else b.2.filter (fun f => nextPort s r f.src f.dest != p)))).filter (fun b => !b.2.isEmpty) })) })

/-- A port has lost its last link: the flits waiting for it are discarded and every partition whose routes use it faults (R234). -/
def portLost (r p : Nat) (inb : Bool) (k : Nat) (s : State) : State :=
  let s' := if !inb then dropWaiting r p s
    else match edgeTile r p with
      | some t => updT s t (fun T => { T with tx := T.tx.filter (fun f => entryLantern s t f.dest != r) })
      | none => updL s r (fun L => { L with tx := [] })
  forEach (partsUsing s r p inb) (fun pn s => unitFault s pn 1 (linkCode r p (k + (if inb then 2 else 0)))) s'

/-- A link leaves service (R251). -/
def linkOut (r p : Nat) (inb : Bool) (k : Nat) (s : State) : State :=
  let s' := updDir r p inb (dropLink k) s
  if working (getDir s' r p inb) = 0 then portLost r p inb k s' else s'

/-- LINK_CRC_MISMATCH: the flit is discarded, the sender replays it with every flit sent after it (R234); 16 mismatches within 1 ms or a third failure of one flit take the link out. -/
def crcMismatch (r p k flit : Nat) (s : State) : State :=
  let (r, p, inb, k) := linkPlace r p k
  let x := tget {} (getDir s r p inb).link k
  if !x.up then s else
  let n := match x.fails with | some (g, m) => if g = flit then m + 1 else 1 | none => 1
  let ms := nowNs s :: x.misses.filter (fun t => decide (nowNs s < t + 1000000))
  let s := countF (countF s (fieldOf r) 0x42 1) (fieldOf r) 0x43 1
  let s := updDir r p inb (fun d => { d with link := tset {} d.link k { x with misses := ms, fails := some (flit, n), replays := x.replays + 1 } }) s
  if 3 ≤ n ∨ 16 ≤ ms.length then linkOut r p inb k s else s

/-- Does a link cross a field boundary or join a rim tile (R250)? -/
def boundaryLink (r p : Nat) : Bool :=
  (edgeTile r p).isSome || (inward r p && decide (fieldOf r ≠ fieldOf (neighbour r p)))

/-- Is the spare link of an edge in a direction in use already? The links of an edge in a direction are those of one field through one port, outbound or inbound. -/
def spareUsed (s : State) (w : Nat) : Bool :=
  s.repair.entries.any (fun e => e.typ == 6 && fieldOf (e.place / 2 ^ 21) == fieldOf (w / 2 ^ 21) && e.place / 2 ^ 18 % 8 == w / 2 ^ 18 % 8
    && e.place / 2 ^ 16 % 2 == w / 2 ^ 16 % 2)

/-- The first repair of Table 8-6 that fits link w of port p of router r; some entries for the map, or none. -/
def fitRepair (s : State) (r p w source : Nat) (x : LaneResult) : List RepairEntry :=
  let b := boundaryLink r p
  if x.triplet ≤ 1 ∧ x.wires = [] then []
  else if b ∧ x.triplet ≤ 1 ∧ x.wires.length ≤ 36 then x.wires.map (fun e => ⟨5, source, w, e.1 + e.2 * 65536, 0⟩)
  else if b ∧ !spareUsed s w then [⟨6, source, w, 0, 0⟩]
  else [⟨7, source, w, 0, 0⟩]

/-- LANE_TEST_DONE: the link is repaired or stays disabled; the map, the routes and a WARN record follow (R251). -/
def laneTest (r p k : Nat) (x : LaneResult) (source : Nat) (s : State) : State :=
  let (r, p, inb, k) := linkPlace r p k
  if (tget {} (getDir s r p inb).link k).up then s else
  let w := linkCode r p (k + (if inb then 2 else 0))
  let es := fitRepair s r p w source x
  let off := es.any (fun e => e.typ == 7)
  let s := updDir r p inb (fun d => if off then { d with link := tupd {} d.link k (fun x => { x with disabled := true }) } else restoreLink k d) s
  let s := es.foldl addRepair s
  raiseEv (recheckRoutes s) sevWarn (if off then 0x0400 else 0x0401) ((partOf s r).getD partModule) srcFirmware 0 w

/-! ## Management writes (07 R204, R210, R231; 08 R245) -/

/-- Has some scheduled port of the rectangle of router r already passed step k? -/
def portPassed (s : State) (r k : Nat) : Bool :=
  match getPart s ((partOf s r).getD 16) with
  | none => true
  | some p => (partLanterns s p).any (fun l => (List.range 5).any (fun q => let P := getRP s l q; P.sched && decide (k ≤ P.steps)))
      || decide (k + 1 < p.bound + p.window + 2)

/-- Would line x at line a of lantern l change the STATE of a bound descriptor? It changes at step boundaries only (07 R206). -/
def changesState (s : State) (l a : Nat) (x : Line) : Bool :=
  match (partOf s l).bind (getPart s) with
  | some p => (sharesOn p l).any (fun h => h.desc == a) && lineByte x 7 != lineByte (padAt (getL s l) a).data 7
  | none => false

/-- A write of a route table: a locked table ignores it and reports it (08 R238); the record's COUNT counts it. -/
def routeWrite (r : Nat) (f : Router → Router) (s : State) : State :=
  if s.sec.routesLocked then raiseEv s sevSecurity 0x0500 ((partOf s r).getD partModule) srcLantern r ((partOf s r).getD partModule)
  else updR s r (fun R => let R := f R; { R with goldExceptions := R.exceptions, goldPermit := R.permit })

/-- MGMT_FLIT: a class-3 management write of module firmware takes effect. -/
def mgmtWrite (op : MgmtOp) (s : State) : State :=
  match op with
  | .channel4Producer l d => updL s l (fun L => { L with intakes := tupd {} L.intakes 4 (fun k => { k with used := true, producer := d, cls := 2 }) })
  | .mgmtSluiceDest l d =>
    updL s l (fun L => { L with sluices := tset {} L.sluices 32 { dest := d, kind := 3, num := 0, cls := 2, grant := 64, credits := 64 } })
  | .cacheTable l a x =>
    let L := getL s l
    if decide (L.ctBase ≤ a) && decide (a < L.ctBase + L.ctCount) && !changesState s l a x then tableWrite s l a [x] else s
  | .permitMask r pn m => routeWrite r (fun R => { R with permit := tset 0 R.permit pn (m % 32) }) s
  | .routeExceptions r es => routeWrite r (fun R => { R with exceptions := es.take 16 }) s
  | .orderBank r p es loop endi k =>
    let P := getRP s r p
    if !P.sched || decide (endi < loop) || decide (1023 < endi) || es.any (fun w => !orderWordOk w) || portPassed s r k then s
    else
      let b : OrderBank := ⟨tfill 0 [] 0 (es.take (endi + 1)), loop, endi⟩
      updRP s r p (fun P => { P with orders := tset {} P.orders (1 - P.bank) b, golden := tset {} P.golden (1 - P.bank) b, switchAt := some k })

/-! ## Commands -/

/-- A router forwards a virtual-channel flit (08 R237). -/
def execFlitHop (router inPort : Nat) (cls : Fin 4) (vcb : Bool) (s : State) : Out :=
  guarded (lanternOk router && portOk inPort) (hop router inPort cls vcb s)
/-- The weir's interval ends (08 R247). -/
def execWeirRelease (src part : Nat) (s : State) : Out :=
  guarded (decide (src < 1640) && partOk part)
    (match tileOfDest src with
     | some t => releaseTile t part s
     | none => releaseLantern src s)
/-- A flit fails its CRC (08 R234). -/
def execLinkCrcMismatch (router port link flit : Nat) (s : State) : Out :=
  guarded (lanternOk router && portOk port && linkOk link) (crcMismatch router port link flit s)
/-- The lane test ends (08 R251). -/
def execLaneTestDone (router port link : Nat) (r : LaneResult) (s : State) : Out :=
  guarded (lanternOk router && portOk port && linkOk link) (laneTest router port link r 3 s)
/-- A scheduled port forwards a flit (08 R243). -/
def execOrderRun (router port : Nat) (s : State) : Out := guarded (lanternOk router && portOk port) (runOrder router port s)
/-- A scheduled port passes an ENDSTEP entry (08 R243). -/
def execOrderEndstep (router port : Nat) (s : State) : Out := guarded (lanternOk router && portOk port) (endstepOrder router port s)
/-- A management write takes effect (07 R231; 08 R245). -/
def execMgmtFlit (op : MgmtOp) (s : State) : Out := guarded (mgmtOk op) (mgmtWrite op s)

end Sys2Proof.Machine
end

