-- ==== Sys2Proof/Machine/KvMoves.lean ====
section
/-! DEFINITION. Module firmware moves caches between the key/value stores and the cistern, one message a lantern and direction at a time (07 R228 to R231). -/

namespace Sys2Proof.Machine

/-- Flits of the message that brings a page back to its share, as its headgate sends them (07 R216, R218). -/
def pageFlits (pn t : Nat) (h : Share) (m : PageMove) (caddr : Nat) (xs : List (Line × Bool)) : List Flit :=
  let r := h.of
  let lay := r.layout % 64 + r.layout / 128 * 128
  (kvFlits (1600 + t) (if r.layout.testBit 5 then 2 else 1) (kvHeader lay r.base r.s r.j h.desc m.first m.n caddr) xs).map (fun f =>
    { f with cls := (meshClasses t).headD 2, dst := BitVec.ofNat 11 h.lantern, tag := BitVec.ofNat 4 pn })

/-- Do moves on a channel wait for its rim tile's new image (11 R358)? -/
def channelHeld (s : State) (c : Nat) : Bool := decide (nowNs s < (getT s (channelTile c)).holdTo)

/-- A page goes out: the management sluice entry is set to its headgate, the KV port has the message to send (07 R231). -/
def sendPageOut (pn : Nat) (r : Request) (h : Share) (m : PageMove) (todo busy : List PageMove) (s : State) : State :=
  let (c, a) := imageAt r.image m.image 0
  let s := updReq s pn r.tag (fun r => { r with stage := .out (todo.erase m) (busy ++ [m]) })
  let s := mgmtWrite (.mgmtSluiceDest h.lantern (1600 + channelTile c)) s
  startMove h.lantern (setMove s h.lantern (some ⟨h.desc, m.first, m.n, a, none⟩))

/-- A page comes back: its headgate becomes the producer of channel 4 and sends it with a grant of 64, unless a line fails authentication: it is discarded and counted, and no more pages are asked for (00 R4; 07 R229, R231). -/
def sendPageBack (pn : Nat) (r : Request) (h : Share) (m : PageMove) (todo busy : List PageMove) (s : State) : State :=
  let (c, a) := imageAt r.image m.image 0
  let t := channelTile c
  let xs := (List.range (m.n * layoutCols h.of.layout)).map (fun i => cisternRead s c (a + i))
  if xs.all (·.isSome) then
    let s := updReq s pn r.tag (fun r => { r with stage := .back (todo.erase m) (busy ++ [m]) false })
    let s := mgmtWrite (.channel4Producer h.lantern (1600 + t)) s
    let s := updT s t (fun T => { T with
      entries := tset {} T.entries (pageKey h.lantern) { dest := h.lantern, kind := 1, cls := (meshClasses t).headD 2, grant := 64, credits := 64 }
      held := T.held.filter (fun x => x.1 != pageKey h.lantern) })
    forEach (pageFlits pn t h m a (xs.filterMap id)) (fun f s => sendT s t (pageKey h.lantern) f) s
  else
    updReq (countT s t 0x66 ((xs.filter (·.isNone)).length)) pn r.tag (fun r => { r with stage := .back [] busy true })

/-- Is a page on its way back to lantern l in a partition? -/
def backTo (p : Partition) (l : Nat) : Bool :=
  p.reqs.any (fun r => match r.stage with | .back _ busy _ => busy.any (fun m => moveLantern r m == l) | _ => false)

/-- The next page of a request that may move, starts. -/
def nextPage (pn : Nat) (p : Partition) (r : Request) (s : State) : State :=
  let free := fun m : PageMove => !channelHeld s (m.image % 12)
  match r.stage with
  | .out todo busy =>
    match todo.find? (fun m => free m && (getL s (moveLantern r m)).move.isNone) with
    | some m => match r.shares[m.share]? with
      | some h => sendPageOut pn r h m todo busy s
      | none => s
    | none => s
  | .back todo busy false =>
    if r.state = .ending then s else
    match todo.find? (fun m => free m && !backTo p (moveLantern r m)) with
    | some m => match r.shares[m.share]? with
      | some h => sendPageBack pn r h m todo busy s
      | none => s
    | none => s
  | _ => s

/-- Is the cistern in service for the module (11 Table 11-2)? -/
def cisternOn (s : State) : Bool := s.badChannels.isEmpty

/-- Module firmware starts what may move, in the order of partitions and requests; not while the Lamplighter restarts or is in its error state (10 R300; 11 R357). -/
def movePages (s : State) : State :=
  if s.sec.restarting || s.sec.error || !cisternOn s then s else
  forEach (allParts s) (fun e s => forEach (e.2.reqs.map (·.tag)) (fun tag s =>
    match getPart s e.1 with
    | some p => match findReq p tag with
      | some r => nextPage e.1 p r s
      | none => s
    | none => s) s) s

end Sys2Proof.Machine
end

