-- ==== Sys2Proof/Machine/ZendenOut.lean ====
section
/-! DEFINITION. What a Zenden port sends: channels in use, groups with their header and trailer, idle headers (08 R255 to R260). -/

namespace Sys2Proof.Machine

/-! ## Channels (08 R258 to R260) -/

/-- Does partition pn hold channel c of port z? -/
def holdsChannel (s : State) (z c pn : Nat) : Bool := tget 0 (getZ s z).owner c == pn + 1

/-- The bypass port beside a primary port: Z3 for Z2, Z1 for Z0 (08 R259, R260). -/
def bypassOf (z : Nat) : Nat := if z = 2 then 3 else 1

/-- Port over which what is bound for port z leaves: the bypass once it has joined for z (08 R260). -/
def portOut (s : State) (z : Nat) : Nat := if s.ring.bypass && s.ring.lost == some z then bypassOf z else z
/-- Port for which what arrives at port z is meant. -/
def portIn (s : State) (z : Nat) : Nat :=
  match s.ring.lost with
  | some p => if s.ring.bypass && bypassOf p == z then p else z
  | none => z

/-- Are the channels of port z open: those of a ring once it is formed (08 Table 8-9), those of a point-to-point link once it is up; the lost port of a chain waits for a new ring command (08 R260)? -/
def channelsOpen (s : State) (z : Nat) : Bool :=
  if z = 1 ∨ z = 3 then s.ring.mode == 2 || (s.ring.mode == 0 && s.ring.formed)
  else s.ring.formed && (s.ring.bypass || s.ring.lost != some z)

/-! ## Groups (08 R255, R256, Table 8-8) -/

/-- GSEQ of the last group received intact. -/
def ackWord (Z : Zenden) : Nat := (Z.expect + 2047) % 2048

/-- Header word of a group of n flits; with n = 0 that of an idle header. -/
def groupHeader (n gseq ack : Nat) : BitVec 32 :=
  BitVec.ofNat 32 (if n = 0 then 2 ^ 31 + ack % 2048 else (n - 1) % 512 * 2 ^ 22 + gseq % 2048 * 2 ^ 11 + ack % 2048)

/-- CHECK over the header and the flits. -/
def groupCheck (head : BitVec 32) (fs : List (Nat × Flit)) : BitVec 32 :=
  crc32c (bytesOfNat 4 head.toNat ++ fs.flatMap (fun f => flitBytes f.2))

/-- A group as it is sent now: header, flits, trailer. -/
def formGroup (Z : Zenden) (gseq times t : Nat) (fs : List (Nat × Flit)) : KeptGroup :=
  let h := groupHeader fs.length gseq (ackWord Z)
  ⟨gseq, fs, times, t, h, groupCheck h fs⟩

/-- Flits of classes 1 to 3 in the round robin of R246, n at most: those taken, those left, the round robin. -/
def takeTurns : Nat → List (Nat × Flit) → Nat × Nat → List (Nat × Flit) × List (Nat × Flit) × (Nat × Nat)
  | 0, out, t => ([], out, t)
  | n + 1, out, t =>
    let t := nextTurn (([1, 2, 3] : List Nat).filter (fun k => out.any (fun f => f.2.cls.val == k))) t
    match out.find? (fun f => f.2.cls.val == t.1) with
    | none => ([], out, t)
    | some f =>
      let (xs, rest, u) := takeTurns n (out.erase f) (t.1, t.2 + 1)
      (f :: xs, rest, u)

/-- The next group's flits: class 0 first, then the other classes in turn, 512 at most. -/
def zendenGroup (Z : Zenden) : List (Nat × Flit) × List (Nat × Flit) × (Nat × Nat) :=
  let first := (Z.out.filter (fun f => f.2.cls == 0)).take 512
  let (xs, rest, t) := takeTurns (512 - first.length) (Z.out.filter (fun f => f.2.cls != 0)) Z.turn
  (first ++ xs, (Z.out.filter (fun f => f.2.cls == 0)).drop 512 ++ rest, t)

/-- The sender takes what waits into groups, while fewer than 16 are kept and the channels are open. -/
def zSend (z : Nat) : Nat → State → State
  | 0, s => s
  | n + 1, s =>
    let Z := getZ s z
    if !Z.up || Z.out.isEmpty || decide (16 ≤ Z.kept.length) then s else
    let (fs, rest, t) := zendenGroup Z
    let g := formGroup Z Z.gseq 1 (nowNs s) fs
    zSend z n (setZ s z { Z with out := rest, turn := t, gseq := (Z.gseq + 1) % 2048, kept := Z.kept ++ [g], headerAt := nowNs s, head := g.head })

/-- Everything bound for port z that may be sent now, over the port it leaves by. -/
def zFlush (s : State) (z : Nat) : State :=
  if !channelsOpen s z then s else
  let w := portOut s z
  let xs := (getZ s z).out
  zSend w 16 (if w = z then s else updZ (updZ s z (fun Z => { Z with out := [] })) w (fun Z => { Z with out := Z.out ++ xs }))

/-- A port that has nothing to send sends an idle header (08 R255). -/
def idleHead (s : State) (z : Nat) : State :=
  updZ s z (fun Z => if Z.up && Z.out.isEmpty then { Z with headerAt := nowNs s, head := groupHeader 0 0 (ackWord Z) } else Z)

/-- The ports of the module over the next nanosecond: what waits is sent, an idle header follows the last header by 256 ns (08 R255). -/
def zTick (s : State) : State :=
  forEach ((s.zen.filter (fun e => e.2.up)).map (·.1)) (fun z s =>
    let s := zFlush s z
    if decide ((getZ s z).headerAt + 256 ≤ nowNs s + 1) then idleHead s z else s) s

end Sys2Proof.Machine
end

