-- ==== Sys2Proof/Machine/Clock.lean ====
section
/-! DEFINITION. What one nanosecond does while no command waits: the time base advances and cycle counters count (08 R239; 13 Table 13-1). -/

namespace Sys2Proof.Machine

/-- Cycles of lantern clock setting k that end in the nanosecond after t. -/
def cyclesIn (k t : Nat) : Nat := cyclesAt k (t + 1) - cyclesAt k t

/-- Engines, array operations and the sequencer of a lantern held on wait code c (06 R192). -/
def enginesWaiting (L : Lantern) (c : Nat) : Nat :=
  (L.engines.filter (fun e => decide (e.2.wait = c) && !e.2.q.isEmpty)).length
    + (bankWaits L).count c + (match L.held with | some (_, h, _) => if h = c then 1 else 0 | none => 0)

/-- Cycle counts of lantern l over the nanosecond after t: source 0x01, wait codes 0x11 to 0x1F, weir waits 0x2C. -/
def tickLantern (t l : Nat) (s : State) : State :=
  let L := getL s l
  if !L.on then s else
  let n := cyclesIn (clockNow s l) t
  let s := countL s l 0x01 n
  let s := if L.weirHeld.isEmpty then s else countL s l 0x2C n
  forEach (List.range 15) (fun c s => countL s l (0x11 + c) (n * enginesWaiting L (c + 1))) s

/-- An island's copy of the time base over 16 ns: a copy more than 8 ns off adds or holds one count, any other stays within 8 ns (08 R240). -/
def copyStep (t isl : Nat) (off : Int) : Int :=
  if off < -8 then off + 1 else if 8 < off then off - 1
  else match Config.islandStep isl (t / 16) % 3 with
    | 0 => off
    | 1 => min 8 (off + 1)
    | _ => max (-8) (off - 1)

/-- Islands with a copy that runs: the fabric islands, the rim tiles and the lanterns that have acquired the time. -/
def islands (s : State) : List Nat :=
  List.range nFields ++ (List.range nTiles).map tileIsland ++ (s.lanterns.filter (fun e => e.2.timeOk)).map (fun e => lanternIsland e.1)

/-- The copies move, every 16 ns; that of tile S2 is the master (08 R239). -/
def moveCopies (s : State) : State :=
  if nowNs s % 16 ≠ 15 then s
  else { s with skew := ((islands s).map (fun k => (k, if k = tileIsland tileS2 then 0 else copyStep (nowNs s) k (tget 0 s.skew k)))).filter (fun e => e.2 != 0) }

/-- What waits in lanterns and headgates enters the mesh where it can (08 R236). -/
def feedAll (s : State) : State :=
  forEach ((s.tiles.filter (fun e => !e.2.tx.isEmpty)).map (·.1)) feedT
    (forEach ((s.lanterns.filter (fun e => !e.2.tx.isEmpty)).map (·.1)) (fun l s => feedL s l) s)

/-- One nanosecond passes, when the time base runs (11 Table 11-1: it starts with the ROM). -/
def idle (s : State) : State :=
  if !s.boot.vaon then s else
  let s := zTick (feedAll (movePages (forEach (s.lanterns.map (·.1)) (tickLantern (nowNs s)) (moveCopies s))))
  { s with now := s.now + 1, powered := s.powered + 1 }

end Sys2Proof.Machine
end

