-- ==== Sys2Proof/Machine/CalStore.lean ====
section
/-! DEFINITION. Calibration records: their 256 bytes, which copies are valid, which is newest, what they say of arrays (03 R91 to R95). -/

namespace Sys2Proof.Machine

/-- Key of a calibration record: kind and SUBJECT (03 Table 3-5). -/
def calKey (kind subject : Nat) : Nat := kind * 2 ^ 32 + subject
def calKind (key : Nat) : Nat := key / 2 ^ 32
def calSubject (key : Nat) : Nat := key % 2 ^ 32
def bankSubject (l b r : Nat) : Nat := l * 2 ^ 21 + b * 2 ^ 16 + r
/-- SUBJECT of the record of the pair that holds array a. -/
def pairSubject (l a : Nat) : Nat := l * 2 ^ 21 + a / 2 * 2 * 256

/-! ## Table 3-4 -/

/-- n bytes of x from byte i on. -/
def bytesAt (x i n : Nat) : Nat := x / 256 ^ i % 256 ^ n
/-- x with n bytes from byte i on replaced by v. -/
def putAt (x i n v : Nat) : Nat := x - bytesAt x i n * 256 ^ i + v % 256 ^ n * 256 ^ i

def recGen (r : BitVec 2048) : BitVec 16 := BitVec.ofNat 16 (bytesAt r.toNat 2 2)
def recSetid (r : BitVec 2048) : BitVec 32 := BitVec.ofNat 32 (bytesAt r.toNat 8 4)
/-- Bytes 12 to 251. -/
def recPay (r : BitVec 2048) : Nat := bytesAt r.toNat 12 240

/-- CRC-32C over bytes 0 to 251 of a record. -/
def recCheck (body : Nat) : Nat := (crc32c (bytesOfNat 252 body)).toNat

/-- A record of Table 3-4. -/
def makeRec (key : Nat) (gen : BitVec 16) (setid : BitVec 32) (pay : Nat) : BitVec 2048 :=
  let body := calKind key % 256 + 256 + gen.toNat * 256 ^ 2 + calSubject key * 256 ^ 4 + setid.toNat * 256 ^ 8 + pay % 256 ^ 240 * 256 ^ 12
  BitVec.ofNat 2048 (body + recCheck body * 256 ^ 252)

/-- Kinds of Table 3-5. -/
def calKinds : List Nat := [0x01, 0x02, 0x10, 0x20]

/-- A copy is valid: CRC-32C, VERSION, and KIND and SUBJECT of the place it occupies (R92, R93). -/
def copyValid (key : Nat) (r : BitVec 2048) : Bool :=
  let x := r.toNat
  calKinds.contains (calKind key) && bytesAt x 0 1 == calKind key && bytesAt x 1 1 == 1 && bytesAt x 4 4 == calSubject key
    && bytesAt x 252 4 == recCheck (bytesAt x 0 252)

/-- Generation a is newer than b (R93). -/
def newerGen (a b : BitVec 16) : Bool := let d := (a - b).toNat; decide (1 ≤ d) && decide (d ≤ 32767)

/-- Slot 0, slot 1, master. -/
def copiesOf (r : CalRec) : List (BitVec 2048) := [r.slot0, r.slot1, r.master]
/-- The newest valid copy; over an equal generation the first of slot 0, slot 1, master (R95). -/
def bestCopy (key : Nat) (r : CalRec) : Option (BitVec 2048) :=
  ((copiesOf r).filter (copyValid key)).foldl (fun b c => match b with
    | none => some c
    | some x => if newerGen (recGen c) (recGen x) then some c else b) none

/-- Two valid copies of one generation differ (R95). -/
def copiesClash (key : Nat) (r : CalRec) : Bool :=
  let xs := (copiesOf r).filter (copyValid key)
  xs.any (fun a => xs.any (fun b => recGen a == recGen b && a != b))

/-! ## Table 3-6 -/

/-- Entries of w bytes each, two's complement, from byte at on. -/
def packInts (w at_ n : Nat) (t : SMap Int) : Nat :=
  ((List.range n).map (fun i => (tget 0 t i % (256 ^ w : Nat)).toNat * 256 ^ (at_ + w * i))).sum
def unpackInts (w at_ n x : Nat) : SMap Int :=
  tfill 0 [] 0 ((List.range n).map (fun i => signed (8 * w) (bytesAt x (at_ + w * i) w)))

/-- Array block of an array-pair record. -/
def arrayBlock (A : WickArray) : Nat :=
  let flag := fun (b : Bool) (v : Nat) => if b then v else 0
  A.cycles % 2 ^ 32 + A.psec % 2 ^ 32 * 256 ^ 4 + packInts 1 8 32 A.trim + packInts 2 40 16 A.base + A.driftSaved % 65536 * 256 ^ 72
    + A.ref0 % 256 * 256 ^ 74 + A.reftSaved % 256 * 256 ^ 75 + A.tprog % 256 * 256 ^ 76
    + (flag A.programmed 1 + flag A.bad 2 + flag A.retired 4 + flag A.degraded 8 + flag A.stale 16) * 256 ^ 77
    + ((List.range 32).map (fun i => tget 0 A.sig i % 256 * 256 ^ (80 + i))).sum

/-- What an array block says of an array. -/
def blockArray (x : Nat) (A : WickArray) : WickArray :=
  let flag := fun i => (bytesAt x 77 1).testBit i
  { A with
    cycles := bytesAt x 0 4, psec := bytesAt x 4 4, trim := unpackInts 1 8 32 x, base := unpackInts 2 40 16 x, driftSaved := bytesAt x 72 2,
    ref0 := bytesAt x 74 1, reftSaved := bytesAt x 75 1, tprog := bytesAt x 76 1, programmed := flag 0, bad := flag 1, retired := flag 2,
    degraded := flag 3, stale := flag 4, sig := tfill 0 [] 0 ((List.range 32).map (fun i => bytesAt x (80 + i) 1)) }

/-- Payload of the record of arrays 2p and 2p + 1. -/
def pairPay (A B : WickArray) : Nat := arrayBlock A + arrayBlock B * 256 ^ 120

/-! ## Factory calibration and reads -/

/-- SETID of the factory calibration: origin 0x01 (log 5). -/
def factorySetid : BitVec 32 := 0x01000000#32
/-- Records of a field (03 Table 3-6). -/
def fieldRecords : Nat := 6146

/-- Payload the factory leaves (log 5): the field header's, blocks of erased arrays, and zero bytes. -/
def factoryPay (key : Nat) : Nat :=
  if calKind key = 0x01 then fieldRecords + factorySetid.toNat * 256 ^ 2 else if calKind key = 0x20 then pairPay {} {} else 0

/-- A record as the factory leaves it (log 5). -/
def factoryRec (key : Nat) : CalRec :=
  let r := makeRec key 0 factorySetid (factoryPay key)
  ⟨r, r, r, r, none⟩

def calRec (s : State) (key : Nat) : CalRec := tget (factoryRec key) s.cal key
def setCal (s : State) (key : Nat) (r : CalRec) : State := { s with cal := tset (factoryRec key) s.cal key r }

/-- Payload in force of a record. -/
def payInForce (s : State) (key : Nat) : Nat :=
  match s.cal.find? (fun e => e.1 == key) with
  | some e => recPay e.2.cur
  | none => factoryPay key

/-- n bytes of the record in force, from byte i of the record on; i is at least 12. -/
def calBytes (s : State) (kind subject i n : Nat) : Nat := bytesAt (payInForce s (calKey kind subject)) (i - 12) n

end Sys2Proof.Machine
end

