-- ==== Sys2Proof/Machine/ArrayUnit.lean ====
section
/-! DEFINITION. Wick arrays: inputs, phases, conversions, correction, the governor window (02 R39 to R60; 03 R67 to R83). -/

namespace Sys2Proof.Machine

/-! ## Numbers of arrays (02 R39) -/

/-- Physical array of a logical number; none when it names no array. -/
def physOf (L : Lantern) (logical : Nat) : Option Nat :=
  match tget .standard L.amap logical with
  | .standard => some (logical + logical / 31)
  | .phys a => some a
  | .none => none

/-- Logical number of a physical array, when one names it. -/
def logicalOf (L : Lantern) (a : Nat) : Option Nat := (List.range 248).find? (fun n => physOf L n == some a)

/-! ## Inputs (02 R43, R44; 03 R81, R82) -/

/-- Type code of IFMT (06 R182). -/
def ifmtType (f : Nat) : Nat := if f = 0 then 0 else if f = 1 then 1 else if f = 2 then 3 else 2
/-- Input lines an operation reads (02 Table 2-4). -/
def inputLines (f rows : Nat) : Nat := (64 * rows + lineElems (ifmtType f) - 1) / lineElems (ifmtType f)

/-- Integer an element drives before alignment: FP4 is taken as twice its value (02 R44). -/
def driveInt (f code : Nat) : Int :=
  let ty := ifmtType f
  if f = 2 then ((decodeFP4 code).scale 1).dy.rat.floor else signed (elemBits ty) code

/-- Element of row r over the input lines: integer and its cell's scale code. -/
def rowInput (f : Nat) (xs : List (Line × Bool)) (r : Nat) : Int × Nat :=
  let ty := ifmtType f
  let e := lineElems ty
  let x := (xs.getD (r / e) (0, false)).1
  (driveInt f (elemCode ty x (r % e)), cellScale x (r % e / cellElems ty))

/-- An array operation with its inputs read: aligned and clipped, residual factors kept. The flag: alignment discarded a bit. -/
def prepare (L : Lantern) (p : ArrayOp) (xs : List (Line × Bool)) : ArrayOp × Bool × Nat :=
  let n := 64 * p.rows
  let f := p.ifmt.val
  let ins := (List.range n).map (rowInput f xs)
  let top := ins.foldl (fun m e => max m (if e.2 = 255 then 0 else e.2)) 0
  let badCell := ins.any (fun e => e.2 == 255)
  let al := ins.map (fun e => let d := top - (if e.2 = 255 then 0 else e.2); (rne e.1 (2 ^ d), decide (rne e.1 (2 ^ d) * (2 ^ d : Nat) ≠ e.1)))
  let aligned := fun r : Nat => (al.getD r (0, false)).1
  let ents := if p.otd = 0 then [] else
    let d := tget (0, 0) L.odesc p.otd
    (List.range d.2).map (fun i => tget (0, false, 0) L.oent (d.1 + i))
  let clipAt : Int := if p.clip = 31 then 1000 else if f = 3 then 8 * (p.clip + 1) else p.clip
  let clip := fun x : Int => if clipAt < x then clipAt else if x < -clipAt then -clipAt else x
  let drive := fun r : Nat => match ents.find? (fun e => e.1 == r) with
    | some e => if e.2.1 then clip (aligned r) else 0
    | none => aligned r
  let amps := ((List.range n).map (fun r => (r, drive r))).filter (fun e => e.2 != 0)
  let resid := ents.map (fun e => (e.2.2, if e.2.1 then aligned e.1 - clip (aligned e.1) else aligned e.1))
  let k := cellElems (ifmtType f)
  let bads := ((List.range (n / k)).filter (fun c => (rowInput f xs (c * k)).2 == 255)).length
  ({ p with ready := true, poison := xs.any (·.2) || badCell, scale := (top : Int) - 127 - (if f = 2 then 1 else 0),
            amps := amps, resid := resid }, al.any (·.2), bads)

/-! ## Phases (02 R45, R51 to R54) -/

/-- Driven amplitude of a row in a phase: H takes m div 16, L and the single phase m or m mod 16. -/
def phaseAmp (f weight : Nat) (x : Int) : Int :=
  let m := x.natAbs
  let d := if f ≠ 3 then m else if weight = 16 then m / 16 else m % 16
  if x < 0 then -(d : Int) else d

def phaseAmps (p : ArrayOp) (weight : Nat) : SMap Int :=
  (p.amps.map (fun e => (e.1, phaseAmp p.ifmt.val weight e.2))).filter (fun e => e.2 != 0)

/-- Sum of driven magnitudes of rows lo to hi - 1. -/
def driven (amps : SMap Int) (lo hi : Nat) : Nat :=
  (amps.map (fun e => if lo ≤ e.1 ∧ e.1 < hi then e.2.natAbs else 0)).sum

/-- The governor's split (02 R53). -/
def splitOf (amps : SMap Int) : Nat :=
  let q := fun i => driven amps (256 * i) (256 * i + 256)
  if q 0 + q 1 + q 2 + q 3 ≤ 4096 then 1 else if q 0 + q 1 ≤ 4096 ∧ q 2 + q 3 ≤ 4096 then 2 else 4

/-- Rows of sub-phase k of a split. -/
def subRows (split k : Nat) : Nat × Nat := (1024 / split * k, 1024 / split * (k + 1))
/-- Sub-phases that run: those with a driven row. -/
def liveSubs (amps : SMap Int) (split : Nat) : List Nat :=
  (List.range split).filter (fun k => decide (0 < driven amps (subRows split k).1 (subRows split k).2))

def allGroups : List Nat := List.range 32

/-- Phases of an operation that are not skipped. -/
def phasesOf (p : ArrayOp) : List Phase :=
  let mk := fun w : Nat =>
    let a := phaseAmps p w
    if a.isEmpty then [] else [(⟨w, splitOf a, allGroups, 0, [], false⟩ : Phase)]
  if p.ifmt = 3 then mk 16 ++ mk 1 else mk 1

/-- Charge of an operation at issue, 0.01 nJ (02 Table 2-11). -/
def issueCharge (ifmt : Fin 4) : Nat := if ifmt = 3 then 1079 else 556

/-! ## Governor (06 R194 to R196) -/

/-- Step time with the stretch of PERT_STRETCH (06 R191; 13 Table 13-8). -/
def stepNow (p : Partition) : Nat := min 20000 (p.stepTime + 25 * p.stretchOn)

/-- Charge in a field's window, as long as the partition's current step time (06 R196). -/
def windowSum (s : State) (f : Nat) : Nat :=
  match partOfField s f with
  | none => 0
  | some pn => match getPart s pn with
    | none => 0
    | some p => ((getF s f).window.map (fun e => if localNow s f < e.1 + stepNow p then e.2 else 0)).sum

/-- The governor holds the field's array issues (06 R196). -/
def governorHolds (s : State) (f : Nat) : Bool :=
  match partOfField s f with
  | none => false
  | some pn => match getPart s pn with
    | none => false
    | some p => decide (p.allowance < windowSum s f)

/-- A charge made in a field, by its copy of the time base (06 R196; counter 0x46). Entries older than the longest step time are dropped. -/
def chargeField (s : State) (f c : Nat) : State :=
  let t := localNow s f
  countF (updF s f (fun F => { F with window := (t, c) :: F.window.filter (fun e => decide (t < e.1 + 20000)) })) f 0x46 c

/-! ## Conversion and correction (02 R47; 03 R67, R68) -/

/-- Band table entry of a column group: offset in 1/8 code and gain in 2^-9 (03 Table 3-5). -/
def bandAt (s : State) (l b g k : Nat) : Int × Int :=
  let x := calBytes s 0x10 (bankSubject l b (g / 4)) (172 + 16 * (g % 4) + 2 * k) 2
  (signed 8 x, signed 8 (x / 256))

/-- Residuals of a slice column: offset in 1/8 code and gain in 2^-8. -/
def residualAt (s : State) (l b c : Nat) : Int × Int :=
  let bit := 5 * (c % 256)
  let x := calBytes s 0x10 (bankSubject l b (c / 256)) (12 + bit / 8) 2 / 2 ^ (bit % 8)
  (signed 3 x, signed 2 (x / 8))

def f32Of (m : Int) (e : Int) : F32 := F32.ofDy ⟨m, e⟩

/-- Band position: k and u (03 R68), evaluated in FP32. -/
def bandPos (t : Int) : Nat × F32 :=
  let f := fdiv (fsub (fdiv (f32Of t 0) (f32Of 8 0)) (f32Of 30 0)) (f32Of 10 0)
  let f := if flt f 0 then 0 else if flt (f32Of 7 0) f then f32Of 7 0 else f
  let k := min (F32.dy f).rat.floor.toNat 6
  (k, fsub f (f32Of k 0))

/-- Steps 2 and 3 of Table 3-1 on a code: (code - off) * gn, in FP32. -/
def correct23 (t : Int) (band0 band1 resid : Int × Int) (trim code : Int) : F32 :=
  let u := (bandPos t).2
  let one := f32Of 1 0
  let off := fadd (fadd (f32Of band0.1 (-3)) (fmul u (fsub (f32Of band1.1 (-3)) (f32Of band0.1 (-3))))) (f32Of resid.1 (-3))
  let bg := fadd (fadd one (f32Of band0.2 (-9))) (fmul u (fsub (f32Of band1.2 (-9)) (f32Of band0.2 (-9))))
  let gn := fmul (fmul bg (fadd one (f32Of resid.2 (-8)))) (fadd one (f32Of trim (-10)))
  fmul (fsub (f32Of code 0) off) gn

/-- The corrected code times 2^12 (03 R68, step 5). -/
def correctCode (t : Int) (band0 band1 resid : Int × Int) (trim code : Int) (drift : Nat) : Int :=
  let y := fdiv (correct23 t band0 band1 resid trim code) (f32Of drift (-15))
  ratRne ((F32.dy y).rat * 4096)

/-! ## Cells, columns and ADCs (02 R33, R34, R47; 03 Table 3-9) -/

/-- x held to the range from lo to hi. -/
def within (lo hi x : Rat) : Rat := if x < lo then lo else if hi < x then hi else x

/-- Conductance in µS a cell takes in a programming: its level's nominal 2.5 µS a step, inside the verify band of Table 2-1; at most 0.1 µS for level 0. -/
def cellSet (level : Nat) (err : Int) : Rat :=
  if level = 0 then within 0 (1 / 10) (err / 1000) else (5 / 2 : Rat) * level + within (-1 / 5) (1 / 5) (err / 1000)

/-- A cell of an array now: what it took, less its drift (Table 3-9). Cells 2k and 2k + 1 are the positive and negative cell of slice k. -/
def cellNow (id cycles age cell level : Nat) : Rat :=
  cellSet level (Config.cellError id cycles cell) * ((min 32768 (Config.cellKeep id cycles cell age) : Nat) / (32768 : Rat))

/-- Differential conductance of slice k in slice levels: positive less negative cell, over 2.5 µS. -/
def sliceNow (id cycles age k : Nat) (level : Int) : Rat :=
  (cellNow id cycles age (2 * k) level.toNat - cellNow id cycles age (2 * k + 1) (-level).toNat) / (5 / 2)

/-- What column wire loss leaves at a row: its gain falls linearly to 0.4 % at row 1,023 (Table 3-9). -/
def wireGain (row : Nat) : Rat := 1 - (row : Rat) * 4 / 1023000

/-- Number of an array among the module's, powered seconds since it was programmed. -/
def arrayId (l a : Nat) : Nat := l * 256 + a
def arrayAge (s : State) (A : WickArray) : Nat := s.powered / 1000000000 - A.psec

/-- Integral non-linearity of an ADC at a code, in codes: at most 1, in steps of at most 0.5 (Table 3-9). -/
def adcInl (adc : Nat) (code : Int) : Rat :=
  within (-1) 1 (((List.range (code + 256).toNat).map (fun k => within (-1 / 2) (1 / 2) (Config.adcDnl adc k / 4096))).foldl (· + ·) 0)

/-- Raw ADC code (02 R47) of a column's current in product units, in steps of 2^e, to nearest, ties to even, in conversion n. -/
def adcCode (adc : Nat) (x : Rat) (e n : Nat) : Int :=
  let y := (x + Config.readNoise n / 4096) / (2 ^ e : Nat)
  let held := fun c : Int => max (-256) (min 255 c)
  held (ratRne (y + adcInl adc (held (ratRne y)) + Config.adcNoise n / 4096))

/-- Range code of a column group of a logical array (02 R432). -/
def rangeOf (L : Lantern) (logical g : Nat) : Nat := 7 - tget 0 L.ranges (logical * 32 + g) % 8

/-- Ideal sum of a slice column over rows lo to hi - 1 (02 R34). -/
def columnSum (cells amps : SMap Int) (c lo hi : Nat) : Int :=
  (amps.map (fun e => if lo ≤ e.1 ∧ e.1 < hi then e.2 * tget 0 cells (e.1 * 2048 + c) else 0)).sum

/-- What a slice column's current comes to over rows lo to hi - 1, in product units: the ideal sum under the terms of Table 3-9. -/
def columnCurrent (id age : Nat) (A : WickArray) (amps : SMap Int) (c lo hi : Nat) : Rat :=
  (amps.map (fun e => if lo ≤ e.1 ∧ e.1 < hi then
    (e.2 : Rat) * sliceNow id A.cycles age (e.1 * 2048 + c) (tget 0 A.cells (e.1 * 2048 + c)) * wireGain e.1 else 0)).foldl (· + ·) 0

/-- ADC of slice column c of an array (02 R41). -/
def adcOf (l a c : Nat) : Nat := (l * 32 + a / 8) * 128 + c / 16

/-- Corrected code times 2^12 of slice column c for a raw code, at a temperature and drift scale. -/
def correctAt (s : State) (l a c : Nat) (temp : Int) (drift : Nat) (trim code : Int) : Int :=
  let k := (bandPos temp).1
  let b := a / 8
  let g := c / 64
  correctCode temp (bandAt s l b g k) (bandAt s l b g (k + 1)) (residualAt s l b c) trim code drift

/-- Conversion of one slice column in one sub-phase: corrected code times 2^12, and whether an end code was returned. -/
def convertColumn (s : State) (l : Nat) (p : ArrayOp) (weight : Nat) (rows : Nat × Nat) (n c : Nat) : Int × Bool :=
  let L := getL s l
  let A := getArr L p.phys
  let g := c / 64
  let x := columnCurrent (arrayId l p.phys) (arrayAge s A) A (phaseAmps p weight) c rows.1 rows.2
  let code := adcCode (adcOf l p.phys c) x (rangeOf L p.logical g) n
  (correctAt s l p.phys c p.temp p.drift (tget 0 A.trim g) code, code == -256 || code == 255)

/-- Slice columns of a list of groups, in ADC order. -/
def groupColumns (gs : List Nat) : List Nat := gs.flatMap (fun g => (List.range 64).map (64 * g + ·))

/-- One sub-phase of a phase: conversions of its groups, with the free values used. -/
def runSub (s : State) (l : Nat) (p : ArrayOp) (ph : Phase) (k : Nat) : List (Nat × Int × Bool) × Nat :=
  let cols := groupColumns ph.groups
  ((cols.zip (List.range cols.length)).map (fun (c, i) => (c, convertColumn s l p ph.weight (subRows ph.split k) (s.draws + i) c)),
   cols.length)

/-- The next finer split: none to 2, 2 to 4, 4 to 16 (02 R55). -/
def finer (split : Nat) : Nat := if split = 1 then 2 else if split = 2 then 4 else 16

/-! ## Contributions (02 R48; 03 R83) -/

def slicesOf (mode : Fin 3) : Nat := if mode = 0 then 1 else if mode = 1 then 2 else 4
/-- log2 of a slice's digit weight (02 Table 2-2). -/
def digitLog (mode : Fin 3) (i : Nat) : Nat := 2 * (slicesOf mode - 1 - i % slicesOf mode)

/-- Contributions of the conversions of an operation (04 Table 4-9). A poisoned operation poisons every output it writes (02 R50), in ADD mode also where every phase is skipped (DESIGN CHOICE, log 50: R52 leaves the destination unchanged there). -/
def arrayContrs (L : Lantern) (r : Run) : List Contr :=
  let mode := (getArr L r.op.phys).mode
  let m := slicesOf mode
  let poisons := if r.op.poison then (List.range (2048 / m)).map (fun j => (⟨r.op.acc + j / 32, j % 32, 0, 0, true, false⟩ : Contr)) else []
  poisons ++ r.convs.map (fun c =>
    let j := c.col / m
    ⟨r.op.acc + j / 32, j % 32, c.sig,
     (rangeOf L r.op.logical (c.col / 64) : Int) + digitLog mode c.col + (if c.weight = 16 then 4 else 0) + r.op.scale - 12,
     false, c.sat⟩)

/-- Lines of a digital row (06 R183). -/
def digitalLines (mode : Fin 3) : Nat := if mode = 0 then 32 else if mode = 1 then 16 else 8

/-- Residual contributions of weight column j: one per block scale (03 R83). -/
def residColumn (p : ArrayOp) (rows : List (List (Line × Bool) × Int)) (j : Nat) : List Contr :=
  let es := rows.map (fun e =>
    let x := e.1.getD (j / 64) (0, false)
    let sc := cellScale x.1 (j % 64 / 16)
    (sc, e.2 * signed 8 (elemCode 2 x.1 (j % 64)), x.2 || sc == 255))
  let bad := es.any (fun e => e.2.2)
  let scales := (es.map (·.1)).eraseDups
  let one := fun sc : Nat => (⟨p.acc + j / 32, j % 32, ((es.filter (fun e => e.1 == sc)).map (fun e => e.2.1)).sum,
    p.scale + (if sc = 255 then 0 else (sc : Int)) - 127, bad, false⟩ : Contr)
  scales.map one

end Sys2Proof.Machine
end

