-- ==== Sys2Proof/Machine/Monitors.lean ====
section
/-! DEFINITION. Range monitors of column groups: sampling, capture, range deviation figure, events (03 R84 to R90). -/

namespace Sys2Proof.Machine

/-- Square root of a rational, to the nearest 2^-16. -/
def ratSqrt (x : Rat) : Rat := if x ≤ 0 then 0 else (ratSqrtAt x 65536 : Nat) / (65536 : Rat)


/-- Standard deviation of mean and mean square. -/
def sigmaOf (mu qq : Rat) : Rat := ratSqrt (qq - mu * mu)

/-- Range deviation figure in 0.1 %, saturating at 999.9 % (R87). -/
def rdfOf (mu sigma mu0 sigma0 : Rat) : Nat :=
  let d := ratMax sigma0 1
  min 9999 (ratRne (1000 * ratMax (ratAbs (mu - mu0) / d) (ratAbs (sigma / d - 1)))).toNat

/-- Figure of a monitor now. -/
def rdfNow (m : Monitor) : Nat := rdfOf m.mu (sigmaOf m.mu m.qq) m.prof.1 (ratSqrt m.prof.2.1)

/-- Settings of the partition that holds lantern l (R89). -/
def monSetOf (s : State) (l : Nat) : MonSet :=
  match getPart s ((partOf s l).getD 16) with
  | some p => p.mon
  | none => {}

/-- DETAIL of an array event (13 Table 13-5): array, column group, quantity. -/
def arrayDetail (a g q : Nat) : Nat := a + g * 256 + q * 65536

/-- Slice columns of group g whose outputs a run did not poison (R70, R83). -/
def cleanColumns (mode : Fin 3) (r : Run) (g : Nat) : List Nat :=
  if r.op.poison then [] else ((List.range 64).map (64 * g + ·)).filter (fun c => !r.spoilt.contains (c / slicesOf mode))

/-- A group's sample of an operation: per slice column the sum of corrected code times phase weight, in codes (R84). -/
def groupSample (convs : List Conv) (cols : List Nat) : List Rat :=
  cols.map (fun i =>
    ((convs.filter (fun c => c.col == i)).foldl (fun (r : Rat) c => r + (c.sig : Rat) * (c.weight : Rat)) 0) / 4096)

def ratSum (xs : List Rat) : Rat := xs.foldl (· + ·) 0

/-- One sample enters the running figures (R85) and the capture (R86). -/
def sampleMonitor (w : Nat) (m : Monitor) (mean sq fs : Rat) : Monitor :=
  let k : Rat := 1 / (2 ^ w : Nat)
  let m := { m with mu := m.mu + k * (mean - m.mu), qq := m.qq + k * (sq - m.qq), s := m.s + k * (fs - m.s), nsamp := m.nsamp + 1 }
  if m.capturing then { m with sums := (m.sums.1 + mean, m.sums.2.1 + sq, m.sums.2.2 + fs) } else m

/-- Expected profile the program supplies for a group, when it supplies one. -/
def expectedOf (L : Lantern) (a g : Nat) : Option (Rat × Rat) :=
  match logicalOf L a with
  | none => none
  | some n =>
    let p := tget (0, 0, 0) L.profiles (n * 32 + g)
    if p = (0, 0, 0) then none else some ((F32.dy p.1).rat, (F32.dy p.2.1).rat)

/-- Capture ends when CAPTURE_N operations are sampled: the profile is set and compared with the program's (R86). -/
def endCapture (s : State) (l a g : Nat) (set : MonSet) (m : Monitor) : State × Monitor :=
  if !m.capturing || m.nsamp < set.captureN then (s, m) else
  let n : Rat := (m.nsamp : Nat)
  let mu0 := m.sums.1 / n
  let var0 := m.sums.2.1 / n - mu0 * mu0
  let m := { m with capturing := false, armed := true, prof := (mu0, if var0 < 0 then 0 else var0, m.sums.2.2 / n), unresolved := false,
                    warned := false, erred := false, satWarned := false }
  match expectedOf (getL s l) a g with
  | none => (s, m)
  | some e =>
    let r := rdfOf mu0 (ratSqrt m.prof.2.1) e.1 e.2
    if set.profTol < r then (raiseL s l sevWarn 0x0209 (arrayDetail a g r), { m with mismatch := true }) else (s, m)

/-- An event raised when a quantity reaches its threshold, not again until it has fallen below 0.8 of it (R88). -/
def thresholdEvent (s : State) (l sev code detail : Nat) (raised : Bool) (x t : Rat) : State × Bool :=
  if raised then (s, decide (t * 8 ≤ x * 10))
  else if t ≤ x then (raiseL s l sev code detail, true) else (s, false)

/-- The events of an armed monitor (R88). -/
def monitorEvents (s : State) (l a g : Nat) (set : MonSet) (m : Monitor) : State × Monitor :=
  if !m.armed then (s, m) else
  let r := rdfNow m
  let sat := ratMax ((set.satWarn : Nat) / (65536 : Rat)) (4 * m.prof.2.2)
  let (s, w) := thresholdEvent s l sevWarn 0x0205 (arrayDetail a g r) m.warned (r : Nat) (set.rdfWarn : Nat)
  let (s, e) := thresholdEvent s l sevError 0x0206 (arrayDetail a g r) m.erred (r : Nat) (set.rdfErr : Nat)
  let (s, x) := thresholdEvent s l sevWarn 0x0207 (arrayDetail a g (m.s * 1000).floor.toNat) m.satWarned m.s sat
  (s, { m with warned := w, erred := e, satWarned := x })

/-- Outputs of a group tagged saturated: its flag, and a WARN for the first after a capture (R88). -/
def noteUnresolved (s : State) (l a g : Nat) (hit : Bool) (m : Monitor) : State × Monitor :=
  if !hit then (s, m) else
  (if m.armed && !m.unresolved then raiseL s l sevWarn 0x0208 (arrayDetail a g 0) else s, { m with unresolved := true })

/-- One operation at the monitor of group g of its array: sampled over the columns it did not poison (R84, R85), tags noted. -/
def monitorGroup (l : Nat) (r : Run) (s : State) (g : Nat) : State :=
  let a := r.op.phys
  let set := monSetOf s l
  let cols := cleanColumns (getArr (getL s l) a).mode r g
  let m := tget {} (getL s l).monitors (a * 32 + g)
  let n : Rat := (cols.length : Nat)
  let xs := groupSample r.convs cols
  let fs : Rat := ((r.firstSat.eraseDups.filter (fun c => c / 64 == g)).length : Nat) / (64 : Rat)
  let (s, m) :=
    if cols.isEmpty then (s, m)
    else
      let (s, m) := endCapture s l a g set (sampleMonitor set.monW m (ratSum xs / n) (ratSum (xs.map (fun x => x * x)) / n) fs)
      monitorEvents s l a g set m
  let (s, m) := noteUnresolved s l a g (r.convs.any (fun c => c.sat && c.col / 64 == g)) m
  updL s l (fun L => { L with monitors := tset {} L.monitors (a * 32 + g) m })

/-- Every group of an operation that ran. -/
def sampleMonitors (s : State) (l : Nat) (r : Run) : State :=
  if r.convs.isEmpty then s else (List.range 32).foldl (monitorGroup l r) s

/-- Capture starts from zero for the groups of physical array a (R86); the running figures of R85 go on (DESIGN CHOICE, log 50). -/
def startCapture (s : State) (l a : Nat) : State :=
  updL s l (fun L => { L with monitors := (List.range 32).foldl (fun t g =>
    tupd {} t (a * 32 + g) (fun m => { m with capturing := true, armed := false, nsamp := 0, sums := (0, 0, 0), unresolved := false, mismatch := false })) L.monitors })

/-- Monitor entry of Table 3-3 as 16 bytes (R90). DESIGN CHOICE (log 50): RDF is 0 while no profile is armed; STATE shows WARN for RDF_WARN alone. -/
def monitorEntry (m : Monitor) : List Byte :=
  let state := if !m.armed then 0 else if m.erred then 3 else if m.warned then 2 else 1
  bytesOfNat 4 (ratF32 m.mu).toNat ++ bytesOfNat 4 (ratF32 (sigmaOf m.mu m.qq)).toNat
    ++ bytesOfNat 2 (if m.armed then rdfNow m else 0) ++ bytesOfNat 2 (min 65535 (m.s * 65536).floor.toNat)
    ++ bytesOfNat 2 (min 65535 m.nsamp) ++ bytesOfNat 1 state
    ++ bytesOfNat 1 ((if m.unresolved then 1 else 0) + (if m.mismatch then 2 else 0))
where
  /-- FP32 nearest to a rational, by its value to 2^-32. -/
  ratF32 (x : Rat) : F32 := F32.ofDy ⟨ratRne (x * 4294967296), -32⟩

end Sys2Proof.Machine
end

