-- ==== Sys2Proof/Machine/Probe.lean ====
section
/-! DEFINITION. Probes of an array: the direct REF measurement with its trims, and the retention signature (03 R98, R99; 11 R339, R340). -/

namespace Sys2Proof.Machine

/-- n probe vectors of 1,024 elements from a seed: driven amplitude by row. -/
def probes (n seed : Nat) : List (SMap Int) :=
  let xs := probeVector (1024 * n) (BitVec.ofNat 32 seed)
  (List.range n).map (fun v => (((xs.drop (1024 * v)).take 1024).zipIdx.filter (fun e => e.1 != 0)).map (fun e => (e.2, e.1)))

/-- The slice columns of group g, each with its raw codes by sub-phase, under the split given and the re-splits that apply (02 R53, R55); free values from n on. -/
def probeGroup (s : State) (l a : Nat) (amps : SMap Int) (e g : Nat) : Nat → Nat → Nat → List (Nat × List Int) × Nat
  | 0, _, n => ([], n)
  | fuel + 1, split, n =>
    let A := getArr (getL s l) a
    let subs := liveSubs amps split
    let one := fun c k i =>
      adcCode (adcOf l a c) (columnCurrent (arrayId l a) (arrayAge s A) A amps c (subRows split k).1 (subRows split k).2) e (n + i)
    let cols := (List.range 64).map (fun i => (64 * g + i, subs.zipIdx.map (fun k => one (64 * g + i) k.1 (i * subs.length + k.2))))
    if split != 16 && cols.any (fun c => c.2.any (fun x => x == -256 || x == 255)) then
      probeGroup s l a amps e g fuel (finer split) (n + 64 * subs.length)
    else (cols, n + 64 * subs.length)

/-- Raw codes of every slice column for each probe vector, at a range code by group. -/
def probeCodes (s : State) (l a : Nat) (vs : List (SMap Int)) (e : Nat → Nat) : List (List (Nat × List Int)) × Nat :=
  vs.foldl (fun acc amps =>
    let (xs, n) := allGroups.foldl (fun (r : List (Nat × List Int) × Nat) g =>
      let (ys, n) := probeGroup s l a amps (e g) g 4 (splitOf amps) r.2
      (r.1 ++ ys, n)) ([], acc.2)
    (acc.1 ++ [xs], n)) ([], s.draws)

/-- Corrected code of a column summed over its sub-phases, in codes (03 R69). -/
def probeSum (s : State) (l a : Nat) (drift : Nat) (trim : Int) (x : Nat × List Int) : Rat :=
  ((x.2.map (fun c => correctAt s l a x.1 (getL s l).temp drift trim c)).sum : Rat) / 4096

/-- The smallest range code that holds every ideal sum of a group (R98 step 3). -/
def rangeFor (ideals : List Int) : Nat := ((List.range 8).find? (fun e => ideals.all (fun i => decide (i.natAbs ≤ 255 * 2 ^ e)))).getD 7

/-- Trim nearest to a gain, in 2^-10, as the 8 bits of Table 3-6 hold it. -/
def trimOf (gain : Rat) : Int := max (-128) (min 127 (ratRne ((gain - 1) * 1024)))

/-- What a direct REF measurement gives: group trims, REF in 0.1 %, and the next free value (R98). -/
def directRef (s : State) (l a : Nat) : SMap Int × Nat × Nat :=
  let A := getArr (getL s l) a
  let vs := probes 16 (l * 256 + a + 1)
  let ideal := fun (amps : SMap Int) c => columnSum A.cells amps c 0 1024
  let e := fun g => rangeFor (vs.flatMap (fun v => (List.range 64).map (fun i => ideal v (64 * g + i))))
  let (runs, n) := probeCodes s l a vs e
  let pairs := fun (trim : Nat → Int) => (vs.zip runs).flatMap (fun (v, xs) =>
    xs.map (fun x => (x.1 / 64, probeSum s l a 32768 (trim (x.1 / 64)) x, (ideal v x.1 : Rat) / (2 ^ e (x.1 / 64) : Nat))))
  let raw := pairs (fun _ => 0)
  let trim := fun g =>
    let xs := raw.filter (fun x => x.1 == g)
    let cc := ratSum (xs.map (fun x => x.2.1 * x.2.1))
    trimOf (if cc = 0 then 1 else ratSum (xs.map (fun x => x.2.1 * x.2.2)) / cc)
  let trims := tfill (0 : Int) [] 0 ((List.range 32).map trim)
  let errs := (pairs (tget 0 trims)).map (fun x => (x.2.1 - x.2.2) * (x.2.1 - x.2.2))
  (trims, ratSqrtAt (ratSum errs / (16 * 2048) * (1000 / 256) * (1000 / 256)) 1, n)

/-- Byte of a retention signature: 16 log2(1 + r), to nearest, at most 255 (11 R339). -/
def sigByte (r : Rat) : Nat := ((List.range 255).filter (fun n => decide (((2 ^ (2 * n + 1) : Nat) : Rat) < (1 + r) ^ 32))).length

/-- Retention signature of an array at a drift scale, and the next free value (11 R339, R340). -/
def signature (s : State) (l a drift : Nat) : SMap Nat × Nat :=
  let A := getArr (getL s l) a
  let (runs, n) := probeCodes s l a (probes 8 (0x100000 + l * 256 + a + 1)) (fun _ => 3)
  let xs := runs.flatMap (fun r => r.map (fun x => (x.1 / 64, probeSum s l a drift (tget 0 A.trim (x.1 / 64)) x)))
  let byte := fun g => sigByte (ratSqrt (ratSum ((xs.filter (fun x => x.1 == g)).map (fun x => x.2 * x.2)) / (64 * 8)))
  (tfill 0 [] 0 ((List.range 32).map byte), n)

/-- Largest difference of two signatures (11 R340). -/
def sigDistance (x y : SMap Nat) : Nat := (List.range 32).foldl (fun m g => max m (((tget 0 x g : Nat) : Int) - ((tget 0 y g : Nat) : Int)).natAbs) 0

end Sys2Proof.Machine
end

