-- ==== Sys2Proof/Machine/ArrayEvents.lean ====
section
/-! DEFINITION. Events of the ADC banks: start, phases, outputs, residual, restore; reference operations, drift, temperature (02 R40 to R60; 03 R71 to R83, R100, R106). -/

namespace Sys2Proof.Machine

/-! ## Phases in time -/

/-- Charge and counts of starting a sub-phase: none for the first of a phase, which is in the issue charge (02 Table 2-11). -/
def startSub (s : State) (l : Nat) (first resplit : Bool) : State :=
  if resplit then countL (chargeField s (fieldOf l) 360) l 0x08 1
  else if first then s else chargeField s (fieldOf l) 305

/-- A phase starts: its split is counted (sources 0x06, 0x07). -/
def startPhase (s : State) (l : Nat) (p : ArrayOp) (ph : Phase) : State × Phase :=
  let s := countL (countL s l 0x06 (if ph.split = 2 then 1 else 0)) l 0x07 (if ph.split = 4 then 1 else 0)
  (s, { ph with sub := (liveSubs (phaseAmps p ph.weight) ph.split).headD 0 })

/-- A derated quadrant has 16 banks converting at once (12 R371). -/
def derateHolds (s : State) (l : Nat) : Bool :=
  let F := getF s (fieldOf l)
  F.derated.contains (quadrantOf l) &&
    decide (16 ≤ (((lanternsIn (fieldOf l)).filter (fun k => quadrantOf k == quadrantOf l)).map
      (fun k => ((getL s k).banks.filter (fun b => b.2.run.isSome)).length)).sum)

/-- The wait code that the operation in a bank's issue slot is held on now, 0 when none (06 R192). -/
def holdSlot (l b code : Nat) (s : State) : State :=
  let B := getBank (getL s l) b
  if B.wait = code then s
  else updBank (waitEnded s l B.wait B.since) l b (fun B => { B with wait := code, since := if code = 0 then 0 else nowNs s })

/-- Why an operation may not start yet: governor, earlier placements or an earlier clear; 0 for its bank or none (06 R196; 04 R133). -/
def slotWait (s : State) (l : Nat) (p : ArrayOp) : Nat :=
  let L := getL s l
  if governorHolds s (fieldOf l) then 0x0D else if accWaits L p.seq p.acc (arrayBlocks L p).2 p.set then 0x0F else 0

/-- ARRAY_OP_START: the operation in the issue slot starts on its bank (02 R40, R52, R60; 04 R133; 06 R196). -/
def startArrayOp (l b : Nat) (s : State) : State :=
  let L := getL s l
  let B := getBank L b
  match B.slot with
  | none => s
  | some p =>
    let phs := phasesOf p
    let busy := !phs.isEmpty && (B.run.isSome || B.prog.isSome || !B.on || derateHolds s l)
    let s := holdSlot l b (slotWait s l p) s
    if slotWait s l p != 0 || busy then s
    else
      let s := if p.set then updL s l (fun L => { L with acc := clearBlocks L.acc p.acc (arrayBlocks L p).2 }) else s
      let r : Run := { op := p, todo := phs, convs := [], firstSat := [], placed := false, residDone := p.resid.isEmpty, restored := phs.isEmpty }
      match phs with
      | [] => updBank (countL s l 0x05 1) l b (fun B => { B with slot := none, late := B.late ++ [r] })
      | ph :: rest =>
        let (s, ph) := startPhase (chargeField s (fieldOf l) (issueCharge p.ifmt)) l p ph
        updBank s l b (fun B => { B with slot := none, run := some { r with todo := ph :: rest } })

/-- Conversions of finished groups kept for the accumulator; at the finest split end codes tag the output (02 R56). -/
def keepConvs (ph : Phase) (gs : List Nat) : List Conv :=
  (ph.got.filter (fun x => gs.contains (x.1 / 64))).map (fun x => ⟨x.1, x.2.1, ph.weight, ph.split == 16 && x.2.2⟩)

/-- What follows the last sub-phase of a pass: re-split of the saturated groups, the next phase, or the restore (02 R55). -/
def endPass (l : Nat) (r : Run) (ph : Phase) (rest : List Phase) (s : State) : State × Run :=
  let ends := (ph.got.filter (fun x => x.2.2)).map (·.1)
  let sat := ph.groups.filter (fun g => ph.split != 16 && ends.any (fun c => c / 64 == g))
  let r := { r with convs := r.convs ++ keepConvs ph (ph.groups.filter (fun g => !sat.contains g)),
                    firstSat := if ph.resplit then r.firstSat else r.firstSat ++ ends.eraseDups }
  if sat.isEmpty then
    match rest with
    | [] => (s, { r with todo := [] })
    | n :: rest =>
      let (s, n) := startPhase s l r.op n
      (s, { r with todo := n :: rest })
  else
    let f := finer ph.split
    let n : Phase := ⟨ph.weight, f, sat, (liveSubs (phaseAmps r.op ph.weight) f).headD 0, [], true⟩
    (startSub s l true true, { r with todo := n :: rest })

/-- PHASE_COMPLETE: the sub-phase in progress ends its conversions (02 R46, R54). -/
def endSubPhase (l b : Nat) (s : State) : State :=
  match (getBank (getL s l) b).run with
  | none => s
  | some r =>
    match r.todo with
    | [] => s
    | ph :: rest =>
      let (got, n) := runSub s l r.op ph ph.sub
      let s := { s with draws := s.draws + n }
      let ph := { ph with got := ph.got ++ got }
      let (s, r) := match (liveSubs (phaseAmps r.op ph.weight) ph.split).find? (fun k => decide (ph.sub < k)) with
        | some k => (startSub s l false ph.resplit, { r with todo := { ph with sub := k } :: rest })
        | none => endPass l r ph rest s
      updBank s l b (fun B => { B with run := some r })

/-- The first run of a bank a test holds of, among those past the bank and the one on it, replaced by f of it. -/
def updRuns (B : Bank) (p : Run → Bool) (f : Run → Run) : Bank :=
  if B.late.any p then
    { B with late := (B.late.foldl (fun (t : List Run × Bool) r => if !t.2 && p r then (t.1 ++ [f r], true) else (t.1 ++ [r], t.2)) ([], false)).1 }
  else { B with run := B.run.map (fun r => if p r then f r else r) }

/-- Runs past the bank with nothing left to place are done. -/
def dropDone (B : Bank) : Bank := { B with late := B.late.filter (fun r => !(r.placed && r.residDone)) }

def firstRun (B : Bank) (p : Run → Bool) : Option Run := (B.late ++ B.run.toList).find? p

/-- Conversions are over and outputs are not placed yet. -/
def toPlace (r : Run) : Bool := r.todo.isEmpty && !r.placed
def toResid (r : Run) : Bool := !r.residDone

/-- Outputs tagged saturated by a run (source 0x09). -/
def taggedOutputs (L : Lantern) (r : Run) : Nat :=
  ((r.convs.filter (·.sat)).map (fun c => c.col / slicesOf (getArr L r.op.phys).mode)).eraseDups.length

/-- The first run of a bank a test holds of has placed what f notes; once it has placed all, the monitors sample it (03 Table 3-1, R84). -/
def settleRun (l b : Nat) (p : Run → Bool) (f : Run → Run) (r : Run) (s : State) : State :=
  let s := updBank s l b (fun B => dropDone (updRuns B p f))
  if (f r).placed && (f r).residDone then sampleMonitors s l (f r) else s

/-- Outputs of the first run of a bank to place are held on a wait code (06 R192). -/
def holdOutputs (l b code : Nat) (r : Run) (s : State) : State :=
  if r.wait = code then s
  else updBank (waitEnded s l r.wait r.since) l b (fun B => updRuns B toPlace (fun r => { r with wait := code, since := nowNs s }))
/-- Its residual is. -/
def holdResidual (l b code : Nat) (r : Run) (s : State) : State :=
  if r.resWait = code then s
  else updBank (waitEnded s l r.resWait r.resSince) l b (fun B => updRuns B toResid (fun r => { r with resWait := code, resSince := nowNs s }))

/-- ARRAY_OP_COMPLETE: corrected outputs are placed, or wait for an extended accumulator set (02 R48, R50; 04 R132). -/
def placeOutputs (l b : Nat) (s : State) : State :=
  match firstRun (getBank (getL s l) b) toPlace with
  | none => s
  | some r =>
    match placeIn s l (arrayContrs (getL s l) r) with
    | none => holdOutputs l b 0x08 r s
    | some s' =>
      let s' := countL (waitEnded s' l r.wait r.since) l 0x09 (taggedOutputs (getL s l) r)
      settleRun l b toPlace (fun r => { r with placed := true, wait := 0, since := 0 }) r s'

/-- Is the wide engine free for a residual: not in the middle of an instruction (03 R83)? -/
def wideFree (L : Lantern) : Bool :=
  match (getEng L 2).q with
  | ⟨_, _, _, .emit _ _, _⟩ :: _ => false
  | _ => true

/-- Lines of an operation's digital rows, read KEEP (03 R83; 06 R183). -/
def rowReads (mode : Fin 3) (rows : List (Nat × Int)) : List LineRead := rows.flatMap (fun e => keepReads e.1 (digitalLines mode) 2)

/-- The lines read as rows, each with its factor. -/
def splitRows (n : Nat) (rows : List (Nat × Int)) (xs : List (Line × Bool)) : List (List (Line × Bool) × Int) :=
  (rows.zip (chunks n rows.length xs)).map (fun e => (e.2, e.1.2))

/-- Weight columns that digital rows poison (03 R83). -/
def spoiltColumns (p : ArrayOp) (mode : Fin 3) (rows : List (List (Line × Bool) × Int)) : List Nat :=
  (List.range (2048 / slicesOf mode)).filter (fun j => (residColumn p rows j).any (fun c => c.poison))

/-- OUTLIER_RESIDUAL: the wide engine adds an operation's residual to its destination, or the residual waits for the engine, a line or an extended set (03 R83). -/
def placeResidual (l b : Nat) (s : State) : State :=
  let L := getL s l
  match firstRun (getBank L b) toResid with
  | none => s
  | some r =>
    let mode := (getArr L r.op.phys).mode
    if !wideFree L then holdResidual l b 0x07 r s else
    let (s', xs, e) := gather l ((rowReads mode r.op.resid).drop r.rows.length) s
    let s' := updBank s' l b (fun B => updRuns B toResid (fun r => { r with rows := r.rows ++ xs }))
    match e with
    | .hazard i => trapNow s' l causeFormat i
    | .empty => holdResidual l b 0x01 r (if xs.isEmpty then s else s')
    | .all =>
      let rows := splitRows (digitalLines mode) r.op.resid (r.rows ++ xs)
      let s1 := countL s' l 0x2B (badCells 2 (r.rows ++ xs))
      match placeIn s1 l ((List.range (2048 / slicesOf mode)).flatMap (residColumn r.op rows)) with
      | none => holdResidual l b 0x08 r s'
      | some s2 =>
        let bad := spoiltColumns r.op mode rows
        settleRun l b toResid (fun r => { r with residDone := true, spoilt := bad, rows := [], resWait := 0, resSince := 0 }) r
          (waitEnded s2 l r.resWait r.resSince)

/-- BANK_RESTORE_DONE: the restore ends and the bank is free (02 R49). -/
def endRestore (l b : Nat) (s : State) : State :=
  match (getBank (getL s l) b).run with
  | none => s
  | some r => if r.todo.isEmpty then updBank s l b (fun B => dropDone { B with run := none, late := B.late ++ [{ r with restored := true }] }) else s

/-! ## Reference operations and drift (03 R73 to R77, R100) -/

/-- Signed level of reference column k (R73). -/
def refLevel (k : Nat) : Int := if k ≤ 7 then ((k % 3 + 1 : Nat) : Int) else -((k % 3 + 1 : Nat) : Int)

/-- The reference columns as programmed: the column's level in rows 0 to 63, by row * 16 + column (R73). -/
def refPattern : SMap Int := (List.range 64).flatMap (fun r => (List.range 16).map (fun k => (r * 16 + k, refLevel k)))

/-- Slice number of a reference column's row, past those of the slice columns. -/
def refSlice (r k : Nat) : Nat := 2 ^ 21 + r * 16 + k

/-- Current of reference column k with rows 0 to 63 at amplitude +8 (R74). -/
def refCurrent (id age : Nat) (A : WickArray) (k : Nat) : Rat :=
  ratSum ((List.range 64).map (fun r => 8 * sliceNow id A.cycles age (refSlice r k) (tget 0 A.refs (r * 16 + k)) * wireGain r))

/-- Corrected code of reference column k: range code 3, steps 2 and 3 with the band table of group 2k, residuals zero (R74). -/
def refCode (s : State) (l a n k : Nat) : Rat :=
  let L := getL s l
  let A := getArr L a
  let kb := (bandPos L.temp).1
  let code := adcCode (adcOf l a (128 * k)) (refCurrent (arrayId l a) (arrayAge s A) A k) 3 n
  (F32.dy (correct23 L.temp (bandAt s l (a / 8) (2 * k) kb) (bandAt s l (a / 8) (2 * k) (kb + 1)) (0, 0) (tget 0 A.trim (2 * k)) code)).rat

/-- Mean of reference column k over the samples kept. -/
def refMean (xs : List (List Rat)) (k : Nat) : Rat := ratSum (xs.map (fun x => x.getD k 0)) / (xs.length : Nat)

/-- Whether drift compensation is enabled for the partition of lantern l (R79). -/
def driftEnabled (s : State) (l : Nat) : Bool :=
  match getPart s ((partOf s l).getD 16) with
  | some p => p.drift
  | none => true

/-- An array of a Ryile program reaches REF_REFRESH: queued for a touch-up, at most once per 24 h of powered time (R105, R106, R108; log 50). -/
def queueTouch (s : State) (l a : Nat) : State :=
  match getPart s ((partOf s l).getD 16) with
  | none => s
  | some p =>
    let A := getArr (getL s l) a
    let ryile := match p.prog with | some g => g.ryile | none => false
    let due := match A.touchLast with | some t => decide (t + 86400000000000 ≤ s.powered) | none => true
    if ryile && due && !A.degraded && !A.touchQueued && decide (p.refresh ≤ A.reft) then
      updArr s l a (fun A => { A with touchQueued := true, touchRow := 0 })
    else s

/-- Tracked REF in 0.1 % (R100), at most 255. -/
def trackedRef (ref0 : Nat) (e2 e02 : Rat) : Nat :=
  min 255 (ratSqrtAt ((ref0 * ref0 : Nat) + (1000 : Rat) * 1000 / (256 * 256) * ratMax 0 (e2 - e02)) 1)

/-- Reference columns that count: those not found unhealthy. -/
def refHealthy (A : WickArray) : List Nat := (List.range 16).filter (fun k => !A.badRef.contains k)
/-- Baseline b_k in codes. -/
def refBase (A : WickArray) (k : Nat) : Rat := ((tget (0 : Int) A.base k : Int) : Rat) / 64

/-- The scale that the samples kept give, in 2^-15, held to 0.5 to 1.25 (R76). None where the baselines sum to 0, as before the first programming (DESIGN CHOICE, log 50). -/
def newScale (A : WickArray) : Option Nat :=
  let ok := refHealthy A
  let sb := ratSum (ok.map (fun k => ratAbs (refBase A k)))
  if sb = 0 then none
  else some (max 16384 (min 40960 (ratRne (ratSum (ok.map (fun k => ratAbs (refMean A.samples k))) / sb * 32768)))).toNat

/-- Whether a new scale d is taken while scale old is in force: 2^-12 away or more (R76). -/
def scaleMoves (d old : Nat) : Bool := decide (8 ≤ (d : Int) - old ∨ 8 ≤ (old : Int) - d)

/-- A new scale from the samples kept (R76, R77, R100). DESIGN CHOICE (log 50): the unhealthy test divides by the new scale, also while compensation is disabled; e_t divides by it, or by 1 while compensation is disabled, and is 0 with no healthy column; without a scale the count of samples starts again. -/
def driftUpdate (s : State) (l a : Nat) : State :=
  let A := getArr (getL s l) a
  match newScale A with
  | none => updArr s l a (fun A => { A with fresh := 0 })
  | some d =>
  let dr : Rat := (d : Nat) / (32768 : Rat)
  let diff := fun k : Nat => refMean A.samples k / (if driftEnabled s l then dr else 1) - refBase A k
  let bad := (refHealthy A).filter (fun k => decide (8 < ratAbs (refMean A.samples k / dr - refBase A k)))
  let good := (refHealthy A).filter (fun k => !bad.contains k)
  let s := forEach bad (fun k s => raiseL s l sevWarn 0x0202 (arrayDetail a (2 * k) 0)) s
  let e2 := if good.isEmpty then 0 else ratSum (good.map (fun k => diff k * diff k)) / (good.length : Nat)
  let e0 := A.e0sq.getD e2
  let stale := decide (good.length < 8) || (getF s (fieldOf l)).noTempWarned
  let s := if d < 27853 ∧ !A.lowWarned then raiseL s l sevWarn 0x0203 (arrayDetail a 255 (d * 1000 / 32768)) else s
  let s := if stale && !A.stale then countL s l 0x0E 1 else s
  let next := if stale then none else if driftEnabled s l && scaleMoves d A.drift then some d else A.driftNext
  let s := updArr s l a (fun A =>
    { A with fresh := 0, badRef := A.badRef ++ bad, driftNext := next, e0sq := some e0, reft := trackedRef A.ref0 e2 e0,
             stale := stale, lowWarned := decide (d < 27853) })
  queueTouch s l a

/-- One reference operation: its charge and count, and the 16 samples that join the array's history (R74; 02 Table 2-11). -/
def takeSample (s : State) (l a : Nat) : State :=
  let xs := (List.range 16).map (fun k => refCode s l a (s.draws + k) k)
  let s := countL (chargeField { s with draws := s.draws + 16 } (fieldOf l) 20) l 0x0D 1
  updArr s l a (fun A => { A with samples := (xs :: A.samples).take 64, fresh := A.fresh + 1, lastSample := nowNs s })

/-- A reference operation in service: every 16 samples give a new scale (R76). -/
def refSample (s : State) (l a : Nat) : State :=
  let s := takeSample s l a
  if 16 ≤ (getArr (getL s l) a).fresh then driftUpdate s l a else s

/-- n reference operations, one after the other. -/
def takeSamples (n l a : Nat) (s : State) : State := (List.range n).foldl (fun s _ => takeSample s l a) s

/-- A reference operation on an idle bank (R57, R74, R76; 02 Table 2-11). -/
def referenceOp (l a : Nat) (s : State) : State :=
  let B := getBank (getL s l) (a / 8)
  if !B.on || B.slot.isSome || B.run.isSome || B.prog.isSome then s else refSample s l a

/-- An array's drift scale becomes stale: flag and count; the scale stays, and 16 samples must follow the cause (R77). -/
def setStale (s : State) (l a : Nat) : State :=
  let s := if (getArr (getL s l) a).stale then s else countL s l 0x0E 1
  updArr s l a (fun A => { A with stale := true, fresh := 0, driftNext := none })

/-! ## Temperature (03 R71, R72) -/

def sensorAt (F : Field) (n : Nat) : Sensor := tget {} F.sensors n

/-- Temperature of quadrant q of a field; none when no sensor is healthy. -/
def quadrantTemp (F : Field) (q : Nat) : Option Int :=
  let d := sensorAt F q
  let r := sensorAt F (4 + q / 2)
  if !d.bad then some d.reading
  else if !r.bad then some r.reading
  else match (List.range 6).filterMap (fun n => let x := sensorAt F n; if x.bad then none else some x.reading) with
    | [] => none
    | t :: ts => some (ts.foldl max t)

/-- A new temperature of a lantern's arrays: in force at the next step boundary of its partition, at once outside one. -/
def setTemp (s : State) (l : Nat) (t : Int) : State :=
  updL s l (fun L => if (partOf s l).isSome then { L with tempNext := some t } else { L with temp := t, tempNext := none })

/-- A field has a healthy sensor again: the 16 samples that clear a stale flag count from now (R77). -/
def restartSamples (l : Nat) (s : State) : State :=
  updL s l (fun L => { L with arrays := L.arrays.map (fun e => (e.1, if e.2.stale then { e.2 with fresh := 0 } else e.2)) })

/-- TEMPERATURE_UPDATE of a field. -/
def updateTemps (f : Nat) (s : State) : State :=
  match quadrantTemp (getF s f) 0 with
  | some _ =>
    let s := if (getF s f).noTempWarned then forEach (lanternsIn f) restartSamples s else s
    let s := updF s f (fun F => { F with noTempWarned := false })
    (lanternsIn f).foldl (fun s l => match quadrantTemp (getF s f) (quadrantOf l) with
      | some t => setTemp s l t
      | none => s) s
  | none =>
    let s := if (getF s f).noTempWarned then s else raiseF s f sevWarn 0x0204 (arrayDetail 0 255 0)
    let s := updF s f (fun F => { F with noTempWarned := true })
    (lanternsIn f).foldl (fun s l => (List.range 256).foldl (fun s a => setStale s l a) s) s

/-! ## Commands -/

/-- An operation starts on its bank (02 R40). -/
def execArrayOpStart (l bank : Nat) (s : State) : Out := guarded (lanternOk l && bankOk bank) (startArrayOp l bank s)
/-- A phase or sub-phase ends (02 R46). -/
def execPhaseComplete (l bank : Nat) (s : State) : Out := guarded (lanternOk l && bankOk bank) (endSubPhase l bank s)
/-- Corrected outputs are placed (02 R50). -/
def execArrayOpComplete (l bank : Nat) (s : State) : Out := guarded (lanternOk l && bankOk bank) (placeOutputs l bank s)
/-- The residual is added (03 R83). -/
def execOutlierResidual (l bank : Nat) (s : State) : Out := guarded (lanternOk l && bankOk bank) (placeResidual l bank s)
/-- The restore ends (02 R49). -/
def execBankRestoreDone (l bank : Nat) (s : State) : Out := guarded (lanternOk l && bankOk bank) (endRestore l bank s)
/-- A reference operation runs (03 R76). -/
def execReferenceOperation (l arr : Nat) (s : State) : Out := guarded (lanternOk l && arrOk arr) (referenceOp l arr s)
/-- No reference sample for 10 s (03 R77). -/
def execDriftStaleTimeout (l arr : Nat) (s : State) : Out :=
  guarded (lanternOk l && arrOk arr)
    (if (getArr (getL s l) arr).lastSample + 10000000000 ≤ nowNs s then setStale s l arr else s)
/-- New temperatures of a field's arrays (03 R72). -/
def execTemperatureUpdate (field : Nat) (s : State) : Out := guarded (fieldOk field) (updateTemps field s)

end Sys2Proof.Machine
end

