-- ==== Sys2Proof/Machine/Image.lean ====
section
/-! DEFINITION. The program image: its sections, the load checks in their order, and what a load writes (06 R169 to R176; 09 R276; 08 R241, R242). -/

namespace Sys2Proof.Machine

/-! ## Reading an image -/

/-- Is every byte of n from place i on zero? -/
def zeroAt (bs : List Byte) (i n : Nat) : Bool := fieldAt bs i n == 0

/-- A directory entry (06 Table 6-11). -/
structure Sec where
  typ : Nat
  field : Nat
  slot : Nat
  port : Nat
  rsvd : Nat
  off : Nat
  len : Nat
  deriving DecidableEq, Repr

def imgNsect (im : List Byte) : Nat := fieldAt im 128 4
def secAt (im : List Byte) (i : Nat) : Sec :=
  let e := (im.drop (512 + 16 * i)).take 16
  ⟨fieldAt e 0 2, fieldAt e 2 1, fieldAt e 3 1, fieldAt e 4 1, fieldAt e 5 3, fieldAt e 8 4, fieldAt e 12 4⟩
def imgSecs (im : List Byte) : List Sec := (List.range (imgNsect im)).map (secAt im)
def secBytes (im : List Byte) (c : Sec) : List Byte := (im.drop c.off).take c.len
/-- The sections of a type for a slot of a field. -/
def slotSecs (im : List Byte) (typ i k : Nat) : List Sec := (imgSecs im).filter (fun c => c.typ == typ && c.field == i && c.slot == k)
/-- The one section of a type for a slot, or nothing. -/
def slotSec (im : List Byte) (typ i k : Nat) : List Byte :=
  match slotSecs im typ i k with
  | c :: _ => secBytes im c
  | [] => []

def imgSlots (im : List Byte) : Nat := fieldAt im 12 1
def imgSched (im : List Byte) : Bool := (fieldAt im 9 1).testBit 3
/-- SHA-384 of bytes 0 to 463 and of every byte after byte 511 (R169). -/
def imgDigest (im : List Byte) : BitVec 384 := Config.sha384 (im.take 464 ++ im.drop 512)
/-- A digest as a number of 48 little-endian bytes. -/
def digestAt (bs : List Byte) (i : Nat) : BitVec 384 := BitVec.ofNat 384 (fieldAt bs i 48)
def digestBytes (d : BitVec 384) : List Byte := bytesOfNat 48 d.toNat

/-- Header fields of an image. -/
def imgProgram (im : List Byte) : Program :=
  let fl := fieldAt im 9 1
  { image := im, ryile := fl.testBit 0, draft := fl.testBit 1, sched := fl.testBit 3, stepTime := fieldAt im 10 2, slots := fieldAt im 12 1,
    vocab := fieldAt im 16 4, ctxmax := fieldAt im 20 4, peak := fieldAt im 24 4, margin := BitVec.ofNat 32 (fieldAt im 28 4),
    clayout := digestAt im 32, wset := digestAt im 80, digest := imgDigest im }

/-- Field with index i of a rectangle (R171). -/
def fieldAtIx (p : Partition) (i : Nat) : Nat := (p.fy0 + i / p.w) * 10 + p.fx0 + i % p.w

/-- Slots of an image in field and slot order: field index, slot. -/
def imgTargets (p : Partition) (im : List Byte) : List (Nat × Nat) :=
  (List.range (p.w * p.h)).flatMap (fun i => (List.range (imgSlots im)).map (fun k => (i, k)))

def targetLantern (s : State) (p : Partition) (t : Nat × Nat) : Nat := (slotLantern s (fieldAtIx p t.1) t.2).getD 65535

/-- Field allowance per step, 0.01 nJ (06 R194; 12 R373): share in 0.1 W, header step time in ns. -/
def allowanceOf (p : Partition) (share step : Nat) : Nat := share * 3500 * step / (610 * (p.w * p.h))

/-! ## The load checks (09 R276): reason, lantern or 0xFFFF, index -/

abbrev Rej := Nat × Nat × Nat
def noLantern : Nat := 65535

/-- A test with what it rejects with. -/
def firstBad (l : List (Bool × Rej)) : Option Rej := (l.find? (fun c => !c.1)).map (·.2)

/-- The first of several orders of checks that rejects. -/
def firstSome {α : Type} (l : List (Option α)) : Option α := l.findSome? id

/-- The lowest of the entries that checks of one lantern reject (R276). -/
def lowestOf (l : List (Option Nat)) : Option Nat := l.foldl (fun m x => match m, x with | some a, some b => some (min a b) | none, b => b | a, none => a) none

/-- The first lantern, in field and slot order, that a check rejects. -/
def eachTarget (p : Partition) (im : List Byte) (f : Nat × Nat → Option Rej) : Option Rej := (imgTargets p im).findSome? f

/-- Length that fits a section's type. -/
def secLenOk (im : List Byte) (c : Sec) : Bool :=
  match c.typ with
  | 1 => c.len % 8 == 0 && decide (c.len ≤ 65536)
  | 2 => c.len == 512
  | 3 => c.len == 5120
  | 4 => decide (64 ≤ c.len) && (c.len - 64) % 68 == 0
  | 5 => c.len == 64 + 8 * (fieldAt (secBytes im c) 2 2 + 1)
  | 6 => c.len == 95232
  | _ => c.len == 144

def secTargetOk (p : Partition) (im : List Byte) (c : Sec) : Bool :=
  if c.typ = 7 then c.field == 255 && c.slot == 255 && decide (c.port < 40)
  else decide (c.field < p.w * p.h) && decide (c.slot < imgSlots im) && (if c.typ = 5 then decide (c.port ≤ 4) else c.port == 0)

/-- Two sections of one type for one target. -/
def secTwice : List Sec → Bool
  | [] => false
  | c :: cs => (c.typ != 4 && cs.any (fun d => d.typ == c.typ && d.field == c.field && d.slot == c.slot && d.port == c.port)) || secTwice cs

def secMeet : List Sec → Bool
  | [] => false
  | c :: cs => cs.any (fun d => meets c.off c.len d.off d.len) || secMeet cs

/-- Header and directory: the part of reason 0x08 that concerns no lantern. -/
def headOk (p : Partition) (im : List Byte) : Bool :=
  let fl := fieldAt im 9 1
  let step := fieldAt im 10 2
  let n := imgNsect im
  decide (512 ≤ im.length) && fieldAt im 0 4 == 0x47575653 && fieldAt im 4 2 == 1
    && (fl == fl % 16 && !fl.testBit 2) && (decide (100 ≤ step) && decide (step ≤ 2000) && step % 25 == 0)
    && (decide (1 ≤ imgSlots im) && decide (imgSlots im ≤ 16)) && zeroAt im 13 3
    && (decide (1 ≤ fieldAt im 16 4) && decide (fieldAt im 16 4 ≤ 16777216))
    && (decide (1 ≤ fieldAt im 20 4) && decide (fieldAt im 20 4 ≤ 1048576))
    && (decide (fieldAt im 28 4 < 0x7F800000) || fieldAt im 28 4 == 0x80000000) && zeroAt im 132 332
    && (decide (1 ≤ n) && decide (n ≤ 65536)) && decide (512 + 16 * n ≤ im.length)
    && (let cs := imgSecs im
        let last := cs.foldl (fun m c => max m (c.off + c.len)) (512 + 16 * n)
        decide (last ≤ im.length) && decide (im.length ≤ last + 63) && (im.drop last).all (· == 0)
          && cs.all (fun c => decide (1 ≤ c.typ) && decide (c.typ ≤ 7) && c.rsvd == 0 && c.off % 64 == 0
            && decide (512 + 16 * n ≤ c.off) && secTargetOk p im c && secLenOk im c)
          && !secTwice cs && !secMeet cs
          && (imgTargets p im).all (fun t => (slotSecs im 1 t.1 t.2).length == 1 && (slotSecs im 2 t.1 t.2).length == 1))
    && digestAt im 464 == imgDigest im

/-! ### A lantern's configuration (06 Table 6-13) -/

/-- Queue entry q: base, depth, producer, entry, reserved. -/
def lcQueue (b : List Byte) (q : Nat) : Nat × Nat × Nat × Nat × Nat :=
  let i := 16 + 8 * q
  (fieldAt b i 2, fieldAt b (i + 2) 2, fieldAt b (i + 4) 2, fieldAt b (i + 6) 1, fieldAt b (i + 7) 1)
/-- Sluice entry e: destination, kind, number, class, reserved, grant. -/
def lcSluice (b : List Byte) (e : Nat) : Nat × Nat × Nat × Nat × Nat × Nat :=
  let i := 144 + 8 * e
  (fieldAt b i 2, fieldAt b (i + 2) 1, fieldAt b (i + 3) 1, fieldAt b (i + 4) 1, fieldAt b (i + 5) 1, fieldAt b (i + 6) 2)
/-- Import lane or intake channel at byte i: producer, entry, reserved. -/
def lcLane (b : List Byte) (i : Nat) : Nat × Nat × Nat := (fieldAt b i 2, fieldAt b (i + 2) 1, fieldAt b (i + 3) 1)

def kindAssigned (k : Nat) : Bool := decide (k ≤ 3) || k == 255

/-- Reason 0x08 within an LCONF section: the lowest entry that fails; 0 where no entry is at fault (DESIGN CHOICE, log 53). -/
def lconfMalformed (b : List Byte) : Option Nat :=
  let head := zeroAt b 6 2 && zeroAt b 12 4 && zeroAt b 448 64 && decide (fieldAt b 4 1 ≤ 32) && decide (fieldAt b 5 1 ≤ 7)
    && (fieldAt b 8 2 == 0 || fieldAt b 10 2 != 0)
  lowestOf [if head then none else some 0,
    (List.range 16).find? (fun q => (lcQueue b q).2.2.2.2 != 0),
    (List.range 32).find? (fun e => let x := lcSluice b e; !kindAssigned x.2.1 || decide (3 < x.2.2.2.1) || x.2.2.2.2.1 != 0),
    (List.range 8).find? (fun i => (lcLane b (400 + 4 * i)).2.2 != 0), (List.range 4).find? (fun j => (lcLane b (432 + 4 * j)).2.2 != 0)]

/-- Regions of a lantern's queues: base, depth. -/
def lcRegions (b : List Byte) : List (Nat × Nat) :=
  (List.range 16).filterMap (fun q => let x := lcQueue b q; if x.2.1 = 0 then none else some (x.1, x.2.1))

/-- A LINES section fits beside the queue regions and the cache table region. -/
def linesFit (conf b : List Byte) : Bool :=
  let a := fieldAt b 0 2
  let n := (b.length - 64) / 68
  zeroAt b 2 62 && decide (a + n ≤ 65536) && !(lcRegions conf).any (fun r => meets a n r.1 r.2)
    && !(decide (0 < fieldAt conf 10 2) && meets a n (fieldAt conf 8 2) (fieldAt conf 10 2))

/-- Outlier descriptor n: first, count, reserved; entry n: row, dynamic, line, reserved. -/
def otDesc (b : List Byte) (n : Nat) : Nat × Nat × Nat :=
  let w := fieldAt b (4 * (n - 1)) 4
  (w % 1024, w / 1024 % 128, w / 2 ^ 17)
def otEntry (b : List Byte) (n : Nat) : Nat × Bool × Nat × Nat :=
  let w := fieldAt b (1024 + 4 * n) 4
  (w % 1024, w.testBit 10, w / 2 ^ 11 % 65536, w / 2 ^ 27)

/-- Reason 0x08 of one lantern's sections: the lowest entry or port that fails; a LINES section that does not fit counts as 0 (log 53). -/
def slotMalformed (im : List Byte) (i k : Nat) : Option Nat :=
  let conf := slotSec im 2 i k
  let ot := slotSec im 3 i k
  lowestOf [lconfMalformed conf,
    if (slotSecs im 4 i k).all (fun c => linesFit conf (secBytes im c)) then none else some 0,
    if ot.isEmpty then none else lowestOf [if zeroAt ot 1020 4 then none else some 0,
      ((List.range 255).map (· + 1)).find? (fun n => (otDesc ot n).2.2 != 0), (List.range 1024).find? (fun n => (otEntry ot n).2.2.2 != 0)],
    (List.range 5).find? (fun q => (imgSecs im).any (fun c => c.typ == 5 && c.field == i && c.slot == k && c.port == q && !zeroAt (secBytes im c) 4 60))]

/-! ### Headgate sections (06 R173, Table 6-14) -/

/-- Entry c of a headgate section: destination, kind, sub, class, reserved, grant. -/
def hgAt (b : List Byte) (c : Nat) : Nat × Nat × Nat × Nat × Nat × Nat :=
  let i := 16 + 8 * c
  (fieldAt b i 2, fieldAt b (i + 2) 1, fieldAt b (i + 3) 1, fieldAt b (i + 4) 1, fieldAt b (i + 5) 1, fieldAt b (i + 6) 2)
def hgUsed (b : List Byte) (c : Nat) : Bool := !zeroAt b (16 + 8 * c) 8
def hgSecs (im : List Byte) : List Sec := (imgSecs im).filter (fun c => c.typ == 7)
/-- The section that configures the port of a tile. -/
def hgSec (im : List Byte) (t : Nat) : List Byte :=
  match (hgSecs im).find? (fun c => tileMain c.port == tileMain t) with
  | some c => secBytes im c
  | none => []

/-- Reason 0x08 of a headgate section: the entry that fails. -/
def hgMalformed (p : Partition) (im : List Byte) (c : Sec) : Option Nat :=
  let b := secBytes im c
  if decide (7 < fieldAt b 0 1) || !zeroAt b 1 15 || (hgSecs im).any (fun d => d.port != c.port && tileMain d.port == tileMain c.port) then some 0 else
  (List.range 16).find? (fun e =>
    let x := hgAt b e
    hgUsed b e && (decide (3 < x.2.2.2.1) || x.2.2.2.2.1 != 0 || x.2.2.2.2.2 == 0 || decide (64 < x.2.2.2.2.2) || decide (15 < x.2.2.1)
      || !(decide (x.1 < 1600) && inRect p (fieldOf x.1))
      || (match tileZenden c.port with
          | some _ => e == 15 || decide (5 < x.2.1)
          | none => match tileHost c.port with
            | some _ => decide (1 < e) || x.2.1 != 0
            | none => true)))

def reason08 (s : State) (p : Partition) (im : List Byte) : Option Rej :=
  if !headOk p im then some (8, noLantern, noLantern) else
  firstSome [(hgSecs im).findSome? (fun c => (hgMalformed p im c).map (fun e => (8, noLantern, e))),
    eachTarget p im (fun t => (slotMalformed im t.1 t.2).map (fun e => (8, targetLantern s p t, e)))]

/-! ### Reason 0x09: another shape, version or revision (R170) -/

/-- Mappable lanterns of a field: occupied slots. -/
def mappable (s : State) (f : Nat) : Nat := ((getF s f).slots.filter (· != 0)).length

def reason09 (s : State) (p : Partition) (im : List Byte) : Option Rej :=
  if fieldAt im 6 1 != 0xB0 || fieldAt im 7 1 != 2 || fieldAt im 8 1 != (p.w - 1) + 16 * (p.h - 1) then some (9, noLantern, noLantern) else
  (List.range (p.w * p.h)).findSome? (fun i =>
    let f := fieldAtIx p i
    if mappable s f < imgSlots im ∨ (List.range (imgSlots im)).any (fun k => (slotLantern s f k).isNone) then some (9, noLantern, i) else none)

/-! ### Reason 0x01: instruction words (R175) -/

/-- Names a word uses are defined by the image, and AEXP and SEND name entries of their kinds. -/
def namesOk (conf ot : List Byte) (i : Instr) : Bool :=
  let kind := fun e : Nat => (lcSluice conf e).2.1
  let queue := fun q : Nat => (lcQueue conf q).2.1 != 0
  match i with
  | .aop _ f => f.otd == 0 || (!ot.isEmpty && (otDesc ot f.otd.toNat).2.1 != 0)
  | .aexp _ f => kind f.ent.toNat == 1
  | .aimp _ f => (lcLane conf (400 + 4 * f.ent.toNat)).1 != 65535
  | .kxfr _ f => f.f == 1 || kind f.d.toNat != 255
  | .send _ f => kind f.d.toNat == 0 || kind f.d.toNat == 3
  | .recv _ f => queue f.qn.val
  | .qpeek _ f => queue f.qn.val
  | .qpop _ f => queue f.qn.val
  | .qmark _ f => queue f.qn.val
  | .qrewind _ f => queue f.qn.val
  | .qrel _ f => queue f.qn.val
  | .qstat _ f => queue f.qn.val
  | _ => true

/-- The words of a step program. -/
def progWords (b : List Byte) : List Word := (List.range (b.length / 8)).map (fun i => BitVec.ofNat 64 (fieldAt b (8 * i) 8))

def wordIx (p : Word → Bool) (b : List Byte) : Option Nat := (progWords b).findIdx? p

def reason01 (s : State) (p : Partition) (im : List Byte) : Option Rej :=
  eachTarget p im (fun t =>
    let conf := slotSec im 2 t.1 t.2
    let ot := slotSec im 3 t.1 t.2
    (wordIx (fun w => match decodeWord 0 w with | some i => !namesOk conf ot i | none => true) (slotSec im 1 t.1 t.2)).map
      (fun i => (1, targetLantern s p t, i)))

/-! ### Reason 0x02: queues, grants, lanes, channels (05 R152, R153, R156; 06 R185; 07 R217) -/

/-- Field index and slot of a lantern that the image gives a program. -/
def targetOf (s : State) (p : Partition) (im : List Byte) (l : Nat) : Option (Nat × Nat) :=
  (imgTargets p im).find? (fun t => targetLantern s p t == l)

/-- Grant of the producer's entry when it carries this destination, kind and number. -/
def producerGrant (s : State) (p : Partition) (im : List Byte) (l producer ent lkind hkind num : Nat) : Option Nat :=
  match tileOfDest producer with
  | some t =>
    if !granted p t || decide (15 < ent) then none else
    let b := hgSec im t
    let x := hgAt b ent
    if hgUsed b ent && x.1 == l && x.2.1 == hkind && x.2.2.1 == num then some x.2.2.2.2.2 else none
  | none =>
    match targetOf s p im producer with
    | none => none
    | some u =>
      if 31 < ent then none else
      let x := lcSluice (slotSec im 2 u.1 u.2) ent
      if x.1 == l && x.2.1 == lkind && x.2.2.1 == num then some x.2.2.2.2.2 else none

def powerOfTwo (n : Nat) : Bool := (List.range 13).any (fun k => decide (2 ≤ k) && n == 2 ^ k)

def queueOk (s : State) (p : Partition) (im b : List Byte) (l q : Nat) : Bool :=
  let x := lcQueue b q
  x.2.1 == 0 || (powerOfTwo x.2.1 && decide (x.1 + x.2.1 ≤ 65536)
    && (List.range 16).all (fun r => r == q || (let y := lcQueue b r; y.2.1 == 0 || !meets x.1 x.2.1 y.1 y.2.1))
    && (match producerGrant s p im l x.2.2.1 x.2.2.2.1 0 0 q with | some g => decide (g ≤ x.2.1) | none => false))

def sluiceOk (p : Partition) (b : List Byte) (e : Nat) : Bool :=
  let x := lcSluice b e
  x.2.1 == 255 || (decide (1 ≤ x.2.2.2.2.2) && decide (x.2.2.2.2.2 ≤ (if x.2.1 = 0 then 4096 else if x.2.1 = 1 then 128 else 64))
    && decide (x.2.2.1 < (if x.2.1 = 1 then 8 else if x.2.1 = 2 then 4 else 16))
    && (match tileOfDest x.1 with
        | some t => x.2.1 == 3 && granted p t
        | none => x.2.1 != 3 && decide (x.1 < 1600) && inRect p (fieldOf x.1)))

/-- A sluice entry that a KXFR of the program serves KV flits through has a grant of at most 64 (07 R217). -/
def kvGrantOk (im b : List Byte) (t : Nat × Nat) (e : Nat) : Bool :=
  decide ((lcSluice b e).2.2.2.2.2 ≤ 64) || (lcSluice b e).2.1 == 255
    || !(progWords (slotSec im 1 t.1 t.2)).any (fun w => match decodeWord 0 w with
        | some (.kxfr _ f) => f.f == 0 && f.d.toNat == e
        | _ => false)

def laneOk (s : State) (p : Partition) (im b : List Byte) (l i : Nat) : Bool :=
  let x := lcLane b (400 + 4 * i)
  x.1 == 65535 || (producerGrant s p im l x.1 x.2.1 1 2 i).isSome

def intakeOk (s : State) (p : Partition) (im b : List Byte) (l j : Nat) : Bool :=
  let x := lcLane b (432 + 4 * j)
  x.1 == 65535 || (match tileOfDest x.1 with
    | some t => granted p t && (tileCistern t || (tileZenden t).isSome)
    | none => (producerGrant s p im l x.1 x.2.1 2 1 j).isSome)

def reason02 (s : State) (p : Partition) (im : List Byte) : Option Rej :=
  firstSome [(hgSecs im).findSome? (fun c =>
      if !granted p c.port then some (2, noLantern, 0) else
      match tileZenden c.port with
      | some z => ((List.range 15).find? (fun e => hgUsed (secBytes im c) e && !p.zchan.getLsbD (16 * z + e))).map (fun e => (2, noLantern, e))
      | none => none),
    eachTarget p im (fun t =>
      let b := slotSec im 2 t.1 t.2
      let l := targetLantern s p t
      (lowestOf [(List.range 16).find? (fun q => !queueOk s p im b l q), (List.range 32).find? (fun e => !sluiceOk p b e || !kvGrantOk im b t e),
        (List.range 8).find? (fun i => !laneOk s p im b l i), (List.range 4).find? (fun j => !intakeOk s p im b l j)]).map (fun i => (2, l, i)))]

/-! ### Reasons 0x03 to 0x07, 0x0A -/

/-- R183 for descriptor n. -/
def otOk (conf ot : List Byte) (n : Nat) : Bool :=
  let d := otDesc ot n
  let es := (List.range d.2.1).map (fun i => otEntry ot (d.1 + i))
  d.2.1 == 0 || (decide (d.2.1 ≤ 64) && decide (d.1 + d.2.1 ≤ 1024) && (es.map (·.1)).eraseDups.length == es.length
    && es.all (fun e => decide (e.2.2.1 + 8 ≤ 65536) && !(lcRegions conf).any (fun r => meets e.2.2.1 8 r.1 r.2)))

def reason03 (s : State) (p : Partition) (im : List Byte) : Option Rej :=
  eachTarget p im (fun t =>
    let ot := slotSec im 3 t.1 t.2
    if ot.isEmpty then none else
    (((List.range 255).map (· + 1)).find? (fun n => !otOk (slotSec im 2 t.1 t.2) ot n)).map (fun n => (3, targetLantern s p t, n)))

def reason04 (p : Partition) (im : List Byte) : Option Rej :=
  let a := allowanceOf p p.share (fieldAt im 10 2)
  if a < fieldAt im 24 4 then some (4, noLantern, noLantern) else
  ((List.range (p.w * p.h)).find? (fun i =>
    decide (a < ((List.range (imgSlots im)).map (fun k => fieldAt (slotSec im 2 i k) 0 4)).sum))).map (fun i => (4, noLantern, i))

def reason05 (s : State) (p : Partition) (im : List Byte) : Option Rej :=
  eachTarget p im (fun t =>
    let b := slotSec im 2 t.1 t.2
    let base := fieldAt b 8 2
    let n := fieldAt b 10 2
    if n = 0 ∨ (base + n ≤ 65536 ∧ (lcRegions b).all (fun r => !meets base n r.1 r.2)) then none else some (5, targetLantern s p t, 0))

/-- Scheduled ports of the router of lantern l (08 R241). -/
def schedPorts (p : Partition) (l : Nat) : List Nat :=
  (List.range 5).filter (fun q => q == 0 || ((edgeTile l q).isNone && inRect p (fieldOf (neighbour l q))))

/-- The ORDER section of a port. -/
def orderSec (im : List Byte) (i k q : Nat) : Option (List Byte) :=
  ((imgSecs im).find? (fun c => c.typ == 5 && c.field == i && c.slot == k && c.port == q)).map (secBytes im)

def orderWords (b : List Byte) : List Word := progWords (b.drop 64)

def reason06 (s : State) (p : Partition) (im : List Byte) : Option Rej :=
  if !imgSched im then
    if (imgSecs im).any (fun c => c.typ == 5) then some (6, noLantern, noLantern) else none
  else if 25 < p.w * p.h then some (6, noLantern, noLantern) else
  eachTarget p im (fun t =>
    let l := targetLantern s p t
    (List.range 5).findSome? (fun q =>
      match orderSec im t.1 t.2 q with
      | none => if (schedPorts p l).contains q then some (6, l, q) else none
      | some b =>
        if !(schedPorts p l).contains q || decide (fieldAt b 2 2 < fieldAt b 0 2) || decide (1023 < fieldAt b 2 2) then some (6, l, q)
        else ((orderWords b).findIdx? (fun w => !orderWordOk w)).map (fun i => (6, l, i))))

/-! ## Lantern addresses after a remap (11 Table 11-7) -/

/-- Bytes i and i + 1 hold code k instead of code j. -/
def renameAt (j k i : Nat) (im : List Byte) : List Byte :=
  if fieldAt im i 2 = j then (im.set i (BitVec.ofNat 8 k)).set (i + 1) (BitVec.ofNat 8 (k / 256)) else im

/-- The order-table word at byte i names lantern k wherever it named lantern j. -/
def renameRun (j k i : Nat) (im : List Byte) : List Byte :=
  let w : Word := BitVec.ofNat 64 (fieldAt im i 8)
  let f := fun pos : Nat => if entryField w pos 11 = j then (k * 2 ^ pos : Int) - j * 2 ^ pos else 0
  if isRun w then im.take i ++ bytesOfNat 8 ((w.toNat : Int) + f 47 + f 36).toNat ++ im.drop (i + 8) else im

/-- Every place of a section that names a lantern: used entries of queues, sluices, lanes, intakes, headgates and order tables. -/
def renameSec (j k : Nat) (im : List Byte) (c : Sec) : List Byte :=
  if c.typ = 2 then
    let im := (List.range 16).foldl (fun im q => if fieldAt im (c.off + 18 + 8 * q) 2 = 0 then im else renameAt j k (c.off + 20 + 8 * q) im) im
    let im := (List.range 32).foldl (fun im e => if fieldAt im (c.off + 146 + 8 * e) 1 = 255 then im else renameAt j k (c.off + 144 + 8 * e) im) im
    (List.range 12).foldl (fun im i => renameAt j k (c.off + 400 + 4 * i) im) im
  else if c.typ = 5 then (List.range ((c.len - 64) / 8)).foldl (fun im i => renameRun j k (c.off + 64 + 8 * i) im) im
  else if c.typ = 7 then (List.range 16).foldl (fun im e => if zeroAt im (c.off + 16 + 8 * e) 8 then im else renameAt j k (c.off + 16 + 8 * e) im) im
  else im

/-- The image with lantern k in place of lantern j, whose slot has moved to k. -/
def renameLantern (j k : Nat) (im : List Byte) : List Byte := (imgSecs im).foldl (renameSec j k) im

/-! ## What a load writes -/

/-- Lines of LINES sections of a slot: address and data. -/
def imgLines (im : List Byte) (i k : Nat) : List (Nat × Line) :=
  (slotSecs im 4 i k).flatMap (fun c =>
    let b := secBytes im c
    let a := fieldAt b 0 2
    (List.range ((b.length - 64) / 68)).map (fun n => (a + n, lineOfBytes ((b.drop (64 + 68 * n)).take 68))))

/-- Class of the credits for a consumer whose producer is given (06 R186). -/
def creditClass (s : State) (p : Partition) (im : List Byte) (producer ent : Nat) : Fin 4 :=
  let c := match tileOfDest producer with
    | some t => (hgAt (hgSec im t) ent).2.2.2.1
    | none => match targetOf s p im producer with
      | some u => (lcSluice (slotSec im 2 u.1 u.2) ent).2.2.2.1
      | none => 0
  Fin.ofNat 4 c

/-- Queue, sluice, import-lane, intake and descriptor state of a lantern as at program load (05 R154, R156). -/
def loadUnits (s : State) (p : Partition) (im b : List Byte) (L : Lantern) : Lantern :=
  { L with
    queues := (List.range 16).foldl (fun m q =>
      let x := lcQueue b q
      tset {} m q (if x.2.1 = 0 then {} else { base := x.1, depth := x.2.1, producer := x.2.2.1, entry := x.2.2.2.1,
                                               cls := creditClass s p im x.2.2.1 x.2.2.2.1 })) [],
    sluices := (List.range 32).foldl (fun m e =>
      let x := lcSluice b e
      tset {} m e (if x.2.1 = 255 then {} else { dest := x.1, kind := x.2.1, num := x.2.2.1, cls := Fin.ofNat 4 x.2.2.2.1,
                                                 grant := x.2.2.2.2.2, credits := x.2.2.2.2.2 })) [],
    lanes := (List.range 8).foldl (fun m i =>
      let x := lcLane b (400 + 4 * i)
      tset {} m i (if x.1 = 65535 then {} else { used := true, producer := x.1, entry := x.2.1, cls := creditClass s p im x.1 x.2.1 })) [],
    intakes := (List.range 4).foldl (fun m j =>
      let x := lcLane b (432 + 4 * j)
      tset {} m j (if x.1 = 65535 then {} else { used := true, producer := x.1, entry := x.2.1, cls := creditClass s p im x.1 x.2.1 })) [],
    engines := [], pending := [], held := none, scores := [], probs := [], probIn := 0, probOut := 0, lookaside := [] }

/-- A scratchpad whose full lines are those given and no others (05 R147). -/
def fullLines (xs : List (Nat × Line)) : SMap PadLine := xs.foldl (fun m x => tset {} m x.1 ⟨x.2, true, false, false, 0xA⟩) []

/-- Program store that an image gives a slot, of sound parity (05 R136). -/
def imgStore (im : List Byte) (t : Nat × Nat) : SMap ProgWord :=
  (progWords (slotSec im 1 t.1 t.2)).zipIdx.foldl (fun m e => tset {} m e.2 ⟨e.1, false⟩) []

/-- Program load of one lantern: store, configuration, the range table from firmware's own copy (11 R352), outliers, profiles; the scratchpad takes the image's lines and those given (06 R170 to R172). -/
def loadLantern (s : State) (p : Partition) (im : List Byte) (t : Nat × Nat) (kept : List (Nat × Line)) (l : Nat) : State :=
  let b := slotSec im 2 t.1 t.2
  let ot := slotSec im 3 t.1 t.2
  let pf := slotSec im 6 t.1 t.2
  let L := loadUnits s p im b (getL s l)
  let L := { L with
    store := imgStore im t, ranges := L.goldRanges,
    pad := fullLines (kept ++ imgLines im t.1 t.2),
    clock := fieldAt b 4 1, weirK := fieldAt b 5 1, ctBase := fieldAt b 8 2, ctCount := fieldAt b 10 2,
    odesc := (List.range 255).foldl (fun m n => let d := otDesc ot (n + 1); tset (0, 0) m (n + 1) (d.1, d.2.1)) [],
    oent := (List.range 1024).foldl (fun m n => let e := otEntry ot n; tset (0, false, 0) m n (e.1, e.2.1, e.2.2.1)) [],
    profiles := (List.range 7936).foldl (fun m n =>
      let w := fun k : Nat => (BitVec.ofNat 32 (fieldAt pf (12 * n + 4 * k) 4) : F32)
      tset (0, 0, 0) m n (w 0, w 1, w 2)) [],
    pc := 0, step := 0, closed := 0, seen := 0, running := false, trapped := false, charge := 0, declared := fieldAt b 0 4, crcBad := false }
  let s := setL s l L
  -- scheduled ports of the lantern's router: bank 0, step count zero (08 R242)
  let ports := if imgSched im then schedPorts p l else []
  (List.range 5).foldl (fun s q =>
    let o := (orderSec im t.1 t.2 q).getD []
    updRP s l q (fun P =>
      if ports.contains q then
        let b : OrderBank := ⟨tfill 0 [] 0 (orderWords o), fieldAt o 0 2, fieldAt o 2 2⟩
        { P with sched := true, bank := 0, entry := 0, done := 0, steps := 0, switchAt := none, orders := tset {} P.orders 0 b,
                 golden := tset {} P.golden 0 b }
      else { P with sched := false })) (updR s l (fun R => { R with crcBad := false }))

/-- Headgate tables of the partition (06 R173). -/
def loadHeadgates (s : State) (pn : Nat) (im : List Byte) : State :=
  forEach (List.range nTiles) (fun t s =>
    updT s t (fun T => { T with entries := T.entries.filter (fun e => e.1 / 16 != pn), weirK := tset 0 T.weirK pn 0 }))
    s |> forEach (hgSecs im) (fun c s =>
      let b := secBytes im c
      updT (rimSend (firmwareTile s) (tileMain c.port) (.register pn 17) s) (tileMain c.port) (fun T => { T with
        weirK := tset 0 T.weirK pn (fieldAt b 0 1),
        entries := (List.range 16).foldl (fun m e =>
          let x := hgAt b e
          tset {} m (pn * 16 + e) (if hgUsed b e then
            { dest := x.1, kind := x.2.1, sub := x.2.2.1, cls := Fin.ofNat 4 x.2.2.2.1, grant := x.2.2.2.2.2, credits := x.2.2.2.2.2 } else {}))
          T.entries }))

/-- Every lantern of an image is loaded, with the lines kept that are given for it. -/
def loadLanterns (s : State) (p : Partition) (im : List Byte) (kept : Nat → List (Nat × Line)) : State :=
  forEach (imgTargets p im) (fun t s =>
    match slotLantern s (fieldAtIx p t.1) t.2 with
    | some l => loadLantern s p im t (kept l) l
    | none => s) s

/-- Sluice entries of every lantern of the image, for the class-0 check. -/
def loadConfig (s : State) (p : Partition) (im : List Byte) : State :=
  forEach (imgTargets p im) (fun t s =>
    match slotLantern s (fieldAtIx p t.1) t.2 with
    | some l => let b := slotSec im 2 t.1 t.2
                setL s l { loadUnits s p im b (getL s l) with weirK := fieldAt b 5 1 }
    | none => s) s

/-- Does any AOP of a step program name a logical array that its lantern no longer offers (02 R39)? -/
def reason0A (s : State) (p : Partition) (im : List Byte) : Option Rej :=
  eachTarget p im (fun t =>
    let l := targetLantern s p t
    (wordIx (fun w => match decodeWord 0 w with | some (.aop _ f) => (physOf (getL s l) f.array.toNat).isNone | _ => false)
      (slotSec im 1 t.1 t.2)).map (fun i => (10, l, i)))

/-- State of partition pn with an image in place, before its lanterns run: what R248 is checked on. -/
def imgTrial (s : State) (pn : Nat) (p : Partition) (im : List Byte) : State :=
  let s := setPart s pn (some { p with prog := some (imgProgram im) })
  loadHeadgates (loadConfig s p im) pn im

/-- The load checks in their fixed order (09 R276). -/
def loadCheck (s : State) (pn : Nat) (p : Partition) (im : List Byte) : Option Rej :=
  match reason08 s p im with
  | some r => some r
  | none => firstSome [reason09 s p im, reason01 s p im, reason02 s p im, reason03 s p im, reason04 p im, reason05 s p im, reason06 s p im,
      (if boundHolds (writeExceptions (imgTrial s pn p im)) then none else some (7, noLantern, noLantern)), reason0A s p im]

end Sys2Proof.Machine
end

