-- ==== Sys2Proof/Machine/Stop.lean ====
section
/-! DEFINITION. Starting and stopping a partition's program (06 R187, R198; 09 R277). -/

namespace Sys2Proof.Machine

/-- A lantern stops issuing; engines abandon what has not started; array operations under way run on through their restore (06 R198). -/
def stopLantern (L : Lantern) : Lantern :=
  { L with running := false, held := none, move := none,
           engines := L.engines.map (fun e => (e.1, { e.2 with q := if e.1 = 0 then [] else e.2.q.take 1 })),
           banks := L.banks.map (fun e => (e.1, { e.2 with slot := none, wait := 0, since := 0 })) }

/-- Banks and engines back in canonical form. -/
def tidyLantern (L : Lantern) : Lantern :=
  { L with engines := L.engines.filter (fun e => e.2 != { q := [], wait := 0, since := 0 }), banks := L.banks.filter (fun e => e.2 != {}) }

/-- Every lantern of the partition stops. -/
def stopLanterns (s : State) (pn : Nat) : State :=
  match getPart s pn with
  | none => s
  | some p => forEach (partLanterns s p) (fun l s => updL s l (fun L => tidyLantern (stopLantern L))) s

/-- The step tree stops and every lantern with it. -/
def stopPart (s : State) (pn : Nat) : State := freeNow (stopLanterns (updPart s pn (fun p => { p with running := false })) pn) pn

/-- A lantern begins at instruction 0 in step 0 with the charge its configuration declares (06 R187, R195). -/
def startLantern (s : State) (im : List Byte) (t : Nat × Nat) (l : Nat) : State :=
  let c := fieldAt (slotSec im 2 t.1 t.2) 0 4
  updL s l (fun L => { L with pc := 0, step := 0, closed := 0, seen := 0, held := none, pending := [], engines := [], running := true, trapped := false,
                              charge := 0, declared := c })

/-- Declared charge of step 0 of a field: the sum of its slots' (06 R195). -/
def declareZero (s : State) (p : Partition) (im : List Byte) : State :=
  forEach (List.range (p.w * p.h)) (fun i s =>
    updF s (fieldAtIx p i) (fun F =>
      { F with declared := tset 0 [] 0 ((List.range (imgSlots im)).map (fun k => fieldAt (slotSec im 2 i k) 0 4)).sum })) s

/-- The partition starts at step 0 (06 R187): allowances set, boundary -1 now. -/
def startPart (s : State) (pn : Nat) : State :=
  match getPart s pn with
  | none => s
  | some p =>
    match p.prog with
    | none => s
    | some g =>
      let s := declareZero s p g.image
      let s := forEach (imgTargets p g.image) (fun t s =>
        match slotLantern s (fieldAtIx p t.1) t.2 with
        | some l => startLantern s g.image t l
        | none => s) s
      updPart s pn (fun p => { p with running := true, bound := 0, boundAt := nowNs s })

end Sys2Proof.Machine
end

