-- ==== Sys2Proof/Machine/Domains.lean ====
section
/-! DEFINITION. Power domains of lanterns and banks: what switching off loses, requests to switch on (01 R21, R24, R30; 12 R368). -/

namespace Sys2Proof.Machine

/-- A lantern whose domain is off: its cells, maps, ranges and counters stay; every other store, the monitors' profiles among them, is lost (01 R24; 03 after R90; 13 R389). -/
def lanternOff (L : Lantern) : Lantern :=
  { ({} : Lantern) with
    arrays := L.arrays, amap := L.amap, ranges := L.ranges, goldRanges := L.goldRanges, counters := L.counters,
    temp := L.temp, tempNext := L.tempNext, storeErrAt := L.storeErrAt }

/-- Opens the switches of lantern l and of its banks (12 R368: it needs no headroom and never waits). -/
def switchOff (s : State) (l : Nat) : State :=
  let s := updL s l lanternOff
  updF s (fieldOf l) (fun F => { F with ramps := F.ramps.filter (fun r => r.lantern != l),
                                        ramping := F.ramping.filter (fun r => r.lantern != l), work := F.work.filter (· != l) })

/-- A request to switch on lantern l with its banks, unless it is on, waiting or bad (01 R21; 12 R368). -/
def requestOn (s : State) (l : Nat) : State :=
  let F := getF s (fieldOf l)
  let L := getL s l
  if L.on || F.ramps.any (fun r => r.lantern == l) || F.ramping.any (fun r => r.lantern == l) || s.badLanterns.contains l then s
  else updF s (fieldOf l) (fun F => { F with ramps := F.ramps ++ [⟨l, none, nowNs s, false⟩] })

/-- Does a lantern hold lines of applied LINES chunks (10 R314)? -/
def holdsLines (s : State) (p : Partition) (l : Nat) : Bool :=
  p.wset.lines.any (fun x => x.field == fieldOf l && slotLantern s x.field x.slot == some l)

/-- Does a partition need the domain of lantern l: for its program's slots (06 R170), before a program is loaded for the LINES of its weight set? -/
def partNeeds (s : State) (p : Partition) (l : Nat) : Bool := (progLanterns s p).contains l || (p.prog.isNone && holdsLines s p l)

/-- Lanterns on only for firmware work. -/
def idleDomain (s : State) (l : Nat) : Bool := !((partOf s l).bind (getPart s)).any (fun p => partNeeds s p l)

/-- Firmware work needs lantern l: its domain is requested and noted to be switched off afterwards (01 R30). -/
def needForWork (s : State) (l : Nat) : State :=
  let s := requestOn s l
  if idleDomain s l then updF s (fieldOf l) (fun F => { F with work := if F.work.contains l then F.work else F.work ++ [l] }) else s

/-- Every domain of a partition's fields that it does not need goes off; those of program slots are requested on. -/
def partDomains (s : State) (pn : Nat) : State :=
  match getPart s pn with
  | none => s
  | some p =>
    let want := progLanterns s p
    forEach ((partFields p).flatMap lanternsIn) (fun l s =>
      if want.contains l then requestOn s l else if (getL s l).on && !partNeeds s p l then switchOff s l else s) s

/-- VPROG is in service while arrays are programmed or erased (12 Table 12-4). -/
def vprogUse (s : State) : State :=
  { s with plant := { s.plant with vprog := !s.jobs.isEmpty || !s.erasing.isEmpty || s.lanterns.any (fun e => e.2.banks.any (fun b => b.2.prog.isSome)) } }

/-! ## Rim tiles (01 Table 1-3) -/

/-- Tiles with memory, host-port or Zenden controllers and the SerDes or PHY they drive. -/
def hasCtrl (t : Nat) : Bool := tileCistern t || (tileHost t).isSome || (tileZenden t).isSome

/-- Module firmware switches the controllers of a tile, and its port's SerDes with them (DESIGN CHOICE, log 52: on when firmware is released, off when the function is lost). -/
def gateTile (on : Bool) (t : Nat) (s : State) : State :=
  if hasCtrl t then updT s t (fun T => { T with ctrl := on, serdes := on }) else s

end Sys2Proof.Machine
end

