-- ==== Sys2Proof/Machine/Requests.lean ====
section
/-! DEFINITION. Completions, runnels and the course of a request (09 R267 to R270, R280 to R293, R297). -/

namespace Sys2Proof.Machine

/-! ## Status codes (09 Table 9-4) -/

def stSuccess : Nat := 0x00
def stOpcode : Nat := 0x01
def stField : Nat := 0x02
def stPermit : Nat := 0x03
def stConflict : Nat := 0x04
def stUnusable : Nat := 0x05
def stRoute : Nat := 0x06
def stState : Nat := 0x07
def stProgram : Nat := 0x08
def stPower : Nat := 0x09
def stSlot : Nat := 0x0A
def stCache : Nat := 0x0B
def stDuplicate : Nat := 0x0C
def stNotFound : Nat := 0x0D
def stComplete : Nat := 0x0E
def stLayout : Nat := 0x0F
def stGone : Nat := 0x10
def stWeights : Nat := 0x11
def stRing : Nat := 0x12
def stAuth : Nat := 0x13
def stAborted : Nat := 0x14
def stData : Nat := 0x15
def stEnd : Nat := 0x20
def stStop : Nat := 0x21
def stMax : Nat := 0x22
def stCancelled : Nat := 0x23
def stError : Nat := 0x24
def stLost : Nat := 0x25
def stPaused : Nat := 0x26
def stPoisoned : Nat := 0x27

/-- Runnel REASON of a request's final status (09 Table 9-11). -/
def reasonOf (status : Nat) : Nat := if stEnd ≤ status then status - stEnd + 1 else 0

/-! ## Completion queues (09 R267, R270) -/

/-- The 32 bytes of a completion entry (09 Table 9-3). -/
def complBytes (c : Completion) (phase : Bool) : List Byte :=
  bytesOfNat 16 c.result.toNat ++ bytesOfNat 4 c.detail.toNat ++ bytesOfNat 2 c.sqhd ++ bytesOfNat 2 c.sqid ++ bytesOfNat 2 c.cid.toNat
    ++ [c.status] ++ bytesOfNat 4 0 ++ bytesOfNat 1 (if phase then 1 else 0)

/-- Entries written and not freed. -/
def cqUsed (q : Qp) : Nat := (q.cqTail + q.cqSize - q.cqHead) % q.cqSize
/-- May one more be written? At most N - 1 then stand. -/
def cqRoom (q : Qp) : Bool := decide (cqUsed q + 1 < q.cqSize)

/-- Writes an entry at the tail of a queue that has room, and signals (R268, R270). -/
def writeCompl (s : State) (fn : Fn) (n : Nat) (q : Qp) (c : Completion) : State :=
  let s := sendHost s fn.port (.mem fn.port (q.cqBase + 32 * q.cqTail) (complBytes c q.phase))
  let wrap := decide (q.cqTail + 1 = q.cqSize)
  let (i, due) := intWrite q.int (nowNs s)
  let s := setQp s fn n (some { q with cqTail := if wrap then 0 else q.cqTail + 1, phase := if wrap then !q.phase else q.phase, int := i })
  if due then sendMsix s fn i.vector else s

/-- A completion of a command that holds no request slot: written, held, or discarded when its queue is gone. -/
def postPlain (s : State) (fn : Fn) (c : Completion) : State :=
  match getQp s fn c.sqid with
  | none => s
  | some q =>
    let q := { q with busy := q.busy - 1 }
    if q.held.isEmpty && cqRoom q then writeCompl s fn c.sqid q c else setQp s fn c.sqid (some { q with held := q.held ++ [c] })

/-- The completion a waiting command gets. -/
def waitCompl (w : Waiting) (status : Nat) (result : Nat) : Completion :=
  ⟨BitVec.ofNat 128 result, 0, w.sqhd, w.sqid, w.cid, BitVec.ofNat 8 status, none⟩

/-- Every waiting command that a test selects completes. -/
def resolveWaits (p : WaitFor → Bool) (f : WaitFor → Nat × Nat) (s : State) : State :=
  let ws := s.waiting.filter (fun w => p w.what)
  ws.foldl (fun s w => postPlain s w.fn (waitCompl w (f w.what).1 (f w.what).2)) { s with waiting := s.waiting.filter (fun w => !p w.what) }

/-! ## Partitions without requests (09 Table 9-7; 12 R382) -/

/-- The partition's fields at T3. -/
def hotFields (s : State) (p : Partition) : List Nat := (partFields p).filter (fun f => decide (3 ≤ (getF s f).tier))

/-- A draining partition whose last request has gone reaches LOADED; PART_DRAIN completes; a thermal drain ends with a hold (R382). -/
def drainDone (s : State) (pn : Nat) : State :=
  match getPart s pn with
  | none => s
  | some p =>
    if p.state ≠ .draining ∨ !p.reqs.isEmpty then s else
    let hot := p.thermal.isSome
    let s := stopPart s pn
    let s := updPart s pn (fun p => { p with state := .loaded, hold := p.hold || hot, thermal := none })
    let s := if hot then forEach ((hotFields s p).flatMap lanternsIn) (fun l s => switchOff s l) s else s
    resolveWaits (fun w => match w with | .drain n _ => n == pn | _ => false) (fun w => match w with | .drain _ c => (stSuccess, c) | _ => (0, 0)) s

/-! ## The end of a request's slot (09 R267, R289, R290, R296) -/

/-- One reference less on an adapter slot; a slot whose version is not current is freed at zero (R296). -/
def dropAdapter (m : SMap (Option Adapter)) (slot : Nat) : SMap (Option Adapter) :=
  match tget none m slot with
  | some a => tset none m slot (if a.refs ≤ 1 ∧ !a.current then none else some { a with refs := a.refs - 1 })
  | none => m

/-- What a command waiting for a request's completion answers (R289, R290). -/
def waiterStatus (r : Request) (w : WaitFor) : Nat × Nat :=
  match w with
  | .cancel _ _ => if r.endStatus = stCancelled then (stSuccess, r.delivered) else (stComplete, 0)
  | _ => if r.endStatus ≠ stPaused then (stComplete, 0) else if r.storeErr ≠ 0 then (r.storeErr, 0) else (stSuccess, 0)

def waitsFor (pn : Nat) (tag : BitVec 64) (w : WaitFor) : Bool :=
  match w with
  | .cancel n t => n == pn && t == tag
  | .pause n t => n == pn && t == tag
  | _ => false

/-- A request's completion has been written or discarded: its slot is free. -/
def freeReq (s : State) (pn : Nat) (tag : BitVec 64) : State :=
  match getPart s pn with
  | none => s
  | some p =>
    match findReq p tag with
    | none => s
    | some r =>
      let rest := p.reqs.filter (fun x => x.tag != tag)
      let s := setPart s pn (some (noteIdle (nowNs s) { p with
        reqs := rest, doneTags := (tag :: p.doneTags).take 4096,
        adapters := if r.adapter = 0 then p.adapters else dropAdapter p.adapters (r.adapter - 1) }))
      let s := if r.int.first.isSome && !r.mute then updFn s r.fn (fun f => { f with owed := f.owed ++ [(pn, r.rn, r.int)] }) else s
      drainDone (resolveWaits (waitsFor pn tag) (waiterStatus r) s) pn

/-- A request's completion: written, held with its slot, or discarded. -/
def postReq (s : State) (pn : Nat) (r : Request) (c : Completion) : State :=
  match getQp s r.fn r.sqid, r.silent with
  | some q, false =>
    if q.held.isEmpty && cqRoom q then freeReq (writeCompl s r.fn r.sqid q c) pn r.tag
    else setQp s r.fn r.sqid (some { q with held := q.held ++ [{ c with req := some (pn, r.tag) }] })
  | _, _ => freeReq s pn r.tag

/-- Held completions are written while the queue has room, n at most (R267). -/
def flushQp (fn : Fn) (n : Nat) : Nat → State → State
  | 0, s => s
  | k + 1, s =>
    match getQp s fn n with
    | some q =>
      match q.held with
      | c :: rest =>
        if cqRoom q then
          let s := writeCompl s fn n { q with held := rest } c
          flushQp fn n k (match c.req with | some (pn, tag) => freeReq s pn tag | none => s)
        else s
      | [] => s
    | none => s

/-! ## Runnels (09 R281 to R283) -/

/-- Entries that may be written now. -/
def runnelRoom (r : Request) : Nat := 2 ^ r.rlog2 - (r.written - r.cons).toNat

/-- Bytes 0 to 14 of an entry (09 Table 9-11). -/
def runnelEntry (id pos logp flags hit : Nat) : List Byte :=
  bytesOfNat 4 id ++ bytesOfNat 4 pos ++ bytesOfNat 2 logp ++ bytesOfNat 2 flags ++ bytesOfNat 1 hit ++ bytesOfNat 2 0

/-- Entry k of a request, its last byte given, in one memory write, with its signal (R268, R282). -/
def writeRunnel (s : State) (pn : Nat) (r : Request) (k : BitVec 32) (bytes : List Byte) : State :=
  if r.mute then s else
  let s := sendHost s r.fn.port (.mem r.fn.port (r.rbase + 16 * (k.toNat % 2 ^ r.rlog2)) bytes)
  let (i, due) := intWrite r.int (nowNs s)
  let s := updReq s pn r.tag (fun r => { r with int := i })
  if due then sendMsix s r.fn i.vector else s

/-- Phase bit of entry k. -/
def runnelPhase (r : Request) (k : BitVec 32) : Nat := 1 - k.toNat / 2 ^ r.rlog2 % 2

/-- The next entry of a request. -/
def nextEntry (s : State) (pn : Nat) (r : Request) (bytes : List Byte) (token : Bool) : State :=
  let s := writeRunnel s pn r r.written (bytes ++ bytesOfNat 1 (runnelPhase r r.written))
  updReq s pn r.tag (fun r => { r with written := r.written + 1, delivered := if token then r.delivered + 1 else r.delivered })

/-! ## Tokens (09 R284, R286) -/

/-- The stop condition that token id meets as the last of gen: status and MATCH (R284). -/
def stopOf (r : Request) (gen : List (BitVec 32)) (id : BitVec 32) : Option (Nat × Nat) :=
  match r.ends.findIdx? (· == id) with
  | some i => some (stEnd, i)
  | none =>
    match r.stops.findIdx? (fun q => !q.isEmpty && gen.drop (gen.length - q.length) == q) with
    | some i => some (stStop, i)
    | none => if gen.length = r.maxNew then some (stMax, 0) else none

/-- Absolute position of the next token of a request. -/
def nextPos (r : Request) : Nat := r.pos0 + r.promptLen + r.gen.length

/-- A request goes to ENDING with a status; one already ending keeps its own. -/
def setEnding (s : State) (pn : Nat) (tag : BitVec 64) (status hit : Nat) : State :=
  updReq s pn tag (fun r => if r.state = .ending ∧ r.endStatus ≠ stPaused then r
    else { r with state := .ending, endStatus := status, reason := reasonOf status, hit := hit })

/-- Tokens of a pass with their DRAFT flags are delivered in order until one ends the request. -/
def deliverToks (pn : Nat) (tag : BitVec 64) : List (Tok × Bool) → State → State
  | [], s => s
  | (t, draft) :: ts, s =>
    match (getPart s pn).bind (findReq · tag) with
    | none => s
    | some r =>
      let gen := r.gen ++ [t.id]
      let stop := if t.poison then some (stPoisoned, 0) else stopOf r gen t.id
      let flags := (if t.poison then 1 else 0) + (if draft then 2 else 0)
      let e := match stop with
        | some (st, hit) => runnelEntry t.id.toNat (nextPos r) t.logp.toNat (flags + 4 + 16 * reasonOf st) hit
        | none => runnelEntry t.id.toNat (nextPos r) t.logp.toNat flags 0
      let s := nextEntry s pn r e true
      let s := updReq s pn tag (fun r => { r with gen := gen, final := r.final || stop.isSome })
      match stop with
      | some (st, hit) => setEnding s pn tag st hit
      | none => deliverToks pn tag ts s

/-! ## Passes (09 R281, R287, R288) -/

/-- Is the request drafting? -/
def drafting (r : Request) : Bool := r.spec && r.draftOff.isNone

/-- Entries that its next pass can yield. -/
def passYield (r : Request) : Nat := if drafting r then r.draftK + 1 else 1

/-- The next pass starts when the runnel has room for it, and the request is held when it has not. -/
def startPass (s : State) (pn : Nat) (tag : BitVec 64) : State :=
  updReq s pn tag (fun r =>
    if r.state = .ending then r
    else if passYield r ≤ runnelRoom r then { r with state := .decode, inPass := true } else { r with state := .held, inPass := false })

/-- Drafting after a pass: off below a quarter over 32 passes, on again after 256 tokens (R288). -/
def draftRule (r : Request) : Request :=
  match r.draftOff with
  | some n => if n ≤ r.delivered then { r with draftOff := none, passes := [] } else r
  | none =>
    let prop : Nat := (r.passes.map (·.1)).sum
    let acc : Nat := (r.passes.map (·.2)).sum
    if r.passes.length = 32 ∧ 4 * acc < prop then { r with draftOff := some (r.delivered + 256) } else r

/-! ## Ending (09 R280, R291; 07 R228) -/

/-- Does the request store its context at its end? PAUSE, or KEEP with a stop condition (R291). -/
def toStore (r : Request) : Bool :=
  r.endStatus == stPaused || (r.keep && (r.endStatus == stEnd || r.endStatus == stStop || r.endStatus == stMax))

/-- Bytes of the cistern (00 Table 0-1). -/
def cisternBytes : Nat := (if Config.isL1536 then 1536 else 768) * 2 ^ 30

/-- Bytes of the cistern in use: page images, LINES copies, weight reserve at 1 MiB an array (07 R229; 10 R320; 11 R347). -/
def cisternUsed (s : State) : Nat :=
  ((s.contexts.map (fun c => recPages c.shares * 17440)).sum)
    + ((allParts s).map (fun e => if !e.2.cistern then 0 else e.2.wset.lines.length * 68 + (e.2.wset.reserve.filter (fun r => r.kind == 1)).length * 2 ^ 20)).sum

/-- What the cache of a request holds now, share by share (07 R229). -/
def heldCache (s : State) (r : Request) : List ShareRec := r.shares.map (shareRec s)

/-- Why a context cannot be made, 0 when it can (R291; 10 R300). -/
def storeStatus (s : State) (p : Partition) (pages : Nat) : Nat :=
  if s.sec.error ∨ !p.cistern ∨ !cisternOn s then stCache
  else if 65536 ≤ s.contexts.length then stSlot
  else if cisternBytes < cisternUsed s + pages * 17440 then stCache
  else 0

def layoutOf (p : Partition) : BitVec 384 := match p.prog with | some g => g.clayout | none => 0

/-- A new handle: the partition in [63:60], a serial in [59:0] (R291). -/
def newHandle (s : State) (pn : Nat) : BitVec 64 := BitVec.ofNat 64 (pn * 2 ^ 60 + s.serial % 2 ^ 60)

/-- TTL in seconds from now, as a time (R293). -/
def expiryAt (s : State) (ttl : Nat) : Nat := nowNs s + ttl * 1000000000

/-- CISTERN_PAUSE_DONE: every page has moved, the context exists, the shares are given up (07 R228, R229); cistern moves wait while the Lamplighter restarts (11 R357). -/
def pauseDone (pn : Nat) (tag : BitVec 64) (s : State) : State :=
  match getPart s pn with
  | none => s
  | some p =>
    match findReq p tag with
    | none => s
    | some r =>
      if r.state ≠ .ending ∨ r.inPass ∨ !toStore r ∨ r.handle ≠ 0 ∨ r.resuming ∨ s.sec.restarting ∨ r.stage ≠ .out [] [] then s else
      let held := heldCache s r
      if storeStatus s p (recPages held) ≠ 0 then s else
      let h := newHandle s pn
      let ad := match tget none p.adapters (r.adapter - 1) with | some a => if r.adapter = 0 then (0, 0) else (a.id, a.ver) | none => (0, 0)
      let ttl := if r.endStatus = stPaused then r.pauseTtl else r.keepTtl
      let c : Context := ⟨h, pn, layoutOf p, p.wset.plain.getD 0, r.gen.getLastD 0, nextPos r - 1, ad.1, ad.2, expiryAt s ttl, held, r.image, true⟩
      let s := { s with contexts := s.contexts ++ [c], serial := s.serial + 1 }
      giveUp pn tag (updReq s pn tag (fun r => { r with handle := h }))

/-- Last position appended, for the completion (09 Table 9-5). -/
def lastAppended (r : Request) : Nat :=
  match r.note with
  | some n => n
  | none =>
    if r.gen.isEmpty then (if r.endStatus = stError ∨ r.endStatus = stLost then Config.appendedAt r.tag else r.pos0 + r.promptLen + 2 ^ 32 - 1)
    else r.pos0 + r.promptLen + r.gen.length + 2 ^ 32 - 2

/-- The completion of a request (09 Table 9-5, SUBMIT). -/
def reqCompl (r : Request) : Completion :=
  let res := r.delivered % 2 ^ 32 + lastAppended r % 2 ^ 32 * 2 ^ 32 + r.handle.toNat * 2 ^ 64
  ⟨BitVec.ofNat 128 res, 0, r.sqhd, r.sqid, r.cid, BitVec.ofNat 8 r.endStatus, none⟩

/-- REQUEST_END: the context is stored when it is to be, pages go, the END entry and the completion are written (R280). -/
def endReq (pn : Nat) (tag : BitVec 64) (s : State) : State :=
  match getPart s pn with
  | none => s
  | some p =>
    match findReq p tag with
    | none => s
    | some r =>
      if r.state ≠ .ending ∨ r.inPass ∨ r.written9 then s else
      let st := if toStore r ∧ r.handle = 0 then storeStatus s p (recPages (heldCache s r)) else 0
      if toStore r ∧ r.handle = 0 ∧ st = 0 then s else
      let s := { s with contexts := lmap (fun c => c.handle == r.handle) (fun c => { c with busy := false }) s.contexts }
      let s := giveUp pn tag (if r.handle = 0 then dropImages s r.image else s)
      let r := { r with shares := [], storeErr := st, written9 := true }
      let s := updReq s pn tag (fun _ => r)
      let s := if 0 < runnelRoom r then nextEntry s pn r (runnelEntry 0 r.delivered 0 (8 + 16 * r.reason) 0) false else s
      postReq s pn r (reqCompl r)

/-- REQUEST_END, once no message of the request's cache is on its way (07 R231). -/
def finishReq (pn : Nat) (tag : BitVec 64) (s : State) : State :=
  if ((getPart s pn).bind (findReq · tag)).any stageBusy then s else endReq pn tag s

/-- Every request of a partition ends at once (R297): CONTEXT_LOST where a test holds, ERROR otherwise; one already ending keeps its status, unless its context is still to be stored. -/
def endAll (s : State) (pn : Nat) (lost : Request → Bool) : State :=
  match getPart s pn with
  | none => s
  | some p =>
    forEach p.reqs (fun r s =>
      let st := if lost r then stLost else stError
      let s := updReq s pn r.tag (fun r =>
        if r.written9 ∨ (r.state = .ending ∧ !(toStore r && r.handle == 0)) then { r with inPass := false }
        else { r with inPass := false, state := .ending, endStatus := st, reason := reasonOf st, hit := 0 })
      endReq pn r.tag s) s

/-! ## Contexts (09 R291 to R293) -/

def findCtx (s : State) (h : BitVec 64) : Option Context := s.contexts.find? (fun c => c.handle == h)
/-- A context record goes. -/
def dropRecord (s : State) (h : BitVec 64) : State := { s with contexts := s.contexts.filter (fun c => c.handle != h) }
/-- A context is erased, its page images with it. -/
def eraseCtx (s : State) (h : BitVec 64) : State :=
  match findCtx s h with
  | some c => dropRecord (dropImages s c.image) h
  | none => s

end Sys2Proof.Machine
end

