-- ==== Sys2Proof/Machine/Caps.lean ====
section
/-! DEFINITION. Tiers, cap factors, effective shares and the step time of a partition (12 R361, R374 to R376, R380, R381, R385, R386); calibration records (03 R91 to R97). -/

namespace Sys2Proof.Machine

/-! ## Tiers and cap factors -/

/-- Tier of a rim tile: that of the field it borders (R380). -/
def tileTier (s : State) (t : Nat) : Nat := (getF s (borderField t)).tier
/-- Module tier: the highest field tier (R380). -/
def moduleTier (s : State) : Nat := s.fields.foldl (fun m e => max m e.2.tier) 0
/-- Highest tier among the partition's fields. -/
def partTier (s : State) (p : Partition) : Nat := (partFields p).foldl (fun m f => max m (getF s f).tier) 0
/-- Tier factor of Table 12-8. -/
def tierFactor (t : Nat) : Rat := if t = 0 then 1 else if t = 1 then 17 / 20 else if t = 2 then 7 / 10 else 1 / 2
/-- Tier factor of a partition (R381). -/
def fTier (s : State) (p : Partition) : Rat := if partTier s p = 3 then 1 / 2 else tierFactor (min 2 (moduleTier s))

/-- Input cap C in mW for an input voltage in mV (Table 12-1). -/
def inputCap (mv : Nat) : Rat := if mv < 21600 then (mv : Rat) * 394 / 10 else 850000
def fInput (s : State) : Rat := min 1 ((inputCap s.plant.vin - 240000) / 610000)

/-- Healthy readings of coolant sensors lo and lo + 1: 0 inlet, 2 outlet (R378). -/
def coolReadings (s : State) (lo : Nat) : List Int := ([lo, lo + 1].filter (fun n => !s.plant.coolBad.contains n)).map (fun n => tget 240 s.plant.coolant n)
/-- Highest healthy reading of a place, 1/8 K. -/
def coolMax (s : State) (lo : Nat) : Option Int := (coolReadings s lo).foldl (fun m t => match m with | none => some t | some u => some (max u t)) none
/-- Lowest healthy reading of a place. -/
def coolMin (s : State) (lo : Nat) : Option Int := (coolReadings s lo).foldl (fun m t => match m with | none => some t | some u => some (min u t)) none

/-- Highest healthy inlet reading; a free value where no inlet sensor is healthy (log 22). -/
def inletNow (s : State) : Int := (coolMax s 0).getD (Config.noReading 0)

/-- Inlet factor (Table 12-9). -/
def fInlet (s : State) : Rat :=
  match inletNow s with
  | t => if t ≤ 400 then 1 else if t ≤ 480 then (610 - 35 * ((t : Rat) / 8 - 50)) / 610 else 1 / 4

/-- Flow factor of a band (Table 12-10). -/
def bandFactor (b : Nat) : Rat := if b = 0 then 1 else if b = 1 then 3 / 4 else if b = 2 then 1 / 2 else 3 / 10
def fFlow (s : State) : Rat := if (coolReadings s 0).isEmpty || (coolReadings s 2).isEmpty then 3 / 10 else bandFactor s.plant.band
def fStop (s : State) : Rat := if s.plant.stop then 1 / 4 else 1

/-- VCORE and VANA groups of a field (Table 12-3). -/
def coreGroup (f : Nat) : Nat := 2 * (f % 10) + (if f / 10 < 5 then 0 else 1)
def anaGroup (f : Nat) : Nat := 21 + coreGroup f
/-- Phases of a group out of service, an update's among them (R363, R388). -/
def groupOut (s : State) (g : Nat) : Nat := tget 0 s.plant.phasesOut g + (if s.plant.phaseUpd = g + 1 then 1 else 0)
/-- Plate factor of a partition: groups of its fields; S, N, I and P serve every partition. -/
def fPlate (s : State) (p : Partition) : Rat :=
  if [41, 42, 43, 44].any (fun g => decide (0 < groupOut s g))
    || (partFields p).any (fun f => decide (0 < groupOut s (coreGroup f)) || decide (0 < groupOut s (anaGroup f))) then 4 / 5 else 1

/-- Cap factor f_P (R374). -/
def capFactor (s : State) (p : Partition) : Rat :=
  min (fInput s) (min (fInlet s) (min (fFlow s) (min (fStop s) (min (fTier s p) (fPlate s p)))))

/-- Effective share, mW (R374). -/
def effShare (p : Partition) : Rat := (p.share : Rat) * 100 * p.fP

/-- Step time of R375, ns. -/
def stepFor (p : Partition) : Nat :=
  match p.prog with
  | none => 0
  | some g =>
    let r : Rat := max 1 ((p.share0 : Rat) / ((p.share : Rat) * p.fP))
    min 20000 ((g.stepTime : Rat) * r * p.mult).ceil.toNat

/-! ## Calibration records (03 R91 to R97) -/

/-- Lantern or field of a record's SUBJECT. -/
def calPart (s : State) (key : Nat) : Option Nat :=
  if key / 2 ^ 32 < 0x10 then partOfField s (key % 2 ^ 32) else partOf s (key % 2 ^ 32 / 2 ^ 21)

/-- Do the values of a record wait for a step boundary: is its owner running (R94)? -/
def calWaits (s : State) (key : Nat) : Bool :=
  match (calPart s key).bind (getPart s) with
  | some p => p.running
  | none => false

/-- A record takes a payload under a SETID, or under the one it has (R94): slot 0 with the next generation, read back; slot 1 the same way, which commits it;
then the master copy. The values are in force at once, or from the owner's next boundary on. -/
def calCommit (s : State) (key : Nat) (setid : Option (BitVec 32)) (pay : Nat) : State :=
  let r := calRec s key
  let b := (bestCopy key r).getD r.slot0
  let c := makeRec key (recGen b + 1) (setid.getD (recSetid b)) pay
  setCal s key (if !copyValid key c then { r with slot0 := c }
    else if calWaits s key then { r with slot0 := c, slot1 := c, master := c, next := some c }
    else ⟨c, c, c, c, none⟩)

/-- The record of the pair that holds array a takes what its two arrays hold now; their monitors capture afresh (R86, R92, R94). -/
def pairCommit (s : State) (l a : Nat) (setid : Option (BitVec 32)) : State :=
  let L := getL s l
  let e := a / 2 * 2
  let s := calCommit s (calKey 0x20 (pairSubject l a)) setid (pairPay (getArr L e) (getArr L (e + 1)))
  startCapture (startCapture s l e) l (e + 1)

/-- A record with every copy that is invalid or older than the newest valid one rewritten; how many were (R97). -/
def scrubRec (key : Nat) (r : CalRec) : CalRec × Nat :=
  match bestCopy key r with
  | none => (r, 0)
  | some b =>
    let stale := fun c => !copyValid key c || newerGen (recGen b) (recGen c)
    let fix := fun c => if stale c then b else c
    ({ r with slot0 := fix r.slot0, slot1 := fix r.slot1, master := fix r.master }, ((copiesOf r).filter stale).length)

/-! ## Step boundaries (06 R188) -/

/-- Saturating configuration epoch (11 R354). -/
def epochUp (p : Partition) (n : Nat) : Partition := { p with epoch := min 0xFFFFFFFF (p.epoch + n) }

/-- A counter whose new source has come into effect (13 R391). -/
def counterNow (c : Counter) : Counter :=
  match c.next with
  | some (src, clr) => ⟨if clr then 0 else c.count, src, none⟩
  | none => c
def countersNow (m : SMap Counter) : SMap Counter := (m.map (fun e => (e.1, counterNow e.2))).filter (fun e => e.2 != {})

/-- An array of a lantern at a boundary: a new drift scale, or the scale 1 while compensation is off (03 R76, R79). A stale one has no new scale waiting (03 R77). -/
def arrayNow (off : Bool) (a : WickArray) : WickArray :=
  if off then { a with drift := 32768, driftNext := none }
  else match a.driftNext with
    | some d => if a.stale then { a with driftNext := none } else { a with drift := d, driftNext := none }
    | none => a

/-- A lantern at a boundary: temperature, drift scales, counters. -/
def lanternNow (off : Bool) (L : Lantern) : Lantern :=
  { L with temp := L.tempNext.getD L.temp, tempNext := none,
           arrays := (L.arrays.map (fun e => (e.1, arrayNow off e.2))).filter (fun e => e.2 != {}), counters := countersNow L.counters }

/-- Settings of a partition that were committed before a boundary are in force (R188; 09 R273; 11 R354). -/
def settingsNow (p : Partition) : Partition :=
  let n := (match p.watchdogNext with | some x => if x = p.watchdog then 0 else 1 | none => 0)
    + (match p.monNext with | some x => if x = p.mon then 0 else 1 | none => 0)
    + (match p.driftNext with | some x => if x = p.drift then 0 else 1 | none => 0)
  epochUp { p with
    watchdog := p.watchdogNext.getD p.watchdog, watchdogNext := none, share := p.shareNext.getD p.share, shareNext := none, fP := p.fPNext.getD p.fP, fPNext := none,
    mon := p.monNext.getD p.mon, monNext := none, drift := p.driftNext.getD p.drift, driftNext := none,
    debug := p.debug && !p.debugEnd, debugEnd := false, counters := countersNow p.counters,
    stretchOn := p.pstretch.toNat % 1024, pcreditOn := p.pcredit, padcOn := p.padc, hsdelayOn := p.hsdelay } n

/-- Everything that takes effect at a boundary of a partition, or at once where the partition has no boundaries. -/
def applyPending (s : State) (pn : Nat) : State :=
  match getPart s pn with
  | none => s
  | some p0 =>
    let p := settingsNow p0
    let p := { p with stepTime := stepFor p }
    let s := setPart s pn (some p)
    let s := forEach (partFields p) (fun f s =>
      forEach (lanternsIn f) (fun l s => updL s l (lanternNow (!p.drift))) (updF s f (fun F => { F with counters := countersNow F.counters }))) s
    { s with cal := s.cal.map (fun e => if calPart s e.1 = some pn then (e.1, { e.2 with cur := e.2.next.getD e.2.cur, next := none }) else e) }

/-- A partition starts at step 0 (06 R187; 12 R375, R376): pending settings, share and step time of the start, allowance. -/
def beginPart (s : State) (pn : Nat) : State :=
  let s := updPart s pn (fun p =>
    let share := p.shareNext.getD p.share
    { p with share0 := share, mult := 1, fP := capFactor s p, fPNext := none, overWarned := false,
             allowance := match p.prog with | some g => allowanceOf p share g.stepTime | none => 0 })
  startPart (applyPending s pn) pn

end Sys2Proof.Machine
end

