-- ==== Sys2Proof/Machine/Faults.lean ====
section
/-! DEFINITION. Step boundaries, the watchdog, fault handling, remapping, reload, configuration and calibration scrubs, rim functions lost (06 R188 to R191; 11 R335 to R352; 03 R78, R97). -/

namespace Sys2Proof.Machine

/-! ## Boundaries (06 R188 to R191) -/

/-- Lanterns that have not closed the step of the next boundary. -/
def openLanterns (s : State) (p : Partition) : List Nat := (progLanterns s p).filter (fun l => decide ((getL s l).closed ≤ p.bound))

/-- STEP_BOUNDARY: the next boundary of a partition, once every lantern has closed its step and the step time has passed (R188). -/
def stepBoundary (pn : Nat) (s : State) : State :=
  match getPart s pn with
  | none => s
  | some p =>
    if !p.running || !(openLanterns s p).isEmpty || decide (nowNs s < p.boundAt + stepNow p) then s else
    let s := updPart s pn (fun q => { q with bound := q.bound + 1, boundAt := nowNs s })
    let s := boundaryShares (fun r => r.state == .ending && toStore r && r.handle == 0) pn (applyPending s pn)
    let s := forEach (partFields p) (fun f s =>
      countF (updF s f (fun F => { F with declared := F.declared.filter (fun e => decide (p.bound < e.1)) })) f 0x48 1) s
    match (partLanterns s p).head? with
    | some l => traceL s l 0 p.bound
    | none => s

/-- BOUNDARY_SEEN: a lantern sees the next boundary of its partition (R190). -/
def boundarySeen (l : Nat) (s : State) : State :=
  match (partOf s l).bind (getPart s) with
  | some p => if p.running ∧ (getL s l).seen < p.bound then updL s l (fun L => { L with seen := L.seen + 1 }) else s
  | none => s

/-- Wait code that an engine with an unfinished instruction was held on; the array port's operations past the port count as its own (06 R191). -/
def engineWait (L : Lantern) (e : Nat) : Nat :=
  let g := getEng L e
  if !g.q.isEmpty && g.wait != 0 then g.wait else if e = 0 then (bankWaits L).headD 0 else 0

/-- LIST entry of a lantern (11 Table 11-6): it did not answer when its domain is off. -/
def stoppedAt (s : State) (l : Nat) : Nat × Nat × Bool × List Nat :=
  let L := getL s l
  (l, L.pc, !L.on, (List.range 7).map (engineWait L))

/-- STEP_WATCHDOG_EXPIRY (R191). -/
def watchdogExpiry (pn : Nat) (s : State) : State :=
  match getPart s pn with
  | none => s
  | some p =>
    let late := openLanterns s p
    if !p.running || late.isEmpty || decide (nowNs s < p.boundAt + stepNow p + 1000 * p.watchdog) then s else
    raiseFault s pn ⟨0, causeWatchdog, pn, late.headD 0, p.bound, 65535, 0, 0, nowNs s, 0, 0, (late.take 16).map (stoppedAt s)⟩

/-- PARTITION_STOP: every lantern of a partition whose step tree stands still stops (R198). -/
def partitionStop (pn : Nat) (s : State) : State :=
  match getPart s pn with
  | some p => if p.running then s else stopLanterns s pn
  | none => s

/-! ## Fault records (11 R344, Table 11-6) -/

/-- One LIST entry as a number of 64 bits. -/
def listWord (e : Nat × Nat × Bool × List Nat) : Nat :=
  e.1 + e.2.1 * 2 ^ 11 + (if e.2.2.1 then 2 ^ 24 else 0) + (((e.2.2.2.zipIdx).map (fun w => w.1 % 16 * 16 ^ w.2)).sum) * 2 ^ 25

/-- The 176 bytes of a fault record. -/
def faultBytes (r : FaultRec) : List Byte :=
  bytesOfNat 1 r.cls ++ bytesOfNat 1 r.cause ++ bytesOfNat 1 r.part ++ bytesOfNat 1 r.list.length ++ bytesOfNat 4 r.place ++ bytesOfNat 8 r.step
    ++ bytesOfNat 2 r.index ++ bytesOfNat 2 0 ++ bytesOfNat 8 r.word.toNat ++ bytesOfNat 4 r.detail ++ bytesOfNat 8 r.time ++ bytesOfNat 4 r.epoch
    ++ bytesOfNat 4 r.outcome ++ (r.list.take 16).flatMap (fun e => bytesOfNat 8 (listWord e)) ++ bytesOfNat (8 * (16 - r.list.length)) 0

/-- Routers at both ends of a link. -/
def linkRouters (place : Nat) : List Nat :=
  let r := place / 2 ^ 21
  let p := place / 2 ^ 18 % 8
  if p = 0 ∨ (edgeTile r p).isSome then [r] else [r, neighbour r p]

/-- Lanterns of the quadrants of field f that are derated or bad (12 R371). -/
def deratedLanterns (s : State) (f : Nat) : List Nat :=
  (lanternsIn f).filter (fun l => (getF s f).derated.contains (quadrantOf l) || (getF s f).senseBad.contains (quadrantOf l))

/-- Suspects of a fault (Table 11-5), lanterns only. -/
def suspectsOf (r : FaultRec) : List Nat :=
  if r.cls = 0 then (if r.cause = causeWatchdog then r.list.map (·.1) else [])
  else if r.cls = 1 then linkRouters r.place
  else if r.cls = 3 then [r.place]
  else if r.cls = 4 then lanternsIn r.place
  else []

/-- Is the module of ring index o one that this module reached over Zenden port z: downstream over Z2 up to the farthest, upstream over Z0, by the bypass beside a lost port, and over the port that was left of a chain (07 R224, R225; 08 R260)? -/
def reachedBy (s : State) (z o : Nat) : Bool :=
  let n := s.ring.size
  let d := (o + n - s.ring.index) % n
  let near := fun z : Nat => if z = 2 then decide (1 ≤ d ∧ 2 * d ≤ n) else decide (z = 0 ∧ n < 2 * d)
  match s.ring.lost with
  | none => near z
  | some p => if z = p || (s.ring.mode == 1 && z == bypassOf p) then near p else if s.ring.bypass then near z else (z == 0 || z == 2) && decide (1 ≤ d)

/-- Does a request lose its cache to a fault (09 R297)? -/
def loses (s : State) (r : FaultRec) (q : Request) : Bool :=
  let on := fun l => q.shares.any (fun h => h.lantern == l)
  if r.cls = 0 then (r.list.filter (fun e => e.2.2.1)).any (fun e => on e.1)
  else if r.cls = 1 then (linkRouters r.place).any on
  else if r.cls = 2 then q.owners.any (fun e => reachedBy s r.place e.2.2)
  else if r.cls = 4 then (deratedLanterns s r.place).any on
  else false

/-- Unit a class event concerns: the place of the fault, or firmware for a link (log 24). -/
def faultUnit (r : FaultRec) : Nat × Nat :=
  if r.cls = 0 ∨ r.cls = 3 then (srcLantern, r.place)
  else if r.cls = 2 then (srcTile, zendenTile r.place)
  else if r.cls = 4 then (srcField, r.place)
  else if r.cls = 5 then (srcTile, r.place)
  else (srcFirmware, 0)

/-- PARTITION_FAULT: module firmware takes the oldest fault of a partition (11 R344, R345 steps 1 and 2, R348). -/
def takeFault (pn : Nat) (s : State) : State :=
  match getPart s pn with
  | none => s
  | some p =>
    match p.newFaults with
    | [] => s
    | r :: rest =>
      let s := raiseEv s sevError (0x0100 + r.cls) pn (faultUnit r).1 (faultUnit r).2
        (r.cls + r.cause * 256 + r.part * 2 ^ 16 + r.list.length * 2 ^ 24 + r.place * 2 ^ 32)
      let s := updPart s pn (fun q => { q with state := .faulted, wasDraining := q.wasDraining || q.state == .draining })
      let s := endAll (stopPart s pn) pn (loses s r)
      updPart s pn (fun q => { q with
        newFaults := rest, faults := (r :: q.faults).take 8,
        handling := some { r with outcome := match q.handling with | some h => h.outcome | none => 0 },
        suspects := (q.suspects ++ suspectsOf r).eraseDups, retested := false, running := false })

/-! ## Votes (11 R335, R336) -/

/-- Is v a voter of lantern x: a lantern beside it, or the tile of an edge? -/
def isVoter (v x : Nat) : Bool :=
  ([1, 2, 3, 4]).any (fun p => match edgeTile x p with
    | some t => v == 1600 + t
    | none => v == neighbour x p)

/-- Fail votes against x from voters that count. -/
def votesAgainst (votes : List (Nat × Nat)) (off : Nat → Bool) (x : Nat) : Nat := (votes.filter (fun e => e.2 == x && !off e.1)).length

/-- The lantern with the most votes, ties to the lower number. -/
def mostVotes (votes : List (Nat × Nat)) (off : Nat → Bool) (xs : List Nat) : Option Nat :=
  xs.foldl (fun b x => match b with
    | none => some x
    | some y =>
      let vx := votesAgainst votes off x
      let vy := votesAgainst votes off y
      if vy < vx ∨ (vx = vy ∧ x < y) then some x else b) none

/-- Lanterns marked bad by the votes; with voids, a lantern marked bad casts no vote (R336, R346). -/
def judge (voids : Bool) (off : Nat → Bool) (votes : List (Nat × Nat)) : Nat → List Nat → List Nat
  | 0, bad => bad
  | n + 1, bad =>
    let off' := fun v => off v || (voids && bad.contains v)
    match mostVotes votes off' ((votes.map (·.2)).eraseDups.filter (fun x => !bad.contains x && decide (2 ≤ votesAgainst votes off' x))) with
    | none => bad
    | some x => judge voids off votes n (bad ++ [x])

/-- Fail votes left: the link from the voter to the lantern is to be repaired. -/
def leftVotes (voids : Bool) (off : Nat → Bool) (votes : List (Nat × Nat)) (bad : List Nat) : List (Nat × Nat) :=
  votes.filter (fun e => !bad.contains e.2 && !off e.1 && !(voids && bad.contains e.1))

/-- The link of a left vote goes out of service until its lane test: link 0, or 1 where link 0 is out (DESIGN CHOICE, log 23). -/
def testLink (e : Nat × Nat) (s : State) : State :=
  let at' := if e.1 < 1600 then ([1, 2, 3, 4].find? (fun p => inward e.1 p && neighbour e.1 p == e.2)).map (fun p => (e.1, p, false))
    else ([1, 2, 3, 4].find? (fun p => edgeTile e.2 p == some (e.1 - 1600))).map (fun p => (e.2, p, true))
  match at' with
  | none => s
  | some (r, p, inb) => updDir r p inb (fun d => dropLink (if (tget {} d.link 0).up then 0 else 1) d) s

/-- Lantern l is bad: in the map, reported, its domain off (11 R336, R337). -/
def markBad (source l : Nat) (s : State) : State :=
  if s.badLanterns.contains l then s else
  let s := addRepair { s with badLanterns := s.badLanterns ++ [l] } ⟨1, source, l, 0, 0⟩
  raiseEv (switchOff s l) sevWarn 0x0700 ((partOf s l).getD partModule) srcLantern l l

/-- Bad lanterns of a field, local indices. -/
def badLocal (s : State) (f : Nat) : List Nat := ((lanternsIn f).filter (fun l => s.badLanterns.contains l)).map localIx

/-- Is a field degraded: more bad lanterns than the setting in force (01 R20)? -/
def degradedField (s : State) (f : Nat) : Bool := decide (s.spares < (badLocal s f).length)

/-- Lanterns found bad in service: marked, and each field that becomes degraded reported (01 R20). -/
def markInService (ls : List Nat) (s : State) : State :=
  let t := forEach ls (markBad 3) s
  forEach ((ls.map fieldOf).eraseDups.filter (fun f => degradedField t f && !degradedField s f)) (fun f t => raiseF t f sevWarn 0x0701 f) t

/-! ## Remapping (11 R338, R347) -/

/-- Physical array that an ARRAY chunk goes to; none for the other kinds. -/
def jobArray (s : State) (j : ChunkJob) : Option Nat := if j.chunk.kind = 1 then physOf (getL s j.lantern) j.chunk.arr else none

/-- Jobs that program now: the first of each bank of a lantern whose domain is on, 36 at most (02 R64). -/
def activeJobs (s : State) : List ChunkJob :=
  ((s.jobs.filter (fun j => (getL s j.lantern).on)).foldl (fun (acc : List (ChunkJob × Nat × Nat)) j =>
    match jobArray s j with
    | some a => if acc.any (fun e => e.2.1 == j.lantern && e.2.2 == a / 8) then acc else acc ++ [(j, j.lantern, a / 8)]
    | none => acc) []).take 36 |>.map (·.1)

/-- The array a bank has in programming or erasure (02 R61). -/
def bankBusy (s : State) (l b : Nat) : State :=
  let a := s.jobs.findSome? (fun j => if j.lantern = l ∧ j.started = true then (jobArray s j).filter (fun x => x / 8 == b) else none)
  let e := s.erasing.find? (fun e => e.1 == l && e.2 / 8 == b)
  let busy := match a with
    | some x => some x
    | none => e.map (·.2)
  updBank s l b (fun B => { B with prog := busy })

/-- Cells of an array below 0.1 µS, its programmed flag clear (02 R62 step 1, R66). -/
def resetCells (A : WickArray) : WickArray := { A with cells := [], refs := [], programmed := false }

/-- A programming starts: its array is reset (02 R62). -/
def startJob (j : ChunkJob) (s : State) : State :=
  match jobArray s j with
  | none => s
  | some a =>
    let s := { s with jobs := s.jobs.map (fun x => if x = j then { x with started := true } else x) }
    let was := (getArr (getL s j.lantern) a).programmed
    let s := updArr s j.lantern a resetCells
    bankBusy (if was then pairCommit s j.lantern a none else s) j.lantern (a / 8)

/-- Every programming that may start does; VPROG serves what programs or erases. -/
def startJobs (s : State) : State := vprogUse (forEach ((activeJobs s).filter (fun j => !j.started)) startJob s)

/-- A chunk goes to programming. -/
def addJob (s : State) (j : ChunkJob) : State := startJobs { s with jobs := s.jobs ++ [j] }

/-- Slot of a lantern in its field's slot map. -/
def slotOf (s : State) (l : Nat) : Option Nat := (getF s (fieldOf l)).slots.findIdx? (· == l + 1)

/-- The slot of a failed lantern moves to the field's spare with the lowest local index, or becomes vacant; a failed spare is no spare (R338). -/
def moveSlot (s : State) (l : Nat) : State × Option Nat :=
  let f := fieldOf l
  let F := getF s f
  match slotOf s l with
  | none => (updF s f (fun F => { F with spares := F.spares.filter (· != localIx l) }), none)
  | some k =>
    match F.spares with
    | i :: rest => (updF s f (fun F => { F with spares := rest, slots := F.slots.set k (lanternIn f i + 1) }), some (lanternIn f i))
    | [] => (updF s f (fun F => { F with slots := F.slots.set k 0 }), none)

/-- The chunk records of a slot are discarded and the weight set is incomplete (R347). -/
def dropSlot (s : State) (pn f k : Nat) : State :=
  updPart s pn (fun p => { p with
    shortfall := true, wset := { weightsLost p.wset with recs := p.wset.recs.filter (fun c => !(c.field == f && c.slot == k)) } })

/-- Range codes of a RANGE chunk or weight-reserve record, as the range table holds them; the Lamplighter takes their check value (R352). -/
def setRanges (s : State) (l : Nat) (m : SMap Int) : State :=
  let t := m.foldl (fun t e => tset 0 t e.1 e.2.toNat) []
  updL s l (fun L => { L with ranges := t, goldRanges := t })

/-- A program chunk of the reserve goes to a spare: RANGE codes at once, ARRAY chunks to programming. -/
def fromReserve (l : Nat) (c : ChunkRec) (r : ReserveRec) (s : State) : State :=
  if r.kind = 2 then setRanges s l r.cells
  else addJob s ⟨c, l, r.mode.val, r.cells, 0, ⟨.a, 0⟩, 0, 0, 0, true, false⟩

/-- Number of a copy of weights in the cistern: a LINES line, a chunk of the reserve (10 R320; 11 R347). -/
def lineCopy (x : LinesRec) : Nat := 2 ^ 100 + (x.field * 16 + x.slot) * 65536 + x.line
def reserveCopy (r : ReserveRec) : Nat := 2 ^ 101 + ((r.field * 16 + r.slot) * 4 + r.kind) * 256 + r.arr

/-- Does an access to a partition's reserve wait, as a channel that holds it takes its new image (R358)? -/
def reserveHeld (s : State) (p : Partition) : Bool :=
  p.wset.reserve.any (fun r => channelHeld s (Config.copyChannel (reserveCopy r) % 12))

/-- Copies that failed authentication, counted at their channels (00 R4). -/
def countCopies (xs : List Nat) (s : State) : State := forEach xs (fun c s => countT s (channelTile (Config.copyChannel c % 12)) 0x66 1) s

/-- Remap of one failed lantern of a partition: how many slots moved (R347). -/
def remapOne (pn l : Nat) (s : State) : State × Nat :=
  match slotOf s l, getPart s pn with
  | some k, some p =>
    let f := fieldOf l
    let (s, dest) := moveSlot s l
    match dest with
    | none => (dropSlot s pn f k, 0)
    | some n =>
      let s := updPart (requestOn s n) pn (fun p => { p with prog := p.prog.map (fun g => { g with image := renameLantern l n g.image }) })
      let read := p.wset.reserve.filter (fun r => r.field == f && r.slot == k && !s.sec.error)
      let mine := read.filter (fun r => authentic s r.sealed (reserveCopy r))
      let bad := read.filter (fun r => !authentic s r.sealed (reserveCopy r))
      let s := updPart (countCopies (bad.map reserveCopy) s) pn (fun p => { p with wset := { p.wset with reserve := p.wset.reserve.filter (fun r => !bad.contains r) } })
      let recs := p.wset.recs.filter (fun c => c.field == f && c.slot == k)
      let pick := fun c : ChunkRec => mine.find? (fun r => r.kind == c.kind && r.arr == c.arr)
      if recs.all (fun c => (pick c).isSome) && p.wset.lines.all (fun x => x.field != f || x.slot != k || (p.cistern && x.sealed == s.sec.cisternKey)) then
        (forEach recs (fun c s => match pick c with | some r => fromReserve n c r s | none => s) s, 1)
      else (dropSlot s pn f k, 1)
  | _, _ => ((moveSlot s l).1, 0)

/-- Every lantern of a partition that holds a slot and is bad. -/
def remapAll (pn : Nat) (s : State) : State :=
  match getPart s pn with
  | none => s
  | some p =>
    let (s, n) := ((partLanterns s p).filter (fun l => s.badLanterns.contains l)).foldl
      (fun (x : State × Nat) l => let (t, k) := remapOne pn l x.1; (t, x.2 + k)) (s, 0)
    updPart s pn (fun p => { p with remapped := p.remapped + n })

/-- Within the last 600 s. -/
def recent (s : State) (t : Nat) : Bool := decide (nowNs s < t + 600000000000)

/-- FAULT_RETEST_DONE: suspects judged, but for those of other partitions, program faults counted, bad lanterns remapped; in a field of no partition the slot map alone follows (01 R20; 11 R338, R346 to R349). -/
def retestDone (pn : Nat) (votes : List (Nat × Nat)) (s : State) : State :=
  match getPart s pn with
  | none => s
  | some p =>
    match p.handling with
    | none => s
    | some r =>
      if p.state ≠ .faulted ∨ p.retested ∨ !p.newFaults.isEmpty ∨ reserveHeld s p then s else
      let off := fun v : Nat => s.badRouters.contains v
      let votes := votes.filter (fun e => p.suspects.contains e.2 && isVoter e.1 e.2 && (partOf s e.2).all (· == pn))
      let judged := judge false off votes votes.length []
      let store := decide (r.cls = 0) && decide (r.cause = causeStore)
      let again := store && (match (getL s r.place).storeErrAt with | some t => recent s t | none => false)
      let bad := if again && !judged.contains r.place then judged ++ [r.place] else judged
      let s := if store then
          updL (raiseEv s sevWarn 0x0709 pn srcLantern r.place r.place) r.place (fun L => { L with storeErrAt := some (nowNs s) })
        else s
      let s := markInService bad s
      let s := forEach (leftVotes false off votes bad) testLink s
      let prog := decide (r.cls = 0) && !store && bad.isEmpty
      let times := if prog then nowNs s :: p.progFaults.filter (recent s) else p.progFaults
      let third := (prog && decide (3 ≤ times.length)) || r.outcome == 4
      let s := forEach (bad.filter (fun l => (partOf s l).isNone)) (fun l s => (moveSlot s l).1) (remapAll pn s)
      updPart s pn (fun p => { p with
        retested := true, progFaults := times, handling := some { r with outcome := if third then 4 else 0 } })

/-! ## Reload (11 R345 steps 5 to 7) -/

/-- LINES copies of a slot. -/
def slotLines (p : Partition) (f k : Nat) : List LinesRec := p.wset.lines.filter (fun x => x.field == f && x.slot == k)

/-- LINES lines of a lantern that a reload keeps, at the addresses its LINES chunks named. -/
def keptLines (s : State) (p : Partition) (l : Nat) : List (Nat × Line) :=
  match slotOf s l with
  | none => []
  | some k => (slotLines p (fieldOf l) k).map (fun x => (x.line, (padAt (getL s l) x.line).data))

/-- LINES lines of a slot come back from the cistern (10 R320): those whose copies pass authentication; copies that fail are discarded, and all of them where the cistern cannot be read (00 R4; 10 R300). Without every line the weight set is incomplete. -/
def restoreLines (s : State) (pn : Nat) (p : Partition) (f k : Nat) : State × List (Nat × Line) :=
  let mine := slotLines p f k
  let readable := p.cistern && cisternOn s && !s.sec.error
  let ok := fun x : LinesRec => readable && authentic s x.sealed (lineCopy x)
  let bad := mine.filter (fun x => !ok x)
  let s := if readable then countCopies (bad.map lineCopy) s else s
  (if bad.isEmpty then s else updPart s pn (fun p => { p with wset := { weightsLost p.wset with lines := p.wset.lines.filter (fun x => !bad.contains x) } }),
    (mine.filter ok).map (fun x => (x.line, x.data)))

/-- Every lantern gets its store, program-image lines and units as at program load; routes are checked, monitors capture afresh. -/
def reloadPart (s : State) (pn : Nat) : State :=
  match getPart s pn with
  | none => s
  | some p =>
    match p.prog with
    | none => s
    | some g =>
      let s := loadHeadgates (loadLanterns s p g.image (keptLines s p)) pn g.image
      let s := recheckRoutes s
      forEach (progLanterns s p) (fun l s => forEach (List.range 256) (fun a s => startCapture s l a) s) s

/-- Lanterns of the program that are not in service yet, or wait for their weights. -/
def notReady (s : State) (p : Partition) : Bool :=
  (progLanterns s p).any (fun l => !(getL s l).on || !(getL s l).timeOk || s.jobs.any (fun j => j.lantern == l))

/-- OUTCOME of the newest fault record (Table 11-6). -/
def setOutcome (p : Partition) (o : Nat) : Partition :=
  match p.faults with
  | r :: rest => { p with faults := { r with outcome := o } :: rest }
  | [] => p

/-- PARTITION_RELOAD_DONE: the partition returns to SERVING, or to LOADED (11 R345, R347, R349); it waits while the Lamplighter restarts (R357). -/
def reloadDone (pn : Nat) (s : State) : State :=
  match getPart s pn with
  | none => s
  | some p =>
    if p.state ≠ .faulted ∨ !p.retested ∨ !p.newFaults.isEmpty ∨ s.sec.restarting ∨ notReady s p then s else
    let third := match p.handling with | some r => r.outcome == 4 | none => false
    let s := reloadPart s pn
    let held := third || p.shortfall
    let out := (if held || p.wasDraining then 0 else 1) + (if p.remapped = 0 then 0 else 2) + (if held then 4 else 0) + min 255 p.remapped * 256
    let s := updPart s pn (fun p =>
      let p := setOutcome (if p.remapped = 0 then p else epochUp p 1) out
      { p with handling := none, suspects := [], retested := false, remapped := 0, shortfall := false, wasDraining := false })
    if p.wasDraining then drainDone (updPart s pn (fun p => { p with state := .draining })) pn
    else if held then updPart s pn (fun p => { p with state := .loaded })
    else updPart (beginPart s pn) pn (fun p => { p with state := .serving })

/-! ## Configuration and calibration (11 R351, R352; 03 R78, R97) -/

/-- Do two lanterns hold the same configuration block (R351)? -/
def sameConfig (a b : Lantern) (derated : Bool) : Bool :=
  a.store.map (fun e => (e.1, e.2.bits)) == b.store.map (fun e => (e.1, e.2.bits)) && a.odesc == b.odesc && a.oent == b.oent
    && a.ranges == b.ranges && a.ctBase == b.ctBase && a.ctCount == b.ctCount && (derated || a.clock == b.clock)
    && (List.range 16).all (fun q => (getQ a q).base == (getQ b q).base && (getQ a q).depth == (getQ b q).depth
        && (getQ a q).producer == (getQ b q).producer)
    && (List.range 32).all (fun e => let x := getSl a e; let y := getSl b e
        x.dest == y.dest && x.kind == y.kind && x.num == y.num && x.cls == y.cls && x.grant == y.grant)
    && (List.range 8).all (fun i => (getLane a i).producer == (getLane b i).producer)
    && (List.range 4).all (fun i => (tget {} a.intakes i).producer == (tget {} b.intakes i).producer)

/-- The lantern's block differs from what its partition's program gives it. -/
def lanternDiffers (s : State) (l : Nat) : Bool :=
  match (partOf s l).bind (getPart s) with
  | none => false
  | some p =>
    match p.prog, slotOf s l with
    | some g, some k =>
      if g.slots ≤ k ∨ !(getL s l).on then false else
      let t := (fieldIndex p (fieldOf l), k)
      !sameConfig (getL s l) (getL (loadLantern s p g.image t [] l) l) ((getF s (fieldOf l)).derated.contains (quadrantOf l))
    | _, _ => false

/-- A router's route table, or its active order-table bank, differs from what module firmware wrote. -/
def routerDiffers (s : State) (r : Nat) : Bool :=
  (getR s r).exceptions != (getR s r).goldExceptions || (getR s r).permit != (getR s r).goldPermit || (List.range 5).any (fun q => let P := getRP s r q; P.sched && tget {} P.orders P.bank != tget {} P.golden P.bank)

/-- CONFIG_CRC_RECOMPUTE: a unit recomputes its check value (R351). -/
def recomputeCrc (u : CfgUnit) (s : State) : State :=
  match u with
  | .lantern l => updL s l (fun L => { L with crcBad := lanternDiffers s l })
  | .router r => updR s r (fun R => { R with crcBad := routerDiffers s r })

/-- Partitions whose configuration a router holds: its field's, and those granted the tile of an edge router. -/
def routerParts (s : State) (r : Nat) : List Nat :=
  let ts := [1, 2, 3, 4].filterMap (edgeTile r)
  (allParts s).filterMap (fun e => if partOf s r = some e.1 || ts.any (granted e.2) then some e.1 else none)

/-- CONFIG_SCRUB: every mismatch faults the partitions whose configuration the unit holds (R352). -/
def configScrub (s : State) : State :=
  let ls := (s.lanterns.filter (fun e => e.2.crcBad)).map (·.1)
  let rs := (s.routers.filter (fun e => e.2.crcBad)).map (·.1)
  let s := forEach ls (fun l s => match partOf s l with | some pn => unitFault s pn 3 l | none => s) s
  forEach rs (fun r s =>
    forEach (routerParts s r) (fun pn s => unitFault s pn 3 r)
      (raiseEv s sevSecurity 0x0504 ((partOf s r).getD partModule) srcFirmware 0 ((partOf s r).getD partModule))) s

/-- CALIBRATION_SCRUB (03 R97). -/
def calibrationScrub (s : State) : State :=
  let n := (s.cal.map (fun e => (scrubRec e.1 e.2).2)).sum
  { s with cal := s.cal.map (fun e => (e.1, (scrubRec e.1 e.2).1)), calRewrites := s.calRewrites + n }

/-- Drift scales and tracked REF of a lantern's arrays saved. -/
def saveDrift (l : Nat) (s : State) : State :=
  let L := getL s l
  let new := (L.arrays.filter (fun e => e.2.drift != e.2.driftSaved || e.2.reft != e.2.reftSaved)).map (·.1)
  let s := updL s l (fun L => { L with arrays := L.arrays.map (fun e => (e.1, { e.2 with driftSaved := e.2.drift, reftSaved := e.2.reft })) })
  forEach ((new.map (· / 2)).eraseDups) (fun i s => pairCommit s l (2 * i) none) s

/-- DRIFT_SAVE: every array's drift scale and tracked REF go to its record (03 R78). -/
def driftSave (s : State) : State := forEach (s.lanterns.map (·.1)) saveDrift s

/-- RIM_FUNCTION_LOST: a rim tile's function is lost; every partition granted the tile faults (11 Table 11-5). -/
def rimLost (t : Nat) (s : State) : State :=
  let s := gateTile false t (updT s t (fun T => { T with lost := true }))
  forEach ((allParts s).filterMap (fun e => if granted e.2 t then some e.1 else none)) (fun pn s => unitFault s pn 5 t) s

/-! ## Control processors (11 R350) -/

/-- Both out of service: the Lamplighter stops the step tree of every partition. -/
def bothOut (s : State) : State :=
  if s.boot.aUp || s.boot.bUp then s else
  let s := raiseEv s sevFatal 0x0708 partModule srcLamplighter 0 0
  forEach ((allParts s).map (·.1)) (fun pn s => stopPart s pn) s

/-- A control processor halts; the standby takes over with HOLD when the active one halts. -/
def procHalts (a : Bool) (s : State) : State :=
  if !(if a then s.boot.aUp else s.boot.bUp) then s else
  let wasActive := s.boot.bActive != a
  let s := { s with boot := if a then { s.boot with aUp := false } else { s.boot with bUp := false } }
  if !wasActive then bothOut s
  else if (if a then s.boot.bUp else s.boot.aUp) then
    raiseEv { s with boot := { s.boot with bActive := a, hold := true, holdAt := nowNs s } } sevWarn 0x0702 partModule srcFirmware 0 (if a then 1 else 0)
  else bothOut s

/-- STANDBY_SELFTEST_DONE: a restarted processor becomes the standby, or stays out of service. -/
def standbyDone (a pass : Bool) (s : State) : State :=
  if (if a then s.boot.aUp else s.boot.bUp) || !(s.boot.aUp || s.boot.bUp) then s
  else if pass then { s with boot := if a then { s.boot with aUp := true } else { s.boot with bUp := true } }
  else raiseEv s sevError 0x0702 partModule srcFirmware 0 (if a then 0 else 1)

/-! ## Commands -/

/-- 06 R188. -/
def execStepBoundary (part : Nat) (s : State) : Out := guarded (partOk part) (stepBoundary part s)
/-- 06 R190. -/
def execBoundarySeen (l : Nat) (s : State) : Out := guarded (lanternOk l) (boundarySeen l s)
/-- 06 R191. -/
def execStepWatchdogExpiry (part : Nat) (s : State) : Out := guarded (partOk part) (watchdogExpiry part s)
/-- 06 R198. -/
def execPartitionStop (part : Nat) (s : State) : Out := guarded (partOk part) (partitionStop part s)
/-- 11 R346. -/
def execFaultRetestDone (part : Nat) (votes : List (Nat × Nat)) (s : State) : Out :=
  guarded (partOk part && votesOk votes) (retestDone part votes s)
/-- 11 R351. -/
def execConfigCrcRecompute (u : CfgUnit) (s : State) : Out := guarded (cfgUnitOk u) (recomputeCrc u s)
/-- 11 R352. -/
def execConfigScrub (s : State) : Out := guarded true (configScrub s)
/-- 03 R97. -/
def execCalibrationScrub (s : State) : Out := guarded true (calibrationScrub s)
/-- 03 R78. -/
def execDriftSave (s : State) : Out := guarded true (driftSave s)
/-- 11 R350. -/
def execStandbySelftestDone (p : Proc) (pass : Bool) (s : State) : Out :=
  guarded true (match p with | .a => standbyDone true pass s | .b => standbyDone false pass s | .lamplighter => s)
/-- 11 Table 11-5. -/
def execRimFunctionLost (tile : Nat) (s : State) : Out := guarded (tileOk tile) (rimLost tile s)

end Sys2Proof.Machine
end

