-- ==== Sys2Proof/Machine/Serving.lean ====
section
/-! DEFINITION. Events of requests and contexts: passes, ends, interrupts, cistern moves, expiry (09 R268, R280 to R293; 07 R228 to R230). -/

namespace Sys2Proof.Machine

/-- Does the end under way drop the tokens of the pass in flight (09 R289, Table 9-12)? -/
def dropsPass (r : Request) : Bool := r.state == .ending && r.endStatus != stPaused

/-- PREFILL_DONE: the prefill pass ends with its first token (R280, R281). -/
def prefillDone (pn : Nat) (tag : BitVec 64) (t : Tok) (s : State) : State :=
  match (getPart s pn).bind (findReq · tag) with
  | none => s
  | some r =>
    if !r.inPass ∨ r.resuming ∨ !r.gen.isEmpty ∨ (r.state ≠ .prefill ∧ r.state ≠ .ending) then s
    else if r.state = .ending then
      updReq s pn tag (fun r => { r with inPass := false, gen := if r.endStatus = stPaused then r.gen ++ [t.id] else r.gen })
    else startPass (updReq (deliverToks pn tag [(t, false)] s) pn tag (fun r => { r with inPass := false })) pn tag

/-- Drafts accepted: those that equal the main model's token at their place (R287). -/
def acceptedDrafts (toks : List Tok) (drafts : List (BitVec 32)) : Nat :=
  ((toks.zip drafts).takeWhile (fun e => e.1.id == e.2)).length

/-- DECODE_PASS_DONE: the accepted drafts and the main model's next token are delivered (R287, R288). -/
def decodeDone (pn : Nat) (tag : BitVec 64) (toks : List Tok) (drafts : List (BitVec 32)) (s : State) : State :=
  match (getPart s pn).bind (findReq · tag) with
  | none => s
  | some r =>
    if !r.inPass ∨ r.resuming ∨ r.state = .prefill ∨ (r.state = .ending ∧ r.gen.isEmpty) ∨
       drafts.length ≠ (if drafting r then r.draftK else 0) ∨ toks.length ≠ drafts.length + 1 then s else
    let n := acceptedDrafts toks drafts
    let l := Config.draftLantern pn
    let s := countL (countL s l 0x35 drafts.length) l 0x36 n
    let s := updReq s pn tag (fun r => { r with inPass := false })
    if dropsPass r then s else
    let out := (toks.take (n + 1)).zipIdx.map (fun e => (e.1, decide (e.2 < n)))
    let s := deliverToks pn tag out s
    let s := updReq s pn tag (fun r =>
      draftRule { r with passes := if drafts.isEmpty then r.passes else ((drafts.length, n) :: r.passes).take 32 })
    startPass s pn tag

/-- PASS_START: a held request goes on when its runnel has room for the pass (R281). -/
def passStart (pn : Nat) (tag : BitVec 64) (s : State) : State :=
  match (getPart s pn).bind (findReq · tag) with
  | none => s
  | some r => if r.state = .held ∧ !r.inPass then startPass s pn tag else s

/-- The timed message of a runnel whose request has ended (R268). -/
def owedTimer (fn : Fn) (pn rn : Nat) (s : State) : State :=
  let mine := fun e : Nat × Nat × IntCoal => e.1 == pn && e.2.1 == rn && intDue e.2.2 (nowNs s)
  match (getFn s fn).owed.find? mine with
  | some e => sendMsix (updFn s fn (fun f => { f with owed := f.owed.erase e })) fn e.2.2.vector
  | none => s

/-- INTERRUPT_TIMER: INT_TIME has passed since the first entry not yet signalled (R268). -/
def interruptTimer (fn : Fn) (src : IntSource) (s : State) : State :=
  match src with
  | .queuePair q =>
    match getQp s fn q with
    | some x => if intDue x.int (nowNs s) then sendMsix (setQp s fn q (some { x with int := intSent x.int })) fn x.int.vector else s
    | none => s
  | .runnel pn rn =>
    match reqOn' s pn rn with
    | some r =>
      if r.fn = fn ∧ intDue r.int (nowNs s) then sendMsix (updReq s pn r.tag (fun r => { r with int := intSent r.int })) fn r.int.vector
      else owedTimer fn pn rn s
    | none => owedTimer fn pn rn s
  | .eventRing =>
    match (getFn s fn).ring with
    | some g =>
      if intDue g.int (nowNs s) then sendMsix (updFn s fn (fun f => { f with ring := some { g with int := intSent g.int } })) fn g.int.vector else s
    | none => s
where
  /-- The request in flight on a runnel. -/
  reqOn' (s : State) (pn rn : Nat) : Option Request := (getPart s pn).bind (fun p => p.reqs.find? (fun r => r.rn == rn))

/-- A resume has failed: the sequence reports CONTEXT_LOST, its page images are erased (07 R229). -/
def resumeLost (pn : Nat) (tag : BitVec 64) (r : Request) (s : State) : State :=
  setEnding (updReq (dropImages s r.image) pn tag (fun r => { r with resuming := false, inPass := false })) pn tag stLost 0

/-- CISTERN_RESUME_DONE: every page has come back and the sequence returns to the schedule at the next step boundary, or a line failed authentication and the context is lost (07 R229, R230; 10 R300). -/
def resumeDone (pn : Nat) (tag : BitVec 64) (authOk : Bool) (s : State) : State :=
  match (getPart s pn).bind (findReq · tag) with
  | none => s
  | some r =>
    if !r.resuming || s.sec.restarting then s
    else match r.stage with
    | .back todo busy failed =>
      if !authOk && !failed then resumeLost pn tag r (countT s (channelTile (Config.failedChannel tag % 12)) 0x66 1)
      else if failed || s.sec.error then resumeLost pn tag r s
      else if todo.isEmpty && busy.isEmpty then updReq (dropImages s r.image) pn tag (fun r => { r with stage := .ready })
      else s
    | _ => s

/-- CONTEXT_TTL_EXPIRY: a context past its time is discarded, unless a command that names it is in progress (R293). -/
def ttlExpiry (h : BitVec 64) (s : State) : State :=
  match findCtx s h with
  | some c => if !c.busy ∧ c.expiry ≤ nowNs s then eraseCtx s h else s
  | none => s

/-! ## Commands -/

/-- 09 R280. -/
def execPrefillDone (part : Nat) (tag : BitVec 64) (t : Tok) (s : State) : Out := guarded (partOk part) (prefillDone part tag t s)
/-- 09 R287. -/
def execDecodePassDone (part : Nat) (tag : BitVec 64) (toks : List Tok) (drafts : List (BitVec 32)) (s : State) : Out :=
  guarded (partOk part) (decodeDone part tag toks drafts s)
/-- 09 R281. -/
def execPassStart (part : Nat) (tag : BitVec 64) (s : State) : Out := guarded (partOk part) (passStart part tag s)
/-- 09 R268. -/
def execInterruptTimer (fn : Fn) (src : IntSource) (s : State) : Out := guarded (fnOk fn) (interruptTimer fn src s)
/-- 07 R228. -/
def execCisternPauseDone (part : Nat) (tag : BitVec 64) (s : State) : Out := guarded (partOk part) (pauseDone part tag s)
/-- 07 R230. -/
def execCisternResumeDone (part : Nat) (tag : BitVec 64) (authOk : Bool) (s : State) : Out :=
  guarded (partOk part) (resumeDone part tag authOk s)
/-- 09 R293. -/
def execContextTtlExpiry (handle : BitVec 64) (s : State) : Out := guarded true (ttlExpiry handle s)

end Sys2Proof.Machine
end

