-- ==== Sys2Proof/Machine/Queues.lean ====
section
/-! DEFINITION. Queue pairs, function resets, doorbells (09 R261 to R268, R273; 13 R397, R403). -/

namespace Sys2Proof.Machine

/-! ## Deletion and reset (09 R262, R273) -/

/-- Requests of a function, through one queue or all, are cancelled as by CANCEL and their completions discarded; with mute, their runnel writes too. -/
def cancelThrough (fn : Fn) (q : Option Nat) (mute : Bool) (s : State) : State :=
  mapParts s (fun _ p => noteIdle (nowNs s) { p with reqs := p.reqs.map (fun r =>
    if r.fn = fn ∧ (q = none ∨ q = some r.sqid) then
      let r := { r with silent := true, mute := r.mute || mute }
      if r.state = .ending then r else { r with state := .ending, endStatus := stCancelled, reason := reasonOf stCancelled, hit := 0 }
    else r) })

/-- A queue pair goes: held completions are discarded and free their request slots, its requests are cancelled; queue pair 0 clears EN. -/
def deleteNow (fn : Fn) (n : Nat) (s : State) : State :=
  match getQp s fn n with
  | none => s
  | some x =>
    let s := setQp s fn n none
    let s := if n = 0 then updFn s fn (fun f => { f with en := false }) else s
    let s := forEach x.held (fun c s => match c.req with | some (pn, tag) => freeReq s pn tag | none => s) s
    cancelThrough fn (some n) false s

def isDelete (fn : Fn) (n : Nat) (w : Waiting) : Bool := w.fn == fn && w.what == .qpDelete n

/-- A deletion that nothing holds up any more: QP_DELETE completes, the queue goes (R273). -/
def settleQp (fn : Fn) (n : Nat) (s : State) : State :=
  match getQp s fn n with
  | none => s
  | some x =>
    let own := (s.waiting.filter (fun w => isDelete fn n w && w.sqid == n)).length
    if !x.deleting || decide (own < x.busy) then s else
    let ws := s.waiting.filter (isDelete fn n)
    let s := { s with waiting := s.waiting.filter (fun w => !isDelete fn n w) }
    deleteNow fn n (forEach ws (fun w s => postPlain s w.fn (waitCompl w stSuccess 0)) s)

/-- Every queue pair that waits to be deleted and can be. -/
def settle (s : State) : State :=
  let qs := s.funcs.flatMap (fun e => (e.2.qps.filter (fun q => match q.2 with | some x => x.deleting | none => false)).map (fun q => (fnOfIx e.1, q.1)))
  forEach qs (fun e s => settleQp e.1 e.2 s) s

/-- A queue pair is to be deleted: entries not fetched are discarded. -/
def startDelete (fn : Fn) (n : Nat) (s : State) : State :=
  match getQp s fn n with
  | none => s
  | some x => setQp s fn n (some { x with deleting := true, sqTail := x.sqHead })

/-- Perturbation registers at their reset values (13 R403). -/
def resetPert (p : Partition) : Partition := { p with hsdelay := [], pcredit := 0, pstretch := 0, padc := 0, pertRefused := false }

/-- A command of a function that was reset: it goes on, its completion and data are discarded; number 64 names no queue pair (R262; log 55). -/
def orphaned (fn : Fn) (w : Waiting) : Waiting := if w.fn = fn then { w with sqid := 64, segs := [] } else w

/-- A reset of one function (R262, R403). -/
def resetFn (fn : Fn) (s : State) : State :=
  let s := { s with waiting := s.waiting.map (orphaned fn) }
  let s := forEach ((getFn s fn).qps.map (·.1)) (fun q s => deleteNow fn q s) s
  let s := cancelThrough fn none true s
  let s := updFn s fn (fun f => { f with
    sq0Base := 0, cq0Base := 0, q0Size := 0, en := false, cfgErr := false, q0Int := 0, status := 0, evDrops := (0, 0, 0, 0), ring := none,
    owed := [], latched := [], alertMask := if fn.num = 0 then false else f.alertMask, resetPending := false })
  match partBound s fn with
  | some pn => updPart s pn resetPert
  | none => s

/-- A reset, which waits while HOLD is set (14 R426). -/
def resetOrHold (fn : Fn) (s : State) : State :=
  if s.boot.hold then updFn s fn (fun f => { f with resetPending := true }) else resetFn fn s

/-- Every function of a port. -/
def portFns (p : HostPort) : List Fn := (List.range 17).map (fun n => ⟨p, n⟩)

/-- Runs the oldest waiting thing of a command's end: deletions that can go. -/
def settled (ok : Bool) (s : State) : Out := guarded ok (settle s)

/-! ## Queue pair 0 (R264) -/

/-- A write that puts a 1 in a reserved bit sets RSVD_WRITE (00 R12); mask holds the bits that are not reserved. -/
def noteRsvd (fn : Fn) (mask v : BitVec 32) (s : State) : State := if v &&& ~~~mask = 0 then s else rsvdWrite s fn

def intOf (v : BitVec 32) (vector : Nat) : IntCoal := { vector := vector, count := v.toNat % 256, time := v.toNat / 65536 }

/-- A write of MB_CTRL: EN set enables queue pair 0 or is refused, EN cleared acts as QP_DELETE of it; bits 31 to 1 are reserved. -/
def writeCtrl (fn : Fn) (v : BitVec 32) (s : State) : State :=
  let s := noteRsvd fn 1 v s
  let f := getFn s fn
  if v.getLsbD 0 then
    if f.en then s else
    let sq := f.q0Size.toNat % 4096
    let cq := f.q0Size.toNat / 65536 % 4096
    if sq = 0 ∨ cq = 0 ∨ (getQp s fn 0).isSome then updFn s fn (fun f => { f with en := false, cfgErr := true })
    else
      let x : Qp := ⟨f.sq0Base.toNat / 4096 * 4096, sq + 1, 0, 0, f.cq0Base.toNat / 4096 * 4096, cq + 1, 0, 0, true, intOf f.q0Int 0, [], 0, false⟩
      updFn (setQp s fn 0 (some x)) fn (fun f => { f with en := true, cfgErr := false })
  else if f.en then settleQp fn 0 (startDelete fn 0 (updFn s fn (fun f => { f with en := false }))) else s

/-! ## Doorbells (R265, R267, R283; 13 R397) -/

/-- SQ_TAIL. -/
def sqTailNow (fn : Fn) (n : Nat) (v : BitVec 32) (s : State) : State :=
  let bad := badDoorbell s fn (0x101000 + 8 * n)
  match getQp s fn n with
  | none => bad
  | some x => if x.deleting ∨ x.sqSize ≤ v.toNat % 4096 then bad else setQp s fn n (some { x with sqTail := v.toNat % 4096 })

/-- CQ_HEAD: entries are freed and held completions written. -/
def cqHeadNow (fn : Fn) (n : Nat) (v : BitVec 32) (s : State) : State :=
  let bad := badDoorbell s fn (0x101004 + 8 * n)
  match getQp s fn n with
  | none => bad
  | some x =>
    let h := v.toNat % 4096
    if x.cqSize ≤ h ∨ cqUsed x < (h + x.cqSize - x.cqHead) % x.cqSize then bad else
    let x := { x with cqHead := h, int := if h = x.cqTail then intConsumed x.int else x.int }
    flushQp fn n (x.held.length + 1) (setQp s fn n (some x))

/-- RUNNEL_CONS of the partition bound to the function. -/
def runnelConsNow (fn : Fn) (rn : Nat) (v : BitVec 32) (s : State) : State :=
  match partBound s fn with
  | none => s
  | some pn =>
    match (getPart s pn).bind (fun p => p.reqs.find? (fun r => r.rn == rn)) with
    | none => s
    | some r =>
      if (r.written - r.cons).toNat < (v - r.cons).toNat then badDoorbell s fn (0x110000 + 4 * rn)
      else updReq s pn r.tag (fun r => { r with cons := v, int := if v = r.written then intConsumed r.int else r.int })

/-- EV_CONS. -/
def evConsNow (fn : Fn) (v : BitVec 32) (s : State) : State :=
  match (getFn s fn).ring with
  | none => badDoorbell s fn 0x30
  | some g =>
    if (g.k - g.cons).toNat < (v - g.cons).toNat then badDoorbell s fn 0x30
    else drainFn (updFn s fn (fun f => { f with ring := some { g with cons := v, int := if v = g.k then intConsumed g.int else g.int } })) fn

/-- A doorbell acts; the host port forwards it to the control processor (01 R27). -/
def doorbellNow (fn : Fn) (d : Latched) (s : State) : State :=
  let s := rimSend (hostTile fn.port) (firmwareTile s) (.doorbell fn d.kind d.num d.val) s
  if d.kind = 0 then sqTailNow fn d.num d.val s else if d.kind = 1 then cqHeadNow fn d.num d.val s
  else if d.kind = 2 then runnelConsNow fn d.num d.val s else evConsNow fn d.val s

/-- A doorbell write: latched while HOLD is set, the last write to each doorbell winning (R265). -/
def doorbell (fn : Fn) (kind num : Nat) (v : BitVec 32) (s : State) : State :=
  if s.boot.hold then
    updFn s fn (fun f => { f with latched := f.latched.filter (fun d => !(d.kind == kind && d.num == num)) ++ [⟨kind, num, v⟩] })
  else doorbellNow fn ⟨kind, num, v⟩ s

/-- HOLD_CLEAR: resets that waited take place, then latched doorbells act (R265; 14 R426). -/
def holdClear (s : State) : State :=
  if !s.boot.hold then s else
  let s := { s with boot := { s.boot with hold := false } }
  let s := forEach ((s.funcs.filter (fun e => e.2.resetPending)).map (fun e => fnOfIx e.1)) resetFn s
  forEach (s.funcs.map (fun e => (fnOfIx e.1, e.2.latched))) (fun e s =>
    forEach e.2 (doorbellNow e.1) (updFn s e.1 (fun f => { f with latched := [] }))) s

/-! ## Commands -/

/-- 09 R265. -/
def execSqTail (fn : Fn) (q : Nat) (v : BitVec 32) (s : State) : Out := guarded (fnOk fn && decide (q < 64)) (doorbell fn 0 q v (noteRsvd fn 0xFFF v s))
/-- 09 R267. -/
def execCqHead (fn : Fn) (q : Nat) (v : BitVec 32) (s : State) : Out := settled (fnOk fn && decide (q < 64)) (doorbell fn 1 q v (noteRsvd fn 0xFFF v s))
/-- 09 R283. -/
def execRunnelCons (fn : Fn) (r : Nat) (v : BitVec 32) (s : State) : Out := guarded (fnOk fn && decide (r < 1024)) (doorbell fn 2 r v s)
/-- 13 R397. -/
def execEvCons (fn : Fn) (v : BitVec 32) (s : State) : Out := guarded (fnOk fn) (doorbell fn 3 0 v s)
/-- 09 R264. -/
def execMbCtrlEnable (fn : Fn) (v : BitVec 32) (s : State) : Out := guarded (fnOk fn) (writeCtrl fn v s)
/-- 09 R264. -/
def execMbCtrlDisable (fn : Fn) (v : BitVec 32) (s : State) : Out := settled (fnOk fn) (writeCtrl fn v s)
/-- 11 R350; 09 R265. -/
def execHoldClear (s : State) : Out := settled true (holdClear s)
/-- 09 R262. -/
def execFunctionLevelReset (fn : Fn) (s : State) : Out := settled (fnOk fn) (resetOrHold fn s)
/-- 09 R280. -/
def execRequestEnd (part : Nat) (tag : BitVec 64) (s : State) : Out := settled (partOk part) (finishReq part tag s)
/-- 11 R344, R345. -/
def execPartitionFault (part : Nat) (s : State) : Out := settled (partOk part) (takeFault part s)
/-- 11 R345. -/
def execPartitionReloadDone (part : Nat) (s : State) : Out := settled (partOk part) (reloadDone part s)

end Sys2Proof.Machine
end

