-- ==== Sys2Proof/Machine/Thermal.lean ====
section
/-! DEFINITION. Sensors, the thermal model, tiers, thermal drains, power windows, coolant flow (12 R374 to R387, R433). -/

namespace Sys2Proof.Machine

/-- DETAIL of a power or heat record: the number it names, and a temperature in 1/8 K at [47:32] (13 Table 13-5). -/
def heatDetail (n : Nat) (t : Int) : Nat := n + toBits 16 t * 2 ^ 32

/-- Model and estimate figures are kept to the nearest 2^-20. -/
def keep20 (x : Rat) : Rat := (ratRne (x * 1048576) : Rat) / 1048576

/-! ## The model (R433, R379) -/

/-- Pair of a field sensor (R377). -/
def sensorPair (n : Nat) : Nat := if n = 0 then 4 else if n = 4 then 0 else if n = 3 then 5 else if n = 5 then 3 else if n = 1 then 2 else 1

/-- Two bytes of a field's sensor record. -/
def sensorWord (s : State) (f i : Nat) : Nat := calBytes s 0x02 f i 2

/-- Fields that share an edge with field f. -/
def edgeFields (f : Nat) : List Nat :=
  (if f % 10 = 0 then [] else [f - 1]) ++ (if f % 10 = 9 then [] else [f + 1]) ++ (if f < 10 then [] else [f - 10]) ++ (if 90 ≤ f then [] else [f + 10])

/-- Heat into the coolant, W (R385). -/
def heatQ (s : State) : Rat := ((s.plant.pin : Rat) - s.plant.pcis) / 1000
def coolantCv (s : State) : Rat := if s.plant.pg25 then 4000 else 4150

/-- Inlet temperature, degrees C. -/
def inletTemp (s : State) : Rat := (inletNow s : Rat) / 8

/-- Mean coolant temperature t_c. -/
def coolantMean (s : State) : Rat :=
  let d := coolantCv s * s.plant.flow
  inletTemp s + (if d = 0 then 0 else 30 * heatQ s / d)

/-- 1 - exp(-1/tau) for tau in ms, by twenty terms of the series; 1 for a tau of 0. -/
def expStep (tau : Nat) : Rat :=
  if tau = 0 then 1 else
  let x : Rat := 1 / (tau : Rat)
  ((List.range 20).foldl (fun (acc : Rat × Rat) i => let t := -acc.2 * x / ((i + 1 : Nat) : Rat); (acc.1 - t, t)) (0, 1)).1

/-- Target of sensor n of field f for given field powers, W. -/
def modelTarget (s : State) (tc : Rat) (pw : Nat → Rat) (f n : Nat) : Rat :=
  tc + (sensorWord s f (36 + 2 * n) : Rat) / 1024 * pw f + (sensorWord s f 48 : Rat) / 1024 * ((edgeFields f).foldl (fun a g => a + pw g) 0)

/-- One step of the recursion. -/
def modelStep (s : State) (tc : Rat) (pw : Nat → Rat) (f n : Nat) (est : Rat) : Rat :=
  keep20 (est + (modelTarget s tc pw f n - est) * expStep (sensorWord s f 50))

def ratMaxOf (xs : List Rat) : Rat := match xs with | [] => 0 | x :: xs => xs.foldl max x

/-- The six estimates of a field ten steps ahead under the step plans. -/
def predicted (s : State) (tc : Rat) (f n : Nat) (est : Rat) : Rat :=
  (List.range 10).foldl (fun e k => modelStep s tc (fun g => (Config.plannedPower g k : Rat) / 1000) f n e) est

/-- Highest healthy reading of a field, 1/8 K. -/
def hottest (F : Field) : Option Int :=
  (((List.range 6).map (sensorAt F)).filter (fun x => !x.bad)).foldl (fun m x => match m with | none => some x.reading | some t => some (max t x.reading)) none

/-- Forecast of a field (R379). -/
def forecastOf (s : State) (tc : Rat) (f : Nat) : Rat :=
  let F := getF s f
  let ests := (List.range 6).map (fun n => (sensorAt F n).est)
  let pred := ratMaxOf ((List.range 6).map (fun n => predicted s tc f n (sensorAt F n).est))
  match hottest F with
  | some t => max pred ((t : Rat) / 8 + (pred - ratMaxOf ests))
  | none => pred

/-! ## Tiers (R380, R382) -/

/-- Entry threshold of a tier, degrees C. -/
def tierAt (t : Nat) : Rat := if t = 1 then 90 else if t = 2 then 95 else 100

/-- Tier that a field's forecast and readings enter. -/
def tierOf (F : Field) : Nat :=
  let hot := match hottest F with | some t => decide (824 ≤ t) | none => false
  if hot || decide (100 ≤ F.forecast) then 3 else if 95 ≤ F.forecast ∨ (hottest F).isNone then 2 else if 90 ≤ F.forecast then 1 else 0

/-- A partition drains thermally: DRAINING at once; one already in fault handling drains when that ends (R382). -/
def thermalDrain (pn : Nat) (s : State) : State :=
  match getPart s pn with
  | none => s
  | some p =>
    match p.state with
    | .serving => drainDone (updPart s pn (fun p => { p with state := .draining, thermal := some (nowNs s) })) pn
    | .draining => updPart s pn (fun p => { p with thermal := some (p.thermal.getD (nowNs s)) })
    | .faulted => updPart s pn (fun p => { p with wasDraining := true, thermal := some (p.thermal.getD (nowNs s)) })
    | _ => s

/-- A field's tier follows its forecast and readings. -/
def tierStep (f : Nat) (s : State) : State :=
  let F := getF s f
  let n := tierOf F
  let t := nowNs s
  let s' :=
    if F.tier < n then
      let s := updF s f (fun F => { F with tier := n, coolSince := none })
      let temp := (hottest F).getD 0
      if n = 3 then
        let s := raiseF s f sevError 0x0608 (heatDetail 0 temp)
        match partOfField s f with
        | some pn => thermalDrain pn s
        | none => s
      else if n = 2 then raiseF s f sevWarn 0x0607 (heatDetail 0 temp) else s
    else if F.tier = 0 ∨ tierAt F.tier - 3 < F.forecast ∨ (F.tier = 2 ∧ (hottest F).isNone) then updF s f (fun F => { F with coolSince := none })
    else match F.coolSince with
      | none => updF s f (fun F => { F with coolSince := some t })
      | some u => if u + 100000000 ≤ t then updF s f (fun F => { F with tier := F.tier - 1, coolSince := none }) else s
  updF s' f (fun F => { F with t1Since := if F.tier ≤ 1 then some (F.t1Since.getD t) else none })

/-- THERMAL_MODEL_UPDATE: powers measured, estimates, forecasts, tiers (R379, R380, R433). -/
def thermalModel (s : State) : State :=
  if !s.boot.rails then s else
  let s := forEach (List.range nFields) (fun f s => updF s f (fun F => { F with power := Config.fieldPower f (nowNs s) })) s
  let tc := coolantMean s
  let pw := fun g : Nat => ((getF s g).power : Rat) / 1000
  let s := forEach (List.range nFields) (fun f s =>
    updF s f (fun F => { F with sensors := (List.range 6).foldl (fun m n => tupd {} m n (fun x => { x with est := modelStep s tc pw f n x.est })) F.sensors })) s
  let s := forEach (List.range nFields) (fun f s => updF s f (fun F => { F with forecast := forecastOf s tc f })) s
  forEach (List.range nFields) tierStep s

/-- Estimates start at the mean coolant temperature (R433). -/
def startModel (s : State) : State :=
  let tc := coolantMean s
  forEach (List.range nFields) (fun f s =>
    updF s f (fun F => { F with sensors := (List.range 6).foldl (fun m n => tupd {} m n (fun x => { x with est := tc })) F.sensors })) s

/-! ## Samples (R377, R378, R387) -/

def outOfRange (t : Int) : Bool := decide (t < -160) || decide (1200 < t)
/-- Do a reading and an estimate differ by more than k degrees? -/
def apart (t : Int) (x k : Rat) : Bool := decide (k < ratAbs ((t : Rat) / 8 - x))

/-- Health of sensor n of field f after a reading; the sensors are as read, their health as before. -/
def judgeSensor (F : Field) (n : Nat) : Sensor :=
  let x := sensorAt F n
  let q := sensorAt F (sensorPair n)
  let pairT : Rat := (q.reading : Rat) / 8
  if outOfRange x.reading then { x with bad := true, off := 0, agree := 0 }
  else if x.bad then
    let near := !apart x.reading x.est 4 && (q.bad || !apart x.reading pairT 4)
    if near then (if 9999 ≤ x.agree then { x with bad := false, agree := 0, off := 0 } else { x with agree := x.agree + 1 }) else { x with agree := 0 }
  else
    let far := apart x.reading x.est 8 && (q.bad || apart x.reading pairT 8)
    if far then (if 9 ≤ x.off then { x with bad := true, off := 0, agree := 0 } else { x with off := x.off + 1 }) else { x with off := 0 }

/-- A reading of a field's six sensors. -/
def sampleField (e : Nat × List Int) (s : State) : State :=
  let f := e.1
  let s := updF s f (fun F => { F with sensors := (List.range 6).foldl (fun m n =>
    tupd {} m n (fun x => { x with reading := e.2.getD n x.reading })) F.sensors })
  let F := getF s f
  let new := (List.range 6).map (judgeSensor F)
  let s := updF s f (fun F => { F with sensors := (List.range 6).foldl (fun m n =>
    let x := new.getD n {}
    tset {} m n { x with excess := if x.bad then [] else ((x.reading : Rat) / 8 - x.est) :: x.excess.take 31 }) F.sensors })
  let s := forEach (List.range 6) (fun n s =>
    let was := (sensorAt F n).bad
    let x := new.getD n {}
    if x.bad && !was then raiseF s f sevWarn 0x060D (heatDetail n x.reading)
    else if was && !x.bad then raiseF s f sevInfo 0x060E (heatDetail n x.reading) else s) s
  tierStep f s

/-- A place of the coolant, sensors lo and lo + 1: health and disagreement. -/
def samplePlace (lo : Nat) (xs : List Int) (s : State) : State :=
  let old := fun n : Nat => tget (240 : Int) s.plant.coolant n
  let a := xs.getD 0 (old lo)
  let b := xs.getD 1 (old (lo + 1))
  let bads := (if outOfRange a then [lo] else []) ++ (if outOfRange b then [lo + 1] else [])
  let dis := if lo = 0 then s.plant.disagree.1 else s.plant.disagree.2
  let n := if 16 < a - b ∨ 16 < b - a then min 10 (dis + 1) else 0
  let P := s.plant
  let s := { s with plant := { P with
    coolant := tset 240 (tset 240 P.coolant lo a) (lo + 1) b, coolBad := P.coolBad.filter (fun k => k != lo && k != lo + 1) ++ bads,
    disagree := if lo = 0 then (n, P.disagree.2) else (P.disagree.1, n) } }
  if n = 10 ∧ dis < 10 then raiseM s sevWarn 0x060F (heatDetail lo (max a b)) else s

/-- Limits of the inlet and places without a healthy sensor (R378; Table 12-9). -/
def coolLimits (s : State) : State :=
  let gone := (coolReadings s 0).isEmpty || (coolReadings s 2).isEmpty
  let s := if gone && !s.plant.placeErr then raiseM s sevError 0x0610 (if (coolReadings s 0).isEmpty then 0 else 2) else s
  let s := { s with plant := { s.plant with placeErr := gone } }
  match coolMax s 0 with
  | none => s
  | some t =>
    let low := decide (t < 120)
    let high := decide (480 < t)
    let s := if low && !s.plant.inletLowWarned then raiseM s sevWarn 0x060B (heatDetail 0 t) else s
    let s := if high && !s.plant.inletHighErr then raiseM s sevError 0x060C (heatDetail 0 t) else s
    { s with plant := { s.plant with inletLowWarned := s.plant.inletLowWarned || low, inletHighErr := high } }

/-- Least-squares rate of 32 samples 1 ms apart, newest first, in K/s; none before 32 samples. -/
def rateOf (xs : List Rat) : Option Rat :=
  if xs.length < 32 then none else
  let m := ratSum xs / 32
  let w := fun i : Nat => (31 : Rat) / 2 - (i : Rat)
  some (ratSum ((xs.zipIdx).map (fun e => w e.2 * (e.1 - m))) / ratSum ((List.range 32).map (fun i => w i * w i)) * 1000)

/-- Rates of the healthy field sensors of the module. -/
def healthyRates (s : State) : List (Option Rat) :=
  (List.range nFields).flatMap (fun f => (((List.range 6).map (sensorAt (getF s f))).filter (fun x => !x.bad)).map (fun x => rateOf x.excess))

/-- How many rates exceed a limit. -/
def ratesAbove (rs : List (Option Rat)) (k : Rat) : Nat := (rs.filter (fun r => match r with | some x => decide (k < x) | none => false)).length

/-- The coolant stop: raised, or its end being timed (R387). -/
def stopRule (s : State) : State :=
  let rs := healthyRates s
  let P := s.plant
  if P.stop then
    let calm := decide ((6 : Rat) / 5 ≤ P.flow) && decide (20 * ratesAbove rs (1 / 2) ≤ rs.length)
    { s with plant := { P with stopSince := if calm then some (P.stopSince.getD (nowNs s)) else none } }
  else if rs.length < 4 * ratesAbove rs 2 then
    raiseM { s with plant := { P with stop := true, stopSince := none } } sevError 0x0609 0
  else s

/-- SENSOR_SAMPLE. -/
def sensorSample (r : Readings) (s : State) : State :=
  if !s.boot.rails then s else
  stopRule (coolLimits (samplePlace 2 r.outlets (samplePlace 0 r.inlets (forEach r.fields sampleField s))))

/-- COOLANT_STOP_CLEAR: flow and rates have been normal for 10 s. -/
def stopClear (s : State) : State :=
  match s.plant.stopSince with
  | some t => if s.plant.stop ∧ t + 10000000000 ≤ nowNs s then { s with plant := { s.plant with stop := false, stopSince := none } } else s
  | none => s

/-! ## Thermal drains (R382) -/

/-- THERMAL_DRAIN_TIMEOUT: requests left after 100 ms are paused into the cistern for 3,600 s, or end with ERROR. -/
def drainTimeout (pn : Nat) (s : State) : State :=
  match getPart s pn with
  | none => s
  | some p =>
    match p.thermal with
    | none => s
    | some t =>
      if p.state ≠ .draining ∨ nowNs s < t + 100000000 then s
      else if p.cistern && cisternOn s then
        updPart s pn (fun p => noteIdle (nowNs s) { p with reqs := p.reqs.map (fun r => if r.state = .ending then r else
          { r with state := .ending, endStatus := stPaused, reason := reasonOf stPaused, hit := 0, pauseTtl := 3600 }) })
      else drainDone (endAll s pn (fun _ => false)) pn

/-- Fields of a partition with a program lantern off. -/
def darkFields (s : State) (p : Partition) : List Nat :=
  (((progLanterns s p).filter (fun l => !(getL s l).on)).map fieldOf).eraseDups

/-- THERMAL_HOLD_RELEASE: after 10 s at T1 or lower the domains are switched on; once they are, the partition is reloaded and serves, or stays in LOADED without its weights. -/
def holdRelease (pn : Nat) (s : State) : State :=
  match getPart s pn with
  | none => s
  | some p =>
    let cool := fun f : Nat => match (getF s f).t1Since with | some t => decide (t + 10000000000 ≤ nowNs s) | none => false
    if !p.hold ∨ p.state ≠ .loaded ∨ s.sec.restarting ∨ !(darkFields s p).all cool then s
    else if notReady s p then forEach (progLanterns s p) (fun l s => requestOn s l) s
    else
      let s := updPart (reloadPart s pn) pn (fun p => { p with hold := false })
      if p.wset.status = .complete then updPart (beginPart s pn) pn (fun p => { p with state := .serving }) else s

/-! ## Caps, windows, flow (R374 to R376, R384 to R386) -/

/-- CAP_FACTOR_UPDATE: a new factor is in force from the partition's next step boundary on, at once where it runs none (R374). -/
def capUpdate (s : State) : State :=
  mapParts s (fun _ p =>
    if p.running then { p with fPNext := some (capFactor s p) }
    else let p := { p with fP := capFactor s p, fPNext := none }; { p with stepTime := stepFor p })

/-- POWER_WINDOW: measured package power of a partition over 10 ms, mW (R375, R376). -/
def powerWindow (pn mw : Nat) (s : State) : State :=
  match getPart s pn with
  | none => s
  | some p =>
    let e := effShare p
    let m := if e < (mw : Rat) then p.mult * 105 / 100 else if (mw : Rat) < e * 9 / 10 then max 1 (p.mult * 100 / 105) else p.mult
    let above := p.running && decide (p.stepTime = 20000) && decide (e < (mw : Rat))
    let s := if above && !p.overWarned then raiseEv s sevError 0x0611 pn srcFirmware 0 (p.share) else s
    updPart s pn (fun p => { p with power := mw, mult := if p.running then keep20 m else p.mult, overWarned := p.overWarned || above })

/-- Band of a flow estimate (Table 12-10), and lower limit of a band. -/
def bandOf (x : Rat) : Nat := if (6 : Rat) / 5 ≤ x then 0 else if 1 ≤ x then 1 else if (4 : Rat) / 5 ≤ x then 2 else 3
def bandLow (b : Nat) : Rat := if b = 0 then 6 / 5 else if b = 1 then 1 else if b = 2 then 4 / 5 else 0

/-- FLOW_ESTIMATE_UPDATE: input and cistern power in mW (R385, R386). -/
def flowUpdate (pin pcis : Nat) (s : State) : State :=
  let s := { s with plant := { s.plant with pin := pin, pcis := pcis } }
  let q := heatQ s
  match coolMax s 2, coolMin s 0 with
  | some out, some inn =>
    if q < 150 then s else
    let dt : Rat := max (1 / 2) (((out - inn : Int) : Rat) / 8)
    let xs := (min 10 (60 * q / (coolantCv s * dt)) :: s.plant.flowSamples).take 10
    let flow := keep20 (ratSum xs / (xs.length : Nat))
    let b := bandOf flow
    let old := s.plant.band
    let s := if old < b then raiseM s (if b = 3 then sevError else sevWarn) 0x060A b else s
    let band := max old b
    let up := decide (0 < band) && decide (bandLow (band - 1) + 1 / 10 ≤ flow)
    { s with plant := { s.plant with
      flowSamples := xs, flow := flow, band := band, bandSince := if up then some (s.plant.bandSince.getD (nowNs s)) else none,
      lowFlow := if flow < 8 / 5 then s.plant.lowFlow + 1 else s.plant.lowFlow } }
  | _, _ => s

/-- FLOW_BAND_RAISE. -/
def bandRaise (s : State) : State :=
  match s.plant.bandSince with
  | some t => if 0 < s.plant.band ∧ t + 10000000000 ≤ nowNs s then { s with plant := { s.plant with band := s.plant.band - 1, bandSince := none } } else s
  | none => s

/-- COOLANT_KIND: 1 water, 2 PG25 (R384). -/
def coolantKind (v : Nat) (s : State) : State :=
  if v = 1 ∨ v = 2 then { s with plant := { s.plant with pg25 := v == 2 } } else s

/-! ## Commands -/

/-- 12 R377, R378, R387. -/
def execSensorSample (r : Readings) (s : State) : Out := settled (readingsOk r) (sensorSample r s)
/-- 12 R387. -/
def execCoolantStopClear (s : State) : Out := guarded true (stopClear s)
/-- 12 R379, R380, R433. -/
def execThermalModelUpdate (s : State) : Out := settled true (thermalModel s)
/-- 12 R382. -/
def execThermalDrainTimeout (part : Nat) (s : State) : Out := settled (partOk part) (drainTimeout part s)
/-- 12 R382. -/
def execThermalHoldRelease (part : Nat) (s : State) : Out := guarded (partOk part) (holdRelease part s)
/-- 12 R374, R375. -/
def execCapFactorUpdate (s : State) : Out := guarded true (capUpdate s)
/-- 12 R376. -/
def execPowerWindow (part mw : Nat) (s : State) : Out := guarded (partOk part) (powerWindow part mw s)
/-- 12 R385, R386. -/
def execFlowEstimateUpdate (pin pcis : Nat) (s : State) : Out := guarded true (flowUpdate pin pcis s)
/-- 12 R386. -/
def execFlowBandRaise (s : State) : Out := guarded true (bandRaise s)
/-- 12 R384. -/
def execCoolantKind (v : Nat) (s : State) : Out := guarded true (coolantKind v s)

end Sys2Proof.Machine
end

