-- ==== Sys2Proof/Machine/Power.lean ====
section
/-! DEFINITION. Rails, PWR_EN, trips, phase failures, connection health, domain ramps, core voltage, time base (12 R361 to R371, R383; 14 R413, R427; 08 R239, R240). -/

namespace Sys2Proof.Machine

/-! ## What power-off leaves (01 R24; 03 R78; 09 R291; 10 Table 10-2; 11 R342; 13 R389) -/

/-- An array without power: its cells, what its record keeps of it, and what holds until its next programming or touch-up: unhealthy reference columns, e_0
and the time of its last touch-up (03 R76, R100, R106; log 50). -/
def arrayDark (a : WickArray) : WickArray :=
  { a with drift := a.driftSaved, reft := a.reftSaved, driftNext := none, samples := [], fresh := 0, lastSample := 0,
           lowWarned := false, touchQueued := false, touchRow := 0, sigDiff := 255, retried := false }

/-- A lantern without power. -/
def lanternDark (L : Lantern) : Lantern :=
  { ({} : Lantern) with
    arrays := (L.arrays.map (fun e => (e.1, arrayDark e.2))).filter (fun e => e.2 != {}), amap := L.amap, ranges := L.ranges, goldRanges := L.goldRanges }

/-- A field without power: maps and baseline are in flash; known: the repair map holds its bad island. -/
def fieldDark (known : Bool) (F : Field) : Field :=
  { ({} : Field) with islandBad := F.islandBad && known, spares := F.spares, slots := F.slots, mapMade := F.mapMade, baseline := F.baseline }

/-- The dormant record that flash holds of a partition (11 R342). -/
def dormantOf (pn : Nat) (p : Partition) : Dormant := ⟨pn, p.fx0, p.fy0, p.w, p.h, p.wset.recPlain, p.wset.recs⟩

/-- The Lamplighter without power. -/
def secDark (x : Security) : Security :=
  { x with rom := false, uds := false, fw := false, cdi := 0, restarting := false, error := false, updating := false, plate := none, pldmOnly := false,
           cisternKey := 0, sessions := [], answers := [], unlocked := none, shown := [], jtag := false, routesLocked := false,
           images := x.images.map (fun e => (e.1, { e.2 with activated := [] })) }

/-- The power plate without the module's rails: its logs, its trip and what it measures at J1 stay. -/
def plantDark (x : Plant) : Plant :=
  { x with ovWarned := false, rimVcore := 0, phasesOut := [], phaseUpd := 0, vprog := false, disagree := (0, 0), inletLowWarned := false, inletHighErr := false,
           placeErr := false, flow := 10, flowSamples := [], band := 0, bandSince := none, lowFlow := 0, stop := false, stopSince := none }

/-- Every rail is off. -/
def powerOff (s : State) : State :=
  { s with
    lanterns := (s.lanterns.map (fun e => (e.1, lanternDark e.2))).filter (fun e => e.2 != {}),
    routers := [], fields := (s.fields.map (fun e => (e.1, fieldDark (inMap s 8 e.1) e.2))).filter (fun e => e.2 != {}), tiles := [], rim := [], zen := [], funcs := [],
    links := (s.links.map (fun e => (e.1, ({ perst := e.2.perst } : HostLink)))).filter (fun e => e.2 != {}),
    dormant := s.dormant ++ (allParts s).map (fun e => dormantOf e.1 e.2),
    parts := [], waiting := [], contexts := [], jobs := [], erasing := [], recal := [], erased := false, routes := [], skew := [], cistern := [],
    badLanterns := s.badLanterns.filter (inMap s 1), badRouters := s.badRouters.filter (inMap s 2), badChannels := s.badChannels.filter (inMap s 9),
    sec := secDark s.sec, plant := plantDark s.plant, ring := {}, mgmt := { ({} : Mgmt) with sent := s.mgmt.sent },
    boot := { ({} : Boot) with pwrEn := s.boot.pwrEn, slotId := s.boot.slotId, again := s.boot.again } }

/-- The rails come up: fields' VCORE at 0.55 V, the rim domain's at 0.70 V, ALERT_N released (12 Table 12-4). -/
def powerUp (s : State) : State :=
  forEach (List.range nFields) (fun f s => updF s f (fun F => { F with vcore := 550 }))
    { s with boot := { s.boot with rails := true, again := false }, plant := { s.plant with alertDirect := false, ovWarned := false, rimVcore := 700 } }

/-- Does the plate take PWR_EN (12 R365, R383; 14 R413)? -/
def plateReady (s : State) : Bool := s.plant.j1 && !s.plant.trip && !s.plant.railHold && !s.boot.rails

/-- PWR_EN_ASSERT: SLOT_ID is sampled and the rails come up, after a power-down still in progress (14 R427, Table 14-4). -/
def pwrEnAssert (slot : Nat) (s : State) : State :=
  if s.boot.pwrEn then s else
  let s := { s with boot := { s.boot with pwrEn := true, slotId := slot } }
  if s.boot.downAt.isSome then { s with boot := { s.boot with again := true } }
  else if plateReady s && decide (21600 ≤ s.plant.vin) then powerUp s else s

/-- PWR_EN_DEASSERT: READY goes, step trees stop, requests end with ERROR, admission closes (12 Table 12-5). -/
def pwrEnDeassert (s : State) : State :=
  if !s.boot.pwrEn then s else
  let s := { s with boot := { s.boot with pwrEn := false, again := false }, plant := { s.plant with railHold := false } }
  if !s.boot.rails || s.boot.downAt.isSome then s else
  let s := { s with boot := { s.boot with ready := false, downAt := some (nowNs s) } }
  forEach ((allParts s).map (·.1)) (fun pn s => endAll (stopPart s pn) pn (fun _ => false)) s

/-- POWER_DOWN_SAVE_DONE: drift scales and tracked REF are saved, and every rail ramps down (12 Table 12-5). -/
def powerDownDone (s : State) : State :=
  if s.boot.downAt.isNone then s else
  let s := powerOff (driftSave s)
  { s with plant := { s.plant with alertDirect := false } }

/-- POWER_DOWN_RESTART (14 R427). -/
def powerDownRestart (s : State) : State :=
  if s.boot.again && s.boot.pwrEn && plateReady s then powerUp s else s

/-- J1_CONNECT at a voltage in mV (14 R413). -/
def j1Connect (mv : Nat) (s : State) : State :=
  let s := { s with plant := { s.plant with j1 := true, vin := mv } }
  if s.boot.pwrEn && plateReady s && decide (21600 ≤ mv) then powerUp s else s

/-- INPUT_OVERVOLTAGE_WARN (12 Table 12-1). -/
def overvoltage (mv : Nat) (s : State) : State :=
  if !s.boot.rails || decide (mv ≤ 26400) || decide (28000 < mv) then s else
  let s := { s with plant := { s.plant with vin := mv } }
  if s.plant.ovWarned then s else raiseM { s with plant := { s.plant with ovWarned := true } } sevWarn 0x0606 6

/-- A rail fault: logged, ALERT_N asserted, every rail off until PWR_EN goes and comes (12 R365). -/
def railFaultNow (rail cause group mv : Nat) (s : State) : State :=
  if !s.boot.rails then s else
  let s := powerOff s
  { s with plant := { s.plant with
    railLog := s.plant.railLog ++ [rail % 256 + cause % 256 * 256 + group % 65536 * 2 ^ 16 + mv % 2 ^ 32 * 2 ^ 32], railHold := true, alertDirect := true } }

/-- Rail of a phase group (Table 12-3). -/
def groupRail (g : Nat) : Nat := if g < 21 then 0 else if g < 41 then 1 else g - 39

/-- PHASE_FAILURE: one phase goes out of service; two of a group are a rail fault (12 R363). -/
def phaseFailure (g : Nat) (s : State) : State :=
  if !s.boot.rails then s else
  if 1 ≤ groupOut s g then railFaultNow (groupRail g) 4 g (Config.railVoltage g) s
  else raiseM { s with plant := { s.plant with phasesOut := tset 0 s.plant.phasesOut g 1 } } sevWarn 0x0602 g

/-- HARD_TRIP: a comparator fires (12 R383). -/
def hardTripNow (c : Nat) (s : State) : State :=
  if !s.boot.rails then s else
  let s := powerOff s
  { s with plant := { s.plant with tripLog := s.plant.tripLog ++ [c], trip := true, alertDirect := true } }

/-- THERM_TRIP_RELEASE: PWR_EN deasserted and both outlet sensors below 60 degrees C. -/
def tripRelease (s : State) : State :=
  let t := fun n : Nat => tget (240 : Int) s.plant.coolant n
  if s.plant.trip ∧ !s.boot.pwrEn ∧ t 2 < 480 ∧ t 3 < 480 then { s with plant := { s.plant with trip := false, alertDirect := false } } else s

/-! ## Connection health (12 R370, R371) -/

/-- Mean healthy reading of field f, degrees C; a free value where none is healthy (log 22). -/
def meanTemp (f : Nat) (F : Field) : Rat :=
  let xs := ((List.range 6).map (sensorAt F)).filter (fun x => !x.bad)
  if xs.isEmpty then (Config.noReading (100 + f) : Rat) / 8 else ratSum (xs.map (fun x => (x.reading : Rat) / 8)) / (xs.length : Nat)

/-- Bad lanterns of a partition that runs nothing, or of no partition, give their slots up at once (11 R338, R347). -/
def repairSlots (ls : List Nat) (s : State) : State :=
  forEach ls (fun l s =>
    match partOf s l with
    | none => (moveSlot s l).1
    | some pn => match getPart s pn with
      | some p => if p.state = .empty ∨ p.state = .loaded then (remapOne pn l s).1 else s
      | none => s) s

/-- A field's partition faults with class 0x04. -/
def fieldFault (f : Nat) (s : State) : State :=
  match partOfField s f with
  | some pn => unitFault s pn 4 f
  | none => s

/-- Lanterns of quadrant q of field f. -/
def quadrantLanterns (f q : Nat) : List Nat := (lanternsIn f).filter (fun l => quadrantOf l == q)

/-- A quadrant is derated: its lanterns at 0.8 GHz. -/
def derate (f q : Nat) (s : State) : State :=
  if (getF s f).derated.contains q || (getF s f).senseBad.contains q then s else
  let s := updF s f (fun F => { F with derated := F.derated ++ [q] })
  let s := forEach (quadrantLanterns f q) (fun l s => updL s l (fun L => { L with clock := 0 })) s
  fieldFault f (raiseF s f sevError 0x0604 q)

/-- A quadrant's lanterns are marked bad. -/
def quadrantBad (f q : Nat) (s : State) : State :=
  if (getF s f).senseBad.contains q then s else
  let s := updF s f (fun F => { F with senseBad := F.senseBad ++ [q] })
  let s := repairSlots (quadrantLanterns f q) (markInService (quadrantLanterns f q) s)
  fieldFault f (raiseF s f sevError 0x0605 q)

/-- One point of a field: 0 to 3 VCORE, 4 to 7 VANA quadrants. -/
def sensePoint (f i : Nat) (mA : Nat) (r : Option Nat) (s : State) : State :=
  let F := getF s f
  match r with
  | none => quadrantBad f (i % 4) s
  | some r =>
    if mA < 2000 then s else
    let r45 := keep20 ((r : Rat) / (1 + (39 : Rat) / 10000 * (meanTemp f F - 45)))
    let xs := (r45 :: tget [] F.sense i).take 64
    let fig := ratSum xs / (xs.length : Nat)
    let base := if tget 0 F.baseline i = 0 then r45 else tget 0 F.baseline i
    let s := updF s f (fun F => { F with sense := tset [] F.sense i xs, baseline := tset 0 F.baseline i base })
    if base * 2 ≤ fig then quadrantBad f (i % 4) s
    else
      let s := if base * 5 / 4 ≤ fig ∧ !F.senseWarned.contains i then
          raiseF (updF s f (fun F => { F with senseWarned := F.senseWarned ++ [i] })) f sevWarn 0x0603 (i % 4)
        else s
      if base * 8 / 5 ≤ fig then derate f (i % 4) s else s

/-- PATH_RESISTANCE_SAMPLE. -/
def pathSample (f : Nat) (pts : List (Option Nat)) (mA : Nat) (s : State) : State :=
  if !s.boot.ready then s else forEach ((pts.take 8).zipIdx) (fun e s => sensePoint f e.2 mA e.1 s) s

/-! ## Domains (12 R364, R368, R369; 01 R30) -/

/-- Fields of the same VCORE group. -/
def groupFields (f : Nat) : List Nat := (List.range nFields).filter (fun g => coreGroup g == coreGroup f)

/-- Is it the field's turn: no ramp in its group, none waiting in a lower field (R369)? -/
def rampTurn (s : State) (f : Nat) : Bool :=
  (groupFields f).all (fun g => (getF s g).ramping.isNone && (decide (f ≤ g) || (getF s g).ramps.isEmpty))

/-- The first request of a field starts its ramp. -/
def rampStart (f : Nat) (slow : Bool) (s : State) : State :=
  updF s f (fun F => match F.ramps with
    | r :: rest => { F with ramps := rest, ramping := some r, slowRamp := slow }
    | [] => F)

/-- DOMAIN_RAMP_START: headroom of the field's groups in mA (R369). -/
def rampTry (f core ana : Nat) (s : State) : State :=
  match (getF s f).ramps with
  | [] => s
  | r :: rest =>
    if !rampTurn s f then s
    else if 4000 ≤ core ∧ 4000 ≤ ana then rampStart f false s
    else if r.delayed then s
    else countF (updF s f (fun F => { F with ramps := { r with delayed := true, since := nowNs s } :: rest })) f 0x47 1

/-- RAMP_HEADROOM_TIMEOUT: after 1 ms the ramp proceeds at 4 µs spacing (R369). -/
def rampTimeout (f : Nat) (s : State) : State :=
  match (getF s f).ramps with
  | [] => s
  | r :: _ => if rampTurn s f && r.delayed && decide (r.since + 1000000 ≤ nowNs s) then rampStart f true s else s

/-- A lantern of a loaded program comes back with its program, and its LINES from the cistern; without them the weight set is incomplete (10 R320). -/
def refill (l : Nat) (s : State) : State :=
  match partOf s l with
  | none => s
  | some pn =>
    match getPart s pn with
    | none => s
    | some p =>
      match p.prog, slotOf s l with
      | some g, some k =>
        if g.slots ≤ k then s else
        let (s, lines) := restoreLines s pn p (fieldOf l) k
        loadLantern s p g.image (fieldIndex p (fieldOf l), k) lines l
      | _, _ => s

/-- DOMAIN_RAMP_DONE: the domain is on; a lantern comes on with its 32 banks. -/
def rampDone (f : Nat) (s : State) : State :=
  match (getF s f).ramping with
  | none => s
  | some r =>
    let s := updF s f (fun F => { F with ramping := none, slowRamp := false })
    match r.bank with
    | some b => updBank s r.lantern b (fun B => { B with on := true })
    | none =>
      refill r.lantern (updL s r.lantern (fun L => { L with
        on := true, timeOk := false, banks := (List.range 32).foldl (fun m b => tupd {} m b (fun B => { B with on := true })) L.banks }))

/-- LANTERN_TIME_ACQUIRED (08 R240). -/
def timeAcquired (l : Nat) (s : State) : State := updL s l (fun L => if L.on then { L with timeOk := true } else L)

/-- Does firmware work on a lantern go on: programming, erasure, recalibration, the retention check? -/
def workOn (s : State) (l : Nat) : Bool :=
  s.jobs.any (fun j => j.lantern == l) || s.erasing.any (fun e => e.1 == l) || s.recal.any (fun e => e.1 == l) || (s.boot.repairDone && !s.boot.retention)

/-- DOMAIN_OFF_AFTER_WORK (01 R30). -/
def offAfterWork (f : Nat) (s : State) : State :=
  forEach ((getF s f).work.filter (fun l => !workOn s l)) (fun l s =>
    if idleDomain s l then switchOff s l else updF s f (fun F => { F with work := F.work.filter (· != l) })) s

/-- Set point of a field's VCORE domain, mV (R364). -/
def coreSet (s : State) (f : Nat) : Nat :=
  let ks := ((lanternsIn f).filter (fun l => (getL s l).on)).map (fun l => (getL s l).clock)
  match ks with
  | [] => 550
  | k :: ks => ((650000 + 3125 * ks.foldl max k + 4999) / 5000) * 5

/-- VCORE_VOLTAGE_STEP: at most 25 mV toward the set point. -/
def coreStep (f : Nat) (s : State) : State :=
  if !s.boot.rails then s else
  let t := coreSet s f
  updF s f (fun F => { F with vcore := if F.vcore < t then min t (F.vcore + 25) else max t (F.vcore - 25) })

/-- TIME_BASE_BROADCAST: the master's value goes to every rim tile (08 R239); the copies adjust as time passes (R240). -/
def timeBroadcast (s : State) : State := forEach (List.range nTiles) (fun t => rimSend tileS2 t (.time s.now)) s

/-! ## Commands -/

/-- 14 R427; 12 Table 12-4. -/
def execPwrEnAssert (slotId : Fin 16) (s : State) : Out := guarded true (pwrEnAssert slotId.val s)
/-- 12 R367. -/
def execPwrEnDeassert (s : State) : Out := settled true (pwrEnDeassert s)
/-- 12 R367. -/
def execPowerDownSaveDone (s : State) : Out := guarded true (powerDownDone s)
/-- 14 R427. -/
def execPowerDownRestart (s : State) : Out := guarded true (powerDownRestart s)
/-- 14 R413. -/
def execJ1Connect (mv : Nat) (s : State) : Out := guarded true (j1Connect mv s)
/-- 12 R361. -/
def execInputOvervoltageWarn (mv : Nat) (s : State) : Out := guarded true (overvoltage mv s)
/-- 12 R365. -/
def execRailFault (rail cause group mv : Nat) (s : State) : Out := guarded true (railFaultNow rail cause group mv s)
/-- 12 R363. -/
def execPhaseFailure (group : Nat) (s : State) : Out := guarded (decide (group < 45)) (phaseFailure group s)
/-- 12 R383. -/
def execHardTrip (comparator : Nat) (s : State) : Out := guarded (decide (comparator < 404)) (hardTripNow comparator s)
/-- 12 R383. -/
def execThermTripRelease (s : State) : Out := guarded true (tripRelease s)
/-- 12 R370, R371. -/
def execPathResistanceSample (field : Nat) (points : List (Option Nat)) (mA : Nat) (s : State) : Out :=
  guarded (fieldOk field) (pathSample field points mA s)
/-- 12 R369. -/
def execDomainRampStart (field vcoreHeadroom vanaHeadroom : Nat) (s : State) : Out := guarded (fieldOk field) (rampTry field vcoreHeadroom vanaHeadroom s)
/-- 12 R369. -/
def execRampHeadroomTimeout (field : Nat) (s : State) : Out := guarded (fieldOk field) (rampTimeout field s)
/-- 08 R240. -/
def execLanternTimeAcquired (l : Nat) (s : State) : Out := guarded (lanternOk l) (timeAcquired l s)
/-- 01 R30. -/
def execDomainOffAfterWork (field : Nat) (s : State) : Out := guarded (fieldOk field) (offAfterWork field s)
/-- 12 R364. -/
def execVcoreVoltageStep (field : Nat) (s : State) : Out := guarded (fieldOk field) (coreStep field s)
/-- 08 R239, R240. -/
def execTimeBaseBroadcast (s : State) : Out := guarded true (timeBroadcast s)

end Sys2Proof.Machine
end

