-- ==== Sys2Proof/Machine/Bringup.lean ====
section
/-! DEFINITION. Bring-up from VAON to READY, array maps, spares, the repair map; host links and cables (10 R300 to R306; 11 R331 to R342; 14 R414, R415, R425, R426; 01 R18 to R22; 02 R39). -/

namespace Sys2Proof.Machine

/-! ## Array maps (01 R22; 02 R39, R63, R65) -/

/-- Physical arrays that no logical number names and that are not bad: spares. -/
def spareArrays (L : Lantern) : List Nat :=
  let named := (List.range 248).filterMap (physOf L)
  (List.range 256).filter (fun a => !named.contains a && !(getArr L a).bad)

/-- Spare for a bad array: one of the same bank first, else the lowest number (R22). -/
def spareFor (L : Lantern) (a : Nat) : Option Nat :=
  let xs := spareArrays L
  match xs.find? (fun x => x / 8 == a / 8) with
  | some x => some x
  | none => xs.head?

/-- The logical number of a bad array goes to a spare or to none; the change is reported (R22, R39).
DESIGN CHOICE (log 50): the event names the lantern by UNIT and the bad array, and so its bank, by DETAIL as 13 Table 13-5 has it; the spare's bank is not named. -/
def remapBad (l a : Nat) (s : State) : State :=
  match logicalOf (getL s l) a with
  | none => s
  | some n =>
    let dest := match spareFor (getL s l) a with
      | some x => ArrayName.phys x
      | none => ArrayName.none
    raiseL (updL s l (fun L => { L with amap := tset .standard L.amap n dest })) l sevWarn 0x0200 (arrayDetail a 255 0)

/-- An array goes bad: in the repair map and in its record, and its logical number elsewhere (R22, R39). -/
def arrayBad (typ source detail l a : Nat) (s : State) : State :=
  if (getArr (getL s l) a).bad then s else
  let s := updArr s l a (fun A => { A with bad := true })
  remapBad l a (pairCommit (addRepair s ⟨typ, source, l * 2 ^ 21 + a, detail, 0⟩) l a none)

/-- The weights of an array that went bad are lost: chunk record discarded, weight set incomplete (03 R96; 11 R341). -/
def dropChunk (l n : Nat) (s : State) : State :=
  match slotOf s l with
  | none => s
  | some k =>
    let hit := fun c : ChunkRec => c.kind == 1 && c.field == fieldOf l && c.slot == k && c.arr == n
    let s := { s with dormant := s.dormant.map (fun d => { d with recs := d.recs.filter (fun c => !hit c) }) }
    match partOf s l with
    | none => s
    | some pn => updPart s pn (fun p => if p.wset.recs.any hit then
        { p with wset := { weightsLost p.wset with recs := p.wset.recs.filter (fun c => !hit c) } }
      else p)

/-- An array of which no calibration copy is valid (03 R96). -/
def uncalibrated (l a : Nat) (s : State) : State :=
  let n := logicalOf (getL s l) a
  let s := arrayBad 3 6 0 l a s
  match n with
  | some n => dropChunk l n s
  | none => s

/-! ## The Lamplighter at boot (10 R300 to R306, Table 10-5) -/

/-- The Lamplighter enters its error state (10 R300). -/
def lampError (s : State) : State :=
  if !s.sec.rom || s.sec.error then s
  else raiseEv { s with sec := { s.sec with error := true } } sevSecurity 0x0505 partModule srcLamplighter 0 0

/-- VAON_GOOD: the ROM and the time base start. -/
def vaonGood (s : State) : State :=
  if !s.boot.rails || s.boot.vaon then s
  else { s with now := 0, boot := { s.boot with vaon := true }, sec := { s.sec with rom := true } }

/-- ROM_SELFTEST_DONE: the UDS is regenerated, unless the retirement fuse is blown; a failure means no READY (Table 11-2). -/
def romSelftest (pass : Bool) (s : State) : State :=
  if !s.sec.rom || s.sec.uds || s.sec.error then s
  else if pass then (if s.sec.retired then s else { s with sec := { s.sec with uds := true } })
  else raiseEv (lampError s) sevFatal 0x0505 partModule srcLamplighter 0 0

/-- Slot of a kind: true for B. -/
def fwSlot (k : FwKind) (b : Bool) : FwSlot := if b then k.b else k.a
/-- Firmware of a kind. -/
def fwKind (s : State) (kind : Nat) : FwKind := tget {} s.sec.images kind
def setKind (s : State) (kind : Nat) (k : FwKind) : State := { s with sec := { s.sec with images := tset {} s.sec.images kind k } }
/-- Anti-rollback counter of a kind, or counter n (10 R305). -/
def counterAt (s : State) (n : Nat) : Nat := tget 0 s.sec.counters n
/-- Digest of the image in a slot. -/
def fwDigest (kind : Nat) (x : FwSlot) : BitVec 384 := x.digest.getD (Config.shippedDigest kind)

/-- The slot the Lamplighter takes at boot: the acceptable one with the higher SVN, on a tie the one last marked active (10 R304). -/
def bootSlot (s : State) (kind : Nat) : Option Bool :=
  let k := fwKind s kind
  let ok := fun x : FwSlot => x.present && decide (counterAt s (kind - 1) ≤ x.svn)
  if ok k.a && ok k.b then some (if k.a.svn = k.b.svn then k.activeB else decide (k.a.svn < k.b.svn))
  else if ok k.a then some false else if ok k.b then some true else none

/-- No acceptable image of a kind: PLDM firmware update only, no READY (10 R304). -/
def noImage (kind : Nat) (s : State) : State :=
  raiseEv { s with sec := { s.sec with pldmOnly := true } } sevFatal 0x0707 partModule srcLamplighter 0 kind

/-- Targets that ACTIVATE of a kind names (11 Table 11-10); for microcode the partitions stand for them. -/
def fwTargets (kind : Nat) : List Nat := if kind = 3 then List.range 19 else if kind = 4 then List.range 45 else if kind = 5 then [] else [0]

/-- A kind boots from its slot, or none is acceptable; a staged image that boots runs on every target (11 R355). -/
def bootKind (kind : Nat) (s : State) : State :=
  match bootSlot s kind with
  | some b =>
    let k := fwKind s kind
    setKind s kind { k with runB := b, activated := if b == k.activeB then [] else fwTargets kind }
  | none => noImage kind s

/-- Alias keys are derived from the CDI, which follows the Lamplighter firmware's digest (10 R306). -/
def deriveAlias (s : State) : State :=
  if s.sec.error then s else
  let k := fwKind s 1
  let d := fwDigest 1 (fwSlot k k.runB)
  let info := [0x53, 0x56, 0x57, 0x31, 0x20, 0x43, 0x44, 0x49]
  { s with sec := { s.sec with
    fw := true, aliasGen := s.sec.aliasGen + 1, cdi := Config.hkdf (digestBytes d) (bytesOfNat 32 Config.uds.toNat) info } }

/-- LAMPLIGHTER_FW_START: the ROM starts an acceptable image; the cistern key is drawn (10 Table 10-2). -/
def lampStart (s : State) : State :=
  if !s.sec.uds || s.sec.fw || s.sec.error || s.sec.pldmOnly then s
  else match bootSlot s 1 with
    | none => noImage 1 s
    | some _ =>
      let s := deriveAlias (bootKind 1 s)
      { s with sec := { s.sec with draws := s.sec.draws + 1, cisternKey := s.sec.draws + 1 } }

/-- Logged rail faults and hard trips not yet reported (12 R365, R383). -/
def reportLogs (s : State) : State :=
  let s := forEach s.plant.railLog (fun d s => raiseM s sevFatal 0x0600 d) s
  let s := forEach s.plant.tripLog (fun c s => raiseM s sevFatal 0x0601 c) s
  { s with plant := { s.plant with railLog := [], tripLog := [] } }

/-- FIRMWARE_MEASURED: the other images are checked and measured, the OTP locked, the control processors and host ports released (Table 10-5, Table 11-2). -/
def fwMeasured (aOk bOk : Bool) (s : State) : State :=
  if !s.sec.fw || s.boot.measured || s.sec.pldmOnly || s.sec.error then s else
  let s := forEach [2, 3, 4, 5] bootKind s
  if s.sec.pldmOnly then s else
  let s := { s with
    sec := { s.sec with otpLocked := true },
    boot := { s.boot with measured := true, released := true, aUp := aOk, bUp := bOk, bActive := !aOk },
    links := tupd {} (tupd {} s.links 0 (fun k => { k with released := true })) 1 (fun k => { k with released := true }) }
  if !aOk && !bOk then raiseEv s sevFatal 0x0708 partModule srcLamplighter 0 0
  else
    let s := forEach (List.range nTiles) (gateTile true) (reportLogs (startModel s))
    let s := if aOk then s else raiseM s sevWarn 0x0702 0
    if bOk then s else raiseM s sevError 0x0702 1

/-- A control processor runs. -/
def firmwareUp (s : State) : Bool := s.boot.measured && (s.boot.aUp || s.boot.bUp)

/-! ## Rows of Table 11-1 -/

/-- CISTERN_TRAINING_DONE: a failed channel disables the cistern for the module. -/
def cisternTraining (failed : List Nat) (s : State) : State :=
  if !firmwareUp s || s.boot.cisternDone then s else
  let new := failed.eraseDups.filter (fun c => !s.badChannels.contains c)
  let s := forEach new (fun c s =>
    raiseM (addRepair { gateTile false (channelTile c) s with badChannels := s.badChannels ++ [c] } ⟨9, 2, c, 0, 0⟩) sevError 0x0704 c) s
  { s with boot := { s.boot with cisternDone := true } }

/-- What an array-pair record says is what its two arrays hold (R92). -/
def pairLoad (l a pay : Nat) (s : State) : State :=
  updArr (updArr s l a (blockArray (bytesAt pay 0 120))) l (a + 1) (blockArray (bytesAt pay 120 120))

/-- Copies of one record reconciled (03 R95, R96): the newest valid one is in force and every other copy becomes it. -/
def reconcileRec (key : Nat) (s : State) : State :=
  let r := calRec s key
  let subj := calSubject key
  let l := subj / 2 ^ 21
  let a := subj / 256 % 256
  let s := if copiesClash key r then raiseM s sevWarn 0x0303 subj else s
  match bestCopy key r with
  | some b =>
    let s := setCal s key ⟨b, b, b, b, none⟩
    if calKind key = 0x20 then pairLoad l a (recPay b) s else s
  | none =>
    let s := raiseM s sevError 0x0304 subj
    if calKind key = 0x20 then forEach [a, a + 1] (uncalibrated l) s
    else if calKind key = 0x10 then forEach ((List.range 8).map (subj / 2 ^ 16 % 32 * 8 + ·)) (uncalibrated l) s
    else s

/-- CALIBRATION_RECONCILE: the calibration store and the repair map are read; the map's other copy is rewritten to match (11 R331, R337). -/
def calReconcile (s : State) : State :=
  if !firmwareUp s || s.boot.calDone then s else
  let c := bestRepair s.repair s.repair2
  let s := forEach (s.cal.map (·.1)) reconcileRec { s with repair := c, repair2 := c }
  { s with boot := { s.boot with calDone := true } }

/-- A router fails its test: it is bad and so is its lantern (11 R334, R335). -/
def routerBad (r : Nat) (s : State) : State :=
  if s.badRouters.contains r then s
  else markBad 2 r (addRepair { s with badRouters := s.badRouters ++ [r] } ⟨2, 2, r, 0, 0⟩)

/-- A field's fabric island fails: the field is unusable and its routers are bad (Table 11-2). -/
def islandBadNow (f : Nat) (s : State) : State :=
  if (getF s f).islandBad then s else
  let s := addRepair (updF s f (fun F => { F with islandBad := true })) ⟨8, 2, f, 0, 0⟩
  forEach (lanternsIn f) routerBad (raiseF s f sevError 0x0706 f)

/-- FIELD_SELF_TEST_DONE. -/
def selfTestDone (routers islands : List Nat) (s : State) : State :=
  if !firmwareUp s || s.boot.selfTest then s else
  let s := forEach routers routerBad (forEach islands islandBadNow s)
  { s with boot := { s.boot with selfTest := true } }

/-- NEIGHBOUR_TEST_DONE: votes decide (11 R335, R336). -/
def neighbourDone (votes : List (Nat × Nat)) (s : State) : State :=
  if !s.boot.selfTest || s.boot.neighbour then s else
  let off := fun v : Nat => s.badLanterns.contains v || s.badRouters.contains v
  let votes := votes.filter (fun e => isVoter e.1 e.2 && !off e.2)
  let bad := judge true off votes votes.length []
  let s := forEach bad (markBad 2) s
  let s := forEach (leftVotes true off votes bad) testLink s
  { s with boot := { s.boot with neighbour := true } }

/-- Spares of a field: bad lanterns, then the healthy ones of highest local index (01 R19). -/
def chosenSpares (s : State) (f : Nat) : List Nat :=
  let bad := badLocal s f
  let good := ((List.range 16).reverse.filter (fun i => !bad.contains i)).take (s.spares - bad.length)
  good.reverse

/-- Mappable lanterns of a field by the setting in force (01 R20). -/
def mappableOf (s : State) (f : Nat) : List Nat :=
  (lanternsIn f).filter (fun l => !(badLocal s f).contains (localIx l) && !(chosenSpares s f).contains (localIx l))

/-- Is a field unusable (01 R20; 11 Table 11-2)? -/
def unusableField (s : State) (f : Nat) : Bool := (getF s f).islandBad || decide (16 ≤ (badLocal s f).length)

/-- A field's slot map made afresh, or kept with the slots of bad lanterns moved (11 R338). -/
def makeSlots (fresh : Bool) (f : Nat) (s : State) : State :=
  if fresh || !(getF s f).mapMade then
    updF s f (fun F => { F with mapMade := true, spares := chosenSpares s f, slots := (mappableOf s f).map (· + 1) })
  else forEach ((lanternsIn f).filter (fun l => s.badLanterns.contains l)) (fun l s => (moveSlot s l).1) s

/-- Arrays of a lantern's slot that chunk records name. -/
def recArrays (s : State) (recs : List ChunkRec) : List (Nat × Nat) :=
  recs.filterMap (fun c => if c.kind = 1 then (slotLantern s c.field c.slot).bind (fun l => (physOf (getL s l) c.arr).map (fun a => (l, a))) else none)

/-- Arrays go to erasure (02 R66). -/
def startErase (xs : List (Nat × Nat)) (s : State) : State :=
  let new := xs.eraseDups.filter (fun e => !s.erasing.contains e)
  let s := { s with erasing := s.erasing ++ new }
  vprogUse (forEach new (fun e s => needForWork (bankBusy s e.1 (e.2 / 8)) e.1) s)

/-- Links that the repair map disables (08 Table 8-6). -/
def mapLinks (s : State) : State :=
  forEach (s.repair.entries.filter (fun e => e.typ == 7)) (fun e s =>
    updDir (e.place / 2 ^ 21) (e.place / 2 ^ 18 % 8) (e.place / 2 ^ 16 % 2 == 1) (fun d =>
      { d with link := tupd {} d.link (e.place / 2 ^ 17 % 2) (fun x => { x with up := false, disabled := true }) }) s) s

/-- Arrays that the retention check covers: marked programmed and not bad (11 R340), of lanterns that are not bad. -/
def retentionArrays (s : State) : List (Nat × Nat) :=
  (s.lanterns.filter (fun e => !s.badLanterns.contains e.1)).flatMap (fun e =>
    (e.2.arrays.filter (fun x => x.2.programmed && !x.2.bad)).map (fun x => (e.1, x.1)))

/-- REPAIR_MAP_APPLY: spares chosen, slot maps made, links disabled, routes checked, the domains of the retention check requested (01 R30); a new spare setting makes every map afresh and erases dormant weights (01 R18 to R20; 11 R331, R338). -/
def repairApply (s : State) : State :=
  if !s.boot.neighbour || s.boot.repairDone then s else
  let fresh := decide (s.sparesNext ≠ s.slotSpares)
  let s := if fresh then
      let s := startErase (recArrays s (s.dormant.flatMap (·.recs))) s
      { s with dormant := [] }
    else s
  let s := { s with spares := s.sparesNext, slotSpares := s.sparesNext, boot := { s.boot with repairDone := true } }
  let s := forEach (List.range nFields) (fun f s =>
    let s := makeSlots fresh f s
    if degradedField s f then raiseF s f sevWarn 0x0701 f else s) s
  let s := recheckRoutes (mapLinks s)
  let s := { s with sec := { s.sec with routesLocked := true } }
  forEach ((retentionArrays s).map (·.1)).eraseDups (fun l s => needForWork s l) s

/-- 64 reference operations give the drift scale in force; it stays as saved where it comes out stale (03 R77, R78; 11 R340). -/
def checkDrift (l a : Nat) (s : State) : State :=
  let s := driftUpdate (takeSamples 64 l a s) l a
  updArr s l a (fun A => { A with drift := if A.stale then A.drift else (newScale A).getD A.drift, driftNext := none })

/-- An array fails the retention check: programmed flag cleared, its chunk record discarded, reported (11 R341). -/
def failRetention (l a diff : Nat) (s : State) : State :=
  let n := logicalOf (getL s l) a
  let s := pairCommit (updArr s l a (fun A => { A with programmed := false })) l a none
  let s := match n with | some n => dropChunk l n s | none => s
  raiseL s l sevWarn 0x020B (arrayDetail a 255 diff)

/-- One array of the retention check: drift scale, probes, the largest difference from its signature (11 R340, R341). -/
def retentionOne (e : Nat × Nat) (s : State) : State :=
  let l := e.1
  let a := e.2
  let s := checkDrift l a s
  let A := getArr (getL s l) a
  let (sig, n) := signature s l a A.drift
  let diff := min 255 (sigDistance A.sig sig)
  let s := updArr { s with draws := n } l a (fun A => { A with sigDiff := diff })
  if diff ≤ 3 then s else failRetention l a diff s

/-- RETENTION_CHECK_DONE: the check ends, once the domains it needs are on (01 R30). -/
def retentionDone (s : State) : State :=
  let xs := retentionArrays s
  if !s.boot.repairDone || s.boot.retention || xs.any (fun e => !(getL s e.1).on) then s else
  let s := forEach xs retentionOne s
  { s with boot := { s.boot with retention := true } }

/-- DORMANT_RECORD_CHECK. -/
def dormantCheck (s : State) : State :=
  if !s.boot.retention then s else { s with boot := { s.boot with dormantDone := true } }

/-- READY_ASSERT: every row of Table 11-1 has ended (11 R332). -/
def readyNow (s : State) : State :=
  let b := s.boot
  if firmwareUp s && b.cisternDone && b.calDone && b.dormantDone && b.downAt.isNone && b.pwrEn then { s with boot := { b with ready := true } } else s

/-! ## Host links and cables (14 R414, R415, R425, R426; 11 Table 11-2) -/

/-- Generation of a training's outcome. -/
def genOf : Fin 4 → PcieGen
  | 0 => .g7
  | 1 => .g6
  | 2 => .g5
  | 3 => .g4

/-- A host link is up at the generation its training reached (00 R8). -/
def linkUp (p : HostPort) (s : State) : State :=
  updLink { s with draws := s.draws + 1 } p (fun k => { k with up := true, failed := false, gen := some (genOf (Config.linkGen s.draws)) })

/-- HOST_LINK_TRAINED: a released port with PERST deasserted ends its training. -/
def linkTrainedHost (p : HostPort) (ok : Bool) (s : State) : State :=
  let k := getLink s p
  if !k.released || k.perst || k.up || k.cableHold || k.downAt.isSome || k.failed then s
  else if ok then linkUp p s
  else raiseM (updLink s p (fun k => { k with failed := true })) sevError 0x0703 (portIx p)

/-- HOST_PORT_RETRAIN: a failed port trains again every 1 s. -/
def linkRetrain (p : HostPort) (ok : Bool) (s : State) : State :=
  let k := getLink s p
  if !k.failed || !k.released || k.perst || k.cableHold || !ok then s else linkUp p s

/-- PERST_ASSERT: after the port's release it idles and its functions are reset (14 R426). -/
def perstAssert (p : HostPort) (s : State) : State :=
  let was := (getLink s p).perst
  let s := updLink s p (fun k => { k with perst := true })
  if was || !(getLink s p).released then s else
  forEach (portFns p) resetOrHold (updLink s p (fun k => { k with up := false, failed := false, downAt := none, held := [] }))

/-- PERST_DEASSERT: the port may train. -/
def perstDeassert (p : HostPort) (s : State) : State := updLink s p (fun k => { k with perst := false })

/-- HOST_LINK_DOWN without PERST: memory writes for the port are held (14 R415). -/
def hostDown (p : HostPort) (s : State) : State :=
  updLink s p (fun k => if k.up && !k.perst then { k with up := false, downAt := some (nowNs s) } else k)

/-- HOST_LINK_RETURN within 100 ms: held writes are sent in order. -/
def hostReturn (p : HostPort) (s : State) : State :=
  let k := getLink s p
  match k.downAt with
  | none => s
  | some t =>
    if t + 100000000 ≤ nowNs s then s
    else forEach k.held (fun o s => sendHost s p o) (linkUp p (updLink s p (fun k => { k with downAt := none, held := [] })))

/-- HOST_LINK_HOLD_TIMEOUT: down for 100 ms, the port's functions are reset; the port trains again. -/
def hostTimeout (p : HostPort) (s : State) : State :=
  match (getLink s p).downAt with
  | none => s
  | some t =>
    if nowNs s < t + 100000000 then s
    else forEach (portFns p) resetOrHold (updLink s p (fun k => { k with downAt := none, held := [] }))

/-- CABLE_INSERT: a cable whose memory does not answer, or that declares more than 0.5 W, holds its port down (14 R414). -/
def cableInsert (cage : Nat) (ok : Bool) (s : State) : State :=
  if !firmwareUp s then s
  else if cage < 2 then
    let p := if cage = 0 then HostPort.a else .b
    let s := updLink s p (fun k => { k with cableHold := !ok })
    if ok then s else raiseM (updLink s p (fun k => { k with up := false })) sevWarn 0x0703 cage
  else if cage < 6 then
    let z := cage - 2
    if ok then updZ s z (fun Z => { Z with failed := false })
    else raiseM (updZ s z (fun Z => { Z with failed := true, up := false })) sevWarn 0x0705 z
  else s

/-! ## Commands -/

/-- 11 R331. -/
def execVaonGood (s : State) : Out := guarded true (vaonGood s)
/-- 10 R300. -/
def execRomSelftestDone (pass : Bool) (s : State) : Out := guarded true (romSelftest pass s)
/-- 10 R304, R306. -/
def execLamplighterFwStart (s : State) : Out := guarded true (lampStart s)
/-- 10 Table 10-5; 11 Table 11-2. -/
def execFirmwareMeasured (aOk bOk : Bool) (s : State) : Out := guarded true (fwMeasured aOk bOk s)
/-- 14 R425; 11 Table 11-2. -/
def execHostLinkTrained (p : HostPort) (ok : Bool) (s : State) : Out := guarded true (linkTrainedHost p ok s)
/-- 11 Table 11-2. -/
def execCisternTrainingDone (failed : List Nat) (s : State) : Out := guarded (failed.all (fun n => decide (n < 12))) (cisternTraining failed s)
/-- 03 R95, R96. -/
def execCalibrationReconcile (s : State) : Out := guarded true (calReconcile s)
/-- 11 R334. -/
def execFieldSelfTestDone (badRouters badIslands : List Nat) (s : State) : Out :=
  guarded (badRouters.all lanternOk && badIslands.all fieldOk) (selfTestDone badRouters badIslands s)
/-- 11 R335, R336. -/
def execNeighbourTestDone (votes : List (Nat × Nat)) (s : State) : Out := guarded (votesOk votes) (neighbourDone votes s)
/-- 11 R331, R338. -/
def execRepairMapApply (s : State) : Out := guarded true (repairApply s)
/-- 11 R340, R341. -/
def execRetentionCheckDone (_event : Unit) (s : State) : Out := guarded true (retentionDone s)
/-- 11 R342. -/
def execDormantRecordCheck (s : State) : Out := guarded true (dormantCheck s)
/-- 11 R332. -/
def execReadyAssert (s : State) : Out := guarded true (readyNow s)
/-- 10 R300. -/
def execLamplighterError (s : State) : Out := guarded true (lampError s)
/-- 14 R426. -/
def execPerstAssert (p : HostPort) (s : State) : Out := settled true (perstAssert p s)
/-- 14 R425, R426. -/
def execPerstDeassert (p : HostPort) (s : State) : Out := guarded true (perstDeassert p s)
/-- 14 R415. -/
def execHostLinkDown (p : HostPort) (s : State) : Out := guarded true (hostDown p s)
/-- 14 R415. -/
def execHostLinkReturn (p : HostPort) (s : State) : Out := guarded true (hostReturn p s)
/-- 14 R415. -/
def execHostLinkHoldTimeout (p : HostPort) (s : State) : Out := settled true (hostTimeout p s)
/-- 11 Table 11-2. -/
def execHostPortRetrain (p : HostPort) (ok : Bool) (s : State) : Out := guarded true (linkRetrain p ok s)
/-- 14 R414. -/
def execCableInsert (cage : Nat) (answers powerOk : Bool) (s : State) : Out := guarded (decide (cage < 6)) (cableInsert cage (answers && powerOk) s)
/-- 11 R350: a halved disagreement of A or B, or the Lamplighter's error state. -/
def execLockstepMismatch (p : Proc) (s : State) : Out :=
  guarded true (match p with | .a => procHalts true s | .b => procHalts false s | .lamplighter => lampError s)

end Sys2Proof.Machine
end

