-- ==== Sys2Proof/Machine/AccPort.lean ====
section
/-! DEFINITION. The accumulator port: clears, readouts, exports and imports (04 R132 to R135; 06 R184, R185). -/

namespace Sys2Proof.Machine

/-- ACLR: blocks cleared once every earlier operation on them is placed (04 R133). -/
def runAclr (l seq b n : Nat) (s : State) : EngTry :=
  if accWaits (getL s l) seq b n true then .wait 0x0F (.aclr b n) s
  else .done (updL s l (fun L => { L with acc := clearBlocks L.acc b n }))

/-- Readout lines of outputs: data with poison, NaNs and saturations (06 R184). -/
def readoutLines (ty : Nat) (outs : List (FV × Bool × Bool)) : List ((Line × Bool) × Nat × Nat) :=
  let e := lineElems ty
  (chunks e ((outs.length + e - 1) / e) outs).map (fun c =>
    let (x, nans, sats) := packLine ty (c.map (·.1))
    ((x, c.any (fun o => o.2.1)), nans, sats))

def sumFst {α : Type} (f : α → Nat) (l : List α) : Nat := (l.map f).sum

/-- ARD: blocks read out in a named type, each value rounded once (04 R134; 06 R184). -/
def runArd (l seq b n line ty : Nat) (clr : Bool) (s : State) : EngTry :=
  if accWaits (getL s l) seq b n true then .wait 0x0F (.ard b n line ty clr) s
  else
    let outs := readBlocks (getL s l).acc b n
    let xs := readoutLines ty outs
    let s := countL s l 0x28 (sumFst (fun x => x.2.1) xs)
    let s := countL s l 0x29 (sumFst (fun x => x.2.2) xs)
    let s := countL s l 0x2A (outs.filter (fun o => o.2.2)).length
    let s := if clr then updL s l (fun L => { L with acc := clearBlocks L.acc b n }) else s
    .more (.emit line (resultLines (xs.map (·.1)) ty)) s

/-- ACCX flits of the lines of n blocks; SUB carries the import lane and the form (06 R185). -/
def accxFlits (l lane : Nat) (acc : SMap Block) (b n : Nat) : List Flit :=
  let xs := (List.range n).flatMap (fun i => exportLines (getBlk { acc := acc } (b + i)))
  let k := xs.length
  (xs.zip (List.range k)).map (fun (x, i) =>
    mkFlit l 0 0 2 (lane % 8 + (if x.2.2 then 8 else 0)) (if x.2.2 then 9 else 8) (decide (1 < k) && decide (i + 1 = k)) x.2.1 x.1)

/-- AEXP: blocks sent without rounding through a sluice entry (06 R185). -/
def runAexp (l seq b n ent : Nat) (clr : Bool) (s : State) : EngTry :=
  let L := getL s l
  if accWaits L seq b n true then .wait 0x0F (.aexp b n ent clr) s
  else if !slDestOk s l ent then .trap causeRange ent s
  else
    let fs := accxFlits l (getSl L ent).num L.acc b n
    let s := if clr then updL s l (fun L => { L with acc := clearBlocks L.acc b n }) else s
    .more (.inject ent fs) s

/-- AIMP: lines of a lane placed in arrival order; one CREDIT flit at the end (06 R185). fuel bounds the lines. -/
def runAimp (l seq : Nat) : Nat → Nat → Nat → Nat → Nat → State → EngTry
  | 0, blk, left, lane, taken, s => .wait 0x0B (.aimp blk left lane taken) s
  | fuel + 1, blk, left, lane, taken, s =>
    let L := getL s l
    let k := getLane L lane
    if left = 0 then .done (injectL s l 1 (creditFlit l k.cls k.producer 1 lane taken))
    else match k.buf with
    | [] => .wait 0x0B (.aimp blk left lane taken) s
    | (x, p, e) :: rest =>
      if accWaits L seq blk 1 false then .wait 0x0F (.aimp blk left lane taken) s
      else match placeIn s l (importLine blk x p e) with
      | none => .wait 0x08 (.aimp blk left lane taken) s
      | some s' =>
        let s' := updLane s' l lane (fun k => { k with buf := rest })
        if importLast x e then runAimp l seq fuel (blk + 1) (left - 1) lane (taken + 1) s'
        else runAimp l seq fuel blk left lane (taken + 1) s'

end Sys2Proof.Machine
end

