-- ==== Sys2Proof/Machine/AttentionUnit.lean ====
section
/-! DEFINITION. The attention unit: query loads, score phases, value phases (05 R166 to R168; 07 R220). -/

namespace Sys2Proof.Machine

/-- QLD: two INT8 lines to a register, from register r on (05 R166). -/
def loadQueries (l : Nat) : Nat → List (Line × Bool) → State → State
  | r, x :: y :: xs, s =>
    loadQueries l (r + 1) xs (updL (countL s l 0x2B (badCells 2 [x, y])) l (fun L => { L with queries := tset {} L.queries r ⟨x.1, y.1, x.2 || y.2⟩ }))
  | _, _, s => s

/-- Element n of a query register: INT8 value with its cell's scale (05 R166). -/
def queryElem (q : QueryReg) (n : Nat) : FV × Bool :=
  let x := if n < 64 then q.lo else q.hi
  (elemValue 2 x (n % 64), elemBadScale 2 x (n % 64))

/-- Exact dot product of a query with a key, rounded once (05 R167), with its poison. -/
def scoreOf (q : QueryReg) (ty : Nat) (ks : List (Line × Bool)) : F32 × Bool :=
  let e := lineElems ty
  let r := (List.range 128).foldl (fun (t : Dy × Bool) n =>
    let a := queryElem q n
    let x := ks.getD (n / e) (0, false)
    (t.1.add (a.1.dy.mul (elemValue ty x.1 (n % e)).dy), t.2 || a.2 || x.2 || elemBadScale ty x.1 (n % e))) (Dy.zero, q.poison)
  (F32.ofDy r.1, r.2)

/-- Lines of a head for cnt tokens from local index i on. -/
def headLines (l d h kv : Nat) : Nat → Nat → State → Option (State × List (List (Line × Bool)))
  | _, 0, s => some (s, [])
  | i, n + 1, s => match readShare l d i (headCols (descAt (getL s l) d) h kv) s with
    | none => none
    | some (s, xs) => match headLines l d h kv (i + 1) n s with
      | some (s, rest) => some (s, xs :: rest)
      | none => none

/-- Score phase from cycle i on (05 R167), each cycle after earlier appends to the lines it reads (05 R165). -/
def runAscr (l seq d g f first n h0 h : Nat) (i : Nat) : List Cycle → State → EngTry
  | [], s => .done s
  | c :: cs, s =>
    let L := getL s l
    if common (phaseLines L d 0 first h0 [c]) (earlierWrites L seq) then .wait 0x0F (.ascr d g f first n h0 h i) s
    else if 4096 < L.scores.length + c.r * c.cnt then .wait 0x09 (.ascr d g f first n h0 h i) s
    else match headLines l d (h0 + c.head) 0 (first + c.t0) c.cnt s with
    | none => .trap causeRange d s
    | some (s1, ks) =>
      let ty := if (descAt L d).w = 2 then 2 else 1
      let es := (List.range c.r).flatMap (fun m =>
        let q := tget {} L.queries (f + c.head * g + c.m0 + m)
        ks.map (fun k => (c.head * g + c.m0 + m, scoreOf q ty k)))
      runAscr l seq d g f first n h0 h (i + 1) cs (updL (countL s1 l 0x2B ((ks.map (badCells ty)).sum)) l (fun L => { L with scores := L.scores ++ es }))

/-- Probabilities of query ordinal q for tokens t0 on, as many as given; none while one is missing. -/
def probsFor (ps : List (Nat × Nat × Int × Nat × Bool)) (q t0 cnt : Nat) : Option (List (Int × Nat × Bool)) :=
  (List.range cnt).mapM (fun t => (ps.find? (fun e => e.1 == q && e.2.1 == t0 + t)).map (·.2.2))

/-- Products of one output over tokens: integer product and exponent. -/
def valueTerms (ty dim : Nat) (ps : List (Int × Nat × Bool)) (vs : List (List (Line × Bool))) : List (Int × Int) :=
  let e := lineElems ty
  (ps.zip vs).map (fun (p, v) =>
    let x := (v.getD (dim / e) (0, false)).1
    let sc := fun b : Nat => (if b = 255 then (0 : Int) else (b : Int)) - 127
    (p.1 * signed (elemBits ty) (elemCode ty x (dim % e)), sc p.2.1 + sc (cellScale x (dim % e / cellElems ty))))

/-- Do the non-zero products span more than 24 binades (05 R168)? -/
def spans (ts : List (Int × Int)) : Bool :=
  let es := (ts.filter (fun t => t.1 != 0)).map (·.2)
  match es with
  | [] => false
  | e :: es => decide (24 < es.foldl max e - es.foldl min e)

/-- The exact sum as one contribution. -/
def sumTerms (ts : List (Int × Int)) : Int × Int :=
  match (ts.filter (fun t => t.1 != 0)) with
  | [] => (0, 0)
  | t :: ts =>
    let p := ts.foldl (fun m x => min m x.2) t.2
    ((t :: ts).foldl (fun a x => a + x.1 * (pow2 (x.2 - p) : Int)) 0, p)

/-- One cycle of a value phase over queries, each with its first block, its poison and its probabilities: the contributions, and the cycles run again. When one output's products span too far, the whole cycle runs again as two of half the tokens each (05 R168); halving n times splits 2^n tokens. -/
def valueCycle (ty : Nat) : Nat → List (Nat × Bool × List (Int × Nat × Bool)) → List (List (Line × Bool)) → List Contr × Nat
  | n, qs, vs =>
    let terms := fun (q : Nat × Bool × List (Int × Nat × Bool)) (d : Nat) => valueTerms ty d q.2.2 vs
    let once := qs.flatMap (fun q => (List.range 128).map (fun d =>
      let t := sumTerms (terms q d)
      (⟨q.1 + d / 32, d % 32, t.1, t.2, q.2.1, false⟩ : Contr)))
    match n with
    | 0 => (once, 0)
    | n + 1 =>
      if decide (1 < vs.length) && qs.any (fun q => (List.range 128).any (fun d => spans (terms q d))) then
        let k := (vs.length + 1) / 2
        let part := fun f : List (Int × Nat × Bool) → List (Int × Nat × Bool) => qs.map (fun q => (q.1, q.2.1, f q.2.2))
        let a := valueCycle ty n (part (·.take k)) (vs.take k)
        let b := valueCycle ty n (part (·.drop k)) (vs.drop k)
        (a.1 ++ b.1, 1 + a.2 + b.2)
      else (once, 0)

/-- Is a probability cell or a value line poisoned (05 Table 5-7)? -/
def valueBad (ps : List (Int × Nat × Bool)) (vs : List (List (Line × Bool))) (ty : Nat) : Bool :=
  ps.any (fun p => p.2.2 || p.2.1 == 255)
    || vs.any (fun v => v.any (fun x => x.2 || (List.range 4).any (fun c => cellScale x.1 c == 255 && isCell ty)))

/-- Value phase from cycle i on (05 R168), each cycle after earlier appends to the lines it reads (05 R165). -/
def runAval (l seq d g f blk first n h0 h : Nat) (clr : Bool) (i : Nat) : List Cycle → State → EngTry
  | [], s => .done s
  | c :: cs, s =>
    let op := EOp.aval d g f blk first n h0 h clr i
    let L := getL s l
    let now := clr && i == 0
    let qs := (List.range c.r).map (fun m => probsFor L.probs (L.probOut + m) c.t0 c.cnt)
    if common (phaseLines L d 1 first h0 [c]) (earlierWrites L seq) then .wait 0x0F op s
    else if accWaits L seq blk (4 * g * h) now then .wait 0x0F op s
    else if qs.any Option.isNone then .wait 0x0A op s
    else match headLines l d (h0 + c.head) 1 (first + c.t0) c.cnt s with
    | none => .trap causeRange d s
    | some (s1, vs) =>
      let ty := if (descAt L d).w = 2 then 2 else 1
      let s2 := if now then updL s1 l (fun L => { L with acc := clearBlocks L.acc blk (4 * g * h) }) else s1
      let ps := qs.map (fun o => o.getD [])
      let cyc := valueCycle ty 6 ((ps.zip (List.range c.r)).map (fun (p, m) => (blk + 4 * (c.head * g + c.m0 + m), valueBad p vs ty, p))) vs
      match placeIn s2 l cyc.1 with
      | none => .wait 0x08 op s
      | some s3 =>
        let s3 := countL (countL s3 l 0x26 cyc.2) l 0x2B ((vs.map (badCells ty)).sum)
        let s3 := updL s3 l (fun L =>
          let keep := L.probs.filter (fun e =>
            !(decide (L.probOut ≤ e.1) && decide (e.1 < L.probOut + c.r) && decide (c.t0 ≤ e.2.1) && decide (e.2.1 < c.t0 + c.cnt)))
          { L with probs := keep, probOut := if c.fin then L.probOut + c.r else L.probOut })
        runAval l seq d g f blk first n h0 h clr (i + 1) cs s3

/-- ASCR from cycle i on. -/
def startAscr (l seq d g f first n h0 h i : Nat) (s : State) : EngTry :=
  runAscr l seq d g f first n h0 h i ((phaseCycles g h n (descAt (getL s l) d).w).drop i) s

/-- AVAL from cycle i on. -/
def startAval (l seq d g f blk first n h0 h : Nat) (clr : Bool) (i : Nat) (s : State) : EngTry :=
  runAval l seq d g f blk first n h0 h clr i ((phaseCycles g h n (descAt (getL s l) d).w).drop i) s

/-! ## Merging partials (07 R223) -/

/-- A partial of one query: reference, sum, value sums. -/
structure Partial where
  m : F32
  l : F32
  o : List F32
  deriving DecidableEq, Repr

def negInf : F32 := 0xFF800000#32
/-- The partial of no token. -/
def emptyPartial : Partial := ⟨negInf, 0, List.replicate 128 0⟩
def Partial.isEmpty (p : Partial) : Bool := p.m == negInf && p.l == 0

/-- Two partials merged, the earlier of the tree first. No command merges: a program does, through WVB and WVU (log 42). -/
def mergePartials (a b : Partial) : Partial :=
  if a.isEmpty then (if b.isEmpty then emptyPartial else b)
  else if b.isEmpty then a
  else
    let mm := fmax a.m b.m
    let f1 := fexp (fsub a.m mm)
    let f2 := fexp (fsub b.m mm)
    ⟨mm, ffma f2 b.l (fmul f1 a.l), (a.o.zip b.o).map (fun x => ffma f2 x.2 (fmul f1 x.1))⟩

/-- What the root of a merge tree writes: +0 where the sum is 0. -/
def mergeRoot (p : Partial) : List F32 :=
  if p.l &&& 0x7FFFFFFF#32 = 0 then p.o.map (fun _ => 0) else p.o.map (fun x => fmul x (fdiv 0x3F800000#32 p.l))

end Sys2Proof.Machine
end

