-- ==== Sys2Proof/Machine/SendQueue.lean ====
section
/-! DEFINITION. The send unit and the queue engine: copies, transposed reads, sends, clears, and the operations of 05 Table 5-5 (05 R149 to R159). -/

namespace Sys2Proof.Machine

/-! ## Send unit -/

/-- COPY from line i on, n lines left (05 R149): one line read, then written. -/
def runCopy (l src stride dst : Nat) (take : Bool) : Nat → Nat → State → EngTry
  | _, 0, s => .done s
  | i, n + 1, s =>
    let op := EOp.copy src stride (i + n + 1) dst i take
    let a := src + i * stride
    let b := dst + i
    let x := padAt (getL s l) a
    if !x.full then .wait 0x01 op s
    else if (padAt (getL s l) b).full && !(take && a == b) then .wait 0x02 op s
    else
      let (s, y, p) := readPad s l a take
      runCopy l src stride dst take (i + 1) n (writePad s l b y p x.shadow)

/-- Lines of a strided read. -/
def strided (a stride n : Nat) : List Nat := (List.range n).map (fun i => a + i * stride)

/-- Tile element (row i, column j) with its scale code (05 R150). -/
def tileElem (ty off : Nat) (xs : List (Line × Bool)) (i j : Nat) : Int × Nat :=
  let x := (xs.getD i (0, false)).1
  let n := off + j
  (signed (elemBits ty) (elemCode ty x n), cellScale x (n / cellElems ty))

/-- An output cell of a transposed read: 136 bits, and whether a non-zero bit was discarded (05 R151). -/
def tileCell (ty : Nat) (es : List (Int × Nat)) : Nat × Bool :=
  let sc := es.foldl (fun m e => max m e.2) 0
  let qs := es.map (fun e => (rne e.1 (2 ^ (sc - e.2)), decide (rne e.1 (2 ^ (sc - e.2)) * (2 ^ (sc - e.2) : Nat) ≠ e.1)))
  (natOfDigits (elemBits ty) (qs.map (fun q => toBits (elemBits ty) q.1)) + sc * 2 ^ 128, qs.any (·.2))

/-- TRD on its source lines (05 R150, R151). -/
def runTrd (l dst : Nat) (big int8 : Bool) (off : Nat) (xs : List (Line × Bool)) (s : State) : EngTry :=
  let r := if big then 32 else 16
  let ty := if int8 then 2 else 1
  let k := cellElems ty
  let cells := (List.range (r * r / k)).map (fun c =>
    tileCell ty ((List.range k).map (fun i => tileElem ty off xs ((c * k + i) % r) ((c * k + i) / r))))
  let lines := (chunks 4 (r * r / k / 4) cells).map (fun c => (BitVec.ofNat 544 (natOfDigits 136 (c.map (·.1))), xs.any (·.2)))
  let bad := (xs.map (fun x => ((List.range 4).filter (fun c =>
    cellScale x.1 c == 255 && decide (c * k < off + r) && decide (off < (c + 1) * k))).length)).sum
  let s := countL (countL s l 0x25 (if cells.any (·.2) then 1 else 0)) l 0x2B bad
  .more (.emit dst (resultLines lines ty)) s

/-- SEND from line i on, n lines left (05 R156; 06 Table 6-3). -/
def runSend (l src stride ent fmt tot : Nat) (take : Bool) : Nat → Nat → State → EngTry
  | _, 0, s => .done s
  | i, n + 1, s =>
    let op := EOp.send src stride tot ent fmt i take
    let a := src + i * stride
    let e := getSl (getL s l) ent
    if !slDestOk s l ent then .trap causeRange ent s
    else if !(padAt (getL s l) a).full then .wait 0x01 op s
    else if creditsLeft s l ent = 0 then .wait 0x04 op s
    else
      let (s, x, p) := readPad s l a take
      let f := mkFlit l e.cls e.dest (if e.kind = 0 then 0 else 4) e.num fmt (decide (1 < tot) && decide (n = 0)) p x
      match sendFlits l 4 ent [f] s with
      | .done s => runSend l src stride ent fmt tot take (i + 1) n s
      | r => r

/-- CLR: n lines from a on emptied (05 R144). -/
def clearLines (l : Nat) : Nat → Nat → State → State
  | _, 0, s => s
  | a, n + 1, s => clearLines l (a + 1) n (updL s l (fun L => { L with pad := tset {} L.pad a {} }))

/-! ## Queue engine -/

/-- The line at count c of a queue's region (05 R155). -/
def queueLine (L : Lantern) (q : Queue) (c : BitVec 32) : Nat × PadLine :=
  let a := q.base + c.toNat % q.depth
  (a, padAt L a)

/-- Delivery of the head line, which becomes the last-value register: line, poison, shadow (05 R157). -/
def queueHead (l q : Nat) (s : State) : State × Line × Bool × BitVec 4 :=
  let Q := getQ (getL s l) q
  let (a, x) := queueLine (getL s l) Q Q.rd
  let (s, p) := deliver s l 2 a x.poison x.parBad
  (updQ s l q (fun Q => { Q with last := x.data, lastPoison := p }), x.data, p, x.shadow)

def queueEmpty (L : Lantern) (q : Nat) : Bool := (getQ L q).rd == (getQ L q).w

def advanceRd (s : State) (l q : Nat) : State := updQ s l q (fun Q => { Q with rd := Q.rd + 1 })

/-- RECV: n lines left, from line i on (05 Table 5-5). -/
def runRecv (l q dst : Nat) : Nat → Nat → State → EngTry
  | _, 0, s => .done s
  | i, n + 1, s =>
    let op := EOp.recv q dst (i + n + 1) i
    if queueEmpty (getL s l) q then .wait 0x03 op s
    else if (padAt (getL s l) (dst + i)).full then .wait 0x02 op s
    else
      let (s, x, p, sh) := queueHead l q s
      runRecv l q dst (i + 1) n (writePad (advanceRd s l q) l (dst + i) x p sh)

/-- A line reaches scalar register sd, which is no longer pending; a poisoned one traps (05 R160). -/
def toScalar (l q : Nat) (sd : Fin 32) (x : Line) (poison : Bool) (s : State) : EngTry :=
  if poison then .trap causePoison q s
  else .done (setReg (updL s l (fun L => { L with pending := L.pending.erase sd })) l sd (x.setWidth 64))

def runRecvReg (l q : Nat) (sd : Fin 32) (s : State) : EngTry :=
  if queueEmpty (getL s l) q then .wait 0x03 (.recvReg q sd) s
  else
    let (s, x, p, _) := queueHead l q s
    toScalar l q sd x p (advanceRd s l q)

/-- QPEEK and QPOP: the head line, or the last value with UNDERRUN set (05 Table 5-5). -/
def runPeek (l q dst : Nat) (reg : Bool) (sd : Fin 32) (pop : Bool) (s : State) : EngTry :=
  let L := getL s l
  let Q := getQ L q
  if !reg && (padAt L dst).full then .wait 0x02 (.qpeek q dst reg sd pop) s
  else
    let (s, x, p, sh) :=
      if Q.rd = Q.w then (countL (updQ s l q (fun Q => { Q with underrun := true })) l 0x24 1, Q.last, Q.lastPoison, 0xA#4)
      else
        let (s, x, p, sh) := queueHead l q s
        (if pop then advanceRd s l q else s, x, p, sh)
    if reg then toScalar l q sd x p s else .done (writePad s l dst x p sh)

def runQmark (l q : Nat) (s : State) : EngTry := .done (updQ s l q (fun Q => { Q with m := Q.rd, markV := true }))
def runQrewind (l q : Nat) (s : State) : EngTry :=
  .done (updQ s l q (fun Q => { Q with rd := if Q.markV then Q.m else Q.l }))
/-- QREL: the lines read and held return as credits to the producer (05 R158). -/
def runQrel (l q : Nat) (s : State) : EngTry :=
  let Q := getQ (getL s l) q
  let n := (Q.rd - Q.l).toNat
  let s := if n = 0 then s else injectL s l 5 (creditFlit l Q.cls Q.producer 0 q n)
  .done (updQ s l q (fun Q => { Q with l := Q.rd, markV := false }))

/-- The status word of a queue (05 Table 5-6). -/
def queueStatus (L : Lantern) (q : Nat) : Word :=
  let Q := getQ L q
  let head := (queueLine L Q Q.rd).2
  BitVec.ofNat 64 (min 65535 (Q.w - Q.rd).toNat + min 65535 (Q.rd - Q.l).toNat * 2 ^ 16 + (if Q.underrun then 2 ^ 32 else 0)
    + (if Q.markV then 2 ^ 33 else 0) + (if Q.rd ≠ Q.w ∧ head.poison = true then 2 ^ 34 else 0))

def runQstat (l q : Nat) (sd : Fin 32) (clr : Bool) (s : State) : EngTry :=
  let w := queueStatus (getL s l) q
  let s := updL s l (fun L => { L with pending := L.pending.erase sd })
  let s := setReg s l sd w
  .done (if clr then updQ s l q (fun Q => { Q with underrun := false }) else s)

end Sys2Proof.Machine
end

