-- ==== Sys2Proof/Machine/WideUnit.lean ====
section
/-! DEFINITION. The wide engine: dot products, vector operations, softmax, quantising, gather, top-k, sampling (05 R161 to R163; 07 R221; 09 R285). -/

namespace Sys2Proof.Machine

/-! ## Operand lines -/

def linesFor (n e : Nat) : Nat := (n + e - 1) / e

/-- Line n of a list read, with its poison. -/
def nthLine (xs : List (Line × Bool)) (n : Nat) : Line × Bool := xs.getD n (0, false)

/-- Operand lines of type ty: their cells with scale 0xFF are counted (04 R116). -/
def noteCells (l ty : Nat) (xs : List (Line × Bool)) (s : State) : State := countL s l 0x2B (badCells ty xs)

/-- Value of element n over consecutive lines of type ty, with its poison (line or 0xFF scale). -/
def elemOf (ty : Nat) (xs : List (Line × Bool)) (n : Nat) : FV × Bool :=
  let e := lineElems ty
  let x := nthLine xs (n / e)
  (elemValue ty x.1 (n % e), x.2 || elemBadScale ty x.1 (n % e))

/-- Element n of FP32 or BF16 lines as FP32. -/
def vecElem (bf : Bool) (xs : List (Line × Bool)) (n : Nat) : F32 × Bool :=
  if bf then let x := nthLine xs (n / 34); (elemBF x.1 (n % 34), x.2)
  else let x := nthLine xs (n / 17); (elem32 x.1 (n % 17), x.2)

def vecTy (bf : Bool) : Nat := if bf then 6 else 7

/-- Result elements packed into lines of FP32 or BF16, a line poisoned when one of its elements is; NaNs counted on conversion. -/
def packVec (bf : Bool) (xs : List (F32 × Bool)) : List (Line × Bool) × Nat :=
  let e := lineElems (vecTy bf)
  let cs := chunks e (linesFor xs.length e) xs
  if bf then
    let ys := cs.map (fun c => (packLine 6 (c.map (fun v => decode32 v.1)), c.any (·.2)))
    (ys.map (fun y => (y.1.1, y.2)), (ys.map (fun y => y.1.2.1)).sum)
  else (cs.map (fun c => (line32 (c.map (·.1)), c.any (·.2))), 0)

/-! ## Integer and float dot products -/

/-- Exact sums of one output by pairs of cells that share their scales: sig and p (04 Table 4-9). -/
def intDot (ty len : Nat) (xs ws : List (Line × Bool)) (blk out : Nat) : List Contr :=
  let k := cellElems ty
  let scaleOf := fun (ys : List (Line × Bool)) (c : Nat) =>
    let v := cellScale (nthLine ys (c / 4)).1 (c % 4); (if v = 255 then 0 else (v : Int)) - 127
  let intOf := fun (ys : List (Line × Bool)) (n : Nat) =>
    let e := lineElems ty; (signed (elemBits ty) (elemCode ty (nthLine ys (n / e)).1 (n % e)), (elemOf ty ys n).2)
  (List.range (linesFor len k)).map (fun c =>
    let ns := (List.range (min k (len - c * k))).map (c * k + ·)
    let sum := (ns.map (fun n => (intOf xs n).1 * (intOf ws n).1)).sum
    let bad := ns.any (fun n => (intOf xs n).2 || (intOf ws n).2)
    ⟨blk + out / 32, out % 32, sum, scaleOf xs c + scaleOf ws c, bad, false⟩)

/-- Contributions of a dot product are placed once earlier operations on the blocks allow it (04 R133), after a clear the instruction asks for. -/
def placeDot (l seq blk n : Nat) (clr : Bool) (cs : List Contr) (op : EOp) (s0 s : State) : EngTry :=
  if accWaits (getL s l) seq blk n clr then .wait 0x0F op s0
  else match placeIn (if clr then updL s l (fun L => { L with acc := clearBlocks L.acc blk n }) else s) l cs with
    | some s => .done s
    | none => .wait 0x08 op s0

/-- WIDOT on the lines of A and B (06 Table 6-3). -/
def runWidot (l seq a b blk len outs ty : Nat) (clr : Bool) (xs : List (Line × Bool)) (s : State) : EngTry :=
  let n := linesFor len (lineElems ty)
  let ws := xs.drop n
  let cs := (List.range outs).flatMap (fun o => intDot ty len (xs.take n) ((ws.drop (o * n)).take n) blk o)
  placeDot l seq blk (blocksFor outs) clr cs (.widot a b blk len outs ty clr) s (noteCells l ty xs s)

/-- acc + x * w: the product exact, the sum rounded once (04 R126). A finite product leaves an infinite or NaN sum as it is. -/
def fmaExact (acc : F32) (x w : FV) : F32 :=
  match decode32 acc, x, w with
  | .fin n m e, .fin _ _ _, .fin _ _ _ =>
    let p := Dy.mul x.dy w.dy
    let t := Dy.add (FV.fin n m e).dy p
    if t.m = 0 then (if p.m = 0 then (if (x.neg != w.neg) && n then 0x80000000#32 else 0) else 0) else F32.ofDy t
  | _, .fin _ _ _, .fin _ _ _ => fadd acc 0
  | _, _, _ => fadd acc (productSign x w)
where
  /-- A product with an infinity or NaN among its factors. -/
  productSign (x w : FV) : F32 := fmul (unitOf x) (unitOf w)
  /-- ±1 or ±0 for a finite value, which is all that its product with an infinity or a NaN depends on. -/
  unitOf (v : FV) : F32 :=
    match v with
    | .fin n m _ => if m = 0 then (if n then 0x80000000#32 else 0) else if n then 0xBF800000#32 else 0x3F800000#32
    | v => toF32 v

def floatDot (ty len : Nat) (xs ws : List (Line × Bool)) : F32 × Bool :=
  (List.range len).foldl (fun r n =>
    let x := elemOf 6 xs n
    let w := elemOf ty ws n
    (fmaExact r.1 x.1 w.1, r.2 || x.2 || w.2)) (0, false)

/-- WFDOT on the lines of A and B (06 Table 6-3). -/
def runWfdot (l seq a b d len outs ty : Nat) (clr lines : Bool) (xs : List (Line × Bool)) (s : State) : EngTry :=
  let n := linesFor len (lineElems ty)
  let k := linesFor len 34
  let ws := xs.drop k
  let rs := (List.range outs).map (fun o => floatDot ty len (xs.take k) ((ws.drop (o * n)).take n))
  let s1 := noteCells l ty ws s
  if lines then .more (.emit d (resultLines (packVec false rs).1 7)) s1
  else placeDot l seq d (blocksFor outs) clr ((rs.zip (List.range outs)).map (fun (r, o) => contrOf32 (d + o / 32) (o % 32) r.1 r.2))
    (.wfdot a b d len outs ty clr lines) s s1

/-! ## Vector unit -/

/-- Result lines of n elements written out, NaNs of a conversion to BF16 counted. -/
def vecResult (l d : Nat) (bf : Bool) (rs : List (F32 × Bool)) (s : State) : EngTry :=
  let (xs, nans) := packVec bf rs
  .more (.emit d (resultLines xs (vecTy bf))) (countL s l 0x28 nans)

/-- WVB on the lines of A, of B and, for a fused multiply-add, of D (06 Table 6-2). -/
def runWvb (l fn d n : Nat) (bi bo : Bool) (xs : List (Line × Bool)) (s : State) : EngTry :=
  let k := linesFor n (lineElems (vecTy bi))
  vecResult l d bo ((List.range n).map (fun i =>
    let x := vecElem bi xs i
    let y := vecElem bi (xs.drop k) i
    let z := if fn = 2 then vecElem bo (xs.drop (2 * k)) i else (0, false)
    let r := match fn with
      | 0 => fadd x.1 y.1
      | 1 => fmul x.1 y.1
      | 2 => ffma x.1 y.1 z.1
      | 3 => fmax x.1 y.1
      | _ => fmin x.1 y.1
    (r, x.2 || y.2 || z.2))) s

/-- WVU on the lines of A (06 Table 6-2). -/
def runWvu (l fn d n : Nat) (bi bo : Bool) (xs : List (Line × Bool)) (s : State) : EngTry :=
  let vs := (List.range n).map (vecElem bi xs)
  let s := if fn = 3 ∧ bo = false then countL s l 0x28 (vs.filter (fun v => fisNan v.1)).length else s
  vecResult l d bo (vs.map (fun v =>
    (match fn with
     | 0 => fexp v.1
     | 1 => fdiv 0x3F800000#32 v.1
     | 2 => frsqrt v.1
     | _ => toF32 (decode32 v.1), v.2))) s

/-- Exact sum of squares, rounded once (05 R162). -/
def fsumSquares (xs : List F32) : F32 :=
  if xs.any (fun x => match decode32 x with | .fin _ _ _ => false | _ => true)
  then xs.foldl (fun r x => fadd r (fmul x x)) 0
  else F32.ofDy (xs.foldl (fun r x => r.add ((F32.dy x).mul (F32.dy x))) Dy.zero)

/-- WRED on the lines of A (06 Table 6-2). -/
def runWred (fn d n : Nat) (bi : Bool) (xs : List (Line × Bool)) (s : State) : EngTry :=
  let vs := (List.range n).map (vecElem bi xs)
  let fs := vs.map (·.1)
  let r := match fn with
    | 0 => fsumExact fs
    | 1 => fsumSquares fs
    | _ => (fs.drop 1).foldl fmax (fs.headD 0)
  .more (.emit d (resultLines [(line32 [r], vs.any (·.2))] 7)) s

/-! ## Softmax numerators (07 R221) -/

/-- Probabilities of one query: quantised cells of 16 INT8 elements with their poison, and the sum line. -/
def softmaxOf (floor : F32 × Bool) (ss : List (F32 × Bool)) : List (Cnv × Bool) × Line × Bool :=
  let m := (ss.map (·.1)).foldl fmax floor.1
  let bad := floor.2 || ss.any (·.2)
  let ps := ss.map (fun x => decode32 (fexp (fsub x.1 m)))
  let k := linesFor ps.length 16
  let pad := ps ++ List.replicate (16 * k - ps.length) (FV.fin false 0 0)
  let cells := (chunks 16 k pad).map (fun c => quantCell 2 c)
  let sum := cells.foldl (fun (t : Dy) c =>
    let sc := c.code / 2 ^ 128
    (List.range 16).foldl (fun (t : Dy) (i : Nat) => t.add ⟨signed 8 (c.code / 2 ^ (8 * i)), ((sc : Nat) : Int) - 127⟩) t) Dy.zero
  (cells.map (fun c => (c, bad)), line32 [F32.ofDy sum, m], bad)

/-- Four cells to a line, zeros past the last (cells past n hold zeros). -/
def cellLines (cells : List (Cnv × Bool)) : List (Line × Bool) :=
  (chunks 4 (linesFor cells.length 4) cells).map (fun c =>
    (BitVec.ofNat 544 (natOfDigits 136 (c.map (·.1.code))), c.any (·.2)))

/-- The result of WSMX is written: to lines, or to the probability buffer with room for all n. -/
def smxWrite (l d n : Nat) (toBuf : Bool) (op : EOp) (s0 s : State) (floor : F32 × Bool) (ss : List (F32 × Bool)) : EngTry :=
  let (cells, sumLine, bad) := softmaxOf floor ss
  let count := fun s => countL (countL s l 0x28 (sumOf (·.nans) cells)) l 0x29 (sumOf (·.sats) cells)
  if toBuf then
    if 4096 < (getL s l).probs.length + n then .wait 0x09 op s0
    else
      let q := (getL s l).probIn
      let es := (List.range n).map (fun t =>
        let c := (cells.getD (t / 16) (⟨0, 0, 0⟩, false))
        (q, t, signed 8 (c.1.code / 2 ^ (8 * (t % 16))), c.1.code / 2 ^ 128, bad))
      .more (.emit d (resultLines [(sumLine, bad)] 7)) (count (updL s l (fun L => { L with probs := L.probs ++ es, probIn := q + 1 })))
  else .more (.emit d (resultLines (cellLines cells) 2 ++ resultLines [(sumLine, bad)] 7)) (count s)
where
  /-- Sum of a count over cells. -/
  sumOf (f : Cnv → Nat) (cells : List (Cnv × Bool)) : Nat := (cells.map (fun c => f c.1)).sum

/-- The next n scores of the oldest query in the score buffer, and the rest; none while some are missing. -/
def takeScores (buf : List (Nat × F32 × Bool)) (n : Nat) : Option (List (F32 × Bool) × List (Nat × F32 × Bool)) :=
  match buf with
  | [] => none
  | (q, _, _) :: _ =>
    let mine := (buf.filter (fun e => e.1 == q)).take n
    if mine.length < n then none
    else some (mine.map (·.2), dropN q n buf)
where
  /-- buf without the first n entries of query q. -/
  dropN (q : Nat) : Nat → List (Nat × F32 × Bool) → List (Nat × F32 × Bool)
    | 0, l => l
    | _, [] => []
    | n + 1, e :: l => if e.1 == q then dropN q n l else e :: dropN q (n + 1) l

/-- WSMX on the lines of A, none where the scores come from the score buffer, and line B (06 Table 6-3). -/
def runWsmx (l a b d n : Nat) (fromBuf toBuf : Bool) (xs : List (Line × Bool)) (s : State) : EngTry :=
  let op := EOp.wsmx a b d n fromBuf toBuf
  if fromBuf then
    match takeScores (getL s l).scores n with
    | none => .wait 0x0F op s
    | some (ss, rest) => smxWrite l d n toBuf op s (updL s l (fun L => { L with scores := rest })) (vecElem false xs 0) ss
  else smxWrite l d n toBuf op s s (vecElem false (xs.drop (linesFor n 17)) 0) ((List.range n).map (vecElem false xs))

/-! ## Quantise, gather -/

/-- Values packed into lines of a type with their poison: result lines, NaNs and saturations counted. -/
def packResult (l d ty : Nat) (vs : List (FV × Bool)) (s : State) : EngTry :=
  let e := lineElems ty
  let ys := (chunks e (linesFor vs.length e) vs).map (fun c => (packLine ty (c.map (·.1)), c.any (·.2)))
  let s := countL s l 0x28 (ys.map (fun y => y.1.2.1)).sum
  let s := countL s l 0x29 (ys.map (fun y => y.1.2.2)).sum
  .more (.emit d (resultLines (ys.map (fun y => (y.1.1, y.2))) ty)) s

/-- WQNT on the lines of A. -/
def runWqnt (l d n ty : Nat) (xs : List (Line × Bool)) (s : State) : EngTry :=
  packResult l d ty ((List.range n).map (fun i => let v := vecElem false xs i; (decode32 v.1, v.2))) s

/-- WGTH: a row of the same format is copied; others are converted. -/
def runWgth (l d len fin fout : Nat) (xs : List (Line × Bool)) (s : State) : EngTry :=
  let s := noteCells l fin xs s
  if fin = fout then .more (.emit d (resultLines xs fout)) s
  else packResult l d fout ((List.range (len * lineElems fin)).map (elemOf fin xs)) s

/-! ## Top-k -/

/-- A candidate: its index, its value, its poison. -/
structure Cand where
  ix : BitVec 32
  val : F32
  bad : Bool
  deriving DecidableEq, Repr

def rankKey (x : F32) : F32 := if fisNan x then Config.nanRank x else x

/-- Does a come before b: poisoned first, then higher value, then lower index (05 R162, Table 5-7; 03 R109)? -/
def candBefore (a b : Cand) : Bool :=
  if a.bad != b.bad then a.bad
  else if flt (rankKey b.val) (rankKey a.val) then true
  else if flt (rankKey a.val) (rankKey b.val) then false
  else decide (a.ix < b.ix)

/-- Insert into a list of at most k candidates in order. -/
def candInsert (k : Nat) (c : Cand) (l : List Cand) : List Cand :=
  match k, l with
  | 0, _ => []
  | _, [] => [c]
  | k + 1, x :: xs => if candBefore c x then c :: (x :: xs).take k else x :: candInsert k c xs

def topK (k : Nat) (l : List Cand) : List Cand := l.foldl (fun r c => candInsert k c r) []

/-- WTOPK on the lines of A and of B (06 Table 6-3). -/
def runWtopk (d n k : Nat) (idx : Bool) (xs : List (Line × Bool)) (s : State) : EngTry :=
  let bs := xs.drop (linesFor n 17)
  let base : BitVec 32 := elem32 (nthLine bs 0).1 0
  let cs := (List.range n).map (fun i =>
    let v := vecElem false xs i
    let ix := if idx then elem32 (nthLine bs (i / 17)).1 (i % 17) else base + BitVec.ofNat 32 i
    let ib := if idx then (nthLine bs (i / 17)).2 else (nthLine bs 0).2
    Cand.mk ix v.1 (v.2 || ib))
  let r := topK k cs
  let bad := r.any (·.bad)
  let padded := (List.range k).map (fun i => match r[i]? with
    | some c => (c.ix, c.val)
    | none => Config.topkPad i)
  let lines := fun (vs : List F32) => (chunks 17 (linesFor k 17) vs).map (fun c => (line32 c, bad))
  .more (.emit d (resultLines (lines (padded.map (·.1))) 10 ++ resultLines (lines (padded.map (·.2))) 7)) s

/-! ## Sampling (09 R285) -/

/-- The draw for a position. -/
def drawAt (seed : BitVec 64) (pos : Nat) : F32 :=
  let x := seed + BitVec.ofNat 64 (pos + 1) * 0x9E3779B97F4A7C15#64
  let x := (x ^^^ (x >>> 30)) * 0xBF58476D1CE4E5B9#64
  let x := (x ^^^ (x >>> 27)) * 0x94D049BB133111EB#64
  let x := x ^^^ (x >>> 31)
  F32.ofDy ⟨((x >>> 40).toNat : Int), -24⟩

/-- Sum of the first m of ps, exact, rounded once. -/
def sumTo (ps : List F32) (m : Nat) : F32 := fsumExact (ps.take m)

/-- Smallest m from 1 to n whose sum test holds; n when none does. -/
def firstSum (ps : List F32) (test : F32 → Bool) (n : Nat) : Nat :=
  match (List.range n).find? (fun i => test (sumTo ps (i + 1))) with
  | some i => i + 1
  | none => n

/-- Token and log-probability sampled from a shortlist, in FP32 (09 R285). -/
def sampleToken (sample : Bool) (temp : F32) (topk : Nat) (topp : F32) (seed : BitVec 64) (pos : Nat) (cs : List Cand) : BitVec 32 × Nat × Nat :=
  let inv := if sample then fdiv 0x3F800000#32 temp else 0x3F800000#32
  let zs := cs.map (fun c => fmul c.val inv)
  let z0 := zs.headD 0
  let ps := zs.map (fun z => fexp (fsub z z0))
  let tot := fsumExact ps
  let n := if topk = 0 ∨ ps.length < topk then ps.length else topk
  let zk := sumTo ps n
  let lim := fmul topp zk
  let m := firstSum ps (fun x => !flt x lim) n
  let u := fmul (drawAt seed pos) (sumTo ps m)
  let j := if sample then firstSum ps (fun x => flt u x) m - 1 else 0
  let lp := cnvFP16 (decode32 (fln (fdiv (ps.getD j 0) tot)))
  ((cs.getD j ⟨0, 0, false⟩).ix, lp.code, lp.nans)

/-- The shortlist ordered by logit, ties to the lower id. -/
def shortlist (k : Nat) (ids vals : List (Line × Bool)) : List Cand :=
  topK k ((List.range k).map (fun i => ⟨elem32 (nthLine ids (i / 17)).1 (i % 17), elem32 (nthLine vals (i / 17)).1 (i % 17), false⟩))

/-- A shortlist-margin event (03 R112): the highest of the 64 rescored logits exceeds their lowest stage-1 logit, which no operand carries, by less than the head margin. A negative excess counts (DESIGN CHOICE, log 51). -/
def marginEvent (margin : F32) (k : Nat) (vals : List (Line × Bool)) : Bool :=
  let vs := (List.range (min k 64)).map (fun i => elem32 (nthLine vals (i / 17)).1 (i % 17))
  flt (fsub ((vs.drop 1).foldl fmax (vs.headD 0)) (Config.stageOneLow (vals.map (·.1)))) margin

/-- Head margin of the program that lantern l runs (03 R112; 06 R170). -/
def headMargin (s : State) (l : Nat) : F32 :=
  match (getPart s ((partOf s l).getD 16)).bind (·.prog) with
  | some g => if g.margin &&& 0x7FFFFFFF#32 = 0 then 0x3F800000#32 else g.margin
  | none => 0x3F800000#32

/-- WSMP on the shortlist's lines and the request parameter line, which it has taken (06 Table 6-3). -/
def runWsmp (l b d k : Nat) (xs : List (Line × Bool)) (s : State) : EngTry :=
  let n := linesFor k 17
  let ids := xs.take n
  let vals := (xs.drop n).take n
  let par := nthLine xs (2 * n)
  let q := Config.wsmpParams par.1
  let bad := par.2 || ids.any (·.2) || vals.any (·.2)
  let (tok, lp, nans) := sampleToken q.1 q.2.1 q.2.2.1 q.2.2.2.1 q.2.2.2.2.1 q.2.2.2.2.2 (shortlist k ids vals)
  let line : Line := BitVec.ofNat 544 (tok.toNat + lp * 2 ^ 32 + (if bad then 2 ^ 48 else 0))
  let s := countL (countL s l 0x34 1) l 0x28 nans
  let s := if marginEvent (headMargin s l) k vals then countL s l 0x0F 1 else s
  let s := writePad s l b (Config.wsmpAdvance par.1) par.2 0xA
  .more (.emit d (resultLines [(line, bad)] 10)) s

end Sys2Proof.Machine
end

