-- ==== Sys2Proof/Machine/Engines.lean ====
section
/-! DEFINITION. The engines of a lantern: what the head of a queue does, and an engine running until it waits (05 R138, R139; 06 R192). -/

namespace Sys2Proof.Machine

/-- The lines an operation reads as operands before it does anything else, in order (06 Table 6-3): operand A, then B, then D; KEEP unless the table says TAKE. -/
def opReads : EOp → List LineRead
  | .aop p => if p.ready then [] else keepReads p.src (inputLines p.ifmt.val p.rows) (ifmtType p.ifmt.val)
  | .widot a b _ len o ty _ => let n := linesFor len (lineElems ty); keepReads a n ty ++ keepReads b (o * n) ty
  | .wfdot a b _ len o ty _ _ => keepReads a (linesFor len 34) 6 ++ keepReads b (o * linesFor len (lineElems ty)) ty
  | .wvb fn a b d n bi bo =>
    let k := linesFor n (lineElems (vecTy bi))
    keepReads a k (vecTy bi) ++ keepReads b k (vecTy bi) ++ (if fn = 2 then keepReads d (linesFor n (lineElems (vecTy bo))) (vecTy bo) else [])
  | .wvu _ a _ n bi _ => keepReads a (linesFor n (lineElems (vecTy bi))) (vecTy bi)
  | .wred _ a _ n bi => keepReads a (linesFor n (lineElems (vecTy bi))) (vecTy bi)
  | .wsmx a b _ n fb _ => (if fb then [] else keepReads a (linesFor n 17) 7) ++ keepReads b 1 7
  | .wqnt a _ n _ => keepReads a (linesFor n 17) 7
  | .wgth a _ r len fi _ => keepReads (a + r * len) len fi
  | .wtopk a b _ n _ ix => keepReads a (linesFor n 17) 7 ++ keepReads b (if ix then linesFor n 17 else 1) 10
  | .wsmp a b _ k => let n := linesFor k 17; keepReads a n 10 ++ keepReads (a + n) n 7 ++ [⟨b, true, none⟩]
  | .qld a _ n => keepReads a (2 * n) 2
  | .kapp a _ _ h bf => if bf then keepReads a (linesFor (h * 256) 34) 6 else keepReads a (linesFor (h * 256) 17) 7
  | .trd src _ st big i8 _ t => (strided src st (if big then 32 else 16)).map (fun a => ⟨a, t, some (if i8 then 2 else 1)⟩)
  | _ => []

/-- Array-issue port (02 R40, R43, R60; 06 R196): inputs aligned and clipped, then the bank's issue slot. -/
def runAop (l : Nat) (p : ArrayOp) (xs : List (Line × Bool)) (s : State) : EngTry :=
  let op := EOp.aop p
  if !p.ready then
    let (p1, cut, bads) := prepare (getL s l) p xs
    let s2 := countL (countL s l 0x0A (if cut then 1 else 0)) l 0x2B bads
    if (phasesOf p1).isEmpty then
      .more (.aop { p1 with charged := 0 }) (updL s2 l (fun L => { L with charge := L.charge - p1.charged }))
    else .more (.aop p1) s2
  else if governorHolds s (fieldOf l) then .wait 0x0D op s
  else if (getBank (getL s l) (p.phys / 8)).slot.isSome then .wait 0x05 op s
  else .done (updBank s l (p.phys / 8) (fun b => { b with slot := some p }))

/-- One attempt at the head entry of engine e of lantern l, its operand lines read. -/
def stepOp (l e : Nat) (x : EngEntry) (s : State) : EngTry :=
  match x.op with
  | .aop p => runAop l p x.got s
  | .aclr a n => runAclr l x.seq a n s
  | .ard a n line ty c => runArd l x.seq a n line ty c s
  | .aexp a n ent c => runAexp l x.seq a n ent c s
  | .aimp b n lane t => runAimp l x.seq ((getLane (getL s l) lane).buf.length + n + 1) b n lane t s
  | .widot a b k len o ty c => runWidot l x.seq a b k len o ty c x.got s
  | .wfdot a b d len o ty c ln => runWfdot l x.seq a b d len o ty c ln x.got s
  | .wvb fn _ _ d n bi bo => runWvb l fn d n bi bo x.got s
  | .wvu fn _ d n bi bo => runWvu l fn d n bi bo x.got s
  | .wred fn _ d n bi => runWred fn d n bi x.got s
  | .wsmx a b d n fb tb => runWsmx l a b d n fb tb x.got s
  | .wqnt _ d n ty => runWqnt l d n ty x.got s
  | .wgth _ d _ len fi fo => runWgth l d len fi fo x.got s
  | .wtopk _ _ d n k ix => runWtopk d n k ix x.got s
  | .wsmp _ b d k => runWsmp l b d k x.got s
  | .qld _ r _ => .done (loadQueries l r x.got s)
  | .ascr d g f first n h0 h i => startAscr l x.seq d g f first n h0 h i s
  | .aval d g f b first n h0 h c i => startAval l x.seq d g f b first n h0 h c i s
  | .kapp a d p h bf => runKapp l x.seq a d p h bf x.got s
  | .kmark d => runKmark l d s
  | .krew d => runKrew l d s
  | .krel d => runKrel l d s
  | .kwalk d f n => runKwalk l d f n s
  | .kxfr a d ent f n c => runKxfr l a d ent f n c s
  | .kxfrAck ent => .wait 0x04 (.kxfrAck ent) s
  | .copy src st n dst i t => runCopy l src st dst t i (n - i) s
  | .trd _ dst _ big i8 off _ => runTrd l dst big i8 off x.got s
  | .send src st n ent fmt i t => runSend l src st ent fmt n t i (n - i) s
  | .clr a n => .done (clearLines l a n s)
  | .recv q d n i => runRecv l q d i (n - i) s
  | .recvReg q sd => runRecvReg l q sd s
  | .qpeek q d r sd p => runPeek l q d r sd p s
  | .qmark q => runQmark l q s
  | .qrewind q => runQrewind l q s
  | .qrel q => runQrel l q s
  | .qstat q sd c => runQstat l q sd c s
  | .emit a xs => emitLines l xs a s
  | .inject ent fs =>
    match sendFlits l e ent fs s with
    | .done s => if e = 6 then .more (.kxfrAck ent) s else .done s
    | r => r

/-- The head entry of engine e replaced by what is left of it. -/
def setHead (s : State) (l e : Nat) (x : EngEntry) (wait since : Nat) : State :=
  updEng s l e (fun g => { q := x :: g.q.drop 1, wait := wait, since := since })

/-- The head entry of engine e done. -/
def popHead (s : State) (l e : Nat) : State := updEng s l e (fun g => { q := g.q.drop 1, wait := 0, since := 0 })

/-- Engine e of lantern l runs until its head waits or its queue is empty; n bounds the attempts. -/
def runEngine (l e : Nat) : Nat → State → State
  | 0, s => s
  | n + 1, s =>
    let s := if e = 6 then portWork l s else s
    let g := getEng (getL s l) e
    match g.q with
    | [] => s
    | x :: _ =>
      if e = 6 && !kvPortOpen (getL s l) then s else
      match gather l ((opReads x.op).drop x.got.length) s with
      | (s, xs, .empty) =>
        if g.wait = 0x01 ∧ xs = [] then s
        else setHead (waitEnded s l g.wait g.since) l e { x with got := x.got ++ xs } 0x01 (nowNs s)
      | (s, _, .hazard i) => popHead (trapAt (waitEnded s l g.wait g.since) l causeFormat i x.idx x.word) l e
      | (s, xs, .all) =>
        let x := { x with got := x.got ++ xs }
        match stepOp l e x s with
        | .done s => runEngine l e n (popHead (waitEnded s l g.wait g.since) l e)
        | .more op s => runEngine l e n (setHead (waitEnded s l g.wait g.since) l e { x with op := op, got := [] } 0 0)
        | .wait c op s =>
          if c = g.wait ∧ op = x.op then s
          else setHead (waitEnded s l g.wait g.since) l e { x with op := op } c (nowNs s)
        | .trap c d s => popHead (trapAt (waitEnded s l g.wait g.since) l c d x.idx x.word) l e

/-- Attempts one run makes: more than the instructions a queue holds, three to each. -/
def engineFuel : Nat := 64

/-- Engine e starts when it is not held on a wait. -/
def startEngine (l e : Nat) (s : State) : State :=
  if (getEng (getL s l) e).wait = 0 then runEngine l e engineFuel s else s

/-- Lantern l issues an engine instruction, and the engine starts on it. -/
def issueTo (l e : Nat) (i : Instr) (t : State → Try) (s : State) : State := startEngine l e (issue l i t s)

end Sys2Proof.Machine
end

