-- ==== Sys2Proof/Machine/Issue.lean ====
section
/-! DEFINITION. Engine instructions: the checks each makes at issue and the operation it hands to its engine (06 R178, R180, R182 to R185; 05 Table 5-1). -/

namespace Sys2Proof.Machine

/-! ## Array-issue port and accumulator port -/

/-- At-issue charge an AOP counts: none when its lines are full and every phase is skipped (06 R195). -/
def aopCharge (s : State) (l : Nat) (p : ArrayOp) : Nat :=
  let n := inputLines p.ifmt.val p.rows
  if padFull (getL s l) p.src n && (phasesOf (prepare (getL s l) p (peekLines (getL s l) p.src n)).1).isEmpty then 0 else issueCharge p.ifmt

/-- AOP (06 R182, R183; 02 R39, R60). -/
def tryAop (l : Nat) (f : FmtA) (s : State) : Try :=
  let L := getL s l
  match physOf L f.array.toNat with
  | none => .trap causeRange f.array.toNat s
  | some a =>
    let mode := (getArr L a).mode
    let d := tget (0, 0) L.odesc f.otd.toNat
    let rows := if f.otd = 0 then [] else (List.range d.2).map (fun i => (tget (0, false, 0) L.oent (d.1 + i)).2.2)
    let p : ArrayOp :=
      { seq := curSeq L, logical := f.array.toNat, phys := a, src := f.src.toNat, ifmt := f.ifmt.toFin, rows := f.rows.toNat + 1,
        acc := f.acc.toNat, set := f.set, clip := f.clip.toNat, otd := f.otd.toNat, ready := false, poison := false, scale := 0,
        amps := [], resid := [], charged := 0, temp := L.temp, drift := (getArr L a).drift }
    checked ([blockCheck p.acc (modeBlocks mode), lineCheck L p.src (inputLines p.ifmt.val p.rows)]
        ++ rows.map (fun x => lineCheck L x (digitalLines mode))) (fun s =>
      let c := aopCharge s l p
      if L.declared < L.charge + c then .trap causePower (Config.trapDetail (L.charge + c)) s
      else match pushOp l 0 (.aop { p with charged := c }) (.aop l f) s with
        | .done s => .done (countL (updL s l (fun L => { L with charge := L.charge + c })) l 0x04 1)
        | r => r) s

def tryAclr (l : Nat) (f : FmtK) (s : State) : Try :=
  checked [blockCheck f.acc.toNat (f.nb.toNat + 1)] (pushOp l 1 (.aclr f.acc.toNat (f.nb.toNat + 1)) (.aclr l f)) s
/-- ARD writes ceil(32 * NB / E) lines (06 R184). -/
def tryArd (l : Nat) (f : FmtK) (s : State) : Try :=
  let n := f.nb.toNat + 1
  let ty := f.typ.toNat
  checked [blockCheck f.acc.toNat n, lineCheck (getL s l) f.line.toNat (linesFor (32 * n) (lineElems ty))]
    (pushOp l 1 (.ard f.acc.toNat n f.line.toNat ty f.clr) (.ard l f)) s
def tryAexp (l : Nat) (f : FmtK) (s : State) : Try :=
  let n := f.nb.toNat + 1
  checked [blockCheck f.acc.toNat n] (pushOp l 1 (.aexp f.acc.toNat n f.ent.toNat f.clr) (.aexp l f)) s
def tryAimp (l : Nat) (f : FmtK) (s : State) : Try :=
  let n := f.nb.toNat + 1
  checked [blockCheck f.acc.toNat n] (pushOp l 1 (.aimp f.acc.toNat n f.ent.toNat 0) (.aimp l f)) s

/-! ## L format: OFS is added to every field named as a line (06 R178, Table 6-3) -/

/-- The SC register read once at issue. -/
def withSc (l : Nat) (f : FmtL) (t : Word → State → Try) (s : State) : Try :=
  withRegs l [f.sc] (fun s => t (getReg (getL s l) f.sc) s) s

def tryWidot (l : Nat) (f : FmtL) (s : State) : Try :=
  withSc l f (fun w s =>
    let L := getL s l
    let len := bitsAt w.toNat 0 32
    let outs := bitsAt w.toNat 32 7 + 1
    let ty := bitsAt w.toNat 39 4
    let a := f.a.toNat + scOfs w
    let b := f.b.toNat + scOfs w
    let n := linesFor len (lineElems ty)
    checked [scZero w 43, paramCheck w len 1 65536, paramCheck w outs 1 64, paramCheck w ty 0 2, lineCheck L a n, lineCheck L b (outs * n),
        blockCheck f.d.toNat (blocksFor outs)]
      (pushOp l 2 (.widot a b f.d.toNat len outs ty (f.f.getLsbD 0)) (.widot l f)) s) s

def tryWfdot (l : Nat) (f : FmtL) (s : State) : Try :=
  withSc l f (fun w s =>
    let L := getL s l
    let len := bitsAt w.toNat 0 32
    let outs := bitsAt w.toNat 32 7 + 1
    let ty := bitsAt w.toNat 39 4
    let a := f.a.toNat + scOfs w
    let b := f.b.toNat + scOfs w
    let ln := f.f.getLsbD 1
    let d := if ln then f.d.toNat + scOfs w else f.d.toNat
    let n := linesFor len (lineElems ty)
    checked [scZero w 43, paramCheck w len 1 65536, paramCheck w ty 4 6, lineCheck L a (linesFor len 34), lineCheck L b (outs * n),
        if ln then lineCheck L d (linesFor outs 17) else blockCheck d (blocksFor outs)]
      (pushOp l 2 (.wfdot a b d len outs ty (f.f.getLsbD 0) ln) (.wfdot l f)) s) s

def tryWvb (l : Nat) (f : FmtL) (s : State) : Try :=
  withSc l f (fun w s =>
    let L := getL s l
    let n := bitsAt w.toNat 0 32
    let bi := w.getLsbD 32
    let bo := w.getLsbD 33
    let a := f.a.toNat + scOfs w
    let b := f.b.toNat + scOfs w
    let d := f.d.toNat + scOfs w
    let k := linesFor n (lineElems (vecTy bi))
    checked [scZero w 34, paramCheck w n 1 65536, lineCheck L a k, lineCheck L b k, lineCheck L d (linesFor n (lineElems (vecTy bo)))]
      (pushOp l 2 (.wvb f.f.toNat a b d n bi bo) (.wvb l f)) s) s

def tryWvu (l : Nat) (f : FmtL) (s : State) : Try :=
  withSc l f (fun w s =>
    let L := getL s l
    let n := bitsAt w.toNat 0 32
    let bi := w.getLsbD 32
    let bo := w.getLsbD 33
    let a := f.a.toNat + scOfs w
    let d := f.d.toNat + scOfs w
    checked [scZero w 34, paramCheck w n 1 65536, lineCheck L a (linesFor n (lineElems (vecTy bi))),
        lineCheck L d (linesFor n (lineElems (vecTy bo)))]
      (pushOp l 2 (.wvu f.f.toNat a d n bi bo) (.wvu l f)) s) s

def tryWred (l : Nat) (f : FmtL) (s : State) : Try :=
  withSc l f (fun w s =>
    let L := getL s l
    let n := bitsAt w.toNat 0 32
    let bi := w.getLsbD 32
    let a := f.a.toNat + scOfs w
    let d := f.d.toNat + scOfs w
    checked [scZero w 33, paramCheck w n 1 65536, lineCheck L a (linesFor n (lineElems (vecTy bi))), lineCheck L d 1]
      (pushOp l 2 (.wred f.f.toNat a d n bi) (.wred l f)) s) s

def tryWsmx (l : Nat) (f : FmtL) (s : State) : Try :=
  withSc l f (fun w s =>
    let L := getL s l
    let n := bitsAt w.toNat 0 32
    let fb := f.f.getLsbD 0
    let tb := f.f.getLsbD 1
    let a := f.a.toNat + scOfs w
    let b := f.b.toNat + scOfs w
    let d := f.d.toNat + scOfs w
    checked [scZero w 32, paramCheck w n 1 4096, if fb then (true, 0) else lineCheck L a (linesFor n 17), lineCheck L b 1,
        lineCheck L d (if tb then 1 else linesFor n 64 + 1)]
      (pushOp l 2 (.wsmx (if fb then 0 else a) b d n fb tb) (.wsmx l f)) s) s

def tryWqnt (l : Nat) (f : FmtL) (s : State) : Try :=
  withSc l f (fun w s =>
    let L := getL s l
    let n := bitsAt w.toNat 0 32
    let ty := bitsAt w.toNat 32 4
    let a := f.a.toNat + scOfs w
    let d := f.d.toNat + scOfs w
    checked [scZero w 36, paramCheck w n 1 65536, paramCheck w ty 0 5, lineCheck L a (linesFor n 17), lineCheck L d (linesFor n (lineElems ty))]
      (pushOp l 2 (.wqnt a d n ty) (.wqnt l f)) s) s

def tryWgth (l : Nat) (f : FmtL) (s : State) : Try :=
  withSc l f (fun w s =>
    let L := getL s l
    let r := bitsAt w.toNat 0 32
    let len := bitsAt w.toNat 32 8
    let fi := bitsAt w.toNat 40 4
    let fo := bitsAt w.toNat 44 4
    let a := f.a.toNat + scOfs w
    let d := f.d.toNat + scOfs w
    let out := if fi = fo then len else linesFor (len * lineElems fi) (lineElems fo)
    checked [paramCheck w len 1 255, paramCheck w fi 0 7, paramCheck w fo 0 7, lineCheck L (a + r * len) len, lineCheck L d out]
      (pushOp l 2 (.wgth a d r len fi fo) (.wgth l f)) s) s

def tryWtopk (l : Nat) (f : FmtL) (s : State) : Try :=
  withSc l f (fun w s =>
    let L := getL s l
    let n := bitsAt w.toNat 0 32
    let k := bitsAt w.toNat 32 9
    let ix := f.f.getLsbD 0
    let a := f.a.toNat + scOfs w
    let b := f.b.toNat + scOfs w
    let d := f.d.toNat + scOfs w
    checked [scZero w 41, paramCheck w n 1 65536, paramCheck w k 1 256, lineCheck L a (linesFor n 17),
        lineCheck L b (if ix then linesFor n 17 else 1), lineCheck L d (2 * linesFor k 17)]
      (pushOp l 2 (.wtopk a b d n k ix) (.wtopk l f)) s) s

def tryWsmp (l : Nat) (f : FmtL) (s : State) : Try :=
  withSc l f (fun w s =>
    let L := getL s l
    let k := bitsAt w.toNat 0 9
    let a := f.a.toNat + scOfs w
    let b := f.b.toNat + scOfs w
    let d := f.d.toNat + scOfs w
    checked [scZero w 9, paramCheck w k 1 256, lineCheck L a (2 * linesFor k 17), lineCheck L b 1, lineCheck L d 1]
      (pushOp l 2 (.wsmp a b d k) (.wsmp l f)) s) s

/-! ## Attention unit -/

def tryQld (l : Nat) (f : FmtL) (s : State) : Try :=
  withSc l f (fun w s =>
    let n := bitsAt w.toNat 0 7
    let a := f.a.toNat + scOfs w
    checked [scZero w 7, paramCheck w n 1 64, paramCheck w (f.d.toNat + n) 1 64, lineCheck (getL s l) a (2 * n)]
      (pushOp l 3 (.qld a f.d.toNat n) (.qld l f)) s) s

/-- What ASCR and AVAL name: G, first register, first token, N, h0, H (06 Table 6-3). -/
structure Phase3 where
  g : Nat
  reg : Nat
  first : Nat
  n : Nat
  h0 : Nat
  h : Nat
  deriving DecidableEq, Repr

def phaseArgs (b : BitVec 16) (w : Word) : Phase3 :=
  ⟨bitsAt b.toNat 0 6 + 1, bitsAt b.toNat 6 6, bitsAt w.toNat 0 20, bitsAt w.toNat 20 12 + 1, bitsAt w.toNat 32 4, bitsAt w.toNat 36 4 + 1⟩

/-- The descriptor lies in the region and is ACTIVE; the detail is its line (07 R206). -/
def descCheck (L : Lantern) (d : Nat) : Bool × Nat := (descOk L d, d)

/-- Checks of a phase (07 R206, R220; 06 Table 6-3). -/
def phaseChecks (L : Lantern) (d : Nat) (w : Word) (p : Phase3) : List (Bool × Nat) :=
  [scZero w 40, lineCheck' d, descCheck L d, paramCheck w (p.reg + p.g * p.h) 0 64, (decide (p.first + p.n ≤ (countAhead L d).1), d),
   (decide (p.h0 + p.h ≤ (descAt L d).hloc), d)]
where
  /-- The line exists. -/
  lineCheck' (d : Nat) : Bool × Nat := (decide (d < 65536), d)

/-- An instruction that names a descriptor goes to its engine: the descriptor is read once (07 R204). -/
def pushDesc (l e d : Nat) (op : EOp) (i : Instr) (s : State) : Try :=
  match pushOp l e op i s with
  | .done s => .done (tableRead s l d)
  | r => r

def tryAscr (l : Nat) (f : FmtL) (s : State) : Try :=
  withSc l f (fun w s =>
    let d := f.a.toNat + scOfs w
    let p := phaseArgs f.b w
    checked (phaseChecks (getL s l) d w p) (pushDesc l 3 d (.ascr d p.g p.reg p.first p.n p.h0 p.h 0) (.ascr l f)) s) s

def tryAval (l : Nat) (f : FmtL) (s : State) : Try :=
  withSc l f (fun w s =>
    let d := f.a.toNat + scOfs w
    let p := phaseArgs f.b w
    checked (phaseChecks (getL s l) d w p ++ [blockCheck f.d.toNat (4 * p.g * p.h)])
      (pushDesc l 3 d (.aval d p.g p.reg f.d.toNat p.first p.n p.h0 p.h (f.f.getLsbD 0) 0) (.aval l f)) s) s

/-! ## KV port -/

/-- KAPP (07 R206, R212). -/
def tryKapp (l : Nat) (f : FmtL) (s : State) : Try :=
  withSc l f (fun w s =>
    let L := getL s l
    let a := f.a.toNat + scOfs w
    let d := f.b.toNat + scOfs w
    let pos := bitsAt w.toNat 0 20
    let heads := bitsAt w.toNat 20 4 + 1
    let bf := w.getLsbD 24
    let k := descAt L d
    let i := (countAhead L d).1
    checked [scZero w 25, descCheck L d, (localIndex k pos == some i, d), (decide (i / pageDepth k < k.pages), d), (heads == k.hloc, d),
        lineCheck L a (linesFor (k.hloc * 256) (if bf then 34 else 17))]
      (pushDesc l 6 d (.kapp a d pos heads bf) (.kapp l f)) s) s

/-- KMARK, KREW and KREL name a descriptor only. -/
def tryDesc (l : Nat) (f : FmtL) (op : Nat → EOp) (i : Instr) (s : State) : Try :=
  withSc l f (fun w s =>
    let d := f.b.toNat + scOfs w
    checked [scZero w 0, descCheck (getL s l) d] (pushDesc l 6 d (op d) i) s) s
def tryKmark (l : Nat) (f : FmtL) (s : State) : Try := tryDesc l f .kmark (.kmark l f) s
def tryKrew (l : Nat) (f : FmtL) (s : State) : Try := tryDesc l f .krew (.krew l f) s
def tryKrel (l : Nat) (f : FmtL) (s : State) : Try := tryDesc l f .krel (.krel l f) s

def tryKwalk (l : Nat) (f : FmtL) (s : State) : Try :=
  withSc l f (fun w s =>
    let d := f.b.toNat + scOfs w
    checked [scZero w 32, descCheck (getL s l) d] (pushDesc l 6 d (.kwalk d (bitsAt w.toNat 0 20) (bitsAt w.toNat 20 12 + 1)) (.kwalk l f)) s) s

/-- KXFR (07 R206, R214, R216). -/
def tryKxfr (l : Nat) (f : FmtL) (s : State) : Try :=
  withSc l f (fun w s =>
    let L := getL s l
    let d := f.b.toNat + scOfs w
    let first := bitsAt w.toNat 0 20
    let n := bitsAt w.toNat 20 12 + 1
    let cp := f.f == 1
    let a := if cp then f.a.toNat + scOfs w else 0
    let k := descAt L d
    checked [scZero w 32, descCheck L d, (decide (first + n ≤ (countAhead L d).1), d),
        if cp then lineCheck L a (n * (2 * k.w * k.hloc)) else (true, 0)]
      (pushDesc l 6 d (.kxfr a d (if cp then 0 else f.d.toNat) first n cp) (.kxfr l f)) s) s

/-! ## Send unit -/

def tryCopy (l : Nat) (f : FmtL) (s : State) : Try :=
  withSc l f (fun w s =>
    let L := getL s l
    let st := bitsAt w.toNat 0 12
    let n := bitsAt w.toNat 12 8 + 1
    let a := f.a.toNat + scOfs w
    let d := f.d.toNat + scOfs w
    checked [scZero w 20, paramCheck w st 1 4095, strideCheck L a st n, lineCheck L d n]
      (pushOp l 4 (.copy a st n d 0 (f.f.getLsbD 0)) (.copy l f)) s) s

/-- TRD (05 R150). -/
def tryTrd (l : Nat) (f : FmtL) (s : State) : Try :=
  withSc l f (fun w s =>
    let L := getL s l
    let st := bitsAt w.toNat 0 12
    let big := w.getLsbD 12
    let i8 := w.getLsbD 13
    let off := bitsAt w.toNat 14 7
    let r := if big then 32 else 16
    let a := f.a.toNat + scOfs w
    let d := f.d.toNat + scOfs w
    checked [scZero w 21, paramCheck w st 1 4095, (off % r == 0, scLow w), paramCheck w (off + r) 0 (if i8 then 64 else 128),
        strideCheck L a st r, lineCheck L d (r * r / (if i8 then 64 else 128))]
      (pushOp l 4 (.trd a d st big i8 off (f.f.getLsbD 0)) (.trd l f)) s) s

def trySend (l : Nat) (f : FmtL) (s : State) : Try :=
  withSc l f (fun w s =>
    let L := getL s l
    let st := bitsAt w.toNat 0 12
    let n := bitsAt w.toNat 12 8 + 1
    let a := f.a.toNat + scOfs w
    checked [scZero w 24, paramCheck w st 1 4095, strideCheck L a st n]
      (pushOp l 4 (.send a st n f.d.toNat (bitsAt w.toNat 20 4) 0 (f.f.getLsbD 0)) (.send l f)) s) s

def tryClr (l : Nat) (f : FmtL) (s : State) : Try :=
  withSc l f (fun w s =>
    let n := bitsAt w.toNat 0 16 + 1
    let d := f.d.toNat + scOfs w
    checked [scZero w 16, lineCheck (getL s l) d n] (pushOp l 4 (.clr d n) (.clr l f)) s) s

/-! ## Queue engine (05 Table 5-5) -/

def tryRecv (l : Nat) (f : FmtQ) (s : State) : Try :=
  if f.reg then withRegs l [f.sd] (pushReg l 5 f.sd (.recvReg f.qn.val f.sd) (.recv l f)) s
  else checked [lineCheck (getL s l) f.line.toNat (f.n.toNat + 1)] (pushOp l 5 (.recv f.qn.val f.line.toNat (f.n.toNat + 1) 0) (.recv l f)) s

/-- QPEEK and QPOP: one line to LINE, or to SD. -/
def tryPeek (l : Nat) (f : FmtQ) (pop : Bool) (i : Instr) (s : State) : Try :=
  let op := EOp.qpeek f.qn.val f.line.toNat f.reg f.sd pop
  if f.reg then withRegs l [f.sd] (pushReg l 5 f.sd op i) s
  else checked [lineCheck (getL s l) f.line.toNat 1] (pushOp l 5 op i) s
def tryQpeek (l : Nat) (f : FmtQ) (s : State) : Try := tryPeek l f false (.qpeek l f) s
def tryQpop (l : Nat) (f : FmtQ) (s : State) : Try := tryPeek l f true (.qpop l f) s
def tryQmark (l : Nat) (f : FmtQ) (s : State) : Try := pushOp l 5 (.qmark f.qn.val) (.qmark l f) s
def tryQrewind (l : Nat) (f : FmtQ) (s : State) : Try := pushOp l 5 (.qrewind f.qn.val) (.qrewind l f) s
def tryQrel (l : Nat) (f : FmtQ) (s : State) : Try := pushOp l 5 (.qrel f.qn.val) (.qrel l f) s
def tryQstat (l : Nat) (f : FmtQ) (s : State) : Try :=
  withRegs l [f.sd] (pushReg l 5 f.sd (.qstat f.qn.val f.sd f.clr) (.qstat l f)) s

end Sys2Proof.Machine
end

