-- ==== Sys2Proof/Machine/EngineInstr.lean ====
section
/-! DEFINITION. Engine instructions as commands: lantern l issues one and its engine starts on it (06 Table 6-2). -/

namespace Sys2Proof.Machine

/-- Array operation (R182; 02 R42). 06 Table 6-2. -/
def execAop (l : Nat) (f : FmtA) (s : State) : Out :=
  guarded (lanternOk l) (issueTo l 0 (.aop l f) (tryAop l f) s)
/-- Clear blocks. 06 Table 6-2. -/
def execAclr (l : Nat) (f : FmtK) (s : State) : Out :=
  guarded (lanternOk l) (issueTo l 1 (.aclr l f) (tryAclr l f) s)
/-- Read blocks out (R184). 06 Table 6-2. -/
def execArd (l : Nat) (f : FmtK) (s : State) : Out :=
  guarded (lanternOk l) (issueTo l 1 (.ard l f) (tryArd l f) s)
/-- Export blocks (R185). 06 Table 6-2. -/
def execAexp (l : Nat) (f : FmtK) (s : State) : Out :=
  guarded (lanternOk l) (issueTo l 1 (.aexp l f) (tryAexp l f) s)
/-- Import blocks (R185). 06 Table 6-2. -/
def execAimp (l : Nat) (f : FmtK) (s : State) : Out :=
  guarded (lanternOk l) (issueTo l 1 (.aimp l f) (tryAimp l f) s)
/-- Integer dot products. 06 Table 6-2. -/
def execWidot (l : Nat) (f : FmtL) (s : State) : Out :=
  guarded (lanternOk l) (issueTo l 2 (.widot l f) (tryWidot l f) s)
/-- Float dot products. 06 Table 6-2. -/
def execWfdot (l : Nat) (f : FmtL) (s : State) : Out :=
  guarded (lanternOk l) (issueTo l 2 (.wfdot l f) (tryWfdot l f) s)
/-- Elementwise on two inputs. 06 Table 6-2. -/
def execWvb (l : Nat) (f : FmtL) (s : State) : Out :=
  guarded (lanternOk l) (issueTo l 2 (.wvb l f) (tryWvb l f) s)
/-- Elementwise on one input. 06 Table 6-2. -/
def execWvu (l : Nat) (f : FmtL) (s : State) : Out :=
  guarded (lanternOk l) (issueTo l 2 (.wvu l f) (tryWvu l f) s)
/-- Reduction. 06 Table 6-2. -/
def execWred (l : Nat) (f : FmtL) (s : State) : Out :=
  guarded (lanternOk l) (issueTo l 2 (.wred l f) (tryWred l f) s)
/-- Softmax numerators (07 R221). 06 Table 6-2. -/
def execWsmx (l : Nat) (f : FmtL) (s : State) : Out :=
  guarded (lanternOk l) (issueTo l 2 (.wsmx l f) (tryWsmx l f) s)
/-- Quantise (04 R125). 06 Table 6-2. -/
def execWqnt (l : Nat) (f : FmtL) (s : State) : Out :=
  guarded (lanternOk l) (issueTo l 2 (.wqnt l f) (tryWqnt l f) s)
/-- Gather one table row. 06 Table 6-2. -/
def execWgth (l : Nat) (f : FmtL) (s : State) : Out :=
  guarded (lanternOk l) (issueTo l 2 (.wgth l f) (tryWgth l f) s)
/-- Select the S highest values. 06 Table 6-2. -/
def execWtopk (l : Nat) (f : FmtL) (s : State) : Out :=
  guarded (lanternOk l) (issueTo l 2 (.wtopk l f) (tryWtopk l f) s)
/-- Sample one token (09 R285). 06 Table 6-2. -/
def execWsmp (l : Nat) (f : FmtL) (s : State) : Out :=
  guarded (lanternOk l) (issueTo l 2 (.wsmp l f) (tryWsmp l f) s)
/-- Load query registers (05 R166). 06 Table 6-2. -/
def execQld (l : Nat) (f : FmtL) (s : State) : Out :=
  guarded (lanternOk l) (issueTo l 3 (.qld l f) (tryQld l f) s)
/-- Score phase (05 R167). 06 Table 6-2. -/
def execAscr (l : Nat) (f : FmtL) (s : State) : Out :=
  guarded (lanternOk l) (issueTo l 3 (.ascr l f) (tryAscr l f) s)
/-- Value phase (05 R168). 06 Table 6-2. -/
def execAval (l : Nat) (f : FmtL) (s : State) : Out :=
  guarded (lanternOk l) (issueTo l 3 (.aval l f) (tryAval l f) s)
/-- Append keys and values of one position (07 R212, R213). 06 Table 6-2. -/
def execKapp (l : Nat) (f : FmtL) (s : State) : Out :=
  guarded (lanternOk l) (issueTo l 6 (.kapp l f) (tryKapp l f) s)
/-- Mark the append point (07 R214). 06 Table 6-2. -/
def execKmark (l : Nat) (f : FmtL) (s : State) : Out :=
  guarded (lanternOk l) (issueTo l 6 (.kmark l f) (tryKmark l f) s)
/-- Rewind to the mark (07 R214). 06 Table 6-2. -/
def execKrew (l : Nat) (f : FmtL) (s : State) : Out :=
  guarded (lanternOk l) (issueTo l 6 (.krew l f) (tryKrew l f) s)
/-- Release up to the append point (07 R214). 06 Table 6-2. -/
def execKrel (l : Nat) (f : FmtL) (s : State) : Out :=
  guarded (lanternOk l) (issueTo l 6 (.krel l f) (tryKrel l f) s)
/-- Resolve page-table entries ahead of use (07 R211). 06 Table 6-2. -/
def execKwalk (l : Nat) (f : FmtL) (s : State) : Out :=
  guarded (lanternOk l) (issueTo l 6 (.kwalk l f) (tryKwalk l f) s)
/-- Move cache lines (07 R216). 06 Table 6-2. -/
def execKxfr (l : Nat) (f : FmtL) (s : State) : Out :=
  guarded (lanternOk l) (issueTo l 6 (.kxfr l f) (tryKxfr l f) s)
/-- Copy lines. 06 Table 6-2. -/
def execCopy (l : Nat) (f : FmtL) (s : State) : Out :=
  guarded (lanternOk l) (issueTo l 4 (.copy l f) (tryCopy l f) s)
/-- Transposed read (05 R150). 06 Table 6-2. -/
def execTrd (l : Nat) (f : FmtL) (s : State) : Out :=
  guarded (lanternOk l) (issueTo l 4 (.trd l f) (tryTrd l f) s)
/-- Send lines through a sluice entry. 06 Table 6-2. -/
def execSend (l : Nat) (f : FmtL) (s : State) : Out :=
  guarded (lanternOk l) (issueTo l 4 (.send l f) (trySend l f) s)
/-- Clear lines. 06 Table 6-2. -/
def execClr (l : Nat) (f : FmtL) (s : State) : Out :=
  guarded (lanternOk l) (issueTo l 4 (.clr l f) (tryClr l f) s)
/-- Deliver N lines of the queue. 06 Table 6-2. -/
def execRecv (l : Nat) (f : FmtQ) (s : State) : Out :=
  guarded (lanternOk l) (issueTo l 5 (.recv l f) (tryRecv l f) s)
/-- Deliver the head line. 06 Table 6-2. -/
def execQpeek (l : Nat) (f : FmtQ) (s : State) : Out :=
  guarded (lanternOk l) (issueTo l 5 (.qpeek l f) (tryQpeek l f) s)
/-- Deliver and take the head line. 06 Table 6-2. -/
def execQpop (l : Nat) (f : FmtQ) (s : State) : Out :=
  guarded (lanternOk l) (issueTo l 5 (.qpop l f) (tryQpop l f) s)
/-- Mark the read point. 06 Table 6-2. -/
def execQmark (l : Nat) (f : FmtQ) (s : State) : Out :=
  guarded (lanternOk l) (issueTo l 5 (.qmark l f) (tryQmark l f) s)
/-- Rewind to the mark. 06 Table 6-2. -/
def execQrewind (l : Nat) (f : FmtQ) (s : State) : Out :=
  guarded (lanternOk l) (issueTo l 5 (.qrewind l f) (tryQrewind l f) s)
/-- Release the lines read. 06 Table 6-2. -/
def execQrel (l : Nat) (f : FmtQ) (s : State) : Out :=
  guarded (lanternOk l) (issueTo l 5 (.qrel l f) (tryQrel l f) s)
/-- Write the status word of the queue. 06 Table 6-2. -/
def execQstat (l : Nat) (f : FmtQ) (s : State) : Out :=
  guarded (lanternOk l) (issueTo l 5 (.qstat l f) (tryQstat l f) s)

end Sys2Proof.Machine
end

