-- ==== Sys2Proof/Machine/Commands.lean ====
section
/-! DEFINITION. Taking a Prafer command: when one is fetched, who may issue it, which field fails first, where its data goes, its completion (09 R261 to R275). -/

namespace Sys2Proof.Machine

/-! ## Answers (09 R271, Table 9-3) -/

/-- What a command completes with. -/
structure Answer where
  status : Nat
  result : Nat := 0
  detail : Nat := 0
  deriving DecidableEq, Repr

/-- A command's effect: the state, and its answer unless it completes later. -/
abbrev Done := State × Option Answer

def done (s : State) : Done := (s, some { status := stSuccess })
def doneWith (r : Nat) (s : State) : Done := (s, some { status := stSuccess, result := r })
def fails (st : Nat) (s : State) : Done := (s, some { status := st })
/-- INVALID_FIELD at a byte of the entry. -/
def failsField (off : Nat) (s : State) : Done := (s, some { status := stField, detail := off })
/-- INVALID_FIELD at a byte of the data. -/
def failsData (off : Nat) (s : State) : Done := (s, some { status := stField, detail := 2 ^ 31 + off })
/-- The command completes later. -/
def later (s : State) : Done := (s, none)

def complOf (e : Entry) (sqhd : Nat) (a : Answer) : Completion :=
  ⟨BitVec.ofNat 128 a.result, BitVec.ofNat 32 a.detail, sqhd, e.sqid, e.cid, BitVec.ofNat 8 a.status, none⟩

/-! ## Fetching (R264 to R266) -/

/-- Has a queue pair an entry that module firmware can fetch? A control processor runs (11 R350), READY, EN, no HOLD, the link up, an entry waiting. -/
def queueWaits (s : State) (fn : Fn) (n : Nat) : Bool :=
  match getQp s fn n with
  | some q => !q.deleting && q.sqHead != q.sqTail && !s.boot.hold && s.boot.ready && firmwareUp s && (getFn s fn).en && (getLink s fn.port).up
  | none => false

/-- Place of a queue pair in the round of visits: functions in order, then queues (R266; log 55). -/
def queueKey (fn : Fn) (n : Nat) : Nat := fnIx fn * 64 + n
/-- Visits from the last one until place k. -/
def visitsTo (s : State) (k : Nat) : Nat := (k + 34 * 64 - s.visit - 1) % (34 * 64)
/-- Places of every queue pair with an entry to fetch. -/
def waitingQueues (s : State) : List Nat :=
  s.funcs.flatMap (fun f => (f.2.qps.filter (fun q => queueWaits s (fnOfIx f.1) q.1)).map (fun q => queueKey (fnOfIx f.1) q.1))

/-- Does module firmware fetch from this queue now: has it an entry, and does its turn come before every other queue's that has one (R266)? -/
def canTake (s : State) (e : Entry) : Bool :=
  queueWaits s e.fn e.sqid && (waitingQueues s).all (fun k => decide (visitsTo s (queueKey e.fn e.sqid) ≤ visitsTo s k))

/-- Submission head after one more entry is fetched. -/
def nextHead (q : Qp) : Nat := if q.sqHead + 1 = q.sqSize then 0 else q.sqHead + 1

/-- An entry is fetched and the command carried out; the completion follows its effects (R266, R267). -/
def takeCmd (e : Entry) (body : Nat → State → Done) (s : State) : State :=
  match getQp s e.fn e.sqid with
  | none => s
  | some q =>
    if !canTake s e then s else
    let h := nextHead q
    let (s, a) := body h (setQp { s with visit := queueKey e.fn e.sqid } e.fn e.sqid (some { q with sqHead := h, busy := q.busy + 1 }))
    match a with
    | some a => postPlain s e.fn (complOf e h a)
    | none => s

/-- A command that waits in its queue: the visit goes by (log 55). -/
def passBy (e : Entry) (s : State) : State := if canTake s e then { s with visit := queueKey e.fn e.sqid } else s

/-- The same for a command that needs the Lamplighter or changes routes: it waits while the Lamplighter restarts (11 R357). -/
def takeLamp (e : Entry) (body : Nat → State → Done) (s : State) : State := if s.sec.restarting then passBy e s else takeCmd e body s

/-! ## The entry (R269, Table 9-2) -/

def partNo (e : Entry) : Nat := e.part.toNat
/-- n bytes of PARAMS from byte off of the entry on. -/
def pf (e : Entry) (off n : Nat) : Nat := fieldAt e.params (off - 20) n
/-- DLEN. -/
def dlenOf (e : Entry) : Nat := e.dlen.toNat

/-- Segments of host memory that the entry's data lies in: address, length. -/
def segsOf (e : Entry) : List (Nat × Nat) :=
  if e.flags.getLsbD 0 ∧ 0 < dlenOf e then e.list.map (fun d => (d.addr, d.len)) else [(e.dptr.toNat, dlenOf e)]

/-- The data descriptors keep R269. -/
def listOk (e : Entry) : Bool :=
  decide (1 ≤ e.list.length) && decide (e.list.length ≤ 4096) && e.list.all (fun d => d.addr % 64 == 0 && d.rsvd == 0)
    && e.list.dropLast.all (fun d => d.len % 64 == 0) && (e.list.map (·.len)).sum == dlenOf e

/-- DPTR names data as R269 says. -/
def dptrOk (e : Entry) : Bool :=
  if dlenOf e = 0 then e.dptr == 0 else e.dptr.toNat % 64 == 0 && (!e.flags.getLsbD 0 || listOk e)

/-- The smallest offset of the checks that fail. -/
def lowest (l : List (Nat × Bool)) : Option Nat :=
  l.foldl (fun m c => if c.2 then (match m with | some x => some (min x c.1) | none => some c.1) else m) none

/-- Bytes of PARAMS that no named field covers and that are not zero. -/
def strayBytes (e : Entry) (used : List (Nat × Nat)) : List (Nat × Bool) :=
  (List.range 44).map (fun i => (20 + i, !(used.any (fun u => decide (u.1 ≤ 20 + i) && decide (20 + i < u.1 + u.2))) && pf e (20 + i) 1 != 0))

/-- The first faulty byte of an entry (Table 9-3): its common fields, reserved bytes, the length asked, and the checks of the command. names: the command names a partition, or leaves PART free. -/
def entryFault (e : Entry) (names : Bool) (used : List (Nat × Nat)) (lenBad : Bool) (bads : List (Nat × Bool)) : Option Nat :=
  lowest ([(1, decide (2 ≤ e.flags.toNat)), (4, !names && e.part != 255), (5, e.rsvd != 0), (8, !dptrOk e), (16, lenBad || decide (2 ^ 31 < dlenOf e))]
    ++ strayBytes e used ++ bads)

/-- The command goes on when no field is faulty. -/
def fieldsThen (bad : Option Nat) (k : State → Done) (s : State) : Done :=
  match bad with
  | some off => failsField off s
  | none => k s

/-- A list of bytes filled up with zeros. -/
def padTo (n : Nat) (bs : List Byte) : List Byte := bs.take n ++ List.replicate (n - bs.length) 0

/-- The data read from host memory, as long as DLEN says; a read that fails gives DATA_ERROR. -/
def withData (e : Entry) (k : List Byte → State → Done) (s : State) : Done :=
  match e.data with
  | none => fails stData s
  | some d => k (padTo (dlenOf e) d) s

/-- Bytes written to host memory, segment by segment. -/
def writeSegs (fn : Fn) : List (Nat × Nat) → List Byte → State → State
  | [], _, s => s
  | (a, n) :: rest, bs, s =>
    if bs.isEmpty then s else writeSegs fn rest (bs.drop n) (sendHost s fn.port (.mem fn.port a (bs.take n)))

/-- The command's data goes to its buffer. -/
def writeOut (e : Entry) (bs : List Byte) (s : State) : State := writeSegs e.fn (segsOf e) bs s

/-- The command waits for what it started. -/
def waitFor (e : Entry) (sqhd : Nat) (w : WaitFor) (s : State) : State :=
  { s with waiting := s.waiting ++ [⟨e.fn, e.sqid, sqhd, e.cid, segsOf e, w⟩] }

/-! ## Who may issue it (R261, R272) -/

def isPf (e : Entry) : Bool := e.fn.num == 0
/-- Is the function the VF bound to the partition in PART? -/
def isBound (s : State) (e : Entry) : Bool :=
  match getPart s (partNo e) with
  | some p => !isPf e && boundFn p == e.fn
  | none => false

/-- A command of the PF on the module. -/
def pfCmd (e : Entry) (k : State → Done) (s : State) : Done := if isPf e then k s else fails stPermit s

/-- Functions that may issue a command on a partition. -/
inductive Issuer where
  | pf | pfBound | bound
  deriving DecidableEq, Repr

def mayIssue (s : State) (e : Entry) : Issuer → Bool
  | .pf => isPf e
  | .pfBound => isPf e || isBound s e
  | .bound => isBound s e

/-- A command on a partition: permission, partition, state (R261, R275). -/
def partCmd (who : Issuer) (states : PState → Bool) (e : Entry) (k : Partition → State → Done) (s : State) : Done :=
  if !mayIssue s e who then fails stPermit s
  else if 16 ≤ partNo e then failsField 4 s
  else match getPart s (partNo e) with
    | none => fails stState s
    | some p => if states p.state then k p s else fails stState s

/-! ## States that allow a command (R275, Table 9-7) -/

def anyState (_ : PState) : Bool := true
/-- EMPTY, LOADED: program and weight load, PART_DELETE, maintenance. -/
def idleState : PState → Bool
  | .empty => true
  | .loaded => true
  | _ => false
def isLoaded (x : PState) : Bool := x == .loaded
def isServing (x : PState) : Bool := x == .serving
/-- Every state but FAULTED: PART_SET, DRIFT_COMP, MONITOR_SET, REFRESH_WINDOW. -/
def settingState (x : PState) : Bool := x != .faulted
/-- SERVING, DRAINING: PAUSE. -/
def servingState (x : PState) : Bool := x == .serving || x == .draining
/-- SERVING, DRAINING, FAULTED: CANCEL, REQ_QUERY. -/
def requestState (x : PState) : Bool := x == .serving || x == .draining || x == .faulted
/-- Every state but EMPTY: context commands. -/
def contextState (x : PState) : Bool := x != .empty
/-- LOADED, SERVING: ADAPTER_LOAD. -/
def adapterLoadState (x : PState) : Bool := x == .loaded || x == .serving
/-- LOADED, SERVING, DRAINING: ADAPTER_RELEASE. -/
def adapterState (x : PState) : Bool := x == .loaded || x == .serving || x == .draining

end Sys2Proof.Machine
end

