-- ==== Sys2Proof/Machine/Registers.lean ====
section
/-! DEFINITION. Writes and reads of BAR0, reads of BAR2: identity, status, alert, trace, perturbation and fault-injection registers (00 R10 to R12; 09 Table 9-1; 13 R393, R401 to R406). -/

namespace Sys2Proof.Machine

/-- Bits [lo + n - 1 : lo] of a register value. -/
def regField (v : BitVec 32) (lo n : Nat) : Nat := v.toNat / 2 ^ lo % 2 ^ n

/-! ## Alert and trace (13 R401, R402) -/

/-- ALERT_STATUS: a 1 clears the bit in both PFs. -/
def clearAlert (bits : BitVec 32) (s : State) : State :=
  let clr := fun f : Func => { f with alert := f.alert &&& ~~~(bits.setWidth 3) }
  updFn (updFn s pfA clr) pfB clr

def alertWrite (fn : Fn) (v : BitVec 32) (s : State) : State :=
  if fn.num = 0 then clearAlert v (noteRsvd fn 7 v s) else noteRsvd fn 0 v s

/-- Partition that a function's single registers name: the bound one, or partition 0 in a PF (Table 13-8). -/
def ownPart (s : State) (fn : Fn) : Option Nat :=
  if fn.num = 0 then (if (getPart s 0).isSome then some 0 else none) else partBound s fn

def traceCtrl (fn : Fn) (v : BitVec 32) (s : State) : State :=
  let s := noteRsvd fn 7 v s
  match ownPart s fn with
  | some pn => updPart s pn (fun p => { p with traceCtrl := v.setWidth 3 })
  | none => s

/-! ## Perturbation (13 R403 to R405) -/

/-- A perturbation block acts for the PF and the bound VF; in another VF it is reserved, and without a partition it takes no effect. -/
def pertAct (fn : Fn) (pn : Nat) (mask v : BitVec 32) (act : Partition → State → State) (s : State) : State :=
  if fn.num ≠ 0 ∧ partBound s fn ≠ some pn then noteRsvd fn 0 v s else
  let s := noteRsvd fn mask v s
  match getPart s pn with
  | some p => act p s
  | none => s

/-- The module refuses a write: PERT_STATUS[0] (R404). -/
def pertRefuse (pn : Nat) (s : State) : State := updPart s pn (fun p => { p with pertRefused := true })

/-- Does PERT_HSDELAY name a port inside the rectangle that carries no other partition's route? -/
def hsPortOk (s : State) (pn : Nat) (p : Partition) (v : BitVec 32) : Bool :=
  let r := regField v 12 11
  let q := regField v 23 3
  decide (r < 1600) && decide (1 ≤ q) && decide (q ≤ 4) && inRect p (fieldOf r) && (edgeTile r q).isNone && inRect p (fieldOf (neighbour r q))
    && (getR s r).permit.all (fun e => e.1 == pn || !e.2.testBit q)

def pertHsdelay (fn : Fn) (pn i : Nat) (v : BitVec 32) (s : State) : State :=
  pertAct fn pn 0x87FFFFFF v (fun p s =>
    if v.getLsbD 31 && !hsPortOk s pn p v then pertRefuse pn s
    else updPart s pn (fun p => { p with hsdelay := tset 0 p.hsdelay i (v &&& 0x87FFFFFF#32) })) s

/-- PERT_CREDIT with its count clamped to the entry's grant less one (R404). -/
def clampCredit (s : State) (v : BitVec 32) : BitVec 32 :=
  let g := (getSl (getL s (regField v 0 11)) (regField v 11 5)).grant
  let n := min (regField v 16 12) (g - 1)
  (v &&& 0x8000FFFF#32) ||| BitVec.ofNat 32 (n * 65536)

def pertCredit (fn : Fn) (pn : Nat) (v : BitVec 32) (s : State) : State :=
  pertAct fn pn 0x8FFFFFFF v (fun p s =>
    let l := regField v 0 11
    if v.getLsbD 31 && !(decide (l < 1600) && inRect p (fieldOf l)) then pertRefuse pn s
    else updPart s pn (fun p => { p with pcredit := clampCredit s v })) s

def pertStretch (fn : Fn) (pn : Nat) (v : BitVec 32) (s : State) : State :=
  pertAct fn pn 0x3FF v (fun _ s => updPart s pn (fun p => { p with pstretch := v &&& 0x3FF#32 })) s

def pertAdc (fn : Fn) (pn : Nat) (v : BitVec 32) (s : State) : State :=
  pertAct fn pn 0x800FF7FF v (fun _ s => updPart s pn (fun p => { p with padc := v &&& 0x800FF7FF#32 })) s

/-- PERT_RETRAIN: the port is retrained at once, link-down rules suspended for up to 20 ms (11 R358). -/
def pertRetrainNow (fn : Fn) (pn : Nat) (v : BitVec 32) (s : State) : State :=
  pertAct fn pn 0x80000003 v (fun p s =>
    let z := regField v 0 2
    if !v.getLsbD 31 then s
    else if !p.zen.testBit z || (getZ s z).owner.any (fun e => e.2 != pn + 1) then pertRefuse pn s
    else
      let t := nowNs s + 20000000
      updPart (updZ s z (fun Z => { Z with suspendTo := t })) pn (fun p => { p with retrain := some (z, t) })) s

/-- FI_PARITY: parity bit 0 of a stored line or word is inverted; allowed under authenticated debug (R404, R405). -/
def fiParityNow (fn : Fn) (pn : Nat) (v : BitVec 32) (s : State) : State :=
  pertAct fn pn 0xFFFFFFFF v (fun p s =>
    let l := regField v 0 11
    let a := regField v 13 19
    if !p.debug then pertRefuse pn s
    else if 1600 ≤ l ∨ !inRect p (fieldOf l) then s
    else match regField v 11 2 with
      | 0 => if a < 65536 then updL s l (fun L => { L with pad := tupd {} L.pad a (fun x => { x with parBad := !x.parBad }) }) else s
      | 1 => if a < 327680 then updL s l (fun L => { L with kv := tupd {} L.kv a (fun x => { x with parBad := !x.parBad }) }) else s
      | 2 => if a < 8192 then updL s l (fun L => { L with store := tupd {} L.store a (fun x => { x with parBad := !x.parBad }) }) else s
      | _ => s) s

/-- FI_POISON: POISON on the next flit sent through a sluice entry (R405). -/
def fiPoisonNow (fn : Fn) (pn : Nat) (v : BitVec 32) (s : State) : State :=
  pertAct fn pn 0xFFFF v (fun p s =>
    let l := regField v 0 11
    if !p.debug then pertRefuse pn s
    else if 1600 ≤ l ∨ !inRect p (fieldOf l) then s
    else updSl s l (regField v 11 5) (fun e => { e with poisonNext := true })) s

/-! ## Writes by offset -/

/-- Perturbation and fault-injection registers of one partition's block, at offset o of the block. PERT_STATUS[1] is read-only: a 1 written to it sets RSVD_WRITE, a 0 does not (00 R10, R12; log 37). -/
def pertBlock (fn : Fn) (pn o : Nat) (v : BitVec 32) (s : State) : State :=
  match o with
  | 0x00 => pertHsdelay fn pn 0 v s
  | 0x04 => pertHsdelay fn pn 1 v s
  | 0x08 => pertHsdelay fn pn 2 v s
  | 0x0C => pertHsdelay fn pn 3 v s
  | 0x10 => pertCredit fn pn v s
  | 0x14 => pertStretch fn pn v s
  | 0x18 => pertAdc fn pn v s
  | 0x1C => pertRetrainNow fn pn v s
  | 0x20 => pertAct fn pn 1 v (fun _ s => if v.getLsbD 0 then updPart s pn (fun p => { p with pertRefused := false }) else s) s
  | 0x40 => fiParityNow fn pn v s
  | 0x44 => fiPoisonNow fn pn v s
  | _ => noteRsvd fn 0 v s

/-- Read-only words of Table 13-8 and Table 9-1. -/
def readOnly (o : Nat) : Bool :=
  o == 0 || o == 4 || o == 8 || o == 0xC || o == 0x10 || o == 0x14 || o == 0x18 || o == 0x20 || o == 0x38 || o == 0x40 || o == 0x44 || o == 0x100018

/-- One half of a 64-bit register replaced: 0 low, 1 high. -/
def setHalf (x : BitVec 64) (hi : Bool) (v : BitVec 32) : BitVec 64 :=
  if hi then v ++ x.extractLsb' 0 32 else x.extractLsb' 32 32 ++ v

/-- A write of one aligned word of BAR0. One write of FN_STATUS that clears RSVD_WRITE and puts a 1 in a reserved bit: which of the two wins is not stated; the clear wins (DESIGN CHOICE, log 37). -/
def writeReg (fn : Fn) (o : Nat) (v : BitVec 32) (s : State) : State :=
  if readOnly o then rsvdWrite s fn else
  match o with
  | 0x1C => updFn (noteRsvd fn 7 v s) fn (fun f => { f with status := f.status &&& ~~~(v.setWidth 3) })
  | 0x24 => alertWrite fn v s
  | 0x28 => if fn.num = 0 then updFn (noteRsvd fn 4 v s) fn (fun f => { f with alertMask := v.getLsbD 2 }) else noteRsvd fn 0 v s
  | 0x30 => doorbell fn 3 0 v s
  | 0x34 => traceCtrl fn v s
  | 0x100000 => updFn (noteRsvd fn 0xFFFFF000 v s) fn (fun f => { f with sq0Base := setHalf f.sq0Base false (v &&& 0xFFFFF000#32) })
  | 0x100004 => updFn s fn (fun f => { f with sq0Base := setHalf f.sq0Base true v })
  | 0x100008 => updFn (noteRsvd fn 0xFFFFF000 v s) fn (fun f => { f with cq0Base := setHalf f.cq0Base false (v &&& 0xFFFFF000#32) })
  | 0x10000C => updFn s fn (fun f => { f with cq0Base := setHalf f.cq0Base true v })
  | 0x100010 => updFn (noteRsvd fn 0x0FFF0FFF v s) fn (fun f => { f with q0Size := v &&& 0x0FFF0FFF#32 })
  | 0x100014 => writeCtrl fn v s
  | 0x10001C => updFn (noteRsvd fn 0xFFFF00FF v s) fn (fun f =>
      { f with q0Int := v &&& 0xFFFF00FF#32, qps := tupd none f.qps 0 (Option.map (fun x => { x with int := { x.int with count := v.toNat % 256, time := v.toNat / 65536 } })) })
  | _ =>
    if 0x101000 ≤ o ∧ o < 0x101200 then
      if o % 8 = 0 then doorbell fn 0 ((o - 0x101000) / 8) v (noteRsvd fn 0xFFF v s) else doorbell fn 1 ((o - 0x101000) / 8) v (noteRsvd fn 0xFFF v s)
    else if 0x110000 ≤ o ∧ o < 0x111000 then doorbell fn 2 ((o - 0x110000) / 4) v s
    else if 0x120000 ≤ o ∧ o < 0x121000 then pertBlock fn ((o - 0x120000) / 256) ((o - 0x120000) % 256) v s
    else noteRsvd fn 0 v s

/-- REGISTER_WRITE: 4 or 8 bytes of BAR0, or any write to BAR2, which is read-only (R393). Writes of 1 or 2 bytes have no form, and an unaligned write of BAR0 is dropped with no flag: the spec states neither (DESIGN CHOICE, log 37). -/
def registerWrite (fn : Fn) (bar2 : Bool) (o : Nat) (v : BitVec 64) (eight : Bool) (s : State) : State :=
  if bar2 then rsvdWrite s fn
  else if o % 4 ≠ 0 then s
  else
    let s := writeReg fn o (v.setWidth 32) s
    if eight then writeReg fn (o + 4) (v.extractLsb' 32 32) s else s

/-! ## Reads (Table 13-8, Table 9-1; R393): no side effect (00 R11) -/

def idModule : Nat := if Config.isL1536 then 0x02B05701 else 0x01B05701
def idFunction (s : State) (fn : Fn) : Nat :=
  fn.num + portIx fn.port * 256 + (match partBound s fn with | some pn => pn * 65536 + 2 ^ 20 | none => 0)
def pStateCode : PState → Nat
  | .empty => 0
  | .loaded => 1
  | .serving => 2
  | .draining => 3
  | .faulted => 4
/-- PART_STATUS. -/
def partStatus (s : State) (fn : Fn) : Nat :=
  match (ownPart s fn).bind (getPart s) with
  | none => 7
  | some p => pStateCode p.state + (if p.hold then 8 else 0) + partTier s p * 16 + (p.fP * 255).floor.toNat * 256
      + (if p.prog.isSome then stepNow p else 0) * 65536
/-- MOD_STATUS. -/
def modStatus (s : State) : Nat :=
  (if s.boot.ready then 1 else 0) + (if s.sec.error then 2 else 0) + (if s.sec.unlocked.isSome then 4 else 0) + moduleTier s * 8
    + (if s.boot.bActive then 32 else 0) + (if s.plant.stop then 64 else 0)
/-- MB_STATUS. -/
def mbStatus (s : State) (fn : Fn) : Nat :=
  let f := getFn s fn
  (if s.boot.ready && f.en then 1 else 0) + (if s.boot.hold then 2 else 0) + (if f.cfgErr then 4 else 0)

/-- What a 4-byte aligned read of BAR0 returns. -/
def readReg (s : State) (fn : Fn) (o : Nat) : Nat :=
  let f := getFn s fn
  let pf := decide (fn.num = 0)
  let t := nowNs s
  match o with
  | 0x00 => idModule
  | 0x04 => idFunction s fn
  | 0x08 => Config.serial.toNat % 2 ^ 32
  | 0x0C => Config.serial.toNat / 2 ^ 32
  | 0x10 => t % 2 ^ 32
  | 0x14 => t / 2 ^ 32
  | 0x18 => modStatus s
  | 0x1C => f.status.toNat
  | 0x20 => partStatus s fn
  | 0x24 => if pf then f.alert.toNat else 0
  | 0x28 => if pf && f.alertMask then 4 else 0
  | 0x34 => match (ownPart s fn).bind (getPart s) with | some p => p.traceCtrl.toNat | none => 0
  | 0x38 => match (ownPart s fn).bind (getPart s) with | some p => p.traceWidx.toNat | none => 0
  | 0x40 => dropDetail f.evDrops % 2 ^ 32
  | 0x44 => dropDetail f.evDrops / 2 ^ 32
  | 0x100000 => f.sq0Base.toNat % 2 ^ 32
  | 0x100004 => f.sq0Base.toNat / 2 ^ 32
  | 0x100008 => f.cq0Base.toNat % 2 ^ 32
  | 0x10000C => f.cq0Base.toNat / 2 ^ 32
  | 0x100010 => f.q0Size.toNat
  | 0x100014 => if f.en then 1 else 0
  | 0x100018 => mbStatus s fn
  | 0x10001C => f.q0Int.toNat
  | _ =>
    if o < 0x120000 ∨ 0x121000 ≤ o then 0 else
    let pn := (o - 0x120000) / 256
    if !pf && partBound s fn != some pn then 0 else
    match getPart s pn with
    | none => 0
    | some p =>
      match (o - 0x120000) % 256 with
      | 0x00 => (tget 0 p.hsdelay 0).toNat
      | 0x04 => (tget 0 p.hsdelay 1).toNat
      | 0x08 => (tget 0 p.hsdelay 2).toNat
      | 0x0C => (tget 0 p.hsdelay 3).toNat
      | 0x10 => p.pcredit.toNat
      | 0x14 => p.pstretch.toNat
      | 0x18 => p.padc.toNat
      | 0x20 => (if p.pertRefused then 1 else 0) + (match p.retrain with | some (_, u) => if t < u then 2 else 0 | none => 0)
      | _ => 0

/-- A counter as BAR2 shows it (R393). -/
def counterWord (c : Counter) : Nat := c.count.toNat + c.source * 2 ^ 48

/-- Does a function see a lantern, field or partition in BAR2? The PF sees all, a VF its own partition's. -/
def sees (s : State) (fn : Fn) (pn : Option Nat) : Bool := fn.num == 0 || (pn.isSome && partBound s fn == pn)

/-- 8 bytes of BAR2 at an aligned offset (Table 13-3). -/
def readBar2 (s : State) (fn : Fn) (o : Nat) : Nat :=
  let word := fun (bs : List Byte) (i : Nat) => fieldAt bs i 8
  if o < 0x2000 then
    match getPart s (o / 0x200) with
    | some p => if sees s fn (some (o / 0x200)) then counterWord (tget {} p.counters (o % 0x200 / 8)) else 0
    | none => 0
  else if 0x10000 ≤ o ∧ o < 0x10000 + 0x40 * 1600 then
    let l := (o - 0x10000) / 0x40
    if sees s fn (partOf s l) then counterWord (tget {} (getL s l).counters (o % 0x40 / 8)) else 0
  else if 0x30000 ≤ o ∧ o < 0x30000 + 0x40 * 100 then
    let f := (o - 0x30000) / 0x40
    if sees s fn (partOfField s f) then counterWord (tget {} (getF s f).counters (o % 0x40 / 8)) else 0
  else if 0x34000 ≤ o ∧ o < 0x34000 + 0x40 * 40 then
    if fn.num = 0 then counterWord (tget {} (getT s ((o - 0x34000) / 0x40)).counters (o % 0x40 / 8)) else 0
  else if 0x400000 ≤ o ∧ o < 0x1400000 then
    let pn := (o - 0x400000) / 0x100000
    match getPart s pn with
    | some p =>
      if sees s fn (some pn) then
        match tget none p.traceRing (o % 0x100000 / 32) with
        | some r => word (eventBytes r false) (o % 32)
        | none => 0
      else 0
    | none => 0
  else if 0x2000000 ≤ o ∧ o < 0x2000000 + 0x20000 * 1600 then
    let l := (o - 0x2000000) / 0x20000
    let g := o % 0x20000 / 0x10
    if sees s fn (partOf s l) then word (monitorEntry (tget {} (getL s l).monitors g)) (o % 16) else 0
  else 0

/-- n bytes of BAR2 at any offset: the bytes of the aligned values there (R393). -/
def readBar2Bytes (s : State) (fn : Fn) (o n : Nat) : List Byte :=
  (List.range n).map (fun i => BitVec.ofNat 8 (readBar2 s fn ((o + i) / 8 * 8) / 256 ^ ((o + i) % 8)))

/-! ## Commands -/

/-- 13 R401. -/
def execAlertStatusClear (fn : Fn) (v : BitVec 32) (s : State) : Out := guarded (fnOk fn) (alertWrite fn v s)
/-- 13 R402. -/
def execTraceCtrlWrite (fn : Fn) (v : BitVec 32) (s : State) : Out := guarded (fnOk fn) (traceCtrl fn v s)
/-- 13 R403, R404. -/
def execPertHsdelayWrite (fn : Fn) (part i : Nat) (v : BitVec 32) (s : State) : Out :=
  guarded (fnOk fn && partOk part && decide (i < 4)) (pertHsdelay fn part i v s)
/-- 13 R403, R404. -/
def execPertCreditWrite (fn : Fn) (part : Nat) (v : BitVec 32) (s : State) : Out := guarded (fnOk fn && partOk part) (pertCredit fn part v s)
/-- 13 R403. -/
def execPertStretchWrite (fn : Fn) (part : Nat) (v : BitVec 32) (s : State) : Out := guarded (fnOk fn && partOk part) (pertStretch fn part v s)
/-- 13 R403. -/
def execPertAdcWrite (fn : Fn) (part : Nat) (v : BitVec 32) (s : State) : Out := guarded (fnOk fn && partOk part) (pertAdc fn part v s)
/-- 13 R403, R404; 11 R358. -/
def execPertRetrain (fn : Fn) (part : Nat) (v : BitVec 32) (s : State) : Out := guarded (fnOk fn && partOk part) (pertRetrainNow fn part v s)
/-- 13 R404, R405. -/
def execFiParity (fn : Fn) (part : Nat) (v : BitVec 32) (s : State) : Out := guarded (fnOk fn && partOk part) (fiParityNow fn part v s)
/-- 13 R404, R405. -/
def execFiPoison (fn : Fn) (part : Nat) (v : BitVec 32) (s : State) : Out := guarded (fnOk fn && partOk part) (fiPoisonNow fn part v s)
/-- 00 R10, R12; 13 R393, R406. -/
def execRegisterWrite (fn : Fn) (bar2 : Bool) (offset : Nat) (v : BitVec 64) (eight : Bool) (s : State) : Out :=
  settled (fnOk fn) (registerWrite fn bar2 offset v eight s)

end Sys2Proof.Machine
end

