-- ==== Sys2Proof/Machine/Records.lean ====
section
/-! DEFINITION. Structures that commands write to host memory, configuration records and measurements (10 R308 to R310; 11 R353, R354; 13 R407 to R409). -/

namespace Sys2Proof.Machine

/-! ## Configuration record (11 Table 11-8) -/

def isRyile (p : Partition) : Bool := match p.prog with | some g => g.ryile | none => false
def grantBits (p : Partition) : Nat := ((List.range nTiles).map (fun t => if granted p t then 2 ^ t else 0)).sum
def monBytes (m : MonSet) : List Byte :=
  [m.monW, m.captureN, m.rdfWarn, m.rdfErr, m.satWarn, m.profTol].flatMap (bytesOfNat 4)

def configRecord (s : State) (pn : Nat) (p : Partition) : List Byte :=
  let b := fun (x : Bool) (k : Nat) => if x then 2 ^ k else 0
  bytesOfNat 1 pn ++ bytesOfNat 1 ((p.w - 1) + 16 * (p.h - 1)) ++ bytesOfNat 1 (b p.quiet 0 + b p.cistern 1 + b p.drift 2 + b (isRyile p) 3)
    ++ bytesOfNat 1 p.window ++ bytesOfNat 4 p.watchdog ++ bytesOfNat 2 (match p.prog with | some g => g.stepTime | none => 0)
    ++ bytesOfNat 1 s.spares ++ bytesOfNat 1 (if isRyile p then p.refresh else 0) ++ monBytes p.mon
    ++ bytesOfNat 48 (match p.prog with | some g => g.digest.toNat | none => 0) ++ bytesOfNat 5 (grantBits p) ++ bytesOfNat 8 p.zchan.toNat
    ++ bytesOfNat 1 (portIx p.port) ++ bytesOfNat 1 p.vf ++ bytesOfNat 29 0

/-- Configuration digest (11 R353). -/
def configDigest (s : State) (pn : Nat) (p : Partition) : BitVec 384 := Config.sha384 (configRecord s pn p)

/-- Configuration record, digest, epoch: 180 bytes (Table 13-9, item 0x0021). -/
def configItem (s : State) (pn : Nat) (p : Partition) : List Byte :=
  configRecord s pn p ++ digestBytes (configDigest s pn p) ++ bytesOfNat 4 p.epoch

/-- A change to a partition commits: its epoch advances when its configuration record changed (11 R354). -/
def commitRec (pn : Nat) (f : State → State) (s : State) : State :=
  let t := f s
  match getPart s pn, getPart t pn with
  | some a, some b => if configRecord s pn a = configRecord t pn b then t else updPart t pn (fun p => epochUp p 1)
  | _, _ => t

def epochOf (s : State) (pn : Nat) : Nat := match getPart s pn with | some p => p.epoch | none => 0

/-! ## IDENTIFY (13 Table 13-9) -/

/-- Image that a kind runs as committed. -/
def runImage (s : State) (kind : Nat) : FwSlot := fwSlot (fwKind s kind) (fwKind s kind).runB
def fwBuild (kind : Nat) (x : FwSlot) : BitVec 128 := x.build.getD (Config.shippedBuild kind)

/-- Wick arrays of a lantern that logical numbers can name. -/
def mappableArrays (L : Lantern) : Nat := min 248 ((List.range 256).filter (fun a => !(getArr L a).bad)).length

/-- Lanterns in occupied slots of every field. -/
def mappableAll (s : State) : List Nat := (List.range nFields).flatMap (fun f => (getF s f).slots.filterMap (fun n => if n = 0 then none else some (n - 1)))

/-- Requests in flight in the module. -/
def reqsInFlight (s : State) : Nat := ((allParts s).map (fun e => e.2.reqs.length)).sum

def identifyModule (s : State) : List Byte :=
  let ms := mappableAll s
  let count := fun (p : Nat → Bool) => ((List.range nFields).filter p).length
  bytesOfNat 4 idModule ++ bytesOfNat 8 Config.serial.toNat ++ bytesOfNat 1 s.spares ++ bytesOfNat 1 s.sparesNext ++ bytesOfNat 2 ms.length
    ++ bytesOfNat 4 ((ms.map (fun l => mappableArrays (getL s l))).sum) ++ bytesOfNat 1 2 ++ bytesOfNat 1 (count (degradedField s))
    ++ bytesOfNat 1 (count (unusableField s)) ++ bytesOfNat 1 0 ++ bytesOfNat 8 (if cisternOn s then cisternBytes else 0)
    ++ [1, 2, 3, 4, 5].flatMap (fun k => bytesOfNat 2 (runImage s k).svn ++ bytesOfNat 6 (fwDigest k (runImage s k)).toNat)
    ++ bytesOfNat 1 s.ring.size ++ bytesOfNat 1 s.ring.index ++ bytesOfNat 1 s.ring.mode ++ bytesOfNat 1 (allParts s).length
    ++ bytesOfNat 2 (4096 - reqsInFlight s) ++ bytesOfNat 2 0
    ++ bytesOfNat 32 (fwBuild 2 (runImage s 2)).toNat ++ bytesOfNat 32 (fwBuild 1 (runImage s 1)).toNat
    ++ bytesOfNat 8 (if s.ring.mode = 2 then (getZ s 1).peer.toNat else 0) ++ bytesOfNat 8 (if s.ring.mode = 2 then (getZ s 3).peer.toNat else 0)

def identifyFunction (s : State) (fn : Fn) : List Byte :=
  bytesOfNat 4 (idFunction s fn) ++ bytesOfNat 1 64 ++ bytesOfNat 1 64 ++ bytesOfNat 2 0 ++ bytesOfNat 8 Config.bar0Size ++ bytesOfNat 8 0x10000000

/-! ## Telemetry (13 R408) -/

def times255 (x : Rat) : Nat := (x * 255).floor.toNat
/-- Phase groups with a phase out of service. -/
def groupsOut (s : State) : Nat := ((List.range 45).filter (fun g => decide (0 < groupOut s g))).length

/-- Table 13-11. -/
def powerItem (s : State) : List Byte :=
  let b := fun (x : Bool) (k : Nat) => if x then 2 ^ k else 0
  let bad := fun n : Nat => s.plant.coolBad.contains n
  bytesOfNat 4 s.plant.vin ++ bytesOfNat 4 s.plant.pin ++ bytesOfNat 2 (toBits 16 (inletNow s))
    ++ bytesOfNat 2 (toBits 16 ((coolMax s 2).getD (Config.noReading 1))) ++ bytesOfNat 4 (s.plant.flow * 1000).floor.toNat
    ++ bytesOfNat 1 (moduleTier s) ++ bytesOfNat 1 (times255 (fFlow s)) ++ bytesOfNat 1 (times255 (fInlet s)) ++ bytesOfNat 1 (times255 (fInput s))
    ++ bytesOfNat 1 (b s.plant.stop 0 + b (bad 0 || bad 1) 1 + b (bad 2 || bad 3) 2 + b s.plant.pg25 3) ++ bytesOfNat 1 (groupsOut s)
    ++ bytesOfNat 2 0 ++ bytesOfNat 4 (((allParts s).map (fun e => e.2.share)).sum) ++ bytesOfNat 4 s.plant.pcis ++ bytesOfNat 32 0

/-- Path-resistance rise of a point in %, rounded down, saturating at 255. -/
def riseOf (F : Field) (i : Nat) : Nat :=
  let xs := tget [] F.sense i
  let base := tget 0 F.baseline i
  if xs.isEmpty ∨ base ≤ 0 then 0 else min 255 (((ratSum xs / (xs.length : Nat)) / base - 1) * 100).floor.toNat

/-- Table 13-12. -/
def fieldRecord (s : State) (f : Nat) : List Byte :=
  let F := getF s f
  let b := fun (x : Bool) (k : Nat) => if x then 2 ^ k else 0
  let sens := (List.range 6).map (sensorAt F)
  bytesOfNat 1 F.tier
    ++ bytesOfNat 1 (b (degradedField s f) 0 + b (unusableField s f) 1 + b (sens.all (·.bad)) 2
        + ((List.range 4).map (fun q => b (F.derated.contains q) (3 + q))).sum + b (partOfField s f).isSome 7)
    ++ bytesOfNat 1 (mappable s f) ++ bytesOfNat 1 (((sens.zipIdx).map (fun e => b (!e.1.bad) e.2)).sum)
    ++ sens.flatMap (fun x => bytesOfNat 2 (toBits 16 x.reading)) ++ (List.range 8).flatMap (fun i => bytesOfNat 1 (riseOf F i))
    ++ bytesOfNat 4 F.power ++ bytesOfNat 4 (toBits 32 (ratRne (F.forecast * 8)))

/-- The 100 field records as a function sees them. -/
def fieldItem (s : State) (fn : Fn) : List Byte :=
  (List.range nFields).flatMap (fun f => if sees s fn (partOfField s f) then fieldRecord s f else bytesOfNat 32 0)

def repairItem (s : State) : List Byte :=
  bytesOfNat 1 s.spares ++ bytesOfNat 1 s.sparesNext ++ bytesOfNat 2 0 ++ bytesOfNat 4 s.repair.entries.length ++ bytesOfNat 8 0
    ++ s.repair.entries.flatMap repairBytes

def routeItem (s : State) : List Byte :=
  bytesOfNat 4 s.routes.length ++ bytesOfNat 4 0
    ++ s.routes.flatMap (fun r => bytesOfNat 8 (r.1 % 2048 + r.2.1 % 2048 * 2 ^ 11 + r.2.2.1 % 16 * 2 ^ 22 + r.2.2.2 % 4 * 2 ^ 26))

/-- FLAGS of an array (03 Table 3-6, byte 77). -/
def arrayFlags (A : WickArray) : Nat :=
  (if A.programmed then 1 else 0) + (if A.bad then 2 else 0) + (if A.retired then 4 else 0) + (if A.degraded then 8 else 0) + (if A.stale then 16 else 0)

/-- Table 13-13. -/
def arrayEntry (L : Lantern) (a : Nat) : List Byte :=
  let A := getArr L a
  bytesOfNat 1 (if A.bad then 255 else (logicalOf L a).getD 255) ++ bytesOfNat 1 (arrayFlags A) ++ bytesOfNat 1 A.reft ++ bytesOfNat 1 A.ref0
    ++ bytesOfNat 2 A.drift ++ bytesOfNat 1 A.sigDiff ++ bytesOfNat 1 0

def arrayItem (s : State) (l : Nat) : List Byte := (List.range 256).flatMap (arrayEntry (getL s l))

def faultItem (p : Partition) : List Byte :=
  bytesOfNat 1 p.faults.length ++ bytesOfNat 15 0 ++ padTo 1408 (p.faults.flatMap faultBytes)

/-! ## Partition status (13 Table 13-14) -/

def wstatusCode : WStatus → Nat
  | .complete => 0
  | .incomplete => 1
  | .absent => 2

def adaptersUsed (p : Partition) : Nat := (p.adapters.filter (fun e => e.2.isSome)).length

def partItem (s : State) (pn : Nat) (p : Partition) : List Byte :=
  let b := fun (x : Bool) (k : Nat) => if x then 2 ^ k else 0
  padTo 4096 (configItem s pn p ++ bytesOfNat 1 (pStateCode p.state)
    ++ bytesOfNat 1 (b p.hold 0 + b p.wset.load.isSome 1 + b p.debug 2 + b (match p.windowNext with | some w => w != p.window | none => false) 3 + b p.drift 4)
    ++ bytesOfNat 1 (wstatusCode p.wset.status) ++ bytesOfNat 1 (partTier s p) ++ bytesOfNat 4 (if p.prog.isSome then stepNow p else 0)
    ++ bytesOfNat 4 p.share ++ bytesOfNat 4 (p.fP * 65536).floor.toNat ++ bytesOfNat 4 (p.power / 100) ++ bytesOfNat 4 (p.mult * 65536).floor.toNat
    ++ bytesOfNat 2 p.reqs.length ++ bytesOfNat 2 0 ++ bytesOfNat 4 ((s.contexts.filter (fun c => c.part == pn)).length)
    ++ bytesOfNat 1 (adaptersUsed p) ++ bytesOfNat 3 0 ++ bytesOfNat 8 (p.bound + 2 ^ 64 - 1)
    ++ bytesOfNat 48 (match p.wset.plain with | some d => d.toNat | none => 0) ++ bytesOfNat 48 (match p.prog with | some g => g.digest.toNat | none => 0)
    ++ bytesOfNat 1 p.faults.length ++ bytesOfNat 7 0 ++ padTo 176 ((p.faults.take 1).flatMap faultBytes))

/-! ## Measurements (10 R308 to R310, Table 10-6) -/

/-- Digest and SVN of the image of a kind, in a slot. -/
def measureFw (kind : Nat) (x : FwSlot) : List Byte := digestBytes (fwDigest kind x) ++ bytesOfNat 2 x.svn

/-- Microcode that a partition runs (11 R359). -/
def microImage (s : State) (p : Partition) : FwSlot :=
  let k := fwKind s 5
  fwSlot k (p.micro.getD k.runB)

/-- OTP configuration: key-slot digests, revoked bits, spare setting (index 7). -/
def otpBytes (s : State) : List Byte :=
  [0, 1, 2, 3].flatMap (fun set => (List.range 4).flatMap (fun k => digestBytes (Config.keySlotDigest set k)))
    ++ (List.range 32).map (fun n => if s.sec.revoked.contains n then 1 else 0) ++ bytesOfNat 1 s.spares

/-- SETIDs of the calibration records of a partition's arrays and banks, in array order. -/
def setidBytes (s : State) (p : Partition) : List Byte :=
  (partLanterns s p).flatMap (fun l =>
    (List.range 128).flatMap (fun i => bytesOfNat 4 (recSetid (calRec s (calKey 0x20 (pairSubject l (2 * i)))).slot0).toNat)
      ++ (List.range 32).flatMap (fun b => (List.range 8).flatMap (fun r => bytesOfNat 4 (recSetid (calRec s (calKey 0x10 (bankSubject l b r))).slot0).toNat)))

def adapterBytes (p : Partition) : List Byte :=
  p.adapters.flatMap (fun e => match e.2 with
    | some a => bytesOfNat 4 a.id ++ bytesOfNat 4 a.ver ++ digestBytes a.digest
    | none => [])

/-- Measurements of a partition. -/
def partMeasures (s : State) (pn : Nat) (p : Partition) : List (Nat × List Byte) :=
  [(0x10 + pn, digestBytes (configDigest s pn p) ++ bytesOfNat 4 p.epoch)]
    ++ (match p.prog with | some g => [(0x20 + pn, digestBytes g.digest)] | none => [])
    ++ (match p.wset.package with | some d => [(0x30 + pn, digestBytes d)] | none => [])
    ++ (match p.wset.plain with | some d => [(0x40 + pn, digestBytes d)] | none => [])
    ++ [(0x50 + pn, digestBytes (Config.sha384 (setidBytes s p)))]
    ++ (if (adapterBytes p).isEmpty then [] else [(0x60 + pn, digestBytes (Config.sha384 (adapterBytes p)))])

def moduleMeasures (s : State) (micro : FwSlot) : List (Nat × List Byte) :=
  [(1, digestBytes Config.romDigest), (2, measureFw 1 (runImage s 1)), (3, measureFw 2 (runImage s 2)), (4, measureFw 3 (runImage s 3)),
   (5, measureFw 4 (runImage s 4)), (6, measureFw 5 micro), (7, digestBytes (Config.sha384 (otpBytes s))),
   (8, match s.sec.unlocked with | some (d, scope) => bytesOfNat 1 1 ++ digestBytes d ++ bytesOfNat 3 scope | none => bytesOfNat 1 0),
   (9, (List.range 64).flatMap (fun n => bytesOfNat 1 (counterAt s n)))]

/-- Every measurement of module scope (none) or of a partition as the state has it, by ascending index. -/
def measuresNow (s : State) (scope : Option Nat) : List (Nat × List Byte) :=
  match scope with
  | some pn => match getPart s pn with
    | some p => moduleMeasures s (microImage s p) ++ partMeasures s pn p
    | none => []
  | none =>
    moduleMeasures s (runImage s 5)
      ++ [0x10, 0x20, 0x30, 0x40, 0x50, 0x60].flatMap (fun base =>
          (allParts s).flatMap (fun e => (partMeasures s e.1 e.2).filter (fun x => x.1 == base + e.1)))
      ++ [(0xFE, bytesOfNat 1 (if s.sec.unlocked.isSome then 1 else 0))]

/-- Does an endpoint's scope hold a measurement index (R308)? -/
def inScope (scope : Option Nat) (i : Nat) : Bool :=
  match scope with
  | some pn => decide (i < 0x10) || (decide (i < 0x70) && i % 16 == pn)
  | none => true

/-- Every measurement that an endpoint of a scope reports: an item that a command in progress changes shows what it was before (R308, R310). -/
def measuresOf (s : State) (scope : Option Nat) : List (Nat × List Byte) :=
  let held := s.sec.shown
  if held.isEmpty then measuresNow s scope else
  let xs := (measuresNow s scope).filter (fun x => held.all (fun e => e.1 != x.1))
    ++ (held.filter (fun e => inScope scope e.1)).filterMap (fun e => e.2.map (fun b => (e.1, b)))
  (List.range 256).filterMap (fun i => xs.find? (fun x => x.1 == i))

/-- A command in progress has changed the state from s0 to s: what it changed shows what it was, until no such command is left (R310). -/
def holdShown (s0 s : State) : State :=
  let value := fun (xs : List (Nat × List Byte)) (i : Nat) => (xs.find? (fun x => x.1 == i)).map (·.2)
  let old := measuresNow s0 none
  let new := measuresNow s none
  let is := (List.range 256).filter (fun i => value old i != value new i && s.sec.shown.all (fun e => e.1 != i))
  { s with sec := { s.sec with shown := s.sec.shown ++ is.map (fun i => (i, value old i)) } }

/-- Does a command wait whose items show what they were? -/
def holdsShown (w : Waiting) : Bool :=
  match w.what with
  | .erase _ _ _ => true
  | .recal _ => true
  | _ => false

/-- With no such command left, every item shows what it is. -/
def showNow (s : State) : State := if s.waiting.any holdsShown then s else { s with sec := { s.sec with shown := [] } }

/-- Measurement blocks of an endpoint, one for each index. -/
def measureBlocks (s : State) (scope : Option Nat) : List (Nat × List Byte) := (measuresOf s scope).map (fun e => (e.1, Config.dmtfBlock e.1 e.2))

end Sys2Proof.Machine
end

