-- ==== Sys2Proof/Machine/ModuleCmds.lean ====
section
/-! DEFINITION. Commands on the module, queues, rings, counters and telemetry (09 Table 9-5, R273; 08 R259; 13 R391, R397, R407 to R409; 01 R18). -/

namespace Sys2Proof.Machine

/-- Settings that wait for a step boundary are in force at once in a partition that has no boundaries. -/
def settleIdle (pn : Nat) (s : State) : State :=
  match getPart s pn with
  | some p => if p.running then s else applyPending s pn
  | none => s

/-- PART of a command that may leave it free lies outside Table 9-2: neither a partition number nor 0xFF (00 R13). -/
def partFree (e : Entry) : Bool := decide (16 ≤ partNo e) && partNo e != 255

/-- A VF that is bound, and names in PART its own partition or none (09 R261, Table 9-5). -/
def ownOrFree (s : State) (e : Entry) : Bool := isBound s e || (partNo e == 255 && (partBound s e.fn).isSome)

/-! ## IDENTIFY (13 R407) -/

def identify (e : Entry) (s : State) : Done :=
  let what := pf e 20 1
  fieldsThen (entryFault e true [(20, 1)] (dlenOf e != 4096) [(4, what != 2 && partFree e), (20, decide (2 < what))]) (fun s =>
    if what = 0 then done (writeOut e (padTo 4096 (identifyModule s)) s)
    else if what = 1 then done (writeOut e (padTo 4096 (identifyFunction s e.fn)) s)
    else if !isPf e && !isBound s e then fails stPermit s
    else if 16 ≤ partNo e then failsField 4 s
    else match getPart s (partNo e) with
      | some p => done (writeOut e (padTo 4096 (configItem s (partNo e) p)) s)
      | none => fails stState s) s

/-! ## Queue pairs (09 R263, R273) -/

def qpCreate (e : Entry) (s : State) : Done :=
  let qid := pf e 20 2
  let sq := pf e 22 2
  let cq := pf e 24 2
  let v := pf e 26 1
  fieldsThen (entryFault e false [(20, 10), (32, 16)] (dlenOf e != 0)
    [(20, qid == 0 || decide (63 < qid)), (22, sq == 0 || decide (4095 < sq)), (24, cq == 0 || decide (4095 < cq)), (26, v != 255 && decide (63 < v)),
     (32, pf e 32 8 % 4096 != 0), (40, pf e 40 8 % 4096 != 0)]) (fun s =>
    if (getQp s e.fn qid).isSome then fails stDuplicate s
    else done (setQp s e.fn qid (some ⟨pf e 32 8, sq + 1, 0, 0, pf e 40 8, cq + 1, 0, 0, true,
      { vector := v, count := pf e 27 1, time := pf e 28 2 }, [], 0, false⟩))) s

def qpDelete (e : Entry) (h : Nat) (s : State) : Done :=
  let qid := pf e 20 2
  fieldsThen (entryFault e false [(20, 2)] (dlenOf e != 0) [(20, decide (63 < qid))]) (fun s =>
    if (getQp s e.fn qid).isNone then fails stNotFound s
    else later (waitFor e h (.qpDelete qid) (startDelete e.fn qid s))) s

/-! ## Ring (08 R259) -/

def ringFormCmd (e : Entry) (h : Nat) (s : State) : Done :=
  pfCmd e (fieldsThen (entryFault e false [] (dlenOf e != 0) []) (fun s =>
    later (waitFor e h .ringForm { s with ring := { s.ring with
      forming := some (nowNs s), taken := none, formed := false, index := 0, size := 0, lost := none, bypass := false, chain := false, sent := s.ring.sent ++ [(0, 0)] } }))) s

def ringModeCmd (e : Entry) (s : State) : Done :=
  let m := pf e 20 1
  pfCmd e (fieldsThen (entryFault e false [(20, 1)] (dlenOf e != 0) [(20, decide (2 < m))]) (fun s =>
    done { s with ring := { s.ring with mode := m } })) s

/-! ## Telemetry (13 R408, Table 13-10) -/

/-- Is the item listed and its unit in range? -/
def itemUnitOk (item unit : Nat) : Bool := if item = 0x10 then decide (unit < 1600) else unit == 0
def itemListed (item : Nat) : Bool := [0x1, 0x2, 0x3, 0x4, 0x10, 0x20, 0x21].contains item

/-- May the function read the item: the PF, or the bound VF, which names no partition but its own (09 R261, Table 9-5)? -/
def itemPermit (s : State) (e : Entry) (item unit : Nat) : Bool :=
  isPf e || (if item = 0x3 ∨ item = 0x4 then false
    else if item = 0x10 then ownOrFree s e && (partOf s unit).isSome && partBound s e.fn == partOf s unit
    else if item = 0x20 ∨ item = 0x21 then isBound s e else ownOrFree s e)

/-- Bytes of an item. -/
def itemBytes (s : State) (e : Entry) (item unit : Nat) : Option (List Byte) :=
  match item with
  | 0x1 => some (powerItem s)
  | 0x2 => some (fieldItem s e.fn)
  | 0x3 => some (repairItem s)
  | 0x4 => some (routeItem s)
  | 0x10 => some (arrayItem s unit)
  | 0x20 => (getPart s (partNo e)).map faultItem
  | 0x21 => (getPart s (partNo e)).map (configItem s (partNo e))
  | _ => none

def telemetryRead (e : Entry) (s : State) : Done :=
  let item := pf e 20 2
  let unit := pf e 22 2
  fieldsThen (entryFault e true [(20, 4)] false
    [(4, item != 0x20 && item != 0x21 && partFree e), (20, !itemListed item), (22, itemListed item && !itemUnitOk item unit)]) (fun s =>
    if !itemPermit s e item unit then fails stPermit s
    else if (item = 0x20 ∨ item = 0x21) ∧ 16 ≤ partNo e then failsField 4 s
    else match itemBytes s e item unit with
      | none => fails stState s
      | some bs =>
        if dlenOf e < bs.length then (s, some { status := stField, result := bs.length * 2 ^ 32, detail := 16 })
        else doneWith (bs.length + bs.length * 2 ^ 32) (writeOut e bs s)) s

/-- PART_QUERY (13 R409). -/
def partQuery (e : Entry) (s : State) : Done :=
  partCmd .pfBound anyState e (fun p => fieldsThen (entryFault e true [] (dlenOf e != 4096) []) (fun s =>
    done (writeOut e (partItem s (partNo e) p) s))) s

/-! ## Event rings and counters (13 R391, R397) -/

/-- EVENT_RING_SET. ACTION 1 reads no other field: those of the ring to set are not asked to lie in their ranges (R397; DEDUCED, log 41). -/
def eventRingSet (e : Entry) (s : State) : Done :=
  let act := pf e 20 1
  let v := pf e 21 1
  fieldsThen (entryFault e false [(20, 16)] (dlenOf e != 0)
    ((20, decide (1 < act)) :: (if act = 0 then
      [(21, v != 255 && decide (63 < v)), (22, decide (pf e 22 1 < 6) || decide (16 < pf e 22 1)), (23, decide (5 < pf e 23 1)), (24, pf e 24 8 % 4096 != 0)]
      else []))) (fun s =>
    if act = 1 then done (updFn s e.fn (fun f => { f with ring := none }))
    else done (drainFn (updFn s e.fn (fun f => { f with
      ring := some ⟨pf e 24 8, pf e 22 1, pf e 23 1, 0, 0, { vector := v, count := pf e 32 2, time := pf e 34 2 }⟩ })) e.fn)) s

def sourceL (c : Nat) : Bool := decide (c ≤ 0x0F) || (decide (0x11 ≤ c) && decide (c ≤ 0x38))
def sourceF (c : Nat) : Bool := c == 0 || (decide (0x40 ≤ c) && decide (c ≤ 0x48))
def sourceR (c : Nat) : Bool := c == 0 || (decide (0x60 ≤ c) && decide (c ≤ 0x68))

/-- A counter takes a new source at once, or at the next boundary. -/
def selectAt (m : SMap Counter) (i src : Nat) (clr atOnce : Bool) : SMap Counter :=
  tupd {} m i (fun c => if atOnce then counterNow { c with next := some (src, clr) } else { c with next := some (src, clr) })

/-- Units a COUNTER_SELECT names: lanterns or fields of a partition, or one. -/
def selectUnits (s : State) (kind unit pn : Nat) : List Nat :=
  if unit ≠ 0xFFFF then [unit]
  else match getPart s pn with
    | some p => if kind = 0 then (partFields p).flatMap lanternsIn else partFields p
    | none => []

/-- Partition that a counter's boundary belongs to. -/
def unitPart (s : State) (kind unit : Nat) : Option Nat := if kind = 0 then partOf s unit else partOfField s unit

/-- One lantern or field counter set. -/
def selectUnit (kind i src : Nat) (clr : Bool) (u : Nat) (s : State) : State :=
  let own := unitPart s kind u
  if kind = 0 then updL s u (fun L => { L with counters := selectAt L.counters i src clr own.isNone })
  else updF s u (fun F => { F with counters := selectAt F.counters i src clr own.isNone })

def counterSelect (e : Entry) (s : State) : Done :=
  let kind := pf e 20 1
  let i := pf e 21 1
  let u := pf e 22 2
  let src := pf e 24 1
  let pn := partNo e
  let named := kind == 3 || (kind != 2 && u == 0xFFFF)
  if !isPf e && !ownOrFree s e then fails stPermit s else
  fieldsThen (entryFault e true [(20, 6)] (dlenOf e != 0)
    [(4, if named then decide (16 ≤ pn) else partFree e), (20, decide (3 < kind)), (21, decide ((if kind = 3 then 64 else 8) ≤ i)),
     (22, if kind = 0 then decide (1600 ≤ u) && u != 0xFFFF else if kind = 1 then decide (100 ≤ u) && u != 0xFFFF
        else if kind = 2 then decide (40 ≤ u) else u != 0),
     (24, !(if kind = 0 then sourceL src else if kind = 1 then sourceF src else if kind = 2 then sourceR src else sourceL src || sourceF src)),
     (25, decide (1 < pf e 25 1))]) (fun s =>
    let clr := decide (pf e 25 1 = 1)
    let mine := if named then isBound s e else kind != 2 && partBound s e.fn == unitPart s kind u
    if !isPf e && !mine then fails stPermit s
    else if named && (getPart s pn).isNone then fails stNotFound s
    else if kind = 3 then done (settleIdle pn (updPart s pn (fun p => { p with counters := selectAt p.counters i src clr false })))
    else if kind = 2 then done (updT s u (fun T => { T with counters := selectAt T.counters i src clr true }))
    else
      let s := forEach (selectUnits s kind u pn) (selectUnit kind i src clr) s
      let own := if named then some pn else unitPart s kind u
      done (match own with | some n => settleIdle n s | none => s)) s

/-! ## Spares (01 R18) -/

def setSparesCmd (e : Entry) (s : State) : Done :=
  let n := pf e 20 1
  pfCmd e (fieldsThen (entryFault e false [(20, 1)] (dlenOf e != 0) [(20, decide (2 < n))]) (fun s => done { s with sparesNext := n })) s

/-- Opcodes of Table 9-5. -/
def opcodeAssigned (c : Nat) : Bool :=
  [0x00, 0x01, 0x02, 0x04, 0x05, 0x20, 0x21, 0x22, 0x23, 0x24, 0x25, 0x26, 0x40, 0x41, 0x42, 0x48, 0x49, 0x60, 0x61, 0x62, 0x63, 0x64, 0x80, 0x81, 0x82,
   0x83, 0x88, 0x89, 0x8A, 0x8B, 0xA0, 0xA1, 0xA2, 0xA3, 0xC0, 0xC1, 0xC2, 0xC3, 0xC4, 0xC5, 0xC6].contains c

/-! ## Commands -/

/-- 13 R407. -/
def execIdentify (e : Entry) (s : State) : Out := settled (entryOk e) (takeCmd e (fun _ => identify e) s)
/-- 09 R273. -/
def execQpCreate (e : Entry) (s : State) : Out := settled (entryOk e) (takeCmd e (fun _ => qpCreate e) s)
/-- 09 R273. -/
def execQpDelete (e : Entry) (s : State) : Out := settled (entryOk e) (takeCmd e (qpDelete e) s)
/-- 08 R259. -/
def execRingForm (e : Entry) (s : State) : Out := settled (entryOk e) (takeCmd e (ringFormCmd e) s)
/-- 08 R259. -/
def execRingMode (e : Entry) (s : State) : Out := settled (entryOk e) (takeCmd e (fun _ => ringModeCmd e) s)
/-- 13 R408. -/
def execTelemetryRead (e : Entry) (s : State) : Out := settled (entryOk e) (takeCmd e (fun _ => telemetryRead e) s)
/-- 13 R409. -/
def execPartQuery (e : Entry) (s : State) : Out := settled (entryOk e) (takeCmd e (fun _ => partQuery e) s)
/-- 13 R397. -/
def execEventRingSet (e : Entry) (s : State) : Out := settled (entryOk e) (takeCmd e (fun _ => eventRingSet e) s)
/-- 13 R391. -/
def execCounterSelect (e : Entry) (s : State) : Out := settled (entryOk e) (takeCmd e (fun _ => counterSelect e) s)
/-- 01 R18. -/
def execSetSpares (e : Entry) (s : State) : Out := settled (entryOk e) (takeCmd e (fun _ => setSparesCmd e) s)
/-- 09 R272: an opcode of Table 9-5 spells its own command, and this one is then never fetched. -/
def execUnassignedOpcode (e : Entry) (opcode : Byte) (s : State) : Out :=
  settled (entryOk e) (if opcodeAssigned opcode.toNat then s else takeCmd e (fun _ => fails stOpcode) s)

end Sys2Proof.Machine
end

