-- ==== Sys2Proof/Machine/Loads.lean ====
section
/-! DEFINITION. Weight sets: erasure, applying chunks, programming of arrays, the end of a load (02 R61 to R66; 03 R75, R98, R99; 10 R312 to R321). -/

namespace Sys2Proof.Machine

/-! ## Erasing (02 R66) -/

/-- Arrays of a partition: those programmed, or with cells set, of every lantern in an occupied slot. -/
def partArrays (s : State) (p : Partition) : List (Nat × Nat) :=
  (partLanterns s p).flatMap (fun l => ((getL s l).arrays.filter (fun e => e.2.programmed || !e.2.cells.isEmpty)).map (fun e => (l, e.1)))

/-- Completion of a chunk's command. -/
def chunkCompl (j : ChunkJob) (status : Nat) : Completion := ⟨0, 0, j.sqhd, j.sqid, j.cid, BitVec.ofNat 8 status, none⟩

/-- The command of a chunk completes. -/
def answerChunk (j : ChunkJob) (status : Nat) (s : State) : State := if j.silent then s else postPlain s j.fn (chunkCompl j status)

/-- Chunks that a test selects are given up: their arrays have no retry behind them, their banks are free (02 R63). -/
def dropJobs (p : ChunkJob → Bool) (s : State) : State :=
  let js := s.jobs.filter p
  let s := forEach js (answerChunk · stAborted) { s with jobs := s.jobs.filter (fun j => !p j) }
  startJobs (forEach js (fun j s => match jobArray s j with
    | some a => bankBusy (updArr s j.lantern a (fun A => { A with retried := false })) j.lantern (a / 8)
    | none => s) s)

/-- Chunks of a partition's lanterns. -/
def jobOf (s : State) (pn : Nat) (j : ChunkJob) : Bool := partOf s j.lantern == some pn

/-- Arrays go to erasure and the command, which found the state s0, waits for it, or goes on at once when there are none. -/
def eraseThen (e : Entry) (h : Nat) (xs : List (Nat × Nat)) (list retire : Bool) (result : Nat) (s0 s : State) : Done :=
  if xs.isEmpty ∧ s.erasing.isEmpty then doneWith result (if retire then { s with sec := { s.sec with retired := true } } else s)
  else later (waitFor e h (.erase list retire (BitVec.ofNat 128 result)) (startErase xs (holdShown s0 s)))

/-- An array loses what belonged to its programming. -/
def blankArray (A : WickArray) : WickArray := { resetCells A with mode := 0, retried := false }

/-- One programming or erasure more on an array: WARN at 9,000 (02 R65). -/
def cycleUp (l a : Nat) (s : State) : State :=
  let s := updArr s l a (fun A => { A with cycles := A.cycles + 1 })
  if (getArr (getL s l) a).cycles = 9000 then raiseL s l sevWarn 0x0201 (arrayDetail a 255 0) else s

/-- An array is retired as bad (02 R65, R66). -/
def retireArray (l a : Nat) (s : State) : State :=
  let n := (getArr (getL s l) a).cycles
  arrayBad 4 5 n l a (updArr s l a (fun A => { A with retired := true }))

/-- One array of an erasure that has ended; its record takes what became of it. -/
def eraseOne (failed : List (Nat × Nat)) (e : Nat × Nat) (s : State) : State :=
  let s := cycleUp e.1 e.2 s
  let s :=
    if failed.contains e then raiseL (retireArray e.1 e.2 s) e.1 sevWarn 0x020C (arrayDetail e.2 255 0)
    else
      let s := updArr s e.1 e.2 blankArray
      if 10000 ≤ (getArr (getL s e.1) e.2).cycles then retireArray e.1 e.2 s else s
  pairCommit s e.1 e.2 none

/-- After an erasure that left no array of a lantern programmed, every entry of its range table holds code 7 (02 R432). -/
def clearRanges (l : Nat) (s : State) : State :=
  if (getL s l).arrays.any (fun e => e.2.programmed || !e.2.cells.isEmpty) then s else updL s l (fun L => { L with ranges := [], goldRanges := [] })

def isErase (w : Waiting) : Bool := match w.what with | .erase _ _ _ => true | _ => false

/-- A command that waited for an erasure completes. -/
def answerErase (failed : List (Nat × Nat)) (w : Waiting) (s : State) : State :=
  match w.what with
  | .erase list retire result =>
    let s := if list then writeSegs w.fn w.segs ((failed.flatMap (fun e => bytesOfNat 4 (e.1 * 2 ^ 21 + e.2))).take ((w.segs.map (·.2)).sum)) s else s
    let s := if retire then { s with sec := { s.sec with retired := true } } else s
    postPlain s w.fn (waitCompl w stSuccess (if list then failed.length else result.toNat))
  | _ => s

/-- ERASURE_DONE, once the domains it needs are on (01 R30): arrays verified, failures retired, the commands complete; arrays of bad lanterns cannot be erased (11 R342). -/
def erasureDone (failed : List (Nat × Nat)) (s : State) : State :=
  let xs := s.erasing
  if xs.isEmpty || xs.any (fun e => !(getL s e.1).on && !s.badLanterns.contains e.1) then s else
  let dark := xs.filter (fun e => s.badLanterns.contains e.1)
  let live := xs.filter (fun e => !s.badLanterns.contains e.1)
  let bad := live.filter (fun e => failed.contains e)
  let s := forEach live (eraseOne bad) { s with erasing := [], erased := true }
  let s := forEach (live.map (·.1)).eraseDups clearRanges s
  let s := vprogUse (forEach xs (fun e s => bankBusy s e.1 (e.2 / 8)) s)
  let ws := s.waiting.filter isErase
  showNow (forEach ws (answerErase (dark ++ bad)) { s with waiting := s.waiting.filter (fun w => !isErase w) })

/-! ## The end of a load (10 R312, R318) -/

def byIndex (l : List (Nat × BitVec 384 × BitVec 384)) (n : Nat) : List (Nat × BitVec 384 × BitVec 384) :=
  (List.range n).filterMap (fun i => l.find? (fun e => e.1 == i))

/-- What a load that ends makes of the weight set: the set, the status of WEIGHT_CLOSE. -/
def closeSet (w : WeightSet) (ld : WeightLoad) : WeightSet × Nat :=
  let xs := byIndex ld.applied ld.chunks
  let missing := ld.chunks - xs.length
  let pkg := Config.sha384 (ld.header ++ xs.flatMap (fun e => digestBytes e.2.1))
  let plain := Config.sha384 (xs.flatMap (fun e => digestBytes e.2.2))
  let w := { w with load := none, missing := missing }
  if missing ≠ 0 then ({ w with status := .incomplete, key := none }, stSuccess)
  else if plain = ld.plain then ({ w with status := .complete, plain := some plain, package := some pkg, recPlain := some plain }, stSuccess)
  else ({ w with status := .incomplete, key := none }, stAuth)

/-- A partition's load ends, as by WEIGHT_CLOSE: the intake decryptors are withdrawn. -/
def endLoad (pn : Nat) (s : State) : State × Nat :=
  match getPart s pn with
  | none => (s, stSuccess)
  | some p =>
    match p.wset.load with
    | none => (s, stSuccess)
    | some ld =>
      let (w, st) := closeSet p.wset ld
      (commitRec pn (fun s => updPart s pn (fun p => { p with wset := w })) s, st)

/-- RESULT of WEIGHT_CLOSE and WEIGHT_STATUS. -/
def closeResult (s : State) (pn : Nat) : Nat :=
  match getPart s pn with
  | some p => wstatusCode p.wset.status + p.wset.missing * 2 ^ 64
  | none => 0

def isClose (pn : Nat) (w : Waiting) : Bool := match w.what with | .weightClose n => n == pn | _ => false

/-- WEIGHT_CLOSE goes on when no chunk taken before it is left (R318). -/
def tryClose (pn : Nat) (s : State) : State :=
  let ws := s.waiting.filter (isClose pn)
  if ws.isEmpty || s.jobs.any (fun j => jobOf s pn j && !j.silent) then s else
  let (s, st) := endLoad pn { s with waiting := s.waiting.filter (fun w => !isClose pn w) }
  forEach ws (fun w s => postPlain s w.fn (waitCompl w st (if st = stSuccess then closeResult s pn else 0))) s

/-! ## Applying chunks (10 R314, R317, R319, R320; 11 R347) -/

def sameChunk (a b : ChunkRec) : Bool := a.kind == b.kind && a.field == b.field && a.slot == b.slot && a.arr == b.arr

/-- An applied chunk on record: ARRAY and RANGE in flash and, with the cistern, in the reserve; LINES copies. What goes to the cistern is sealed under a draw of its key (00 R4). -/
def recordChunk (key : Nat) (p : Partition) (c : ChunkRec) (mode : Nat) (cells : SMap Int) : Partition :=
  let w := p.wset
  if c.kind = 3 then
    let xs := cells.map (fun e => (⟨c.field, c.slot, e.1, BitVec.ofInt 544 e.2, key⟩ : LinesRec))
    { p with wset := { w with lines := w.lines.filter (fun x => !(x.field == c.field && x.slot == c.slot && cells.any (fun e => e.1 == x.line))) ++ xs } }
  else
    let res := w.reserve.filter (fun r => !(r.field == c.field && r.slot == c.slot && r.kind == c.kind && r.arr == c.arr))
    { p with wset := { w with
      recs := w.recs.filter (fun x => !sameChunk x c) ++ [c],
      reserve := if p.cistern then res ++ [⟨c.field, c.slot, c.kind, c.arr, Fin.ofNat 3 mode, cells, key⟩] else res } }

/-- A chunk has been applied: its digests are recorded, its command completes; after the end of its load it is WRONG_STATE. -/
def finishChunk (pn : Nat) (j : ChunkJob) (s : State) : State :=
  let s := { s with jobs := s.jobs.filter (fun x => x != j) }
  match getPart s pn with
  | none => answerChunk j stAborted s
  | some p =>
    if j.silent then s
    else match p.wset.load with
      | none => answerChunk j stState s
      | some ld =>
        let p := recordChunk s.sec.cisternKey p j.chunk j.mode j.cells
        let w := p.wset
        let s := setPart s pn (some { p with wset := { w with
          recPlain := some ld.plain, load := some { ld with applied := ld.applied ++ [(j.chunk.index, j.raw, j.chunk.digest)] } } })
        answerChunk j stSuccess s

/-- A chunk could not be applied for want of a spare array (02 R63). -/
def failChunk (pn : Nat) (j : ChunkJob) (s : State) : State :=
  let s := { s with jobs := s.jobs.filter (fun x => x != j) }
  if j.silent then dropSlot s pn j.chunk.field j.chunk.slot else answerChunk j stWeights s

/-- LINES of a chunk go to their lantern's scratchpad, each line full (10 R314). -/
def applyLines (l : Nat) (cells : SMap Int) (s : State) : State :=
  updL s l (fun L => { L with pad := cells.foldl (fun m e => tset {} m e.1 ⟨BitVec.ofInt 544 e.2, true, false, false, 0xA⟩) L.pad })

/-- A lantern's domain has come on: LINES that waited for it are written. -/
def linesReady (l : Nat) (s : State) : State :=
  forEach (s.jobs.filter (fun j => j.chunk.kind == 3 && j.lantern == l)) (fun j s =>
    match partOf s l with
    | some pn => tryClose pn (finishChunk pn j (applyLines l j.cells s))
    | none => s) s

/-- Residual offsets replaced in a payload, gains kept: 256 entries of 5 bits from its first byte on. -/
def newResiduals (pay draw : Nat) : Nat :=
  ((List.range 256).map (fun i => (pay / 2 ^ (5 * i + 3) % 4 * 8 + (Config.recalOffset (draw + i)).toNat % 8) * 2 ^ (5 * i))).sum

/-- A bank column record's payload with the offsets measured: residuals, and the band offset of band k of its four groups (bytes 172 on of the record). -/
def recalPayload (pay draw k : Nat) : Nat :=
  (List.range 4).foldl (fun x j => putAt x (160 + 16 * j + 2 * k) 1 (Config.recalOffset (draw + 256 + j)).toNat) (putAt pay 0 160 (newResiduals pay draw))

/-- Every bank of a lantern recalibrated under a SETID; its monitors capture afresh (03 R86). -/
def recalLantern (setid : BitVec 32) (l : Nat) (s : State) : State :=
  let k := (bandPos (getL s l).temp).1
  let s := forEach (List.range 256) (fun n s =>
    let key := calKey 0x10 (bankSubject l (n / 8) (n % 8))
    calCommit { s with draws := s.draws + 260 } key (some setid) (recalPayload (recPay (calRec s key).cur) s.draws k)) s
  forEach (List.range 256) (fun a s => startCapture s l a) s

/-- A lantern whose offsets RECALIBRATE is to measure has its domain on; the command completes with its last lantern (01 R30; 11 R360). -/
def recalReady (l : Nat) (s : State) : State :=
  match s.recal.find? (fun e => e.1 == l) with
  | none => s
  | some e =>
    let s := recalLantern e.2 l { s with recal := s.recal.filter (fun x => x.1 != l) }
    if !s.recal.isEmpty then s
    else showNow (resolveWaits (fun w => match w with | .recal _ => true | _ => false) (fun w => match w with | .recal r => (stSuccess, r) | _ => (0, 0)) s)

/-- Banks of a lantern take the arrays they program or erase. -/
def banksBusy (l : Nat) (s : State) : State := forEach (List.range 32) (fun b s => bankBusy s l b) s

/-- DOMAIN_RAMP_DONE: the domain is on, and what waited for it goes on (12 R368; 10 R320). -/
def rampEnd (f : Nat) (s : State) : State :=
  match (getF s f).ramping with
  | some r => startJobs (banksBusy r.lantern (if r.bank.isNone then recalReady r.lantern (linesReady r.lantern (rampDone f s)) else rampDone f s))
  | none => s

/-! ## Programming (02 R61 to R65; 03 R75, R99) -/

/-- Fresh limit of REF at a temperature, 0.1 % (03 Table 3-7, R99); below its first row and above its last that row's limit holds (DESIGN CHOICE, log 50). -/
def refLimit (t : Nat) : Rat :=
  let seg := fun (t0 t1 y0 y1 : Nat) => (y0 : Rat) + ((y1 : Rat) - y0) * ((t : Rat) - t0) / ((t1 : Rat) - t0)
  if t ≤ 25 then 13 else if t ≤ 45 then seg 25 45 13 12 else if t ≤ 65 then seg 45 65 12 14 else if t ≤ 85 then seg 65 85 14 16
  else if t ≤ 95 then seg 85 95 16 18 else if t ≤ 105 then seg 95 105 18 20 else 20

/-- Temperature of a lantern's arrays in whole degrees, as TPROG holds it. -/
def wholeTemp (L : Lantern) : Nat := (max 0 (min 255 (ratRne ((L.temp : Rat) / 8)))).toNat

/-- The cells of an array as a programming leaves them, reference columns with them; the drift scale is 1 (02 R62; 03 R73, R75). -/
def writeCells (j : ChunkJob) (A : WickArray) : WickArray :=
  { A with mode := Fin.ofNat 3 j.mode, cells := j.cells, refs := refPattern, trim := [], drift := 32768, driftNext := none, samples := [], fresh := 0 }

/-- Baselines from the samples kept, in 2^-6 code (03 R75). -/
def baselines (A : WickArray) : SMap Int :=
  tfill 0 [] 0 ((List.range 16).map (fun k => max (-32768) (min 32767 (ratRne (refMean A.samples k * 64)))))

/-- The measurements of a programming that held its verify: REF with its trims first (DESIGN CHOICE, log 50), then baselines from 64 reference operations, then the
signature (03 R75, R98, R99; 11 R339). -/
def measureArray (l a : Nat) (s : State) : State :=
  let (trim, ref, n) := directRef s l a
  let s := updArr { s with draws := n } l a (fun A => { A with trim := trim, ref0 := min 255 ref, reft := min 255 ref })
  let s := takeSamples 64 l a s
  let s := updArr s l a (fun A => { A with base := baselines A, drift := 32768, fresh := 0 })
  let (sig, n) := signature s l a 32768
  updArr { s with draws := n } l a (fun A => { A with sig := sig })

/-- An array that is in service from its programming on. -/
def programmedArray (s : State) (t : Nat) (A : WickArray) : WickArray :=
  { A with programmed := true, degraded := false, psec := s.powered / 1000000000, tprog := t, badRef := [], e0sq := none, lowWarned := false,
           touchQueued := false, touchRow := 0, retried := false }

/-- A SETID of an origin with the next sequence number. -/
def nextSetid (origin : Nat) (s : State) : BitVec 32 := BitVec.ofNat 32 (origin * 2 ^ 24 + (s.setSeq + 1) % 2 ^ 24)
def takeSetid (s : State) : State := { s with setSeq := (s.setSeq + 1) % 2 ^ 24 }

/-- A programming that held its verify and its REF limit (02 R62; 03 R75). -/
def programOk (pn l a : Nat) (j : ChunkJob) (s : State) : State :=
  let s := updArr s l a (programmedArray s (wholeTemp (getL s l)))
  let s := pairCommit (takeSetid s) l a (some (nextSetid 2 s))
  startJobs (bankBusy (finishChunk pn j s) l (a / 8))

/-- A chunk whose array was given up starts on the spare that took its logical number, or fails. -/
def restartChunk (pn l a : Nat) (j : ChunkJob) (s : State) : State :=
  match physOf (getL s l) j.chunk.arr with
  | some _ => startJobs (bankBusy { s with jobs := s.jobs.map (fun x => if x = j then { x with started := false } else x) } l (a / 8))
  | none => startJobs (bankBusy (failChunk pn j s) l (a / 8))

/-- The array is given up: a spare is programmed in its place, or the chunk fails (02 R63, R65). -/
def programElsewhere (pn l a : Nat) (j : ChunkJob) (s : State) : State :=
  restartChunk pn l a j (pairCommit (updArr s l a blankArray) l a none)

/-- A programming that failed: once more on this array, then elsewhere (02 R63). -/
def programFailed (pn l a : Nat) (j : ChunkJob) (s : State) : State :=
  if (getArr (getL s l) a).retried then programElsewhere pn l a j (arrayBad 3 4 0 l a s)
  else pairCommit (updArr s l a (fun A => { blankArray A with retried := true })) l a none

/-- ARRAY_PROGRAMMING_DONE: an array's verify ends, ok when every cell reached its band within 32 pulses and every slice lies in its band. -/
def programDone (l a : Nat) (ok : Bool) (s : State) : State :=
  match (activeJobs s).find? (fun j => j.lantern == l && physOf (getL s l) j.chunk.arr == some a), partOf s l with
  | some j, some pn =>
    if (getBank (getL s l) (a / 8)).prog != some a then s else
    let s := cycleUp l a s
    let s :=
      if 10000 ≤ (getArr (getL s l) a).cycles then programElsewhere pn l a j (retireArray l a s)
      else if !ok then programFailed pn l a j s
      else
        let s := measureArray l a (updArr s l a (writeCells j))
        if ((getArr (getL s l) a).ref0 : Rat) ≤ refLimit (wholeTemp (getL s l)) then programOk pn l a j s else programFailed pn l a j s
    tryClose pn s
  | _, _ => s

/-- WEIGHT_LOAD_IDLE_TIMEOUT: no chunk taken for 600 s (10 R318). -/
def loadIdle (pn : Nat) (s : State) : State :=
  match (getPart s pn).bind (·.wset.load) with
  | some ld => if s.jobs.any (fun j => jobOf s pn j && !j.silent) || decide (nowNs s < ld.lastAt + 600000000000) then s else (endLoad pn s).1
  | none => s

/-! ## Touch-ups (03 R106 to R108) -/

/-- May touch-ups of a partition run: its idle rule met, or a window open? -/
def touchOpen (p : Partition) : Bool := (p.idleTouch && !hasRunning p) || p.window10.isSome

/-- The drift scale and the tracked REF afresh, from 64 new samples. -/
def afreshDrift (l a : Nat) (s : State) : State :=
  driftUpdate (takeSamples 64 l a (updArr s l a (fun A => { A with samples := [], fresh := 0 }))) l a

/-- The level of Table 2-1 whose nominal conductance lies nearest to a slice's, in levels; a tie goes to the even level (log 50). -/
def nearestLevel (x : Rat) : Int := max (-3) (min 3 (ratRne x))

/-- Target level of slice k of an array in a touch-up: read, and its conductance divided by the drift scale (R108). -/
def touchLevel (id age : Nat) (A : WickArray) (n k : Nat) (level : Int) : Int :=
  nearestLevel ((sliceNow id A.cycles age k level + Config.readNoise n / 4096) / ((A.drift : Rat) / 32768))

/-- Slices from lo to hi - 1 of a table take their target levels; free values from n on. -/
def touchCells (id age : Nat) (A : WickArray) (base lo hi n : Nat) (m : SMap Int) : SMap Int :=
  (List.range (hi - lo)).foldl (fun t i => tset 0 t (lo + i) (touchLevel id age A (n + i) (base + lo + i) (tget 0 m (lo + i)))) m

/-- 16 rows of an array touched up, reference columns with them. -/
def touchRows (l a : Nat) (s : State) : State :=
  let A := getArr (getL s l) a
  let r := A.touchRow
  let touch := touchCells (arrayId l a) (arrayAge s A) A
  let cells := touch 0 (2048 * r) (2048 * (r + 16)) s.draws A.cells
  let refs := if r < 64 then touch (2 ^ 21) (16 * r) (16 * (r + 16)) (s.draws + 32768) A.refs else A.refs
  updArr { s with draws := s.draws + 33024 } l a (fun A => { A with cells := cells, refs := refs })

/-- A touch-up whose last chunk is done: one cycle more, drift and REF afresh (R108). An array that this retires keeps its partition's weight set as it is
(DESIGN CHOICE, log 50: 02 R65 says nothing of a retirement in service). -/
def touchEnd (pn l a : Nat) (s : State) : State :=
  let s := cycleUp l a (updArr s l a (fun A => { A with touchQueued := false, touchRow := 0, touchLast := some s.powered }))
  let s := pairCommit (afreshDrift l a s) l a none
  let s := if 10000 ≤ (getArr (getL s l) a).cycles then retireArray l a s else s
  updPart s pn (fun p => { p with window10 := p.window10.map (fun w => (w.1, w.2 + 1)) })

/-- TOUCH_UP_CHUNK: 16 rows of a queued array of a Ryile program, ok when every cell reached its band (R105, R107, R108). -/
def touchChunk (l a : Nat) (ok : Bool) (s : State) : State :=
  match (partOf s l).bind (getPart s), partOf s l with
  | some p, some pn =>
    let A := getArr (getL s l) a
    let B := getBank (getL s l) (a / 8)
    if !A.touchQueued || !isRyile p || !touchOpen p || !B.on || B.run.isSome || B.prog.isSome then s else
    let s := touchRows l a s
    let s := if ok then s else
      raiseL (pairCommit (updArr s l a (fun A => { A with degraded := true })) l a none) l sevWarn 0x020A (arrayDetail a 255 0)
    if A.touchRow + 16 < 1024 then updArr s l a (fun A => { A with touchRow := A.touchRow + 16 }) else touchEnd pn l a s
  | _, _ => s

/-- REFRESH_IDLE: no request of the partition in a running state for 10 ms (R105, R107). -/
def refreshIdle (pn : Nat) (s : State) : State :=
  match getPart s pn with
  | some p => (match p.idleSince with
    | some t => if isRyile p && !hasRunning p && decide (t + 10000000 ≤ nowNs s) then updPart s pn (fun p => { p with idleTouch := true }) else s
    | none => s)
  | none => s

/-- REFRESH_WINDOW_END: the window closes and its command completes (R107). -/
def windowEnd (pn : Nat) (s : State) : State :=
  match getPart s pn with
  | some p => (match p.window10 with
    | some (t, n) =>
      if nowNs s < t then s else
      resolveWaits (fun w => w == .refreshWindow pn) (fun _ => (stSuccess, n)) (updPart s pn (fun p => { p with window10 := none }))
    | none => s)
  | none => s

/-! ## Commands -/

/-- 12 R368; 10 R320. -/
def execDomainRampDone (field : Nat) (s : State) : Out := settled (fieldOk field) (rampEnd field s)
/-- 02 R62, R63. -/
def execArrayProgrammingDone (l arr : Nat) (ok : Bool) (s : State) : Out := settled (lanternOk l && arrOk arr) (programDone l arr ok s)
/-- 02 R66. -/
def execErasureDone (failed : List (Nat × Nat)) (s : State) : Out := settled (arraysOk failed) (erasureDone failed s)
/-- 10 R318. -/
def execWeightLoadIdleTimeout (part : Nat) (s : State) : Out := settled (partOk part) (loadIdle part s)
/-- 03 R107, R108. -/
def execTouchUpChunk (l arr : Nat) (ok : Bool) (s : State) : Out := guarded (lanternOk l && arrOk arr) (touchChunk l arr ok s)
/-- 03 R107. -/
def execRefreshIdle (part : Nat) (s : State) : Out := guarded (partOk part) (refreshIdle part s)
/-- 03 R107. -/
def execRefreshWindowEnd (part : Nat) (s : State) : Out := settled (partOk part) (windowEnd part s)

end Sys2Proof.Machine
end

