-- ==== Sys2Proof/Machine/PartCmds.lean ====
section
/-! DEFINITION. Commands on partitions and their settings (09 R273 to R277; 01 R28 to R32; 03 R79, R89, R106, R107; 08 R252; 11 R342, R353, R360; 12 R372). -/

namespace Sys2Proof.Machine

/-! ## PART_CREATE (09 R274, Table 9-6) -/

/-- The partition that the parameters describe. -/
def createParams (e : Entry) : Partition :=
  { state := .empty, fx0 := pf e 20 1 % 16, fy0 := pf e 20 1 / 16, w := pf e 21 1, h := pf e 22 1, quiet := (pf e 23 1).testBit 0,
    cistern := (pf e 23 1).testBit 1, port := if pf e 24 1 = 0 then .a else .b, vf := pf e 25 1, zen := pf e 26 1, hgonly := pf e 27 1,
    zchan := BitVec.ofNat 64 (pf e 28 8), window := pf e 36 1, windowNext := none, watchdog := pf e 40 4, watchdogNext := none, share := pf e 44 4,
    shareNext := none, share0 := pf e 44 4, epoch := 1 }

/-- Zenden channels named of ports not granted, or bit 15 of a port. -/
def zchanBad (p : Partition) : Bool :=
  (List.range 4).any (fun z => p.zchan.getLsbD (16 * z + 15) || (!p.zen.testBit z && (List.range 15).any (fun c => p.zchan.getLsbD (16 * z + c))))

/-- A power share is in range (12 R372). -/
def shareBad (p : Partition) (x : Nat) : Bool := decide (x < 50 * (p.w * p.h)) || decide (6100 < x)

def createFault (e : Entry) : Option Nat :=
  let p := createParams e
  entryFault e true [(20, 17), (40, 8)] (dlenOf e != 0)
    [(20, decide (9 < p.fx0) || decide (9 < p.fy0)), (21, p.w == 0 || decide (10 < p.w) || decide (10 < p.fx0 + p.w)),
     (22, p.h == 0 || decide (10 < p.h) || decide (10 < p.fy0 + p.h)), (23, decide (3 < pf e 23 1)), (24, decide (1 < pf e 24 1)),
     (25, p.vf == 0 || decide (16 < p.vf)), (26, decide (15 < p.zen)), (27, decide (127 < p.hgonly)), (28, zchanBad p),
     (36, p.window == 0 || decide (4 < p.window)), (40, decide (p.watchdog < 10) || decide (10000 < p.watchdog)), (44, shareBad p p.share)]

def overlaps (a b : Partition) : Bool :=
  decide (a.fx0 < b.fx0 + b.w ∧ b.fx0 < a.fx0 + a.w ∧ a.fy0 < b.fy0 + b.h ∧ b.fy0 < a.fy0 + a.h)

/-- Does a Zenden channel that p names belong to a partition? -/
def zchanTaken (s : State) (p : Partition) : Bool :=
  (List.range 4).any (fun z => (List.range 15).any (fun c => p.zchan.getLsbD (16 * z + c) && tget 0 (getZ s z).owner c != 0))

/-- R28 and the binding. -/
def createConflict (s : State) (pn : Nat) (p : Partition) : Option Nat :=
  let ps := (allParts s).map (·.2)
  if (getPart s pn).isSome || ps.any (overlaps p) || decide (16 ≤ ps.length) then some stConflict
  else if (partFields p).any (unusableField s) then some stUnusable
  else if ps.any (fun q => q.port == p.port && q.vf == p.vf) || zchanTaken s p then some stConflict else none

/-- Slot of a quiet partition: the lowest that no other quiet partition has (08 R252). -/
def quietSlot (s : State) : Option Nat := (List.range 16).find? (fun j => (allParts s).all (fun e => !e.2.quiet || e.2.slot != j))

/-- R32 and R252. -/
def createRoutes (s : State) (p : Partition) : Bool :=
  let ps := (allParts s).map (·.2)
  let mine := crossedFields p
  !(ps.any (fun q => q.quiet && mine.any (inRect q)))
    && (!p.quiet || (decide (p.w * p.h ≤ 25) && !(ps.any (fun q => (crossedFields q).any (inRect p))) && (quietSlot s).isSome))

/-- Shares of every partition, those that are to come into force counted. -/
def sharesSum (s : State) (except : Nat) : Nat := ((allParts s).map (fun e => if e.1 = except then 0 else e.2.shareNext.getD e.2.share)).sum

/-- Zenden channels of a partition are its own. -/
def takeChannels (pn : Nat) (p : Partition) (s : State) : State :=
  forEach (List.range 4) (fun z s => forEach (List.range 15) (fun c s =>
    if p.zchan.getLsbD (16 * z + c) then updZ s z (fun Z => { Z with owner := tset 0 Z.owner c (pn + 1) }) else s) s) s

/-- Counters of a rectangle restart (13 R389). -/
def zeroCounters (p : Partition) (s : State) : State :=
  forEach (partFields p) (fun f s =>
    forEach (lanternsIn f) (fun l s => updL s l (fun L => { L with counters := [] })) (updF s f (fun F => { F with counters := [] }))) s

def sameRect (d : Dormant) (pn : Nat) (p : Partition) : Bool := d.part == pn && d.fx0 == p.fx0 && d.fy0 == p.fy0 && d.w == p.w && d.h == p.h
def dormantMeets (d : Dormant) (p : Partition) : Bool :=
  decide (d.fx0 < p.fx0 + p.w ∧ p.fx0 < d.fx0 + d.w ∧ d.fy0 < p.fy0 + p.h ∧ p.fy0 < d.fy0 + d.h)

/-- A dormant record is adopted: its chunk records and their digest (11 R342). -/
def adopt (s : State) (pn : Nat) (p : Partition) : Partition :=
  match s.dormant.find? (fun d => sameRect d pn p) with
  | some d => { p with wset := { p.wset with recs := d.recs, recPlain := d.plain, status := if d.recs.isEmpty then .absent else .incomplete } }
  | none => p

def partCreate (e : Entry) (h : Nat) (s : State) : Done :=
  let pn := partNo e
  if !isPf e then fails stPermit s
  else if 16 ≤ pn then failsField 4 s
  else fieldsThen (createFault e) (fun s0 =>
    let s := s0
    let p := createParams e
    match createConflict s pn p with
    | some st => fails st s
    | none =>
      if !createRoutes s p then fails stRoute s
      else if 6100 < sharesSum s 16 + p.share then fails stPower s
      else
        let other := s.dormant.filter (fun d => dormantMeets d p && !sameRect d pn p)
        let p := { adopt s pn p with slot := if p.quiet then (quietSlot s).getD 0 else 0, debug := s.sec.jtag, idleSince := some (nowNs s) }
        let xs := recArrays s (other.flatMap (·.recs))
        let s := { s with dormant := s.dormant.filter (fun d => !dormantMeets d p) }
        let s := takeChannels pn p (zeroCounters p (writeMasks pn (setPart s pn (some p))))
        if xs.isEmpty then doneWith 1 s else eraseThen e h xs false false 1 s0 s) s

/-! ## PART_DELETE (09 R277; 10 R321; 13 R389, R403) -/

/-- A command that waits on the partition is ended. -/
def waitsPart (pn : Nat) : WaitFor → Bool
  | .weightClose n => n == pn
  | .refreshWindow n => n == pn
  | _ => false

/-- Everything a partition holds goes, but for the arrays of its weight set. -/
def removePart (pn : Nat) (p : Partition) (s : State) : State :=
  let s := dropJobs (jobOf s pn) s
  let s := resolveWaits (waitsPart pn) (fun _ => (stAborted, 0)) s
  let s := forEach (s.contexts.filter (fun c => c.part == pn)) (fun c s => eraseCtx s c.handle) s
  let s := forEach (List.range 4) (fun z s => updZ s z (fun Z => { Z with owner := Z.owner.filter (fun x => x.2 != pn + 1) })) s
  let s := forEach (s.tiles.map (·.1)) (fun t s => updT s t (fun T => { T with
    entries := T.entries.filter (fun x => x.1 / 16 != pn), weirK := tset 0 T.weirK pn 0,
    handled := T.handled.filter (fun x => x.1 / 65536 != pn) })) s
  let ls := (partFields p).flatMap lanternsIn
  let s := forEach ls (fun l s => forEach (List.range 5) (fun q s => if (getRP s l q).sched then updRP s l q (fun P => { P with sched := false }) else s) s) s
  let s := writeMasks pn (setPart (zeroCounters p s) pn none)
  recheckRoutes (forEach (ls.filter (fun l => (getL s l).on)) (fun l s => switchOff s l) s)

def partDelete (e : Entry) (h : Nat) (s : State) : Done :=
  partCmd .pf idleState e (fun p => fieldsThen (entryFault e true [] (dlenOf e != 0) []) (fun s =>
    eraseThen e h (partArrays s p) false false 0 s (removePart (partNo e) p s))) s

/-! ## PART_SET (09 R273; 12 R372) -/

def partSet (e : Entry) (s : State) : Done :=
  let item := pf e 20 1
  let v := pf e 24 4
  let pn := partNo e
  partCmd .pf settingState e (fun p => fieldsThen (entryFault e true [(20, 1), (24, 4)] (dlenOf e != 0)
    [(20, decide (2 < item)), (24, if item = 0 then decide (v < 10) || decide (10000 < v) else if item = 1 then v == 0 || decide (4 < v) else item == 2 && shareBad p v)])
    (fun s =>
      if item = 2 ∧ 6100 < sharesSum s pn + v then fails stPower s
      else if item = 0 then done (settleIdle pn (updPart s pn (fun p => { p with watchdogNext := some v })))
      else if item = 1 then done (updPart s pn (fun p => { p with windowNext := some v }))
      else done (settleIdle pn (updPart s pn (fun p => { p with shareNext := some v }))))) s

/-! ## PROGRAM_LOAD (09 R276; 10 R321) -/

/-- The weight set is erased: its keys, load, chunks, records and copies go; status absent. -/
def dropSet (pn : Nat) (s : State) : State :=
  let s := dropJobs (jobOf s pn) s
  let s := resolveWaits (waitsPart pn) (fun _ => (stAborted, 0)) s
  commitRec pn (fun s => updPart s pn (fun p => { p with wset := {} })) s

/-- Routers of a partition leave scheduled mode before a program sets theirs. -/
def unschedule (p : Partition) (s : State) : State :=
  forEach ((partFields p).flatMap lanternsIn) (fun l s => forEach (List.range 5) (fun q s =>
    if (getRP s l q).sched then updRP s l q (fun P => { P with sched := false }) else s) s) s

/-- A program in place: LOADED, every lantern loaded, domains switched. -/
def installProgram (pn : Nat) (im : List Byte) (s : State) : State :=
  match getPart s pn with
  | none => s
  | some p =>
    let s := setPart (unschedule p s) pn (some { p with prog := some (imgProgram im), state := .loaded })
    partDomains (reloadPart s pn) pn

/-- RESULT of PROGRAM_LOAD. -/
def loadResult (s : State) (pn : Nat) : Nat :=
  match getPart s pn with
  | some p => (configDigest s pn p).toNat % 2 ^ 48 + p.epoch * 2 ^ 48
  | none => 0

def programLoad (e : Entry) (h : Nat) (s : State) : Done :=
  let pn := partNo e
  partCmd .pfBound idleState e (fun p => fieldsThen (entryFault e true [] false []) (withData e (fun im s0 =>
    let s := s0
    match loadCheck s pn p im with
    | some (reason, l, i) => (s, some { status := stProgram, result := l % 65536 + i % 65536 * 65536, detail := reason })
    | none =>
      let barred := !p.wset.allow.isEmpty && !p.wset.allow.contains (imgDigest im)
      let xs := if barred then partArrays s p else []
      let s := commitRec pn (installProgram pn im) (if barred then dropSet pn s else s)
      if xs.isEmpty then doneWith (loadResult s pn) s else eraseThen e h xs false false (loadResult s pn) s0 s))) s

/-! ## PART_START and PART_DRAIN (09 R277; 12 R382) -/

/-- The weight set fits the program (R277; 10 R321). -/
def weightsFit (p : Partition) : Bool :=
  p.wset.status == .complete
    && (match p.prog with | some g => p.wset.plain == some g.wset && (p.wset.allow.isEmpty || p.wset.allow.contains g.digest) | none => false)

/-- The program's lanterns are still being switched on: the command is not carried out before. -/
def startWaits (s : State) (e : Entry) : Bool :=
  match getPart s (partNo e) with
  | some p => p.state == .loaded && !p.hold && weightsFit p && notReady s p
  | none => false

def partStart (e : Entry) (s : State) : Done :=
  let pn := partNo e
  partCmd .pfBound isLoaded e (fun p => fieldsThen (entryFault e true [] (dlenOf e != 0) []) (fun s =>
    if p.hold then fails stPower s
    else if !weightsFit p then fails stWeights s
    else
      let s := commitRec pn (fun s => updPart s pn (fun p => { resetPert p with window := p.windowNext.getD p.window, windowNext := none })) s
      done (updPart (beginPart s pn) pn (fun p => { p with state := .serving })))) s

def partDrain (e : Entry) (h : Nat) (s : State) : Done :=
  let pn := partNo e
  let all := (pf e 20 1).testBit 0
  partCmd .pfBound servingState e (fun p => fieldsThen (entryFault e true [(20, 1)] (dlenOf e != 0) [(20, decide (1 < pf e 20 1))]) (fun s =>
    let live := p.reqs.filter (fun r => r.state != .ending)
    let s := if all then forEach live (fun r s => setEnding s pn r.tag stCancelled 0) s else s
    let s := updPart s pn (fun p => { p with state := .draining })
    later (drainDone (waitFor e h (.drain pn (if all then live.length else 0)) s) pn))) s

/-! ## Settings (03 R79, R89, R106, R107) -/

def driftComp (e : Entry) (s : State) : Done :=
  let v := pf e 20 1
  partCmd .pfBound settingState e (fun _ => fieldsThen (entryFault e true [(20, 1)] (dlenOf e != 0) [(20, decide (1 < v))]) (fun s =>
    done (settleIdle (partNo e) (updPart s (partNo e) (fun p => { p with driftNext := some (v == 1) }))))) s

/-- Range of a monitor setting (03 Table 3-2). -/
def monRange (k : Nat) : Nat × Nat :=
  if k = 0 then (8, 16) else if k = 1 then (4096, 1048576) else if k = 4 then (1, 65536) else (1, 9999)

def monWith (m : MonSet) (k v : Nat) : MonSet :=
  match k with
  | 0 => { m with monW := v }
  | 1 => { m with captureN := v }
  | 2 => { m with rdfWarn := v }
  | 3 => { m with rdfErr := v }
  | 4 => { m with satWarn := v }
  | _ => { m with profTol := v }

def monitorSet (e : Entry) (s : State) : Done :=
  let k := pf e 20 1
  let v := pf e 24 4
  partCmd .pfBound settingState e (fun p =>
    let m := monWith (p.monNext.getD p.mon) k v
    fieldsThen (entryFault e true [(20, 1), (24, 4)] (dlenOf e != 0)
      [(20, decide (5 < k)), (24, decide (k ≤ 5) && (decide (v < (monRange k).1) || decide ((monRange k).2 < v) || decide (m.rdfErr < m.rdfWarn)))])
      (fun s => done (settleIdle (partNo e) (updPart s (partNo e) (fun p => { p with monNext := some m }))))) s

def refreshSet (e : Entry) (s : State) : Done :=
  let v := pf e 20 1
  partCmd .pfBound idleState e (fun p => fieldsThen (entryFault e true [(20, 1)] (dlenOf e != 0) [(20, decide (v < 13) || decide (50 < v))]) (fun s =>
    if !isRyile p then fails stPermit s
    else done (commitRec (partNo e) (fun s => updPart s (partNo e) (fun p => { p with refresh := v })) s))) s

def refreshWindow (e : Entry) (h : Nat) (s : State) : Done :=
  let v := pf e 24 4
  let pn := partNo e
  partCmd .pfBound settingState e (fun p => fieldsThen (entryFault e true [(24, 4)] (dlenOf e != 0) [(24, v == 0 || decide (60000 < v))]) (fun s =>
    if !isRyile p then fails stPermit s
    else
      let t := nowNs s + v * 1000000
      let w := match p.window10 with | some (u, n) => (max u t, n) | none => (t, 0)
      later (waitFor e h (.refreshWindow pn) (updPart s pn (fun p => { p with window10 := some w }))))) s

/-! ## RECALIBRATE (11 R360; 03 after R97) -/

/-- Arrays of lanterns that are not bad. -/
def goodArrays (s : State) (ls : List Nat) : Nat := (ls.map (fun l => ((List.range 256).filter (fun a => !(getArr (getL s l) a).bad)).length)).sum

/-- Lanterns outside every partition that are not bad. -/
def freeLanterns (s : State) : List Nat := (List.range nLanterns).filter (fun l => (partOf s l).isNone && !s.badLanterns.contains l)

/-- Offsets of lanterns recalibrated: at once where the domain is on, else once it is, with the command waiting (01 R30). -/
def recalOffsets (e : Entry) (h : Nat) (ls : List Nat) (s : State) : Done :=
  let id := nextSetid 3 s
  let s0 := s
  let s := takeSetid s
  let res := goodArrays s ls + s.setSeq * 2 ^ 32
  let dark := ls.filter (fun l => !(getL s l).on)
  let s := forEach (ls.filter (fun l => (getL s l).on)) (recalLantern id) s
  if dark.isEmpty then doneWith res s
  else later (waitFor e h (.recal res) (forEach dark (fun l s => needForWork { s with recal := s.recal ++ [(l, id)] } l) (holdShown s0 s)))

/-- Arrays of a partition with samples get their drift scale now. -/
def driftNow (pn : Nat) (p : Partition) (s : State) : Done :=
  let xs := (partLanterns s p).flatMap (fun l => ((getL s l).arrays.filter (fun e => e.2.programmed && !e.2.samples.isEmpty)).map (fun e => (l, e.1)))
  let s := forEach xs (fun e s => driftUpdate s e.1 e.2) s
  doneWith xs.length (settleIdle pn s)

def recalibrate (e : Entry) (h : Nat) (s : State) : Done :=
  let kind := pf e 20 1
  let pn := partNo e
  pfCmd e (fieldsThen (entryFault e true [(20, 1)] (dlenOf e != 0)
      [(20, decide (2 < kind)), (4, decide (16 ≤ pn) && !(kind == 0 && pn == 255))]) (fun s =>
    if kind = 0 ∧ pn = 255 then recalOffsets e h (freeLanterns s) s else
    match getPart s pn with
    | none => fails stState s
    | some p =>
      let ls := partLanterns s p
      if kind = 0 then (if idleState p.state then recalOffsets e h ls s else fails stState s)
      else if kind = 1 then driftNow pn p s
      else doneWith (goodArrays s ls) (forEach ls (fun l s => forEach (List.range 256) (fun a s => startCapture s l a) s) s))) s

/-! ## Commands -/

/-- 09 R274. -/
def execPartCreate (e : Entry) (s : State) : Out := settled (entryOk e) (takeLamp e (partCreate e) s)
/-- 09 R277. -/
def execPartDelete (e : Entry) (s : State) : Out := settled (entryOk e) (takeLamp e (partDelete e) s)
/-- 09 R273. -/
def execPartSet (e : Entry) (s : State) : Out := settled (entryOk e) (takeCmd e (fun _ => partSet e) s)
/-- 09 R276. -/
def execProgramLoad (e : Entry) (s : State) : Out := settled (entryOk e) (takeLamp e (programLoad e) s)
/-- 09 R277. -/
def execPartStart (e : Entry) (s : State) : Out :=
  settled (entryOk e) (if startWaits s e then passBy e s else takeCmd e (fun _ => partStart e) s)
/-- 09 R277. -/
def execPartDrain (e : Entry) (s : State) : Out := settled (entryOk e) (takeCmd e (partDrain e) s)
/-- 03 R89. -/
def execMonitorSet (e : Entry) (s : State) : Out := settled (entryOk e) (takeCmd e (fun _ => monitorSet e) s)
/-- 03 R79. -/
def execDriftComp (e : Entry) (s : State) : Out := settled (entryOk e) (takeCmd e (fun _ => driftComp e) s)
/-- 03 R106. -/
def execRefreshSet (e : Entry) (s : State) : Out := settled (entryOk e) (takeCmd e (fun _ => refreshSet e) s)
/-- 03 R107. -/
def execRefreshWindow (e : Entry) (s : State) : Out := settled (entryOk e) (takeCmd e (refreshWindow e) s)
/-- 11 R360. -/
def execRecalibrate (e : Entry) (s : State) : Out := settled (entryOk e) (takeCmd e (recalibrate e) s)

end Sys2Proof.Machine
end

