-- ==== Sys2Proof/Machine/RequestCmds.lean ====
section
/-! DEFINITION. Commands on requests, adapters' release and contexts (09 R278 to R280, R289 to R296; 10 R323, R324). -/

namespace Sys2Proof.Machine

/-! ## SUBMIT (09 R278, R279) -/

/-- A context of a partition that a command may name: not in use by another, not past its time (R293). -/
def liveCtx (s : State) (pn : Nat) (h : BitVec 64) : Option Context :=
  s.contexts.find? (fun c => c.handle == h && c.part == pn && !c.busy && decide (nowNs s < c.expiry))

/-- Token ids of 4 bytes each from place i on. -/
def tokensAt (d : List Byte) (i n : Nat) : List (BitVec 32) := (List.range n).map (fun k => BitVec.ofNat 32 (fieldAt d (i + 4 * k) 4))

def promptLen (d : List Byte) : Nat := fieldAt d 28 4
def modeBit (d : List Byte) (n : Nat) : Bool := (fieldAt d 32 1).testBit n
def ctxHandle (d : List Byte) : BitVec 64 := BitVec.ofNat 64 (fieldAt d 56 8)
/-- Ids at which the request stops, and its stop sequences. -/
def endIds (d : List Byte) : List (BitVec 32) := tokensAt d 72 (min 8 (fieldAt d 68 1))
def stopSeqs (d : List Byte) : List (List (BitVec 32)) :=
  (List.range (min 4 (fieldAt d 69 1))).map (fun k => tokensAt d (104 + 32 * k) (min 8 (fieldAt d (232 + k) 1)))

/-- Positions of the resumed context. -/
def resumedPositions (c : Option Context) : Nat := match c with | some c => c.lastPos + 1 | none => 0

/-- The first faulty field of a request block (Table 9-9). -/
def blockFault (g : Program) (d : List Byte) (pos0 : Nat) : Option Nat :=
  let b := fun i n : Nat => fieldAt d i n
  let pl := promptLen d
  let badId := fun i : Nat => decide (g.vocab ≤ b i 4)
  let resume := modeBit d 3
  lowest ([(8, b 8 8 % 4096 != 0), (16, decide (1023 < b 16 2)), (18, decide (b 18 1 < 6) || decide (16 < b 18 1)), (19, b 19 1 != 255 && decide (63 < b 19 1)),
      (24, b 24 4 == 0 || decide (1048576 < b 24 4) || decide (g.ctxmax < pl + b 24 4 + pos0)), (28, decide (1048576 < pl) || (pl == 0 && !resume)),
      (32, decide (15 < b 32 1) || (modeBit d 1 && !g.draft)), (33, if modeBit d 1 then b 33 1 == 0 || decide (8 < b 33 1) else b 33 1 != 0),
      (34, decide (256 < b 34 2)), (36, modeBit d 0 && (b 36 4 == 0 || decide (0x447A0000 < b 36 4))), (40, b 40 4 == 0 || decide (0x3F800000 < b 40 4)),
      (56, !resume && b 56 8 != 0), (64, if modeBit d 2 then b 64 4 == 0 || decide (86400 < b 64 4) else b 64 4 != 0), (68, decide (8 < b 68 1)),
      (69, decide (4 < b 69 1))]
    ++ [70, 71].map (fun i => (i, b i 1 != 0))
    ++ (List.range (min 8 (b 68 1))).map (fun k => (72 + 4 * k, badId (72 + 4 * k)))
    ++ (List.range (min 4 (b 69 1))).flatMap (fun q =>
        (232 + q, b (232 + q) 1 == 0 || decide (8 < b (232 + q) 1)) :: (List.range (min 8 (b (232 + q) 1))).map (fun k => (104 + 32 * q + 4 * k, badId (104 + 32 * q + 4 * k))))
    ++ (List.range 20).map (fun k => (236 + k, b (236 + k) 1 != 0))
    ++ (List.range pl).map (fun k => (256 + 4 * k, badId (256 + 4 * k))))

/-- Slot of a current adapter, or of a version. -/
def adapterSlot (p : Partition) (t : Adapter → Bool) : Option Nat :=
  (p.adapters.find? (fun e => match e.2 with | some a => t a | none => false)).map (·.1)

/-- The adapter slot bound, plus one, or the status that refuses it (R279 step 4, R296). -/
def bindAdapter (p : Partition) (d : List Byte) (c : Option Context) : Nat ⊕ Nat :=
  if modeBit d 3 then
    match c with
    | some c => if c.adapterId = 0 then .inl 0 else
        (match adapterSlot p (fun a => a.id == c.adapterId && a.ver == c.adapterVer) with | some k => .inl (k + 1) | none => .inr stGone)
    | none => .inl 0
  else
    let id := fieldAt d 52 4
    if id = 0 then .inl 0 else match adapterSlot p (fun a => a.id == id && a.current) with | some k => .inl (k + 1) | none => .inr stNotFound

/-- The request that a block describes. -/
def newRequest (e : Entry) (h : Nat) (d : List Byte) (pos0 adapter : Nat) (seq : BitVec 32) (shares : List Share) (c : Option Context) (owners : List (Nat × Nat × Nat)) : Request :=
  let b := fun i n : Nat => fieldAt d i n
  let resume := modeBit d 3
  { tag := BitVec.ofNat 64 (b 0 8), fn := e.fn, sqid := e.sqid, sqhd := h, cid := e.cid, state := .prefill, rbase := b 8 8, rn := b 16 2, rlog2 := b 18 1,
    int := { vector := b 19 1, count := b 20 2, time := b 22 2 }, cons := 0, written := 0, delivered := 0, maxNew := b 24 4, sample := modeBit d 0,
    spec := modeBit d 1, keep := modeBit d 2, resume := resume, draftK := b 33 1, topK := b 34 2, temp := BitVec.ofNat 32 (b 36 4),
    topP := BitVec.ofNat 32 (b 40 4), seed := BitVec.ofNat 64 (b 44 8), promptLen := promptLen d, prompt := tokensAt d 256 (promptLen d), ends := endIds d,
    stops := stopSeqs d, keepTtl := b 64 4, adapter := adapter, pos0 := pos0, gen := [], passes := [], draftOff := none, inPass := !resume, endStatus := 0,
    reason := 0, hit := 0, final := false, pauseTtl := 0, resuming := resume, handle := 0, seq := seq, shares := shares, stage := .bind,
    image := match c with | some c => c.image | none => seq.toNat,
    owners := owners, lastTok := c.map (·.lastTok), storeErr := 0, note := none,
    written9 := false, silent := false, mute := false }

/-- One reference more on an adapter slot. -/
def holdAdapter (m : SMap (Option Adapter)) (slot : Nat) : SMap (Option Adapter) :=
  tupd none m slot (fun a => a.map (fun a => { a with refs := a.refs + 1 }))

/-- The prompt enters the mesh at the host port's headgate: its token lines through entry 0, the parameter line through entry 1, where the program names them (01 R27; 06 R173). 17 tokens go in a line, whose bytes the spec does not lay out (DESIGN CHOICE, log 52). -/
def sendPrompt (pn : Nat) (p : Partition) (tag : BitVec 64) (tokens : Nat) (s : State) : State :=
  let t := hostTile p.port
  let send := fun (k : Nat) (x : Line) (s : State) =>
    let e := tget {} (getT s t).entries (pn * 16 + k)
    if e.grant = 0 then s else sendT s t (pn * 16 + k) (tileFlit t pn e.cls e.dest 0 e.sub 0xA x)
  send 1 (Config.requestLine tag 0) (forEach (List.range ((tokens + 16) / 17)) (fun i => send 0 (Config.requestLine tag (i + 1))) s)

/-- Owner table of a prompt spread over a ring of n modules (07 R224, R226): 2n chunks of equal length, a multiple of 4,096 positions, the last shortened; module k owns chunks k and 2n - 1 - k. -/
def ownerTable (n len : Nat) : List (Nat × Nat × Nat) :=
  let c := (len + 2 * n * 4096 - 1) / (2 * n * 4096) * 4096
  ((List.range (2 * n)).map (fun k => (k * c, min len ((k + 1) * c), if k < n then k else 2 * n - 1 - k))).filter (fun e => decide (e.1 < e.2.1))

/-- Ranges of a new sequence: module firmware may spread a prompt over a complete ring; positions past the last range are the home's. -/
def ownersOf (s : State) (tag : BitVec 64) (pos0 len : Nat) : List (Nat × Nat × Nat) :=
  if pos0 = 0 ∧ 2 ≤ s.ring.size ∧ Config.ringSpread tag then ownerTable s.ring.size len else []

/-- Shares that a new or a resumed sequence takes, with pages for n positions (07 R227, R230). -/
def admitShares (s : State) (p : Partition) (layout : BitVec 384) (c : Option Context) (n : Nat) : Option (List Share) :=
  reserve s p n (match c with | some c => recordPlan layout c.shares | none => sharePlan layout) []

/-- Admission: the request takes its slot, pages, sequence tag and adapter version; a resumed context is consumed (R279, R280, R292). -/
def enterRequest (e : Entry) (pn : Nat) (r : Request) (c : Option Context) (s : State) : State :=
  let s := match c with | some c => if r.resume then dropRecord s c.handle else s | none => s
  let s := { s with seqTag := s.seqTag + 1 }
  let s := match getQp s e.fn e.sqid with | some q => setQp s e.fn e.sqid (some { q with busy := q.busy - 1 }) | none => s
  updPart s pn (fun p => noteIdle (nowNs s) { p with
    reqs := p.reqs ++ [r],
    adapters := if r.adapter = 0 then p.adapters else holdAdapter p.adapters (r.adapter - 1) })

/-- The checks of R279 from step 3 on, in order. -/
def enterOrRefuse (e : Entry) (h pn : Nat) (p : Partition) (g : Program) (d : List Byte) (c : Option Context) (s : State) : Done :=
  let pos0 := if modeBit d 3 then resumedPositions c else 0
  let need := pos0 + promptLen d + fieldAt d 24 4 + 9
  if p.reqs.any (fun r => r.tag.toNat == fieldAt d 0 8 || r.rn == fieldAt d 16 2) then fails stDuplicate s
  else match bindAdapter p d c with
    | .inr st => fails st s
    | .inl a =>
      let ctx := if modeBit d 3 then (match c with
          | none => some stNotFound
          | some c => if c.layout ≠ g.clayout ∨ c.wset ≠ p.wset.plain.getD 0 then some stLayout else none) else none
      match ctx with
      | some st => fails st s
      | none =>
        if 1024 ≤ p.reqs.length ∨ 4096 ≤ reqsInFlight s then fails stSlot s
        else match admitShares s p g.clayout c need with
        | none => fails stCache s
        | some shares =>
          let r := newRequest e h d pos0 a s.seqTag shares c (ownersOf s (BitVec.ofNat 64 (fieldAt d 0 8)) pos0 (promptLen d))
          later (sendPrompt pn p r.tag (promptLen d + (if r.resume then 1 else 0)) (enterRequest e pn r c s))

def submit (e : Entry) (h : Nat) (s : State) : Done :=
  let pn := partNo e
  partCmd .bound isServing e (fun p => fieldsThen (entryFault e true [] (decide (dlenOf e < 256)) []) (withData e (fun d s =>
    match p.prog with
    | none => fails stState s
    | some g =>
      if dlenOf e ≠ 256 + 4 * promptLen d then failsField 16 s
      else
        let c := if modeBit d 3 then liveCtx s pn (ctxHandle d) else none
        match blockFault g d (resumedPositions c) with
        | some off => failsData off s
        | none => enterOrRefuse e h pn p g d c s))) s

/-! ## CANCEL, PAUSE, REQ_QUERY (09 R289, R290) -/

def tagOf (e : Entry) : BitVec 64 := BitVec.ofNat 64 (pf e 24 8)

/-- A tag with no request in flight: among the completed ones, or unknown. -/
def goneTag (p : Partition) (tag : BitVec 64) (s : State) : Done := fails (if p.doneTags.contains tag then stComplete else stNotFound) s

/-- A request goes to ENDING by a command; one already ending keeps its reason. -/
def endBy (pn : Nat) (tag : BitVec 64) (status ttl : Nat) (s : State) : State :=
  updReq s pn tag (fun r => if r.state = .ending then r
    else { r with state := .ending, endStatus := status, reason := reasonOf status, hit := 0, pauseTtl := ttl })

def cancel (e : Entry) (h : Nat) (s : State) : Done :=
  let pn := partNo e
  let tag := tagOf e
  partCmd .bound requestState e (fun p => fieldsThen (entryFault e true [(24, 8)] (dlenOf e != 0) []) (fun s =>
    match findReq p tag with
    | none => goneTag p tag s
    | some _ => later (waitFor e h (.cancel pn tag) (endBy pn tag stCancelled 0 s)))) s

def pause (e : Entry) (h : Nat) (s : State) : Done :=
  let pn := partNo e
  let tag := tagOf e
  let ttl := pf e 32 4
  partCmd .bound servingState e (fun p => fieldsThen (entryFault e true [(24, 12)] (dlenOf e != 0) [(32, ttl == 0 || decide (86400 < ttl))]) (fun s =>
    if !p.cistern || !cisternOn s then fails stState s
    else match findReq p tag with
      | none => goneTag p tag s
      | some r =>
        if r.state = .ending ∧ r.endStatus ≠ stPaused then fails stComplete s
        else later (waitFor e h (.pause pn tag) (endBy pn tag stPaused ttl s)))) s

def stateCode : RState → Nat
  | .prefill => 0
  | .decode => 1
  | .held => 2
  | .ending => 3

def reqQuery (e : Entry) (s : State) : Done :=
  let tag := tagOf e
  partCmd .bound requestState e (fun p => fieldsThen (entryFault e true [(24, 8)] (dlenOf e != 0) []) (fun s =>
    match findReq p tag with
    | none => goneTag p tag s
    | some r => doneWith ((Config.reqStateCode (stateCode r.state)).toNat + (if drafting r then 256 else 0) + r.delivered % 2 ^ 32 * 2 ^ 32
        + r.written.toNat * 2 ^ 64) s)) s

/-! ## ADAPTER_RELEASE (09 R296) -/

/-- The adapter has no current version; a slot without references is freed. -/
def releaseAdapter (id : Nat) (m : SMap (Option Adapter)) : SMap (Option Adapter) :=
  (m.map (fun e => (e.1, match e.2 with
    | some a => if a.id = id ∧ a.current then (if a.refs = 0 then none else some { a with current := false }) else some a
    | none => none))).filter (fun e => e.2.isSome)

def adapterRefs (id : Nat) (m : SMap (Option Adapter)) : Nat :=
  (m.map (fun e => match e.2 with | some a => if a.id = id then a.refs else 0 | none => 0)).sum

def adapterRelease (e : Entry) (s : State) : Done :=
  let id := pf e 20 4
  partCmd .pfBound adapterState e (fun p => fieldsThen (entryFault e true [(20, 4)] (dlenOf e != 0) [(20, id == 0)]) (fun s =>
    if (adapterSlot p (fun a => a.id == id && a.current)).isNone then fails stNotFound s
    else
      let m := releaseAdapter id p.adapters
      doneWith (adapterRefs id m) (updPart s (partNo e) (fun p => { p with adapters := m })))) s

/-! ## Contexts (09 R291 to R294; 10 R323, R324) -/

/-- ASCII bytes. -/
def svCtx : List Byte := [0x53, 0x56, 0x57, 0x31, 0x20, 0x63, 0x74, 0x78]
/-- Context session key of a partition. -/
def sessionKey (p : Partition) (key : BitVec 256) : BitVec 256 :=
  Config.hkdf (bytesOfNat 16 p.wset.domain.toNat) (bytesOfNat 32 key.toNat) (svCtx ++ digestBytes (p.wset.plain.getD 0))

/-- Bytes 0 to 127 of an exported context (Table 10-14). -/
def exportHead (c : Context) (clen iv : Nat) : List Byte :=
  bytesOfNat 4 0x43575653 ++ bytesOfNat 2 1 ++ bytesOfNat 2 0 ++ digestBytes c.wset ++ digestBytes c.layout ++ bytesOfNat 8 clen ++ bytesOfNat 12 iv
    ++ bytesOfNat 4 0

/-- Lines of page image k of a context as the cistern holds them; none where one fails authentication. -/
def imageLines (s : State) (tag k n : Nat) : List (Option (Line × Bool)) :=
  (List.range n).map (fun i => cisternRead s (imageAt tag k i).1 (imageAt tag k i).2)

/-- Lines of each page image of a cache, in image order. -/
def imageSizes (rs : List ShareRec) : List Nat := (pageMoves rs).map (fun m => m.n * layoutCols ((rs.map (·.layout)).getD m.share 0))

/-- A page image of 17,440 bytes: header and tag, then 256 lines (07 R229). -/
def imageBytes (tag k : Nat) (xs : List (Line × Bool)) : List Byte :=
  bytesOfNat 32 (Config.imageHeader tag k).toNat ++ xs.flatMap (fun x => lineBytes x.1) ++ bytesOfNat (68 * (256 - xs.length)) 0

/-- The context record of R291 in full, its page images last; none where a line fails authentication. -/
def contextBytes (s : State) (c : Context) : Option (List Byte) :=
  let xs := (imageSizes c.shares).zipIdx.map (fun (n, k) => imageLines s c.image k n)
  if xs.all (·.all (·.isSome)) then
    some (Config.contextText c.lastTok.toNat c.lastPos c.adapterId c.adapterVer (c.handle.toNat % 2 ^ 60)
        (c.shares.map (fun r => (r.layout, r.base, r.s, r.j, r.count)))
      ++ xs.zipIdx.flatMap (fun (x, k) => imageBytes c.image k (x.filterMap id)))
  else none

/-- Lines that a read of a context's images found out of order, counted at their channels (00 R4). -/
def countBad (s : State) (c : Context) : State :=
  forEach ((imageSizes c.shares).zipIdx) (fun (n, k) t => countT t (channelTile (k % 12)) 0x66 ((imageLines s c.image k n).countP (·.isNone))) s

/-- The page images of an imported record go to the cistern. -/
def storeImages (tag : Nat) (rs : List ShareRec) (bs : List Byte) (s : State) : State :=
  forEach ((imageSizes rs).zipIdx) (fun (n, k) s =>
    forEach (List.range n) (fun i s =>
      cisternWrite s (imageAt tag k i).1 (imageAt tag k i).2 (BitVec.ofNat 544 (fieldAt bs (k * 17440 + 32 + 68 * i) 68)) false) s) s

def exportRecord (p : Partition) (key : BitVec 256) (c : Context) (text : List Byte) (draw : Nat) : List Byte :=
  let iv := (Config.drbg draw).toNat % 2 ^ 96
  let head := exportHead c text.length iv
  head ++ Config.gcmSeal (sessionKey p key) (bytesOfNat 12 iv) head text

def exportCmd (e : Entry) (s : State) : Done :=
  let pn := partNo e
  let h := tagOf e
  partCmd .bound contextState e (fun p => fieldsThen (entryFault e true [(20, 1), (24, 8)] false [(20, decide (1 < pf e 20 1))]) (fun s =>
    if s.sec.error then fails stPermit s
    else match liveCtx s pn h, p.wset.key with
      | none, _ => fails stNotFound s
      | _, none => fails stAuth s
      | some c, some key =>
        if 2 ^ 32 ≤ p.wset.exports then fails stPermit s
        else match contextBytes s c with
        | none => fails stLost (countBad s c)
        | some text =>
          let bs := exportRecord p key c text s.sec.draws
          if dlenOf e < bs.length then failsField 16 s
          else
            let s := { s with sec := { s.sec with draws := s.sec.draws + 1 } }
            let s := updPart s pn (fun p => { p with wset := { p.wset with exports := p.wset.exports + 1 } })
            let s := writeOut e bs s
            doneWith bs.length (if (pf e 20 1).testBit 0 then eraseCtx s h else s))) s

def importCmd (e : Entry) (s : State) : Done :=
  let pn := partNo e
  let ttl := pf e 32 4
  partCmd .bound contextState e (fun p => fieldsThen (entryFault e true [(32, 4)] (decide (dlenOf e < 144)) [(32, ttl == 0 || decide (86400 < ttl))])
    (withData e (fun d s =>
      if s.sec.error then fails stPermit s
      else match lowest [(0, fieldAt d 0 4 != 0x43575653), (4, fieldAt d 4 2 != 1), (6, fieldAt d 6 2 != 0), (104, fieldAt d 104 8 + 144 != dlenOf e),
          (124, fieldAt d 124 4 != 0)] with
        | some off => failsData off s
        | none =>
          match p.wset.key.bind (fun key => Config.gcmOpen (sessionKey p key) ((d.drop 112).take 12) (d.take 128)
              ((d.drop 128).take (fieldAt d 104 8)) (d.drop (128 + fieldAt d 104 8))) with
          | none => fails stAuth s
          | some text =>
            let (tok, pos, aid, aver, shares, images) := Config.contextParse text
            let rs := shares.map (fun (lay, base, n, j, count) => (⟨lay, base, n, j, count⟩ : ShareRec))
            let st := storeStatus s p (recPages rs)
            if st ≠ 0 then fails st s
            else
              let h := newHandle s pn
              let c : Context := ⟨h, pn, digestAt d 56, digestAt d 8, BitVec.ofNat 32 tok, pos, aid, aver, expiryAt s ttl, rs, s.seqTag.toNat, false⟩
              let s := storeImages c.image rs images s
              doneWith h.toNat { s with contexts := s.contexts ++ [c], serial := s.serial + 1, seqTag := s.seqTag + 1 }))) s

def discard (e : Entry) (s : State) : Done :=
  partCmd .bound contextState e (fun _ => fieldsThen (entryFault e true [(24, 8)] (dlenOf e != 0) []) (fun s =>
    match liveCtx s (partNo e) (tagOf e) with
    | none => fails stNotFound s
    | some c => done (eraseCtx s c.handle))) s

def setTtl (e : Entry) (s : State) : Done :=
  let ttl := pf e 32 4
  partCmd .bound contextState e (fun _ => fieldsThen (entryFault e true [(24, 12)] (dlenOf e != 0) [(32, ttl == 0 || decide (86400 < ttl))]) (fun s =>
    match liveCtx s (partNo e) (tagOf e) with
    | none => fails stNotFound s
    | some c => done { s with contexts := lmap (fun x => x.handle == c.handle) (fun x => { x with expiry := expiryAt s ttl }) s.contexts })) s

/-! ## Commands -/

/-- 09 R278 to R280. -/
def execSubmit (e : Entry) (s : State) : Out := settled (entryOk e) (takeCmd e (submit e) s)
/-- 09 R289. -/
def execCancel (e : Entry) (s : State) : Out := settled (entryOk e) (takeCmd e (cancel e) s)
/-- 09 Table 9-5. -/
def execReqQuery (e : Entry) (s : State) : Out := settled (entryOk e) (takeCmd e (fun _ => reqQuery e) s)
/-- 09 R296. -/
def execAdapterRelease (e : Entry) (s : State) : Out := settled (entryOk e) (takeCmd e (fun _ => adapterRelease e) s)
/-- 09 R290. -/
def execPause (e : Entry) (s : State) : Out := settled (entryOk e) (takeCmd e (pause e) s)
/-- 09 R294; 10 R323, R324. -/
def execExportCtx (e : Entry) (s : State) : Out := settled (entryOk e) (takeLamp e (fun _ => exportCmd e) s)
/-- 09 R294; 10 R323, R324. -/
def execImportCtx (e : Entry) (s : State) : Out := settled (entryOk e) (takeLamp e (fun _ => importCmd e) s)
/-- 09 R292. -/
def execDiscard (e : Entry) (s : State) : Out := settled (entryOk e) (takeCmd e (fun _ => discard e) s)
/-- 09 R293. -/
def execSetTtl (e : Entry) (s : State) : Out := settled (entryOk e) (takeCmd e (fun _ => setTtl e) s)

end Sys2Proof.Machine
end

