-- ==== Sys2Proof/Machine/WeightCmds.lean ====
section
/-! DEFINITION. Weight loads, adapters, erasure, zeroisation, authenticated debug (09 R295, R296; 10 R312 to R329). -/

namespace Sys2Proof.Machine

/-! ## Package headers (Table 10-7) -/

/-- Faulty fields of a package header of a kind that lies at byte i of the data. -/
def headerFaults (p : Partition) (kind : Nat) (d : List Byte) (i : Nat) : List (Nat × Bool) :=
  let b := fun o n : Nat => fieldAt d (i + o) n
  [(i, b 0 4 != 0x50575653), (i + 4, b 4 2 != 1), (i + 6, b 6 1 != kind), (i + 7, b 7 1 != 0xB0), (i + 8, b 8 1 != (p.w - 1) + 16 * (p.h - 1)),
   (i + 9, b 9 1 != 2), (i + 10, decide (1 < b 10 1)), (i + 11, b 11 1 == 0 || decide (8 < b 11 1)), (i + 12, b 12 4 == 0 || decide (2 ^ 24 < b 12 4))]
    ++ (List.range 8).map (fun k => (i + 100 + 48 * k, decide (b 11 1 ≤ k) && b (100 + 48 * k) 48 != 0))
    ++ (List.range 540).map (fun k => (i + 484 + k, b (484 + k) 1 != 0))

def headerAllow (hd : List Byte) : List (BitVec 384) := (List.range (min 8 (fieldAt hd 11 1))).map (fun k => digestAt hd (100 + 48 * k))

/-! ## WEIGHT_OPEN (R315, R319, Table 10-11) -/

/-- Chunks that the records mark as applied. -/
def residentChunks (w : WeightSet) (plain : BitVec 384) (chunks : Nat) : List (Nat × BitVec 384 × BitVec 384) :=
  if w.recPlain = some plain then
    (w.recs.filter (fun c => decide (c.index < chunks))).map (fun c => (c.index, Config.residentDigest c.digest, c.digest))
  else []

/-- The quote's bytes 0 to 1,811. -/
def quoteBody (s : State) (pn : Nat) (p : Partition) (nonce hd : List Byte) : List Byte :=
  let eph := fun n : Nat => Config.drbg (s.sec.draws + n)
  bytesOfNat 4 0x51575653 ++ bytesOfNat 2 1 ++ bytesOfNat 1 pn ++ bytesOfNat 1 0 ++ padTo 32 nonce ++ digestBytes (Config.sha384 hd)
    ++ digestBytes (Config.sha384 ((measureBlocks s (some pn)).flatMap (·.2))) ++ bytesOfNat 4 p.epoch ++ bytesOfNat 4 0
    ++ padTo 97 (Config.ecPublic (eph 0)) ++ bytesOfNat 3 0 ++ padTo 1568 (Config.kemPublic (eph 1))

/-- The quote with both signatures. -/
def quoteOf (s : State) (pn : Nat) (p : Partition) (nonce hd : List Byte) : List Byte :=
  let b := quoteBody s pn p nonce hd
  b ++ padTo 96 (Config.ecSign (Config.aliasEc s.sec.cdi) (Config.drbg (s.sec.draws + 2)) (digestBytes (Config.sha384 b)))
    ++ padTo 4627 (Config.pqSign (Config.aliasPq s.sec.cdi) (Config.drbg (s.sec.draws + 3)) b)

/-- The weight set under a newly opened load. -/
def openSet (s : State) (w : WeightSet) (hd quote : List Byte) : WeightSet :=
  let plain := digestAt hd 44
  let chunks := fieldAt hd 12 4
  let same := decide (w.recPlain = some plain)
  let w' : WeightSet := if same then { w with status := if w.status = .complete then .incomplete else w.status } else {}
  { w' with
    lines := [], missing := 0, key := none, exports := 0, allow := headerAllow hd, debugErase := (fieldAt hd 10 1).testBit 0,
    domain := BitVec.ofNat 128 (fieldAt hd 28 16),
    load := some ⟨hd, chunks, plain, some (Config.drbg s.sec.draws, Config.drbg (s.sec.draws + 1)), quote, false, 0, residentChunks w plain chunks, nowNs s⟩ }

def weightOpen (e : Entry) (s : State) : Done :=
  let pn := partNo e
  partCmd .pfBound idleState e (fun p s =>
    if p.wset.load.isSome then fails stState s else
    fieldsThen (entryFault e true [(24, 12)] (dlenOf e != 1056) [(32, decide (pf e 32 4 < 6535))]) (withData e (fun d s =>
      let hd := d.drop 32
      match lowest (headerFaults p 1 d 32 ++ [(124, fieldAt hd 92 4 != 0), (128, fieldAt hd 96 4 != 0)]) with
      | some off => failsData off s
      | none =>
        if s.sec.error || s.sec.retired then fails stPermit s
        else
          let quote := quoteOf s pn p (d.take 32) hd
          let w := openSet s p.wset hd quote
          let n := match w.load with | some ld => ld.applied.length | none => 0
          let s := commitRec pn (fun s => updPart s pn (fun p => { p with wset := w, adapters := [] })) s
          let s := { s with sec := { s.sec with draws := s.sec.draws + 4 } }
          doneWith (n + (fieldAt hd 12 4 - n) * 2 ^ 32) (writeSegs e.fn [(pf e 24 8, pf e 32 4)] quote s))) s) s

/-! ## WEIGHT_CHUNK (R313, R314, R316, R317) -/

/-- ASCII "SVW1 weight kek". -/
def svKek : List Byte := [0x53, 0x56, 0x57, 0x31, 0x20, 0x77, 0x65, 0x69, 0x67, 0x68, 0x74, 0x20, 0x6B, 0x65, 0x6B]

/-- The weight key that a key blob unwraps to (R316). -/
def unwrapKey (ld : WeightLoad) (d : List Byte) : Option (BitVec 256) :=
  ld.eph.bind (fun eph =>
    let ss := Config.ecdh eph.1 (d.take 97) ++ Config.kemDecaps eph.2 ((d.drop 100).take 1568)
    let kek := Config.hkdf (digestBytes (Config.sha384 ld.quote)) ss svKek
    (Config.gcmOpen kek (bytesOfNat 12 0) (digestBytes (Config.sha384 ld.header)) ((d.drop 1668).take 32) ((d.drop 1700).take 16)).map
      (fun k => BitVec.ofNat 256 (natOfBytes k)))

/-- A load is being closed. -/
def closing (s : State) (pn : Nat) : Bool := s.waiting.any (isClose pn)

def keyBlob (pn : Nat) (ld : WeightLoad) (d : List Byte) (s : State) : Done :=
  let setLoad := fun (l : WeightLoad) (k : Option (BitVec 256)) (s : State) =>
    updPart s pn (fun p => { p with wset := { p.wset with load := some l, key := k } })
  if ld.hasKey then fails stDuplicate s
  else if fieldAt d 97 3 ≠ 0 then failsData 97 s
  else match unwrapKey ld d with
    | some k => done (setLoad { ld with eph := none, hasKey := true, lastAt := nowNs s } (some k) s)
    | none =>
      let s := setLoad { ld with badBlobs := ld.badBlobs + 1, lastAt := nowNs s } none s
      fails stAuth (if 3 ≤ ld.badBlobs + 1 then (endLoad pn s).1 else s)

/-- Bytes 24 to 55 of the entry: the descriptor. -/
def descrOf (e : Entry) : List Byte := padTo 32 ((e.params.drop 4).take 32)

/-- Field number of a field index within a rectangle. -/
def chunkField (p : Partition) (i : Nat) : Nat := fieldAtIx p i

/-- Faulty fields of a chunk descriptor at byte i (Table 10-8). -/
def descrFaults (s : State) (p : Partition) (chunks : Nat) (d : List Byte) (i : Nat) : List (Nat × Bool) :=
  let b := fun o n : Nat => fieldAt d o n
  let kind := b 6 1
  let len := b 12 4
  [(i, decide (chunks ≤ b 0 4)), (i + 4, decide (p.w * p.h ≤ b 4 1)),
   (i + 5, decide (15 < b 5 1) || (decide (b 4 1 < p.w * p.h) && (slotLantern s (chunkField p (b 4 1)) (b 5 1)).isNone)),
   (i + 6, kind == 0 || decide (3 < kind)), (i + 7, if kind = 1 then decide (247 < b 7 1) else b 7 1 != 0),
   (i + 8, if kind = 1 then decide (2 < b 8 1) else b 8 1 != 0), (i + 9, b 9 1 != 0),
   (i + 10, if kind = 3 then decide (65536 < b 10 2 + len / 68) else b 10 2 != 0),
   (i + 12, if kind = 1 then len != 1048576 else if kind = 2 then len != 2976 else len == 0 || len % 68 != 0 || decide (15420 < len / 68))]
    ++ (List.range 16).map (fun k => (i + 16 + k, b (16 + k) 1 != 0))

/-- IV of chunk i: IVP, then i as a 32-bit big-endian count. -/
def chunkIv (hd : List Byte) (i : Nat) : List Byte := (hd.drop 16).take 12 ++ (bytesOfNat 4 i).reverse

/-- Plaintext of a chunk; none when its tag fails. -/
def openChunk (key : BitVec 256) (hd desc data : List Byte) : Option (List Byte) :=
  let len := fieldAt desc 12 4
  Config.gcmOpen key (chunkIv hd (fieldAt desc 0 4)) (digestBytes (Config.sha384 hd) ++ desc) (data.take len) ((data.drop len).take 16)

/-- Level of slice column c of row r of an ARRAY plaintext. -/
def arrayLevel (pt : List Byte) (r c : Nat) : Int := signed 4 (fieldAt pt (1024 * r + c / 2) 1 / 16 ^ (c % 2))

/-- First byte of an ARRAY plaintext that holds a level out of range (R314). -/
def badLevel (pt : List Byte) : Option Nat :=
  (List.range 1048576).find? (fun i => let x := fieldAt pt i 1
    decide (3 < signed 4 x) || decide (signed 4 x < -3) || decide (3 < signed 4 (x / 16)) || decide (signed 4 (x / 16) < -3))

/-- Cells of an ARRAY plaintext. -/
def arrayCells (pt : List Byte) : SMap Int :=
  ((List.range 1024).flatMap (fun r => (List.range 2048).map (fun c => (r * 2048 + c, arrayLevel pt r c)))).filter (fun e => e.2 != 0)

/-- Range table of a RANGE plaintext, as the lantern holds it. -/
def rangeCells (pt : List Byte) : SMap Int :=
  ((List.range 248).flatMap (fun n => (List.range 32).map (fun g =>
    (n * 32 + g, ((7 - fieldAt pt (12 * n) 12 / 2 ^ (3 * g) % 8 : Nat) : Int))))).filter (fun e => e.2 != 0)

/-- Lines of a LINES plaintext from a line on. -/
def lineCells (pt : List Byte) (first n : Nat) : SMap Int := (List.range n).map (fun k => (first + k, (fieldAt pt (68 * k) 68 : Int)))

/-- Intake decryptor that takes a host port's packages: the one of W4, W5, E4, E5 with the fewest stops on the rim channel (DESIGN CHOICE, log 52). -/
def intakeFor (p : HostPort) : Nat :=
  match p with
  | .a => 34
  | .b => 14

/-- A chunk's ciphertext goes over the rim channel to an intake decryptor; its plaintext crosses the mesh from there, a flit for each line's worth (01 R27). -/
def intakeCross (fn : Fn) (pn bytes plain : Nat) (s : State) : State :=
  let t := intakeFor fn.port
  countT (rimSend (hostTile fn.port) t (.cipher pn bytes) s) t 0x61 ((plain + 67) / 68)

/-- A chunk with its plaintext: ARRAY goes to programming, RANGE and LINES are applied, LINES once the lantern's domain is on. -/
def applyChunk (pn l : Nat) (j : ChunkJob) (pt : List Byte) (line : Nat) (s : State) : State :=
  if j.chunk.kind = 1 then addJob (needForWork s l) { j with cells := arrayCells pt }
  else if j.chunk.kind = 2 then
    let j := { j with cells := rangeCells pt }
    finishChunk pn j (setRanges s l j.cells)
  else
    let j := { j with cells := lineCells pt line (pt.length / 68) }
    if (getL s l).on then finishChunk pn j (applyLines l j.cells s) else requestOn { s with jobs := s.jobs ++ [j] } l

def dataChunk (e : Entry) (h pn : Nat) (p : Partition) (ld : WeightLoad) (key : BitVec 256) (d : List Byte) (s : State) : Done :=
  let desc := descrOf e
  let i := fieldAt desc 0 4
  let kind := fieldAt desc 6 1
  let f := chunkField p (fieldAt desc 4 1)
  let k := fieldAt desc 5 1
  let s := updPart s pn (fun p => { p with wset := { p.wset with load := p.wset.load.map (fun x => { x with lastAt := nowNs s }) } })
  if ld.applied.any (fun x => x.1 == i) || s.jobs.any (fun j => jobOf s pn j && !j.silent && j.chunk.index == i) then fails stDuplicate s
  else match openChunk key ld.header desc d, slotLantern s f k with
    | some pt, some l =>
      if kind = 1 ∧ (badLevel pt).isSome then failsData ((badLevel pt).getD 0) s
      else if kind = 1 ∧ (physOf (getL s l) (fieldAt desc 7 1)).isNone then fails stWeights s
      else
        let c : ChunkRec := ⟨i, f, k, kind, fieldAt desc 7 1, Config.sha384 (desc ++ pt)⟩
        let s := intakeCross e.fn pn d.length pt.length s
        later (applyChunk pn l ⟨c, l, fieldAt desc 8 1, [], Config.sha384 (desc ++ d), e.fn, e.sqid, h, e.cid, false, false⟩ pt (fieldAt desc 10 2) s)
    | _, _ => fails stAuth s

def weightChunk (e : Entry) (h : Nat) (s : State) : Done :=
  let pn := partNo e
  let kind := pf e 20 1
  partCmd .pfBound idleState e (fun p s =>
    match p.wset.load with
    | none => fails stState s
    | some ld =>
      if closing s pn then fails stState s
      else if kind = 1 then
        fieldsThen (entryFault e true [(20, 1)] (dlenOf e != 1716) []) (withData e (fun d s =>
          if s.sec.error then fails stPermit s else keyBlob pn ld d s)) s
      else if kind ≠ 2 then fieldsThen (entryFault e true [(20, 1)] false [(20, true)]) (fails stField) s
      else match p.wset.key with
        | none => fails stState s
        | some key =>
          fieldsThen (entryFault e true [(20, 1), (24, 32)] (dlenOf e != fieldAt (descrOf e) 12 4 + 16) (descrFaults s p ld.chunks (descrOf e) 24))
            (withData e (fun d s => if s.sec.error then fails stPermit s else dataChunk e h pn p ld key d s)) s) s

/-! ## WEIGHT_CLOSE, WEIGHT_STATUS (R318) -/

def weightClose (e : Entry) (h : Nat) (s : State) : Done :=
  let pn := partNo e
  partCmd .pfBound idleState e (fun p s =>
    if p.wset.load.isNone || closing s pn then fails stState s else
    fieldsThen (entryFault e true [] (dlenOf e != 0) []) (fun s => later (tryClose pn (waitFor e h (.weightClose pn) s))) s) s

def weightStatus (e : Entry) (s : State) : Done :=
  partCmd .pfBound anyState e (fun _ => fieldsThen (entryFault e true [] (dlenOf e != 0) []) (fun s =>
    doneWith (closeResult s (partNo e)) s)) s

/-! ## ADAPTER_LOAD (09 R295, R296; 10 R322) -/

/-- Chunks of a package laid one after the other: place, descriptor, ciphertext with tag; n at most. -/
def packageChunks (d : List Byte) : Nat → Nat → List (Nat × List Byte × List Byte)
  | 0, _ => []
  | n + 1, i =>
    if d.length < i + 48 then [] else
    let desc := (d.drop i).take 32
    let len := fieldAt desc 12 4 + 16
    (i, desc, (d.drop (i + 32)).take len) :: packageChunks d n (i + 32 + len)

/-- Faulty fields of an adapter package. -/
def packageFaults (s : State) (p : Partition) (id ver : Nat) (d : List Byte) (cs : List (Nat × List Byte × List Byte)) : List (Nat × Bool) :=
  headerFaults p 2 d 0 ++ [(0, decide (64 < Config.adapterRank (d.take 1024))), (92, fieldAt d 92 4 != id), (96, fieldAt d 96 4 != ver)]
    ++ cs.flatMap (fun c => (c.1 + 6, fieldAt c.2.1 6 1 != 3) :: descrFaults s p (fieldAt d 12 4) c.2.1 c.1)

/-- The lines of an adapter chunk go to their lantern and on record. -/
def applyAdapterChunk (pn : Nat) (p : Partition) (desc pt : List Byte) (s : State) : State :=
  let f := chunkField p (fieldAt desc 4 1)
  let k := fieldAt desc 5 1
  let cells := lineCells pt (fieldAt desc 10 2) (pt.length / 68)
  let c : ChunkRec := ⟨fieldAt desc 0 4, f, k, 3, 0, 0⟩
  let s := updPart s pn (fun p => recordChunk s.sec.cisternKey p c 0 cells)
  match slotLantern s f k with
  | some l => if (getL s l).on then applyLines l cells s else requestOn { s with jobs := s.jobs ++ [⟨c, l, 0, cells, 0, ⟨.a, 0⟩, 0, 0, 0, true, false⟩] } l
  | none => s

/-- The version loaded becomes current in the lowest free slot. -/
def newAdapter (m : SMap (Option Adapter)) (slot : Nat) (a : Adapter) : SMap (Option Adapter) := tset none (releaseAdapter a.id m) slot (some a)

def adapterLoad (e : Entry) (s : State) : Done :=
  let pn := partNo e
  let id := pf e 20 4
  let ver := pf e 24 4
  partCmd .pfBound adapterLoadState e (fun p => fieldsThen (entryFault e true [(20, 8)] (decide (dlenOf e < 1024)) [(20, id == 0)]) (withData e (fun d s =>
    if s.sec.error then fails stPermit s
    else match (List.range 64).find? (fun k => (tget none p.adapters k).isNone) with
      | none => fails stSlot s
      | some slot =>
        if (adapterSlot p (fun a => a.id == id && a.ver == ver)).isSome then fails stDuplicate s
        else
          let n := fieldAt d 12 4
          let cs := packageChunks d (min n d.length) 1024
          match lowest (packageFaults s p id ver d cs) with
          | some off => failsData off s
          | none =>
            if cs.length ≠ n ∨ 1024 + (cs.map (fun c => 32 + c.2.2.length)).sum ≠ dlenOf e ∨ cs.any (fun c => c.2.2.length != fieldAt c.2.1 12 4 + 16) then failsField 16 s
            else
              let hd := d.take 1024
              let pts := if p.wset.status = .complete then
                  cs.map (fun c => p.wset.key.bind (fun key => (openChunk key hd c.2.1 c.2.2).map (fun pt => (c.2.1, pt))))
                else cs.map (fun _ => none)
              let got := pts.filterMap id'
              let plain := Config.sha384 ((List.range n).flatMap (fun i => match got.find? (fun c => fieldAt c.1 0 4 == i) with
                | some c => digestBytes (Config.sha384 (c.1 ++ c.2))
                | none => []))
              if got.length ≠ n ∨ plain ≠ digestAt hd 44 then fails stAuth s
              else
                let pkg := Config.sha384 (hd ++ cs.flatMap (fun c => digestBytes (Config.sha384 (c.2.1 ++ c.2.2))))
                let s := intakeCross e.fn pn d.length (got.map (fun c => c.2.length)).sum s
                let s := forEach got (fun c s => applyAdapterChunk pn p c.1 c.2 s) s
                doneWith slot (updPart s pn (fun p => { p with adapters := newAdapter p.adapters slot ⟨id, ver, true, 0, pkg⟩ }))))) s
where
  /-- The value given. -/
  id' (x : Option (List Byte × List Byte)) : Option (List Byte × List Byte) := x

/-! ## ERASE_WEIGHTS and ZEROISE (R328, R329) -/

def allArrays : List (Nat × Nat) := (List.range nLanterns).flatMap (fun l => (List.range 256).map (fun a => (l, a)))

/-- Every weight set is absent: keys, loads, records and copies gone. -/
def dropSets (s : State) : State :=
  { forEach ((allParts s).map (·.1)) dropSet (dropJobs (fun _ => true) s) with dormant := [] }

def eraseWeights (e : Entry) (h : Nat) (s : State) : Done :=
  pfCmd e (fieldsThen (entryFault e false [] false []) (fun s =>
    if (allParts s).any (fun x => !idleState x.2.state) then fails stState s
    else eraseThen e h allArrays true false 0 s (dropSets s))) s

/-- Level 0: keys, contexts, loads, sessions; what the cistern holds cannot be read again. -/
def zeroKeys (s : State) : State :=
  let s := forEach ((allParts s).map (·.1)) (fun pn s =>
    commitRec pn (fun s => updPart (endLoad pn s).1 pn (fun p => { p with wset := { p.wset with key := none, reserve := [] } })) s) s
  { s with
    contexts := [], cistern := [],
    sec := { s.sec with sessions := [], draws := s.sec.draws + 2, cisternKey := s.sec.draws + 2 } }

/-- A partition in service or fault handling goes to LOADED. -/
def toLoaded (pn : Nat) (s : State) : State :=
  let s := endAll (stopPart s pn) pn (fun _ => false)
  let s := updPart s pn (fun p => if idleState p.state then p else
    { p with state := .loaded, newFaults := [], handling := none, suspects := [], retested := false, remapped := 0, shortfall := false, wasDraining := false,
             thermal := none })
  resolveWaits (fun w => match w with | .drain n _ => n == pn | _ => false) (fun w => match w with | .drain _ c => (stSuccess, c) | _ => (0, 0)) s

def zeroise (e : Entry) (h : Nat) (s : State) : Done :=
  let level := pf e 20 1
  pfCmd e (fieldsThen (entryFault e false [(20, 1)] (dlenOf e != 0) [(20, decide (2 < level))]) (fun s =>
    if level = 0 then done (zeroKeys s)
    else eraseThen e h allArrays false (level == 2) 0 s (dropSets (forEach ((allParts s).map (·.1)) toLoaded (zeroKeys s))))) s

/-! ## Authenticated debug (R325 to R327) -/

/-- Is a debug token authentic: signatures under unrevoked slots, this module, the debug epoch? -/
def tokenOk (s : State) (d : List Byte) : Bool :=
  let ks := fieldAt d 6 1
  let ec := ks % 2
  let pq := ks / 2 % 2
  let body := d.take 128
  !s.sec.revoked.contains (16 + ec) && !s.sec.revoked.contains (20 + pq) && Config.ecVerify 1 ec body ((d.drop 128).take 96)
    && Config.pqVerify 1 pq body (d.drop 224) && digestAt d 12 == Config.devId && fieldAt d 10 1 == counterAt s 5

/-- A partition comes under debug: its load ends, its key goes, under DEBUG_ERASE its weight set (R326 steps 2, 3, 5). -/
def debugPart (pn : Nat) (s : State) : State :=
  let s := updPart (endLoad pn s).1 pn (fun p => { p with wset := { p.wset with key := none } })
  let s := match getPart s pn with | some p => if p.wset.debugErase then dropSet pn s else s | none => s
  updPart s pn (fun p => { p with debug := true, debugEnd := false })

def debugUnlock (e : Entry) (h : Nat) (s : State) : Done :=
  pfCmd e (fieldsThen (entryFault e false [] (dlenOf e != 4851) []) (withData e (fun d s0 =>
    let s := s0
    let whole := (fieldAt d 7 1).testBit 0
    let mask := fieldAt d 8 2
    if s.sec.error then fails stPermit s
    else match lowest ([(0, fieldAt d 0 4 != 0x44575653), (4, fieldAt d 4 2 != 1), (6, decide (3 < fieldAt d 6 1)), (7, decide (1 < fieldAt d 7 1)),
        (11, fieldAt d 11 1 != 0)] ++ (List.range 68).map (fun i => (60 + i, fieldAt d (60 + i) 1 != 0))) with
      | some off => failsData off s
      | none =>
        if !tokenOk s d then fails stAuth s
        else if !whole && mask == 0 then failsData 8 s
        else if 255 ≤ counterAt s 5 then fails stPermit s
        else
          let ps := (allParts s).filter (fun x => whole || mask.testBit x.1)
          let xs := (ps.filter (fun x => x.2.wset.debugErase)).flatMap (fun x => partArrays s x.2)
          let s := { s with sec := { s.sec with counters := tset 0 s.sec.counters 5 (counterAt s 5 + 1) } }
          let s := forEach (ps.map (·.1)) debugPart s
          let s := { s with sec := { s.sec with unlocked := some (Config.sha384 d, fieldAt d 7 1 + mask * 256), jtag := s.sec.jtag || whole } }
          let s := raiseEv s sevSecurity 0x0506 partModule srcLamplighter 0 (fieldAt d 7 1 + mask * 256)
          if xs.isEmpty then done s else eraseThen e h xs false false 0 s0 s))) s

def debugLock (e : Entry) (s : State) : Done :=
  pfCmd e (fieldsThen (entryFault e false [] (dlenOf e != 0) []) (fun s =>
    let s := { s with sec := { s.sec with jtag := false } }
    done (forEach ((allParts s).map (·.1)) (fun pn s => settleIdle pn (updPart s pn (fun p => { p with debugEnd := p.debug }))) s))) s

/-! ## Commands -/

/-- 10 R315. -/
def execWeightOpen (e : Entry) (s : State) : Out := settled (entryOk e) (takeLamp e (fun _ => weightOpen e) s)
/-- 10 R317. -/
def execWeightChunk (e : Entry) (s : State) : Out := settled (entryOk e) (takeLamp e (weightChunk e) s)
/-- 10 R318. -/
def execWeightClose (e : Entry) (s : State) : Out := settled (entryOk e) (takeCmd e (weightClose e) s)
/-- 09 Table 9-5. -/
def execWeightStatus (e : Entry) (s : State) : Out := settled (entryOk e) (takeCmd e (fun _ => weightStatus e) s)
/-- 09 R295; 10 R322. -/
def execAdapterLoad (e : Entry) (s : State) : Out := settled (entryOk e) (takeLamp e (fun _ => adapterLoad e) s)
/-- 10 R329; 02 R66. -/
def execEraseWeights (e : Entry) (s : State) : Out := settled (entryOk e) (takeCmd e (eraseWeights e) s)
/-- 10 R328. -/
def execZeroise (e : Entry) (s : State) : Out := settled (entryOk e) (takeCmd e (zeroise e) s)
/-- 10 R326. -/
def execDebugUnlock (e : Entry) (s : State) : Out := settled (entryOk e) (takeLamp e (debugUnlock e) s)
/-- 10 R327. -/
def execDebugLock (e : Entry) (s : State) : Out := settled (entryOk e) (takeCmd e (fun _ => debugLock e) s)

end Sys2Proof.Machine
end

