-- ==== Sys2Proof/Machine/Rim.lean ====
section
/-! DEFINITION. RIM flits at the headgates: runnel entries, end notices, traces, Zenden channels (09 R298; 13 R402; 08 R258). -/

namespace Sys2Proof.Machine

/-- The oldest flit that a tile's function holds and a test selects, and the state without it. -/
def takeTile (s : State) (t : Nat) (p : Flit → Bool) : Option (Flit × State) :=
  let main := tileMain t
  match (getT s main).rx.find? p with
  | some f => some (f, updT s main (fun T => { T with rx := T.rx.eraseP p }))
  | none => none

/-- Class of the sluice entry of a lantern toward a tile's channel (06 R186). -/
def rimEntryClass (L : Lantern) (t sub : Nat) : Option (Fin 4) :=
  (L.sluices.find? (fun e => e.2.kind == 3 && e.2.num == sub && srcMain e.2.dest == 1600 + tileMain t)).map (fun e => e.2.cls)

/-- One more flit of a channel handled; a CREDIT flit of 16 after every 16 (09 R298). -/
def rimHandled (s : State) (t : Nat) (f : Flit) : State :=
  let main := tileMain t
  match (if f.src < 1600 then rimEntryClass (getL s f.src) t f.sub.val else none) with
  | none => s
  | some cls =>
    let key := (f.part * 16 + f.sub.val) * 4096 + f.src
    let n := tget 0 (getT s main).handled key + 1
    if n < 16 then updT s main (fun T => { T with handled := tset 0 T.handled key n })
    else injectT (updT s main (fun T => { T with handled := tset 0 T.handled key 0 })) main
      (tileFlit main f.part cls f.src 3 f.sub.val 0xA (BitVec.ofNat 544 (16 + 3 * 2 ^ 32)))

/-- A discarded flit at a rim tile: counted, and an ERROR record naming the tile and the partition (R298). -/
def rimDiscard (s : State) (t n : Nat) (f : Flit) (detail : Nat) : State :=
  raiseEv (updT s (tileMain t) (fun T => { T with discarded := T.discarded + 1 })) sevError (Config.openCode n) f.part srcTile t detail

def isRim (sub : Nat → Bool) (f : Flit) : Bool := f.kind == 4 && sub f.sub.val

/-- The request in flight on a runnel of a partition. -/
def reqOn (s : State) (pn rn : Nat) : Option Request := (getPart s pn).bind (fun p => p.reqs.find? (fun r => r.rn == rn))

/-- RIM_RUNNEL: bytes 0 to 15 go to the runnel in one write, when entry k may be written (Table 9-13). -/
def rimRunnelOp (t : Nat) (s : State) : State :=
  if (tileHost t).isNone then s else
  match takeTile s t (isRim (· == 0)) with
  | none => s
  | some (f, s) =>
    let s := rimHandled s t f
    let k : BitVec 32 := BitVec.ofNat 32 (lineField f.line 18 4)
    match reqOn s f.part (lineField f.line 16 2) with
    | none => rimDiscard s t 1 f (lineField f.line 16 2)
    | some r =>
      if 2 ^ r.rlog2 ≤ (k - r.cons).toNat then rimDiscard s t 1 f r.rn else
      let s := writeRunnel s f.part r k ((lineBytes f.line).take 16)
      let new := decide ((k + 1 - r.written).toNat < 2 ^ 31) && k + 1 != r.written
      let token := new && !(lineField f.line 10 2).testBit 3
      updReq s f.part r.tag (fun r => { r with
        written := if new then k + 1 else r.written, delivered := if token then r.delivered + 1 else r.delivered,
        gen := if token then r.gen ++ [BitVec.ofNat 32 (lineField f.line 0 4)] else r.gen })

/-- RIM_ENDNOTE: module firmware ends the request, once the RUNNEL flits of its runnel sent before are written (Table 9-13). -/
def rimEndnoteOp (t : Nat) (s : State) : State :=
  if (tileHost t).isNone then s else
  let rx := (getT s (tileMain t)).rx
  let before := rx.takeWhile (fun f => !isRim (· == 1) f)
  match takeTile s t (isRim (· == 1)) with
  | none => s
  | some (f, s') =>
    let rn := lineField f.line 0 2
    if before.any (fun g => isRim (· == 0) g && g.part == f.part && lineField g.line 16 2 == rn) then s else
    let s := rimHandled s' t f
    let reason := lineByte f.line 2
    match reqOn s f.part rn with
    | none => s
    | some r =>
      if reason = 0 ∨ 8 < reason then s else
      let s := setEnding s f.part r.tag (stEnd + reason - 1) (lineByte f.line 3)
      updReq s f.part r.tag (fun r => { r with inPass := false, note := some (lineField f.line 8 4) })

/-- A trace record from its 32 bytes (13 Table 13-4). -/
def recordOf (x : Line) : EventRec :=
  ⟨lineField x 0 8, lineByte x 8, (lineByte x 9).testBit 0, lineField x 10 2, lineByte x 12, lineByte x 13, lineField x 14 2, lineField x 16 4,
   lineField x 20 8, lineField x 28 3⟩

/-- RIM_TRACE: E8 writes record k to slot k mod 32,768 of the partition's trace ring (13 R402). -/
def rimTraceOp (s : State) : State :=
  match takeTile s tileE8 (isRim (· == 0)) with
  | none => s
  | some (f, s) =>
    updPart (rimHandled s tileE8 f) f.part (fun p =>
      { p with traceRing := tset none p.traceRing (p.traceWidx.toNat % 32768) (some (recordOf f.line)), traceWidx := p.traceWidx + 1 })

/-! ## Zenden channels (08 R255, R258) -/

/-- RIM_ZENDEN_CHANNEL: a RIM flit goes to its channel's buffer (R258). -/
def rimZendenOp (t : Nat) (s : State) : State :=
  match tileZenden t with
  | none => s
  | some z =>
    match takeTile s t (isRim (fun c => decide (c < 15))) with
    | none => s
    | some (f, s) =>
      if holdsChannel s z f.sub.val f.part then zFlush (updZ s z (fun Z => { Z with out := Z.out ++ [(f.sub.val, f)] })) z
      else rimDiscard s t 0 f f.sub.val

/-- RIM_UNLISTED_CHANNEL: discarded, reported (R298). -/
def rimUnlistedOp (t : Nat) (s : State) : State :=
  match takeTile s t (isRim (unlisted t)) with
  | none => s
  | some (f, s) => rimDiscard s t 0 f f.sub.val

/-! ## Commands -/

/-- 09 R298. -/
def execRimRunnel (tile : Nat) (s : State) : Out := guarded (tileOk tile) (rimRunnelOp tile s)
/-- 09 R298. -/
def execRimEndnote (tile : Nat) (s : State) : Out := guarded (tileOk tile) (rimEndnoteOp tile s)
/-- 13 R402. -/
def execRimTrace (s : State) : Out := guarded true (rimTraceOp s)
/-- 08 R258. -/
def execRimZendenChannel (tile : Nat) (s : State) : Out := guarded (tileOk tile) (rimZendenOp tile s)
/-- 09 R298. -/
def execRimUnlistedChannel (tile : Nat) (s : State) : Out := guarded (tileOk tile) (rimUnlistedOp tile s)

end Sys2Proof.Machine
end

