-- ==== Sys2Proof/Machine/ZendenLink.lean ====
section
/-! DEFINITION. Zenden links and the ring of modules (08 R255 to R260; 11 R358). -/

namespace Sys2Proof.Machine

/-- Partition that holds a channel of a port. -/
def channelOwner (s : State) (z c : Nat) : Option Nat :=
  match tget 0 (getZ s z).owner c with
  | 0 => none
  | n + 1 => some n

/-- The producer of the forward channel: a lantern with a sluice entry for it, and that entry's class (R258). -/
def channelProducer (s : State) (z c pn : Nat) : Option (Nat × Fin 4) :=
  match getPart s pn with
  | none => none
  | some p => (progLanterns s p).findSome? (fun l => (rimEntryClass (getL s l) (zendenTile z) c).map (fun k => (l, k)))

/-- A flit of a group goes on from the port's headgate (R258). -/
def passOn (z : Nat) (e : Nat × Flit) (s : State) : State :=
  let c := e.1
  let f := e.2
  let t := zendenTile z
  if c = 15 then s else
  let none' := raiseEv (countT s t 0x65 1) sevSecurity 0x0502 ((channelOwner s z c).getD partModule) srcTile t c
  match channelOwner s z c with
  | none => none'
  | some pn =>
    if f.kind = 3 ∨ (f.kind = 1 ∧ f.sub = 2) then
      match channelProducer s z c pn with
      | none => none'
      | some (l, cls) =>
        let x := if f.kind = 3 then BitVec.ofNat 544 (lineField f.line 0 4 + 3 * 2 ^ 32) else f.line
        injectT s t (tileFlit t pn cls l f.kind (if f.kind = 3 then c else 2) 0xA x)
    else
      let h := tget {} (getT s t).entries (pn * 16 + c)
      if h.grant = 0 then none'
      else sendT s t (pn * 16 + c) { tileFlit t pn h.cls h.dest (Fin.ofNat 8 h.kind) (if f.kind = 1 ∧ h.kind = 1 then f.sub.val else h.sub) f.fmt.val f.line with poison := f.poison, last := f.last }

/-- Kept groups without those that an ACK covers. -/
def acked (kept : List KeptGroup) (ack : Nat) : List KeptGroup :=
  match kept.findIdx? (fun g => g.gseq == ack) with
  | some i => kept.drop (i + 1)
  | none => kept

/-- ZENDEN_GROUP_RECEIVE (R256). -/
def groupReceive (z : Nat) (g : ZGroup) (s : State) : State :=
  if !(getZ s z).up then s else
  let t := zendenTile z
  let s := countT (countT s t 0x63 g.corrected) t 0x64 g.failed
  let s := updZ s z (fun Z => { Z with heardAt := nowNs s, kept := acked Z.kept g.ack })
  let s := if g.idle || !g.check || decide (0 < g.failed) || decide (g.gseq ≠ (getZ s z).expect) then s
    else forEach g.flits (passOn (portIn s z)) (updZ s z (fun Z => { Z with expect := (Z.expect + 1) % 2048 }))
  zFlush s (portIn s z)

/-- Time after which a group without an ACK is sent again. -/
def ackTime (z : Nat) : Nat := 2000 + (Config.cableDelay z).toNat

/-- ZENDEN_ACK_TIMEOUT: everything from the oldest group on is sent again (R256). -/
def ackTimeout (z : Nat) (s : State) : State :=
  let Z := getZ s z
  match Z.kept with
  | g :: _ =>
    if Z.up && decide (g.sentAt + ackTime z ≤ nowNs s) then
      let kept := Z.kept.map (fun g => formGroup Z g.gseq (g.times + 1) (nowNs s) g.flits)
      countT (setZ s z { Z with kept := kept, headerAt := nowNs s, head := (kept.map (·.head)).getLastD Z.head }) (zendenTile z) 0x62 Z.kept.length
    else s
  | [] => s

/-- ZENDEN_IDLE_HEADER (R255). -/
def idleHeader (z : Nat) (s : State) : State :=
  if !(getZ s z).up then s else zFlush (idleHead s z) (portIn s z)

/-- Does a port meet the condition it names (R257)? -/
def downCause (s : State) (z : Nat) (why : ZDown) : Bool :=
  let Z := getZ s z
  match why with
  | .lockLost => true
  | .noHeader => decide (Z.heardAt + 10000 ≤ nowNs s)
  | .resent8 => Z.kept.any (fun g => decide (8 ≤ g.times))
  | .codewords => true

/-- Partitions that hold a channel of a port. -/
def channelParts (s : State) (z : Nat) : List Nat := ((getZ s z).owner.map (fun e => e.2 - 1)).eraseDups

/-- A link of the ring is lost: in BYPASS the port beside it joins the neighbour of the lost module where it is up, otherwise the ring becomes a chain; so it does when a joined bypass is lost (R260). -/
def ringLost (s : State) (z : Nat) : State :=
  if s.ring.size = 0 then s
  else if z = 0 ∨ z = 2 then
    let join := s.ring.mode == 1 && (getZ s (bypassOf z)).up
    match s.ring.lost with
    | none => { s with ring := { s.ring with lost := some z, bypass := join, chain := !join } }
    | some p => if p = z then s else { s with ring := { s.ring with chain := true } }
  else if portIn s z ≠ z then { s with ring := { s.ring with bypass := false, chain := true } }
  else s

/-- ZENDEN_LINK_DOWN (R257; suspended under 11 R358 and 13 R403). -/
def linkDown (z : Nat) (why : ZDown) (s : State) : State :=
  let Z := getZ s z
  if !Z.up || !downCause s z why || decide (nowNs s < Z.suspendTo) then s else
  let s := setZ s z { Z with up := false, kept := [], out := [] }
  let s := raiseEv s sevError 0x0405 partModule srcTile (zendenTile z) z
  ringLost (forEach (channelParts s z) (fun pn s => unitFault s pn 2 z) s) z

/-- ZENDEN_LINK_TRAINED: the ends exchange their serial numbers (R259). -/
def linkTrained (z : Nat) (peer : BitVec 64) (s : State) : State :=
  if !s.boot.rails || (getZ s z).up then s else
  updZ s z (fun Z => { Z with up := true, failed := false, peer := peer, gseq := 0, expect := 0, kept := [], heardAt := nowNs s, headerAt := nowNs s })

/-- ZENDEN_ACTIVATE_NOTICE: the rules of R257 are suspended for up to 20 ms (11 R358). -/
def activateNotice (z : Nat) (s : State) : State := updZ s z (fun Z => { Z with suspendTo := nowNs s + 20000000 })

/-! ## The ring (R259) -/

def ringWait (w : WaitFor) : Bool := match w with | .ringForm => true | _ => false

/-- Standalone, as before a ring command. -/
def standalone (r : Ring) : Ring :=
  { r with forming := none, taken := none, formed := false, size := 0, index := 0, lost := none, bypass := false, chain := false }

/-- Formation fails: the module stays standalone and the command says so. -/
def ringFails (s : State) : State := resolveWaits ringWait (fun _ => (stRing, 0)) { s with ring := standalone s.ring }

/-- RING_FORM_RECEIVE: the index plus one goes on out of Z2, and the module takes it unless the ring would exceed 16; at the module of index 0 the ring has its size and its channels open. -/
def ringForm (i : Nat) (s : State) : State :=
  if !(getZ s 0).up then s else
  match s.ring.forming with
  | some _ =>
    if 16 < i + 1 then ringFails s
    else
      resolveWaits ringWait (fun _ => (stSuccess, i + 1)) { s with ring := { standalone s.ring with size := i + 1, formed := true, sent := s.ring.sent ++ [(1, i + 1)] } }
  | none =>
    let r := { standalone s.ring with sent := s.ring.sent ++ [(0, i + 1)] }
    { s with ring := if 15 < i + 1 then r else { r with index := i + 1, taken := some (nowNs s) } }

/-- RING_DONE_RECEIVE: the size is recorded, the channels open, and it is passed on; it ends at index 0. -/
def ringDone (n : Nat) (s : State) : State :=
  if s.ring.index = 0 then s else { s with ring := { s.ring with size := n, taken := none, formed := true, sent := s.ring.sent ++ [(1, n)] } }

/-- RING_FORM_TIMEOUT: 10 ms without return, or without RING_DONE at a module that took an index: it stays standalone. -/
def ringTimeout (s : State) : State :=
  match s.ring.forming, s.ring.taken with
  | some t, _ => if t + 10000000 ≤ nowNs s then ringFails s else s
  | none, some t => if t + 10000000 ≤ nowNs s then { s with ring := standalone s.ring } else s
  | none, none => s

/-! ## Commands -/

/-- 08 R256. -/
def execZendenGroupReceive (z : Nat) (g : ZGroup) (s : State) : Out := guarded (zenOk z) (groupReceive z g s)
/-- 08 R256. -/
def execZendenAckTimeout (z : Nat) (s : State) : Out := guarded (zenOk z) (ackTimeout z s)
/-- 08 R255. -/
def execZendenIdleHeader (z : Nat) (s : State) : Out := guarded (zenOk z) (idleHeader z s)
/-- 08 R257. -/
def execZendenLinkDown (z : Nat) (why : ZDown) (s : State) : Out := guarded (zenOk z) (linkDown z why s)
/-- 08 R259. -/
def execZendenLinkTrained (z : Nat) (peer : BitVec 64) (s : State) : Out := guarded (zenOk z) (linkTrained z peer s)
/-- 08 R259. -/
def execRingFormReceive (index : Nat) (s : State) : Out := guarded true (ringForm index s)
/-- 08 R259. -/
def execRingDoneReceive (size : Nat) (s : State) : Out := guarded true (ringDone size s)
/-- 08 R259. -/
def execRingFormTimeout (s : State) : Out := guarded true (ringTimeout s)
/-- 11 R358. -/
def execZendenActivateNotice (z : Nat) (s : State) : Out := guarded (zenOk z) (activateNotice z s)

end Sys2Proof.Machine
end

