-- ==== Sys2Proof/Machine/Firmware.lean ====
section
/-! DEFINITION. Firmware images and live update (10 R302 to R306; 11 R355 to R359; 12 R388). -/

namespace Sys2Proof.Machine

/-! ## Images (10 R302, R303, Table 10-3) -/

/-- Faulty fields of an image header, for a kind where one is asked. -/
def imageFaults (kind : Option Nat) (d : List Byte) : List (Nat × Bool) :=
  let b := fun o n : Nat => fieldAt d o n
  [(0, b 0 4 != 0x46575653), (4, b 4 2 != 1), (6, match kind with | some k => b 6 1 != k | none => b 6 1 == 0 || decide (5 < b 6 1)), (7, b 7 1 != 0xB0),
   (8, decide (255 < b 8 2)), (10, decide (15 < b 10 1)), (11, b 11 1 != 0), (12, d.length != 5124 + b 12 4), (5123, b 5123 1 != 0)]
    ++ (List.range 320).map (fun i => (80 + i, b (80 + i) 1 != 0))

/-- Digest and both signatures of an image hold, under slots not revoked (R303); a Lamplighter in its error state verifies none (R300). -/
def imageAuthentic (s : State) (d : List Byte) : Bool :=
  let ec := fieldAt d 10 1 % 4
  let pq := fieldAt d 10 1 / 4 % 4
  let body := d.take 400
  !s.sec.error && digestAt d 16 == Config.sha384 (d.drop 5124) && !s.sec.revoked.contains ec && !s.sec.revoked.contains (4 + pq)
    && Config.ecVerify 0 ec body ((d.drop 400).take 96) && Config.pqVerify 0 pq body ((d.drop 496).take 4627)

def imageSvn (d : List Byte) : Nat := fieldAt d 8 2
/-- The slot that an image fills. -/
def slotOfImage (d : List Byte) : FwSlot := ⟨true, imageSvn d, some (digestAt d 16), some (BitVec.ofNat 128 (fieldAt d 64 16))⟩

/-- Slot that is not marked active: true for B. -/
def inactiveB (k : FwKind) : Bool := !k.activeB
/-- A slot filled. -/
def putSlot (k : FwKind) (b : Bool) (x : FwSlot) : FwKind := if b then { k with b := x } else { k with a := x }
/-- An image is written into the inactive slot of its kind (R304; 11 R355). -/
def writeImage (kind : Nat) (d : List Byte) (s : State) : State :=
  let k := fwKind s kind
  setKind s kind { putSlot k (inactiveB k) (slotOfImage d) with staged := true }

/-! ## Targets (11 Table 11-10) -/

/-- Does a partition run the image in the slot not marked active? -/
def microNew (s : State) (p : Partition) : Bool := p.micro.getD (fwKind s 5).runB == inactiveB (fwKind s 5)
/-- Targets of a kind; for microcode the partitions. -/
def allTargets (s : State) (kind : Nat) : List Nat := if kind = 5 then (allParts s).map (·.1) else fwTargets kind
/-- Does a target run the image in the slot not marked active? -/
def onNew (s : State) (kind t : Nat) : Bool :=
  if kind = 5 then (match getPart s t with | some p => microNew s p | none => false) else (fwKind s kind).activated.contains t
def targetsLeft (s : State) (kind : Nat) : List Nat := (allTargets s kind).filter (fun t => !onNew s kind t)
def targetsDone (s : State) (kind : Nat) : List Nat := (allTargets s kind).filter (onNew s kind)

/-- RESULT of FW_UPDATE: slot staged, targets not yet activated. -/
def fwResult (b : Bool) (left : Nat) : Nat := (if b then 1 else 0) + left % 2 ^ 32 * 2 ^ 32
def resultNow (s : State) (kind : Nat) : Nat := fwResult (inactiveB (fwKind s kind)) (targetsLeft s kind).length

/-- A target changes image; the kind's measurement shows the new image once every target runs it (10 R310). -/
def flipTarget (kind t : Nat) (s : State) : State :=
  let k := fwKind s kind
  let k := { k with activated := if k.activated.contains t then k.activated.filter (· != t) else k.activated ++ [t] }
  let all := (fwTargets kind).all (k.activated.contains ·)
  setKind s kind { k with runB := if all then inactiveB k else k.activeB }

/-! ## Rim targets (11 R358) -/

/-- A partition in SERVING or DRAINING for which the test holds. -/
def servedBy (s : State) (p : Nat × Partition → Bool) : Bool := (allParts s).any (fun e => servingState e.2.state && p e)
def loadOpen (s : State) : Bool := (allParts s).any (fun e => e.2.wset.load.isSome)

/-- Does a target have to stay on its image now? -/
def rimBusy (s : State) (t : Nat) : Bool :=
  if t < 2 then servedBy s (fun e => portIx e.2.port == t)
  else if t < 6 then servedBy s (fun e => (channelParts s (t - 2)).contains e.1)
  else if t = 18 then loadOpen s else false

/-- What a change of image does to a rim target: a host port's functions are reset, a Zenden peer is told and link-down rules are suspended. -/
def rimSwitch (t : Nat) (s : State) : State :=
  if t < 2 then forEach (portFns (if t = 0 then .a else .b)) resetFn s
  else if t < 6 then updZ s (t - 2) (fun Z => { Z with notices := Z.notices + 1, suspendTo := nowNs s + 20000000 })
  else if t < 18 then updT s (channelTile (t - 6)) (fun T => { T with holdTo := nowNs s + 100000000 })
  else s

/-! ## Power plate (12 R388) -/

/-- The next group whose phases can be updated, one phase at a time; at the end the command completes. -/
def nextGroup (groups : List Nat) (s : State) : State :=
  let s := { s with plant := { s.plant with phaseUpd := 0 } }
  match groups.filter (fun g => groupOut s g == 0) with
  | g :: rest => { s with sec := { s.sec with plate := some (g, 0, rest), updating := true }, plant := { s.plant with phaseUpd := g + 1 } }
  | [] =>
    let s := { s with sec := { s.sec with plate := none, updating := false } }
    resolveWaits (fun w => match w with | .plateFw => true | _ => false) (fun _ => (stSuccess, resultNow s 4)) s

/-- PHASE_UPDATE_DONE: a phase that fails to start stays out of service, and its group is left. -/
def phaseDone (ok : Bool) (s : State) : State :=
  match s.sec.plate with
  | none => s
  | some (g, ph, rest) =>
    if !ok then nextGroup rest (raiseM { s with plant := { s.plant with phasesOut := tset 0 s.plant.phasesOut g (tget 0 s.plant.phasesOut g + 1) } } sevWarn 0x0602 g)
    else if ph < 5 then { s with sec := { s.sec with plate := some (g, ph + 1, rest) } }
    else nextGroup rest (flipTarget 4 g s)

/-! ## Lamplighter (11 R357) -/

/-- LAMPLIGHTER_RESTART_DONE: the other image runs, new alias keys, the command completes. -/
def lampRestarted (s : State) : State :=
  if !s.sec.restarting then s else
  let s := deriveAlias (flipTarget 1 0 { s with sec := { s.sec with restarting := false, updating := false } })
  resolveWaits (fun w => match w with | .lamplighterFw => true | _ => false) (fun _ => (stSuccess, resultNow s 1)) s

/-! ## Changing the image of targets (R355 to R359) -/

/-- The program stores of a partition's lanterns are written again with the words of the program loaded, of sound parity (05 R136; which words a microcode activation writes is not stated: DESIGN CHOICE, log 53). -/
def rewriteStores (pn : Nat) (s : State) : State :=
  match getPart s pn with
  | none => s
  | some p => match p.prog with
    | none => s
    | some g => forEach (imgTargets p g.image) (fun t s =>
        match slotLantern s (fieldAtIx p t.1) t.2 with
        | some l => updL s l (fun L => if L.on then { L with store := imgStore g.image t } else L)
        | none => s) s

/-- Can the targets not change image now? -/
def moveBlocked (s : State) (kind : Nat) (ts : List Nat) : Bool :=
  if kind = 1 then loadOpen s
  else if kind = 2 then !(s.boot.aUp && s.boot.bUp)
  else if kind = 3 then ts.any (rimBusy s)
  else if kind = 4 then ts.any (fun g => decide (0 < groupOut s g))
  else ts.any (fun t => match getPart s t with | some p => !idleState p.state | none => false)

/-- Targets change image: module firmware hands over with HOLD (R356); the Lamplighter restarts and its sessions end; the plate goes phase by phase. up: to the staged image. -/
def moveTargets (e : Entry) (h kind : Nat) (ts : List Nat) (up : Bool) (s : State) : Done :=
  if kind = 1 then
    later (waitFor e h .lamplighterFw { s with sec := { s.sec with restarting := true, updating := true, sessions := [] } })
  else if kind = 2 then
    let s := flipTarget 2 0 { s with boot := { s.boot with hold := true, holdAt := nowNs s, bActive := !s.boot.bActive } }
    doneWith (resultNow s 2) s
  else if kind = 3 then
    let s := forEach ts (fun t s => flipTarget 3 t (rimSwitch t s)) s
    doneWith (resultNow s 3) s
  else if kind = 4 then later (nextGroup ts (waitFor e h .plateFw s))
  else
    let b := inactiveB (fwKind s 5)
    let s := forEach ts (fun pn s => rewriteStores pn (updPart s pn (fun p => if up then epochUp { p with micro := some b } 1 else { p with micro := none }))) s
    let s := if up then s else setKind s 5 { fwKind s 5 with runB := (fwKind s 5).activeB }
    doneWith (resultNow s 5) s

/-- Targets change image, or WRONG_STATE; with no target left nothing changes. -/
def tryMove (e : Entry) (h kind : Nat) (ts : List Nat) (up : Bool) (prep : State → State) (s : State) : Done :=
  if ts.isEmpty then doneWith (resultNow (prep s) kind) (prep s)
  else if moveBlocked s kind ts then fails stState s
  else moveTargets e h kind ts up (prep s)

/-! ## FW_UPDATE (R355) -/

def fwStage (kind : Nat) (d : List Byte) (s : State) : Done :=
  let k := fwKind s kind
  match lowest (imageFaults (some kind) d) with
  | some off => failsData off s
  | none =>
    if !imageAuthentic s d then fails stAuth s
    else if imageSvn d < counterAt s (kind - 1) then fails stPermit s
    else if k.runB == inactiveB k || !(targetsDone s kind).isEmpty then fails stState s
    else
      let s := writeImage kind d s
      doneWith (resultNow s kind) s

def fwActivate (e : Entry) (h kind target : Nat) (s : State) : Done :=
  if !(fwKind s kind).staged then fails stState s
  else tryMove e h kind ((targetsLeft s kind).filter (fun t => target == 255 || t == target)) true (fun s => s) s

/-- The staged slot is marked active and the counter advances (10 R304, R305). -/
def fwCommit (kind : Nat) (s : State) : Done :=
  let k := fwKind s kind
  let b := inactiveB k
  if !k.staged || !(targetsLeft s kind).isEmpty then fails stState s
  else
    let s := setKind s kind { k with activeB := b, runB := b, staged := false, activated := [] }
    let s := { s with sec := { s.sec with counters := tset 0 s.sec.counters (kind - 1) (max (counterAt s (kind - 1)) (fwSlot k b).svn) } }
    let s := if kind = 5 then mapParts s (fun _ p => { p with micro := none }) else s
    doneWith (fwResult b 0) s

/-- The image committed before becomes the committed one, every target still on the newer (R355 REVERT after a commit). -/
def uncommit (kind : Nat) (s : State) : State :=
  let k := fwKind s kind
  setKind s kind { k with activeB := !k.activeB, staged := true, activated := fwTargets kind }

def fwRevert (e : Entry) (h kind : Nat) (s : State) : Done :=
  let k := fwKind s kind
  if k.staged then tryMove e h kind (targetsDone s kind) false (fun s => s) s
  else if !(fwSlot k (inactiveB k)).present then fails stState s
  else if (fwSlot k (inactiveB k)).svn < counterAt s (kind - 1) then fails stPermit s
  else if kind = 5 ∧ (allTargets s 5).isEmpty then
    let s := uncommit 5 s
    doneWith (resultNow s 5) (setKind s 5 { fwKind s 5 with runB := (fwKind s 5).activeB })
  else tryMove e h kind (allTargets s kind) false (uncommit kind) s

/-- TARGET names nothing of the kind. -/
def targetBad (kind t : Nat) : Bool := t != 255 && !(if kind = 3 then decide (t < 19) else if kind = 4 then decide (t < 45) else false)

def fwUpdate (e : Entry) (h : Nat) (s : State) : Done :=
  let kind := pf e 20 1
  let action := pf e 21 1
  pfCmd e (fieldsThen (entryFault e false [(20, 3)] (if action = 0 then decide (dlenOf e < 5124) else dlenOf e != 0)
      [(20, kind == 0 || decide (5 < kind)), (21, decide (3 < action)), (22, targetBad kind (pf e 22 1))]) (fun s =>
    if s.sec.updating then fails stState s
    else if action = 0 then withData e (fwStage kind) s
    else if action = 1 then fwActivate e h kind (pf e 22 1) s
    else if action = 2 then fwCommit kind s
    else fwRevert e h kind s)) s

/-! ## MICROCODE_UPDATE (R359) -/

def microcodeUpdate (e : Entry) (s : State) : Done :=
  let pn := partNo e
  let act := pf e 20 1
  partCmd .pf idleState e (fun _ => fieldsThen (entryFault e true [(20, 1)] (dlenOf e != 0) [(20, decide (1 < act))]) (fun s =>
    let k := fwKind s 5
    if s.sec.updating then fails stState s
    else if !k.staged then fails stNotFound s
    else if act = 0 then done (rewriteStores pn (updPart s pn (fun p => epochUp { p with micro := some (inactiveB k) } 1)))
    else done (rewriteStores pn (updPart s pn (fun p => { p with micro := some k.activeB }))))) s

/-! ## PLDM firmware update (10 R304) -/

/-- Served over I3C while a kind has no acceptable image: an image that R303 accepts goes into the inactive slot of its kind. -/
def pldmUpdate (d : List Byte) (s : State) : State :=
  let kind := fieldAt d 6 1
  if !s.sec.pldmOnly || s.mgmt.addr.isNone || (lowest (imageFaults none d)).isSome || !imageAuthentic s d || decide (imageSvn d < counterAt s (kind - 1))
  then s else writeImage kind d s

/-! ## Commands -/

/-- 11 R355 to R358. -/
def execFwUpdate (e : Entry) (s : State) : Out := settled (entryOk e) (takeCmd e (fwUpdate e) s)
/-- 11 R359. -/
def execMicrocodeUpdate (e : Entry) (s : State) : Out := settled (entryOk e) (takeCmd e (fun _ => microcodeUpdate e) s)
/-- 11 R357. -/
def execLamplighterRestartDone (s : State) : Out := settled true (lampRestarted s)
/-- 12 R388. -/
def execPhaseUpdateDone (ok : Bool) (s : State) : Out := settled true (phaseDone ok s)
/-- 10 R304. -/
def execPldmFirmwareUpdate (image : List Byte) (s : State) : Out := guarded true (pldmUpdate image s)

end Sys2Proof.Machine
end

