-- ==== Sys2Proof/Machine/Scalar.lean ====
section
/-! DEFINITION. Scalar and sequencer instructions: what each does when the sequencer tries it (06 Table 6-2, R177, R181, R187 to R189). -/

namespace Sys2Proof.Machine

/-- SD takes op of SA and SB, each read once at issue (06 R177). -/
def scalarOp (l : Nat) (f : FmtS) (op : Word → Word → Word) (s : State) : Try :=
  withRegs l [f.sd, f.sa, f.sb] (fun s => .done (setReg s l f.sd (op (getReg (getL s l) f.sa) (getReg (getL s l) f.sb)))) s

def tryNop (_ : Nat) (_ : FmtC) (s : State) : Try := .done s
def tryAdd (l : Nat) (f : FmtS) (s : State) : Try := scalarOp l f (· + ·) s
def trySub (l : Nat) (f : FmtS) (s : State) : Try := scalarOp l f (· - ·) s
def tryAnd (l : Nat) (f : FmtS) (s : State) : Try := scalarOp l f (· &&& ·) s
def tryOr (l : Nat) (f : FmtS) (s : State) : Try := scalarOp l f (· ||| ·) s
def tryXor (l : Nat) (f : FmtS) (s : State) : Try := scalarOp l f (· ^^^ ·) s
/-- Shifts use SB[5:0]. -/
def tryShl (l : Nat) (f : FmtS) (s : State) : Try := scalarOp l f (fun a b => a <<< (b.toNat % 64)) s
def tryShr (l : Nat) (f : FmtS) (s : State) : Try := scalarOp l f (fun a b => a >>> (b.toNat % 64)) s
def trySar (l : Nat) (f : FmtS) (s : State) : Try := scalarOp l f (fun a b => a.sshiftRight (b.toNat % 64)) s
/-- MUL keeps the low 64 bits. -/
def tryMul (l : Nat) (f : FmtS) (s : State) : Try := scalarOp l f (· * ·) s
def trySlt (l : Nat) (f : FmtS) (s : State) : Try := scalarOp l f (fun a b => if a.slt b then 1 else 0) s
def trySltu (l : Nat) (f : FmtS) (s : State) : Try := scalarOp l f (fun a b => if a.ult b then 1 else 0) s
/-- SD takes SA plus IMM, sign-extended. -/
def tryAddi (l : Nat) (f : FmtS) (s : State) : Try := scalarOp l f (fun a _ => a + f.imm.signExtend 64) s
/-- SD[63:32] takes IMM, SD[31:0] stays. -/
def tryLih (l : Nat) (f : FmtS) (s : State) : Try :=
  withRegs l [f.sd] (fun s => .done (setReg s l f.sd (f.imm ++ (getReg (getL s l) f.sd).setWidth 32))) s

/-- Line SA + IMM, a sum of 64 bits. -/
def scalarAddr (L : Lantern) (f : FmtS) : Nat := (getReg L f.sa + f.imm.signExtend 64).toNat

/-- SLD: bytes 0 to 7 of a line, read KEEP; a poisoned line traps (05 R160). -/
def trySld (l : Nat) (f : FmtS) (s : State) : Try :=
  withRegs l [f.sd, f.sa] (fun s =>
    let a := scalarAddr (getL s l) f
    if !rangeOk (getL s l) a 1 then .trap causeRange a s
    else if !(padAt (getL s l) a).full then .hold 0x01 s
    else
      let (s, x, p) := readPad s l a false
      if p then .trap causePoison a s else .done (setReg s l f.sd (x.setWidth 64))) s

/-- SST: bytes 0 to 7 from SB, the other bytes zero. -/
def trySst (l : Nat) (f : FmtS) (s : State) : Try :=
  withRegs l [f.sa, f.sb] (fun s =>
    let a := scalarAddr (getL s l) f
    if !rangeOk (getL s l) a 1 then .trap causeRange a s
    else if (padAt (getL s l) a).full then .hold 0x02 s
    else .done (writePad s l a ((getReg (getL s l) f.sb).setWidth 544) false 0xA)) s

/-- Value RDS reads (06 Table 6-4). -/
def rdsValue (s : State) (l n : Nat) : Word :=
  let L := getL s l
  let pn := (partOf s l).getD 0
  match n with
  | 0 => BitVec.ofNat 64 l
  | 1 => BitVec.ofNat 64 pn
  | 2 => BitVec.ofNat 64 L.step
  | 3 => BitVec.ofNat 64 L.seen - 1
  | 4 => BitVec.ofNat 64 (localNow s (lanternIsland l))
  | 5 => BitVec.ofNat 64 (match getPart s pn with | some p => p.window | none => 0)
  | 6 => BitVec.ofNat 64 L.charge
  | _ => if debugOn s pn then 1 else 0

def tryRds (l : Nat) (f : FmtS) (s : State) : Try :=
  withRegs l [f.sd] (fun s => .done (setReg s l f.sd (rdsValue s l f.imm.toNat))) s

/-- A branch to TARGET when a test of SA and SB holds. -/
def branchOn (l : Nat) (f : FmtJ) (test : Word → Word → Bool) (s : State) : Try :=
  withRegs l [f.sa, f.sb] (fun s =>
    .done (if test (getReg (getL s l) f.sa) (getReg (getL s l) f.sb) then updL s l (fun L => { L with pc := f.target.toNat }) else s)) s

def tryBeq (l : Nat) (f : FmtJ) (s : State) : Try := branchOn l f (· == ·) s
def tryBne (l : Nat) (f : FmtJ) (s : State) : Try := branchOn l f (· != ·) s
def tryBlt (l : Nat) (f : FmtJ) (s : State) : Try := branchOn l f (fun a b => a.slt b) s
def tryBge (l : Nat) (f : FmtJ) (s : State) : Try := branchOn l f (fun a b => !a.slt b) s
def tryJmp (l : Nat) (f : FmtJ) (s : State) : Try := .done (updL s l (fun L => { L with pc := f.target.toNat }))
/-- JR: a value above 8,191 traps. -/
def tryJr (l : Nat) (f : FmtJ) (s : State) : Try :=
  withRegs l [f.sa] (fun s =>
    let t := (getReg (getL s l) f.sa).toNat
    if 8191 < t then .trap causeRange t s else .done (updL s l (fun L => { L with pc := t }))) s

/-! ## Steps (06 R140, R187 to R190, R195) -/

/-- Declared charges of the lanterns of a field for step n. -/
def declaredSum (s : State) (l n : Nat) : Nat := tget 0 (getF s (fieldOf l)).declared n

/-- The lantern closes its step: counted, traced. -/
def closeStep (s : State) (l : Nat) : State :=
  let n := (getL s l).step
  traceL (countL (updL s l (fun L => { L with closed := L.closed + 1 })) l 0x03 1) l 1 n

/-- Has the lantern closed the step it is in? -/
def stepClosed (L : Lantern) : Bool := decide (L.step < L.closed)

/-- Opens the next step when boundary s - W has been seen (R189). -/
def openStep (l : Nat) (charge : Nat) (s : State) : Try :=
  let L := getL s l
  let w := match getPart s ((partOf s l).getD 16) with | some p => p.window | none => 1
  if w + L.seen ≤ L.step + 1 then .hold 0x0C s
  else .done (updL s l (fun L => { L with step := L.step + 1, declared := charge, charge := 0 }))

/-- STEP: closes the step once every earlier instruction has completed, then opens the next; the field's plan is checked when it closes. -/
def tryStep (l : Nat) (f : FmtC) (s : State) : Try :=
  let L := getL s l
  let c := f.imm.toNat
  if stepClosed L then openStep l c s
  else if !allIdle L then .hold 0x0F s
  else
    let f' := fieldOf l
    let sum := declaredSum s l (L.step + 1) + c
    let allow := match getPart s ((partOf s l).getD 16) with | some p => p.allowance | none => 0
    if allow < sum then .trap causePower (Config.trapDetail sum) s
    else openStep l c (closeStep (updF s f' (fun F => { F with declared := tset 0 F.declared (L.step + 1) sum })) l)

/-- FENCE: holds until the engines named have completed. -/
def tryFence (l : Nat) (f : FmtC) (s : State) : Try :=
  if (List.range 7).all (fun e => !f.imm.getLsbD e || engineIdle (getL s l) e) then .done s else .hold 0x0F s

def tryTrapi (_ : Nat) (f : FmtC) (s : State) : Try := .trap causeProgram f.imm.toNat s

end Sys2Proof.Machine
end

