-- ==== Sys2Proof/Machine/ScalarInstr.lean ====
section
/-! DEFINITION. Scalar and sequencer instructions as commands: lantern l issues one (06 Table 6-2). -/

namespace Sys2Proof.Machine

/-- NOP: nothing. 06 Table 6-2. -/
def execNop (l : Nat) (f : FmtC) (s : State) : Out :=
  guarded (lanternOk l) (issue l (.nop l f) (tryNop l f) s)
/-- SD takes SA + SB. 06 Table 6-2. -/
def execAdd (l : Nat) (f : FmtS) (s : State) : Out :=
  guarded (lanternOk l) (issue l (.add l f) (tryAdd l f) s)
/-- SD takes SA - SB. 06 Table 6-2. -/
def execSub (l : Nat) (f : FmtS) (s : State) : Out :=
  guarded (lanternOk l) (issue l (.sub l f) (trySub l f) s)
/-- SD takes SA AND SB. 06 Table 6-2. -/
def execAnd (l : Nat) (f : FmtS) (s : State) : Out :=
  guarded (lanternOk l) (issue l (.and l f) (tryAnd l f) s)
/-- SD takes SA OR SB. 06 Table 6-2. -/
def execOr (l : Nat) (f : FmtS) (s : State) : Out :=
  guarded (lanternOk l) (issue l (.or l f) (tryOr l f) s)
/-- SD takes SA XOR SB. 06 Table 6-2. -/
def execXor (l : Nat) (f : FmtS) (s : State) : Out :=
  guarded (lanternOk l) (issue l (.xor l f) (tryXor l f) s)
/-- SD takes SA shifted left by SB[5:0]. 06 Table 6-2. -/
def execShl (l : Nat) (f : FmtS) (s : State) : Out :=
  guarded (lanternOk l) (issue l (.shl l f) (tryShl l f) s)
/-- SD takes SA shifted right, zeros entering. 06 Table 6-2. -/
def execShr (l : Nat) (f : FmtS) (s : State) : Out :=
  guarded (lanternOk l) (issue l (.shr l f) (tryShr l f) s)
/-- SD takes SA shifted right, the sign entering. 06 Table 6-2. -/
def execSar (l : Nat) (f : FmtS) (s : State) : Out :=
  guarded (lanternOk l) (issue l (.sar l f) (trySar l f) s)
/-- SD takes the low 64 bits of SA * SB. 06 Table 6-2. -/
def execMul (l : Nat) (f : FmtS) (s : State) : Out :=
  guarded (lanternOk l) (issue l (.mul l f) (tryMul l f) s)
/-- SD takes 1 when SA < SB signed, else 0. 06 Table 6-2. -/
def execSlt (l : Nat) (f : FmtS) (s : State) : Out :=
  guarded (lanternOk l) (issue l (.slt l f) (trySlt l f) s)
/-- SD takes 1 when SA < SB unsigned, else 0. 06 Table 6-2. -/
def execSltu (l : Nat) (f : FmtS) (s : State) : Out :=
  guarded (lanternOk l) (issue l (.sltu l f) (trySltu l f) s)
/-- SD takes SA + IMM. 06 Table 6-2. -/
def execAddi (l : Nat) (f : FmtS) (s : State) : Out :=
  guarded (lanternOk l) (issue l (.addi l f) (tryAddi l f) s)
/-- SD[63:32] takes IMM. 06 Table 6-2. -/
def execLih (l : Nat) (f : FmtS) (s : State) : Out :=
  guarded (lanternOk l) (issue l (.lih l f) (tryLih l f) s)
/-- SD takes bytes 0 to 7 of line SA + IMM. 06 Table 6-2. -/
def execSld (l : Nat) (f : FmtS) (s : State) : Out :=
  guarded (lanternOk l) (issue l (.sld l f) (trySld l f) s)
/-- Line SA + IMM takes SB. 06 Table 6-2. -/
def execSst (l : Nat) (f : FmtS) (s : State) : Out :=
  guarded (lanternOk l) (issue l (.sst l f) (trySst l f) s)
/-- SD takes the value of Table 6-4 numbered IMM. 06 Table 6-2. -/
def execRds (l : Nat) (f : FmtS) (s : State) : Out :=
  guarded (lanternOk l) (issue l (.rds l f) (tryRds l f) s)
/-- Branch when SA = SB. 06 Table 6-2. -/
def execBeq (l : Nat) (f : FmtJ) (s : State) : Out :=
  guarded (lanternOk l) (issue l (.beq l f) (tryBeq l f) s)
/-- Branch when SA differs from SB. 06 Table 6-2. -/
def execBne (l : Nat) (f : FmtJ) (s : State) : Out :=
  guarded (lanternOk l) (issue l (.bne l f) (tryBne l f) s)
/-- Branch when SA < SB signed. 06 Table 6-2. -/
def execBlt (l : Nat) (f : FmtJ) (s : State) : Out :=
  guarded (lanternOk l) (issue l (.blt l f) (tryBlt l f) s)
/-- Branch when SA >= SB signed. 06 Table 6-2. -/
def execBge (l : Nat) (f : FmtJ) (s : State) : Out :=
  guarded (lanternOk l) (issue l (.bge l f) (tryBge l f) s)
/-- Branch. 06 Table 6-2. -/
def execJmp (l : Nat) (f : FmtJ) (s : State) : Out :=
  guarded (lanternOk l) (issue l (.jmp l f) (tryJmp l f) s)
/-- Branch to SA. 06 Table 6-2. -/
def execJr (l : Nat) (f : FmtJ) (s : State) : Out :=
  guarded (lanternOk l) (issue l (.jr l f) (tryJr l f) s)
/-- Close the step and open the next (R140, R187 to R189, R195). 06 Table 6-2. -/
def execStep (l : Nat) (f : FmtC) (s : State) : Out :=
  guarded (lanternOk l) (issue l (.step l f) (tryStep l f) s)
/-- Hold until the engines named have completed. 06 Table 6-2. -/
def execFence (l : Nat) (f : FmtC) (s : State) : Out :=
  guarded (lanternOk l) (issue l (.fence l f) (tryFence l f) s)
/-- Trap with cause PROGRAM_TRAP. 06 Table 6-2. -/
def execTrapi (l : Nat) (f : FmtC) (s : State) : Out :=
  guarded (lanternOk l) (issue l (.trapi l f) (tryTrapi l f) s)

end Sys2Proof.Machine
end

