-- ==== Sys2Proof/Machine/LanternEvents.lean ====
section
/-! DEFINITION. Events of a lantern: the end of a wait, a store error (06 R176, R192; 11 R346; 13 R402). -/

namespace Sys2Proof.Machine

/-- What the sequencer tries for an instruction of lantern l. -/
def seqTry : Instr → State → Try
  | .nop l f => tryNop l f
  | .add l f => tryAdd l f
  | .sub l f => trySub l f
  | .and l f => tryAnd l f
  | .or l f => tryOr l f
  | .xor l f => tryXor l f
  | .shl l f => tryShl l f
  | .shr l f => tryShr l f
  | .sar l f => trySar l f
  | .mul l f => tryMul l f
  | .slt l f => trySlt l f
  | .sltu l f => trySltu l f
  | .addi l f => tryAddi l f
  | .lih l f => tryLih l f
  | .sld l f => trySld l f
  | .sst l f => trySst l f
  | .rds l f => tryRds l f
  | .beq l f => tryBeq l f
  | .bne l f => tryBne l f
  | .blt l f => tryBlt l f
  | .bge l f => tryBge l f
  | .jmp l f => tryJmp l f
  | .jr l f => tryJr l f
  | .step l f => tryStep l f
  | .fence l f => tryFence l f
  | .trapi l f => tryTrapi l f
  | .aop l f => tryAop l f
  | .aclr l f => tryAclr l f
  | .ard l f => tryArd l f
  | .aexp l f => tryAexp l f
  | .aimp l f => tryAimp l f
  | .widot l f => tryWidot l f
  | .wfdot l f => tryWfdot l f
  | .wvb l f => tryWvb l f
  | .wvu l f => tryWvu l f
  | .wred l f => tryWred l f
  | .wsmx l f => tryWsmx l f
  | .wqnt l f => tryWqnt l f
  | .wgth l f => tryWgth l f
  | .wtopk l f => tryWtopk l f
  | .wsmp l f => tryWsmp l f
  | .qld l f => tryQld l f
  | .ascr l f => tryAscr l f
  | .aval l f => tryAval l f
  | .kapp l f => tryKapp l f
  | .kmark l f => tryKmark l f
  | .krew l f => tryKrew l f
  | .krel l f => tryKrel l f
  | .kwalk l f => tryKwalk l f
  | .kxfr l f => tryKxfr l f
  | .copy l f => tryCopy l f
  | .trd l f => tryTrd l f
  | .send l f => trySend l f
  | .clr l f => tryClr l f
  | .recv l f => tryRecv l f
  | .qpeek l f => tryQpeek l f
  | .qpop l f => tryQpop l f
  | .qmark l f => tryQmark l f
  | .qrewind l f => tryQrewind l f
  | .qrel l f => tryQrel l f
  | .qstat l f => tryQstat l f
  | _ => .done
/-- The sequencer tries its held instruction again; a wait that stays keeps its start, one that ends is traced. -/
def retryHeld (l : Nat) (s : State) : State :=
  let L := getL s l
  match L.held with
  | none => s
  | some (i, c, t0) =>
    if !L.on || !L.running || L.trapped then s else
    let s' := attempt l i (seqTry i) (updL s l (fun L => { L with held := none }))
    match (getL s' l).held with
    | some (_, c', _) =>
      if c' = c then updL s' l (fun L => { L with held := some (i, c, t0) }) else waitEnded s' l c t0
    | none => waitEnded s' l c t0

/-- Engines that an instruction just issued may have reached start. -/
def startAll (l : Nat) (s : State) : State := forEach (List.range 7) (startEngine l) s

/-- A wait of 06 Table 6-7 ends: engine eng of lantern l, or its sequencer for 7, tries again. -/
def execWaitEnd (l eng : Nat) (s : State) : Out :=
  guarded (lanternOk l) (if eng = 7 then startAll l (retryHeld l s) else if eng < 7 then runEngine l eng engineFuel s else s)

/-- A program word fails parity at fetch: the lantern traps with STORE_ERROR (06 R176). -/
def execStoreError (l : Nat) (s : State) : Out :=
  let L := getL s l
  let w := (tget {} L.store L.pc).bits
  guarded (lanternOk l) (if L.on && L.running && !L.trapped then trapAt s l causeStore L.pc L.pc w else s)

end Sys2Proof.Machine
end

