-- ==== Sys2Proof/Machine/Receive.lean ====
section
/-! DEFINITION. Flits that reach a lantern: queue lines, accumulator lines, credits, KV messages (05 R155; 06 R185, R186; 07 R215 to R218, R231). -/

namespace Sys2Proof.Machine

/-- The oldest delivered flit a test holds of, and the state without it. -/
def takeRx (s : State) (l : Nat) (p : Flit → Bool) : Option (Flit × State) :=
  match (getL s l).rx.find? p with
  | some f => some (f, updL s l (fun L => { L with rx := L.rx.eraseP p }))
  | none => none

/-- QLINE (05 R155): stored at W mod D, or discarded with a credit violation. -/
def storeQline (l : Nat) (f : Flit) (s : State) : State :=
  let q := f.sub.val
  let Q := getQ (getL s l) q
  if Q.depth = 0 ∨ Q.depth ≤ (Q.w - Q.l).toNat then trapNow (countL s l 0x31 1) l causeCredit q
  else
    let a := Q.base + Q.w.toNat % Q.depth
    let s := updL s l (fun L => { L with pad := tset {} L.pad a ⟨f.line, false, f.poison, false, BitVec.ofNat 4 f.fmt.val⟩ })
    updQ s l q (fun Q => { Q with w := Q.w + 1 })

/-- ACCX (06 R185): SUB[2:0] names the lane, SUB[3] the form. -/
def storeAccx (l : Nat) (f : Flit) (s : State) : State :=
  let i := f.sub.val % 8
  let k := getLane (getL s l) i
  if !k.used || decide (128 ≤ k.buf.length) then trapNow (countL s l 0x32 1) l causeCredit i
  else updLane s l i (fun k => { k with buf := k.buf ++ [(f.line, f.poison, decide (8 ≤ f.sub.val))] })

/-- n credits for sluice entry e; beyond the grant the entry keeps its count and the lantern traps (05 R156). -/
def addCredits (l e n : Nat) (s : State) : State :=
  let k := getSl (getL s l) e
  if k.grant < k.credits + n then trapNow s l causeCredit e else updSl s l e (fun k => { k with credits := k.credits + n })

/-- Sluice entry that a credit names: source, kind, number (06 R186). -/
def matchEntry (L : Lantern) (src kind num : Nat) : Option Nat :=
  (L.sluices.find? (fun e => srcMain e.2.dest == srcMain src && e.2.kind == kind && e.2.num == num)).map (·.1)

/-- CREDIT (06 R186). -/
def takeCredit (l : Nat) (f : Flit) (s : State) : State :=
  match matchEntry (getL s l) f.src (lineByte f.line 4) f.sub.val with
  | some e => addCredits l e (lineField f.line 0 4) s
  | none => trapNow (countL s l 0x38 1) l causeCredit f.sub.val

/-- Sluice entry an XACK credits: the one in use by the KV port, or the first toward the source (07 R217). -/
def xackEntry (L : Lantern) (src : Nat) : Option Nat :=
  let ok := fun e : Nat => let k := getSl L e; k.kind != 255 && srcMain k.dest == srcMain src
  match (getEng L 6).q with
  | ⟨_, _, _, .kxfrAck e, _⟩ :: _ => if ok e then some e else (L.sluices.find? (fun e => (e.2.kind == 2 || e.2.kind == 3) && ok e.1)).map (·.1)
  | ⟨_, _, _, .inject e _, _⟩ :: _ => if ok e then some e else (L.sluices.find? (fun e => (e.2.kind == 2 || e.2.kind == 3) && ok e.1)).map (·.1)
  | _ => (L.sluices.find? (fun e => (e.2.kind == 2 || e.2.kind == 3) && ok e.1)).map (·.1)

/-- XACK for the message of module firmware that the KV port sends: credits for the management entry; the final one ends the message (07 R217, R231). -/
def takeMoveXack (l : Nat) (f : Flit) (s : State) : State :=
  let s := addCredits l 32 (lineField f.line 0 4) s
  if lineByte f.line 4 = 1 ∧ (getL s l).move.any (fun m => m.flits == some []) then
    startEngine l 6 (portWork l (pageDone (setMove s l none) ((partOf s l).getD 16) l true))
  else feedMove l s

/-- XACK (07 R217): credits, and the end of the KXFR with the final one. -/
def takeXack (l : Nat) (f : Flit) (s : State) : State :=
  if moving (getL s l) && srcMain (getSl (getL s l) 32).dest == srcMain f.src then takeMoveXack l f s else
  match xackEntry (getL s l) f.src with
  | none => countL s l 0x33 1
  | some e =>
    let s := addCredits l e (lineField f.line 0 4) s
    if lineByte f.line 4 = 1 then
      let g := getEng (getL s l) 6
      match g.q with
      | ⟨_, _, _, .kxfrAck e', _⟩ :: _ => if e' = e then startEngine l 6 (portWork l (popHead (waitEnded s l g.wait g.since) l 6)) else s
      | _ => s
    else s

/-- A KV flit of code 0 or 1 arrives: from no channel's producer, or at a channel that holds its 64 lines, it is discarded (07 R217); otherwise it waits in its channel until the KV port takes it (07 R219). -/
def arriveKv (l : Nat) (f : Flit) (s : State) : State :=
  match intakeOf (getL s l) f.src with
  | none => kvViolation l f s
  | some j =>
    if 64 ≤ ((getL s l).kvIn.filter (fun e => e.1 == j)).length then kvViolation l f s
    else startEngine l 6 (portWork l (updL s l (fun L => { L with kvIn := L.kvIn ++ [(j, f)] })))

/-- An arrival a test selects, handled by t. -/
def arrive (l : Nat) (p : Flit → Bool) (t : Nat → Flit → State → State) (s : State) : State :=
  match takeRx s l p with
  | some (f, s) => t l f s
  | none => s

/-! ## Commands -/

/-- 05 R155. -/
def execQlineArrival (l : Nat) (s : State) : Out := guarded (lanternOk l) (arrive l (fun f => f.kind == 0) storeQline s)
/-- 06 R185. -/
def execAccxArrival (l : Nat) (s : State) : Out := guarded (lanternOk l) (arrive l (fun f => f.kind == 2) storeAccx s)
/-- 06 R186. -/
def execCreditArrival (l : Nat) (s : State) : Out := guarded (lanternOk l) (arrive l (fun f => f.kind == 3) takeCredit s)
/-- 07 R218. -/
def execXhdrArrival (l : Nat) (s : State) : Out := guarded (lanternOk l) (arrive l (fun f => f.kind == 1 && f.sub == 0) arriveKv s)
/-- 07 R217. -/
def execXdataArrival (l : Nat) (s : State) : Out := guarded (lanternOk l) (arrive l (fun f => f.kind == 1 && f.sub == 1) arriveKv s)
/-- 07 R217. -/
def execXackArrival (l : Nat) (s : State) : Out := guarded (lanternOk l) (arrive l (fun f => f.kind == 1 && f.sub == 2) takeXack s)
/-- A KV flit with a reserved SUB is discarded, counted and reported (07 R215). -/
def execKvReservedSub (l : Nat) (s : State) : Out :=
  guarded (lanternOk l) (arrive l (fun f => f.kind == 1 && decide (3 ≤ f.sub.val))
    (fun l f s => raiseL (countL s l 0x33 1) l sevError 0x0404 f.sub.val) s)

end Sys2Proof.Machine
end

