-- ==== Sys2Proof/Machine/Spdm.lean ====
section
/-! DEFINITION. SPDM, the management bus and JTAG (10 R300, R306 to R310, R327; 13 R401; 14 R422). -/

namespace Sys2Proof.Machine

/-! ## Endpoints (10 R308) -/

/-- The partition an endpoint reports: none for module scope. -/
def epScope (s : State) : SpdmEp → Option Nat
  | .vf fn => if fn.num = 0 then none else partBound s fn
  | _ => none

/-- A VF that is bound to no partition. -/
def epUnbound (s : State) : SpdmEp → Bool
  | .vf fn => fn.num != 0 && (partBound s fn).isNone
  | _ => false

/-- The endpoint's transport carries messages: the host link is up, or the bus has a dynamic address. -/
def epUp (s : State) : SpdmEp → Bool
  | .pf p => (getLink s p).up
  | .vf fn => (getLink s fn.port).up
  | .i3c => s.mgmt.addr.isSome

/-- The Lamplighter serves SPDM: its firmware runs, does not restart and does not serve PLDM only; in its error state, after a self-test that failed in the ROM too (10 R300). -/
def spdmServed (s : State) (ep : SpdmEp) : Bool := (s.sec.fw || s.sec.error) && !s.sec.restarting && !s.sec.pldmOnly && epUp s ep

/-- The last answer of an endpoint. -/
def answer (ep : SpdmEp) (a : SpdmAnswer) (s : State) : State :=
  { s with sec := { s.sec with answers := (ep, a) :: s.sec.answers.filter (fun x => x.1 != ep) } }

/-- A request of R307's list: UnexpectedRequest in the error state (R300), else what the body answers. -/
def spdmAny (ep : SpdmEp) (body : State → State) (s : State) : State :=
  if !spdmServed s ep then s
  else if s.sec.error then answer ep .unexpectedRequest s
  else body s

/-- A request that an unbound VF does not answer. -/
def spdmReq (ep : SpdmEp) (body : State → State) (s : State) : State :=
  spdmAny ep (fun s => if epUnbound s ep then answer ep .unsupportedRequest s else body s) s

/-- A request that attests: a retired module never does (R328). -/
def spdmProof (ep : SpdmEp) (body : State → State) (s : State) : State :=
  spdmReq ep (fun s => if s.sec.retired then answer ep .otherError s else body s) s

/-! ## Answers (10 R307, R309) -/

/-- A signature under the P-384 alias key. -/
def aliasSig (s : State) (nonce : BitVec 256) : List Byte :=
  Config.ecSign (Config.aliasEc s.sec.cdi) (Config.drbg s.sec.draws) (Config.spdmMessage nonce s.sec.draws)

def drawn (s : State) : State := { s with sec := { s.sec with draws := s.sec.draws + 1 } }

/-- Blocks a GET_MEASUREMENTS asks for: index 0 the number of blocks, 255 all, else the one block; an absent index gives none. -/
def blocksAsked (s : State) (ep : SpdmEp) (index : Nat) : List (Nat × List Byte) :=
  let all := measureBlocks s (epScope s ep)
  if index = 0 then [(0, bytesOfNat 1 all.length)] else if index = 255 then all else all.filter (fun b => b.1 == index)

def spdmMeasure (ep : SpdmEp) (index : Nat) (sign : Bool) (s : State) : State :=
  if sign then answer ep (.measurements (blocksAsked s ep index) (some (aliasSig s 0))) (drawn s)
  else answer ep (.measurements (blocksAsked s ep index) none) s

/-! ## Sessions -/

/-- An established session of an endpoint. -/
def hasSession (s : State) (ep : SpdmEp) (session : Nat) (established : Bool) : Bool :=
  s.sec.sessions.any (fun x => x.id == session && x.ep == ep && x.established == established)

def updSession (session : Nat) (f : Session → Session) (s : State) : State :=
  { s with sec := { s.sec with sessions := lmap (fun x => x.id == session) f s.sec.sessions } }

def endSession (session : Nat) (s : State) : State :=
  { s with sec := { s.sec with sessions := s.sec.sessions.filter (fun x => x.id != session) } }

/-- KEY_EXCHANGE: a session whose number is the requester's half and the module's. -/
def keyExchange (ep : SpdmEp) (reqSession : Nat) (s : State) : State :=
  let id := reqSession % 65536 * 65536 + Config.spdmSession s.sec.draws % 65536
  let s := drawn (endSession id s)
  answer ep (.keyExchange id) { s with sec := { s.sec with sessions := s.sec.sessions ++ [⟨id, ep, false, 0⟩] } }

/-- FINISH: establishes the session; a verification that fails ends it. -/
def finishSession (ep : SpdmEp) (session : Nat) (ok : Bool) (s : State) : State :=
  if !hasSession s ep session false then answer ep .otherError s
  else if ok then answer ep .finish (updSession session (fun x => { x with established := true }) s)
  else answer ep .otherError (endSession session s)

/-- A request inside an established session. -/
def inSession (ep : SpdmEp) (session : Nat) (a : SpdmAnswer) (body : State → State) (s : State) : State :=
  if hasSession s ep session true then answer ep a (body s) else answer ep .otherError s

/-! ## Management bus (14 R422; 13 R401) -/

/-- The address the module answers at: over I3C the dynamic address, else over SMBus the static one, 40H + SLOT_ID. -/
def busAddress (s : State) : BitVec 7 :=
  match s.mgmt.addr with
  | some a => a
  | none => BitVec.ofNat 7 (0x40 + s.boot.slotId)

/-- ENTDAA or SETDASA: the module leaves SMBus; staged events go out. -/
def assignAddress (addr : BitVec 7) (s : State) : State :=
  if !s.boot.vaon || s.mgmt.addr.isSome then s else flushMgmt { s with mgmt := { s.mgmt with addr := some addr } }

def clearAddress (s : State) : State := { s with mgmt := { s.mgmt with addr := none } }

/-- PLDM event acknowledgement: the bits go in both PFs. -/
def ackAlerts (mask : BitVec 32) (s : State) : State := if s.sec.fw && !s.sec.pldmOnly then clearAlert mask s else s

/-! ## JTAG (10 R326, R327) -/

/-- An instruction in the TAP: IDCODE and BYPASS select their register; a debug instruction while debug is locked selects BYPASS, as the TAP offers no other. -/
def jtagNow (op : JtagOp) (s : State) : Out :=
  match op with
  | .idcode => .next { s with sec := { s.sec with jtagSel := 1 } }
  | .bypass => .next { s with sec := { s.sec with jtagSel := 2 } }
  | .debug _ => if s.sec.jtag then .refused .jtagDebugInstruction else .next { s with sec := { s.sec with jtagSel := 2 } }

/-! ## Commands -/

/-- 10 R307, R308. -/
def execSpdmGetVersion (ep : SpdmEp) (s : State) : Out := guarded (epOk ep) (spdmAny ep (answer ep .version) s)
/-- 10 R307. -/
def execSpdmGetCapabilities (ep : SpdmEp) (s : State) : Out := guarded (epOk ep) (spdmReq ep (answer ep .capabilities) s)
/-- 10 R307. -/
def execSpdmNegotiateAlgorithms (ep : SpdmEp) (s : State) : Out := guarded (epOk ep) (spdmReq ep (answer ep .algorithms) s)
/-- 10 R307. -/
def execSpdmGetDigests (ep : SpdmEp) (s : State) : Out :=
  guarded (epOk ep) (spdmReq ep (fun s => answer ep (.digests (Config.sha384 (Config.aliasChain s.sec.cdi))) s) s)
/-- 10 R307. -/
def execSpdmGetCertificate (ep : SpdmEp) (slot : Nat) (s : State) : Out :=
  guarded (epOk ep) (spdmReq ep (fun s => answer ep (if slot = 0 then .certificate 0 s.sec.aliasGen else .otherError) s) s)
/-- 10 R307. -/
def execSpdmChallenge (ep : SpdmEp) (slot : Nat) (nonce : BitVec 256) (s : State) : Out :=
  guarded (epOk ep) (spdmProof ep (fun s => if slot = 0 then answer ep (.challengeAuth (aliasSig s nonce)) (drawn s) else answer ep .otherError s) s)
/-- 10 R307, R309, R310. -/
def execSpdmGetMeasurements (ep : SpdmEp) (index : Nat) (sign : Bool) (s : State) : Out := guarded (epOk ep) (spdmProof ep (spdmMeasure ep index sign) s)
/-- 10 R307. -/
def execSpdmKeyExchange (ep : SpdmEp) (reqSession : Nat) (s : State) : Out := guarded (epOk ep) (spdmProof ep (keyExchange ep reqSession) s)
/-- 10 R307. -/
def execSpdmFinish (ep : SpdmEp) (session : Nat) (ok : Bool) (s : State) : Out := guarded (epOk ep) (spdmReq ep (finishSession ep session ok) s)
/-- 10 R307. -/
def execSpdmHeartbeat (ep : SpdmEp) (session : Nat) (s : State) : Out := guarded (epOk ep) (spdmReq ep (inSession ep session .heartbeat (fun s => s)) s)
/-- 10 R307. -/
def execSpdmKeyUpdate (ep : SpdmEp) (session : Nat) (s : State) : Out :=
  guarded (epOk ep) (spdmReq ep (inSession ep session .keyUpdate (updSession session (fun x => { x with keyGen := x.keyGen + 1 }))) s)
/-- 10 R307, Table 10-2. -/
def execSpdmEndSession (ep : SpdmEp) (session : Nat) (s : State) : Out :=
  guarded (epOk ep) (spdmReq ep (inSession ep session .endSession (endSession session)) s)
/-- 10 R307: any other request. -/
def execSpdmUnsupportedRequest (ep : SpdmEp) (_code : Nat) (s : State) : Out := guarded (epOk ep) (spdmAny ep (answer ep .unsupportedRequest) s)
/-- 13 R401. -/
def execPldmEventAck (mask : BitVec 32) (s : State) : Out := guarded true (ackAlerts mask s)
/-- 14 R422. -/
def execDynamicAddressAssign (addr : BitVec 7) (s : State) : Out := guarded true (assignAddress addr s)
/-- 14 R422. -/
def execRstdaa (s : State) : Out := guarded true (clearAddress s)
/-- 10 R326, R327. -/
def execJtagInstruction (op : JtagOp) (s : State) : Out := jtagNow op s

end Sys2Proof.Machine
end

