-- ==== Sys2Proof/Machine/Dispatch.lean ====
section
/-! DEFINITION. One arm per command: a direct call of its meaning. -/

namespace Sys2Proof.Machine

def exec (i : Instr) (s : State) : Host.Outcome State Fault Refusal :=
  match i with
  | .identify e => Sys2Proof.Machine.execIdentify e s
  | .qpCreate e => Sys2Proof.Machine.execQpCreate e s
  | .qpDelete e => Sys2Proof.Machine.execQpDelete e s
  | .ringForm e => Sys2Proof.Machine.execRingForm e s
  | .ringMode e => Sys2Proof.Machine.execRingMode e s
  | .partCreate e => Sys2Proof.Machine.execPartCreate e s
  | .partDelete e => Sys2Proof.Machine.execPartDelete e s
  | .partSet e => Sys2Proof.Machine.execPartSet e s
  | .programLoad e => Sys2Proof.Machine.execProgramLoad e s
  | .partStart e => Sys2Proof.Machine.execPartStart e s
  | .partDrain e => Sys2Proof.Machine.execPartDrain e s
  | .partQuery e => Sys2Proof.Machine.execPartQuery e s
  | .submit e => Sys2Proof.Machine.execSubmit e s
  | .cancel e => Sys2Proof.Machine.execCancel e s
  | .reqQuery e => Sys2Proof.Machine.execReqQuery e s
  | .adapterLoad e => Sys2Proof.Machine.execAdapterLoad e s
  | .adapterRelease e => Sys2Proof.Machine.execAdapterRelease e s
  | .pause e => Sys2Proof.Machine.execPause e s
  | .exportCtx e => Sys2Proof.Machine.execExportCtx e s
  | .importCtx e => Sys2Proof.Machine.execImportCtx e s
  | .discard e => Sys2Proof.Machine.execDiscard e s
  | .setTtl e => Sys2Proof.Machine.execSetTtl e s
  | .weightOpen e => Sys2Proof.Machine.execWeightOpen e s
  | .weightChunk e => Sys2Proof.Machine.execWeightChunk e s
  | .weightClose e => Sys2Proof.Machine.execWeightClose e s
  | .weightStatus e => Sys2Proof.Machine.execWeightStatus e s
  | .eraseWeights e => Sys2Proof.Machine.execEraseWeights e s
  | .zeroise e => Sys2Proof.Machine.execZeroise e s
  | .debugUnlock e => Sys2Proof.Machine.execDebugUnlock e s
  | .debugLock e => Sys2Proof.Machine.execDebugLock e s
  | .telemetryRead e => Sys2Proof.Machine.execTelemetryRead e s
  | .monitorSet e => Sys2Proof.Machine.execMonitorSet e s
  | .eventRingSet e => Sys2Proof.Machine.execEventRingSet e s
  | .counterSelect e => Sys2Proof.Machine.execCounterSelect e s
  | .setSpares e => Sys2Proof.Machine.execSetSpares e s
  | .driftComp e => Sys2Proof.Machine.execDriftComp e s
  | .refreshSet e => Sys2Proof.Machine.execRefreshSet e s
  | .refreshWindow e => Sys2Proof.Machine.execRefreshWindow e s
  | .recalibrate e => Sys2Proof.Machine.execRecalibrate e s
  | .fwUpdate e => Sys2Proof.Machine.execFwUpdate e s
  | .microcodeUpdate e => Sys2Proof.Machine.execMicrocodeUpdate e s
  | .unassignedOpcode e opcode => Sys2Proof.Machine.execUnassignedOpcode e opcode s
  | .sqTail fn q v => Sys2Proof.Machine.execSqTail fn q v s
  | .cqHead fn q v => Sys2Proof.Machine.execCqHead fn q v s
  | .runnelCons fn r v => Sys2Proof.Machine.execRunnelCons fn r v s
  | .mbCtrlEnable fn v => Sys2Proof.Machine.execMbCtrlEnable fn v s
  | .mbCtrlDisable fn v => Sys2Proof.Machine.execMbCtrlDisable fn v s
  | .evCons fn v => Sys2Proof.Machine.execEvCons fn v s
  | .alertStatusClear fn v => Sys2Proof.Machine.execAlertStatusClear fn v s
  | .traceCtrlWrite fn v => Sys2Proof.Machine.execTraceCtrlWrite fn v s
  | .pertHsdelayWrite fn part ix v => Sys2Proof.Machine.execPertHsdelayWrite fn part ix v s
  | .pertCreditWrite fn part v => Sys2Proof.Machine.execPertCreditWrite fn part v s
  | .pertStretchWrite fn part v => Sys2Proof.Machine.execPertStretchWrite fn part v s
  | .pertAdcWrite fn part v => Sys2Proof.Machine.execPertAdcWrite fn part v s
  | .pertRetrain fn part v => Sys2Proof.Machine.execPertRetrain fn part v s
  | .fiParity fn part v => Sys2Proof.Machine.execFiParity fn part v s
  | .fiPoison fn part v => Sys2Proof.Machine.execFiPoison fn part v s
  | .registerWrite fn bar2 offset v eight => Sys2Proof.Machine.execRegisterWrite fn bar2 offset v eight s
  | .nop l f => Sys2Proof.Machine.execNop l f s
  | .add l f => Sys2Proof.Machine.execAdd l f s
  | .sub l f => Sys2Proof.Machine.execSub l f s
  | .and l f => Sys2Proof.Machine.execAnd l f s
  | .or l f => Sys2Proof.Machine.execOr l f s
  | .xor l f => Sys2Proof.Machine.execXor l f s
  | .shl l f => Sys2Proof.Machine.execShl l f s
  | .shr l f => Sys2Proof.Machine.execShr l f s
  | .sar l f => Sys2Proof.Machine.execSar l f s
  | .mul l f => Sys2Proof.Machine.execMul l f s
  | .slt l f => Sys2Proof.Machine.execSlt l f s
  | .sltu l f => Sys2Proof.Machine.execSltu l f s
  | .addi l f => Sys2Proof.Machine.execAddi l f s
  | .lih l f => Sys2Proof.Machine.execLih l f s
  | .sld l f => Sys2Proof.Machine.execSld l f s
  | .sst l f => Sys2Proof.Machine.execSst l f s
  | .rds l f => Sys2Proof.Machine.execRds l f s
  | .beq l f => Sys2Proof.Machine.execBeq l f s
  | .bne l f => Sys2Proof.Machine.execBne l f s
  | .blt l f => Sys2Proof.Machine.execBlt l f s
  | .bge l f => Sys2Proof.Machine.execBge l f s
  | .jmp l f => Sys2Proof.Machine.execJmp l f s
  | .jr l f => Sys2Proof.Machine.execJr l f s
  | .step l f => Sys2Proof.Machine.execStep l f s
  | .fence l f => Sys2Proof.Machine.execFence l f s
  | .trapi l f => Sys2Proof.Machine.execTrapi l f s
  | .aop l f => Sys2Proof.Machine.execAop l f s
  | .aclr l f => Sys2Proof.Machine.execAclr l f s
  | .ard l f => Sys2Proof.Machine.execArd l f s
  | .aexp l f => Sys2Proof.Machine.execAexp l f s
  | .aimp l f => Sys2Proof.Machine.execAimp l f s
  | .widot l f => Sys2Proof.Machine.execWidot l f s
  | .wfdot l f => Sys2Proof.Machine.execWfdot l f s
  | .wvb l f => Sys2Proof.Machine.execWvb l f s
  | .wvu l f => Sys2Proof.Machine.execWvu l f s
  | .wred l f => Sys2Proof.Machine.execWred l f s
  | .wsmx l f => Sys2Proof.Machine.execWsmx l f s
  | .wqnt l f => Sys2Proof.Machine.execWqnt l f s
  | .wgth l f => Sys2Proof.Machine.execWgth l f s
  | .wtopk l f => Sys2Proof.Machine.execWtopk l f s
  | .wsmp l f => Sys2Proof.Machine.execWsmp l f s
  | .qld l f => Sys2Proof.Machine.execQld l f s
  | .ascr l f => Sys2Proof.Machine.execAscr l f s
  | .aval l f => Sys2Proof.Machine.execAval l f s
  | .kapp l f => Sys2Proof.Machine.execKapp l f s
  | .kmark l f => Sys2Proof.Machine.execKmark l f s
  | .krew l f => Sys2Proof.Machine.execKrew l f s
  | .krel l f => Sys2Proof.Machine.execKrel l f s
  | .kwalk l f => Sys2Proof.Machine.execKwalk l f s
  | .kxfr l f => Sys2Proof.Machine.execKxfr l f s
  | .copy l f => Sys2Proof.Machine.execCopy l f s
  | .trd l f => Sys2Proof.Machine.execTrd l f s
  | .send l f => Sys2Proof.Machine.execSend l f s
  | .clr l f => Sys2Proof.Machine.execClr l f s
  | .recv l f => Sys2Proof.Machine.execRecv l f s
  | .qpeek l f => Sys2Proof.Machine.execQpeek l f s
  | .qpop l f => Sys2Proof.Machine.execQpop l f s
  | .qmark l f => Sys2Proof.Machine.execQmark l f s
  | .qrewind l f => Sys2Proof.Machine.execQrewind l f s
  | .qrel l f => Sys2Proof.Machine.execQrel l f s
  | .qstat l f => Sys2Proof.Machine.execQstat l f s
  | .storeError l => Sys2Proof.Machine.execStoreError l s
  | .waitEnd l eng => Sys2Proof.Machine.execWaitEnd l eng s
  | .arrayOpStart l bank => Sys2Proof.Machine.execArrayOpStart l bank s
  | .phaseComplete l bank => Sys2Proof.Machine.execPhaseComplete l bank s
  | .arrayOpComplete l bank => Sys2Proof.Machine.execArrayOpComplete l bank s
  | .outlierResidual l bank => Sys2Proof.Machine.execOutlierResidual l bank s
  | .bankRestoreDone l bank => Sys2Proof.Machine.execBankRestoreDone l bank s
  | .referenceOperation l arr => Sys2Proof.Machine.execReferenceOperation l arr s
  | .driftStaleTimeout l arr => Sys2Proof.Machine.execDriftStaleTimeout l arr s
  | .temperatureUpdate field => Sys2Proof.Machine.execTemperatureUpdate field s
  | .flitHop router inPort cls vcb => Sys2Proof.Machine.execFlitHop router inPort cls vcb s
  | .weirRelease src part => Sys2Proof.Machine.execWeirRelease src part s
  | .linkCrcMismatch router port link flit => Sys2Proof.Machine.execLinkCrcMismatch router port link flit s
  | .laneTestDone router port link r => Sys2Proof.Machine.execLaneTestDone router port link r s
  | .orderRun router port => Sys2Proof.Machine.execOrderRun router port s
  | .orderEndstep router port => Sys2Proof.Machine.execOrderEndstep router port s
  | .qlineArrival l => Sys2Proof.Machine.execQlineArrival l s
  | .accxArrival l => Sys2Proof.Machine.execAccxArrival l s
  | .creditArrival l => Sys2Proof.Machine.execCreditArrival l s
  | .xhdrArrival l => Sys2Proof.Machine.execXhdrArrival l s
  | .xdataArrival l => Sys2Proof.Machine.execXdataArrival l s
  | .xackArrival l => Sys2Proof.Machine.execXackArrival l s
  | .kvReservedSub l => Sys2Proof.Machine.execKvReservedSub l s
  | .mgmtFlit op => Sys2Proof.Machine.execMgmtFlit op s
  | .rimRunnel tile => Sys2Proof.Machine.execRimRunnel tile s
  | .rimEndnote tile => Sys2Proof.Machine.execRimEndnote tile s
  | .rimTrace => Sys2Proof.Machine.execRimTrace s
  | .rimZendenChannel tile => Sys2Proof.Machine.execRimZendenChannel tile s
  | .rimUnlistedChannel tile => Sys2Proof.Machine.execRimUnlistedChannel tile s
  | .zendenGroupReceive z g => Sys2Proof.Machine.execZendenGroupReceive z g s
  | .zendenAckTimeout z => Sys2Proof.Machine.execZendenAckTimeout z s
  | .zendenIdleHeader z => Sys2Proof.Machine.execZendenIdleHeader z s
  | .zendenLinkDown z why => Sys2Proof.Machine.execZendenLinkDown z why s
  | .zendenLinkTrained z peer => Sys2Proof.Machine.execZendenLinkTrained z peer s
  | .ringFormReceive index => Sys2Proof.Machine.execRingFormReceive index s
  | .ringDoneReceive size => Sys2Proof.Machine.execRingDoneReceive size s
  | .ringFormTimeout => Sys2Proof.Machine.execRingFormTimeout s
  | .stepBoundary part => Sys2Proof.Machine.execStepBoundary part s
  | .boundarySeen l => Sys2Proof.Machine.execBoundarySeen l s
  | .stepWatchdogExpiry part => Sys2Proof.Machine.execStepWatchdogExpiry part s
  | .partitionStop part => Sys2Proof.Machine.execPartitionStop part s
  | .partitionFault part => Sys2Proof.Machine.execPartitionFault part s
  | .faultRetestDone part votes => Sys2Proof.Machine.execFaultRetestDone part votes s
  | .partitionReloadDone part => Sys2Proof.Machine.execPartitionReloadDone part s
  | .configCrcRecompute u => Sys2Proof.Machine.execConfigCrcRecompute u s
  | .configScrub => Sys2Proof.Machine.execConfigScrub s
  | .calibrationScrub => Sys2Proof.Machine.execCalibrationScrub s
  | .driftSave => Sys2Proof.Machine.execDriftSave s
  | .lockstepMismatch p => Sys2Proof.Machine.execLockstepMismatch p s
  | .holdClear => Sys2Proof.Machine.execHoldClear s
  | .standbySelftestDone p pass => Sys2Proof.Machine.execStandbySelftestDone p pass s
  | .lamplighterError => Sys2Proof.Machine.execLamplighterError s
  | .lamplighterRestartDone => Sys2Proof.Machine.execLamplighterRestartDone s
  | .prefillDone part tag t => Sys2Proof.Machine.execPrefillDone part tag t s
  | .decodePassDone part tag toks drafts => Sys2Proof.Machine.execDecodePassDone part tag toks drafts s
  | .passStart part tag => Sys2Proof.Machine.execPassStart part tag s
  | .requestEnd part tag => Sys2Proof.Machine.execRequestEnd part tag s
  | .interruptTimer fn src => Sys2Proof.Machine.execInterruptTimer fn src s
  | .cisternPauseDone part tag => Sys2Proof.Machine.execCisternPauseDone part tag s
  | .cisternResumeDone part tag authOk => Sys2Proof.Machine.execCisternResumeDone part tag authOk s
  | .contextTtlExpiry handle => Sys2Proof.Machine.execContextTtlExpiry handle s
  | .arrayProgrammingDone l arr r => Sys2Proof.Machine.execArrayProgrammingDone l arr r s
  | .weightLoadIdleTimeout part => Sys2Proof.Machine.execWeightLoadIdleTimeout part s
  | .erasureDone failed => Sys2Proof.Machine.execErasureDone failed s
  | .touchUpChunk l arr ok => Sys2Proof.Machine.execTouchUpChunk l arr ok s
  | .refreshIdle part => Sys2Proof.Machine.execRefreshIdle part s
  | .pwrEnAssert slotId => Sys2Proof.Machine.execPwrEnAssert slotId s
  | .pwrEnDeassert => Sys2Proof.Machine.execPwrEnDeassert s
  | .powerDownSaveDone => Sys2Proof.Machine.execPowerDownSaveDone s
  | .j1Connect mv => Sys2Proof.Machine.execJ1Connect mv s
  | .inputOvervoltageWarn mv => Sys2Proof.Machine.execInputOvervoltageWarn mv s
  | .railFault rail cause group mv => Sys2Proof.Machine.execRailFault rail cause group mv s
  | .phaseFailure group => Sys2Proof.Machine.execPhaseFailure group s
  | .hardTrip comparator => Sys2Proof.Machine.execHardTrip comparator s
  | .perstAssert p => Sys2Proof.Machine.execPerstAssert p s
  | .perstDeassert p => Sys2Proof.Machine.execPerstDeassert p s
  | .functionLevelReset fn => Sys2Proof.Machine.execFunctionLevelReset fn s
  | .hostLinkDown p => Sys2Proof.Machine.execHostLinkDown p s
  | .hostLinkReturn p => Sys2Proof.Machine.execHostLinkReturn p s
  | .hostLinkHoldTimeout p => Sys2Proof.Machine.execHostLinkHoldTimeout p s
  | .hostPortRetrain p ok => Sys2Proof.Machine.execHostPortRetrain p ok s
  | .cableInsert cage answers powerOk => Sys2Proof.Machine.execCableInsert cage answers powerOk s
  | .sensorSample r => Sys2Proof.Machine.execSensorSample r s
  | .coolantStopClear => Sys2Proof.Machine.execCoolantStopClear s
  | .thermalModelUpdate => Sys2Proof.Machine.execThermalModelUpdate s
  | .thermalDrainTimeout part => Sys2Proof.Machine.execThermalDrainTimeout part s
  | .thermalHoldRelease part => Sys2Proof.Machine.execThermalHoldRelease part s
  | .capFactorUpdate => Sys2Proof.Machine.execCapFactorUpdate s
  | .powerWindow part mw => Sys2Proof.Machine.execPowerWindow part mw s
  | .flowEstimateUpdate pin pcis => Sys2Proof.Machine.execFlowEstimateUpdate pin pcis s
  | .flowBandRaise => Sys2Proof.Machine.execFlowBandRaise s
  | .pathResistanceSample field points mA => Sys2Proof.Machine.execPathResistanceSample field points mA s
  | .domainRampStart field vcoreHeadroom vanaHeadroom => Sys2Proof.Machine.execDomainRampStart field vcoreHeadroom vanaHeadroom s
  | .rampHeadroomTimeout field => Sys2Proof.Machine.execRampHeadroomTimeout field s
  | .domainRampDone field => Sys2Proof.Machine.execDomainRampDone field s
  | .lanternTimeAcquired l => Sys2Proof.Machine.execLanternTimeAcquired l s
  | .domainOffAfterWork field => Sys2Proof.Machine.execDomainOffAfterWork field s
  | .vcoreVoltageStep field => Sys2Proof.Machine.execVcoreVoltageStep field s
  | .timeBaseBroadcast => Sys2Proof.Machine.execTimeBaseBroadcast s
  | .vaonGood => Sys2Proof.Machine.execVaonGood s
  | .romSelftestDone pass => Sys2Proof.Machine.execRomSelftestDone pass s
  | .lamplighterFwStart => Sys2Proof.Machine.execLamplighterFwStart s
  | .firmwareMeasured aOk bOk => Sys2Proof.Machine.execFirmwareMeasured aOk bOk s
  | .hostLinkTrained p ok => Sys2Proof.Machine.execHostLinkTrained p ok s
  | .cisternTrainingDone failed => Sys2Proof.Machine.execCisternTrainingDone failed s
  | .calibrationReconcile => Sys2Proof.Machine.execCalibrationReconcile s
  | .fieldSelfTestDone badRouters badIslands => Sys2Proof.Machine.execFieldSelfTestDone badRouters badIslands s
  | .neighbourTestDone votes => Sys2Proof.Machine.execNeighbourTestDone votes s
  | .repairMapApply => Sys2Proof.Machine.execRepairMapApply s
  | .retentionCheckDone event => Sys2Proof.Machine.execRetentionCheckDone event s
  | .dormantRecordCheck => Sys2Proof.Machine.execDormantRecordCheck s
  | .readyAssert => Sys2Proof.Machine.execReadyAssert s
  | .spdmGetVersion ep => Sys2Proof.Machine.execSpdmGetVersion ep s
  | .spdmGetCapabilities ep => Sys2Proof.Machine.execSpdmGetCapabilities ep s
  | .spdmNegotiateAlgorithms ep => Sys2Proof.Machine.execSpdmNegotiateAlgorithms ep s
  | .spdmGetDigests ep => Sys2Proof.Machine.execSpdmGetDigests ep s
  | .spdmGetCertificate ep slot => Sys2Proof.Machine.execSpdmGetCertificate ep slot s
  | .spdmChallenge ep slot nonce => Sys2Proof.Machine.execSpdmChallenge ep slot nonce s
  | .spdmGetMeasurements ep index sign => Sys2Proof.Machine.execSpdmGetMeasurements ep index sign s
  | .spdmKeyExchange ep reqSession => Sys2Proof.Machine.execSpdmKeyExchange ep reqSession s
  | .spdmFinish ep session ok => Sys2Proof.Machine.execSpdmFinish ep session ok s
  | .spdmHeartbeat ep session => Sys2Proof.Machine.execSpdmHeartbeat ep session s
  | .spdmKeyUpdate ep session => Sys2Proof.Machine.execSpdmKeyUpdate ep session s
  | .spdmEndSession ep session => Sys2Proof.Machine.execSpdmEndSession ep session s
  | .spdmUnsupportedRequest ep code => Sys2Proof.Machine.execSpdmUnsupportedRequest ep code s
  | .pldmFirmwareUpdate image => Sys2Proof.Machine.execPldmFirmwareUpdate image s
  | .coolantKind v => Sys2Proof.Machine.execCoolantKind v s
  | .pldmEventAck mask => Sys2Proof.Machine.execPldmEventAck mask s
  | .dynamicAddressAssign addr => Sys2Proof.Machine.execDynamicAddressAssign addr s
  | .rstdaa => Sys2Proof.Machine.execRstdaa s
  | .thermTripRelease => Sys2Proof.Machine.execThermTripRelease s
  | .rimFunctionLost tile => Sys2Proof.Machine.execRimFunctionLost tile s
  | .phaseUpdateDone ok => Sys2Proof.Machine.execPhaseUpdateDone ok s
  | .jtagInstruction op => Sys2Proof.Machine.execJtagInstruction op s
  | .zendenActivateNotice z => Sys2Proof.Machine.execZendenActivateNotice z s
  | .refreshWindowEnd part => Sys2Proof.Machine.execRefreshWindowEnd part s
  | .powerDownRestart => Sys2Proof.Machine.execPowerDownRestart s

end Sys2Proof.Machine
end

