-- ==== Sys2Proof/Safety.lean ====
section
/-! DEFINITION. What a sound module is and the words the statements use: partitions that keep 01 R28, memories in canonical form, a lantern that takes an instruction, what an instruction leaves. -/

namespace Sys2Proof.Machine

/-! ## Partitions (01 R28) -/

/-- A rectangle of the 10 x 10 grid of fields, at least one field. -/
def rectOk (p : Partition) : Bool := decide (1 ≤ p.w) && decide (p.fx0 + p.w ≤ 10) && decide (1 ≤ p.h) && decide (p.fy0 + p.h ≤ 10)

/-- Partitions have numbers 0 to 15, each is a rectangle of the grid, and no field belongs to two. -/
structure PartsOk (s : State) : Prop where
  number : ∀ n p, getPart s n = some p → n < 16
  rect : ∀ n p, getPart s n = some p → rectOk p = true
  apart : ∀ n m p q f, getPart s n = some p → getPart s m = some q → inRect p f = true → inRect q f = true → f < 100 → n = m

/-! ## Memories in canonical form -/

/-- The memories of a lantern: addresses strictly rising, no entry equal to what an unlisted address reads as. -/
def lanternMem (L : Lantern) : Bool := twf {} L.store && twf {} L.pad && twf {} L.kv

/-- Every memory of the module is in canonical form: the lanterns' stores, and the cistern. -/
def Memory.wf (s : State) : Bool := twf {} s.lanterns && s.lanterns.all (fun e => lanternMem e.2) && twf {} s.cistern

/-! ## A lantern that takes an instruction -/

/-- Lantern l takes instruction i now: it exists, its sequencer may issue, program load has passed the word, the stored word is sound, no register is pending (05 R136, R160; 06 R175, R177, R192). -/
structure Takes (l : Nat) (i : Instr) (s : State) : Prop where
  unit : l < 1600
  may : canIssue (getL s l) = true
  word : fieldsOk i = true
  sound : (tget {} (getL s l).store (getL s l).pc).parBad = false
  regs : (getL s l).pending = []

/-- It takes an instruction of engine e that is idle, short of the last index. -/
structure Runs (l e : Nat) (i : Instr) (s : State) : Prop where
  takes : Takes l i s
  last : (getL s l).pc ≠ 8191
  idle : getEng (getL s l) e = {}

/-- Past an instruction: the program index and the issue count are one more (05 R136, R139). -/
def passed (l : Nat) (s : State) : State := updL s l (fun L => { L with pc := L.pc + 1, issued := L.issued + 1 })

/-- An instruction that the sequencer completes, counted as source 0x02 (13 Table 13-1). -/
def retired (l : Nat) (s : State) : State := countL s l 0x02 1

/-! ## What an instruction of an engine leaves -/

/-- The module but for its lanterns and partition records. -/
def others (s : State) : State := { s with lanterns := [], parts := [] }
/-- A partition record but for its counters. -/
def uncounted (p : Partition) : Partition := { p with counters := [] }
/-- A lantern but for its program index, issue count, engines and counters. -/
def uncountedL (L : Lantern) : Lantern := { L with pc := 0, issued := 0, engines := [], counters := [] }

/-- From s to t lantern l has issued one more instruction and completed it in engine e; but for the index, the engines and the counters the lantern is now L, and all else is as before. -/
structure Became (l e : Nat) (L : Lantern) (s t : State) : Prop where
  rest : others t = others s
  parts : ∀ n, (getPart t n).map uncounted = (getPart s n).map uncounted
  lanterns : ∀ m, m ≠ l → getL t m = getL s m
  lantern : uncountedL (getL t l) = uncountedL L
  pc : (getL t l).pc = (getL s l).pc + 1
  issued : (getL t l).issued = (getL s l).issued + 1
  engine : getEng (getL t l) e = {}
  engines : ∀ d, d ≠ e → getEng (getL t l) d = getEng (getL s l) d

/-- The n lines from a on with their poison. -/
def linesAt (L : Lantern) (a n : Nat) : List (Line × Bool) := (List.range n).map (fun i => ((padAt L (a + i)).data, (padAt L (a + i)).poison))
/-- The lines from a on are full, of sound parity. -/
abbrev soundLines (L : Lantern) (a n : Nat) : Prop := ∀ i, i < n → (padAt L (a + i)).full = true ∧ (padAt L (a + i)).parBad = false
/-- The lines from a on are empty. -/
abbrev freeLines (L : Lantern) (a n : Nat) : Prop := ∀ i, i < n → (padAt L (a + i)).full = false
/-- A scratchpad with lines xs from a on. -/
def putLines (m : SMap PadLine) : Nat → List PadLine → SMap PadLine
  | _, [] => m
  | a, x :: xs => putLines (tset {} m a x) (a + 1) xs
/-- A scratchpad with n lines from a on emptied. -/
def dropLines (m : SMap PadLine) : Nat → Nat → SMap PadLine
  | _, 0 => m
  | a, n + 1 => dropLines (tset {} m a {}) (a + 1) n

/-- Flits injected in order by engine e at time t: a class-0 flit goes behind those the weir holds while it is closed (08 R247). -/
def injectedL (t e : Nat) : List Flit → Lantern → Lantern
  | [], L => L
  | f :: fs, L =>
    injectedL t e fs (if f.cls = 0 ∧ (L.weirHeld.isEmpty && weirOpen L.weirLast L.weirK t) = false then { L with weirHeld := L.weirHeld ++ [(e, f)] }
      else { L with tx := L.tx ++ [(e, f)], weirLast := if f.cls = 0 then some t else L.weirLast })

/-- Lines of a lane placed in arrival order into n blocks from b on (06 R185): the accumulator, the lines left, how many were taken; none when lines or extended sets run out. -/
def importBlocks : List (Line × Bool × Bool) → Nat → Nat → SMap Block → Option (SMap Block × List (Line × Bool × Bool) × Nat)
  | xs, _, 0, acc => some (acc, xs, 0)
  | [], _, _ + 1, _ => none
  | (x, p, e) :: xs, b, n + 1, acc => (placeList (importLine b x p e) ⟨acc, 0, 0⟩).bind (fun a =>
      (if importLast x e then importBlocks xs (b + 1) n a.acc else importBlocks xs b (n + 1) a.acc).map (fun r => (r.1, r.2.1, r.2.2 + 1)))

/-! ## Shares of the key/value store (07 R203 to R209) -/

/-- Lines of columns cs of local index i of the share at d, by the tables, with their poison. -/
def heldLines (L : Lantern) (d : Nat) (cs : List Nat) (i : Nat) : List (Line × Bool) :=
  let k := descAt L d
  cs.map (fun c =>
    let x := tget {} L.kv (kvAddr k ((walk L k (i / pageDepth k)).getD 0) c i)
    (x.data, x.poison))

/-- The share at d may be used for n local indices from i on: its descriptor is active, the tables resolve its pages, the look-aside buffer agrees with the tables, and the scratchpad's and the store's lines are of sound parity. -/
structure ShareReady (L : Lantern) (d i n : Nat) : Prop where
  active : descOk L d = true
  pages : ∀ j, i ≤ j → j < i + n → (walk L (descAt L d) (j / pageDepth (descAt L d))).isSome = true
  agree : ∀ e, e ∈ L.lookaside → walk L (descAt L e.1) e.2.1 = some e.2.2
  tables : ∀ e, e ∈ L.pad → e.2.parBad = false
  sound : ∀ e, e ∈ L.kv → e.2.parBad = false

/-- The KV port has no message to take, none in progress and none of module firmware to send (07 R219, R228). -/
abbrev portQuiet (L : Lantern) : Prop := L.kvIn = [] ∧ L.kvNow = none ∧ L.move = none

/-- The cycles of a value phase in order (05 R168): accumulator, probability buffer and first query of the group that is next; none when a probability is missing or the extended sets run out. -/
def valueFold (L : Lantern) (d blk g first h0 : Nat) : List Cycle → SMap Block × List (Nat × Nat × Int × Nat × Bool) × Nat → Option (SMap Block × List (Nat × Nat × Int × Nat × Bool) × Nat)
  | [], r => some r
  | c :: cs, (acc, ps, po) =>
    let ty := if (descAt L d).w = 2 then 2 else 1
    let qs := (List.range c.r).map (fun m => probsFor ps (po + m) c.t0 c.cnt)
    let vs := (List.range c.cnt).map (fun j => heldLines L d (headCols (descAt L d) (h0 + c.head) 1) (first + c.t0 + j))
    if qs.any Option.isNone then none
    else (placeList (valueCycle ty 6 (((qs.map (fun o => o.getD [])).zip (List.range c.r)).map (fun (p, m) =>
        (blk + 4 * (c.head * g + c.m0 + m), valueBad p vs ty, p))) vs).1 ⟨acc, 0, 0⟩).bind (fun a =>
      valueFold L d blk g first h0 cs (a.acc,
        ps.filter (fun e => !(decide (po ≤ e.1) && decide (e.1 < po + c.r) && decide (c.t0 ≤ e.2.1) && decide (e.2.1 < c.t0 + c.cnt))),
        if c.fin then po + c.r else po))

/-! ## Copies -/

/-- A scratchpad after lines i to i + n - 1 of a strided copy (05 R149). -/
def copiedLines (a stride d : Nat) (take : Bool) : Nat → Nat → SMap PadLine → SMap PadLine
  | _, 0, m => m
  | i, n + 1, m =>
    let x := tget {} m (a + i * stride)
    copiedLines a stride d take (i + 1) n (tset {} (if take then tset {} m (a + i * stride) {} else m) (d + i) ⟨x.data, true, x.poison, false, x.shadow⟩)

/-- A scratchpad with the lines named emptied, when they are read TAKE. -/
def takenLines (take : Bool) (as : List Nat) (m : SMap PadLine) : SMap PadLine := if take then as.foldl (fun m a => tset {} m a {}) m else m

/-- The lines of a strided read with their poison (05 R149). -/
def stridedAt (L : Lantern) (a stride n : Nat) : List (Line × Bool) := (List.range n).map (fun i => ((padAt L (a + i * stride)).data, (padAt L (a + i * stride)).poison))
/-- The lines of a strided read are full and of sound parity. -/
abbrev stridedSound (L : Lantern) (a stride n : Nat) : Prop :=
  ∀ i, i < n → rangeOk L (a + i * stride) 1 = true ∧ (padAt L (a + i * stride)).full = true ∧ (padAt L (a + i * stride)).parBad = false

/-! ## Prafer commands (09 R261 to R275) -/

/-- Module firmware takes entry e next from its queue pair q (09 R264 to R266). -/
structure Fetches (e : Entry) (q : Qp) (s : State) : Prop where
  names : entryOk e = true
  queue : getQp s e.fn e.sqid = some q
  ready : canTake s e = true

/-- The common fields and reserved bytes of an entry are as Table 9-2 asks; names: the command names a partition or leaves PART free. used: the fields of PARAMS that the command has, place and length. -/
structure Clean (e : Entry) (names : Bool) (used : List (Nat × Nat)) : Prop where
  flags : e.flags.toNat < 2
  part : names = false → e.part = 255
  rsvd : e.rsvd = 0
  data : dptrOk e = true
  len : dlenOf e ≤ 2 ^ 31
  rest : ∀ i, i < 44 → (∀ u, u ∈ used → 20 + i < u.1 ∨ u.1 + u.2 ≤ 20 + i) → pf e (20 + i) 1 = 0

/-- The module once the entry is fetched: the round of visits is at its queue, the submission head is past it, one more command of the queue is in progress. -/
def fetched (e : Entry) (q : Qp) (s : State) : State := setQp { s with visit := queueKey e.fn e.sqid } e.fn e.sqid (some { q with sqHead := nextHead q, busy := q.busy + 1 })

/-- The command completes with STATUS, RESULT and DETAIL; queue pairs that wait to be deleted and now can be are. -/
def answered (e : Entry) (q : Qp) (st r d : Nat) (s : State) : State := settle (postPlain s e.fn (complOf e (nextHead q) ⟨st, r, d⟩))

/-- The command completes later, with what it waits for. -/
def awaited (e : Entry) (q : Qp) (w : WaitFor) (s : State) : State := settle (waitFor e (nextHead q) w s)

end Sys2Proof.Machine
end

