-- ==== Sys2Proof/Certificates/Slice0/Obligations.lean ====
section
/-! DEFINITION. The statements for the provers: what the rules of spec/ say that the module and its commands do. -/

open Sys2Proof Sys2Proof.Machine

/-! ## The queue of commands and the outcome of one -/

/-- DESIGN of the block model (log 1): a step with command c at the front of the queue is exec of c on the state with the queue's rest. -/
def Obligations.StepTakesFront : Prop :=
  ∀ (c : Instr) (rest : List Instr) (s : State), s.pending = c :: rest → step s = exec c { s with pending := rest }

/-- Log 12: a step on an empty queue changes nothing before VAON is good; from then on it lets one nanosecond pass: the time base and the powered time advance by one. While no cache page moves to or from the cistern, the rest stands but for what time and the links do: cycle counters count, the copies of the time base move, flits that wait enter the mesh and the Zenden links. -/
def Obligations.IdleStep : Prop :=
  ∀ s : State, s.pending = [] →
    (s.boot.vaon = false → step s = .next s)
    ∧ (s.boot.vaon = true → ∃ t, step s = .next t ∧ t.pending = [] ∧ t.now = s.now + 1 ∧ t.powered = s.powered + 1
        ∧ ((∀ n p r, getPart s n = some p → r ∈ p.reqs → r.stage = .bind ∨ r.stage = .live ∨ r.stage = .ready) →
          { others t with now := s.now, powered := s.powered, skew := [], routers := [], tiles := [], zen := [] }
              = { others s with skew := [], routers := [], tiles := [], zen := [] }
          ∧ (∀ n, (getPart t n).map uncounted = (getPart s n).map uncounted)
          ∧ ∀ l, { getL t l with counters := [], tx := [] } = { getL s l with counters := [], tx := [] }))

/-- The model stops on a command exactly when it names a unit that the module does not have (01 R15 to R25), and refuses exactly an enabled JTAG debug instruction (10 R326); every other command gives a next state. Where the rules are silent the statement follows the model's choices: log 13, which commands stop. -/
def Obligations.OnlyStops : Prop :=
  ∀ (c : Instr) (s : State),
    (exec c s = .fault .noSuchUnit ↔ c.wf = false)
    ∧ (∀ r, exec c s = .refused r ↔ r = .jtagDebugInstruction ∧ s.sec.jtag = true ∧ ∃ n, c = .jtagInstruction (.debug n))
    ∧ (c.wf = true → (∀ n, c ≠ .jtagInstruction (.debug n)) → ∃ t, exec c s = .next t)

/-- What no command does (log 1; 08 R239; 10 R305 and Table 10-16): none adds to, takes from or reorders the queue of commands that wait; the time base counts from VAON, and only VAON_GOOD sets it, to 0; none takes back the retirement fuse or lowers an OTP counter. -/
def Obligations.QueueTimeAndFuses : Prop :=
  ∀ (c : Instr) (s t : State), exec c s = .next t →
    t.pending = s.pending
    ∧ (t.now = s.now ∨ (c = .vaonGood ∧ t.now = 0))
    ∧ (s.sec.retired = true → t.sec.retired = true) ∧ ∀ k, counterAt s k ≤ counterAt t k

/-- 14 R431 and 12 Table 12-4: what the module holds as it leaves the factory: rails off, no partition, one spare per field, no dormant record, arrays erased, nothing unlocked; and the partitions and memories are sound. Where the rules are silent the statement follows the model's choices: log 2 and 9, what reset leaves where 14 R431 gives no value. -/
def Obligations.ResetLeaves : Prop :=
  State.reset.boot.rails = false ∧ State.reset.boot.ready = false ∧ State.reset.boot.pwrEn = false ∧ (∀ n, getPart State.reset n = none)
    ∧ State.reset.spares = 1 ∧ State.reset.dormant = [] ∧ State.reset.sec.retired = false ∧ State.reset.sec.jtag = false
    ∧ (∀ l, canIssue (getL State.reset l) = false) ∧ State.reset.pending = []
    ∧ PartsOk State.reset ∧ Memory.wf State.reset = true

/-- 01 R28: partitions are rectangles of whole fields, numbered 0 to 15, that share no field; every command keeps this, from every state that has it. -/
def Obligations.PartitionsStayApart : Prop :=
  ∀ s t : State, PartsOk s → step s = .next t → PartsOk t

/-- Writes of a line, of the key/value store and of the cistern keep the canonical form of the memories; a read then gives what was written, and every other address reads as before (05 R142, R164; 07 R216). -/
def Obligations.MemoryWrites : Prop :=
  ∀ (s : State) (l a : Nat) (x : Line) (p : Bool) (sh : BitVec 4), Memory.wf s = true →
    Memory.wf (writePad s l a x p sh) = true ∧ Memory.wf (writeKv s l a x p) = true
    ∧ padAt (getL (writePad s l a x p sh) l) a = ⟨x, true, p, false, sh⟩
    ∧ (∀ m b, m ≠ l ∨ b ≠ a → padAt (getL (writePad s l a x p sh) m) b = padAt (getL s m) b)
    ∧ tget {} (getL (writeKv s l a x p) l).kv a = ⟨x, p, false⟩
    ∧ (∀ m b, m ≠ l ∨ b ≠ a → tget {} (getL (writeKv s l a x p) m).kv b = tget {} (getL s m).kv b)
    ∧ (∀ n, Memory.wf (clearLines l a n s) = true) ∧ ∀ v, Memory.wf { s with cistern := tset {} s.cistern a v } = true

/-! ## Words of lantern instructions (06 R174, R175) -/

/-- 06 R174, R175: every instruction that passes the checks of a word is read back from its word, and every word that is read is the word of what it reads as. -/
def Obligations.WordsRoundTrip : Prop :=
  (∀ i, fieldsOk i = true → ∃ l, decodeWord l (encodeWord i) = some i) ∧ ∀ l w i, decodeWord l w = some i → encodeWord i = w ∧ fieldsOk i = true

/-! ## Scalar instructions (06 Table 6-2, R177, R181; 05 R136, R137) -/

/-- 05 R137; 06 Table 6-2 and R177: s0 reads zero and a write to it changes nothing, another register reads what was written and the others as before; the eleven register instructions put the value of the table into SD, modulo 2^64, pass to the next index, and change nothing else but the counts of instructions issued. Where the rules are silent the statement follows the model's choices: log 15, the command carries its instruction. -/
def Obligations.ScalarArithmetic : Prop :=
  ∀ (l : Nat) (f : FmtS) (s : State) (a b : Word), a = getReg (getL s l) f.sa → b = getReg (getL s l) f.sb → (getL s l).pc ≠ 8191 →
    (∀ (r x : Fin 32) (v : Word), getReg (getL s l) 0 = 0 ∧ setReg s l 0 v = s ∧ (r ≠ 0 → getReg (getL (setReg s l r v) l) r = v) ∧ (x ≠ r → getReg (getL (setReg s l r v) l) x = getReg (getL s l) x))
    ∧ (Takes l (.add l f) s → exec (.add l f) s = .next (retired l (setReg (passed l s) l f.sd (a + b))))
    ∧ (Takes l (.sub l f) s → exec (.sub l f) s = .next (retired l (setReg (passed l s) l f.sd (a - b))))
    ∧ (Takes l (.and l f) s → exec (.and l f) s = .next (retired l (setReg (passed l s) l f.sd (a &&& b))))
    ∧ (Takes l (.or l f) s → exec (.or l f) s = .next (retired l (setReg (passed l s) l f.sd (a ||| b))))
    ∧ (Takes l (.xor l f) s → exec (.xor l f) s = .next (retired l (setReg (passed l s) l f.sd (a ^^^ b))))
    ∧ (Takes l (.shl l f) s → exec (.shl l f) s = .next (retired l (setReg (passed l s) l f.sd (a <<< (b.toNat % 64)))))
    ∧ (Takes l (.shr l f) s → exec (.shr l f) s = .next (retired l (setReg (passed l s) l f.sd (a >>> (b.toNat % 64)))))
    ∧ (Takes l (.sar l f) s → exec (.sar l f) s = .next (retired l (setReg (passed l s) l f.sd (BitVec.ofInt 64 (a.toInt / 2 ^ (b.toNat % 64))))))
    ∧ (Takes l (.mul l f) s → exec (.mul l f) s = .next (retired l (setReg (passed l s) l f.sd (BitVec.ofNat 64 (a.toNat * b.toNat)))))
    ∧ (Takes l (.slt l f) s → exec (.slt l f) s = .next (retired l (setReg (passed l s) l f.sd (if a.toInt < b.toInt then 1 else 0))))
    ∧ (Takes l (.sltu l f) s → exec (.sltu l f) s = .next (retired l (setReg (passed l s) l f.sd (if a.toNat < b.toNat then 1 else 0))))

/-- 06 Table 6-2, R181 and Table 6-4: ADDI adds IMM sign-extended; LIH sets bits 63 to 32 and keeps bits 31 to 0; RDS reads the value of Table 6-4 that IMM numbers, and a word with any other number is rejected. -/
def Obligations.ScalarImmediate : Prop :=
  ∀ (l : Nat) (f : FmtS) (s : State), (getL s l).pc ≠ 8191 →
    (Takes l (.addi l f) s → exec (.addi l f) s = .next (retired l (setReg (passed l s) l f.sd (getReg (getL s l) f.sa + f.imm.signExtend 64))))
    ∧ (Takes l (.lih l f) s → exec (.lih l f) s =
        .next (retired l (setReg (passed l s) l f.sd (BitVec.ofNat 64 (f.imm.toNat * 2 ^ 32 + (getReg (getL s l) f.sd).toNat % 2 ^ 32)))))
    ∧ (Takes l (.rds l f) s → ∀ pn p, partOf s l = some pn → getPart s pn = some p → exec (.rds l f) s =
        .next (retired l (setReg (passed l s) l f.sd (
          if f.imm.toNat = 0 then BitVec.ofNat 64 l
          else if f.imm.toNat = 1 then BitVec.ofNat 64 pn
          else if f.imm.toNat = 2 then BitVec.ofNat 64 (getL s l).step
          else if f.imm.toNat = 3 then BitVec.ofNat 64 (getL s l).seen - 1
          else if f.imm.toNat = 4 then s.now + BitVec.ofInt 64 (tget 0 s.skew (200 + l))
          else if f.imm.toNat = 5 then BitVec.ofNat 64 p.window
          else if f.imm.toNat = 6 then BitVec.ofNat 64 (getL s l).charge
          else if p.debug then 1 else 0))))
    ∧ (7 < f.imm.toNat → decodeWord l (encodeWord (.rds l f)) = none)

/-- 06 Table 6-2, 05 R142 and R144: SLD reads bytes 0 to 7 of a full sound line at SA + IMM, SST writes an empty line there with bytes 0 to 7 from SB and the rest zero. Where the rules are silent the statement follows the model's choices: log 15, the command carries its instruction. -/
def Obligations.ScalarMemory : Prop :=
  ∀ (l : Nat) (f : FmtS) (s : State) (a : Nat), (getL s l).pc ≠ 8191 → a = (getReg (getL s l) f.sa + f.imm.signExtend 64).toNat → rangeOk (getL s l) a 1 = true →
    (Takes l (.sld l f) s → (padAt (getL s l) a).full = true → (padAt (getL s l) a).poison = false → (padAt (getL s l) a).parBad = false →
      exec (.sld l f) s = .next (retired l (setReg (passed l s) l f.sd ((padAt (getL s l) a).data.setWidth 64))))
    ∧ (Takes l (.sst l f) s → (padAt (getL s l) a).full = false →
      exec (.sst l f) s = .next (retired l (writePad (passed l s) l a ((getReg (getL s l) f.sb).setWidth 544) false 0xA)))

/-- 06 Table 6-2: a branch whose test holds goes to TARGET, JMP always, JR to the value of SA up to 8,191; a test that fails goes on to the next index; nothing else changes but the counts of instructions issued. Where the rules are silent the statement follows the model's choices: log 15, the command carries its instruction. -/
def Obligations.Branches : Prop :=
  ∀ (l : Nat) (f : FmtJ) (s : State) (a b : Word) (at' : Nat → State), a = getReg (getL s l) f.sa → b = getReg (getL s l) f.sb →
    (∀ n, at' n = retired l (updL s l (fun L => { L with pc := n, issued := L.issued + 1 }))) →
    (Takes l (.beq l f) s → (a = b ∨ (getL s l).pc ≠ 8191) → exec (.beq l f) s = .next (at' (if a = b then f.target.toNat else (getL s l).pc + 1)))
    ∧ (Takes l (.bne l f) s → (a ≠ b ∨ (getL s l).pc ≠ 8191) → exec (.bne l f) s = .next (at' (if a ≠ b then f.target.toNat else (getL s l).pc + 1)))
    ∧ (Takes l (.blt l f) s → (a.toInt < b.toInt ∨ (getL s l).pc ≠ 8191) →
        exec (.blt l f) s = .next (at' (if a.toInt < b.toInt then f.target.toNat else (getL s l).pc + 1)))
    ∧ (Takes l (.bge l f) s → (b.toInt ≤ a.toInt ∨ (getL s l).pc ≠ 8191) →
        exec (.bge l f) s = .next (at' (if b.toInt ≤ a.toInt then f.target.toNat else (getL s l).pc + 1)))
    ∧ (Takes l (.jmp l f) s → exec (.jmp l f) s = .next (at' f.target.toNat))
    ∧ (Takes l (.jr l f) s → a.toNat ≤ 8191 → exec (.jr l f) s = .next (at' a.toNat))
    ∧ (Takes l (.jr l f) s → 8191 < a.toNat → (partOf s l).isSome = true → exec (.jr l f) s = .next (trapAt s l 3 a.toNat (getL s l).pc (encodeWord (.jr l f))))

/-- 05 R140; 06 R187, R189, R195: NOP only passes on; FENCE passes on once every engine its mask names is idle, and otherwise the sequencer holds under wait 0x0F; STEP closes the step, counts its declared charge into the field's plan and opens the next when the window allows; TRAPI traps with cause 0x06 and its IMM20 as detail. Where the rules are silent the statement follows the model's choices: log 16, when a declared charge counts. -/
def Obligations.SequencerControl : Prop :=
  ∀ (l : Nat) (f : FmtC) (s : State),
    (Takes l (.nop l f) s → (getL s l).pc ≠ 8191 → exec (.nop l f) s = .next (retired l (passed l s)))
    ∧ (Takes l (.fence l f) s → (getL s l).pc ≠ 8191 → (∀ e, e < 7 → f.imm.getLsbD e = true → engineIdle (getL s l) e = true) →
        exec (.fence l f) s = .next (retired l (passed l s)))
    ∧ (Takes l (.fence l f) s → (∃ e, e < 7 ∧ f.imm.getLsbD e = true ∧ engineIdle (getL s l) e = false) →
        exec (.fence l f) s = .next (updL s l (fun L => { L with held := some (.fence l f, 0x0F, nowNs s) })))
    ∧ (∀ pn p, Takes l (.step l f) s → (getL s l).pc ≠ 8191 → partOf s l = some pn → getPart s pn = some p → (getL s l).closed ≤ (getL s l).step →
        allIdle (getL s l) = true → declaredSum s l ((getL s l).step + 1) + f.imm.toNat ≤ p.allowance → (getL s l).step + 1 < p.window + (getL s l).seen →
        ∃ t, exec (.step l f) s = .next t ∧ t.pending = s.pending ∧ (getL t l).step = (getL s l).step + 1 ∧ (getL t l).closed = (getL s l).closed + 1
          ∧ (getL t l).declared = f.imm.toNat ∧ (getL t l).charge = 0 ∧ (getL t l).pc = (getL s l).pc + 1 ∧ (getL t l).regs = (getL s l).regs ∧ (getL t l).pad = (getL s l).pad
          ∧ declaredSum t l ((getL s l).step + 1) = declaredSum s l ((getL s l).step + 1) + f.imm.toNat
          ∧ (∀ m, m ≠ l → uncountedL (getL t m) = uncountedL (getL s m)))
    ∧ (Takes l (.trapi l f) s → (partOf s l).isSome = true → exec (.trapi l f) s = .next (trapAt s l 6 f.imm.toNat (getL s l).pc (encodeWord (.trapi l f))))

/-- 05 R136, R160; 06 R177, R192: where an instruction does not complete. A lantern that may not issue, or a word program load rejects, changes nothing; a stored word of bad parity traps with cause 0x07; a pending register holds the sequencer under wait 0x0E; at index 8,191 an instruction that does not branch traps with cause 0x03 and detail 8,192. Where the rules are silent the statement follows the model's choices: log 15, the command carries its instruction. -/
def Obligations.WhereIssueStops : Prop :=
  ∀ (l : Nat) (f : FmtS) (s : State), l < 1600 →
    (canIssue (getL s l) = false ∨ f.imm ≠ 0 → exec (.add l f) s = .next s)
    ∧ (canIssue (getL s l) = true → f.imm = 0 → (tget {} (getL s l).store (getL s l).pc).parBad = true →
        exec (.add l f) s = .next (trapAt s l 7 (getL s l).pc (getL s l).pc (encodeWord (.add l f))))
    ∧ (canIssue (getL s l) = true → f.imm = 0 → (tget {} (getL s l).store (getL s l).pc).parBad = false →
        (f.sd ∈ (getL s l).pending ∨ f.sa ∈ (getL s l).pending ∨ f.sb ∈ (getL s l).pending) →
        exec (.add l f) s = .next (updL s l (fun L => { L with held := some (.add l f, 0x0E, nowNs s) })))
    ∧ (Takes l (.add l f) s → (getL s l).pc = 8191 →
        exec (.add l f) s = .next (trapAt (retired l (setReg (passed l s) l f.sd (getReg (getL s l) f.sa + getReg (getL s l) f.sb))) l 3 8192 8191 (encodeWord (.add l f))))

/-! ## Engine instructions: what each does when its engine is idle and its operands are ready (05, 06 Table 6-2, R182 to R185) -/

/-- 06 Table 6-2 and R184; 04 R133, R134: ACLR empties its blocks; ARD writes the outputs of its blocks, rounded once, to empty lines, and clears the blocks when CLR is 1; nothing else of the lantern changes. Where the rules are silent the statement follows the model's choices: log 14, what an engine does in one act. -/
def Obligations.AccumulatorPort : Prop :=
  ∀ (l : Nat) (f : FmtK) (s : State) (b n : Nat), b = f.acc.toNat → n = f.nb.toNat + 1 → b + n ≤ 512 → accWaits (getL s l) (getL s l).issued b n true = false →
    (Runs l 1 (.aclr l f) s → ∃ t, exec (.aclr l f) s = .next t ∧ Became l 1 { getL s l with acc := clearBlocks (getL s l).acc b n } s t)
    ∧ (∀ xs, Runs l 1 (.ard l f) s → xs = (readoutLines f.typ.toNat (readBlocks (getL s l).acc b n)).map (·.1) →
        rangeOk (getL s l) f.line.toNat (linesFor (32 * n) (lineElems f.typ.toNat)) = true → freeLines (getL s l) f.line.toNat xs.length →
        ∃ t, exec (.ard l f) s = .next t ∧ Became l 1 { getL s l with
          pad := putLines (getL s l).pad f.line.toNat (resultLines xs f.typ.toNat),
          acc := if f.clr then clearBlocks (getL s l).acc b n else (getL s l).acc } s t)

/-- 06 R185; 05 R156: AEXP sends the lines of its blocks unrounded through the sluice entry, one credit each, when the entry has the credits and its destination is one the lantern may send to; AIMP places the lines that its lane holds for its blocks and sends one CREDIT flit for them. Where the rules are silent the statement follows the model's choices: log 14. -/
def Obligations.AccumulatorMoves : Prop :=
  ∀ (l : Nat) (f : FmtK) (s : State) (b n : Nat), b = f.acc.toNat → n = f.nb.toNat + 1 → b + n ≤ 512 →
    (∀ fs e, Runs l 1 (.aexp l f) s → accWaits (getL s l) (getL s l).issued b n true = false → slDestOk s l f.ent.toNat = true → e = getSl (getL s l) f.ent.toNat →
        fs = accxFlits l e.num (getL s l).acc b n → fs.length ≤ creditsLeft s l f.ent.toNat → e.poisonNext = false →
        ∃ t, exec (.aexp l f) s = .next t ∧ Became l 1 (injectedL (nowNs s) 1 (fs.map (fun x => { x with cls := e.cls, dst := BitVec.ofNat 11 e.dest })) { getL s l with
          acc := if f.clr then clearBlocks (getL s l).acc b n else (getL s l).acc,
          sluices := tset {} (getL s l).sluices f.ent.toNat { e with credits := e.credits - fs.length } }) s t)
    ∧ (∀ k acc rest m, Runs l 1 (.aimp l f) s → k = getLane (getL s l) f.ent.toNat → importBlocks k.buf b n (getL s l).acc = some (acc, rest, m) →
        (∀ i, i < n → accWaits (getL s l) (getL s l).issued (b + i) 1 false = false) →
        ∃ t, exec (.aimp l f) s = .next t ∧ Became l 1 (injectedL (nowNs s) 1 [creditFlit l k.cls k.producer 1 f.ent.toNat m] { getL s l with
          acc := acc, lanes := tset {} (getL s l).lanes f.ent.toNat { k with buf := rest } }) s t)

/-! ## The wide engine (05 R161 to R163; 06 Table 6-3; 07 R221; 09 R285) -/

/-- 05 R161; 06 Table 6-3: WIDOT and WFDOT place the dot products of LEN elements into the blocks from ACC on, cleared first when CLR is 1; WFDOT with F[1] writes its FP32 sums as lines instead. Where the rules are silent the statement follows the model's choices: log 14; 42. -/
def Obligations.WideDots : Prop :=
  ∀ (l : Nat) (f : FmtL) (s : State) (w : Word) (a b len outs ty n : Nat), w = getReg (getL s l) f.sc → a = f.a.toNat + w.toNat / 2 ^ 48 → b = f.b.toNat + w.toNat / 2 ^ 48 →
    len = w.toNat % 2 ^ 32 → outs = w.toNat / 2 ^ 32 % 2 ^ 7 + 1 → ty = w.toNat / 2 ^ 39 % 2 ^ 4 → n = linesFor len (lineElems ty) →
    w.toNat % 2 ^ 48 < 2 ^ 43 → 1 ≤ len → len ≤ 65536 →
    rangeOk (getL s l) b (outs * n) = true → soundLines (getL s l) b (outs * n) → hazard s l b (outs * n) ty = none →
    (∀ acc d xs ws, Runs l 2 (.widot l f) s → d = f.d.toNat → ty ≤ 2 → outs ≤ 64 → d + blocksFor outs ≤ 512 → accWaits (getL s l) (getL s l).issued d (blocksFor outs) (f.f.getLsbD 0) = false →
        rangeOk (getL s l) a n = true → soundLines (getL s l) a n → hazard s l a n ty = none → xs = linesAt (getL s l) a n → ws = linesAt (getL s l) b (outs * n) →
        placeList ((List.range outs).flatMap (fun o => intDot ty len xs ((ws.drop (o * n)).take n) d o))
          ⟨if f.f.getLsbD 0 then clearBlocks (getL s l).acc d (blocksFor outs) else (getL s l).acc, 0, 0⟩ = some acc →
        ∃ t, exec (.widot l f) s = .next t ∧ Became l 2 { getL s l with acc := acc.acc } s t)
    ∧ (∀ rs d xs ws, Runs l 2 (.wfdot l f) s → 4 ≤ ty → ty ≤ 6 →
        rangeOk (getL s l) a (linesFor len 34) = true → soundLines (getL s l) a (linesFor len 34) → hazard s l a (linesFor len 34) 6 = none →
        xs = linesAt (getL s l) a (linesFor len 34) → ws = linesAt (getL s l) b (outs * n) →
        rs = (List.range outs).map (fun o => floatDot ty len xs ((ws.drop (o * n)).take n)) →
        (∀ acc, f.f.getLsbD 1 = false → d = f.d.toNat → d + blocksFor outs ≤ 512 → accWaits (getL s l) (getL s l).issued d (blocksFor outs) (f.f.getLsbD 0) = false →
          placeList ((rs.zip (List.range outs)).map (fun (r, o) => contrOf32 (d + o / 32) (o % 32) r.1 r.2))
            ⟨if f.f.getLsbD 0 then clearBlocks (getL s l).acc d (blocksFor outs) else (getL s l).acc, 0, 0⟩ = some acc →
          ∃ t, exec (.wfdot l f) s = .next t ∧ Became l 2 { getL s l with acc := acc.acc } s t)
        ∧ (f.f.getLsbD 1 = true → d = f.d.toNat + w.toNat / 2 ^ 48 → rangeOk (getL s l) d (linesFor outs 17) = true → freeLines (getL s l) d (linesFor outs 17) →
          ∃ t, exec (.wfdot l f) s = .next t ∧ Became l 2 { getL s l with pad := putLines (getL s l).pad d (resultLines (packVec false rs).1 7) } s t))

/-- 05 R162; 06 Table 6-3: WVB, WVU and WRED read N elements of full lines, apply the function F to them, poison with poison, and write the result lines, nothing else of the lantern changing; a fused multiply-add reads its output lines KEEP too (05 R144), so its results wait under 0x02 until those lines are emptied (log 45). Where the rules are silent the statement follows the model's choices: log 45. -/
def Obligations.WideVectors : Prop :=
  ∀ (l : Nat) (f : FmtL) (s : State) (w : Word) (a d n k ko : Nat) (bi bo : Bool) (xs : List (Line × Bool)), w = getReg (getL s l) f.sc →
    a = f.a.toNat + w.toNat / 2 ^ 48 → d = f.d.toNat + w.toNat / 2 ^ 48 → n = w.toNat % 2 ^ 32 → bi = w.getLsbD 32 → 1 ≤ n → n ≤ 65536 →
    k = linesFor n (if bi then 34 else 17) → ko = linesFor n (if bo then 34 else 17) →
    rangeOk (getL s l) a k = true → soundLines (getL s l) a k → hazard s l a k (vecTy bi) = none → xs = linesAt (getL s l) a k →
    (∀ b ys, Runs l 2 (.wvb l f) s → w.toNat % 2 ^ 48 < 2 ^ 34 → bo = w.getLsbD 33 → b = f.b.toNat + w.toNat / 2 ^ 48 →
        rangeOk (getL s l) b k = true → soundLines (getL s l) b k → hazard s l b k (vecTy bi) = none → ys = linesAt (getL s l) b k → rangeOk (getL s l) d ko = true →
        f.f ≠ 2 → freeLines (getL s l) d ko →
        ∃ t, exec (.wvb l f) s = .next t ∧ Became l 2 { getL s l with pad := putLines (getL s l).pad d (resultLines (packVec bo ((List.range n).map (fun i =>
          let x := vecElem bi xs i
          let y := vecElem bi ys i
          (if f.f = 0 then fadd x.1 y.1 else if f.f = 1 then fmul x.1 y.1 else if f.f = 3 then fmax x.1 y.1 else fmin x.1 y.1, x.2 || y.2)))).1 (vecTy bo)) } s t)
    ∧ (∀ b ys zs, Runs l 2 (.wvb l f) s → w.toNat % 2 ^ 48 < 2 ^ 34 → bo = w.getLsbD 33 → b = f.b.toNat + w.toNat / 2 ^ 48 →
        rangeOk (getL s l) b k = true → soundLines (getL s l) b k → hazard s l b k (vecTy bi) = none → ys = linesAt (getL s l) b k → rangeOk (getL s l) d ko = true →
        f.f = 2 → soundLines (getL s l) d ko → hazard s l d ko (vecTy bo) = none → zs = linesAt (getL s l) d ko →
        ∃ t x, exec (.wvb l f) s = .next t ∧ (getL t l).pad = (getL s l).pad ∧ (getEng (getL t l) 2).q = [x] ∧ (getEng (getL t l) 2).wait = 0x02
          ∧ x.op = .emit d (resultLines (packVec bo ((List.range n).map (fun i =>
            (ffma (vecElem bi xs i).1 (vecElem bi ys i).1 (vecElem bo zs i).1, (vecElem bi xs i).2 || (vecElem bi ys i).2 || (vecElem bo zs i).2)))).1 (vecTy bo)))
    ∧ (Runs l 2 (.wvu l f) s → w.toNat % 2 ^ 48 < 2 ^ 34 → bo = w.getLsbD 33 → rangeOk (getL s l) d ko = true → freeLines (getL s l) d ko →
        ∃ t, exec (.wvu l f) s = .next t ∧ Became l 2 { getL s l with pad := putLines (getL s l).pad d (resultLines (packVec bo ((List.range n).map (fun i =>
          let x := vecElem bi xs i
          (if f.f = 0 then fexp x.1 else if f.f = 1 then fdiv 0x3F800000#32 x.1 else if f.f = 2 then frsqrt x.1 else toF32 (decode32 x.1), x.2)))).1 (vecTy bo)) } s t)
    ∧ (Runs l 2 (.wred l f) s → w.toNat % 2 ^ 48 < 2 ^ 33 → rangeOk (getL s l) d 1 = true → freeLines (getL s l) d 1 →
        ∃ t, exec (.wred l f) s = .next t ∧ Became l 2 { getL s l with pad := putLines (getL s l).pad d (resultLines [(line32 [
          if f.f = 0 then fsumExact ((List.range n).map (fun i => (vecElem bi xs i).1))
          else if f.f = 1 then fsumSquares ((List.range n).map (fun i => (vecElem bi xs i).1))
          else (((List.range n).map (fun i => (vecElem bi xs i).1)).drop 1).foldl fmax (((List.range n).map (fun i => (vecElem bi xs i).1)).headD 0)],
          ((List.range n).map (vecElem bi xs)).any (·.2))] 7) } s t)

/-- 05 R163; 06 Table 6-3: WQNT quantises N FP32 elements into lines of the type named; WGTH gathers one table row, copied when the formats agree and converted otherwise. Where the rules are silent the statement follows the model's choices: log 14; 19; 42. -/
def Obligations.WideConversions : Prop :=
  ∀ (l : Nat) (f : FmtL) (s : State) (w : Word) (a d : Nat), w = getReg (getL s l) f.sc → a = f.a.toNat + w.toNat / 2 ^ 48 → d = f.d.toNat + w.toNat / 2 ^ 48 →
    (∀ n ty xs ys, Runs l 2 (.wqnt l f) s → n = w.toNat % 2 ^ 32 → ty = w.toNat / 2 ^ 32 % 2 ^ 4 → w.toNat % 2 ^ 48 < 2 ^ 36 → 1 ≤ n → n ≤ 65536 → ty ≤ 5 →
        rangeOk (getL s l) a (linesFor n 17) = true → soundLines (getL s l) a (linesFor n 17) → hazard s l a (linesFor n 17) 7 = none → xs = linesAt (getL s l) a (linesFor n 17) →
        rangeOk (getL s l) d (linesFor n (lineElems ty)) = true → freeLines (getL s l) d (linesFor n (lineElems ty)) →
        ys = (chunks (lineElems ty) (linesFor n (lineElems ty)) ((List.range n).map (fun i => (decode32 (vecElem false xs i).1, (vecElem false xs i).2)))).map
          (fun c => ((packLine ty (c.map (·.1))).1, c.any (·.2))) →
        ∃ t, exec (.wqnt l f) s = .next t ∧ Became l 2 { getL s l with pad := putLines (getL s l).pad d (resultLines ys ty) } s t)
    ∧ (∀ r len fi fo out xs ys, Runs l 2 (.wgth l f) s → r = w.toNat % 2 ^ 32 → len = w.toNat / 2 ^ 32 % 2 ^ 8 → fi = w.toNat / 2 ^ 40 % 2 ^ 4 → fo = w.toNat / 2 ^ 44 % 2 ^ 4 →
        1 ≤ len → fi ≤ 7 → fo ≤ 7 → out = (if fi = fo then len else linesFor (len * lineElems fi) (lineElems fo)) →
        rangeOk (getL s l) (a + r * len) len = true → soundLines (getL s l) (a + r * len) len → hazard s l (a + r * len) len fi = none → xs = linesAt (getL s l) (a + r * len) len →
        rangeOk (getL s l) d out = true → freeLines (getL s l) d out →
        ys = (if fi = fo then xs else (chunks (lineElems fo) out ((List.range (len * lineElems fi)).map (elemOf fi xs))).map (fun c => ((packLine fo (c.map (·.1))).1, c.any (·.2)))) →
        ∃ t, exec (.wgth l f) s = .next t ∧ Became l 2 { getL s l with pad := putLines (getL s l).pad d (resultLines ys fo) } s t)

/-- 05 R162; 07 R221; 06 Table 6-3: WTOPK writes the indices and values of the S highest of N values; WSMX on FP32 lines writes the numerators as INT8 cells with their sum and maximum, or puts the numerators into the probability buffer when it has room; with F[0] it takes the scores of the oldest query from the score buffer. Where the rules are silent the statement follows the model's choices: log 14; 19; 42. -/
def Obligations.WideSelection : Prop :=
  ∀ (l : Nat) (f : FmtL) (s : State) (w : Word) (a b d n : Nat), w = getReg (getL s l) f.sc → a = f.a.toNat + w.toNat / 2 ^ 48 → b = f.b.toNat + w.toNat / 2 ^ 48 →
    d = f.d.toNat + w.toNat / 2 ^ 48 → n = w.toNat % 2 ^ 32 → 1 ≤ n →
    (∀ k nb xs bs r ls, Runs l 2 (.wtopk l f) s → n ≤ 65536 → k = w.toNat / 2 ^ 32 % 2 ^ 9 → w.toNat % 2 ^ 48 < 2 ^ 41 → 1 ≤ k → k ≤ 256 → nb = (if f.f.getLsbD 0 then linesFor n 17 else 1) →
        rangeOk (getL s l) a (linesFor n 17) = true → soundLines (getL s l) a (linesFor n 17) → hazard s l a (linesFor n 17) 7 = none → xs = linesAt (getL s l) a (linesFor n 17) →
        rangeOk (getL s l) b nb = true → soundLines (getL s l) b nb → hazard s l b nb 10 = none → bs = linesAt (getL s l) b nb →
        rangeOk (getL s l) d (2 * linesFor k 17) = true → freeLines (getL s l) d (2 * linesFor k 17) →
        r = topK k ((List.range n).map (fun i =>
          Cand.mk (if f.f.getLsbD 0 then elem32 (nthLine bs (i / 17)).1 (i % 17) else elem32 (nthLine bs 0).1 0 + BitVec.ofNat 32 i) (vecElem false xs i).1
            ((vecElem false xs i).2 || (if f.f.getLsbD 0 then (nthLine bs (i / 17)).2 else (nthLine bs 0).2)))) →
        ls = resultLines ((chunks 17 (linesFor k 17) ((List.range k).map (fun i => match r[i]? with | some c => c.ix | none => (Config.topkPad i).1))).map (fun c => (line32 c, r.any (·.bad)))) 10
          ++ resultLines ((chunks 17 (linesFor k 17) ((List.range k).map (fun i => match r[i]? with | some c => c.val | none => (Config.topkPad i).2))).map (fun c => (line32 c, r.any (·.bad)))) 7 →
        ∃ t, exec (.wtopk l f) s = .next t ∧ Became l 2 { getL s l with pad := putLines (getL s l).pad d ls } s t)
    ∧ (∀ ss rest out, Runs l 2 (.wsmx l f) s → n ≤ 4096 → w.toNat % 2 ^ 48 < 2 ^ 32 →
        rangeOk (getL s l) b 1 = true → soundLines (getL s l) b 1 → hazard s l b 1 7 = none → out = softmaxOf (vecElem false (linesAt (getL s l) b 1) 0) ss →
        (if f.f.getLsbD 0 then takeScores (getL s l).scores n = some (ss, rest)
          else rangeOk (getL s l) a (linesFor n 17) = true ∧ soundLines (getL s l) a (linesFor n 17) ∧ hazard s l a (linesFor n 17) 7 = none
            ∧ ss = (List.range n).map (vecElem false (linesAt (getL s l) a (linesFor n 17))) ∧ rest = (getL s l).scores) →
        rangeOk (getL s l) d (if f.f.getLsbD 1 then 1 else linesFor n 64 + 1) = true → freeLines (getL s l) d (if f.f.getLsbD 1 then 1 else linesFor n 64 + 1) →
        (f.f.getLsbD 1 = false → ∃ t, exec (.wsmx l f) s = .next t ∧ Became l 2 { getL s l with
          scores := rest, pad := putLines (getL s l).pad d (resultLines (cellLines out.1) 2 ++ resultLines [(out.2.1, out.2.2)] 7) } s t)
        ∧ (∀ ps, f.f.getLsbD 1 = true → (getL s l).probs.length + n ≤ 4096 → ps = (List.range n).map (fun i =>
            ((getL s l).probIn, i, signed 8 ((out.1.getD (i / 16) (⟨0, 0, 0⟩, false)).1.code / 2 ^ (8 * (i % 16))), (out.1.getD (i / 16) (⟨0, 0, 0⟩, false)).1.code / 2 ^ 128, out.2.2)) →
          ∃ t, exec (.wsmx l f) s = .next t ∧ Became l 2 { getL s l with
            scores := rest, probIn := (getL s l).probIn + 1, probs := (getL s l).probs ++ ps, pad := putLines (getL s l).pad d (resultLines [(out.2.1, out.2.2)] 7) } s t))

/-- 09 R285; 06 Table 6-3: WSMP samples one token from a shortlist under the parameters of line B, which is read TAKE and rewritten with the generator advanced, and writes the token, its log-probability and its poison; the layout of line B is free (log 47). -/
def Obligations.WideSampling : Prop :=
  ∀ (l : Nat) (f : FmtL) (s : State) (w : Word) (a b d k n : Nat) (par : Line) (q : Bool × F32 × Nat × F32 × BitVec 64 × Nat) (ids vals : List (Line × Bool)) (r : BitVec 32 × Nat × Nat) (bad : Bool),
    w = getReg (getL s l) f.sc → a = f.a.toNat + w.toNat / 2 ^ 48 → b = f.b.toNat + w.toNat / 2 ^ 48 → d = f.d.toNat + w.toNat / 2 ^ 48 → k = w.toNat % 2 ^ 9 → n = linesFor k 17 →
    Runs l 2 (.wsmp l f) s → w.toNat % 2 ^ 48 < 2 ^ 9 → 1 ≤ k → k ≤ 256 →
    rangeOk (getL s l) a (2 * n) = true → soundLines (getL s l) a (2 * n) → hazard s l a n 10 = none → hazard s l (a + n) n 7 = none →
    rangeOk (getL s l) b 1 = true → soundLines (getL s l) b 1 → rangeOk (getL s l) d 1 = true → freeLines (getL s l) d 1 → d ≠ b →
    (∀ i, i < 2 * n → b ≠ a + i) → par = (padAt (getL s l) b).data → q = Config.wsmpParams par → ids = linesAt (getL s l) a n → vals = linesAt (getL s l) (a + n) n →
    r = sampleToken q.1 q.2.1 q.2.2.1 q.2.2.2.1 q.2.2.2.2.1 q.2.2.2.2.2 (shortlist k ids vals) → bad = ((padAt (getL s l) b).poison || ids.any (·.2) || vals.any (·.2)) →
    ∃ t, exec (.wsmp l f) s = .next t ∧ Became l 2 { getL s l with
      pad := tset {} (tset {} (tset {} (getL s l).pad b {}) b ⟨Config.wsmpAdvance par, true, (padAt (getL s l) b).poison, false, 0xA⟩) d
        ⟨BitVec.ofNat 544 (r.1.toNat + r.2.1 * 2 ^ 32 + (if bad then 2 ^ 48 else 0)), true, bad, false, 10⟩ } s t

/-! ## Attention unit and KV port (05 R165 to R168; 07 R203 to R216) -/

/-- 05 R166 to R168; 07 R220: QLD loads query registers, two lines each; ASCR appends one score per query and token to the score buffer, in the order of its cycles; AVAL places probability times value into the accumulator and frees the probabilities it used. Where the rules are silent the statement follows the model's choices: log 14, what an engine does in one act. -/
def Obligations.Attention : Prop :=
  ∀ (l : Nat) (f : FmtL) (s : State) (w : Word), w = getReg (getL s l) f.sc →
    (∀ a n, Runs l 3 (.qld l f) s → a = f.a.toNat + w.toNat / 2 ^ 48 → n = w.toNat % 2 ^ 7 → w.toNat % 2 ^ 48 < 2 ^ 7 → 1 ≤ n → f.d.toNat + n ≤ 64 →
        rangeOk (getL s l) a (2 * n) = true → soundLines (getL s l) a (2 * n) → hazard s l a (2 * n) 2 = none →
        ∃ t, exec (.qld l f) s = .next t ∧ Became l 3 { getL s l with queries := (List.range n).foldl (fun m i =>
          tset {} m (f.d.toNat + i) ⟨(padAt (getL s l) (a + 2 * i)).data, (padAt (getL s l) (a + 2 * i + 1)).data,
            (padAt (getL s l) (a + 2 * i)).poison || (padAt (getL s l) (a + 2 * i + 1)).poison⟩) (getL s l).queries } s t)
    ∧ (∀ d p, d = f.a.toNat + w.toNat / 2 ^ 48 → p = phaseArgs f.b w → w.toNat % 2 ^ 48 < 2 ^ 40 → d < 65536 → p.reg + p.g * p.h ≤ 64 →
        ShareReady (getL s l) d p.first p.n → p.first + p.n ≤ (countAhead (getL s l) d).1 → p.h0 + p.h ≤ (descAt (getL s l) d).hloc →
        (Runs l 3 (.ascr l f) s → (∀ c, c ∈ phaseCycles p.g p.h p.n (descAt (getL s l) d).w → common (phaseLines (getL s l) d 0 p.first p.h0 [c]) (earlierWrites (getL s l) (getL s l).issued) = false) →
          (getL s l).scores.length + p.g * p.h * p.n ≤ 4096 →
          ∃ t b, exec (.ascr l f) s = .next t ∧ Became l 3 { getL s l with
            lookaside := b, scores := (getL s l).scores ++ (phaseCycles p.g p.h p.n (descAt (getL s l) d).w).flatMap (fun c => (List.range c.r).flatMap (fun m => (List.range c.cnt).map (fun j =>
              (c.head * p.g + c.m0 + m, scoreOf (tget {} (getL s l).queries (p.reg + c.head * p.g + c.m0 + m)) (if (descAt (getL s l) d).w = 2 then 2 else 1)
                (heldLines (getL s l) d (headCols (descAt (getL s l) d) (p.h0 + c.head) 0) (p.first + c.t0 + j)))))) } s t)
        ∧ (∀ r, Runs l 3 (.aval l f) s → (∀ c, c ∈ phaseCycles p.g p.h p.n (descAt (getL s l) d).w → common (phaseLines (getL s l) d 1 p.first p.h0 [c]) (earlierWrites (getL s l) (getL s l).issued) = false) →
          f.d.toNat + 4 * p.g * p.h ≤ 512 →
          accWaits (getL s l) (getL s l).issued f.d.toNat (4 * p.g * p.h) false = false → accWaits (getL s l) (getL s l).issued f.d.toNat (4 * p.g * p.h) (f.f.getLsbD 0) = false →
          valueFold (getL s l) d f.d.toNat p.g p.first p.h0 (phaseCycles p.g p.h p.n (descAt (getL s l) d).w)
            (if f.f.getLsbD 0 then clearBlocks (getL s l).acc f.d.toNat (4 * p.g * p.h) else (getL s l).acc, (getL s l).probs, (getL s l).probOut) = some r →
          ∃ t b, exec (.aval l f) s = .next t ∧ Became l 3 { getL s l with lookaside := b, acc := r.1, probs := r.2.1, probOut := r.2.2 } s t))

/-- 07 R212 to R214, Table 7-3: KAPP quantises the keys and values of one position into every column of the share at the append point and raises COUNT; KMARK marks the append point, KREW goes back to the mark or the release point, KREL releases up to the append point. Where the rules are silent the statement follows the model's choices: log 14, what an engine does in one act. -/
def Obligations.KvAppend : Prop :=
  ∀ (l : Nat) (f : FmtL) (s : State) (w : Word) (d : Nat) (k : Desc), w = getReg (getL s l) f.sc → d = f.b.toNat + w.toNat / 2 ^ 48 → k = descAt (getL s l) d →
    portQuiet (getL s l) → descOk (getL s l) d = true → (padAt (getL s l) d).parBad = false →
    (∀ a pos bf n xs ty ys q, Runs l 6 (.kapp l f) s → a = f.a.toNat + w.toNat / 2 ^ 48 → pos = w.toNat % 2 ^ 20 → bf = w.getLsbD 24 → w.toNat % 2 ^ 48 < 2 ^ 25 → w.toNat / 2 ^ 20 % 2 ^ 4 + 1 = k.hloc →
        common (shareLines (getL s l) d k.count (List.range (2 * k.w * k.hloc))) (earlierReads (getL s l) (getL s l).issued) = false →
        ShareReady (getL s l) d k.count 1 → localIndex k pos = some k.count → k.count / pageDepth k < k.pages → n = linesFor (k.hloc * 256) (if bf then 34 else 17) →
        rangeOk (getL s l) a n = true → soundLines (getL s l) a n → hazard s l a n (if bf then 6 else 7) = none → xs = linesAt (getL s l) a n → ty = (if k.w = 2 then 2 else 1) →
        ys = (chunks (128 / k.w) (2 * k.w * k.hloc) (kappElems bf (k.hloc * 256) xs)).map (fun c => ((packLine ty (c.map (·.1))).1, c.any (·.2))) →
        walk (getL s l) k (k.count / pageDepth k) = some q →
        ∃ t b, exec (.kapp l f) s = .next t ∧ Became l 6 { getL s l with
          lookaside := b,
          kv := (ys.zip (List.range ys.length)).foldl (fun m y => tset {} m (kvAddr k q y.2 k.count) ⟨y.1.1, y.1.2, false⟩) (getL s l).kv,
          pad := tupd {} (getL s l).pad d (fun x => { x with data := lineSet x.data 16 4 (k.count + 1) }) } s t)
    ∧ (Runs l 6 (.kmark l f) s → w.toNat % 2 ^ 48 = 0 →
        ∃ t, exec (.kmark l f) s = .next t ∧ Became l 6 { getL s l with
          pad := tupd {} (getL s l).pad d (fun x => { x with data := lineSet x.data 20 4 (k.count % 2 ^ 21 + 2 ^ 31) }) } s t)
    ∧ (Runs l 6 (.krew l f) s → w.toNat % 2 ^ 48 = 0 →
        ∃ t, exec (.krew l f) s = .next t ∧ Became l 6 { getL s l with
          pad := tupd {} (getL s l).pad d (fun x => { x with data := lineSet x.data 16 4 (if k.markV then k.mark else k.rel) }) } s t)
    ∧ (Runs l 6 (.krel l f) s → w.toNat % 2 ^ 48 = 0 →
        ∃ t, exec (.krel l f) s = .next t ∧ Became l 6 { getL s l with
          pad := tupd {} (tupd {} (getL s l).pad d (fun x => { x with data := lineSet x.data 24 4 k.count })) d (fun x => { x with data := lineSet x.data 20 4 (k.mark % 2 ^ 21) }) } s t)

/-- 07 R211, R215, R216: KWALK resolves the pages of its tokens, at most 64, and changes the look-aside buffer only, which then holds the last page first; KXFR with F = 1 copies the share's lines to the scratchpad, with F = 0 sends them as one KV message through its sluice entry and then waits for the XACK under 0x04. Where the rules are silent the statement follows the model's choices: log 14, what an engine does in one act. -/
def Obligations.KvMoves : Prop :=
  ∀ (l : Nat) (f : FmtL) (s : State) (w : Word) (d first n : Nat) (k : Desc), w = getReg (getL s l) f.sc → d = f.b.toNat + w.toNat / 2 ^ 48 → k = descAt (getL s l) d →
    first = w.toNat % 2 ^ 20 → n = w.toNat / 2 ^ 20 % 2 ^ 12 + 1 → w.toNat % 2 ^ 48 < 2 ^ 32 → portQuiet (getL s l) → ShareReady (getL s l) d first n →
    (∀ x q, Runs l 6 (.kwalk l f) s → x = first / pageDepth k + min 64 ((first + n - 1) / pageDepth k - first / pageDepth k + 1) - 1 → walk (getL s l) k x = some q →
        ∃ t b, exec (.kwalk l f) s = .next t ∧ b.head? = some (d, x, q) ∧ Became l 6 { getL s l with lookaside := b } s t)
    ∧ (∀ xs, xs = (List.range n).flatMap (fun i => heldLines (getL s l) d (List.range (2 * k.w * k.hloc)) (first + i)) → first + n ≤ (countAhead (getL s l) d).1 → Runs l 6 (.kxfr l f) s →
        (∀ a, f.f = 1 → a = f.a.toNat + w.toNat / 2 ^ 48 → rangeOk (getL s l) a (n * (2 * k.w * k.hloc)) = true → freeLines (getL s l) a (n * (2 * k.w * k.hloc)) →
          ∃ t b, exec (.kxfr l f) s = .next t ∧ Became l 6 { getL s l with lookaside := b, pad := putLines (getL s l).pad a (resultLines xs (if k.w = 2 then 2 else 1)) } s t)
        ∧ (∀ e fs cis, f.f = 0 → e = getSl (getL s l) f.d.toNat → slDestOk s l f.d.toNat = true → e.poisonNext = false →
          cis = (match tileOfDest e.dest with | some t => tileCistern t | none => false) →
          fs = kvMessage l k (if cis then 0 else k.peer) first n (if cis then k.caddr else 0) xs → fs.length ≤ creditsLeft s l f.d.toNat →
          ∃ t b x, exec (.kxfr l f) s = .next t ∧ (getEng (getL t l) 6).q = [x] ∧ x.op = .kxfrAck f.d.toNat ∧ (getEng (getL t l) 6).wait = 0x04
            ∧ uncountedL (getL t l) = uncountedL (injectedL (nowNs s) 6 (fs.map (fun x => { x with cls := e.cls, dst := BitVec.ofNat 11 e.dest })) { getL s l with
              lookaside := b, sluices := tset {} (getL s l).sluices f.d.toNat { e with credits := e.credits - fs.length } })))

/-! ## Send unit and queue engine (05 R149 to R159; 06 Table 6-3) -/

/-- 05 R144, R149 to R151, R156; 06 Table 6-3: COPY moves a strided read to consecutive lines; TRD writes the transposed tile; SEND sends each line as a flit of the sluice entry, one credit each, LAST on the last of several; CLR empties its lines; a TAKE read empties what it read. Where the rules are silent the statement follows the model's choices: log 14, what an engine does in one act. -/
def Obligations.SendUnit : Prop :=
  ∀ (l : Nat) (f : FmtL) (s : State) (w : Word) (a st n d : Nat) (take : Bool), w = getReg (getL s l) f.sc → a = f.a.toNat + w.toNat / 2 ^ 48 → st = w.toNat % 2 ^ 12 → n = w.toNat / 2 ^ 12 % 2 ^ 8 + 1 →
    take = f.f.getLsbD 0 →
    (Runs l 4 (.copy l f) s → w.toNat % 2 ^ 48 < 2 ^ 20 → 1 ≤ st → d = f.d.toNat + w.toNat / 2 ^ 48 → stridedSound (getL s l) a st n → rangeOk (getL s l) d n = true → freeLines (getL s l) d n →
        ∃ t, exec (.copy l f) s = .next t ∧ Became l 4 { getL s l with pad := copiedLines a st d take 0 n (getL s l).pad } s t)
    ∧ (∀ r i8 off xs k cells ls, Runs l 4 (.trd l f) s → w.toNat % 2 ^ 48 < 2 ^ 21 → 1 ≤ st → d = f.d.toNat + w.toNat / 2 ^ 48 → r = (if w.getLsbD 12 then 32 else 16) → i8 = w.getLsbD 13 →
        off = w.toNat / 2 ^ 14 % 2 ^ 7 → off % r = 0 → off + r ≤ (if i8 then 64 else 128) → stridedSound (getL s l) a st r →
        (∀ i, i < r → hazard s l (a + i * st) 1 (if i8 then 2 else 1) = none) → xs = stridedAt (getL s l) a st r → k = cellElems (if i8 then 2 else 1) →
        rangeOk (getL s l) d (r * r / (if i8 then 64 else 128)) = true → freeLines (getL s l) d (r * r / (if i8 then 64 else 128)) →
        cells = (List.range (r * r / k)).map (fun c => tileCell (if i8 then 2 else 1) ((List.range k).map (fun i => tileElem (if i8 then 2 else 1) off xs ((c * k + i) % r) ((c * k + i) / r)))) →
        ls = resultLines ((chunks 4 (r * r / k / 4) cells).map (fun c => (BitVec.ofNat 544 (natOfDigits 136 (c.map (·.1))), xs.any (·.2)))) (if i8 then 2 else 1) →
        ∃ t, exec (.trd l f) s = .next t ∧ Became l 4 { getL s l with pad := putLines (takenLines take (strided a st r) (getL s l).pad) d ls } s t)
    ∧ (∀ e fs, Runs l 4 (.send l f) s → w.toNat % 2 ^ 48 < 2 ^ 24 → 1 ≤ st → stridedSound (getL s l) a st n → e = getSl (getL s l) f.d.toNat → slDestOk s l f.d.toNat = true →
        n ≤ creditsLeft s l f.d.toNat → e.poisonNext = false →
        fs = (List.range n).map (fun i => mkFlit l e.cls e.dest (if e.kind = 0 then 0 else 4) e.num (w.toNat / 2 ^ 20 % 2 ^ 4) (decide (1 < n) && decide (i + 1 = n))
          (padAt (getL s l) (a + i * st)).poison (padAt (getL s l) (a + i * st)).data) →
        ∃ t, exec (.send l f) s = .next t ∧ Became l 4 (injectedL (nowNs s) 4 fs { getL s l with
          pad := takenLines take (strided a st n) (getL s l).pad, sluices := tset {} (getL s l).sluices f.d.toNat { e with credits := e.credits - n } }) s t)
    ∧ (Runs l 4 (.clr l f) s → w.toNat % 2 ^ 48 < 2 ^ 16 → d = f.d.toNat + w.toNat / 2 ^ 48 → rangeOk (getL s l) d (w.toNat % 2 ^ 16 + 1) = true →
        ∃ t, exec (.clr l f) s = .next t ∧ Became l 4 { getL s l with pad := dropLines (getL s l).pad d (w.toNat % 2 ^ 16 + 1) } s t)

/-- 05 R155, R157 and Table 5-5: RECV delivers N lines of the queue in order, to consecutive empty lines or to a register; the read point passes them and the last is the last-value register. Where the rules are silent the statement follows the model's choices: log 14, what an engine does in one act. -/
def Obligations.QueueReceive : Prop :=
  ∀ (l : Nat) (f : FmtQ) (s : State) (q : Queue) (n : Nat) (at' : Nat → PadLine), q = getQ (getL s l) f.qn.val → 0 < q.depth → n = f.n.toNat + 1 →
    (∀ i, at' i = padAt (getL s l) (q.base + (q.rd + BitVec.ofNat 32 i).toNat % q.depth)) → Runs l 5 (.recv l f) s → (∀ i, i < n → (at' i).parBad = false) →
    (f.reg = false → n ≤ (q.w - q.rd).toNat → rangeOk (getL s l) f.line.toNat n = true → freeLines (getL s l) f.line.toNat n → (∀ i, i < n → ∀ j, j < n → f.line.toNat + j ≠ q.base + (q.rd + BitVec.ofNat 32 i).toNat % q.depth) →
        ∃ t, exec (.recv l f) s = .next t ∧ Became l 5 { getL s l with
          pad := putLines (getL s l).pad f.line.toNat ((List.range n).map (fun i => ⟨(at' i).data, true, (at' i).poison, false, (at' i).shadow⟩)),
          queues := tset {} (getL s l).queues f.qn.val { q with rd := q.rd + BitVec.ofNat 32 n, last := (at' (n - 1)).data, lastPoison := (at' (n - 1)).poison } } s t)
    ∧ (f.reg = true → q.rd ≠ q.w → (at' 0).poison = false →
        ∃ t, exec (.recv l f) s = .next t ∧ Became l 5 { getL s l with
          regs := if f.sd = 0 then (getL s l).regs else tset 0 (getL s l).regs f.sd.val ((at' 0).data.setWidth 64),
          queues := tset {} (getL s l).queues f.qn.val { q with rd := q.rd + 1, last := (at' 0).data, lastPoison := false } } s t)

/-- 05 R157, R159 and Table 5-5: QPEEK and QPOP deliver the head line, QPOP taking it; on an empty queue they deliver the last value and set UNDERRUN. Where the rules are silent the statement follows the model's choices: log 14, what an engine does in one act. -/
def Obligations.QueuePeek : Prop :=
  ∀ (l : Nat) (f : FmtQ) (s : State) (q : Queue) (x : PadLine), q = getQ (getL s l) f.qn.val → 0 < q.depth → x = padAt (getL s l) (q.base + q.rd.toNat % q.depth) → x.parBad = false →
    (f.reg = false → rangeOk (getL s l) f.line.toNat 1 = true ∧ (padAt (getL s l) f.line.toNat).full = false) →
    (∀ pop i, (i = .qpeek l f ∧ pop = false ∨ i = .qpop l f ∧ pop = true) → Runs l 5 i s →
      (q.rd ≠ q.w → (f.reg = false ∨ x.poison = false) →
        ∃ t, exec i s = .next t ∧ Became l 5 { getL s l with
          pad := if f.reg then (getL s l).pad else tset {} (getL s l).pad f.line.toNat ⟨x.data, true, x.poison, false, x.shadow⟩,
          regs := if f.reg = false ∨ f.sd = 0 then (getL s l).regs else tset 0 (getL s l).regs f.sd.val (x.data.setWidth 64),
          queues := tset {} (getL s l).queues f.qn.val { q with rd := if pop then q.rd + 1 else q.rd, last := x.data, lastPoison := x.poison } } s t)
      ∧ (q.rd = q.w → (f.reg = false ∨ q.lastPoison = false) →
        ∃ t, exec i s = .next t ∧ Became l 5 { getL s l with
          pad := if f.reg then (getL s l).pad else tset {} (getL s l).pad f.line.toNat ⟨q.last, true, q.lastPoison, false, 0xA⟩,
          regs := if f.reg = false ∨ f.sd = 0 then (getL s l).regs else tset 0 (getL s l).regs f.sd.val (q.last.setWidth 64),
          queues := tset {} (getL s l).queues f.qn.val { q with underrun := true } } s t))

/-- 05 R158, Tables 5-5 and 5-6: QMARK marks the read point; QREWIND goes back to the mark or the release point; QREL releases the lines read and returns their credits; QSTAT writes the status word to SD and clears UNDERRUN when CLR is 1. -/
def Obligations.QueueMarks : Prop :=
  ∀ (l : Nat) (f : FmtQ) (s : State) (q : Queue), q = getQ (getL s l) f.qn.val →
    (Runs l 5 (.qmark l f) s → ∃ t, exec (.qmark l f) s = .next t ∧ Became l 5 { getL s l with queues := tset {} (getL s l).queues f.qn.val { q with m := q.rd, markV := true } } s t)
    ∧ (Runs l 5 (.qrewind l f) s → ∃ t, exec (.qrewind l f) s = .next t ∧ Became l 5 { getL s l with queues := tset {} (getL s l).queues f.qn.val { q with rd := if q.markV then q.m else q.l } } s t)
    ∧ (Runs l 5 (.qrel l f) s → ∃ t, exec (.qrel l f) s = .next t ∧ Became l 5 (injectedL (nowNs s) 5
        (if q.rd = q.l then [] else [creditFlit l q.cls q.producer 0 f.qn.val (q.rd - q.l).toNat]) { getL s l with
          queues := tset {} (getL s l).queues f.qn.val { q with l := q.rd, markV := false } }) s t)
    ∧ (∀ x, Runs l 5 (.qstat l f) s → x = padAt (getL s l) (q.base + q.rd.toNat % q.depth) → ∃ t, exec (.qstat l f) s = .next t ∧ Became l 5 { getL s l with
        regs := if f.sd = 0 then (getL s l).regs else tset 0 (getL s l).regs f.sd.val (BitVec.ofNat 64 (min 65535 (q.w - q.rd).toNat + min 65535 (q.rd - q.l).toNat * 2 ^ 16
          + (if q.underrun then 2 ^ 32 else 0) + (if q.markV then 2 ^ 33 else 0) + (if q.rd ≠ q.w ∧ x.poison = true then 2 ^ 34 else 0))),
        queues := if f.clr then tset {} (getL s l).queues f.qn.val { q with underrun := false } else (getL s l).queues } s t)

/-- 02 R39, R43, R60; 06 R182, R195, R196: AOP reads its input lines, aligns and clips them, and waits in its bank's issue slot with its charge counted against the step, when the step's plan, the governor and the slot allow it and some phase is to run. Where the rules are silent the statement follows the model's choices: log 14, what an engine does in one act; 16. -/
def Obligations.ArrayIssue : Prop :=
  ∀ (l : Nat) (f : FmtA) (s : State) (a n c : Nat) (xs : List (Line × Bool)) (p0 p : ArrayOp), Runs l 0 (.aop l f) s → physOf (getL s l) f.array.toNat = some a →
    n = inputLines f.ifmt.toNat (f.rows.toNat + 1) → xs = linesAt (getL s l) f.src.toNat n → c = (if f.ifmt = 3 then 1079 else 556) →
    p0 = ⟨(getL s l).issued, f.array.toNat, a, f.src.toNat, f.ifmt.toFin, f.rows.toNat + 1, f.acc.toNat, f.set, f.clip.toNat, f.otd.toNat, false, false, 0, [], [], c,
      (getL s l).temp, (getArr (getL s l) a).drift⟩ →
    p = (prepare (getL s l) p0 xs).1 → f.acc.toNat + modeBlocks (getArr (getL s l) a).mode ≤ 512 → rangeOk (getL s l) f.src.toNat n = true →
    (f.otd ≠ 0 → ∀ i, i < (tget (0, 0) (getL s l).odesc f.otd.toNat).2 →
      rangeOk (getL s l) (tget (0, false, 0) (getL s l).oent ((tget (0, 0) (getL s l).odesc f.otd.toNat).1 + i)).2.2 (digitalLines (getArr (getL s l) a).mode) = true) →
    soundLines (getL s l) f.src.toNat n → hazard s l f.src.toNat n (ifmtType f.ifmt.toNat) = none → (phasesOf p).isEmpty = false → (getL s l).charge + c ≤ (getL s l).declared →
    governorHolds s (fieldOf l) = false → (getBank (getL s l) (a / 8)).slot = none →
    ∃ t, exec (.aop l f) s = .next t ∧ Became l 0 { getL s l with
      charge := (getL s l).charge + c, banks := tupd {} (getL s l).banks (a / 8) (fun b => { b with slot := some p }) } s t

/-! ## Events of the ADC banks and of the arrays (02 R40 to R60; 03 R71 to R100) -/

/-- 02 R40, R46, R49, R50, R52, R54, R55; 03 R83: the operation in a slot starts its first phase on a free bank, charged and its split counted; a sub-phase that ends goes on with the next that has a driven row, or ends its pass: column groups with a saturated conversion are converted again at a finer split, the others are kept; outputs and residuals of the operation on the bank are placed; the restore frees the bank. Where the rules are silent the statement follows the model's choices: log 10 and 46, the free values of a conversion. -/
def Obligations.ArrayPhases : Prop :=
  ∀ (l b : Nat) (s : State) (B : Bank), l < 1600 → b < 32 → B = getBank (getL s l) b →
    (∀ p ph rest k, B.slot = some p → k = modeBlocks (getArr (getL s l) p.phys).mode → governorHolds s (fieldOf l) = false → accWaits (getL s l) p.seq p.acc k p.set = false → phasesOf p = ph :: rest →
        B.wait = 0 → B.run = none → B.prog = none → B.on = true → derateHolds s l = false →
        exec (.arrayOpStart l b) s = .next (updBank (countL (countL
            (chargeField (if p.set then updL s l (fun L => { L with acc := clearBlocks L.acc p.acc k }) else s) (fieldOf l) (if p.ifmt = 3 then 1079 else 556))
            l 0x06 (if ph.split = 2 then 1 else 0)) l 0x07 (if ph.split = 4 then 1 else 0)) l b
          (fun B => { B with slot := none, run := some { op := p, todo := { ph with sub := (liveSubs (phaseAmps p ph.weight) ph.split).headD 0 } :: rest, convs := [], firstSat := [], placed := false, residDone := p.resid.isEmpty, restored := false } })))
    ∧ (B.slot = none → exec (.arrayOpStart l b) s = .next s)
    ∧ (∀ r ph rest xs n k, B.run = some r → r.todo = ph :: rest → runSub s l r.op ph ph.sub = (xs, n) →
        (liveSubs (phaseAmps r.op ph.weight) ph.split).find? (fun k => decide (ph.sub < k)) = some k → ph.resplit = false →
        exec (.phaseComplete l b) s = .next (updBank (chargeField { s with draws := s.draws + n } (fieldOf l) 305) l b
          (fun B => { B with run := some { r with todo := { ph with got := ph.got ++ xs, sub := k } :: rest } })))
    ∧ (∀ r ph rest xs n sat, B.run = some r → r.todo = ph :: rest → runSub s l r.op ph ph.sub = (xs, n) → (∀ k, k ∈ liveSubs (phaseAmps r.op ph.weight) ph.split → k ≤ ph.sub) →
        sat = ph.groups.filter (fun g => ph.split != 16 && (ph.got ++ xs).any (fun x => x.2.2 && x.1 / 64 == g)) →
        ∃ t R, exec (.phaseComplete l b) s = .next t ∧ (getBank (getL t l) b).run = some R ∧ R.op = r.op
          ∧ R.convs = r.convs ++ ((ph.got ++ xs).filter (fun x => ph.groups.contains (x.1 / 64) && !sat.contains (x.1 / 64))).map (fun x => ⟨x.1, x.2.1, ph.weight, ph.split == 16 && x.2.2⟩)
          ∧ (sat = [] → R.todo.map (fun x => (x.weight, x.split, x.groups)) = rest.map (fun x => (x.weight, x.split, x.groups)))
          ∧ (sat ≠ [] → R.todo = ⟨ph.weight, finer ph.split, sat, (liveSubs (phaseAmps r.op ph.weight) (finer ph.split)).headD 0, [], true⟩ :: rest)
          ∧ (ph.resplit = false → R.firstSat = r.firstSat ++ (((ph.got ++ xs).filter (fun x => x.2.2)).map (·.1)).eraseDups)
          ∧ t.draws = s.draws + n ∧ (∀ m, m ≠ l → (getL t m).acc = (getL s m).acc ∧ (getL t m).regs = (getL s m).regs ∧ (getL t m).banks = (getL s m).banks))
    ∧ (∀ r s', B.late = [] → B.run = some r → r.todo = [] → r.placed = false → r.wait = 0 → placeIn s l (arrayContrs (getL s l) r) = some s' →
        let done : Run := { r with placed := true, wait := 0, since := 0 };
        let t := updBank (countL s' l 0x09 (taggedOutputs (getL s l) r)) l b (fun B => { B with run := some done });
        exec (.arrayOpComplete l b) s = .next (if r.residDone then sampleMonitors t l done else t))
    ∧ (∀ r m s1 s2 xs rows done, B.late = [] → B.run = some r → r.residDone = false → r.resWait = 0 → r.rows = [] → m = (getArr (getL s l) r.op.phys).mode → wideFree (getL s l) = true →
        gather l (rowReads m r.op.resid) s = (s1, xs, .all) →
        rows = splitRows (digitalLines m) r.op.resid xs → done = { r with residDone := true, spoilt := spoiltColumns r.op m rows, rows := [], resWait := 0, resSince := 0 } →
        placeIn (countL (updBank s1 l b (fun B => { B with run := some { r with rows := xs } })) l 0x2B (badCells 2 xs)) l ((List.range (2048 / slicesOf m)).flatMap (residColumn r.op rows)) = some s2 →
        let t := updBank s2 l b (fun B => { B with run := some done });
        exec (.outlierResidual l b) s = .next (if r.placed then sampleMonitors t l done else t))
    ∧ (∀ r, B.late = [] → B.run = some r → r.todo = [] →
        exec (.bankRestoreDone l b) s = .next (updBank s l b (fun B => { B with run := none, late := if r.placed && r.residDone then [] else [{ r with restored := true }] })))

/-- 03 R72, R76, R77; 02 Table 2-11: a reference operation on an idle bank is charged, counted and adds a sample of the 16 reference columns; on a busy bank nothing happens; an array without a sample for 10 s is stale and counts its samples afresh; a field's arrays take their quadrant's reading, at the next boundary inside a partition and at once outside; with no healthy sensor every scale of the field is stale. Where the rules are silent the statement follows the model's choices: log 17, 22. -/
def Obligations.ReferenceAndTemperature : Prop :=
  ∀ (l a : Nat) (s : State) (B : Bank) (A : WickArray), l < 1600 → a < 256 → B = getBank (getL s l) (a / 8) → A = getArr (getL s l) a →
    (B.on = true → B.slot = none → B.run = none → B.prog = none → A.fresh < 15 →
        exec (.referenceOperation l a) s = .next (updArr (countL (chargeField { s with draws := s.draws + 16 } (fieldOf l) 20) l 0x0D 1) l a
          (fun A => { A with samples := ((List.range 16).map (fun k => refCode s l a (s.draws + k) k) :: A.samples).take 64, fresh := A.fresh + 1, lastSample := nowNs s })))
    ∧ (B.run.isSome = true → exec (.referenceOperation l a) s = .next s)
    ∧ (A.lastSample + 10000000000 ≤ nowNs s → A.stale = false → exec (.driftStaleTimeout l a) s = .next (countL (updArr s l a (fun A => { A with stale := true, fresh := 0, driftNext := none })) l 0x0E 1))
    ∧ (nowNs s < A.lastSample + 10000000000 → exec (.driftStaleTimeout l a) s = .next s)
    ∧ (∀ f, f = fieldOf l → (∀ q, q < 4 → (sensorAt (getF s f) q).bad = false) →
        ∃ t, exec (.temperatureUpdate f) s = .next t ∧ others t = others (updF s f (fun F => { F with noTempWarned := false })) ∧ t.parts = s.parts
          ∧ (∀ m, fieldOf m ≠ f → getL t m = getL s m)
          ∧ (∀ x K, x = (sensorAt (getF s f) (quadrantOf l)).reading →
              K = (if (getF s f).noTempWarned then { getL s l with arrays := (getL s l).arrays.map (fun e => (e.1, if e.2.stale then { e.2 with fresh := 0 } else e.2)) } else getL s l) →
              getL t l = (if (partOf s l).isSome then { K with tempNext := some x } else { K with temp := x, tempNext := none })))
    ∧ (∀ f, f = fieldOf l → (∀ q, q < 6 → (sensorAt (getF s f) q).bad = true) →
        ∃ t, exec (.temperatureUpdate f) s = .next t ∧ (getF t f).noTempWarned = true ∧ (getArr (getL t l) a).stale = true ∧ (getL t l).temp = (getL s l).temp)

/-- 06 R176, R192; 13 R402: a program word of bad parity traps with cause 0x07; a wait whose cause is gone ends: the engine's head instruction completes, the wait is traced, and the queue goes on; one whose cause remains goes on, as does one on a scratchpad line that is still empty; a sequencer's wait ends by its instruction issuing, and engines start on what it issued. Where the rules are silent the statement follows the model's choices: log 14, what an engine does in one act. -/
def Obligations.WaitsAndStore : Prop :=
  ∀ (l e : Nat) (s : State) (g : Engine) (x : EngEntry), l < 1600 → g = getEng (getL s l) e →
    ((getL s l).on = true → (getL s l).running = true → (getL s l).trapped = false →
        exec (.storeError l) s = .next (trapAt s l 7 (getL s l).pc (getL s l).pc (tget {} (getL s l).store (getL s l).pc).bits))
    ∧ ((getL s l).running = false → exec (.storeError l) s = .next s)
    ∧ (∀ t, e < 7 → g.q = [x] → (opReads x.op).drop x.got.length = [] → (e = 6 → portQuiet (getL s l)) → stepOp l e x s = .done t → getEng (getL t l) e = g → (e = 6 → portQuiet (getL t l)) →
        exec (.waitEnd l e) s = .next (updEng (waitEnded t l g.wait g.since) l e (fun _ => {})))
    ∧ (∀ t r, e < 7 → g.q = x :: r → (opReads x.op).drop x.got.length = [] → (e = 6 → portQuiet (getL s l)) → stepOp l e x s = .wait g.wait x.op t → exec (.waitEnd l e) s = .next t)
    ∧ (∀ r y rs, e < 7 → g.q = x :: r → g.wait = 1 → (opReads x.op).drop x.got.length = y :: rs → (padAt (getL s l) y.addr).full = false → (e = 6 → portQuiet (getL s l)) →
        exec (.waitEnd l e) s = .next s)
    ∧ (e < 7 → g.q = [] → (e = 6 → portQuiet (getL s l)) → exec (.waitEnd l e) s = .next s)
    ∧ (∀ i c t0 t, (getL s l).held = some (i, c, t0) → (getL s l).on = true → (getL s l).running = true → (getL s l).trapped = false →
        t = attempt l i (seqTry i) (updL s l (fun L => { L with held := none })) → (getL t l).held = none →
        exec (.waitEnd l 7) s = .next (startAll l (waitEnded t l c t0)))
    ∧ ((getL s l).held = none → (∀ d, d < 7 → (getEng (getL s l) d).q = []) → portQuiet (getL s l) → exec (.waitEnd l 7) s = .next s)

/-! ## Flits that reach a lantern, and management writes (05 R155, R156; 06 R185, R186; 07 R204, R215 to R218, R231; 08 R245) -/

/-- 05 R155, R156; 06 R185, R186 and Table 13-4: the oldest flit of a kind leaves the delivered flits; a queue line is stored at W mod D and W advances, an accumulator line joins its lane, credits join the sluice entry they name; what does not fit is counted and traps with cause 0x02. Where the rules are silent the statement follows the model's choices: log 36. -/
def Obligations.Arrivals : Prop :=
  ∀ (l : Nat) (s S : State) (pre rest : List Flit) (f : Flit), l < 1600 → (getL s l).rx = pre ++ f :: rest → S = updL s l (fun L => { L with rx := pre ++ rest }) → (∀ g, g ∈ pre → g.kind ≠ f.kind) →
    (∀ Q, f.kind = 0 → Q = getQ (getL s l) f.sub.val → 0 < Q.depth → (Q.w - Q.l).toNat < Q.depth →
        exec (.qlineArrival l) s = .next (updL S l (fun L => { L with
          pad := tset {} L.pad (Q.base + Q.w.toNat % Q.depth) ⟨f.line, false, f.poison, false, BitVec.ofNat 4 f.fmt.val⟩, queues := tset {} L.queues f.sub.val { Q with w := Q.w + 1 } })))
    ∧ (∀ Q, f.kind = 0 → Q = getQ (getL s l) f.sub.val → Q.depth ≤ (Q.w - Q.l).toNat → exec (.qlineArrival l) s = .next (trapNow (countL S l 0x31 1) l 2 f.sub.val))
    ∧ (∀ i k, f.kind = 2 → i = f.sub.val % 8 → k = getLane (getL s l) i → k.used = true → k.buf.length < 128 →
        exec (.accxArrival l) s = .next (updL S l (fun L => { L with lanes := tset {} L.lanes i { k with buf := k.buf ++ [(f.line, f.poison, decide (8 ≤ f.sub.val))] } })))
    ∧ (∀ i, f.kind = 2 → i = f.sub.val % 8 → 128 ≤ (getLane (getL s l) i).buf.length → exec (.accxArrival l) s = .next (trapNow (countL S l 0x32 1) l 2 i))
    ∧ (∀ e k n, f.kind = 3 → matchEntry (getL s l) f.src (lineByte f.line 4) f.sub.val = some e → k = getSl (getL s l) e → n = lineField f.line 0 4 → k.credits + n ≤ k.grant →
        exec (.creditArrival l) s = .next (updL S l (fun L => { L with sluices := tset {} L.sluices e { k with credits := k.credits + n } })))
    ∧ (∀ e k, f.kind = 3 → matchEntry (getL s l) f.src (lineByte f.line 4) f.sub.val = some e → k = getSl (getL s l) e → k.grant < k.credits + lineField f.line 0 4 →
        exec (.creditArrival l) s = .next (trapNow S l 2 e))
    ∧ (f.kind = 3 → matchEntry (getL s l) f.src (lineByte f.line 4) f.sub.val = none → exec (.creditArrival l) s = .next (trapNow (countL S l 0x38 1) l 2 f.sub.val))

/-- 07 R215, R217 to R219: a KV flit that no channel's producer sent, or that finds its channel's 64 lines full, is counted and traps; while the KV port is free a header that agrees with its descriptor opens a message (setting the base of an empty guest descriptor) which the port then takes, one that does not traps with cause 0x03 and the rest of its message is dropped; each data line is written to the share, the last one ends the message, moves COUNT and is acknowledged; an XACK credits its entry and the last ends the KXFR; a reserved code is counted and reported. The count of the last XACK takes in the header's credit (log 25). Where the rules are silent the statement follows the model's choices: log 25, 51. -/
def Obligations.KvArrivals : Prop :=
  ∀ (l j : Nat) (s S : State) (pre rest : List Flit) (f : Flit) (d first n : Nat), l < 1600 → (getL s l).rx = pre ++ f :: rest → S = updL s l (fun L => { L with rx := pre ++ rest }) → (∀ g, g ∈ pre → g.kind ≠ 1) → f.kind = 1 →
    d = lineField f.line 0 2 → first = lineField f.line 12 4 → n = lineField f.line 16 2 →
    (f.sub = 0 → intakeOf (getL s l) f.src = none → exec (.xhdrArrival l) s = .next (trapNow (countL S l 0x33 1) l 2 f.src))
    ∧ (f.sub = 1 → intakeOf (getL s l) f.src = none → exec (.xdataArrival l) s = .next (trapNow (countL S l 0x33 1) l 2 f.src))
    ∧ (f.sub = 1 → intakeOf (getL s l) f.src = some j → 64 ≤ ((getL s l).kvIn.filter (fun e => e.1 == j)).length → exec (.xdataArrival l) s = .next (trapNow (countL S l 0x33 1) l 2 f.src))
    ∧ (f.sub = 0 → getEng (getL s l) 6 = {} → portQuiet (getL s l) → (padAt (getL s l) d).parBad = false → (padAt (getL s l) d).poison = false → intakeOf (getL s l) f.src = some j → headerOk (getL s l) j f.line = true →
        exec (.xhdrArrival l) s = .next (setKvNow (setIntake (if (descAt (getL s l) d).guest ∧ (descAt (getL s l) d).count = 0 then setDesc S l d 8 4 (lineField f.line 4 4) else S) l j
          (fun k => { k with msg := some ⟨d, first, n, 0, 0, false⟩ })) l (some j)))
    ∧ (f.sub = 0 → getEng (getL s l) 6 = {} → portQuiet (getL s l) → (padAt (getL s l) d).parBad = false → (padAt (getL s l) d).poison = false → intakeOf (getL s l) f.src = some j → headerOk (getL s l) j f.line = false →
        exec (.xhdrArrival l) s = .next (setKvNow (setIntake (trapNow S l 3 d) l j (fun k => { k with msg := some ⟨d, first, n, 0, 0, true⟩ })) l none))
    ∧ (∀ m, f.sub = 1 → getEng (getL s l) 6 = {} → portQuiet (getL s l) → intakeOf (getL s l) f.src = some j → (tget {} (getL s l).intakes j).msg = some m → m.rejected = true →
        exec (.xdataArrival l) s = .next (setIntake S l j (fun k => { k with msg := if f.last then none else some m })))
    ∧ (∀ m c S', f.sub = 1 → getEng (getL s l) 6 = {} → (getL s l).kvIn = [] → (getL s l).kvNow = some j → (getL s l).move = none → intakeOf (getL s l) f.src = some j → (tget {} (getL s l).intakes j).msg = some m → m.rejected = false →
        c = 2 * (descAt (getL s l) m.desc).w * (descAt (getL s l) m.desc).hloc → writeShare l m.desc (m.first + m.written / c) (m.written % c) [(f.line, f.poison)] S = some S' →
        (m.unacked ≠ 15 → m.written + 1 ≠ m.n * c →
          exec (.xdataArrival l) s = .next (setIntake S' l j (fun k => { k with msg := some { m with written := m.written + 1, unacked := m.unacked + 1 } })))
        ∧ (m.unacked = 15 → m.written + 1 ≠ m.n * c →
          exec (.xdataArrival l) s = .next (setIntake (sendXack l j 16 false S') l j (fun k => { k with msg := some { m with written := m.written + 1, unacked := 0 } })))
        ∧ (m.unacked ≠ 15 → m.written + 1 = m.n * c →
          exec (.xdataArrival l) s = .next (setKvNow (setIntake (sendXack l j (m.unacked + 2) true (setDesc S' l m.desc 16 4 (m.first + m.n))) l j (fun k => { k with msg := none })) l none))
        ∧ (m.unacked = 15 → m.written + 1 = m.n * c →
          exec (.xdataArrival l) s = .next (setKvNow (setIntake (sendXack l j 1 true (setDesc (sendXack l j 16 false S') l m.desc 16 4 (m.first + m.n))) l j (fun k => { k with msg := none })) l none)))
    ∧ (∀ e k c, f.sub = 2 → portQuiet (getL s l) → xackEntry (getL s l) f.src = some e → k = getSl (getL s l) e → c = lineField f.line 0 4 → k.credits + c ≤ k.grant →
        (lineByte f.line 4 ≠ 1 → exec (.xackArrival l) s = .next (updSl S l e (fun k => { k with credits := k.credits + c })))
        ∧ (∀ g x, lineByte f.line 4 = 1 → g = getEng (getL s l) 6 → g.q = [x] → x.op = .kxfrAck e →
          exec (.xackArrival l) s = .next (updEng (waitEnded (updSl S l e (fun k => { k with credits := k.credits + c })) l g.wait g.since) l 6 (fun _ => {}))))
    ∧ (3 ≤ f.sub.val → exec (.kvReservedSub l) s = .next (raiseL (countL S l 0x33 1) l sevError 0x0404 f.sub.val))

/-- 07 R204, R206, R210, R231; 08 R237, R238, R245: a management write sets the producer of channel 4, the destination of the management sluice, a line of the table cache (dropping what the look-aside buffer holds; one that would change a bound descriptor's STATE outside a step boundary writes nothing), a permit mask or the exception entries of a route table that is not locked (a locked table ignores the write and reports it), or the inactive bank of a scheduled port with the step it switches at; a bank that breaks a rule of Table 8-3 changes nothing. Where the rules are silent the statement follows the model's choices: log 36, 51, 52. -/
def Obligations.ManagementWrites : Prop :=
  ∀ (l d a k r p pn m loop endi : Nat) (x : Line) (es : List Word) (xs : List (Nat × Nat × Nat)) (s : State) (P : RPort), l < 1600 → r < 1600 → p < 5 → pn < 16 → P = getRP s r p →
    exec (.mgmtFlit (.channel4Producer l d)) s = .next (updL s l (fun L => { L with intakes := tupd {} L.intakes 4 (fun k => { k with used := true, producer := d, cls := 2 }) }))
    ∧ exec (.mgmtFlit (.mgmtSluiceDest l d)) s = .next (updL s l (fun L => { L with sluices := tset {} L.sluices 32 { dest := d, kind := 3, num := 0, cls := 2, grant := 64, credits := 64 } }))
    ∧ ((getL s l).ctBase ≤ a → a < (getL s l).ctBase + (getL s l).ctCount → changesState s l a x = false →
        exec (.mgmtFlit (.cacheTable l a x)) s = .next (updL s l (fun L => { L with pad := tset {} L.pad a ⟨x, false, false, false, 0xA⟩, lookaside := [] })))
    ∧ ((getL s l).ctBase + (getL s l).ctCount ≤ a → exec (.mgmtFlit (.cacheTable l a x)) s = .next s)
    ∧ (changesState s l a x = true → exec (.mgmtFlit (.cacheTable l a x)) s = .next s)
    ∧ (s.sec.routesLocked = false → exec (.mgmtFlit (.permitMask r pn m)) s = .next (updR s r (fun R => { R with permit := tset 0 R.permit pn (m % 32) })))
    ∧ (s.sec.routesLocked = false → exec (.mgmtFlit (.routeExceptions r xs)) s = .next (updR s r (fun R => { R with exceptions := xs.take 16 })))
    ∧ (∀ op, op = .permitMask r pn m ∨ op = .routeExceptions r xs → s.sec.routesLocked = true →
        exec (.mgmtFlit op) s = .next (raiseEv s sevSecurity 0x0500 ((partOf s r).getD partModule) srcLantern r ((partOf s r).getD partModule)))
    ∧ (P.sched = true → loop ≤ endi → endi ≤ 1023 → (∀ w, w ∈ es → orderWordOk w = true) → portPassed s r k = false →
        exec (.mgmtFlit (.orderBank r p es loop endi k)) s = .next (updRP s r p (fun P => { P with
          orders := tset {} P.orders (1 - P.bank) ⟨tfill 0 [] 0 (es.take (endi + 1)), loop, endi⟩,
          golden := tset {} P.golden (1 - P.bank) ⟨tfill 0 [] 0 (es.take (endi + 1)), loop, endi⟩, switchAt := some k })))
    ∧ (∀ w, w ∈ es → orderWordOk w = false → exec (.mgmtFlit (.orderBank r p es loop endi k)) s = .next s)

/-! ## Furrows (08 R234 to R251) -/

/-- 08 R234, R235, R237, R238, R243, R244, R246, R247, R252: the head flit of a virtual channel goes out by its route when there is room, its slot and its turn have come and no sooner class-0 flit waits for the port: to the lantern, to the neighbour's buffer of its channel, or to the rim tile, with one hop more, over the links of the port in turn; a flit that the port's mask does not permit is dropped as SECURITY 0x0501, one for a port without a working link is discarded; the weir lets a held flit go once its interval is over; a scheduled port forwards the head flit of the input its RUN entry names and counts it; an ENDSTEP entry adds COUNT + 1 to the steps and switches banks at the step named. Where the rules are silent the statement follows the model's choices: log 43, 52. -/
def Obligations.Furrows : Prop :=
  ∀ (r p i pn : Nat) (cls : Fin 4) (vcb : Bool) (s s' : State) (f g : Flit) (P : RPort) (w : Word), r < 1600 → p < 5 → i < 5 → pn < 16 → P = getRP s r p → w = orderEntry P → ¬ s.badRouters.contains r →
    ((getL s r).tx = [] → (∀ q, q < 5 → ((edgeTile r q).map (fun x => (getT s x).tx)).getD [] = []) →
      (takeIn s r i cls vcb = none → exec (.flitHop r i cls vcb) s = .next s)
      ∧ (takeIn s r i cls vcb = some (f, s') → p = nextPort s r f.src f.dest → g = { f with vcb := f.vcb || (exceptionFor s r f.dest).isSome, hops := min 127 (f.hops + 1) } →
          (permitted s r p f.part = false →
            exec (.flitHop r i cls vcb) s = .next (raiseEv (countF s' (fieldOf r) 0x45 1) sevSecurity 0x0501 ((partOf s r).getD partModule) srcLantern r f.part))
          ∧ (permitted s r p f.part = true → linksUp s r p = 0 → exec (.flitHop r i cls vcb) s = .next s')
          ∧ (permitted s r p f.part = true → linksUp s r p ≠ 0 → roomBehind s r p f = true → slotHolds s r f = false → slotTaken s r p f = false → servedBefore s r p i f = false →
              (cls ≠ 0 → inTurn s r p cls.val = true) →
              let turn := nextTurn (streamsAt s r p) P.turn
              let u := if cls = 0 then s' else updRP s' r p (fun P => { P with turn := (turn.1, turn.2 + 1) })
              let t := updRP (countF (countF u (fieldOf r) 0x40 1) (fieldOf r) 0x41 (if f.cls = 0 then 1 else 0)) r p (fun P => { P with out := passLinks g P.out })
              (p = 0 → (getL s r).on = true → exec (.flitHop r i cls vcb) s = .next (updL t r (fun L => { L with rx := L.rx ++ [g] })))
              ∧ (p = 0 → (getL s r).on = false →
                exec (.flitHop r i cls vcb) s = .next (raiseEv (countF t (fieldOf r) 0x44 1) sevError 0x0403 ((partOf s r).getD partModule) srcField (fieldOf r) (linkCode r 0 0)))
              ∧ (p ≠ 0 → edgeTile r p = none → exec (.flitHop r i cls vcb) s = .next (updRP t (neighbour r p) (facing p) (fillBuf g)))
              ∧ (∀ x, p ≠ 0 → edgeTile r p = some x → exec (.flitHop r i cls vcb) s = .next (deliverTile t x g))))
      ∧ (P.sched = true → portRuns s r = true → isRun w = true → inputTaken s r p (entryField w 59 3) = false → takeSched s r (entryField w 59 3) = some (f, s') →
          permitted s r p f.part = true → linksUp s r p ≠ 0 → roomBehind s r p f = true → servedBefore s r p (entryField w 59 3) f = false → inTurn s r p 0 = true → debugOn s ((partOf s r).getD 16) = false →
          let turn := nextTurn (streamsAt s r p) P.turn
          exec (.orderRun r p) s = .next (sendOut (updRP (updRP s' r p (fun P => if P.done = entryField w 17 12 then advanceEntry P else { P with done := P.done + 1 }))
            r p (fun P => { P with turn := (turn.1, turn.2 + 1) })) r p f)))
    ∧ (∀ e rest, (getL s r).weirHeld = (e, f) :: rest → weirOpen (getL s r).weirLast (getL s r).weirK (nowNs s) = true →
        exec (.weirRelease r pn) s = .next (countL (updL s r (fun L => { L with weirHeld := rest, weirLast := some (nowNs s), tx := L.tx ++ [(e, f)] })) r (0x2D + f.cls.val) 1))
    ∧ (∀ t pre rest last, t < 40 → (getT s t).weirHeld = pre ++ f :: rest → (∀ x, x ∈ pre → x.part ≠ pn) → f.part = pn → last = tget 0 (getT s t).weirLast pn →
        last = 0 ∨ last - 1 + weirP (tget 0 (getT s t).weirK pn) ≤ nowNs s →
        exec (.weirRelease (1600 + t) pn) s = .next (countT (updT s t (fun T => { T with weirHeld := pre ++ rest, weirLast := tset 0 T.weirLast pn (nowNs s + 1), tx := T.tx ++ [{ f with inj := injNow s (tileIsland t) f }] })) t 0x61 1))
    ∧ (P.sched = true → portRuns s r = true → isEndstep w = true → P.switchAt = none →
        exec (.orderEndstep r p) s = .next (updRP s r p (fun P => { advanceEntry P with steps := P.steps + entryField w 0 12 + 1 })))
    ∧ (∀ k, P.sched = true → portRuns s r = true → isEndstep w = true → P.switchAt = some k → k ≤ P.steps + entryField w 0 12 + 1 →
        exec (.orderEndstep r p) s = .next (updRP s r p (fun P => { P with steps := P.steps + entryField w 0 12 + 1, bank := 1 - P.bank, entry := 0, done := 0, switchAt := none })))
    ∧ (P.sched = false ∨ portRuns s r = false → exec (.orderRun r p) s = .next s ∧ exec (.orderEndstep r p) s = .next s)

/-- 08 R234, R235, R250, R251 and Table 8-6: a CRC mismatch is counted and replayed; the third of one flit, or the sixteenth within 1 ms, takes the link out of service, what it kept going again on the other; the last link of a port takes the flits that wait for it and faults the partitions whose routes use it; a lane test that finds nothing returns the link with the alternation at link 0, one past repair on an edge is repaired by the edge's spare once, and one past every repair disables the link for good with a repair map entry. Links 2 and 3 of a port are its inbound ones. Where the rules are silent the statement follows the model's choices: log 36, 52. -/
def Obligations.LinkErrors : Prop :=
  ∀ (r p k r' p' k' flit : Nat) (inb : Bool) (s S : State) (d : LinkDir) (x : Link) (ms : List Nat) (n w : Nat), r < 1600 → p < 5 → k < 4 → linkPlace r p k = (r', p', inb, k') → d = getDir s r' p' inb → x = tget {} d.link k' →
    ms = nowNs s :: x.misses.filter (fun t => decide (nowNs s < t + 1000000)) → n = (match x.fails with | some (g, m) => if g = flit then m + 1 else 1 | none => 1) →
    S = updDir r' p' inb (fun d => { d with link := tset {} d.link k' { x with misses := ms, fails := some (flit, n), replays := x.replays + 1 } }) (countF (countF s (fieldOf r') 0x42 1) (fieldOf r') 0x43 1) →
    w = linkCode r' p' (k' + (if inb then 2 else 0)) →
    (x.up = true → n < 3 → ms.length < 16 → exec (.linkCrcMismatch r p k flit) s = .next S)
    ∧ (x.up = true → 3 ≤ n ∨ 16 ≤ ms.length → (tget {} d.link (1 - k')).up = true →
        exec (.linkCrcMismatch r p k flit) s = .next (updDir r' p' inb (dropLink k') S))
    ∧ (∀ u v, x.up = true → 3 ≤ n ∨ 16 ≤ ms.length → (tget {} d.link (1 - k')).up = false → u = updDir r' p' inb (dropLink k') S →
        v = (if inb = false then dropWaiting r' p' u else match edgeTile r' p' with
          | some t => updT u t (fun T => { T with tx := T.tx.filter (fun f => entryLantern u t f.dest != r') })
          | none => updL u r' (fun L => { L with tx := [] })) →
        exec (.linkCrcMismatch r p k flit) s = .next (forEach (partsUsing u r' p' inb) (fun pn s => unitFault s pn 1 w) v))
    ∧ (x.up = false → exec (.linkCrcMismatch r p k flit) s = .next s)
    ∧ (∀ y : LaneResult, x.up = true → exec (.laneTestDone r p k y) s = .next s)
    ∧ (∀ y : LaneResult, x.up = false → y.triplet ≤ 1 → y.wires = [] →
        exec (.laneTestDone r p k y) s = .next (raiseEv (recheckRoutes (updDir r' p' inb (restoreLink k') s)) sevWarn 0x0401 ((partOf s r').getD partModule) srcFirmware 0 w))
    ∧ (∀ y : LaneResult, x.up = false → 2 ≤ y.triplet → boundaryLink r' p' = true → spareUsed s w = false → s.repair.entries.length < 8192 →
        exec (.laneTestDone r p k y) s = .next (raiseEv (recheckRoutes (addRepair (updDir r' p' inb (restoreLink k') s) ⟨6, 3, w, 0, 0⟩)) sevWarn 0x0401 ((partOf s r').getD partModule) srcFirmware 0 w))
    ∧ (∀ y : LaneResult, x.up = false → 2 ≤ y.triplet → boundaryLink r' p' = false ∨ spareUsed s w = true → s.repair.entries.length < 8192 →
        exec (.laneTestDone r p k y) s = .next (raiseEv (recheckRoutes (addRepair (updDir r' p' inb (fun d => { d with link := tupd {} d.link k' (fun x => { x with disabled := true }) }) s) ⟨7, 3, w, 0, 0⟩))
          sevWarn 0x0400 ((partOf s r').getD partModule) srcFirmware 0 w))

/-! ## Rim and Zenden links (08 R255 to R260; 09 R298; 11 R358; 13 R402) -/

/-- 09 R298 and Table 9-13; 13 R402; 11 Table 11-5: a RUNNEL flit writes the next entry of its runnel and counts its token, or is discarded and reported when the runnel is full; an ENDNOTE ends its request with the reason and the position it gives; E8 writes trace records to the partition's ring in order; a flit for a channel not held, or not listed, is discarded and reported; a tile that loses its function is gated and faults every partition granted it. Where the rules are silent the statement follows the model's choices: log 21, 24, 36, 52. -/
def Obligations.RimFlits : Prop :=
  ∀ (t m : Nat) (s S : State) (pre rest : List Flit) (f : Flit), t < 40 → m = tileMain t → (getT s m).rx = pre ++ f :: rest → S = rimHandled (updT s m (fun T => { T with rx := pre ++ rest })) t f → f.kind = 4 →
    (∀ r, f.sub = 0 → (tileHost t).isSome = true → (∀ g, g ∈ pre → isRim (· == 0) g = false) → reqOn s f.part (lineField f.line 16 2) = some r →
        (r.written = BitVec.ofNat 32 (lineField f.line 18 4) → (r.written - r.cons).toNat < 2 ^ r.rlog2 →
          exec (.rimRunnel t) s = .next (updReq (writeRunnel S f.part r r.written ((lineBytes f.line).take 16)) f.part r.tag (fun r =>
            if (lineField f.line 10 2).testBit 3 then { r with written := r.written + 1 }
            else { r with written := r.written + 1, delivered := r.delivered + 1, gen := r.gen ++ [BitVec.ofNat 32 (lineField f.line 0 4)] })))
        ∧ (2 ^ r.rlog2 ≤ (BitVec.ofNat 32 (lineField f.line 18 4) - r.cons).toNat → exec (.rimRunnel t) s = .next (rimDiscard S t 1 f r.rn)))
    ∧ (∀ r, f.sub = 1 → (tileHost t).isSome = true → (∀ g, g ∈ pre → isRim (fun c => decide (c ≤ 1)) g = false) → reqOn s f.part (lineField f.line 0 2) = some r →
        1 ≤ lineByte f.line 2 → lineByte f.line 2 ≤ 8 →
        exec (.rimEndnote t) s = .next (updReq (setEnding S f.part r.tag (0x1F + lineByte f.line 2) (lineByte f.line 3)) f.part r.tag
          (fun r => { r with inPass := false, note := some (lineField f.line 8 4) })))
    ∧ (f.sub = 0 → t = 18 → (∀ g, g ∈ pre → isRim (· == 0) g = false) →
        exec .rimTrace s = .next (updPart S f.part (fun p =>
          { p with traceRing := tset none p.traceRing (p.traceWidx.toNat % 32768) (some (recordOf f.line)), traceWidx := p.traceWidx + 1 })))
    ∧ (∀ z, tileZenden t = some z → f.sub.val < 15 → (∀ g, g ∈ pre → isRim (fun c => decide (c < 15)) g = false) → holdsChannel s z f.sub.val f.part = true →
        exec (.rimZendenChannel t) s = .next (zFlush (updZ (updT s m (fun T => { T with rx := pre ++ rest })) z (fun Z => { Z with out := Z.out ++ [(f.sub.val, f)] })) z))
    ∧ (∀ z, tileZenden t = some z → f.sub.val < 15 → (∀ g, g ∈ pre → isRim (fun c => decide (c < 15)) g = false) → holdsChannel s z f.sub.val f.part = false →
        exec (.rimZendenChannel t) s = .next (rimDiscard (updT s m (fun T => { T with rx := pre ++ rest })) t 0 f f.sub.val))
    ∧ (unlisted t f.sub.val = true → (∀ g, g ∈ pre → isRim (unlisted t) g = false) →
        exec (.rimUnlistedChannel t) s = .next (rimDiscard (updT s m (fun T => { T with rx := pre ++ rest })) t 0 f f.sub.val))
    ∧ (∀ x, (∀ e, e ∈ allParts x → granted e.2 t = false) → exec (.rimFunctionLost t) x = .next (gateTile false t (updT x t (fun T => { T with lost := true }))))
    ∧ (∀ x n p, x.parts = [(n, some p)] → granted p t = true → exec (.rimFunctionLost t) x = .next (unitFault (gateTile false t (updT x t (fun T => { T with lost := true }))) n 5 t))

/-- 08 R255 to R257, R259, R260; 11 R358: a good group in its turn passes its flits on and moves the number expected, and its ACK frees the groups kept; a bad one only counts; groups without an ACK are sent again from the oldest, with the ACK of now; an idle link sends headers; a link goes down when its cause holds and no activation suspends it, faulting the partitions that hold its channels, and a ring that loses it joins the bypass or becomes a chain; a trained link starts from number 0 with its peer's serial number. The ring: an index that arrives goes on one higher and is taken, or closes the ring at the module that forms it, whose command then completes with the size and whose channels open; the size goes round until index 0 and opens the channels of each module; 10 ms without return, or a seventeenth module, fails the formation and leaves the modules standalone. Where the rules are silent the statement follows the model's choices: log 11, 36, 54. -/
def Obligations.ZendenLinksAndRing : Prop :=
  ∀ (z : Nat) (s S : State) (Z : Zenden) (g : ZGroup), z < 4 → Z = getZ s z →
    S = updZ (countT (countT s (zendenTile z) 0x63 g.corrected) (zendenTile z) 0x64 g.failed) z (fun Z => { Z with heardAt := nowNs s, kept := acked Z.kept g.ack }) →
    (Z.up = true → g.idle = false → g.check = true → g.failed = 0 → g.gseq = Z.expect →
        exec (.zendenGroupReceive z g) s = .next (zFlush (forEach g.flits (passOn (portIn s z)) (updZ S z (fun Z => { Z with expect := (Z.expect + 1) % 2048 }))) (portIn s z)))
    ∧ (Z.up = true → (g.idle = true ∨ 0 < g.failed ∨ g.check = false ∨ g.gseq ≠ Z.expect) → exec (.zendenGroupReceive z g) s = .next (zFlush S (portIn s z)))
    ∧ (Z.up = false → exec (.zendenGroupReceive z g) s = .next s)
    ∧ (∀ k rest again, Z.kept = k :: rest → Z.up = true → k.sentAt + ackTime z ≤ nowNs s → again = Z.kept.map (fun g => formGroup Z g.gseq (g.times + 1) (nowNs s) g.flits) →
        exec (.zendenAckTimeout z) s = .next (countT (setZ s z { Z with kept := again, headerAt := nowNs s, head := (again.map (·.head)).getLastD Z.head }) (zendenTile z) 0x62 Z.kept.length))
    ∧ (Z.kept = [] ∨ Z.up = false → exec (.zendenAckTimeout z) s = .next s)
    ∧ (Z.up = true → Z.out = [] → portIn s z = z → portOut s z = z →
        exec (.zendenIdleHeader z) s = .next (setZ s z { Z with headerAt := nowNs s, head := groupHeader 0 0 (ackWord Z) }))
    ∧ (Z.up = false → exec (.zendenIdleHeader z) s = .next s)
    ∧ (∀ why, Z.up = true → downCause s z why = true → Z.suspendTo ≤ nowNs s →
        exec (.zendenLinkDown z why) s = .next (ringLost (forEach (channelParts s z) (fun pn s => unitFault s pn 2 z)
          (raiseEv (setZ s z { Z with up := false, kept := [], out := [] }) sevError 0x0405 partModule srcTile (zendenTile z) z)) z))
    ∧ (∀ why, Z.up = false ∨ nowNs s < Z.suspendTo ∨ downCause s z why = false → exec (.zendenLinkDown z why) s = .next s)
    ∧ (s.ring.size ≠ 0 → z = 0 ∨ z = 2 → s.ring.lost = none →
        ∀ join, join = (s.ring.mode == 1 && (getZ s (bypassOf z)).up) → ringLost s z = { s with ring := { s.ring with lost := some z, bypass := join, chain := !join } })
    ∧ (∀ peer, s.boot.rails = true → Z.up = false →
        exec (.zendenLinkTrained z peer) s = .next (setZ s z { Z with
          up := true, failed := false, peer := peer, gseq := 0, expect := 0, kept := [], heardAt := nowNs s, headerAt := nowNs s }))
    ∧ (∀ peer, s.boot.rails = false ∨ Z.up = true → exec (.zendenLinkTrained z peer) s = .next s)
    ∧ exec (.zendenActivateNotice z) s = .next (setZ s z { Z with suspendTo := nowNs s + 20000000 })
    ∧ (∀ (i n : Nat) (R : Ring), R = standalone s.ring →
        ((getZ s 0).up = false → exec (.ringFormReceive i) s = .next s)
        ∧ ((getZ s 0).up = true →
            (s.ring.forming = none → i ≤ 14 → exec (.ringFormReceive i) s = .next { s with ring := { R with index := i + 1, taken := some (nowNs s), sent := R.sent ++ [(0, i + 1)] } })
          ∧ (s.ring.forming = none → 15 ≤ i → exec (.ringFormReceive i) s = .next { s with ring := { R with sent := R.sent ++ [(0, i + 1)] } })
          ∧ (∀ t, s.ring.forming = some t → i ≤ 15 →
              exec (.ringFormReceive i) s = .next (resolveWaits ringWait (fun _ => (0x00, i + 1)) { s with ring := { R with size := i + 1, formed := true, sent := R.sent ++ [(1, i + 1)] } }))
          ∧ (∀ t, s.ring.forming = some t → 16 ≤ i → exec (.ringFormReceive i) s = .next (resolveWaits ringWait (fun _ => (0x12, 0)) { s with ring := R })))
        ∧ (s.ring.index ≠ 0 → exec (.ringDoneReceive n) s = .next { s with ring := { s.ring with size := n, taken := none, formed := true, sent := s.ring.sent ++ [(1, n)] } })
        ∧ (s.ring.index = 0 → exec (.ringDoneReceive n) s = .next s)
        ∧ (∀ t, s.ring.forming = some t → t + 10000000 ≤ nowNs s → exec .ringFormTimeout s = .next (resolveWaits ringWait (fun _ => (0x12, 0)) { s with ring := R }))
        ∧ (∀ t, s.ring.forming = none → s.ring.taken = some t → t + 10000000 ≤ nowNs s → exec .ringFormTimeout s = .next { s with ring := R })
        ∧ (s.ring.forming = none → s.ring.taken = none → exec .ringFormTimeout s = .next s))

/-! ## Steps, faults, control processors (06 R188 to R191, R198; 11 R344 to R352; 03 R78, R97; 09 R265) -/

/-- 06 R188, R190, R191, R198: once every lantern has closed the step and the step time has passed, the partition is at its next boundary and what waited for it is in force; a lantern sees boundaries one by one; a step overdue by the watchdog is a fault of cause 0x01 that lists the lanterns that have not closed it; the lanterns of a partition whose step tree stands still stop. Where the rules are silent the statement follows the model's choices: log 1, one event at a time. -/
def Obligations.StepTree : Prop :=
  ∀ (n l : Nat) (s : State) (p : Partition), n < 16 → l < 1600 → getPart s n = some p →
    (p.running = true → openLanterns s p = [] → p.boundAt + stepNow p ≤ nowNs s →
        ∃ t q, exec (.stepBoundary n) s = .next t ∧ getPart t n = some q ∧ q.bound = p.bound + 1 ∧ q.boundAt = nowNs s ∧ q.share = p.shareNext.getD p.share ∧ q.watchdog = p.watchdogNext.getD p.watchdog
          ∧ q.mon = p.monNext.getD p.mon ∧ q.drift = p.driftNext.getD p.drift ∧ q.shareNext = none ∧ q.watchdogNext = none ∧ q.monNext = none ∧ q.driftNext = none ∧ q.running = true
          ∧ (fieldOf l ∈ partFields p → (getL t l).temp = (getL s l).tempNext.getD (getL s l).temp ∧ (getL t l).tempNext = none)
          ∧ (¬ fieldOf l ∈ partFields p → (getL t l).temp = (getL s l).temp ∧ (getL t l).tempNext = (getL s l).tempNext))
    ∧ (openLanterns s p ≠ [] ∨ nowNs s < p.boundAt + stepNow p → exec (.stepBoundary n) s = .next s)
    ∧ (partOf s l = some n → p.running = true → (getL s l).seen < p.bound → exec (.boundarySeen l) s = .next (updL s l (fun L => { L with seen := L.seen + 1 })))
    ∧ (p.bound ≤ (getL s l).seen → partOf s l = some n → exec (.boundarySeen l) s = .next s)
    ∧ (∀ x xs, p.running = true → p.state ≠ .empty → p.state ≠ .loaded → openLanterns s p = x :: xs → p.boundAt + stepNow p + 1000 * p.watchdog ≤ nowNs s →
        exec (.stepWatchdogExpiry n) s = .next (setPart s n (some { p with running := false, newFaults := p.newFaults ++
          [⟨0, 1, n, x, p.bound, 65535, 0, 0, nowNs s, p.epoch, 0, ((x :: xs).take 16).map (stoppedAt s)⟩] })))
    ∧ (openLanterns s p = [] → exec (.stepWatchdogExpiry n) s = .next s)
    ∧ (p.running = false → ∃ t, exec (.partitionStop n) s = .next t ∧ others t = others s ∧ t.parts = s.parts
        ∧ (l ∈ partLanterns s p → (getL t l).running = false ∧ (getL t l).held = none ∧ ∀ b, (getBank (getL t l) b).slot = none)
        ∧ (¬ l ∈ partLanterns s p → getL t l = getL s l))
    ∧ (p.running = true → exec (.partitionStop n) s = .next s)

/-- 11 R344 to R349: firmware takes the oldest fault: the partition is FAULTED, stopped, its suspects named; once no channel of the reserve is being reset the retest marks a lantern bad on two votes of its voters and counts a program fault when no hardware is at fault, the third within 600 s holding the partition; the reload ends in SERVING, or in LOADED after a third program fault. Where the rules are silent the statement follows the model's choices: log 23, 24, 30, 51. -/
def Obligations.FaultHandling : Prop :=
  ∀ (n : Nat) (s : State) (p : Partition), n < 16 → getPart s n = some p →
    (∀ r rest, p.newFaults = r :: rest → ∃ t q, exec (.partitionFault n) s = .next t ∧ getPart t n = some q ∧ q.state = .faulted ∧ q.running = false ∧ q.newFaults = rest
        ∧ q.faults = (r :: p.faults).take 8 ∧ q.handling = some r ∧ q.suspects = (p.suspects ++ suspectsOf r).eraseDups)
    ∧ (p.newFaults = [] → exec (.partitionFault n) s = .next (settle s))
    ∧ (∀ r ts, p.state = .faulted → p.retested = false → p.newFaults = [] → p.handling = some r → reserveHeld s p = false → r.cls = 0 → r.cause ≠ 7 → (∀ l, l ∈ partLanterns s p → ¬ s.badLanterns.contains l) →
        ts = nowNs s :: p.progFaults.filter (fun t => decide (nowNs s < t + 600000000000)) →
        exec (.faultRetestDone n []) s = .next (setPart s n (some { p with
          retested := true, progFaults := ts, handling := some { r with outcome := if 3 ≤ ts.length ∨ r.outcome = 4 then 4 else 0 } })))
    ∧ (∀ (r : FaultRec) (l v w : Nat), p.state = .faulted → p.retested = false → p.newFaults = [] → p.handling = some r → reserveHeld s p = false → l < 1600 → l ∈ p.suspects → partOf s l = none ∨ partOf s l = some n → v < 1640 → w < 1640 → v ≠ w → isVoter v l = true → isVoter w l = true →
        ¬ s.badRouters.contains v → ¬ s.badRouters.contains w → ∃ t, exec (.faultRetestDone n [(v, l), (w, l)]) s = .next t ∧ t.badLanterns.contains l)
    ∧ (∀ r, p.state = .faulted → p.retested = true → p.newFaults = [] → s.sec.restarting = false → notReady s p = false → p.handling = some r → p.wasDraining = false → p.shortfall = false →
        ∃ t q, exec (.partitionReloadDone n) s = .next t ∧ getPart t n = some q ∧ q.handling = none ∧ q.state = (if r.outcome = 4 then .loaded else .serving))

/-- 11 R350 to R352; 03 R78, R97; 09 R265: a unit that recomputes its check value tells whether its configuration differs; the scrub faults the partition of a lantern that differs; calibration copies that are not valid, or older, are rewritten from the newest valid one; drift scales are saved; a halted control processor hands over with HOLD to its standby, and a restarted one stands by; the Lamplighter's error is SECURITY 0x0505; when HOLD clears nothing stays latched. Where the rules are silent the statement follows the model's choices: log 21; 24. -/
def Obligations.ScrubsAndProcessors : Prop :=
  ∀ (l : Nat) (s : State) (B : Boot), l < 1600 → B = s.boot →
    exec (.configCrcRecompute (.lantern l)) s = .next (updL s l (fun L => { L with crcBad := lanternDiffers s l }))
    ∧ exec (.configCrcRecompute (.router l)) s = .next (updR s l (fun R => { R with crcBad := routerDiffers s l }))
    ∧ ((∀ e, e ∈ s.lanterns → e.2.crcBad = false) → (∀ e, e ∈ s.routers → e.2.crcBad = false) → exec .configScrub s = .next s)
    ∧ (∀ n, (s.lanterns.filter (fun e => e.2.crcBad)).map (·.1) = [l] → (∀ e, e ∈ s.routers → e.2.crcBad = false) → partOf s l = some n → exec .configScrub s = .next (unitFault s n 3 l))
    ∧ (∃ t, exec .calibrationScrub s = .next t ∧ t = { s with cal := t.cal, calRewrites := t.calRewrites } ∧ s.calRewrites ≤ t.calRewrites
        ∧ ∀ (i : Nat) (e : Nat × CalRec), s.cal[i]? = some e → ∃ r, t.cal[i]? = some (e.1, r) ∧ r.cur = e.2.cur ∧ r.next = e.2.next ∧ (bestCopy e.1 e.2 = none → r = e.2)
          ∧ ∀ b c d, bestCopy e.1 e.2 = some b → (c, d) ∈ (copiesOf e.2).zip (copiesOf r) →
              d = if copyValid e.1 c = false ∨ newerGen (recGen b) (recGen c) = true then b else c)
    ∧ (∃ t, exec .driftSave s = .next t ∧ t.pending = s.pending ∧ t.parts = s.parts ∧ ∀ m a, (getArr (getL t m) a).driftSaved = (getArr (getL s m) a).drift ∧ (getArr (getL t m) a).reftSaved = (getArr (getL s m) a).reft)
    ∧ (B.aUp = true → B.bUp = true → B.bActive = false →
        exec (.lockstepMismatch .a) s = .next (raiseEv { s with boot := { B with aUp := false, bActive := true, hold := true, holdAt := nowNs s } } sevWarn 0x0702 partModule srcFirmware 0 1)
        ∧ exec (.lockstepMismatch .b) s = .next { s with boot := { B with bUp := false } })
    ∧ (s.sec.rom = true → s.sec.error = false →
        exec (.lockstepMismatch .lamplighter) s = .next (raiseEv { s with sec := { s.sec with error := true } } sevSecurity 0x0505 partModule srcLamplighter 0 0)
        ∧ exec .lamplighterError s = .next (raiseEv { s with sec := { s.sec with error := true } } sevSecurity 0x0505 partModule srcLamplighter 0 0))
    ∧ (B.aUp = true → B.bUp = false → exec (.standbySelftestDone .b true) s = .next { s with boot := { B with bUp := true } }
        ∧ exec (.standbySelftestDone .b false) s = .next (raiseEv s sevError 0x0702 partModule srcFirmware 0 1))
    ∧ (B.hold = true → ∃ t, exec .holdClear s = .next t ∧ t.boot.hold = false ∧ ∀ fn, (getFn t fn).latched = [] ∧ (getFn t fn).resetPending = false)
    ∧ (s.sec.restarting = true → s.sec.error = false → ∃ t, exec .lamplighterRestartDone s = .next t ∧ t.sec.restarting = false ∧ t.sec.updating = false ∧ t.sec.aliasGen = s.sec.aliasGen + 1)
    ∧ (s.sec.restarting = false → exec .lamplighterRestartDone s = .next (settle s))

/-! ## Requests and contexts in service (07 R228 to R230; 09 R268, R280 to R293) -/

/-- 09 R280, R281, R284, R286 to R288: the end of the prefill delivers the first token and starts the next pass when the runnel has room, or holds the request; a token with the poison flag, or one that meets a stop condition, ends it; a decode pass delivers the accepted drafts and one token more; a held request goes on when there is room; an ended request none of whose pages is on its way is completed and its slot freed. Where the rules are silent the statement follows the model's choices: log 32. -/
def Obligations.RequestPasses : Prop :=
  ∀ (n : Nat) (tag : BitVec 64) (tok : Tok) (s : State) (p : Partition) (r : Request), n < 16 → getPart s n = some p → findReq p tag = some r →
    (r.inPass = true → r.resuming = false → r.gen = [] → r.state = .prefill → tok.poison = false → stopOf r [tok.id] tok.id = none →
        ∃ t q x, exec (.prefillDone n tag tok) s = .next t ∧ getPart t n = some q ∧ findReq q tag = some x ∧ x.gen = [tok.id] ∧ x.delivered = r.delivered + 1 ∧ x.written = r.written + 1
          ∧ (passYield r ≤ 2 ^ r.rlog2 - (r.written + 1 - r.cons).toNat → x.state = .decode ∧ x.inPass = true)
          ∧ (2 ^ r.rlog2 - (r.written + 1 - r.cons).toNat < passYield r → x.state = .held ∧ x.inPass = false))
    ∧ (∀ st hit, r.inPass = true → r.resuming = false → r.gen = [] → r.state = .prefill → (if tok.poison then some (0x27, 0) else stopOf r [tok.id] tok.id) = some (st, hit) →
        ∃ t q x, exec (.prefillDone n tag tok) s = .next t ∧ getPart t n = some q ∧ findReq q tag = some x ∧ x.gen = [tok.id] ∧ x.state = .ending ∧ x.endStatus = st ∧ x.hit = hit ∧ x.inPass = false)
    ∧ (∀ toks drafts k, r.inPass = true → r.resuming = false → r.state = .decode → drafts.length = (if drafting r then r.draftK else 0) → toks.length = drafts.length + 1 → k = acceptedDrafts toks drafts + 1 →
        (∀ x, x ∈ toks → x.poison = false) → r.ends = [] → r.stops = [] → r.gen.length + k < r.maxNew →
        ∃ t q x, exec (.decodePassDone n tag toks drafts) s = .next t ∧ getPart t n = some q ∧ findReq q tag = some x ∧ x.gen = r.gen ++ (toks.take k).map (·.id) ∧ x.delivered = r.delivered + k
          ∧ x.written = r.written + BitVec.ofNat 32 k)
    ∧ (r.state = .held → r.inPass = false → passYield r ≤ runnelRoom r →
        ∃ t q, exec (.passStart n tag) s = .next t ∧ getPart t n = some q ∧ findReq q tag = some { r with state := .decode, inPass := true } ∧ { t with parts := s.parts } = s)
    ∧ (r.state = .held → r.inPass = false → runnelRoom r < passYield r →
        ∃ t q, exec (.passStart n tag) s = .next t ∧ getPart t n = some q ∧ findReq q tag = some r)
    ∧ (∀ x, r.state = .ending → r.inPass = false → stageBusy r = false → r.written9 = false → r.silent = false → toStore r = false → getQp s r.fn r.sqid = some x → x.held = [] → cqRoom x = true →
        ∃ t q, exec (.requestEnd n tag) s = .next t ∧ getPart t n = some q ∧ findReq q tag = none ∧ tag ∈ q.doneTags)
    ∧ (r.inPass = true ∨ stageBusy r = true → exec (.requestEnd n tag) s = .next (settle s))

/-- 07 R228 to R230; 09 R268, R291, R293: a pause whose pages have all moved, where the cistern has room, makes the context with its handle, its shares and its expiry, and releases the pages at the boundary; a resume whose pages are all back lets the request go on from the next boundary, and one that fails authentication ends it with CONTEXT_LOST; a context past its time goes, with its page images, unless a command that names it is in progress; a timed interrupt is sent once its time has passed. Where the rules are silent the statement follows the model's choices: log 31, coalescing; 32, 51. -/
def Obligations.ContextsAndTimers : Prop :=
  ∀ (n : Nat) (tag : BitVec 64) (s : State) (p : Partition) (r : Request), n < 16 → getPart s n = some p → findReq p tag = some r →
    (r.state = .ending → r.inPass = false → toStore r = true → r.handle = 0 → r.resuming = false → s.sec.restarting = false → r.stage = .out [] [] →
        ∃ t, exec (.cisternPauseDone n tag) s = .next t ∧ (storeStatus s p (recPages (heldCache s r)) ≠ 0 → t = s) ∧ (storeStatus s p (recPages (heldCache s r)) = 0 →
          ∃ q x c, t.contexts = s.contexts ++ [c] ∧ t.serial = s.serial + 1 ∧ c.handle = BitVec.ofNat 64 (n * 2 ^ 60 + s.serial % 2 ^ 60) ∧ c.part = n ∧ c.layout = layoutOf p ∧ c.shares = heldCache s r ∧ c.image = r.image
            ∧ c.lastTok = r.gen.getLastD 0 ∧ c.lastPos = nextPos r - 1 ∧ c.expiry = nowNs s + (if r.endStatus = 0x26 then r.pauseTtl else r.keepTtl) * 1000000000 ∧ c.busy = true
            ∧ getPart t n = some q ∧ findReq q tag = some x ∧ x = { r with handle := c.handle, shares := [] } ∧ (p.running = true → ∀ h, h ∈ r.shares → h ∈ q.freeing) ∧ (p.running = false → q.freeing = [])))
    ∧ (∀ m ms busy, r.stage = .out (m :: ms) busy ∨ r.stage = .out ms (m :: busy) → exec (.cisternPauseDone n tag) s = .next s)
    ∧ (toStore r = false → exec (.cisternPauseDone n tag) s = .next s)
    ∧ (r.resuming = true → s.sec.restarting = false → s.sec.error = false → r.stage = .back [] [] false →
        ∃ t q, exec (.cisternResumeDone n tag true) s = .next t ∧ t = { s with parts := t.parts, cistern := s.cistern.filter (fun e => e.1 / 2 ^ 32 != r.image) }
          ∧ getPart t n = some q ∧ findReq q tag = some { r with stage := .ready })
    ∧ (∀ m ms busy, r.resuming = true → s.sec.error = false → r.stage = .back (m :: ms) busy false ∨ r.stage = .back ms (m :: busy) false → exec (.cisternResumeDone n tag true) s = .next s)
    ∧ (∀ ms busy failed, r.resuming = true → s.sec.restarting = false → r.state ≠ .ending → r.stage = .back ms busy failed →
        ∃ t q x, exec (.cisternResumeDone n tag false) s = .next t ∧ getPart t n = some q ∧ findReq q tag = some x ∧ x.state = .ending ∧ x.endStatus = 0x25 ∧ x.inPass = false ∧ t.contexts = s.contexts)
    ∧ (∀ h c, findCtx s h = some c → c.busy = false → c.expiry ≤ nowNs s →
        exec (.contextTtlExpiry h) s = .next { s with contexts := s.contexts.filter (fun c => c.handle != h), cistern := s.cistern.filter (fun e => e.1 / 2 ^ 32 != c.image) })
    ∧ (∀ h c, findCtx s h = some c → c.busy = true ∨ nowNs s < c.expiry → exec (.contextTtlExpiry h) s = .next s)
    ∧ (∀ fn q x u, fn.num ≤ 16 → getQp s fn q = some x → x.int.first = some u → 0 < x.int.time → u + 1000 * x.int.time ≤ nowNs s →
        exec (.interruptTimer fn (.queuePair q)) s = .next (sendMsix (setQp s fn q (some { x with int := { x.int with since := 0, first := none } })) fn x.int.vector))
    ∧ (∀ fn g u, fn.num ≤ 16 → (getFn s fn).ring = some g → g.int.first = some u → 0 < g.int.time → u + 1000 * g.int.time ≤ nowNs s →
        exec (.interruptTimer fn .eventRing) s = .next (sendMsix (updFn s fn (fun f => { f with ring := some { g with int := { g.int with since := 0, first := none } } })) fn g.int.vector))
    ∧ (∀ fn g, fn.num ≤ 16 → (getFn s fn).ring = some g → g.int.first = none → exec (.interruptTimer fn .eventRing) s = .next s)

/-! ## Weights in the arrays (02 R62 to R66; 03 R99, R107, R108; 10 R318) -/

/-- 02 R62 to R66; 03 R75, R98, R99, R107, R108; 10 R318: a programming whose cells hold is measured; with a REF within the limit the array keeps the chunk's cells, one cycle older, at drift scale 1 with the trims and baselines measured; a first failure, or a REF past the limit, is tried again from an erased array; an array erased holds nothing, one that fails erasure is retired as bad; a load idle for 600 s ends; a touch-up moves the cells of 16 rows and passes on; a Ryile partition idle for 10 ms may be touched up, and a window ends at its time. Where the rules are silent the statement follows the model's choices: log 17, touch-up; 29, erasure; 40, 50. -/
def Obligations.WeightEvents : Prop :=
  ∀ (l a n : Nat) (s : State) (A : WickArray), l < 1600 → a < 256 → n < 16 → A = getArr (getL s l) a →
    (∀ j, (activeJobs s).find? (fun j => j.lantern == l && physOf (getL s l) j.chunk.arr == some a) = some j → partOf s l = some n → (getBank (getL s l) (a / 8)).prog = some a → A.cycles + 1 < 10000 →
        (∀ M, (∀ k, k ∈ s.jobs → k ≠ j → k.lantern = l → jobArray s k ≠ some a) → M = getArr (getL (measureArray l a (updArr (cycleUp l a s) l a (writeCells j))) l) a →
          ∃ t x, exec (.arrayProgrammingDone l a true) s = .next t ∧ x = getArr (getL t l) a ∧ x.cycles = A.cycles + 1
            ∧ ((M.ref0 : Rat) ≤ refLimit (wholeTemp (getL s l)) → x.cells = j.cells ∧ x.programmed = true ∧ x.drift = 32768 ∧ x.ref0 = M.ref0 ∧ x.trim = M.trim ∧ x.base = M.base ∧ x.retried = false)
            ∧ (refLimit (wholeTemp (getL s l)) < (M.ref0 : Rat) → A.retried = false → x.cells = [] ∧ x.programmed = false ∧ x.retried = true))
        ∧ (A.retried = false → ∃ t x, exec (.arrayProgrammingDone l a false) s = .next t ∧ x = getArr (getL t l) a ∧ x.cells = [] ∧ x.programmed = false ∧ x.cycles = A.cycles + 1 ∧ x.retried = true))
    ∧ (∀ fs, (l, a) ∈ s.erasing → ¬ s.badLanterns.contains l → (∀ e, e ∈ s.erasing → (getL s e.1).on = true ∨ s.badLanterns.contains e.1 = true) → (∀ e, e ∈ fs → e.1 < 1600 ∧ e.2 < 256) →
        ∃ t x, exec (.erasureDone fs) s = .next t ∧ t.erasing = [] ∧ t.erased = true ∧ x = getArr (getL t l) a ∧ (fs.contains (l, a) = false → x.cells = [] ∧ x.programmed = false)
          ∧ (fs.contains (l, a) = true → x.retired = true ∧ x.bad = true))
    ∧ (s.erasing = [] → exec (.erasureDone []) s = .next (settle s))
    ∧ ((l, a) ∈ s.erasing → (getL s l).on = false → ¬ s.badLanterns.contains l → exec (.erasureDone []) s = .next (settle s))
    ∧ (∀ p ld, getPart s n = some p → p.wset.load = some ld → (∀ j, j ∈ s.jobs → partOf s j.lantern = some n → j.silent = true) → ld.lastAt + 600000000000 ≤ nowNs s →
        ∃ t q, exec (.weightLoadIdleTimeout n) s = .next t ∧ getPart t n = some q ∧ q.wset.load = none ∧ q.wset.status = (closeSet p.wset ld).1.status)
    ∧ (∀ p ld, getPart s n = some p → p.wset.load = some ld → nowNs s < ld.lastAt + 600000000000 → exec (.weightLoadIdleTimeout n) s = .next (settle s))
    ∧ (∀ p B, partOf s l = some n → getPart s n = some p → B = getBank (getL s l) (a / 8) → A.touchQueued = true → isRyile p = true → touchOpen p = true → B.on = true → B.run = none → B.prog = none → A.touchRow + 16 < 1024 →
        exec (.touchUpChunk l a true) s = .next (updArr (touchRows l a s) l a (fun A => { A with touchRow := A.touchRow + 16 })))
    ∧ (∀ p, partOf s l = some n → getPart s n = some p → touchOpen p = false ∨ isRyile p = false → exec (.touchUpChunk l a true) s = .next s)
    ∧ (∀ p u, getPart s n = some p → p.idleSince = some u → isRyile p = true → hasRunning p = false → u + 10000000 ≤ nowNs s → exec (.refreshIdle n) s = .next (setPart s n (some { p with idleTouch := true })))
    ∧ (∀ p, getPart s n = some p → p.idleSince = none → exec (.refreshIdle n) s = .next s)
    ∧ (∀ p u k, getPart s n = some p → p.window10 = some (u, k) → u ≤ nowNs s →
        exec (.refreshWindowEnd n) s = .next (settle (resolveWaits (fun w => w == .refreshWindow n) (fun _ => (0x00, k)) (setPart s n (some { p with window10 := none })))))

/-! ## Power and ports (12 R361 to R371, R383; 14 R413 to R427) -/

/-- 14 R413, R427; 12 R361, R363, R365, R367, R383: PWR_EN brings the rails up at 0.55 V when the plate is ready, or waits for a power-down still going on; its end stops every step tree; once the drift scales are saved the rails go, and cells and scales stay; J1 gives the input voltage; a rail fault, a second failed phase of a group and a hard trip take every rail away and are logged; a first failed phase is reported; the trip ends when PWR_EN is off and both outlets are below 60 degrees C. Where the rules are silent the statement follows the model's choices: log 34. -/
def Obligations.PowerEvents : Prop :=
  ∀ (s : State) (B : Boot) (P : Plant), B = s.boot → P = s.plant →
    (∀ k : Fin 16, B.pwrEn = false → B.downAt = none → plateReady s = true → 21600 ≤ P.vin → ∃ t, exec (.pwrEnAssert k) s = .next t ∧ t.boot = { B with pwrEn := true, slotId := k.val, rails := true, again := false }
        ∧ (∀ f, f < 100 → getF t f = { getF s f with vcore := 550 }) ∧ t.lanterns = s.lanterns ∧ t.parts = s.parts ∧ t.sec = s.sec)
    ∧ (∀ k : Fin 16, B.pwrEn = false → B.downAt.isSome = true → exec (.pwrEnAssert k) s = .next { s with boot := { B with pwrEn := true, slotId := k.val, again := true } })
    ∧ (B.pwrEn = true → B.rails = true → B.downAt = none → ∃ t, exec .pwrEnDeassert s = .next t ∧ t.boot.pwrEn = false ∧ t.boot.ready = false ∧ t.boot.downAt = some (nowNs s)
        ∧ (∀ n q, getPart t n = some q → q.running = false))
    ∧ (B.pwrEn = true → B.rails = false → exec .pwrEnDeassert s = .next (settle { s with boot := { B with pwrEn := false, again := false }, plant := { P with railHold := false } }))
    ∧ (∀ l a, Memory.wf s = true → twf {} (getL s l).arrays = true → B.downAt.isSome = true → ∃ t A, exec .powerDownSaveDone s = .next t ∧ t.boot.rails = false ∧ t.parts = [] ∧ t.contexts = []
        ∧ A = getArr (getL s l) a ∧ (getArr (getL t l) a).cells = A.cells ∧ (getArr (getL t l) a).programmed = A.programmed ∧ (getArr (getL t l) a).drift = A.drift ∧ t.sec.counters = s.sec.counters)
    ∧ (B.downAt = none → exec .powerDownSaveDone s = .next s)
    ∧ (B.again = true → B.pwrEn = true → plateReady s = true → ∃ t, exec .powerDownRestart s = .next t ∧ t.boot = { B with rails := true, again := false } ∧ t.parts = s.parts)
    ∧ (B.again = false → exec .powerDownRestart s = .next s)
    ∧ (∀ mv, B.pwrEn = false → exec (.j1Connect mv) s = .next { s with plant := { P with j1 := true, vin := mv } })
    ∧ (∀ mv, B.pwrEn = true → B.rails = false → P.trip = false → P.railHold = false → 21600 ≤ mv → ∃ t, exec (.j1Connect mv) s = .next t ∧ t.boot.rails = true ∧ t.plant.vin = mv ∧ t.plant.j1 = true)
    ∧ (∀ mv, B.rails = true → 26400 < mv → mv ≤ 28000 → P.ovWarned = false →
        exec (.inputOvervoltageWarn mv) s = .next (raiseM { s with plant := { P with vin := mv, ovWarned := true } } sevWarn 0x0606 6))
    ∧ (∀ rail cause group mv, B.rails = true → ∃ t, exec (.railFault rail cause group mv) s = .next t ∧ t.boot.rails = false ∧ t.parts = [] ∧ t.plant.railHold = true ∧ t.plant.alertDirect = true ∧ alertN t = true
        ∧ t.plant.railLog = P.railLog ++ [rail % 256 + cause % 256 * 256 + group % 65536 * 2 ^ 16 + mv % 2 ^ 32 * 2 ^ 32])
    ∧ (∀ g, g < 45 → B.rails = true → groupOut s g = 0 → exec (.phaseFailure g) s = .next (raiseM { s with plant := { P with phasesOut := tset 0 P.phasesOut g 1 } } sevWarn 0x0602 g))
    ∧ (∀ g, g < 45 → B.rails = true → 1 ≤ groupOut s g → ∃ t, exec (.phaseFailure g) s = .next t ∧ t.boot.rails = false ∧ t.plant.railHold = true ∧ t.plant.railLog.length = P.railLog.length + 1)
    ∧ (∀ c, c < 404 → B.rails = true → ∃ t, exec (.hardTrip c) s = .next t ∧ t.boot.rails = false ∧ t.parts = [] ∧ t.plant.trip = true ∧ t.plant.tripLog = P.tripLog ++ [c])
    ∧ (P.trip = true → B.pwrEn = false → tget 240 P.coolant 2 < 480 → tget 240 P.coolant 3 < 480 → exec .thermTripRelease s = .next { s with plant := { P with trip := false, alertDirect := false } })
    ∧ (B.pwrEn = true → exec .thermTripRelease s = .next s)

/-- 00 R8; 09 R262; 14 R414, R415, R425, R426; 11 Table 11-2: PERST idles a released port and resets its functions, while HOLD is set only noting the reset; a function reset leaves no queue pair, ring or status; a link that goes down holds the port's writes, sends them when it returns within 100 ms and is reset after; a port trains to one of the generations it supports, or fails with 0x0703 and tries again; a cable that does not answer or draws too much holds its port down. -/
def Obligations.HostPorts : Prop :=
  ∀ (p : HostPort) (fn : Fn) (s : State) (k : HostLink) (g : PcieGen), k = getLink s p → g = genOf (Config.linkGen s.draws) → fn.num ≤ 16 →
    (k.released = true → k.perst = false → s.boot.hold = false → ∃ t, exec (.perstAssert p) s = .next t ∧ getLink t p = { k with perst := true, up := false, failed := false, downAt := none, held := [] }
        ∧ (fn.port = p → (getFn t fn).en = false ∧ (∀ q, getQp t fn q = none) ∧ (getFn t fn).ring = none))
    ∧ (exec (.perstDeassert p) s = .next (updLink s p (fun k => { k with perst := false })))
    ∧ (s.boot.hold = false → ∃ t, exec (.functionLevelReset fn) s = .next t ∧ (getFn t fn).en = false ∧ (∀ q, getQp t fn q = none) ∧ (getFn t fn).ring = none ∧ (getFn t fn).status = 0 ∧ (getFn t fn).latched = [])
    ∧ (s.boot.hold = true → exec (.functionLevelReset fn) s = .next (settle (updFn s fn (fun f => { f with resetPending := true }))))
    ∧ (k.up = true → k.perst = false → exec (.hostLinkDown p) s = .next (updLink s p (fun k => { k with up := false, downAt := some (nowNs s) })))
    ∧ (∀ u, k.downAt = some u → nowNs s < u + 100000000 → exec (.hostLinkReturn p) s = .next (forEach k.held (fun o s => sendHost s p o) (updLink { s with draws := s.draws + 1 } p (fun k => { k with up := true, failed := false, gen := some g, downAt := none, held := [] }))))
    ∧ (k.downAt = none → exec (.hostLinkReturn p) s = .next s)
    ∧ (∀ u, k.downAt = some u → u + 100000000 ≤ nowNs s → s.boot.hold = false → ∃ t, exec (.hostLinkHoldTimeout p) s = .next t ∧ getLink t p = { k with downAt := none, held := [] } ∧ (fn.port = p → (getFn t fn).en = false))
    ∧ (k.failed = true → k.released = true → k.perst = false → k.cableHold = false → exec (.hostPortRetrain p true) s = .next (updLink { s with draws := s.draws + 1 } p (fun k => { k with up := true, failed := false, gen := some g })))
    ∧ (exec (.hostPortRetrain p false) s = .next s)
    ∧ (k.released = true → k.perst = false → k.up = false → k.cableHold = false → k.downAt = none → k.failed = false →
        exec (.hostLinkTrained p true) s = .next (updLink { s with draws := s.draws + 1 } p (fun k => { k with up := true, failed := false, gen := some g }))
        ∧ exec (.hostLinkTrained p false) s = .next (raiseM (updLink s p (fun k => { k with failed := true })) sevError 0x0703 (portIx p)))
    ∧ (firmwareUp s = true →
        exec (.cableInsert (portIx p) true true) s = .next (updLink s p (fun k => { k with cableHold := false }))
        ∧ (∀ x y, (x && y) = false → exec (.cableInsert (portIx p) x y) s = .next (raiseM (updLink s p (fun k => { k with cableHold := true, up := false })) sevWarn 0x0703 (portIx p)))
        ∧ (∀ z, z < 4 → exec (.cableInsert (z + 2) true true) s = .next (updZ s z (fun Z => { Z with failed := false }))
            ∧ exec (.cableInsert (z + 2) false true) s = .next (raiseM (updZ s z (fun Z => { Z with failed := true, up := false })) sevWarn 0x0705 z)))

/-! ## Heat, caps, domains, time base (12 R364, R368 to R387, R433; 08 R240; 01 R30) -/

/-- 12 R377, R379, R380, R382, R384, R387, R433: a sample gives the sensors their readings; the model moves every estimate by the recursion with the powers measured, and a field enters the tier its forecast and readings reach; the coolant stop ends after 10 s of calm; a thermal drain of 100 ms pauses what is left into the cistern; a hold is released after 10 s of cool fields; the coolant kind is set by 1 or 2 and nothing else. Where the rules are silent the statement follows the model's choices: log 18, exact figures; 22; 38. -/
def Obligations.Heat : Prop :=
  ∀ (n f : Nat) (s : State) (p : Partition) (P : Plant), n < 16 → f < 100 → P = s.plant →
    (∀ xs r, s.boot.rails = true → r.fields = [(f, xs)] → ∃ t, exec (.sensorSample r) s = .next t ∧ (∀ i, i < 6 → (sensorAt (getF t f) i).reading = xs.getD i (sensorAt (getF s f) i).reading)
        ∧ tget 240 t.plant.coolant 0 = r.inlets.getD 0 (tget 240 P.coolant 0) ∧ tget 240 t.plant.coolant 3 = r.outlets.getD 1 (tget 240 P.coolant 3))
    ∧ (∀ r, readingsOk r = true → s.boot.rails = false → exec (.sensorSample r) s = .next (settle s))
    ∧ (∀ u, P.stopSince = some u → P.stop = true → u + 10000000000 ≤ nowNs s → exec .coolantStopClear s = .next { s with plant := { P with stop := false, stopSince := none } })
    ∧ (P.stopSince = none → exec .coolantStopClear s = .next s)
    ∧ (s.boot.rails = true → ∃ t, exec .thermalModelUpdate s = .next t ∧ (getF t f).power = Config.fieldPower f (nowNs s)
        ∧ (∀ i, i < 6 → (sensorAt (getF t f) i).est = modelStep s (coolantMean s) (fun g => ((getF t g).power : Rat) / 1000) f i (sensorAt (getF s f) i).est)
        ∧ ((getF s f).tier < tierOf (getF t f) → (getF t f).tier = tierOf (getF t f)))
    ∧ (∀ u, getPart s n = some p → p.thermal = some u → p.state = .draining → u + 100000000 ≤ nowNs s → p.cistern = true → cisternOn s = true →
        exec (.thermalDrainTimeout n) s = .next (settle (setPart s n (some (noteIdle (nowNs s) { p with
          reqs := p.reqs.map (fun r => if r.state = .ending then r else { r with state := .ending, endStatus := 0x26, reason := 7, hit := 0, pauseTtl := 3600 }) })))))
    ∧ (getPart s n = some p → p.thermal = none → exec (.thermalDrainTimeout n) s = .next (settle s))
    ∧ (getPart s n = some p → p.hold = true → p.state = .loaded → s.sec.restarting = false → darkFields s p = [] → notReady s p = false → p.wset.status = .complete →
        ∃ t q, exec (.thermalHoldRelease n) s = .next t ∧ getPart t n = some q ∧ q.state = .serving ∧ q.hold = false)
    ∧ (getPart s n = some p → p.hold = false → exec (.thermalHoldRelease n) s = .next s)
    ∧ exec (.coolantKind 1) s = .next { s with plant := { P with pg25 := false } }
    ∧ exec (.coolantKind 2) s = .next { s with plant := { P with pg25 := true } }
    ∧ (∀ v, v ≠ 1 → v ≠ 2 → exec (.coolantKind v) s = .next s)

/-- 12 R364, R368 to R371, R374 to R376, R385, R386; 08 R240; 01 R30: cap factors, from the next boundary of a running partition, and power windows move its step time; the flow estimate is the mean of ten figures, a better band is taken after 10 s; a path's first figure is its baseline and one without a reading makes its quadrant bad; a ramp starts in its turn with 4 A of headroom, waits 1 ms without, and ends with the domain on; domains kept on for work go off after it; the core voltage moves by 25 mV at most; a broadcast carries the count of the time base to every stop of the rim channel. Where the rules are silent the statement follows the model's choices: log 18, exact figures; 38, 52. -/
def Obligations.CapsAndDomains : Prop :=
  ∀ (n f l : Nat) (s : State) (p : Partition) (F : Field) (P : Plant), n < 16 → f < 100 → l < 1600 → F = getF s f → P = s.plant →
    (getPart s n = some p → ∃ t, exec .capFactorUpdate s = .next t ∧ { t with parts := s.parts } = s
        ∧ getPart t n = some (if p.running then { p with fPNext := some (capFactor s p) }
            else { p with fP := capFactor s p, fPNext := none, stepTime := stepFor { p with fP := capFactor s p, fPNext := none } }))
    ∧ (∀ mw : Nat, getPart s n = some p → p.running = true → effShare p < (mw : Rat) → p.stepTime ≠ 20000 →
        exec (.powerWindow n mw) s = .next (setPart s n (some { p with power := mw, mult := keep20 (p.mult * 105 / 100) })))
    ∧ (∀ mw : Nat, getPart s n = some p → p.running = true → (mw : Rat) < effShare p * 9 / 10 →
        exec (.powerWindow n mw) s = .next (setPart s n (some { p with power := mw, mult := keep20 (max 1 (p.mult * 100 / 105)) })))
    ∧ (∀ (pin pcis : Nat) (out inn : Int) (xs : List Rat), coolMax s 2 = some out → coolMin s 0 = some inn → (150 : Rat) ≤ ((pin : Rat) - pcis) / 1000 →
        xs = (min (10 : Rat) (60 * (((pin : Rat) - pcis) / 1000) / (coolantCv s * max (1 / 2) (((out - inn : Int) : Rat) / 8))) :: P.flowSamples).take 10 →
        ∃ t, exec (.flowEstimateUpdate pin pcis) s = .next t ∧ t.plant.flowSamples = xs ∧ t.plant.flow = keep20 (ratSum xs / (xs.length : Nat)) ∧ t.plant.pin = pin ∧ t.plant.pcis = pcis ∧ P.band ≤ t.plant.band)
    ∧ (∀ pin pcis : Nat, ((pin : Rat) - pcis) / 1000 < 150 → exec (.flowEstimateUpdate pin pcis) s = .next { s with plant := { P with pin := pin, pcis := pcis } })
    ∧ (∀ u, P.bandSince = some u → 0 < P.band → u + 10000000000 ≤ nowNs s → exec .flowBandRaise s = .next { s with plant := { P with band := P.band - 1, bandSince := none } })
    ∧ (∀ (r mA : Nat) (x : Rat), s.boot.ready = true → 2000 ≤ mA → tget 0 F.baseline 0 = 0 → tget [] F.sense 0 = [] → x = keep20 ((r : Rat) / (1 + (39 : Rat) / 10000 * (meanTemp f F - 45))) → 0 < x →
        exec (.pathResistanceSample f [some r] mA) s = .next (setF s f { F with sense := tset [] F.sense 0 [x], baseline := tset 0 F.baseline 0 x }))
    ∧ (∀ mA, s.boot.ready = true → ∃ t, exec (.pathResistanceSample f [none] mA) s = .next t ∧ (getF t f).senseBad.contains 0 = true)
    ∧ (∀ r rest core ana, F.ramps = r :: rest → rampTurn s f = true → 4000 ≤ core → 4000 ≤ ana → exec (.domainRampStart f core ana) s = .next (setF s f { F with ramps := rest, ramping := some r, slowRamp := false }))
    ∧ (∀ r rest core ana, F.ramps = r :: rest → rampTurn s f = true → (core < 4000 ∨ ana < 4000) → r.delayed = false →
        exec (.domainRampStart f core ana) s = .next (countF (setF s f { F with ramps := { r with delayed := true, since := nowNs s } :: rest }) f 0x47 1))
    ∧ (∀ r rest, F.ramps = r :: rest → rampTurn s f = true → r.delayed = true → r.since + 1000000 ≤ nowNs s →
        exec (.rampHeadroomTimeout f) s = .next (setF s f { F with ramps := rest, ramping := some r, slowRamp := true }))
    ∧ (∀ r b, F.ramping = some r → r.bank = some b → exec (.domainRampDone f) s = .next (settle (updBank (setF s f { F with ramping := none, slowRamp := false }) r.lantern b (fun B => { B with on := true }))))
    ∧ (∀ r, F.ramping = some r → r.bank = none → partOf s r.lantern = none → exec (.domainRampDone f) s = .next (settle (updL (setF s f { F with ramping := none, slowRamp := false }) r.lantern (fun L =>
        { L with on := true, timeOk := false, banks := (List.range 32).foldl (fun m b => tupd {} m b (fun B => { B with on := true })) L.banks }))))
    ∧ (F.ramping = none → exec (.domainRampDone f) s = .next (settle s))
    ∧ ((getL s l).on = true → exec (.lanternTimeAcquired l) s = .next (updL s l (fun L => { L with timeOk := true })))
    ∧ (F.work = [l] → workOn s l = false → idleDomain s l = true → exec (.domainOffAfterWork f) s = .next (switchOff s l))
    ∧ (F.work = [l] → workOn s l = true → exec (.domainOffAfterWork f) s = .next s)
    ∧ (s.boot.rails = true → exec (.vcoreVoltageStep f) s = .next (setF s f { F with vcore := if F.vcore < coreSet s f then min (coreSet s f) (F.vcore + 25) else max (coreSet s f) (F.vcore - 25) }))
    ∧ (∃ t, exec .timeBaseBroadcast s = .next t ∧ t = { s with rim := t.rim } ∧ ∀ k, k < 40 → (tget {} t.rim k).got = some (tileS2, .time s.now))
/-! ## Bring-up (10 R300 to R306; 11 R331 to R342) -/

/-- 10 R300, R304 to R306; 11 R331 to R342 and Table 11-1: VAON starts the ROM and the time base at 0; the self-test gives the UDS, and its failure is SECURITY and FATAL 0x0505; firmware starts from an acceptable slot, and with none only a firmware update is served; its measurement releases the host ports; the rows of the table then end one by one, bad channels, routers, islands and voted lanterns marked, the route tables locked, an array whose retention signature has moved by more than 3 emptied; READY rises once every row has ended. Where the rules are silent the statement follows the model's choices: log 9, the firmware as shipped; 35, 50, 53. -/
def Obligations.BringUp : Prop :=
  ∀ (s : State) (B : Boot) (X : Security), B = s.boot → X = s.sec →
    (B.rails = true → B.vaon = false → exec .vaonGood s = .next { s with now := 0, boot := { B with vaon := true }, sec := { X with rom := true } })
    ∧ (B.rails = false → exec .vaonGood s = .next s)
    ∧ (X.rom = true → X.uds = false → X.error = false → X.retired = false → exec (.romSelftestDone true) s = .next { s with sec := { X with uds := true } })
    ∧ (X.rom = true → X.uds = false → X.error = false → X.retired = true → exec (.romSelftestDone true) s = .next s)
    ∧ (X.rom = true → X.uds = false → X.error = false → exec (.romSelftestDone false) s =
        .next (raiseEv (raiseEv { s with sec := { X with error := true } } sevSecurity 0x0505 partModule srcLamplighter 0 0) sevFatal 0x0505 partModule srcLamplighter 0 0))
    ∧ (∀ b, X.uds = true → X.fw = false → X.error = false → X.pldmOnly = false → bootSlot s 1 = some b → ∃ t, exec .lamplighterFwStart s = .next t ∧ t.sec.fw = true ∧ (fwKind t 1).runB = b
        ∧ t.sec.aliasGen = X.aliasGen + 1 ∧ t.sec.cisternKey = X.draws + 1 ∧ t.sec.draws = X.draws + 1)
    ∧ (X.uds = true → X.fw = false → X.error = false → X.pldmOnly = false → bootSlot s 1 = none → exec .lamplighterFwStart s =
        .next (raiseEv { s with sec := { X with pldmOnly := true } } sevFatal 0x0707 partModule srcLamplighter 0 1))
    ∧ (∀ a b, X.fw = true → X.error = false → B.measured = false → X.pldmOnly = false → (∀ k, k ∈ [2, 3, 4, 5] → (bootSlot s k).isSome = true) → ∃ t, exec (.firmwareMeasured a b) s = .next t ∧ t.boot.measured = true ∧ t.boot.released = true
        ∧ t.boot.aUp = a ∧ t.boot.bUp = b ∧ t.sec.otpLocked = true ∧ (getLink t .a).released = true ∧ (getLink t .b).released = true)
    ∧ (∀ c, firmwareUp s = true → B.cisternDone = false → c < 12 → ∃ t, exec (.cisternTrainingDone [c]) s = .next t ∧ t.boot.cisternDone = true ∧ t.badChannels.contains c = true)
    ∧ (firmwareUp s = true → B.cisternDone = false → exec (.cisternTrainingDone []) s = .next { s with boot := { B with cisternDone := true } })
    ∧ (firmwareUp s = true → B.calDone = false → s.cal = [] → exec .calibrationReconcile s =
        .next { s with boot := { B with calDone := true }, repair := bestRepair s.repair s.repair2, repair2 := bestRepair s.repair s.repair2 })
    ∧ (∀ k r b, firmwareUp s = true → B.calDone = false → s.cal = [(k, r)] → bestCopy k r = some b → ∃ t, exec .calibrationReconcile s = .next t ∧ t.boot.calDone = true ∧ calRec t k = ⟨b, b, b, b, none⟩)
    ∧ (∀ r f, firmwareUp s = true → B.selfTest = false → r < 1600 → f < 100 → ∃ t, exec (.fieldSelfTestDone [r] [f]) s = .next t ∧ t.boot.selfTest = true ∧ t.badRouters.contains r = true ∧ (getF t f).islandBad = true)
    ∧ (∀ v w l, B.selfTest = true → B.neighbour = false → l < 1600 → v < 1640 → w < 1640 → isVoter v l = true → isVoter w l = true → v ≠ w → (∀ x, x ∈ [v, w, l] → ¬ s.badLanterns.contains x ∧ ¬ s.badRouters.contains x) →
        ∃ t, exec (.neighbourTestDone [(v, l), (w, l)]) s = .next t ∧ t.boot.neighbour = true ∧ t.badLanterns.contains l = true)
    ∧ (B.neighbour = true → B.repairDone = false → ∃ t, exec .repairMapApply s = .next t ∧ t.boot.repairDone = true ∧ t.spares = s.sparesNext ∧ t.slotSpares = s.sparesNext
        ∧ t.sec.routesLocked = true ∧ (∀ f, f < 100 → (getF t f).mapMade = true) ∧ (s.sparesNext ≠ s.slotSpares → t.dormant = []))
    ∧ (B.repairDone = true → B.retention = false → retentionArrays s = [] → exec (.retentionCheckDone ()) s = .next { s with boot := { B with retention := true } })
    ∧ (∀ e, e ∈ retentionArrays s → (getL s e.1).on = false → exec (.retentionCheckDone ()) s = .next s)
    ∧ (∀ l a c d, B.repairDone = true → B.retention = false → retentionArrays s = [(l, a)] → (getL s l).on = true → (getArr (getL s l) a).programmed = true → (getArr (getL s l) a).bad = false →
        c = checkDrift l a s → d = min 255 (sigDistance (getArr (getL c l) a).sig (signature c l a (getArr (getL c l) a).drift).1) →
        ∃ t, exec (.retentionCheckDone ()) s = .next t ∧ t.boot.retention = true ∧ (getArr (getL t l) a).sigDiff = d ∧ (getArr (getL t l) a).programmed = decide (d ≤ 3))
    ∧ (B.retention = true → exec .dormantRecordCheck s = .next { s with boot := { B with dormantDone := true } })
    ∧ (firmwareUp s = true → B.cisternDone = true → B.calDone = true → B.dormantDone = true → B.downAt = none → B.pwrEn = true → exec .readyAssert s = .next { s with boot := { B with ready := true } })
    ∧ (B.dormantDone = false → exec .readyAssert s = .next s)

/-! ## SPDM, the management bus and JTAG (10 R300, R307 to R310, R326 to R328; 13 R401; 14 R422) -/

/-- 10 R300, R307, R308, R328, Table 10-2; 13 R401; 14 R422: each SPDM request is answered while the Lamplighter serves: versions, capabilities, algorithms, digests, certificates, signed answers, sessions; a request that no rule lists with UnsupportedRequest, as all but the version of a VF bound to no partition, and every one with UnexpectedRequest in the error state; a retired module signs nothing. The error code where a session is not there, a slot is empty or the module is retired is the model's (log 26). A dynamic address is taken while none is held, RSTDAA gives it up; PLDM acknowledges alert bits, but not while the module serves a firmware update only; JTAG instructions select their register, a locked debug one BYPASS. -/
def Obligations.SpdmAndSideband : Prop :=
  ∀ (ep : SpdmEp) (k n : Nat) (nonce : BitVec 256) (s : State) (X : Security), X = s.sec →
    (epOk ep = true → spdmServed s ep = true → (X.error = false →
      exec (.spdmGetVersion ep) s = .next (answer ep .version s) ∧ exec (.spdmUnsupportedRequest ep n) s = .next (answer ep .unsupportedRequest s))
    ∧ (X.error = true → ∀ c, c ∈ [Instr.spdmGetVersion ep, .spdmGetCapabilities ep, .spdmNegotiateAlgorithms ep, .spdmGetDigests ep, .spdmGetCertificate ep n, .spdmChallenge ep n nonce,
        .spdmGetMeasurements ep n true, .spdmGetMeasurements ep n false, .spdmKeyExchange ep n, .spdmFinish ep k true, .spdmFinish ep k false, .spdmHeartbeat ep k, .spdmKeyUpdate ep k,
        .spdmEndSession ep k, .spdmUnsupportedRequest ep n] → exec c s = .next (answer ep .unexpectedRequest s))
    ∧ (X.error = false → epUnbound s ep = true → ∀ c, c ∈ [Instr.spdmGetCapabilities ep, .spdmNegotiateAlgorithms ep, .spdmGetDigests ep, .spdmGetCertificate ep n, .spdmChallenge ep n nonce,
        .spdmGetMeasurements ep n true, .spdmKeyExchange ep n, .spdmFinish ep k true, .spdmHeartbeat ep k, .spdmKeyUpdate ep k, .spdmEndSession ep k] →
        exec c s = .next (answer ep .unsupportedRequest s))
    ∧ (X.error = false → epUnbound s ep = false →
      exec (.spdmGetCapabilities ep) s = .next (answer ep .capabilities s)
      ∧ exec (.spdmNegotiateAlgorithms ep) s = .next (answer ep .algorithms s)
      ∧ exec (.spdmGetDigests ep) s = .next (answer ep (.digests (Config.sha384 (Config.aliasChain X.cdi))) s)
      ∧ exec (.spdmGetCertificate ep n) s = .next (answer ep (if n = 0 then .certificate 0 X.aliasGen else .otherError) s)
      ∧ (hasSession s ep k false = true →
          exec (.spdmFinish ep k true) s = .next (answer ep .finish (updSession k (fun x => { x with established := true }) s))
          ∧ exec (.spdmFinish ep k false) s = .next (answer ep .otherError (endSession k s)))
      ∧ (hasSession s ep k true = true →
          exec (.spdmHeartbeat ep k) s = .next (answer ep .heartbeat s)
          ∧ exec (.spdmKeyUpdate ep k) s = .next (answer ep .keyUpdate (updSession k (fun x => { x with keyGen := x.keyGen + 1 }) s))
          ∧ exec (.spdmEndSession ep k) s = .next (answer ep .endSession (endSession k s)))
      ∧ (hasSession s ep k true = false → ∀ c, c ∈ [Instr.spdmHeartbeat ep k, .spdmKeyUpdate ep k, .spdmEndSession ep k] → exec c s = .next (answer ep .otherError s))
      ∧ (X.retired = false →
          exec (.spdmChallenge ep n nonce) s = .next (if n = 0 then answer ep (.challengeAuth (aliasSig s nonce)) { s with sec := { X with draws := X.draws + 1 } } else answer ep .otherError s)
          ∧ exec (.spdmGetMeasurements ep 255 true) s = .next (answer ep (.measurements (measureBlocks s (epScope s ep)) (some (aliasSig s 0))) { s with sec := { X with draws := X.draws + 1 } })
          ∧ exec (.spdmGetMeasurements ep 0 false) s = .next (answer ep (.measurements [(0, bytesOfNat 1 (measureBlocks s (epScope s ep)).length)] none) s)
          ∧ ∃ id t, exec (.spdmKeyExchange ep n) s = .next (answer ep (.keyExchange id) t) ∧ id / 65536 = n % 65536
              ∧ t = { s with sec := { X with draws := X.draws + 1, sessions := X.sessions.filter (fun x => x.id != id) ++ [⟨id, ep, false, 0⟩] } })
      ∧ (X.retired = true → ∀ c, c ∈ [Instr.spdmChallenge ep n nonce, .spdmGetMeasurements ep n true, .spdmGetMeasurements ep n false, .spdmKeyExchange ep n] → exec c s = .next (answer ep .otherError s))))
    ∧ (∀ a, s.boot.vaon = true → s.mgmt.addr = none → exec (.dynamicAddressAssign a) s = .next (flushMgmt { s with mgmt := { s.mgmt with addr := some a } }))
    ∧ (∀ a b, s.mgmt.addr = some b → exec (.dynamicAddressAssign a) s = .next s)
    ∧ exec .rstdaa s = .next { s with mgmt := { s.mgmt with addr := none } }
    ∧ (∀ m, s.sec.fw = true → s.sec.pldmOnly = false → ∃ t, exec (.pldmEventAck m) s = .next t ∧ { t with funcs := s.funcs } = s
        ∧ (∀ p : HostPort, getFn t ⟨p, 0⟩ = { getFn s ⟨p, 0⟩ with alert := (getFn s ⟨p, 0⟩).alert &&& ~~~(m.setWidth 3) })
        ∧ (∀ fn : Fn, fn.num ≤ 16 → fn.num ≠ 0 → getFn t fn = getFn s fn))
    ∧ exec (.jtagInstruction .idcode) s = .next { s with sec := { X with jtagSel := 1 } }
    ∧ exec (.jtagInstruction .bypass) s = .next { s with sec := { X with jtagSel := 2 } }
    ∧ (∀ m, s.sec.fw = false ∨ s.sec.pldmOnly = true → exec (.pldmEventAck m) s = .next s)
    ∧ (X.jtag = false → ∀ x, exec (.jtagInstruction (.debug x)) s = .next { s with sec := { X with jtagSel := 2 } })

/-! ## Firmware (10 R302 to R305; 11 R355 to R359; 12 R388) -/

/-- 10 R303 to R305; 11 R355 to R359 and Table 11-10; 12 R388: STAGE puts an authentic image of a sufficient version into the inactive slot; ACTIVATE changes the image of targets not in use: the Lamplighter restarts without its sessions, module firmware hands over under HOLD, a port's or tile's function changes, the plate goes phase by phase, microcode changes with the epoch and writes the program stores; COMMIT marks the slot active and raises the counter once every target runs it; REVERT takes targets back; an update under way, nothing staged or a busy target is WRONG_STATE; MICROCODE_UPDATE changes one partition's microcode. Where the rules are silent the statement follows the model's choices: log 33, 53. -/
def Obligations.FirmwareUpdate : Prop :=
  ∀ (e : Entry) (q : Qp) (s F : State) (kind act tg : Nat) (K : FwKind), Fetches e q s → F = fetched e q s → kind = pf e 20 1 → act = pf e 21 1 → tg = pf e 22 1 → K = fwKind s kind →
    (isPf e = true → Clean e false [(20, 3)] → 1 ≤ kind → kind ≤ 5 → act ≤ 3 → targetBad kind tg = false → (act = 0 → 5124 ≤ dlenOf e) → (act ≠ 0 → dlenOf e = 0) →
      (s.sec.updating = true → exec (.fwUpdate e) s = .next (answered e q 0x07 0 0 F))
      ∧ (s.sec.updating = false →
        (∀ d im, act = 0 → e.data = some d → im = padTo (dlenOf e) d → lowest (imageFaults (some kind) im) = none → exec (.fwUpdate e) s = .next (
          if imageAuthentic s im = false then answered e q 0x13 0 0 F
          else if imageSvn im < counterAt s (kind - 1) then answered e q 0x03 0 0 F
          else if K.runB = (!K.activeB) ∨ targetsDone s kind ≠ [] then answered e q 0x07 0 0 F
          else answered e q 0 (fwResult (!K.activeB) (targetsLeft s kind).length) 0 (setKind F kind { putSlot K (!K.activeB) (slotOfImage im) with staged := true })))
        ∧ (act = 1 ∨ act = 2 → K.staged = false → exec (.fwUpdate e) s = .next (answered e q 0x07 0 0 F))
        ∧ (act = 1 → kind = 1 → K.staged = true → K.activated = [] → loadOpen s = false →
            exec (.fwUpdate e) s = .next (awaited e q .lamplighterFw { F with sec := { s.sec with restarting := true, updating := true, sessions := [] } }))
        ∧ (∀ U, act = 1 → kind = 2 → K.staged = true → K.activated = [] → s.boot.aUp = true → s.boot.bUp = true →
            U = setKind { F with boot := { s.boot with hold := true, holdAt := nowNs s, bActive := !s.boot.bActive } } 2 { K with activated := [0], runB := !K.activeB } →
            exec (.fwUpdate e) s = .next (answered e q 0 (fwResult (!K.activeB) 0) 0 U))
        ∧ (∀ U, act = 1 → kind = 3 → tg ≠ 255 → K.staged = true → tg ∉ K.activated → rimBusy s tg = false → U = flipTarget 3 tg (rimSwitch tg F) →
            exec (.fwUpdate e) s = .next (answered e q 0 (resultNow U 3) 0 U) ∧ onNew U 3 tg = true)
        ∧ (act = 1 → kind = 3 → tg ≠ 255 → K.staged = true → tg ∉ K.activated → rimBusy s tg = true → exec (.fwUpdate e) s = .next (answered e q 0x07 0 0 F))
        ∧ (∀ W, act = 1 → kind = 4 → tg ≠ 255 → K.staged = true → tg ∉ K.activated → groupOut s tg = 0 → s.plant.phaseUpd = 0 → W = waitFor e (nextHead q) .plateFw F →
            exec (.fwUpdate e) s = .next (settle { W with sec := { s.sec with plate := some (tg, 0, []), updating := true }, plant := { s.plant with phaseUpd := tg + 1 } }))
        ∧ (act = 1 → kind = 5 → K.staged = true → (∀ x, x ∈ allParts s → getPart s x.1 = some x.2 ∧ idleState x.2.state = true) →
            ∃ U, exec (.fwUpdate e) s = .next (answered e q 0 (resultNow U 5) 0 U)
              ∧ U = forEach (targetsLeft s 5) (fun n s => rewriteStores n (updPart s n (fun p => { p with micro := some (!K.activeB), epoch := min 0xFFFFFFFF (p.epoch + 1) }))) F)
        ∧ (act = 2 → kind ≠ 5 → K.staged = true → (∀ t, t ∈ fwTargets kind → t ∈ K.activated) →
            exec (.fwUpdate e) s = .next (answered e q 0 (fwResult (!K.activeB) 0) 0 (let U := setKind F kind { K with activeB := !K.activeB, runB := !K.activeB, staged := false, activated := [] }
              { U with sec := { U.sec with counters := tset 0 U.sec.counters (kind - 1) (max (counterAt s (kind - 1)) (if K.activeB then K.a.svn else K.b.svn)) } })))
        ∧ (∀ t, act = 2 → K.staged = true → t ∈ targetsLeft s kind → exec (.fwUpdate e) s = .next (answered e q 0x07 0 0 F))
        ∧ (∀ t U, act = 3 → kind = 3 → K.staged = true → K.activated = [t] → t < 19 → rimBusy s t = false → U = flipTarget 3 t (rimSwitch t F) →
            exec (.fwUpdate e) s = .next (answered e q 0 (resultNow U 3) 0 U) ∧ onNew U 3 t = false)
        ∧ (act = 3 → K.staged = false → (if K.activeB then K.a.present else K.b.present) = false → exec (.fwUpdate e) s = .next (answered e q 0x07 0 0 F))))
    ∧ (∀ n p, isPf e = true → n = partNo e → n < 16 → getPart s n = some p → idleState p.state = true → Clean e true [(20, 1)] → dlenOf e = 0 → s.sec.updating = false → (fwKind s 5).staged = true →
        (kind = 0 → exec (.microcodeUpdate e) s = .next (answered e q 0 0 0 (rewriteStores n (setPart F n (some { p with micro := some (!(fwKind s 5).activeB), epoch := min 0xFFFFFFFF (p.epoch + 1) })))))
        ∧ (kind = 1 → exec (.microcodeUpdate e) s = .next (answered e q 0 0 0 (rewriteStores n (setPart F n (some { p with micro := some (fwKind s 5).activeB }))))))
    ∧ (∀ g ph rest, s.sec.plate = some (g, ph, rest) →
        (ph < 5 → exec (.phaseUpdateDone true) s = .next (settle { s with sec := { s.sec with plate := some (g, ph + 1, rest) } }))
        ∧ (5 ≤ ph → exec (.phaseUpdateDone true) s = .next (settle (nextGroup rest (flipTarget 4 g s))))
        ∧ (∃ t, exec (.phaseUpdateDone false) s = .next (settle (nextGroup rest t))
            ∧ t = raiseM { s with plant := { s.plant with phasesOut := tset 0 s.plant.phasesOut g (tget 0 s.plant.phasesOut g + 1) } } sevWarn 0x0602 g))
    ∧ (∀ im n, s.sec.pldmOnly = true → s.mgmt.addr.isSome = true → lowest (imageFaults none im) = none → n = fieldAt im 6 1 →
        exec (.pldmFirmwareUpdate im) s = .next (if imageAuthentic s im = true ∧ counterAt s (n - 1) ≤ imageSvn im then
          setKind s n { putSlot (fwKind s n) (!(fwKind s n).activeB) (slotOfImage im) with staged := true } else s))
    ∧ (∀ im, s.sec.pldmOnly = false → exec (.pldmFirmwareUpdate im) s = .next s)

/-! ## Commands turned away (09 R261 to R266, R271, R272, R275; 11 R357) -/

/-- 09 R261, R264, R266, R271, R272, R275 and Tables 9-3, 9-5, 9-7; 11 R357: a command is taken only when its queue holds it, module firmware may fetch and the queue's turn has come; commands that need the Lamplighter wait while it restarts, the round of visits going on; an opcode that Table 9-5 does not list is INVALID_OPCODE; a command from a function that may not issue it is PERMISSION, PART beyond 15 is INVALID_FIELD at byte 4, a partition that does not exist or is in no state for the command is WRONG_STATE; nothing else changes. Where the rules are silent the statement follows the model's choices: log 27, the order of the checks; 32, 55. -/
def Obligations.CommandsTurnedAway : Prop :=
  ∀ (e : Entry) (op : Byte) (s : State),
    (entryOk e = true → canTake s e = false → ∀ c, c ∈ [Instr.identify e, .qpCreate e, .ringForm e, .partSet e, .partQuery e, .submit e, .cancel e, .weightClose e, .zeroise e, .telemetryRead e,
        .counterSelect e, .driftComp e, .fwUpdate e, .partCreate e, .unassignedOpcode e op] → exec c s = .next (settle s))
    ∧ (entryOk e = true → s.sec.restarting = true → ∀ c, c ∈ [Instr.partCreate e, .partDelete e, .programLoad e, .exportCtx e, .importCtx e, .weightOpen e, .weightChunk e, .adapterLoad e, .debugUnlock e] →
        exec c s = .next (settle (if canTake s e then { s with visit := queueKey e.fn e.sqid } else s)))
    ∧ (∀ q F, Fetches e q s → F = fetched e q s →
      (opcodeAssigned op.toNat = false → exec (.unassignedOpcode e op) s = .next (answered e q 0x01 0 0 F))
      ∧ (opcodeAssigned op.toNat = true → exec (.unassignedOpcode e op) s = .next (settle s))
      ∧ (isPf e = false → ∀ c, c ∈ [Instr.ringForm e, .ringMode e, .partSet e, .setSpares e, .recalibrate e, .eraseWeights e, .zeroise e, .fwUpdate e, .microcodeUpdate e] →
          exec c s = .next (answered e q 0x03 0 0 F))
      ∧ (isPf e = false → s.sec.restarting = false → ∀ c, c ∈ [Instr.partCreate e, .partDelete e, .debugUnlock e] → exec c s = .next (answered e q 0x03 0 0 F))
      ∧ (isPf e = false → isBound s e = false → ∀ c, c ∈ [Instr.partDrain e, .partQuery e, .weightClose e, .weightStatus e, .monitorSet e, .driftComp e, .refreshSet e, .refreshWindow e, .adapterRelease e] →
          exec c s = .next (answered e q 0x03 0 0 F))
      ∧ (isPf e = false → isBound s e = false → s.sec.restarting = false → ∀ c, c ∈ [Instr.programLoad e, .weightOpen e, .weightChunk e, .adapterLoad e] → exec c s = .next (answered e q 0x03 0 0 F))
      ∧ (isBound s e = false → ∀ c, c ∈ [Instr.submit e, .cancel e, .reqQuery e, .pause e, .discard e, .setTtl e] → exec c s = .next (answered e q 0x03 0 0 F))
      ∧ (isBound s e = false → s.sec.restarting = false → ∀ c, c ∈ [Instr.exportCtx e, .importCtx e] → exec c s = .next (answered e q 0x03 0 0 F))
      ∧ (isPf e = true → 16 ≤ partNo e → ∀ c, c ∈ [Instr.partSet e, .partDrain e, .partQuery e, .weightClose e, .weightStatus e, .monitorSet e, .driftComp e, .refreshSet e, .refreshWindow e,
          .adapterRelease e, .microcodeUpdate e] → exec c s = .next (answered e q 0x02 0 4 F))
      ∧ (isPf e = true → partNo e < 16 → getPart s (partNo e) = none → ∀ c, c ∈ [Instr.partSet e, .partStart e, .partDrain e, .partQuery e, .weightClose e, .weightStatus e, .monitorSet e, .driftComp e,
          .refreshSet e, .refreshWindow e, .adapterRelease e, .microcodeUpdate e] → exec c s = .next (answered e q 0x07 0 0 F))
      ∧ (∀ p, isPf e = true → partNo e < 16 → getPart s (partNo e) = some p → p.state = .faulted → ∀ c, c ∈ [Instr.partSet e, .partStart e, .partDrain e, .weightClose e, .monitorSet e, .driftComp e,
          .refreshSet e, .refreshWindow e, .adapterRelease e, .microcodeUpdate e] → exec c s = .next (answered e q 0x07 0 0 F))
      ∧ (∀ p, isBound s e = true → partNo e < 16 → getPart s (partNo e) = some p → p.state = .loaded → ∀ c, c ∈ [Instr.submit e, .cancel e, .pause e, .reqQuery e] → exec c s = .next (answered e q 0x07 0 0 F)))

/-! ## Commands on the module (01 R18; 08 R259; 09 R263, R273; 13 R391, R397, R407 to R409) -/

/-- 01 R18; 08 R259; 09 R263, R273; 11 R360; 13 R391, R397, R407 to R409: IDENTIFY, TELEMETRY_READ and PART_QUERY write what they read into the command's buffer, a buffer too short for an item being INVALID_FIELD with the size the item needs, as is a PART of no partition that is not 0xFF; QP_CREATE makes an empty queue pair with phase 1, or is DUPLICATE; QP_DELETE discards what is not fetched and completes once nothing of the queue is in progress; RING_FORM starts a formation; RING_MODE, SET_SPARES and EVENT_RING_SET set what they name; COUNTER_SELECT gives a counter its source at once, or at the next boundary of its partition; RECALIBRATE of the lanterns outside every partition takes the next SETID, and waits for those whose domain is off. Where the rules are silent the statement follows the model's choices: log 27, the order of the checks; 41. -/
def Obligations.ModuleCommands : Prop :=
  ∀ (e : Entry) (q : Qp) (s F : State), Fetches e q s → F = fetched e q s →
    (Clean e true [(20, 1)] → dlenOf e = 4096 →
      (pf e 20 1 = 0 → partFree e = false → exec (.identify e) s = .next (answered e q 0 0 0 (writeOut e (padTo 4096 (identifyModule F)) F)))
      ∧ (pf e 20 1 = 1 → partFree e = false → exec (.identify e) s = .next (answered e q 0 0 0 (writeOut e (padTo 4096 (identifyFunction F e.fn)) F)))
      ∧ (∀ p, pf e 20 1 = 2 → isPf e = true ∨ isBound s e = true → partNo e < 16 → getPart s (partNo e) = some p →
          exec (.identify e) s = .next (answered e q 0 0 0 (writeOut e (padTo 4096 (configItem F (partNo e) p)) F))))
    ∧ (3 ≤ pf e 20 1 → partFree e = false → Clean e true [(20, 1)] → dlenOf e = 4096 → exec (.identify e) s = .next (answered e q 0x02 0 20 F))
    ∧ (pf e 20 1 ≠ 2 → partFree e = true → Clean e true [(20, 1)] → dlenOf e = 4096 → exec (.identify e) s = .next (answered e q 0x02 0 4 F))
    ∧ (∀ qid sq cq v, qid = pf e 20 2 → sq = pf e 22 2 → cq = pf e 24 2 → v = pf e 26 1 → Clean e false [(20, 10), (32, 16)] → dlenOf e = 0 → 1 ≤ qid → qid ≤ 63 → 1 ≤ sq → sq ≤ 4095 → 1 ≤ cq → cq ≤ 4095 →
        v = 255 ∨ v ≤ 63 → pf e 32 8 % 4096 = 0 → pf e 40 8 % 4096 = 0 →
        (getQp s e.fn qid = none → exec (.qpCreate e) s = .next (answered e q 0 0 0 (setQp F e.fn qid
          (some ⟨pf e 32 8, sq + 1, 0, 0, pf e 40 8, cq + 1, 0, 0, true, { vector := v, count := pf e 27 1, time := pf e 28 2 }, [], 0, false⟩))))
        ∧ ((getQp s e.fn qid).isSome = true → exec (.qpCreate e) s = .next (answered e q 0x0C 0 0 F)))
    ∧ (∀ qid x, qid = pf e 20 2 → Clean e false [(20, 2)] → dlenOf e = 0 → qid ≤ 63 →
        (getQp F e.fn qid = some x → exec (.qpDelete e) s = .next (awaited e q (.qpDelete qid) (setQp F e.fn qid (some { x with deleting := true, sqTail := x.sqHead }))))
        ∧ (getQp s e.fn qid = none → exec (.qpDelete e) s = .next (answered e q 0x0D 0 0 F)))
    ∧ (isPf e = true → Clean e false [] → dlenOf e = 0 →
        exec (.ringForm e) s = .next (awaited e q .ringForm { F with ring := { s.ring with forming := some (nowNs s), taken := none, formed := false, index := 0, size := 0, lost := none, bypass := false, chain := false, sent := s.ring.sent ++ [(0, 0)] } }))
    ∧ (isPf e = true → Clean e false [(20, 1)] → dlenOf e = 0 →
        (pf e 20 1 ≤ 2 → exec (.ringMode e) s = .next (answered e q 0 0 0 { F with ring := { s.ring with mode := pf e 20 1 } })
          ∧ exec (.setSpares e) s = .next (answered e q 0 0 0 { F with sparesNext := pf e 20 1 }))
        ∧ (3 ≤ pf e 20 1 → exec (.ringMode e) s = .next (answered e q 0x02 0 20 F) ∧ exec (.setSpares e) s = .next (answered e q 0x02 0 20 F)))
    ∧ (∀ item unit bs, item = pf e 20 2 → unit = pf e 22 2 → Clean e true [(20, 4)] → itemListed item = true → itemUnitOk item unit = true → itemPermit s e item unit = true →
        (if item = 0x20 ∨ item = 0x21 then partNo e < 16 else partFree e = false) → itemBytes F e item unit = some bs →
        (bs.length ≤ dlenOf e → exec (.telemetryRead e) s = .next (answered e q 0 (bs.length + bs.length * 2 ^ 32) 0 (writeOut e bs F)))
        ∧ (dlenOf e < bs.length → exec (.telemetryRead e) s = .next (answered e q 0x02 (bs.length * 2 ^ 32) 16 F)))
    ∧ (∀ p, isPf e = true ∨ isBound s e = true → partNo e < 16 → getPart s (partNo e) = some p → Clean e true [] → dlenOf e = 4096 →
        exec (.partQuery e) s = .next (answered e q 0 0 0 (writeOut e (partItem F (partNo e) p) F)))
    ∧ (Clean e false [(20, 16)] → dlenOf e = 0 →
        (∀ v, v = pf e 21 1 → pf e 20 1 = 0 → v = 255 ∨ v ≤ 63 → 6 ≤ pf e 22 1 → pf e 22 1 ≤ 16 → pf e 23 1 ≤ 5 → pf e 24 8 % 4096 = 0 →
          exec (.eventRingSet e) s = .next (answered e q 0 0 0 (drainFn (updFn F e.fn (fun f => { f with
            ring := some ⟨pf e 24 8, pf e 22 1, pf e 23 1, 0, 0, { vector := v, count := pf e 32 2, time := pf e 34 2 }⟩ })) e.fn)))
        ∧ (pf e 20 1 = 1 → exec (.eventRingSet e) s = .next (answered e q 0 0 0 (updFn F e.fn (fun f => { f with ring := none })))))
    ∧ (∀ i u src, i = pf e 21 1 → u = pf e 22 2 → src = pf e 24 1 → isPf e = true → pf e 20 1 = 3 ∨ partFree e = false → Clean e true [(20, 6)] → dlenOf e = 0 → pf e 25 1 ≤ 1 →
        (pf e 20 1 = 0 → i < 8 → u < 1600 → sourceL src = true → partOf s u = none → exec (.counterSelect e) s = .next (answered e q 0 0 0
          (updL F u (fun L => { L with counters := tupd {} L.counters i (fun c => ⟨if pf e 25 1 = 1 then 0 else c.count, src, none⟩) }))))
        ∧ (∀ n p, pf e 20 1 = 0 → i < 8 → u < 1600 → sourceL src = true → partOf s u = some n → getPart s n = some p → p.running = true → exec (.counterSelect e) s = .next (answered e q 0 0 0
          (updL F u (fun L => { L with counters := tupd {} L.counters i (fun c => { c with next := some (src, decide (pf e 25 1 = 1)) }) }))))
        ∧ (pf e 20 1 = 1 → i < 8 → u < 100 → sourceF src = true → partOfField s u = none → exec (.counterSelect e) s = .next (answered e q 0 0 0
          (updF F u (fun T => { T with counters := tupd {} T.counters i (fun c => ⟨if pf e 25 1 = 1 then 0 else c.count, src, none⟩) }))))
        ∧ (pf e 20 1 = 2 → i < 8 → u < 40 → sourceR src = true → exec (.counterSelect e) s = .next (answered e q 0 0 0
          (updT F u (fun T => { T with counters := tupd {} T.counters i (fun c => ⟨if pf e 25 1 = 1 then 0 else c.count, src, none⟩) }))))
        ∧ (∀ p, pf e 20 1 = 3 → i < 64 → u = 0 → (sourceL src || sourceF src) = true → partNo e < 16 → getPart s (partNo e) = some p → p.running = true →
            exec (.counterSelect e) s = .next (answered e q 0 0 0 (setPart F (partNo e) (some { p with counters := tupd {} p.counters i (fun c => { c with next := some (src, decide (pf e 25 1 = 1)) }) })))))
    ∧ (∀ ls dark S, isPf e = true → partNo e = 255 → pf e 20 1 = 0 → Clean e true [(20, 1)] → dlenOf e = 0 → ls = freeLanterns F → dark = ls.filter (fun l => !(getL F l).on) →
        S = forEach (ls.filter (fun l => (getL F l).on)) (recalLantern (nextSetid 3 F)) (takeSetid F) →
        (dark = [] → exec (.recalibrate e) s = .next (answered e q 0 (goodArrays F ls + (s.setSeq + 1) % 2 ^ 24 * 2 ^ 32) 0 S))
        ∧ (dark ≠ [] → exec (.recalibrate e) s = .next (awaited e q (.recal (goodArrays F ls + (s.setSeq + 1) % 2 ^ 24 * 2 ^ 32))
            (forEach dark (fun l s => needForWork { s with recal := s.recal ++ [(l, nextSetid 3 F)] } l) (holdShown F S)))))

/-! ## Commands on partitions (09 R273 to R277; 03 R79, R89, R106, R107; 10 R321; 11 R342, R359, R360; 12 R372, R382) -/

/-- 01 R28; 09 R273, R274, R277, Table 9-6; 12 R372, R382: PART_CREATE makes an EMPTY partition of the parameters with epoch 1, or answers what stands in its way; PART_DELETE takes its requests, contexts and settings away and erases its arrays; PART_SET waits for a boundary of a running partition; PROGRAM_LOAD puts a program that passes its checks in place, and erases a weight set that does not allow it; PART_START serves when the weight set fits and no hold is on, once the program's lanterns are ready; PART_DRAIN drains, cancelling what is in flight when asked. Where the rules are silent the statement follows the model's choices: log 27, the order of the checks; 28, what acts at once; 29, erasure. -/
def Obligations.PartitionCommands : Prop :=
  ∀ (e : Entry) (q : Qp) (s F : State) (n : Nat), Fetches e q s → F = fetched e q s → n = partNo e → n < 16 →
    (isPf e = true → s.sec.restarting = false → createFault e = none →
      (∀ st, createConflict s n (createParams e) = some st → exec (.partCreate e) s = .next (answered e q st 0 0 F))
      ∧ (createConflict s n (createParams e) = none → createRoutes s (createParams e) = false → exec (.partCreate e) s = .next (answered e q 0x06 0 0 F))
      ∧ (createConflict s n (createParams e) = none → createRoutes s (createParams e) = true →
          (6100 < sharesSum s 16 + pf e 44 4 → exec (.partCreate e) s = .next (answered e q 0x09 0 0 F))
          ∧ (sharesSum s 16 + pf e 44 4 ≤ 6100 → s.dormant = [] → ∃ U p, exec (.partCreate e) s = .next (answered e q 0 1 0 U) ∧ getPart U n = some p
              ∧ p = { createParams e with slot := if (pf e 23 1).testBit 0 then (quietSlot s).getD 0 else 0, debug := s.sec.jtag, idleSince := some (nowNs s) }
              ∧ p.state = .empty ∧ p.epoch = 1 ∧ p.fx0 = pf e 20 1 % 16 ∧ p.fy0 = pf e 20 1 / 16 ∧ p.w = pf e 21 1 ∧ p.h = pf e 22 1 ∧ p.window = pf e 36 1 ∧ p.watchdog = pf e 40 4 ∧ p.share = pf e 44 4
              ∧ (∀ m, m ≠ n → getPart U m = getPart s m)
              ∧ (∀ f l, inRect p f = true → f < 100 → l ∈ lanternsIn f → (getL U l).counters = []))))
    ∧ (∀ p, isPf e = true → s.sec.restarting = false → getPart s n = some p → idleState p.state = true → Clean e true [] → dlenOf e = 0 →
        (partArrays F p = [] → s.erasing = [] → exec (.partDelete e) s = .next (answered e q 0 0 0 (removePart n p F)))
        ∧ (partArrays F p ≠ [] → exec (.partDelete e) s = .next (awaited e q (.erase false false 0) (startErase (partArrays F p) (holdShown F (removePart n p F)))))
        ∧ getPart (removePart n p F) n = none)
    ∧ (∀ p v, isPf e = true → v = pf e 24 4 → getPart s n = some p → p.state ≠ .faulted → Clean e true [(20, 1), (24, 4)] → dlenOf e = 0 →
        (pf e 20 1 = 0 → 10 ≤ v → v ≤ 10000 → exec (.partSet e) s = .next (answered e q 0 0 0 (settleIdle n (setPart F n (some { p with watchdogNext := some v })))))
        ∧ (pf e 20 1 = 1 → 1 ≤ v → v ≤ 4 → exec (.partSet e) s = .next (answered e q 0 0 0 (setPart F n (some { p with windowNext := some v }))))
        ∧ (pf e 20 1 = 2 → 50 * (p.w * p.h) ≤ v → v ≤ 6100 → sharesSum s n + v ≤ 6100 → exec (.partSet e) s = .next (answered e q 0 0 0 (settleIdle n (setPart F n (some { p with shareNext := some v })))))
        ∧ (pf e 20 1 = 2 → 50 * (p.w * p.h) ≤ v → v ≤ 6100 → 6100 < sharesSum s n + v → exec (.partSet e) s = .next (answered e q 0x09 0 0 F))
        ∧ (∀ t : State, getPart t n = some p → p.running = true → settleIdle n t = t))
    ∧ (∀ p d im, isPf e = true ∨ isBound s e = true → s.sec.restarting = false → getPart s n = some p → idleState p.state = true → Clean e true [] → e.data = some d → im = padTo (dlenOf e) d →
        exec (.programLoad e) s = .next (match loadCheck F n p im with
          | some (reason, l, i) => answered e q 0x08 (l % 65536 + i % 65536 * 65536) reason F
          | none =>
            if p.wset.allow = [] ∨ imgDigest im ∈ p.wset.allow then let U := commitRec n (installProgram n im) F; answered e q 0 (loadResult U n) 0 U
            else
              let U := commitRec n (installProgram n im) (dropSet n F)
              if partArrays F p = [] then answered e q 0 (loadResult U n) 0 U
              else awaited e q (.erase false false (BitVec.ofNat 128 (loadResult U n))) (startErase (partArrays F p) (holdShown F U))))
    ∧ (∀ p, isPf e = true ∨ isBound s e = true → getPart s n = some p → p.state = .loaded → Clean e true [] → dlenOf e = 0 →
        (p.hold = true → exec (.partStart e) s = .next (answered e q 0x09 0 0 F))
        ∧ (p.hold = false → weightsFit p = false → exec (.partStart e) s = .next (answered e q 0x11 0 0 F))
        ∧ (p.hold = false → weightsFit p = true → notReady s p = true → exec (.partStart e) s = .next (settle { s with visit := queueKey e.fn e.sqid }))
        ∧ (p.hold = false → weightsFit p = true → notReady s p = false → ∃ U x, exec (.partStart e) s = .next (answered e q 0 0 0 U)
            ∧ getPart U n = some x ∧ x.state = .serving ∧ x.window = p.windowNext.getD p.window ∧ x.hsdelay = [] ∧ x.pstretch = 0))
    ∧ (∀ p U, isPf e = true ∨ isBound s e = true → getPart s n = some p → p.state = .serving ∨ p.state = .draining → Clean e true [(20, 1)] → dlenOf e = 0 → pf e 20 1 ≤ 1 →
        U = (if pf e 20 1 = 1 then forEach (p.reqs.filter (fun r => r.state != .ending)) (fun r s => setEnding s n r.tag 0x23 0) F else F) →
        exec (.partDrain e) s = .next (settle (drainDone (waitFor e (nextHead q) (.drain n (if pf e 20 1 = 1 then (p.reqs.filter (fun r => r.state != .ending)).length else 0))
          (updPart U n (fun p => { p with state := .draining }))) n)))

/-- 03 R79, R89, R106, R107; 11 R360: DRIFT_COMP and MONITOR_SET take their value at a boundary, or at once in a partition that has none; REFRESH_SET and REFRESH_WINDOW are for a partition of a RYILE program; a window ends later and completes then; RECALIBRATE measures offsets, updates drift scales or starts captures and answers how many arrays. Where the rules are silent the statement follows the model's choices: log 17, drift and recalibration; 28, what acts at once. -/
def Obligations.PartitionSettings : Prop :=
  ∀ (e : Entry) (q : Qp) (s F : State) (n : Nat) (p : Partition), Fetches e q s → F = fetched e q s → n = partNo e → n < 16 → getPart s n = some p → dlenOf e = 0 → isPf e = true ∨ isBound s e = true →
    (p.state ≠ .faulted → Clean e true [(20, 1)] →
      (∀ b : Bool, pf e 20 1 = (if b then 1 else 0) → exec (.driftComp e) s = .next (answered e q 0 0 0 (settleIdle n (setPart F n (some { p with driftNext := some b })))))
      ∧ (2 ≤ pf e 20 1 → exec (.driftComp e) s = .next (answered e q 0x02 0 20 F)))
    ∧ (∀ k v m, p.state ≠ .faulted → Clean e true [(20, 1), (24, 4)] → k = pf e 20 1 → v = pf e 24 4 → k ≤ 5 → m = monWith (p.monNext.getD p.mon) k v → (monRange k).1 ≤ v → v ≤ (monRange k).2 → m.rdfWarn ≤ m.rdfErr →
        exec (.monitorSet e) s = .next (answered e q 0 0 0 (settleIdle n (setPart F n (some { p with monNext := some m })))))
    ∧ (idleState p.state = true → Clean e true [(20, 1)] → 13 ≤ pf e 20 1 → pf e 20 1 ≤ 50 →
        (isRyile p = false → exec (.refreshSet e) s = .next (answered e q 0x03 0 0 F))
        ∧ (isRyile p = true → ∃ U x, exec (.refreshSet e) s = .next (answered e q 0 0 0 U) ∧ getPart U n = some x ∧ x.refresh = pf e 20 1
            ∧ { U with parts := [] } = { F with parts := [] } ∧ (x.epoch = p.epoch ∨ x.epoch = min 0xFFFFFFFF (p.epoch + 1)) ∧ ∀ m, m ≠ n → getPart U m = getPart s m))
    ∧ (∀ v, p.state ≠ .faulted → Clean e true [(24, 4)] → v = pf e 24 4 → 1 ≤ v → v ≤ 60000 →
        (isRyile p = false → exec (.refreshWindow e) s = .next (answered e q 0x03 0 0 F))
        ∧ (isRyile p = true → p.window10 = none → exec (.refreshWindow e) s = .next (awaited e q (.refreshWindow n) (setPart F n (some { p with window10 := some (nowNs s + v * 1000000, 0) })))))
    ∧ (isPf e = true → Clean e true [(20, 1)] →
        (∀ ls dark S, pf e 20 1 = 0 → idleState p.state = true → ls = partLanterns F p → dark = ls.filter (fun l => !(getL F l).on) →
            S = forEach (ls.filter (fun l => (getL F l).on)) (recalLantern (nextSetid 3 F)) (takeSetid F) →
            (dark = [] → exec (.recalibrate e) s = .next (answered e q 0 (goodArrays F ls + (s.setSeq + 1) % 2 ^ 24 * 2 ^ 32) 0 S))
            ∧ (dark ≠ [] → exec (.recalibrate e) s = .next (awaited e q (.recal (goodArrays F ls + (s.setSeq + 1) % 2 ^ 24 * 2 ^ 32))
                (forEach dark (fun l s => needForWork { s with recal := s.recal ++ [(l, nextSetid 3 F)] } l) (holdShown F S)))))
        ∧ (pf e 20 1 = 0 → idleState p.state = false → exec (.recalibrate e) s = .next (answered e q 0x07 0 0 F))
        ∧ (∀ xs, pf e 20 1 = 1 → xs = (partLanterns F p).flatMap (fun l => ((getL F l).arrays.filter (fun x => x.2.programmed && !x.2.samples.isEmpty)).map (fun x => (l, x.1))) →
            exec (.recalibrate e) s = .next (answered e q 0 xs.length 0 (settleIdle n (forEach xs (fun x s => driftUpdate s x.1 x.2) F))))
        ∧ (pf e 20 1 = 2 → exec (.recalibrate e) s = .next (answered e q 0 (goodArrays F (partLanterns F p)) 0
            (forEach (partLanterns F p) (fun l s => forEach (List.range 256) (fun a s => startCapture s l a) s) F)))
        ∧ (3 ≤ pf e 20 1 → exec (.recalibrate e) s = .next (answered e q 0x02 0 20 F)))

/-! ## Commands on requests and contexts (09 R278 to R280, R289 to R296; 10 R323, R324) -/

/-- 09 R278 to R280, R289 to R294, R296; 10 R323, R324; Tables 9-8, 9-9: SUBMIT admits a request whose block is sound, whose tag and runnel are free, whose adapter and context are there, while slots and cache last, and takes its slot, the pages of its shares and its adapter, its prompt going into the mesh; a faulty block is INVALID_FIELD at its lowest byte; CANCEL and PAUSE end a request and complete with its end; REQ_QUERY answers its progress; ADAPTER_RELEASE ends an adapter's current version; EXPORT_CTX writes a sealed context with its page images, or reports one that is lost, IMPORT_CTX makes one of an authentic record, DISCARD forgets one and its images, SET_TTL sets its expiry. Where the rules are silent the statement follows the model's choices: log 27, the order of the checks; 32, 51, 52. -/
def Obligations.RequestCommands : Prop :=
  ∀ (e : Entry) (q : Qp) (s F : State) (n : Nat) (p : Partition) (tag : BitVec 64), Fetches e q s → F = fetched e q s → n = partNo e → n < 16 → getPart s n = some p → isBound s e = true → tag = BitVec.ofNat 64 (pf e 24 8) →
    (∀ d0 d g c, p.state = .serving → Clean e true [] → e.data = some d0 → d = padTo (dlenOf e) d0 → p.prog = some g → 256 ≤ dlenOf e → c = (if modeBit d 3 then liveCtx s n (ctxHandle d) else none) →
        (dlenOf e ≠ 256 + 4 * promptLen d → exec (.submit e) s = .next (answered e q 0x02 0 16 F))
        ∧ (∀ off, dlenOf e = 256 + 4 * promptLen d → blockFault g d (resumedPositions c) = some off → exec (.submit e) s = .next (answered e q 0x02 0 (2 ^ 31 + off) F))
        ∧ (dlenOf e = 256 + 4 * promptLen d → blockFault g d (resumedPositions c) = none →
          ((∃ r, r ∈ p.reqs ∧ (r.tag.toNat = fieldAt d 0 8 ∨ r.rn = fieldAt d 16 2)) → exec (.submit e) s = .next (answered e q 0x0C 0 0 F))
          ∧ ((∀ r, r ∈ p.reqs → r.tag.toNat ≠ fieldAt d 0 8 ∧ r.rn ≠ fieldAt d 16 2) →
            (∀ st, bindAdapter p d c = .inr st → exec (.submit e) s = .next (answered e q st 0 0 F))
            ∧ (∀ a, bindAdapter p d c = .inl a → modeBit d 3 = true → c = none → exec (.submit e) s = .next (answered e q 0x0D 0 0 F))
            ∧ (∀ a x, bindAdapter p d c = .inl a → modeBit d 3 = true → c = some x → x.layout ≠ g.clayout ∨ x.wset ≠ p.wset.plain.getD 0 → exec (.submit e) s = .next (answered e q 0x0F 0 0 F))
            ∧ (∀ a need, bindAdapter p d c = .inl a → need = resumedPositions c + promptLen d + fieldAt d 24 4 + 9 →
                (modeBit d 3 = true → c.map (fun x => (x.layout, x.wset)) = some (g.clayout, p.wset.plain.getD 0)) → p.reqs.length < 1024 → reqsInFlight s < 4096 →
                exec (.submit e) s = .next (match admitShares F p g.clayout c need with
                  | none => answered e q 0x0B 0 0 F
                  | some xs =>
                    let r := newRequest e (nextHead q) d (resumedPositions c) a s.seqTag xs c (ownersOf F (BitVec.ofNat 64 (fieldAt d 0 8)) (resumedPositions c) (promptLen d))
                    settle (sendPrompt n p r.tag (promptLen d + (if r.resume then 1 else 0)) (enterRequest e n r c F))))
            ∧ (∀ a, bindAdapter p d c = .inl a → modeBit d 3 = false → 1024 ≤ p.reqs.length ∨ 4096 ≤ reqsInFlight s → exec (.submit e) s = .next (answered e q 0x0A 0 0 F)))))
    ∧ (Clean e true [(24, 8)] → dlenOf e = 0 → p.state = .serving ∨ p.state = .draining ∨ p.state = .faulted →
        (∀ r, findReq p tag = some r →
          exec (.cancel e) s = .next (awaited e q (.cancel n tag) (updReq F n tag (fun r => if r.state = .ending then r else { r with state := .ending, endStatus := 0x23, reason := 4, hit := 0, pauseTtl := 0 })))
          ∧ exec (.reqQuery e) s = .next (answered e q 0 ((Config.reqStateCode (stateCode r.state)).toNat + (if drafting r then 256 else 0) + r.delivered % 2 ^ 32 * 2 ^ 32 + r.written.toNat * 2 ^ 64) 0 F))
        ∧ (findReq p tag = none → ∀ c, c ∈ [Instr.cancel e, .reqQuery e] → exec c s = .next (answered e q (if tag ∈ p.doneTags then 0x0E else 0x0D) 0 0 F)))
    ∧ (Clean e true [(24, 12)] → dlenOf e = 0 → p.state = .serving ∨ p.state = .draining → 1 ≤ pf e 32 4 → pf e 32 4 ≤ 86400 →
        (p.cistern = false ∨ cisternOn s = false → exec (.pause e) s = .next (answered e q 0x07 0 0 F))
        ∧ (∀ r, p.cistern = true → cisternOn s = true → findReq p tag = some r → r.state ≠ .ending →
            exec (.pause e) s = .next (awaited e q (.pause n tag) (updReq F n tag (fun r => if r.state = .ending then r else { r with state := .ending, endStatus := 0x26, reason := 7, hit := 0, pauseTtl := pf e 32 4 }))))
        ∧ (p.cistern = true → cisternOn s = true → findReq p tag = none → exec (.pause e) s = .next (answered e q (if tag ∈ p.doneTags then 0x0E else 0x0D) 0 0 F)))
    ∧ (∀ id m, p.state = .loaded ∨ p.state = .serving ∨ p.state = .draining → Clean e true [(20, 4)] → dlenOf e = 0 → id = pf e 20 4 → id ≠ 0 → m = releaseAdapter id p.adapters →
        ((adapterSlot p (fun a => a.id == id && a.current)).isSome = true → exec (.adapterRelease e) s = .next (answered e q 0 (adapterRefs id m) 0 (setPart F n (some { p with adapters := m }))))
        ∧ ((adapterSlot p (fun a => a.id == id && a.current)).isSome = false → exec (.adapterRelease e) s = .next (answered e q 0x0D 0 0 F))
        ∧ (∀ k a, p.adapters = [(k, some a)] → a.id = id → a.current = true → m = if a.refs = 0 then [] else [(k, some { a with current := false })]))
    ∧ (∀ c key, p.state ≠ .empty → s.sec.restarting = false → s.sec.error = false → Clean e true [(20, 1), (24, 8)] → pf e 20 1 ≤ 1 → liveCtx s n tag = some c → p.wset.key = some key → p.wset.exports < 2 ^ 32 →
        (contextBytes s c = none → exec (.exportCtx e) s = .next (answered e q 0x25 0 0 (countBad F c)))
        ∧ (∀ text bs U, contextBytes s c = some text → bs = exportRecord p key c text s.sec.draws →
            U = writeOut e bs (setPart { F with sec := { s.sec with draws := s.sec.draws + 1 } } n (some { p with wset := { p.wset with exports := p.wset.exports + 1 } })) →
            exec (.exportCtx e) s = .next (if dlenOf e < bs.length then answered e q 0x02 0 16 F else answered e q 0 bs.length 0 (if pf e 20 1 = 1 then eraseCtx U tag else U))))
    ∧ (∀ d0 d, p.state ≠ .empty → s.sec.restarting = false → s.sec.error = false → Clean e true [(32, 4)] → 144 ≤ dlenOf e → 1 ≤ pf e 32 4 → pf e 32 4 ≤ 86400 → e.data = some d0 → d = padTo (dlenOf e) d0 →
        fieldAt d 0 4 = 0x43575653 → fieldAt d 4 2 = 1 → fieldAt d 6 2 = 0 → fieldAt d 104 8 + 144 = dlenOf e → fieldAt d 124 4 = 0 →
        exec (.importCtx e) s = .next (match p.wset.key.bind (fun key => Config.gcmOpen (sessionKey p key) ((d.drop 112).take 12) (d.take 128) ((d.drop 128).take (fieldAt d 104 8)) (d.drop (128 + fieldAt d 104 8))) with
          | none => answered e q 0x13 0 0 F
          | some text =>
            let (tok, pos, aid, aver, shares, images) := Config.contextParse text;
            let rs := shares.map (fun (lay, base, k, j, count) => (⟨lay, base, k, j, count⟩ : ShareRec));
            if storeStatus F p (recPages rs) ≠ 0 then answered e q (storeStatus F p (recPages rs)) 0 0 F
            else answered e q 0 (newHandle s n).toNat 0 { storeImages s.seqTag.toNat rs images F with
              contexts := s.contexts ++ [⟨newHandle s n, n, digestAt d 56, digestAt d 8, BitVec.ofNat 32 tok, pos, aid, aver, nowNs s + pf e 32 4 * 1000000000, rs, s.seqTag.toNat, false⟩],
              serial := s.serial + 1, seqTag := s.seqTag + 1 }))
    ∧ (p.state ≠ .empty → Clean e true [(24, 8)] → dlenOf e = 0 →
        (∀ c, liveCtx s n tag = some c → exec (.discard e) s = .next (answered e q 0 0 0 (eraseCtx F c.handle)) ∧ (findCtx s c.handle = some c →
          eraseCtx F c.handle = { F with contexts := s.contexts.filter (fun x => x.handle != c.handle), cistern := s.cistern.filter (fun x => x.1 / 2 ^ 32 != c.image) }))
        ∧ (liveCtx s n tag = none → exec (.discard e) s = .next (answered e q 0x0D 0 0 F)))
    ∧ (p.state ≠ .empty → Clean e true [(24, 12)] → dlenOf e = 0 → 1 ≤ pf e 32 4 → pf e 32 4 ≤ 86400 →
        (∀ c, liveCtx s n tag = some c → exec (.setTtl e) s = .next (answered e q 0 0 0 { F with
          contexts := lmap (fun x => x.handle == c.handle) (fun x => { x with expiry := nowNs s + pf e 32 4 * 1000000000 }) s.contexts }))
        ∧ (liveCtx s n tag = none → exec (.setTtl e) s = .next (answered e q 0x0D 0 0 F)))

/-! ## Commands on weights, and debug (09 R295; 10 R312 to R329) -/

/-- 10 R312 to R319, R322, R325 to R329; 09 R295; 02 R66: WEIGHT_OPEN quotes the module and opens a load; a key blob gives the load its key or counts against it; a data chunk that opens crosses the rim channel and the mesh, is applied and completes later, one that does not is AUTH_FAILED; WEIGHT_CLOSE waits for its chunks; ADAPTER_LOAD makes an authentic package the current version; ERASE_WEIGHTS and ZEROISE erase; DEBUG_UNLOCK takes an authentic token, DEBUG_LOCK ends debug. Where the rules are silent the statement follows the model's choices: log 27, the order of the checks; 29, erasure; 40. -/
def Obligations.WeightCommands : Prop :=
  ∀ (e : Entry) (q : Qp) (s F : State) (n : Nat), Fetches e q s → F = fetched e q s → n = partNo e →
    (∀ p d0 d hd w m, n < 16 → isPf e = true ∨ isBound s e = true → getPart s n = some p → idleState p.state = true → s.sec.restarting = false → p.wset.load = none → Clean e true [(24, 12)] → dlenOf e = 1056 → 6535 ≤ pf e 32 4 →
        e.data = some d0 → d = padTo 1056 d0 → hd = d.drop 32 → lowest (headerFaults p 1 d 32 ++ [(124, fieldAt hd 92 4 != 0), (128, fieldAt hd 96 4 != 0)]) = none →
        w = openSet F p.wset hd (quoteOf F n p (d.take 32) hd) → m = (residentChunks p.wset (digestAt hd 44) (fieldAt hd 12 4)).length →
        (s.sec.error = true ∨ s.sec.retired = true → exec (.weightOpen e) s = .next (answered e q 0x03 0 0 F))
        ∧ (s.sec.error = false → s.sec.retired = false → ∃ U, exec (.weightOpen e) s = .next (answered e q 0 (m + (fieldAt hd 12 4 - m) * 2 ^ 32) 0 (writeSegs e.fn [(pf e 24 8, pf e 32 4)] (quoteOf F n p (d.take 32) hd) U))
            ∧ U.sec.draws = s.sec.draws + 4 ∧ ∃ x, getPart U n = some x ∧ x.wset = w ∧ x.adapters = []))
    ∧ (∀ p, n < 16 → isPf e = true ∨ isBound s e = true → getPart s n = some p → idleState p.state = true → s.sec.restarting = false → s.sec.error = false →
        (p.wset.load = none → exec (.weightChunk e) s = .next (answered e q 0x07 0 0 F))
        ∧ (∀ ld d0 d, p.wset.load = some ld → closing s n = false → pf e 20 1 = 1 → Clean e true [(20, 1)] → dlenOf e = 1716 → e.data = some d0 → d = padTo 1716 d0 → ld.hasKey = false → fieldAt d 97 3 = 0 →
            exec (.weightChunk e) s = .next (match unwrapKey ld d with
              | some k => answered e q 0 0 0 (setPart F n (some { p with wset := { p.wset with load := some { ld with eph := none, hasKey := true, lastAt := nowNs s }, key := some k } }))
              | none =>
                let U := setPart F n (some { p with wset := { p.wset with load := some { ld with badBlobs := ld.badBlobs + 1, lastAt := nowNs s }, key := none } })
                answered e q 0x13 0 0 (if 2 ≤ ld.badBlobs then (endLoad n U).1 else U)))
        ∧ (∀ ld key d0 d desc i l U, p.wset.load = some ld → closing s n = false → pf e 20 1 = 2 → p.wset.key = some key → desc = descrOf e → Clean e true [(20, 1), (24, 32)] → dlenOf e = fieldAt desc 12 4 + 16 →
            lowest (descrFaults F p ld.chunks desc 24) = none → e.data = some d0 → d = padTo (dlenOf e) d0 → i = fieldAt desc 0 4 → slotLantern s (fieldAtIx p (fieldAt desc 4 1)) (fieldAt desc 5 1) = some l →
            U = setPart F n (some { p with wset := { p.wset with load := some { ld with lastAt := nowNs s } } }) →
            (ld.applied.any (fun x => x.1 == i) = true → exec (.weightChunk e) s = .next (answered e q 0x0C 0 0 U))
            ∧ (ld.applied.any (fun x => x.1 == i) = false → s.jobs = [] → fieldAt desc 6 1 ≠ 1 → exec (.weightChunk e) s = .next (match openChunk key ld.header desc d with
                | none => answered e q 0x13 0 0 U
                | some pt => settle (applyChunk n l ⟨⟨i, fieldAtIx p (fieldAt desc 4 1), fieldAt desc 5 1, fieldAt desc 6 1, fieldAt desc 7 1, Config.sha384 (desc ++ pt)⟩, l, fieldAt desc 8 1, [],
                    Config.sha384 (desc ++ d), e.fn, e.sqid, nextHead q, e.cid, false, false⟩ pt (fieldAt desc 10 2) (intakeCross e.fn n d.length pt.length U))))
            ∧ (∀ b, ld.applied.any (fun x => x.1 == i) = false → s.jobs = [] → fieldAt desc 6 1 = 1 → physOf (getL s l) (fieldAt desc 7 1) = some b → exec (.weightChunk e) s = .next (match openChunk key ld.header desc d with
                | none => answered e q 0x13 0 0 U
                | some pt => match badLevel pt with
                  | some off => answered e q 0x02 0 (2 ^ 31 + off) U
                  | none => settle (applyChunk n l ⟨⟨i, fieldAtIx p (fieldAt desc 4 1), fieldAt desc 5 1, 1, fieldAt desc 7 1, Config.sha384 (desc ++ pt)⟩, l, fieldAt desc 8 1, [],
                      Config.sha384 (desc ++ d), e.fn, e.sqid, nextHead q, e.cid, false, false⟩ pt (fieldAt desc 10 2) (intakeCross e.fn n d.length pt.length U))))))
    ∧ (∀ p, n < 16 → isPf e = true ∨ isBound s e = true → getPart s n = some p → Clean e true [] → dlenOf e = 0 →
        exec (.weightStatus e) s = .next (answered e q 0 (wstatusCode p.wset.status + p.wset.missing * 2 ^ 64) 0 F)
        ∧ (idleState p.state = true → p.wset.load.isSome = true → closing s n = false → exec (.weightClose e) s = .next (settle (tryClose n (waitFor e (nextHead q) (.weightClose n) F))))
        ∧ (idleState p.state = true → p.wset.load = none → exec (.weightClose e) s = .next (answered e q 0x07 0 0 F)))
    ∧ (∀ p d0 d id ver cs pts got, n < 16 → isPf e = true ∨ isBound s e = true → getPart s n = some p → p.state = .loaded ∨ p.state = .serving → s.sec.restarting = false → s.sec.error = false → Clean e true [(20, 8)] → 1024 ≤ dlenOf e →
        id = pf e 20 4 → ver = pf e 24 4 → id ≠ 0 → e.data = some d0 → d = padTo (dlenOf e) d0 → p.adapters = [] → cs = packageChunks d (min (fieldAt d 12 4) d.length) 1024 →
        cs.length = fieldAt d 12 4 → 1024 + (cs.map (fun c => 32 + c.2.2.length)).sum = dlenOf e → (∀ c, c ∈ cs → c.2.2.length = fieldAt c.2.1 12 4 + 16) →
        pts = cs.map (fun c => if p.wset.status = .complete then p.wset.key.bind (fun key => (openChunk key (d.take 1024) c.2.1 c.2.2).map (fun pt => (c.2.1, pt))) else none) → got = pts.filterMap (fun x => x) →
        ∃ U x, exec (.adapterLoad e) s = .next (match lowest (packageFaults F p id ver d cs) with
          | some off => answered e q 0x02 0 (2 ^ 31 + off) F
          | none => if got.length ≠ fieldAt d 12 4 ∨ Config.sha384 ((List.range (fieldAt d 12 4)).flatMap (fun i => match got.find? (fun c => fieldAt c.1 0 4 == i) with
              | some c => digestBytes (Config.sha384 (c.1 ++ c.2)) | none => [])) ≠ digestAt (d.take 1024) 44 then answered e q 0x13 0 0 F else answered e q 0 0 0 U)
          ∧ getPart U n = some x ∧ ∃ a, x.adapters = [(0, some a)] ∧ a.id = id ∧ a.ver = ver ∧ a.current = true ∧ a.refs = 0)
    ∧ (isPf e = true → Clean e false [] → (∀ x, x ∈ allParts s → idleState x.2.state = true) →
        exec (.eraseWeights e) s = .next (awaited e q (.erase true false 0) (startErase allArrays (holdShown F (dropSets F)))))
    ∧ (∀ x, isPf e = true → Clean e false [] → x ∈ allParts s → idleState x.2.state = false → exec (.eraseWeights e) s = .next (answered e q 0x07 0 0 F))
    ∧ (isPf e = true → Clean e false [(20, 1)] → dlenOf e = 0 →
        (pf e 20 1 = 0 → exec (.zeroise e) s = .next (answered e q 0 0 0 (zeroKeys F)))
        ∧ (∀ b : Bool, pf e 20 1 = (if b then 2 else 1) → exec (.zeroise e) s = .next (awaited e q (.erase false b 0) (startErase allArrays (holdShown F (dropSets (forEach ((allParts F).map (·.1)) toLoaded (zeroKeys F)))))))
        ∧ (3 ≤ pf e 20 1 → exec (.zeroise e) s = .next (answered e q 0x02 0 20 F)))
    ∧ (∀ d0 d x U, isPf e = true → s.sec.restarting = false → s.sec.error = false → Clean e false [] → dlenOf e = 4851 → e.data = some d0 → d = padTo 4851 d0 → fieldAt d 0 4 = 0x44575653 → fieldAt d 4 2 = 1 → fieldAt d 6 1 ≤ 3 →
        fieldAt d 7 1 = 1 → fieldAt d 11 1 = 0 → (∀ i, i < 68 → fieldAt d (60 + i) 1 = 0) → (∀ y, y ∈ allParts s → y.2.wset.debugErase = false) → x = fieldAt d 7 1 + fieldAt d 8 2 * 256 →
        U = forEach ((allParts s).map (·.1)) debugPart { F with sec := { s.sec with counters := tset 0 s.sec.counters 5 (counterAt s 5 + 1) } } →
        exec (.debugUnlock e) s = .next (if tokenOk F d = false then answered e q 0x13 0 0 F else if 255 ≤ counterAt s 5 then answered e q 0x03 0 0 F
          else answered e q 0 0 0 (raiseEv { U with sec := { U.sec with unlocked := some (Config.sha384 d, x), jtag := true } } sevSecurity 0x0506 partModule srcLamplighter 0 x)))
    ∧ (isPf e = true → Clean e false [] → dlenOf e = 0 → exec (.debugLock e) s = .next (answered e q 0 0 0
        (forEach ((allParts s).map (·.1)) (fun pn s => settleIdle pn (updPart s pn (fun p => { p with debugEnd := p.debug }))) { F with sec := { s.sec with jtag := false } })))

/-! ## Doorbells and registers (00 R10, R12; 09 R262, R264, R265, R267, R283; 13 R393, R397, R401 to R406) -/

/-- 09 R264, R265, R267, R283, Table 9-1; 13 R397: a tail in range moves the queue's tail; a head frees completion entries and writes those held; a runnel's count and an event ring's count free their entries; a value out of range is a bad doorbell and changes nothing else; a doorbell that acts crosses the rim channel to the control processor; a 1 in a reserved bit of a queue's doorbell sets RSVD_WRITE; while HOLD is set the last write to each doorbell is kept; EN makes queue pair 0 of the registers or is refused with CFG_ERROR, and EN cleared deletes it. Where the rules are silent the statement follows the model's choices: log 37. -/
def Obligations.Doorbells : Prop :=
  ∀ (fn : Fn) (k : Nat) (v : BitVec 32) (s N : State) (B : Nat → Nat → State → State), fn.num ≤ 16 → k < 64 → N = (if v &&& ~~~0xFFF#32 = 0 then s else rsvdWrite s fn) →
    B = (fun kind n x => rimSend (hostTile fn.port) (firmwareTile x) (.doorbell fn kind n v) x) →
    (s.boot.hold = true →
      exec (.sqTail fn k v) s = .next (updFn N fn (fun f => { f with latched := f.latched.filter (fun d => !(d.kind == 0 && d.num == k)) ++ [⟨0, k, v⟩] }))
      ∧ exec (.cqHead fn k v) s = .next (settle (updFn N fn (fun f => { f with latched := f.latched.filter (fun d => !(d.kind == 1 && d.num == k)) ++ [⟨1, k, v⟩] })))
      ∧ exec (.runnelCons fn k v) s = .next (updFn s fn (fun f => { f with latched := f.latched.filter (fun d => !(d.kind == 2 && d.num == k)) ++ [⟨2, k, v⟩] }))
      ∧ exec (.evCons fn v) s = .next (updFn s fn (fun f => { f with latched := f.latched.filter (fun d => !(d.kind == 3 && d.num == 0)) ++ [⟨3, 0, v⟩] })))
    ∧ (s.boot.hold = false →
      (∀ x, getQp s fn k = some x → x.deleting = false → v.toNat % 4096 < x.sqSize → exec (.sqTail fn k v) s = .next (setQp (B 0 k N) fn k (some { x with sqTail := v.toNat % 4096 })))
      ∧ (∀ x, getQp s fn k = some x → x.sqSize ≤ v.toNat % 4096 ∨ x.deleting = true → exec (.sqTail fn k v) s = .next (badDoorbell (B 0 k N) fn (0x101000 + 8 * k)))
      ∧ (getQp s fn k = none → exec (.sqTail fn k v) s = .next (badDoorbell (B 0 k N) fn (0x101000 + 8 * k)) ∧ exec (.cqHead fn k v) s = .next (settle (badDoorbell (B 1 k N) fn (0x101004 + 8 * k))))
      ∧ (∀ x h, getQp s fn k = some x → h = v.toNat % 4096 → h < x.cqSize → (h + x.cqSize - x.cqHead) % x.cqSize ≤ cqUsed x → x.held = [] →
          exec (.cqHead fn k v) s = .next (settle (setQp (B 1 k N) fn k (some { x with cqHead := h, int := if h = x.cqTail then { x.int with first := none } else x.int }))))
      ∧ (∀ x h, getQp s fn k = some x → h = v.toNat % 4096 → x.cqSize ≤ h ∨ cqUsed x < (h + x.cqSize - x.cqHead) % x.cqSize → exec (.cqHead fn k v) s = .next (settle (badDoorbell (B 1 k N) fn (0x101004 + 8 * k))))
      ∧ (∀ n p r m, m < 1024 → partBound s fn = some n → getPart s n = some p → p.reqs.find? (fun r => r.rn == m) = some r → (v - r.cons).toNat ≤ (r.written - r.cons).toNat →
          exec (.runnelCons fn m v) s = .next (updReq (B 2 m s) n r.tag (fun r => { r with cons := v, int := if v = r.written then { r.int with first := none } else r.int })))
      ∧ (∀ n p r m, m < 1024 → partBound s fn = some n → getPart s n = some p → p.reqs.find? (fun r => r.rn == m) = some r → (r.written - r.cons).toNat < (v - r.cons).toNat →
          exec (.runnelCons fn m v) s = .next (badDoorbell (B 2 m s) fn (0x110000 + 4 * m)))
      ∧ (partBound s fn = none → exec (.runnelCons fn k v) s = .next (B 2 k s))
      ∧ (∀ g, (getFn s fn).ring = some g → (v - g.cons).toNat ≤ (g.k - g.cons).toNat →
          exec (.evCons fn v) s = .next (drainFn (updFn (B 3 0 s) fn (fun f => { f with ring := some { g with cons := v, int := if v = g.k then { g.int with first := none } else g.int } })) fn))
      ∧ ((getFn s fn).ring = none → exec (.evCons fn v) s = .next (badDoorbell (B 3 0 s) fn 0x30)))
    ∧ (∀ f sq cq, f = getFn s fn → sq = f.q0Size.toNat % 4096 → cq = f.q0Size.toNat / 65536 % 4096 →
        (v = 1 → f.en = false → sq ≠ 0 → cq ≠ 0 → getQp s fn 0 = none → exec (.mbCtrlEnable fn v) s = .next (updFn (setQp s fn 0 (some ⟨f.sq0Base.toNat / 4096 * 4096, sq + 1, 0, 0, f.cq0Base.toNat / 4096 * 4096, cq + 1, 0, 0, true,
          { vector := 0, count := f.q0Int.toNat % 256, time := f.q0Int.toNat / 65536 }, [], 0, false⟩)) fn (fun f => { f with en := true, cfgErr := false })))
        ∧ (v = 1 → f.en = false → sq = 0 ∨ cq = 0 ∨ (getQp s fn 0).isSome = true → exec (.mbCtrlEnable fn v) s = .next (updFn s fn (fun f => { f with en := false, cfgErr := true })))
        ∧ (v = 1 → f.en = true → exec (.mbCtrlEnable fn v) s = .next s)
        ∧ (∀ x, v = 0 → f.en = true → getQp s fn 0 = some x → x.busy = 0 → s.waiting = [] → x.held = [] →
            ∃ t, exec (.mbCtrlDisable fn v) s = .next t ∧ getQp t fn 0 = none ∧ (getFn t fn).en = false)
        ∧ (v = 0 → f.en = false → exec (.mbCtrlDisable fn v) s = .next (settle s)))

/-- 00 R10, R12; 13 Table 13-8, R393, R401 to R406: ALERT_STATUS clears bits in both PFs; TRACE_CTRL selects traces of the function's partition; perturbation registers take effect for the PF and the bound VF, and refuse what R404 does not allow with PERT_STATUS; fault injection needs debug; a read-only register, or any of BAR2, takes no write but notes it; STATUS bits clear by writing 1; the queue registers hold what is written but for reserved bits; an 8-byte write is two of 4 bytes. -/
def Obligations.RegisterWrites : Prop :=
  ∀ (fn : Fn) (n : Nat) (v : BitVec 32) (s : State) (p : Partition), fn.num ≤ 16 → n < 16 → getPart s n = some p → fn.num = 0 ∨ partBound s fn = some n →
    (fn.num = 0 → v &&& ~~~7#32 = 0 → ∃ t, exec (.alertStatusClear fn v) s = .next t ∧ { t with funcs := s.funcs } = s ∧ (∀ g : Fn, g.num = 0 → (getFn t g).alert = (getFn s g).alert &&& ~~~(v.setWidth 3)))
    ∧ (fn.num ≠ 0 → exec (.alertStatusClear fn v) s = .next (if v = 0 then s else rsvdWrite s fn))
    ∧ (v &&& ~~~7#32 = 0 → n = 0 ∨ fn.num ≠ 0 → exec (.traceCtrlWrite fn v) s = .next (setPart s n (some { p with traceCtrl := v.setWidth 3 })))
    ∧ (∀ i, i < 4 → v &&& ~~~0x87FFFFFF#32 = 0 →
        (v.getLsbD 31 = false ∨ hsPortOk s n p v = true → exec (.pertHsdelayWrite fn n i v) s = .next (setPart s n (some { p with hsdelay := tset 0 p.hsdelay i v })))
        ∧ (v.getLsbD 31 = true → hsPortOk s n p v = false → exec (.pertHsdelayWrite fn n i v) s = .next (setPart s n (some { p with pertRefused := true }))))
    ∧ (∀ l g c, v &&& ~~~0x8FFFFFFF#32 = 0 → l = v.toNat % 2048 → g = (getSl (getL s l) (v.toNat / 2048 % 32)).grant → c = v.toNat / 65536 % 4096 →
        (v.getLsbD 31 = false ∨ (l < 1600 ∧ inRect p (fieldOf l) = true) → exec (.pertCreditWrite fn n v) s = .next (setPart s n (some { p with pcredit := (v &&& 0x8000FFFF#32) ||| BitVec.ofNat 32 (min c (g - 1) * 65536) })))
        ∧ (v.getLsbD 31 = true → 1600 ≤ l ∨ inRect p (fieldOf l) = false → exec (.pertCreditWrite fn n v) s = .next (setPart s n (some { p with pertRefused := true }))))
    ∧ (v &&& ~~~0x3FF#32 = 0 → exec (.pertStretchWrite fn n v) s = .next (setPart s n (some { p with pstretch := v })))
    ∧ (v &&& ~~~0x800FF7FF#32 = 0 → exec (.pertAdcWrite fn n v) s = .next (setPart s n (some { p with padc := v })))
    ∧ (∀ z, v &&& ~~~0x80000003#32 = 0 → v.getLsbD 31 = true → z = v.toNat % 4 →
        (p.zen.testBit z = true → (∀ x, x ∈ (getZ s z).owner → x.2 = n + 1) →
          exec (.pertRetrain fn n v) s = .next (setPart (updZ s z (fun Z => { Z with suspendTo := nowNs s + 20000000 })) n (some { p with retrain := some (z, nowNs s + 20000000) })))
        ∧ (p.zen.testBit z = false → exec (.pertRetrain fn n v) s = .next (setPart s n (some { p with pertRefused := true })))
        ∧ (∀ x, x ∈ (getZ s z).owner → x.2 ≠ n + 1 → exec (.pertRetrain fn n v) s = .next (setPart s n (some { p with pertRefused := true }))))
    ∧ (∀ l a, l = v.toNat % 2048 → a = v.toNat / 8192 →
        (p.debug = false → exec (.fiParity fn n v) s = .next (setPart s n (some { p with pertRefused := true })))
        ∧ (p.debug = true → l < 1600 → inRect p (fieldOf l) = true → v.toNat / 2048 % 4 = 0 → a < 65536 →
            exec (.fiParity fn n v) s = .next (updL s l (fun L => { L with pad := tupd {} L.pad a (fun x => { x with parBad := !x.parBad }) })))
        ∧ (p.debug = true → l < 1600 → inRect p (fieldOf l) = true → v.toNat / 2048 % 4 = 1 → a < 327680 →
            exec (.fiParity fn n v) s = .next (updL s l (fun L => { L with kv := tupd {} L.kv a (fun x => { x with parBad := !x.parBad }) })))
        ∧ (p.debug = true → l < 1600 → inRect p (fieldOf l) = true → v.toNat / 2048 % 4 = 2 → a < 8192 →
            exec (.fiParity fn n v) s = .next (updL s l (fun L => { L with store := tupd {} L.store a (fun x => { x with parBad := !x.parBad }) })))
        ∧ (v &&& ~~~0xFFFF#32 = 0 → p.debug = true → l < 1600 → inRect p (fieldOf l) = true →
            exec (.fiPoison fn n v) s = .next (updSl s l (v.toNat / 2048 % 32) (fun x => { x with poisonNext := true })))
        ∧ (v &&& ~~~0xFFFF#32 = 0 → p.debug = false → exec (.fiPoison fn n v) s = .next (setPart s n (some { p with pertRefused := true }))))
    ∧ (∀ x eight, (∀ o, exec (.registerWrite fn true o x eight) s = .next (settle (rsvdWrite s fn)))
        ∧ (∀ o, readOnly o = true → exec (.registerWrite fn false o x false) s = .next (settle (rsvdWrite s fn)))
        ∧ (x.toNat < 8 → exec (.registerWrite fn false 0x1C x false) s = .next (settle (updFn s fn (fun f => { f with status := f.status &&& ~~~(x.setWidth 3) }))))
        ∧ (x.toNat % 4096 = 0 → exec (.registerWrite fn false 0x100000 x true) s = .next (settle (updFn s fn (fun f => { f with sq0Base := x })))
            ∧ exec (.registerWrite fn false 0x100008 x true) s = .next (settle (updFn s fn (fun f => { f with cq0Base := x }))))
        ∧ (∀ o, o % 4 = 0 → o < 0x100000 → readOnly o = false → o ∉ [0x1C, 0x24, 0x28, 0x30, 0x34] → exec (.registerWrite fn false o x false) s = .next (settle (if x.setWidth 32 = 0#32 then s else rsvdWrite s fn))))
end

