-- ==== Sys2Proof/Laws/CalStore.lean ====
section
/-! SUPPORT. A calibration record that is put together is valid (03 R91 to R93). -/

namespace Sys2Proof.Machine

/-- Bytes below byte 252 do not see what stands from there on. -/
theorem bytesAt_low (b c i n : Nat) (h : i + n ≤ 252) : bytesAt (b + c * 256 ^ 252) i n = bytesAt b i n := by
  unfold bytesAt
  have e : (256 : Nat) ^ 252 = 256 ^ i * (256 ^ n * 256 ^ (252 - i - n)) := by
    rw [← Nat.pow_add, ← Nat.pow_add]
    exact congrArg _ (by omega)
  rw [e, Nat.mul_left_comm c, Nat.add_mul_div_left _ _ (Nat.pow_pos (by decide)), Nat.mul_left_comm c, Nat.add_mul_mod_self_left]

theorem record_lt (b c P : Nat) (hP : P * 256 ^ 4 = 2 ^ 2048) (hb : b < P) (hc : c < 256 ^ 4) : b + c * P < 2 ^ 2048 := by
  rw [← hP]
  calc b + c * P < P + c * P := by omega
    _ = P * (c + 1) := by rw [Nat.mul_comm c P, Nat.mul_succ, Nat.add_comm]
    _ ≤ P * 256 ^ 4 := Nat.mul_le_mul_left _ (by omega)

/-- Bytes 0 to 251 with the check of Table 3-4 behind them pass it, and read as they stand. -/
theorem checked_bytes (b : Nat) (hb : b < 256 ^ 252) :
    let x := (BitVec.ofNat 2048 (b + recCheck b * 256 ^ 252)).toNat
    bytesAt x 252 4 = recCheck (bytesAt x 0 252) ∧ ∀ i n, i + n ≤ 252 → bytesAt x i n = bytesAt b i n := by
  have hc : recCheck b < 256 ^ 4 := by unfold recCheck; exact BitVec.isLt _
  have hx : (b + recCheck b * 256 ^ 252) % 2 ^ 2048 = b + recCheck b * 256 ^ 252 := Nat.mod_eq_of_lt (record_lt b _ _ (by decide +kernel) hb hc)
  have hl : bytesAt (b + recCheck b * 256 ^ 252) 252 4 = recCheck b := by
    unfold bytesAt
    rw [Nat.add_mul_div_right _ _ (Nat.pow_pos (by decide)), Nat.div_eq_of_lt hb, Nat.zero_add, Nat.mod_eq_of_lt hc]
  have hb' : bytesAt b 0 252 = b := by unfold bytesAt; rw [Nat.pow_zero, Nat.div_one, Nat.mod_eq_of_lt hb]
  intro x
  have e : x = b + recCheck b * 256 ^ 252 := (BitVec.toNat_ofNat ..).trans hx
  rw [e, hl]
  exact ⟨by rw [bytesAt_low b _ 0 252 (by decide), hb'], fun i n h => bytesAt_low b _ i n h⟩

/-- A record that is put together for a place is valid there (R92, R93). -/
theorem makeRec_valid (key : Nat) (gen : BitVec 16) (setid : BitVec 32) (pay : Nat) (hk : calKinds.contains (calKind key) = true) :
    copyValid key (makeRec key gen setid pay) = true := by
  have hk' : calKind key < 256 := by
    simp only [calKinds, List.contains_eq_mem, List.mem_cons, List.not_mem_nil, or_false, decide_eq_true_eq] at hk
    omega
  have hs : calSubject key < 2 ^ 32 := Nat.mod_lt _ (by decide)
  have hp : pay % 256 ^ 240 < 256 ^ 240 := Nat.mod_lt _ (Nat.pow_pos (by decide))
  unfold copyValid makeRec
  have h := checked_bytes (calKind key % 256 + 256 + gen.toNat * 256 ^ 2 + calSubject key * 256 ^ 4 + setid.toNat * 256 ^ 8 + pay % 256 ^ 240 * 256 ^ 12)
  generalize pay % 256 ^ 240 = p at h hp ⊢
  have hg := gen.isLt
  have hi := setid.isLt
  generalize gen.toNat = g at h hg ⊢
  generalize setid.toNat = d at h hi ⊢
  generalize calSubject key = u at h hs ⊢
  generalize calKind key = k at h hk hk' ⊢
  obtain ⟨h1, h2⟩ := h (by omega)
  dsimp only at h1 h2 ⊢
  rw [h1, h2 0 1 (by decide), h2 1 1 (by decide), h2 4 4 (by decide)]
  have a0 : bytesAt (k % 256 + 256 + g * 256 ^ 2 + u * 256 ^ 4 + d * 256 ^ 8 + p * 256 ^ 12) 0 1 = k := by unfold bytesAt; omega
  have a1 : bytesAt (k % 256 + 256 + g * 256 ^ 2 + u * 256 ^ 4 + d * 256 ^ 8 + p * 256 ^ 12) 1 1 = 1 := by unfold bytesAt; omega
  have a4 : bytesAt (k % 256 + 256 + g * 256 ^ 2 + u * 256 ^ 4 + d * 256 ^ 8 + p * 256 ^ 12) 4 4 = u := by unfold bytesAt; omega
  rw [a0, a1, a4, hk]
  simp only [beq_self_eq_true, Bool.and_true]

end Sys2Proof.Machine
end

