-- ==== Sys2Proof/Laws/Exec.lean ====
section
/-! SUPPORT. exec of each command is its meaning. -/

namespace Sys2Proof.Machine

theorem exec_identify (e : Entry) (s : State) : exec (.identify e) s = execIdentify e s := rfl
theorem exec_qpCreate (e : Entry) (s : State) : exec (.qpCreate e) s = execQpCreate e s := rfl
theorem exec_qpDelete (e : Entry) (s : State) : exec (.qpDelete e) s = execQpDelete e s := rfl
theorem exec_ringForm (e : Entry) (s : State) : exec (.ringForm e) s = execRingForm e s := rfl
theorem exec_ringMode (e : Entry) (s : State) : exec (.ringMode e) s = execRingMode e s := rfl
theorem exec_partCreate (e : Entry) (s : State) : exec (.partCreate e) s = execPartCreate e s := rfl
theorem exec_partDelete (e : Entry) (s : State) : exec (.partDelete e) s = execPartDelete e s := rfl
theorem exec_partSet (e : Entry) (s : State) : exec (.partSet e) s = execPartSet e s := rfl
theorem exec_programLoad (e : Entry) (s : State) : exec (.programLoad e) s = execProgramLoad e s := rfl
theorem exec_partStart (e : Entry) (s : State) : exec (.partStart e) s = execPartStart e s := rfl
theorem exec_partDrain (e : Entry) (s : State) : exec (.partDrain e) s = execPartDrain e s := rfl
theorem exec_partQuery (e : Entry) (s : State) : exec (.partQuery e) s = execPartQuery e s := rfl
theorem exec_submit (e : Entry) (s : State) : exec (.submit e) s = execSubmit e s := rfl
theorem exec_cancel (e : Entry) (s : State) : exec (.cancel e) s = execCancel e s := rfl
theorem exec_reqQuery (e : Entry) (s : State) : exec (.reqQuery e) s = execReqQuery e s := rfl
theorem exec_adapterLoad (e : Entry) (s : State) : exec (.adapterLoad e) s = execAdapterLoad e s := rfl
theorem exec_adapterRelease (e : Entry) (s : State) : exec (.adapterRelease e) s = execAdapterRelease e s := rfl
theorem exec_pause (e : Entry) (s : State) : exec (.pause e) s = execPause e s := rfl
theorem exec_exportCtx (e : Entry) (s : State) : exec (.exportCtx e) s = execExportCtx e s := rfl
theorem exec_importCtx (e : Entry) (s : State) : exec (.importCtx e) s = execImportCtx e s := rfl
theorem exec_discard (e : Entry) (s : State) : exec (.discard e) s = execDiscard e s := rfl
theorem exec_setTtl (e : Entry) (s : State) : exec (.setTtl e) s = execSetTtl e s := rfl
theorem exec_weightOpen (e : Entry) (s : State) : exec (.weightOpen e) s = execWeightOpen e s := rfl
theorem exec_weightChunk (e : Entry) (s : State) : exec (.weightChunk e) s = execWeightChunk e s := rfl
theorem exec_weightClose (e : Entry) (s : State) : exec (.weightClose e) s = execWeightClose e s := rfl
theorem exec_weightStatus (e : Entry) (s : State) : exec (.weightStatus e) s = execWeightStatus e s := rfl
theorem exec_eraseWeights (e : Entry) (s : State) : exec (.eraseWeights e) s = execEraseWeights e s := rfl
theorem exec_zeroise (e : Entry) (s : State) : exec (.zeroise e) s = execZeroise e s := rfl
theorem exec_debugUnlock (e : Entry) (s : State) : exec (.debugUnlock e) s = execDebugUnlock e s := rfl
theorem exec_debugLock (e : Entry) (s : State) : exec (.debugLock e) s = execDebugLock e s := rfl
theorem exec_telemetryRead (e : Entry) (s : State) : exec (.telemetryRead e) s = execTelemetryRead e s := rfl
theorem exec_monitorSet (e : Entry) (s : State) : exec (.monitorSet e) s = execMonitorSet e s := rfl
theorem exec_eventRingSet (e : Entry) (s : State) : exec (.eventRingSet e) s = execEventRingSet e s := rfl
theorem exec_counterSelect (e : Entry) (s : State) : exec (.counterSelect e) s = execCounterSelect e s := rfl
theorem exec_setSpares (e : Entry) (s : State) : exec (.setSpares e) s = execSetSpares e s := rfl
theorem exec_driftComp (e : Entry) (s : State) : exec (.driftComp e) s = execDriftComp e s := rfl
theorem exec_refreshSet (e : Entry) (s : State) : exec (.refreshSet e) s = execRefreshSet e s := rfl
theorem exec_refreshWindow (e : Entry) (s : State) : exec (.refreshWindow e) s = execRefreshWindow e s := rfl
theorem exec_recalibrate (e : Entry) (s : State) : exec (.recalibrate e) s = execRecalibrate e s := rfl
theorem exec_fwUpdate (e : Entry) (s : State) : exec (.fwUpdate e) s = execFwUpdate e s := rfl
theorem exec_microcodeUpdate (e : Entry) (s : State) : exec (.microcodeUpdate e) s = execMicrocodeUpdate e s := rfl
theorem exec_unassignedOpcode (e : Entry) (opcode : Byte) (s : State) : exec (.unassignedOpcode e opcode) s = execUnassignedOpcode e opcode s := rfl
theorem exec_sqTail (fn : Fn) (q : Nat) (v : BitVec 32) (s : State) : exec (.sqTail fn q v) s = execSqTail fn q v s := rfl
theorem exec_cqHead (fn : Fn) (q : Nat) (v : BitVec 32) (s : State) : exec (.cqHead fn q v) s = execCqHead fn q v s := rfl
theorem exec_runnelCons (fn : Fn) (r : Nat) (v : BitVec 32) (s : State) : exec (.runnelCons fn r v) s = execRunnelCons fn r v s := rfl
theorem exec_mbCtrlEnable (fn : Fn) (v : BitVec 32) (s : State) : exec (.mbCtrlEnable fn v) s = execMbCtrlEnable fn v s := rfl
theorem exec_mbCtrlDisable (fn : Fn) (v : BitVec 32) (s : State) : exec (.mbCtrlDisable fn v) s = execMbCtrlDisable fn v s := rfl
theorem exec_evCons (fn : Fn) (v : BitVec 32) (s : State) : exec (.evCons fn v) s = execEvCons fn v s := rfl
theorem exec_alertStatusClear (fn : Fn) (v : BitVec 32) (s : State) : exec (.alertStatusClear fn v) s = execAlertStatusClear fn v s := rfl
theorem exec_traceCtrlWrite (fn : Fn) (v : BitVec 32) (s : State) : exec (.traceCtrlWrite fn v) s = execTraceCtrlWrite fn v s := rfl
theorem exec_pertHsdelayWrite (fn : Fn) (part : Nat) (ix : Nat) (v : BitVec 32) (s : State) : exec (.pertHsdelayWrite fn part ix v) s = execPertHsdelayWrite fn part ix v s := rfl
theorem exec_pertCreditWrite (fn : Fn) (part : Nat) (v : BitVec 32) (s : State) : exec (.pertCreditWrite fn part v) s = execPertCreditWrite fn part v s := rfl
theorem exec_pertStretchWrite (fn : Fn) (part : Nat) (v : BitVec 32) (s : State) : exec (.pertStretchWrite fn part v) s = execPertStretchWrite fn part v s := rfl
theorem exec_pertAdcWrite (fn : Fn) (part : Nat) (v : BitVec 32) (s : State) : exec (.pertAdcWrite fn part v) s = execPertAdcWrite fn part v s := rfl
theorem exec_pertRetrain (fn : Fn) (part : Nat) (v : BitVec 32) (s : State) : exec (.pertRetrain fn part v) s = execPertRetrain fn part v s := rfl
theorem exec_fiParity (fn : Fn) (part : Nat) (v : BitVec 32) (s : State) : exec (.fiParity fn part v) s = execFiParity fn part v s := rfl
theorem exec_fiPoison (fn : Fn) (part : Nat) (v : BitVec 32) (s : State) : exec (.fiPoison fn part v) s = execFiPoison fn part v s := rfl
theorem exec_registerWrite (fn : Fn) (bar2 : Bool) (offset : Nat) (v : BitVec 64) (eight : Bool) (s : State) : exec (.registerWrite fn bar2 offset v eight) s = execRegisterWrite fn bar2 offset v eight s := rfl
theorem exec_nop (l : Nat) (f : FmtC) (s : State) : exec (.nop l f) s = execNop l f s := rfl
theorem exec_add (l : Nat) (f : FmtS) (s : State) : exec (.add l f) s = execAdd l f s := rfl
theorem exec_sub (l : Nat) (f : FmtS) (s : State) : exec (.sub l f) s = execSub l f s := rfl
theorem exec_and (l : Nat) (f : FmtS) (s : State) : exec (.and l f) s = execAnd l f s := rfl
theorem exec_or (l : Nat) (f : FmtS) (s : State) : exec (.or l f) s = execOr l f s := rfl
theorem exec_xor (l : Nat) (f : FmtS) (s : State) : exec (.xor l f) s = execXor l f s := rfl
theorem exec_shl (l : Nat) (f : FmtS) (s : State) : exec (.shl l f) s = execShl l f s := rfl
theorem exec_shr (l : Nat) (f : FmtS) (s : State) : exec (.shr l f) s = execShr l f s := rfl
theorem exec_sar (l : Nat) (f : FmtS) (s : State) : exec (.sar l f) s = execSar l f s := rfl
theorem exec_mul (l : Nat) (f : FmtS) (s : State) : exec (.mul l f) s = execMul l f s := rfl
theorem exec_slt (l : Nat) (f : FmtS) (s : State) : exec (.slt l f) s = execSlt l f s := rfl
theorem exec_sltu (l : Nat) (f : FmtS) (s : State) : exec (.sltu l f) s = execSltu l f s := rfl
theorem exec_addi (l : Nat) (f : FmtS) (s : State) : exec (.addi l f) s = execAddi l f s := rfl
theorem exec_lih (l : Nat) (f : FmtS) (s : State) : exec (.lih l f) s = execLih l f s := rfl
theorem exec_sld (l : Nat) (f : FmtS) (s : State) : exec (.sld l f) s = execSld l f s := rfl
theorem exec_sst (l : Nat) (f : FmtS) (s : State) : exec (.sst l f) s = execSst l f s := rfl
theorem exec_rds (l : Nat) (f : FmtS) (s : State) : exec (.rds l f) s = execRds l f s := rfl
theorem exec_beq (l : Nat) (f : FmtJ) (s : State) : exec (.beq l f) s = execBeq l f s := rfl
theorem exec_bne (l : Nat) (f : FmtJ) (s : State) : exec (.bne l f) s = execBne l f s := rfl
theorem exec_blt (l : Nat) (f : FmtJ) (s : State) : exec (.blt l f) s = execBlt l f s := rfl
theorem exec_bge (l : Nat) (f : FmtJ) (s : State) : exec (.bge l f) s = execBge l f s := rfl
theorem exec_jmp (l : Nat) (f : FmtJ) (s : State) : exec (.jmp l f) s = execJmp l f s := rfl
theorem exec_jr (l : Nat) (f : FmtJ) (s : State) : exec (.jr l f) s = execJr l f s := rfl
theorem exec_step (l : Nat) (f : FmtC) (s : State) : exec (.step l f) s = execStep l f s := rfl
theorem exec_fence (l : Nat) (f : FmtC) (s : State) : exec (.fence l f) s = execFence l f s := rfl
theorem exec_trapi (l : Nat) (f : FmtC) (s : State) : exec (.trapi l f) s = execTrapi l f s := rfl
theorem exec_aop (l : Nat) (f : FmtA) (s : State) : exec (.aop l f) s = execAop l f s := rfl
theorem exec_aclr (l : Nat) (f : FmtK) (s : State) : exec (.aclr l f) s = execAclr l f s := rfl
theorem exec_ard (l : Nat) (f : FmtK) (s : State) : exec (.ard l f) s = execArd l f s := rfl
theorem exec_aexp (l : Nat) (f : FmtK) (s : State) : exec (.aexp l f) s = execAexp l f s := rfl
theorem exec_aimp (l : Nat) (f : FmtK) (s : State) : exec (.aimp l f) s = execAimp l f s := rfl
theorem exec_widot (l : Nat) (f : FmtL) (s : State) : exec (.widot l f) s = execWidot l f s := rfl
theorem exec_wfdot (l : Nat) (f : FmtL) (s : State) : exec (.wfdot l f) s = execWfdot l f s := rfl
theorem exec_wvb (l : Nat) (f : FmtL) (s : State) : exec (.wvb l f) s = execWvb l f s := rfl
theorem exec_wvu (l : Nat) (f : FmtL) (s : State) : exec (.wvu l f) s = execWvu l f s := rfl
theorem exec_wred (l : Nat) (f : FmtL) (s : State) : exec (.wred l f) s = execWred l f s := rfl
theorem exec_wsmx (l : Nat) (f : FmtL) (s : State) : exec (.wsmx l f) s = execWsmx l f s := rfl
theorem exec_wqnt (l : Nat) (f : FmtL) (s : State) : exec (.wqnt l f) s = execWqnt l f s := rfl
theorem exec_wgth (l : Nat) (f : FmtL) (s : State) : exec (.wgth l f) s = execWgth l f s := rfl
theorem exec_wtopk (l : Nat) (f : FmtL) (s : State) : exec (.wtopk l f) s = execWtopk l f s := rfl
theorem exec_wsmp (l : Nat) (f : FmtL) (s : State) : exec (.wsmp l f) s = execWsmp l f s := rfl
theorem exec_qld (l : Nat) (f : FmtL) (s : State) : exec (.qld l f) s = execQld l f s := rfl
theorem exec_ascr (l : Nat) (f : FmtL) (s : State) : exec (.ascr l f) s = execAscr l f s := rfl
theorem exec_aval (l : Nat) (f : FmtL) (s : State) : exec (.aval l f) s = execAval l f s := rfl
theorem exec_kapp (l : Nat) (f : FmtL) (s : State) : exec (.kapp l f) s = execKapp l f s := rfl
theorem exec_kmark (l : Nat) (f : FmtL) (s : State) : exec (.kmark l f) s = execKmark l f s := rfl
theorem exec_krew (l : Nat) (f : FmtL) (s : State) : exec (.krew l f) s = execKrew l f s := rfl
theorem exec_krel (l : Nat) (f : FmtL) (s : State) : exec (.krel l f) s = execKrel l f s := rfl
theorem exec_kwalk (l : Nat) (f : FmtL) (s : State) : exec (.kwalk l f) s = execKwalk l f s := rfl
theorem exec_kxfr (l : Nat) (f : FmtL) (s : State) : exec (.kxfr l f) s = execKxfr l f s := rfl
theorem exec_copy (l : Nat) (f : FmtL) (s : State) : exec (.copy l f) s = execCopy l f s := rfl
theorem exec_trd (l : Nat) (f : FmtL) (s : State) : exec (.trd l f) s = execTrd l f s := rfl
theorem exec_send (l : Nat) (f : FmtL) (s : State) : exec (.send l f) s = execSend l f s := rfl
theorem exec_clr (l : Nat) (f : FmtL) (s : State) : exec (.clr l f) s = execClr l f s := rfl
theorem exec_recv (l : Nat) (f : FmtQ) (s : State) : exec (.recv l f) s = execRecv l f s := rfl
theorem exec_qpeek (l : Nat) (f : FmtQ) (s : State) : exec (.qpeek l f) s = execQpeek l f s := rfl
theorem exec_qpop (l : Nat) (f : FmtQ) (s : State) : exec (.qpop l f) s = execQpop l f s := rfl
theorem exec_qmark (l : Nat) (f : FmtQ) (s : State) : exec (.qmark l f) s = execQmark l f s := rfl
theorem exec_qrewind (l : Nat) (f : FmtQ) (s : State) : exec (.qrewind l f) s = execQrewind l f s := rfl
theorem exec_qrel (l : Nat) (f : FmtQ) (s : State) : exec (.qrel l f) s = execQrel l f s := rfl
theorem exec_qstat (l : Nat) (f : FmtQ) (s : State) : exec (.qstat l f) s = execQstat l f s := rfl
theorem exec_storeError (l : Nat) (s : State) : exec (.storeError l) s = execStoreError l s := rfl
theorem exec_waitEnd (l : Nat) (eng : Nat) (s : State) : exec (.waitEnd l eng) s = execWaitEnd l eng s := rfl
theorem exec_arrayOpStart (l : Nat) (bank : Nat) (s : State) : exec (.arrayOpStart l bank) s = execArrayOpStart l bank s := rfl
theorem exec_phaseComplete (l : Nat) (bank : Nat) (s : State) : exec (.phaseComplete l bank) s = execPhaseComplete l bank s := rfl
theorem exec_arrayOpComplete (l : Nat) (bank : Nat) (s : State) : exec (.arrayOpComplete l bank) s = execArrayOpComplete l bank s := rfl
theorem exec_outlierResidual (l : Nat) (bank : Nat) (s : State) : exec (.outlierResidual l bank) s = execOutlierResidual l bank s := rfl
theorem exec_bankRestoreDone (l : Nat) (bank : Nat) (s : State) : exec (.bankRestoreDone l bank) s = execBankRestoreDone l bank s := rfl
theorem exec_referenceOperation (l : Nat) (arr : Nat) (s : State) : exec (.referenceOperation l arr) s = execReferenceOperation l arr s := rfl
theorem exec_driftStaleTimeout (l : Nat) (arr : Nat) (s : State) : exec (.driftStaleTimeout l arr) s = execDriftStaleTimeout l arr s := rfl
theorem exec_temperatureUpdate (field : Nat) (s : State) : exec (.temperatureUpdate field) s = execTemperatureUpdate field s := rfl
theorem exec_flitHop (router : Nat) (inPort : Nat) (cls : Fin 4) (vcb : Bool) (s : State) : exec (.flitHop router inPort cls vcb) s = execFlitHop router inPort cls vcb s := rfl
theorem exec_weirRelease (src : Nat) (part : Nat) (s : State) : exec (.weirRelease src part) s = execWeirRelease src part s := rfl
theorem exec_linkCrcMismatch (router : Nat) (port : Nat) (link : Nat) (flit : Nat) (s : State) : exec (.linkCrcMismatch router port link flit) s = execLinkCrcMismatch router port link flit s := rfl
theorem exec_laneTestDone (router : Nat) (port : Nat) (link : Nat) (r : LaneResult) (s : State) : exec (.laneTestDone router port link r) s = execLaneTestDone router port link r s := rfl
theorem exec_orderRun (router : Nat) (port : Nat) (s : State) : exec (.orderRun router port) s = execOrderRun router port s := rfl
theorem exec_orderEndstep (router : Nat) (port : Nat) (s : State) : exec (.orderEndstep router port) s = execOrderEndstep router port s := rfl
theorem exec_qlineArrival (l : Nat) (s : State) : exec (.qlineArrival l) s = execQlineArrival l s := rfl
theorem exec_accxArrival (l : Nat) (s : State) : exec (.accxArrival l) s = execAccxArrival l s := rfl
theorem exec_creditArrival (l : Nat) (s : State) : exec (.creditArrival l) s = execCreditArrival l s := rfl
theorem exec_xhdrArrival (l : Nat) (s : State) : exec (.xhdrArrival l) s = execXhdrArrival l s := rfl
theorem exec_xdataArrival (l : Nat) (s : State) : exec (.xdataArrival l) s = execXdataArrival l s := rfl
theorem exec_xackArrival (l : Nat) (s : State) : exec (.xackArrival l) s = execXackArrival l s := rfl
theorem exec_kvReservedSub (l : Nat) (s : State) : exec (.kvReservedSub l) s = execKvReservedSub l s := rfl
theorem exec_mgmtFlit (op : MgmtOp) (s : State) : exec (.mgmtFlit op) s = execMgmtFlit op s := rfl
theorem exec_rimRunnel (tile : Nat) (s : State) : exec (.rimRunnel tile) s = execRimRunnel tile s := rfl
theorem exec_rimEndnote (tile : Nat) (s : State) : exec (.rimEndnote tile) s = execRimEndnote tile s := rfl
theorem exec_rimTrace (s : State) : exec (.rimTrace) s = execRimTrace s := rfl
theorem exec_rimZendenChannel (tile : Nat) (s : State) : exec (.rimZendenChannel tile) s = execRimZendenChannel tile s := rfl
theorem exec_rimUnlistedChannel (tile : Nat) (s : State) : exec (.rimUnlistedChannel tile) s = execRimUnlistedChannel tile s := rfl
theorem exec_zendenGroupReceive (z : Nat) (g : ZGroup) (s : State) : exec (.zendenGroupReceive z g) s = execZendenGroupReceive z g s := rfl
theorem exec_zendenAckTimeout (z : Nat) (s : State) : exec (.zendenAckTimeout z) s = execZendenAckTimeout z s := rfl
theorem exec_zendenIdleHeader (z : Nat) (s : State) : exec (.zendenIdleHeader z) s = execZendenIdleHeader z s := rfl
theorem exec_zendenLinkDown (z : Nat) (why : ZDown) (s : State) : exec (.zendenLinkDown z why) s = execZendenLinkDown z why s := rfl
theorem exec_zendenLinkTrained (z : Nat) (peer : BitVec 64) (s : State) : exec (.zendenLinkTrained z peer) s = execZendenLinkTrained z peer s := rfl
theorem exec_ringFormReceive (index : Nat) (s : State) : exec (.ringFormReceive index) s = execRingFormReceive index s := rfl
theorem exec_ringDoneReceive (size : Nat) (s : State) : exec (.ringDoneReceive size) s = execRingDoneReceive size s := rfl
theorem exec_ringFormTimeout (s : State) : exec (.ringFormTimeout) s = execRingFormTimeout s := rfl
theorem exec_stepBoundary (part : Nat) (s : State) : exec (.stepBoundary part) s = execStepBoundary part s := rfl
theorem exec_boundarySeen (l : Nat) (s : State) : exec (.boundarySeen l) s = execBoundarySeen l s := rfl
theorem exec_stepWatchdogExpiry (part : Nat) (s : State) : exec (.stepWatchdogExpiry part) s = execStepWatchdogExpiry part s := rfl
theorem exec_partitionStop (part : Nat) (s : State) : exec (.partitionStop part) s = execPartitionStop part s := rfl
theorem exec_partitionFault (part : Nat) (s : State) : exec (.partitionFault part) s = execPartitionFault part s := rfl
theorem exec_faultRetestDone (part : Nat) (votes : List (Nat × Nat)) (s : State) : exec (.faultRetestDone part votes) s = execFaultRetestDone part votes s := rfl
theorem exec_partitionReloadDone (part : Nat) (s : State) : exec (.partitionReloadDone part) s = execPartitionReloadDone part s := rfl
theorem exec_configCrcRecompute (u : CfgUnit) (s : State) : exec (.configCrcRecompute u) s = execConfigCrcRecompute u s := rfl
theorem exec_configScrub (s : State) : exec (.configScrub) s = execConfigScrub s := rfl
theorem exec_calibrationScrub (s : State) : exec (.calibrationScrub) s = execCalibrationScrub s := rfl
theorem exec_driftSave (s : State) : exec (.driftSave) s = execDriftSave s := rfl
theorem exec_lockstepMismatch (p : Proc) (s : State) : exec (.lockstepMismatch p) s = execLockstepMismatch p s := rfl
theorem exec_holdClear (s : State) : exec (.holdClear) s = execHoldClear s := rfl
theorem exec_standbySelftestDone (p : Proc) (pass : Bool) (s : State) : exec (.standbySelftestDone p pass) s = execStandbySelftestDone p pass s := rfl
theorem exec_lamplighterError (s : State) : exec (.lamplighterError) s = execLamplighterError s := rfl
theorem exec_lamplighterRestartDone (s : State) : exec (.lamplighterRestartDone) s = execLamplighterRestartDone s := rfl
theorem exec_prefillDone (part : Nat) (tag : BitVec 64) (t : Tok) (s : State) : exec (.prefillDone part tag t) s = execPrefillDone part tag t s := rfl
theorem exec_decodePassDone (part : Nat) (tag : BitVec 64) (toks : List Tok) (drafts : List (BitVec 32)) (s : State) : exec (.decodePassDone part tag toks drafts) s = execDecodePassDone part tag toks drafts s := rfl
theorem exec_passStart (part : Nat) (tag : BitVec 64) (s : State) : exec (.passStart part tag) s = execPassStart part tag s := rfl
theorem exec_requestEnd (part : Nat) (tag : BitVec 64) (s : State) : exec (.requestEnd part tag) s = execRequestEnd part tag s := rfl
theorem exec_interruptTimer (fn : Fn) (src : IntSource) (s : State) : exec (.interruptTimer fn src) s = execInterruptTimer fn src s := rfl
theorem exec_cisternPauseDone (part : Nat) (tag : BitVec 64) (s : State) : exec (.cisternPauseDone part tag) s = execCisternPauseDone part tag s := rfl
theorem exec_cisternResumeDone (part : Nat) (tag : BitVec 64) (authOk : Bool) (s : State) : exec (.cisternResumeDone part tag authOk) s = execCisternResumeDone part tag authOk s := rfl
theorem exec_contextTtlExpiry (handle : BitVec 64) (s : State) : exec (.contextTtlExpiry handle) s = execContextTtlExpiry handle s := rfl
theorem exec_arrayProgrammingDone (l : Nat) (arr : Nat) (r : Bool) (s : State) : exec (.arrayProgrammingDone l arr r) s = execArrayProgrammingDone l arr r s := rfl
theorem exec_weightLoadIdleTimeout (part : Nat) (s : State) : exec (.weightLoadIdleTimeout part) s = execWeightLoadIdleTimeout part s := rfl
theorem exec_erasureDone (failed : List (Nat × Nat)) (s : State) : exec (.erasureDone failed) s = execErasureDone failed s := rfl
theorem exec_touchUpChunk (l : Nat) (arr : Nat) (ok : Bool) (s : State) : exec (.touchUpChunk l arr ok) s = execTouchUpChunk l arr ok s := rfl
theorem exec_refreshIdle (part : Nat) (s : State) : exec (.refreshIdle part) s = execRefreshIdle part s := rfl
theorem exec_pwrEnAssert (slotId : Fin 16) (s : State) : exec (.pwrEnAssert slotId) s = execPwrEnAssert slotId s := rfl
theorem exec_pwrEnDeassert (s : State) : exec (.pwrEnDeassert) s = execPwrEnDeassert s := rfl
theorem exec_powerDownSaveDone (s : State) : exec (.powerDownSaveDone) s = execPowerDownSaveDone s := rfl
theorem exec_j1Connect (mv : Nat) (s : State) : exec (.j1Connect mv) s = execJ1Connect mv s := rfl
theorem exec_inputOvervoltageWarn (mv : Nat) (s : State) : exec (.inputOvervoltageWarn mv) s = execInputOvervoltageWarn mv s := rfl
theorem exec_railFault (rail : Nat) (cause : Nat) (group : Nat) (mv : Nat) (s : State) : exec (.railFault rail cause group mv) s = execRailFault rail cause group mv s := rfl
theorem exec_phaseFailure (group : Nat) (s : State) : exec (.phaseFailure group) s = execPhaseFailure group s := rfl
theorem exec_hardTrip (comparator : Nat) (s : State) : exec (.hardTrip comparator) s = execHardTrip comparator s := rfl
theorem exec_perstAssert (p : HostPort) (s : State) : exec (.perstAssert p) s = execPerstAssert p s := rfl
theorem exec_perstDeassert (p : HostPort) (s : State) : exec (.perstDeassert p) s = execPerstDeassert p s := rfl
theorem exec_functionLevelReset (fn : Fn) (s : State) : exec (.functionLevelReset fn) s = execFunctionLevelReset fn s := rfl
theorem exec_hostLinkDown (p : HostPort) (s : State) : exec (.hostLinkDown p) s = execHostLinkDown p s := rfl
theorem exec_hostLinkReturn (p : HostPort) (s : State) : exec (.hostLinkReturn p) s = execHostLinkReturn p s := rfl
theorem exec_hostLinkHoldTimeout (p : HostPort) (s : State) : exec (.hostLinkHoldTimeout p) s = execHostLinkHoldTimeout p s := rfl
theorem exec_hostPortRetrain (p : HostPort) (ok : Bool) (s : State) : exec (.hostPortRetrain p ok) s = execHostPortRetrain p ok s := rfl
theorem exec_cableInsert (cage : Nat) (answers : Bool) (powerOk : Bool) (s : State) : exec (.cableInsert cage answers powerOk) s = execCableInsert cage answers powerOk s := rfl
theorem exec_sensorSample (r : Readings) (s : State) : exec (.sensorSample r) s = execSensorSample r s := rfl
theorem exec_coolantStopClear (s : State) : exec (.coolantStopClear) s = execCoolantStopClear s := rfl
theorem exec_thermalModelUpdate (s : State) : exec (.thermalModelUpdate) s = execThermalModelUpdate s := rfl
theorem exec_thermalDrainTimeout (part : Nat) (s : State) : exec (.thermalDrainTimeout part) s = execThermalDrainTimeout part s := rfl
theorem exec_thermalHoldRelease (part : Nat) (s : State) : exec (.thermalHoldRelease part) s = execThermalHoldRelease part s := rfl
theorem exec_capFactorUpdate (s : State) : exec (.capFactorUpdate) s = execCapFactorUpdate s := rfl
theorem exec_powerWindow (part : Nat) (mw : Nat) (s : State) : exec (.powerWindow part mw) s = execPowerWindow part mw s := rfl
theorem exec_flowEstimateUpdate (pin : Nat) (pcis : Nat) (s : State) : exec (.flowEstimateUpdate pin pcis) s = execFlowEstimateUpdate pin pcis s := rfl
theorem exec_flowBandRaise (s : State) : exec (.flowBandRaise) s = execFlowBandRaise s := rfl
theorem exec_pathResistanceSample (field : Nat) (points : List (Option Nat)) (mA : Nat) (s : State) : exec (.pathResistanceSample field points mA) s = execPathResistanceSample field points mA s := rfl
theorem exec_domainRampStart (field : Nat) (vcoreHeadroom : Nat) (vanaHeadroom : Nat) (s : State) : exec (.domainRampStart field vcoreHeadroom vanaHeadroom) s = execDomainRampStart field vcoreHeadroom vanaHeadroom s := rfl
theorem exec_rampHeadroomTimeout (field : Nat) (s : State) : exec (.rampHeadroomTimeout field) s = execRampHeadroomTimeout field s := rfl
theorem exec_domainRampDone (field : Nat) (s : State) : exec (.domainRampDone field) s = execDomainRampDone field s := rfl
theorem exec_lanternTimeAcquired (l : Nat) (s : State) : exec (.lanternTimeAcquired l) s = execLanternTimeAcquired l s := rfl
theorem exec_domainOffAfterWork (field : Nat) (s : State) : exec (.domainOffAfterWork field) s = execDomainOffAfterWork field s := rfl
theorem exec_vcoreVoltageStep (field : Nat) (s : State) : exec (.vcoreVoltageStep field) s = execVcoreVoltageStep field s := rfl
theorem exec_timeBaseBroadcast (s : State) : exec (.timeBaseBroadcast) s = execTimeBaseBroadcast s := rfl
theorem exec_vaonGood (s : State) : exec (.vaonGood) s = execVaonGood s := rfl
theorem exec_romSelftestDone (pass : Bool) (s : State) : exec (.romSelftestDone pass) s = execRomSelftestDone pass s := rfl
theorem exec_lamplighterFwStart (s : State) : exec (.lamplighterFwStart) s = execLamplighterFwStart s := rfl
theorem exec_firmwareMeasured (aOk : Bool) (bOk : Bool) (s : State) : exec (.firmwareMeasured aOk bOk) s = execFirmwareMeasured aOk bOk s := rfl
theorem exec_hostLinkTrained (p : HostPort) (ok : Bool) (s : State) : exec (.hostLinkTrained p ok) s = execHostLinkTrained p ok s := rfl
theorem exec_cisternTrainingDone (failed : List Nat) (s : State) : exec (.cisternTrainingDone failed) s = execCisternTrainingDone failed s := rfl
theorem exec_calibrationReconcile (s : State) : exec (.calibrationReconcile) s = execCalibrationReconcile s := rfl
theorem exec_fieldSelfTestDone (badRouters : List Nat) (badIslands : List Nat) (s : State) : exec (.fieldSelfTestDone badRouters badIslands) s = execFieldSelfTestDone badRouters badIslands s := rfl
theorem exec_neighbourTestDone (votes : List (Nat × Nat)) (s : State) : exec (.neighbourTestDone votes) s = execNeighbourTestDone votes s := rfl
theorem exec_repairMapApply (s : State) : exec (.repairMapApply) s = execRepairMapApply s := rfl
theorem exec_retentionCheckDone (event : Unit) (s : State) : exec (.retentionCheckDone event) s = execRetentionCheckDone event s := rfl
theorem exec_dormantRecordCheck (s : State) : exec (.dormantRecordCheck) s = execDormantRecordCheck s := rfl
theorem exec_readyAssert (s : State) : exec (.readyAssert) s = execReadyAssert s := rfl
theorem exec_spdmGetVersion (ep : SpdmEp) (s : State) : exec (.spdmGetVersion ep) s = execSpdmGetVersion ep s := rfl
theorem exec_spdmGetCapabilities (ep : SpdmEp) (s : State) : exec (.spdmGetCapabilities ep) s = execSpdmGetCapabilities ep s := rfl
theorem exec_spdmNegotiateAlgorithms (ep : SpdmEp) (s : State) : exec (.spdmNegotiateAlgorithms ep) s = execSpdmNegotiateAlgorithms ep s := rfl
theorem exec_spdmGetDigests (ep : SpdmEp) (s : State) : exec (.spdmGetDigests ep) s = execSpdmGetDigests ep s := rfl
theorem exec_spdmGetCertificate (ep : SpdmEp) (slot : Nat) (s : State) : exec (.spdmGetCertificate ep slot) s = execSpdmGetCertificate ep slot s := rfl
theorem exec_spdmChallenge (ep : SpdmEp) (slot : Nat) (nonce : BitVec 256) (s : State) : exec (.spdmChallenge ep slot nonce) s = execSpdmChallenge ep slot nonce s := rfl
theorem exec_spdmGetMeasurements (ep : SpdmEp) (index : Nat) (sign : Bool) (s : State) : exec (.spdmGetMeasurements ep index sign) s = execSpdmGetMeasurements ep index sign s := rfl
theorem exec_spdmKeyExchange (ep : SpdmEp) (reqSession : Nat) (s : State) : exec (.spdmKeyExchange ep reqSession) s = execSpdmKeyExchange ep reqSession s := rfl
theorem exec_spdmFinish (ep : SpdmEp) (session : Nat) (ok : Bool) (s : State) : exec (.spdmFinish ep session ok) s = execSpdmFinish ep session ok s := rfl
theorem exec_spdmHeartbeat (ep : SpdmEp) (session : Nat) (s : State) : exec (.spdmHeartbeat ep session) s = execSpdmHeartbeat ep session s := rfl
theorem exec_spdmKeyUpdate (ep : SpdmEp) (session : Nat) (s : State) : exec (.spdmKeyUpdate ep session) s = execSpdmKeyUpdate ep session s := rfl
theorem exec_spdmEndSession (ep : SpdmEp) (session : Nat) (s : State) : exec (.spdmEndSession ep session) s = execSpdmEndSession ep session s := rfl
theorem exec_spdmUnsupportedRequest (ep : SpdmEp) (code : Nat) (s : State) : exec (.spdmUnsupportedRequest ep code) s = execSpdmUnsupportedRequest ep code s := rfl
theorem exec_pldmFirmwareUpdate (image : List Byte) (s : State) : exec (.pldmFirmwareUpdate image) s = execPldmFirmwareUpdate image s := rfl
theorem exec_coolantKind (v : Nat) (s : State) : exec (.coolantKind v) s = execCoolantKind v s := rfl
theorem exec_pldmEventAck (mask : BitVec 32) (s : State) : exec (.pldmEventAck mask) s = execPldmEventAck mask s := rfl
theorem exec_dynamicAddressAssign (addr : BitVec 7) (s : State) : exec (.dynamicAddressAssign addr) s = execDynamicAddressAssign addr s := rfl
theorem exec_rstdaa (s : State) : exec (.rstdaa) s = execRstdaa s := rfl
theorem exec_thermTripRelease (s : State) : exec (.thermTripRelease) s = execThermTripRelease s := rfl
theorem exec_rimFunctionLost (tile : Nat) (s : State) : exec (.rimFunctionLost tile) s = execRimFunctionLost tile s := rfl
theorem exec_phaseUpdateDone (ok : Bool) (s : State) : exec (.phaseUpdateDone ok) s = execPhaseUpdateDone ok s := rfl
theorem exec_jtagInstruction (op : JtagOp) (s : State) : exec (.jtagInstruction op) s = execJtagInstruction op s := rfl
theorem exec_zendenActivateNotice (z : Nat) (s : State) : exec (.zendenActivateNotice z) s = execZendenActivateNotice z s := rfl
theorem exec_refreshWindowEnd (part : Nat) (s : State) : exec (.refreshWindowEnd part) s = execRefreshWindowEnd part s := rfl
theorem exec_powerDownRestart (s : State) : exec (.powerDownRestart) s = execPowerDownRestart s := rfl

end Sys2Proof.Machine
end

