-- ==== Sys2Proof/Laws/Table.lean ====
section
/-! SUPPORT. Sparse tables: a read after a write, and writes keep the canonical form. -/

namespace Sys2Proof.Machine

variable {α : Type}

@[simp] theorem tget_nil (d : α) (k : Nat) : tget d [] k = d := rfl

theorem tget_tdel_same (d : α) (m : SMap α) (k : Nat) : tget d (tdel m k) k = d := by
  induction m with
  | nil => rfl
  | cons e r ih =>
    obtain ⟨j, v⟩ := e
    by_cases h : j = k
    · simp [tdel, h, ih]
    · simp [tdel, tget, h, ih]

theorem tget_tdel_other (d : α) (m : SMap α) {k j : Nat} (h : j ≠ k) : tget d (tdel m k) j = tget d m j := by
  induction m with
  | nil => rfl
  | cons e r ih =>
    obtain ⟨i, v⟩ := e
    by_cases hi : i = k
    · subst hi; simp [tdel, tget, ih, Ne.symm h]
    · simp only [tdel, hi, if_false, tget, ih]

theorem tget_tins_same (d : α) (m : SMap α) (k : Nat) (v : α) : tget d (tins m k v) k = v := by
  induction m with
  | nil => simp [tins, tget]
  | cons e r ih =>
    obtain ⟨j, w⟩ := e
    by_cases h : j = k
    · simp [tins, tget, h]
    · by_cases hk : k < j <;> simp [tins, tget, h, hk, ih]

theorem tget_tins_other (d : α) (m : SMap α) {k j : Nat} (v : α) (h : j ≠ k) : tget d (tins m k v) j = tget d m j := by
  induction m with
  | nil => simp [tins, tget, Ne.symm h]
  | cons e r ih =>
    obtain ⟨i, w⟩ := e
    by_cases hi : i = k
    · subst hi; simp [tins, tget, Ne.symm h]
    · by_cases hk : k < i
      · simp [tins, tget, hi, hk, Ne.symm h]
      · simp only [tins, hi, hk, if_false, tget, ih]

/-- A read of the key written gives the value written. -/
@[simp] theorem tget_tset_same [DecidableEq α] (d : α) (m : SMap α) (k : Nat) (v : α) : tget d (tset d m k v) k = v := by
  unfold tset
  split
  · next h => rw [tget_tdel_same, h]
  · exact tget_tins_same d m k v

/-- A write leaves what every other key holds. -/
theorem tget_tset_other [DecidableEq α] (d : α) (m : SMap α) {k j : Nat} (v : α) (h : j ≠ k) : tget d (tset d m k v) j = tget d m j := by
  unfold tset
  split
  · exact tget_tdel_other d m h
  · exact tget_tins_other d m v h

theorem tget_tset [DecidableEq α] (d : α) (m : SMap α) (k j : Nat) (v : α) :
    tget d (tset d m k v) j = if j = k then v else tget d m j := by
  by_cases h : j = k
  · subst h; simp
  · simp [h, tget_tset_other]

@[simp] theorem tget_tupd_same [DecidableEq α] (d : α) (m : SMap α) (k : Nat) (f : α → α) : tget d (tupd d m k f) k = f (tget d m k) :=
  tget_tset_same d m k _

theorem tget_tupd_other [DecidableEq α] (d : α) (m : SMap α) {k j : Nat} (f : α → α) (h : j ≠ k) :
    tget d (tupd d m k f) j = tget d m j := tget_tset_other d m _ h

/-! ## Two writes of one key -/

theorem tins_tins (m : SMap α) (k : Nat) (v w : α) : tins (tins m k v) k w = tins m k w := by
  induction m with
  | nil => simp [tins]
  | cons e r ih =>
    obtain ⟨j, x⟩ := e
    by_cases h : j = k
    · simp [tins, h]
    · by_cases hk : k < j <;> simp [tins, h, hk, ih]

theorem tdel_tins (m : SMap α) (k : Nat) (v : α) : tdel (tins m k v) k = tdel m k := by
  induction m with
  | nil => simp [tins, tdel]
  | cons e r ih =>
    obtain ⟨j, x⟩ := e
    by_cases h : j = k
    · simp [tins, tdel, h]
    · by_cases hk : k < j <;> simp [tins, tdel, h, hk, ih]

/-- The second of two writes of a key stands. -/
theorem tset_tset [DecidableEq α] (d : α) (m : SMap α) (k : Nat) {v : α} (w : α) (hv : v ≠ d) : tset d (tset d m k v) k w = tset d m k w := by
  unfold tset
  simp only [hv, if_false, tins_tins, tdel_tins]

/-! ## The canonical form -/

/-- Keys strictly rising, each above b. -/
def tabove (b : Nat) : SMap α → Prop
  | [] => True
  | (j, _) :: r => b < j ∧ tabove j r

theorem tsorted_cons (j : Nat) (v : α) (r : SMap α) : tsorted ((j, v) :: r) = true ↔ tabove j r := by
  induction r generalizing j v with
  | nil => simp [tsorted, tabove]
  | cons e r ih => obtain ⟨k, w⟩ := e; simp [tsorted, tabove, ih]

theorem tabove_mono {b c : Nat} (h : b ≤ c) : ∀ {m : SMap α}, tabove c m → tabove b m
  | [], _ => trivial
  | _ :: _, hm => ⟨lt_of_le_of_lt h hm.1, hm.2⟩

theorem tabove_tdel (b : Nat) (m : SMap α) (k : Nat) (h : tabove b m) : tabove b (tdel m k) := by
  induction m generalizing b with
  | nil => trivial
  | cons e r ih =>
    obtain ⟨j, v⟩ := e
    by_cases hj : j = k
    · simpa [tdel, hj] using ih b (tabove_mono (le_of_lt h.1) h.2)
    · simp only [tdel, hj, if_false]; exact ⟨h.1, ih j h.2⟩

theorem tabove_tins (b : Nat) (m : SMap α) (k : Nat) (v : α) (hb : b < k) (h : tabove b m) : tabove b (tins m k v) := by
  induction m generalizing b with
  | nil => exact ⟨hb, trivial⟩
  | cons e r ih =>
    obtain ⟨j, w⟩ := e
    by_cases hj : j = k
    · subst hj; simpa [tins, tabove] using h
    · by_cases hk : k < j
      · simp only [tins, hj, if_false, hk, if_true]; exact ⟨hb, hk, h.2⟩
      · simp only [tins, hj, if_false, hk]; exact ⟨h.1, ih j (by omega) h.2⟩

theorem tsorted_iff (m : SMap α) : tsorted m = true ↔ (match m with | [] => True | (j, _) :: r => tabove j r) := by
  cases m with
  | nil => simp [tsorted]
  | cons e r => obtain ⟨j, v⟩ := e; exact tsorted_cons j v r

theorem tsorted_of_tabove {b : Nat} {m : SMap α} (h : tabove b m) : tsorted m = true := by
  rw [tsorted_iff]
  cases m with
  | nil => trivial
  | cons e r => exact h.2

theorem tsorted_tdel (m : SMap α) (k : Nat) (h : tsorted m = true) : tsorted (tdel m k) = true := by
  cases m with
  | nil => exact h
  | cons e r =>
    obtain ⟨j, v⟩ := e
    have hr := (tsorted_cons j v r).1 h
    by_cases hj : j = k
    · simp only [tdel, hj, if_true]; exact tsorted_of_tabove (tabove_tdel j r k hr)
    · simp only [tdel, hj, if_false]; exact (tsorted_cons _ _ _).2 (tabove_tdel j r k hr)

theorem tsorted_tins (m : SMap α) (k : Nat) (v : α) (h : tsorted m = true) : tsorted (tins m k v) = true := by
  cases m with
  | nil => rfl
  | cons e r =>
    obtain ⟨j, w⟩ := e
    have hr := (tsorted_cons j w r).1 h
    by_cases hj : j = k
    · subst hj; simp only [tins, if_true]; exact (tsorted_cons _ _ _).2 hr
    · by_cases hk : k < j
      · simp only [tins, hj, if_false, hk, if_true]; exact (tsorted_cons _ _ _).2 ⟨hk, hr⟩
      · simp only [tins, hj, if_false, hk]; exact (tsorted_cons _ _ _).2 (tabove_tins j r k v (by omega) hr)

theorem all_tdel (p : Nat × α → Bool) (m : SMap α) (k : Nat) (h : m.all p = true) : (tdel m k).all p = true := by
  induction m with
  | nil => exact h
  | cons e r ih =>
    obtain ⟨j, v⟩ := e
    simp only [List.all_cons, Bool.and_eq_true] at h
    by_cases hj : j = k
    · simp only [tdel, hj, if_true]; exact ih h.2
    · simp only [tdel, hj, if_false, List.all_cons, Bool.and_eq_true]; exact ⟨h.1, ih h.2⟩

theorem all_tins (p : Nat × α → Bool) (m : SMap α) (k : Nat) (v : α) (hv : p (k, v) = true) (h : m.all p = true) :
    (tins m k v).all p = true := by
  induction m with
  | nil => simpa [tins] using hv
  | cons e r ih =>
    obtain ⟨j, w⟩ := e
    simp only [List.all_cons, Bool.and_eq_true] at h
    by_cases hj : j = k
    · simp only [tins, hj, if_true, List.all_cons, Bool.and_eq_true]; exact ⟨hv, h.2⟩
    · by_cases hk : k < j
      · simp only [tins, hj, if_false, hk, if_true, List.all_cons, Bool.and_eq_true]; exact ⟨hv, h.1, h.2⟩
      · simp only [tins, hj, if_false, hk, List.all_cons, Bool.and_eq_true]; exact ⟨h.1, ih h.2⟩

/-- Every write keeps the canonical form. -/
theorem twf_tset [DecidableEq α] (d : α) (m : SMap α) (k : Nat) (v : α) (h : twf d m = true) : twf d (tset d m k v) = true := by
  unfold twf at *
  rw [Bool.and_eq_true] at *
  unfold tset
  split
  · exact ⟨tsorted_tdel m k h.1, all_tdel _ m k h.2⟩
  · next hv => exact ⟨tsorted_tins m k v h.1, all_tins _ m k v (by simpa using hv) h.2⟩

theorem twf_tupd [DecidableEq α] (d : α) (m : SMap α) (k : Nat) (f : α → α) (h : twf d m = true) : twf d (tupd d m k f) = true :=
  twf_tset d m k _ h

theorem twf_tfill [DecidableEq α] (d : α) (vs : List α) : ∀ (m : SMap α) (k : Nat), twf d m = true → twf d (tfill d m k vs) = true := by
  induction vs with
  | nil => intro m k h; exact h
  | cons v vs ih => intro m k h; exact ih _ _ (twf_tset d m k v h)

@[simp] theorem twf_nil [DecidableEq α] (d : α) : twf d ([] : SMap α) = true := rfl

end Sys2Proof.Machine
end

