-- ==== Sys2Proof/Laws/State.lean ====
section
/-! SUPPORT. What each update of one unit leaves: one lemma per field per update, and reads of units after updates. -/

namespace Sys2Proof.Machine

variable (s : State)

/-! ## setL -/

@[simp] theorem setL_pending (n : Nat) (x : Lantern) : (setL s n x).pending = s.pending := rfl
@[simp] theorem setL_now (n : Nat) (x : Lantern) : (setL s n x).now = s.now := rfl
@[simp] theorem setL_powered (n : Nat) (x : Lantern) : (setL s n x).powered = s.powered := rfl
@[simp] theorem setL_skew (n : Nat) (x : Lantern) : (setL s n x).skew = s.skew := rfl
@[simp] theorem setL_routers (n : Nat) (x : Lantern) : (setL s n x).routers = s.routers := rfl
@[simp] theorem setL_fields (n : Nat) (x : Lantern) : (setL s n x).fields = s.fields := rfl
@[simp] theorem setL_tiles (n : Nat) (x : Lantern) : (setL s n x).tiles = s.tiles := rfl
@[simp] theorem setL_rim (n : Nat) (x : Lantern) : (setL s n x).rim = s.rim := rfl
@[simp] theorem setL_zen (n : Nat) (x : Lantern) : (setL s n x).zen = s.zen := rfl
@[simp] theorem setL_funcs (n : Nat) (x : Lantern) : (setL s n x).funcs = s.funcs := rfl
@[simp] theorem setL_links (n : Nat) (x : Lantern) : (setL s n x).links = s.links := rfl
@[simp] theorem setL_out (n : Nat) (x : Lantern) : (setL s n x).out = s.out := rfl
@[simp] theorem setL_parts (n : Nat) (x : Lantern) : (setL s n x).parts = s.parts := rfl
@[simp] theorem setL_visit (n : Nat) (x : Lantern) : (setL s n x).visit = s.visit := rfl
@[simp] theorem setL_waiting (n : Nat) (x : Lantern) : (setL s n x).waiting = s.waiting := rfl
@[simp] theorem setL_contexts (n : Nat) (x : Lantern) : (setL s n x).contexts = s.contexts := rfl
@[simp] theorem setL_serial (n : Nat) (x : Lantern) : (setL s n x).serial = s.serial := rfl
@[simp] theorem setL_jobs (n : Nat) (x : Lantern) : (setL s n x).jobs = s.jobs := rfl
@[simp] theorem setL_erasing (n : Nat) (x : Lantern) : (setL s n x).erasing = s.erasing := rfl
@[simp] theorem setL_recal (n : Nat) (x : Lantern) : (setL s n x).recal = s.recal := rfl
@[simp] theorem setL_erased (n : Nat) (x : Lantern) : (setL s n x).erased = s.erased := rfl
@[simp] theorem setL_routes (n : Nat) (x : Lantern) : (setL s n x).routes = s.routes := rfl
@[simp] theorem setL_spares (n : Nat) (x : Lantern) : (setL s n x).spares = s.spares := rfl
@[simp] theorem setL_sparesNext (n : Nat) (x : Lantern) : (setL s n x).sparesNext = s.sparesNext := rfl
@[simp] theorem setL_badLanterns (n : Nat) (x : Lantern) : (setL s n x).badLanterns = s.badLanterns := rfl
@[simp] theorem setL_badRouters (n : Nat) (x : Lantern) : (setL s n x).badRouters = s.badRouters := rfl
@[simp] theorem setL_repair (n : Nat) (x : Lantern) : (setL s n x).repair = s.repair := rfl
@[simp] theorem setL_repair2 (n : Nat) (x : Lantern) : (setL s n x).repair2 = s.repair2 := rfl
@[simp] theorem setL_slotSpares (n : Nat) (x : Lantern) : (setL s n x).slotSpares = s.slotSpares := rfl
@[simp] theorem setL_dormant (n : Nat) (x : Lantern) : (setL s n x).dormant = s.dormant := rfl
@[simp] theorem setL_cal (n : Nat) (x : Lantern) : (setL s n x).cal = s.cal := rfl
@[simp] theorem setL_calRewrites (n : Nat) (x : Lantern) : (setL s n x).calRewrites = s.calRewrites := rfl
@[simp] theorem setL_setSeq (n : Nat) (x : Lantern) : (setL s n x).setSeq = s.setSeq := rfl
@[simp] theorem setL_cistern (n : Nat) (x : Lantern) : (setL s n x).cistern = s.cistern := rfl
@[simp] theorem setL_seqTag (n : Nat) (x : Lantern) : (setL s n x).seqTag = s.seqTag := rfl
@[simp] theorem setL_badChannels (n : Nat) (x : Lantern) : (setL s n x).badChannels = s.badChannels := rfl
@[simp] theorem setL_draws (n : Nat) (x : Lantern) : (setL s n x).draws = s.draws := rfl
@[simp] theorem setL_sec (n : Nat) (x : Lantern) : (setL s n x).sec = s.sec := rfl
@[simp] theorem setL_boot (n : Nat) (x : Lantern) : (setL s n x).boot = s.boot := rfl
@[simp] theorem setL_plant (n : Nat) (x : Lantern) : (setL s n x).plant = s.plant := rfl
@[simp] theorem setL_ring (n : Nat) (x : Lantern) : (setL s n x).ring = s.ring := rfl
@[simp] theorem setL_mgmt (n : Nat) (x : Lantern) : (setL s n x).mgmt = s.mgmt := rfl

/-! ## setR -/

@[simp] theorem setR_pending (n : Nat) (x : Router) : (setR s n x).pending = s.pending := rfl
@[simp] theorem setR_now (n : Nat) (x : Router) : (setR s n x).now = s.now := rfl
@[simp] theorem setR_powered (n : Nat) (x : Router) : (setR s n x).powered = s.powered := rfl
@[simp] theorem setR_skew (n : Nat) (x : Router) : (setR s n x).skew = s.skew := rfl
@[simp] theorem setR_lanterns (n : Nat) (x : Router) : (setR s n x).lanterns = s.lanterns := rfl
@[simp] theorem setR_fields (n : Nat) (x : Router) : (setR s n x).fields = s.fields := rfl
@[simp] theorem setR_tiles (n : Nat) (x : Router) : (setR s n x).tiles = s.tiles := rfl
@[simp] theorem setR_rim (n : Nat) (x : Router) : (setR s n x).rim = s.rim := rfl
@[simp] theorem setR_zen (n : Nat) (x : Router) : (setR s n x).zen = s.zen := rfl
@[simp] theorem setR_funcs (n : Nat) (x : Router) : (setR s n x).funcs = s.funcs := rfl
@[simp] theorem setR_links (n : Nat) (x : Router) : (setR s n x).links = s.links := rfl
@[simp] theorem setR_out (n : Nat) (x : Router) : (setR s n x).out = s.out := rfl
@[simp] theorem setR_parts (n : Nat) (x : Router) : (setR s n x).parts = s.parts := rfl
@[simp] theorem setR_visit (n : Nat) (x : Router) : (setR s n x).visit = s.visit := rfl
@[simp] theorem setR_waiting (n : Nat) (x : Router) : (setR s n x).waiting = s.waiting := rfl
@[simp] theorem setR_contexts (n : Nat) (x : Router) : (setR s n x).contexts = s.contexts := rfl
@[simp] theorem setR_serial (n : Nat) (x : Router) : (setR s n x).serial = s.serial := rfl
@[simp] theorem setR_jobs (n : Nat) (x : Router) : (setR s n x).jobs = s.jobs := rfl
@[simp] theorem setR_erasing (n : Nat) (x : Router) : (setR s n x).erasing = s.erasing := rfl
@[simp] theorem setR_recal (n : Nat) (x : Router) : (setR s n x).recal = s.recal := rfl
@[simp] theorem setR_erased (n : Nat) (x : Router) : (setR s n x).erased = s.erased := rfl
@[simp] theorem setR_routes (n : Nat) (x : Router) : (setR s n x).routes = s.routes := rfl
@[simp] theorem setR_spares (n : Nat) (x : Router) : (setR s n x).spares = s.spares := rfl
@[simp] theorem setR_sparesNext (n : Nat) (x : Router) : (setR s n x).sparesNext = s.sparesNext := rfl
@[simp] theorem setR_badLanterns (n : Nat) (x : Router) : (setR s n x).badLanterns = s.badLanterns := rfl
@[simp] theorem setR_badRouters (n : Nat) (x : Router) : (setR s n x).badRouters = s.badRouters := rfl
@[simp] theorem setR_repair (n : Nat) (x : Router) : (setR s n x).repair = s.repair := rfl
@[simp] theorem setR_repair2 (n : Nat) (x : Router) : (setR s n x).repair2 = s.repair2 := rfl
@[simp] theorem setR_slotSpares (n : Nat) (x : Router) : (setR s n x).slotSpares = s.slotSpares := rfl
@[simp] theorem setR_dormant (n : Nat) (x : Router) : (setR s n x).dormant = s.dormant := rfl
@[simp] theorem setR_cal (n : Nat) (x : Router) : (setR s n x).cal = s.cal := rfl
@[simp] theorem setR_calRewrites (n : Nat) (x : Router) : (setR s n x).calRewrites = s.calRewrites := rfl
@[simp] theorem setR_setSeq (n : Nat) (x : Router) : (setR s n x).setSeq = s.setSeq := rfl
@[simp] theorem setR_cistern (n : Nat) (x : Router) : (setR s n x).cistern = s.cistern := rfl
@[simp] theorem setR_seqTag (n : Nat) (x : Router) : (setR s n x).seqTag = s.seqTag := rfl
@[simp] theorem setR_badChannels (n : Nat) (x : Router) : (setR s n x).badChannels = s.badChannels := rfl
@[simp] theorem setR_draws (n : Nat) (x : Router) : (setR s n x).draws = s.draws := rfl
@[simp] theorem setR_sec (n : Nat) (x : Router) : (setR s n x).sec = s.sec := rfl
@[simp] theorem setR_boot (n : Nat) (x : Router) : (setR s n x).boot = s.boot := rfl
@[simp] theorem setR_plant (n : Nat) (x : Router) : (setR s n x).plant = s.plant := rfl
@[simp] theorem setR_ring (n : Nat) (x : Router) : (setR s n x).ring = s.ring := rfl
@[simp] theorem setR_mgmt (n : Nat) (x : Router) : (setR s n x).mgmt = s.mgmt := rfl

/-! ## setF -/

@[simp] theorem setF_pending (n : Nat) (x : Field) : (setF s n x).pending = s.pending := rfl
@[simp] theorem setF_now (n : Nat) (x : Field) : (setF s n x).now = s.now := rfl
@[simp] theorem setF_powered (n : Nat) (x : Field) : (setF s n x).powered = s.powered := rfl
@[simp] theorem setF_skew (n : Nat) (x : Field) : (setF s n x).skew = s.skew := rfl
@[simp] theorem setF_lanterns (n : Nat) (x : Field) : (setF s n x).lanterns = s.lanterns := rfl
@[simp] theorem setF_routers (n : Nat) (x : Field) : (setF s n x).routers = s.routers := rfl
@[simp] theorem setF_tiles (n : Nat) (x : Field) : (setF s n x).tiles = s.tiles := rfl
@[simp] theorem setF_rim (n : Nat) (x : Field) : (setF s n x).rim = s.rim := rfl
@[simp] theorem setF_zen (n : Nat) (x : Field) : (setF s n x).zen = s.zen := rfl
@[simp] theorem setF_funcs (n : Nat) (x : Field) : (setF s n x).funcs = s.funcs := rfl
@[simp] theorem setF_links (n : Nat) (x : Field) : (setF s n x).links = s.links := rfl
@[simp] theorem setF_out (n : Nat) (x : Field) : (setF s n x).out = s.out := rfl
@[simp] theorem setF_parts (n : Nat) (x : Field) : (setF s n x).parts = s.parts := rfl
@[simp] theorem setF_visit (n : Nat) (x : Field) : (setF s n x).visit = s.visit := rfl
@[simp] theorem setF_waiting (n : Nat) (x : Field) : (setF s n x).waiting = s.waiting := rfl
@[simp] theorem setF_contexts (n : Nat) (x : Field) : (setF s n x).contexts = s.contexts := rfl
@[simp] theorem setF_serial (n : Nat) (x : Field) : (setF s n x).serial = s.serial := rfl
@[simp] theorem setF_jobs (n : Nat) (x : Field) : (setF s n x).jobs = s.jobs := rfl
@[simp] theorem setF_erasing (n : Nat) (x : Field) : (setF s n x).erasing = s.erasing := rfl
@[simp] theorem setF_recal (n : Nat) (x : Field) : (setF s n x).recal = s.recal := rfl
@[simp] theorem setF_erased (n : Nat) (x : Field) : (setF s n x).erased = s.erased := rfl
@[simp] theorem setF_routes (n : Nat) (x : Field) : (setF s n x).routes = s.routes := rfl
@[simp] theorem setF_spares (n : Nat) (x : Field) : (setF s n x).spares = s.spares := rfl
@[simp] theorem setF_sparesNext (n : Nat) (x : Field) : (setF s n x).sparesNext = s.sparesNext := rfl
@[simp] theorem setF_badLanterns (n : Nat) (x : Field) : (setF s n x).badLanterns = s.badLanterns := rfl
@[simp] theorem setF_badRouters (n : Nat) (x : Field) : (setF s n x).badRouters = s.badRouters := rfl
@[simp] theorem setF_repair (n : Nat) (x : Field) : (setF s n x).repair = s.repair := rfl
@[simp] theorem setF_repair2 (n : Nat) (x : Field) : (setF s n x).repair2 = s.repair2 := rfl
@[simp] theorem setF_slotSpares (n : Nat) (x : Field) : (setF s n x).slotSpares = s.slotSpares := rfl
@[simp] theorem setF_dormant (n : Nat) (x : Field) : (setF s n x).dormant = s.dormant := rfl
@[simp] theorem setF_cal (n : Nat) (x : Field) : (setF s n x).cal = s.cal := rfl
@[simp] theorem setF_calRewrites (n : Nat) (x : Field) : (setF s n x).calRewrites = s.calRewrites := rfl
@[simp] theorem setF_setSeq (n : Nat) (x : Field) : (setF s n x).setSeq = s.setSeq := rfl
@[simp] theorem setF_cistern (n : Nat) (x : Field) : (setF s n x).cistern = s.cistern := rfl
@[simp] theorem setF_seqTag (n : Nat) (x : Field) : (setF s n x).seqTag = s.seqTag := rfl
@[simp] theorem setF_badChannels (n : Nat) (x : Field) : (setF s n x).badChannels = s.badChannels := rfl
@[simp] theorem setF_draws (n : Nat) (x : Field) : (setF s n x).draws = s.draws := rfl
@[simp] theorem setF_sec (n : Nat) (x : Field) : (setF s n x).sec = s.sec := rfl
@[simp] theorem setF_boot (n : Nat) (x : Field) : (setF s n x).boot = s.boot := rfl
@[simp] theorem setF_plant (n : Nat) (x : Field) : (setF s n x).plant = s.plant := rfl
@[simp] theorem setF_ring (n : Nat) (x : Field) : (setF s n x).ring = s.ring := rfl
@[simp] theorem setF_mgmt (n : Nat) (x : Field) : (setF s n x).mgmt = s.mgmt := rfl

/-! ## setT -/

@[simp] theorem setT_pending (n : Nat) (x : RimTile) : (setT s n x).pending = s.pending := rfl
@[simp] theorem setT_now (n : Nat) (x : RimTile) : (setT s n x).now = s.now := rfl
@[simp] theorem setT_powered (n : Nat) (x : RimTile) : (setT s n x).powered = s.powered := rfl
@[simp] theorem setT_skew (n : Nat) (x : RimTile) : (setT s n x).skew = s.skew := rfl
@[simp] theorem setT_lanterns (n : Nat) (x : RimTile) : (setT s n x).lanterns = s.lanterns := rfl
@[simp] theorem setT_routers (n : Nat) (x : RimTile) : (setT s n x).routers = s.routers := rfl
@[simp] theorem setT_fields (n : Nat) (x : RimTile) : (setT s n x).fields = s.fields := rfl
@[simp] theorem setT_rim (n : Nat) (x : RimTile) : (setT s n x).rim = s.rim := rfl
@[simp] theorem setT_zen (n : Nat) (x : RimTile) : (setT s n x).zen = s.zen := rfl
@[simp] theorem setT_funcs (n : Nat) (x : RimTile) : (setT s n x).funcs = s.funcs := rfl
@[simp] theorem setT_links (n : Nat) (x : RimTile) : (setT s n x).links = s.links := rfl
@[simp] theorem setT_out (n : Nat) (x : RimTile) : (setT s n x).out = s.out := rfl
@[simp] theorem setT_parts (n : Nat) (x : RimTile) : (setT s n x).parts = s.parts := rfl
@[simp] theorem setT_visit (n : Nat) (x : RimTile) : (setT s n x).visit = s.visit := rfl
@[simp] theorem setT_waiting (n : Nat) (x : RimTile) : (setT s n x).waiting = s.waiting := rfl
@[simp] theorem setT_contexts (n : Nat) (x : RimTile) : (setT s n x).contexts = s.contexts := rfl
@[simp] theorem setT_serial (n : Nat) (x : RimTile) : (setT s n x).serial = s.serial := rfl
@[simp] theorem setT_jobs (n : Nat) (x : RimTile) : (setT s n x).jobs = s.jobs := rfl
@[simp] theorem setT_erasing (n : Nat) (x : RimTile) : (setT s n x).erasing = s.erasing := rfl
@[simp] theorem setT_recal (n : Nat) (x : RimTile) : (setT s n x).recal = s.recal := rfl
@[simp] theorem setT_erased (n : Nat) (x : RimTile) : (setT s n x).erased = s.erased := rfl
@[simp] theorem setT_routes (n : Nat) (x : RimTile) : (setT s n x).routes = s.routes := rfl
@[simp] theorem setT_spares (n : Nat) (x : RimTile) : (setT s n x).spares = s.spares := rfl
@[simp] theorem setT_sparesNext (n : Nat) (x : RimTile) : (setT s n x).sparesNext = s.sparesNext := rfl
@[simp] theorem setT_badLanterns (n : Nat) (x : RimTile) : (setT s n x).badLanterns = s.badLanterns := rfl
@[simp] theorem setT_badRouters (n : Nat) (x : RimTile) : (setT s n x).badRouters = s.badRouters := rfl
@[simp] theorem setT_repair (n : Nat) (x : RimTile) : (setT s n x).repair = s.repair := rfl
@[simp] theorem setT_repair2 (n : Nat) (x : RimTile) : (setT s n x).repair2 = s.repair2 := rfl
@[simp] theorem setT_slotSpares (n : Nat) (x : RimTile) : (setT s n x).slotSpares = s.slotSpares := rfl
@[simp] theorem setT_dormant (n : Nat) (x : RimTile) : (setT s n x).dormant = s.dormant := rfl
@[simp] theorem setT_cal (n : Nat) (x : RimTile) : (setT s n x).cal = s.cal := rfl
@[simp] theorem setT_calRewrites (n : Nat) (x : RimTile) : (setT s n x).calRewrites = s.calRewrites := rfl
@[simp] theorem setT_setSeq (n : Nat) (x : RimTile) : (setT s n x).setSeq = s.setSeq := rfl
@[simp] theorem setT_cistern (n : Nat) (x : RimTile) : (setT s n x).cistern = s.cistern := rfl
@[simp] theorem setT_seqTag (n : Nat) (x : RimTile) : (setT s n x).seqTag = s.seqTag := rfl
@[simp] theorem setT_badChannels (n : Nat) (x : RimTile) : (setT s n x).badChannels = s.badChannels := rfl
@[simp] theorem setT_draws (n : Nat) (x : RimTile) : (setT s n x).draws = s.draws := rfl
@[simp] theorem setT_sec (n : Nat) (x : RimTile) : (setT s n x).sec = s.sec := rfl
@[simp] theorem setT_boot (n : Nat) (x : RimTile) : (setT s n x).boot = s.boot := rfl
@[simp] theorem setT_plant (n : Nat) (x : RimTile) : (setT s n x).plant = s.plant := rfl
@[simp] theorem setT_ring (n : Nat) (x : RimTile) : (setT s n x).ring = s.ring := rfl
@[simp] theorem setT_mgmt (n : Nat) (x : RimTile) : (setT s n x).mgmt = s.mgmt := rfl

/-! ## setZ -/

@[simp] theorem setZ_pending (n : Nat) (x : Zenden) : (setZ s n x).pending = s.pending := rfl
@[simp] theorem setZ_now (n : Nat) (x : Zenden) : (setZ s n x).now = s.now := rfl
@[simp] theorem setZ_powered (n : Nat) (x : Zenden) : (setZ s n x).powered = s.powered := rfl
@[simp] theorem setZ_skew (n : Nat) (x : Zenden) : (setZ s n x).skew = s.skew := rfl
@[simp] theorem setZ_lanterns (n : Nat) (x : Zenden) : (setZ s n x).lanterns = s.lanterns := rfl
@[simp] theorem setZ_routers (n : Nat) (x : Zenden) : (setZ s n x).routers = s.routers := rfl
@[simp] theorem setZ_fields (n : Nat) (x : Zenden) : (setZ s n x).fields = s.fields := rfl
@[simp] theorem setZ_tiles (n : Nat) (x : Zenden) : (setZ s n x).tiles = s.tiles := rfl
@[simp] theorem setZ_rim (n : Nat) (x : Zenden) : (setZ s n x).rim = s.rim := rfl
@[simp] theorem setZ_funcs (n : Nat) (x : Zenden) : (setZ s n x).funcs = s.funcs := rfl
@[simp] theorem setZ_links (n : Nat) (x : Zenden) : (setZ s n x).links = s.links := rfl
@[simp] theorem setZ_out (n : Nat) (x : Zenden) : (setZ s n x).out = s.out := rfl
@[simp] theorem setZ_parts (n : Nat) (x : Zenden) : (setZ s n x).parts = s.parts := rfl
@[simp] theorem setZ_visit (n : Nat) (x : Zenden) : (setZ s n x).visit = s.visit := rfl
@[simp] theorem setZ_waiting (n : Nat) (x : Zenden) : (setZ s n x).waiting = s.waiting := rfl
@[simp] theorem setZ_contexts (n : Nat) (x : Zenden) : (setZ s n x).contexts = s.contexts := rfl
@[simp] theorem setZ_serial (n : Nat) (x : Zenden) : (setZ s n x).serial = s.serial := rfl
@[simp] theorem setZ_jobs (n : Nat) (x : Zenden) : (setZ s n x).jobs = s.jobs := rfl
@[simp] theorem setZ_erasing (n : Nat) (x : Zenden) : (setZ s n x).erasing = s.erasing := rfl
@[simp] theorem setZ_recal (n : Nat) (x : Zenden) : (setZ s n x).recal = s.recal := rfl
@[simp] theorem setZ_erased (n : Nat) (x : Zenden) : (setZ s n x).erased = s.erased := rfl
@[simp] theorem setZ_routes (n : Nat) (x : Zenden) : (setZ s n x).routes = s.routes := rfl
@[simp] theorem setZ_spares (n : Nat) (x : Zenden) : (setZ s n x).spares = s.spares := rfl
@[simp] theorem setZ_sparesNext (n : Nat) (x : Zenden) : (setZ s n x).sparesNext = s.sparesNext := rfl
@[simp] theorem setZ_badLanterns (n : Nat) (x : Zenden) : (setZ s n x).badLanterns = s.badLanterns := rfl
@[simp] theorem setZ_badRouters (n : Nat) (x : Zenden) : (setZ s n x).badRouters = s.badRouters := rfl
@[simp] theorem setZ_repair (n : Nat) (x : Zenden) : (setZ s n x).repair = s.repair := rfl
@[simp] theorem setZ_repair2 (n : Nat) (x : Zenden) : (setZ s n x).repair2 = s.repair2 := rfl
@[simp] theorem setZ_slotSpares (n : Nat) (x : Zenden) : (setZ s n x).slotSpares = s.slotSpares := rfl
@[simp] theorem setZ_dormant (n : Nat) (x : Zenden) : (setZ s n x).dormant = s.dormant := rfl
@[simp] theorem setZ_cal (n : Nat) (x : Zenden) : (setZ s n x).cal = s.cal := rfl
@[simp] theorem setZ_calRewrites (n : Nat) (x : Zenden) : (setZ s n x).calRewrites = s.calRewrites := rfl
@[simp] theorem setZ_setSeq (n : Nat) (x : Zenden) : (setZ s n x).setSeq = s.setSeq := rfl
@[simp] theorem setZ_cistern (n : Nat) (x : Zenden) : (setZ s n x).cistern = s.cistern := rfl
@[simp] theorem setZ_seqTag (n : Nat) (x : Zenden) : (setZ s n x).seqTag = s.seqTag := rfl
@[simp] theorem setZ_badChannels (n : Nat) (x : Zenden) : (setZ s n x).badChannels = s.badChannels := rfl
@[simp] theorem setZ_draws (n : Nat) (x : Zenden) : (setZ s n x).draws = s.draws := rfl
@[simp] theorem setZ_sec (n : Nat) (x : Zenden) : (setZ s n x).sec = s.sec := rfl
@[simp] theorem setZ_boot (n : Nat) (x : Zenden) : (setZ s n x).boot = s.boot := rfl
@[simp] theorem setZ_plant (n : Nat) (x : Zenden) : (setZ s n x).plant = s.plant := rfl
@[simp] theorem setZ_ring (n : Nat) (x : Zenden) : (setZ s n x).ring = s.ring := rfl
@[simp] theorem setZ_mgmt (n : Nat) (x : Zenden) : (setZ s n x).mgmt = s.mgmt := rfl

/-! ## setFn -/

@[simp] theorem setFn_pending (n : Fn) (x : Func) : (setFn s n x).pending = s.pending := rfl
@[simp] theorem setFn_now (n : Fn) (x : Func) : (setFn s n x).now = s.now := rfl
@[simp] theorem setFn_powered (n : Fn) (x : Func) : (setFn s n x).powered = s.powered := rfl
@[simp] theorem setFn_skew (n : Fn) (x : Func) : (setFn s n x).skew = s.skew := rfl
@[simp] theorem setFn_lanterns (n : Fn) (x : Func) : (setFn s n x).lanterns = s.lanterns := rfl
@[simp] theorem setFn_routers (n : Fn) (x : Func) : (setFn s n x).routers = s.routers := rfl
@[simp] theorem setFn_fields (n : Fn) (x : Func) : (setFn s n x).fields = s.fields := rfl
@[simp] theorem setFn_tiles (n : Fn) (x : Func) : (setFn s n x).tiles = s.tiles := rfl
@[simp] theorem setFn_rim (n : Fn) (x : Func) : (setFn s n x).rim = s.rim := rfl
@[simp] theorem setFn_zen (n : Fn) (x : Func) : (setFn s n x).zen = s.zen := rfl
@[simp] theorem setFn_links (n : Fn) (x : Func) : (setFn s n x).links = s.links := rfl
@[simp] theorem setFn_out (n : Fn) (x : Func) : (setFn s n x).out = s.out := rfl
@[simp] theorem setFn_parts (n : Fn) (x : Func) : (setFn s n x).parts = s.parts := rfl
@[simp] theorem setFn_visit (n : Fn) (x : Func) : (setFn s n x).visit = s.visit := rfl
@[simp] theorem setFn_waiting (n : Fn) (x : Func) : (setFn s n x).waiting = s.waiting := rfl
@[simp] theorem setFn_contexts (n : Fn) (x : Func) : (setFn s n x).contexts = s.contexts := rfl
@[simp] theorem setFn_serial (n : Fn) (x : Func) : (setFn s n x).serial = s.serial := rfl
@[simp] theorem setFn_jobs (n : Fn) (x : Func) : (setFn s n x).jobs = s.jobs := rfl
@[simp] theorem setFn_erasing (n : Fn) (x : Func) : (setFn s n x).erasing = s.erasing := rfl
@[simp] theorem setFn_recal (n : Fn) (x : Func) : (setFn s n x).recal = s.recal := rfl
@[simp] theorem setFn_erased (n : Fn) (x : Func) : (setFn s n x).erased = s.erased := rfl
@[simp] theorem setFn_routes (n : Fn) (x : Func) : (setFn s n x).routes = s.routes := rfl
@[simp] theorem setFn_spares (n : Fn) (x : Func) : (setFn s n x).spares = s.spares := rfl
@[simp] theorem setFn_sparesNext (n : Fn) (x : Func) : (setFn s n x).sparesNext = s.sparesNext := rfl
@[simp] theorem setFn_badLanterns (n : Fn) (x : Func) : (setFn s n x).badLanterns = s.badLanterns := rfl
@[simp] theorem setFn_badRouters (n : Fn) (x : Func) : (setFn s n x).badRouters = s.badRouters := rfl
@[simp] theorem setFn_repair (n : Fn) (x : Func) : (setFn s n x).repair = s.repair := rfl
@[simp] theorem setFn_repair2 (n : Fn) (x : Func) : (setFn s n x).repair2 = s.repair2 := rfl
@[simp] theorem setFn_slotSpares (n : Fn) (x : Func) : (setFn s n x).slotSpares = s.slotSpares := rfl
@[simp] theorem setFn_dormant (n : Fn) (x : Func) : (setFn s n x).dormant = s.dormant := rfl
@[simp] theorem setFn_cal (n : Fn) (x : Func) : (setFn s n x).cal = s.cal := rfl
@[simp] theorem setFn_calRewrites (n : Fn) (x : Func) : (setFn s n x).calRewrites = s.calRewrites := rfl
@[simp] theorem setFn_setSeq (n : Fn) (x : Func) : (setFn s n x).setSeq = s.setSeq := rfl
@[simp] theorem setFn_cistern (n : Fn) (x : Func) : (setFn s n x).cistern = s.cistern := rfl
@[simp] theorem setFn_seqTag (n : Fn) (x : Func) : (setFn s n x).seqTag = s.seqTag := rfl
@[simp] theorem setFn_badChannels (n : Fn) (x : Func) : (setFn s n x).badChannels = s.badChannels := rfl
@[simp] theorem setFn_draws (n : Fn) (x : Func) : (setFn s n x).draws = s.draws := rfl
@[simp] theorem setFn_sec (n : Fn) (x : Func) : (setFn s n x).sec = s.sec := rfl
@[simp] theorem setFn_boot (n : Fn) (x : Func) : (setFn s n x).boot = s.boot := rfl
@[simp] theorem setFn_plant (n : Fn) (x : Func) : (setFn s n x).plant = s.plant := rfl
@[simp] theorem setFn_ring (n : Fn) (x : Func) : (setFn s n x).ring = s.ring := rfl
@[simp] theorem setFn_mgmt (n : Fn) (x : Func) : (setFn s n x).mgmt = s.mgmt := rfl

/-! ## updLink -/

@[simp] theorem updLink_pending (p : HostPort) (f : HostLink → HostLink) : (updLink s p f).pending = s.pending := rfl
@[simp] theorem updLink_now (p : HostPort) (f : HostLink → HostLink) : (updLink s p f).now = s.now := rfl
@[simp] theorem updLink_powered (p : HostPort) (f : HostLink → HostLink) : (updLink s p f).powered = s.powered := rfl
@[simp] theorem updLink_skew (p : HostPort) (f : HostLink → HostLink) : (updLink s p f).skew = s.skew := rfl
@[simp] theorem updLink_lanterns (p : HostPort) (f : HostLink → HostLink) : (updLink s p f).lanterns = s.lanterns := rfl
@[simp] theorem updLink_routers (p : HostPort) (f : HostLink → HostLink) : (updLink s p f).routers = s.routers := rfl
@[simp] theorem updLink_fields (p : HostPort) (f : HostLink → HostLink) : (updLink s p f).fields = s.fields := rfl
@[simp] theorem updLink_tiles (p : HostPort) (f : HostLink → HostLink) : (updLink s p f).tiles = s.tiles := rfl
@[simp] theorem updLink_rim (p : HostPort) (f : HostLink → HostLink) : (updLink s p f).rim = s.rim := rfl
@[simp] theorem updLink_zen (p : HostPort) (f : HostLink → HostLink) : (updLink s p f).zen = s.zen := rfl
@[simp] theorem updLink_funcs (p : HostPort) (f : HostLink → HostLink) : (updLink s p f).funcs = s.funcs := rfl
@[simp] theorem updLink_out (p : HostPort) (f : HostLink → HostLink) : (updLink s p f).out = s.out := rfl
@[simp] theorem updLink_parts (p : HostPort) (f : HostLink → HostLink) : (updLink s p f).parts = s.parts := rfl
@[simp] theorem updLink_visit (p : HostPort) (f : HostLink → HostLink) : (updLink s p f).visit = s.visit := rfl
@[simp] theorem updLink_waiting (p : HostPort) (f : HostLink → HostLink) : (updLink s p f).waiting = s.waiting := rfl
@[simp] theorem updLink_contexts (p : HostPort) (f : HostLink → HostLink) : (updLink s p f).contexts = s.contexts := rfl
@[simp] theorem updLink_serial (p : HostPort) (f : HostLink → HostLink) : (updLink s p f).serial = s.serial := rfl
@[simp] theorem updLink_jobs (p : HostPort) (f : HostLink → HostLink) : (updLink s p f).jobs = s.jobs := rfl
@[simp] theorem updLink_erasing (p : HostPort) (f : HostLink → HostLink) : (updLink s p f).erasing = s.erasing := rfl
@[simp] theorem updLink_recal (p : HostPort) (f : HostLink → HostLink) : (updLink s p f).recal = s.recal := rfl
@[simp] theorem updLink_erased (p : HostPort) (f : HostLink → HostLink) : (updLink s p f).erased = s.erased := rfl
@[simp] theorem updLink_routes (p : HostPort) (f : HostLink → HostLink) : (updLink s p f).routes = s.routes := rfl
@[simp] theorem updLink_spares (p : HostPort) (f : HostLink → HostLink) : (updLink s p f).spares = s.spares := rfl
@[simp] theorem updLink_sparesNext (p : HostPort) (f : HostLink → HostLink) : (updLink s p f).sparesNext = s.sparesNext := rfl
@[simp] theorem updLink_badLanterns (p : HostPort) (f : HostLink → HostLink) : (updLink s p f).badLanterns = s.badLanterns := rfl
@[simp] theorem updLink_badRouters (p : HostPort) (f : HostLink → HostLink) : (updLink s p f).badRouters = s.badRouters := rfl
@[simp] theorem updLink_repair (p : HostPort) (f : HostLink → HostLink) : (updLink s p f).repair = s.repair := rfl
@[simp] theorem updLink_repair2 (p : HostPort) (f : HostLink → HostLink) : (updLink s p f).repair2 = s.repair2 := rfl
@[simp] theorem updLink_slotSpares (p : HostPort) (f : HostLink → HostLink) : (updLink s p f).slotSpares = s.slotSpares := rfl
@[simp] theorem updLink_dormant (p : HostPort) (f : HostLink → HostLink) : (updLink s p f).dormant = s.dormant := rfl
@[simp] theorem updLink_cal (p : HostPort) (f : HostLink → HostLink) : (updLink s p f).cal = s.cal := rfl
@[simp] theorem updLink_calRewrites (p : HostPort) (f : HostLink → HostLink) : (updLink s p f).calRewrites = s.calRewrites := rfl
@[simp] theorem updLink_setSeq (p : HostPort) (f : HostLink → HostLink) : (updLink s p f).setSeq = s.setSeq := rfl
@[simp] theorem updLink_cistern (p : HostPort) (f : HostLink → HostLink) : (updLink s p f).cistern = s.cistern := rfl
@[simp] theorem updLink_seqTag (p : HostPort) (f : HostLink → HostLink) : (updLink s p f).seqTag = s.seqTag := rfl
@[simp] theorem updLink_badChannels (p : HostPort) (f : HostLink → HostLink) : (updLink s p f).badChannels = s.badChannels := rfl
@[simp] theorem updLink_draws (p : HostPort) (f : HostLink → HostLink) : (updLink s p f).draws = s.draws := rfl
@[simp] theorem updLink_sec (p : HostPort) (f : HostLink → HostLink) : (updLink s p f).sec = s.sec := rfl
@[simp] theorem updLink_boot (p : HostPort) (f : HostLink → HostLink) : (updLink s p f).boot = s.boot := rfl
@[simp] theorem updLink_plant (p : HostPort) (f : HostLink → HostLink) : (updLink s p f).plant = s.plant := rfl
@[simp] theorem updLink_ring (p : HostPort) (f : HostLink → HostLink) : (updLink s p f).ring = s.ring := rfl
@[simp] theorem updLink_mgmt (p : HostPort) (f : HostLink → HostLink) : (updLink s p f).mgmt = s.mgmt := rfl

/-! ## setPart -/

@[simp] theorem setPart_pending (n : Nat) (x : Option Partition) : (setPart s n x).pending = s.pending := rfl
@[simp] theorem setPart_now (n : Nat) (x : Option Partition) : (setPart s n x).now = s.now := rfl
@[simp] theorem setPart_powered (n : Nat) (x : Option Partition) : (setPart s n x).powered = s.powered := rfl
@[simp] theorem setPart_skew (n : Nat) (x : Option Partition) : (setPart s n x).skew = s.skew := rfl
@[simp] theorem setPart_lanterns (n : Nat) (x : Option Partition) : (setPart s n x).lanterns = s.lanterns := rfl
@[simp] theorem setPart_routers (n : Nat) (x : Option Partition) : (setPart s n x).routers = s.routers := rfl
@[simp] theorem setPart_fields (n : Nat) (x : Option Partition) : (setPart s n x).fields = s.fields := rfl
@[simp] theorem setPart_tiles (n : Nat) (x : Option Partition) : (setPart s n x).tiles = s.tiles := rfl
@[simp] theorem setPart_rim (n : Nat) (x : Option Partition) : (setPart s n x).rim = s.rim := rfl
@[simp] theorem setPart_zen (n : Nat) (x : Option Partition) : (setPart s n x).zen = s.zen := rfl
@[simp] theorem setPart_funcs (n : Nat) (x : Option Partition) : (setPart s n x).funcs = s.funcs := rfl
@[simp] theorem setPart_links (n : Nat) (x : Option Partition) : (setPart s n x).links = s.links := rfl
@[simp] theorem setPart_out (n : Nat) (x : Option Partition) : (setPart s n x).out = s.out := rfl
@[simp] theorem setPart_visit (n : Nat) (x : Option Partition) : (setPart s n x).visit = s.visit := rfl
@[simp] theorem setPart_waiting (n : Nat) (x : Option Partition) : (setPart s n x).waiting = s.waiting := rfl
@[simp] theorem setPart_contexts (n : Nat) (x : Option Partition) : (setPart s n x).contexts = s.contexts := rfl
@[simp] theorem setPart_serial (n : Nat) (x : Option Partition) : (setPart s n x).serial = s.serial := rfl
@[simp] theorem setPart_jobs (n : Nat) (x : Option Partition) : (setPart s n x).jobs = s.jobs := rfl
@[simp] theorem setPart_erasing (n : Nat) (x : Option Partition) : (setPart s n x).erasing = s.erasing := rfl
@[simp] theorem setPart_recal (n : Nat) (x : Option Partition) : (setPart s n x).recal = s.recal := rfl
@[simp] theorem setPart_erased (n : Nat) (x : Option Partition) : (setPart s n x).erased = s.erased := rfl
@[simp] theorem setPart_routes (n : Nat) (x : Option Partition) : (setPart s n x).routes = s.routes := rfl
@[simp] theorem setPart_spares (n : Nat) (x : Option Partition) : (setPart s n x).spares = s.spares := rfl
@[simp] theorem setPart_sparesNext (n : Nat) (x : Option Partition) : (setPart s n x).sparesNext = s.sparesNext := rfl
@[simp] theorem setPart_badLanterns (n : Nat) (x : Option Partition) : (setPart s n x).badLanterns = s.badLanterns := rfl
@[simp] theorem setPart_badRouters (n : Nat) (x : Option Partition) : (setPart s n x).badRouters = s.badRouters := rfl
@[simp] theorem setPart_repair (n : Nat) (x : Option Partition) : (setPart s n x).repair = s.repair := rfl
@[simp] theorem setPart_repair2 (n : Nat) (x : Option Partition) : (setPart s n x).repair2 = s.repair2 := rfl
@[simp] theorem setPart_slotSpares (n : Nat) (x : Option Partition) : (setPart s n x).slotSpares = s.slotSpares := rfl
@[simp] theorem setPart_dormant (n : Nat) (x : Option Partition) : (setPart s n x).dormant = s.dormant := rfl
@[simp] theorem setPart_cal (n : Nat) (x : Option Partition) : (setPart s n x).cal = s.cal := rfl
@[simp] theorem setPart_calRewrites (n : Nat) (x : Option Partition) : (setPart s n x).calRewrites = s.calRewrites := rfl
@[simp] theorem setPart_setSeq (n : Nat) (x : Option Partition) : (setPart s n x).setSeq = s.setSeq := rfl
@[simp] theorem setPart_cistern (n : Nat) (x : Option Partition) : (setPart s n x).cistern = s.cistern := rfl
@[simp] theorem setPart_seqTag (n : Nat) (x : Option Partition) : (setPart s n x).seqTag = s.seqTag := rfl
@[simp] theorem setPart_badChannels (n : Nat) (x : Option Partition) : (setPart s n x).badChannels = s.badChannels := rfl
@[simp] theorem setPart_draws (n : Nat) (x : Option Partition) : (setPart s n x).draws = s.draws := rfl
@[simp] theorem setPart_sec (n : Nat) (x : Option Partition) : (setPart s n x).sec = s.sec := rfl
@[simp] theorem setPart_boot (n : Nat) (x : Option Partition) : (setPart s n x).boot = s.boot := rfl
@[simp] theorem setPart_plant (n : Nat) (x : Option Partition) : (setPart s n x).plant = s.plant := rfl
@[simp] theorem setPart_ring (n : Nat) (x : Option Partition) : (setPart s n x).ring = s.ring := rfl
@[simp] theorem setPart_mgmt (n : Nat) (x : Option Partition) : (setPart s n x).mgmt = s.mgmt := rfl

/-! ## Reads of another kind of unit -/

@[simp] theorem getL_setR (m : Nat) (x : Router) (n : Nat) : getL (setR s m x) n = getL s n := rfl
@[simp] theorem getL_setF (m : Nat) (x : Field) (n : Nat) : getL (setF s m x) n = getL s n := rfl
@[simp] theorem getL_setT (m : Nat) (x : RimTile) (n : Nat) : getL (setT s m x) n = getL s n := rfl
@[simp] theorem getL_setZ (m : Nat) (x : Zenden) (n : Nat) : getL (setZ s m x) n = getL s n := rfl
@[simp] theorem getL_setFn (m : Fn) (x : Func) (n : Nat) : getL (setFn s m x) n = getL s n := rfl
@[simp] theorem getL_updLink (p : HostPort) (f : HostLink → HostLink) (n : Nat) : getL (updLink s p f) n = getL s n := rfl
@[simp] theorem getL_setPart (m : Nat) (x : Option Partition) (n : Nat) : getL (setPart s m x) n = getL s n := rfl
@[simp] theorem getR_setL (m : Nat) (x : Lantern) (n : Nat) : getR (setL s m x) n = getR s n := rfl
@[simp] theorem getR_setF (m : Nat) (x : Field) (n : Nat) : getR (setF s m x) n = getR s n := rfl
@[simp] theorem getR_setT (m : Nat) (x : RimTile) (n : Nat) : getR (setT s m x) n = getR s n := rfl
@[simp] theorem getR_setZ (m : Nat) (x : Zenden) (n : Nat) : getR (setZ s m x) n = getR s n := rfl
@[simp] theorem getR_setFn (m : Fn) (x : Func) (n : Nat) : getR (setFn s m x) n = getR s n := rfl
@[simp] theorem getR_updLink (p : HostPort) (f : HostLink → HostLink) (n : Nat) : getR (updLink s p f) n = getR s n := rfl
@[simp] theorem getR_setPart (m : Nat) (x : Option Partition) (n : Nat) : getR (setPart s m x) n = getR s n := rfl
@[simp] theorem getF_setL (m : Nat) (x : Lantern) (n : Nat) : getF (setL s m x) n = getF s n := rfl
@[simp] theorem getF_setR (m : Nat) (x : Router) (n : Nat) : getF (setR s m x) n = getF s n := rfl
@[simp] theorem getF_setT (m : Nat) (x : RimTile) (n : Nat) : getF (setT s m x) n = getF s n := rfl
@[simp] theorem getF_setZ (m : Nat) (x : Zenden) (n : Nat) : getF (setZ s m x) n = getF s n := rfl
@[simp] theorem getF_setFn (m : Fn) (x : Func) (n : Nat) : getF (setFn s m x) n = getF s n := rfl
@[simp] theorem getF_updLink (p : HostPort) (f : HostLink → HostLink) (n : Nat) : getF (updLink s p f) n = getF s n := rfl
@[simp] theorem getF_setPart (m : Nat) (x : Option Partition) (n : Nat) : getF (setPart s m x) n = getF s n := rfl
@[simp] theorem getT_setL (m : Nat) (x : Lantern) (n : Nat) : getT (setL s m x) n = getT s n := rfl
@[simp] theorem getT_setR (m : Nat) (x : Router) (n : Nat) : getT (setR s m x) n = getT s n := rfl
@[simp] theorem getT_setF (m : Nat) (x : Field) (n : Nat) : getT (setF s m x) n = getT s n := rfl
@[simp] theorem getT_setZ (m : Nat) (x : Zenden) (n : Nat) : getT (setZ s m x) n = getT s n := rfl
@[simp] theorem getT_setFn (m : Fn) (x : Func) (n : Nat) : getT (setFn s m x) n = getT s n := rfl
@[simp] theorem getT_updLink (p : HostPort) (f : HostLink → HostLink) (n : Nat) : getT (updLink s p f) n = getT s n := rfl
@[simp] theorem getT_setPart (m : Nat) (x : Option Partition) (n : Nat) : getT (setPart s m x) n = getT s n := rfl
@[simp] theorem getZ_setL (m : Nat) (x : Lantern) (n : Nat) : getZ (setL s m x) n = getZ s n := rfl
@[simp] theorem getZ_setR (m : Nat) (x : Router) (n : Nat) : getZ (setR s m x) n = getZ s n := rfl
@[simp] theorem getZ_setF (m : Nat) (x : Field) (n : Nat) : getZ (setF s m x) n = getZ s n := rfl
@[simp] theorem getZ_setT (m : Nat) (x : RimTile) (n : Nat) : getZ (setT s m x) n = getZ s n := rfl
@[simp] theorem getZ_setFn (m : Fn) (x : Func) (n : Nat) : getZ (setFn s m x) n = getZ s n := rfl
@[simp] theorem getZ_updLink (p : HostPort) (f : HostLink → HostLink) (n : Nat) : getZ (updLink s p f) n = getZ s n := rfl
@[simp] theorem getZ_setPart (m : Nat) (x : Option Partition) (n : Nat) : getZ (setPart s m x) n = getZ s n := rfl
@[simp] theorem getFn_setL (m : Nat) (x : Lantern) (g : Fn) : getFn (setL s m x) g = getFn s g := rfl
@[simp] theorem getFn_setR (m : Nat) (x : Router) (g : Fn) : getFn (setR s m x) g = getFn s g := rfl
@[simp] theorem getFn_setF (m : Nat) (x : Field) (g : Fn) : getFn (setF s m x) g = getFn s g := rfl
@[simp] theorem getFn_setT (m : Nat) (x : RimTile) (g : Fn) : getFn (setT s m x) g = getFn s g := rfl
@[simp] theorem getFn_setZ (m : Nat) (x : Zenden) (g : Fn) : getFn (setZ s m x) g = getFn s g := rfl
@[simp] theorem getFn_updLink (p : HostPort) (f : HostLink → HostLink) (g : Fn) : getFn (updLink s p f) g = getFn s g := rfl
@[simp] theorem getFn_setPart (m : Nat) (x : Option Partition) (g : Fn) : getFn (setPart s m x) g = getFn s g := rfl
@[simp] theorem getLink_setL (m : Nat) (x : Lantern) (q : HostPort) : getLink (setL s m x) q = getLink s q := rfl
@[simp] theorem getLink_setR (m : Nat) (x : Router) (q : HostPort) : getLink (setR s m x) q = getLink s q := rfl
@[simp] theorem getLink_setF (m : Nat) (x : Field) (q : HostPort) : getLink (setF s m x) q = getLink s q := rfl
@[simp] theorem getLink_setT (m : Nat) (x : RimTile) (q : HostPort) : getLink (setT s m x) q = getLink s q := rfl
@[simp] theorem getLink_setZ (m : Nat) (x : Zenden) (q : HostPort) : getLink (setZ s m x) q = getLink s q := rfl
@[simp] theorem getLink_setFn (m : Fn) (x : Func) (q : HostPort) : getLink (setFn s m x) q = getLink s q := rfl
@[simp] theorem getLink_setPart (m : Nat) (x : Option Partition) (q : HostPort) : getLink (setPart s m x) q = getLink s q := rfl
@[simp] theorem getPart_setL (m : Nat) (x : Lantern) (n : Nat) : getPart (setL s m x) n = getPart s n := rfl
@[simp] theorem getPart_setR (m : Nat) (x : Router) (n : Nat) : getPart (setR s m x) n = getPart s n := rfl
@[simp] theorem getPart_setF (m : Nat) (x : Field) (n : Nat) : getPart (setF s m x) n = getPart s n := rfl
@[simp] theorem getPart_setT (m : Nat) (x : RimTile) (n : Nat) : getPart (setT s m x) n = getPart s n := rfl
@[simp] theorem getPart_setZ (m : Nat) (x : Zenden) (n : Nat) : getPart (setZ s m x) n = getPart s n := rfl
@[simp] theorem getPart_setFn (m : Fn) (x : Func) (n : Nat) : getPart (setFn s m x) n = getPart s n := rfl
@[simp] theorem getPart_updLink (p : HostPort) (f : HostLink → HostLink) (n : Nat) : getPart (updLink s p f) n = getPart s n := rfl

/-! ## Reads of the same kind of unit -/

@[simp] theorem getL_setL_same (n : Nat) (x : Lantern) : getL (setL s n x) n = x := tget_tset_same _ _ _ _
theorem getL_setL_other {n m : Nat} (x : Lantern) (h : m ≠ n) : getL (setL s n x) m = getL s m := tget_tset_other _ _ _ h
theorem getL_setL (n m : Nat) (x : Lantern) : getL (setL s n x) m = if m = n then x else getL s m := tget_tset _ _ _ _ _
@[simp] theorem getR_setR_same (n : Nat) (x : Router) : getR (setR s n x) n = x := tget_tset_same _ _ _ _
theorem getR_setR_other {n m : Nat} (x : Router) (h : m ≠ n) : getR (setR s n x) m = getR s m := tget_tset_other _ _ _ h
theorem getR_setR (n m : Nat) (x : Router) : getR (setR s n x) m = if m = n then x else getR s m := tget_tset _ _ _ _ _
@[simp] theorem getF_setF_same (n : Nat) (x : Field) : getF (setF s n x) n = x := tget_tset_same _ _ _ _
theorem getF_setF_other {n m : Nat} (x : Field) (h : m ≠ n) : getF (setF s n x) m = getF s m := tget_tset_other _ _ _ h
theorem getF_setF (n m : Nat) (x : Field) : getF (setF s n x) m = if m = n then x else getF s m := tget_tset _ _ _ _ _
@[simp] theorem getT_setT_same (n : Nat) (x : RimTile) : getT (setT s n x) n = x := tget_tset_same _ _ _ _
theorem getT_setT_other {n m : Nat} (x : RimTile) (h : m ≠ n) : getT (setT s n x) m = getT s m := tget_tset_other _ _ _ h
theorem getT_setT (n m : Nat) (x : RimTile) : getT (setT s n x) m = if m = n then x else getT s m := tget_tset _ _ _ _ _
@[simp] theorem getZ_setZ_same (n : Nat) (x : Zenden) : getZ (setZ s n x) n = x := tget_tset_same _ _ _ _
theorem getZ_setZ_other {n m : Nat} (x : Zenden) (h : m ≠ n) : getZ (setZ s n x) m = getZ s m := tget_tset_other _ _ _ h
theorem getZ_setZ (n m : Nat) (x : Zenden) : getZ (setZ s n x) m = if m = n then x else getZ s m := tget_tset _ _ _ _ _
@[simp] theorem getPart_setPart_same (n : Nat) (x : Option Partition) : getPart (setPart s n x) n = x := tget_tset_same _ _ _ _
theorem getPart_setPart_other {n m : Nat} (x : Option Partition) (h : m ≠ n) : getPart (setPart s n x) m = getPart s m := tget_tset_other _ _ _ h
theorem getPart_setPart (n m : Nat) (x : Option Partition) : getPart (setPart s n x) m = if m = n then x else getPart s m := tget_tset _ _ _ _ _

theorem fnIx_inj {f g : Fn} (hf : f.num ≤ 16) (hg : g.num ≤ 16) (h : fnIx f = fnIx g) : f = g := by
  obtain ⟨p, n⟩ := f
  obtain ⟨q, m⟩ := g
  cases p <;> cases q <;> simp [fnIx, portIx] at * <;> omega

@[simp] theorem getFn_setFn_same (g : Fn) (x : Func) : getFn (setFn s g x) g = x := tget_tset_same _ _ _ _
theorem getFn_setFn_other {g h : Fn} (x : Func) (hn : fnIx h ≠ fnIx g) : getFn (setFn s g x) h = getFn s h := tget_tset_other _ _ _ hn
theorem portIx_inj {p q : HostPort} (h : portIx p = portIx q) : p = q := by cases p <;> cases q <;> simp [portIx] at * 
@[simp] theorem getLink_updLink_same (p : HostPort) (f : HostLink → HostLink) : getLink (updLink s p f) p = f (getLink s p) := tget_tupd_same _ _ _ _
theorem getLink_updLink_other {p q : HostPort} (f : HostLink → HostLink) (h : q ≠ p) : getLink (updLink s p f) q = getLink s q :=
  tget_tupd_other _ _ _ (fun e => h (portIx_inj e))

/-! ## Updates through a function -/

@[simp] theorem getL_updL_same (n : Nat) (f : Lantern → Lantern) : getL (updL s n f) n = f (getL s n) := getL_setL_same s n _
theorem getL_updL_other {n m : Nat} (f : Lantern → Lantern) (h : m ≠ n) : getL (updL s n f) m = getL s m := getL_setL_other s _ h
@[simp] theorem getR_updR_same (n : Nat) (f : Router → Router) : getR (updR s n f) n = f (getR s n) := getR_setR_same s n _
theorem getR_updR_other {n m : Nat} (f : Router → Router) (h : m ≠ n) : getR (updR s n f) m = getR s m := getR_setR_other s _ h
@[simp] theorem getF_updF_same (n : Nat) (f : Field → Field) : getF (updF s n f) n = f (getF s n) := getF_setF_same s n _
theorem getF_updF_other {n m : Nat} (f : Field → Field) (h : m ≠ n) : getF (updF s n f) m = getF s m := getF_setF_other s _ h
@[simp] theorem getT_updT_same (n : Nat) (f : RimTile → RimTile) : getT (updT s n f) n = f (getT s n) := getT_setT_same s n _
theorem getT_updT_other {n m : Nat} (f : RimTile → RimTile) (h : m ≠ n) : getT (updT s n f) m = getT s m := getT_setT_other s _ h
@[simp] theorem getZ_updZ_same (n : Nat) (f : Zenden → Zenden) : getZ (updZ s n f) n = f (getZ s n) := getZ_setZ_same s n _
theorem getZ_updZ_other {n m : Nat} (f : Zenden → Zenden) (h : m ≠ n) : getZ (updZ s n f) m = getZ s m := getZ_setZ_other s _ h
@[simp] theorem getFn_updFn_same (g : Fn) (f : Func → Func) : getFn (updFn s g f) g = f (getFn s g) := getFn_setFn_same s g _
theorem getFn_updFn_other {g h : Fn} (f : Func → Func) (hn : fnIx h ≠ fnIx g) : getFn (updFn s g f) h = getFn s h := getFn_setFn_other s _ hn
@[simp] theorem getPart_updPart_same (n : Nat) (f : Partition → Partition) : getPart (updPart s n f) n = (getPart s n).map f := by
  unfold updPart
  cases h : getPart s n <;> simp [h]
theorem getPart_updPart_other {n m : Nat} (f : Partition → Partition) (h : m ≠ n) : getPart (updPart s n f) m = getPart s m := by
  unfold updPart
  cases getPart s n
  · rfl
  · exact getPart_setPart_other s _ h
theorem updPart_some {n : Nat} {p : Partition} (f : Partition → Partition) (h : getPart s n = some p) :
    updPart s n f = setPart s n (some (f p)) := by simp [updPart, h]
theorem updPart_none {n : Nat} (f : Partition → Partition) (h : getPart s n = none) : updPart s n f = s := by simp [updPart, h]

/-! ## Scalar registers (05 R137) -/

@[simp] theorem getReg_zero (L : Lantern) : getReg L 0 = 0 := rfl
theorem setReg_zero (l : Nat) (v : Word) : setReg s l 0 v = s := rfl
theorem getReg_setReg_same (l : Nat) (r : Fin 32) (v : Word) (h : r ≠ 0) : getReg (getL (setReg s l r v) l) r = v := by
  simp [setReg, getReg, h]
theorem getReg_setReg_other (l : Nat) {r q : Fin 32} (v : Word) (h : q ≠ r) : getReg (getL (setReg s l r v) l) q = getReg (getL s l) q := by
  unfold setReg
  split
  · rfl
  · have : q.val ≠ r.val := fun e => h (Fin.ext e)
    simp [getReg, tget_tset_other _ _ _ this]
theorem getL_setReg_other {l m : Nat} (r : Fin 32) (v : Word) (h : m ≠ l) : getL (setReg s l r v) m = getL s m := by
  unfold setReg
  split
  · rfl
  · exact getL_updL_other s _ h

/-! ## guarded -/

@[simp] theorem guarded_true : guarded true s = .next s := rfl
@[simp] theorem guarded_false : guarded false s = .fault .noSuchUnit := rfl
theorem guarded_next {ok : Bool} {t : State} : guarded ok s = .next t ↔ ok = true ∧ t = s := by
  cases ok <;> simp [guarded, eq_comm]
theorem guarded_fault {ok : Bool} {f : Fault} : guarded ok s = .fault f ↔ ok = false ∧ f = .noSuchUnit := by
  cases ok <;> simp [guarded, eq_comm]

/-! ## forEach -/

@[simp] theorem forEach_nil {α : Type} (f : α → State → State) : forEach [] f s = s := rfl
@[simp] theorem forEach_cons {α : Type} (x : α) (xs : List α) (f : α → State → State) : forEach (x :: xs) f s = forEach xs f (f x s) := rfl
/-- What every turn keeps, the loop keeps. -/
theorem forEach_keeps {α β : Type} (v : State → β) (f : α → State → State) (h : ∀ x s, v (f x s) = v s) (xs : List α) :
    ∀ s, v (forEach xs f s) = v s := by
  induction xs with
  | nil => intro s; rfl
  | cons x xs ih => intro s; rw [forEach_cons, ih, h]

end Sys2Proof.Machine
end

