-- ==== Sys2Proof/Laws/Frame.lean ====
section
/-! SUPPORT. The frame of the whole machine: what almost every operation leaves. shape takes the command queue, the time base, the retirement fuse,
the OTP counters and the partitions' rectangles; one lemma per operation says that it leaves them. -/

namespace Sys2Proof.Machine

/-- Rectangle of a partition (01 R28). -/
abbrev rect (p : Partition) : Nat × Nat × Nat × Nat := (p.fx0, p.fy0, p.w, p.h)

/-- What the frame lemmas are about. -/
structure Shape where
  pending : List Instr
  now : BitVec 64
  retired : Bool
  counters : SMap Nat
  rects : Nat → Option (Nat × Nat × Nat × Nat)

def shape (s : State) : Shape := ⟨s.pending, s.now, s.sec.retired, s.sec.counters, fun n => (getPart s n).map rect⟩

def Try.state : Try → State
  | .done s => s
  | .hold _ s => s
  | .trap _ _ s => s

def EngTry.state : EngTry → State
  | .done s => s
  | .more _ s => s
  | .wait _ _ s => s
  | .trap _ _ s => s

/-- Two states with the same queue, time, security processor and partitions have the same shape. -/
theorem shape_congr {s t : State} (h1 : t.pending = s.pending) (h2 : t.now = s.now) (h3 : t.sec = s.sec) (h4 : t.parts = s.parts) :
    shape t = shape s := by
  simp only [shape, h1, h2, h3, getPart, h4]

theorem shape_pending {s t : State} (h : shape t = shape s) : t.pending = s.pending := congrArg Shape.pending h
theorem shape_now {s t : State} (h : shape t = shape s) : t.now = s.now := congrArg Shape.now h
theorem shape_retired {s t : State} (h : shape t = shape s) : t.sec.retired = s.sec.retired := congrArg Shape.retired h
theorem shape_counters {s t : State} (h : shape t = shape s) : t.sec.counters = s.sec.counters := congrArg Shape.counters h
theorem shape_rects {s t : State} (h : shape t = shape s) (n : Nat) : (getPart t n).map rect = (getPart s n).map rect :=
  congrFun (congrArg Shape.rects h) n

theorem setL_shape (s : State) (l : Nat) (x : Lantern) : shape (setL s l x) = shape s := rfl
theorem updL_shape (s : State) (l : Nat) (f : Lantern → Lantern) : shape (updL s l f) = shape s := rfl
theorem setR_shape (s : State) (l : Nat) (x : Router) : shape (setR s l x) = shape s := rfl
theorem updR_shape (s : State) (l : Nat) (f : Router → Router) : shape (updR s l f) = shape s := rfl
theorem updRP_shape (s : State) (r p : Nat) (f : RPort → RPort) : shape (updRP s r p f) = shape s := rfl
theorem setF_shape (s : State) (l : Nat) (x : Field) : shape (setF s l x) = shape s := rfl
theorem updF_shape (s : State) (l : Nat) (f : Field → Field) : shape (updF s l f) = shape s := rfl
theorem setT_shape (s : State) (l : Nat) (x : RimTile) : shape (setT s l x) = shape s := rfl
theorem updT_shape (s : State) (l : Nat) (f : RimTile → RimTile) : shape (updT s l f) = shape s := rfl
theorem setZ_shape (s : State) (l : Nat) (x : Zenden) : shape (setZ s l x) = shape s := rfl
theorem updZ_shape (s : State) (l : Nat) (f : Zenden → Zenden) : shape (updZ s l f) = shape s := rfl
theorem setFn_shape (s : State) (l : Fn) (x : Func) : shape (setFn s l x) = shape s := rfl
theorem updFn_shape (s : State) (l : Fn) (f : Func → Func) : shape (updFn s l f) = shape s := rfl
theorem setQp_shape (s : State) (fn : Fn) (q : Nat) (x : Option Qp) : shape (setQp s fn q x) = shape s := rfl
theorem updLink_shape (s : State) (p : HostPort) (f : HostLink → HostLink) : shape (updLink s p f) = shape s := rfl
theorem updBank_shape (s : State) (l b : Nat) (f : Bank → Bank) : shape (updBank s l b f) = shape s := rfl
theorem updArr_shape (s : State) (l b : Nat) (f : WickArray → WickArray) : shape (updArr s l b f) = shape s := rfl
theorem updEng_shape (s : State) (l b : Nat) (f : Engine → Engine) : shape (updEng s l b f) = shape s := rfl
theorem updQ_shape (s : State) (l b : Nat) (f : Queue → Queue) : shape (updQ s l b f) = shape s := rfl
theorem updSl_shape (s : State) (l b : Nat) (f : Sluice → Sluice) : shape (updSl s l b f) = shape s := rfl
theorem updLane_shape (s : State) (l b : Nat) (f : Lane → Lane) : shape (updLane s l b f) = shape s := rfl
theorem setReg_shape (s : State) (l : Nat) (r : Fin 32) (v : Word) : shape (setReg s l r v) = shape s := by
  unfold setReg; split <;> rfl

/-- A partition put in place with the rectangle it had. -/
theorem setPart_shape (s : State) (n : Nat) (x : Option Partition) (h : x.map rect = (getPart s n).map rect) : shape (setPart s n x) = shape s := by
  simp only [shape, setPart_pending, setPart_now, setPart_sec, getPart_setPart]
  congr 1
  funext m
  by_cases hm : m = n
  · subst hm; simp [h]
  · simp [hm]

theorem updPart_shape (s : State) (n : Nat) (f : Partition → Partition) (h : ∀ p, rect (f p) = rect p) : shape (updPart s n f) = shape s := by
  unfold updPart
  cases hp : getPart s n with
  | none => rfl
  | some p => exact setPart_shape s n _ (by rw [hp]; simp only [Option.map_some, h])

theorem noteIdle_rect (t : Nat) (p : Partition) : rect (noteIdle t p) = rect p := by
  unfold noteIdle
  repeat' (first | rfl | split)

theorem updReq_shape (s : State) (n : Nat) (tag : BitVec 64) (f : Request → Request) : shape (updReq s n tag f) = shape s :=
  updPart_shape s n _ (fun _ => noteIdle_rect _ _)

theorem forEach_shape {α : Type} (xs : List α) (f : α → State → State) (s : State) (h : ∀ x s, shape (f x s) = shape s) :
    shape (forEach xs f s) = shape s := forEach_keeps shape f h xs s

theorem foldl_shape {α β : Type} (v : β → State) (f : β → α → β) (h : ∀ b x, shape (v (f b x)) = shape (v b)) (xs : List α) :
    ∀ b, shape (v (xs.foldl f b)) = shape (v b) := by
  induction xs with
  | nil => intro b; rfl
  | cons x xs ih => intro b; rw [List.foldl_cons, ih, h]

theorem mem_allParts_rect {s : State} {e : Nat × Partition} (h : e ∈ allParts s) : (e.1, some e.2) ∈ s.parts := by
  unfold allParts at h
  rw [List.mem_filterMap] at h
  obtain ⟨x, hx, he⟩ := h
  obtain ⟨n, p⟩ := x
  cases p with
  | none => simp at he
  | some p => simp at he; subst he; exact hx

/-- A meaning that answers a next state keeps the shape. -/
theorem guarded_shape {ok : Bool} {s t u : State} (h : guarded ok u = .next t) (hu : shape u = shape s) : shape t = shape s := by
  rw [guarded_next] at h; rw [h.2, hu]

theorem try_done (s : State) : (Try.done s).state = s := rfl
theorem try_hold (c : Nat) (s : State) : (Try.hold c s).state = s := rfl
theorem try_trap (c d : Nat) (s : State) : (Try.trap c d s).state = s := rfl
theorem eng_done (s : State) : (EngTry.done s).state = s := rfl
theorem eng_more (o : EOp) (s : State) : (EngTry.more o s).state = s := rfl
theorem eng_wait (c : Nat) (o : EOp) (s : State) : (EngTry.wait c o s).state = s := rfl
theorem eng_trap (c d : Nat) (s : State) : (EngTry.trap c d s).state = s := rfl
theorem foldlS_shape {α : Type} (f : State → α → State) (h : ∀ s x, shape (f s x) = shape s) (xs : List α) (s : State) :
    shape (xs.foldl f s) = shape s := foldl_shape (fun t => t) f h xs s

theorem mk_shape (s : State) (xpowered : Nat) (xskew : SMap Int) (xlanterns : SMap Lantern) (xrouters : SMap Router) (xfields : SMap Field) (xtiles : SMap RimTile) (xrim : SMap RimStop) (xzen : SMap Zenden) (xfuncs : SMap Func) (xlinks : SMap HostLink) (xout : List HostOut) (xvisit : Nat) (xwaiting : List Waiting) (xcontexts : List Context) (xserial : Nat) (xjobs : List ChunkJob) (xerasing : List (Nat × Nat)) (xrecal : List (Nat × BitVec 32)) (xerased : Bool) (xroutes : List (Nat × Nat × Nat × Nat)) (xspares : Nat) (xsparesNext : Nat) (xbadLanterns : List Nat) (xbadRouters : List Nat) (xrepair : RepairCopy) (xrepair2 : RepairCopy) (xslotSpares : Nat) (xdormant : List Dormant) (xcal : SMap CalRec) (xcalRewrites : Nat) (xsetSeq : Nat) (xcistern : SMap CisLine) (xseqTag : BitVec 32) (xbadChannels : List Nat) (xdraws : Nat) (xsec : Security) (xboot : Boot) (xplant : Plant) (xring : Ring) (xmgmt : Mgmt)
    (h1 : xsec.retired = s.sec.retired) (h2 : xsec.counters = s.sec.counters) :
    shape (State.mk s.pending s.now xpowered xskew xlanterns xrouters xfields xtiles xrim xzen xfuncs xlinks xout s.parts xvisit xwaiting xcontexts xserial xjobs xerasing xrecal xerased xroutes xspares xsparesNext xbadLanterns xbadRouters xrepair xrepair2 xslotSpares xdormant xcal xcalRewrites xsetSeq xcistern xseqTag xbadChannels xdraws xsec xboot xplant xring xmgmt) = shape s := by
  simp only [shape, h1, h2, getPart]

theorem shape_ite (c : Prop) [Decidable c] (a b : State) : shape (if c then a else b) = if c then shape a else shape b := apply_ite shape c a b
theorem fst_ite {α β : Type} (c : Prop) [Decidable c] (a b : α × β) : (if c then a else b).1 = if c then a.1 else b.1 := apply_ite Prod.fst c a b
theorem try_ite (c : Prop) [Decidable c] (a b : Try) : (if c then a else b).state = if c then a.state else b.state := apply_ite Try.state c a b
theorem eng_ite (c : Prop) [Decidable c] (a b : EngTry) : (if c then a else b).state = if c then a.state else b.state := apply_ite EngTry.state c a b

theorem done_ite {α : Type} (c : Prop) [Decidable c] (a b : State × α) (s : State) (ha : shape a.1 = shape s) (hb : shape b.1 = shape s) :
    shape (if c then a else b).1 = shape s := by
  split
  · exact ha
  · exact hb

end Sys2Proof.Machine
end

