-- ==== Sys2Proof/Laws/FrameUnits.lean ====
section
/-! SUPPORT. What leaves the shape of the machine (Laws/Frame.lean): the lantern's units: queues, sluices, accumulator, arrays, calibration copies, monitors, the runnel store and the attention unit. -/

set_option linter.unusedSimpArgs false
set_option linter.unusedTactic false
set_option linter.unreachableTactic false
set_option linter.unusedVariables false
set_option linter.unnecessarySeqFocus false

namespace Sys2Proof.Machine

/-! ## Machine/Ops.lean -/

theorem mapParts_shape (s : State) (f : Nat → Partition → Partition) (h : ∀ n p, rect (f n p) = rect p) : shape (mapParts s f) = shape s :=
  foldl_shape (fun t => t) _ (fun _ _ => updPart_shape _ _ _ (h _)) _ s

/-! ## Machine/RimRing.lean -/

theorem rimSend_shape (a : Nat) (b : Nat) (m : RimMsg) (s : State) : shape (rimSend a b m s) = shape s := by
  unfold rimSend
  repeat' (first
    | with_reducible rfl
    | (with_reducible refine (forEach_shape _ _ _ ?_).trans ?_)
    | simp only [↓mk_shape]
    | split
    | intro _
    | (with_reducible show rect _ = rect _) <;> rfl)

/-! ## Machine/Flags.lean -/

theorem countT_shape (s : State) (t : Nat) (src : Nat) (n : Nat) : shape (countT s t src n) = shape s := by
  unfold countT
  repeat' (first
    | with_reducible rfl
    | simp only [↓updT_shape]
    | split)

theorem sendHost_shape (s : State) (p : HostPort) (o : HostOut) : shape (sendHost s p o) = shape s := by
  unfold sendHost
  repeat' (first
    | with_reducible rfl
    | simp only [↓updLink_shape, ↓countT_shape, ↓mk_shape]
    | split
    | intro _
    | (with_reducible show rect _ = rect _) <;> rfl)

theorem sendMsix_shape (s : State) (fn : Fn) (v : Nat) : shape (sendMsix s fn v) = shape s := by
  unfold sendMsix
  repeat' (first
    | with_reducible rfl
    | simp only [↓sendHost_shape]
    | split)

theorem ringWrite_shape (s : State) (fn : Fn) (g : EvRing) (r : EventRec) : shape (ringWrite s fn g r) = shape s := by
  unfold ringWrite
  repeat' (first
    | with_reducible rfl
    | simp only [↓sendHost_shape, ↓updFn_shape, ↓sendMsix_shape]
    | split)

theorem drainRing_shape (fn : Fn) (x1 : Nat) (x2 : State) : shape (drainRing fn x1 x2) = shape x2 := by
  induction x1 generalizing fn x2 with
  | zero =>
    unfold drainRing
    repeat' (first
      | with_reducible rfl
      | assumption
      | (with_reducible refine (foldlS_shape _ ?_ _ _).trans ?_)
      | simp only [↓ringWrite_shape, ↓updFn_shape, ↓mk_shape, ↓shape_ite, ↓fst_ite, ↓try_ite, ↓eng_ite, ↓reduceIte, ite_self, try_done, try_hold, try_trap, eng_done, eng_more, eng_wait, eng_trap]
      | split
      | intro _
      | (with_reducible show rect _ = rect _) <;> rfl
      | (with_reducible show Option.map rect _ = Option.map rect _) <;> (rw [‹getPart _ _ = some _›]; rfl)
      | (with_reducible show rect _ = rect _) <;> exact (noteIdle_rect _ _).trans rfl
      | (with_reducible show Option.map rect _ = Option.map rect _) <;> (rw [‹getPart _ _ = some _›]; exact congrArg some (noteIdle_rect _ _))
      | dsimp only
      | simp only [*])
  | succ y1 ih =>
    unfold drainRing
    repeat' (first
      | with_reducible rfl
      | assumption
      | (with_reducible refine (foldlS_shape _ ?_ _ _).trans ?_)
      | simp only [↓ringWrite_shape, ↓updFn_shape, ↓mk_shape, ↓shape_ite, ↓fst_ite, ↓try_ite, ↓eng_ite, ↓reduceIte, ite_self, try_done, try_hold, try_trap, eng_done, eng_more, eng_wait, eng_trap, ↓ih]
      | split
      | intro _
      | (with_reducible show rect _ = rect _) <;> rfl
      | (with_reducible show Option.map rect _ = Option.map rect _) <;> (rw [‹getPart _ _ = some _›]; rfl)
      | (with_reducible show rect _ = rect _) <;> exact (noteIdle_rect _ _).trans rfl
      | (with_reducible show Option.map rect _ = Option.map rect _) <;> (rw [‹getPart _ _ = some _›]; exact congrArg some (noteIdle_rect _ _))
      | dsimp only
      | simp only [*])

theorem drainFn_shape (s : State) (fn : Fn) : shape (drainFn s fn) = shape s := by
  unfold drainFn
  simp only [↓drainRing_shape]

theorem offerFn_shape (s : State) (fn : Fn) (r : EventRec) : shape (offerFn s fn r) = shape s := by
  unfold offerFn
  repeat' (first
    | with_reducible rfl
    | simp only [↓updFn_shape, ↓drainFn_shape]
    | split)

theorem badDoorbell_shape (s : State) (fn : Fn) (offset : Nat) : shape (badDoorbell s fn offset) = shape s := by
  unfold badDoorbell
  simp only [↓countT_shape, ↓updFn_shape, ↓offerFn_shape]

theorem countPart_shape (s : State) (f : Nat) (src : Nat) (n : Nat) : shape (countPart s f src n) = shape s := by
  unfold countPart
  repeat' (first
    | with_reducible rfl
    | (with_reducible refine (updPart_shape _ _ _ ?_).trans ?_)
    | split
    | intro _
    | (with_reducible show rect _ = rect _) <;> rfl)

theorem countF_shape (s : State) (f : Nat) (src : Nat) (n : Nat) : shape (countF s f src n) = shape s := by
  unfold countF
  repeat' (first
    | with_reducible rfl
    | simp only [↓countPart_shape, ↓updF_shape]
    | split)

theorem countL_shape (s : State) (l : Nat) (src : Nat) (n : Nat) : shape (countL s l src n) = shape s := by
  unfold countL
  repeat' (first
    | with_reducible rfl
    | simp only [↓countPart_shape, ↓updL_shape]
    | split)

theorem drainMgmt_shape (x0 : Nat) (x1 : State) : shape (drainMgmt x0 x1) = shape x1 := by
  induction x0 generalizing x1 with
  | zero =>
    unfold drainMgmt
    repeat' (first
      | with_reducible rfl
      | assumption
      | (with_reducible refine (foldlS_shape _ ?_ _ _).trans ?_)
      | simp only [↓mk_shape, ↓shape_ite, ↓fst_ite, ↓try_ite, ↓eng_ite, ↓reduceIte, ite_self, try_done, try_hold, try_trap, eng_done, eng_more, eng_wait, eng_trap]
      | split
      | intro _
      | (with_reducible show rect _ = rect _) <;> rfl
      | (with_reducible show Option.map rect _ = Option.map rect _) <;> (rw [‹getPart _ _ = some _›]; rfl)
      | (with_reducible show rect _ = rect _) <;> exact (noteIdle_rect _ _).trans rfl
      | (with_reducible show Option.map rect _ = Option.map rect _) <;> (rw [‹getPart _ _ = some _›]; exact congrArg some (noteIdle_rect _ _))
      | dsimp only
      | simp only [*])
  | succ y1 ih =>
    unfold drainMgmt
    repeat' (first
      | with_reducible rfl
      | assumption
      | (with_reducible refine (foldlS_shape _ ?_ _ _).trans ?_)
      | simp only [↓mk_shape, ↓shape_ite, ↓fst_ite, ↓try_ite, ↓eng_ite, ↓reduceIte, ite_self, try_done, try_hold, try_trap, eng_done, eng_more, eng_wait, eng_trap, ↓ih]
      | split
      | intro _
      | (with_reducible show rect _ = rect _) <;> rfl
      | (with_reducible show Option.map rect _ = Option.map rect _) <;> (rw [‹getPart _ _ = some _›]; rfl)
      | (with_reducible show rect _ = rect _) <;> exact (noteIdle_rect _ _).trans rfl
      | (with_reducible show Option.map rect _ = Option.map rect _) <;> (rw [‹getPart _ _ = some _›]; exact congrArg some (noteIdle_rect _ _))
      | dsimp only
      | simp only [*])

theorem flushMgmt_shape (s : State) : shape (flushMgmt s) = shape s := by
  unfold flushMgmt
  simp only [↓drainMgmt_shape]

theorem offerMgmt_shape (s : State) (r : EventRec) : shape (offerMgmt s r) = shape s := by
  unfold offerMgmt
  repeat' (first
    | with_reducible rfl
    | simp only [↓flushMgmt_shape, ↓mk_shape]
    | split
    | intro _
    | (with_reducible show rect _ = rect _) <;> rfl)

theorem raiseEv_shape (s : State) (sev : Nat) (code : Nat) (part : Nat) (source : Nat) (unit : Nat) (detail : Nat) : shape (raiseEv s sev code part source unit detail) = shape s := by
  unfold raiseEv
  repeat' (first
    | with_reducible rfl
    | simp only [↓updFn_shape, ↓offerFn_shape, ↓rimSend_shape, ↓offerMgmt_shape]
    | split)

theorem raiseF_shape (s : State) (f : Nat) (sev : Nat) (code : Nat) (detail : Nat) : shape (raiseF s f sev code detail) = shape s := by
  unfold raiseF
  simp only [↓raiseEv_shape]

theorem raiseL_shape (s : State) (l : Nat) (sev : Nat) (code : Nat) (detail : Nat) : shape (raiseL s l sev code detail) = shape s := by
  unfold raiseL
  simp only [↓raiseEv_shape]

theorem raiseM_shape (s : State) (sev : Nat) (code : Nat) (detail : Nat) : shape (raiseM s sev code detail) = shape s := by
  unfold raiseM
  simp only [↓raiseEv_shape]

theorem rsvdWrite_shape (s : State) (fn : Fn) : shape (rsvdWrite s fn) = shape s := rfl

theorem traceL_shape (s : State) (l : Nat) (n : Nat) (detail : Nat) : shape (traceL s l n detail) = shape s := by
  unfold traceL
  repeat' (first
    | with_reducible rfl
    | (with_reducible refine (updPart_shape _ _ _ ?_).trans ?_)
    | simp only [↓countL_shape, ↓updL_shape, ↓offerFn_shape]
    | split
    | intro _
    | (with_reducible show rect _ = rect _) <;> rfl)

/-! ## Machine/Acc.lean -/

theorem placeIn_shape (s : State) (l : Nat) (cs : List Contr) {rv : State} (hr : placeIn s l cs = some rv) : shape rv = shape s := by
  unfold placeIn at hr
  repeat' (first | contradiction | split at hr | (cases hr) | dsimp only at hr)
  all_goals
    repeat' (first
      | with_reducible rfl
      | assumption
      | (with_reducible refine (foldlS_shape _ ?_ _ _).trans ?_)
      | simp only [↓countL_shape, ↓updL_shape, ↓mk_shape, ↓shape_ite, ↓fst_ite, ↓try_ite, ↓eng_ite, ↓reduceIte, ite_self, try_done, try_hold, try_trap, eng_done, eng_more, eng_wait, eng_trap]
      | split
      | intro _
      | (with_reducible show rect _ = rect _) <;> rfl
      | (with_reducible show Option.map rect _ = Option.map rect _) <;> (rw [‹getPart _ _ = some _›]; rfl)
      | (with_reducible show rect _ = rect _) <;> exact (noteIdle_rect _ _).trans rfl
      | (with_reducible show Option.map rect _ = Option.map rect _) <;> (rw [‹getPart _ _ = some _›]; exact congrArg some (noteIdle_rect _ _))
      | dsimp only
      | simp only [*])

/-! ## Machine/Links.lean -/

theorem enterRouter_shape (r : Nat) (i : Nat) (f : Flit) (s : State) : shape (enterRouter r i f s) = shape s := rfl

theorem feedLocal_shape (l : Nat) (x1 : Nat) (x2 : State) : shape (feedLocal l x1 x2) = shape x2 := by
  induction x1 generalizing l x2 with
  | zero =>
    unfold feedLocal
    repeat' (first
      | with_reducible rfl
      | assumption
      | (with_reducible refine (foldlS_shape _ ?_ _ _).trans ?_)
      | simp only [↓enterRouter_shape, ↓updL_shape, ↓mk_shape, ↓shape_ite, ↓fst_ite, ↓try_ite, ↓eng_ite, ↓reduceIte, ite_self, try_done, try_hold, try_trap, eng_done, eng_more, eng_wait, eng_trap]
      | split
      | intro _
      | (with_reducible show rect _ = rect _) <;> rfl
      | (with_reducible show Option.map rect _ = Option.map rect _) <;> (rw [‹getPart _ _ = some _›]; rfl)
      | (with_reducible show rect _ = rect _) <;> exact (noteIdle_rect _ _).trans rfl
      | (with_reducible show Option.map rect _ = Option.map rect _) <;> (rw [‹getPart _ _ = some _›]; exact congrArg some (noteIdle_rect _ _))
      | dsimp only
      | simp only [*])
  | succ y1 ih =>
    unfold feedLocal
    repeat' (first
      | with_reducible rfl
      | assumption
      | (with_reducible refine (foldlS_shape _ ?_ _ _).trans ?_)
      | simp only [↓enterRouter_shape, ↓updL_shape, ↓mk_shape, ↓shape_ite, ↓fst_ite, ↓try_ite, ↓eng_ite, ↓reduceIte, ite_self, try_done, try_hold, try_trap, eng_done, eng_more, eng_wait, eng_trap, ↓ih]
      | split
      | intro _
      | (with_reducible show rect _ = rect _) <;> rfl
      | (with_reducible show Option.map rect _ = Option.map rect _) <;> (rw [‹getPart _ _ = some _›]; rfl)
      | (with_reducible show rect _ = rect _) <;> exact (noteIdle_rect _ _).trans rfl
      | (with_reducible show Option.map rect _ = Option.map rect _) <;> (rw [‹getPart _ _ = some _›]; exact congrArg some (noteIdle_rect _ _))
      | dsimp only
      | simp only [*])

theorem feedL_shape (s : State) (l : Nat) : shape (feedL s l) = shape s := by
  unfold feedL
  simp only [↓feedLocal_shape]

theorem mapAdd_shape (e : RepairEntry) (s : State) {rv : State} (hr : mapAdd e s = some rv) : shape rv = shape s := by
  unfold mapAdd at hr
  repeat' (first | contradiction | split at hr | (cases hr) | dsimp only at hr)
  all_goals
    repeat' (first
      | with_reducible rfl
      | assumption
      | (with_reducible refine (foldlS_shape _ ?_ _ _).trans ?_)
      | simp only [↓mk_shape, ↓shape_ite, ↓fst_ite, ↓try_ite, ↓eng_ite, ↓reduceIte, ite_self, try_done, try_hold, try_trap, eng_done, eng_more, eng_wait, eng_trap]
      | split
      | intro _
      | (with_reducible show rect _ = rect _) <;> rfl
      | (with_reducible show Option.map rect _ = Option.map rect _) <;> (rw [‹getPart _ _ = some _›]; rfl)
      | (with_reducible show rect _ = rect _) <;> exact (noteIdle_rect _ _).trans rfl
      | (with_reducible show Option.map rect _ = Option.map rect _) <;> (rw [‹getPart _ _ = some _›]; exact congrArg some (noteIdle_rect _ _))
      | dsimp only
      | simp only [*])

/-! ## Machine/Sequencer.lean -/

theorem raiseFault_shape (s : State) (pn : Nat) (r : FaultRec) : shape (raiseFault s pn r) = shape s := by
  unfold raiseFault
  repeat' (first
    | with_reducible rfl
    | (with_reducible refine (updPart_shape _ _ _ ?_).trans ?_)
    | split
    | intro _
    | (with_reducible show rect _ = rect _) <;> rfl)

theorem trapAt_shape (s : State) (l : Nat) (cause : Nat) (detail : Nat) (idx : Nat) (word : Word) : shape (trapAt s l cause detail idx word) = shape s := by
  unfold trapAt
  repeat' (first
    | with_reducible rfl
    | simp only [↓updL_shape, ↓raiseFault_shape]
    | split)

theorem passEnd_shape (s : State) (l : Nat) (i : Instr) : shape (passEnd s l i) = shape s := by
  unfold passEnd
  repeat' (first
    | with_reducible rfl
    | simp only [↓trapAt_shape]
    | split)

theorem attempt_shape (l : Nat) (i : Instr) (t : State → Try) (s : State) (h_t : ∀ v0, shape ((t v0).state) = shape v0) : shape (attempt l i t s) = shape s := by
  unfold attempt
  repeat' (first
    | with_reducible rfl
    | simp only [↓trapAt_shape, ↓updL_shape, ↓passEnd_shape, ↓countL_shape, ↓mk_shape, ↓shape_ite, ↓reduceIte, ite_self, ↓try_ite, try_done, try_hold, try_trap]
    | split
    | intro _
    | (with_reducible show rect _ = rect _) <;> rfl
    | dsimp only
    | (have h' := congrArg (fun o => shape (Try.state o)) (‹_ = Try.done _›); simp only [↓trapAt_shape, ↓updL_shape, ↓passEnd_shape, ↓countL_shape, ↓mk_shape, ↓shape_ite, ↓fst_ite, ↓try_ite, ↓eng_ite, ↓reduceIte, ite_self, try_done, try_hold, try_trap, eng_done, eng_more, eng_wait, eng_trap, ↓h_t] at h'; first | exact h'.symm | exact h' | exact h'.symm.trans (by assumption))
    | (have h' := congrArg (fun o => shape (Try.state o)) (‹_ = Try.hold _ _›); simp only [↓trapAt_shape, ↓updL_shape, ↓passEnd_shape, ↓countL_shape, ↓mk_shape, ↓shape_ite, ↓fst_ite, ↓try_ite, ↓eng_ite, ↓reduceIte, ite_self, try_done, try_hold, try_trap, eng_done, eng_more, eng_wait, eng_trap, ↓h_t] at h'; first | exact h'.symm | exact h' | exact h'.symm.trans (by assumption))
    | (have h' := congrArg (fun o => shape (Try.state o)) (‹_ = Try.trap _ _ _›); simp only [↓trapAt_shape, ↓updL_shape, ↓passEnd_shape, ↓countL_shape, ↓mk_shape, ↓shape_ite, ↓fst_ite, ↓try_ite, ↓eng_ite, ↓reduceIte, ite_self, try_done, try_hold, try_trap, eng_done, eng_more, eng_wait, eng_trap, ↓h_t] at h'; first | exact h'.symm | exact h' | exact h'.symm.trans (by assumption)))

theorem checked_shape (cs : List (Bool × Nat)) (t : State → Try) (s : State) (h_t : ∀ v0, shape ((t v0).state) = shape v0) : shape ((checked cs t s).state) = shape s := by
  unfold checked
  repeat' (first
    | with_reducible rfl
    | assumption
    | (with_reducible refine (foldlS_shape _ ?_ _ _).trans ?_)
    | simp only [↓mk_shape, ↓shape_ite, ↓fst_ite, ↓try_ite, ↓eng_ite, ↓reduceIte, ite_self, try_done, try_hold, try_trap, eng_done, eng_more, eng_wait, eng_trap, ↓h_t]
    | split
    | intro _
    | (with_reducible show rect _ = rect _) <;> rfl
    | (with_reducible show Option.map rect _ = Option.map rect _) <;> (rw [‹getPart _ _ = some _›]; rfl)
    | (with_reducible show rect _ = rect _) <;> exact (noteIdle_rect _ _).trans rfl
    | (with_reducible show Option.map rect _ = Option.map rect _) <;> (rw [‹getPart _ _ = some _›]; exact congrArg some (noteIdle_rect _ _))
    | dsimp only
    | simp only [*]
    | (have h' := congrArg (fun o => shape (Try.state o)) (‹_ = Try.done _›); simp only [↓mk_shape, ↓shape_ite, ↓fst_ite, ↓try_ite, ↓eng_ite, ↓reduceIte, ite_self, try_done, try_hold, try_trap, eng_done, eng_more, eng_wait, eng_trap, ↓h_t] at h'; first | exact h'.symm | exact h' | exact h'.symm.trans (by assumption))
    | (have h' := congrArg (fun o => shape (Try.state o)) (‹_ = Try.hold _ _›); simp only [↓mk_shape, ↓shape_ite, ↓fst_ite, ↓try_ite, ↓eng_ite, ↓reduceIte, ite_self, try_done, try_hold, try_trap, eng_done, eng_more, eng_wait, eng_trap, ↓h_t] at h'; first | exact h'.symm | exact h' | exact h'.symm.trans (by assumption))
    | (have h' := congrArg (fun o => shape (Try.state o)) (‹_ = Try.trap _ _ _›); simp only [↓mk_shape, ↓shape_ite, ↓fst_ite, ↓try_ite, ↓eng_ite, ↓reduceIte, ite_self, try_done, try_hold, try_trap, eng_done, eng_more, eng_wait, eng_trap, ↓h_t] at h'; first | exact h'.symm | exact h' | exact h'.symm.trans (by assumption)))

theorem parityMiss_shape (s : State) (l : Nat) (n : Nat) (a : Nat) : shape (parityMiss s l n a) = shape s := by
  unfold parityMiss
  simp only [↓countL_shape, ↓updL_shape, ↓raiseL_shape]

theorem deliver_shape (s : State) (l : Nat) (n : Nat) (a : Nat) (poison : Bool) (parBad : Bool) : shape (deliver s l n a poison parBad).1 = shape s := by
  unfold deliver
  repeat' (first
    | with_reducible rfl
    | simp only [↓parityMiss_shape, ↓countL_shape]
    | split)

theorem emitLines_shape (l : Nat) (x1 : List PadLine) (x2 : Nat) (x3 : State) : shape ((emitLines l x1 x2 x3).state) = shape x3 := by
  induction x1 generalizing l x2 x3 with
  | nil =>
    unfold emitLines
    repeat' (first
      | with_reducible rfl
      | assumption
      | (with_reducible refine (foldlS_shape _ ?_ _ _).trans ?_)
      | simp only [↓updL_shape, ↓mk_shape, ↓shape_ite, ↓fst_ite, ↓try_ite, ↓eng_ite, ↓reduceIte, ite_self, try_done, try_hold, try_trap, eng_done, eng_more, eng_wait, eng_trap]
      | split
      | intro _
      | (with_reducible show rect _ = rect _) <;> rfl
      | (with_reducible show Option.map rect _ = Option.map rect _) <;> (rw [‹getPart _ _ = some _›]; rfl)
      | (with_reducible show rect _ = rect _) <;> exact (noteIdle_rect _ _).trans rfl
      | (with_reducible show Option.map rect _ = Option.map rect _) <;> (rw [‹getPart _ _ = some _›]; exact congrArg some (noteIdle_rect _ _))
      | dsimp only
      | simp only [*])
  | cons y0 y1 ih =>
    unfold emitLines
    repeat' (first
      | with_reducible rfl
      | assumption
      | (with_reducible refine (foldlS_shape _ ?_ _ _).trans ?_)
      | simp only [↓updL_shape, ↓mk_shape, ↓shape_ite, ↓fst_ite, ↓try_ite, ↓eng_ite, ↓reduceIte, ite_self, try_done, try_hold, try_trap, eng_done, eng_more, eng_wait, eng_trap, ↓ih]
      | split
      | intro _
      | (with_reducible show rect _ = rect _) <;> rfl
      | (with_reducible show Option.map rect _ = Option.map rect _) <;> (rw [‹getPart _ _ = some _›]; rfl)
      | (with_reducible show rect _ = rect _) <;> exact (noteIdle_rect _ _).trans rfl
      | (with_reducible show Option.map rect _ = Option.map rect _) <;> (rw [‹getPart _ _ = some _›]; exact congrArg some (noteIdle_rect _ _))
      | dsimp only
      | simp only [*])

theorem readPad_shape (s : State) (l : Nat) (a : Nat) (take : Bool) : shape (readPad s l a take).1 = shape s := by
  unfold readPad
  repeat' (first
    | with_reducible rfl
    | simp only [↓deliver_shape, ↓updL_shape]
    | split)

theorem gather_shape (l : Nat) (x1 : List LineRead) (x2 : State) : shape ((gather l x1 x2).1) = shape x2 := by
  induction x1 generalizing l x2 with
  | nil =>
    unfold gather
    repeat' (first
      | with_reducible rfl
      | assumption
      | (with_reducible refine (foldlS_shape _ ?_ _ _).trans ?_)
      | simp only [↓readPad_shape, ↓mk_shape, ↓shape_ite, ↓fst_ite, ↓try_ite, ↓eng_ite, ↓reduceIte, ite_self, try_done, try_hold, try_trap, eng_done, eng_more, eng_wait, eng_trap]
      | split
      | intro _
      | (with_reducible show rect _ = rect _) <;> rfl
      | (with_reducible show Option.map rect _ = Option.map rect _) <;> (rw [‹getPart _ _ = some _›]; rfl)
      | (with_reducible show rect _ = rect _) <;> exact (noteIdle_rect _ _).trans rfl
      | (with_reducible show Option.map rect _ = Option.map rect _) <;> (rw [‹getPart _ _ = some _›]; exact congrArg some (noteIdle_rect _ _))
      | dsimp only
      | simp only [*]
      | (have h' := congrArg (fun o => shape o.1) (‹_ = Prod.mk _ _›); simp only [↓readPad_shape, ↓mk_shape, ↓shape_ite, ↓fst_ite, ↓try_ite, ↓eng_ite, ↓reduceIte, ite_self, try_done, try_hold, try_trap, eng_done, eng_more, eng_wait, eng_trap] at h'; first | exact h'.symm | exact h' | exact h'.symm.trans (by assumption)))
  | cons y0 y1 ih =>
    unfold gather
    repeat' (first
      | with_reducible rfl
      | assumption
      | (with_reducible refine (foldlS_shape _ ?_ _ _).trans ?_)
      | simp only [↓readPad_shape, ↓mk_shape, ↓shape_ite, ↓fst_ite, ↓try_ite, ↓eng_ite, ↓reduceIte, ite_self, try_done, try_hold, try_trap, eng_done, eng_more, eng_wait, eng_trap, ↓ih]
      | split
      | intro _
      | (with_reducible show rect _ = rect _) <;> rfl
      | (with_reducible show Option.map rect _ = Option.map rect _) <;> (rw [‹getPart _ _ = some _›]; rfl)
      | (with_reducible show rect _ = rect _) <;> exact (noteIdle_rect _ _).trans rfl
      | (with_reducible show Option.map rect _ = Option.map rect _) <;> (rw [‹getPart _ _ = some _›]; exact congrArg some (noteIdle_rect _ _))
      | dsimp only
      | simp only [*]
      | (have h' := congrArg (fun o => shape o.1) (‹_ = Prod.mk _ _›); simp only [↓readPad_shape, ↓mk_shape, ↓shape_ite, ↓fst_ite, ↓try_ite, ↓eng_ite, ↓reduceIte, ite_self, try_done, try_hold, try_trap, eng_done, eng_more, eng_wait, eng_trap, ↓ih] at h'; first | exact h'.symm | exact h' | exact h'.symm.trans (by assumption)))

theorem launchL_shape (s : State) (l : Nat) (eng : Nat) (f : Flit) : shape (launchL s l eng f) = shape s := by
  unfold launchL
  simp only [↓countL_shape, ↓updL_shape]

theorem injectL_shape (s : State) (l : Nat) (eng : Nat) (f : Flit) : shape (injectL s l eng f) = shape s := by
  unfold injectL
  repeat' (first
    | with_reducible rfl
    | simp only [↓launchL_shape, ↓updL_shape]
    | split)

theorem issue_shape (l : Nat) (i : Instr) (t : State → Try) (s : State) (h_t : ∀ v0, shape ((t v0).state) = shape v0) : shape (issue l i t s) = shape s := by
  unfold issue
  repeat' (first
    | with_reducible rfl
    | assumption
    | (with_reducible refine (attempt_shape _ _ _ _ ?_).trans ?_)
    | (with_reducible refine (foldlS_shape _ ?_ _ _).trans ?_)
    | simp only [↓mk_shape, ↓shape_ite, ↓fst_ite, ↓try_ite, ↓eng_ite, ↓reduceIte, ite_self, try_done, try_hold, try_trap, eng_done, eng_more, eng_wait, eng_trap, ↓h_t]
    | split
    | intro _
    | (with_reducible show rect _ = rect _) <;> rfl
    | (with_reducible show Option.map rect _ = Option.map rect _) <;> (rw [‹getPart _ _ = some _›]; rfl)
    | (with_reducible show rect _ = rect _) <;> exact (noteIdle_rect _ _).trans rfl
    | (with_reducible show Option.map rect _ = Option.map rect _) <;> (rw [‹getPart _ _ = some _›]; exact congrArg some (noteIdle_rect _ _))
    | dsimp only
    | simp only [*]
    | (have h' := congrArg (fun o => shape (Try.state o)) (‹_ = Try.done _›); simp only [↓mk_shape, ↓shape_ite, ↓fst_ite, ↓try_ite, ↓eng_ite, ↓reduceIte, ite_self, try_done, try_hold, try_trap, eng_done, eng_more, eng_wait, eng_trap, ↓h_t] at h'; first | exact h'.symm | exact h' | exact h'.symm.trans (by assumption))
    | (have h' := congrArg (fun o => shape (Try.state o)) (‹_ = Try.hold _ _›); simp only [↓mk_shape, ↓shape_ite, ↓fst_ite, ↓try_ite, ↓eng_ite, ↓reduceIte, ite_self, try_done, try_hold, try_trap, eng_done, eng_more, eng_wait, eng_trap, ↓h_t] at h'; first | exact h'.symm | exact h' | exact h'.symm.trans (by assumption))
    | (have h' := congrArg (fun o => shape (Try.state o)) (‹_ = Try.trap _ _ _›); simp only [↓mk_shape, ↓shape_ite, ↓fst_ite, ↓try_ite, ↓eng_ite, ↓reduceIte, ite_self, try_done, try_hold, try_trap, eng_done, eng_more, eng_wait, eng_trap, ↓h_t] at h'; first | exact h'.symm | exact h' | exact h'.symm.trans (by assumption)))

theorem pushOp_shape (l : Nat) (e : Nat) (op : EOp) (i : Instr) (s : State) : shape (pushOp l e op i s).state = shape s := by
  unfold pushOp
  repeat' (first
    | with_reducible rfl
    | simp only [↓updEng_shape, ↓try_ite, try_done, try_hold, try_trap]
    | split
    | intro _
    | (with_reducible show rect _ = rect _) <;> rfl
    | dsimp only)

theorem pushReg_shape (l e : Nat) (sd : Fin 32) (op : EOp) (i : Instr) (s : State) : shape (pushReg l e sd op i s).state = shape s := by
  have h := pushOp_shape l e op i s
  unfold pushReg
  split
  · next h1 => rw [h1] at h; exact h
  · exact h

theorem sendFlits_shape (l : Nat) (eng : Nat) (ent : Nat) (x3 : List Flit) (x4 : State) : shape ((sendFlits l eng ent x3 x4).state) = shape x4 := by
  induction x3 generalizing l eng ent x4 with
  | nil =>
    unfold sendFlits
    repeat' (first
      | with_reducible rfl
      | assumption
      | (with_reducible refine (foldlS_shape _ ?_ _ _).trans ?_)
      | simp only [↓updSl_shape, ↓injectL_shape, ↓mk_shape, ↓shape_ite, ↓fst_ite, ↓try_ite, ↓eng_ite, ↓reduceIte, ite_self, try_done, try_hold, try_trap, eng_done, eng_more, eng_wait, eng_trap]
      | split
      | intro _
      | (with_reducible show rect _ = rect _) <;> rfl
      | (with_reducible show Option.map rect _ = Option.map rect _) <;> (rw [‹getPart _ _ = some _›]; rfl)
      | (with_reducible show rect _ = rect _) <;> exact (noteIdle_rect _ _).trans rfl
      | (with_reducible show Option.map rect _ = Option.map rect _) <;> (rw [‹getPart _ _ = some _›]; exact congrArg some (noteIdle_rect _ _))
      | dsimp only
      | simp only [*])
  | cons y0 y1 ih =>
    unfold sendFlits
    repeat' (first
      | with_reducible rfl
      | assumption
      | (with_reducible refine (foldlS_shape _ ?_ _ _).trans ?_)
      | simp only [↓updSl_shape, ↓injectL_shape, ↓mk_shape, ↓shape_ite, ↓fst_ite, ↓try_ite, ↓eng_ite, ↓reduceIte, ite_self, try_done, try_hold, try_trap, eng_done, eng_more, eng_wait, eng_trap, ↓ih]
      | split
      | intro _
      | (with_reducible show rect _ = rect _) <;> rfl
      | (with_reducible show Option.map rect _ = Option.map rect _) <;> (rw [‹getPart _ _ = some _›]; rfl)
      | (with_reducible show rect _ = rect _) <;> exact (noteIdle_rect _ _).trans rfl
      | (with_reducible show Option.map rect _ = Option.map rect _) <;> (rw [‹getPart _ _ = some _›]; exact congrArg some (noteIdle_rect _ _))
      | dsimp only
      | simp only [*])

theorem trapNow_shape (s : State) (l : Nat) (cause : Nat) (detail : Nat) : shape (trapNow s l cause detail) = shape s := by
  unfold trapNow
  simp only [↓trapAt_shape]

theorem unitFault_shape (s : State) (pn : Nat) (cls : Nat) (place : Nat) : shape (unitFault s pn cls place) = shape s := by
  unfold unitFault
  simp only [↓raiseFault_shape]

theorem waitEnded_shape (s : State) (l : Nat) (code : Nat) (since : Nat) : shape (waitEnded s l code since) = shape s := by
  unfold waitEnded
  repeat' (first
    | with_reducible rfl
    | simp only [↓traceL_shape]
    | split)

theorem withRegs_shape (l : Nat) (rs : List (Fin 32)) (t : State → Try) (s : State) (h_t : ∀ v0, shape ((t v0).state) = shape v0) : shape ((withRegs l rs t s).state) = shape s := by
  unfold withRegs
  repeat' (first
    | with_reducible rfl
    | assumption
    | (with_reducible refine (foldlS_shape _ ?_ _ _).trans ?_)
    | simp only [↓mk_shape, ↓shape_ite, ↓fst_ite, ↓try_ite, ↓eng_ite, ↓reduceIte, ite_self, try_done, try_hold, try_trap, eng_done, eng_more, eng_wait, eng_trap, ↓h_t]
    | split
    | intro _
    | (with_reducible show rect _ = rect _) <;> rfl
    | (with_reducible show Option.map rect _ = Option.map rect _) <;> (rw [‹getPart _ _ = some _›]; rfl)
    | (with_reducible show rect _ = rect _) <;> exact (noteIdle_rect _ _).trans rfl
    | (with_reducible show Option.map rect _ = Option.map rect _) <;> (rw [‹getPart _ _ = some _›]; exact congrArg some (noteIdle_rect _ _))
    | dsimp only
    | simp only [*]
    | (have h' := congrArg (fun o => shape (Try.state o)) (‹_ = Try.done _›); simp only [↓mk_shape, ↓shape_ite, ↓fst_ite, ↓try_ite, ↓eng_ite, ↓reduceIte, ite_self, try_done, try_hold, try_trap, eng_done, eng_more, eng_wait, eng_trap, ↓h_t] at h'; first | exact h'.symm | exact h' | exact h'.symm.trans (by assumption))
    | (have h' := congrArg (fun o => shape (Try.state o)) (‹_ = Try.hold _ _›); simp only [↓mk_shape, ↓shape_ite, ↓fst_ite, ↓try_ite, ↓eng_ite, ↓reduceIte, ite_self, try_done, try_hold, try_trap, eng_done, eng_more, eng_wait, eng_trap, ↓h_t] at h'; first | exact h'.symm | exact h' | exact h'.symm.trans (by assumption))
    | (have h' := congrArg (fun o => shape (Try.state o)) (‹_ = Try.trap _ _ _›); simp only [↓mk_shape, ↓shape_ite, ↓fst_ite, ↓try_ite, ↓eng_ite, ↓reduceIte, ite_self, try_done, try_hold, try_trap, eng_done, eng_more, eng_wait, eng_trap, ↓h_t] at h'; first | exact h'.symm | exact h' | exact h'.symm.trans (by assumption)))

theorem writePad_shape (s : State) (l : Nat) (a : Nat) (x : Line) (poison : Bool) (shadow : BitVec 4) : shape (writePad s l a x poison shadow) = shape s := rfl

/-! ## Machine/AccPort.lean -/

theorem runAclr_shape (l : Nat) (seq : Nat) (b : Nat) (n : Nat) (s : State) : shape (runAclr l seq b n s).state = shape s := by
  unfold runAclr
  repeat' (first
    | with_reducible rfl
    | simp only [↓updL_shape, ↓eng_ite, eng_done, eng_more, eng_wait, eng_trap]
    | split
    | intro _
    | (with_reducible show rect _ = rect _) <;> rfl
    | dsimp only)

theorem runAexp_shape (l : Nat) (seq : Nat) (b : Nat) (n : Nat) (ent : Nat) (clr : Bool) (s : State) : shape (runAexp l seq b n ent clr s).state = shape s := by
  unfold runAexp
  repeat' (first
    | with_reducible rfl
    | simp only [↓updL_shape, ↓eng_ite, eng_done, eng_more, eng_wait, eng_trap]
    | split
    | intro _
    | (with_reducible show rect _ = rect _) <;> rfl
    | dsimp only)

theorem runAimp_shape (l : Nat) (seq : Nat) (x2 : Nat) (x3 : Nat) (x4 : Nat) (x5 : Nat) (x6 : Nat) (x7 : State) : shape ((runAimp l seq x2 x3 x4 x5 x6 x7).state) = shape x7 := by
  induction x2 generalizing l seq x3 x4 x5 x6 x7 with
  | zero =>
    unfold runAimp
    repeat' (first
      | with_reducible rfl
      | assumption
      | (with_reducible refine (placeIn_shape (hr := ‹_›)).trans ?_)
      | (with_reducible refine (foldlS_shape _ ?_ _ _).trans ?_)
      | simp only [↓injectL_shape, ↓updLane_shape, ↓mk_shape, ↓shape_ite, ↓fst_ite, ↓try_ite, ↓eng_ite, ↓reduceIte, ite_self, try_done, try_hold, try_trap, eng_done, eng_more, eng_wait, eng_trap]
      | split
      | intro _
      | (with_reducible show rect _ = rect _) <;> rfl
      | (with_reducible show Option.map rect _ = Option.map rect _) <;> (rw [‹getPart _ _ = some _›]; rfl)
      | (with_reducible show rect _ = rect _) <;> exact (noteIdle_rect _ _).trans rfl
      | (with_reducible show Option.map rect _ = Option.map rect _) <;> (rw [‹getPart _ _ = some _›]; exact congrArg some (noteIdle_rect _ _))
      | dsimp only
      | simp only [*])
  | succ y1 ih =>
    unfold runAimp
    repeat' (first
      | with_reducible rfl
      | assumption
      | (with_reducible refine (placeIn_shape (hr := ‹_›)).trans ?_)
      | (with_reducible refine (foldlS_shape _ ?_ _ _).trans ?_)
      | simp only [↓injectL_shape, ↓updLane_shape, ↓mk_shape, ↓shape_ite, ↓fst_ite, ↓try_ite, ↓eng_ite, ↓reduceIte, ite_self, try_done, try_hold, try_trap, eng_done, eng_more, eng_wait, eng_trap, ↓ih]
      | split
      | intro _
      | (with_reducible show rect _ = rect _) <;> rfl
      | (with_reducible show Option.map rect _ = Option.map rect _) <;> (rw [‹getPart _ _ = some _›]; rfl)
      | (with_reducible show rect _ = rect _) <;> exact (noteIdle_rect _ _).trans rfl
      | (with_reducible show Option.map rect _ = Option.map rect _) <;> (rw [‹getPart _ _ = some _›]; exact congrArg some (noteIdle_rect _ _))
      | dsimp only
      | simp only [*])

theorem runArd_shape (l : Nat) (seq : Nat) (b : Nat) (n : Nat) (line : Nat) (ty : Nat) (clr : Bool) (s : State) : shape (runArd l seq b n line ty clr s).state = shape s := by
  unfold runArd
  repeat' (first
    | with_reducible rfl
    | simp only [↓countL_shape, ↓updL_shape, ↓eng_ite, eng_done, eng_more, eng_wait, eng_trap]
    | split
    | intro _
    | (with_reducible show rect _ = rect _) <;> rfl
    | dsimp only)

/-! ## Machine/CalStore.lean -/

theorem setCal_shape (s : State) (key : Nat) (r : CalRec) : shape (setCal s key r) = shape s := rfl

/-! ## Machine/ArrayUnit.lean -/

theorem chargeField_shape (s : State) (f : Nat) (c : Nat) : shape (chargeField s f c) = shape s := by
  unfold chargeField
  simp only [↓countF_shape, ↓updF_shape]

/-! ## Machine/Monitors.lean -/

theorem endCapture_shape (s : State) (l : Nat) (a : Nat) (g : Nat) (set : MonSet) (m : Monitor) : shape (endCapture s l a g set m).1 = shape s := by
  unfold endCapture
  repeat' (first
    | with_reducible rfl
    | simp only [↓raiseL_shape]
    | split)

theorem thresholdEvent_shape (s : State) (l : Nat) (sev : Nat) (code : Nat) (detail : Nat) (raised : Bool) (x : Rat) (t : Rat) : shape (thresholdEvent s l sev code detail raised x t).1 = shape s := by
  unfold thresholdEvent
  repeat' (first
    | with_reducible rfl
    | simp only [↓raiseL_shape]
    | split)

theorem monitorEvents_shape (s : State) (l : Nat) (a : Nat) (g : Nat) (set : MonSet) (m : Monitor) : shape (monitorEvents s l a g set m).1 = shape s := by
  unfold monitorEvents
  repeat' (first
    | with_reducible rfl
    | simp only [↓thresholdEvent_shape]
    | split)

theorem noteUnresolved_shape (s : State) (l : Nat) (a : Nat) (g : Nat) (hit : Bool) (m : Monitor) : shape (noteUnresolved s l a g hit m).1 = shape s := by
  unfold noteUnresolved
  repeat' (first
    | with_reducible rfl
    | simp only [↓raiseL_shape]
    | split)

theorem monitorGroup_shape (l : Nat) (r : Run) (s : State) (g : Nat) : shape (monitorGroup l r s g) = shape s := by
  unfold monitorGroup
  repeat' (first
    | with_reducible rfl
    | simp only [↓endCapture_shape, ↓monitorEvents_shape, ↓noteUnresolved_shape, ↓updL_shape]
    | split)

theorem sampleMonitors_shape (s : State) (l : Nat) (r : Run) : shape (sampleMonitors s l r) = shape s := by
  unfold sampleMonitors
  repeat' (first
    | with_reducible rfl
    | assumption
    | (with_reducible refine (foldlS_shape _ ?_ _ _).trans ?_)
    | simp only [↓monitorGroup_shape, ↓mk_shape, ↓shape_ite, ↓fst_ite, ↓try_ite, ↓eng_ite, ↓reduceIte, ite_self, try_done, try_hold, try_trap, eng_done, eng_more, eng_wait, eng_trap]
    | split
    | intro _
    | (with_reducible show rect _ = rect _) <;> rfl
    | (with_reducible show Option.map rect _ = Option.map rect _) <;> (rw [‹getPart _ _ = some _›]; rfl)
    | (with_reducible show rect _ = rect _) <;> exact (noteIdle_rect _ _).trans rfl
    | (with_reducible show Option.map rect _ = Option.map rect _) <;> (rw [‹getPart _ _ = some _›]; exact congrArg some (noteIdle_rect _ _))
    | dsimp only
    | simp only [*])

theorem startCapture_shape (s : State) (l : Nat) (a : Nat) : shape (startCapture s l a) = shape s := by
  unfold startCapture
  simp only [↓updL_shape]

/-! ## Machine/ArrayEvents.lean -/

theorem queueTouch_shape (s : State) (l : Nat) (a : Nat) : shape (queueTouch s l a) = shape s := by
  unfold queueTouch
  repeat' (first
    | with_reducible rfl
    | simp only [↓updArr_shape]
    | split)

theorem driftUpdate_shape (s : State) (l : Nat) (a : Nat) : shape (driftUpdate s l a) = shape s := by
  unfold driftUpdate
  repeat' (first
    | with_reducible rfl
    | (with_reducible refine (forEach_shape _ _ _ ?_).trans ?_)
    | simp only [↓updArr_shape, ↓raiseL_shape, ↓countL_shape, ↓queueTouch_shape]
    | split
    | intro _
    | (with_reducible show rect _ = rect _) <;> rfl)

theorem startPhase_shape (s : State) (l : Nat) (p : ArrayOp) (ph : Phase) : shape (startPhase s l p ph).1 = shape s := by
  unfold startPhase
  simp only [↓countL_shape]

theorem startSub_shape (s : State) (l : Nat) (first : Bool) (resplit : Bool) : shape (startSub s l first resplit) = shape s := by
  unfold startSub
  repeat' (first
    | with_reducible rfl
    | simp only [↓countL_shape, ↓chargeField_shape]
    | split)

theorem endPass_shape (l : Nat) (r : Run) (ph : Phase) (rest : List Phase) (s : State) : shape (endPass l r ph rest s).1 = shape s := by
  unfold endPass
  repeat' (first
    | with_reducible rfl
    | simp only [↓startPhase_shape, ↓startSub_shape]
    | split)

theorem endRestore_shape (l : Nat) (b : Nat) (s : State) : shape (endRestore l b s) = shape s := by
  unfold endRestore
  repeat' (first
    | with_reducible rfl
    | simp only [↓updBank_shape]
    | split)

theorem endSubPhase_shape (l : Nat) (b : Nat) (s : State) : shape (endSubPhase l b s) = shape s := by
  unfold endSubPhase
  repeat' (first
    | with_reducible rfl
    | simp only [↓startSub_shape, ↓endPass_shape, ↓updBank_shape, ↓mk_shape]
    | split
    | intro _
    | (with_reducible show rect _ = rect _) <;> rfl)

theorem holdOutputs_shape (l : Nat) (b : Nat) (code : Nat) (r : Run) (s : State) : shape (holdOutputs l b code r s) = shape s := by
  unfold holdOutputs
  repeat' (first
    | with_reducible rfl
    | simp only [↓updBank_shape, ↓waitEnded_shape]
    | split)

theorem settleRun_shape (l : Nat) (b : Nat) (p : Run → Bool) (f : Run → Run) (r : Run) (s : State) : shape (settleRun l b p f r s) = shape s := by
  unfold settleRun
  repeat' (first
    | with_reducible rfl
    | simp only [↓updBank_shape, ↓sampleMonitors_shape]
    | split)

theorem placeOutputs_shape (l : Nat) (b : Nat) (s : State) : shape (placeOutputs l b s) = shape s := by
  unfold placeOutputs
  repeat' (first
    | with_reducible rfl
    | (with_reducible refine (placeIn_shape (hr := ‹_›)).trans ?_)
    | simp only [↓holdOutputs_shape, ↓countL_shape, ↓waitEnded_shape, ↓settleRun_shape]
    | split)

theorem execArrayOpComplete_shape (l : Nat) (bank : Nat) (s : State) {nxt : State} (hn : execArrayOpComplete l bank s = .next nxt) : shape nxt = shape s := by
  unfold execArrayOpComplete at hn
  refine guarded_shape hn ?_
  simp only [↓placeOutputs_shape]

theorem holdSlot_shape (l : Nat) (b : Nat) (code : Nat) (s : State) : shape (holdSlot l b code s) = shape s := by
  unfold holdSlot
  repeat' (first
    | with_reducible rfl
    | simp only [↓updBank_shape, ↓waitEnded_shape]
    | split)

theorem startArrayOp_shape (l : Nat) (b : Nat) (s : State) : shape (startArrayOp l b s) = shape s := by
  unfold startArrayOp
  repeat' (first
    | with_reducible rfl
    | simp only [↓holdSlot_shape, ↓updL_shape, ↓updBank_shape, ↓countL_shape, ↓startPhase_shape, ↓chargeField_shape]
    | split)

theorem execArrayOpStart_shape (l : Nat) (bank : Nat) (s : State) {nxt : State} (hn : execArrayOpStart l bank s = .next nxt) : shape nxt = shape s := by
  unfold execArrayOpStart at hn
  refine guarded_shape hn ?_
  simp only [↓startArrayOp_shape]

theorem execBankRestoreDone_shape (l : Nat) (bank : Nat) (s : State) {nxt : State} (hn : execBankRestoreDone l bank s = .next nxt) : shape nxt = shape s := by
  unfold execBankRestoreDone at hn
  refine guarded_shape hn ?_
  simp only [↓endRestore_shape]

theorem setStale_shape (s : State) (l : Nat) (a : Nat) : shape (setStale s l a) = shape s := by
  unfold setStale
  repeat' (first
    | with_reducible rfl
    | simp only [↓countL_shape, ↓updArr_shape]
    | split)

theorem execDriftStaleTimeout_shape (l : Nat) (arr : Nat) (s : State) {nxt : State} (hn : execDriftStaleTimeout l arr s = .next nxt) : shape nxt = shape s := by
  unfold execDriftStaleTimeout at hn
  refine guarded_shape hn ?_
  repeat' (first
    | with_reducible rfl
    | simp only [↓setStale_shape]
    | split)

theorem holdResidual_shape (l : Nat) (b : Nat) (code : Nat) (r : Run) (s : State) : shape (holdResidual l b code r s) = shape s := by
  unfold holdResidual
  repeat' (first
    | with_reducible rfl
    | simp only [↓updBank_shape, ↓waitEnded_shape]
    | split)

theorem placeResidual_shape (l : Nat) (b : Nat) (s : State) : shape (placeResidual l b s) = shape s := by
  unfold placeResidual
  repeat' (first
    | with_reducible rfl
    | (with_reducible refine (placeIn_shape (hr := ‹_›)).trans ?_)
    | simp only [↓holdResidual_shape, ↓gather_shape, ↓updBank_shape, ↓trapNow_shape, ↓countL_shape, ↓settleRun_shape, ↓waitEnded_shape]
    | split)

theorem execOutlierResidual_shape (l : Nat) (bank : Nat) (s : State) {nxt : State} (hn : execOutlierResidual l bank s = .next nxt) : shape nxt = shape s := by
  unfold execOutlierResidual at hn
  refine guarded_shape hn ?_
  simp only [↓placeResidual_shape]

theorem execPhaseComplete_shape (l : Nat) (bank : Nat) (s : State) {nxt : State} (hn : execPhaseComplete l bank s = .next nxt) : shape nxt = shape s := by
  unfold execPhaseComplete at hn
  refine guarded_shape hn ?_
  simp only [↓endSubPhase_shape]

theorem takeSample_shape (s : State) (l : Nat) (a : Nat) : shape (takeSample s l a) = shape s := by
  unfold takeSample
  repeat' (first
    | with_reducible rfl
    | simp only [↓countL_shape, ↓chargeField_shape, ↓updArr_shape, ↓mk_shape]
    | split
    | intro _
    | (with_reducible show rect _ = rect _) <;> rfl)

theorem refSample_shape (s : State) (l : Nat) (a : Nat) : shape (refSample s l a) = shape s := by
  unfold refSample
  repeat' (first
    | with_reducible rfl
    | simp only [↓takeSample_shape, ↓driftUpdate_shape]
    | split)

theorem referenceOp_shape (l : Nat) (a : Nat) (s : State) : shape (referenceOp l a s) = shape s := by
  unfold referenceOp
  repeat' (first
    | with_reducible rfl
    | simp only [↓refSample_shape]
    | split)

theorem execReferenceOperation_shape (l : Nat) (arr : Nat) (s : State) {nxt : State} (hn : execReferenceOperation l arr s = .next nxt) : shape nxt = shape s := by
  unfold execReferenceOperation at hn
  refine guarded_shape hn ?_
  simp only [↓referenceOp_shape]

theorem restartSamples_shape (l : Nat) (s : State) : shape (restartSamples l s) = shape s := rfl

theorem setTemp_shape (s : State) (l : Nat) (t : Int) : shape (setTemp s l t) = shape s := rfl

theorem updateTemps_shape (f : Nat) (s : State) : shape (updateTemps f s) = shape s := by
  unfold updateTemps
  repeat' (first
    | with_reducible rfl
    | assumption
    | (with_reducible refine (forEach_shape _ _ _ ?_).trans ?_)
    | (with_reducible refine (foldlS_shape _ ?_ _ _).trans ?_)
    | simp only [↓restartSamples_shape, ↓updF_shape, ↓setTemp_shape, ↓raiseF_shape, ↓setStale_shape, ↓mk_shape, ↓shape_ite, ↓fst_ite, ↓try_ite, ↓eng_ite, ↓reduceIte, ite_self, try_done, try_hold, try_trap, eng_done, eng_more, eng_wait, eng_trap]
    | split
    | intro _
    | (with_reducible show rect _ = rect _) <;> rfl
    | (with_reducible show Option.map rect _ = Option.map rect _) <;> (rw [‹getPart _ _ = some _›]; rfl)
    | (with_reducible show rect _ = rect _) <;> exact (noteIdle_rect _ _).trans rfl
    | (with_reducible show Option.map rect _ = Option.map rect _) <;> (rw [‹getPart _ _ = some _›]; exact congrArg some (noteIdle_rect _ _))
    | dsimp only
    | simp only [*])

theorem execTemperatureUpdate_shape (field : Nat) (s : State) {nxt : State} (hn : execTemperatureUpdate field s = .next nxt) : shape nxt = shape s := by
  unfold execTemperatureUpdate at hn
  refine guarded_shape hn ?_
  simp only [↓updateTemps_shape]

theorem takeSamples_shape (n : Nat) (l : Nat) (a : Nat) (s : State) : shape (takeSamples n l a s) = shape s := by
  unfold takeSamples
  repeat' (first
    | with_reducible rfl
    | assumption
    | (with_reducible refine (foldlS_shape _ ?_ _ _).trans ?_)
    | simp only [↓takeSample_shape, ↓mk_shape, ↓shape_ite, ↓fst_ite, ↓try_ite, ↓eng_ite, ↓reduceIte, ite_self, try_done, try_hold, try_trap, eng_done, eng_more, eng_wait, eng_trap]
    | split
    | intro _
    | (with_reducible show rect _ = rect _) <;> rfl
    | (with_reducible show Option.map rect _ = Option.map rect _) <;> (rw [‹getPart _ _ = some _›]; rfl)
    | (with_reducible show rect _ = rect _) <;> exact (noteIdle_rect _ _).trans rfl
    | (with_reducible show Option.map rect _ = Option.map rect _) <;> (rw [‹getPart _ _ = some _›]; exact congrArg some (noteIdle_rect _ _))
    | dsimp only
    | simp only [*])

/-! ## Machine/KvStore.lean -/

theorem readKv_shape (s : State) (l : Nat) (a : Nat) : shape (readKv s l a).1 = shape s := by
  unfold readKv
  simp only [↓deliver_shape]

theorem tableRead_shape (s : State) (l : Nat) (a : Nat) : shape (tableRead s l a) = shape s := by
  unfold tableRead
  simp only [↓deliver_shape]

theorem walkReads_shape (s : State) (l : Nat) (k : Desc) (x : Nat) : shape (walkReads s l k x) = shape s := by
  unfold walkReads
  repeat' (first
    | with_reducible rfl
    | simp only [↓tableRead_shape]
    | split)

theorem resolveOne_shape (s : State) (l : Nat) (d : Nat) (x : Nat) {rv : State × Nat} (hr : resolveOne s l d x = some rv) : shape rv.1 = shape s := by
  unfold resolveOne at hr
  repeat' (first | contradiction | split at hr | (cases hr) | dsimp only at hr)
  all_goals
    repeat' (first
      | with_reducible rfl
      | assumption
      | (with_reducible refine (foldlS_shape _ ?_ _ _).trans ?_)
      | simp only [↓walkReads_shape, ↓updL_shape, ↓mk_shape, ↓shape_ite, ↓fst_ite, ↓try_ite, ↓eng_ite, ↓reduceIte, ite_self, try_done, try_hold, try_trap, eng_done, eng_more, eng_wait, eng_trap]
      | split
      | intro _
      | (with_reducible show rect _ = rect _) <;> rfl
      | (with_reducible show Option.map rect _ = Option.map rect _) <;> (rw [‹getPart _ _ = some _›]; rfl)
      | (with_reducible show rect _ = rect _) <;> exact (noteIdle_rect _ _).trans rfl
      | (with_reducible show Option.map rect _ = Option.map rect _) <;> (rw [‹getPart _ _ = some _›]; exact congrArg some (noteIdle_rect _ _))
      | dsimp only
      | simp only [*])

theorem resolve_shape (s : State) (l : Nat) (d : Nat) (x : Nat) {rv : State × Nat} (hr : resolve s l d x = some rv) : shape rv.1 = shape s := by
  unfold resolve at hr
  repeat' (first | contradiction | split at hr | (cases hr) | dsimp only at hr)
  all_goals
    repeat' (first
      | with_reducible rfl
      | assumption
      | (with_reducible refine (resolveOne_shape (rv := (_, _)) (hr := ‹_›)).trans ?_)
      | (with_reducible refine (foldlS_shape _ ?_ _ _).trans ?_)
      | simp only [↓updL_shape, ↓mk_shape, ↓shape_ite, ↓fst_ite, ↓try_ite, ↓eng_ite, ↓reduceIte, ite_self, try_done, try_hold, try_trap, eng_done, eng_more, eng_wait, eng_trap]
      | split
      | intro _
      | (with_reducible show rect _ = rect _) <;> rfl
      | (with_reducible show Option.map rect _ = Option.map rect _) <;> (rw [‹getPart _ _ = some _›]; rfl)
      | (with_reducible show rect _ = rect _) <;> exact (noteIdle_rect _ _).trans rfl
      | (with_reducible show Option.map rect _ = Option.map rect _) <;> (rw [‹getPart _ _ = some _›]; exact congrArg some (noteIdle_rect _ _))
      | dsimp only
      | simp only [*])

theorem readShare_shape (l : Nat) (d : Nat) (i : Nat) (x3 : List Nat) (x4 : State) {rv : State × List (Line × Bool)} (hr : readShare l d i x3 x4 = some rv) : shape rv.1 = shape x4 := by
  induction x3 generalizing l d i x4 rv with
  | nil =>
    unfold readShare at hr
    repeat' (first | contradiction | split at hr | (cases hr) | dsimp only at hr)
    all_goals
      repeat' (first
        | with_reducible rfl
        | assumption
        | (with_reducible refine (resolve_shape (rv := (_, _)) (hr := ‹_›)).trans ?_)
        | (with_reducible refine (foldlS_shape _ ?_ _ _).trans ?_)
        | simp only [↓readKv_shape, ↓mk_shape, ↓shape_ite, ↓fst_ite, ↓try_ite, ↓eng_ite, ↓reduceIte, ite_self, try_done, try_hold, try_trap, eng_done, eng_more, eng_wait, eng_trap]
        | split
        | intro _
        | (with_reducible show rect _ = rect _) <;> rfl
        | (with_reducible show Option.map rect _ = Option.map rect _) <;> (rw [‹getPart _ _ = some _›]; rfl)
        | (with_reducible show rect _ = rect _) <;> exact (noteIdle_rect _ _).trans rfl
        | (with_reducible show Option.map rect _ = Option.map rect _) <;> (rw [‹getPart _ _ = some _›]; exact congrArg some (noteIdle_rect _ _))
        | dsimp only
        | simp only [*]
        | (have h' := congrArg (fun o => shape o.1) (‹_ = Prod.mk _ _›); simp only [↓readKv_shape, ↓mk_shape, ↓shape_ite, ↓fst_ite, ↓try_ite, ↓eng_ite, ↓reduceIte, ite_self, try_done, try_hold, try_trap, eng_done, eng_more, eng_wait, eng_trap] at h'; first | exact h'.symm | exact h' | exact h'.symm.trans (by assumption)))
  | cons y0 y1 ih =>
    unfold readShare at hr
    repeat' (first | contradiction | split at hr | (cases hr) | dsimp only at hr)
    all_goals
      repeat' (first
        | with_reducible rfl
        | assumption
        | (with_reducible refine (resolve_shape (rv := (_, _)) (hr := ‹_›)).trans ?_)
        | (with_reducible refine (ih (rv := (_, _)) (hr := ‹_›)).trans ?_)
        | (with_reducible refine (ih (hr := ‹_›)).trans ?_)
        | (with_reducible refine (foldlS_shape _ ?_ _ _).trans ?_)
        | simp only [↓readKv_shape, ↓mk_shape, ↓shape_ite, ↓fst_ite, ↓try_ite, ↓eng_ite, ↓reduceIte, ite_self, try_done, try_hold, try_trap, eng_done, eng_more, eng_wait, eng_trap]
        | split
        | intro _
        | (with_reducible show rect _ = rect _) <;> rfl
        | (with_reducible show Option.map rect _ = Option.map rect _) <;> (rw [‹getPart _ _ = some _›]; rfl)
        | (with_reducible show rect _ = rect _) <;> exact (noteIdle_rect _ _).trans rfl
        | (with_reducible show Option.map rect _ = Option.map rect _) <;> (rw [‹getPart _ _ = some _›]; exact congrArg some (noteIdle_rect _ _))
        | dsimp only
        | simp only [*]
        | (have h' := congrArg (fun o => shape o.1) (‹_ = Prod.mk _ _›); simp only [↓readKv_shape, ↓mk_shape, ↓shape_ite, ↓fst_ite, ↓try_ite, ↓eng_ite, ↓reduceIte, ite_self, try_done, try_hold, try_trap, eng_done, eng_more, eng_wait, eng_trap] at h'; first | exact h'.symm | exact h' | exact h'.symm.trans (by assumption)))

theorem readIndices_shape (l : Nat) (d : Nat) (x2 : Nat) (x3 : Nat) (x4 : State) {rv : State × List (Line × Bool)} (hr : readIndices l d x2 x3 x4 = some rv) : shape rv.1 = shape x4 := by
  induction x3 generalizing l d x2 x4 rv with
  | zero =>
    unfold readIndices at hr
    repeat' (first | contradiction | split at hr | (cases hr) | dsimp only at hr)
    all_goals
      repeat' (first
        | with_reducible rfl
        | assumption
        | (with_reducible refine (readShare_shape (rv := (_, _)) (hr := ‹_›)).trans ?_)
        | (with_reducible refine (foldlS_shape _ ?_ _ _).trans ?_)
        | simp only [↓mk_shape, ↓shape_ite, ↓fst_ite, ↓try_ite, ↓eng_ite, ↓reduceIte, ite_self, try_done, try_hold, try_trap, eng_done, eng_more, eng_wait, eng_trap]
        | split
        | intro _
        | (with_reducible show rect _ = rect _) <;> rfl
        | (with_reducible show Option.map rect _ = Option.map rect _) <;> (rw [‹getPart _ _ = some _›]; rfl)
        | (with_reducible show rect _ = rect _) <;> exact (noteIdle_rect _ _).trans rfl
        | (with_reducible show Option.map rect _ = Option.map rect _) <;> (rw [‹getPart _ _ = some _›]; exact congrArg some (noteIdle_rect _ _))
        | dsimp only
        | simp only [*])
  | succ y1 ih =>
    unfold readIndices at hr
    repeat' (first | contradiction | split at hr | (cases hr) | dsimp only at hr)
    all_goals
      repeat' (first
        | with_reducible rfl
        | assumption
        | (with_reducible refine (readShare_shape (rv := (_, _)) (hr := ‹_›)).trans ?_)
        | (with_reducible refine (ih (rv := (_, _)) (hr := ‹_›)).trans ?_)
        | (with_reducible refine (ih (hr := ‹_›)).trans ?_)
        | (with_reducible refine (foldlS_shape _ ?_ _ _).trans ?_)
        | simp only [↓mk_shape, ↓shape_ite, ↓fst_ite, ↓try_ite, ↓eng_ite, ↓reduceIte, ite_self, try_done, try_hold, try_trap, eng_done, eng_more, eng_wait, eng_trap]
        | split
        | intro _
        | (with_reducible show rect _ = rect _) <;> rfl
        | (with_reducible show Option.map rect _ = Option.map rect _) <;> (rw [‹getPart _ _ = some _›]; rfl)
        | (with_reducible show rect _ = rect _) <;> exact (noteIdle_rect _ _).trans rfl
        | (with_reducible show Option.map rect _ = Option.map rect _) <;> (rw [‹getPart _ _ = some _›]; exact congrArg some (noteIdle_rect _ _))
        | dsimp only
        | simp only [*])

theorem setDesc_shape (s : State) (l : Nat) (d : Nat) (i : Nat) (n : Nat) (v : Nat) : shape (setDesc s l d i n v) = shape s := rfl

theorem writeKv_shape (s : State) (l : Nat) (a : Nat) (x : Line) (poison : Bool) : shape (writeKv s l a x poison) = shape s := rfl

theorem writeShare_shape (l : Nat) (d : Nat) (i : Nat) (x3 : Nat) (x4 : List (Line × Bool)) (x5 : State) {rv : State} (hr : writeShare l d i x3 x4 x5 = some rv) : shape rv = shape x5 := by
  induction x4 generalizing l d i x3 x5 rv with
  | nil =>
    unfold writeShare at hr
    repeat' (first | contradiction | split at hr | (cases hr) | dsimp only at hr)
    all_goals
      repeat' (first
        | with_reducible rfl
        | assumption
        | (with_reducible refine (resolve_shape (rv := (_, _)) (hr := ‹_›)).trans ?_)
        | (with_reducible refine (foldlS_shape _ ?_ _ _).trans ?_)
        | simp only [↓writeKv_shape, ↓mk_shape, ↓shape_ite, ↓fst_ite, ↓try_ite, ↓eng_ite, ↓reduceIte, ite_self, try_done, try_hold, try_trap, eng_done, eng_more, eng_wait, eng_trap]
        | split
        | intro _
        | (with_reducible show rect _ = rect _) <;> rfl
        | (with_reducible show Option.map rect _ = Option.map rect _) <;> (rw [‹getPart _ _ = some _›]; rfl)
        | (with_reducible show rect _ = rect _) <;> exact (noteIdle_rect _ _).trans rfl
        | (with_reducible show Option.map rect _ = Option.map rect _) <;> (rw [‹getPart _ _ = some _›]; exact congrArg some (noteIdle_rect _ _))
        | dsimp only
        | simp only [*])
  | cons y0 y1 ih =>
    unfold writeShare at hr
    repeat' (first | contradiction | split at hr | (cases hr) | dsimp only at hr)
    all_goals
      repeat' (first
        | with_reducible rfl
        | assumption
        | (with_reducible refine (resolve_shape (rv := (_, _)) (hr := ‹_›)).trans ?_)
        | (with_reducible refine (ih (rv := (_, _)) (hr := ‹_›)).trans ?_)
        | (with_reducible refine (ih (hr := ‹_›)).trans ?_)
        | (with_reducible refine (foldlS_shape _ ?_ _ _).trans ?_)
        | simp only [↓writeKv_shape, ↓mk_shape, ↓shape_ite, ↓fst_ite, ↓try_ite, ↓eng_ite, ↓reduceIte, ite_self, try_done, try_hold, try_trap, eng_done, eng_more, eng_wait, eng_trap]
        | split
        | intro _
        | (with_reducible show rect _ = rect _) <;> rfl
        | (with_reducible show Option.map rect _ = Option.map rect _) <;> (rw [‹getPart _ _ = some _›]; rfl)
        | (with_reducible show rect _ = rect _) <;> exact (noteIdle_rect _ _).trans rfl
        | (with_reducible show Option.map rect _ = Option.map rect _) <;> (rw [‹getPart _ _ = some _›]; exact congrArg some (noteIdle_rect _ _))
        | dsimp only
        | simp only [*])

theorem runKapp_shape (l : Nat) (seq : Nat) (a : Nat) (d : Nat) (pos : Nat) (heads : Nat) (bf : Bool) (xs : List (Line × Bool)) (s : State) : shape (runKapp l seq a d pos heads bf xs s).state = shape s := by
  unfold runKapp
  repeat' (first
    | with_reducible rfl
    | (with_reducible refine (writeShare_shape (hr := ‹_›)).trans ?_)
    | simp only [↓countL_shape, ↓setDesc_shape, ↓eng_ite, eng_done, eng_more, eng_wait, eng_trap, ↓fst_ite]
    | split
    | intro _
    | (with_reducible show rect _ = rect _) <;> rfl
    | dsimp only)

theorem runKmark_shape (l : Nat) (d : Nat) (s : State) : shape (runKmark l d s).state = shape s := rfl

theorem runKrel_shape (l : Nat) (d : Nat) (s : State) : shape (runKrel l d s).state = shape s := rfl

theorem runKrew_shape (l : Nat) (d : Nat) (s : State) : shape (runKrew l d s).state = shape s := rfl

theorem walkPages_shape (l : Nat) (d : Nat) (x2 : Nat) (x3 : Nat) (x4 : State) : shape ((walkPages l d x2 x3 x4).state) = shape x4 := by
  induction x3 generalizing l d x2 x4 with
  | zero =>
    unfold walkPages
    repeat' (first
      | with_reducible rfl
      | assumption
      | (with_reducible refine (resolveOne_shape (rv := (_, _)) (hr := ‹_›)).trans ?_)
      | (with_reducible refine (foldlS_shape _ ?_ _ _).trans ?_)
      | simp only [↓mk_shape, ↓shape_ite, ↓fst_ite, ↓try_ite, ↓eng_ite, ↓reduceIte, ite_self, try_done, try_hold, try_trap, eng_done, eng_more, eng_wait, eng_trap]
      | split
      | intro _
      | (with_reducible show rect _ = rect _) <;> rfl
      | (with_reducible show Option.map rect _ = Option.map rect _) <;> (rw [‹getPart _ _ = some _›]; rfl)
      | (with_reducible show rect _ = rect _) <;> exact (noteIdle_rect _ _).trans rfl
      | (with_reducible show Option.map rect _ = Option.map rect _) <;> (rw [‹getPart _ _ = some _›]; exact congrArg some (noteIdle_rect _ _))
      | dsimp only
      | simp only [*])
  | succ y1 ih =>
    unfold walkPages
    repeat' (first
      | with_reducible rfl
      | assumption
      | (with_reducible refine (resolveOne_shape (rv := (_, _)) (hr := ‹_›)).trans ?_)
      | (with_reducible refine (foldlS_shape _ ?_ _ _).trans ?_)
      | simp only [↓mk_shape, ↓shape_ite, ↓fst_ite, ↓try_ite, ↓eng_ite, ↓reduceIte, ite_self, try_done, try_hold, try_trap, eng_done, eng_more, eng_wait, eng_trap, ↓ih]
      | split
      | intro _
      | (with_reducible show rect _ = rect _) <;> rfl
      | (with_reducible show Option.map rect _ = Option.map rect _) <;> (rw [‹getPart _ _ = some _›]; rfl)
      | (with_reducible show rect _ = rect _) <;> exact (noteIdle_rect _ _).trans rfl
      | (with_reducible show Option.map rect _ = Option.map rect _) <;> (rw [‹getPart _ _ = some _›]; exact congrArg some (noteIdle_rect _ _))
      | dsimp only
      | simp only [*])

theorem runKwalk_shape (l : Nat) (d : Nat) (first : Nat) (n : Nat) (s : State) : shape (runKwalk l d first n s).state = shape s := by
  unfold runKwalk
  simp only [↓walkPages_shape]

theorem runKxfr_shape (l : Nat) (a : Nat) (d : Nat) (ent : Nat) (first : Nat) (n : Nat) (copy : Bool) (s : State) : shape (runKxfr l a d ent first n copy s).state = shape s := by
  unfold runKxfr
  repeat' (first
    | with_reducible rfl
    | (with_reducible refine (readIndices_shape (rv := (_, _)) (hr := ‹_›)).trans ?_)
    | simp only [↓eng_ite, eng_done, eng_more, eng_wait, eng_trap, ↓fst_ite]
    | split
    | intro _
    | (with_reducible show rect _ = rect _) <;> rfl
    | dsimp only)

/-! ## Machine/KvIntake.lean -/

theorem setMove_shape (s : State) (l : Nat) (m : Option KvMove) : shape (setMove s l m) = shape s := rfl

theorem feedMove_shape (l : Nat) (s : State) : shape (feedMove l s) = shape s := by
  unfold feedMove
  repeat' (first
    | with_reducible rfl
    | simp only [↓sendFlits_shape, ↓setMove_shape, ↓mk_shape, ↓shape_ite, ↓reduceIte, ite_self, ↓eng_ite, eng_done, eng_more, eng_wait, eng_trap]
    | split
    | intro _
    | (with_reducible show rect _ = rect _) <;> rfl
    | dsimp only
    | (have h' := congrArg (fun o => shape (EngTry.state o)) (‹_ = EngTry.done _›); simp only [↓sendFlits_shape, ↓setMove_shape, ↓mk_shape, ↓shape_ite, ↓fst_ite, ↓try_ite, ↓eng_ite, ↓reduceIte, ite_self, try_done, try_hold, try_trap, eng_done, eng_more, eng_wait, eng_trap] at h'; first | exact h'.symm | exact h' | exact h'.symm.trans (by assumption))
    | (have h' := congrArg (fun o => shape (EngTry.state o)) (‹_ = EngTry.more _ _›); simp only [↓sendFlits_shape, ↓setMove_shape, ↓mk_shape, ↓shape_ite, ↓fst_ite, ↓try_ite, ↓eng_ite, ↓reduceIte, ite_self, try_done, try_hold, try_trap, eng_done, eng_more, eng_wait, eng_trap] at h'; first | exact h'.symm | exact h' | exact h'.symm.trans (by assumption))
    | (have h' := congrArg (fun o => shape (EngTry.state o)) (‹_ = EngTry.wait _ _ _›); simp only [↓sendFlits_shape, ↓setMove_shape, ↓mk_shape, ↓shape_ite, ↓fst_ite, ↓try_ite, ↓eng_ite, ↓reduceIte, ite_self, try_done, try_hold, try_trap, eng_done, eng_more, eng_wait, eng_trap] at h'; first | exact h'.symm | exact h' | exact h'.symm.trans (by assumption))
    | (have h' := congrArg (fun o => shape (EngTry.state o)) (‹_ = EngTry.trap _ _ _›); simp only [↓sendFlits_shape, ↓setMove_shape, ↓mk_shape, ↓shape_ite, ↓fst_ite, ↓try_ite, ↓eng_ite, ↓reduceIte, ite_self, try_done, try_hold, try_trap, eng_done, eng_more, eng_wait, eng_trap] at h'; first | exact h'.symm | exact h' | exact h'.symm.trans (by assumption)))

theorem kvViolation_shape (l : Nat) (f : Flit) (s : State) : shape (kvViolation l f s) = shape s := by
  unfold kvViolation
  simp only [↓trapNow_shape, ↓countL_shape]

theorem setIntake_shape (s : State) (l : Nat) (j : Nat) (f : Intake → Intake) : shape (setIntake s l j f) = shape s := rfl

theorem setKvNow_shape (s : State) (l : Nat) (j : Option Nat) : shape (setKvNow s l j) = shape s := rfl

theorem rejectMsg_shape (l : Nat) (j : Nat) (m : KvMsg) (s : State) : shape (rejectMsg l j m s) = shape s := by
  unfold rejectMsg
  simp only [↓setKvNow_shape, ↓setIntake_shape, ↓trapNow_shape]

theorem sendXack_shape (l : Nat) (j : Nat) (n : Nat) (last : Bool) (s : State) : shape (sendXack l j n last s) = shape s := by
  unfold sendXack
  simp only [↓injectL_shape]

theorem takeData_shape (l : Nat) (j : Nat) (f : Flit) (s : State) : shape (takeData l j f s) = shape s := by
  unfold takeData
  repeat' (first
    | with_reducible rfl
    | (with_reducible refine (writeShare_shape (hr := ‹_›)).trans ?_)
    | simp only [↓countL_shape, ↓setIntake_shape, ↓rejectMsg_shape, ↓sendXack_shape, ↓setDesc_shape, ↓setKvNow_shape]
    | split)

theorem takeHeader_shape (l : Nat) (j : Nat) (f : Flit) (s : State) : shape (takeHeader l j f s) = shape s := by
  unfold takeHeader
  repeat' (first
    | with_reducible rfl
    | simp only [↓tableRead_shape, ↓setDesc_shape, ↓setKvNow_shape, ↓setIntake_shape, ↓rejectMsg_shape]
    | split)

theorem takeKv_shape (l : Nat) (e : Nat × Flit) (s : State) : shape (takeKv l e s) = shape s := by
  unfold takeKv
  repeat' (first
    | with_reducible rfl
    | simp only [↓updL_shape, ↓takeHeader_shape, ↓takeData_shape]
    | split)

theorem serveArrivals_shape (l : Nat) (x1 : Nat) (x2 : State) : shape (serveArrivals l x1 x2) = shape x2 := by
  induction x1 generalizing l x2 with
  | zero =>
    unfold serveArrivals
    repeat' (first
      | with_reducible rfl
      | assumption
      | (with_reducible refine (foldlS_shape _ ?_ _ _).trans ?_)
      | simp only [↓takeKv_shape, ↓mk_shape, ↓shape_ite, ↓fst_ite, ↓try_ite, ↓eng_ite, ↓reduceIte, ite_self, try_done, try_hold, try_trap, eng_done, eng_more, eng_wait, eng_trap]
      | split
      | intro _
      | (with_reducible show rect _ = rect _) <;> rfl
      | (with_reducible show Option.map rect _ = Option.map rect _) <;> (rw [‹getPart _ _ = some _›]; rfl)
      | (with_reducible show rect _ = rect _) <;> exact (noteIdle_rect _ _).trans rfl
      | (with_reducible show Option.map rect _ = Option.map rect _) <;> (rw [‹getPart _ _ = some _›]; exact congrArg some (noteIdle_rect _ _))
      | dsimp only
      | simp only [*])
  | succ y1 ih =>
    unfold serveArrivals
    repeat' (first
      | with_reducible rfl
      | assumption
      | (with_reducible refine (foldlS_shape _ ?_ _ _).trans ?_)
      | simp only [↓takeKv_shape, ↓mk_shape, ↓shape_ite, ↓fst_ite, ↓try_ite, ↓eng_ite, ↓reduceIte, ite_self, try_done, try_hold, try_trap, eng_done, eng_more, eng_wait, eng_trap, ↓ih]
      | split
      | intro _
      | (with_reducible show rect _ = rect _) <;> rfl
      | (with_reducible show Option.map rect _ = Option.map rect _) <;> (rw [‹getPart _ _ = some _›]; rfl)
      | (with_reducible show rect _ = rect _) <;> exact (noteIdle_rect _ _).trans rfl
      | (with_reducible show Option.map rect _ = Option.map rect _) <;> (rw [‹getPart _ _ = some _›]; exact congrArg some (noteIdle_rect _ _))
      | dsimp only
      | simp only [*])

theorem serveKv_shape (l : Nat) (s : State) : shape (serveKv l s) = shape s := by
  unfold serveKv
  simp only [↓serveArrivals_shape]

theorem startMove_shape (l : Nat) (s : State) : shape (startMove l s) = shape s := by
  unfold startMove
  repeat' (first
    | with_reducible rfl
    | (with_reducible refine (readIndices_shape (rv := (_, _)) (hr := ‹_›)).trans ?_)
    | simp only [↓trapNow_shape, ↓setMove_shape, ↓feedMove_shape]
    | split)

theorem portWork_shape (l : Nat) (s : State) : shape (portWork l s) = shape s := by
  unfold portWork
  simp only [↓startMove_shape, ↓serveKv_shape]

/-! ## Machine/Shares.lean -/

theorem tableWrite_shape (s : State) (l : Nat) (a : Nat) (xs : List Line) : shape (tableWrite s l a xs) = shape s := rfl

theorem bindShare_shape (seq : BitVec 32) (st : Nat) (h : Share) (s : State) : shape (bindShare seq st h s) = shape s := rfl

theorem setShareState_shape (st : Nat) (h : Share) (s : State) : shape (setShareState st h s) = shape s :=
  (updL_shape _ _ _).trans (setDesc_shape _ _ _ _ _ _)

theorem movingShare_shape (h : Share) (s : State) : shape (movingShare h s) = shape s := rfl

theorem boundaryReq_shape (store : Request → Bool) (pn : Nat) (r : Request) (s : State) : shape (boundaryReq store pn r s) = shape s := by
  unfold boundaryReq
  repeat' (first
    | with_reducible rfl
    | (with_reducible refine (forEach_shape _ _ _ ?_).trans ?_)
    | simp only [↓bindShare_shape, ↓updReq_shape, ↓movingShare_shape, ↓setShareState_shape]
    | split
    | intro _
    | (with_reducible show rect _ = rect _) <;> rfl)

theorem freeNow_shape (s : State) (pn : Nat) : shape (freeNow s pn) = shape s := by
  unfold freeNow
  repeat' (first
    | with_reducible rfl
    | (with_reducible refine (forEach_shape _ _ _ ?_).trans ?_)
    | (with_reducible refine (updPart_shape _ _ _ ?_).trans ?_)
    | simp only [↓setShareState_shape]
    | split
    | intro _
    | (with_reducible show rect _ = rect _) <;> rfl)

theorem boundaryShares_shape (store : Request → Bool) (pn : Nat) (s : State) : shape (boundaryShares store pn s) = shape s := by
  unfold boundaryShares
  repeat' (first
    | with_reducible rfl
    | (with_reducible refine (forEach_shape _ _ _ ?_).trans ?_)
    | simp only [↓freeNow_shape, ↓boundaryReq_shape]
    | split
    | intro _
    | (with_reducible show rect _ = rect _) <;> rfl)

theorem cisternWrite_shape (s : State) (ch : Nat) (addr : Nat) (x : Line) (poison : Bool) : shape (cisternWrite s ch addr x poison) = shape s := rfl

theorem dropImages_shape (s : State) (tag : Nat) : shape (dropImages s tag) = shape s := rfl

theorem giveUp_shape (pn : Nat) (tag : BitVec 64) (s : State) : shape (giveUp pn tag s) = shape s := by
  unfold giveUp
  repeat' (first
    | with_reducible rfl
    | (with_reducible refine (updPart_shape _ _ _ ?_).trans ?_)
    | simp only [↓freeNow_shape]
    | split
    | intro _
    | (with_reducible show rect _ = rect _) <;> rfl)

theorem pageDone_shape (s : State) (pn : Nat) (l : Nat) (toCistern : Bool) : shape (pageDone s pn l toCistern) = shape s := by
  unfold pageDone
  repeat' (first
    | with_reducible rfl
    | (with_reducible refine (updPart_shape _ _ _ ?_).trans ?_)
    | split
    | intro _
    | (with_reducible show rect _ = rect _) <;> rfl)

/-! ## Machine/AttentionUnit.lean -/

theorem headLines_shape (l : Nat) (d : Nat) (h : Nat) (kv : Nat) (x4 : Nat) (x5 : Nat) (x6 : State) {rv : State × List (List (Line × Bool))} (hr : headLines l d h kv x4 x5 x6 = some rv) : shape rv.1 = shape x6 := by
  induction x5 generalizing l d h kv x4 x6 rv with
  | zero =>
    unfold headLines at hr
    repeat' (first | contradiction | split at hr | (cases hr) | dsimp only at hr)
    all_goals
      repeat' (first
        | with_reducible rfl
        | assumption
        | (with_reducible refine (readShare_shape (rv := (_, _)) (hr := ‹_›)).trans ?_)
        | (with_reducible refine (foldlS_shape _ ?_ _ _).trans ?_)
        | simp only [↓mk_shape, ↓shape_ite, ↓fst_ite, ↓try_ite, ↓eng_ite, ↓reduceIte, ite_self, try_done, try_hold, try_trap, eng_done, eng_more, eng_wait, eng_trap]
        | split
        | intro _
        | (with_reducible show rect _ = rect _) <;> rfl
        | (with_reducible show Option.map rect _ = Option.map rect _) <;> (rw [‹getPart _ _ = some _›]; rfl)
        | (with_reducible show rect _ = rect _) <;> exact (noteIdle_rect _ _).trans rfl
        | (with_reducible show Option.map rect _ = Option.map rect _) <;> (rw [‹getPart _ _ = some _›]; exact congrArg some (noteIdle_rect _ _))
        | dsimp only
        | simp only [*])
  | succ y1 ih =>
    unfold headLines at hr
    repeat' (first | contradiction | split at hr | (cases hr) | dsimp only at hr)
    all_goals
      repeat' (first
        | with_reducible rfl
        | assumption
        | (with_reducible refine (readShare_shape (rv := (_, _)) (hr := ‹_›)).trans ?_)
        | (with_reducible refine (ih (rv := (_, _)) (hr := ‹_›)).trans ?_)
        | (with_reducible refine (ih (hr := ‹_›)).trans ?_)
        | (with_reducible refine (foldlS_shape _ ?_ _ _).trans ?_)
        | simp only [↓mk_shape, ↓shape_ite, ↓fst_ite, ↓try_ite, ↓eng_ite, ↓reduceIte, ite_self, try_done, try_hold, try_trap, eng_done, eng_more, eng_wait, eng_trap]
        | split
        | intro _
        | (with_reducible show rect _ = rect _) <;> rfl
        | (with_reducible show Option.map rect _ = Option.map rect _) <;> (rw [‹getPart _ _ = some _›]; rfl)
        | (with_reducible show rect _ = rect _) <;> exact (noteIdle_rect _ _).trans rfl
        | (with_reducible show Option.map rect _ = Option.map rect _) <;> (rw [‹getPart _ _ = some _›]; exact congrArg some (noteIdle_rect _ _))
        | dsimp only
        | simp only [*])

theorem loadQueries_shape (l : Nat) : ∀ (r : Nat) (xs : List (Line × Bool)) (s : State), shape (loadQueries l r xs s) = shape s
  | _, [], _ => rfl
  | _, [_], _ => rfl
  | r, x :: y :: xs, s => by
    unfold loadQueries
    rw [loadQueries_shape, updL_shape, countL_shape]

theorem runAscr_shape (l : Nat) (seq : Nat) (d : Nat) (g : Nat) (f : Nat) (first : Nat) (n : Nat) (h0 : Nat) (h : Nat) (i : Nat) (x10 : List Cycle) (x11 : State) : shape ((runAscr l seq d g f first n h0 h i x10 x11).state) = shape x11 := by
  induction x10 generalizing l seq d g f first n h0 h i x11 with
  | nil =>
    unfold runAscr
    repeat' (first
      | with_reducible rfl
      | assumption
      | (with_reducible refine (headLines_shape (rv := (_, _)) (hr := ‹_›)).trans ?_)
      | (with_reducible refine (foldlS_shape _ ?_ _ _).trans ?_)
      | simp only [↓updL_shape, ↓countL_shape, ↓mk_shape, ↓shape_ite, ↓fst_ite, ↓try_ite, ↓eng_ite, ↓reduceIte, ite_self, try_done, try_hold, try_trap, eng_done, eng_more, eng_wait, eng_trap]
      | split
      | intro _
      | (with_reducible show rect _ = rect _) <;> rfl
      | (with_reducible show Option.map rect _ = Option.map rect _) <;> (rw [‹getPart _ _ = some _›]; rfl)
      | (with_reducible show rect _ = rect _) <;> exact (noteIdle_rect _ _).trans rfl
      | (with_reducible show Option.map rect _ = Option.map rect _) <;> (rw [‹getPart _ _ = some _›]; exact congrArg some (noteIdle_rect _ _))
      | dsimp only
      | simp only [*])
  | cons y0 y1 ih =>
    unfold runAscr
    repeat' (first
      | with_reducible rfl
      | assumption
      | (with_reducible refine (headLines_shape (rv := (_, _)) (hr := ‹_›)).trans ?_)
      | (with_reducible refine (foldlS_shape _ ?_ _ _).trans ?_)
      | simp only [↓updL_shape, ↓countL_shape, ↓mk_shape, ↓shape_ite, ↓fst_ite, ↓try_ite, ↓eng_ite, ↓reduceIte, ite_self, try_done, try_hold, try_trap, eng_done, eng_more, eng_wait, eng_trap, ↓ih]
      | split
      | intro _
      | (with_reducible show rect _ = rect _) <;> rfl
      | (with_reducible show Option.map rect _ = Option.map rect _) <;> (rw [‹getPart _ _ = some _›]; rfl)
      | (with_reducible show rect _ = rect _) <;> exact (noteIdle_rect _ _).trans rfl
      | (with_reducible show Option.map rect _ = Option.map rect _) <;> (rw [‹getPart _ _ = some _›]; exact congrArg some (noteIdle_rect _ _))
      | dsimp only
      | simp only [*])

theorem runAval_shape (l : Nat) (seq : Nat) (d : Nat) (g : Nat) (f : Nat) (blk : Nat) (first : Nat) (n : Nat) (h0 : Nat) (h : Nat) (clr : Bool) (i : Nat) (x12 : List Cycle) (x13 : State) : shape ((runAval l seq d g f blk first n h0 h clr i x12 x13).state) = shape x13 := by
  induction x12 generalizing l seq d g f blk first n h0 h clr i x13 with
  | nil =>
    unfold runAval
    repeat' (first
      | with_reducible rfl
      | assumption
      | (with_reducible refine (headLines_shape (rv := (_, _)) (hr := ‹_›)).trans ?_)
      | (with_reducible refine (placeIn_shape (hr := ‹_›)).trans ?_)
      | (with_reducible refine (foldlS_shape _ ?_ _ _).trans ?_)
      | simp only [↓updL_shape, ↓countL_shape, ↓mk_shape, ↓shape_ite, ↓fst_ite, ↓try_ite, ↓eng_ite, ↓reduceIte, ite_self, try_done, try_hold, try_trap, eng_done, eng_more, eng_wait, eng_trap]
      | split
      | intro _
      | (with_reducible show rect _ = rect _) <;> rfl
      | (with_reducible show Option.map rect _ = Option.map rect _) <;> (rw [‹getPart _ _ = some _›]; rfl)
      | (with_reducible show rect _ = rect _) <;> exact (noteIdle_rect _ _).trans rfl
      | (with_reducible show Option.map rect _ = Option.map rect _) <;> (rw [‹getPart _ _ = some _›]; exact congrArg some (noteIdle_rect _ _))
      | dsimp only
      | simp only [*])
  | cons y0 y1 ih =>
    unfold runAval
    repeat' (first
      | with_reducible rfl
      | assumption
      | (with_reducible refine (headLines_shape (rv := (_, _)) (hr := ‹_›)).trans ?_)
      | (with_reducible refine (placeIn_shape (hr := ‹_›)).trans ?_)
      | (with_reducible refine (foldlS_shape _ ?_ _ _).trans ?_)
      | simp only [↓updL_shape, ↓countL_shape, ↓mk_shape, ↓shape_ite, ↓fst_ite, ↓try_ite, ↓eng_ite, ↓reduceIte, ite_self, try_done, try_hold, try_trap, eng_done, eng_more, eng_wait, eng_trap, ↓ih]
      | split
      | intro _
      | (with_reducible show rect _ = rect _) <;> rfl
      | (with_reducible show Option.map rect _ = Option.map rect _) <;> (rw [‹getPart _ _ = some _›]; rfl)
      | (with_reducible show rect _ = rect _) <;> exact (noteIdle_rect _ _).trans rfl
      | (with_reducible show Option.map rect _ = Option.map rect _) <;> (rw [‹getPart _ _ = some _›]; exact congrArg some (noteIdle_rect _ _))
      | dsimp only
      | simp only [*])

theorem startAscr_shape (l : Nat) (seq : Nat) (d : Nat) (g : Nat) (f : Nat) (first : Nat) (n : Nat) (h0 : Nat) (h : Nat) (i : Nat) (s : State) : shape (startAscr l seq d g f first n h0 h i s).state = shape s := by
  unfold startAscr
  simp only [↓runAscr_shape]

theorem startAval_shape (l : Nat) (seq : Nat) (d : Nat) (g : Nat) (f : Nat) (blk : Nat) (first : Nat) (n : Nat) (h0 : Nat) (h : Nat) (clr : Bool) (i : Nat) (s : State) : shape (startAval l seq d g f blk first n h0 h clr i s).state = shape s := by
  unfold startAval
  simp only [↓runAval_shape]

end Sys2Proof.Machine
end

