-- ==== Sys2Proof/Laws/FrameFabric.lean ====
section
/-! SUPPORT. What leaves the shape of the machine (Laws/Frame.lean): the routers and edge tiles, images, stopping, power domains, requests and faults. -/

set_option linter.unusedSimpArgs false
set_option linter.unusedTactic false
set_option linter.unreachableTactic false
set_option linter.unusedVariables false
set_option linter.unnecessarySeqFocus false

namespace Sys2Proof.Machine

/-! ## Machine/Routes.lean -/

theorem updDir_shape (r : Nat) (p : Nat) (inb : Bool) (f : LinkDir → LinkDir) (s : State) : shape (updDir r p inb f s) = shape s := rfl

/-! ## Machine/RouteTables.lean -/

theorem addException_shape (d : Nat) (rp : Nat × Nat) (s : State) : shape (addException d rp s) = shape s := by
  unfold addException
  repeat' (first
    | with_reducible rfl
    | simp only [↓updR_shape]
    | split)

theorem detourFlow_shape (fs : List Flow) (f : Flow) (s : State) : shape (detourFlow fs f s) = shape s := by
  unfold detourFlow
  repeat' (first
    | with_reducible rfl
    | (with_reducible refine (forEach_shape _ _ _ ?_).trans ?_)
    | simp only [↓addException_shape]
    | split
    | intro _
    | (with_reducible show rect _ = rect _) <;> rfl)

theorem maskTables_shape (pn : Nat) (s : State) : shape (maskTables pn s) = shape s := by
  unfold maskTables
  repeat' (first
    | with_reducible rfl
    | simp only [↓mk_shape]
    | split
    | intro _
    | (with_reducible show rect _ = rect _) <;> rfl)

theorem sealExceptions_shape (s : State) : shape (sealExceptions s) = shape s := rfl

theorem writeExceptions_shape (s : State) : shape (writeExceptions s) = shape s := by
  unfold writeExceptions
  repeat' (first
    | with_reducible rfl
    | (with_reducible refine (forEach_shape _ _ _ ?_).trans ?_)
    | simp only [↓updR_shape, ↓sealExceptions_shape, ↓detourFlow_shape]
    | split
    | intro _
    | (with_reducible show rect _ = rect _) <;> rfl)

theorem writeMasks_shape (pn : Nat) (s : State) : shape (writeMasks pn s) = shape s := by
  unfold writeMasks
  repeat' (first
    | with_reducible rfl
    | simp only [↓maskTables_shape, ↓raiseEv_shape]
    | split)

theorem writeRoutes_shape (s : State) : shape (writeRoutes s) = shape s := by
  unfold writeRoutes
  repeat' (first
    | with_reducible rfl
    | (with_reducible refine (forEach_shape _ _ _ ?_).trans ?_)
    | simp only [↓writeMasks_shape, ↓writeExceptions_shape]
    | split
    | intro _
    | (with_reducible show rect _ = rect _) <;> rfl)

theorem recheckRoutes_shape (s : State) : shape (recheckRoutes s) = shape s := by
  unfold recheckRoutes
  repeat' (first
    | with_reducible rfl
    | assumption
    | (with_reducible refine (foldlS_shape _ ?_ _ _).trans ?_)
    | simp only [↓writeRoutes_shape, ↓raiseEv_shape, ↓mk_shape, ↓shape_ite, ↓fst_ite, ↓try_ite, ↓eng_ite, ↓reduceIte, ite_self, try_done, try_hold, try_trap, eng_done, eng_more, eng_wait, eng_trap]
    | split
    | intro _
    | (with_reducible show rect _ = rect _) <;> rfl
    | (with_reducible show Option.map rect _ = Option.map rect _) <;> (rw [‹getPart _ _ = some _›]; rfl)
    | (with_reducible show rect _ = rect _) <;> exact (noteIdle_rect _ _).trans rfl
    | (with_reducible show Option.map rect _ = Option.map rect _) <;> (rw [‹getPart _ _ = some _›]; exact congrArg some (noteIdle_rect _ _))
    | dsimp only
    | simp only [*])

/-! ## Machine/Fabric.lean -/

theorem addRepair_shape (s : State) (e : RepairEntry) : shape (addRepair s e) = shape s := by
  unfold addRepair
  repeat' (first
    | with_reducible rfl
    | (with_reducible refine (mapAdd_shape (hr := ‹_›)).trans ?_)
    | simp only [↓raiseM_shape]
    | split)

theorem launchT_shape (s : State) (t : Nat) (f : Flit) : shape (launchT s t f) = shape s := rfl

theorem injectT_shape (s : State) (t : Nat) (f : Flit) : shape (injectT s t f) = shape s := by
  unfold injectT
  repeat' (first
    | with_reducible rfl
    | simp only [↓launchT_shape, ↓updT_shape]
    | split)

theorem releaseHeld_shape (t : Nat) (x1 : Nat) (x2 : State) : shape (releaseHeld t x1 x2) = shape x2 := by
  induction x1 generalizing t x2 with
  | zero =>
    unfold releaseHeld
    repeat' (first
      | with_reducible rfl
      | assumption
      | (with_reducible refine (foldlS_shape _ ?_ _ _).trans ?_)
      | simp only [↓updT_shape, ↓injectT_shape, ↓mk_shape, ↓shape_ite, ↓fst_ite, ↓try_ite, ↓eng_ite, ↓reduceIte, ite_self, try_done, try_hold, try_trap, eng_done, eng_more, eng_wait, eng_trap]
      | split
      | intro _
      | (with_reducible show rect _ = rect _) <;> rfl
      | (with_reducible show Option.map rect _ = Option.map rect _) <;> (rw [‹getPart _ _ = some _›]; rfl)
      | (with_reducible show rect _ = rect _) <;> exact (noteIdle_rect _ _).trans rfl
      | (with_reducible show Option.map rect _ = Option.map rect _) <;> (rw [‹getPart _ _ = some _›]; exact congrArg some (noteIdle_rect _ _))
      | dsimp only
      | simp only [*])
  | succ y1 ih =>
    unfold releaseHeld
    repeat' (first
      | with_reducible rfl
      | assumption
      | (with_reducible refine (foldlS_shape _ ?_ _ _).trans ?_)
      | simp only [↓updT_shape, ↓injectT_shape, ↓mk_shape, ↓shape_ite, ↓fst_ite, ↓try_ite, ↓eng_ite, ↓reduceIte, ite_self, try_done, try_hold, try_trap, eng_done, eng_more, eng_wait, eng_trap, ↓ih]
      | split
      | intro _
      | (with_reducible show rect _ = rect _) <;> rfl
      | (with_reducible show Option.map rect _ = Option.map rect _) <;> (rw [‹getPart _ _ = some _›]; rfl)
      | (with_reducible show rect _ = rect _) <;> exact (noteIdle_rect _ _).trans rfl
      | (with_reducible show Option.map rect _ = Option.map rect _) <;> (rw [‹getPart _ _ = some _›]; exact congrArg some (noteIdle_rect _ _))
      | dsimp only
      | simp only [*])

theorem addTileCredits_shape (t : Nat) (key : Nat) (n : Nat) (s : State) : shape (addTileCredits t key n s) = shape s := by
  unfold addTileCredits
  simp only [↓releaseHeld_shape, ↓updT_shape]

theorem cisternXack_shape (s : State) (t : Nat) (f : Flit) : shape (cisternXack s t f) = shape s := by
  unfold cisternXack
  repeat' (first
    | with_reducible rfl
    | simp only [↓addTileCredits_shape, ↓pageDone_shape, ↓updT_shape]
    | split)

theorem cisternKv_shape (s : State) (t : Nat) (f : Flit) : shape (cisternKv s t f) = shape s := by
  unfold cisternKv
  repeat' (first
    | with_reducible rfl
    | simp only [↓updT_shape, ↓cisternWrite_shape, ↓injectT_shape, ↓cisternXack_shape, ↓raiseEv_shape]
    | split)

theorem dropWaiting_shape (r : Nat) (p : Nat) (s : State) : shape (dropWaiting r p s) = shape s := rfl

theorem portLost_shape (r : Nat) (p : Nat) (inb : Bool) (k : Nat) (s : State) : shape (portLost r p inb k s) = shape s := by
  unfold portLost
  repeat' (first
    | with_reducible rfl
    | (with_reducible refine (forEach_shape _ _ _ ?_).trans ?_)
    | simp only [↓dropWaiting_shape, ↓updT_shape, ↓updL_shape, ↓unitFault_shape]
    | split
    | intro _
    | (with_reducible show rect _ = rect _) <;> rfl)

theorem linkOut_shape (r : Nat) (p : Nat) (inb : Bool) (k : Nat) (s : State) : shape (linkOut r p inb k s) = shape s := by
  unfold linkOut
  repeat' (first
    | with_reducible rfl
    | simp only [↓updDir_shape, ↓portLost_shape]
    | split)

theorem crcMismatch_shape (r : Nat) (p : Nat) (k : Nat) (flit : Nat) (s : State) : shape (crcMismatch r p k flit s) = shape s := by
  unfold crcMismatch
  repeat' (first
    | with_reducible rfl
    | simp only [↓countF_shape, ↓updDir_shape, ↓linkOut_shape]
    | split)

theorem tileCredit_shape (s : State) (t : Nat) (f : Flit) : shape (tileCredit s t f) = shape s := by
  unfold tileCredit
  repeat' (first
    | with_reducible rfl
    | simp only [↓addTileCredits_shape, ↓updZ_shape]
    | split)

theorem zendenKv_shape (s : State) (t : Nat) (z : Nat) (f : Flit) : shape (zendenKv s t z f) = shape s := by
  unfold zendenKv
  repeat' (first
    | with_reducible rfl
    | simp only [↓updZ_shape, ↓raiseEv_shape, ↓countT_shape]
    | split)

theorem deliverTile_shape (s : State) (t : Nat) (f : Flit) : shape (deliverTile s t f) = shape s := by
  unfold deliverTile
  repeat' (first
    | with_reducible rfl
    | simp only [↓countT_shape, ↓raiseEv_shape, ↓countF_shape, ↓cisternKv_shape, ↓zendenKv_shape, ↓updZ_shape, ↓addTileCredits_shape, ↓tileCredit_shape, ↓updT_shape]
    | split)

theorem endstepOrder_shape (r : Nat) (p : Nat) (s : State) : shape (endstepOrder r p s) = shape s := by
  unfold endstepOrder
  repeat' (first
    | with_reducible rfl
    | simp only [↓updRP_shape]
    | split)

theorem feedTile_shape (t : Nat) (x1 : Nat) (x2 : State) : shape (feedTile t x1 x2) = shape x2 := by
  induction x1 generalizing t x2 with
  | zero =>
    unfold feedTile
    repeat' (first
      | with_reducible rfl
      | assumption
      | (with_reducible refine (foldlS_shape _ ?_ _ _).trans ?_)
      | simp only [↓enterRouter_shape, ↓updT_shape, ↓mk_shape, ↓shape_ite, ↓fst_ite, ↓try_ite, ↓eng_ite, ↓reduceIte, ite_self, try_done, try_hold, try_trap, eng_done, eng_more, eng_wait, eng_trap]
      | split
      | intro _
      | (with_reducible show rect _ = rect _) <;> rfl
      | (with_reducible show Option.map rect _ = Option.map rect _) <;> (rw [‹getPart _ _ = some _›]; rfl)
      | (with_reducible show rect _ = rect _) <;> exact (noteIdle_rect _ _).trans rfl
      | (with_reducible show Option.map rect _ = Option.map rect _) <;> (rw [‹getPart _ _ = some _›]; exact congrArg some (noteIdle_rect _ _))
      | dsimp only
      | simp only [*])
  | succ y1 ih =>
    unfold feedTile
    repeat' (first
      | with_reducible rfl
      | assumption
      | (with_reducible refine (foldlS_shape _ ?_ _ _).trans ?_)
      | simp only [↓enterRouter_shape, ↓updT_shape, ↓mk_shape, ↓shape_ite, ↓fst_ite, ↓try_ite, ↓eng_ite, ↓reduceIte, ite_self, try_done, try_hold, try_trap, eng_done, eng_more, eng_wait, eng_trap, ↓ih]
      | split
      | intro _
      | (with_reducible show rect _ = rect _) <;> rfl
      | (with_reducible show Option.map rect _ = Option.map rect _) <;> (rw [‹getPart _ _ = some _›]; rfl)
      | (with_reducible show rect _ = rect _) <;> exact (noteIdle_rect _ _).trans rfl
      | (with_reducible show Option.map rect _ = Option.map rect _) <;> (rw [‹getPart _ _ = some _›]; exact congrArg some (noteIdle_rect _ _))
      | dsimp only
      | simp only [*])

theorem feedT_shape (t : Nat) (s : State) : shape (feedT t s) = shape s := by
  unfold feedT
  simp only [↓feedTile_shape]

theorem feedRouter_shape (s : State) (r : Nat) : shape (feedRouter s r) = shape s := by
  unfold feedRouter
  repeat' (first
    | with_reducible rfl
    | (with_reducible refine (forEach_shape _ _ _ ?_).trans ?_)
    | simp only [↓feedT_shape, ↓feedL_shape]
    | split
    | intro _
    | (with_reducible show rect _ = rect _) <;> rfl)

theorem permitDiscard_shape (r : Nat) (f : Flit) (s : State) : shape (permitDiscard r f s) = shape s := by
  unfold permitDiscard
  simp only [↓raiseEv_shape, ↓countF_shape]

theorem sendOut_shape (s : State) (r : Nat) (p : Nat) (f : Flit) : shape (sendOut s r p f) = shape s := by
  unfold sendOut
  repeat' (first
    | with_reducible rfl
    | simp only [↓countF_shape, ↓updRP_shape, ↓updL_shape, ↓raiseEv_shape, ↓deliverTile_shape]
    | split)

theorem sendTurn_shape (s : State) (r p k : Nat) (f : Flit) (s' : State) : shape (sendTurn s r p k f s') = shape s' := by
  unfold sendTurn
  dsimp only
  rw [sendOut_shape]
  split <;> rfl

theorem takeIn_shape (s : State) (r : Nat) (i : Nat) (cls : Fin 4) (vcb : Bool) {rv : Flit × State} (hr : takeIn s r i cls vcb = some rv) : shape rv.2 = shape s := by
  unfold takeIn at hr
  repeat' (first | contradiction | split at hr | (cases hr) | dsimp only at hr)
  all_goals
    repeat' (first
      | with_reducible rfl
      | assumption
      | (with_reducible refine (foldlS_shape _ ?_ _ _).trans ?_)
      | simp only [↓updRP_shape, ↓updL_shape, ↓mk_shape, ↓shape_ite, ↓fst_ite, ↓try_ite, ↓eng_ite, ↓reduceIte, ite_self, try_done, try_hold, try_trap, eng_done, eng_more, eng_wait, eng_trap]
      | split
      | intro _
      | (with_reducible show rect _ = rect _) <;> rfl
      | (with_reducible show Option.map rect _ = Option.map rect _) <;> (rw [‹getPart _ _ = some _›]; rfl)
      | (with_reducible show rect _ = rect _) <;> exact (noteIdle_rect _ _).trans rfl
      | (with_reducible show Option.map rect _ = Option.map rect _) <;> (rw [‹getPart _ _ = some _›]; exact congrArg some (noteIdle_rect _ _))
      | dsimp only
      | simp only [*])

theorem hop_shape (r : Nat) (i : Nat) (cls : Fin 4) (vcb : Bool) (s : State) : shape (hop r i cls vcb s) = shape s := by
  unfold hop
  repeat' (first
    | with_reducible rfl
    | (with_reducible refine (takeIn_shape (rv := (_, _)) (hr := ‹_›)).trans ?_)
    | simp only [↓feedRouter_shape, ↓permitDiscard_shape, ↓sendTurn_shape]
    | split)

theorem execFlitHop_shape (router : Nat) (inPort : Nat) (cls : Fin 4) (vcb : Bool) (s : State) {nxt : State} (hn : execFlitHop router inPort cls vcb s = .next nxt) : shape nxt = shape s := by
  unfold execFlitHop at hn
  refine guarded_shape hn ?_
  simp only [↓hop_shape]

theorem laneTest_shape (r : Nat) (p : Nat) (k : Nat) (x : LaneResult) (source : Nat) (s : State) : shape (laneTest r p k x source s) = shape s := by
  unfold laneTest
  repeat' (first
    | with_reducible rfl
    | assumption
    | (with_reducible refine (foldlS_shape _ ?_ _ _).trans ?_)
    | simp only [↓updDir_shape, ↓addRepair_shape, ↓raiseEv_shape, ↓recheckRoutes_shape, ↓mk_shape, ↓shape_ite, ↓fst_ite, ↓try_ite, ↓eng_ite, ↓reduceIte, ite_self, try_done, try_hold, try_trap, eng_done, eng_more, eng_wait, eng_trap]
    | split
    | intro _
    | (with_reducible show rect _ = rect _) <;> rfl
    | (with_reducible show Option.map rect _ = Option.map rect _) <;> (rw [‹getPart _ _ = some _›]; rfl)
    | (with_reducible show rect _ = rect _) <;> exact (noteIdle_rect _ _).trans rfl
    | (with_reducible show Option.map rect _ = Option.map rect _) <;> (rw [‹getPart _ _ = some _›]; exact congrArg some (noteIdle_rect _ _))
    | dsimp only
    | simp only [*])

theorem execLaneTestDone_shape (router : Nat) (port : Nat) (link : Nat) (r : LaneResult) (s : State) {nxt : State} (hn : execLaneTestDone router port link r s = .next nxt) : shape nxt = shape s := by
  unfold execLaneTestDone at hn
  refine guarded_shape hn ?_
  simp only [↓laneTest_shape]

theorem execLinkCrcMismatch_shape (router : Nat) (port : Nat) (link : Nat) (flit : Nat) (s : State) {nxt : State} (hn : execLinkCrcMismatch router port link flit s = .next nxt) : shape nxt = shape s := by
  unfold execLinkCrcMismatch at hn
  refine guarded_shape hn ?_
  simp only [↓crcMismatch_shape]

theorem routeWrite_shape (r : Nat) (f : Router → Router) (s : State) : shape (routeWrite r f s) = shape s := by
  unfold routeWrite
  repeat' (first
    | with_reducible rfl
    | simp only [↓raiseEv_shape, ↓updR_shape]
    | split)

theorem mgmtWrite_shape (op : MgmtOp) (s : State) : shape (mgmtWrite op s) = shape s := by
  unfold mgmtWrite
  repeat' (first
    | with_reducible rfl
    | simp only [↓updL_shape, ↓tableWrite_shape, ↓routeWrite_shape, ↓updRP_shape]
    | split)

theorem execMgmtFlit_shape (op : MgmtOp) (s : State) {nxt : State} (hn : execMgmtFlit op s = .next nxt) : shape nxt = shape s := by
  unfold execMgmtFlit at hn
  refine guarded_shape hn ?_
  simp only [↓mgmtWrite_shape]

theorem execOrderEndstep_shape (router : Nat) (port : Nat) (s : State) {nxt : State} (hn : execOrderEndstep router port s = .next nxt) : shape nxt = shape s := by
  unfold execOrderEndstep at hn
  refine guarded_shape hn ?_
  simp only [↓endstepOrder_shape]

theorem takeSched_shape (s : State) (r : Nat) (i : Nat) {rv : Flit × State} (hr : takeSched s r i = some rv) : shape rv.2 = shape s := by
  unfold takeSched at hr
  repeat' (first | contradiction | split at hr | (cases hr) | dsimp only at hr)
  all_goals
    repeat' (first
      | with_reducible rfl
      | assumption
      | (with_reducible refine (foldlS_shape _ ?_ _ _).trans ?_)
      | simp only [↓updRP_shape, ↓mk_shape, ↓shape_ite, ↓fst_ite, ↓try_ite, ↓eng_ite, ↓reduceIte, ite_self, try_done, try_hold, try_trap, eng_done, eng_more, eng_wait, eng_trap]
      | split
      | intro _
      | (with_reducible show rect _ = rect _) <;> rfl
      | (with_reducible show Option.map rect _ = Option.map rect _) <;> (rw [‹getPart _ _ = some _›]; rfl)
      | (with_reducible show rect _ = rect _) <;> exact (noteIdle_rect _ _).trans rfl
      | (with_reducible show Option.map rect _ = Option.map rect _) <;> (rw [‹getPart _ _ = some _›]; exact congrArg some (noteIdle_rect _ _))
      | dsimp only
      | simp only [*])

theorem runOrder_shape (r : Nat) (p : Nat) (s : State) : shape (runOrder r p s) = shape s := by
  unfold runOrder
  repeat' (first
    | with_reducible rfl
    | (with_reducible refine (takeSched_shape (rv := (_, _)) (hr := ‹_›)).trans ?_)
    | simp only [↓feedRouter_shape, ↓permitDiscard_shape, ↓trapNow_shape, ↓updRP_shape, ↓sendTurn_shape]
    | split)

theorem execOrderRun_shape (router : Nat) (port : Nat) (s : State) {nxt : State} (hn : execOrderRun router port s = .next nxt) : shape nxt = shape s := by
  unfold execOrderRun at hn
  refine guarded_shape hn ?_
  simp only [↓runOrder_shape]

theorem releaseLantern_shape (l : Nat) (s : State) : shape (releaseLantern l s) = shape s := by
  unfold releaseLantern
  repeat' (first
    | with_reducible rfl
    | simp only [↓launchL_shape, ↓updL_shape]
    | split)

theorem releaseTile_shape (t : Nat) (pn : Nat) (s : State) : shape (releaseTile t pn s) = shape s := by
  unfold releaseTile
  repeat' (first
    | with_reducible rfl
    | simp only [↓launchT_shape, ↓updT_shape]
    | split)

theorem execWeirRelease_shape (src : Nat) (part : Nat) (s : State) {nxt : State} (hn : execWeirRelease src part s = .next nxt) : shape nxt = shape s := by
  unfold execWeirRelease at hn
  refine guarded_shape hn ?_
  repeat' (first
    | with_reducible rfl
    | simp only [↓releaseTile_shape, ↓releaseLantern_shape]
    | split)

theorem sendT_shape (s : State) (t : Nat) (key : Nat) (f : Flit) : shape (sendT s t key f) = shape s := by
  unfold sendT
  repeat' (first
    | with_reducible rfl
    | simp only [↓updT_shape, ↓injectT_shape]
    | split)

/-! ## Machine/KvMoves.lean -/

theorem sendPageBack_shape (pn : Nat) (r : Request) (h : Share) (m : PageMove) (todo : List PageMove) (busy : List PageMove) (s : State) : shape (sendPageBack pn r h m todo busy s) = shape s := by
  unfold sendPageBack
  repeat' (first
    | with_reducible rfl
    | (with_reducible refine (forEach_shape _ _ _ ?_).trans ?_)
    | simp only [↓updReq_shape, ↓mgmtWrite_shape, ↓updT_shape, ↓sendT_shape, ↓countT_shape]
    | split
    | intro _
    | (with_reducible show rect _ = rect _) <;> rfl)

theorem sendPageOut_shape (pn : Nat) (r : Request) (h : Share) (m : PageMove) (todo : List PageMove) (busy : List PageMove) (s : State) : shape (sendPageOut pn r h m todo busy s) = shape s := by
  unfold sendPageOut
  simp only [↓updReq_shape, ↓mgmtWrite_shape, ↓startMove_shape, ↓setMove_shape]

theorem nextPage_shape (pn : Nat) (p : Partition) (r : Request) (s : State) : shape (nextPage pn p r s) = shape s := by
  unfold nextPage
  repeat' (first
    | with_reducible rfl
    | simp only [↓sendPageOut_shape, ↓sendPageBack_shape]
    | split)

theorem movePages_shape (s : State) : shape (movePages s) = shape s := by
  unfold movePages
  repeat' (first
    | with_reducible rfl
    | (with_reducible refine (forEach_shape _ _ _ ?_).trans ?_)
    | simp only [↓nextPage_shape]
    | split
    | intro _
    | (with_reducible show rect _ = rect _) <;> rfl)

/-! ## Machine/ZendenOut.lean -/

theorem idleHead_shape (s : State) (z : Nat) : shape (idleHead s z) = shape s := rfl

theorem zSend_shape (z : Nat) (x1 : Nat) (x2 : State) : shape (zSend z x1 x2) = shape x2 := by
  induction x1 generalizing z x2 with
  | zero =>
    unfold zSend
    repeat' (first
      | with_reducible rfl
      | assumption
      | (with_reducible refine (foldlS_shape _ ?_ _ _).trans ?_)
      | simp only [↓setZ_shape, ↓mk_shape, ↓shape_ite, ↓fst_ite, ↓try_ite, ↓eng_ite, ↓reduceIte, ite_self, try_done, try_hold, try_trap, eng_done, eng_more, eng_wait, eng_trap]
      | split
      | intro _
      | (with_reducible show rect _ = rect _) <;> rfl
      | (with_reducible show Option.map rect _ = Option.map rect _) <;> (rw [‹getPart _ _ = some _›]; rfl)
      | (with_reducible show rect _ = rect _) <;> exact (noteIdle_rect _ _).trans rfl
      | (with_reducible show Option.map rect _ = Option.map rect _) <;> (rw [‹getPart _ _ = some _›]; exact congrArg some (noteIdle_rect _ _))
      | dsimp only
      | simp only [*])
  | succ y1 ih =>
    unfold zSend
    repeat' (first
      | with_reducible rfl
      | assumption
      | (with_reducible refine (foldlS_shape _ ?_ _ _).trans ?_)
      | simp only [↓setZ_shape, ↓mk_shape, ↓shape_ite, ↓fst_ite, ↓try_ite, ↓eng_ite, ↓reduceIte, ite_self, try_done, try_hold, try_trap, eng_done, eng_more, eng_wait, eng_trap, ↓ih]
      | split
      | intro _
      | (with_reducible show rect _ = rect _) <;> rfl
      | (with_reducible show Option.map rect _ = Option.map rect _) <;> (rw [‹getPart _ _ = some _›]; rfl)
      | (with_reducible show rect _ = rect _) <;> exact (noteIdle_rect _ _).trans rfl
      | (with_reducible show Option.map rect _ = Option.map rect _) <;> (rw [‹getPart _ _ = some _›]; exact congrArg some (noteIdle_rect _ _))
      | dsimp only
      | simp only [*])

theorem zFlush_shape (s : State) (z : Nat) : shape (zFlush s z) = shape s := by
  unfold zFlush
  repeat' (first
    | with_reducible rfl
    | simp only [↓zSend_shape, ↓updZ_shape]
    | split)

theorem zTick_shape (s : State) : shape (zTick s) = shape s := by
  unfold zTick
  repeat' (first
    | with_reducible rfl
    | (with_reducible refine (forEach_shape _ _ _ ?_).trans ?_)
    | simp only [↓zFlush_shape, ↓idleHead_shape]
    | split
    | intro _
    | (with_reducible show rect _ = rect _) <;> rfl)

/-! ## Machine/Image.lean -/

theorem loadConfig_shape (s : State) (p : Partition) (im : List Byte) : shape (loadConfig s p im) = shape s := by
  unfold loadConfig
  repeat' (first
    | with_reducible rfl
    | (with_reducible refine (forEach_shape _ _ _ ?_).trans ?_)
    | simp only [↓setL_shape]
    | split
    | intro _
    | (with_reducible show rect _ = rect _) <;> rfl)

theorem loadHeadgates_shape (s : State) (pn : Nat) (im : List Byte) : shape (loadHeadgates s pn im) = shape s := by
  unfold loadHeadgates
  repeat' (first
    | with_reducible rfl
    | (with_reducible refine (forEach_shape _ _ _ ?_).trans ?_)
    | simp only [↓updT_shape, ↓rimSend_shape]
    | split
    | intro _
    | (with_reducible show rect _ = rect _) <;> rfl)

theorem loadLantern_shape (s : State) (p : Partition) (im : List Byte) (t : Nat × Nat) (kept : List (Nat × Line)) (l : Nat) : shape (loadLantern s p im t kept l) = shape s := by
  unfold loadLantern
  repeat' (first
    | with_reducible rfl
    | assumption
    | (with_reducible refine (foldlS_shape _ ?_ _ _).trans ?_)
    | simp only [↓setL_shape, ↓updRP_shape, ↓updR_shape, ↓mk_shape, ↓shape_ite, ↓fst_ite, ↓try_ite, ↓eng_ite, ↓reduceIte, ite_self, try_done, try_hold, try_trap, eng_done, eng_more, eng_wait, eng_trap]
    | split
    | intro _
    | (with_reducible show rect _ = rect _) <;> rfl
    | (with_reducible show Option.map rect _ = Option.map rect _) <;> (rw [‹getPart _ _ = some _›]; rfl)
    | (with_reducible show rect _ = rect _) <;> exact (noteIdle_rect _ _).trans rfl
    | (with_reducible show Option.map rect _ = Option.map rect _) <;> (rw [‹getPart _ _ = some _›]; exact congrArg some (noteIdle_rect _ _))
    | dsimp only
    | simp only [*])

theorem loadLanterns_shape (s : State) (p : Partition) (im : List Byte) (kept : Nat → List (Nat × Line)) : shape (loadLanterns s p im kept) = shape s := by
  unfold loadLanterns
  repeat' (first
    | with_reducible rfl
    | (with_reducible refine (forEach_shape _ _ _ ?_).trans ?_)
    | simp only [↓loadLantern_shape]
    | split
    | intro _
    | (with_reducible show rect _ = rect _) <;> rfl)

/-! ## Machine/Stop.lean -/

theorem declareZero_shape (s : State) (p : Partition) (im : List Byte) : shape (declareZero s p im) = shape s := by
  unfold declareZero
  repeat' (first
    | with_reducible rfl
    | (with_reducible refine (forEach_shape _ _ _ ?_).trans ?_)
    | simp only [↓updF_shape]
    | split
    | intro _
    | (with_reducible show rect _ = rect _) <;> rfl)

theorem startLantern_shape (s : State) (im : List Byte) (t : Nat × Nat) (l : Nat) : shape (startLantern s im t l) = shape s := rfl

theorem startPart_shape (s : State) (pn : Nat) : shape (startPart s pn) = shape s := by
  unfold startPart
  repeat' (first
    | with_reducible rfl
    | (with_reducible refine (forEach_shape _ _ _ ?_).trans ?_)
    | (with_reducible refine (updPart_shape _ _ _ ?_).trans ?_)
    | simp only [↓declareZero_shape, ↓startLantern_shape]
    | split
    | intro _
    | (with_reducible show rect _ = rect _) <;> rfl)

theorem stopLanterns_shape (s : State) (pn : Nat) : shape (stopLanterns s pn) = shape s := by
  unfold stopLanterns
  repeat' (first
    | with_reducible rfl
    | (with_reducible refine (forEach_shape _ _ _ ?_).trans ?_)
    | simp only [↓updL_shape]
    | split
    | intro _
    | (with_reducible show rect _ = rect _) <;> rfl)

theorem stopPart_shape (s : State) (pn : Nat) : shape (stopPart s pn) = shape s := by
  unfold stopPart
  repeat' (first
    | with_reducible rfl
    | (with_reducible refine (updPart_shape _ _ _ ?_).trans ?_)
    | simp only [↓freeNow_shape, ↓stopLanterns_shape]
    | split
    | intro _
    | (with_reducible show rect _ = rect _) <;> rfl)

/-! ## Machine/Domains.lean -/

theorem gateTile_shape (on : Bool) (t : Nat) (s : State) : shape (gateTile on t s) = shape s := by
  unfold gateTile
  repeat' (first
    | with_reducible rfl
    | simp only [↓updT_shape]
    | split)

theorem requestOn_shape (s : State) (l : Nat) : shape (requestOn s l) = shape s := by
  unfold requestOn
  repeat' (first
    | with_reducible rfl
    | simp only [↓updF_shape]
    | split)

theorem needForWork_shape (s : State) (l : Nat) : shape (needForWork s l) = shape s := by
  unfold needForWork
  repeat' (first
    | with_reducible rfl
    | simp only [↓requestOn_shape, ↓updF_shape]
    | split)

theorem switchOff_shape (s : State) (l : Nat) : shape (switchOff s l) = shape s := rfl

theorem partDomains_shape (s : State) (pn : Nat) : shape (partDomains s pn) = shape s := by
  unfold partDomains
  repeat' (first
    | with_reducible rfl
    | (with_reducible refine (forEach_shape _ _ _ ?_).trans ?_)
    | simp only [↓requestOn_shape, ↓switchOff_shape]
    | split
    | intro _
    | (with_reducible show rect _ = rect _) <;> rfl)

theorem vprogUse_shape (s : State) : shape (vprogUse s) = shape s := rfl

/-! ## Machine/Requests.lean -/

theorem writeRunnel_shape (s : State) (pn : Nat) (r : Request) (k : BitVec 32) (bytes : List Byte) : shape (writeRunnel s pn r k bytes) = shape s := by
  unfold writeRunnel
  repeat' (first
    | with_reducible rfl
    | simp only [↓sendHost_shape, ↓updReq_shape, ↓sendMsix_shape]
    | split)

theorem nextEntry_shape (s : State) (pn : Nat) (r : Request) (bytes : List Byte) (token : Bool) : shape (nextEntry s pn r bytes token) = shape s := by
  unfold nextEntry
  simp only [↓writeRunnel_shape, ↓updReq_shape]

theorem setEnding_shape (s : State) (pn : Nat) (tag : BitVec 64) (status : Nat) (hit : Nat) : shape (setEnding s pn tag status hit) = shape s := by
  unfold setEnding
  simp only [↓updReq_shape]

theorem deliverToks_shape (pn : Nat) (tag : BitVec 64) (x2 : List (Tok × Bool)) (x3 : State) : shape (deliverToks pn tag x2 x3) = shape x3 := by
  induction x2 generalizing pn tag x3 with
  | nil =>
    unfold deliverToks
    repeat' (first
      | with_reducible rfl
      | assumption
      | (with_reducible refine (foldlS_shape _ ?_ _ _).trans ?_)
      | simp only [↓nextEntry_shape, ↓updReq_shape, ↓setEnding_shape, ↓mk_shape, ↓shape_ite, ↓fst_ite, ↓try_ite, ↓eng_ite, ↓reduceIte, ite_self, try_done, try_hold, try_trap, eng_done, eng_more, eng_wait, eng_trap]
      | split
      | intro _
      | (with_reducible show rect _ = rect _) <;> rfl
      | (with_reducible show Option.map rect _ = Option.map rect _) <;> (rw [‹getPart _ _ = some _›]; rfl)
      | (with_reducible show rect _ = rect _) <;> exact (noteIdle_rect _ _).trans rfl
      | (with_reducible show Option.map rect _ = Option.map rect _) <;> (rw [‹getPart _ _ = some _›]; exact congrArg some (noteIdle_rect _ _))
      | dsimp only
      | simp only [*])
  | cons y0 y1 ih =>
    unfold deliverToks
    repeat' (first
      | with_reducible rfl
      | assumption
      | (with_reducible refine (foldlS_shape _ ?_ _ _).trans ?_)
      | simp only [↓nextEntry_shape, ↓updReq_shape, ↓setEnding_shape, ↓mk_shape, ↓shape_ite, ↓fst_ite, ↓try_ite, ↓eng_ite, ↓reduceIte, ite_self, try_done, try_hold, try_trap, eng_done, eng_more, eng_wait, eng_trap, ↓ih]
      | split
      | intro _
      | (with_reducible show rect _ = rect _) <;> rfl
      | (with_reducible show Option.map rect _ = Option.map rect _) <;> (rw [‹getPart _ _ = some _›]; rfl)
      | (with_reducible show rect _ = rect _) <;> exact (noteIdle_rect _ _).trans rfl
      | (with_reducible show Option.map rect _ = Option.map rect _) <;> (rw [‹getPart _ _ = some _›]; exact congrArg some (noteIdle_rect _ _))
      | dsimp only
      | simp only [*])

theorem writeCompl_shape (s : State) (fn : Fn) (n : Nat) (q : Qp) (c : Completion) : shape (writeCompl s fn n q c) = shape s := by
  unfold writeCompl
  repeat' (first
    | with_reducible rfl
    | simp only [↓sendHost_shape, ↓setQp_shape, ↓sendMsix_shape]
    | split)

theorem postPlain_shape (s : State) (fn : Fn) (c : Completion) : shape (postPlain s fn c) = shape s := by
  unfold postPlain
  repeat' (first
    | with_reducible rfl
    | simp only [↓writeCompl_shape, ↓setQp_shape]
    | split)

theorem resolveWaits_shape (p : WaitFor → Bool) (f : WaitFor → Nat × Nat) (s : State) : shape (resolveWaits p f s) = shape s := by
  unfold resolveWaits
  repeat' (first
    | with_reducible rfl
    | assumption
    | (with_reducible refine (foldlS_shape _ ?_ _ _).trans ?_)
    | simp only [↓postPlain_shape, ↓mk_shape, ↓shape_ite, ↓fst_ite, ↓try_ite, ↓eng_ite, ↓reduceIte, ite_self, try_done, try_hold, try_trap, eng_done, eng_more, eng_wait, eng_trap]
    | split
    | intro _
    | (with_reducible show rect _ = rect _) <;> rfl
    | (with_reducible show Option.map rect _ = Option.map rect _) <;> (rw [‹getPart _ _ = some _›]; rfl)
    | (with_reducible show rect _ = rect _) <;> exact (noteIdle_rect _ _).trans rfl
    | (with_reducible show Option.map rect _ = Option.map rect _) <;> (rw [‹getPart _ _ = some _›]; exact congrArg some (noteIdle_rect _ _))
    | dsimp only
    | simp only [*])

theorem drainDone_shape (s : State) (pn : Nat) : shape (drainDone s pn) = shape s := by
  unfold drainDone
  repeat' (first
    | with_reducible rfl
    | (with_reducible refine (forEach_shape _ _ _ ?_).trans ?_)
    | (with_reducible refine (updPart_shape _ _ _ ?_).trans ?_)
    | simp only [↓stopPart_shape, ↓switchOff_shape, ↓resolveWaits_shape]
    | split
    | intro _
    | (with_reducible show rect _ = rect _) <;> rfl)

theorem dropRecord_shape (s : State) (h : BitVec 64) : shape (dropRecord s h) = shape s := rfl

theorem freeReq_shape (s : State) (pn : Nat) (tag : BitVec 64) : shape (freeReq s pn tag) = shape s := by
  unfold freeReq
  repeat' (first
    | with_reducible rfl
    | assumption
    | (with_reducible refine (setPart_shape _ _ _ ?_).trans ?_)
    | (with_reducible refine (foldlS_shape _ ?_ _ _).trans ?_)
    | simp only [↓updFn_shape, ↓drainDone_shape, ↓resolveWaits_shape, ↓mk_shape, ↓shape_ite, ↓fst_ite, ↓try_ite, ↓eng_ite, ↓reduceIte, ite_self, try_done, try_hold, try_trap, eng_done, eng_more, eng_wait, eng_trap]
    | split
    | intro _
    | (with_reducible show rect _ = rect _) <;> rfl
    | (with_reducible show Option.map rect _ = Option.map rect _) <;> (rw [‹getPart _ _ = some _›]; rfl)
    | (with_reducible show rect _ = rect _) <;> exact (noteIdle_rect _ _).trans rfl
    | (with_reducible show Option.map rect _ = Option.map rect _) <;> (rw [‹getPart _ _ = some _›]; exact congrArg some (noteIdle_rect _ _))
    | dsimp only
    | simp only [*])

theorem postReq_shape (s : State) (pn : Nat) (r : Request) (c : Completion) : shape (postReq s pn r c) = shape s := by
  unfold postReq
  repeat' (first
    | with_reducible rfl
    | simp only [↓freeReq_shape, ↓writeCompl_shape, ↓setQp_shape]
    | split)

theorem endReq_shape (pn : Nat) (tag : BitVec 64) (s : State) : shape (endReq pn tag s) = shape s := by
  unfold endReq
  repeat' (first
    | with_reducible rfl
    | simp only [↓giveUp_shape, ↓dropImages_shape, ↓updReq_shape, ↓nextEntry_shape, ↓postReq_shape, ↓mk_shape]
    | split
    | intro _
    | (with_reducible show rect _ = rect _) <;> rfl)

theorem endAll_shape (s : State) (pn : Nat) (lost : Request → Bool) : shape (endAll s pn lost) = shape s := by
  unfold endAll
  repeat' (first
    | with_reducible rfl
    | (with_reducible refine (forEach_shape _ _ _ ?_).trans ?_)
    | simp only [↓updReq_shape, ↓endReq_shape]
    | split
    | intro _
    | (with_reducible show rect _ = rect _) <;> rfl)

theorem eraseCtx_shape (s : State) (h : BitVec 64) : shape (eraseCtx s h) = shape s := by
  unfold eraseCtx
  repeat' (first
    | with_reducible rfl
    | simp only [↓dropRecord_shape, ↓dropImages_shape]
    | split)

theorem finishReq_shape (pn : Nat) (tag : BitVec 64) (s : State) : shape (finishReq pn tag s) = shape s := by
  unfold finishReq
  repeat' (first
    | with_reducible rfl
    | simp only [↓endReq_shape]
    | split)

theorem flushQp_shape (fn : Fn) (n : Nat) (x2 : Nat) (x3 : State) : shape (flushQp fn n x2 x3) = shape x3 := by
  induction x2 generalizing fn n x3 with
  | zero =>
    unfold flushQp
    repeat' (first
      | with_reducible rfl
      | assumption
      | (with_reducible refine (foldlS_shape _ ?_ _ _).trans ?_)
      | simp only [↓writeCompl_shape, ↓freeReq_shape, ↓mk_shape, ↓shape_ite, ↓fst_ite, ↓try_ite, ↓eng_ite, ↓reduceIte, ite_self, try_done, try_hold, try_trap, eng_done, eng_more, eng_wait, eng_trap]
      | split
      | intro _
      | (with_reducible show rect _ = rect _) <;> rfl
      | (with_reducible show Option.map rect _ = Option.map rect _) <;> (rw [‹getPart _ _ = some _›]; rfl)
      | (with_reducible show rect _ = rect _) <;> exact (noteIdle_rect _ _).trans rfl
      | (with_reducible show Option.map rect _ = Option.map rect _) <;> (rw [‹getPart _ _ = some _›]; exact congrArg some (noteIdle_rect _ _))
      | dsimp only
      | simp only [*])
  | succ y1 ih =>
    unfold flushQp
    repeat' (first
      | with_reducible rfl
      | assumption
      | (with_reducible refine (foldlS_shape _ ?_ _ _).trans ?_)
      | simp only [↓writeCompl_shape, ↓freeReq_shape, ↓mk_shape, ↓shape_ite, ↓fst_ite, ↓try_ite, ↓eng_ite, ↓reduceIte, ite_self, try_done, try_hold, try_trap, eng_done, eng_more, eng_wait, eng_trap, ↓ih]
      | split
      | intro _
      | (with_reducible show rect _ = rect _) <;> rfl
      | (with_reducible show Option.map rect _ = Option.map rect _) <;> (rw [‹getPart _ _ = some _›]; rfl)
      | (with_reducible show rect _ = rect _) <;> exact (noteIdle_rect _ _).trans rfl
      | (with_reducible show Option.map rect _ = Option.map rect _) <;> (rw [‹getPart _ _ = some _›]; exact congrArg some (noteIdle_rect _ _))
      | dsimp only
      | simp only [*])

theorem pauseDone_shape (pn : Nat) (tag : BitVec 64) (s : State) : shape (pauseDone pn tag s) = shape s := by
  unfold pauseDone
  repeat' (first
    | with_reducible rfl
    | simp only [↓giveUp_shape, ↓updReq_shape, ↓mk_shape]
    | split
    | intro _
    | (with_reducible show rect _ = rect _) <;> rfl)

theorem startPass_shape (s : State) (pn : Nat) (tag : BitVec 64) : shape (startPass s pn tag) = shape s := by
  unfold startPass
  simp only [↓updReq_shape]

/-! ## Machine/Caps.lean -/

theorem applyPending_shape (s : State) (pn : Nat) : shape (applyPending s pn) = shape s := by
  unfold applyPending
  repeat' (first
    | with_reducible rfl
    | assumption
    | (with_reducible refine (forEach_shape _ _ _ ?_).trans ?_)
    | (with_reducible refine (setPart_shape _ _ _ ?_).trans ?_)
    | (with_reducible refine (foldlS_shape _ ?_ _ _).trans ?_)
    | simp only [↓updL_shape, ↓updF_shape, ↓mk_shape, ↓shape_ite, ↓fst_ite, ↓try_ite, ↓eng_ite, ↓reduceIte, ite_self, try_done, try_hold, try_trap, eng_done, eng_more, eng_wait, eng_trap]
    | split
    | intro _
    | (with_reducible show rect _ = rect _) <;> rfl
    | (with_reducible show Option.map rect _ = Option.map rect _) <;> (rw [‹getPart _ _ = some _›]; rfl)
    | (with_reducible show rect _ = rect _) <;> exact (noteIdle_rect _ _).trans rfl
    | (with_reducible show Option.map rect _ = Option.map rect _) <;> (rw [‹getPart _ _ = some _›]; exact congrArg some (noteIdle_rect _ _))
    | dsimp only
    | simp only [*])

theorem beginPart_shape (s : State) (pn : Nat) : shape (beginPart s pn) = shape s := by
  unfold beginPart
  repeat' (first
    | with_reducible rfl
    | (with_reducible refine (updPart_shape _ _ _ ?_).trans ?_)
    | simp only [↓startPart_shape, ↓applyPending_shape]
    | split
    | intro _
    | (with_reducible show rect _ = rect _) <;> rfl)

theorem calCommit_shape (s : State) (key : Nat) (setid : Option (BitVec 32)) (pay : Nat) : shape (calCommit s key setid pay) = shape s := by
  unfold calCommit
  simp only [↓setCal_shape]

theorem pairCommit_shape (s : State) (l : Nat) (a : Nat) (setid : Option (BitVec 32)) : shape (pairCommit s l a setid) = shape s := by
  unfold pairCommit
  simp only [↓calCommit_shape, ↓startCapture_shape]

/-! ## Machine/Faults.lean -/

theorem bankBusy_shape (s : State) (l : Nat) (b : Nat) : shape (bankBusy s l b) = shape s := rfl

theorem startJob_shape (j : ChunkJob) (s : State) : shape (startJob j s) = shape s := by
  unfold startJob
  repeat' (first
    | with_reducible rfl
    | simp only [↓updArr_shape, ↓bankBusy_shape, ↓pairCommit_shape, ↓mk_shape]
    | split
    | intro _
    | (with_reducible show rect _ = rect _) <;> rfl)

theorem startJobs_shape (s : State) : shape (startJobs s) = shape s := by
  unfold startJobs
  repeat' (first
    | with_reducible rfl
    | (with_reducible refine (forEach_shape _ _ _ ?_).trans ?_)
    | simp only [↓vprogUse_shape, ↓startJob_shape]
    | split
    | intro _
    | (with_reducible show rect _ = rect _) <;> rfl)

theorem addJob_shape (s : State) (j : ChunkJob) : shape (addJob s j) = shape s := by
  unfold addJob
  repeat' (first
    | with_reducible rfl
    | simp only [↓startJobs_shape, ↓mk_shape]
    | split
    | intro _
    | (with_reducible show rect _ = rect _) <;> rfl)

theorem bothOut_shape (s : State) : shape (bothOut s) = shape s := by
  unfold bothOut
  repeat' (first
    | with_reducible rfl
    | (with_reducible refine (forEach_shape _ _ _ ?_).trans ?_)
    | simp only [↓raiseEv_shape, ↓stopPart_shape]
    | split
    | intro _
    | (with_reducible show rect _ = rect _) <;> rfl)

theorem boundarySeen_shape (l : Nat) (s : State) : shape (boundarySeen l s) = shape s := by
  unfold boundarySeen
  repeat' (first
    | with_reducible rfl
    | simp only [↓updL_shape]
    | split)

theorem calibrationScrub_shape (s : State) : shape (calibrationScrub s) = shape s := rfl

theorem configScrub_shape (s : State) : shape (configScrub s) = shape s := by
  unfold configScrub
  repeat' (first
    | with_reducible rfl
    | (with_reducible refine (forEach_shape _ _ _ ?_).trans ?_)
    | simp only [↓unitFault_shape, ↓raiseEv_shape]
    | split
    | intro _
    | (with_reducible show rect _ = rect _) <;> rfl)

theorem countCopies_shape (xs : List Nat) (s : State) : shape (countCopies xs s) = shape s := by
  unfold countCopies
  repeat' (first
    | with_reducible rfl
    | (with_reducible refine (forEach_shape _ _ _ ?_).trans ?_)
    | simp only [↓countT_shape]
    | split
    | intro _
    | (with_reducible show rect _ = rect _) <;> rfl)

theorem saveDrift_shape (l : Nat) (s : State) : shape (saveDrift l s) = shape s := by
  unfold saveDrift
  repeat' (first
    | with_reducible rfl
    | (with_reducible refine (forEach_shape _ _ _ ?_).trans ?_)
    | simp only [↓updL_shape, ↓pairCommit_shape]
    | split
    | intro _
    | (with_reducible show rect _ = rect _) <;> rfl)

theorem driftSave_shape (s : State) : shape (driftSave s) = shape s := by
  unfold driftSave
  repeat' (first
    | with_reducible rfl
    | (with_reducible refine (forEach_shape _ _ _ ?_).trans ?_)
    | simp only [↓saveDrift_shape]
    | split
    | intro _
    | (with_reducible show rect _ = rect _) <;> rfl)

theorem dropSlot_shape (s : State) (pn : Nat) (f : Nat) (k : Nat) : shape (dropSlot s pn f k) = shape s := by
  unfold dropSlot
  repeat' (first
    | with_reducible rfl
    | (with_reducible refine (updPart_shape _ _ _ ?_).trans ?_)
    | split
    | intro _
    | (with_reducible show rect _ = rect _) <;> rfl)

theorem execBoundarySeen_shape (l : Nat) (s : State) {nxt : State} (hn : execBoundarySeen l s = .next nxt) : shape nxt = shape s := by
  unfold execBoundarySeen at hn
  refine guarded_shape hn ?_
  simp only [↓boundarySeen_shape]

theorem execCalibrationScrub_shape (s : State) {nxt : State} (hn : execCalibrationScrub s = .next nxt) : shape nxt = shape s := by
  unfold execCalibrationScrub at hn
  refine guarded_shape hn ?_
  simp only [↓calibrationScrub_shape]

theorem recomputeCrc_shape (u : CfgUnit) (s : State) : shape (recomputeCrc u s) = shape s := by
  unfold recomputeCrc
  repeat' (first
    | with_reducible rfl
    | simp only [↓updL_shape, ↓updR_shape]
    | split)

theorem execConfigCrcRecompute_shape (u : CfgUnit) (s : State) {nxt : State} (hn : execConfigCrcRecompute u s = .next nxt) : shape nxt = shape s := by
  unfold execConfigCrcRecompute at hn
  refine guarded_shape hn ?_
  simp only [↓recomputeCrc_shape]

theorem execConfigScrub_shape (s : State) {nxt : State} (hn : execConfigScrub s = .next nxt) : shape nxt = shape s := by
  unfold execConfigScrub at hn
  refine guarded_shape hn ?_
  simp only [↓configScrub_shape]

theorem execDriftSave_shape (s : State) {nxt : State} (hn : execDriftSave s = .next nxt) : shape nxt = shape s := by
  unfold execDriftSave at hn
  refine guarded_shape hn ?_
  simp only [↓driftSave_shape]

theorem markBad_shape (source : Nat) (l : Nat) (s : State) : shape (markBad source l s) = shape s := by
  unfold markBad
  repeat' (first
    | with_reducible rfl
    | simp only [↓addRepair_shape, ↓raiseEv_shape, ↓switchOff_shape, ↓mk_shape]
    | split
    | intro _
    | (with_reducible show rect _ = rect _) <;> rfl)

theorem markInService_shape (ls : List Nat) (s : State) : shape (markInService ls s) = shape s := by
  unfold markInService
  repeat' (first
    | with_reducible rfl
    | (with_reducible refine (forEach_shape _ _ _ ?_).trans ?_)
    | simp only [↓markBad_shape, ↓raiseF_shape]
    | split
    | intro _
    | (with_reducible show rect _ = rect _) <;> rfl)

theorem moveSlot_shape (s : State) (l : Nat) : shape (moveSlot s l).1 = shape s := by
  unfold moveSlot
  repeat' (first
    | with_reducible rfl
    | simp only [↓updF_shape]
    | split)

theorem setRanges_shape (s : State) (l : Nat) (m : SMap Int) : shape (setRanges s l m) = shape s := rfl

theorem fromReserve_shape (l : Nat) (c : ChunkRec) (r : ReserveRec) (s : State) : shape (fromReserve l c r s) = shape s := by
  unfold fromReserve
  repeat' (first
    | with_reducible rfl
    | simp only [↓setRanges_shape, ↓addJob_shape]
    | split)

theorem remapOne_shape (pn : Nat) (l : Nat) (s : State) : shape (remapOne pn l s).1 = shape s := by
  unfold remapOne
  repeat' (first
    | with_reducible rfl
    | (with_reducible refine (forEach_shape _ _ _ ?_).trans ?_)
    | (with_reducible refine (updPart_shape _ _ _ ?_).trans ?_)
    | simp only [↓moveSlot_shape, ↓dropSlot_shape, ↓requestOn_shape, ↓countCopies_shape, ↓fromReserve_shape]
    | split
    | intro _
    | (with_reducible show rect _ = rect _) <;> rfl)

theorem remapAll_shape (pn : Nat) (s : State) : shape (remapAll pn s) = shape s := by
  unfold remapAll
  split
  · rfl
  · dsimp only
    rw [updPart_shape _ _ _ (by intro _; rfl)]
    refine foldl_shape (fun x : State × Nat => x.1) _ ?_ _ (s, 0)
    intro b x
    exact remapOne_shape _ _ _

theorem testLink_shape (e : Nat × Nat) (s : State) : shape (testLink e s) = shape s := by
  unfold testLink
  repeat' (first
    | with_reducible rfl
    | simp only [↓updDir_shape]
    | split)

theorem retestDone_shape (pn : Nat) (votes : List (Nat × Nat)) (s : State) : shape (retestDone pn votes s) = shape s := by
  unfold retestDone
  repeat' (first
    | with_reducible rfl
    | (with_reducible refine (forEach_shape _ _ _ ?_).trans ?_)
    | (with_reducible refine (updPart_shape _ _ _ ?_).trans ?_)
    | simp only [↓updL_shape, ↓raiseEv_shape, ↓markInService_shape, ↓testLink_shape, ↓moveSlot_shape, ↓remapAll_shape]
    | split
    | intro _
    | (with_reducible show rect _ = rect _) <;> rfl)

theorem execFaultRetestDone_shape (part : Nat) (votes : List (Nat × Nat)) (s : State) {nxt : State} (hn : execFaultRetestDone part votes s = .next nxt) : shape nxt = shape s := by
  unfold execFaultRetestDone at hn
  refine guarded_shape hn ?_
  simp only [↓retestDone_shape]

theorem partitionStop_shape (pn : Nat) (s : State) : shape (partitionStop pn s) = shape s := by
  unfold partitionStop
  repeat' (first
    | with_reducible rfl
    | simp only [↓stopLanterns_shape]
    | split)

theorem execPartitionStop_shape (part : Nat) (s : State) {nxt : State} (hn : execPartitionStop part s = .next nxt) : shape nxt = shape s := by
  unfold execPartitionStop at hn
  refine guarded_shape hn ?_
  simp only [↓partitionStop_shape]

theorem rimLost_shape (t : Nat) (s : State) : shape (rimLost t s) = shape s := by
  unfold rimLost
  repeat' (first
    | with_reducible rfl
    | (with_reducible refine (forEach_shape _ _ _ ?_).trans ?_)
    | simp only [↓gateTile_shape, ↓updT_shape, ↓unitFault_shape]
    | split
    | intro _
    | (with_reducible show rect _ = rect _) <;> rfl)

theorem execRimFunctionLost_shape (tile : Nat) (s : State) {nxt : State} (hn : execRimFunctionLost tile s = .next nxt) : shape nxt = shape s := by
  unfold execRimFunctionLost at hn
  refine guarded_shape hn ?_
  simp only [↓rimLost_shape]

theorem standbyDone_shape (a : Bool) (pass : Bool) (s : State) : shape (standbyDone a pass s) = shape s := by
  unfold standbyDone
  repeat' (first
    | with_reducible rfl
    | simp only [↓raiseEv_shape, ↓mk_shape]
    | split
    | intro _
    | (with_reducible show rect _ = rect _) <;> rfl)

theorem execStandbySelftestDone_shape (p : Proc) (pass : Bool) (s : State) {nxt : State} (hn : execStandbySelftestDone p pass s = .next nxt) : shape nxt = shape s := by
  unfold execStandbySelftestDone at hn
  refine guarded_shape hn ?_
  repeat' (first
    | with_reducible rfl
    | simp only [↓standbyDone_shape]
    | split)

theorem stepBoundary_shape (pn : Nat) (s : State) : shape (stepBoundary pn s) = shape s := by
  unfold stepBoundary
  repeat' (first
    | with_reducible rfl
    | (with_reducible refine (forEach_shape _ _ _ ?_).trans ?_)
    | (with_reducible refine (updPart_shape _ _ _ ?_).trans ?_)
    | simp only [↓boundaryShares_shape, ↓applyPending_shape, ↓countF_shape, ↓updF_shape, ↓traceL_shape]
    | split
    | intro _
    | (with_reducible show rect _ = rect _) <;> rfl)

theorem execStepBoundary_shape (part : Nat) (s : State) {nxt : State} (hn : execStepBoundary part s = .next nxt) : shape nxt = shape s := by
  unfold execStepBoundary at hn
  refine guarded_shape hn ?_
  simp only [↓stepBoundary_shape]

theorem watchdogExpiry_shape (pn : Nat) (s : State) : shape (watchdogExpiry pn s) = shape s := by
  unfold watchdogExpiry
  repeat' (first
    | with_reducible rfl
    | simp only [↓raiseFault_shape]
    | split)

theorem execStepWatchdogExpiry_shape (part : Nat) (s : State) {nxt : State} (hn : execStepWatchdogExpiry part s = .next nxt) : shape nxt = shape s := by
  unfold execStepWatchdogExpiry at hn
  refine guarded_shape hn ?_
  simp only [↓watchdogExpiry_shape]

theorem procHalts_shape (a : Bool) (s : State) : shape (procHalts a s) = shape s := by
  unfold procHalts
  repeat' (first
    | with_reducible rfl
    | simp only [↓bothOut_shape, ↓raiseEv_shape, ↓mk_shape]
    | split
    | intro _
    | (with_reducible show rect _ = rect _) <;> rfl)

theorem reloadPart_shape (s : State) (pn : Nat) : shape (reloadPart s pn) = shape s := by
  unfold reloadPart
  repeat' (first
    | with_reducible rfl
    | (with_reducible refine (forEach_shape _ _ _ ?_).trans ?_)
    | simp only [↓loadHeadgates_shape, ↓loadLanterns_shape, ↓recheckRoutes_shape, ↓startCapture_shape]
    | split
    | intro _
    | (with_reducible show rect _ = rect _) <;> rfl)

theorem setOutcome_rect (p : Partition) (o : Nat) : rect (setOutcome p o) = rect p := by unfold setOutcome; split <;> rfl

theorem reloadDone_shape (pn : Nat) (s : State) : shape (reloadDone pn s) = shape s := by
  unfold reloadDone
  repeat' (first
    | with_reducible rfl
    | assumption
    | (with_reducible refine (updPart_shape _ _ _ ?_).trans ?_)
    | (with_reducible refine (foldlS_shape _ ?_ _ _).trans ?_)
    | simp only [↓reloadPart_shape, ↓drainDone_shape, ↓beginPart_shape, ↓mk_shape, ↓shape_ite, ↓fst_ite, ↓try_ite, ↓eng_ite, ↓reduceIte, ite_self, try_done, try_hold, try_trap, eng_done, eng_more, eng_wait, eng_trap]
    | split
    | intro _
    | (with_reducible show rect _ = rect _) <;> first | rfl | exact setOutcome_rect _ _ | exact (setOutcome_rect _ _).trans rfl
    | (with_reducible show Option.map rect _ = Option.map rect _) <;> (rw [‹getPart _ _ = some _›]; rfl)
    | (with_reducible show rect _ = rect _) <;> exact (noteIdle_rect _ _).trans rfl
    | (with_reducible show Option.map rect _ = Option.map rect _) <;> (rw [‹getPart _ _ = some _›]; exact congrArg some (noteIdle_rect _ _))
    | dsimp only
    | simp only [*])

theorem restoreLines_shape (s : State) (pn : Nat) (p : Partition) (f : Nat) (k : Nat) : shape (restoreLines s pn p f k).1 = shape s := by
  unfold restoreLines
  repeat' (first
    | with_reducible rfl
    | (with_reducible refine (updPart_shape _ _ _ ?_).trans ?_)
    | simp only [↓countCopies_shape]
    | split
    | intro _
    | (with_reducible show rect _ = rect _) <;> rfl)

theorem takeFault_shape (pn : Nat) (s : State) : shape (takeFault pn s) = shape s := by
  unfold takeFault
  repeat' (first
    | with_reducible rfl
    | (with_reducible refine (updPart_shape _ _ _ ?_).trans ?_)
    | simp only [↓raiseEv_shape, ↓endAll_shape, ↓stopPart_shape]
    | split
    | intro _
    | (with_reducible show rect _ = rect _) <;> rfl)

end Sys2Proof.Machine
end

