-- ==== Sys2Proof/Laws/FramePower.lean ====
section
/-! SUPPORT. What leaves the shape of the machine (Laws/Frame.lean): serving, host queues, thermal and power management, bring-up and the taking of commands. -/

set_option linter.unusedSimpArgs false
set_option linter.unusedTactic false
set_option linter.unreachableTactic false
set_option linter.unusedVariables false
set_option linter.unnecessarySeqFocus false

namespace Sys2Proof.Machine

/-! ## Machine/Serving.lean -/

theorem decodeDone_shape (pn : Nat) (tag : BitVec 64) (toks : List Tok) (drafts : List (BitVec 32)) (s : State) : shape (decodeDone pn tag toks drafts s) = shape s := by
  unfold decodeDone
  repeat' (first
    | with_reducible rfl
    | simp only [↓countL_shape, ↓updReq_shape, ↓deliverToks_shape, ↓startPass_shape]
    | split)

theorem execCisternPauseDone_shape (part : Nat) (tag : BitVec 64) (s : State) {nxt : State} (hn : execCisternPauseDone part tag s = .next nxt) : shape nxt = shape s := by
  unfold execCisternPauseDone at hn
  refine guarded_shape hn ?_
  simp only [↓pauseDone_shape]

theorem resumeLost_shape (pn : Nat) (tag : BitVec 64) (r : Request) (s : State) : shape (resumeLost pn tag r s) = shape s := by
  unfold resumeLost
  simp only [↓setEnding_shape, ↓updReq_shape, ↓dropImages_shape]

theorem resumeDone_shape (pn : Nat) (tag : BitVec 64) (authOk : Bool) (s : State) : shape (resumeDone pn tag authOk s) = shape s := by
  unfold resumeDone
  repeat' (first
    | with_reducible rfl
    | simp only [↓resumeLost_shape, ↓countT_shape, ↓updReq_shape, ↓dropImages_shape]
    | split)

theorem execCisternResumeDone_shape (part : Nat) (tag : BitVec 64) (authOk : Bool) (s : State) {nxt : State} (hn : execCisternResumeDone part tag authOk s = .next nxt) : shape nxt = shape s := by
  unfold execCisternResumeDone at hn
  refine guarded_shape hn ?_
  simp only [↓resumeDone_shape]

theorem ttlExpiry_shape (h : BitVec 64) (s : State) : shape (ttlExpiry h s) = shape s := by
  unfold ttlExpiry
  repeat' (first
    | with_reducible rfl
    | simp only [↓eraseCtx_shape]
    | split)

theorem execContextTtlExpiry_shape (handle : BitVec 64) (s : State) {nxt : State} (hn : execContextTtlExpiry handle s = .next nxt) : shape nxt = shape s := by
  unfold execContextTtlExpiry at hn
  refine guarded_shape hn ?_
  simp only [↓ttlExpiry_shape]

theorem execDecodePassDone_shape (part : Nat) (tag : BitVec 64) (toks : List Tok) (drafts : List (BitVec 32)) (s : State) {nxt : State} (hn : execDecodePassDone part tag toks drafts s = .next nxt) : shape nxt = shape s := by
  unfold execDecodePassDone at hn
  refine guarded_shape hn ?_
  simp only [↓decodeDone_shape]

theorem owedTimer_shape (fn : Fn) (pn : Nat) (rn : Nat) (s : State) : shape (owedTimer fn pn rn s) = shape s := by
  unfold owedTimer
  repeat' (first
    | with_reducible rfl
    | simp only [↓sendMsix_shape, ↓updFn_shape]
    | split)

theorem interruptTimer_shape (fn : Fn) (src : IntSource) (s : State) : shape (interruptTimer fn src s) = shape s := by
  unfold interruptTimer
  repeat' (first
    | with_reducible rfl
    | simp only [↓sendMsix_shape, ↓setQp_shape, ↓updReq_shape, ↓owedTimer_shape, ↓updFn_shape]
    | split)

theorem execInterruptTimer_shape (fn : Fn) (src : IntSource) (s : State) {nxt : State} (hn : execInterruptTimer fn src s = .next nxt) : shape nxt = shape s := by
  unfold execInterruptTimer at hn
  refine guarded_shape hn ?_
  simp only [↓interruptTimer_shape]

theorem passStart_shape (pn : Nat) (tag : BitVec 64) (s : State) : shape (passStart pn tag s) = shape s := by
  unfold passStart
  repeat' (first
    | with_reducible rfl
    | simp only [↓startPass_shape]
    | split)

theorem execPassStart_shape (part : Nat) (tag : BitVec 64) (s : State) {nxt : State} (hn : execPassStart part tag s = .next nxt) : shape nxt = shape s := by
  unfold execPassStart at hn
  refine guarded_shape hn ?_
  simp only [↓passStart_shape]

theorem prefillDone_shape (pn : Nat) (tag : BitVec 64) (t : Tok) (s : State) : shape (prefillDone pn tag t s) = shape s := by
  unfold prefillDone
  repeat' (first
    | with_reducible rfl
    | simp only [↓updReq_shape, ↓startPass_shape, ↓deliverToks_shape]
    | split)

theorem execPrefillDone_shape (part : Nat) (tag : BitVec 64) (t : Tok) (s : State) {nxt : State} (hn : execPrefillDone part tag t s = .next nxt) : shape nxt = shape s := by
  unfold execPrefillDone at hn
  refine guarded_shape hn ?_
  simp only [↓prefillDone_shape]

/-! ## Machine/Queues.lean -/

theorem cancelThrough_shape (fn : Fn) (q : Option Nat) (mute : Bool) (s : State) : shape (cancelThrough fn q mute s) = shape s := by
  unfold cancelThrough
  repeat' (first
    | with_reducible rfl
    | assumption
    | (with_reducible refine (mapParts_shape _ _ ?_).trans ?_)
    | (with_reducible refine (foldlS_shape _ ?_ _ _).trans ?_)
    | simp only [↓mk_shape, ↓shape_ite, ↓fst_ite, ↓try_ite, ↓eng_ite, ↓reduceIte, ite_self, try_done, try_hold, try_trap, eng_done, eng_more, eng_wait, eng_trap]
    | split
    | intro _
    | (with_reducible show rect _ = rect _) <;> rfl
    | (with_reducible show Option.map rect _ = Option.map rect _) <;> (rw [‹getPart _ _ = some _›]; rfl)
    | (with_reducible show rect _ = rect _) <;> exact (noteIdle_rect _ _).trans rfl
    | (with_reducible show Option.map rect _ = Option.map rect _) <;> (rw [‹getPart _ _ = some _›]; exact congrArg some (noteIdle_rect _ _))
    | dsimp only
    | simp only [*])

theorem cqHeadNow_shape (fn : Fn) (n : Nat) (v : BitVec 32) (s : State) : shape (cqHeadNow fn n v s) = shape s := by
  unfold cqHeadNow
  repeat' (first
    | with_reducible rfl
    | simp only [↓badDoorbell_shape, ↓flushQp_shape, ↓setQp_shape]
    | split)

theorem deleteNow_shape (fn : Fn) (n : Nat) (s : State) : shape (deleteNow fn n s) = shape s := by
  unfold deleteNow
  repeat' (first
    | with_reducible rfl
    | (with_reducible refine (forEach_shape _ _ _ ?_).trans ?_)
    | simp only [↓setQp_shape, ↓updFn_shape, ↓freeReq_shape, ↓cancelThrough_shape]
    | split
    | intro _
    | (with_reducible show rect _ = rect _) <;> rfl)

theorem evConsNow_shape (fn : Fn) (v : BitVec 32) (s : State) : shape (evConsNow fn v s) = shape s := by
  unfold evConsNow
  repeat' (first
    | with_reducible rfl
    | simp only [↓badDoorbell_shape, ↓drainFn_shape, ↓updFn_shape]
    | split)

theorem runnelConsNow_shape (fn : Fn) (rn : Nat) (v : BitVec 32) (s : State) : shape (runnelConsNow fn rn v s) = shape s := by
  unfold runnelConsNow
  repeat' (first
    | with_reducible rfl
    | simp only [↓badDoorbell_shape, ↓updReq_shape]
    | split)

theorem sqTailNow_shape (fn : Fn) (n : Nat) (v : BitVec 32) (s : State) : shape (sqTailNow fn n v s) = shape s := by
  unfold sqTailNow
  repeat' (first
    | with_reducible rfl
    | simp only [↓badDoorbell_shape, ↓setQp_shape]
    | split)

theorem doorbellNow_shape (fn : Fn) (d : Latched) (s : State) : shape (doorbellNow fn d s) = shape s := by
  unfold doorbellNow
  repeat' (first
    | with_reducible rfl
    | simp only [↓rimSend_shape, ↓sqTailNow_shape, ↓cqHeadNow_shape, ↓runnelConsNow_shape, ↓evConsNow_shape]
    | split)

theorem doorbell_shape (fn : Fn) (kind : Nat) (num : Nat) (v : BitVec 32) (s : State) : shape (doorbell fn kind num v s) = shape s := by
  unfold doorbell
  repeat' (first
    | with_reducible rfl
    | simp only [↓updFn_shape, ↓doorbellNow_shape]
    | split)

theorem noteRsvd_shape (fn : Fn) (mask : BitVec 32) (v : BitVec 32) (s : State) : shape (noteRsvd fn mask v s) = shape s := by
  unfold noteRsvd
  repeat' (first
    | with_reducible rfl
    | simp only [↓rsvdWrite_shape]
    | split)

theorem settleQp_shape (fn : Fn) (n : Nat) (s : State) : shape (settleQp fn n s) = shape s := by
  unfold settleQp
  repeat' (first
    | with_reducible rfl
    | (with_reducible refine (forEach_shape _ _ _ ?_).trans ?_)
    | simp only [↓deleteNow_shape, ↓postPlain_shape, ↓mk_shape]
    | split
    | intro _
    | (with_reducible show rect _ = rect _) <;> rfl)

theorem settle_shape (s : State) : shape (settle s) = shape s := by
  unfold settle
  repeat' (first
    | with_reducible rfl
    | (with_reducible refine (forEach_shape _ _ _ ?_).trans ?_)
    | simp only [↓settleQp_shape]
    | split
    | intro _
    | (with_reducible show rect _ = rect _) <;> rfl)

theorem settled_shape {ok : Bool} {s t u : State} (h : settled ok u = .next t) (hu : shape u = shape s) : shape t = shape s := by
  unfold settled at h
  exact guarded_shape h ((settle_shape u).trans hu)

theorem execCqHead_shape (fn : Fn) (q : Nat) (v : BitVec 32) (s : State) {nxt : State} (hn : execCqHead fn q v s = .next nxt) : shape nxt = shape s := by
  unfold execCqHead at hn
  refine settled_shape hn ?_
  simp only [↓doorbell_shape, ↓noteRsvd_shape]

theorem execEvCons_shape (fn : Fn) (v : BitVec 32) (s : State) {nxt : State} (hn : execEvCons fn v s = .next nxt) : shape nxt = shape s := by
  unfold execEvCons at hn
  refine guarded_shape hn ?_
  simp only [↓doorbell_shape]

theorem resetFn_shape (fn : Fn) (s : State) : shape (resetFn fn s) = shape s := by
  unfold resetFn
  repeat' (first
    | with_reducible rfl
    | (with_reducible refine (forEach_shape _ _ _ ?_).trans ?_)
    | (with_reducible refine (updPart_shape _ _ _ ?_).trans ?_)
    | simp only [↓deleteNow_shape, ↓cancelThrough_shape, ↓updFn_shape, ↓mk_shape]
    | split
    | intro _
    | (with_reducible show rect _ = rect _) <;> rfl)

theorem resetOrHold_shape (fn : Fn) (s : State) : shape (resetOrHold fn s) = shape s := by
  unfold resetOrHold
  repeat' (first
    | with_reducible rfl
    | simp only [↓updFn_shape, ↓resetFn_shape]
    | split)

theorem execFunctionLevelReset_shape (fn : Fn) (s : State) {nxt : State} (hn : execFunctionLevelReset fn s = .next nxt) : shape nxt = shape s := by
  unfold execFunctionLevelReset at hn
  refine settled_shape hn ?_
  simp only [↓resetOrHold_shape]

theorem holdClear_shape (s : State) : shape (holdClear s) = shape s := by
  unfold holdClear
  repeat' (first
    | with_reducible rfl
    | (with_reducible refine (forEach_shape _ _ _ ?_).trans ?_)
    | simp only [↓resetFn_shape, ↓doorbellNow_shape, ↓updFn_shape, ↓mk_shape]
    | split
    | intro _
    | (with_reducible show rect _ = rect _) <;> rfl)

theorem execHoldClear_shape (s : State) {nxt : State} (hn : execHoldClear s = .next nxt) : shape nxt = shape s := by
  unfold execHoldClear at hn
  refine settled_shape hn ?_
  simp only [↓holdClear_shape]

theorem startDelete_shape (fn : Fn) (n : Nat) (s : State) : shape (startDelete fn n s) = shape s := by
  unfold startDelete
  repeat' (first
    | with_reducible rfl
    | simp only [↓setQp_shape]
    | split)

theorem writeCtrl_shape (fn : Fn) (v : BitVec 32) (s : State) : shape (writeCtrl fn v s) = shape s := by
  unfold writeCtrl
  repeat' (first
    | with_reducible rfl
    | simp only [↓noteRsvd_shape, ↓updFn_shape, ↓setQp_shape, ↓settleQp_shape, ↓startDelete_shape]
    | split)

theorem execMbCtrlDisable_shape (fn : Fn) (v : BitVec 32) (s : State) {nxt : State} (hn : execMbCtrlDisable fn v s = .next nxt) : shape nxt = shape s := by
  unfold execMbCtrlDisable at hn
  refine settled_shape hn ?_
  simp only [↓writeCtrl_shape]

theorem execMbCtrlEnable_shape (fn : Fn) (v : BitVec 32) (s : State) {nxt : State} (hn : execMbCtrlEnable fn v s = .next nxt) : shape nxt = shape s := by
  unfold execMbCtrlEnable at hn
  refine guarded_shape hn ?_
  simp only [↓writeCtrl_shape]

theorem execPartitionFault_shape (part : Nat) (s : State) {nxt : State} (hn : execPartitionFault part s = .next nxt) : shape nxt = shape s := by
  unfold execPartitionFault at hn
  refine settled_shape hn ?_
  simp only [↓takeFault_shape]

theorem execPartitionReloadDone_shape (part : Nat) (s : State) {nxt : State} (hn : execPartitionReloadDone part s = .next nxt) : shape nxt = shape s := by
  unfold execPartitionReloadDone at hn
  refine settled_shape hn ?_
  simp only [↓reloadDone_shape]

theorem execRequestEnd_shape (part : Nat) (tag : BitVec 64) (s : State) {nxt : State} (hn : execRequestEnd part tag s = .next nxt) : shape nxt = shape s := by
  unfold execRequestEnd at hn
  refine settled_shape hn ?_
  simp only [↓finishReq_shape]

theorem execRunnelCons_shape (fn : Fn) (r : Nat) (v : BitVec 32) (s : State) {nxt : State} (hn : execRunnelCons fn r v s = .next nxt) : shape nxt = shape s := by
  unfold execRunnelCons at hn
  refine guarded_shape hn ?_
  simp only [↓doorbell_shape]

theorem execSqTail_shape (fn : Fn) (q : Nat) (v : BitVec 32) (s : State) {nxt : State} (hn : execSqTail fn q v s = .next nxt) : shape nxt = shape s := by
  unfold execSqTail at hn
  refine guarded_shape hn ?_
  simp only [↓doorbell_shape, ↓noteRsvd_shape]

/-! ## Machine/Thermal.lean -/

theorem bandRaise_shape (s : State) : shape (bandRaise s) = shape s := by
  unfold bandRaise
  repeat' (first
    | with_reducible rfl
    | simp only [↓mk_shape]
    | split
    | intro _
    | (with_reducible show rect _ = rect _) <;> rfl)

theorem capUpdate_shape (s : State) : shape (capUpdate s) = shape s := by
  unfold capUpdate
  repeat' (first
    | with_reducible rfl
    | (with_reducible refine (mapParts_shape _ _ ?_).trans ?_)
    | split
    | intro _
    | (with_reducible show rect _ = rect _) <;> rfl)

theorem coolLimits_shape (s : State) : shape (coolLimits s) = shape s := by
  unfold coolLimits
  repeat' (first
    | with_reducible rfl
    | simp only [↓raiseM_shape, ↓mk_shape]
    | split
    | intro _
    | (with_reducible show rect _ = rect _) <;> rfl)

theorem coolantKind_shape (v : Nat) (s : State) : shape (coolantKind v s) = shape s := by
  unfold coolantKind
  repeat' (first
    | with_reducible rfl
    | simp only [↓mk_shape]
    | split
    | intro _
    | (with_reducible show rect _ = rect _) <;> rfl)

theorem drainTimeout_shape (pn : Nat) (s : State) : shape (drainTimeout pn s) = shape s := by
  unfold drainTimeout
  repeat' (first
    | with_reducible rfl
    | assumption
    | (with_reducible refine (updPart_shape _ _ _ ?_).trans ?_)
    | (with_reducible refine (foldlS_shape _ ?_ _ _).trans ?_)
    | simp only [↓drainDone_shape, ↓endAll_shape, ↓mk_shape, ↓shape_ite, ↓fst_ite, ↓try_ite, ↓eng_ite, ↓reduceIte, ite_self, try_done, try_hold, try_trap, eng_done, eng_more, eng_wait, eng_trap]
    | split
    | intro _
    | (with_reducible show rect _ = rect _) <;> rfl
    | (with_reducible show Option.map rect _ = Option.map rect _) <;> (rw [‹getPart _ _ = some _›]; rfl)
    | (with_reducible show rect _ = rect _) <;> exact (noteIdle_rect _ _).trans rfl
    | (with_reducible show Option.map rect _ = Option.map rect _) <;> (rw [‹getPart _ _ = some _›]; exact congrArg some (noteIdle_rect _ _))
    | dsimp only
    | simp only [*])

theorem execCapFactorUpdate_shape (s : State) {nxt : State} (hn : execCapFactorUpdate s = .next nxt) : shape nxt = shape s := by
  unfold execCapFactorUpdate at hn
  refine guarded_shape hn ?_
  simp only [↓capUpdate_shape]

theorem execCoolantKind_shape (v : Nat) (s : State) {nxt : State} (hn : execCoolantKind v s = .next nxt) : shape nxt = shape s := by
  unfold execCoolantKind at hn
  refine guarded_shape hn ?_
  simp only [↓coolantKind_shape]

theorem stopClear_shape (s : State) : shape (stopClear s) = shape s := by
  unfold stopClear
  repeat' (first
    | with_reducible rfl
    | simp only [↓mk_shape]
    | split
    | intro _
    | (with_reducible show rect _ = rect _) <;> rfl)

theorem execCoolantStopClear_shape (s : State) {nxt : State} (hn : execCoolantStopClear s = .next nxt) : shape nxt = shape s := by
  unfold execCoolantStopClear at hn
  refine guarded_shape hn ?_
  simp only [↓stopClear_shape]

theorem execFlowBandRaise_shape (s : State) {nxt : State} (hn : execFlowBandRaise s = .next nxt) : shape nxt = shape s := by
  unfold execFlowBandRaise at hn
  refine guarded_shape hn ?_
  simp only [↓bandRaise_shape]

theorem flowUpdate_shape (pin : Nat) (pcis : Nat) (s : State) : shape (flowUpdate pin pcis s) = shape s := by
  unfold flowUpdate
  repeat' (first
    | with_reducible rfl
    | simp only [↓raiseM_shape, ↓mk_shape]
    | split
    | intro _
    | (with_reducible show rect _ = rect _) <;> rfl)

theorem execFlowEstimateUpdate_shape (pin : Nat) (pcis : Nat) (s : State) {nxt : State} (hn : execFlowEstimateUpdate pin pcis s = .next nxt) : shape nxt = shape s := by
  unfold execFlowEstimateUpdate at hn
  refine guarded_shape hn ?_
  simp only [↓flowUpdate_shape]

theorem powerWindow_shape (pn : Nat) (mw : Nat) (s : State) : shape (powerWindow pn mw s) = shape s := by
  unfold powerWindow
  repeat' (first
    | with_reducible rfl
    | (with_reducible refine (updPart_shape _ _ _ ?_).trans ?_)
    | simp only [↓raiseEv_shape]
    | split
    | intro _
    | (with_reducible show rect _ = rect _) <;> rfl)

theorem execPowerWindow_shape (part : Nat) (mw : Nat) (s : State) {nxt : State} (hn : execPowerWindow part mw s = .next nxt) : shape nxt = shape s := by
  unfold execPowerWindow at hn
  refine guarded_shape hn ?_
  simp only [↓powerWindow_shape]

theorem thermalDrain_shape (pn : Nat) (s : State) : shape (thermalDrain pn s) = shape s := by
  unfold thermalDrain
  repeat' (first
    | with_reducible rfl
    | (with_reducible refine (updPart_shape _ _ _ ?_).trans ?_)
    | simp only [↓drainDone_shape]
    | split
    | intro _
    | (with_reducible show rect _ = rect _) <;> rfl)

theorem tierStep_shape (f : Nat) (s : State) : shape (tierStep f s) = shape s := by
  unfold tierStep
  dsimp only
  rw [updF_shape, shape_ite]
  split
  · rw [shape_ite]
    split
    · split
      · rw [thermalDrain_shape, raiseF_shape, updF_shape]
      · rw [raiseF_shape, updF_shape]
    · rw [shape_ite, raiseF_shape, updF_shape, ite_self]
  · rw [shape_ite, updF_shape]
    split
    · rfl
    · split
      · rw [updF_shape]
      · rw [shape_ite, updF_shape, ite_self]

theorem sampleField_shape (e : Nat × List Int) (s : State) : shape (sampleField e s) = shape s := by
  unfold sampleField
  repeat' (first
    | with_reducible rfl
    | (with_reducible refine (forEach_shape _ _ _ ?_).trans ?_)
    | simp only [↓updF_shape, ↓raiseF_shape, ↓tierStep_shape]
    | split
    | intro _
    | (with_reducible show rect _ = rect _) <;> rfl)

theorem samplePlace_shape (lo : Nat) (xs : List Int) (s : State) : shape (samplePlace lo xs s) = shape s := by
  unfold samplePlace
  repeat' (first
    | with_reducible rfl
    | simp only [↓raiseM_shape, ↓mk_shape]
    | split
    | intro _
    | (with_reducible show rect _ = rect _) <;> rfl)

theorem stopRule_shape (s : State) : shape (stopRule s) = shape s := by
  unfold stopRule
  repeat' (first
    | with_reducible rfl
    | simp only [↓raiseM_shape, ↓mk_shape]
    | split
    | intro _
    | (with_reducible show rect _ = rect _) <;> rfl)

theorem sensorSample_shape (r : Readings) (s : State) : shape (sensorSample r s) = shape s := by
  unfold sensorSample
  repeat' (first
    | with_reducible rfl
    | (with_reducible refine (forEach_shape _ _ _ ?_).trans ?_)
    | simp only [↓stopRule_shape, ↓coolLimits_shape, ↓samplePlace_shape, ↓sampleField_shape]
    | split
    | intro _
    | (with_reducible show rect _ = rect _) <;> rfl)

theorem execSensorSample_shape (r : Readings) (s : State) {nxt : State} (hn : execSensorSample r s = .next nxt) : shape nxt = shape s := by
  unfold execSensorSample at hn
  refine settled_shape hn ?_
  simp only [↓sensorSample_shape]

theorem execThermalDrainTimeout_shape (part : Nat) (s : State) {nxt : State} (hn : execThermalDrainTimeout part s = .next nxt) : shape nxt = shape s := by
  unfold execThermalDrainTimeout at hn
  refine settled_shape hn ?_
  simp only [↓drainTimeout_shape]

theorem holdRelease_shape (pn : Nat) (s : State) : shape (holdRelease pn s) = shape s := by
  unfold holdRelease
  repeat' (first
    | with_reducible rfl
    | (with_reducible refine (forEach_shape _ _ _ ?_).trans ?_)
    | (with_reducible refine (updPart_shape _ _ _ ?_).trans ?_)
    | simp only [↓requestOn_shape, ↓reloadPart_shape, ↓beginPart_shape]
    | split
    | intro _
    | (with_reducible show rect _ = rect _) <;> rfl)

theorem execThermalHoldRelease_shape (part : Nat) (s : State) {nxt : State} (hn : execThermalHoldRelease part s = .next nxt) : shape nxt = shape s := by
  unfold execThermalHoldRelease at hn
  refine guarded_shape hn ?_
  simp only [↓holdRelease_shape]

theorem thermalModel_shape (s : State) : shape (thermalModel s) = shape s := by
  unfold thermalModel
  repeat' (first
    | with_reducible rfl
    | (with_reducible refine (forEach_shape _ _ _ ?_).trans ?_)
    | simp only [↓updF_shape, ↓tierStep_shape]
    | split
    | intro _
    | (with_reducible show rect _ = rect _) <;> rfl)

theorem execThermalModelUpdate_shape (s : State) {nxt : State} (hn : execThermalModelUpdate s = .next nxt) : shape nxt = shape s := by
  unfold execThermalModelUpdate at hn
  refine settled_shape hn ?_
  simp only [↓thermalModel_shape]

theorem startModel_shape (s : State) : shape (startModel s) = shape s := by
  unfold startModel
  repeat' (first
    | with_reducible rfl
    | (with_reducible refine (forEach_shape _ _ _ ?_).trans ?_)
    | simp only [↓updF_shape]
    | split
    | intro _
    | (with_reducible show rect _ = rect _) <;> rfl)

/-! ## Machine/Power.lean -/

theorem coreStep_shape (f : Nat) (s : State) : shape (coreStep f s) = shape s := by
  unfold coreStep
  repeat' (first
    | with_reducible rfl
    | simp only [↓updF_shape]
    | split)

theorem fieldFault_shape (f : Nat) (s : State) : shape (fieldFault f s) = shape s := by
  unfold fieldFault
  repeat' (first
    | with_reducible rfl
    | simp only [↓unitFault_shape]
    | split)

theorem derate_shape (f : Nat) (q : Nat) (s : State) : shape (derate f q s) = shape s := by
  unfold derate
  repeat' (first
    | with_reducible rfl
    | (with_reducible refine (forEach_shape _ _ _ ?_).trans ?_)
    | simp only [↓updF_shape, ↓updL_shape, ↓fieldFault_shape, ↓raiseF_shape]
    | split
    | intro _
    | (with_reducible show rect _ = rect _) <;> rfl)

theorem offAfterWork_shape (f : Nat) (s : State) : shape (offAfterWork f s) = shape s := by
  unfold offAfterWork
  repeat' (first
    | with_reducible rfl
    | (with_reducible refine (forEach_shape _ _ _ ?_).trans ?_)
    | simp only [↓switchOff_shape, ↓updF_shape]
    | split
    | intro _
    | (with_reducible show rect _ = rect _) <;> rfl)

theorem execDomainOffAfterWork_shape (field : Nat) (s : State) {nxt : State} (hn : execDomainOffAfterWork field s = .next nxt) : shape nxt = shape s := by
  unfold execDomainOffAfterWork at hn
  refine guarded_shape hn ?_
  simp only [↓offAfterWork_shape]

theorem rampStart_shape (f : Nat) (slow : Bool) (s : State) : shape (rampStart f slow s) = shape s := rfl

theorem rampTry_shape (f : Nat) (core : Nat) (ana : Nat) (s : State) : shape (rampTry f core ana s) = shape s := by
  unfold rampTry
  repeat' (first
    | with_reducible rfl
    | simp only [↓rampStart_shape, ↓countF_shape, ↓updF_shape]
    | split)

theorem execDomainRampStart_shape (field : Nat) (vcoreHeadroom : Nat) (vanaHeadroom : Nat) (s : State) {nxt : State} (hn : execDomainRampStart field vcoreHeadroom vanaHeadroom s = .next nxt) : shape nxt = shape s := by
  unfold execDomainRampStart at hn
  refine guarded_shape hn ?_
  simp only [↓rampTry_shape]

theorem overvoltage_shape (mv : Nat) (s : State) : shape (overvoltage mv s) = shape s := by
  unfold overvoltage
  repeat' (first
    | with_reducible rfl
    | simp only [↓raiseM_shape, ↓mk_shape]
    | split
    | intro _
    | (with_reducible show rect _ = rect _) <;> rfl)

theorem execInputOvervoltageWarn_shape (mv : Nat) (s : State) {nxt : State} (hn : execInputOvervoltageWarn mv s = .next nxt) : shape nxt = shape s := by
  unfold execInputOvervoltageWarn at hn
  refine guarded_shape hn ?_
  simp only [↓overvoltage_shape]

theorem powerUp_shape (s : State) : shape (powerUp s) = shape s := by
  unfold powerUp
  repeat' (first
    | with_reducible rfl
    | (with_reducible refine (forEach_shape _ _ _ ?_).trans ?_)
    | simp only [↓updF_shape, ↓mk_shape]
    | split
    | intro _
    | (with_reducible show rect _ = rect _) <;> rfl)

theorem j1Connect_shape (mv : Nat) (s : State) : shape (j1Connect mv s) = shape s := by
  unfold j1Connect
  repeat' (first
    | with_reducible rfl
    | simp only [↓powerUp_shape, ↓mk_shape]
    | split
    | intro _
    | (with_reducible show rect _ = rect _) <;> rfl)

theorem execJ1Connect_shape (mv : Nat) (s : State) {nxt : State} (hn : execJ1Connect mv s = .next nxt) : shape nxt = shape s := by
  unfold execJ1Connect at hn
  refine guarded_shape hn ?_
  simp only [↓j1Connect_shape]

theorem timeAcquired_shape (l : Nat) (s : State) : shape (timeAcquired l s) = shape s := rfl

theorem execLanternTimeAcquired_shape (l : Nat) (s : State) {nxt : State} (hn : execLanternTimeAcquired l s = .next nxt) : shape nxt = shape s := by
  unfold execLanternTimeAcquired at hn
  refine guarded_shape hn ?_
  simp only [↓timeAcquired_shape]

theorem repairSlots_shape (ls : List Nat) (s : State) : shape (repairSlots ls s) = shape s := by
  unfold repairSlots
  repeat' (first
    | with_reducible rfl
    | (with_reducible refine (forEach_shape _ _ _ ?_).trans ?_)
    | simp only [↓moveSlot_shape, ↓remapOne_shape]
    | split
    | intro _
    | (with_reducible show rect _ = rect _) <;> rfl)

theorem quadrantBad_shape (f : Nat) (q : Nat) (s : State) : shape (quadrantBad f q s) = shape s := by
  unfold quadrantBad
  repeat' (first
    | with_reducible rfl
    | simp only [↓updF_shape, ↓repairSlots_shape, ↓markInService_shape, ↓fieldFault_shape, ↓raiseF_shape]
    | split)

theorem sensePoint_shape (f : Nat) (i : Nat) (mA : Nat) (r : Option Nat) (s : State) : shape (sensePoint f i mA r s) = shape s := by
  unfold sensePoint
  repeat' (first
    | with_reducible rfl
    | simp only [↓quadrantBad_shape, ↓updF_shape, ↓raiseF_shape, ↓derate_shape]
    | split)

theorem pathSample_shape (f : Nat) (pts : List (Option Nat)) (mA : Nat) (s : State) : shape (pathSample f pts mA s) = shape s := by
  unfold pathSample
  repeat' (first
    | with_reducible rfl
    | (with_reducible refine (forEach_shape _ _ _ ?_).trans ?_)
    | simp only [↓sensePoint_shape]
    | split
    | intro _
    | (with_reducible show rect _ = rect _) <;> rfl)

theorem execPathResistanceSample_shape (field : Nat) (points : List (Option Nat)) (mA : Nat) (s : State) {nxt : State} (hn : execPathResistanceSample field points mA s = .next nxt) : shape nxt = shape s := by
  unfold execPathResistanceSample at hn
  refine guarded_shape hn ?_
  simp only [↓pathSample_shape]

theorem powerDownRestart_shape (s : State) : shape (powerDownRestart s) = shape s := by
  unfold powerDownRestart
  repeat' (first
    | with_reducible rfl
    | simp only [↓powerUp_shape]
    | split)

theorem execPowerDownRestart_shape (s : State) {nxt : State} (hn : execPowerDownRestart s = .next nxt) : shape nxt = shape s := by
  unfold execPowerDownRestart at hn
  refine guarded_shape hn ?_
  simp only [↓powerDownRestart_shape]

theorem pwrEnAssert_shape (slot : Nat) (s : State) : shape (pwrEnAssert slot s) = shape s := by
  unfold pwrEnAssert
  repeat' (first
    | with_reducible rfl
    | simp only [↓powerUp_shape, ↓mk_shape]
    | split
    | intro _
    | (with_reducible show rect _ = rect _) <;> rfl)

theorem execPwrEnAssert_shape (slotId : Fin 16) (s : State) {nxt : State} (hn : execPwrEnAssert slotId s = .next nxt) : shape nxt = shape s := by
  unfold execPwrEnAssert at hn
  refine guarded_shape hn ?_
  simp only [↓pwrEnAssert_shape]

theorem pwrEnDeassert_shape (s : State) : shape (pwrEnDeassert s) = shape s := by
  unfold pwrEnDeassert
  repeat' (first
    | with_reducible rfl
    | (with_reducible refine (forEach_shape _ _ _ ?_).trans ?_)
    | simp only [↓endAll_shape, ↓stopPart_shape, ↓mk_shape]
    | split
    | intro _
    | (with_reducible show rect _ = rect _) <;> rfl)

theorem execPwrEnDeassert_shape (s : State) {nxt : State} (hn : execPwrEnDeassert s = .next nxt) : shape nxt = shape s := by
  unfold execPwrEnDeassert at hn
  refine settled_shape hn ?_
  simp only [↓pwrEnDeassert_shape]

theorem rampTimeout_shape (f : Nat) (s : State) : shape (rampTimeout f s) = shape s := by
  unfold rampTimeout
  repeat' (first
    | with_reducible rfl
    | simp only [↓rampStart_shape]
    | split)

theorem execRampHeadroomTimeout_shape (field : Nat) (s : State) {nxt : State} (hn : execRampHeadroomTimeout field s = .next nxt) : shape nxt = shape s := by
  unfold execRampHeadroomTimeout at hn
  refine guarded_shape hn ?_
  simp only [↓rampTimeout_shape]

theorem tripRelease_shape (s : State) : shape (tripRelease s) = shape s := by
  unfold tripRelease
  repeat' (first
    | with_reducible rfl
    | simp only [↓mk_shape]
    | split
    | intro _
    | (with_reducible show rect _ = rect _) <;> rfl)

theorem execThermTripRelease_shape (s : State) {nxt : State} (hn : execThermTripRelease s = .next nxt) : shape nxt = shape s := by
  unfold execThermTripRelease at hn
  refine guarded_shape hn ?_
  simp only [↓tripRelease_shape]

theorem timeBroadcast_shape (s : State) : shape (timeBroadcast s) = shape s := by
  unfold timeBroadcast
  repeat' (first
    | with_reducible rfl
    | (with_reducible refine (forEach_shape _ _ _ ?_).trans ?_)
    | simp only [↓rimSend_shape]
    | split
    | intro _
    | (with_reducible show rect _ = rect _) <;> rfl)

theorem execTimeBaseBroadcast_shape (s : State) {nxt : State} (hn : execTimeBaseBroadcast s = .next nxt) : shape nxt = shape s := by
  unfold execTimeBaseBroadcast at hn
  refine guarded_shape hn ?_
  simp only [↓timeBroadcast_shape]

theorem execVcoreVoltageStep_shape (field : Nat) (s : State) {nxt : State} (hn : execVcoreVoltageStep field s = .next nxt) : shape nxt = shape s := by
  unfold execVcoreVoltageStep at hn
  refine guarded_shape hn ?_
  simp only [↓coreStep_shape]

theorem refill_shape (l : Nat) (s : State) : shape (refill l s) = shape s := by
  unfold refill
  repeat' (first
    | with_reducible rfl
    | simp only [↓restoreLines_shape, ↓loadLantern_shape]
    | split)

theorem rampDone_shape (f : Nat) (s : State) : shape (rampDone f s) = shape s := by
  unfold rampDone
  repeat' (first
    | with_reducible rfl
    | simp only [↓updF_shape, ↓updBank_shape, ↓refill_shape, ↓updL_shape]
    | split)

/-! ## Machine/Bringup.lean -/

theorem remapBad_shape (l : Nat) (a : Nat) (s : State) : shape (remapBad l a s) = shape s := by
  unfold remapBad
  repeat' (first
    | with_reducible rfl
    | simp only [↓raiseL_shape, ↓updL_shape]
    | split)

theorem arrayBad_shape (typ : Nat) (source : Nat) (detail : Nat) (l : Nat) (a : Nat) (s : State) : shape (arrayBad typ source detail l a s) = shape s := by
  unfold arrayBad
  repeat' (first
    | with_reducible rfl
    | simp only [↓updArr_shape, ↓remapBad_shape, ↓pairCommit_shape, ↓addRepair_shape]
    | split)

theorem noImage_shape (kind : Nat) (s : State) : shape (noImage kind s) = shape s := by
  unfold noImage
  repeat' (first
    | with_reducible rfl
    | simp only [↓raiseEv_shape, ↓mk_shape]
    | split
    | intro _
    | (with_reducible show rect _ = rect _) <;> rfl)

theorem setKind_shape (s : State) (kind : Nat) (k : FwKind) : shape (setKind s kind k) = shape s := rfl

theorem bootKind_shape (kind : Nat) (s : State) : shape (bootKind kind s) = shape s := by
  unfold bootKind
  repeat' (first
    | with_reducible rfl
    | simp only [↓setKind_shape, ↓noImage_shape]
    | split)

theorem cableInsert_shape (cage : Nat) (ok : Bool) (s : State) : shape (cableInsert cage ok s) = shape s := by
  unfold cableInsert
  repeat' (first
    | with_reducible rfl
    | simp only [↓updLink_shape, ↓raiseM_shape, ↓updZ_shape]
    | split)

theorem pairLoad_shape (l : Nat) (a : Nat) (pay : Nat) (s : State) : shape (pairLoad l a pay s) = shape s := rfl

theorem dropChunk_shape (l : Nat) (n : Nat) (s : State) : shape (dropChunk l n s) = shape s := by
  unfold dropChunk
  repeat' (first
    | with_reducible rfl
    | (with_reducible refine (updPart_shape _ _ _ ?_).trans ?_)
    | simp only [↓mk_shape]
    | split
    | intro _
    | (with_reducible show rect _ = rect _) <;> rfl)

theorem uncalibrated_shape (l : Nat) (a : Nat) (s : State) : shape (uncalibrated l a s) = shape s := by
  unfold uncalibrated
  repeat' (first
    | with_reducible rfl
    | simp only [↓arrayBad_shape, ↓dropChunk_shape]
    | split)

theorem reconcileRec_shape (key : Nat) (s : State) : shape (reconcileRec key s) = shape s := by
  unfold reconcileRec
  repeat' (first
    | with_reducible rfl
    | (with_reducible refine (forEach_shape _ _ _ ?_).trans ?_)
    | simp only [↓raiseM_shape, ↓setCal_shape, ↓pairLoad_shape, ↓uncalibrated_shape]
    | split
    | intro _
    | (with_reducible show rect _ = rect _) <;> rfl)

theorem calReconcile_shape (s : State) : shape (calReconcile s) = shape s := by
  unfold calReconcile
  repeat' (first
    | with_reducible rfl
    | (with_reducible refine (forEach_shape _ _ _ ?_).trans ?_)
    | simp only [↓reconcileRec_shape, ↓mk_shape]
    | split
    | intro _
    | (with_reducible show rect _ = rect _) <;> rfl)

theorem checkDrift_shape (l : Nat) (a : Nat) (s : State) : shape (checkDrift l a s) = shape s := by
  unfold checkDrift
  simp only [↓driftUpdate_shape, ↓takeSamples_shape, ↓updArr_shape]

theorem cisternTraining_shape (failed : List Nat) (s : State) : shape (cisternTraining failed s) = shape s := by
  unfold cisternTraining
  repeat' (first
    | with_reducible rfl
    | (with_reducible refine (forEach_shape _ _ _ ?_).trans ?_)
    | simp only [↓raiseM_shape, ↓addRepair_shape, ↓gateTile_shape, ↓mk_shape]
    | split
    | intro _
    | (with_reducible show rect _ = rect _) <;> rfl)

theorem deriveAlias_shape (s : State) : shape (deriveAlias s) = shape s := by
  unfold deriveAlias
  repeat' (first
    | with_reducible rfl
    | simp only [↓mk_shape]
    | split
    | intro _
    | (with_reducible show rect _ = rect _) <;> rfl)

theorem dormantCheck_shape (s : State) : shape (dormantCheck s) = shape s := by
  unfold dormantCheck
  repeat' (first
    | with_reducible rfl
    | simp only [↓mk_shape]
    | split
    | intro _
    | (with_reducible show rect _ = rect _) <;> rfl)

theorem execCableInsert_shape (cage : Nat) (answers : Bool) (powerOk : Bool) (s : State) {nxt : State} (hn : execCableInsert cage answers powerOk s = .next nxt) : shape nxt = shape s := by
  unfold execCableInsert at hn
  refine guarded_shape hn ?_
  simp only [↓cableInsert_shape]

theorem execCalibrationReconcile_shape (s : State) {nxt : State} (hn : execCalibrationReconcile s = .next nxt) : shape nxt = shape s := by
  unfold execCalibrationReconcile at hn
  refine guarded_shape hn ?_
  simp only [↓calReconcile_shape]

theorem execCisternTrainingDone_shape (failed : List Nat) (s : State) {nxt : State} (hn : execCisternTrainingDone failed s = .next nxt) : shape nxt = shape s := by
  unfold execCisternTrainingDone at hn
  refine guarded_shape hn ?_
  simp only [↓cisternTraining_shape]

theorem execDormantRecordCheck_shape (s : State) {nxt : State} (hn : execDormantRecordCheck s = .next nxt) : shape nxt = shape s := by
  unfold execDormantRecordCheck at hn
  refine guarded_shape hn ?_
  simp only [↓dormantCheck_shape]

theorem routerBad_shape (r : Nat) (s : State) : shape (routerBad r s) = shape s := by
  unfold routerBad
  repeat' (first
    | with_reducible rfl
    | simp only [↓markBad_shape, ↓addRepair_shape, ↓mk_shape]
    | split
    | intro _
    | (with_reducible show rect _ = rect _) <;> rfl)

theorem islandBadNow_shape (f : Nat) (s : State) : shape (islandBadNow f s) = shape s := by
  unfold islandBadNow
  repeat' (first
    | with_reducible rfl
    | (with_reducible refine (forEach_shape _ _ _ ?_).trans ?_)
    | simp only [↓addRepair_shape, ↓updF_shape, ↓routerBad_shape, ↓raiseF_shape]
    | split
    | intro _
    | (with_reducible show rect _ = rect _) <;> rfl)

theorem selfTestDone_shape (routers : List Nat) (islands : List Nat) (s : State) : shape (selfTestDone routers islands s) = shape s := by
  unfold selfTestDone
  repeat' (first
    | with_reducible rfl
    | (with_reducible refine (forEach_shape _ _ _ ?_).trans ?_)
    | simp only [↓routerBad_shape, ↓islandBadNow_shape, ↓mk_shape]
    | split
    | intro _
    | (with_reducible show rect _ = rect _) <;> rfl)

theorem execFieldSelfTestDone_shape (badRouters : List Nat) (badIslands : List Nat) (s : State) {nxt : State} (hn : execFieldSelfTestDone badRouters badIslands s = .next nxt) : shape nxt = shape s := by
  unfold execFieldSelfTestDone at hn
  refine guarded_shape hn ?_
  simp only [↓selfTestDone_shape]

theorem reportLogs_shape (s : State) : shape (reportLogs s) = shape s := by
  unfold reportLogs
  repeat' (first
    | with_reducible rfl
    | (with_reducible refine (forEach_shape _ _ _ ?_).trans ?_)
    | simp only [↓raiseM_shape, ↓mk_shape]
    | split
    | intro _
    | (with_reducible show rect _ = rect _) <;> rfl)

theorem fwMeasured_shape (aOk : Bool) (bOk : Bool) (s : State) : shape (fwMeasured aOk bOk s) = shape s := by
  unfold fwMeasured
  repeat' (first
    | with_reducible rfl
    | (with_reducible refine (forEach_shape _ _ _ ?_).trans ?_)
    | simp only [↓bootKind_shape, ↓raiseEv_shape, ↓gateTile_shape, ↓reportLogs_shape, ↓startModel_shape, ↓raiseM_shape, ↓mk_shape]
    | split
    | intro _
    | (with_reducible show rect _ = rect _) <;> rfl)

theorem execFirmwareMeasured_shape (aOk : Bool) (bOk : Bool) (s : State) {nxt : State} (hn : execFirmwareMeasured aOk bOk s = .next nxt) : shape nxt = shape s := by
  unfold execFirmwareMeasured at hn
  refine guarded_shape hn ?_
  simp only [↓fwMeasured_shape]

theorem hostDown_shape (p : HostPort) (s : State) : shape (hostDown p s) = shape s := rfl

theorem execHostLinkDown_shape (p : HostPort) (s : State) {nxt : State} (hn : execHostLinkDown p s = .next nxt) : shape nxt = shape s := by
  unfold execHostLinkDown at hn
  refine guarded_shape hn ?_
  simp only [↓hostDown_shape]

theorem hostTimeout_shape (p : HostPort) (s : State) : shape (hostTimeout p s) = shape s := by
  unfold hostTimeout
  repeat' (first
    | with_reducible rfl
    | (with_reducible refine (forEach_shape _ _ _ ?_).trans ?_)
    | simp only [↓resetOrHold_shape, ↓updLink_shape]
    | split
    | intro _
    | (with_reducible show rect _ = rect _) <;> rfl)

theorem execHostLinkHoldTimeout_shape (p : HostPort) (s : State) {nxt : State} (hn : execHostLinkHoldTimeout p s = .next nxt) : shape nxt = shape s := by
  unfold execHostLinkHoldTimeout at hn
  refine settled_shape hn ?_
  simp only [↓hostTimeout_shape]

theorem linkUp_shape (p : HostPort) (s : State) : shape (linkUp p s) = shape s := rfl

theorem hostReturn_shape (p : HostPort) (s : State) : shape (hostReturn p s) = shape s := by
  unfold hostReturn
  repeat' (first
    | with_reducible rfl
    | (with_reducible refine (forEach_shape _ _ _ ?_).trans ?_)
    | simp only [↓sendHost_shape, ↓linkUp_shape, ↓updLink_shape]
    | split
    | intro _
    | (with_reducible show rect _ = rect _) <;> rfl)

theorem execHostLinkReturn_shape (p : HostPort) (s : State) {nxt : State} (hn : execHostLinkReturn p s = .next nxt) : shape nxt = shape s := by
  unfold execHostLinkReturn at hn
  refine guarded_shape hn ?_
  simp only [↓hostReturn_shape]

theorem linkTrainedHost_shape (p : HostPort) (ok : Bool) (s : State) : shape (linkTrainedHost p ok s) = shape s := by
  unfold linkTrainedHost
  repeat' (first
    | with_reducible rfl
    | simp only [↓linkUp_shape, ↓raiseM_shape, ↓updLink_shape]
    | split)

theorem execHostLinkTrained_shape (p : HostPort) (ok : Bool) (s : State) {nxt : State} (hn : execHostLinkTrained p ok s = .next nxt) : shape nxt = shape s := by
  unfold execHostLinkTrained at hn
  refine guarded_shape hn ?_
  simp only [↓linkTrainedHost_shape]

theorem linkRetrain_shape (p : HostPort) (ok : Bool) (s : State) : shape (linkRetrain p ok s) = shape s := by
  unfold linkRetrain
  repeat' (first
    | with_reducible rfl
    | simp only [↓linkUp_shape]
    | split)

theorem execHostPortRetrain_shape (p : HostPort) (ok : Bool) (s : State) {nxt : State} (hn : execHostPortRetrain p ok s = .next nxt) : shape nxt = shape s := by
  unfold execHostPortRetrain at hn
  refine guarded_shape hn ?_
  simp only [↓linkRetrain_shape]

theorem lampError_shape (s : State) : shape (lampError s) = shape s := by
  unfold lampError
  repeat' (first
    | with_reducible rfl
    | simp only [↓raiseEv_shape, ↓mk_shape]
    | split
    | intro _
    | (with_reducible show rect _ = rect _) <;> rfl)

theorem execLamplighterError_shape (s : State) {nxt : State} (hn : execLamplighterError s = .next nxt) : shape nxt = shape s := by
  unfold execLamplighterError at hn
  refine guarded_shape hn ?_
  simp only [↓lampError_shape]

theorem lampStart_shape (s : State) : shape (lampStart s) = shape s := by
  unfold lampStart
  repeat' (first
    | with_reducible rfl
    | simp only [↓noImage_shape, ↓deriveAlias_shape, ↓bootKind_shape, ↓mk_shape]
    | split
    | intro _
    | (with_reducible show rect _ = rect _) <;> rfl)

theorem execLamplighterFwStart_shape (s : State) {nxt : State} (hn : execLamplighterFwStart s = .next nxt) : shape nxt = shape s := by
  unfold execLamplighterFwStart at hn
  refine guarded_shape hn ?_
  simp only [↓lampStart_shape]

theorem execLockstepMismatch_shape (p : Proc) (s : State) {nxt : State} (hn : execLockstepMismatch p s = .next nxt) : shape nxt = shape s := by
  unfold execLockstepMismatch at hn
  refine guarded_shape hn ?_
  repeat' (first
    | with_reducible rfl
    | simp only [↓procHalts_shape, ↓lampError_shape]
    | split)

theorem neighbourDone_shape (votes : List (Nat × Nat)) (s : State) : shape (neighbourDone votes s) = shape s := by
  unfold neighbourDone
  repeat' (first
    | with_reducible rfl
    | (with_reducible refine (forEach_shape _ _ _ ?_).trans ?_)
    | simp only [↓markBad_shape, ↓testLink_shape, ↓mk_shape]
    | split
    | intro _
    | (with_reducible show rect _ = rect _) <;> rfl)

theorem execNeighbourTestDone_shape (votes : List (Nat × Nat)) (s : State) {nxt : State} (hn : execNeighbourTestDone votes s = .next nxt) : shape nxt = shape s := by
  unfold execNeighbourTestDone at hn
  refine guarded_shape hn ?_
  simp only [↓neighbourDone_shape]

theorem perstAssert_shape (p : HostPort) (s : State) : shape (perstAssert p s) = shape s := by
  unfold perstAssert
  repeat' (first
    | with_reducible rfl
    | (with_reducible refine (forEach_shape _ _ _ ?_).trans ?_)
    | simp only [↓updLink_shape, ↓resetOrHold_shape]
    | split
    | intro _
    | (with_reducible show rect _ = rect _) <;> rfl)

theorem execPerstAssert_shape (p : HostPort) (s : State) {nxt : State} (hn : execPerstAssert p s = .next nxt) : shape nxt = shape s := by
  unfold execPerstAssert at hn
  refine settled_shape hn ?_
  simp only [↓perstAssert_shape]

theorem perstDeassert_shape (p : HostPort) (s : State) : shape (perstDeassert p s) = shape s := rfl

theorem execPerstDeassert_shape (p : HostPort) (s : State) {nxt : State} (hn : execPerstDeassert p s = .next nxt) : shape nxt = shape s := by
  unfold execPerstDeassert at hn
  refine guarded_shape hn ?_
  simp only [↓perstDeassert_shape]

theorem readyNow_shape (s : State) : shape (readyNow s) = shape s := by
  unfold readyNow
  repeat' (first
    | with_reducible rfl
    | simp only [↓mk_shape]
    | split
    | intro _
    | (with_reducible show rect _ = rect _) <;> rfl)

theorem execReadyAssert_shape (s : State) {nxt : State} (hn : execReadyAssert s = .next nxt) : shape nxt = shape s := by
  unfold execReadyAssert at hn
  refine guarded_shape hn ?_
  simp only [↓readyNow_shape]

theorem makeSlots_shape (fresh : Bool) (f : Nat) (s : State) : shape (makeSlots fresh f s) = shape s := by
  unfold makeSlots
  repeat' (first
    | with_reducible rfl
    | (with_reducible refine (forEach_shape _ _ _ ?_).trans ?_)
    | simp only [↓updF_shape, ↓moveSlot_shape]
    | split
    | intro _
    | (with_reducible show rect _ = rect _) <;> rfl)

theorem mapLinks_shape (s : State) : shape (mapLinks s) = shape s := by
  unfold mapLinks
  repeat' (first
    | with_reducible rfl
    | (with_reducible refine (forEach_shape _ _ _ ?_).trans ?_)
    | simp only [↓updDir_shape]
    | split
    | intro _
    | (with_reducible show rect _ = rect _) <;> rfl)

theorem startErase_shape (xs : List (Nat × Nat)) (s : State) : shape (startErase xs s) = shape s := by
  unfold startErase
  repeat' (first
    | with_reducible rfl
    | (with_reducible refine (forEach_shape _ _ _ ?_).trans ?_)
    | simp only [↓vprogUse_shape, ↓needForWork_shape, ↓bankBusy_shape, ↓mk_shape]
    | split
    | intro _
    | (with_reducible show rect _ = rect _) <;> rfl)

theorem repairApply_shape (s : State) : shape (repairApply s) = shape s := by
  unfold repairApply
  repeat' (first
    | with_reducible rfl
    | (with_reducible refine (forEach_shape _ _ _ ?_).trans ?_)
    | simp only [↓startErase_shape, ↓makeSlots_shape, ↓raiseF_shape, ↓recheckRoutes_shape, ↓mapLinks_shape, ↓needForWork_shape, ↓mk_shape]
    | split
    | intro _
    | (with_reducible show rect _ = rect _) <;> rfl)

theorem execRepairMapApply_shape (s : State) {nxt : State} (hn : execRepairMapApply s = .next nxt) : shape nxt = shape s := by
  unfold execRepairMapApply at hn
  refine guarded_shape hn ?_
  simp only [↓repairApply_shape]

theorem failRetention_shape (l : Nat) (a : Nat) (diff : Nat) (s : State) : shape (failRetention l a diff s) = shape s := by
  unfold failRetention
  repeat' (first
    | with_reducible rfl
    | simp only [↓pairCommit_shape, ↓updArr_shape, ↓dropChunk_shape, ↓raiseL_shape]
    | split)

theorem retentionOne_shape (e : Nat × Nat) (s : State) : shape (retentionOne e s) = shape s := by
  delta retentionOne
  extract_lets l a s1 A sg
  have h1 : shape s1 = shape s := checkDrift_shape l a s
  clear_value s1
  dsimp only
  have h2 : ∀ n f, shape (updArr { s1 with draws := n } l a f) = shape s := fun n f => h1
  split
  · rw [h2]
  · rw [failRetention_shape, h2]

theorem retentionDone_shape (s : State) : shape (retentionDone s) = shape s := by
  unfold retentionDone
  repeat' (first
    | with_reducible rfl
    | (with_reducible refine (forEach_shape _ _ _ ?_).trans ?_)
    | simp only [↓retentionOne_shape, ↓mk_shape]
    | split
    | intro _
    | (with_reducible show rect _ = rect _) <;> rfl)

theorem execRetentionCheckDone_shape (_event : Unit) (s : State) {nxt : State} (hn : execRetentionCheckDone _event s = .next nxt) : shape nxt = shape s := by
  unfold execRetentionCheckDone at hn
  refine guarded_shape hn ?_
  simp only [↓retentionDone_shape]

theorem romSelftest_shape (pass : Bool) (s : State) : shape (romSelftest pass s) = shape s := by
  unfold romSelftest
  repeat' (first
    | with_reducible rfl
    | simp only [↓raiseEv_shape, ↓lampError_shape, ↓mk_shape]
    | split
    | intro _
    | (with_reducible show rect _ = rect _) <;> rfl)

theorem execRomSelftestDone_shape (pass : Bool) (s : State) {nxt : State} (hn : execRomSelftestDone pass s = .next nxt) : shape nxt = shape s := by
  unfold execRomSelftestDone at hn
  refine guarded_shape hn ?_
  simp only [↓romSelftest_shape]

/-! ## Machine/Clock.lean -/

theorem feedAll_shape (s : State) : shape (feedAll s) = shape s := by
  unfold feedAll
  repeat' (first
    | with_reducible rfl
    | (with_reducible refine (forEach_shape _ _ _ ?_).trans ?_)
    | simp only [↓feedT_shape, ↓feedL_shape]
    | split
    | intro _
    | (with_reducible show rect _ = rect _) <;> rfl)

theorem moveCopies_shape (s : State) : shape (moveCopies s) = shape s := by
  unfold moveCopies
  repeat' (first
    | with_reducible rfl
    | simp only [↓mk_shape]
    | split
    | intro _
    | (with_reducible show rect _ = rect _) <;> rfl)

theorem tickLantern_shape (t : Nat) (l : Nat) (s : State) : shape (tickLantern t l s) = shape s := by
  unfold tickLantern
  repeat' (first
    | with_reducible rfl
    | (with_reducible refine (forEach_shape _ _ _ ?_).trans ?_)
    | simp only [↓countL_shape]
    | split
    | intro _
    | (with_reducible show rect _ = rect _) <;> rfl)

/-! ## Machine/Commands.lean -/

theorem done_shape (s : State) : shape (done s).1 = shape s := rfl

theorem doneWith_shape (r : Nat) (s : State) : shape (doneWith r s).1 = shape s := rfl

theorem fails_shape (st : Nat) (s : State) : shape (fails st s).1 = shape s := rfl

theorem failsData_shape (off : Nat) (s : State) : shape (failsData off s).1 = shape s := rfl

theorem failsField_shape (off : Nat) (s : State) : shape (failsField off s).1 = shape s := rfl

theorem fieldsThen_shape (bad : Option Nat) (k : State → Done) (s : State) (h_k : ∀ v0, shape ((k v0).1) = shape v0) : shape ((fieldsThen bad k s).1) = shape s := by
  unfold fieldsThen
  repeat' (first
    | with_reducible rfl
    | assumption
    | (with_reducible refine (foldlS_shape _ ?_ _ _).trans ?_)
    | simp only [↓failsField_shape, ↓mk_shape, ↓shape_ite, ↓fst_ite, ↓try_ite, ↓eng_ite, ↓reduceIte, ite_self, try_done, try_hold, try_trap, eng_done, eng_more, eng_wait, eng_trap, ↓h_k]
    | split
    | intro _
    | (with_reducible show rect _ = rect _) <;> rfl
    | (with_reducible show Option.map rect _ = Option.map rect _) <;> (rw [‹getPart _ _ = some _›]; rfl)
    | (with_reducible show rect _ = rect _) <;> exact (noteIdle_rect _ _).trans rfl
    | (with_reducible show Option.map rect _ = Option.map rect _) <;> (rw [‹getPart _ _ = some _›]; exact congrArg some (noteIdle_rect _ _))
    | dsimp only
    | simp only [*]
    | (have h' := congrArg (fun o => shape o.1) (‹_ = Prod.mk _ _›); simp only [↓failsField_shape, ↓mk_shape, ↓shape_ite, ↓fst_ite, ↓try_ite, ↓eng_ite, ↓reduceIte, ite_self, try_done, try_hold, try_trap, eng_done, eng_more, eng_wait, eng_trap, ↓h_k] at h'; first | exact h'.symm | exact h' | exact h'.symm.trans (by assumption)))

theorem later_shape (s : State) : shape (later s).1 = shape s := rfl

theorem partCmd_shape (who : Issuer) (states : PState → Bool) (e : Entry) (k : Partition → State → Done) (s : State)
    (h : ∀ p, getPart s (partNo e) = some p → shape (k p s).1 = shape s) : shape (partCmd who states e k s).1 = shape s := by
  unfold partCmd
  split
  · rfl
  · split
    · rfl
    · split
      · rfl
      · next hp =>
        split
        · exact h _ hp
        · rfl

theorem passBy_shape (e : Entry) (s : State) : shape (passBy e s) = shape s := by
  unfold passBy
  repeat' (first
    | with_reducible rfl
    | simp only [↓mk_shape]
    | split
    | intro _
    | (with_reducible show rect _ = rect _) <;> rfl)

theorem pfCmd_shape (e : Entry) (k : State → Done) (s : State) (h_k : ∀ v0, shape ((k v0).1) = shape v0) : shape ((pfCmd e k s).1) = shape s := by
  unfold pfCmd
  repeat' (first
    | with_reducible rfl
    | assumption
    | (with_reducible refine (foldlS_shape _ ?_ _ _).trans ?_)
    | simp only [↓fails_shape, ↓mk_shape, ↓shape_ite, ↓fst_ite, ↓try_ite, ↓eng_ite, ↓reduceIte, ite_self, try_done, try_hold, try_trap, eng_done, eng_more, eng_wait, eng_trap, ↓h_k]
    | split
    | intro _
    | (with_reducible show rect _ = rect _) <;> rfl
    | (with_reducible show Option.map rect _ = Option.map rect _) <;> (rw [‹getPart _ _ = some _›]; rfl)
    | (with_reducible show rect _ = rect _) <;> exact (noteIdle_rect _ _).trans rfl
    | (with_reducible show Option.map rect _ = Option.map rect _) <;> (rw [‹getPart _ _ = some _›]; exact congrArg some (noteIdle_rect _ _))
    | dsimp only
    | simp only [*]
    | (have h' := congrArg (fun o => shape o.1) (‹_ = Prod.mk _ _›); simp only [↓fails_shape, ↓mk_shape, ↓shape_ite, ↓fst_ite, ↓try_ite, ↓eng_ite, ↓reduceIte, ite_self, try_done, try_hold, try_trap, eng_done, eng_more, eng_wait, eng_trap, ↓h_k] at h'; first | exact h'.symm | exact h' | exact h'.symm.trans (by assumption)))

theorem takeCmd_shape (e : Entry) (body : Nat → State → Done) (s : State) (h_body : ∀ v0 v1, shape ((body v0 v1).1) = shape v1) : shape (takeCmd e body s) = shape s := by
  unfold takeCmd
  repeat' (first
    | with_reducible rfl
    | assumption
    | (with_reducible refine (foldlS_shape _ ?_ _ _).trans ?_)
    | simp only [↓setQp_shape, ↓postPlain_shape, ↓mk_shape, ↓shape_ite, ↓fst_ite, ↓try_ite, ↓eng_ite, ↓reduceIte, ite_self, try_done, try_hold, try_trap, eng_done, eng_more, eng_wait, eng_trap, ↓h_body]
    | split
    | intro _
    | (with_reducible show rect _ = rect _) <;> rfl
    | (with_reducible show Option.map rect _ = Option.map rect _) <;> (rw [‹getPart _ _ = some _›]; rfl)
    | (with_reducible show rect _ = rect _) <;> exact (noteIdle_rect _ _).trans rfl
    | (with_reducible show Option.map rect _ = Option.map rect _) <;> (rw [‹getPart _ _ = some _›]; exact congrArg some (noteIdle_rect _ _))
    | dsimp only
    | simp only [*]
    | (have h' := congrArg (fun o => shape o.1) (‹_ = Prod.mk _ _›); simp only [↓setQp_shape, ↓postPlain_shape, ↓mk_shape, ↓shape_ite, ↓fst_ite, ↓try_ite, ↓eng_ite, ↓reduceIte, ite_self, try_done, try_hold, try_trap, eng_done, eng_more, eng_wait, eng_trap, ↓h_body] at h'; first | exact h'.symm | exact h' | exact h'.symm.trans (by assumption)))

theorem takeLamp_shape (e : Entry) (body : Nat → State → Done) (s : State) (h_body : ∀ v0 v1, shape ((body v0 v1).1) = shape v1) : shape (takeLamp e body s) = shape s := by
  unfold takeLamp
  repeat' (first
    | with_reducible rfl
    | assumption
    | (with_reducible refine (takeCmd_shape _ _ _ ?_).trans ?_)
    | (with_reducible refine (foldlS_shape _ ?_ _ _).trans ?_)
    | simp only [↓passBy_shape, ↓mk_shape, ↓shape_ite, ↓fst_ite, ↓try_ite, ↓eng_ite, ↓reduceIte, ite_self, try_done, try_hold, try_trap, eng_done, eng_more, eng_wait, eng_trap, ↓h_body]
    | split
    | intro _
    | (with_reducible show rect _ = rect _) <;> rfl
    | (with_reducible show Option.map rect _ = Option.map rect _) <;> (rw [‹getPart _ _ = some _›]; rfl)
    | (with_reducible show rect _ = rect _) <;> exact (noteIdle_rect _ _).trans rfl
    | (with_reducible show Option.map rect _ = Option.map rect _) <;> (rw [‹getPart _ _ = some _›]; exact congrArg some (noteIdle_rect _ _))
    | dsimp only
    | simp only [*]
    | (have h' := congrArg (fun o => shape o.1) (‹_ = Prod.mk _ _›); simp only [↓passBy_shape, ↓mk_shape, ↓shape_ite, ↓fst_ite, ↓try_ite, ↓eng_ite, ↓reduceIte, ite_self, try_done, try_hold, try_trap, eng_done, eng_more, eng_wait, eng_trap, ↓h_body] at h'; first | exact h'.symm | exact h' | exact h'.symm.trans (by assumption)))

theorem waitFor_shape (e : Entry) (sqhd : Nat) (w : WaitFor) (s : State) : shape (waitFor e sqhd w s) = shape s := rfl

theorem withData_shape (e : Entry) (k : List Byte → State → Done) (s : State) (h_k : ∀ v0 v1, shape ((k v0 v1).1) = shape v1) : shape ((withData e k s).1) = shape s := by
  unfold withData
  repeat' (first
    | with_reducible rfl
    | assumption
    | (with_reducible refine (foldlS_shape _ ?_ _ _).trans ?_)
    | simp only [↓fails_shape, ↓mk_shape, ↓shape_ite, ↓fst_ite, ↓try_ite, ↓eng_ite, ↓reduceIte, ite_self, try_done, try_hold, try_trap, eng_done, eng_more, eng_wait, eng_trap, ↓h_k]
    | split
    | intro _
    | (with_reducible show rect _ = rect _) <;> rfl
    | (with_reducible show Option.map rect _ = Option.map rect _) <;> (rw [‹getPart _ _ = some _›]; rfl)
    | (with_reducible show rect _ = rect _) <;> exact (noteIdle_rect _ _).trans rfl
    | (with_reducible show Option.map rect _ = Option.map rect _) <;> (rw [‹getPart _ _ = some _›]; exact congrArg some (noteIdle_rect _ _))
    | dsimp only
    | simp only [*]
    | (have h' := congrArg (fun o => shape o.1) (‹_ = Prod.mk _ _›); simp only [↓fails_shape, ↓mk_shape, ↓shape_ite, ↓fst_ite, ↓try_ite, ↓eng_ite, ↓reduceIte, ite_self, try_done, try_hold, try_trap, eng_done, eng_more, eng_wait, eng_trap, ↓h_k] at h'; first | exact h'.symm | exact h' | exact h'.symm.trans (by assumption)))

theorem writeSegs_shape (fn : Fn) (x1 : List (Nat × Nat)) (x2 : List Byte) (x3 : State) : shape (writeSegs fn x1 x2 x3) = shape x3 := by
  induction x1 generalizing fn x2 x3 with
  | nil =>
    unfold writeSegs
    repeat' (first
      | with_reducible rfl
      | assumption
      | (with_reducible refine (foldlS_shape _ ?_ _ _).trans ?_)
      | simp only [↓sendHost_shape, ↓mk_shape, ↓shape_ite, ↓fst_ite, ↓try_ite, ↓eng_ite, ↓reduceIte, ite_self, try_done, try_hold, try_trap, eng_done, eng_more, eng_wait, eng_trap]
      | split
      | intro _
      | (with_reducible show rect _ = rect _) <;> rfl
      | (with_reducible show Option.map rect _ = Option.map rect _) <;> (rw [‹getPart _ _ = some _›]; rfl)
      | (with_reducible show rect _ = rect _) <;> exact (noteIdle_rect _ _).trans rfl
      | (with_reducible show Option.map rect _ = Option.map rect _) <;> (rw [‹getPart _ _ = some _›]; exact congrArg some (noteIdle_rect _ _))
      | dsimp only
      | simp only [*])
  | cons y0 y1 ih =>
    unfold writeSegs
    repeat' (first
      | with_reducible rfl
      | assumption
      | (with_reducible refine (foldlS_shape _ ?_ _ _).trans ?_)
      | simp only [↓sendHost_shape, ↓mk_shape, ↓shape_ite, ↓fst_ite, ↓try_ite, ↓eng_ite, ↓reduceIte, ite_self, try_done, try_hold, try_trap, eng_done, eng_more, eng_wait, eng_trap, ↓ih]
      | split
      | intro _
      | (with_reducible show rect _ = rect _) <;> rfl
      | (with_reducible show Option.map rect _ = Option.map rect _) <;> (rw [‹getPart _ _ = some _›]; rfl)
      | (with_reducible show rect _ = rect _) <;> exact (noteIdle_rect _ _).trans rfl
      | (with_reducible show Option.map rect _ = Option.map rect _) <;> (rw [‹getPart _ _ = some _›]; exact congrArg some (noteIdle_rect _ _))
      | dsimp only
      | simp only [*])

theorem writeOut_shape (e : Entry) (bs : List Byte) (s : State) : shape (writeOut e bs s) = shape s := by
  unfold writeOut
  simp only [↓writeSegs_shape]

end Sys2Proof.Machine
end

