-- ==== Sys2Proof/Laws/FrameEngines.lean ====
section
/-! SUPPORT. What leaves the shape of the machine (Laws/Frame.lean): the engines and every engine instruction. -/

set_option linter.unusedSimpArgs false
set_option linter.unusedTactic false
set_option linter.unreachableTactic false
set_option linter.unusedVariables false
set_option linter.unnecessarySeqFocus false

namespace Sys2Proof.Machine

/-! ## Machine/WideUnit.lean -/

theorem noteCells_shape (l : Nat) (ty : Nat) (xs : List (Line × Bool)) (s : State) : shape (noteCells l ty xs s) = shape s := by
  unfold noteCells
  simp only [↓countL_shape]

theorem packResult_shape (l : Nat) (d : Nat) (ty : Nat) (vs : List (FV × Bool)) (s : State) : shape (packResult l d ty vs s).state = shape s := by
  unfold packResult
  repeat' (first
    | with_reducible rfl
    | simp only [↓countL_shape, ↓eng_ite, eng_done, eng_more, eng_wait, eng_trap, ↓fst_ite]
    | split
    | intro _
    | (with_reducible show rect _ = rect _) <;> rfl
    | dsimp only)

theorem placeDot_shape (l seq blk n : Nat) (clr : Bool) (cs : List Contr) (op : EOp) (s0 s : State) (h : shape s0 = shape s) :
    shape (placeDot l seq blk n clr cs op s0 s).state = shape s := by
  unfold placeDot
  split
  · exact h
  · split
    · refine (placeIn_shape (hr := ‹_›)).trans ?_
      split <;> rfl
    · exact h

theorem runWfdot_shape (l : Nat) (seq : Nat) (a : Nat) (b : Nat) (d : Nat) (len : Nat) (outs : Nat) (ty : Nat) (clr : Bool) (lines : Bool) (xs : List (Line × Bool)) (s : State) : shape (runWfdot l seq a b d len outs ty clr lines xs s).state = shape s := by
  unfold runWfdot
  repeat' (first
    | with_reducible rfl
    | (with_reducible refine (placeDot_shape _ _ _ _ _ _ _ _ _ ?_).trans ?_)
    | simp only [↓noteCells_shape, ↓eng_ite, eng_done, eng_more, eng_wait, eng_trap, ↓fst_ite]
    | split
    | intro _
    | (with_reducible show rect _ = rect _) <;> rfl
    | dsimp only)

theorem runWgth_shape (l : Nat) (d : Nat) (len : Nat) (fin : Nat) (fout : Nat) (xs : List (Line × Bool)) (s : State) : shape (runWgth l d len fin fout xs s).state = shape s := by
  unfold runWgth
  repeat' (first
    | with_reducible rfl
    | simp only [↓noteCells_shape, ↓packResult_shape, ↓eng_ite, eng_done, eng_more, eng_wait, eng_trap, ↓fst_ite]
    | split
    | intro _
    | (with_reducible show rect _ = rect _) <;> rfl
    | dsimp only)

theorem runWidot_shape (l : Nat) (seq : Nat) (a : Nat) (b : Nat) (blk : Nat) (len : Nat) (outs : Nat) (ty : Nat) (clr : Bool) (xs : List (Line × Bool)) (s : State) : shape (runWidot l seq a b blk len outs ty clr xs s).state = shape s := by
  unfold runWidot
  repeat' (first
    | with_reducible rfl
    | (with_reducible refine (placeDot_shape _ _ _ _ _ _ _ _ _ ?_).trans ?_)
    | simp only [↓noteCells_shape]
    | split)

theorem runWqnt_shape (l : Nat) (d : Nat) (n : Nat) (ty : Nat) (xs : List (Line × Bool)) (s : State) : shape (runWqnt l d n ty xs s).state = shape s := by
  unfold runWqnt
  simp only [↓packResult_shape]

theorem runWred_shape (fn : Nat) (d : Nat) (n : Nat) (bi : Bool) (xs : List (Line × Bool)) (s : State) : shape (runWred fn d n bi xs s).state = shape s := rfl

theorem runWsmp_shape (l : Nat) (b : Nat) (d : Nat) (k : Nat) (xs : List (Line × Bool)) (s : State) : shape (runWsmp l b d k xs s).state = shape s := by
  unfold runWsmp
  repeat' (first
    | with_reducible rfl
    | simp only [↓countL_shape, ↓writePad_shape, ↓eng_ite, eng_done, eng_more, eng_wait, eng_trap, ↓fst_ite]
    | split
    | intro _
    | (with_reducible show rect _ = rect _) <;> rfl
    | dsimp only)

theorem smxWrite_shape (l d n : Nat) (toBuf : Bool) (op : EOp) (s0 s : State) (floor : F32 × Bool) (ss : List (F32 × Bool)) (h : shape s0 = shape s) :
    shape (smxWrite l d n toBuf op s0 s floor ss).state = shape s := by
  unfold smxWrite
  dsimp only
  repeat' (first | exact h | split | simp only [↓eng_more, ↓eng_wait, ↓countL_shape, ↓updL_shape])

theorem runWsmx_shape (l : Nat) (a : Nat) (b : Nat) (d : Nat) (n : Nat) (fromBuf : Bool) (toBuf : Bool) (xs : List (Line × Bool)) (s : State) : shape (runWsmx l a b d n fromBuf toBuf xs s).state = shape s := by
  unfold runWsmx
  repeat' (first
    | with_reducible rfl
    | (with_reducible refine (smxWrite_shape _ _ _ _ _ _ _ _ _ ?_).trans ?_)
    | simp only [↓updL_shape, ↓eng_ite, eng_done, eng_more, eng_wait, eng_trap, ↓fst_ite]
    | split
    | intro _
    | (with_reducible show rect _ = rect _) <;> rfl
    | dsimp only)

theorem runWtopk_shape (d : Nat) (n : Nat) (k : Nat) (idx : Bool) (xs : List (Line × Bool)) (s : State) : shape (runWtopk d n k idx xs s).state = shape s := rfl

theorem vecResult_shape (l : Nat) (d : Nat) (bf : Bool) (rs : List (F32 × Bool)) (s : State) : shape (vecResult l d bf rs s).state = shape s := by
  unfold vecResult
  repeat' (first
    | with_reducible rfl
    | simp only [↓countL_shape, ↓eng_ite, eng_done, eng_more, eng_wait, eng_trap, ↓fst_ite]
    | split
    | intro _
    | (with_reducible show rect _ = rect _) <;> rfl
    | dsimp only)

theorem runWvb_shape (l : Nat) (fn : Nat) (d : Nat) (n : Nat) (bi : Bool) (bo : Bool) (xs : List (Line × Bool)) (s : State) : shape (runWvb l fn d n bi bo xs s).state = shape s := by
  unfold runWvb
  simp only [↓vecResult_shape]

theorem runWvu_shape (l : Nat) (fn : Nat) (d : Nat) (n : Nat) (bi : Bool) (bo : Bool) (xs : List (Line × Bool)) (s : State) : shape (runWvu l fn d n bi bo xs s).state = shape s := by
  unfold runWvu
  repeat' (first
    | with_reducible rfl
    | simp only [↓countL_shape, ↓vecResult_shape]
    | split)

/-! ## Machine/SendQueue.lean -/

theorem advanceRd_shape (s : State) (l : Nat) (q : Nat) : shape (advanceRd s l q) = shape s := rfl

theorem clearLines_shape (l : Nat) (x1 : Nat) (x2 : Nat) (x3 : State) : shape (clearLines l x1 x2 x3) = shape x3 := by
  induction x2 generalizing l x1 x3 with
  | zero =>
    unfold clearLines
    repeat' (first
      | with_reducible rfl
      | assumption
      | (with_reducible refine (foldlS_shape _ ?_ _ _).trans ?_)
      | simp only [↓updL_shape, ↓mk_shape, ↓shape_ite, ↓fst_ite, ↓try_ite, ↓eng_ite, ↓reduceIte, ite_self, try_done, try_hold, try_trap, eng_done, eng_more, eng_wait, eng_trap]
      | split
      | intro _
      | (with_reducible show rect _ = rect _) <;> rfl
      | (with_reducible show Option.map rect _ = Option.map rect _) <;> (rw [‹getPart _ _ = some _›]; rfl)
      | (with_reducible show rect _ = rect _) <;> exact (noteIdle_rect _ _).trans rfl
      | (with_reducible show Option.map rect _ = Option.map rect _) <;> (rw [‹getPart _ _ = some _›]; exact congrArg some (noteIdle_rect _ _))
      | dsimp only
      | simp only [*])
  | succ y1 ih =>
    unfold clearLines
    repeat' (first
      | with_reducible rfl
      | assumption
      | (with_reducible refine (foldlS_shape _ ?_ _ _).trans ?_)
      | simp only [↓updL_shape, ↓mk_shape, ↓shape_ite, ↓fst_ite, ↓try_ite, ↓eng_ite, ↓reduceIte, ite_self, try_done, try_hold, try_trap, eng_done, eng_more, eng_wait, eng_trap, ↓ih]
      | split
      | intro _
      | (with_reducible show rect _ = rect _) <;> rfl
      | (with_reducible show Option.map rect _ = Option.map rect _) <;> (rw [‹getPart _ _ = some _›]; rfl)
      | (with_reducible show rect _ = rect _) <;> exact (noteIdle_rect _ _).trans rfl
      | (with_reducible show Option.map rect _ = Option.map rect _) <;> (rw [‹getPart _ _ = some _›]; exact congrArg some (noteIdle_rect _ _))
      | dsimp only
      | simp only [*])

theorem queueHead_shape (l : Nat) (q : Nat) (s : State) : shape (queueHead l q s).1 = shape s := by
  unfold queueHead
  simp only [↓deliver_shape, ↓updQ_shape]

theorem runCopy_shape (l : Nat) (src : Nat) (stride : Nat) (dst : Nat) (take : Bool) (x5 : Nat) (x6 : Nat) (x7 : State) : shape ((runCopy l src stride dst take x5 x6 x7).state) = shape x7 := by
  induction x6 generalizing l src stride dst take x5 x7 with
  | zero =>
    unfold runCopy
    repeat' (first
      | with_reducible rfl
      | assumption
      | (with_reducible refine (foldlS_shape _ ?_ _ _).trans ?_)
      | simp only [↓readPad_shape, ↓writePad_shape, ↓mk_shape, ↓shape_ite, ↓fst_ite, ↓try_ite, ↓eng_ite, ↓reduceIte, ite_self, try_done, try_hold, try_trap, eng_done, eng_more, eng_wait, eng_trap]
      | split
      | intro _
      | (with_reducible show rect _ = rect _) <;> rfl
      | (with_reducible show Option.map rect _ = Option.map rect _) <;> (rw [‹getPart _ _ = some _›]; rfl)
      | (with_reducible show rect _ = rect _) <;> exact (noteIdle_rect _ _).trans rfl
      | (with_reducible show Option.map rect _ = Option.map rect _) <;> (rw [‹getPart _ _ = some _›]; exact congrArg some (noteIdle_rect _ _))
      | dsimp only
      | simp only [*]
      | (have h' := congrArg (fun o => shape o.1) (‹_ = Prod.mk _ _›); simp only [↓readPad_shape, ↓writePad_shape, ↓mk_shape, ↓shape_ite, ↓fst_ite, ↓try_ite, ↓eng_ite, ↓reduceIte, ite_self, try_done, try_hold, try_trap, eng_done, eng_more, eng_wait, eng_trap] at h'; first | exact h'.symm | exact h' | exact h'.symm.trans (by assumption)))
  | succ y1 ih =>
    unfold runCopy
    repeat' (first
      | with_reducible rfl
      | assumption
      | (with_reducible refine (foldlS_shape _ ?_ _ _).trans ?_)
      | simp only [↓readPad_shape, ↓writePad_shape, ↓mk_shape, ↓shape_ite, ↓fst_ite, ↓try_ite, ↓eng_ite, ↓reduceIte, ite_self, try_done, try_hold, try_trap, eng_done, eng_more, eng_wait, eng_trap, ↓ih]
      | split
      | intro _
      | (with_reducible show rect _ = rect _) <;> rfl
      | (with_reducible show Option.map rect _ = Option.map rect _) <;> (rw [‹getPart _ _ = some _›]; rfl)
      | (with_reducible show rect _ = rect _) <;> exact (noteIdle_rect _ _).trans rfl
      | (with_reducible show Option.map rect _ = Option.map rect _) <;> (rw [‹getPart _ _ = some _›]; exact congrArg some (noteIdle_rect _ _))
      | dsimp only
      | simp only [*]
      | (have h' := congrArg (fun o => shape o.1) (‹_ = Prod.mk _ _›); simp only [↓readPad_shape, ↓writePad_shape, ↓mk_shape, ↓shape_ite, ↓fst_ite, ↓try_ite, ↓eng_ite, ↓reduceIte, ite_self, try_done, try_hold, try_trap, eng_done, eng_more, eng_wait, eng_trap, ↓ih] at h'; first | exact h'.symm | exact h' | exact h'.symm.trans (by assumption)))

theorem toScalar_shape (l : Nat) (q : Nat) (sd : Fin 32) (x : Line) (poison : Bool) (s : State) : shape (toScalar l q sd x poison s).state = shape s := by
  unfold toScalar
  repeat' (first
    | with_reducible rfl
    | simp only [↓setReg_shape, ↓updL_shape, ↓eng_ite, eng_done, eng_more, eng_wait, eng_trap]
    | split
    | intro _
    | (with_reducible show rect _ = rect _) <;> rfl
    | dsimp only)

theorem runPeek_shape (l : Nat) (q : Nat) (dst : Nat) (reg : Bool) (sd : Fin 32) (pop : Bool) (s : State) : shape (runPeek l q dst reg sd pop s).state = shape s := by
  unfold runPeek
  repeat' (first
    | with_reducible rfl
    | simp only [↓countL_shape, ↓updQ_shape, ↓queueHead_shape, ↓advanceRd_shape, ↓toScalar_shape, ↓writePad_shape, ↓eng_ite, eng_done, eng_more, eng_wait, eng_trap, ↓fst_ite]
    | split
    | intro _
    | (with_reducible show rect _ = rect _) <;> rfl
    | dsimp only)

theorem runQmark_shape (l : Nat) (q : Nat) (s : State) : shape (runQmark l q s).state = shape s := rfl

theorem runQrel_shape (l : Nat) (q : Nat) (s : State) : shape (runQrel l q s).state = shape s := by
  unfold runQrel
  repeat' (first
    | with_reducible rfl
    | simp only [↓injectL_shape, ↓updQ_shape, ↓eng_ite, eng_done, eng_more, eng_wait, eng_trap]
    | split
    | intro _
    | (with_reducible show rect _ = rect _) <;> rfl
    | dsimp only)

theorem runQrewind_shape (l : Nat) (q : Nat) (s : State) : shape (runQrewind l q s).state = shape s := rfl

theorem runQstat_shape (l : Nat) (q : Nat) (sd : Fin 32) (clr : Bool) (s : State) : shape (runQstat l q sd clr s).state = shape s := by
  unfold runQstat
  repeat' (first
    | with_reducible rfl
    | simp only [↓updL_shape, ↓setReg_shape, ↓updQ_shape, ↓eng_ite, eng_done, eng_more, eng_wait, eng_trap]
    | split
    | intro _
    | (with_reducible show rect _ = rect _) <;> rfl
    | dsimp only)

theorem runRecv_shape (l : Nat) (q : Nat) (dst : Nat) (x3 : Nat) (x4 : Nat) (x5 : State) : shape ((runRecv l q dst x3 x4 x5).state) = shape x5 := by
  induction x4 generalizing l q dst x3 x5 with
  | zero =>
    unfold runRecv
    repeat' (first
      | with_reducible rfl
      | assumption
      | (with_reducible refine (foldlS_shape _ ?_ _ _).trans ?_)
      | simp only [↓queueHead_shape, ↓writePad_shape, ↓advanceRd_shape, ↓mk_shape, ↓shape_ite, ↓fst_ite, ↓try_ite, ↓eng_ite, ↓reduceIte, ite_self, try_done, try_hold, try_trap, eng_done, eng_more, eng_wait, eng_trap]
      | split
      | intro _
      | (with_reducible show rect _ = rect _) <;> rfl
      | (with_reducible show Option.map rect _ = Option.map rect _) <;> (rw [‹getPart _ _ = some _›]; rfl)
      | (with_reducible show rect _ = rect _) <;> exact (noteIdle_rect _ _).trans rfl
      | (with_reducible show Option.map rect _ = Option.map rect _) <;> (rw [‹getPart _ _ = some _›]; exact congrArg some (noteIdle_rect _ _))
      | dsimp only
      | simp only [*]
      | (have h' := congrArg (fun o => shape o.1) (‹_ = Prod.mk _ _›); simp only [↓queueHead_shape, ↓writePad_shape, ↓advanceRd_shape, ↓mk_shape, ↓shape_ite, ↓fst_ite, ↓try_ite, ↓eng_ite, ↓reduceIte, ite_self, try_done, try_hold, try_trap, eng_done, eng_more, eng_wait, eng_trap] at h'; first | exact h'.symm | exact h' | exact h'.symm.trans (by assumption)))
  | succ y1 ih =>
    unfold runRecv
    repeat' (first
      | with_reducible rfl
      | assumption
      | (with_reducible refine (foldlS_shape _ ?_ _ _).trans ?_)
      | simp only [↓queueHead_shape, ↓writePad_shape, ↓advanceRd_shape, ↓mk_shape, ↓shape_ite, ↓fst_ite, ↓try_ite, ↓eng_ite, ↓reduceIte, ite_self, try_done, try_hold, try_trap, eng_done, eng_more, eng_wait, eng_trap, ↓ih]
      | split
      | intro _
      | (with_reducible show rect _ = rect _) <;> rfl
      | (with_reducible show Option.map rect _ = Option.map rect _) <;> (rw [‹getPart _ _ = some _›]; rfl)
      | (with_reducible show rect _ = rect _) <;> exact (noteIdle_rect _ _).trans rfl
      | (with_reducible show Option.map rect _ = Option.map rect _) <;> (rw [‹getPart _ _ = some _›]; exact congrArg some (noteIdle_rect _ _))
      | dsimp only
      | simp only [*]
      | (have h' := congrArg (fun o => shape o.1) (‹_ = Prod.mk _ _›); simp only [↓queueHead_shape, ↓writePad_shape, ↓advanceRd_shape, ↓mk_shape, ↓shape_ite, ↓fst_ite, ↓try_ite, ↓eng_ite, ↓reduceIte, ite_self, try_done, try_hold, try_trap, eng_done, eng_more, eng_wait, eng_trap, ↓ih] at h'; first | exact h'.symm | exact h' | exact h'.symm.trans (by assumption)))

theorem runRecvReg_shape (l : Nat) (q : Nat) (sd : Fin 32) (s : State) : shape (runRecvReg l q sd s).state = shape s := by
  unfold runRecvReg
  repeat' (first
    | with_reducible rfl
    | simp only [↓queueHead_shape, ↓toScalar_shape, ↓advanceRd_shape, ↓eng_ite, eng_done, eng_more, eng_wait, eng_trap, ↓fst_ite]
    | split
    | intro _
    | (with_reducible show rect _ = rect _) <;> rfl
    | dsimp only)

theorem runSend_shape (l : Nat) (src : Nat) (stride : Nat) (ent : Nat) (fmt : Nat) (tot : Nat) (take : Bool) (x7 : Nat) (x8 : Nat) (x9 : State) : shape ((runSend l src stride ent fmt tot take x7 x8 x9).state) = shape x9 := by
  induction x8 generalizing l src stride ent fmt tot take x7 x9 with
  | zero =>
    unfold runSend
    repeat' (first
      | with_reducible rfl
      | assumption
      | (with_reducible refine (foldlS_shape _ ?_ _ _).trans ?_)
      | simp only [↓readPad_shape, ↓sendFlits_shape, ↓mk_shape, ↓shape_ite, ↓fst_ite, ↓try_ite, ↓eng_ite, ↓reduceIte, ite_self, try_done, try_hold, try_trap, eng_done, eng_more, eng_wait, eng_trap]
      | split
      | intro _
      | (with_reducible show rect _ = rect _) <;> rfl
      | (with_reducible show Option.map rect _ = Option.map rect _) <;> (rw [‹getPart _ _ = some _›]; rfl)
      | (with_reducible show rect _ = rect _) <;> exact (noteIdle_rect _ _).trans rfl
      | (with_reducible show Option.map rect _ = Option.map rect _) <;> (rw [‹getPart _ _ = some _›]; exact congrArg some (noteIdle_rect _ _))
      | dsimp only
      | simp only [*]
      | (have h' := congrArg (fun o => shape o.1) (‹_ = Prod.mk _ _›); simp only [↓readPad_shape, ↓sendFlits_shape, ↓mk_shape, ↓shape_ite, ↓fst_ite, ↓try_ite, ↓eng_ite, ↓reduceIte, ite_self, try_done, try_hold, try_trap, eng_done, eng_more, eng_wait, eng_trap] at h'; first | exact h'.symm | exact h' | exact h'.symm.trans (by assumption))
      | (have h' := congrArg (fun o => shape (EngTry.state o)) (‹_ = EngTry.done _›); simp only [↓readPad_shape, ↓sendFlits_shape, ↓mk_shape, ↓shape_ite, ↓fst_ite, ↓try_ite, ↓eng_ite, ↓reduceIte, ite_self, try_done, try_hold, try_trap, eng_done, eng_more, eng_wait, eng_trap] at h'; first | exact h'.symm | exact h' | exact h'.symm.trans (by assumption))
      | (have h' := congrArg (fun o => shape (EngTry.state o)) (‹_ = EngTry.more _ _›); simp only [↓readPad_shape, ↓sendFlits_shape, ↓mk_shape, ↓shape_ite, ↓fst_ite, ↓try_ite, ↓eng_ite, ↓reduceIte, ite_self, try_done, try_hold, try_trap, eng_done, eng_more, eng_wait, eng_trap] at h'; first | exact h'.symm | exact h' | exact h'.symm.trans (by assumption))
      | (have h' := congrArg (fun o => shape (EngTry.state o)) (‹_ = EngTry.wait _ _ _›); simp only [↓readPad_shape, ↓sendFlits_shape, ↓mk_shape, ↓shape_ite, ↓fst_ite, ↓try_ite, ↓eng_ite, ↓reduceIte, ite_self, try_done, try_hold, try_trap, eng_done, eng_more, eng_wait, eng_trap] at h'; first | exact h'.symm | exact h' | exact h'.symm.trans (by assumption))
      | (have h' := congrArg (fun o => shape (EngTry.state o)) (‹_ = EngTry.trap _ _ _›); simp only [↓readPad_shape, ↓sendFlits_shape, ↓mk_shape, ↓shape_ite, ↓fst_ite, ↓try_ite, ↓eng_ite, ↓reduceIte, ite_self, try_done, try_hold, try_trap, eng_done, eng_more, eng_wait, eng_trap] at h'; first | exact h'.symm | exact h' | exact h'.symm.trans (by assumption)))
  | succ y1 ih =>
    unfold runSend
    repeat' (first
      | with_reducible rfl
      | assumption
      | (with_reducible refine (foldlS_shape _ ?_ _ _).trans ?_)
      | simp only [↓readPad_shape, ↓sendFlits_shape, ↓mk_shape, ↓shape_ite, ↓fst_ite, ↓try_ite, ↓eng_ite, ↓reduceIte, ite_self, try_done, try_hold, try_trap, eng_done, eng_more, eng_wait, eng_trap, ↓ih]
      | split
      | intro _
      | (with_reducible show rect _ = rect _) <;> rfl
      | (with_reducible show Option.map rect _ = Option.map rect _) <;> (rw [‹getPart _ _ = some _›]; rfl)
      | (with_reducible show rect _ = rect _) <;> exact (noteIdle_rect _ _).trans rfl
      | (with_reducible show Option.map rect _ = Option.map rect _) <;> (rw [‹getPart _ _ = some _›]; exact congrArg some (noteIdle_rect _ _))
      | dsimp only
      | simp only [*]
      | (have h' := congrArg (fun o => shape o.1) (‹_ = Prod.mk _ _›); simp only [↓readPad_shape, ↓sendFlits_shape, ↓mk_shape, ↓shape_ite, ↓fst_ite, ↓try_ite, ↓eng_ite, ↓reduceIte, ite_self, try_done, try_hold, try_trap, eng_done, eng_more, eng_wait, eng_trap, ↓ih] at h'; first | exact h'.symm | exact h' | exact h'.symm.trans (by assumption))
      | (have h' := congrArg (fun o => shape (EngTry.state o)) (‹_ = EngTry.done _›); simp only [↓readPad_shape, ↓sendFlits_shape, ↓mk_shape, ↓shape_ite, ↓fst_ite, ↓try_ite, ↓eng_ite, ↓reduceIte, ite_self, try_done, try_hold, try_trap, eng_done, eng_more, eng_wait, eng_trap, ↓ih] at h'; first | exact h'.symm | exact h' | exact h'.symm.trans (by assumption))
      | (have h' := congrArg (fun o => shape (EngTry.state o)) (‹_ = EngTry.more _ _›); simp only [↓readPad_shape, ↓sendFlits_shape, ↓mk_shape, ↓shape_ite, ↓fst_ite, ↓try_ite, ↓eng_ite, ↓reduceIte, ite_self, try_done, try_hold, try_trap, eng_done, eng_more, eng_wait, eng_trap, ↓ih] at h'; first | exact h'.symm | exact h' | exact h'.symm.trans (by assumption))
      | (have h' := congrArg (fun o => shape (EngTry.state o)) (‹_ = EngTry.wait _ _ _›); simp only [↓readPad_shape, ↓sendFlits_shape, ↓mk_shape, ↓shape_ite, ↓fst_ite, ↓try_ite, ↓eng_ite, ↓reduceIte, ite_self, try_done, try_hold, try_trap, eng_done, eng_more, eng_wait, eng_trap, ↓ih] at h'; first | exact h'.symm | exact h' | exact h'.symm.trans (by assumption))
      | (have h' := congrArg (fun o => shape (EngTry.state o)) (‹_ = EngTry.trap _ _ _›); simp only [↓readPad_shape, ↓sendFlits_shape, ↓mk_shape, ↓shape_ite, ↓fst_ite, ↓try_ite, ↓eng_ite, ↓reduceIte, ite_self, try_done, try_hold, try_trap, eng_done, eng_more, eng_wait, eng_trap, ↓ih] at h'; first | exact h'.symm | exact h' | exact h'.symm.trans (by assumption)))

theorem runTrd_shape (l : Nat) (dst : Nat) (big : Bool) (int8 : Bool) (off : Nat) (xs : List (Line × Bool)) (s : State) : shape (runTrd l dst big int8 off xs s).state = shape s := by
  unfold runTrd
  repeat' (first
    | with_reducible rfl
    | simp only [↓countL_shape, ↓eng_ite, eng_done, eng_more, eng_wait, eng_trap, ↓fst_ite]
    | split
    | intro _
    | (with_reducible show rect _ = rect _) <;> rfl
    | dsimp only)

/-! ## Machine/Engines.lean -/

theorem popHead_shape (s : State) (l : Nat) (e : Nat) : shape (popHead s l e) = shape s := rfl

theorem setHead_shape (s : State) (l : Nat) (e : Nat) (x : EngEntry) (wait : Nat) (since : Nat) : shape (setHead s l e x wait since) = shape s := rfl

theorem runAop_shape (l : Nat) (p : ArrayOp) (xs : List (Line × Bool)) (s : State) : shape (runAop l p xs s).state = shape s := by
  unfold runAop
  repeat' (first
    | with_reducible rfl
    | simp only [↓countL_shape, ↓updL_shape, ↓updBank_shape, ↓eng_ite, eng_done, eng_more, eng_wait, eng_trap, ↓fst_ite]
    | split
    | intro _
    | (with_reducible show rect _ = rect _) <;> rfl
    | dsimp only)

theorem stepOp_shape (l : Nat) (e : Nat) (x : EngEntry) (s : State) : shape (stepOp l e x s).state = shape s := by
  unfold stepOp
  repeat' (first
    | with_reducible rfl
    | simp only [↓runAop_shape, ↓runAclr_shape, ↓runArd_shape, ↓runAexp_shape, ↓runAimp_shape, ↓runWidot_shape, ↓runWfdot_shape, ↓runWvb_shape, ↓runWvu_shape, ↓runWred_shape, ↓runWsmx_shape, ↓runWqnt_shape, ↓runWgth_shape, ↓runWtopk_shape, ↓runWsmp_shape, ↓loadQueries_shape, ↓startAscr_shape, ↓startAval_shape, ↓runKapp_shape, ↓runKmark_shape, ↓runKrew_shape, ↓runKrel_shape, ↓runKwalk_shape, ↓runKxfr_shape, ↓runCopy_shape, ↓runTrd_shape, ↓runSend_shape, ↓clearLines_shape, ↓runRecv_shape, ↓runRecvReg_shape, ↓runPeek_shape, ↓runQmark_shape, ↓runQrewind_shape, ↓runQrel_shape, ↓runQstat_shape, ↓emitLines_shape, ↓sendFlits_shape, ↓mk_shape, ↓shape_ite, ↓reduceIte, ite_self, ↓eng_ite, eng_done, eng_more, eng_wait, eng_trap]
    | split
    | intro _
    | (with_reducible show rect _ = rect _) <;> rfl
    | dsimp only
    | (have h' := congrArg (fun o => shape (EngTry.state o)) (‹_ = EngTry.done _›); simp only [↓runAop_shape, ↓runAclr_shape, ↓runArd_shape, ↓runAexp_shape, ↓runAimp_shape, ↓runWidot_shape, ↓runWfdot_shape, ↓runWvb_shape, ↓runWvu_shape, ↓runWred_shape, ↓runWsmx_shape, ↓runWqnt_shape, ↓runWgth_shape, ↓runWtopk_shape, ↓runWsmp_shape, ↓loadQueries_shape, ↓startAscr_shape, ↓startAval_shape, ↓runKapp_shape, ↓runKmark_shape, ↓runKrew_shape, ↓runKrel_shape, ↓runKwalk_shape, ↓runKxfr_shape, ↓runCopy_shape, ↓runTrd_shape, ↓runSend_shape, ↓clearLines_shape, ↓runRecv_shape, ↓runRecvReg_shape, ↓runPeek_shape, ↓runQmark_shape, ↓runQrewind_shape, ↓runQrel_shape, ↓runQstat_shape, ↓emitLines_shape, ↓sendFlits_shape, ↓mk_shape, ↓shape_ite, ↓fst_ite, ↓try_ite, ↓eng_ite, ↓reduceIte, ite_self, try_done, try_hold, try_trap, eng_done, eng_more, eng_wait, eng_trap] at h'; first | exact h'.symm | exact h' | exact h'.symm.trans (by assumption))
    | (have h' := congrArg (fun o => shape (EngTry.state o)) (‹_ = EngTry.more _ _›); simp only [↓runAop_shape, ↓runAclr_shape, ↓runArd_shape, ↓runAexp_shape, ↓runAimp_shape, ↓runWidot_shape, ↓runWfdot_shape, ↓runWvb_shape, ↓runWvu_shape, ↓runWred_shape, ↓runWsmx_shape, ↓runWqnt_shape, ↓runWgth_shape, ↓runWtopk_shape, ↓runWsmp_shape, ↓loadQueries_shape, ↓startAscr_shape, ↓startAval_shape, ↓runKapp_shape, ↓runKmark_shape, ↓runKrew_shape, ↓runKrel_shape, ↓runKwalk_shape, ↓runKxfr_shape, ↓runCopy_shape, ↓runTrd_shape, ↓runSend_shape, ↓clearLines_shape, ↓runRecv_shape, ↓runRecvReg_shape, ↓runPeek_shape, ↓runQmark_shape, ↓runQrewind_shape, ↓runQrel_shape, ↓runQstat_shape, ↓emitLines_shape, ↓sendFlits_shape, ↓mk_shape, ↓shape_ite, ↓fst_ite, ↓try_ite, ↓eng_ite, ↓reduceIte, ite_self, try_done, try_hold, try_trap, eng_done, eng_more, eng_wait, eng_trap] at h'; first | exact h'.symm | exact h' | exact h'.symm.trans (by assumption))
    | (have h' := congrArg (fun o => shape (EngTry.state o)) (‹_ = EngTry.wait _ _ _›); simp only [↓runAop_shape, ↓runAclr_shape, ↓runArd_shape, ↓runAexp_shape, ↓runAimp_shape, ↓runWidot_shape, ↓runWfdot_shape, ↓runWvb_shape, ↓runWvu_shape, ↓runWred_shape, ↓runWsmx_shape, ↓runWqnt_shape, ↓runWgth_shape, ↓runWtopk_shape, ↓runWsmp_shape, ↓loadQueries_shape, ↓startAscr_shape, ↓startAval_shape, ↓runKapp_shape, ↓runKmark_shape, ↓runKrew_shape, ↓runKrel_shape, ↓runKwalk_shape, ↓runKxfr_shape, ↓runCopy_shape, ↓runTrd_shape, ↓runSend_shape, ↓clearLines_shape, ↓runRecv_shape, ↓runRecvReg_shape, ↓runPeek_shape, ↓runQmark_shape, ↓runQrewind_shape, ↓runQrel_shape, ↓runQstat_shape, ↓emitLines_shape, ↓sendFlits_shape, ↓mk_shape, ↓shape_ite, ↓fst_ite, ↓try_ite, ↓eng_ite, ↓reduceIte, ite_self, try_done, try_hold, try_trap, eng_done, eng_more, eng_wait, eng_trap] at h'; first | exact h'.symm | exact h' | exact h'.symm.trans (by assumption))
    | (have h' := congrArg (fun o => shape (EngTry.state o)) (‹_ = EngTry.trap _ _ _›); simp only [↓runAop_shape, ↓runAclr_shape, ↓runArd_shape, ↓runAexp_shape, ↓runAimp_shape, ↓runWidot_shape, ↓runWfdot_shape, ↓runWvb_shape, ↓runWvu_shape, ↓runWred_shape, ↓runWsmx_shape, ↓runWqnt_shape, ↓runWgth_shape, ↓runWtopk_shape, ↓runWsmp_shape, ↓loadQueries_shape, ↓startAscr_shape, ↓startAval_shape, ↓runKapp_shape, ↓runKmark_shape, ↓runKrew_shape, ↓runKrel_shape, ↓runKwalk_shape, ↓runKxfr_shape, ↓runCopy_shape, ↓runTrd_shape, ↓runSend_shape, ↓clearLines_shape, ↓runRecv_shape, ↓runRecvReg_shape, ↓runPeek_shape, ↓runQmark_shape, ↓runQrewind_shape, ↓runQrel_shape, ↓runQstat_shape, ↓emitLines_shape, ↓sendFlits_shape, ↓mk_shape, ↓shape_ite, ↓fst_ite, ↓try_ite, ↓eng_ite, ↓reduceIte, ite_self, try_done, try_hold, try_trap, eng_done, eng_more, eng_wait, eng_trap] at h'; first | exact h'.symm | exact h' | exact h'.symm.trans (by assumption)))

theorem runEngine_shape (l e n : Nat) (s : State) : shape (runEngine l e n s) = shape s := by
  induction n generalizing s with
  | zero => rfl
  | succ n ih =>
    unfold runEngine
    have h0 : shape (if e = 6 then portWork l s else s) = shape s := by
      split
      · exact portWork_shape l s
      · rfl
    generalize (if e = 6 then portWork l s else s) = t at h0 ⊢
    rw [← h0]
    dsimp only
    split
    · rfl
    · next x _ _ =>
      have hg := gather_shape l ((opReads x.op).drop x.got.length) t
      split
      · rfl
      · split
        · next heq =>
          rw [heq] at hg
          split
          · exact hg
          · exact (setHead_shape _ _ _ _ _ _).trans ((waitEnded_shape _ _ _ _).trans hg)
        · next heq =>
          rw [heq] at hg
          simp only [↓popHead_shape, ↓trapAt_shape, ↓waitEnded_shape]
          exact hg
        · next s1 xs heq =>
          rw [heq] at hg
          have hs := stepOp_shape l e { x with got := x.got ++ xs } s1
          split
          all_goals
            next heq2 =>
              rw [heq2] at hs
              repeat' (first | split | exact hg | exact hs.trans hg | simp only [↓ih, ↓popHead_shape, ↓trapAt_shape, ↓waitEnded_shape, ↓setHead_shape])

theorem startEngine_shape (l : Nat) (e : Nat) (s : State) : shape (startEngine l e s) = shape s := by
  unfold startEngine
  repeat' (first
    | with_reducible rfl
    | simp only [↓runEngine_shape]
    | split)

theorem issueTo_shape (l : Nat) (e : Nat) (i : Instr) (t : State → Try) (s : State) (h_t : ∀ v0, shape ((t v0).state) = shape v0) : shape (issueTo l e i t s) = shape s := by
  unfold issueTo
  repeat' (first
    | with_reducible rfl
    | assumption
    | (with_reducible refine (issue_shape _ _ _ _ ?_).trans ?_)
    | (with_reducible refine (foldlS_shape _ ?_ _ _).trans ?_)
    | simp only [↓startEngine_shape, ↓mk_shape, ↓shape_ite, ↓fst_ite, ↓try_ite, ↓eng_ite, ↓reduceIte, ite_self, try_done, try_hold, try_trap, eng_done, eng_more, eng_wait, eng_trap, ↓h_t]
    | split
    | intro _
    | (with_reducible show rect _ = rect _) <;> rfl
    | (with_reducible show Option.map rect _ = Option.map rect _) <;> (rw [‹getPart _ _ = some _›]; rfl)
    | (with_reducible show rect _ = rect _) <;> exact (noteIdle_rect _ _).trans rfl
    | (with_reducible show Option.map rect _ = Option.map rect _) <;> (rw [‹getPart _ _ = some _›]; exact congrArg some (noteIdle_rect _ _))
    | dsimp only
    | simp only [*]
    | (have h' := congrArg (fun o => shape (Try.state o)) (‹_ = Try.done _›); simp only [↓startEngine_shape, ↓mk_shape, ↓shape_ite, ↓fst_ite, ↓try_ite, ↓eng_ite, ↓reduceIte, ite_self, try_done, try_hold, try_trap, eng_done, eng_more, eng_wait, eng_trap, ↓h_t] at h'; first | exact h'.symm | exact h' | exact h'.symm.trans (by assumption))
    | (have h' := congrArg (fun o => shape (Try.state o)) (‹_ = Try.hold _ _›); simp only [↓startEngine_shape, ↓mk_shape, ↓shape_ite, ↓fst_ite, ↓try_ite, ↓eng_ite, ↓reduceIte, ite_self, try_done, try_hold, try_trap, eng_done, eng_more, eng_wait, eng_trap, ↓h_t] at h'; first | exact h'.symm | exact h' | exact h'.symm.trans (by assumption))
    | (have h' := congrArg (fun o => shape (Try.state o)) (‹_ = Try.trap _ _ _›); simp only [↓startEngine_shape, ↓mk_shape, ↓shape_ite, ↓fst_ite, ↓try_ite, ↓eng_ite, ↓reduceIte, ite_self, try_done, try_hold, try_trap, eng_done, eng_more, eng_wait, eng_trap, ↓h_t] at h'; first | exact h'.symm | exact h' | exact h'.symm.trans (by assumption)))

/-! ## Machine/Issue.lean -/

theorem pushDesc_shape (l : Nat) (e : Nat) (d : Nat) (op : EOp) (i : Instr) (s : State) : shape (pushDesc l e d op i s).state = shape s := by
  unfold pushDesc
  repeat' (first
    | with_reducible rfl
    | simp only [↓pushOp_shape, ↓tableRead_shape, ↓mk_shape, ↓shape_ite, ↓reduceIte, ite_self, ↓try_ite, try_done, try_hold, try_trap]
    | split
    | intro _
    | (with_reducible show rect _ = rect _) <;> rfl
    | dsimp only
    | (have h' := congrArg (fun o => shape (Try.state o)) (‹_ = Try.done _›); simp only [↓pushOp_shape, ↓tableRead_shape, ↓mk_shape, ↓shape_ite, ↓fst_ite, ↓try_ite, ↓eng_ite, ↓reduceIte, ite_self, try_done, try_hold, try_trap, eng_done, eng_more, eng_wait, eng_trap] at h'; first | exact h'.symm | exact h' | exact h'.symm.trans (by assumption))
    | (have h' := congrArg (fun o => shape (Try.state o)) (‹_ = Try.hold _ _›); simp only [↓pushOp_shape, ↓tableRead_shape, ↓mk_shape, ↓shape_ite, ↓fst_ite, ↓try_ite, ↓eng_ite, ↓reduceIte, ite_self, try_done, try_hold, try_trap, eng_done, eng_more, eng_wait, eng_trap] at h'; first | exact h'.symm | exact h' | exact h'.symm.trans (by assumption))
    | (have h' := congrArg (fun o => shape (Try.state o)) (‹_ = Try.trap _ _ _›); simp only [↓pushOp_shape, ↓tableRead_shape, ↓mk_shape, ↓shape_ite, ↓fst_ite, ↓try_ite, ↓eng_ite, ↓reduceIte, ite_self, try_done, try_hold, try_trap, eng_done, eng_more, eng_wait, eng_trap] at h'; first | exact h'.symm | exact h' | exact h'.symm.trans (by assumption)))

theorem tryAclr_shape (l : Nat) (f : FmtK) (s : State) : shape (tryAclr l f s).state = shape s := by
  unfold tryAclr
  repeat' (first
    | with_reducible rfl
    | (with_reducible refine (checked_shape _ _ _ ?_).trans ?_)
    | simp only [↓pushOp_shape]
    | split
    | intro _
    | (with_reducible show rect _ = rect _) <;> rfl)

theorem tryAexp_shape (l : Nat) (f : FmtK) (s : State) : shape (tryAexp l f s).state = shape s := by
  unfold tryAexp
  repeat' (first
    | with_reducible rfl
    | (with_reducible refine (checked_shape _ _ _ ?_).trans ?_)
    | simp only [↓pushOp_shape]
    | split
    | intro _
    | (with_reducible show rect _ = rect _) <;> rfl)

theorem tryAimp_shape (l : Nat) (f : FmtK) (s : State) : shape (tryAimp l f s).state = shape s := by
  unfold tryAimp
  repeat' (first
    | with_reducible rfl
    | (with_reducible refine (checked_shape _ _ _ ?_).trans ?_)
    | simp only [↓pushOp_shape]
    | split
    | intro _
    | (with_reducible show rect _ = rect _) <;> rfl)

theorem tryAop_shape (l : Nat) (f : FmtA) (s : State) : shape (tryAop l f s).state = shape s := by
  unfold tryAop
  repeat' (first
    | with_reducible rfl
    | (with_reducible refine (checked_shape _ _ _ ?_).trans ?_)
    | simp only [↓pushOp_shape, ↓countL_shape, ↓updL_shape, ↓mk_shape, ↓shape_ite, ↓reduceIte, ite_self, ↓try_ite, try_done, try_hold, try_trap]
    | split
    | intro _
    | (with_reducible show rect _ = rect _) <;> rfl
    | dsimp only
    | (have h' := congrArg (fun o => shape (Try.state o)) (‹_ = Try.done _›); simp only [↓pushOp_shape, ↓countL_shape, ↓updL_shape, ↓mk_shape, ↓shape_ite, ↓fst_ite, ↓try_ite, ↓eng_ite, ↓reduceIte, ite_self, try_done, try_hold, try_trap, eng_done, eng_more, eng_wait, eng_trap] at h'; first | exact h'.symm | exact h' | exact h'.symm.trans (by assumption))
    | (have h' := congrArg (fun o => shape (Try.state o)) (‹_ = Try.hold _ _›); simp only [↓pushOp_shape, ↓countL_shape, ↓updL_shape, ↓mk_shape, ↓shape_ite, ↓fst_ite, ↓try_ite, ↓eng_ite, ↓reduceIte, ite_self, try_done, try_hold, try_trap, eng_done, eng_more, eng_wait, eng_trap] at h'; first | exact h'.symm | exact h' | exact h'.symm.trans (by assumption))
    | (have h' := congrArg (fun o => shape (Try.state o)) (‹_ = Try.trap _ _ _›); simp only [↓pushOp_shape, ↓countL_shape, ↓updL_shape, ↓mk_shape, ↓shape_ite, ↓fst_ite, ↓try_ite, ↓eng_ite, ↓reduceIte, ite_self, try_done, try_hold, try_trap, eng_done, eng_more, eng_wait, eng_trap] at h'; first | exact h'.symm | exact h' | exact h'.symm.trans (by assumption)))

theorem tryArd_shape (l : Nat) (f : FmtK) (s : State) : shape (tryArd l f s).state = shape s := by
  unfold tryArd
  repeat' (first
    | with_reducible rfl
    | (with_reducible refine (checked_shape _ _ _ ?_).trans ?_)
    | simp only [↓pushOp_shape]
    | split
    | intro _
    | (with_reducible show rect _ = rect _) <;> rfl)

theorem withSc_shape (l : Nat) (f : FmtL) (t : Word → State → Try) (s : State) (h_t : ∀ v0 v1, shape ((t v0 v1).state) = shape v1) : shape ((withSc l f t s).state) = shape s := by
  unfold withSc
  repeat' (first
    | with_reducible rfl
    | assumption
    | (with_reducible refine (withRegs_shape _ _ _ _ ?_).trans ?_)
    | (with_reducible refine (foldlS_shape _ ?_ _ _).trans ?_)
    | simp only [↓mk_shape, ↓shape_ite, ↓fst_ite, ↓try_ite, ↓eng_ite, ↓reduceIte, ite_self, try_done, try_hold, try_trap, eng_done, eng_more, eng_wait, eng_trap, ↓h_t]
    | split
    | intro _
    | (with_reducible show rect _ = rect _) <;> rfl
    | (with_reducible show Option.map rect _ = Option.map rect _) <;> (rw [‹getPart _ _ = some _›]; rfl)
    | (with_reducible show rect _ = rect _) <;> exact (noteIdle_rect _ _).trans rfl
    | (with_reducible show Option.map rect _ = Option.map rect _) <;> (rw [‹getPart _ _ = some _›]; exact congrArg some (noteIdle_rect _ _))
    | dsimp only
    | simp only [*]
    | (have h' := congrArg (fun o => shape (Try.state o)) (‹_ = Try.done _›); simp only [↓mk_shape, ↓shape_ite, ↓fst_ite, ↓try_ite, ↓eng_ite, ↓reduceIte, ite_self, try_done, try_hold, try_trap, eng_done, eng_more, eng_wait, eng_trap, ↓h_t] at h'; first | exact h'.symm | exact h' | exact h'.symm.trans (by assumption))
    | (have h' := congrArg (fun o => shape (Try.state o)) (‹_ = Try.hold _ _›); simp only [↓mk_shape, ↓shape_ite, ↓fst_ite, ↓try_ite, ↓eng_ite, ↓reduceIte, ite_self, try_done, try_hold, try_trap, eng_done, eng_more, eng_wait, eng_trap, ↓h_t] at h'; first | exact h'.symm | exact h' | exact h'.symm.trans (by assumption))
    | (have h' := congrArg (fun o => shape (Try.state o)) (‹_ = Try.trap _ _ _›); simp only [↓mk_shape, ↓shape_ite, ↓fst_ite, ↓try_ite, ↓eng_ite, ↓reduceIte, ite_self, try_done, try_hold, try_trap, eng_done, eng_more, eng_wait, eng_trap, ↓h_t] at h'; first | exact h'.symm | exact h' | exact h'.symm.trans (by assumption)))

theorem tryAscr_shape (l : Nat) (f : FmtL) (s : State) : shape (tryAscr l f s).state = shape s := by
  unfold tryAscr
  repeat' (first
    | with_reducible rfl
    | (with_reducible refine (checked_shape _ _ _ ?_).trans ?_)
    | (with_reducible refine (withSc_shape _ _ _ _ ?_).trans ?_)
    | simp only [↓pushDesc_shape]
    | split
    | intro _
    | (with_reducible show rect _ = rect _) <;> rfl)

theorem tryAval_shape (l : Nat) (f : FmtL) (s : State) : shape (tryAval l f s).state = shape s := by
  unfold tryAval
  repeat' (first
    | with_reducible rfl
    | (with_reducible refine (checked_shape _ _ _ ?_).trans ?_)
    | (with_reducible refine (withSc_shape _ _ _ _ ?_).trans ?_)
    | simp only [↓pushDesc_shape]
    | split
    | intro _
    | (with_reducible show rect _ = rect _) <;> rfl)

theorem tryClr_shape (l : Nat) (f : FmtL) (s : State) : shape (tryClr l f s).state = shape s := by
  unfold tryClr
  repeat' (first
    | with_reducible rfl
    | (with_reducible refine (checked_shape _ _ _ ?_).trans ?_)
    | (with_reducible refine (withSc_shape _ _ _ _ ?_).trans ?_)
    | simp only [↓pushOp_shape]
    | split
    | intro _
    | (with_reducible show rect _ = rect _) <;> rfl)

theorem tryCopy_shape (l : Nat) (f : FmtL) (s : State) : shape (tryCopy l f s).state = shape s := by
  unfold tryCopy
  repeat' (first
    | with_reducible rfl
    | (with_reducible refine (checked_shape _ _ _ ?_).trans ?_)
    | (with_reducible refine (withSc_shape _ _ _ _ ?_).trans ?_)
    | simp only [↓pushOp_shape]
    | split
    | intro _
    | (with_reducible show rect _ = rect _) <;> rfl)

theorem tryDesc_shape (l : Nat) (f : FmtL) (op : Nat → EOp) (i : Instr) (s : State) : shape (tryDesc l f op i s).state = shape s := by
  unfold tryDesc
  repeat' (first
    | with_reducible rfl
    | (with_reducible refine (checked_shape _ _ _ ?_).trans ?_)
    | (with_reducible refine (withSc_shape _ _ _ _ ?_).trans ?_)
    | simp only [↓pushDesc_shape]
    | split
    | intro _
    | (with_reducible show rect _ = rect _) <;> rfl)

theorem tryKapp_shape (l : Nat) (f : FmtL) (s : State) : shape (tryKapp l f s).state = shape s := by
  unfold tryKapp
  repeat' (first
    | with_reducible rfl
    | (with_reducible refine (checked_shape _ _ _ ?_).trans ?_)
    | (with_reducible refine (withSc_shape _ _ _ _ ?_).trans ?_)
    | simp only [↓pushDesc_shape]
    | split
    | intro _
    | (with_reducible show rect _ = rect _) <;> rfl)

theorem tryKmark_shape (l : Nat) (f : FmtL) (s : State) : shape (tryKmark l f s).state = shape s := by
  unfold tryKmark
  simp only [↓tryDesc_shape]

theorem tryKrel_shape (l : Nat) (f : FmtL) (s : State) : shape (tryKrel l f s).state = shape s := by
  unfold tryKrel
  simp only [↓tryDesc_shape]

theorem tryKrew_shape (l : Nat) (f : FmtL) (s : State) : shape (tryKrew l f s).state = shape s := by
  unfold tryKrew
  simp only [↓tryDesc_shape]

theorem tryKwalk_shape (l : Nat) (f : FmtL) (s : State) : shape (tryKwalk l f s).state = shape s := by
  unfold tryKwalk
  repeat' (first
    | with_reducible rfl
    | (with_reducible refine (checked_shape _ _ _ ?_).trans ?_)
    | (with_reducible refine (withSc_shape _ _ _ _ ?_).trans ?_)
    | simp only [↓pushDesc_shape]
    | split
    | intro _
    | (with_reducible show rect _ = rect _) <;> rfl)

theorem tryKxfr_shape (l : Nat) (f : FmtL) (s : State) : shape (tryKxfr l f s).state = shape s := by
  unfold tryKxfr
  repeat' (first
    | with_reducible rfl
    | (with_reducible refine (checked_shape _ _ _ ?_).trans ?_)
    | (with_reducible refine (withSc_shape _ _ _ _ ?_).trans ?_)
    | simp only [↓pushDesc_shape]
    | split
    | intro _
    | (with_reducible show rect _ = rect _) <;> rfl)

theorem tryPeek_shape (l : Nat) (f : FmtQ) (pop : Bool) (i : Instr) (s : State) : shape (tryPeek l f pop i s).state = shape s := by
  unfold tryPeek
  repeat' (first
    | with_reducible rfl
    | (with_reducible refine (checked_shape _ _ _ ?_).trans ?_)
    | (with_reducible refine (withRegs_shape _ _ _ _ ?_).trans ?_)
    | simp only [↓pushReg_shape, ↓pushOp_shape]
    | split
    | intro _
    | (with_reducible show rect _ = rect _) <;> rfl)

theorem tryQld_shape (l : Nat) (f : FmtL) (s : State) : shape (tryQld l f s).state = shape s := by
  unfold tryQld
  repeat' (first
    | with_reducible rfl
    | (with_reducible refine (checked_shape _ _ _ ?_).trans ?_)
    | (with_reducible refine (withSc_shape _ _ _ _ ?_).trans ?_)
    | simp only [↓pushOp_shape]
    | split
    | intro _
    | (with_reducible show rect _ = rect _) <;> rfl)

theorem tryQmark_shape (l : Nat) (f : FmtQ) (s : State) : shape (tryQmark l f s).state = shape s := by
  unfold tryQmark
  simp only [↓pushOp_shape]

theorem tryQpeek_shape (l : Nat) (f : FmtQ) (s : State) : shape (tryQpeek l f s).state = shape s := by
  unfold tryQpeek
  simp only [↓tryPeek_shape]

theorem tryQpop_shape (l : Nat) (f : FmtQ) (s : State) : shape (tryQpop l f s).state = shape s := by
  unfold tryQpop
  simp only [↓tryPeek_shape]

theorem tryQrel_shape (l : Nat) (f : FmtQ) (s : State) : shape (tryQrel l f s).state = shape s := by
  unfold tryQrel
  simp only [↓pushOp_shape]

theorem tryQrewind_shape (l : Nat) (f : FmtQ) (s : State) : shape (tryQrewind l f s).state = shape s := by
  unfold tryQrewind
  simp only [↓pushOp_shape]

theorem tryQstat_shape (l : Nat) (f : FmtQ) (s : State) : shape (tryQstat l f s).state = shape s := by
  unfold tryQstat
  repeat' (first
    | with_reducible rfl
    | (with_reducible refine (withRegs_shape _ _ _ _ ?_).trans ?_)
    | simp only [↓pushReg_shape]
    | split
    | intro _
    | (with_reducible show rect _ = rect _) <;> rfl)

theorem tryRecv_shape (l : Nat) (f : FmtQ) (s : State) : shape (tryRecv l f s).state = shape s := by
  unfold tryRecv
  repeat' (first
    | with_reducible rfl
    | (with_reducible refine (checked_shape _ _ _ ?_).trans ?_)
    | (with_reducible refine (withRegs_shape _ _ _ _ ?_).trans ?_)
    | simp only [↓pushReg_shape, ↓pushOp_shape]
    | split
    | intro _
    | (with_reducible show rect _ = rect _) <;> rfl)

theorem trySend_shape (l : Nat) (f : FmtL) (s : State) : shape (trySend l f s).state = shape s := by
  unfold trySend
  repeat' (first
    | with_reducible rfl
    | (with_reducible refine (checked_shape _ _ _ ?_).trans ?_)
    | (with_reducible refine (withSc_shape _ _ _ _ ?_).trans ?_)
    | simp only [↓pushOp_shape]
    | split
    | intro _
    | (with_reducible show rect _ = rect _) <;> rfl)

theorem tryTrd_shape (l : Nat) (f : FmtL) (s : State) : shape (tryTrd l f s).state = shape s := by
  unfold tryTrd
  repeat' (first
    | with_reducible rfl
    | (with_reducible refine (checked_shape _ _ _ ?_).trans ?_)
    | (with_reducible refine (withSc_shape _ _ _ _ ?_).trans ?_)
    | simp only [↓pushOp_shape]
    | split
    | intro _
    | (with_reducible show rect _ = rect _) <;> rfl)

theorem tryWfdot_shape (l : Nat) (f : FmtL) (s : State) : shape (tryWfdot l f s).state = shape s := by
  unfold tryWfdot
  repeat' (first
    | with_reducible rfl
    | (with_reducible refine (checked_shape _ _ _ ?_).trans ?_)
    | (with_reducible refine (withSc_shape _ _ _ _ ?_).trans ?_)
    | simp only [↓pushOp_shape]
    | split
    | intro _
    | (with_reducible show rect _ = rect _) <;> rfl)

theorem tryWgth_shape (l : Nat) (f : FmtL) (s : State) : shape (tryWgth l f s).state = shape s := by
  unfold tryWgth
  repeat' (first
    | with_reducible rfl
    | (with_reducible refine (checked_shape _ _ _ ?_).trans ?_)
    | (with_reducible refine (withSc_shape _ _ _ _ ?_).trans ?_)
    | simp only [↓pushOp_shape]
    | split
    | intro _
    | (with_reducible show rect _ = rect _) <;> rfl)

theorem tryWidot_shape (l : Nat) (f : FmtL) (s : State) : shape (tryWidot l f s).state = shape s := by
  unfold tryWidot
  repeat' (first
    | with_reducible rfl
    | (with_reducible refine (checked_shape _ _ _ ?_).trans ?_)
    | (with_reducible refine (withSc_shape _ _ _ _ ?_).trans ?_)
    | simp only [↓pushOp_shape]
    | split
    | intro _
    | (with_reducible show rect _ = rect _) <;> rfl)

theorem tryWqnt_shape (l : Nat) (f : FmtL) (s : State) : shape (tryWqnt l f s).state = shape s := by
  unfold tryWqnt
  repeat' (first
    | with_reducible rfl
    | (with_reducible refine (checked_shape _ _ _ ?_).trans ?_)
    | (with_reducible refine (withSc_shape _ _ _ _ ?_).trans ?_)
    | simp only [↓pushOp_shape]
    | split
    | intro _
    | (with_reducible show rect _ = rect _) <;> rfl)

theorem tryWred_shape (l : Nat) (f : FmtL) (s : State) : shape (tryWred l f s).state = shape s := by
  unfold tryWred
  repeat' (first
    | with_reducible rfl
    | (with_reducible refine (checked_shape _ _ _ ?_).trans ?_)
    | (with_reducible refine (withSc_shape _ _ _ _ ?_).trans ?_)
    | simp only [↓pushOp_shape]
    | split
    | intro _
    | (with_reducible show rect _ = rect _) <;> rfl)

theorem tryWsmp_shape (l : Nat) (f : FmtL) (s : State) : shape (tryWsmp l f s).state = shape s := by
  unfold tryWsmp
  repeat' (first
    | with_reducible rfl
    | (with_reducible refine (checked_shape _ _ _ ?_).trans ?_)
    | (with_reducible refine (withSc_shape _ _ _ _ ?_).trans ?_)
    | simp only [↓pushOp_shape]
    | split
    | intro _
    | (with_reducible show rect _ = rect _) <;> rfl)

theorem tryWsmx_shape (l : Nat) (f : FmtL) (s : State) : shape (tryWsmx l f s).state = shape s := by
  unfold tryWsmx
  repeat' (first
    | with_reducible rfl
    | (with_reducible refine (checked_shape _ _ _ ?_).trans ?_)
    | (with_reducible refine (withSc_shape _ _ _ _ ?_).trans ?_)
    | simp only [↓pushOp_shape]
    | split
    | intro _
    | (with_reducible show rect _ = rect _) <;> rfl)

theorem tryWtopk_shape (l : Nat) (f : FmtL) (s : State) : shape (tryWtopk l f s).state = shape s := by
  unfold tryWtopk
  repeat' (first
    | with_reducible rfl
    | (with_reducible refine (checked_shape _ _ _ ?_).trans ?_)
    | (with_reducible refine (withSc_shape _ _ _ _ ?_).trans ?_)
    | simp only [↓pushOp_shape]
    | split
    | intro _
    | (with_reducible show rect _ = rect _) <;> rfl)

theorem tryWvb_shape (l : Nat) (f : FmtL) (s : State) : shape (tryWvb l f s).state = shape s := by
  unfold tryWvb
  repeat' (first
    | with_reducible rfl
    | (with_reducible refine (checked_shape _ _ _ ?_).trans ?_)
    | (with_reducible refine (withSc_shape _ _ _ _ ?_).trans ?_)
    | simp only [↓pushOp_shape]
    | split
    | intro _
    | (with_reducible show rect _ = rect _) <;> rfl)

theorem tryWvu_shape (l : Nat) (f : FmtL) (s : State) : shape (tryWvu l f s).state = shape s := by
  unfold tryWvu
  repeat' (first
    | with_reducible rfl
    | (with_reducible refine (checked_shape _ _ _ ?_).trans ?_)
    | (with_reducible refine (withSc_shape _ _ _ _ ?_).trans ?_)
    | simp only [↓pushOp_shape]
    | split
    | intro _
    | (with_reducible show rect _ = rect _) <;> rfl)

/-! ## Machine/EngineInstr.lean -/

theorem execAclr_shape (l : Nat) (f : FmtK) (s : State) {nxt : State} (hn : execAclr l f s = .next nxt) : shape nxt = shape s := by
  unfold execAclr at hn
  refine guarded_shape hn ?_
  repeat' (first
    | with_reducible rfl
    | (with_reducible refine (issueTo_shape _ _ _ _ _ ?_).trans ?_)
    | simp only [↓tryAclr_shape]
    | split
    | intro _
    | (with_reducible show rect _ = rect _) <;> rfl)

theorem execAexp_shape (l : Nat) (f : FmtK) (s : State) {nxt : State} (hn : execAexp l f s = .next nxt) : shape nxt = shape s := by
  unfold execAexp at hn
  refine guarded_shape hn ?_
  repeat' (first
    | with_reducible rfl
    | (with_reducible refine (issueTo_shape _ _ _ _ _ ?_).trans ?_)
    | simp only [↓tryAexp_shape]
    | split
    | intro _
    | (with_reducible show rect _ = rect _) <;> rfl)

theorem execAimp_shape (l : Nat) (f : FmtK) (s : State) {nxt : State} (hn : execAimp l f s = .next nxt) : shape nxt = shape s := by
  unfold execAimp at hn
  refine guarded_shape hn ?_
  repeat' (first
    | with_reducible rfl
    | (with_reducible refine (issueTo_shape _ _ _ _ _ ?_).trans ?_)
    | simp only [↓tryAimp_shape]
    | split
    | intro _
    | (with_reducible show rect _ = rect _) <;> rfl)

theorem execAop_shape (l : Nat) (f : FmtA) (s : State) {nxt : State} (hn : execAop l f s = .next nxt) : shape nxt = shape s := by
  unfold execAop at hn
  refine guarded_shape hn ?_
  repeat' (first
    | with_reducible rfl
    | (with_reducible refine (issueTo_shape _ _ _ _ _ ?_).trans ?_)
    | simp only [↓tryAop_shape]
    | split
    | intro _
    | (with_reducible show rect _ = rect _) <;> rfl)

theorem execArd_shape (l : Nat) (f : FmtK) (s : State) {nxt : State} (hn : execArd l f s = .next nxt) : shape nxt = shape s := by
  unfold execArd at hn
  refine guarded_shape hn ?_
  repeat' (first
    | with_reducible rfl
    | (with_reducible refine (issueTo_shape _ _ _ _ _ ?_).trans ?_)
    | simp only [↓tryArd_shape]
    | split
    | intro _
    | (with_reducible show rect _ = rect _) <;> rfl)

theorem execAscr_shape (l : Nat) (f : FmtL) (s : State) {nxt : State} (hn : execAscr l f s = .next nxt) : shape nxt = shape s := by
  unfold execAscr at hn
  refine guarded_shape hn ?_
  repeat' (first
    | with_reducible rfl
    | (with_reducible refine (issueTo_shape _ _ _ _ _ ?_).trans ?_)
    | simp only [↓tryAscr_shape]
    | split
    | intro _
    | (with_reducible show rect _ = rect _) <;> rfl)

theorem execAval_shape (l : Nat) (f : FmtL) (s : State) {nxt : State} (hn : execAval l f s = .next nxt) : shape nxt = shape s := by
  unfold execAval at hn
  refine guarded_shape hn ?_
  repeat' (first
    | with_reducible rfl
    | (with_reducible refine (issueTo_shape _ _ _ _ _ ?_).trans ?_)
    | simp only [↓tryAval_shape]
    | split
    | intro _
    | (with_reducible show rect _ = rect _) <;> rfl)

theorem execClr_shape (l : Nat) (f : FmtL) (s : State) {nxt : State} (hn : execClr l f s = .next nxt) : shape nxt = shape s := by
  unfold execClr at hn
  refine guarded_shape hn ?_
  repeat' (first
    | with_reducible rfl
    | (with_reducible refine (issueTo_shape _ _ _ _ _ ?_).trans ?_)
    | simp only [↓tryClr_shape]
    | split
    | intro _
    | (with_reducible show rect _ = rect _) <;> rfl)

theorem execCopy_shape (l : Nat) (f : FmtL) (s : State) {nxt : State} (hn : execCopy l f s = .next nxt) : shape nxt = shape s := by
  unfold execCopy at hn
  refine guarded_shape hn ?_
  repeat' (first
    | with_reducible rfl
    | (with_reducible refine (issueTo_shape _ _ _ _ _ ?_).trans ?_)
    | simp only [↓tryCopy_shape]
    | split
    | intro _
    | (with_reducible show rect _ = rect _) <;> rfl)

theorem execKapp_shape (l : Nat) (f : FmtL) (s : State) {nxt : State} (hn : execKapp l f s = .next nxt) : shape nxt = shape s := by
  unfold execKapp at hn
  refine guarded_shape hn ?_
  repeat' (first
    | with_reducible rfl
    | (with_reducible refine (issueTo_shape _ _ _ _ _ ?_).trans ?_)
    | simp only [↓tryKapp_shape]
    | split
    | intro _
    | (with_reducible show rect _ = rect _) <;> rfl)

theorem execKmark_shape (l : Nat) (f : FmtL) (s : State) {nxt : State} (hn : execKmark l f s = .next nxt) : shape nxt = shape s := by
  unfold execKmark at hn
  refine guarded_shape hn ?_
  repeat' (first
    | with_reducible rfl
    | (with_reducible refine (issueTo_shape _ _ _ _ _ ?_).trans ?_)
    | simp only [↓tryKmark_shape]
    | split
    | intro _
    | (with_reducible show rect _ = rect _) <;> rfl)

theorem execKrel_shape (l : Nat) (f : FmtL) (s : State) {nxt : State} (hn : execKrel l f s = .next nxt) : shape nxt = shape s := by
  unfold execKrel at hn
  refine guarded_shape hn ?_
  repeat' (first
    | with_reducible rfl
    | (with_reducible refine (issueTo_shape _ _ _ _ _ ?_).trans ?_)
    | simp only [↓tryKrel_shape]
    | split
    | intro _
    | (with_reducible show rect _ = rect _) <;> rfl)

theorem execKrew_shape (l : Nat) (f : FmtL) (s : State) {nxt : State} (hn : execKrew l f s = .next nxt) : shape nxt = shape s := by
  unfold execKrew at hn
  refine guarded_shape hn ?_
  repeat' (first
    | with_reducible rfl
    | (with_reducible refine (issueTo_shape _ _ _ _ _ ?_).trans ?_)
    | simp only [↓tryKrew_shape]
    | split
    | intro _
    | (with_reducible show rect _ = rect _) <;> rfl)

theorem execKwalk_shape (l : Nat) (f : FmtL) (s : State) {nxt : State} (hn : execKwalk l f s = .next nxt) : shape nxt = shape s := by
  unfold execKwalk at hn
  refine guarded_shape hn ?_
  repeat' (first
    | with_reducible rfl
    | (with_reducible refine (issueTo_shape _ _ _ _ _ ?_).trans ?_)
    | simp only [↓tryKwalk_shape]
    | split
    | intro _
    | (with_reducible show rect _ = rect _) <;> rfl)

theorem execKxfr_shape (l : Nat) (f : FmtL) (s : State) {nxt : State} (hn : execKxfr l f s = .next nxt) : shape nxt = shape s := by
  unfold execKxfr at hn
  refine guarded_shape hn ?_
  repeat' (first
    | with_reducible rfl
    | (with_reducible refine (issueTo_shape _ _ _ _ _ ?_).trans ?_)
    | simp only [↓tryKxfr_shape]
    | split
    | intro _
    | (with_reducible show rect _ = rect _) <;> rfl)

theorem execQld_shape (l : Nat) (f : FmtL) (s : State) {nxt : State} (hn : execQld l f s = .next nxt) : shape nxt = shape s := by
  unfold execQld at hn
  refine guarded_shape hn ?_
  repeat' (first
    | with_reducible rfl
    | (with_reducible refine (issueTo_shape _ _ _ _ _ ?_).trans ?_)
    | simp only [↓tryQld_shape]
    | split
    | intro _
    | (with_reducible show rect _ = rect _) <;> rfl)

theorem execQmark_shape (l : Nat) (f : FmtQ) (s : State) {nxt : State} (hn : execQmark l f s = .next nxt) : shape nxt = shape s := by
  unfold execQmark at hn
  refine guarded_shape hn ?_
  repeat' (first
    | with_reducible rfl
    | (with_reducible refine (issueTo_shape _ _ _ _ _ ?_).trans ?_)
    | simp only [↓tryQmark_shape]
    | split
    | intro _
    | (with_reducible show rect _ = rect _) <;> rfl)

theorem execQpeek_shape (l : Nat) (f : FmtQ) (s : State) {nxt : State} (hn : execQpeek l f s = .next nxt) : shape nxt = shape s := by
  unfold execQpeek at hn
  refine guarded_shape hn ?_
  repeat' (first
    | with_reducible rfl
    | (with_reducible refine (issueTo_shape _ _ _ _ _ ?_).trans ?_)
    | simp only [↓tryQpeek_shape]
    | split
    | intro _
    | (with_reducible show rect _ = rect _) <;> rfl)

theorem execQpop_shape (l : Nat) (f : FmtQ) (s : State) {nxt : State} (hn : execQpop l f s = .next nxt) : shape nxt = shape s := by
  unfold execQpop at hn
  refine guarded_shape hn ?_
  repeat' (first
    | with_reducible rfl
    | (with_reducible refine (issueTo_shape _ _ _ _ _ ?_).trans ?_)
    | simp only [↓tryQpop_shape]
    | split
    | intro _
    | (with_reducible show rect _ = rect _) <;> rfl)

theorem execQrel_shape (l : Nat) (f : FmtQ) (s : State) {nxt : State} (hn : execQrel l f s = .next nxt) : shape nxt = shape s := by
  unfold execQrel at hn
  refine guarded_shape hn ?_
  repeat' (first
    | with_reducible rfl
    | (with_reducible refine (issueTo_shape _ _ _ _ _ ?_).trans ?_)
    | simp only [↓tryQrel_shape]
    | split
    | intro _
    | (with_reducible show rect _ = rect _) <;> rfl)

theorem execQrewind_shape (l : Nat) (f : FmtQ) (s : State) {nxt : State} (hn : execQrewind l f s = .next nxt) : shape nxt = shape s := by
  unfold execQrewind at hn
  refine guarded_shape hn ?_
  repeat' (first
    | with_reducible rfl
    | (with_reducible refine (issueTo_shape _ _ _ _ _ ?_).trans ?_)
    | simp only [↓tryQrewind_shape]
    | split
    | intro _
    | (with_reducible show rect _ = rect _) <;> rfl)

theorem execQstat_shape (l : Nat) (f : FmtQ) (s : State) {nxt : State} (hn : execQstat l f s = .next nxt) : shape nxt = shape s := by
  unfold execQstat at hn
  refine guarded_shape hn ?_
  repeat' (first
    | with_reducible rfl
    | (with_reducible refine (issueTo_shape _ _ _ _ _ ?_).trans ?_)
    | simp only [↓tryQstat_shape]
    | split
    | intro _
    | (with_reducible show rect _ = rect _) <;> rfl)

theorem execRecv_shape (l : Nat) (f : FmtQ) (s : State) {nxt : State} (hn : execRecv l f s = .next nxt) : shape nxt = shape s := by
  unfold execRecv at hn
  refine guarded_shape hn ?_
  repeat' (first
    | with_reducible rfl
    | (with_reducible refine (issueTo_shape _ _ _ _ _ ?_).trans ?_)
    | simp only [↓tryRecv_shape]
    | split
    | intro _
    | (with_reducible show rect _ = rect _) <;> rfl)

theorem execSend_shape (l : Nat) (f : FmtL) (s : State) {nxt : State} (hn : execSend l f s = .next nxt) : shape nxt = shape s := by
  unfold execSend at hn
  refine guarded_shape hn ?_
  repeat' (first
    | with_reducible rfl
    | (with_reducible refine (issueTo_shape _ _ _ _ _ ?_).trans ?_)
    | simp only [↓trySend_shape]
    | split
    | intro _
    | (with_reducible show rect _ = rect _) <;> rfl)

theorem execTrd_shape (l : Nat) (f : FmtL) (s : State) {nxt : State} (hn : execTrd l f s = .next nxt) : shape nxt = shape s := by
  unfold execTrd at hn
  refine guarded_shape hn ?_
  repeat' (first
    | with_reducible rfl
    | (with_reducible refine (issueTo_shape _ _ _ _ _ ?_).trans ?_)
    | simp only [↓tryTrd_shape]
    | split
    | intro _
    | (with_reducible show rect _ = rect _) <;> rfl)

theorem execWfdot_shape (l : Nat) (f : FmtL) (s : State) {nxt : State} (hn : execWfdot l f s = .next nxt) : shape nxt = shape s := by
  unfold execWfdot at hn
  refine guarded_shape hn ?_
  repeat' (first
    | with_reducible rfl
    | (with_reducible refine (issueTo_shape _ _ _ _ _ ?_).trans ?_)
    | simp only [↓tryWfdot_shape]
    | split
    | intro _
    | (with_reducible show rect _ = rect _) <;> rfl)

theorem execWgth_shape (l : Nat) (f : FmtL) (s : State) {nxt : State} (hn : execWgth l f s = .next nxt) : shape nxt = shape s := by
  unfold execWgth at hn
  refine guarded_shape hn ?_
  repeat' (first
    | with_reducible rfl
    | (with_reducible refine (issueTo_shape _ _ _ _ _ ?_).trans ?_)
    | simp only [↓tryWgth_shape]
    | split
    | intro _
    | (with_reducible show rect _ = rect _) <;> rfl)

theorem execWidot_shape (l : Nat) (f : FmtL) (s : State) {nxt : State} (hn : execWidot l f s = .next nxt) : shape nxt = shape s := by
  unfold execWidot at hn
  refine guarded_shape hn ?_
  repeat' (first
    | with_reducible rfl
    | (with_reducible refine (issueTo_shape _ _ _ _ _ ?_).trans ?_)
    | simp only [↓tryWidot_shape]
    | split
    | intro _
    | (with_reducible show rect _ = rect _) <;> rfl)

theorem execWqnt_shape (l : Nat) (f : FmtL) (s : State) {nxt : State} (hn : execWqnt l f s = .next nxt) : shape nxt = shape s := by
  unfold execWqnt at hn
  refine guarded_shape hn ?_
  repeat' (first
    | with_reducible rfl
    | (with_reducible refine (issueTo_shape _ _ _ _ _ ?_).trans ?_)
    | simp only [↓tryWqnt_shape]
    | split
    | intro _
    | (with_reducible show rect _ = rect _) <;> rfl)

theorem execWred_shape (l : Nat) (f : FmtL) (s : State) {nxt : State} (hn : execWred l f s = .next nxt) : shape nxt = shape s := by
  unfold execWred at hn
  refine guarded_shape hn ?_
  repeat' (first
    | with_reducible rfl
    | (with_reducible refine (issueTo_shape _ _ _ _ _ ?_).trans ?_)
    | simp only [↓tryWred_shape]
    | split
    | intro _
    | (with_reducible show rect _ = rect _) <;> rfl)

theorem execWsmp_shape (l : Nat) (f : FmtL) (s : State) {nxt : State} (hn : execWsmp l f s = .next nxt) : shape nxt = shape s := by
  unfold execWsmp at hn
  refine guarded_shape hn ?_
  repeat' (first
    | with_reducible rfl
    | (with_reducible refine (issueTo_shape _ _ _ _ _ ?_).trans ?_)
    | simp only [↓tryWsmp_shape]
    | split
    | intro _
    | (with_reducible show rect _ = rect _) <;> rfl)

theorem execWsmx_shape (l : Nat) (f : FmtL) (s : State) {nxt : State} (hn : execWsmx l f s = .next nxt) : shape nxt = shape s := by
  unfold execWsmx at hn
  refine guarded_shape hn ?_
  repeat' (first
    | with_reducible rfl
    | (with_reducible refine (issueTo_shape _ _ _ _ _ ?_).trans ?_)
    | simp only [↓tryWsmx_shape]
    | split
    | intro _
    | (with_reducible show rect _ = rect _) <;> rfl)

theorem execWtopk_shape (l : Nat) (f : FmtL) (s : State) {nxt : State} (hn : execWtopk l f s = .next nxt) : shape nxt = shape s := by
  unfold execWtopk at hn
  refine guarded_shape hn ?_
  repeat' (first
    | with_reducible rfl
    | (with_reducible refine (issueTo_shape _ _ _ _ _ ?_).trans ?_)
    | simp only [↓tryWtopk_shape]
    | split
    | intro _
    | (with_reducible show rect _ = rect _) <;> rfl)

theorem execWvb_shape (l : Nat) (f : FmtL) (s : State) {nxt : State} (hn : execWvb l f s = .next nxt) : shape nxt = shape s := by
  unfold execWvb at hn
  refine guarded_shape hn ?_
  repeat' (first
    | with_reducible rfl
    | (with_reducible refine (issueTo_shape _ _ _ _ _ ?_).trans ?_)
    | simp only [↓tryWvb_shape]
    | split
    | intro _
    | (with_reducible show rect _ = rect _) <;> rfl)

theorem execWvu_shape (l : Nat) (f : FmtL) (s : State) {nxt : State} (hn : execWvu l f s = .next nxt) : shape nxt = shape s := by
  unfold execWvu at hn
  refine guarded_shape hn ?_
  repeat' (first
    | with_reducible rfl
    | (with_reducible refine (issueTo_shape _ _ _ _ _ ?_).trans ?_)
    | simp only [↓tryWvu_shape]
    | split
    | intro _
    | (with_reducible show rect _ = rect _) <;> rfl)

end Sys2Proof.Machine
end

