-- ==== Sys2Proof/Laws/FrameCommands.lean ====
section
/-! SUPPORT. What leaves the shape of the machine (Laws/Frame.lean): register writes and the Prafer and partition commands. -/

set_option linter.unusedSimpArgs false
set_option linter.unusedTactic false
set_option linter.unreachableTactic false
set_option linter.unusedVariables false
set_option linter.unnecessarySeqFocus false

namespace Sys2Proof.Machine

/-! ## Machine/Registers.lean -/

theorem clearAlert_shape (bits : BitVec 32) (s : State) : shape (clearAlert bits s) = shape s := rfl

theorem alertWrite_shape (fn : Fn) (v : BitVec 32) (s : State) : shape (alertWrite fn v s) = shape s := by
  unfold alertWrite
  repeat' (first
    | with_reducible rfl
    | simp only [↓clearAlert_shape, ↓noteRsvd_shape]
    | split)

theorem execAlertStatusClear_shape (fn : Fn) (v : BitVec 32) (s : State) {nxt : State} (hn : execAlertStatusClear fn v s = .next nxt) : shape nxt = shape s := by
  unfold execAlertStatusClear at hn
  refine guarded_shape hn ?_
  simp only [↓alertWrite_shape]

theorem pertAct_shape (fn : Fn) (pn : Nat) (mask v : BitVec 32) (act : Partition → State → State) (s : State)
    (h : ∀ p s, getPart s pn = some p → shape (act p s) = shape s) : shape (pertAct fn pn mask v act s) = shape s := by
  unfold pertAct
  dsimp only
  split
  · exact noteRsvd_shape _ _ _ _
  · split
    · next hp => exact (h _ _ hp).trans (noteRsvd_shape _ _ _ _)
    · exact noteRsvd_shape _ _ _ _

theorem pertRefuse_shape (pn : Nat) (s : State) : shape (pertRefuse pn s) = shape s := by
  unfold pertRefuse
  repeat' (first
    | with_reducible rfl
    | (with_reducible refine (updPart_shape _ _ _ ?_).trans ?_)
    | split
    | intro _
    | (with_reducible show rect _ = rect _) <;> rfl)

theorem fiParityNow_shape (fn : Fn) (pn : Nat) (v : BitVec 32) (s : State) : shape (fiParityNow fn pn v s) = shape s := by
  unfold fiParityNow
  repeat' (first
    | with_reducible rfl
    | (with_reducible refine (pertAct_shape _ _ _ _ _ _ ?_).trans ?_)
    | simp only [↓pertRefuse_shape, ↓updL_shape]
    | split
    | intro _
    | (with_reducible show rect _ = rect _) <;> rfl)

theorem execFiParity_shape (fn : Fn) (part : Nat) (v : BitVec 32) (s : State) {nxt : State} (hn : execFiParity fn part v s = .next nxt) : shape nxt = shape s := by
  unfold execFiParity at hn
  refine guarded_shape hn ?_
  simp only [↓fiParityNow_shape]

theorem fiPoisonNow_shape (fn : Fn) (pn : Nat) (v : BitVec 32) (s : State) : shape (fiPoisonNow fn pn v s) = shape s := by
  unfold fiPoisonNow
  repeat' (first
    | with_reducible rfl
    | (with_reducible refine (pertAct_shape _ _ _ _ _ _ ?_).trans ?_)
    | simp only [↓pertRefuse_shape, ↓updSl_shape]
    | split
    | intro _
    | (with_reducible show rect _ = rect _) <;> rfl)

theorem execFiPoison_shape (fn : Fn) (part : Nat) (v : BitVec 32) (s : State) {nxt : State} (hn : execFiPoison fn part v s = .next nxt) : shape nxt = shape s := by
  unfold execFiPoison at hn
  refine guarded_shape hn ?_
  simp only [↓fiPoisonNow_shape]

theorem pertAdc_shape (fn : Fn) (pn : Nat) (v : BitVec 32) (s : State) : shape (pertAdc fn pn v s) = shape s := by
  unfold pertAdc
  repeat' (first
    | with_reducible rfl
    | (with_reducible refine (pertAct_shape _ _ _ _ _ _ ?_).trans ?_)
    | (with_reducible refine (updPart_shape _ _ _ ?_).trans ?_)
    | split
    | intro _
    | (with_reducible show rect _ = rect _) <;> rfl)

theorem execPertAdcWrite_shape (fn : Fn) (part : Nat) (v : BitVec 32) (s : State) {nxt : State} (hn : execPertAdcWrite fn part v s = .next nxt) : shape nxt = shape s := by
  unfold execPertAdcWrite at hn
  refine guarded_shape hn ?_
  simp only [↓pertAdc_shape]

theorem pertCredit_shape (fn : Fn) (pn : Nat) (v : BitVec 32) (s : State) : shape (pertCredit fn pn v s) = shape s := by
  unfold pertCredit
  repeat' (first
    | with_reducible rfl
    | (with_reducible refine (pertAct_shape _ _ _ _ _ _ ?_).trans ?_)
    | (with_reducible refine (updPart_shape _ _ _ ?_).trans ?_)
    | simp only [↓pertRefuse_shape]
    | split
    | intro _
    | (with_reducible show rect _ = rect _) <;> rfl)

theorem execPertCreditWrite_shape (fn : Fn) (part : Nat) (v : BitVec 32) (s : State) {nxt : State} (hn : execPertCreditWrite fn part v s = .next nxt) : shape nxt = shape s := by
  unfold execPertCreditWrite at hn
  refine guarded_shape hn ?_
  simp only [↓pertCredit_shape]

theorem pertHsdelay_shape (fn : Fn) (pn : Nat) (i : Nat) (v : BitVec 32) (s : State) : shape (pertHsdelay fn pn i v s) = shape s := by
  unfold pertHsdelay
  repeat' (first
    | with_reducible rfl
    | (with_reducible refine (pertAct_shape _ _ _ _ _ _ ?_).trans ?_)
    | (with_reducible refine (updPart_shape _ _ _ ?_).trans ?_)
    | simp only [↓pertRefuse_shape]
    | split
    | intro _
    | (with_reducible show rect _ = rect _) <;> rfl)

theorem execPertHsdelayWrite_shape (fn : Fn) (part : Nat) (i : Nat) (v : BitVec 32) (s : State) {nxt : State} (hn : execPertHsdelayWrite fn part i v s = .next nxt) : shape nxt = shape s := by
  unfold execPertHsdelayWrite at hn
  refine guarded_shape hn ?_
  simp only [↓pertHsdelay_shape]

theorem pertRetrainNow_shape (fn : Fn) (pn : Nat) (v : BitVec 32) (s : State) : shape (pertRetrainNow fn pn v s) = shape s := by
  unfold pertRetrainNow
  repeat' (first
    | with_reducible rfl
    | (with_reducible refine (pertAct_shape _ _ _ _ _ _ ?_).trans ?_)
    | (with_reducible refine (updPart_shape _ _ _ ?_).trans ?_)
    | simp only [↓pertRefuse_shape, ↓updZ_shape]
    | split
    | intro _
    | (with_reducible show rect _ = rect _) <;> rfl)

theorem execPertRetrain_shape (fn : Fn) (part : Nat) (v : BitVec 32) (s : State) {nxt : State} (hn : execPertRetrain fn part v s = .next nxt) : shape nxt = shape s := by
  unfold execPertRetrain at hn
  refine guarded_shape hn ?_
  simp only [↓pertRetrainNow_shape]

theorem pertStretch_shape (fn : Fn) (pn : Nat) (v : BitVec 32) (s : State) : shape (pertStretch fn pn v s) = shape s := by
  unfold pertStretch
  repeat' (first
    | with_reducible rfl
    | (with_reducible refine (pertAct_shape _ _ _ _ _ _ ?_).trans ?_)
    | (with_reducible refine (updPart_shape _ _ _ ?_).trans ?_)
    | split
    | intro _
    | (with_reducible show rect _ = rect _) <;> rfl)

theorem execPertStretchWrite_shape (fn : Fn) (part : Nat) (v : BitVec 32) (s : State) {nxt : State} (hn : execPertStretchWrite fn part v s = .next nxt) : shape nxt = shape s := by
  unfold execPertStretchWrite at hn
  refine guarded_shape hn ?_
  simp only [↓pertStretch_shape]

theorem pertBlock_shape (fn : Fn) (pn : Nat) (o : Nat) (v : BitVec 32) (s : State) : shape (pertBlock fn pn o v s) = shape s := by
  unfold pertBlock
  repeat' (first
    | with_reducible rfl
    | (with_reducible refine (pertAct_shape _ _ _ _ _ _ ?_).trans ?_)
    | (with_reducible refine (updPart_shape _ _ _ ?_).trans ?_)
    | simp only [↓pertHsdelay_shape, ↓pertCredit_shape, ↓pertStretch_shape, ↓pertAdc_shape, ↓pertRetrainNow_shape, ↓fiParityNow_shape, ↓fiPoisonNow_shape, ↓noteRsvd_shape]
    | split
    | intro _
    | (with_reducible show rect _ = rect _) <;> rfl)

theorem traceCtrl_shape (fn : Fn) (v : BitVec 32) (s : State) : shape (traceCtrl fn v s) = shape s := by
  unfold traceCtrl
  repeat' (first
    | with_reducible rfl
    | (with_reducible refine (updPart_shape _ _ _ ?_).trans ?_)
    | simp only [↓noteRsvd_shape]
    | split
    | intro _
    | (with_reducible show rect _ = rect _) <;> rfl)

theorem writeReg_shape (fn : Fn) (o : Nat) (v : BitVec 32) (s : State) : shape (writeReg fn o v s) = shape s := by
  unfold writeReg
  repeat' (first
    | with_reducible rfl
    | simp only [↓rsvdWrite_shape, ↓updFn_shape, ↓noteRsvd_shape, ↓alertWrite_shape, ↓doorbell_shape, ↓traceCtrl_shape, ↓writeCtrl_shape, ↓pertBlock_shape]
    | split)

theorem registerWrite_shape (fn : Fn) (bar2 : Bool) (o : Nat) (v : BitVec 64) (eight : Bool) (s : State) : shape (registerWrite fn bar2 o v eight s) = shape s := by
  unfold registerWrite
  repeat' (first
    | with_reducible rfl
    | simp only [↓rsvdWrite_shape, ↓writeReg_shape]
    | split)

theorem execRegisterWrite_shape (fn : Fn) (bar2 : Bool) (offset : Nat) (v : BitVec 64) (eight : Bool) (s : State) {nxt : State} (hn : execRegisterWrite fn bar2 offset v eight s = .next nxt) : shape nxt = shape s := by
  unfold execRegisterWrite at hn
  refine settled_shape hn ?_
  simp only [↓registerWrite_shape]

theorem execTraceCtrlWrite_shape (fn : Fn) (v : BitVec 32) (s : State) {nxt : State} (hn : execTraceCtrlWrite fn v s = .next nxt) : shape nxt = shape s := by
  unfold execTraceCtrlWrite at hn
  refine guarded_shape hn ?_
  simp only [↓traceCtrl_shape]

/-! ## Machine/Records.lean -/

theorem commitRec_shape (pn : Nat) (f : State → State) (s : State) (h : ∀ s, shape (f s) = shape s) : shape (commitRec pn f s) = shape s := by
  unfold commitRec
  dsimp only
  split
  · split
    · exact h s
    · refine (updPart_shape _ _ _ ?_).trans (h s)
      intro _; rfl
  · exact h s

theorem holdShown_shape (s0 s : State) : shape (holdShown s0 s) = shape s := rfl

theorem showNow_shape (s : State) : shape (showNow s) = shape s := by
  unfold showNow
  repeat' (first
    | with_reducible rfl
    | simp only [↓mk_shape]
    | split
    | intro _
    | (with_reducible show rect _ = rect _) <;> rfl)

/-! ## Machine/ModuleCmds.lean -/

theorem selectUnit_shape (kind : Nat) (i : Nat) (src : Nat) (clr : Bool) (u : Nat) (s : State) : shape (selectUnit kind i src clr u s) = shape s := by
  unfold selectUnit
  repeat' (first
    | with_reducible rfl
    | simp only [↓updL_shape, ↓updF_shape]
    | split)

theorem settleIdle_shape (pn : Nat) (s : State) : shape (settleIdle pn s) = shape s := by
  unfold settleIdle
  repeat' (first
    | with_reducible rfl
    | simp only [↓applyPending_shape]
    | split)

theorem counterSelect_shape (e : Entry) (s : State) : shape (counterSelect e s).1 = shape s := by
  unfold counterSelect
  repeat' (first
    | with_reducible rfl
    | (with_reducible refine (fieldsThen_shape _ _ _ ?_).trans ?_)
    | (with_reducible refine (forEach_shape _ _ _ ?_).trans ?_)
    | (with_reducible refine (updPart_shape _ _ _ ?_).trans ?_)
    | simp only [↓fails_shape, ↓done_shape, ↓settleIdle_shape, ↓updT_shape, ↓selectUnit_shape]
    | split
    | intro _
    | (with_reducible show rect _ = rect _) <;> rfl)

theorem eventRingSet_shape (e : Entry) (s : State) : shape (eventRingSet e s).1 = shape s := by
  unfold eventRingSet
  repeat' (first
    | with_reducible rfl
    | (with_reducible refine (fieldsThen_shape _ _ _ ?_).trans ?_)
    | simp only [↓done_shape, ↓updFn_shape, ↓drainFn_shape]
    | split
    | intro _
    | (with_reducible show rect _ = rect _) <;> rfl)

theorem execCounterSelect_shape (e : Entry) (s : State) {nxt : State} (hn : execCounterSelect e s = .next nxt) : shape nxt = shape s := by
  unfold execCounterSelect at hn
  refine settled_shape hn ?_
  repeat' (first
    | with_reducible rfl
    | (with_reducible refine (takeCmd_shape _ _ _ ?_).trans ?_)
    | simp only [↓counterSelect_shape]
    | split
    | intro _
    | (with_reducible show rect _ = rect _) <;> rfl)

theorem execEventRingSet_shape (e : Entry) (s : State) {nxt : State} (hn : execEventRingSet e s = .next nxt) : shape nxt = shape s := by
  unfold execEventRingSet at hn
  refine settled_shape hn ?_
  repeat' (first
    | with_reducible rfl
    | (with_reducible refine (takeCmd_shape _ _ _ ?_).trans ?_)
    | simp only [↓eventRingSet_shape]
    | split
    | intro _
    | (with_reducible show rect _ = rect _) <;> rfl)

theorem identify_shape (e : Entry) (s : State) : shape (identify e s).1 = shape s := by
  unfold identify
  repeat' (first
    | with_reducible rfl
    | (with_reducible refine (fieldsThen_shape _ _ _ ?_).trans ?_)
    | simp only [↓done_shape, ↓writeOut_shape, ↓fails_shape, ↓failsField_shape]
    | split
    | intro _
    | (with_reducible show rect _ = rect _) <;> rfl)

theorem execIdentify_shape (e : Entry) (s : State) {nxt : State} (hn : execIdentify e s = .next nxt) : shape nxt = shape s := by
  unfold execIdentify at hn
  refine settled_shape hn ?_
  repeat' (first
    | with_reducible rfl
    | (with_reducible refine (takeCmd_shape _ _ _ ?_).trans ?_)
    | simp only [↓identify_shape]
    | split
    | intro _
    | (with_reducible show rect _ = rect _) <;> rfl)

theorem partQuery_shape (e : Entry) (s : State) : shape (partQuery e s).1 = shape s := by
  unfold partQuery
  repeat' (first
    | with_reducible rfl
    | (with_reducible refine (fieldsThen_shape _ _ _ ?_).trans ?_)
    | (with_reducible refine (partCmd_shape _ _ _ _ _ ?_).trans ?_)
    | simp only [↓done_shape, ↓writeOut_shape]
    | split
    | intro _
    | (with_reducible show rect _ = rect _) <;> rfl)

theorem execPartQuery_shape (e : Entry) (s : State) {nxt : State} (hn : execPartQuery e s = .next nxt) : shape nxt = shape s := by
  unfold execPartQuery at hn
  refine settled_shape hn ?_
  repeat' (first
    | with_reducible rfl
    | (with_reducible refine (takeCmd_shape _ _ _ ?_).trans ?_)
    | simp only [↓partQuery_shape]
    | split
    | intro _
    | (with_reducible show rect _ = rect _) <;> rfl)

theorem qpCreate_shape (e : Entry) (s : State) : shape (qpCreate e s).1 = shape s := by
  unfold qpCreate
  repeat' (first
    | with_reducible rfl
    | (with_reducible refine (fieldsThen_shape _ _ _ ?_).trans ?_)
    | simp only [↓fails_shape, ↓done_shape, ↓setQp_shape]
    | split
    | intro _
    | (with_reducible show rect _ = rect _) <;> rfl)

theorem execQpCreate_shape (e : Entry) (s : State) {nxt : State} (hn : execQpCreate e s = .next nxt) : shape nxt = shape s := by
  unfold execQpCreate at hn
  refine settled_shape hn ?_
  repeat' (first
    | with_reducible rfl
    | (with_reducible refine (takeCmd_shape _ _ _ ?_).trans ?_)
    | simp only [↓qpCreate_shape]
    | split
    | intro _
    | (with_reducible show rect _ = rect _) <;> rfl)

theorem qpDelete_shape (e : Entry) (h : Nat) (s : State) : shape (qpDelete e h s).1 = shape s := by
  unfold qpDelete
  repeat' (first
    | with_reducible rfl
    | (with_reducible refine (fieldsThen_shape _ _ _ ?_).trans ?_)
    | simp only [↓fails_shape, ↓later_shape, ↓waitFor_shape, ↓startDelete_shape]
    | split
    | intro _
    | (with_reducible show rect _ = rect _) <;> rfl)

theorem execQpDelete_shape (e : Entry) (s : State) {nxt : State} (hn : execQpDelete e s = .next nxt) : shape nxt = shape s := by
  unfold execQpDelete at hn
  refine settled_shape hn ?_
  repeat' (first
    | with_reducible rfl
    | (with_reducible refine (takeCmd_shape _ _ _ ?_).trans ?_)
    | simp only [↓qpDelete_shape]
    | split
    | intro _
    | (with_reducible show rect _ = rect _) <;> rfl)

theorem ringFormCmd_shape (e : Entry) (h : Nat) (s : State) : shape (ringFormCmd e h s).1 = shape s := by
  unfold ringFormCmd
  repeat' (first
    | with_reducible rfl
    | (with_reducible refine (fieldsThen_shape _ _ _ ?_).trans ?_)
    | (with_reducible refine (pfCmd_shape _ _ _ ?_).trans ?_)
    | simp only [↓later_shape, ↓waitFor_shape, ↓mk_shape]
    | split
    | intro _
    | (with_reducible show rect _ = rect _) <;> rfl)

theorem execRingForm_shape (e : Entry) (s : State) {nxt : State} (hn : execRingForm e s = .next nxt) : shape nxt = shape s := by
  unfold execRingForm at hn
  refine settled_shape hn ?_
  repeat' (first
    | with_reducible rfl
    | (with_reducible refine (takeCmd_shape _ _ _ ?_).trans ?_)
    | simp only [↓ringFormCmd_shape]
    | split
    | intro _
    | (with_reducible show rect _ = rect _) <;> rfl)

theorem ringModeCmd_shape (e : Entry) (s : State) : shape (ringModeCmd e s).1 = shape s := by
  unfold ringModeCmd
  repeat' (first
    | with_reducible rfl
    | (with_reducible refine (fieldsThen_shape _ _ _ ?_).trans ?_)
    | (with_reducible refine (pfCmd_shape _ _ _ ?_).trans ?_)
    | simp only [↓done_shape, ↓mk_shape]
    | split
    | intro _
    | (with_reducible show rect _ = rect _) <;> rfl)

theorem execRingMode_shape (e : Entry) (s : State) {nxt : State} (hn : execRingMode e s = .next nxt) : shape nxt = shape s := by
  unfold execRingMode at hn
  refine settled_shape hn ?_
  repeat' (first
    | with_reducible rfl
    | (with_reducible refine (takeCmd_shape _ _ _ ?_).trans ?_)
    | simp only [↓ringModeCmd_shape]
    | split
    | intro _
    | (with_reducible show rect _ = rect _) <;> rfl)

theorem setSparesCmd_shape (e : Entry) (s : State) : shape (setSparesCmd e s).1 = shape s := by
  unfold setSparesCmd
  repeat' (first
    | with_reducible rfl
    | (with_reducible refine (fieldsThen_shape _ _ _ ?_).trans ?_)
    | (with_reducible refine (pfCmd_shape _ _ _ ?_).trans ?_)
    | simp only [↓done_shape, ↓mk_shape]
    | split
    | intro _
    | (with_reducible show rect _ = rect _) <;> rfl)

theorem execSetSpares_shape (e : Entry) (s : State) {nxt : State} (hn : execSetSpares e s = .next nxt) : shape nxt = shape s := by
  unfold execSetSpares at hn
  refine settled_shape hn ?_
  repeat' (first
    | with_reducible rfl
    | (with_reducible refine (takeCmd_shape _ _ _ ?_).trans ?_)
    | simp only [↓setSparesCmd_shape]
    | split
    | intro _
    | (with_reducible show rect _ = rect _) <;> rfl)

theorem telemetryRead_shape (e : Entry) (s : State) : shape (telemetryRead e s).1 = shape s := by
  unfold telemetryRead
  repeat' (first
    | with_reducible rfl
    | (with_reducible refine (fieldsThen_shape _ _ _ ?_).trans ?_)
    | simp only [↓fails_shape, ↓failsField_shape, ↓doneWith_shape, ↓writeOut_shape]
    | split
    | intro _
    | (with_reducible show rect _ = rect _) <;> rfl)

theorem execTelemetryRead_shape (e : Entry) (s : State) {nxt : State} (hn : execTelemetryRead e s = .next nxt) : shape nxt = shape s := by
  unfold execTelemetryRead at hn
  refine settled_shape hn ?_
  repeat' (first
    | with_reducible rfl
    | (with_reducible refine (takeCmd_shape _ _ _ ?_).trans ?_)
    | simp only [↓telemetryRead_shape]
    | split
    | intro _
    | (with_reducible show rect _ = rect _) <;> rfl)

theorem execUnassignedOpcode_shape (e : Entry) (opcode : Byte) (s : State) {nxt : State} (hn : execUnassignedOpcode e opcode s = .next nxt) : shape nxt = shape s := by
  unfold execUnassignedOpcode at hn
  refine settled_shape hn ?_
  repeat' (first
    | with_reducible rfl
    | (with_reducible refine (takeCmd_shape _ _ _ ?_).trans ?_)
    | simp only [↓fails_shape]
    | split
    | intro _
    | (with_reducible show rect _ = rect _) <;> rfl)

/-! ## Machine/Loads.lean -/

theorem afreshDrift_shape (l : Nat) (a : Nat) (s : State) : shape (afreshDrift l a s) = shape s := by
  unfold afreshDrift
  simp only [↓driftUpdate_shape, ↓takeSamples_shape, ↓updArr_shape]

theorem answerChunk_shape (j : ChunkJob) (status : Nat) (s : State) : shape (answerChunk j status s) = shape s := by
  unfold answerChunk
  repeat' (first
    | with_reducible rfl
    | simp only [↓postPlain_shape]
    | split)

theorem applyLines_shape (l : Nat) (cells : SMap Int) (s : State) : shape (applyLines l cells s) = shape s := rfl

theorem banksBusy_shape (l : Nat) (s : State) : shape (banksBusy l s) = shape s := by
  unfold banksBusy
  repeat' (first
    | with_reducible rfl
    | (with_reducible refine (forEach_shape _ _ _ ?_).trans ?_)
    | simp only [↓bankBusy_shape]
    | split
    | intro _
    | (with_reducible show rect _ = rect _) <;> rfl)

theorem clearRanges_shape (l : Nat) (s : State) : shape (clearRanges l s) = shape s := by
  unfold clearRanges
  repeat' (first
    | with_reducible rfl
    | simp only [↓updL_shape]
    | split)

theorem cycleUp_shape (l : Nat) (a : Nat) (s : State) : shape (cycleUp l a s) = shape s := by
  unfold cycleUp
  repeat' (first
    | with_reducible rfl
    | simp only [↓updArr_shape, ↓raiseL_shape]
    | split)

theorem dropJobs_shape (p : ChunkJob → Bool) (s : State) : shape (dropJobs p s) = shape s := by
  unfold dropJobs
  repeat' (first
    | with_reducible rfl
    | (with_reducible refine (forEach_shape _ _ _ ?_).trans ?_)
    | simp only [↓answerChunk_shape, ↓startJobs_shape, ↓bankBusy_shape, ↓updArr_shape, ↓mk_shape]
    | split
    | intro _
    | (with_reducible show rect _ = rect _) <;> rfl)

theorem endLoad_shape (pn : Nat) (s : State) : shape (endLoad pn s).1 = shape s := by
  unfold endLoad
  repeat' (first
    | with_reducible rfl
    | (with_reducible refine (commitRec_shape _ _ _ ?_).trans ?_)
    | (with_reducible refine (updPart_shape _ _ _ ?_).trans ?_)
    | split
    | intro _
    | (with_reducible show rect _ = rect _) <;> rfl)

theorem retireArray_shape (l : Nat) (a : Nat) (s : State) : shape (retireArray l a s) = shape s := by
  unfold retireArray
  simp only [↓arrayBad_shape, ↓updArr_shape]

theorem eraseOne_shape (failed : List (Nat × Nat)) (e : Nat × Nat) (s : State) : shape (eraseOne failed e s) = shape s := by
  unfold eraseOne
  repeat' (first
    | with_reducible rfl
    | simp only [↓cycleUp_shape, ↓raiseL_shape, ↓retireArray_shape, ↓updArr_shape, ↓pairCommit_shape]
    | split)

theorem eraseThen_shape (e : Entry) (h : Nat) (xs : List (Nat × Nat)) (list : Bool) (result : Nat) (s0 s : State) :
    shape (eraseThen e h xs list false result s0 s).1 = shape s := by
  unfold eraseThen
  split
  · exact doneWith_shape _ _
  · exact (waitFor_shape _ _ _ _).trans ((startErase_shape _ _).trans (holdShown_shape _ _))

theorem measureArray_shape (l : Nat) (a : Nat) (s : State) : shape (measureArray l a s) = shape s := by
  unfold measureArray
  repeat' (first
    | with_reducible rfl
    | simp only [↓updArr_shape, ↓takeSamples_shape, ↓mk_shape]
    | split
    | intro _
    | (with_reducible show rect _ = rect _) <;> rfl)

theorem failChunk_shape (pn : Nat) (j : ChunkJob) (s : State) : shape (failChunk pn j s) = shape s := by
  unfold failChunk
  repeat' (first
    | with_reducible rfl
    | simp only [↓dropSlot_shape, ↓answerChunk_shape, ↓mk_shape]
    | split
    | intro _
    | (with_reducible show rect _ = rect _) <;> rfl)

theorem restartChunk_shape (pn : Nat) (l : Nat) (a : Nat) (j : ChunkJob) (s : State) : shape (restartChunk pn l a j s) = shape s := by
  unfold restartChunk
  repeat' (first
    | with_reducible rfl
    | simp only [↓startJobs_shape, ↓bankBusy_shape, ↓failChunk_shape, ↓mk_shape]
    | split
    | intro _
    | (with_reducible show rect _ = rect _) <;> rfl)

theorem programElsewhere_shape (pn : Nat) (l : Nat) (a : Nat) (j : ChunkJob) (s : State) : shape (programElsewhere pn l a j s) = shape s := by
  unfold programElsewhere
  simp only [↓restartChunk_shape, ↓pairCommit_shape, ↓updArr_shape]

theorem programFailed_shape (pn : Nat) (l : Nat) (a : Nat) (j : ChunkJob) (s : State) : shape (programFailed pn l a j s) = shape s := by
  unfold programFailed
  repeat' (first
    | with_reducible rfl
    | simp only [↓programElsewhere_shape, ↓arrayBad_shape, ↓pairCommit_shape, ↓updArr_shape]
    | split)

theorem recordChunk_rect (key : Nat) (p : Partition) (c : ChunkRec) (mode : Nat) (cells : SMap Int) : rect (recordChunk key p c mode cells) = rect p := by
  unfold recordChunk; dsimp only; split <;> rfl

theorem finishChunk_shape (pn : Nat) (j : ChunkJob) (s : State) : shape (finishChunk pn j s) = shape s := by
  unfold finishChunk
  dsimp only
  split
  · rw [answerChunk_shape]; rfl
  · next p hp =>
    split
    · rfl
    · split
      · rw [answerChunk_shape]; rfl
      · rw [answerChunk_shape, setPart_shape]
        · rfl
        · rw [hp]; exact congrArg some (recordChunk_rect _ p _ _ _)

theorem takeSetid_shape (s : State) : shape (takeSetid s) = shape s := rfl

theorem programOk_shape (pn : Nat) (l : Nat) (a : Nat) (j : ChunkJob) (s : State) : shape (programOk pn l a j s) = shape s := by
  unfold programOk
  simp only [↓updArr_shape, ↓pairCommit_shape, ↓takeSetid_shape, ↓startJobs_shape, ↓bankBusy_shape, ↓finishChunk_shape]

theorem tryClose_shape (pn : Nat) (s : State) : shape (tryClose pn s) = shape s := by
  unfold tryClose
  repeat' (first
    | with_reducible rfl
    | (with_reducible refine (forEach_shape _ _ _ ?_).trans ?_)
    | simp only [↓endLoad_shape, ↓postPlain_shape, ↓mk_shape]
    | split
    | intro _
    | (with_reducible show rect _ = rect _) <;> rfl)

theorem programDone_shape (l : Nat) (a : Nat) (ok : Bool) (s : State) : shape (programDone l a ok s) = shape s := by
  unfold programDone
  repeat' (first
    | with_reducible rfl
    | simp only [↓cycleUp_shape, ↓programElsewhere_shape, ↓retireArray_shape, ↓programFailed_shape, ↓measureArray_shape, ↓updArr_shape, ↓programOk_shape, ↓tryClose_shape]
    | split)

theorem execArrayProgrammingDone_shape (l : Nat) (arr : Nat) (ok : Bool) (s : State) {nxt : State} (hn : execArrayProgrammingDone l arr ok s = .next nxt) : shape nxt = shape s := by
  unfold execArrayProgrammingDone at hn
  refine settled_shape hn ?_
  simp only [↓programDone_shape]

theorem linesReady_shape (l : Nat) (s : State) : shape (linesReady l s) = shape s := by
  unfold linesReady
  repeat' (first
    | with_reducible rfl
    | (with_reducible refine (forEach_shape _ _ _ ?_).trans ?_)
    | simp only [↓tryClose_shape, ↓finishChunk_shape, ↓applyLines_shape]
    | split
    | intro _
    | (with_reducible show rect _ = rect _) <;> rfl)

theorem recalLantern_shape (setid : BitVec 32) (l : Nat) (s : State) : shape (recalLantern setid l s) = shape s := by
  unfold recalLantern
  repeat' (first
    | with_reducible rfl
    | (with_reducible refine (forEach_shape _ _ _ ?_).trans ?_)
    | simp only [↓calCommit_shape, ↓startCapture_shape, ↓mk_shape]
    | split
    | intro _
    | (with_reducible show rect _ = rect _) <;> rfl)

theorem recalReady_shape (l : Nat) (s : State) : shape (recalReady l s) = shape s := by
  unfold recalReady
  repeat' (first
    | with_reducible rfl
    | simp only [↓recalLantern_shape, ↓showNow_shape, ↓resolveWaits_shape, ↓mk_shape]
    | split
    | intro _
    | (with_reducible show rect _ = rect _) <;> rfl)

theorem rampEnd_shape (f : Nat) (s : State) : shape (rampEnd f s) = shape s := by
  unfold rampEnd
  repeat' (first
    | with_reducible rfl
    | simp only [↓startJobs_shape, ↓banksBusy_shape, ↓recalReady_shape, ↓linesReady_shape, ↓rampDone_shape]
    | split)

theorem execDomainRampDone_shape (field : Nat) (s : State) {nxt : State} (hn : execDomainRampDone field s = .next nxt) : shape nxt = shape s := by
  unfold execDomainRampDone at hn
  refine settled_shape hn ?_
  simp only [↓rampEnd_shape]

theorem refreshIdle_shape (pn : Nat) (s : State) : shape (refreshIdle pn s) = shape s := by
  unfold refreshIdle
  repeat' (first
    | with_reducible rfl
    | (with_reducible refine (updPart_shape _ _ _ ?_).trans ?_)
    | split
    | intro _
    | (with_reducible show rect _ = rect _) <;> rfl)

theorem execRefreshIdle_shape (part : Nat) (s : State) {nxt : State} (hn : execRefreshIdle part s = .next nxt) : shape nxt = shape s := by
  unfold execRefreshIdle at hn
  refine guarded_shape hn ?_
  simp only [↓refreshIdle_shape]

theorem windowEnd_shape (pn : Nat) (s : State) : shape (windowEnd pn s) = shape s := by
  unfold windowEnd
  repeat' (first
    | with_reducible rfl
    | (with_reducible refine (updPart_shape _ _ _ ?_).trans ?_)
    | simp only [↓resolveWaits_shape]
    | split
    | intro _
    | (with_reducible show rect _ = rect _) <;> rfl)

theorem execRefreshWindowEnd_shape (part : Nat) (s : State) {nxt : State} (hn : execRefreshWindowEnd part s = .next nxt) : shape nxt = shape s := by
  unfold execRefreshWindowEnd at hn
  refine settled_shape hn ?_
  simp only [↓windowEnd_shape]

theorem touchEnd_shape (pn : Nat) (l : Nat) (a : Nat) (s : State) : shape (touchEnd pn l a s) = shape s := by
  unfold touchEnd
  repeat' (first
    | with_reducible rfl
    | (with_reducible refine (updPart_shape _ _ _ ?_).trans ?_)
    | simp only [↓cycleUp_shape, ↓updArr_shape, ↓pairCommit_shape, ↓afreshDrift_shape, ↓retireArray_shape]
    | split
    | intro _
    | (with_reducible show rect _ = rect _) <;> rfl)

theorem touchRows_shape (l : Nat) (a : Nat) (s : State) : shape (touchRows l a s) = shape s := rfl

theorem touchChunk_shape (l : Nat) (a : Nat) (ok : Bool) (s : State) : shape (touchChunk l a ok s) = shape s := by
  unfold touchChunk
  repeat' (first
    | with_reducible rfl
    | simp only [↓touchRows_shape, ↓raiseL_shape, ↓pairCommit_shape, ↓updArr_shape, ↓touchEnd_shape]
    | split)

theorem execTouchUpChunk_shape (l : Nat) (arr : Nat) (ok : Bool) (s : State) {nxt : State} (hn : execTouchUpChunk l arr ok s = .next nxt) : shape nxt = shape s := by
  unfold execTouchUpChunk at hn
  refine guarded_shape hn ?_
  simp only [↓touchChunk_shape]

theorem loadIdle_shape (pn : Nat) (s : State) : shape (loadIdle pn s) = shape s := by
  unfold loadIdle
  repeat' (first
    | with_reducible rfl
    | simp only [↓endLoad_shape]
    | split)

theorem execWeightLoadIdleTimeout_shape (part : Nat) (s : State) {nxt : State} (hn : execWeightLoadIdleTimeout part s = .next nxt) : shape nxt = shape s := by
  unfold execWeightLoadIdleTimeout at hn
  refine settled_shape hn ?_
  simp only [↓loadIdle_shape]

/-! ## Machine/PartCmds.lean -/

theorem driftComp_shape (e : Entry) (s : State) : shape (driftComp e s).1 = shape s := by
  unfold driftComp
  repeat' (first
    | with_reducible rfl
    | (with_reducible refine (fieldsThen_shape _ _ _ ?_).trans ?_)
    | (with_reducible refine (partCmd_shape _ _ _ _ _ ?_).trans ?_)
    | (with_reducible refine (updPart_shape _ _ _ ?_).trans ?_)
    | simp only [↓done_shape, ↓settleIdle_shape]
    | split
    | intro _
    | (with_reducible show rect _ = rect _) <;> rfl)

theorem driftNow_shape (pn : Nat) (p : Partition) (s : State) : shape (driftNow pn p s).1 = shape s := by
  unfold driftNow
  repeat' (first
    | with_reducible rfl
    | (with_reducible refine (forEach_shape _ _ _ ?_).trans ?_)
    | simp only [↓driftUpdate_shape, ↓doneWith_shape, ↓settleIdle_shape]
    | split
    | intro _
    | (with_reducible show rect _ = rect _) <;> rfl)

theorem dropSet_shape (pn : Nat) (s : State) : shape (dropSet pn s) = shape s := by
  unfold dropSet
  repeat' (first
    | with_reducible rfl
    | (with_reducible refine (commitRec_shape _ _ _ ?_).trans ?_)
    | (with_reducible refine (updPart_shape _ _ _ ?_).trans ?_)
    | simp only [↓dropJobs_shape, ↓resolveWaits_shape]
    | split
    | intro _
    | (with_reducible show rect _ = rect _) <;> rfl)

theorem execDriftComp_shape (e : Entry) (s : State) {nxt : State} (hn : execDriftComp e s = .next nxt) : shape nxt = shape s := by
  unfold execDriftComp at hn
  refine settled_shape hn ?_
  repeat' (first
    | with_reducible rfl
    | (with_reducible refine (takeCmd_shape _ _ _ ?_).trans ?_)
    | simp only [↓driftComp_shape]
    | split
    | intro _
    | (with_reducible show rect _ = rect _) <;> rfl)

theorem monitorSet_shape (e : Entry) (s : State) : shape (monitorSet e s).1 = shape s := by
  unfold monitorSet
  repeat' (first
    | with_reducible rfl
    | (with_reducible refine (fieldsThen_shape _ _ _ ?_).trans ?_)
    | (with_reducible refine (partCmd_shape _ _ _ _ _ ?_).trans ?_)
    | (with_reducible refine (updPart_shape _ _ _ ?_).trans ?_)
    | simp only [↓done_shape, ↓settleIdle_shape]
    | split
    | intro _
    | (with_reducible show rect _ = rect _) <;> rfl)

theorem execMonitorSet_shape (e : Entry) (s : State) {nxt : State} (hn : execMonitorSet e s = .next nxt) : shape nxt = shape s := by
  unfold execMonitorSet at hn
  refine settled_shape hn ?_
  repeat' (first
    | with_reducible rfl
    | (with_reducible refine (takeCmd_shape _ _ _ ?_).trans ?_)
    | simp only [↓monitorSet_shape]
    | split
    | intro _
    | (with_reducible show rect _ = rect _) <;> rfl)

theorem takeChannels_shape (pn : Nat) (p : Partition) (s : State) : shape (takeChannels pn p s) = shape s := by
  unfold takeChannels
  repeat' (first
    | with_reducible rfl
    | (with_reducible refine (forEach_shape _ _ _ ?_).trans ?_)
    | simp only [↓updZ_shape]
    | split
    | intro _
    | (with_reducible show rect _ = rect _) <;> rfl)

theorem zeroCounters_shape (p : Partition) (s : State) : shape (zeroCounters p s) = shape s := by
  unfold zeroCounters
  repeat' (first
    | with_reducible rfl
    | (with_reducible refine (forEach_shape _ _ _ ?_).trans ?_)
    | simp only [↓updL_shape, ↓updF_shape]
    | split
    | intro _
    | (with_reducible show rect _ = rect _) <;> rfl)

theorem partDrain_shape (e : Entry) (h : Nat) (s : State) : shape (partDrain e h s).1 = shape s := by
  unfold partDrain
  repeat' (first
    | with_reducible rfl
    | (with_reducible refine (fieldsThen_shape _ _ _ ?_).trans ?_)
    | (with_reducible refine (forEach_shape _ _ _ ?_).trans ?_)
    | (with_reducible refine (partCmd_shape _ _ _ _ _ ?_).trans ?_)
    | (with_reducible refine (updPart_shape _ _ _ ?_).trans ?_)
    | simp only [↓setEnding_shape, ↓later_shape, ↓drainDone_shape, ↓waitFor_shape]
    | split
    | intro _
    | (with_reducible show rect _ = rect _) <;> rfl)

theorem execPartDrain_shape (e : Entry) (s : State) {nxt : State} (hn : execPartDrain e s = .next nxt) : shape nxt = shape s := by
  unfold execPartDrain at hn
  refine settled_shape hn ?_
  repeat' (first
    | with_reducible rfl
    | (with_reducible refine (takeCmd_shape _ _ _ ?_).trans ?_)
    | simp only [↓partDrain_shape]
    | split
    | intro _
    | (with_reducible show rect _ = rect _) <;> rfl)

theorem partSet_shape (e : Entry) (s : State) : shape (partSet e s).1 = shape s := by
  unfold partSet
  repeat' (first
    | with_reducible rfl
    | (with_reducible refine (fieldsThen_shape _ _ _ ?_).trans ?_)
    | (with_reducible refine (partCmd_shape _ _ _ _ _ ?_).trans ?_)
    | (with_reducible refine (updPart_shape _ _ _ ?_).trans ?_)
    | simp only [↓fails_shape, ↓done_shape, ↓settleIdle_shape]
    | split
    | intro _
    | (with_reducible show rect _ = rect _) <;> rfl)

theorem execPartSet_shape (e : Entry) (s : State) {nxt : State} (hn : execPartSet e s = .next nxt) : shape nxt = shape s := by
  unfold execPartSet at hn
  refine settled_shape hn ?_
  repeat' (first
    | with_reducible rfl
    | (with_reducible refine (takeCmd_shape _ _ _ ?_).trans ?_)
    | simp only [↓partSet_shape]
    | split
    | intro _
    | (with_reducible show rect _ = rect _) <;> rfl)

theorem partStart_shape (e : Entry) (s : State) : shape (partStart e s).1 = shape s := by
  unfold partStart
  repeat' (first
    | with_reducible rfl
    | (with_reducible refine (commitRec_shape _ _ _ ?_).trans ?_)
    | (with_reducible refine (fieldsThen_shape _ _ _ ?_).trans ?_)
    | (with_reducible refine (partCmd_shape _ _ _ _ _ ?_).trans ?_)
    | (with_reducible refine (updPart_shape _ _ _ ?_).trans ?_)
    | simp only [↓fails_shape, ↓done_shape, ↓beginPart_shape]
    | split
    | intro _
    | (with_reducible show rect _ = rect _) <;> rfl)

theorem execPartStart_shape (e : Entry) (s : State) {nxt : State} (hn : execPartStart e s = .next nxt) : shape nxt = shape s := by
  unfold execPartStart at hn
  refine settled_shape hn ?_
  repeat' (first
    | with_reducible rfl
    | (with_reducible refine (takeCmd_shape _ _ _ ?_).trans ?_)
    | simp only [↓passBy_shape, ↓partStart_shape]
    | split
    | intro _
    | (with_reducible show rect _ = rect _) <;> rfl)

theorem unschedule_shape (p : Partition) (s : State) : shape (unschedule p s) = shape s := by
  unfold unschedule
  repeat' (first
    | with_reducible rfl
    | (with_reducible refine (forEach_shape _ _ _ ?_).trans ?_)
    | simp only [↓updRP_shape]
    | split
    | intro _
    | (with_reducible show rect _ = rect _) <;> rfl)

theorem installProgram_shape (pn : Nat) (im : List Byte) (s : State) : shape (installProgram pn im s) = shape s := by
  unfold installProgram
  split
  · rfl
  · next p hp =>
    dsimp only
    rw [partDomains_shape, reloadPart_shape, setPart_shape _ _ _ ?_, unschedule_shape]
    rw [shape_rects (unschedule_shape p s), hp]
    rfl

theorem programLoad_shape (e : Entry) (h : Nat) (s : State) : shape (programLoad e h s).1 = shape s := by
  unfold programLoad
  repeat' (first
    | with_reducible rfl
    | (with_reducible refine (commitRec_shape _ _ _ ?_).trans ?_)
    | (with_reducible refine (fieldsThen_shape _ _ _ ?_).trans ?_)
    | (with_reducible refine (partCmd_shape _ _ _ _ _ ?_).trans ?_)
    | (with_reducible refine (withData_shape _ _ _ ?_).trans ?_)
    | simp only [↓installProgram_shape, ↓dropSet_shape, ↓doneWith_shape, ↓eraseThen_shape]
    | split
    | intro _
    | (with_reducible show rect _ = rect _) <;> rfl)

theorem execProgramLoad_shape (e : Entry) (s : State) {nxt : State} (hn : execProgramLoad e s = .next nxt) : shape nxt = shape s := by
  unfold execProgramLoad at hn
  refine settled_shape hn ?_
  repeat' (first
    | with_reducible rfl
    | (with_reducible refine (takeLamp_shape _ _ _ ?_).trans ?_)
    | simp only [↓programLoad_shape]
    | split
    | intro _
    | (with_reducible show rect _ = rect _) <;> rfl)

theorem recalOffsets_shape (e : Entry) (h : Nat) (ls : List Nat) (s : State) : shape (recalOffsets e h ls s).1 = shape s := by
  unfold recalOffsets
  dsimp only
  have h1 : ∀ ms, shape (forEach ms (recalLantern (nextSetid 3 s)) (takeSetid s)) = shape s := fun ms =>
    (forEach_shape _ _ _ (fun _ _ => recalLantern_shape _ _ _)).trans (takeSetid_shape s)
  split
  · exact (doneWith_shape _ _).trans (h1 _)
  · refine (waitFor_shape _ _ _ _).trans ((forEach_shape _ _ _ (fun _ _ => ?_)).trans ((holdShown_shape _ _).trans (h1 _)))
    exact (needForWork_shape _ _).trans (shape_congr rfl rfl rfl rfl)

theorem recalibrate_shape (e : Entry) (h : Nat) (s : State) : shape (recalibrate e h s).1 = shape s := by
  unfold recalibrate
  repeat' (first
    | with_reducible rfl
    | (with_reducible refine (fieldsThen_shape _ _ _ ?_).trans ?_)
    | (with_reducible refine (forEach_shape _ _ _ ?_).trans ?_)
    | (with_reducible refine (pfCmd_shape _ _ _ ?_).trans ?_)
    | simp only [↓recalOffsets_shape, ↓fails_shape, ↓driftNow_shape, ↓doneWith_shape, ↓startCapture_shape]
    | split
    | intro _
    | (with_reducible show rect _ = rect _) <;> rfl)

theorem execRecalibrate_shape (e : Entry) (s : State) {nxt : State} (hn : execRecalibrate e s = .next nxt) : shape nxt = shape s := by
  unfold execRecalibrate at hn
  refine settled_shape hn ?_
  repeat' (first
    | with_reducible rfl
    | (with_reducible refine (takeCmd_shape _ _ _ ?_).trans ?_)
    | simp only [↓recalibrate_shape]
    | split
    | intro _
    | (with_reducible show rect _ = rect _) <;> rfl)

theorem refreshSet_shape (e : Entry) (s : State) : shape (refreshSet e s).1 = shape s := by
  unfold refreshSet
  repeat' (first
    | with_reducible rfl
    | (with_reducible refine (commitRec_shape _ _ _ ?_).trans ?_)
    | (with_reducible refine (fieldsThen_shape _ _ _ ?_).trans ?_)
    | (with_reducible refine (partCmd_shape _ _ _ _ _ ?_).trans ?_)
    | (with_reducible refine (updPart_shape _ _ _ ?_).trans ?_)
    | simp only [↓fails_shape, ↓done_shape]
    | split
    | intro _
    | (with_reducible show rect _ = rect _) <;> rfl)

theorem execRefreshSet_shape (e : Entry) (s : State) {nxt : State} (hn : execRefreshSet e s = .next nxt) : shape nxt = shape s := by
  unfold execRefreshSet at hn
  refine settled_shape hn ?_
  repeat' (first
    | with_reducible rfl
    | (with_reducible refine (takeCmd_shape _ _ _ ?_).trans ?_)
    | simp only [↓refreshSet_shape]
    | split
    | intro _
    | (with_reducible show rect _ = rect _) <;> rfl)

theorem refreshWindow_shape (e : Entry) (h : Nat) (s : State) : shape (refreshWindow e h s).1 = shape s := by
  unfold refreshWindow
  repeat' (first
    | with_reducible rfl
    | (with_reducible refine (fieldsThen_shape _ _ _ ?_).trans ?_)
    | (with_reducible refine (partCmd_shape _ _ _ _ _ ?_).trans ?_)
    | (with_reducible refine (updPart_shape _ _ _ ?_).trans ?_)
    | simp only [↓fails_shape, ↓later_shape, ↓waitFor_shape]
    | split
    | intro _
    | (with_reducible show rect _ = rect _) <;> rfl)

theorem execRefreshWindow_shape (e : Entry) (s : State) {nxt : State} (hn : execRefreshWindow e s = .next nxt) : shape nxt = shape s := by
  unfold execRefreshWindow at hn
  refine settled_shape hn ?_
  repeat' (first
    | with_reducible rfl
    | (with_reducible refine (takeCmd_shape _ _ _ ?_).trans ?_)
    | simp only [↓refreshWindow_shape]
    | split
    | intro _
    | (with_reducible show rect _ = rect _) <;> rfl)

/-! ## Machine/RequestCmds.lean -/

theorem adapterRelease_shape (e : Entry) (s : State) : shape (adapterRelease e s).1 = shape s := by
  unfold adapterRelease
  repeat' (first
    | with_reducible rfl
    | (with_reducible refine (fieldsThen_shape _ _ _ ?_).trans ?_)
    | (with_reducible refine (partCmd_shape _ _ _ _ _ ?_).trans ?_)
    | (with_reducible refine (updPart_shape _ _ _ ?_).trans ?_)
    | simp only [↓fails_shape, ↓doneWith_shape]
    | split
    | intro _
    | (with_reducible show rect _ = rect _) <;> rfl)

theorem endBy_shape (pn : Nat) (tag : BitVec 64) (status : Nat) (ttl : Nat) (s : State) : shape (endBy pn tag status ttl s) = shape s := by
  unfold endBy
  simp only [↓updReq_shape]

theorem goneTag_shape (p : Partition) (tag : BitVec 64) (s : State) : shape (goneTag p tag s).1 = shape s := rfl

theorem cancel_shape (e : Entry) (h : Nat) (s : State) : shape (cancel e h s).1 = shape s := by
  unfold cancel
  repeat' (first
    | with_reducible rfl
    | (with_reducible refine (fieldsThen_shape _ _ _ ?_).trans ?_)
    | (with_reducible refine (partCmd_shape _ _ _ _ _ ?_).trans ?_)
    | simp only [↓goneTag_shape, ↓later_shape, ↓waitFor_shape, ↓endBy_shape]
    | split
    | intro _
    | (with_reducible show rect _ = rect _) <;> rfl)

theorem countBad_shape (s : State) (c : Context) : shape (countBad s c) = shape s := by
  unfold countBad
  repeat' (first
    | with_reducible rfl
    | (with_reducible refine (forEach_shape _ _ _ ?_).trans ?_)
    | simp only [↓countT_shape]
    | split
    | intro _
    | (with_reducible show rect _ = rect _) <;> rfl)

theorem discard_shape (e : Entry) (s : State) : shape (discard e s).1 = shape s := by
  unfold discard
  repeat' (first
    | with_reducible rfl
    | (with_reducible refine (fieldsThen_shape _ _ _ ?_).trans ?_)
    | (with_reducible refine (partCmd_shape _ _ _ _ _ ?_).trans ?_)
    | simp only [↓fails_shape, ↓done_shape, ↓eraseCtx_shape]
    | split
    | intro _
    | (with_reducible show rect _ = rect _) <;> rfl)

theorem enterRequest_shape (e : Entry) (pn : Nat) (r : Request) (c : Option Context) (s : State) : shape (enterRequest e pn r c s) = shape s := by
  unfold enterRequest
  repeat' (first
    | with_reducible rfl
    | assumption
    | (with_reducible refine (updPart_shape _ _ _ ?_).trans ?_)
    | (with_reducible refine (foldlS_shape _ ?_ _ _).trans ?_)
    | simp only [↓dropRecord_shape, ↓setQp_shape, ↓mk_shape, ↓shape_ite, ↓fst_ite, ↓try_ite, ↓eng_ite, ↓reduceIte, ite_self, try_done, try_hold, try_trap, eng_done, eng_more, eng_wait, eng_trap]
    | split
    | intro _
    | (with_reducible show rect _ = rect _) <;> rfl
    | (with_reducible show Option.map rect _ = Option.map rect _) <;> (rw [‹getPart _ _ = some _›]; rfl)
    | (with_reducible show rect _ = rect _) <;> exact (noteIdle_rect _ _).trans rfl
    | (with_reducible show Option.map rect _ = Option.map rect _) <;> (rw [‹getPart _ _ = some _›]; exact congrArg some (noteIdle_rect _ _))
    | dsimp only
    | simp only [*])

theorem sendPrompt_shape (pn : Nat) (p : Partition) (tag : BitVec 64) (tokens : Nat) (s : State) : shape (sendPrompt pn p tag tokens s) = shape s := by
  unfold sendPrompt
  repeat' (first
    | with_reducible rfl
    | (with_reducible refine (forEach_shape _ _ _ ?_).trans ?_)
    | simp only [↓sendT_shape]
    | split
    | intro _
    | (with_reducible show rect _ = rect _) <;> rfl)

theorem enterOrRefuse_shape (e : Entry) (h : Nat) (pn : Nat) (p : Partition) (g : Program) (d : List Byte) (c : Option Context) (s : State) : shape (enterOrRefuse e h pn p g d c s).1 = shape s := by
  unfold enterOrRefuse
  repeat' (first
    | with_reducible rfl
    | simp only [↓fails_shape, ↓later_shape, ↓sendPrompt_shape, ↓enterRequest_shape]
    | split)

theorem execAdapterRelease_shape (e : Entry) (s : State) {nxt : State} (hn : execAdapterRelease e s = .next nxt) : shape nxt = shape s := by
  unfold execAdapterRelease at hn
  refine settled_shape hn ?_
  repeat' (first
    | with_reducible rfl
    | (with_reducible refine (takeCmd_shape _ _ _ ?_).trans ?_)
    | simp only [↓adapterRelease_shape]
    | split
    | intro _
    | (with_reducible show rect _ = rect _) <;> rfl)

theorem execCancel_shape (e : Entry) (s : State) {nxt : State} (hn : execCancel e s = .next nxt) : shape nxt = shape s := by
  unfold execCancel at hn
  refine settled_shape hn ?_
  repeat' (first
    | with_reducible rfl
    | (with_reducible refine (takeCmd_shape _ _ _ ?_).trans ?_)
    | simp only [↓cancel_shape]
    | split
    | intro _
    | (with_reducible show rect _ = rect _) <;> rfl)

theorem execDiscard_shape (e : Entry) (s : State) {nxt : State} (hn : execDiscard e s = .next nxt) : shape nxt = shape s := by
  unfold execDiscard at hn
  refine settled_shape hn ?_
  repeat' (first
    | with_reducible rfl
    | (with_reducible refine (takeCmd_shape _ _ _ ?_).trans ?_)
    | simp only [↓discard_shape]
    | split
    | intro _
    | (with_reducible show rect _ = rect _) <;> rfl)

theorem exportCmd_shape (e : Entry) (s : State) : shape (exportCmd e s).1 = shape s := by
  unfold exportCmd
  repeat' (first
    | with_reducible rfl
    | (with_reducible refine (fieldsThen_shape _ _ _ ?_).trans ?_)
    | (with_reducible refine (partCmd_shape _ _ _ _ _ ?_).trans ?_)
    | (with_reducible refine (updPart_shape _ _ _ ?_).trans ?_)
    | simp only [↓fails_shape, ↓countBad_shape, ↓failsField_shape, ↓writeOut_shape, ↓doneWith_shape, ↓eraseCtx_shape, ↓mk_shape]
    | split
    | intro _
    | (with_reducible show rect _ = rect _) <;> rfl)

theorem execExportCtx_shape (e : Entry) (s : State) {nxt : State} (hn : execExportCtx e s = .next nxt) : shape nxt = shape s := by
  unfold execExportCtx at hn
  refine settled_shape hn ?_
  repeat' (first
    | with_reducible rfl
    | (with_reducible refine (takeLamp_shape _ _ _ ?_).trans ?_)
    | simp only [↓exportCmd_shape]
    | split
    | intro _
    | (with_reducible show rect _ = rect _) <;> rfl)

theorem storeImages_shape (tag : Nat) (rs : List ShareRec) (bs : List Byte) (s : State) : shape (storeImages tag rs bs s) = shape s := by
  unfold storeImages
  repeat' (first
    | with_reducible rfl
    | (with_reducible refine (forEach_shape _ _ _ ?_).trans ?_)
    | simp only [↓cisternWrite_shape]
    | split
    | intro _
    | (with_reducible show rect _ = rect _) <;> rfl)

theorem importCmd_shape (e : Entry) (s : State) : shape (importCmd e s).1 = shape s := by
  unfold importCmd
  repeat' (first
    | with_reducible rfl
    | (with_reducible refine (fieldsThen_shape _ _ _ ?_).trans ?_)
    | (with_reducible refine (partCmd_shape _ _ _ _ _ ?_).trans ?_)
    | (with_reducible refine (withData_shape _ _ _ ?_).trans ?_)
    | simp only [↓fails_shape, ↓failsData_shape, ↓storeImages_shape, ↓doneWith_shape, ↓mk_shape]
    | split
    | intro _
    | (with_reducible show rect _ = rect _) <;> rfl)

theorem execImportCtx_shape (e : Entry) (s : State) {nxt : State} (hn : execImportCtx e s = .next nxt) : shape nxt = shape s := by
  unfold execImportCtx at hn
  refine settled_shape hn ?_
  repeat' (first
    | with_reducible rfl
    | (with_reducible refine (takeLamp_shape _ _ _ ?_).trans ?_)
    | simp only [↓importCmd_shape]
    | split
    | intro _
    | (with_reducible show rect _ = rect _) <;> rfl)

theorem pause_shape (e : Entry) (h : Nat) (s : State) : shape (pause e h s).1 = shape s := by
  unfold pause
  repeat' (first
    | with_reducible rfl
    | (with_reducible refine (fieldsThen_shape _ _ _ ?_).trans ?_)
    | (with_reducible refine (partCmd_shape _ _ _ _ _ ?_).trans ?_)
    | simp only [↓fails_shape, ↓goneTag_shape, ↓later_shape, ↓waitFor_shape, ↓endBy_shape]
    | split
    | intro _
    | (with_reducible show rect _ = rect _) <;> rfl)

theorem execPause_shape (e : Entry) (s : State) {nxt : State} (hn : execPause e s = .next nxt) : shape nxt = shape s := by
  unfold execPause at hn
  refine settled_shape hn ?_
  repeat' (first
    | with_reducible rfl
    | (with_reducible refine (takeCmd_shape _ _ _ ?_).trans ?_)
    | simp only [↓pause_shape]
    | split
    | intro _
    | (with_reducible show rect _ = rect _) <;> rfl)

theorem reqQuery_shape (e : Entry) (s : State) : shape (reqQuery e s).1 = shape s := by
  unfold reqQuery
  repeat' (first
    | with_reducible rfl
    | (with_reducible refine (fieldsThen_shape _ _ _ ?_).trans ?_)
    | (with_reducible refine (partCmd_shape _ _ _ _ _ ?_).trans ?_)
    | simp only [↓goneTag_shape, ↓doneWith_shape]
    | split
    | intro _
    | (with_reducible show rect _ = rect _) <;> rfl)

theorem execReqQuery_shape (e : Entry) (s : State) {nxt : State} (hn : execReqQuery e s = .next nxt) : shape nxt = shape s := by
  unfold execReqQuery at hn
  refine settled_shape hn ?_
  repeat' (first
    | with_reducible rfl
    | (with_reducible refine (takeCmd_shape _ _ _ ?_).trans ?_)
    | simp only [↓reqQuery_shape]
    | split
    | intro _
    | (with_reducible show rect _ = rect _) <;> rfl)

theorem setTtl_shape (e : Entry) (s : State) : shape (setTtl e s).1 = shape s := by
  unfold setTtl
  repeat' (first
    | with_reducible rfl
    | (with_reducible refine (fieldsThen_shape _ _ _ ?_).trans ?_)
    | (with_reducible refine (partCmd_shape _ _ _ _ _ ?_).trans ?_)
    | simp only [↓fails_shape, ↓done_shape, ↓mk_shape]
    | split
    | intro _
    | (with_reducible show rect _ = rect _) <;> rfl)

theorem execSetTtl_shape (e : Entry) (s : State) {nxt : State} (hn : execSetTtl e s = .next nxt) : shape nxt = shape s := by
  unfold execSetTtl at hn
  refine settled_shape hn ?_
  repeat' (first
    | with_reducible rfl
    | (with_reducible refine (takeCmd_shape _ _ _ ?_).trans ?_)
    | simp only [↓setTtl_shape]
    | split
    | intro _
    | (with_reducible show rect _ = rect _) <;> rfl)

theorem submit_shape (e : Entry) (h : Nat) (s : State) : shape (submit e h s).1 = shape s := by
  unfold submit
  repeat' (first
    | with_reducible rfl
    | (with_reducible refine (fieldsThen_shape _ _ _ ?_).trans ?_)
    | (with_reducible refine (partCmd_shape _ _ _ _ _ ?_).trans ?_)
    | (with_reducible refine (withData_shape _ _ _ ?_).trans ?_)
    | simp only [↓fails_shape, ↓failsField_shape, ↓failsData_shape, ↓enterOrRefuse_shape]
    | split
    | intro _
    | (with_reducible show rect _ = rect _) <;> rfl)

theorem execSubmit_shape (e : Entry) (s : State) {nxt : State} (hn : execSubmit e s = .next nxt) : shape nxt = shape s := by
  unfold execSubmit at hn
  refine settled_shape hn ?_
  repeat' (first
    | with_reducible rfl
    | (with_reducible refine (takeCmd_shape _ _ _ ?_).trans ?_)
    | simp only [↓submit_shape]
    | split
    | intro _
    | (with_reducible show rect _ = rect _) <;> rfl)

/-! ## Machine/WeightCmds.lean -/

theorem applyAdapterChunk_shape (pn : Nat) (p : Partition) (desc : List Byte) (pt : List Byte) (s : State) : shape (applyAdapterChunk pn p desc pt s) = shape s := by
  unfold applyAdapterChunk
  repeat' (first
    | with_reducible rfl
    | (with_reducible refine (updPart_shape _ _ _ ?_).trans ?_)
    | simp only [↓applyLines_shape, ↓requestOn_shape, ↓mk_shape]
    | split
    | intro _
    | (with_reducible show rect _ = rect _) <;> rfl)

theorem intakeCross_shape (fn : Fn) (pn : Nat) (bytes : Nat) (plain : Nat) (s : State) : shape (intakeCross fn pn bytes plain s) = shape s := by
  unfold intakeCross
  simp only [↓countT_shape, ↓rimSend_shape]

theorem adapterLoad_shape (e : Entry) (s : State) : shape (adapterLoad e s).1 = shape s := by
  unfold adapterLoad
  refine partCmd_shape _ _ _ _ _ (fun p _ => ?_)
  refine fieldsThen_shape _ _ _ (fun s => ?_)
  refine withData_shape _ _ _ (fun d s => ?_)
  dsimp only
  split
  · exact fails_shape _ _
  · split
    · exact fails_shape _ _
    · split
      · exact fails_shape _ _
      · split
        · exact failsData_shape _ _
        · split
          · exact failsField_shape _ _
          · refine done_ite _ _ _ _ (fails_shape _ _) ?_
            refine (doneWith_shape _ _).trans (Eq.trans (updPart_shape _ _ _ ?_) ?_)
            · intro _; rfl
            · exact (forEach_shape _ _ _ (fun _ _ => applyAdapterChunk_shape _ _ _ _ _)).trans (intakeCross_shape _ _ _ _ _)

theorem applyChunk_shape (pn : Nat) (l : Nat) (j : ChunkJob) (pt : List Byte) (line : Nat) (s : State) : shape (applyChunk pn l j pt line s) = shape s := by
  unfold applyChunk
  repeat' (first
    | with_reducible rfl
    | simp only [↓addJob_shape, ↓needForWork_shape, ↓finishChunk_shape, ↓setRanges_shape, ↓applyLines_shape, ↓requestOn_shape, ↓mk_shape]
    | split
    | intro _
    | (with_reducible show rect _ = rect _) <;> rfl)

theorem dataChunk_shape (e : Entry) (h : Nat) (pn : Nat) (p : Partition) (ld : WeightLoad) (key : BitVec 256) (d : List Byte) (s : State) : shape (dataChunk e h pn p ld key d s).1 = shape s := by
  unfold dataChunk
  repeat' (first
    | with_reducible rfl
    | (with_reducible refine (updPart_shape _ _ _ ?_).trans ?_)
    | simp only [↓fails_shape, ↓failsData_shape, ↓intakeCross_shape, ↓later_shape, ↓applyChunk_shape]
    | split
    | intro _
    | (with_reducible show rect _ = rect _) <;> rfl)

theorem debugLock_shape (e : Entry) (s : State) : shape (debugLock e s).1 = shape s := by
  unfold debugLock
  repeat' (first
    | with_reducible rfl
    | (with_reducible refine (fieldsThen_shape _ _ _ ?_).trans ?_)
    | (with_reducible refine (forEach_shape _ _ _ ?_).trans ?_)
    | (with_reducible refine (pfCmd_shape _ _ _ ?_).trans ?_)
    | (with_reducible refine (updPart_shape _ _ _ ?_).trans ?_)
    | simp only [↓done_shape, ↓settleIdle_shape, ↓mk_shape]
    | split
    | intro _
    | (with_reducible show rect _ = rect _) <;> rfl)

theorem debugPart_shape (pn : Nat) (s : State) : shape (debugPart pn s) = shape s := by
  unfold debugPart
  repeat' (first
    | with_reducible rfl
    | (with_reducible refine (updPart_shape _ _ _ ?_).trans ?_)
    | simp only [↓endLoad_shape, ↓dropSet_shape]
    | split
    | intro _
    | (with_reducible show rect _ = rect _) <;> rfl)

theorem dropSets_shape (s : State) : shape (dropSets s) = shape s := by
  unfold dropSets
  repeat' (first
    | with_reducible rfl
    | (with_reducible refine (forEach_shape _ _ _ ?_).trans ?_)
    | simp only [↓dropSet_shape, ↓dropJobs_shape, ↓mk_shape]
    | split
    | intro _
    | (with_reducible show rect _ = rect _) <;> rfl)

theorem execAdapterLoad_shape (e : Entry) (s : State) {nxt : State} (hn : execAdapterLoad e s = .next nxt) : shape nxt = shape s := by
  unfold execAdapterLoad at hn
  refine settled_shape hn ?_
  repeat' (first
    | with_reducible rfl
    | (with_reducible refine (takeLamp_shape _ _ _ ?_).trans ?_)
    | simp only [↓adapterLoad_shape]
    | split
    | intro _
    | (with_reducible show rect _ = rect _) <;> rfl)

theorem execDebugLock_shape (e : Entry) (s : State) {nxt : State} (hn : execDebugLock e s = .next nxt) : shape nxt = shape s := by
  unfold execDebugLock at hn
  refine settled_shape hn ?_
  repeat' (first
    | with_reducible rfl
    | (with_reducible refine (takeCmd_shape _ _ _ ?_).trans ?_)
    | simp only [↓debugLock_shape]
    | split
    | intro _
    | (with_reducible show rect _ = rect _) <;> rfl)

theorem keyBlob_shape (pn : Nat) (ld : WeightLoad) (d : List Byte) (s : State) : shape (keyBlob pn ld d s).1 = shape s := by
  unfold keyBlob
  repeat' (first
    | with_reducible rfl
    | (with_reducible refine (updPart_shape _ _ _ ?_).trans ?_)
    | simp only [↓fails_shape, ↓failsData_shape, ↓done_shape, ↓endLoad_shape]
    | split
    | intro _
    | (with_reducible show rect _ = rect _) <;> rfl)

theorem weightChunk_shape (e : Entry) (h : Nat) (s : State) : shape (weightChunk e h s).1 = shape s := by
  unfold weightChunk
  repeat' (first
    | with_reducible rfl
    | (with_reducible refine (fieldsThen_shape _ _ _ ?_).trans ?_)
    | (with_reducible refine (partCmd_shape _ _ _ _ _ ?_).trans ?_)
    | (with_reducible refine (withData_shape _ _ _ ?_).trans ?_)
    | simp only [↓fails_shape, ↓keyBlob_shape, ↓dataChunk_shape]
    | split
    | intro _
    | (with_reducible show rect _ = rect _) <;> rfl)

theorem execWeightChunk_shape (e : Entry) (s : State) {nxt : State} (hn : execWeightChunk e s = .next nxt) : shape nxt = shape s := by
  unfold execWeightChunk at hn
  refine settled_shape hn ?_
  repeat' (first
    | with_reducible rfl
    | (with_reducible refine (takeLamp_shape _ _ _ ?_).trans ?_)
    | simp only [↓weightChunk_shape]
    | split
    | intro _
    | (with_reducible show rect _ = rect _) <;> rfl)

theorem weightClose_shape (e : Entry) (h : Nat) (s : State) : shape (weightClose e h s).1 = shape s := by
  unfold weightClose
  repeat' (first
    | with_reducible rfl
    | (with_reducible refine (fieldsThen_shape _ _ _ ?_).trans ?_)
    | (with_reducible refine (partCmd_shape _ _ _ _ _ ?_).trans ?_)
    | simp only [↓fails_shape, ↓later_shape, ↓tryClose_shape, ↓waitFor_shape]
    | split
    | intro _
    | (with_reducible show rect _ = rect _) <;> rfl)

theorem execWeightClose_shape (e : Entry) (s : State) {nxt : State} (hn : execWeightClose e s = .next nxt) : shape nxt = shape s := by
  unfold execWeightClose at hn
  refine settled_shape hn ?_
  repeat' (first
    | with_reducible rfl
    | (with_reducible refine (takeCmd_shape _ _ _ ?_).trans ?_)
    | simp only [↓weightClose_shape]
    | split
    | intro _
    | (with_reducible show rect _ = rect _) <;> rfl)

theorem weightOpen_shape (e : Entry) (s : State) : shape (weightOpen e s).1 = shape s := by
  unfold weightOpen
  refine partCmd_shape _ _ _ _ _ (fun p _ => ?_)
  split
  · exact fails_shape _ _
  · refine fieldsThen_shape _ _ _ (fun s => ?_)
    refine withData_shape _ _ _ (fun d s => ?_)
    dsimp only
    split
    · exact failsData_shape _ _
    · split
      · exact fails_shape _ _
      · rw [doneWith_shape, writeSegs_shape]
        exact commitRec_shape _ _ _ (fun s => updPart_shape _ _ _ (fun _ => rfl))

theorem execWeightOpen_shape (e : Entry) (s : State) {nxt : State} (hn : execWeightOpen e s = .next nxt) : shape nxt = shape s := by
  unfold execWeightOpen at hn
  refine settled_shape hn ?_
  repeat' (first
    | with_reducible rfl
    | (with_reducible refine (takeLamp_shape _ _ _ ?_).trans ?_)
    | simp only [↓weightOpen_shape]
    | split
    | intro _
    | (with_reducible show rect _ = rect _) <;> rfl)

theorem weightStatus_shape (e : Entry) (s : State) : shape (weightStatus e s).1 = shape s := by
  unfold weightStatus
  repeat' (first
    | with_reducible rfl
    | (with_reducible refine (fieldsThen_shape _ _ _ ?_).trans ?_)
    | (with_reducible refine (partCmd_shape _ _ _ _ _ ?_).trans ?_)
    | simp only [↓doneWith_shape]
    | split
    | intro _
    | (with_reducible show rect _ = rect _) <;> rfl)

theorem execWeightStatus_shape (e : Entry) (s : State) {nxt : State} (hn : execWeightStatus e s = .next nxt) : shape nxt = shape s := by
  unfold execWeightStatus at hn
  refine settled_shape hn ?_
  repeat' (first
    | with_reducible rfl
    | (with_reducible refine (takeCmd_shape _ _ _ ?_).trans ?_)
    | simp only [↓weightStatus_shape]
    | split
    | intro _
    | (with_reducible show rect _ = rect _) <;> rfl)

theorem toLoaded_shape (pn : Nat) (s : State) : shape (toLoaded pn s) = shape s := by
  unfold toLoaded
  repeat' (first
    | with_reducible rfl
    | (with_reducible refine (updPart_shape _ _ _ ?_).trans ?_)
    | simp only [↓endAll_shape, ↓stopPart_shape, ↓resolveWaits_shape]
    | split
    | intro _
    | (with_reducible show rect _ = rect _) <;> rfl)

theorem zeroKeys_shape (s : State) : shape (zeroKeys s) = shape s := by
  unfold zeroKeys
  repeat' (first
    | with_reducible rfl
    | (with_reducible refine (commitRec_shape _ _ _ ?_).trans ?_)
    | (with_reducible refine (forEach_shape _ _ _ ?_).trans ?_)
    | (with_reducible refine (updPart_shape _ _ _ ?_).trans ?_)
    | simp only [↓endLoad_shape, ↓mk_shape]
    | split
    | intro _
    | (with_reducible show rect _ = rect _) <;> rfl)

end Sys2Proof.Machine
end

