-- ==== Sys2Proof/Laws/FrameRim.lean ====
section
/-! SUPPORT. What leaves the shape of the machine (Laws/Frame.lean): the rim's and the links' events and firmware. -/

set_option linter.unusedSimpArgs false
set_option linter.unusedTactic false
set_option linter.unreachableTactic false
set_option linter.unusedVariables false
set_option linter.unnecessarySeqFocus false

namespace Sys2Proof.Machine

/-! ## Machine/Rim.lean -/

theorem rimHandled_shape (s : State) (t : Nat) (f : Flit) : shape (rimHandled s t f) = shape s := by
  unfold rimHandled
  repeat' (first
    | with_reducible rfl
    | simp only [↓updT_shape, ↓injectT_shape]
    | split)

theorem takeTile_shape (s : State) (t : Nat) (p : Flit → Bool) {rv : Flit × State} (hr : takeTile s t p = some rv) : shape rv.2 = shape s := by
  unfold takeTile at hr
  repeat' (first | contradiction | split at hr | (cases hr) | dsimp only at hr)
  all_goals
    repeat' (first
      | with_reducible rfl
      | assumption
      | (with_reducible refine (foldlS_shape _ ?_ _ _).trans ?_)
      | simp only [↓updT_shape, ↓mk_shape, ↓shape_ite, ↓fst_ite, ↓try_ite, ↓eng_ite, ↓reduceIte, ite_self, try_done, try_hold, try_trap, eng_done, eng_more, eng_wait, eng_trap]
      | split
      | intro _
      | (with_reducible show rect _ = rect _) <;> rfl
      | (with_reducible show Option.map rect _ = Option.map rect _) <;> (rw [‹getPart _ _ = some _›]; rfl)
      | (with_reducible show rect _ = rect _) <;> exact (noteIdle_rect _ _).trans rfl
      | (with_reducible show Option.map rect _ = Option.map rect _) <;> (rw [‹getPart _ _ = some _›]; exact congrArg some (noteIdle_rect _ _))
      | dsimp only
      | simp only [*])

theorem rimEndnoteOp_shape (t : Nat) (s : State) : shape (rimEndnoteOp t s) = shape s := by
  unfold rimEndnoteOp
  repeat' (first
    | with_reducible rfl
    | (with_reducible refine (takeTile_shape (rv := (_, _)) (hr := ‹_›)).trans ?_)
    | simp only [↓rimHandled_shape, ↓setEnding_shape, ↓updReq_shape]
    | split)

theorem execRimEndnote_shape (tile : Nat) (s : State) {nxt : State} (hn : execRimEndnote tile s = .next nxt) : shape nxt = shape s := by
  unfold execRimEndnote at hn
  refine guarded_shape hn ?_
  simp only [↓rimEndnoteOp_shape]

theorem rimDiscard_shape (s : State) (t : Nat) (n : Nat) (f : Flit) (detail : Nat) : shape (rimDiscard s t n f detail) = shape s := by
  unfold rimDiscard
  simp only [↓raiseEv_shape, ↓updT_shape]

theorem rimRunnelOp_shape (t : Nat) (s : State) : shape (rimRunnelOp t s) = shape s := by
  unfold rimRunnelOp
  repeat' (first
    | with_reducible rfl
    | (with_reducible refine (takeTile_shape (rv := (_, _)) (hr := ‹_›)).trans ?_)
    | simp only [↓rimHandled_shape, ↓rimDiscard_shape, ↓writeRunnel_shape, ↓updReq_shape]
    | split)

theorem execRimRunnel_shape (tile : Nat) (s : State) {nxt : State} (hn : execRimRunnel tile s = .next nxt) : shape nxt = shape s := by
  unfold execRimRunnel at hn
  refine guarded_shape hn ?_
  simp only [↓rimRunnelOp_shape]

theorem rimTraceOp_shape (s : State) : shape (rimTraceOp s) = shape s := by
  unfold rimTraceOp
  repeat' (first
    | with_reducible rfl
    | (with_reducible refine (takeTile_shape (rv := (_, _)) (hr := ‹_›)).trans ?_)
    | (with_reducible refine (updPart_shape _ _ _ ?_).trans ?_)
    | simp only [↓rimHandled_shape]
    | split
    | intro _
    | (with_reducible show rect _ = rect _) <;> rfl)

theorem execRimTrace_shape (s : State) {nxt : State} (hn : execRimTrace s = .next nxt) : shape nxt = shape s := by
  unfold execRimTrace at hn
  refine guarded_shape hn ?_
  simp only [↓rimTraceOp_shape]

theorem rimUnlistedOp_shape (t : Nat) (s : State) : shape (rimUnlistedOp t s) = shape s := by
  unfold rimUnlistedOp
  repeat' (first
    | with_reducible rfl
    | (with_reducible refine (takeTile_shape (rv := (_, _)) (hr := ‹_›)).trans ?_)
    | simp only [↓rimDiscard_shape]
    | split)

theorem execRimUnlistedChannel_shape (tile : Nat) (s : State) {nxt : State} (hn : execRimUnlistedChannel tile s = .next nxt) : shape nxt = shape s := by
  unfold execRimUnlistedChannel at hn
  refine guarded_shape hn ?_
  simp only [↓rimUnlistedOp_shape]

theorem rimZendenOp_shape (t : Nat) (s : State) : shape (rimZendenOp t s) = shape s := by
  unfold rimZendenOp
  repeat' (first
    | with_reducible rfl
    | (with_reducible refine (takeTile_shape (rv := (_, _)) (hr := ‹_›)).trans ?_)
    | simp only [↓zFlush_shape, ↓updZ_shape, ↓rimDiscard_shape]
    | split)

theorem execRimZendenChannel_shape (tile : Nat) (s : State) {nxt : State} (hn : execRimZendenChannel tile s = .next nxt) : shape nxt = shape s := by
  unfold execRimZendenChannel at hn
  refine guarded_shape hn ?_
  simp only [↓rimZendenOp_shape]

/-! ## Machine/ZendenLink.lean -/

theorem ackTimeout_shape (z : Nat) (s : State) : shape (ackTimeout z s) = shape s := by
  unfold ackTimeout
  repeat' (first
    | with_reducible rfl
    | simp only [↓countT_shape, ↓setZ_shape]
    | split)

theorem activateNotice_shape (z : Nat) (s : State) : shape (activateNotice z s) = shape s := rfl

theorem ringDone_shape (n : Nat) (s : State) : shape (ringDone n s) = shape s := by
  unfold ringDone
  repeat' (first
    | with_reducible rfl
    | simp only [↓mk_shape]
    | split
    | intro _
    | (with_reducible show rect _ = rect _) <;> rfl)

theorem execRingDoneReceive_shape (size : Nat) (s : State) {nxt : State} (hn : execRingDoneReceive size s = .next nxt) : shape nxt = shape s := by
  unfold execRingDoneReceive at hn
  refine guarded_shape hn ?_
  simp only [↓ringDone_shape]

theorem ringFails_shape (s : State) : shape (ringFails s) = shape s := by
  unfold ringFails
  repeat' (first
    | with_reducible rfl
    | simp only [↓resolveWaits_shape, ↓mk_shape]
    | split
    | intro _
    | (with_reducible show rect _ = rect _) <;> rfl)

theorem ringForm_shape (i : Nat) (s : State) : shape (ringForm i s) = shape s := by
  unfold ringForm
  repeat' (first
    | with_reducible rfl
    | simp only [↓ringFails_shape, ↓resolveWaits_shape, ↓mk_shape]
    | split
    | intro _
    | (with_reducible show rect _ = rect _) <;> rfl)

theorem execRingFormReceive_shape (index : Nat) (s : State) {nxt : State} (hn : execRingFormReceive index s = .next nxt) : shape nxt = shape s := by
  unfold execRingFormReceive at hn
  refine guarded_shape hn ?_
  simp only [↓ringForm_shape]

theorem ringTimeout_shape (s : State) : shape (ringTimeout s) = shape s := by
  unfold ringTimeout
  repeat' (first
    | with_reducible rfl
    | simp only [↓ringFails_shape, ↓mk_shape]
    | split
    | intro _
    | (with_reducible show rect _ = rect _) <;> rfl)

theorem execRingFormTimeout_shape (s : State) {nxt : State} (hn : execRingFormTimeout s = .next nxt) : shape nxt = shape s := by
  unfold execRingFormTimeout at hn
  refine guarded_shape hn ?_
  simp only [↓ringTimeout_shape]

theorem execZendenAckTimeout_shape (z : Nat) (s : State) {nxt : State} (hn : execZendenAckTimeout z s = .next nxt) : shape nxt = shape s := by
  unfold execZendenAckTimeout at hn
  refine guarded_shape hn ?_
  simp only [↓ackTimeout_shape]

theorem execZendenActivateNotice_shape (z : Nat) (s : State) {nxt : State} (hn : execZendenActivateNotice z s = .next nxt) : shape nxt = shape s := by
  unfold execZendenActivateNotice at hn
  refine guarded_shape hn ?_
  simp only [↓activateNotice_shape]

theorem passOn_shape (z : Nat) (e : Nat × Flit) (s : State) : shape (passOn z e s) = shape s := by
  unfold passOn
  repeat' (first
    | with_reducible rfl
    | simp only [↓raiseEv_shape, ↓countT_shape, ↓injectT_shape, ↓sendT_shape]
    | split)

theorem groupReceive_shape (z : Nat) (g : ZGroup) (s : State) : shape (groupReceive z g s) = shape s := by
  unfold groupReceive
  repeat' (first
    | with_reducible rfl
    | (with_reducible refine (forEach_shape _ _ _ ?_).trans ?_)
    | simp only [↓countT_shape, ↓updZ_shape, ↓passOn_shape, ↓zFlush_shape]
    | split
    | intro _
    | (with_reducible show rect _ = rect _) <;> rfl)

theorem execZendenGroupReceive_shape (z : Nat) (g : ZGroup) (s : State) {nxt : State} (hn : execZendenGroupReceive z g s = .next nxt) : shape nxt = shape s := by
  unfold execZendenGroupReceive at hn
  refine guarded_shape hn ?_
  simp only [↓groupReceive_shape]

theorem idleHeader_shape (z : Nat) (s : State) : shape (idleHeader z s) = shape s := by
  unfold idleHeader
  repeat' (first
    | with_reducible rfl
    | simp only [↓zFlush_shape, ↓idleHead_shape]
    | split)

theorem execZendenIdleHeader_shape (z : Nat) (s : State) {nxt : State} (hn : execZendenIdleHeader z s = .next nxt) : shape nxt = shape s := by
  unfold execZendenIdleHeader at hn
  refine guarded_shape hn ?_
  simp only [↓idleHeader_shape]

theorem ringLost_shape (s : State) (z : Nat) : shape (ringLost s z) = shape s := by
  unfold ringLost
  repeat' (first
    | with_reducible rfl
    | simp only [↓mk_shape]
    | split
    | intro _
    | (with_reducible show rect _ = rect _) <;> rfl)

theorem linkDown_shape (z : Nat) (why : ZDown) (s : State) : shape (linkDown z why s) = shape s := by
  unfold linkDown
  repeat' (first
    | with_reducible rfl
    | (with_reducible refine (forEach_shape _ _ _ ?_).trans ?_)
    | simp only [↓setZ_shape, ↓raiseEv_shape, ↓ringLost_shape, ↓unitFault_shape]
    | split
    | intro _
    | (with_reducible show rect _ = rect _) <;> rfl)

theorem execZendenLinkDown_shape (z : Nat) (why : ZDown) (s : State) {nxt : State} (hn : execZendenLinkDown z why s = .next nxt) : shape nxt = shape s := by
  unfold execZendenLinkDown at hn
  refine guarded_shape hn ?_
  simp only [↓linkDown_shape]

theorem linkTrained_shape (z : Nat) (peer : BitVec 64) (s : State) : shape (linkTrained z peer s) = shape s := by
  unfold linkTrained
  repeat' (first
    | with_reducible rfl
    | simp only [↓updZ_shape]
    | split)

theorem execZendenLinkTrained_shape (z : Nat) (peer : BitVec 64) (s : State) {nxt : State} (hn : execZendenLinkTrained z peer s = .next nxt) : shape nxt = shape s := by
  unfold execZendenLinkTrained at hn
  refine guarded_shape hn ?_
  simp only [↓linkTrained_shape]

/-! ## Machine/Firmware.lean -/

theorem flipTarget_shape (kind : Nat) (t : Nat) (s : State) : shape (flipTarget kind t s) = shape s := rfl

theorem nextGroup_shape (groups : List Nat) (s : State) : shape (nextGroup groups s) = shape s := by
  unfold nextGroup
  repeat' (first
    | with_reducible rfl
    | simp only [↓resolveWaits_shape, ↓mk_shape]
    | split
    | intro _
    | (with_reducible show rect _ = rect _) <;> rfl)

theorem rewriteStores_shape (pn : Nat) (s : State) : shape (rewriteStores pn s) = shape s := by
  unfold rewriteStores
  repeat' (first
    | with_reducible rfl
    | (with_reducible refine (forEach_shape _ _ _ ?_).trans ?_)
    | simp only [↓updL_shape]
    | split
    | intro _
    | (with_reducible show rect _ = rect _) <;> rfl)

theorem rimSwitch_shape (t : Nat) (s : State) : shape (rimSwitch t s) = shape s := by
  unfold rimSwitch
  repeat' (first
    | with_reducible rfl
    | (with_reducible refine (forEach_shape _ _ _ ?_).trans ?_)
    | simp only [↓resetFn_shape, ↓updZ_shape, ↓updT_shape]
    | split
    | intro _
    | (with_reducible show rect _ = rect _) <;> rfl)

theorem moveTargets_shape (e : Entry) (h : Nat) (kind : Nat) (ts : List Nat) (up : Bool) (s : State) : shape (moveTargets e h kind ts up s).1 = shape s := by
  unfold moveTargets
  repeat' (first
    | with_reducible rfl
    | (with_reducible refine (forEach_shape _ _ _ ?_).trans ?_)
    | (with_reducible refine (updPart_shape _ _ _ ?_).trans ?_)
    | simp only [↓later_shape, ↓waitFor_shape, ↓flipTarget_shape, ↓doneWith_shape, ↓rimSwitch_shape, ↓nextGroup_shape, ↓rewriteStores_shape, ↓setKind_shape, ↓mk_shape]
    | split
    | intro _
    | (with_reducible show rect _ = rect _) <;> rfl)

theorem tryMove_shape (e : Entry) (h : Nat) (kind : Nat) (ts : List Nat) (up : Bool) (prep : State → State) (s : State) (h_prep : ∀ v0, shape (prep v0) = shape v0) : shape ((tryMove e h kind ts up prep s).1) = shape s := by
  unfold tryMove
  repeat' (first
    | with_reducible rfl
    | assumption
    | (with_reducible refine (foldlS_shape _ ?_ _ _).trans ?_)
    | simp only [↓doneWith_shape, ↓fails_shape, ↓moveTargets_shape, ↓mk_shape, ↓shape_ite, ↓fst_ite, ↓try_ite, ↓eng_ite, ↓reduceIte, ite_self, try_done, try_hold, try_trap, eng_done, eng_more, eng_wait, eng_trap, ↓h_prep]
    | split
    | intro _
    | (with_reducible show rect _ = rect _) <;> rfl
    | (with_reducible show Option.map rect _ = Option.map rect _) <;> (rw [‹getPart _ _ = some _›]; rfl)
    | (with_reducible show rect _ = rect _) <;> exact (noteIdle_rect _ _).trans rfl
    | (with_reducible show Option.map rect _ = Option.map rect _) <;> (rw [‹getPart _ _ = some _›]; exact congrArg some (noteIdle_rect _ _))
    | dsimp only
    | simp only [*]
    | (have h' := congrArg (fun o => shape o.1) (‹_ = Prod.mk _ _›); simp only [↓doneWith_shape, ↓fails_shape, ↓moveTargets_shape, ↓mk_shape, ↓shape_ite, ↓fst_ite, ↓try_ite, ↓eng_ite, ↓reduceIte, ite_self, try_done, try_hold, try_trap, eng_done, eng_more, eng_wait, eng_trap, ↓h_prep] at h'; first | exact h'.symm | exact h' | exact h'.symm.trans (by assumption)))

theorem fwActivate_shape (e : Entry) (h : Nat) (kind : Nat) (target : Nat) (s : State) : shape (fwActivate e h kind target s).1 = shape s := by
  unfold fwActivate
  repeat' (first
    | with_reducible rfl
    | (with_reducible refine (tryMove_shape _ _ _ _ _ _ _ ?_).trans ?_)
    | simp only [↓fails_shape]
    | split
    | intro _
    | (with_reducible show rect _ = rect _) <;> rfl)

theorem uncommit_shape (kind : Nat) (s : State) : shape (uncommit kind s) = shape s := rfl

theorem fwRevert_shape (e : Entry) (h : Nat) (kind : Nat) (s : State) : shape (fwRevert e h kind s).1 = shape s := by
  unfold fwRevert
  repeat' (first
    | with_reducible rfl
    | (with_reducible refine (tryMove_shape _ _ _ _ _ _ _ ?_).trans ?_)
    | simp only [↓fails_shape, ↓uncommit_shape, ↓doneWith_shape, ↓setKind_shape]
    | split
    | intro _
    | (with_reducible show rect _ = rect _) <;> rfl)

theorem writeImage_shape (kind : Nat) (d : List Byte) (s : State) : shape (writeImage kind d s) = shape s := rfl

theorem fwStage_shape (kind : Nat) (d : List Byte) (s : State) : shape (fwStage kind d s).1 = shape s := by
  unfold fwStage
  repeat' (first
    | with_reducible rfl
    | simp only [↓failsData_shape, ↓fails_shape, ↓writeImage_shape, ↓doneWith_shape]
    | split)

theorem lampRestarted_shape (s : State) : shape (lampRestarted s) = shape s := by
  unfold lampRestarted
  repeat' (first
    | with_reducible rfl
    | simp only [↓deriveAlias_shape, ↓flipTarget_shape, ↓resolveWaits_shape, ↓mk_shape]
    | split
    | intro _
    | (with_reducible show rect _ = rect _) <;> rfl)

theorem execLamplighterRestartDone_shape (s : State) {nxt : State} (hn : execLamplighterRestartDone s = .next nxt) : shape nxt = shape s := by
  unfold execLamplighterRestartDone at hn
  refine settled_shape hn ?_
  simp only [↓lampRestarted_shape]

theorem microcodeUpdate_shape (e : Entry) (s : State) : shape (microcodeUpdate e s).1 = shape s := by
  unfold microcodeUpdate
  repeat' (first
    | with_reducible rfl
    | (with_reducible refine (fieldsThen_shape _ _ _ ?_).trans ?_)
    | (with_reducible refine (partCmd_shape _ _ _ _ _ ?_).trans ?_)
    | (with_reducible refine (updPart_shape _ _ _ ?_).trans ?_)
    | simp only [↓fails_shape, ↓done_shape, ↓rewriteStores_shape]
    | split
    | intro _
    | (with_reducible show rect _ = rect _) <;> rfl)

theorem execMicrocodeUpdate_shape (e : Entry) (s : State) {nxt : State} (hn : execMicrocodeUpdate e s = .next nxt) : shape nxt = shape s := by
  unfold execMicrocodeUpdate at hn
  refine settled_shape hn ?_
  repeat' (first
    | with_reducible rfl
    | (with_reducible refine (takeCmd_shape _ _ _ ?_).trans ?_)
    | simp only [↓microcodeUpdate_shape]
    | split
    | intro _
    | (with_reducible show rect _ = rect _) <;> rfl)

theorem phaseDone_shape (ok : Bool) (s : State) : shape (phaseDone ok s) = shape s := by
  unfold phaseDone
  repeat' (first
    | with_reducible rfl
    | simp only [↓nextGroup_shape, ↓raiseM_shape, ↓flipTarget_shape, ↓mk_shape]
    | split
    | intro _
    | (with_reducible show rect _ = rect _) <;> rfl)

theorem execPhaseUpdateDone_shape (ok : Bool) (s : State) {nxt : State} (hn : execPhaseUpdateDone ok s = .next nxt) : shape nxt = shape s := by
  unfold execPhaseUpdateDone at hn
  refine settled_shape hn ?_
  simp only [↓phaseDone_shape]

theorem pldmUpdate_shape (d : List Byte) (s : State) : shape (pldmUpdate d s) = shape s := by
  unfold pldmUpdate
  repeat' (first
    | with_reducible rfl
    | simp only [↓writeImage_shape]
    | split)

theorem execPldmFirmwareUpdate_shape (image : List Byte) (s : State) {nxt : State} (hn : execPldmFirmwareUpdate image s = .next nxt) : shape nxt = shape s := by
  unfold execPldmFirmwareUpdate at hn
  refine guarded_shape hn ?_
  simp only [↓pldmUpdate_shape]

end Sys2Proof.Machine
end

