-- ==== Sys2Proof/Laws/FrameLantern.lean ====
section
/-! SUPPORT. What leaves the shape of the machine (Laws/Frame.lean): the scalar instructions, the lantern's own events, received messages and the SPDM, JTAG and management commands. -/

set_option linter.unusedSimpArgs false
set_option linter.unusedTactic false
set_option linter.unreachableTactic false
set_option linter.unusedVariables false
set_option linter.unnecessarySeqFocus false

namespace Sys2Proof.Machine

/-! ## Machine/Scalar.lean -/

theorem branchOn_shape (l : Nat) (f : FmtJ) (test : Word → Word → Bool) (s : State) : shape (branchOn l f test s).state = shape s := by
  unfold branchOn
  repeat' (first
    | with_reducible rfl
    | (with_reducible refine (withRegs_shape _ _ _ _ ?_).trans ?_)
    | simp only [↓updL_shape, ↓try_ite, try_done, try_hold, try_trap]
    | split
    | intro _
    | (with_reducible show rect _ = rect _) <;> rfl
    | dsimp only)

theorem closeStep_shape (s : State) (l : Nat) : shape (closeStep s l) = shape s := by
  unfold closeStep
  simp only [↓traceL_shape, ↓countL_shape, ↓updL_shape]

theorem openStep_shape (l : Nat) (charge : Nat) (s : State) : shape (openStep l charge s).state = shape s := by
  unfold openStep
  repeat' (first
    | with_reducible rfl
    | simp only [↓updL_shape, ↓try_ite, try_done, try_hold, try_trap]
    | split
    | intro _
    | (with_reducible show rect _ = rect _) <;> rfl
    | dsimp only)

theorem scalarOp_shape (l : Nat) (f : FmtS) (op : Word → Word → Word) (s : State) : shape (scalarOp l f op s).state = shape s := by
  unfold scalarOp
  repeat' (first
    | with_reducible rfl
    | (with_reducible refine (withRegs_shape _ _ _ _ ?_).trans ?_)
    | simp only [↓setReg_shape, ↓try_ite, try_done, try_hold, try_trap]
    | split
    | intro _
    | (with_reducible show rect _ = rect _) <;> rfl
    | dsimp only)

theorem tryAdd_shape (l : Nat) (f : FmtS) (s : State) : shape (tryAdd l f s).state = shape s := by
  unfold tryAdd
  simp only [↓scalarOp_shape]

theorem tryAddi_shape (l : Nat) (f : FmtS) (s : State) : shape (tryAddi l f s).state = shape s := by
  unfold tryAddi
  simp only [↓scalarOp_shape]

theorem tryAnd_shape (l : Nat) (f : FmtS) (s : State) : shape (tryAnd l f s).state = shape s := by
  unfold tryAnd
  simp only [↓scalarOp_shape]

theorem tryBeq_shape (l : Nat) (f : FmtJ) (s : State) : shape (tryBeq l f s).state = shape s := by
  unfold tryBeq
  simp only [↓branchOn_shape]

theorem tryBge_shape (l : Nat) (f : FmtJ) (s : State) : shape (tryBge l f s).state = shape s := by
  unfold tryBge
  simp only [↓branchOn_shape]

theorem tryBlt_shape (l : Nat) (f : FmtJ) (s : State) : shape (tryBlt l f s).state = shape s := by
  unfold tryBlt
  simp only [↓branchOn_shape]

theorem tryBne_shape (l : Nat) (f : FmtJ) (s : State) : shape (tryBne l f s).state = shape s := by
  unfold tryBne
  simp only [↓branchOn_shape]

theorem tryFence_shape (l : Nat) (f : FmtC) (s : State) : shape (tryFence l f s).state = shape s := by
  unfold tryFence
  repeat' (first
    | with_reducible rfl
    | simp only [↓try_ite, try_done, try_hold, try_trap]
    | split
    | intro _
    | (with_reducible show rect _ = rect _) <;> rfl
    | dsimp only)

theorem tryJmp_shape (l : Nat) (f : FmtJ) (s : State) : shape (tryJmp l f s).state = shape s := rfl

theorem tryJr_shape (l : Nat) (f : FmtJ) (s : State) : shape (tryJr l f s).state = shape s := by
  unfold tryJr
  repeat' (first
    | with_reducible rfl
    | (with_reducible refine (withRegs_shape _ _ _ _ ?_).trans ?_)
    | simp only [↓updL_shape, ↓try_ite, try_done, try_hold, try_trap]
    | split
    | intro _
    | (with_reducible show rect _ = rect _) <;> rfl
    | dsimp only)

theorem tryLih_shape (l : Nat) (f : FmtS) (s : State) : shape (tryLih l f s).state = shape s := by
  unfold tryLih
  repeat' (first
    | with_reducible rfl
    | (with_reducible refine (withRegs_shape _ _ _ _ ?_).trans ?_)
    | simp only [↓setReg_shape, ↓try_ite, try_done, try_hold, try_trap]
    | split
    | intro _
    | (with_reducible show rect _ = rect _) <;> rfl
    | dsimp only)

theorem tryMul_shape (l : Nat) (f : FmtS) (s : State) : shape (tryMul l f s).state = shape s := by
  unfold tryMul
  simp only [↓scalarOp_shape]

theorem tryNop_shape (x0 : Nat) (x1 : FmtC) (s : State) : shape (tryNop x0 x1 s).state = shape s := rfl

theorem tryOr_shape (l : Nat) (f : FmtS) (s : State) : shape (tryOr l f s).state = shape s := by
  unfold tryOr
  simp only [↓scalarOp_shape]

theorem tryRds_shape (l : Nat) (f : FmtS) (s : State) : shape (tryRds l f s).state = shape s := by
  unfold tryRds
  repeat' (first
    | with_reducible rfl
    | (with_reducible refine (withRegs_shape _ _ _ _ ?_).trans ?_)
    | simp only [↓setReg_shape, ↓try_ite, try_done, try_hold, try_trap]
    | split
    | intro _
    | (with_reducible show rect _ = rect _) <;> rfl
    | dsimp only)

theorem trySar_shape (l : Nat) (f : FmtS) (s : State) : shape (trySar l f s).state = shape s := by
  unfold trySar
  simp only [↓scalarOp_shape]

theorem tryShl_shape (l : Nat) (f : FmtS) (s : State) : shape (tryShl l f s).state = shape s := by
  unfold tryShl
  simp only [↓scalarOp_shape]

theorem tryShr_shape (l : Nat) (f : FmtS) (s : State) : shape (tryShr l f s).state = shape s := by
  unfold tryShr
  simp only [↓scalarOp_shape]

theorem trySld_shape (l : Nat) (f : FmtS) (s : State) : shape (trySld l f s).state = shape s := by
  unfold trySld
  repeat' (first
    | with_reducible rfl
    | (with_reducible refine (withRegs_shape _ _ _ _ ?_).trans ?_)
    | simp only [↓readPad_shape, ↓setReg_shape, ↓try_ite, try_done, try_hold, try_trap, ↓fst_ite]
    | split
    | intro _
    | (with_reducible show rect _ = rect _) <;> rfl
    | dsimp only)

theorem trySlt_shape (l : Nat) (f : FmtS) (s : State) : shape (trySlt l f s).state = shape s := by
  unfold trySlt
  simp only [↓scalarOp_shape]

theorem trySltu_shape (l : Nat) (f : FmtS) (s : State) : shape (trySltu l f s).state = shape s := by
  unfold trySltu
  simp only [↓scalarOp_shape]

theorem trySst_shape (l : Nat) (f : FmtS) (s : State) : shape (trySst l f s).state = shape s := by
  unfold trySst
  repeat' (first
    | with_reducible rfl
    | (with_reducible refine (withRegs_shape _ _ _ _ ?_).trans ?_)
    | simp only [↓writePad_shape, ↓try_ite, try_done, try_hold, try_trap]
    | split
    | intro _
    | (with_reducible show rect _ = rect _) <;> rfl
    | dsimp only)

theorem tryStep_shape (l : Nat) (f : FmtC) (s : State) : shape (tryStep l f s).state = shape s := by
  unfold tryStep
  repeat' (first
    | with_reducible rfl
    | simp only [↓openStep_shape, ↓closeStep_shape, ↓updF_shape, ↓try_ite, try_done, try_hold, try_trap]
    | split
    | intro _
    | (with_reducible show rect _ = rect _) <;> rfl
    | dsimp only)

theorem trySub_shape (l : Nat) (f : FmtS) (s : State) : shape (trySub l f s).state = shape s := by
  unfold trySub
  simp only [↓scalarOp_shape]

theorem tryTrapi_shape (x0 : Nat) (f : FmtC) (s : State) : shape (tryTrapi x0 f s).state = shape s := rfl

theorem tryXor_shape (l : Nat) (f : FmtS) (s : State) : shape (tryXor l f s).state = shape s := by
  unfold tryXor
  simp only [↓scalarOp_shape]

/-! ## Machine/ScalarInstr.lean -/

theorem execAdd_shape (l : Nat) (f : FmtS) (s : State) {nxt : State} (hn : execAdd l f s = .next nxt) : shape nxt = shape s := by
  unfold execAdd at hn
  refine guarded_shape hn ?_
  repeat' (first
    | with_reducible rfl
    | (with_reducible refine (issue_shape _ _ _ _ ?_).trans ?_)
    | simp only [↓tryAdd_shape]
    | split
    | intro _
    | (with_reducible show rect _ = rect _) <;> rfl)

theorem execAddi_shape (l : Nat) (f : FmtS) (s : State) {nxt : State} (hn : execAddi l f s = .next nxt) : shape nxt = shape s := by
  unfold execAddi at hn
  refine guarded_shape hn ?_
  repeat' (first
    | with_reducible rfl
    | (with_reducible refine (issue_shape _ _ _ _ ?_).trans ?_)
    | simp only [↓tryAddi_shape]
    | split
    | intro _
    | (with_reducible show rect _ = rect _) <;> rfl)

theorem execAnd_shape (l : Nat) (f : FmtS) (s : State) {nxt : State} (hn : execAnd l f s = .next nxt) : shape nxt = shape s := by
  unfold execAnd at hn
  refine guarded_shape hn ?_
  repeat' (first
    | with_reducible rfl
    | (with_reducible refine (issue_shape _ _ _ _ ?_).trans ?_)
    | simp only [↓tryAnd_shape]
    | split
    | intro _
    | (with_reducible show rect _ = rect _) <;> rfl)

theorem execBeq_shape (l : Nat) (f : FmtJ) (s : State) {nxt : State} (hn : execBeq l f s = .next nxt) : shape nxt = shape s := by
  unfold execBeq at hn
  refine guarded_shape hn ?_
  repeat' (first
    | with_reducible rfl
    | (with_reducible refine (issue_shape _ _ _ _ ?_).trans ?_)
    | simp only [↓tryBeq_shape]
    | split
    | intro _
    | (with_reducible show rect _ = rect _) <;> rfl)

theorem execBge_shape (l : Nat) (f : FmtJ) (s : State) {nxt : State} (hn : execBge l f s = .next nxt) : shape nxt = shape s := by
  unfold execBge at hn
  refine guarded_shape hn ?_
  repeat' (first
    | with_reducible rfl
    | (with_reducible refine (issue_shape _ _ _ _ ?_).trans ?_)
    | simp only [↓tryBge_shape]
    | split
    | intro _
    | (with_reducible show rect _ = rect _) <;> rfl)

theorem execBlt_shape (l : Nat) (f : FmtJ) (s : State) {nxt : State} (hn : execBlt l f s = .next nxt) : shape nxt = shape s := by
  unfold execBlt at hn
  refine guarded_shape hn ?_
  repeat' (first
    | with_reducible rfl
    | (with_reducible refine (issue_shape _ _ _ _ ?_).trans ?_)
    | simp only [↓tryBlt_shape]
    | split
    | intro _
    | (with_reducible show rect _ = rect _) <;> rfl)

theorem execBne_shape (l : Nat) (f : FmtJ) (s : State) {nxt : State} (hn : execBne l f s = .next nxt) : shape nxt = shape s := by
  unfold execBne at hn
  refine guarded_shape hn ?_
  repeat' (first
    | with_reducible rfl
    | (with_reducible refine (issue_shape _ _ _ _ ?_).trans ?_)
    | simp only [↓tryBne_shape]
    | split
    | intro _
    | (with_reducible show rect _ = rect _) <;> rfl)

theorem execFence_shape (l : Nat) (f : FmtC) (s : State) {nxt : State} (hn : execFence l f s = .next nxt) : shape nxt = shape s := by
  unfold execFence at hn
  refine guarded_shape hn ?_
  repeat' (first
    | with_reducible rfl
    | (with_reducible refine (issue_shape _ _ _ _ ?_).trans ?_)
    | simp only [↓tryFence_shape]
    | split
    | intro _
    | (with_reducible show rect _ = rect _) <;> rfl)

theorem execJmp_shape (l : Nat) (f : FmtJ) (s : State) {nxt : State} (hn : execJmp l f s = .next nxt) : shape nxt = shape s := by
  unfold execJmp at hn
  refine guarded_shape hn ?_
  repeat' (first
    | with_reducible rfl
    | (with_reducible refine (issue_shape _ _ _ _ ?_).trans ?_)
    | simp only [↓tryJmp_shape]
    | split
    | intro _
    | (with_reducible show rect _ = rect _) <;> rfl)

theorem execJr_shape (l : Nat) (f : FmtJ) (s : State) {nxt : State} (hn : execJr l f s = .next nxt) : shape nxt = shape s := by
  unfold execJr at hn
  refine guarded_shape hn ?_
  repeat' (first
    | with_reducible rfl
    | (with_reducible refine (issue_shape _ _ _ _ ?_).trans ?_)
    | simp only [↓tryJr_shape]
    | split
    | intro _
    | (with_reducible show rect _ = rect _) <;> rfl)

theorem execLih_shape (l : Nat) (f : FmtS) (s : State) {nxt : State} (hn : execLih l f s = .next nxt) : shape nxt = shape s := by
  unfold execLih at hn
  refine guarded_shape hn ?_
  repeat' (first
    | with_reducible rfl
    | (with_reducible refine (issue_shape _ _ _ _ ?_).trans ?_)
    | simp only [↓tryLih_shape]
    | split
    | intro _
    | (with_reducible show rect _ = rect _) <;> rfl)

theorem execMul_shape (l : Nat) (f : FmtS) (s : State) {nxt : State} (hn : execMul l f s = .next nxt) : shape nxt = shape s := by
  unfold execMul at hn
  refine guarded_shape hn ?_
  repeat' (first
    | with_reducible rfl
    | (with_reducible refine (issue_shape _ _ _ _ ?_).trans ?_)
    | simp only [↓tryMul_shape]
    | split
    | intro _
    | (with_reducible show rect _ = rect _) <;> rfl)

theorem execNop_shape (l : Nat) (f : FmtC) (s : State) {nxt : State} (hn : execNop l f s = .next nxt) : shape nxt = shape s := by
  unfold execNop at hn
  refine guarded_shape hn ?_
  repeat' (first
    | with_reducible rfl
    | (with_reducible refine (issue_shape _ _ _ _ ?_).trans ?_)
    | simp only [↓tryNop_shape]
    | split
    | intro _
    | (with_reducible show rect _ = rect _) <;> rfl)

theorem execOr_shape (l : Nat) (f : FmtS) (s : State) {nxt : State} (hn : execOr l f s = .next nxt) : shape nxt = shape s := by
  unfold execOr at hn
  refine guarded_shape hn ?_
  repeat' (first
    | with_reducible rfl
    | (with_reducible refine (issue_shape _ _ _ _ ?_).trans ?_)
    | simp only [↓tryOr_shape]
    | split
    | intro _
    | (with_reducible show rect _ = rect _) <;> rfl)

theorem execRds_shape (l : Nat) (f : FmtS) (s : State) {nxt : State} (hn : execRds l f s = .next nxt) : shape nxt = shape s := by
  unfold execRds at hn
  refine guarded_shape hn ?_
  repeat' (first
    | with_reducible rfl
    | (with_reducible refine (issue_shape _ _ _ _ ?_).trans ?_)
    | simp only [↓tryRds_shape]
    | split
    | intro _
    | (with_reducible show rect _ = rect _) <;> rfl)

theorem execSar_shape (l : Nat) (f : FmtS) (s : State) {nxt : State} (hn : execSar l f s = .next nxt) : shape nxt = shape s := by
  unfold execSar at hn
  refine guarded_shape hn ?_
  repeat' (first
    | with_reducible rfl
    | (with_reducible refine (issue_shape _ _ _ _ ?_).trans ?_)
    | simp only [↓trySar_shape]
    | split
    | intro _
    | (with_reducible show rect _ = rect _) <;> rfl)

theorem execShl_shape (l : Nat) (f : FmtS) (s : State) {nxt : State} (hn : execShl l f s = .next nxt) : shape nxt = shape s := by
  unfold execShl at hn
  refine guarded_shape hn ?_
  repeat' (first
    | with_reducible rfl
    | (with_reducible refine (issue_shape _ _ _ _ ?_).trans ?_)
    | simp only [↓tryShl_shape]
    | split
    | intro _
    | (with_reducible show rect _ = rect _) <;> rfl)

theorem execShr_shape (l : Nat) (f : FmtS) (s : State) {nxt : State} (hn : execShr l f s = .next nxt) : shape nxt = shape s := by
  unfold execShr at hn
  refine guarded_shape hn ?_
  repeat' (first
    | with_reducible rfl
    | (with_reducible refine (issue_shape _ _ _ _ ?_).trans ?_)
    | simp only [↓tryShr_shape]
    | split
    | intro _
    | (with_reducible show rect _ = rect _) <;> rfl)

theorem execSld_shape (l : Nat) (f : FmtS) (s : State) {nxt : State} (hn : execSld l f s = .next nxt) : shape nxt = shape s := by
  unfold execSld at hn
  refine guarded_shape hn ?_
  repeat' (first
    | with_reducible rfl
    | (with_reducible refine (issue_shape _ _ _ _ ?_).trans ?_)
    | simp only [↓trySld_shape]
    | split
    | intro _
    | (with_reducible show rect _ = rect _) <;> rfl)

theorem execSlt_shape (l : Nat) (f : FmtS) (s : State) {nxt : State} (hn : execSlt l f s = .next nxt) : shape nxt = shape s := by
  unfold execSlt at hn
  refine guarded_shape hn ?_
  repeat' (first
    | with_reducible rfl
    | (with_reducible refine (issue_shape _ _ _ _ ?_).trans ?_)
    | simp only [↓trySlt_shape]
    | split
    | intro _
    | (with_reducible show rect _ = rect _) <;> rfl)

theorem execSltu_shape (l : Nat) (f : FmtS) (s : State) {nxt : State} (hn : execSltu l f s = .next nxt) : shape nxt = shape s := by
  unfold execSltu at hn
  refine guarded_shape hn ?_
  repeat' (first
    | with_reducible rfl
    | (with_reducible refine (issue_shape _ _ _ _ ?_).trans ?_)
    | simp only [↓trySltu_shape]
    | split
    | intro _
    | (with_reducible show rect _ = rect _) <;> rfl)

theorem execSst_shape (l : Nat) (f : FmtS) (s : State) {nxt : State} (hn : execSst l f s = .next nxt) : shape nxt = shape s := by
  unfold execSst at hn
  refine guarded_shape hn ?_
  repeat' (first
    | with_reducible rfl
    | (with_reducible refine (issue_shape _ _ _ _ ?_).trans ?_)
    | simp only [↓trySst_shape]
    | split
    | intro _
    | (with_reducible show rect _ = rect _) <;> rfl)

theorem execStep_shape (l : Nat) (f : FmtC) (s : State) {nxt : State} (hn : execStep l f s = .next nxt) : shape nxt = shape s := by
  unfold execStep at hn
  refine guarded_shape hn ?_
  repeat' (first
    | with_reducible rfl
    | (with_reducible refine (issue_shape _ _ _ _ ?_).trans ?_)
    | simp only [↓tryStep_shape]
    | split
    | intro _
    | (with_reducible show rect _ = rect _) <;> rfl)

theorem execSub_shape (l : Nat) (f : FmtS) (s : State) {nxt : State} (hn : execSub l f s = .next nxt) : shape nxt = shape s := by
  unfold execSub at hn
  refine guarded_shape hn ?_
  repeat' (first
    | with_reducible rfl
    | (with_reducible refine (issue_shape _ _ _ _ ?_).trans ?_)
    | simp only [↓trySub_shape]
    | split
    | intro _
    | (with_reducible show rect _ = rect _) <;> rfl)

theorem execTrapi_shape (l : Nat) (f : FmtC) (s : State) {nxt : State} (hn : execTrapi l f s = .next nxt) : shape nxt = shape s := by
  unfold execTrapi at hn
  refine guarded_shape hn ?_
  repeat' (first
    | with_reducible rfl
    | (with_reducible refine (issue_shape _ _ _ _ ?_).trans ?_)
    | simp only [↓tryTrapi_shape]
    | split
    | intro _
    | (with_reducible show rect _ = rect _) <;> rfl)

theorem execXor_shape (l : Nat) (f : FmtS) (s : State) {nxt : State} (hn : execXor l f s = .next nxt) : shape nxt = shape s := by
  unfold execXor at hn
  refine guarded_shape hn ?_
  repeat' (first
    | with_reducible rfl
    | (with_reducible refine (issue_shape _ _ _ _ ?_).trans ?_)
    | simp only [↓tryXor_shape]
    | split
    | intro _
    | (with_reducible show rect _ = rect _) <;> rfl)

/-! ## Machine/LanternEvents.lean -/

theorem execStoreError_shape (l : Nat) (s : State) {nxt : State} (hn : execStoreError l s = .next nxt) : shape nxt = shape s := by
  unfold execStoreError at hn
  refine guarded_shape hn ?_
  repeat' (first
    | with_reducible rfl
    | simp only [↓trapAt_shape]
    | split)

theorem seqTry_shape (x0 : Instr) (x1 : State) : shape (seqTry x0 x1).state = shape x1 := by
  unfold seqTry
  repeat' (first
    | with_reducible rfl
    | simp only [↓tryNop_shape, ↓tryAdd_shape, ↓trySub_shape, ↓tryAnd_shape, ↓tryOr_shape, ↓tryXor_shape, ↓tryShl_shape, ↓tryShr_shape, ↓trySar_shape, ↓tryMul_shape, ↓trySlt_shape, ↓trySltu_shape, ↓tryAddi_shape, ↓tryLih_shape, ↓trySld_shape, ↓trySst_shape, ↓tryRds_shape, ↓tryBeq_shape, ↓tryBne_shape, ↓tryBlt_shape, ↓tryBge_shape, ↓tryJmp_shape, ↓tryJr_shape, ↓tryStep_shape, ↓tryFence_shape, ↓tryTrapi_shape, ↓tryAop_shape, ↓tryAclr_shape, ↓tryArd_shape, ↓tryAexp_shape, ↓tryAimp_shape, ↓tryWidot_shape, ↓tryWfdot_shape, ↓tryWvb_shape, ↓tryWvu_shape, ↓tryWred_shape, ↓tryWsmx_shape, ↓tryWqnt_shape, ↓tryWgth_shape, ↓tryWtopk_shape, ↓tryWsmp_shape, ↓tryQld_shape, ↓tryAscr_shape, ↓tryAval_shape, ↓tryKapp_shape, ↓tryKmark_shape, ↓tryKrew_shape, ↓tryKrel_shape, ↓tryKwalk_shape, ↓tryKxfr_shape, ↓tryCopy_shape, ↓tryTrd_shape, ↓trySend_shape, ↓tryClr_shape, ↓tryRecv_shape, ↓tryQpeek_shape, ↓tryQpop_shape, ↓tryQmark_shape, ↓tryQrewind_shape, ↓tryQrel_shape, ↓tryQstat_shape, ↓try_ite, try_done, try_hold, try_trap]
    | split
    | intro _
    | (with_reducible show rect _ = rect _) <;> rfl
    | dsimp only)

theorem retryHeld_shape (l : Nat) (s : State) : shape (retryHeld l s) = shape s := by
  unfold retryHeld
  repeat' (first
    | with_reducible rfl
    | (with_reducible refine (attempt_shape _ _ _ _ ?_).trans ?_)
    | simp only [↓seqTry_shape, ↓updL_shape, ↓waitEnded_shape]
    | split
    | intro _
    | (with_reducible show rect _ = rect _) <;> rfl)

theorem startAll_shape (l : Nat) (s : State) : shape (startAll l s) = shape s := by
  unfold startAll
  repeat' (first
    | with_reducible rfl
    | (with_reducible refine (forEach_shape _ _ _ ?_).trans ?_)
    | simp only [↓startEngine_shape]
    | split
    | intro _
    | (with_reducible show rect _ = rect _) <;> rfl)

theorem execWaitEnd_shape (l : Nat) (eng : Nat) (s : State) {nxt : State} (hn : execWaitEnd l eng s = .next nxt) : shape nxt = shape s := by
  unfold execWaitEnd at hn
  refine guarded_shape hn ?_
  repeat' (first
    | with_reducible rfl
    | simp only [↓startAll_shape, ↓retryHeld_shape, ↓runEngine_shape]
    | split)

/-! ## Machine/Receive.lean -/

theorem addCredits_shape (l : Nat) (e : Nat) (n : Nat) (s : State) : shape (addCredits l e n s) = shape s := by
  unfold addCredits
  repeat' (first
    | with_reducible rfl
    | simp only [↓trapNow_shape, ↓updSl_shape]
    | split)

theorem takeRx_shape (s : State) (l : Nat) (p : Flit → Bool) {rv : Flit × State} (hr : takeRx s l p = some rv) : shape rv.2 = shape s := by
  unfold takeRx at hr
  repeat' (first | contradiction | split at hr | (cases hr) | dsimp only at hr)
  all_goals
    repeat' (first
      | with_reducible rfl
      | assumption
      | (with_reducible refine (foldlS_shape _ ?_ _ _).trans ?_)
      | simp only [↓updL_shape, ↓mk_shape, ↓shape_ite, ↓fst_ite, ↓try_ite, ↓eng_ite, ↓reduceIte, ite_self, try_done, try_hold, try_trap, eng_done, eng_more, eng_wait, eng_trap]
      | split
      | intro _
      | (with_reducible show rect _ = rect _) <;> rfl
      | (with_reducible show Option.map rect _ = Option.map rect _) <;> (rw [‹getPart _ _ = some _›]; rfl)
      | (with_reducible show rect _ = rect _) <;> exact (noteIdle_rect _ _).trans rfl
      | (with_reducible show Option.map rect _ = Option.map rect _) <;> (rw [‹getPart _ _ = some _›]; exact congrArg some (noteIdle_rect _ _))
      | dsimp only
      | simp only [*])

theorem arrive_shape (l : Nat) (p : Flit → Bool) (t : Nat → Flit → State → State) (s : State) (h_t : ∀ v0 v1 v2, shape (t v0 v1 v2) = shape v2) : shape (arrive l p t s) = shape s := by
  unfold arrive
  repeat' (first
    | with_reducible rfl
    | assumption
    | (with_reducible refine (takeRx_shape (rv := (_, _)) (hr := ‹_›)).trans ?_)
    | (with_reducible refine (foldlS_shape _ ?_ _ _).trans ?_)
    | simp only [↓mk_shape, ↓shape_ite, ↓fst_ite, ↓try_ite, ↓eng_ite, ↓reduceIte, ite_self, try_done, try_hold, try_trap, eng_done, eng_more, eng_wait, eng_trap, ↓h_t]
    | split
    | intro _
    | (with_reducible show rect _ = rect _) <;> rfl
    | (with_reducible show Option.map rect _ = Option.map rect _) <;> (rw [‹getPart _ _ = some _›]; rfl)
    | (with_reducible show rect _ = rect _) <;> exact (noteIdle_rect _ _).trans rfl
    | (with_reducible show Option.map rect _ = Option.map rect _) <;> (rw [‹getPart _ _ = some _›]; exact congrArg some (noteIdle_rect _ _))
    | dsimp only
    | simp only [*])

theorem arriveKv_shape (l : Nat) (f : Flit) (s : State) : shape (arriveKv l f s) = shape s := by
  unfold arriveKv
  repeat' (first
    | with_reducible rfl
    | simp only [↓kvViolation_shape, ↓startEngine_shape, ↓portWork_shape, ↓updL_shape]
    | split)

theorem storeAccx_shape (l : Nat) (f : Flit) (s : State) : shape (storeAccx l f s) = shape s := by
  unfold storeAccx
  repeat' (first
    | with_reducible rfl
    | simp only [↓trapNow_shape, ↓countL_shape, ↓updLane_shape]
    | split)

theorem execAccxArrival_shape (l : Nat) (s : State) {nxt : State} (hn : execAccxArrival l s = .next nxt) : shape nxt = shape s := by
  unfold execAccxArrival at hn
  refine guarded_shape hn ?_
  repeat' (first
    | with_reducible rfl
    | (with_reducible refine (arrive_shape _ _ _ _ ?_).trans ?_)
    | simp only [↓storeAccx_shape]
    | split
    | intro _
    | (with_reducible show rect _ = rect _) <;> rfl)

theorem takeCredit_shape (l : Nat) (f : Flit) (s : State) : shape (takeCredit l f s) = shape s := by
  unfold takeCredit
  repeat' (first
    | with_reducible rfl
    | simp only [↓addCredits_shape, ↓trapNow_shape, ↓countL_shape]
    | split)

theorem execCreditArrival_shape (l : Nat) (s : State) {nxt : State} (hn : execCreditArrival l s = .next nxt) : shape nxt = shape s := by
  unfold execCreditArrival at hn
  refine guarded_shape hn ?_
  repeat' (first
    | with_reducible rfl
    | (with_reducible refine (arrive_shape _ _ _ _ ?_).trans ?_)
    | simp only [↓takeCredit_shape]
    | split
    | intro _
    | (with_reducible show rect _ = rect _) <;> rfl)

theorem execKvReservedSub_shape (l : Nat) (s : State) {nxt : State} (hn : execKvReservedSub l s = .next nxt) : shape nxt = shape s := by
  unfold execKvReservedSub at hn
  refine guarded_shape hn ?_
  repeat' (first
    | with_reducible rfl
    | (with_reducible refine (arrive_shape _ _ _ _ ?_).trans ?_)
    | simp only [↓raiseL_shape, ↓countL_shape]
    | split
    | intro _
    | (with_reducible show rect _ = rect _) <;> rfl)

theorem storeQline_shape (l : Nat) (f : Flit) (s : State) : shape (storeQline l f s) = shape s := by
  unfold storeQline
  repeat' (first
    | with_reducible rfl
    | simp only [↓trapNow_shape, ↓countL_shape, ↓updL_shape, ↓updQ_shape]
    | split)

theorem execQlineArrival_shape (l : Nat) (s : State) {nxt : State} (hn : execQlineArrival l s = .next nxt) : shape nxt = shape s := by
  unfold execQlineArrival at hn
  refine guarded_shape hn ?_
  repeat' (first
    | with_reducible rfl
    | (with_reducible refine (arrive_shape _ _ _ _ ?_).trans ?_)
    | simp only [↓storeQline_shape]
    | split
    | intro _
    | (with_reducible show rect _ = rect _) <;> rfl)

theorem takeMoveXack_shape (l : Nat) (f : Flit) (s : State) : shape (takeMoveXack l f s) = shape s := by
  unfold takeMoveXack
  repeat' (first
    | with_reducible rfl
    | simp only [↓addCredits_shape, ↓startEngine_shape, ↓portWork_shape, ↓pageDone_shape, ↓setMove_shape, ↓feedMove_shape]
    | split)

theorem takeXack_shape (l : Nat) (f : Flit) (s : State) : shape (takeXack l f s) = shape s := by
  unfold takeXack
  repeat' (first
    | with_reducible rfl
    | simp only [↓takeMoveXack_shape, ↓countL_shape, ↓addCredits_shape, ↓startEngine_shape, ↓portWork_shape, ↓popHead_shape, ↓waitEnded_shape]
    | split)

theorem execXackArrival_shape (l : Nat) (s : State) {nxt : State} (hn : execXackArrival l s = .next nxt) : shape nxt = shape s := by
  unfold execXackArrival at hn
  refine guarded_shape hn ?_
  repeat' (first
    | with_reducible rfl
    | (with_reducible refine (arrive_shape _ _ _ _ ?_).trans ?_)
    | simp only [↓takeXack_shape]
    | split
    | intro _
    | (with_reducible show rect _ = rect _) <;> rfl)

theorem execXdataArrival_shape (l : Nat) (s : State) {nxt : State} (hn : execXdataArrival l s = .next nxt) : shape nxt = shape s := by
  unfold execXdataArrival at hn
  refine guarded_shape hn ?_
  repeat' (first
    | with_reducible rfl
    | (with_reducible refine (arrive_shape _ _ _ _ ?_).trans ?_)
    | simp only [↓arriveKv_shape]
    | split
    | intro _
    | (with_reducible show rect _ = rect _) <;> rfl)

theorem execXhdrArrival_shape (l : Nat) (s : State) {nxt : State} (hn : execXhdrArrival l s = .next nxt) : shape nxt = shape s := by
  unfold execXhdrArrival at hn
  refine guarded_shape hn ?_
  repeat' (first
    | with_reducible rfl
    | (with_reducible refine (arrive_shape _ _ _ _ ?_).trans ?_)
    | simp only [↓arriveKv_shape]
    | split
    | intro _
    | (with_reducible show rect _ = rect _) <;> rfl)

/-! ## Machine/Spdm.lean -/

theorem ackAlerts_shape (mask : BitVec 32) (s : State) : shape (ackAlerts mask s) = shape s := by
  unfold ackAlerts
  repeat' (first
    | with_reducible rfl
    | simp only [↓clearAlert_shape]
    | split)

theorem answer_shape (ep : SpdmEp) (a : SpdmAnswer) (s : State) : shape (answer ep a s) = shape s := rfl

theorem assignAddress_shape (addr : BitVec 7) (s : State) : shape (assignAddress addr s) = shape s := by
  unfold assignAddress
  repeat' (first
    | with_reducible rfl
    | simp only [↓flushMgmt_shape, ↓mk_shape]
    | split
    | intro _
    | (with_reducible show rect _ = rect _) <;> rfl)

theorem clearAddress_shape (s : State) : shape (clearAddress s) = shape s := rfl

theorem drawn_shape (s : State) : shape (drawn s) = shape s := rfl

theorem endSession_shape (session : Nat) (s : State) : shape (endSession session s) = shape s := rfl

theorem execDynamicAddressAssign_shape (addr : BitVec 7) (s : State) {nxt : State} (hn : execDynamicAddressAssign addr s = .next nxt) : shape nxt = shape s := by
  unfold execDynamicAddressAssign at hn
  refine guarded_shape hn ?_
  simp only [↓assignAddress_shape]

theorem jtagNow_shape (op : JtagOp) (s : State) {nxt : State} (hn : jtagNow op s = .next nxt) : shape nxt = shape s := by
  unfold jtagNow at hn
  split at hn
  · cases hn; rfl
  · cases hn; rfl
  · split at hn
    · cases hn
    · cases hn; rfl

theorem execJtagInstruction_shape (op : JtagOp) (s : State) {nxt : State} (hn : execJtagInstruction op s = .next nxt) : shape nxt = shape s :=
  jtagNow_shape op s hn

theorem execPldmEventAck_shape (mask : BitVec 32) (s : State) {nxt : State} (hn : execPldmEventAck mask s = .next nxt) : shape nxt = shape s := by
  unfold execPldmEventAck at hn
  refine guarded_shape hn ?_
  simp only [↓ackAlerts_shape]

theorem execRstdaa_shape (s : State) {nxt : State} (hn : execRstdaa s = .next nxt) : shape nxt = shape s := by
  unfold execRstdaa at hn
  refine guarded_shape hn ?_
  simp only [↓clearAddress_shape]

theorem spdmAny_shape (ep : SpdmEp) (body : State → State) (s : State) (h_body : ∀ v0, shape (body v0) = shape v0) : shape (spdmAny ep body s) = shape s := by
  unfold spdmAny
  repeat' (first
    | with_reducible rfl
    | assumption
    | (with_reducible refine (foldlS_shape _ ?_ _ _).trans ?_)
    | simp only [↓answer_shape, ↓mk_shape, ↓shape_ite, ↓fst_ite, ↓try_ite, ↓eng_ite, ↓reduceIte, ite_self, try_done, try_hold, try_trap, eng_done, eng_more, eng_wait, eng_trap, ↓h_body]
    | split
    | intro _
    | (with_reducible show rect _ = rect _) <;> rfl
    | (with_reducible show Option.map rect _ = Option.map rect _) <;> (rw [‹getPart _ _ = some _›]; rfl)
    | (with_reducible show rect _ = rect _) <;> exact (noteIdle_rect _ _).trans rfl
    | (with_reducible show Option.map rect _ = Option.map rect _) <;> (rw [‹getPart _ _ = some _›]; exact congrArg some (noteIdle_rect _ _))
    | dsimp only
    | simp only [*])

theorem spdmReq_shape (ep : SpdmEp) (body : State → State) (s : State) (h_body : ∀ v0, shape (body v0) = shape v0) : shape (spdmReq ep body s) = shape s := by
  unfold spdmReq
  repeat' (first
    | with_reducible rfl
    | assumption
    | (with_reducible refine (spdmAny_shape _ _ _ ?_).trans ?_)
    | (with_reducible refine (foldlS_shape _ ?_ _ _).trans ?_)
    | simp only [↓answer_shape, ↓mk_shape, ↓shape_ite, ↓fst_ite, ↓try_ite, ↓eng_ite, ↓reduceIte, ite_self, try_done, try_hold, try_trap, eng_done, eng_more, eng_wait, eng_trap, ↓h_body]
    | split
    | intro _
    | (with_reducible show rect _ = rect _) <;> rfl
    | (with_reducible show Option.map rect _ = Option.map rect _) <;> (rw [‹getPart _ _ = some _›]; rfl)
    | (with_reducible show rect _ = rect _) <;> exact (noteIdle_rect _ _).trans rfl
    | (with_reducible show Option.map rect _ = Option.map rect _) <;> (rw [‹getPart _ _ = some _›]; exact congrArg some (noteIdle_rect _ _))
    | dsimp only
    | simp only [*])

theorem spdmProof_shape (ep : SpdmEp) (body : State → State) (s : State) (h_body : ∀ v0, shape (body v0) = shape v0) : shape (spdmProof ep body s) = shape s := by
  unfold spdmProof
  repeat' (first
    | with_reducible rfl
    | assumption
    | (with_reducible refine (spdmReq_shape _ _ _ ?_).trans ?_)
    | (with_reducible refine (foldlS_shape _ ?_ _ _).trans ?_)
    | simp only [↓answer_shape, ↓mk_shape, ↓shape_ite, ↓fst_ite, ↓try_ite, ↓eng_ite, ↓reduceIte, ite_self, try_done, try_hold, try_trap, eng_done, eng_more, eng_wait, eng_trap, ↓h_body]
    | split
    | intro _
    | (with_reducible show rect _ = rect _) <;> rfl
    | (with_reducible show Option.map rect _ = Option.map rect _) <;> (rw [‹getPart _ _ = some _›]; rfl)
    | (with_reducible show rect _ = rect _) <;> exact (noteIdle_rect _ _).trans rfl
    | (with_reducible show Option.map rect _ = Option.map rect _) <;> (rw [‹getPart _ _ = some _›]; exact congrArg some (noteIdle_rect _ _))
    | dsimp only
    | simp only [*])

theorem execSpdmChallenge_shape (ep : SpdmEp) (slot : Nat) (nonce : BitVec 256) (s : State) {nxt : State} (hn : execSpdmChallenge ep slot nonce s = .next nxt) : shape nxt = shape s := by
  unfold execSpdmChallenge at hn
  refine guarded_shape hn ?_
  repeat' (first
    | with_reducible rfl
    | (with_reducible refine (spdmProof_shape _ _ _ ?_).trans ?_)
    | simp only [↓answer_shape, ↓drawn_shape]
    | split
    | intro _
    | (with_reducible show rect _ = rect _) <;> rfl)

theorem inSession_shape (ep : SpdmEp) (session : Nat) (a : SpdmAnswer) (body : State → State) (s : State) (h_body : ∀ v0, shape (body v0) = shape v0) : shape (inSession ep session a body s) = shape s := by
  unfold inSession
  repeat' (first
    | with_reducible rfl
    | assumption
    | (with_reducible refine (foldlS_shape _ ?_ _ _).trans ?_)
    | simp only [↓answer_shape, ↓mk_shape, ↓shape_ite, ↓fst_ite, ↓try_ite, ↓eng_ite, ↓reduceIte, ite_self, try_done, try_hold, try_trap, eng_done, eng_more, eng_wait, eng_trap, ↓h_body]
    | split
    | intro _
    | (with_reducible show rect _ = rect _) <;> rfl
    | (with_reducible show Option.map rect _ = Option.map rect _) <;> (rw [‹getPart _ _ = some _›]; rfl)
    | (with_reducible show rect _ = rect _) <;> exact (noteIdle_rect _ _).trans rfl
    | (with_reducible show Option.map rect _ = Option.map rect _) <;> (rw [‹getPart _ _ = some _›]; exact congrArg some (noteIdle_rect _ _))
    | dsimp only
    | simp only [*])

theorem execSpdmEndSession_shape (ep : SpdmEp) (session : Nat) (s : State) {nxt : State} (hn : execSpdmEndSession ep session s = .next nxt) : shape nxt = shape s := by
  unfold execSpdmEndSession at hn
  refine guarded_shape hn ?_
  repeat' (first
    | with_reducible rfl
    | (with_reducible refine (inSession_shape _ _ _ _ _ ?_).trans ?_)
    | (with_reducible refine (spdmReq_shape _ _ _ ?_).trans ?_)
    | simp only [↓endSession_shape]
    | split
    | intro _
    | (with_reducible show rect _ = rect _) <;> rfl)

theorem updSession_shape (session : Nat) (f : Session → Session) (s : State) : shape (updSession session f s) = shape s := rfl

theorem finishSession_shape (ep : SpdmEp) (session : Nat) (ok : Bool) (s : State) : shape (finishSession ep session ok s) = shape s := by
  unfold finishSession
  repeat' (first
    | with_reducible rfl
    | simp only [↓answer_shape, ↓updSession_shape, ↓endSession_shape]
    | split)

theorem execSpdmFinish_shape (ep : SpdmEp) (session : Nat) (ok : Bool) (s : State) {nxt : State} (hn : execSpdmFinish ep session ok s = .next nxt) : shape nxt = shape s := by
  unfold execSpdmFinish at hn
  refine guarded_shape hn ?_
  repeat' (first
    | with_reducible rfl
    | (with_reducible refine (spdmReq_shape _ _ _ ?_).trans ?_)
    | simp only [↓finishSession_shape]
    | split
    | intro _
    | (with_reducible show rect _ = rect _) <;> rfl)

theorem execSpdmGetCapabilities_shape (ep : SpdmEp) (s : State) {nxt : State} (hn : execSpdmGetCapabilities ep s = .next nxt) : shape nxt = shape s := by
  unfold execSpdmGetCapabilities at hn
  refine guarded_shape hn ?_
  repeat' (first
    | with_reducible rfl
    | (with_reducible refine (spdmReq_shape _ _ _ ?_).trans ?_)
    | simp only [↓answer_shape]
    | split
    | intro _
    | (with_reducible show rect _ = rect _) <;> rfl)

theorem execSpdmGetCertificate_shape (ep : SpdmEp) (slot : Nat) (s : State) {nxt : State} (hn : execSpdmGetCertificate ep slot s = .next nxt) : shape nxt = shape s := by
  unfold execSpdmGetCertificate at hn
  refine guarded_shape hn ?_
  repeat' (first
    | with_reducible rfl
    | (with_reducible refine (spdmReq_shape _ _ _ ?_).trans ?_)
    | simp only [↓answer_shape]
    | split
    | intro _
    | (with_reducible show rect _ = rect _) <;> rfl)

theorem execSpdmGetDigests_shape (ep : SpdmEp) (s : State) {nxt : State} (hn : execSpdmGetDigests ep s = .next nxt) : shape nxt = shape s := by
  unfold execSpdmGetDigests at hn
  refine guarded_shape hn ?_
  repeat' (first
    | with_reducible rfl
    | (with_reducible refine (spdmReq_shape _ _ _ ?_).trans ?_)
    | simp only [↓answer_shape]
    | split
    | intro _
    | (with_reducible show rect _ = rect _) <;> rfl)

theorem spdmMeasure_shape (ep : SpdmEp) (index : Nat) (sign : Bool) (s : State) : shape (spdmMeasure ep index sign s) = shape s := by
  unfold spdmMeasure
  repeat' (first
    | with_reducible rfl
    | simp only [↓answer_shape, ↓drawn_shape]
    | split)

theorem execSpdmGetMeasurements_shape (ep : SpdmEp) (index : Nat) (sign : Bool) (s : State) {nxt : State} (hn : execSpdmGetMeasurements ep index sign s = .next nxt) : shape nxt = shape s := by
  unfold execSpdmGetMeasurements at hn
  refine guarded_shape hn ?_
  repeat' (first
    | with_reducible rfl
    | (with_reducible refine (spdmProof_shape _ _ _ ?_).trans ?_)
    | simp only [↓spdmMeasure_shape]
    | split
    | intro _
    | (with_reducible show rect _ = rect _) <;> rfl)

theorem execSpdmGetVersion_shape (ep : SpdmEp) (s : State) {nxt : State} (hn : execSpdmGetVersion ep s = .next nxt) : shape nxt = shape s := by
  unfold execSpdmGetVersion at hn
  refine guarded_shape hn ?_
  repeat' (first
    | with_reducible rfl
    | (with_reducible refine (spdmAny_shape _ _ _ ?_).trans ?_)
    | simp only [↓answer_shape]
    | split
    | intro _
    | (with_reducible show rect _ = rect _) <;> rfl)

theorem execSpdmHeartbeat_shape (ep : SpdmEp) (session : Nat) (s : State) {nxt : State} (hn : execSpdmHeartbeat ep session s = .next nxt) : shape nxt = shape s := by
  unfold execSpdmHeartbeat at hn
  refine guarded_shape hn ?_
  repeat' (first
    | with_reducible rfl
    | (with_reducible refine (inSession_shape _ _ _ _ _ ?_).trans ?_)
    | (with_reducible refine (spdmReq_shape _ _ _ ?_).trans ?_)
    | split
    | intro _
    | (with_reducible show rect _ = rect _) <;> rfl)

theorem keyExchange_shape (ep : SpdmEp) (reqSession : Nat) (s : State) : shape (keyExchange ep reqSession s) = shape s := rfl

theorem execSpdmKeyExchange_shape (ep : SpdmEp) (reqSession : Nat) (s : State) {nxt : State} (hn : execSpdmKeyExchange ep reqSession s = .next nxt) : shape nxt = shape s := by
  unfold execSpdmKeyExchange at hn
  refine guarded_shape hn ?_
  repeat' (first
    | with_reducible rfl
    | (with_reducible refine (spdmProof_shape _ _ _ ?_).trans ?_)
    | simp only [↓keyExchange_shape]
    | split
    | intro _
    | (with_reducible show rect _ = rect _) <;> rfl)

theorem execSpdmKeyUpdate_shape (ep : SpdmEp) (session : Nat) (s : State) {nxt : State} (hn : execSpdmKeyUpdate ep session s = .next nxt) : shape nxt = shape s := by
  unfold execSpdmKeyUpdate at hn
  refine guarded_shape hn ?_
  repeat' (first
    | with_reducible rfl
    | (with_reducible refine (inSession_shape _ _ _ _ _ ?_).trans ?_)
    | (with_reducible refine (spdmReq_shape _ _ _ ?_).trans ?_)
    | simp only [↓updSession_shape]
    | split
    | intro _
    | (with_reducible show rect _ = rect _) <;> rfl)

theorem execSpdmNegotiateAlgorithms_shape (ep : SpdmEp) (s : State) {nxt : State} (hn : execSpdmNegotiateAlgorithms ep s = .next nxt) : shape nxt = shape s := by
  unfold execSpdmNegotiateAlgorithms at hn
  refine guarded_shape hn ?_
  repeat' (first
    | with_reducible rfl
    | (with_reducible refine (spdmReq_shape _ _ _ ?_).trans ?_)
    | simp only [↓answer_shape]
    | split
    | intro _
    | (with_reducible show rect _ = rect _) <;> rfl)

theorem execSpdmUnsupportedRequest_shape (ep : SpdmEp) (_code : Nat) (s : State) {nxt : State} (hn : execSpdmUnsupportedRequest ep _code s = .next nxt) : shape nxt = shape s := by
  unfold execSpdmUnsupportedRequest at hn
  refine guarded_shape hn ?_
  repeat' (first
    | with_reducible rfl
    | (with_reducible refine (spdmAny_shape _ _ _ ?_).trans ?_)
    | simp only [↓answer_shape]
    | split
    | intro _
    | (with_reducible show rect _ = rect _) <;> rfl)

end Sys2Proof.Machine
end

