-- ==== Sys2Proof/Laws/FrameGrows.lean ====
section
/-! SUPPORT. What the few operations do that do not leave all of the shape: the queue stays, the time base stays or returns to 0 (VAON, 12), the retirement
fuse and the OTP counters only rise (10 R305), and the partitions there keep their rectangles or vanish. -/

namespace Sys2Proof.Machine

/-- A change of the security processor that leaves the fuse and the counters. -/
theorem sec_shape (s : State) (x : Security) (h1 : x.retired = s.sec.retired) (h2 : x.counters = s.sec.counters) : shape { s with sec := x } = shape s := by
  simp only [shape, h1, h2, getPart]

/-- What every command but PART_CREATE does at most to the queue, the time base, the fuses and the rectangles. -/
structure Grows (s t : State) : Prop where
  pending : t.pending = s.pending
  now : t.now = s.now ∨ t.now = 0
  retired : s.sec.retired = true → t.sec.retired = true
  counters : ∀ k, counterAt s k ≤ counterAt t k
  rects : ∀ n, (getPart t n).map rect = (getPart s n).map rect ∨ getPart t n = none

theorem grows_of_shape {s t : State} (h : shape t = shape s) : Grows s t where
  pending := shape_pending h
  now := .inl (shape_now h)
  retired := fun x => by rw [shape_retired h]; exact x
  counters := fun k => by unfold counterAt; rw [shape_counters h]
  rects := fun n => .inl (shape_rects h n)

theorem grows_trans {s t u : State} (a : Grows s t) (b : Grows t u) : Grows s u where
  pending := b.pending.trans a.pending
  now := by
    rcases b.now with h | h
    · rw [h]; exact a.now
    · exact .inr h
  retired := fun x => b.retired (a.retired x)
  counters := fun k => Nat.le_trans (a.counters k) (b.counters k)
  rects := fun n => by
    rcases b.rects n with h | h
    · rcases a.rects n with h' | h'
      · exact .inl (h.trans h')
      · rw [h', Option.map_none, Option.map_eq_none_iff] at h
        exact .inr h
    · exact .inr h

theorem grows_refl (s : State) : Grows s s := grows_of_shape rfl

/-- After an operation that leaves the shape. -/
theorem grows_then {s t u : State} (a : Grows s t) (h : shape u = shape t) : Grows s u := grows_trans a (grows_of_shape h)

theorem settle_grows (s : State) : Grows s (settle s) := grows_of_shape (settle_shape s)

theorem guarded_grows {ok : Bool} {s t u : State} (h : guarded ok u = .next t) (hu : Grows s u) : Grows s t := by
  rw [guarded_next] at h; rw [h.2]; exact hu

theorem settled_grows {ok : Bool} {s t u : State} (h : settled ok u = .next t) (hu : Grows s u) : Grows s t :=
  guarded_grows h (grows_trans hu (settle_grows u))

theorem takeCmd_grows (e : Entry) (body : Nat → State → Done) (s : State) (h : ∀ n s, Grows s (body n s).1) : Grows s (takeCmd e body s) := by
  unfold takeCmd
  split
  · exact grows_refl s
  · split
    · exact grows_refl s
    · next q _ _ =>
      have hb := grows_trans (grows_of_shape ((setQp_shape { s with visit := queueKey e.fn e.sqid } e.fn e.sqid (some { q with sqHead := nextHead q, busy := q.busy + 1 })).trans
        (shape_congr rfl rfl rfl rfl : shape { s with visit := queueKey e.fn e.sqid } = shape s))) (h (nextHead q) _)
      dsimp only
      split
      · exact grows_then hb (postPlain_shape _ _ _)
      · exact hb

theorem takeLamp_grows (e : Entry) (body : Nat → State → Done) (s : State) (h : ∀ n s, Grows s (body n s).1) : Grows s (takeLamp e body s) := by
  unfold takeLamp
  split
  · exact grows_of_shape (passBy_shape e s)
  · exact takeCmd_grows e body s h

theorem fieldsThen_grows (bad : Option Nat) (k : State → Done) (s : State) (h : ∀ s, Grows s (k s).1) : Grows s (fieldsThen bad k s).1 := by
  unfold fieldsThen
  split
  · exact grows_of_shape (failsField_shape _ _)
  · exact h s

theorem withData_grows (e : Entry) (k : List Byte → State → Done) (s : State) (h : ∀ d s, Grows s (k d s).1) : Grows s (withData e k s).1 := by
  unfold withData
  split
  · exact grows_of_shape (fails_shape _ _)
  · exact h _ s

theorem pfCmd_grows (e : Entry) (k : State → Done) (s : State) (h : ∀ s, Grows s (k s).1) : Grows s (pfCmd e k s).1 := by
  unfold pfCmd
  split
  · exact h s
  · exact grows_of_shape (fails_shape _ _)

/-- Blowing the retirement fuse (10 R314). -/
theorem retire_grows (s : State) : Grows s { s with sec := { s.sec with retired := true } } where
  pending := rfl
  now := .inl rfl
  retired := fun _ => rfl
  counters := fun _ => Nat.le_refl _
  rects := fun _ => .inl rfl

theorem retireIf_grows (c : Bool) (s : State) : Grows s (if c then { s with sec := { s.sec with retired := true } } else s) := by
  split
  · exact retire_grows s
  · exact grows_refl s

theorem answerErase_grows (failed : List (Nat × Nat)) (w : Waiting) (s : State) : Grows s (answerErase failed w s) := by
  unfold answerErase
  split
  · next list retire result _ =>
    dsimp only
    refine grows_then (grows_trans (?_ : Grows s (if list then _ else s)) (retireIf_grows retire _)) (postPlain_shape _ _ _)
    split
    · exact grows_of_shape (writeSegs_shape _ _ _ _)
    · exact grows_refl s
  · exact grows_refl s

theorem eraseThen_grows (e : Entry) (h : Nat) (xs : List (Nat × Nat)) (list retire : Bool) (result : Nat) (s0 s : State) :
    Grows s (eraseThen e h xs list retire result s0 s).1 := by
  unfold eraseThen
  split
  · exact retireIf_grows retire s
  · exact grows_of_shape ((waitFor_shape _ _ _ _).trans ((startErase_shape xs _).trans (holdShown_shape s0 s)))

theorem forEach_grows {α : Type} (xs : List α) (f : α → State → State) (h : ∀ x s, Grows s (f x s)) : ∀ s, Grows s (forEach xs f s) := by
  induction xs with
  | nil => intro s; exact grows_refl s
  | cons x xs ih => intro s; rw [forEach_cons]; exact grows_trans (h x s) (ih _)

theorem erasureDone_grows (failed : List (Nat × Nat)) (s : State) : Grows s (erasureDone failed s) := by
  unfold erasureDone
  extract_lets xs dark live bad s1 s2 s3 ws
  split
  · exact grows_refl s
  · have h1 : shape s1 = shape s := (forEach_shape _ _ _ (fun e s => eraseOne_shape _ e s)).trans (shape_congr rfl rfl rfl rfl)
    have h2 : shape s2 = shape s := (forEach_shape _ _ _ (fun l s => clearRanges_shape l s)).trans h1
    have h3 : shape s3 = shape s := (vprogUse_shape _).trans ((forEach_shape _ _ _ (fun (e : Nat × Nat) s => bankBusy_shape s e.1 (e.2 / 8))).trans h2)
    clear_value s3
    refine grows_then (grows_trans (t := { s3 with waiting := s3.waiting.filter (fun w => !isErase w) }) ?_ (forEach_grows _ _ (answerErase_grows _) _)) (showNow_shape _)
    exact grows_of_shape ((shape_congr rfl rfl rfl rfl).trans h3)

theorem execErasureDone_grows (failed : List (Nat × Nat)) (s : State) {t : State} (h : execErasureDone failed s = .next t) : Grows s t :=
  settled_grows h (erasureDone_grows failed s)

theorem eraseWeights_grows (e : Entry) (h : Nat) (s : State) : Grows s (eraseWeights e h s).1 := by
  unfold eraseWeights
  refine pfCmd_grows _ _ _ (fun s => fieldsThen_grows _ _ _ (fun s => ?_))
  split
  · exact grows_of_shape (fails_shape _ _)
  · exact grows_trans (grows_of_shape (dropSets_shape s)) (eraseThen_grows _ _ _ _ _ _ _ _)

theorem execEraseWeights_grows (e : Entry) (s : State) {t : State} (h : execEraseWeights e s = .next t) : Grows s t :=
  settled_grows h (takeCmd_grows _ _ _ (eraseWeights_grows e))

theorem zeroise_grows (e : Entry) (h : Nat) (s : State) : Grows s (zeroise e h s).1 := by
  unfold zeroise
  refine pfCmd_grows _ _ _ (fun s => fieldsThen_grows _ _ _ (fun s => ?_))
  split
  · exact grows_of_shape (zeroKeys_shape s)
  · refine grows_trans (grows_of_shape ?_) (eraseThen_grows _ _ _ _ _ _ _ _)
    rw [dropSets_shape, forEach_shape _ _ _ (fun n s => toLoaded_shape n s), zeroKeys_shape]

theorem execZeroise_grows (e : Entry) (s : State) {t : State} (h : execZeroise e s = .next t) : Grows s t :=
  settled_grows h (takeCmd_grows _ _ _ (zeroise_grows e))

/-- An OTP counter set to no less than it was (10 R305). -/
theorem counter_grows (s : State) (k v : Nat) (h : counterAt s k ≤ v) : Grows s { s with sec := { s.sec with counters := tset 0 s.sec.counters k v } } where
  pending := rfl
  now := .inl rfl
  retired := fun x => x
  counters := fun j => by
    unfold counterAt at h ⊢
    rw [tget_tset]
    split
    · next hj => rw [hj]; exact h
    · exact Nat.le_refl _
  rects := fun _ => .inl rfl

theorem debugUnlock_grows (e : Entry) (h : Nat) (s : State) : Grows s (debugUnlock e h s).1 := by
  unfold debugUnlock
  refine pfCmd_grows _ _ _ (fun s => fieldsThen_grows _ _ _ (fun s => withData_grows _ _ _ (fun d s => ?_)))
  extract_lets s' whole mask ps xs src1 s1 s2 src2 s3 s4
  split
  · exact grows_of_shape (fails_shape _ _)
  · split
    · exact grows_of_shape (failsData_shape _ _)
    · split
      · exact grows_of_shape (fails_shape _ _)
      · split
        · exact grows_of_shape (failsData_shape _ _)
        · split
          · exact grows_of_shape (fails_shape _ _)
          · have h1 : Grows s s1 := counter_grows s 5 (counterAt s 5 + 1) (Nat.le_succ _)
            have h2 : Grows s s2 := grows_then h1 (forEach_shape _ _ _ (fun n s => debugPart_shape n s))
            have h3 : Grows s s3 := grows_then h2 (sec_shape s2 _ rfl rfl)
            have h4 : Grows s s4 := grows_then h3 (raiseEv_shape _ _ _ _ _ _ _)
            clear_value s4
            split
            · exact h4
            · exact grows_trans h4 (eraseThen_grows _ _ _ _ _ _ _ _)

theorem execDebugUnlock_grows (e : Entry) (s : State) {t : State} (h : execDebugUnlock e s = .next t) : Grows s t :=
  settled_grows h (takeLamp_grows _ _ _ (debugUnlock_grows e))

theorem fwCommit_grows (kind : Nat) (s : State) : Grows s (fwCommit kind s).1 := by
  unfold fwCommit
  extract_lets k b s1 src s2 s3
  split
  · exact grows_of_shape (fails_shape _ _)
  · have h2 : Grows s s2 := grows_trans (grows_of_shape (setKind_shape s kind _)) (counter_grows s1 _ _ (Nat.le_max_left _ _))
    have h3 : Grows s s3 := by
      refine grows_trans h2 ?_
      unfold s3
      split
      · exact grows_of_shape (mapParts_shape _ _ (fun _ _ => rfl))
      · exact grows_refl _
    exact h3

theorem fwUpdate_grows (e : Entry) (h : Nat) (s : State) : Grows s (fwUpdate e h s).1 := by
  unfold fwUpdate
  dsimp only
  refine pfCmd_grows _ _ _ (fun s => fieldsThen_grows _ _ _ (fun s => ?_))
  split
  · exact grows_of_shape (fails_shape _ _)
  · split
    · exact withData_grows _ _ _ (fun d s => grows_of_shape (fwStage_shape _ _ _))
    · split
      · exact grows_of_shape (fwActivate_shape _ _ _ _ _)
      · split
        · exact fwCommit_grows _ _
        · exact grows_of_shape (fwRevert_shape _ _ _ _)

theorem execFwUpdate_grows (e : Entry) (s : State) {t : State} (h : execFwUpdate e s = .next t) : Grows s t :=
  settled_grows h (takeCmd_grows _ _ _ (fwUpdate_grows e))

theorem grows_none {s t : State} (n : Nat) (h : ∀ m, m ≠ n → getPart t m = getPart s m) (h0 : getPart t n = none) (hp : t.pending = s.pending) (hn : t.now = s.now)
    (hs : t.sec = s.sec) : Grows s t where
  pending := hp
  now := .inl hn
  retired := fun x => by rw [hs]; exact x
  counters := fun k => by unfold counterAt; rw [hs]
  rects := fun m => by
    by_cases hm : m = n
    · subst hm; exact .inr h0
    · exact .inl (by rw [h m hm])

/-- The partition taken away (R107). -/
theorem dropPart_grows (s : State) (n : Nat) : Grows s (setPart s n none) :=
  grows_none n (fun m hm => by rw [getPart_setPart, if_neg hm]) (by rw [getPart_setPart, if_pos rfl]) rfl rfl rfl

theorem removePart_grows (n : Nat) (p : Partition) (s : State) : Grows s (removePart n p s) := by
  unfold removePart
  extract_lets s1 s2 s3 s4 s5 ls s6 s7
  have h2 : shape s2 = shape s := (resolveWaits_shape _ _ _).trans (dropJobs_shape _ _)
  have h3 : shape s3 = shape s := (forEach_shape _ _ _ (fun (c : Context) s => eraseCtx_shape s c.handle)).trans h2
  have h4 : shape s4 = shape s := (forEach_shape _ _ _ (fun z s => updZ_shape s z _)).trans h3
  have h5 : shape s5 = shape s := (forEach_shape _ _ _ (fun z s => updT_shape s z _)).trans h4
  have h6 : shape s6 = shape s := by
    refine (forEach_shape _ _ _ (fun l s => forEach_shape _ _ _ (fun q s => ?_))).trans h5
    split
    · exact updRP_shape _ _ _ _
    · rfl
  have h7 : Grows s s7 := grows_then (grows_trans (grows_of_shape ((zeroCounters_shape p s6).trans h6)) (dropPart_grows _ n)) (writeMasks_shape n _)
  clear_value s7
  exact grows_then h7 ((recheckRoutes_shape _).trans (forEach_shape _ _ _ (fun l s => switchOff_shape s l)))

theorem partDelete_grows (e : Entry) (h : Nat) (s : State) : Grows s (partDelete e h s).1 := by
  unfold partDelete partCmd
  split
  · exact grows_of_shape (fails_shape _ _)
  · split
    · exact grows_of_shape (failsField_shape _ _)
    · split
      · exact grows_of_shape (fails_shape _ _)
      · split
        · exact fieldsThen_grows _ _ _ (fun s => grows_trans (removePart_grows _ _ s) (eraseThen_grows _ _ _ _ _ _ _ _))
        · exact grows_of_shape (fails_shape _ _)

theorem execPartDelete_grows (e : Entry) (s : State) {t : State} (h : execPartDelete e s = .next t) : Grows s t :=
  settled_grows h (takeLamp_grows _ _ _ (partDelete_grows e))

theorem powerOff_grows (s : State) : Grows s (powerOff s) where
  pending := rfl
  now := .inl rfl
  retired := fun x => x
  counters := fun _ => Nat.le_refl _
  rects := fun _ => .inr rfl

theorem hardTripNow_grows (c : Nat) (s : State) : Grows s (hardTripNow c s) := by
  unfold hardTripNow
  split
  · exact grows_refl s
  · exact grows_then (powerOff_grows s) (shape_congr rfl rfl rfl rfl)

theorem execHardTrip_grows (c : Nat) (s : State) {t : State} (h : execHardTrip c s = .next t) : Grows s t := guarded_grows h (hardTripNow_grows c s)

theorem railFaultNow_grows (rail cause group mv : Nat) (s : State) : Grows s (railFaultNow rail cause group mv s) := by
  unfold railFaultNow
  split
  · exact grows_refl s
  · exact grows_then (powerOff_grows s) (shape_congr rfl rfl rfl rfl)

theorem execRailFault_grows (rail cause group mv : Nat) (s : State) {t : State} (h : execRailFault rail cause group mv s = .next t) : Grows s t :=
  guarded_grows h (railFaultNow_grows rail cause group mv s)

theorem powerDownDone_grows (s : State) : Grows s (powerDownDone s) := by
  unfold powerDownDone
  split
  · exact grows_refl s
  · exact grows_then (grows_trans (grows_of_shape (driftSave_shape s)) (powerOff_grows _)) (shape_congr rfl rfl rfl rfl)

theorem execPowerDownSaveDone_grows (s : State) {t : State} (h : execPowerDownSaveDone s = .next t) : Grows s t := guarded_grows h (powerDownDone_grows s)

theorem phaseFailure_grows (g : Nat) (s : State) : Grows s (phaseFailure g s) := by
  unfold phaseFailure
  split
  · exact grows_refl s
  · split
    · exact railFaultNow_grows _ _ _ _ s
    · exact grows_of_shape ((raiseM_shape _ _ _ _).trans (shape_congr rfl rfl rfl rfl))

theorem execPhaseFailure_grows (g : Nat) (s : State) {t : State} (h : execPhaseFailure g s = .next t) : Grows s t := guarded_grows h (phaseFailure_grows g s)

theorem vaonGood_grows (s : State) : Grows s (vaonGood s) := by
  unfold vaonGood
  split
  · exact grows_refl s
  · exact { pending := rfl, now := .inr rfl, retired := fun x => x, counters := fun _ => Nat.le_refl _, rects := fun _ => .inl rfl }

theorem execVaonGood_grows (s : State) {t : State} (h : execVaonGood s = .next t) : Grows s t := guarded_grows h (vaonGood_grows s)

end Sys2Proof.Machine
end

