-- ==== Sys2Proof/Laws/Issue.lean ====
section
/-! SUPPORT. Counting and issuing: what countL leaves, and what a lantern that takes an instruction becomes, by the outcome of the attempt. -/

namespace Sys2Proof.Machine

/-! ## Counting -/

theorem bumpAll_parts (s : State) (f src n : Nat) : others (countPart s f src n) = others s ∧ (∀ m, getL (countPart s f src n) m = getL s m)
    ∧ (∀ k, (getPart (countPart s f src n) k).map uncounted = (getPart s k).map uncounted) := by
  unfold countPart
  split
  · next pn _ =>
    refine ⟨?_, fun m => ?_, fun k => ?_⟩
    · unfold updPart; split <;> rfl
    · unfold updPart; split <;> rfl
    · unfold updPart
      split
      · next x hx =>
        rw [getPart_setPart]
        split
        · next h => subst h; rw [hx]; rfl
        · rfl
      · rfl
  · exact ⟨rfl, fun _ => rfl, fun _ => rfl⟩

theorem others_countL (s : State) (l src n : Nat) : others (countL s l src n) = others s := by
  unfold countL
  split
  · rfl
  · exact (bumpAll_parts _ _ _ _).1

theorem parts_countL (s : State) (l src n k : Nat) : (getPart (countL s l src n) k).map uncounted = (getPart s k).map uncounted := by
  unfold countL
  split
  · rfl
  · exact (bumpAll_parts _ _ _ _).2.2 k

/-- Counting changes a lantern's counters at most. -/
theorem getL_countL (s : State) (l src n m : Nat) : ∃ c, getL (countL s l src n) m = { getL s m with counters := c } := by
  unfold countL
  split
  · exact ⟨_, rfl⟩
  · rw [(bumpAll_parts _ _ _ _).2.1 m]
    by_cases h : m = l
    · subst h; exact ⟨_, getL_updL_same _ _ _⟩
    · exact ⟨_, getL_updL_other _ _ h⟩

theorem getL_countL_other (s : State) {l m : Nat} (src n : Nat) (h : m ≠ l) : getL (countL s l src n) m = getL s m := by
  unfold countL
  split
  · rfl
  · rw [(bumpAll_parts _ _ _ _).2.1 m, getL_updL_other _ _ h]

theorem pc_countL (s : State) (l src n m : Nat) : (getL (countL s l src n) m).pc = (getL s m).pc := by
  obtain ⟨c, h⟩ := getL_countL s l src n m; rw [h]

theorem engines_countL (s : State) (l src n m : Nat) : (getL (countL s l src n) m).engines = (getL s m).engines := by
  obtain ⟨c, h⟩ := getL_countL s l src n m; rw [h]

/-! ## Two updates of one lantern -/

theorem updL_updL (s : State) (l : Nat) (f g : Lantern → Lantern) (h : f (getL s l) ≠ {}) : updL (updL s l f) l g = updL s l (fun L => g (f L)) := by
  unfold updL
  rw [getL_setL_same]
  unfold setL
  simp only [tset_tset _ _ _ _ h]

theorem updL_congr (s : State) (l : Nat) {f g : Lantern → Lantern} (h : f (getL s l) = g (getL s l)) : updL s l f = updL s l g := by
  unfold updL; rw [h]

/-- A lantern that may issue is not as at reset. -/
theorem canIssue_on {L : Lantern} (h : canIssue L = true) : L.on = true := by
  unfold canIssue at h; simp only [Bool.and_eq_true] at h; exact h.1.1.1.1

theorem ne_reset {L : Lantern} (h : L.on = true) : L ≠ {} := by
  intro e; rw [e] at h; exact absurd h (by decide)

@[simp] theorem getL_passed (l : Nat) (s : State) : getL (passed l s) l = { getL s l with pc := (getL s l).pc + 1, issued := (getL s l).issued + 1 } :=
  getL_updL_same _ _ _

theorem getL_passed_other {l m : Nat} (s : State) (h : m ≠ l) : getL (passed l s) m = getL s m := getL_updL_other _ _ h

/-! ## Issue -/

/-- No register is pending, so an instruction's registers are read. -/
theorem withRegs_free {l : Nat} {s : State} (rs : List (Fin 32)) (t : State → Try) (h : (getL s l).pending = []) : withRegs l rs t s = t s := by
  unfold withRegs
  rw [h]
  simp

theorem issue_takes {l : Nat} {i : Instr} {s : State} (t : State → Try) (h : Takes l i s) : issue l i t s =
    (match t (passed l s) with
      | .done s' => passEnd (countL s' l 0x02 1) l i
      | .hold c s' => updL s' l (fun L => { L with pc := (getL s l).pc, issued := (getL s l).issued, held := some (i, c, nowNs s) })
      | .trap c d s' => trapAt (updL s' l (fun L => { L with pc := (getL s l).pc, issued := (getL s l).issued })) l c d (getL s l).pc (encodeWord i)) := by
  unfold issue attempt
  rw [h.may, h.word]
  dsimp only [Bool.and_self]
  rw [if_pos (show (true && true) = true from rfl), if_neg (by rw [h.sound]; decide)]
  rfl

/-- The attempt completes short of the end of the store. -/
theorem issue_done {l : Nat} {i : Instr} {s s' : State} {t : State → Try} (h : Takes l i s) (hd : t (passed l s) = .done s') (hp : (getL s' l).pc ≠ 8192) :
    issue l i t s = retired l s' := by
  rw [issue_takes t h, hd]
  simp only [passEnd, pc_countL, hp, if_false, retired]

/-- The sequencer holds. -/
theorem issue_hold {l c : Nat} {i : Instr} {s : State} {t : State → Try} (h : Takes l i s) (hd : t (passed l s) = .hold c (passed l s)) :
    issue l i t s = updL s l (fun L => { L with held := some (i, c, nowNs s) }) := by
  rw [issue_takes t h, hd]
  simp only
  unfold passed
  rw [updL_updL _ _ _ _ (ne_reset (L := { getL s l with pc := (getL s l).pc + 1, issued := (getL s l).issued + 1 }) (canIssue_on h.may))]
  exact updL_congr _ _ rfl

/-- A trap at issue. -/
theorem issue_trap {l c d : Nat} {i : Instr} {s : State} {t : State → Try} (h : Takes l i s) (hd : t (passed l s) = .trap c d (passed l s))
    (hp : (partOf s l).isSome = true) : issue l i t s = trapAt s l c d (getL s l).pc (encodeWord i) := by
  rw [issue_takes t h, hd]
  simp only
  have hon := canIssue_on h.may
  obtain ⟨pn, hpn⟩ := Option.isSome_iff_exists.1 hp
  have hn : ({ getL s l with pc := (getL s l).pc + 1, issued := (getL s l).issued + 1 } : Lantern) ≠ {} :=
    ne_reset (L := { getL s l with pc := (getL s l).pc + 1, issued := (getL s l).issued + 1 }) hon
  have e : updL (passed l s) l (fun L => { L with pc := (getL s l).pc, issued := (getL s l).issued }) = updL s l (fun L => L) := by
    unfold passed
    rw [updL_updL _ _ _ _ hn]
    exact updL_congr _ _ rfl
  rw [e]
  unfold trapAt
  have e1 : partOf (updL s l fun L => L) l = partOf s l := rfl
  have e2 : getL (updL s l fun L => L) l = getL s l := getL_updL_same _ _ _
  rw [e1, hpn]
  dsimp only
  rw [updL_updL _ _ _ _ (ne_reset hon), e2]
  rfl

end Sys2Proof.Machine
end

