-- ==== Sys2Proof/Laws/Memory.lean ====
section
/-! SUPPORT. The memories of the module keep their canonical form through every operation that writes them. -/

namespace Sys2Proof.Machine

theorem tget_all {α : Type} {p : α → Bool} {d : α} (hd : p d = true) : ∀ {m : SMap α}, m.all (fun e => p e.2) = true → ∀ k, p (tget d m k) = true
  | [], _, _ => hd
  | (j, v) :: r, h, k => by
    simp only [List.all_cons, Bool.and_eq_true] at h
    unfold tget
    split
    · exact h.1
    · exact tget_all hd h.2 k

/-- An update of a lantern that keeps the lantern's memories keeps the module's. -/
theorem memory_wf_updL {s : State} {l : Nat} {f : Lantern → Lantern} (h : Memory.wf s = true)
    (hf : ∀ L, lanternMem L = true → lanternMem (f L) = true) : Memory.wf (updL s l f) = true := by
  simp only [Memory.wf, Bool.and_eq_true] at h ⊢
  obtain ⟨⟨h1, h2⟩, h3⟩ := h
  have hl : lanternMem (f (getL s l)) = true := hf _ (tget_all (p := lanternMem) rfl h2 l)
  refine ⟨⟨twf_tset _ _ _ _ h1, ?_⟩, h3⟩
  simp only [updL, setL, tset]
  split
  · exact all_tdel _ _ _ h2
  · exact all_tins _ _ _ _ hl h2

theorem lanternMem_pad {L : Lantern} (a : Nat) (x : PadLine) (h : lanternMem L = true) : lanternMem { L with pad := tset {} L.pad a x } = true := by
  simp only [lanternMem, Bool.and_eq_true] at h ⊢
  exact ⟨⟨h.1.1, twf_tset _ _ _ _ h.1.2⟩, h.2⟩
theorem lanternMem_kv {L : Lantern} (a : Nat) (x : KvLine) (h : lanternMem L = true) : lanternMem { L with kv := tset {} L.kv a x } = true := by
  simp only [lanternMem, Bool.and_eq_true] at h ⊢
  exact ⟨h.1, twf_tset _ _ _ _ h.2⟩
theorem lanternMem_store {L : Lantern} (a : Nat) (x : ProgWord) (h : lanternMem L = true) : lanternMem { L with store := tset {} L.store a x } = true := by
  simp only [lanternMem, Bool.and_eq_true] at h ⊢
  exact ⟨⟨twf_tset _ _ _ _ h.1.1, h.1.2⟩, h.2⟩

theorem memory_wf_writePad {s : State} (l a : Nat) (x : Line) (p : Bool) (sh : BitVec 4) (h : Memory.wf s = true) : Memory.wf (writePad s l a x p sh) = true :=
  memory_wf_updL h fun _ => lanternMem_pad _ _
theorem memory_wf_writeKv {s : State} (l a : Nat) (x : Line) (p : Bool) (h : Memory.wf s = true) : Memory.wf (writeKv s l a x p) = true :=
  memory_wf_updL h fun _ => lanternMem_kv _ _
theorem memory_wf_clearLines (l : Nat) : ∀ (n a : Nat) {s : State}, Memory.wf s = true → Memory.wf (clearLines l a n s) = true
  | 0, _, _, h => h
  | n + 1, a, _, h => memory_wf_clearLines l n (a + 1) (memory_wf_updL h fun _ => lanternMem_pad _ _)
theorem memory_wf_cistern {s : State} (a : Nat) (v : CisLine) (h : Memory.wf s = true) : Memory.wf { s with cistern := tset {} s.cistern a v } = true := by
  simp only [Memory.wf, Bool.and_eq_true] at h ⊢
  exact ⟨h.1, twf_tset _ _ _ _ h.2⟩

theorem reset_memory_wf : Memory.wf State.reset = true := by decide +kernel

end Sys2Proof.Machine
end

