-- ==== Sys2Proof/Laws/PerInstr.lean ====
section
/-! SUPPORT. A law of the commands as syntax, one lemma per constructor: the opcode that stands in the word of each. -/

namespace Sys2Proof.Machine

/-- Bits above the last part of a joined word. -/
theorem append_shiftRight {n m : Nat} (b : BitVec n) (x : BitVec m) (k : Nat) : (b ++ x).toNat >>> (m + k) = b.toNat >>> k := by
  rw [BitVec.toNat_append, Nat.shiftRight_or_distrib, Nat.shiftRight_add, Nat.shiftLeft_shiftRight, Nat.shiftRight_add x.toNat,
    Nat.shiftRight_eq_div_pow x.toNat, Nat.div_eq_of_lt x.isLt]
  simp

theorem opcode_of {op : Nat} {w : Word} (h : op < 256) (hw : w.toNat >>> 56 = (BitVec.ofNat 8 op).toNat >>> 0) :
    (w.extractLsb' 56 8).toNat = op := by
  rw [BitVec.extractLsb'_toNat, hw]
  simp
  omega

theorem packS_opcode {op : Nat} (f : FmtS) (h : op < 256) : ((packS op f).extractLsb' 56 8).toNat = op := by
  refine opcode_of h ?_
  unfold packS
  rw [append_shiftRight _ _ 24, append_shiftRight _ _ 15, append_shiftRight _ _ 10, append_shiftRight _ _ 5, append_shiftRight _ _ 0]
theorem packJ_opcode {op : Nat} (f : FmtJ) (h : op < 256) : ((packJ op f).extractLsb' 56 8).toNat = op := by
  refine opcode_of h ?_
  unfold packJ
  rw [append_shiftRight _ _ 43, append_shiftRight _ _ 15, append_shiftRight _ _ 10, append_shiftRight _ _ 5, append_shiftRight _ _ 0]
theorem packC_opcode {op : Nat} (f : FmtC) (h : op < 256) : ((packC op f).extractLsb' 56 8).toNat = op := by
  refine opcode_of h ?_
  unfold packC
  rw [append_shiftRight _ _ 36, append_shiftRight _ _ 0]
theorem packA_opcode {op : Nat} (f : FmtA) (h : op < 256) : ((packA op f).extractLsb' 56 8).toNat = op := by
  refine opcode_of h ?_
  unfold packA
  rw [append_shiftRight _ _ 53, append_shiftRight _ _ 45, append_shiftRight _ _ 40, append_shiftRight _ _ 39, append_shiftRight _ _ 30, append_shiftRight _ _ 26, append_shiftRight _ _ 24, append_shiftRight _ _ 8, append_shiftRight _ _ 0]
theorem packK_opcode {op : Nat} (f : FmtK) (h : op < 256) : ((packK op f).extractLsb' 56 8).toNat = op := by
  refine opcode_of h ?_
  unfold packK
  rw [append_shiftRight _ _ 44, append_shiftRight _ _ 43, append_shiftRight _ _ 39, append_shiftRight _ _ 34, append_shiftRight _ _ 18, append_shiftRight _ _ 9, append_shiftRight _ _ 0]
theorem packL_opcode {op : Nat} (f : FmtL) (h : op < 256) : ((packL op f).extractLsb' 56 8).toNat = op := by
  refine opcode_of h ?_
  unfold packL
  rw [append_shiftRight _ _ 53, append_shiftRight _ _ 48, append_shiftRight _ _ 32, append_shiftRight _ _ 16, append_shiftRight _ _ 0]
theorem packQ_opcode {op : Nat} (f : FmtQ) (h : op < 256) : ((packQ op f).extractLsb' 56 8).toNat = op := by
  refine opcode_of h ?_
  unfold packQ
  rw [append_shiftRight _ _ 33, append_shiftRight _ _ 32, append_shiftRight _ _ 26, append_shiftRight _ _ 25, append_shiftRight _ _ 20, append_shiftRight _ _ 4, append_shiftRight _ _ 0]
theorem no_opcode : ((0 : Word).extractLsb' 56 8).toNat = 0 := by decide

/-- Opcodes of 06 Table 6-2; 0 for a command that is no lantern instruction. -/
def opcodeOf : Instr → Nat
  | .nop _ _ => 0x00
  | .add _ _ => 0x01
  | .sub _ _ => 0x02
  | .and _ _ => 0x03
  | .or _ _ => 0x04
  | .xor _ _ => 0x05
  | .shl _ _ => 0x06
  | .shr _ _ => 0x07
  | .sar _ _ => 0x08
  | .mul _ _ => 0x09
  | .slt _ _ => 0x0A
  | .sltu _ _ => 0x0B
  | .addi _ _ => 0x10
  | .lih _ _ => 0x11
  | .sld _ _ => 0x12
  | .sst _ _ => 0x13
  | .rds _ _ => 0x14
  | .beq _ _ => 0x18
  | .bne _ _ => 0x19
  | .blt _ _ => 0x1A
  | .bge _ _ => 0x1B
  | .jmp _ _ => 0x1C
  | .jr _ _ => 0x1D
  | .step _ _ => 0x20
  | .fence _ _ => 0x21
  | .trapi _ _ => 0x22
  | .aop _ _ => 0x40
  | .aclr _ _ => 0x48
  | .ard _ _ => 0x49
  | .aexp _ _ => 0x4A
  | .aimp _ _ => 0x4B
  | .widot _ _ => 0x50
  | .wfdot _ _ => 0x51
  | .wvb _ _ => 0x52
  | .wvu _ _ => 0x53
  | .wred _ _ => 0x54
  | .wsmx _ _ => 0x55
  | .wqnt _ _ => 0x56
  | .wgth _ _ => 0x57
  | .wtopk _ _ => 0x58
  | .wsmp _ _ => 0x59
  | .qld _ _ => 0x60
  | .ascr _ _ => 0x61
  | .aval _ _ => 0x62
  | .kapp _ _ => 0x68
  | .kmark _ _ => 0x69
  | .krew _ _ => 0x6A
  | .krel _ _ => 0x6B
  | .kwalk _ _ => 0x6C
  | .kxfr _ _ => 0x6D
  | .copy _ _ => 0x70
  | .trd _ _ => 0x71
  | .send _ _ => 0x72
  | .clr _ _ => 0x73
  | .recv _ _ => 0x78
  | .qpeek _ _ => 0x79
  | .qpop _ _ => 0x7A
  | .qmark _ _ => 0x7B
  | .qrewind _ _ => 0x7C
  | .qrel _ _ => 0x7D
  | .qstat _ _ => 0x7E
  | _ => 0

end Sys2Proof.Machine

namespace Sys2Proof.Laws.WordOpcode

open Sys2Proof.Machine

/-- The word of a command carries its opcode in its top byte. -/
def Statement (i : Instr) : Prop := ((encodeWord i).extractLsb' 56 8).toNat = opcodeOf i

theorem identify (e : Entry) : Statement (.identify e) := no_opcode
theorem qpCreate (e : Entry) : Statement (.qpCreate e) := no_opcode
theorem qpDelete (e : Entry) : Statement (.qpDelete e) := no_opcode
theorem ringForm (e : Entry) : Statement (.ringForm e) := no_opcode
theorem ringMode (e : Entry) : Statement (.ringMode e) := no_opcode
theorem partCreate (e : Entry) : Statement (.partCreate e) := no_opcode
theorem partDelete (e : Entry) : Statement (.partDelete e) := no_opcode
theorem partSet (e : Entry) : Statement (.partSet e) := no_opcode
theorem programLoad (e : Entry) : Statement (.programLoad e) := no_opcode
theorem partStart (e : Entry) : Statement (.partStart e) := no_opcode
theorem partDrain (e : Entry) : Statement (.partDrain e) := no_opcode
theorem partQuery (e : Entry) : Statement (.partQuery e) := no_opcode
theorem submit (e : Entry) : Statement (.submit e) := no_opcode
theorem cancel (e : Entry) : Statement (.cancel e) := no_opcode
theorem reqQuery (e : Entry) : Statement (.reqQuery e) := no_opcode
theorem adapterLoad (e : Entry) : Statement (.adapterLoad e) := no_opcode
theorem adapterRelease (e : Entry) : Statement (.adapterRelease e) := no_opcode
theorem pause (e : Entry) : Statement (.pause e) := no_opcode
theorem exportCtx (e : Entry) : Statement (.exportCtx e) := no_opcode
theorem importCtx (e : Entry) : Statement (.importCtx e) := no_opcode
theorem discard (e : Entry) : Statement (.discard e) := no_opcode
theorem setTtl (e : Entry) : Statement (.setTtl e) := no_opcode
theorem weightOpen (e : Entry) : Statement (.weightOpen e) := no_opcode
theorem weightChunk (e : Entry) : Statement (.weightChunk e) := no_opcode
theorem weightClose (e : Entry) : Statement (.weightClose e) := no_opcode
theorem weightStatus (e : Entry) : Statement (.weightStatus e) := no_opcode
theorem eraseWeights (e : Entry) : Statement (.eraseWeights e) := no_opcode
theorem zeroise (e : Entry) : Statement (.zeroise e) := no_opcode
theorem debugUnlock (e : Entry) : Statement (.debugUnlock e) := no_opcode
theorem debugLock (e : Entry) : Statement (.debugLock e) := no_opcode
theorem telemetryRead (e : Entry) : Statement (.telemetryRead e) := no_opcode
theorem monitorSet (e : Entry) : Statement (.monitorSet e) := no_opcode
theorem eventRingSet (e : Entry) : Statement (.eventRingSet e) := no_opcode
theorem counterSelect (e : Entry) : Statement (.counterSelect e) := no_opcode
theorem setSpares (e : Entry) : Statement (.setSpares e) := no_opcode
theorem driftComp (e : Entry) : Statement (.driftComp e) := no_opcode
theorem refreshSet (e : Entry) : Statement (.refreshSet e) := no_opcode
theorem refreshWindow (e : Entry) : Statement (.refreshWindow e) := no_opcode
theorem recalibrate (e : Entry) : Statement (.recalibrate e) := no_opcode
theorem fwUpdate (e : Entry) : Statement (.fwUpdate e) := no_opcode
theorem microcodeUpdate (e : Entry) : Statement (.microcodeUpdate e) := no_opcode
theorem unassignedOpcode (e : Entry) (opcode : Byte) : Statement (.unassignedOpcode e opcode) := no_opcode
theorem sqTail (fn : Fn) (q : Nat) (v : BitVec 32) : Statement (.sqTail fn q v) := no_opcode
theorem cqHead (fn : Fn) (q : Nat) (v : BitVec 32) : Statement (.cqHead fn q v) := no_opcode
theorem runnelCons (fn : Fn) (r : Nat) (v : BitVec 32) : Statement (.runnelCons fn r v) := no_opcode
theorem mbCtrlEnable (fn : Fn) (v : BitVec 32) : Statement (.mbCtrlEnable fn v) := no_opcode
theorem mbCtrlDisable (fn : Fn) (v : BitVec 32) : Statement (.mbCtrlDisable fn v) := no_opcode
theorem evCons (fn : Fn) (v : BitVec 32) : Statement (.evCons fn v) := no_opcode
theorem alertStatusClear (fn : Fn) (v : BitVec 32) : Statement (.alertStatusClear fn v) := no_opcode
theorem traceCtrlWrite (fn : Fn) (v : BitVec 32) : Statement (.traceCtrlWrite fn v) := no_opcode
theorem pertHsdelayWrite (fn : Fn) (part i : Nat) (v : BitVec 32) : Statement (.pertHsdelayWrite fn part i v) := no_opcode
theorem pertCreditWrite (fn : Fn) (part : Nat) (v : BitVec 32) : Statement (.pertCreditWrite fn part v) := no_opcode
theorem pertStretchWrite (fn : Fn) (part : Nat) (v : BitVec 32) : Statement (.pertStretchWrite fn part v) := no_opcode
theorem pertAdcWrite (fn : Fn) (part : Nat) (v : BitVec 32) : Statement (.pertAdcWrite fn part v) := no_opcode
theorem pertRetrain (fn : Fn) (part : Nat) (v : BitVec 32) : Statement (.pertRetrain fn part v) := no_opcode
theorem fiParity (fn : Fn) (part : Nat) (v : BitVec 32) : Statement (.fiParity fn part v) := no_opcode
theorem fiPoison (fn : Fn) (part : Nat) (v : BitVec 32) : Statement (.fiPoison fn part v) := no_opcode
theorem registerWrite (fn : Fn) (bar2 : Bool) (offset : Nat) (v : BitVec 64) (eight : Bool) : Statement (.registerWrite fn bar2 offset v eight) := no_opcode
theorem nop (l : Nat) (f : FmtC) : Statement (.nop l f) := packC_opcode _ (by decide)
theorem add (l : Nat) (f : FmtS) : Statement (.add l f) := packS_opcode _ (by decide)
theorem sub (l : Nat) (f : FmtS) : Statement (.sub l f) := packS_opcode _ (by decide)
theorem and (l : Nat) (f : FmtS) : Statement (.and l f) := packS_opcode _ (by decide)
theorem or (l : Nat) (f : FmtS) : Statement (.or l f) := packS_opcode _ (by decide)
theorem xor (l : Nat) (f : FmtS) : Statement (.xor l f) := packS_opcode _ (by decide)
theorem shl (l : Nat) (f : FmtS) : Statement (.shl l f) := packS_opcode _ (by decide)
theorem shr (l : Nat) (f : FmtS) : Statement (.shr l f) := packS_opcode _ (by decide)
theorem sar (l : Nat) (f : FmtS) : Statement (.sar l f) := packS_opcode _ (by decide)
theorem mul (l : Nat) (f : FmtS) : Statement (.mul l f) := packS_opcode _ (by decide)
theorem slt (l : Nat) (f : FmtS) : Statement (.slt l f) := packS_opcode _ (by decide)
theorem sltu (l : Nat) (f : FmtS) : Statement (.sltu l f) := packS_opcode _ (by decide)
theorem addi (l : Nat) (f : FmtS) : Statement (.addi l f) := packS_opcode _ (by decide)
theorem lih (l : Nat) (f : FmtS) : Statement (.lih l f) := packS_opcode _ (by decide)
theorem sld (l : Nat) (f : FmtS) : Statement (.sld l f) := packS_opcode _ (by decide)
theorem sst (l : Nat) (f : FmtS) : Statement (.sst l f) := packS_opcode _ (by decide)
theorem rds (l : Nat) (f : FmtS) : Statement (.rds l f) := packS_opcode _ (by decide)
theorem beq (l : Nat) (f : FmtJ) : Statement (.beq l f) := packJ_opcode _ (by decide)
theorem bne (l : Nat) (f : FmtJ) : Statement (.bne l f) := packJ_opcode _ (by decide)
theorem blt (l : Nat) (f : FmtJ) : Statement (.blt l f) := packJ_opcode _ (by decide)
theorem bge (l : Nat) (f : FmtJ) : Statement (.bge l f) := packJ_opcode _ (by decide)
theorem jmp (l : Nat) (f : FmtJ) : Statement (.jmp l f) := packJ_opcode _ (by decide)
theorem jr (l : Nat) (f : FmtJ) : Statement (.jr l f) := packJ_opcode _ (by decide)
theorem step (l : Nat) (f : FmtC) : Statement (.step l f) := packC_opcode _ (by decide)
theorem fence (l : Nat) (f : FmtC) : Statement (.fence l f) := packC_opcode _ (by decide)
theorem trapi (l : Nat) (f : FmtC) : Statement (.trapi l f) := packC_opcode _ (by decide)
theorem aop (l : Nat) (f : FmtA) : Statement (.aop l f) := packA_opcode _ (by decide)
theorem aclr (l : Nat) (f : FmtK) : Statement (.aclr l f) := packK_opcode _ (by decide)
theorem ard (l : Nat) (f : FmtK) : Statement (.ard l f) := packK_opcode _ (by decide)
theorem aexp (l : Nat) (f : FmtK) : Statement (.aexp l f) := packK_opcode _ (by decide)
theorem aimp (l : Nat) (f : FmtK) : Statement (.aimp l f) := packK_opcode _ (by decide)
theorem widot (l : Nat) (f : FmtL) : Statement (.widot l f) := packL_opcode _ (by decide)
theorem wfdot (l : Nat) (f : FmtL) : Statement (.wfdot l f) := packL_opcode _ (by decide)
theorem wvb (l : Nat) (f : FmtL) : Statement (.wvb l f) := packL_opcode _ (by decide)
theorem wvu (l : Nat) (f : FmtL) : Statement (.wvu l f) := packL_opcode _ (by decide)
theorem wred (l : Nat) (f : FmtL) : Statement (.wred l f) := packL_opcode _ (by decide)
theorem wsmx (l : Nat) (f : FmtL) : Statement (.wsmx l f) := packL_opcode _ (by decide)
theorem wqnt (l : Nat) (f : FmtL) : Statement (.wqnt l f) := packL_opcode _ (by decide)
theorem wgth (l : Nat) (f : FmtL) : Statement (.wgth l f) := packL_opcode _ (by decide)
theorem wtopk (l : Nat) (f : FmtL) : Statement (.wtopk l f) := packL_opcode _ (by decide)
theorem wsmp (l : Nat) (f : FmtL) : Statement (.wsmp l f) := packL_opcode _ (by decide)
theorem qld (l : Nat) (f : FmtL) : Statement (.qld l f) := packL_opcode _ (by decide)
theorem ascr (l : Nat) (f : FmtL) : Statement (.ascr l f) := packL_opcode _ (by decide)
theorem aval (l : Nat) (f : FmtL) : Statement (.aval l f) := packL_opcode _ (by decide)
theorem kapp (l : Nat) (f : FmtL) : Statement (.kapp l f) := packL_opcode _ (by decide)
theorem kmark (l : Nat) (f : FmtL) : Statement (.kmark l f) := packL_opcode _ (by decide)
theorem krew (l : Nat) (f : FmtL) : Statement (.krew l f) := packL_opcode _ (by decide)
theorem krel (l : Nat) (f : FmtL) : Statement (.krel l f) := packL_opcode _ (by decide)
theorem kwalk (l : Nat) (f : FmtL) : Statement (.kwalk l f) := packL_opcode _ (by decide)
theorem kxfr (l : Nat) (f : FmtL) : Statement (.kxfr l f) := packL_opcode _ (by decide)
theorem copy (l : Nat) (f : FmtL) : Statement (.copy l f) := packL_opcode _ (by decide)
theorem trd (l : Nat) (f : FmtL) : Statement (.trd l f) := packL_opcode _ (by decide)
theorem send (l : Nat) (f : FmtL) : Statement (.send l f) := packL_opcode _ (by decide)
theorem clr (l : Nat) (f : FmtL) : Statement (.clr l f) := packL_opcode _ (by decide)
theorem recv (l : Nat) (f : FmtQ) : Statement (.recv l f) := packQ_opcode _ (by decide)
theorem qpeek (l : Nat) (f : FmtQ) : Statement (.qpeek l f) := packQ_opcode _ (by decide)
theorem qpop (l : Nat) (f : FmtQ) : Statement (.qpop l f) := packQ_opcode _ (by decide)
theorem qmark (l : Nat) (f : FmtQ) : Statement (.qmark l f) := packQ_opcode _ (by decide)
theorem qrewind (l : Nat) (f : FmtQ) : Statement (.qrewind l f) := packQ_opcode _ (by decide)
theorem qrel (l : Nat) (f : FmtQ) : Statement (.qrel l f) := packQ_opcode _ (by decide)
theorem qstat (l : Nat) (f : FmtQ) : Statement (.qstat l f) := packQ_opcode _ (by decide)
theorem storeError (l : Nat) : Statement (.storeError l) := no_opcode
theorem waitEnd (l eng : Nat) : Statement (.waitEnd l eng) := no_opcode
theorem arrayOpStart (l bank : Nat) : Statement (.arrayOpStart l bank) := no_opcode
theorem phaseComplete (l bank : Nat) : Statement (.phaseComplete l bank) := no_opcode
theorem arrayOpComplete (l bank : Nat) : Statement (.arrayOpComplete l bank) := no_opcode
theorem outlierResidual (l bank : Nat) : Statement (.outlierResidual l bank) := no_opcode
theorem bankRestoreDone (l bank : Nat) : Statement (.bankRestoreDone l bank) := no_opcode
theorem referenceOperation (l arr : Nat) : Statement (.referenceOperation l arr) := no_opcode
theorem driftStaleTimeout (l arr : Nat) : Statement (.driftStaleTimeout l arr) := no_opcode
theorem temperatureUpdate (field : Nat) : Statement (.temperatureUpdate field) := no_opcode
theorem flitHop (router inPort : Nat) (cls : Fin 4) (vcb : Bool) : Statement (.flitHop router inPort cls vcb) := no_opcode
theorem weirRelease (src part : Nat) : Statement (.weirRelease src part) := no_opcode
theorem linkCrcMismatch (router port link : Nat) (flit : Nat) : Statement (.linkCrcMismatch router port link flit) := no_opcode
theorem laneTestDone (router port link : Nat) (r : LaneResult) : Statement (.laneTestDone router port link r) := no_opcode
theorem orderRun (router port : Nat) : Statement (.orderRun router port) := no_opcode
theorem orderEndstep (router port : Nat) : Statement (.orderEndstep router port) := no_opcode
theorem qlineArrival (l : Nat) : Statement (.qlineArrival l) := no_opcode
theorem accxArrival (l : Nat) : Statement (.accxArrival l) := no_opcode
theorem creditArrival (l : Nat) : Statement (.creditArrival l) := no_opcode
theorem xhdrArrival (l : Nat) : Statement (.xhdrArrival l) := no_opcode
theorem xdataArrival (l : Nat) : Statement (.xdataArrival l) := no_opcode
theorem xackArrival (l : Nat) : Statement (.xackArrival l) := no_opcode
theorem kvReservedSub (l : Nat) : Statement (.kvReservedSub l) := no_opcode
theorem mgmtFlit (op : MgmtOp) : Statement (.mgmtFlit op) := no_opcode
theorem rimRunnel (tile : Nat) : Statement (.rimRunnel tile) := no_opcode
theorem rimEndnote (tile : Nat) : Statement (.rimEndnote tile) := no_opcode
theorem rimTrace : Statement .rimTrace := no_opcode
theorem rimZendenChannel (tile : Nat) : Statement (.rimZendenChannel tile) := no_opcode
theorem rimUnlistedChannel (tile : Nat) : Statement (.rimUnlistedChannel tile) := no_opcode
theorem zendenGroupReceive (z : Nat) (g : ZGroup) : Statement (.zendenGroupReceive z g) := no_opcode
theorem zendenAckTimeout (z : Nat) : Statement (.zendenAckTimeout z) := no_opcode
theorem zendenIdleHeader (z : Nat) : Statement (.zendenIdleHeader z) := no_opcode
theorem zendenLinkDown (z : Nat) (why : ZDown) : Statement (.zendenLinkDown z why) := no_opcode
theorem zendenLinkTrained (z : Nat) (peer : BitVec 64) : Statement (.zendenLinkTrained z peer) := no_opcode
theorem ringFormReceive (index : Nat) : Statement (.ringFormReceive index) := no_opcode
theorem ringDoneReceive (size : Nat) : Statement (.ringDoneReceive size) := no_opcode
theorem ringFormTimeout : Statement .ringFormTimeout := no_opcode
theorem stepBoundary (part : Nat) : Statement (.stepBoundary part) := no_opcode
theorem boundarySeen (l : Nat) : Statement (.boundarySeen l) := no_opcode
theorem stepWatchdogExpiry (part : Nat) : Statement (.stepWatchdogExpiry part) := no_opcode
theorem partitionStop (part : Nat) : Statement (.partitionStop part) := no_opcode
theorem partitionFault (part : Nat) : Statement (.partitionFault part) := no_opcode
theorem faultRetestDone (part : Nat) (votes : List (Nat × Nat)) : Statement (.faultRetestDone part votes) := no_opcode
theorem partitionReloadDone (part : Nat) : Statement (.partitionReloadDone part) := no_opcode
theorem configCrcRecompute (u : CfgUnit) : Statement (.configCrcRecompute u) := no_opcode
theorem configScrub : Statement .configScrub := no_opcode
theorem calibrationScrub : Statement .calibrationScrub := no_opcode
theorem driftSave : Statement .driftSave := no_opcode
theorem lockstepMismatch (p : Proc) : Statement (.lockstepMismatch p) := no_opcode
theorem holdClear : Statement .holdClear := no_opcode
theorem standbySelftestDone (p : Proc) (pass : Bool) : Statement (.standbySelftestDone p pass) := no_opcode
theorem lamplighterError : Statement .lamplighterError := no_opcode
theorem lamplighterRestartDone : Statement .lamplighterRestartDone := no_opcode
theorem prefillDone (part : Nat) (tag : BitVec 64) (t : Tok) : Statement (.prefillDone part tag t) := no_opcode
theorem decodePassDone (part : Nat) (tag : BitVec 64) (toks : List Tok) (drafts : List (BitVec 32)) : Statement (.decodePassDone part tag toks drafts) := no_opcode
theorem passStart (part : Nat) (tag : BitVec 64) : Statement (.passStart part tag) := no_opcode
theorem requestEnd (part : Nat) (tag : BitVec 64) : Statement (.requestEnd part tag) := no_opcode
theorem interruptTimer (fn : Fn) (src : IntSource) : Statement (.interruptTimer fn src) := no_opcode
theorem cisternPauseDone (part : Nat) (tag : BitVec 64) : Statement (.cisternPauseDone part tag) := no_opcode
theorem cisternResumeDone (part : Nat) (tag : BitVec 64) (authOk : Bool) : Statement (.cisternResumeDone part tag authOk) := no_opcode
theorem contextTtlExpiry (handle : BitVec 64) : Statement (.contextTtlExpiry handle) := no_opcode
theorem arrayProgrammingDone (l arr : Nat) (ok : Bool) : Statement (.arrayProgrammingDone l arr ok) := no_opcode
theorem weightLoadIdleTimeout (part : Nat) : Statement (.weightLoadIdleTimeout part) := no_opcode
theorem erasureDone (failed : List (Nat × Nat)) : Statement (.erasureDone failed) := no_opcode
theorem touchUpChunk (l arr : Nat) (ok : Bool) : Statement (.touchUpChunk l arr ok) := no_opcode
theorem refreshIdle (part : Nat) : Statement (.refreshIdle part) := no_opcode
theorem pwrEnAssert (slotId : Fin 16) : Statement (.pwrEnAssert slotId) := no_opcode
theorem pwrEnDeassert : Statement .pwrEnDeassert := no_opcode
theorem powerDownSaveDone : Statement .powerDownSaveDone := no_opcode
theorem j1Connect (mv : Nat) : Statement (.j1Connect mv) := no_opcode
theorem inputOvervoltageWarn (mv : Nat) : Statement (.inputOvervoltageWarn mv) := no_opcode
theorem railFault (rail cause group mv : Nat) : Statement (.railFault rail cause group mv) := no_opcode
theorem phaseFailure (group : Nat) : Statement (.phaseFailure group) := no_opcode
theorem hardTrip (comparator : Nat) : Statement (.hardTrip comparator) := no_opcode
theorem perstAssert (p : HostPort) : Statement (.perstAssert p) := no_opcode
theorem perstDeassert (p : HostPort) : Statement (.perstDeassert p) := no_opcode
theorem functionLevelReset (fn : Fn) : Statement (.functionLevelReset fn) := no_opcode
theorem hostLinkDown (p : HostPort) : Statement (.hostLinkDown p) := no_opcode
theorem hostLinkReturn (p : HostPort) : Statement (.hostLinkReturn p) := no_opcode
theorem hostLinkHoldTimeout (p : HostPort) : Statement (.hostLinkHoldTimeout p) := no_opcode
theorem hostPortRetrain (p : HostPort) (ok : Bool) : Statement (.hostPortRetrain p ok) := no_opcode
theorem cableInsert (cage : Nat) (answers powerOk : Bool) : Statement (.cableInsert cage answers powerOk) := no_opcode
theorem sensorSample (r : Readings) : Statement (.sensorSample r) := no_opcode
theorem coolantStopClear : Statement .coolantStopClear := no_opcode
theorem thermalModelUpdate : Statement .thermalModelUpdate := no_opcode
theorem thermalDrainTimeout (part : Nat) : Statement (.thermalDrainTimeout part) := no_opcode
theorem thermalHoldRelease (part : Nat) : Statement (.thermalHoldRelease part) := no_opcode
theorem capFactorUpdate : Statement .capFactorUpdate := no_opcode
theorem powerWindow (part mw : Nat) : Statement (.powerWindow part mw) := no_opcode
theorem flowEstimateUpdate (pin pcis : Nat) : Statement (.flowEstimateUpdate pin pcis) := no_opcode
theorem flowBandRaise : Statement .flowBandRaise := no_opcode
theorem pathResistanceSample (field : Nat) (points : List (Option Nat)) (mA : Nat) : Statement (.pathResistanceSample field points mA) := no_opcode
theorem domainRampStart (field vcoreHeadroom vanaHeadroom : Nat) : Statement (.domainRampStart field vcoreHeadroom vanaHeadroom) := no_opcode
theorem rampHeadroomTimeout (field : Nat) : Statement (.rampHeadroomTimeout field) := no_opcode
theorem domainRampDone (field : Nat) : Statement (.domainRampDone field) := no_opcode
theorem lanternTimeAcquired (l : Nat) : Statement (.lanternTimeAcquired l) := no_opcode
theorem domainOffAfterWork (field : Nat) : Statement (.domainOffAfterWork field) := no_opcode
theorem vcoreVoltageStep (field : Nat) : Statement (.vcoreVoltageStep field) := no_opcode
theorem timeBaseBroadcast : Statement .timeBaseBroadcast := no_opcode
theorem vaonGood : Statement .vaonGood := no_opcode
theorem romSelftestDone (pass : Bool) : Statement (.romSelftestDone pass) := no_opcode
theorem lamplighterFwStart : Statement .lamplighterFwStart := no_opcode
theorem firmwareMeasured (aOk bOk : Bool) : Statement (.firmwareMeasured aOk bOk) := no_opcode
theorem hostLinkTrained (p : HostPort) (ok : Bool) : Statement (.hostLinkTrained p ok) := no_opcode
theorem cisternTrainingDone (failed : List Nat) : Statement (.cisternTrainingDone failed) := no_opcode
theorem calibrationReconcile : Statement .calibrationReconcile := no_opcode
theorem fieldSelfTestDone (badRouters badIslands : List Nat) : Statement (.fieldSelfTestDone badRouters badIslands) := no_opcode
theorem neighbourTestDone (votes : List (Nat × Nat)) : Statement (.neighbourTestDone votes) := no_opcode
theorem repairMapApply : Statement .repairMapApply := no_opcode
theorem retentionCheckDone (event : Unit) : Statement (.retentionCheckDone event) := no_opcode
theorem dormantRecordCheck : Statement .dormantRecordCheck := no_opcode
theorem readyAssert : Statement .readyAssert := no_opcode
theorem spdmGetVersion (ep : SpdmEp) : Statement (.spdmGetVersion ep) := no_opcode
theorem spdmGetCapabilities (ep : SpdmEp) : Statement (.spdmGetCapabilities ep) := no_opcode
theorem spdmNegotiateAlgorithms (ep : SpdmEp) : Statement (.spdmNegotiateAlgorithms ep) := no_opcode
theorem spdmGetDigests (ep : SpdmEp) : Statement (.spdmGetDigests ep) := no_opcode
theorem spdmGetCertificate (ep : SpdmEp) (slot : Nat) : Statement (.spdmGetCertificate ep slot) := no_opcode
theorem spdmChallenge (ep : SpdmEp) (slot : Nat) (nonce : BitVec 256) : Statement (.spdmChallenge ep slot nonce) := no_opcode
theorem spdmGetMeasurements (ep : SpdmEp) (index : Nat) (sign : Bool) : Statement (.spdmGetMeasurements ep index sign) := no_opcode
theorem spdmKeyExchange (ep : SpdmEp) (reqSession : Nat) : Statement (.spdmKeyExchange ep reqSession) := no_opcode
theorem spdmFinish (ep : SpdmEp) (session : Nat) (ok : Bool) : Statement (.spdmFinish ep session ok) := no_opcode
theorem spdmHeartbeat (ep : SpdmEp) (session : Nat) : Statement (.spdmHeartbeat ep session) := no_opcode
theorem spdmKeyUpdate (ep : SpdmEp) (session : Nat) : Statement (.spdmKeyUpdate ep session) := no_opcode
theorem spdmEndSession (ep : SpdmEp) (session : Nat) : Statement (.spdmEndSession ep session) := no_opcode
theorem spdmUnsupportedRequest (ep : SpdmEp) (code : Nat) : Statement (.spdmUnsupportedRequest ep code) := no_opcode
theorem pldmFirmwareUpdate (image : List Byte) : Statement (.pldmFirmwareUpdate image) := no_opcode
theorem coolantKind (v : Nat) : Statement (.coolantKind v) := no_opcode
theorem pldmEventAck (mask : BitVec 32) : Statement (.pldmEventAck mask) := no_opcode
theorem dynamicAddressAssign (addr : BitVec 7) : Statement (.dynamicAddressAssign addr) := no_opcode
theorem rstdaa : Statement .rstdaa := no_opcode
theorem thermTripRelease : Statement .thermTripRelease := no_opcode
theorem rimFunctionLost (tile : Nat) : Statement (.rimFunctionLost tile) := no_opcode
theorem phaseUpdateDone (ok : Bool) : Statement (.phaseUpdateDone ok) := no_opcode
theorem jtagInstruction (op : JtagOp) : Statement (.jtagInstruction op) := no_opcode
theorem zendenActivateNotice (z : Nat) : Statement (.zendenActivateNotice z) := no_opcode
theorem refreshWindowEnd (part : Nat) : Statement (.refreshWindowEnd part) := no_opcode
theorem powerDownRestart : Statement .powerDownRestart := no_opcode

end Sys2Proof.Laws.WordOpcode
end

