-- ==== Sys2Proof/Tests/Slice0.lean ====
section
/-! SUPPORT. Tests of the model, expected results by hand from spec/, and a witness for the hypotheses of every statement. -/

open Sys2Proof Sys2Proof.Machine

namespace Sys2Proof.Tests

theorem takes_of {l : Nat} {i : Instr} {s : State}
    (h : l < 1600 ∧ canIssue (getL s l) = true ∧ fieldsOk i = true ∧ (tget {} (getL s l).store (getL s l).pc).parBad = false ∧ (getL s l).pending = []) : Takes l i s :=
  ⟨h.1, h.2.1, h.2.2.1, h.2.2.2.1, h.2.2.2.2⟩

theorem runs_of {l e : Nat} {i : Instr} {s : State}
    (h : (l < 1600 ∧ canIssue (getL s l) = true ∧ fieldsOk i = true ∧ (tget {} (getL s l).store (getL s l).pc).parBad = false ∧ (getL s l).pending = [])
      ∧ (getL s l).pc ≠ 8191 ∧ getEng (getL s l) e = {}) : Runs l e i s :=
  ⟨takes_of h.1, h.2.1, h.2.2⟩

theorem fetches_of {e : Entry} {q : Qp} {s : State} (h : entryOk e = true ∧ getQp s e.fn e.sqid = some q ∧ canTake s e = true) : Fetches e q s := ⟨h.1, h.2.1, h.2.2⟩

theorem clean_of {e : Entry} {n : Bool} {u : List (Nat × Nat)}
    (h : e.flags.toNat < 2 ∧ (n = false → e.part = 255) ∧ e.rsvd = 0 ∧ dptrOk e = true ∧ dlenOf e ≤ 2 ^ 31
      ∧ ∀ i, i < 44 → (∀ x, x ∈ u → 20 + i < x.1 ∨ x.1 + x.2 ≤ 20 + i) → pf e (20 + i) 1 = 0) : Clean e n u :=
  ⟨h.1, h.2.1, h.2.2.1, h.2.2.2.1, h.2.2.2.2.1, h.2.2.2.2.2⟩

theorem shareReady_of {L : Lantern} {d i n : Nat}
    (h : descOk L d = true ∧ (∀ j, j < i + n → i ≤ j → (walk L (descAt L d) (j / pageDepth (descAt L d))).isSome = true)
      ∧ (∀ e, e ∈ L.lookaside → walk L (descAt L e.1) e.2.1 = some e.2.2) ∧ (∀ e, e ∈ L.pad → e.2.parBad = false) ∧ ∀ e, e ∈ L.kv → e.2.parBad = false) : ShareReady L d i n :=
  ⟨h.1, fun j a b => h.2.1 j b a, h.2.2.1, h.2.2.2.1, h.2.2.2.2⟩

theorem ackTime_le (z t n : Nat) (h : t + 4294969296 ≤ n) : t + ackTime z ≤ n := by
  have := (Config.cableDelay z).isLt
  unfold ackTime
  omega

/-- One partition on field 0 in service, bound to VF 1 of port A. -/
def part0 : Partition :=
  { state := .serving, fx0 := 0, fy0 := 0, w := 1, h := 1, quiet := false, cistern := true, port := .a, vf := 1, zen := 1, hgonly := 0, zchan := 0, window := 2,
    windowNext := none, watchdog := 100, watchdogNext := none, share := 100, shareNext := none, share0 := 100, epoch := 1, running := true, allowance := 1000 }

/-- A lantern that may issue. -/
def lan : Lantern := { on := true, timeOk := true, running := true }

/-- The module with lantern 0 and partition 0. -/
def mod (L : Lantern) (p : Partition) : State := { lanterns := [(0, L)], parts := [(0, some p)] }

/-- A full line. -/
def fl (x : Line) : PadLine := { data := x, full := true }
/-- Full lines from an address on. -/
def fls (a : Nat) (xs : List Line) : SMap PadLine := (List.range xs.length).zip xs |>.map (fun e => (a + e.1, fl e.2))
/-- A line with values at byte offsets. -/
def lineWith (xs : List (Nat × Nat)) : Line := BitVec.ofNat 544 (xs.map (fun e => e.2 * 2 ^ (8 * e.1))).sum
/-- A share of one KV head, FP8, of two positions: descriptor line 100, page 5. -/
def share : SMap PadLine := [(100, fl (lineWith [(4, 101), (7, 1), (12, 1), (16, 2), (28, 1)])), (101, fl (lineWith [(0, 102)])), (102, fl (lineWith [(0, 32773)]))]
/-- A lantern with that share and register 1. -/
def shareLan (w : Word) : Lantern := { lan with regs := [(1, w)], pad := share, ctBase := 100, ctCount := 10 }

/-- An INT8 array operation with one row, in two phases. -/
def op0 : ArrayOp := ⟨0, 0, 0, 0, 3, 1, 0, true, 31, 0, true, false, 0, [(0, 17)], [], 1079, 360, 32768⟩
def ph0 : Phase := ⟨1, 1, [0, 1], 0, [], false⟩
/-- A run with that operation and phases. -/
def run0 (todo : List Phase) : Run := { op := op0, todo := todo, convs := [], firstSat := [], placed := false, residDone := false, restored := false }
/-- The module with lantern 0 whose bank 0 is B. -/
def bankMod (B : Bank) : State := mod { lan with banks := [(0, B)], arrays := [(0, { programmed := true, cells := [(0, 1)] })] } part0
/-- A flit of a kind and sub-number from lantern 1. -/
def flit (kind : Fin 8) (sub : Fin 16) (line : Line) : Flit := ⟨0, false, 0, 0, kind, sub, 0, false, line, 1, false, false, 0, 0⟩
/-- The module with lantern 0 that has received flits. -/
def rxMod (L : Lantern) (rx : List Flit) : State := mod { L with rx := rx } part0

/-- A request in decode on runnel 3, of 64 entries. -/
def req0 : Request :=
  { tag := 7, fn := ⟨.a, 1⟩, sqid := 1, sqhd := 0, cid := 5, state := .decode, rbase := 4096, rn := 3, rlog2 := 6, int := {}, cons := 0, written := 0, delivered := 0, maxNew := 100, sample := false, spec := false,
    keep := false, resume := false, draftK := 0, topK := 0, temp := 0, topP := 0, seed := 0, promptLen := 2, prompt := [1, 2], ends := [], stops := [], keepTtl := 0, adapter := 0, pos0 := 0, gen := [], passes := [],
    draftOff := none, inPass := true, endStatus := 0, reason := 0, hit := 0, final := false, pauseTtl := 0, resuming := false, handle := 0, seq := 4, shares := [], stage := .live, image := 0, owners := [], lastTok := none, storeErr := 0, note := none, written9 := false,
    silent := false, mute := false }
/-- The module with partition 0 that serves a request. -/
def reqMod (r : Request) : State := mod lan { part0 with reqs := [r] }
/-- That module with a flit at a tile. -/
def rimMod (t : Nat) (f : Flit) (r : Request) : State := { reqMod r with tiles := [(t, { rx := [f] })] }
/-- The module whose Zenden port 0 is Z. -/
def zenMod (Z : Zenden) : State := { mod lan part0 with zen := [(0, Z)] }

/-- A program on one slot. -/
def prog0 : Program := { image := [], ryile := false, draft := false, sched := false, stepTime := 1000, slots := 1, vocab := 100, ctxmax := 100, peak := 1000, margin := 0, clayout := 0, wset := 0, digest := 5 }
/-- The module with a lantern in slot 0 of field 0, and a partition. -/
def slotMod (L : Lantern) (p : Partition) : State := { mod L p with fields := [(0, { slots := [1] })] }
/-- A fault record of cause 2. -/
def rec0 : FaultRec := ⟨0, 2, 0, 0, 0, 0, 0, 0, 0, 1, 0, []⟩

/-- A queue pair of 16 entries. -/
def qp0 : Qp := ⟨4096, 16, 0, 0, 8192, 16, 0, 0, true, {}, [], 0, false⟩
/-- An event ring of 8 entries. -/
def ring0 : EvRing := ⟨4096, 3, 0, 0, 0, {}⟩
/-- A context of partition 0. -/
def ctx0 : Context := ⟨6, 0, 0, 0, 1, 2, 0, 0, 50, [], 0, false⟩

/-- An ARRAY chunk in programming. -/
def job0 : ChunkJob := ⟨⟨0, 0, 0, 1, 0, 3⟩, 0, 0, [(0, 5)], 0, ⟨.a, 1⟩, 1, 0, 0, true, false⟩
/-- A weight load of two chunks. -/
def load0 : WeightLoad := ⟨[], 2, 0, none, [], false, 0, [], 0⟩
/-- The module that programs array 0 of lantern 0. -/
def progMod (A : WickArray) : State :=
  { slotMod { lan with banks := [(0, { on := true, prog := some 0 })], arrays := [(0, A)] } part0 with jobs := [job0] }

/-- Bytes with values at rising offsets, zero elsewhere. -/
def bytesWith (n : Nat) (xs : List (Nat × Nat)) : List Byte :=
  (List.range n).map (fun i => match xs.reverse.find? (fun e => decide (e.1 ≤ i)) with | some e => BitVec.ofNat 8 (e.2 / 256 ^ (i - e.1)) | none => 0)
/-- An entry of queue pair 1 of function num of port A: PART, DLEN, values at byte offsets of PARAMS, data. -/
def ent (num part dlen : Nat) (xs : List (Nat × Nat)) (d : Option (List Byte)) : Entry :=
  ⟨⟨.a, num⟩, 1, 0, 5, BitVec.ofNat 8 part, 0, if dlen = 0 then 0 else 4096, BitVec.ofNat 32 dlen, bytesWith 44 (xs.map (fun e => (e.1 - 20, e.2))), [], d⟩
/-- The first bytes of a firmware image of kind 3, the others zero. -/
def img : List Byte := bytesWith 16 [(0, 0x46575653), (4, 1), (6, 3), (7, 0xB0), (8, 2)]

theorem lowest_none {l : List (Nat × Bool)} (h : ∀ c, c ∈ l → c.2 = false) : lowest l = none := by
  unfold lowest
  induction l with
  | nil => rfl
  | cons c cs ih =>
    have hc := h c (List.mem_cons_self ..)
    simp only [List.foldl_cons, hc, Bool.false_eq_true, if_false]
    exact ih fun d hd => h d (List.mem_cons_of_mem _ hd)

theorem natOfBytes_zero (n : Nat) : natOfBytes (List.replicate n 0) = 0 := by
  induction n with
  | zero => rfl
  | succ n ih => simp only [List.replicate_succ, natOfBytes] at *; simp_all

theorem fieldAt_pad (N i n : Nat) (d : List Byte) (hi : d.length ≤ i) (hN : d.length ≤ N) : fieldAt (padTo N d) i n = 0 := by
  unfold fieldAt padTo
  rw [List.take_of_length_le hN, List.drop_append, List.drop_of_length_le hi, List.nil_append, List.drop_replicate, List.take_replicate]
  exact natOfBytes_zero _

theorem padTo_length (n : Nat) (d : List Byte) (h : d.length ≤ n) : (padTo n d).length = n := by
  simp [padTo]
  omega
theorem img_ok (k : Option Nat) (hk : k = some 3 ∨ k = none) : lowest (imageFaults k (padTo 5124 img)) = none := by
  have h : (padTo 5124 img).length = 5124 := padTo_length _ _ (by simp [img, bytesWith])
  have hl : img.length = 16 := by simp [img, bytesWith]
  refine lowest_none fun c hc => ?_
  simp only [imageFaults, h, List.mem_append] at hc
  rcases hc with hc | hc
  · revert c
    rcases hk with rfl | rfl <;> decide +kernel
  · obtain ⟨i, -, rfl⟩ := List.mem_map.1 hc
    simp only [fieldAt_pad 5124 (80 + i) 1 img (by omega) (by omega)]
    rfl

/-- A package header of kind 1 for one field, after 32 bytes. -/
def wo : List Byte := bytesWith 64 [(32, 0x50575653), (36, 1), (38, 1), (39, 0xB0), (41, 2), (43, 1), (44, 3)]

theorem hdr_ok (p : Partition) (hw : p.w = 1) (hh : p.h = 1) :
    lowest (headerFaults p 1 (padTo 1056 wo) 32 ++ [(124, fieldAt ((padTo 1056 wo).drop 32) 92 4 != 0), (128, fieldAt ((padTo 1056 wo).drop 32) 96 4 != 0)]) = none := by
  have hl : wo.length = 64 := by simp [wo, bytesWith]
  refine lowest_none fun c hc => ?_
  simp only [headerFaults, hw, hh, List.mem_append, or_assoc] at hc
  rcases hc with hc | hc | hc | hc
  · revert c
    decide +kernel
  · revert c
    decide +kernel
  · obtain ⟨i, -, rfl⟩ := List.mem_map.1 hc
    simp only [fieldAt_pad 1056 (32 + (484 + i)) 1 wo (by omega) (by omega)]
    rfl
  · revert c
    decide +kernel

/-- A bank-column record, and its copies: slot 1 is not valid. -/
def recB : BitVec 2048 := makeRec (calKey 2 5) 3 0 7
def calR : CalRec := ⟨recB, 0, recB, recB, none⟩

theorem recB_valid : copyValid (calKey 2 5) recB = true := makeRec_valid _ _ _ _ (by decide)

theorem best_ok : bestCopy (calKey 2 5) calR = some recB := by
  have h0 : copyValid (calKey 2 5) 0 = false := by decide +kernel
  unfold bestCopy copiesOf calR
  rw [List.filter_cons_of_pos recB_valid, List.filter_cons_of_neg (by rw [h0]; decide), List.filter_cons_of_pos recB_valid, List.filter_nil]
  simp [newerGen]

/-- A queue pair with one entry waiting. -/
def qpC : Qp := { qp0 with sqTail := 1 }
/-- The module ready for commands of functions 0 and 1 of port A. -/
def cmdMod (s : State) : State :=
  { s with
    boot := { s.boot with ready := true, aUp := true, measured := true, rails := true, pwrEn := true, vaon := true }
    sec := { s.sec with fw := true, uds := true, rom := true }
    links := [(0, { released := true, perst := false, up := true })]
    funcs := [(0, { en := true, qps := [(1, some qpC)] }), (1, { en := true, qps := [(1, some qpC)] })] }
/-- The round of visits is past queue pair 1 of function 0. -/
def vfTurn (s : State) : State := { s with visit := queueKey ⟨.a, 0⟩ 1 }
/-- The module ready for commands, with partition 0. -/
def cmdP (p : Partition) : State := cmdMod (mod lan p)

end Sys2Proof.Tests

namespace Sys2Proof.Tests

set_option Elab.async false

/-! ## Commands that name a unit the module does not have -/

theorem test_wf_lantern : Instr.wf (.nop 1600 ⟨0⟩) = false ∧ Instr.wf (.nop 1599 ⟨0⟩) = true := by decide
theorem test_wf_bank : Instr.wf (.arrayOpStart 0 32) = false ∧ Instr.wf (.arrayOpStart 0 31) = true := by decide
theorem test_wf_array : Instr.wf (.referenceOperation 0 256) = false ∧ Instr.wf (.referenceOperation 0 255) = true := by decide
theorem test_wf_engine : Instr.wf (.waitEnd 0 8) = false := by decide
theorem test_wf_field : Instr.wf (.temperatureUpdate 100) = false ∧ Instr.wf (.temperatureUpdate 99) = true := by decide
theorem test_wf_port : Instr.wf (.orderRun 0 5) = false ∧ Instr.wf (.orderRun 0 4) = true := by decide
theorem test_wf_input_port : Instr.wf (.flitHop 0 5 0 false) = false := by decide
theorem test_wf_link : Instr.wf (.linkCrcMismatch 0 1 4 0) = false := by decide
theorem test_wf_source : Instr.wf (.weirRelease 1640 0) = false ∧ Instr.wf (.weirRelease 1639 0) = true := by decide
theorem test_wf_tile : Instr.wf (.rimRunnel 40) = false := by decide
theorem test_wf_zenden : Instr.wf (.zendenGroupReceive 4 ⟨true, 0, 0, [], true, 0, 0⟩) = false := by decide
theorem test_wf_partition : Instr.wf (.stepBoundary 16) = false := by decide
theorem test_wf_votes : Instr.wf (.faultRetestDone 0 [(0, 1600)]) = false ∧ Instr.wf (.neighbourTestDone [(1640, 0)]) = false := by decide
theorem test_wf_config : Instr.wf (.configCrcRecompute (.router 1600)) = false := by decide
theorem test_wf_arrays : Instr.wf (.erasureDone [(0, 256)]) = false := by decide
theorem test_wf_plant : Instr.wf (.phaseFailure 45) = false ∧ Instr.wf (.hardTrip 404) = false ∧ Instr.wf (.cableInsert 6 true true) = false := by decide
theorem test_wf_readings : Instr.wf (.sensorSample ⟨[(100, [])], [], []⟩) = false := by decide
theorem test_wf_self_tests : Instr.wf (.cisternTrainingDone [12]) = false ∧ Instr.wf (.fieldSelfTestDone [1600] []) = false ∧ Instr.wf (.fieldSelfTestDone [] [100]) = false := by decide
theorem test_wf_function : Instr.wf (.evCons ⟨.a, 17⟩ 0) = false ∧ Instr.wf (.evCons ⟨.a, 16⟩ 0) = true ∧ Instr.wf (.spdmGetVersion (.vf ⟨.b, 17⟩)) = false := by decide
theorem test_wf_queue : Instr.wf (.sqTail ⟨.a, 1⟩ 64 0) = false ∧ Instr.wf (.runnelCons ⟨.a, 1⟩ 1024 0) = false := by decide
theorem test_wf_entry : Instr.wf (.partQuery { ent 0 0 0 [] none with sqid := 64 }) = false := by decide
theorem test_wf_delay : Instr.wf (.pertHsdelayWrite ⟨.a, 1⟩ 0 4 0) = false := by decide
theorem test_wf_management : Instr.wf (.mgmtFlit (.orderBank 0 5 [] 0 0 0)) = false := by decide
theorem test_ill_formed_stops : step { pending := [.nop 1600 ⟨0⟩] } = .fault .noSuchUnit := rfl

/-! ## Words of lantern instructions, written out from 06 Tables 6-1 and 6-2, one per format -/

theorem test_word_add : decodeWord 5 0x0108860000000000#64 = some (.add 5 ⟨1, 2, 3, 0⟩) := by decide +kernel
theorem test_word_jmp : decodeWord 5 0x1C00000000001FFF#64 = some (.jmp 5 ⟨0, 0, 8191⟩) := by decide +kernel
theorem test_word_step : decodeWord 5 0x200000000000000A#64 = some (.step 5 ⟨10⟩) := by decide +kernel
/-- The word of the worked example under 06 Table 6-7. -/
theorem test_word_aop : decodeWord 1234 0x402720007C013018#64 = some (.aop 1234 ⟨39, 0x2000, 1, 15, 0, true, 6, 3⟩) := by decide +kernel
theorem test_word_ard : decodeWord 5 0x490180448D00F000#64 = some (.ard 5 ⟨3, 1, 0x1234, 0, 7, true⟩) := by decide +kernel
theorem test_word_clr : decodeWord 5 0x73000000000100F8#64 = some (.clr 5 ⟨0, 0, 256, 31, 0⟩) := by decide +kernel
theorem test_word_recv : decodeWord 5 0x7891234003000000#64 = some (.recv 5 ⟨9, 0x1234, 0, false, 3, false⟩) := by decide +kernel
theorem test_word_zero_nop : decodeWord 5 0#64 = some (.nop 5 ⟨0⟩) := by decide +kernel
theorem test_word_unassigned : decodeWord 5 0xFF00000000000000#64 = none ∧ decodeWord 5 0x0108860100000000#64 = none := by decide +kernel

/-! ## Worked examples of spec/ -/

/-- 01: lantern 1,234 is local index 10 of field 78. -/
theorem test_field_of_1234 : fieldOf 1234 = 78 ∧ localIx 1234 = 10 := by decide
/-- 02 R54: quarters of 1,800, 1,500, 2,900 and 600 split in 2; with 3,000 first, in 4. -/
theorem test_split : splitOf [(0, 1800), (256, 1500), (512, 2900), (768, 600)] = 2 ∧ splitOf [(0, 3000), (256, 1500), (512, 2900), (768, 600)] = 4 := by decide +kernel
/-- 03 R68: code 140 of lantern 1,234 corrects to 599687 / 4096. -/
theorem test_correction : correctCode 539 (20, 12) (28, 20) (2, -1) 8 140 31744 = 599687 := by decide +kernel
/-- 03 R87: means 12.0 and 15.2, deviations 40.0 and 43.0: 8.0 %. -/
theorem test_deviation : rdfOf (76 / 5) 43 12 40 = 80 := by decide +kernel
/-- 04 Table 4-12: the four placements of weight column 350, and their sum as FP32. -/
theorem test_placements :
    (placeList [⟨10, 30, 599687, -12, false, false⟩, ⟨10, 30, -327680, -14, false, false⟩, ⟨10, 30, -306, -4, false, false⟩, contrOf32 10 30 0x3DCCCCCD false] ⟨[], 0, 0⟩).map
      (fun a => let b := tget {} a.acc 10; (b.base, (tget {} b.outs 30).val, a.seconds)) = some (-27, 14412696781, 0)
    ∧ toF32 (.fin false 14412696781 (-27)) = 0x42D6C413 := by decide +kernel
/-- 05 R151: an element 5 at scale 0x7C becomes 2 at 0x7D, counted, and 7 becomes 4. -/
theorem test_transposed_cell : tileCell 1 [(5, 0x7C), (7, 0x7C), (3, 0x7D)] = (0x342 + 0x7D * 2 ^ 128, true) := by decide +kernel
/-- 06 R194, 12 R373: a share of 122.0 W over 20 fields and 200 ns is 70,000 units. -/
theorem test_allowance : allowanceOf { part0 with w := 5, h := 4 } 1220 200 = 70000 := by decide +kernel
/-- 07 R203, R206: position 5,000, value of head 5, in share 56 of 64. -/
theorem test_kv_address :
    localIndex { dir := 0, hloc := 8, w := 1, guest := false, state := 1, base := 0, s := 64, j := 56, count := 0, mark := 0, markV := false, rel := 0, pages := 0, peer := 0, caddr := 0, layout := 0 } 5000 = some 72
    ∧ kvAddr { dir := 0, hloc := 8, w := 1, guest := false, state := 1, base := 0, s := 64, j := 56, count := 0, mark := 0, markV := false, rel := 0, pages := 0, peer := 0, caddr := 0, layout := 0 } 517 11 72 = 132600 := by decide +kernel
/-- 07: the first elements of a key cell of model A in INT4. -/
theorem test_quantised_cell : (quantCell 1 [.fin false 23 (-3), .fin true 5 (-2), .fin false 3 (-2), .fin false 1 (-2), .fin true 11 (-2)]).code = 0xA02E6 + 0x7E * 2 ^ 128 := by decide +kernel
/-- 07: lantern X of the worked example: l = 1.21875, m = 2.5, probabilities 64 and 14 at 2^-6. -/
theorem test_softmax :
    (softmaxOf (0xFF7FFFFF, false) [(0x40200000, false), (0x3F800000, false)]).2.1 = 0x402000003F9C0000
    ∧ (softmaxOf (0xFF7FFFFF, false) [(0x40200000, false), (0x3F800000, false)]).1.map (fun c => c.1.code) = [0x0E40 + 0x79 * 2 ^ 128] := by decide +kernel
/-- 07 R223: the worked example's partials of lanterns X and Y merge to l = 1.8569467 and o = 0.7987036, and the root writes 0.4301166. -/
theorem test_merge :
    let m := mergePartials ⟨0x40200000, 0x3F9C0000, [0x3F240000]⟩ ⟨0x40500000, 0x3FA40000, [0x3EFE0000]⟩
    m = ⟨0x40500000, 0x3FEDB06E, [0x3F4C77D6]⟩ ∧ mergeRoot m = [0x3EDC383E] := by decide +kernel
/-- 07 R223: two empty partials merge to an empty one, and its root writes +0. -/
theorem test_merge_empty : mergePartials emptyPartial emptyPartial = emptyPartial ∧ (mergeRoot emptyPartial).head? = some 0 := by decide +kernel
/-- The ASCII string 123456789: its CRC-16 (08 R234) and its CRC-32C (03 Table 3-4). -/
def digits9 : List Byte := [0x31, 0x32, 0x33, 0x34, 0x35, 0x36, 0x37, 0x38, 0x39]
theorem test_crc : crc16 digits9 = 0x29B1 ∧ crc32c digits9 = 0xE3069283 := by decide +kernel
/-- 03 R98: the first step of the generator from seed 1, by hand: 0x2001, 0x2001, 0x42021, so the first element is -8. -/
theorem test_xorshift : xorshift 1 = 0x42021 := by decide +kernel
/-- 08 Table 8-3: the entry of router 205 in the worked example. -/
theorem test_order_entry :
    orderWordOk 0x0066A64440FE0000 = true ∧ entryField 0x0066A64440FE0000 47 11 = 205 ∧ entryField 0x0066A64440FE0000 36 11 = 612
    ∧ entryField 0x0066A64440FE0000 17 12 = 127 := by decide +kernel
/-- 09 R284: entry 130 of a runnel of 64 has phase bit 1. -/
theorem test_runnel_phase : runnelPhase req0 130 = 1 ∧ runnelPhase req0 64 = 0 := by decide +kernel

/-! ## One step on a small state -/

/-- What a test reads of the next state; d where there is none. -/
def after {α : Type} (c : Instr) (s : State) (d : α) (f : State → α) : α :=
  match step { s with pending := [c] } with
  | .next t => f t
  | _ => d

/-- A lantern whose next word is the command's, with registers 1 and 2. -/
def regMod (i : Instr) (a b : Word) : State := mod { lan with regs := [(1, a), (2, b)], store := [(0, { bits := encodeWord i })] } part0

/-- 06 Table 6-2: ADD wraps at 64 bits, with a source as its destination. -/
theorem test_add_wraps : after (.add 0 ⟨1, 1, 2, 0⟩) (regMod (.add 0 ⟨1, 1, 2, 0⟩) 0xFFFFFFFFFFFFFFFF 2) 0 (fun t => getReg (getL t 0) 1) = 1 := by decide +kernel
/-- 06 Table 6-2: SAR takes the low six bits of its count and fills with the sign. -/
theorem test_sar_signed : after (.sar 0 ⟨3, 1, 2, 0⟩) (regMod (.sar 0 ⟨3, 1, 2, 0⟩) 0x8000000000000000 67) 0 (fun t => getReg (getL t 0) 3) = 0xF000000000000000 := by decide +kernel
/-- 06 Table 6-2: BLT compares signed. -/
theorem test_blt_signed : after (.blt 0 ⟨1, 2, 77⟩) (regMod (.blt 0 ⟨1, 2, 77⟩) 0xFFFFFFFFFFFFFFFF 0) 0 (fun t => (getL t 0).pc) = 77 := by decide +kernel
/-- 06: register 0 reads as zero and a write to it is discarded. -/
theorem test_register_zero : after (.add 0 ⟨0, 1, 2, 0⟩) (regMod (.add 0 ⟨0, 1, 2, 0⟩) 5 2) 9 (fun t => getReg (getL t 0) 0) = 0 := by decide +kernel
/-- 09 R283: a tail beyond the queue is a bad doorbell and leaves the tail. -/
theorem test_bad_tail : after (.sqTail ⟨.a, 1⟩ 1 16) { mod lan part0 with funcs := [(1, { en := true, qps := [(1, some qp0)] })] } 99 (fun t => match getQp t ⟨.a, 1⟩ 1 with | some q => q.sqTail | none => 99) = 0 := by decide +kernel

end Sys2Proof.Tests

namespace Sys2Proof.Tests

/-! ## Hypotheses of the statements about every state -/

theorem parts_ok_mod : PartsOk (mod lan part0) where
  number n p h := by
    simp only [getPart, mod, tget] at h
    split at h
    · omega
    · cases h
  rect n p h := by
    simp only [getPart, mod, tget] at h
    split at h
    · cases h; decide
    · cases h
  apart n m p q f hn hm _ _ _ := by
    simp only [getPart, mod, tget] at hn hm
    split at hn
    · split at hm
      · omega
      · cases hm
    · cases hn

/-- Hypotheses of Obligations.PartitionsStayApart: a module with a partition, idle. -/
theorem test_witness_PartitionsStayApart : PartsOk (mod lan part0) ∧ step (mod lan part0) = .next (mod lan part0) := ⟨parts_ok_mod, rfl⟩
/-- Hypotheses of the clauses of Obligations.OnlyStops. -/
theorem test_witness_OnlyStops : Instr.wf (.nop 1599 ⟨0⟩) = true ∧ (∀ n, Instr.nop 1599 ⟨0⟩ ≠ .jtagInstruction (.debug n)) :=
  ⟨by decide, fun _ h => by cases h⟩
/-- Hypotheses of the clauses of Obligations.WordsRoundTrip. -/
theorem test_witness_WordsRoundTrip : fieldsOk (.add 5 ⟨1, 2, 3, 0⟩) = true ∧ decodeWord 5 0x0108860000000000#64 = some (.add 5 ⟨1, 2, 3, 0⟩) := by decide +kernel

end Sys2Proof.Tests

namespace Sys2Proof.Tests

set_option Elab.async false

/-! ## States and operands of the witnesses below -/

def wListInstr0 : List Instr := [Instr.readyAssert]
def wState1 : State := { pending := [.rstdaa, .readyAssert] }
def wState2 : State := mod lan part0
def wState3 : State := { mod lan part0 with boot := { vaon := true } }
def wState4 : State := { now := 9, boot := { rails := true }, sec := { retired := true } }
def wState5 : State := { boot := { rails := true, vaon := true }, sec := { rom := true, retired := true } }
def wState6 : State := mod { lan with pad := [(4, { full := true })] } part0
def wFmtS7 : FmtS := ⟨1, 2, 3, 0⟩
def wState8 : State := (mod { lan with regs := [(2, 7), (3, 0xFFFFFFFFFFFFFFFE)] } part0)
def wFmtS9 : FmtS := ⟨1, 2, 0, 0x80000000⟩
def wFmtS10 : FmtS := ⟨1, 0, 0, 0x80000000⟩
def wFmtS11 : FmtS := ⟨1, 0, 0, 7⟩
def wFmtS12 : FmtS := ⟨1, 0, 0, 8⟩
def wFmtS13 : FmtS := ⟨1, 2, 0, 0xFFFFFFFF⟩
def wState14 : State := (mod { lan with regs := [(2, 65536)], pad := [(65535, { data := 9, full := true })] } part0)
def wFmtS15 : FmtS := ⟨0, 2, 3, 0⟩
def wState16 : State := (mod { lan with regs := [(2, 65535), (3, 7)] } part0)
def wFmtJ17 : FmtJ := ⟨2, 2, 8191⟩
def wFmtJ18 : FmtJ := ⟨2, 3, 8191⟩
def wFmtJ19 : FmtJ := ⟨0, 0, 8191⟩
def wFmtJ20 : FmtJ := ⟨2, 0, 0⟩
def wFmtJ21 : FmtJ := ⟨3, 0, 0⟩
def wFmtC22 : FmtC := ⟨0⟩
def wState23 : State := (mod lan part0)
def wFmtC24 : FmtC := ⟨127⟩
def wFmtC25 : FmtC := ⟨8⟩
def wState26 : State := (mod { lan with engines := [(3, { q := [⟨0, 0, 0, .clr 0 1, []⟩], wait := 2 })] } part0)
def wFmtC27 : FmtC := ⟨900⟩
def wFmtC28 : FmtC := ⟨1023⟩
def wState29 : State := (mod {} part0)
def wState30 : State := (mod { lan with store := [(0, ⟨0, true⟩)] } part0)
def wState31 : State := (mod { lan with pending := [3] } part0)
def wState32 : State := (mod { lan with pc := 8191 } part0)
def wFmtK33 : FmtK := ⟨511, 0, 0, 0, 0, false⟩
def wState34 : State := mod { lan with acc := [(511, { empty := false, outs := [(0, { val := 4096, touched := true })] })] } part0
def wFmtK35 : FmtK := ⟨511, 0, 65000, 0, 7, true⟩
def wFmtK36 : FmtK := ⟨511, 0, 0, 3, 0, true⟩
def wState37 : State := mod { lan with acc := [(511, { empty := false, outs := [(0, { val := 4096, touched := true })] })], sluices := [(3, { dest := 1, kind := 0, num := 2, grant := 64, credits := 64 })] } part0
def wFmtK38 : FmtK := ⟨511, 0, 0, 3, 0, false⟩
def wState39 : State := mod { lan with lanes := [(3, { used := true, producer := 1, buf := [(lineWith [(64, 3072)], false, false)] })] } part0
def wFmtL40 : FmtL := ⟨0, 10, 511, 1, 1⟩
def wState41 : State := mod { lan with regs := [(1, 2 * 2 ^ 39 + 1 * 2 ^ 32 + 2)], pad := fls 0 [lineWith [(0, 0x0102), (16, 127)]] ++ fls 10 [lineWith [(0, 0x0103), (16, 127)], lineWith [(0, 0xFF01), (16, 127)]] } part0
def wFmtL42 : FmtL := ⟨0, 10, 511, 1, 0⟩
def wState43 : State := mod { lan with regs := [(1, 4 * 2 ^ 39 + 1 * 2 ^ 32 + 2)], pad := fls 0 [lineWith [(0, 0x3F80), (2, 0x4000)]] ++ fls 10 [lineWith [(0, 0x3C)], lineWith [(0, 0x4038)]] } part0
def wFmtL44 : FmtL := ⟨0, 10, 65534, 1, 2⟩
def wFmtL45 : FmtL := ⟨0, 10, 65535, 1, 3⟩
def wState46 : State := mod { lan with regs := [(1, 2)], pad := fls 0 [lineWith [(0, 0x3F800000), (4, 0x40000000)]] ++ fls 10 [lineWith [(0, 0x40400000), (4, 0xBF800000)]] } part0
def wFmtL47 : FmtL := ⟨0, 10, 20, 1, 2⟩
def wState48 : State := mod { lan with regs := [(1, 2)], pad := fls 0 [lineWith [(0, 0x3F800000), (4, 0x40000000)]] ++ fls 10 [lineWith [(0, 0x40400000), (4, 0xBF800000)]] ++ fls 20 [lineWith [(0, 0x3F800000)]] } part0
def wFmtL49 : FmtL := ⟨0, 0, 20, 1, 1⟩
def wFmtL50 : FmtL := ⟨0, 0, 20, 1, 0⟩
def wFmtL51 : FmtL := ⟨0, 0, 65535, 1, 0⟩
def wState52 : State := mod { lan with regs := [(1, 2 * 2 ^ 32 + 2)], pad := fls 0 [lineWith [(0, 0x3F800000), (4, 0x40000000)]] ++ fls 10 [lineWith [(0, 0x40400000), (4, 0xBF800000)]] } part0
def wState53 : State := mod { lan with regs := [(1, 2 * 2 ^ 44 + 7 * 2 ^ 40 + 1 * 2 ^ 32 + 10)], pad := fls 0 [lineWith [(0, 0x3F800000), (4, 0x40000000)]] ++ fls 10 [lineWith [(0, 0x40400000), (4, 0xBF800000)]] } part0
def wFmtL54 : FmtL := ⟨0, 10, 65000, 1, 0⟩
def wFmtL55 : FmtL := ⟨0, 10, 65000, 1, 3⟩
def wState56 : State := mod { lan with regs := [(1, 2)], pad := fls 0 [lineWith [(0, 0x3F800000), (4, 0x40000000)]] ++ fls 10 [lineWith [(0, 0x40400000), (4, 0xBF800000)]], scores := [(4, 0x3F800000, false), (4, 0x40000000, false)] } part0
def wFmtL57 : FmtL := ⟨0, 10, 65535, 1, 0⟩
def wState58 : State := mod { lan with regs := [(1, 2)], pad := fls 0 [lineWith [(0, 7), (4, 9)], lineWith [(0, 0x40000000), (4, 0x3F800000)]] ++ fls 10 [lineWith [(0, 1)]] } part0
def wFmtL59 : FmtL := ⟨0, 0, 62, 1, 0⟩
def wState60 : State := mod { lan with regs := [(1, 2)], pad := fls 0 [1, 2, 3, 4] } part0
def wFmtL61 : FmtL := ⟨100, 0, 0, 1, 0⟩
def wState62 : State := mod (shareLan 0) part0
def wFmtL63 : FmtL := ⟨100, 0, 0, 1, 1⟩
def wState64 : State := mod { shareLan 0 with probs := [(0, 0, 3, 127, false)] } part0
def wFmtL65 : FmtL := ⟨200, 100, 0, 1, 0⟩
def wState66 : State := mod { shareLan (2 ^ 24 + 2) with pad := share ++ fls 200 [1, 2, 3, 4, 5, 6, 7, 8] } part0
def wFmtL67 : FmtL := ⟨0, 100, 0, 1, 0⟩
def wState68 : State := mod (shareLan (2 ^ 20)) part0
def wFmtL69 : FmtL := ⟨200, 100, 0, 1, 1⟩
def wFmtL70 : FmtL := ⟨0, 100, 3, 1, 0⟩
def wState71 : State := mod { shareLan (2 ^ 20) with sluices := [(3, { dest := 1, kind := 2, num := 2, cls := 1, grant := 64, credits := 64 })] } part0
def wFmtL72 : FmtL := ⟨0, 0, 100, 1, 1⟩
def wState73 : State := mod { lan with regs := [(1, 1 * 2 ^ 12 + 3)], pad := fls 0 [1, 2, 3, 4, 5] } part0
def wState74 : State := mod { lan with regs := [(1, 2 ^ 13 + 1)], pad := fls 0 [1, 2, 3, 4, 5, 6, 7, 8, 9, 10, 11, 12, 13, 14, 15, 16] } part0
def wFmtL75 : FmtL := ⟨0, 0, 3, 1, 1⟩
def wState76 : State := mod { lan with regs := [(1, 1 * 2 ^ 12 + 3)], pad := fls 0 [1, 2, 3, 4, 5], sluices := [(3, { dest := 1, kind := 0, num := 2, grant := 64, credits := 64 })] } part0
def wFmtL77 : FmtL := ⟨0, 0, 0, 1, 0⟩
def wState78 : State := mod { lan with regs := [(1, 3)], pad := fls 0 [1, 2, 3, 4, 5] } part0
def wFmtQ79 : FmtQ := ⟨15, 65534, 0, false, 1, false⟩
def wState80 : State := mod { lan with pad := fls 50 [7, 8, 9], queues := [(15, { base := 50, depth := 4, w := 3, rd := 1, l := 0, last := 6 })] } part0
def wFmtQ81 : FmtQ := ⟨15, 0, 31, true, 0, false⟩
def wFmtQ82 : FmtQ := ⟨15, 65535, 0, false, 0, false⟩
def wState83 : State := mod { lan with pad := fls 50 [7, 8, 9], queues := [(15, { base := 50, depth := 4, w := 3, rd := 3, m := 1, markV := true, l := 0, last := 6 })] } part0
def wFmtQ84 : FmtQ := ⟨15, 0, 0, false, 0, false⟩
def wFmtQ85 : FmtQ := ⟨15, 0, 1, false, 0, true⟩
def wFmtA86 : FmtA := ⟨247, 0, 0, 3, 448, true, 31, 0⟩
def wState87 : State := mod { lan with declared := 2000, pad := fls 0 [lineWith [(0, 0x0102030405060708), (16, 127)]], arrays := [(254, { programmed := true, cells := [(0, 1)] })] } part0
def wState88 : State := bankMod { on := true, slot := some op0 }
def wState89 : State := bankMod {}
def wState90 : State := bankMod { on := true, run := some { run0 [⟨1, 4, [0, 1], 0, [], false⟩] with op := { op0 with amps := [(0, 1), (900, 1)] } } }
def wState91 : State := bankMod { on := true, run := some (run0 [ph0]) }
def wState92 : State := bankMod { on := true, run := some (run0 []) }
def wState93 : State := mod { lan with arrays := [(0, { mode := 2 })], pad := fls 5 [1, 2, 3, 4, 5, 6, 7, 8], banks := [(0, { on := true, run := some { run0 [] with op := { op0 with resid := [(5, 2)] } } })] } part0
def wState94 : State := mod { lan with banks := [(31, { on := true })] } part0
def wState95 : State := mod { lan with banks := [(31, { on := true, run := some (run0 []) })] } part0
def wState96 : State := { mod lan part0 with now := 10000000000 }
def wState97 : State := { mod lan part0 with fields := [(0, { sensors := [(0, { bad := true }), (1, { bad := true }), (2, { bad := true }), (3, { bad := true }), (4, { bad := true }), (5, { bad := true })] })] }
def wEngEntry98 : EngEntry := (⟨0, 7, 0, .emit 3 [{ data := 9, full := true }], []⟩ : EngEntry)
def wState99 : State := mod {} part0
def wState100 : State := mod { lan with engines := [(2, { q := [(⟨0, 7, 0, .emit 3 [{ data := 9, full := true }], []⟩ : EngEntry)], wait := 2 })] } part0
def wState101 : State := mod { lan with pad := fls 3 [4], engines := [(2, { q := [(⟨0, 7, 0, .emit 3 [{ data := 9, full := true }], []⟩ : EngEntry)], wait := 2 })] } part0
def wState102 : State := mod { lan with engines := [(4, { q := [(⟨0, 7, 0, .qld 0 0 1, []⟩ : EngEntry)], wait := 1 })] } part0
def wEngEntry103 : EngEntry := (⟨0, 7, 0, .qld 0 0 1, []⟩ : EngEntry)
def wState104 : State := mod { lan with held := some (.nop 0 ⟨0⟩, 0x0F, 0) } part0
def wListFlit105 : List Flit := []
def wFlit106 : Flit := flit 0 15 9
def wState107 : State := rxMod { lan with queues := [(15, { base := 60, depth := 4, w := 3 })] } [flit 0 15 9]
def wState108 : State := rxMod { lan with queues := [(15, { base := 60, depth := 4, w := 4 })] } [flit 0 15 9]
def wFlit109 : Flit := flit 2 15 9
def wState110 : State := rxMod { lan with lanes := [(7, { used := true })] } [flit 2 15 9]
def wState111 : State := rxMod { lan with lanes := [(7, { used := true, buf := List.replicate 128 (0, false, false) })] } [flit 2 15 9]
def wFlit112 : Flit := flit 3 2 5
def wState113 : State := rxMod { lan with sluices := [(3, { dest := 1, kind := 0, num := 2, grant := 9, credits := 4 })] } [flit 3 2 5]
def wState114 : State := rxMod { lan with sluices := [(3, { dest := 1, kind := 0, num := 2, grant := 9, credits := 5 })] } [flit 3 2 5]
def wState115 : State := rxMod lan [flit 3 2 5]
def wFlit116 : Flit := flit 1 0 (lineWith [(0, 100), (8, 1), (12, 2), (16, 1)])
def wState117 : State := rxMod lan [flit 1 0 (lineWith [(0, 100), (8, 1), (12, 2), (16, 1)])]
def wFlit118 : Flit := flit 1 1 7
def wState119 : State := rxMod lan [flit 1 1 7]
def wState120 : State := rxMod { lan with intakes := [(0, { used := true, producer := 1 })], kvIn := List.replicate 64 (0, flit 1 1 7) } [flit 1 1 7]
def wState121 : State := rxMod { shareLan 0 with intakes := [(0, { used := true, producer := 1 })] } [flit 1 0 (lineWith [(0, 100), (8, 1), (12, 2), (16, 1)])]
def wFlit122 : Flit := flit 1 0 100
def wState123 : State := rxMod { shareLan 0 with intakes := [(0, { used := true, producer := 1 })] } [flit 1 0 100]
def wState124 : State := rxMod { shareLan 0 with intakes := [(0, { used := true, producer := 1, msg := some ⟨100, 2, 1, 0, 0, true⟩ })] } [flit 1 1 7]
def wState125 : State := rxMod { shareLan 0 with kvNow := some 0, intakes := [(0, { used := true, producer := 1, msg := some ⟨100, 2, 1, 0, 0, false⟩ })] } [flit 1 1 7]
def wState126 : State := rxMod { shareLan 0 with kvNow := some 0, intakes := [(0, { used := true, producer := 1, msg := some ⟨100, 2, 20, 15, 15, false⟩ })] } [flit 1 1 7]
def wState127 : State := rxMod { shareLan 0 with kvNow := some 0, intakes := [(0, { used := true, producer := 1, msg := some ⟨100, 2, 1, 1, 1, false⟩ })] } [flit 1 1 7]
def wState128 : State := rxMod { shareLan 0 with kvNow := some 0, intakes := [(0, { used := true, producer := 1, msg := some ⟨100, 2, 8, 15, 15, false⟩ })] } [flit 1 1 7]
def wFlit129 : Flit := flit 1 2 3
def wState130 : State := rxMod { lan with sluices := [(3, { dest := 1, kind := 2, num := 2, grant := 9, credits := 6 })] } [flit 1 2 3]
def wFlit131 : Flit := flit 1 2 (lineWith [(0, 3), (4, 1)])
def wState132 : State := rxMod { lan with sluices := [(3, { dest := 1, kind := 2, num := 2, grant := 9, credits := 6 })], engines := [(6, { q := [⟨0, 7, 0, .kxfrAck 3, []⟩], wait := 4 })] } [flit 1 2 (lineWith [(0, 3), (4, 1)])]
def wFlit133 : Flit := flit 1 3 0
def wState134 : State := rxMod lan [flit 1 3 0]
def wListNatNatNat135 : List (Nat × Nat × Nat) := [(0, 5, 2)]
def wListWord136 : List Word := [0x4000000000000003, 0]
def wState137 : State := { mod (shareLan 0) part0 with routers := [(0, { ports := [(1, { sched := true })] })] }
def wState138 : State := mod (shareLan 0) { part0 with reqs := [{ req0 with shares := [{ lantern := 0, desc := 100, lines := 0, pages := [], of := ⟨0, 0, 1, 0, 0⟩ }] }] }
def wState139 : State := { mod lan part0 with sec := { routesLocked := true } }
def wListWord140 : List Word := [0xC000000000000000]
def wFin4141 : Fin 4 := (0 : Fin 4)
def wState142 : State := { mod lan part0 with routers := [(0, { ports := [], permit := [(0, 31)] })] }
def wFlit143 : Flit := (flit 0 15 9)
def wState144 : State := { mod lan part0 with routers := [(0, { ports := [(2, { bufs := [(0, [{ flit 0 15 9 with tag := 5 }])] })], permit := [(0, 31)] })] }
def wFlit145 : Flit := { flit 0 15 9 with tag := 5 }
def wState146 : State := { mod lan part0 with routers := [(0, { ports := [(0, { bufs := [(0, [{ flit 0 15 9 with dst := 1 }])] }), (2, { out := { link := [(0, { up := false }), (1, { up := false })] } })], permit := [(0, 31)] })] }
def wFlit147 : Flit := { flit 0 15 9 with dst := 1 }
def wState148 : State := { mod lan part0 with routers := [(0, { ports := [(2, { out := { link := [(0, { up := false }), (1, { up := false })] } })], permit := [(0, 31)] })] }
def wState149 : State := { mod lan part0 with routers := [(0, { ports := [(2, { bufs := [(0, [flit 0 15 9])] })], permit := [(0, 31)] })] }
def wState150 : State := { mod lan part0 with routers := [(0, { ports := [(0, { sched := true, orders := [(0, { entries := [(0, 0x1000800000000000)], endi := 1 })] }), (2, { bufs := [(8, [{ flit 0 15 9 with sched := true }])] })], permit := [(0, 31)] })] }
def wFlit151 : Flit := { flit 0 15 9 with sched := true }
def wState152 : State := { mod lan part0 with routers := [(0, { ports := [(0, { sched := true, orders := [(0, { entries := [(0, 0x1000800000000000)], endi := 1 })] })], permit := [(0, 31)] })] }
def wState153 : State := mod { lan with weirHeld := [(7, flit 0 15 9)] } part0
def wState154 : State := { mod lan part0 with now := 90000, tiles := [(39, { weirHeld := [{ flit 0 15 9 with tag := 3 }, flit 0 15 9], weirLast := [(0, 5)] })] }
def wState155 : State := { mod lan part0 with routers := [(0, { ports := [(0, { sched := true, orders := [(0, { entries := [(0, 0x4000000000000003)], endi := 1 })] })], permit := [(0, 31)] })] }
def wState156 : State := { mod lan part0 with routers := [(0, { ports := [(0, { sched := true, switchAt := some 4, orders := [(0, { entries := [(0, 0x4000000000000003)], endi := 1 })] })], permit := [(0, 31)] })] }
def wState157 : State := { mod lan part0 with routers := [(0, { ports := [(2, { out := { link := [(1, { fails := some (9, 2) })] } })], permit := [(0, 31)] })] }
def wState158 : State := { mod lan part0 with routers := [(0, { ports := [(2, { out := { link := [(0, { up := false }), (1, { misses := [1, 1, 1, 1, 1, 1, 1, 1, 1, 1, 1, 1, 1, 1, 1] })] } })], permit := [(0, 31)] })] }
def wState159 : State := { mod lan part0 with routers := [(0, { ports := [(2, { out := { link := [(1, { up := false })] } })], permit := [(0, 31)] })] }
def wLaneResult160 : LaneResult := ⟨[], 1⟩
def wState161 : State := { mod lan part0 with routers := [(3, { ports := [(2, { out := { link := [(1, { up := false })] } })] })] }
def wLaneResult162 : LaneResult := ⟨[], 2⟩
def wFlit163 : Flit := (flit 4 0 (lineWith [(0, 77), (16, 3), (18, 0)]))
def wState164 : State := rimMod 23 (flit 4 0 (lineWith [(0, 77), (16, 3), (18, 0)])) req0
def wFlit165 : Flit := (flit 4 0 (lineWith [(0, 77), (16, 3), (18, 64)]))
def wState166 : State := rimMod 23 (flit 4 0 (lineWith [(0, 77), (16, 3), (18, 64)])) req0
def wFlit167 : Flit := (flit 4 1 (lineWith [(0, 3), (2, 8), (3, 2), (8, 90)]))
def wState168 : State := rimMod 23 (flit 4 1 (lineWith [(0, 3), (2, 8), (3, 2), (8, 90)])) req0
def wState169 : State := rimMod 18 (flit 4 0 (lineWith [(0, 77), (16, 3), (18, 0)])) req0
def wFlit170 : Flit := (flit 4 14 9)
def wState171 : State := { rimMod 32 (flit 4 14 9) req0 with zen := [(0, { owner := [(14, 1)] })] }
def wState172 : State := rimMod 32 (flit 4 14 9) req0
def wFlit173 : Flit := (flit 4 2 9)
def wState174 : State := rimMod 23 (flit 4 2 9) req0
def wState175 : State := rimMod 39 (flit 4 2 9) req0
def wZGroup176 : ZGroup := ⟨false, 6, 5, [(3, flit 4 0 9)], true, 1, 0⟩
def wState177 : State := zenMod { up := true, expect := 6, gseq := 6, kept := [{ gseq := 5, flits := [], times := 7, sentAt := 4, head := 0, check := 0 }], owner := [(3, 1)] }
def wZGroup178 : ZGroup := ⟨false, 7, 5, [(3, flit 4 0 9)], true, 1, 0⟩
def wState179 : State := zenMod {}
def wState180 : State := { zenMod { up := true, kept := [{ gseq := 5, flits := [], times := 7, sentAt := 4, head := 0, check := 0 }] } with now := 0x8000000000000000 }
def wState181 : State := zenMod { up := true }
def wState182 : State := zenMod { up := true, owner := [(3, 1)], kept := [{ gseq := 5, flits := [], times := 8, sentAt := 4, head := 0, check := 0 }] }
def wState183 : State := { zenMod { up := true } with ring := { size := 4 } }
def wState184 : State := { zenMod {} with boot := { rails := true } }
def wState185 : State := { zenMod { up := true } with ring := { forming := some 5 } }
def wState186 : State := { zenMod { up := true } with ring := { index := 5 } }
def wState187 : State := { zenMod { up := true } with now := 10000005, ring := { forming := some 5 } }
def wState188 : State := { zenMod { up := true } with now := 10000005, ring := { taken := some 5 } }
def wState189 : State := { slotMod { lan with closed := 1, tempNext := some 400 } { part0 with prog := some prog0, boundAt := 5, stepTime := 1000, shareNext := some 50, monNext := some {}, driftNext := some false } with now := 2000 }
def wPartition190 : Partition := (getPart wState189 0).getD part0
def wState191 : State := slotMod lan { part0 with prog := some prog0, boundAt := 5, stepTime := 1000, shareNext := some 50, monNext := some {}, driftNext := some false }
def wPartition192 : Partition := (getPart wState191 0).getD part0
def wState193 : State := slotMod lan { part0 with bound := 1 }
def wPartition194 : Partition := (getPart wState193 0).getD part0
def wState195 : State := slotMod lan part0
def wPartition196 : Partition := (getPart wState195 0).getD part0
def wState197 : State := { slotMod lan { part0 with prog := some prog0, boundAt := 5, stepTime := 1000, shareNext := some 50, monNext := some {}, driftNext := some false } with now := 2000000 }
def wPartition198 : Partition := (getPart wState197 0).getD part0
def wState199 : State := slotMod { lan with held := some (.nop 0 ⟨0⟩, 0x0F, 0) } { part0 with running := false }
def wPartition200 : Partition := (getPart wState199 0).getD part0
def wState201 : State := slotMod lan { part0 with newFaults := [rec0] }
def wPartition202 : Partition := (getPart wState201 0).getD part0
def wState203 : State := slotMod lan ({ part0 with state := .faulted, running := false, handling := some rec0 })
def wPartition204 : Partition := (getPart wState203 0).getD part0
def wState205 : State := slotMod lan ({ part0 with state := .faulted, running := false, handling := some rec0, suspects := [1] })
def wPartition206 : Partition := (getPart wState205 0).getD part0
def wState207 : State := slotMod lan ({ part0 with state := .faulted, running := false, handling := some rec0, retested := true })
def wPartition208 : Partition := (getPart wState207 0).getD part0
def wState209 : State := slotMod { lan with crcBad := true } part0
def wState210 : State := { boot := { aUp := true, bUp := true } }
def wState211 : State := { sec := { rom := true } }
def wState212 : State := { boot := { aUp := true } }
def wState213 : State := { boot := { hold := true }, funcs := [(3, { latched := [⟨0, 1, 5⟩], resetPending := true })] }
def wState214 : State := { sec := { restarting := true, updating := true } }
def wTok215 : Tok := ⟨9, 0, false⟩
def wState216 : State := reqMod { req0 with state := .prefill }
def wPartition217 : Partition := (getPart wState216 0).getD part0
def wRequest218 : Request := (findReq wPartition217 7).getD req0
def wState219 : State := reqMod { req0 with state := .prefill, ends := [1, 9] }
def wPartition220 : Partition := (getPart wState219 0).getD part0
def wRequest221 : Request := (findReq wPartition220 7).getD req0
def wState222 : State := reqMod { req0 with gen := [4], spec := true, draftK := 2, written := 1, delivered := 1 }
def wPartition223 : Partition := (getPart wState222 0).getD part0
def wRequest224 : Request := (findReq wPartition223 7).getD req0
def wState225 : State := reqMod { req0 with state := .held, inPass := false }
def wPartition226 : Partition := (getPart wState225 0).getD part0
def wRequest227 : Request := (findReq wPartition226 7).getD req0
def wState228 : State := reqMod { req0 with state := .held, inPass := false, written := 64 }
def wPartition229 : Partition := (getPart wState228 0).getD part0
def wRequest230 : Request := (findReq wPartition229 7).getD req0
def wState231 : State := { reqMod { req0 with state := .ending, inPass := false, endStatus := 0x20 } with funcs := [(1, { en := true, qps := [(1, some qp0)] })] }
def wPartition232 : Partition := (getPart wState231 0).getD part0
def wRequest233 : Request := (findReq wPartition232 7).getD req0
def wState234 : State := reqMod req0
def wPartition235 : Partition := (getPart wState234 0).getD part0
def wRequest236 : Request := (findReq wPartition235 7).getD req0
def wState237 : State := reqMod { req0 with state := .ending, inPass := false, endStatus := 0x26, pauseTtl := 9, stage := .out [] [] }
def wPartition238 : Partition := (getPart wState237 0).getD part0
def wRequest239 : Request := (findReq wPartition238 7).getD req0
def wState240 : State := reqMod { req0 with state := .ending, inPass := false, endStatus := 0x26, pauseTtl := 9, stage := .out [(⟨0, 0, 1, 0⟩ : PageMove)] [] }
def wPartition241 : Partition := (getPart wState240 0).getD part0
def wRequest242 : Request := (findReq wPartition241 7).getD req0
def wState243 : State := reqMod { req0 with state := .prefill, resuming := true, inPass := false, stage := .back [] [] false }
def wPartition244 : Partition := (getPart wState243 0).getD part0
def wRequest245 : Request := (findReq wPartition244 7).getD req0
def wState246 : State := reqMod { req0 with state := .prefill, resuming := true, inPass := false, stage := .back [(⟨0, 0, 1, 0⟩ : PageMove)] [] false }
def wPartition247 : Partition := (getPart wState246 0).getD part0
def wRequest248 : Request := (findReq wPartition247 7).getD req0
def wState249 : State := reqMod { req0 with state := .prefill, resuming := true, inPass := false, stage := .back [] [] true }
def wPartition250 : Partition := (getPart wState249 0).getD part0
def wRequest251 : Request := (findReq wPartition250 7).getD req0
def wState252 : State := { reqMod req0 with now := 60, contexts := [ctx0] }
def wPartition253 : Partition := (getPart wState252 0).getD part0
def wRequest254 : Request := (findReq wPartition253 7).getD req0
def wState255 : State := { reqMod req0 with contexts := [ctx0] }
def wPartition256 : Partition := (getPart wState255 0).getD part0
def wRequest257 : Request := (findReq wPartition256 7).getD req0
def wState258 : State := { reqMod req0 with now := 2000, funcs := [(1, { en := true, qps := [(1, some { qp0 with int := { vector := 3, time := 2, first := some 0 } })] })] }
def wPartition259 : Partition := (getPart wState258 0).getD part0
def wRequest260 : Request := (findReq wPartition259 7).getD req0
def wState261 : State := { reqMod req0 with now := 2000, funcs := [(1, { en := true, ring := some { ring0 with int := { vector := 3, time := 2, first := some 0 } } })] }
def wPartition262 : Partition := (getPart wState261 0).getD part0
def wRequest263 : Request := (findReq wPartition262 7).getD req0
def wState264 : State := { reqMod req0 with funcs := [(1, { en := true, ring := some ring0 })] }
def wPartition265 : Partition := (getPart wState264 0).getD part0
def wRequest266 : Request := (findReq wPartition265 7).getD req0
def wState267 : State := progMod {}
def wChunkJob268 : ChunkJob := ((activeJobs wState267).find? (fun j => j.lantern == 0 && physOf (getL wState267 0) j.chunk.arr == some 0)).getD job0
def wState269 : State := { slotMod { lan with arrays := [(0, { programmed := true, cells := [(0, 1)] })] } part0 with erasing := [(0, 0)] }
def wState270 : State := { slotMod {} part0 with erasing := [(0, 0)] }
def wState271 : State := { slotMod lan { part0 with wset := { load := some load0 } } with now := 600000000000 }
def wPartition272 : Partition := (getPart wState271 0).getD part0
def wWeightLoad273 : WeightLoad := (wPartition272.wset.load).getD load0
def wState274 : State := slotMod lan { part0 with wset := { load := some load0 } }
def wPartition275 : Partition := (getPart wState274 0).getD part0
def wWeightLoad276 : WeightLoad := (wPartition275.wset.load).getD load0
def wState277 : State := slotMod { lan with banks := [(0, { on := true })], arrays := [(0, { touchQueued := true, touchRow := 16 })] } { part0 with idleTouch := true, prog := some { prog0 with ryile := true } }
def wPartition278 : Partition := (getPart wState277 0).getD part0
def wPartition279 : Partition := (getPart wState267 0).getD part0
def wState280 : State := { slotMod lan { part0 with idleSince := some 0, prog := some { prog0 with ryile := true } } with now := 10000000 }
def wPartition281 : Partition := (getPart wState280 0).getD part0
def wState282 : State := { slotMod lan { part0 with window10 := some (0, 3) } with waiting := [⟨⟨.a, 1⟩, 1, 0, 5, [], .refreshWindow 0⟩] }
def wPartition283 : Partition := (getPart wState282 0).getD part0
def wFin16284 : Fin 16 := (5 : Fin 16)
def wState285 : State := { mod lan part0 with boot := { downAt := some 0 } }
def wState286 : State := { mod lan part0 with boot := { pwrEn := true, rails := true, ready := true } }
def wState287 : State := { mod lan part0 with boot := { pwrEn := true } }
def wState288 : State := { mod { lan with arrays := [(0, { programmed := true, cells := [(0, 5)], drift := 40000 })] } part0 with boot := { downAt := some 0, rails := true } }
def wState289 : State := { mod lan part0 with boot := { again := true, pwrEn := true } }
def wState290 : State := { mod lan part0 with boot := { rails := true, pwrEn := true, vaon := true } }
def wState291 : State := { mod lan part0 with boot := { rails := true, pwrEn := true } }
def wState292 : State := { mod lan part0 with boot := { rails := true, pwrEn := true }, plant := { phasesOut := [(44, 1)] } }
def wState293 : State := { plant := { trip := true, alertDirect := true } }
def wFn294 : Fn := (⟨.a, 1⟩ : Fn)
def wState295 : State := { mod lan part0 with links := [(0, { released := true, perst := false, up := true })] }
def wState296 : State := { mod lan { part0 with reqs := [req0] } with funcs := [(1, { en := true, qps := [(1, some qp0)], ring := some ring0 })] }
def wState297 : State := { mod lan part0 with boot := { hold := true } }
def wState298 : State := { mod lan part0 with links := [(0, { released := true, perst := false, downAt := some 0, held := [.msix ⟨.a, 1⟩ 3] })] }
def wState299 : State := { mod lan part0 with now := 100000000, funcs := [(1, { en := true })], links := [(0, { released := true, perst := false, downAt := some 0, held := [.msix ⟨.a, 1⟩ 3] })] }
def wState300 : State := { mod lan part0 with links := [(0, { released := true, perst := false, failed := true })] }
def wState301 : State := { mod lan part0 with links := [(0, { released := true, perst := false })] }
def wState302 : State := { mod lan part0 with sec := { fw := true }, boot := { aUp := true, measured := true, rails := true } }
def wState303 : State := { slotMod lan part0 with boot := { rails := true } }
def wState304 : State := { slotMod lan part0 with now := 10000000000, plant := { stop := true, stopSince := some 0 } }
def wState305 : State := { slotMod lan { part0 with state := .draining, thermal := some 0, reqs := [req0] } with now := 100000000 }
def wPartition306 : Partition := (getPart wState305 0).getD part0
def wState307 : State := slotMod lan { part0 with hold := true, state := .loaded, wset := { status := .complete }, prog := some prog0 }
def wPartition308 : Partition := (getPart wState307 0).getD part0
def wState309 : State := { slotMod lan part0 with now := 10000000000, plant := { band := 3, bandSince := some 0 } }
def wState310 : State := { slotMod lan part0 with boot := { ready := true } }
def wState311 : State := { mod {} part0 with fields := [(0, { ramps := [⟨0, none, 0, false⟩] })] }
def wState312 : State := { mod {} part0 with now := 1000000, fields := [(0, { ramps := [⟨0, none, 0, true⟩] })] }
def wState313 : State := { mod lan part0 with fields := [(0, { ramping := some ⟨0, some 31, 0, true⟩ })] }
def wState314 : State := { lanterns := [(0, { running := true })], fields := [(0, { ramping := some ⟨0, none, 0, true⟩ })] }
def wState315 : State := { mod lan part0 with fields := [(0, { work := [0] })] }
def wState316 : State := { mod lan part0 with erasing := [(0, 3)], fields := [(0, { work := [0] })] }
def wState317 : State := { skew := [(0, 70), (1, -30)] }
def wState318 : State := { mod lan part0 with sec := {  }, boot := { rails := true } }
def wState319 : State := { mod lan part0 with sec := {  }, boot := {  } }
def wState320 : State := { mod lan part0 with sec := { rom := true }, boot := {  } }
def wState321 : State := { mod lan part0 with sec := { rom := true, retired := true }, boot := {  } }
def wState322 : State := { mod lan part0 with sec := { uds := true }, boot := {  } }
def wState323 : State := { mod lan part0 with sec := { uds := true, counters := [(0, 1)] }, boot := {  } }
def wState324 : State := { mod lan part0 with sec := { fw := true }, boot := {  } }
def wState325 : State := { mod lan part0 with sec := {  }, boot := { rails := true, pwrEn := true, vaon := true, measured := true, aUp := true } }
def wState326 : State := { mod lan part0 with sec := {  }, boot := { rails := true, pwrEn := true, vaon := true, measured := true, aUp := true }, cal := [(calKey 2 5, calR)] }
def wState327 : State := { mod lan part0 with sec := {  }, boot := { selfTest := true, measured := true, aUp := true } }
def wState328 : State := { mod lan part0 with sec := {  }, boot := { neighbour := true, measured := true, aUp := true }, sparesNext := 2 }
def wState329 : State := { mod lan part0 with sec := {  }, boot := { repairDone := true, measured := true, aUp := true } }
def wState330 : State := { mod { lan with on := false, arrays := [(255, { programmed := true, cells := [(0, 1)] })] } part0 with boot := { repairDone := true, measured := true, aUp := true } }
def wState331 : State := { mod { lan with on := true, arrays := [(255, { programmed := true, cells := [(0, 1)] })] } part0 with boot := { repairDone := true, measured := true, aUp := true } }
def wState332 : State := { mod lan part0 with sec := {  }, boot := { retention := true, measured := true, aUp := true } }
def wState333 : State := { mod lan part0 with sec := {  }, boot := { rails := true, pwrEn := true, vaon := true, measured := true, aUp := true, cisternDone := true, calDone := true, dormantDone := true } }
def wSpdmEp334 : SpdmEp := (.vf ⟨.a, 1⟩)
def wState335 : State := { mod lan part0 with sec := { fw := true, uds := true }, boot := { rails := true, pwrEn := true, vaon := true, measured := true, aUp := true }, links := [(0, { up := true })], mgmt := { addr := none } }
def wState336 : State := { mod lan part0 with sec := { fw := true, uds := true, error := true }, boot := { rails := true, pwrEn := true, vaon := true, measured := true, aUp := true }, links := [(0, { up := true })], mgmt := { addr := none } }
def wSpdmEp337 : SpdmEp := (.vf ⟨.a, 2⟩)
def wState338 : State := { mod lan part0 with sec := { fw := true, uds := true, sessions := [⟨7, .vf ⟨.a, 1⟩, false, 0⟩] }, boot := { rails := true, pwrEn := true, vaon := true, measured := true, aUp := true }, links := [(0, { up := true })], mgmt := { addr := none } }
def wState339 : State := { mod lan part0 with sec := { fw := true, uds := true, sessions := [⟨7, .vf ⟨.a, 1⟩, true, 0⟩] }, boot := { rails := true, pwrEn := true, vaon := true, measured := true, aUp := true }, links := [(0, { up := true })], mgmt := { addr := none } }
def wState340 : State := { mod lan part0 with sec := { fw := true, uds := true, retired := true }, boot := { rails := true, pwrEn := true, vaon := true, measured := true, aUp := true }, links := [(0, { up := true })], mgmt := { addr := none } }
def wState341 : State := { mgmt := { addr := some 6 } }
def wEntry342 : Entry := (ent 0 255 0 [(20, 3), (21, 1), (22, 255)] none)
def wState343 : State := cmdMod { mod lan part0 with sec := { updating := true } }
def wEntry344 : Entry := (ent 0 255 5124 [(20, 3), (22, 255)] (some img))
def wState345 : State := cmdMod (mod lan part0)
def wEntry346 : Entry := (ent 0 255 0 [(20, 1), (21, 1), (22, 255)] none)
def wState347 : State := (cmdMod { mod lan part0 with sec := { images := [(1, { staged := true })] } })
def wEntry348 : Entry := (ent 0 255 0 [(20, 2), (21, 1), (22, 255)] none)
def wState349 : State := (let s : State := (cmdMod { mod lan part0 with sec := { images := [(2, { staged := true })] } }); { s with boot := { s.boot with bUp := true } })
def wEntry350 : Entry := (ent 0 255 0 [(20, 3), (21, 1), (22, 18)] none)
def wState351 : State := (cmdMod { mod lan part0 with sec := { images := [(3, { staged := true })] } })
def wEntry352 : Entry := (ent 0 255 0 [(20, 3), (21, 1), (22, 0)] none)
def wEntry353 : Entry := (ent 0 255 0 [(20, 4), (21, 1), (22, 44)] none)
def wState354 : State := (cmdMod { mod lan part0 with sec := { images := [(4, { staged := true })] } })
def wEntry355 : Entry := (ent 0 255 0 [(20, 5), (21, 1), (22, 255)] none)
def wState356 : State := (cmdMod { mod lan { part0 with state := .loaded } with sec := { images := [(5, { staged := true })] } })
def wEntry357 : Entry := (ent 0 255 0 [(20, 1), (21, 2), (22, 255)] none)
def wState358 : State := (cmdMod { mod lan part0 with sec := { images := [(1, { staged := true, activated := [0] })] } })
def wEntry359 : Entry := (ent 0 255 0 [(20, 3), (21, 2), (22, 255)] none)
def wState360 : State := (cmdMod { mod lan part0 with sec := { images := [(3, { staged := true, activated := [0] })] } })
def wEntry361 : Entry := (ent 0 255 0 [(20, 3), (21, 3), (22, 255)] none)
def wState362 : State := (cmdMod { mod lan part0 with sec := { images := [(3, { staged := true, activated := [18] })] } })
def wState363 : State := (cmdMod { mod lan part0 with sec := { images := [(3, {  })] } })
def wEntry364 : Entry := (ent 0 0 0 [(20, 0)] none)
def wPartition365 : Partition := (getPart wState356 0).getD part0
def wEntry366 : Entry := (ent 0 0 0 [(20, 1)] none)
def wEntry367 : Entry := (ent 0 255 0 [(20, 3), (21, 0), (22, 255)] none)
def wState368 : State := cmdMod { mod lan part0 with sec := { plate := some (3, 4, [44]), updating := true } }
def wState369 : State := cmdMod { mod lan part0 with sec := { plate := some (3, 5, [44]), updating := true } }
def wState370 : State := (let s : State := cmdMod { mod lan part0 with sec := { pldmOnly := true } }; { s with mgmt := { addr := some 5 } })
def wEntry371 : Entry := (ent 1 0 0 [] none)
def wByte372 : Byte := (0x99 : Byte)
def wState373 : State := cmdMod { mod lan part0 with sec := { restarting := true } }
def wState374 : State := (vfTurn ((cmdP part0)))
def wByte375 : Byte := (1 : Byte)
def wEntry376 : Entry := (ent 1 3 0 [] none)
def wEntry377 : Entry := (ent 0 0 0 [] none)
def wState378 : State := (cmdP part0)
def wEntry379 : Entry := (ent 0 16 0 [] none)
def wEntry380 : Entry := (ent 0 3 0 [] none)
def wState381 : State := (cmdP { part0 with state := .faulted })
def wPartition382 : Partition := (getPart wState381 (partNo wEntry377)).getD part0
def wState383 : State := (vfTurn ((cmdP { part0 with state := .loaded })))
def wPartition384 : Partition := (getPart wState383 (partNo wEntry371)).getD part0
def wEntry385 : Entry := (ent 1 255 4096 [] none)
def wEntry386 : Entry := (ent 1 255 4096 [(20, 1)] none)
def wEntry387 : Entry := (ent 1 0 4096 [(20, 2)] none)
def wEntry388 : Entry := (ent 1 255 4096 [(20, 3)] none)
def wEntry389 : Entry := (ent 1 16 4096 [] none)
def wEntry390 : Entry := (ent 1 255 0 [(20, 5), (22, 15), (24, 4095), (26, 255), (27, 3), (28, 4), (32, 4096), (40, 8192)] none)
def wEntry391 : Entry := (ent 1 255 0 [(20, 1), (22, 15), (24, 4095), (26, 255), (27, 3), (28, 4), (32, 4096), (40, 8192)] none)
def wEntry392 : Entry := (ent 1 255 0 [(20, 1)] none)
def wEntry393 : Entry := (ent 1 255 0 [(20, 2)] none)
def wEntry394 : Entry := (ent 0 255 0 [] none)
def wEntry395 : Entry := (ent 0 255 0 [(20, 2)] none)
def wEntry396 : Entry := (ent 0 255 0 [(20, 3)] none)
def wEntry397 : Entry := (ent 0 255 4096 [(20, 0x4)] none)
def wListByte398 : (List Byte) := (itemBytes (fetched wEntry397 qpC wState378) wEntry397 (pf wEntry397 20 2) (pf wEntry397 22 2)).getD []
def wEntry399 : Entry := (ent 0 255 0 [(20, 0x4)] none)
def wListByte400 : (List Byte) := (itemBytes (fetched wEntry399 qpC wState378) wEntry399 (pf wEntry399 20 2) (pf wEntry399 22 2)).getD []
def wEntry401 : Entry := (ent 1 0 4096 [] none)
def wEntry402 : Entry := (ent 1 255 0 [(21, 255), (22, 16), (23, 5), (24, 4096), (32, 3), (34, 4)] none)
def wEntry403 : Entry := (ent 0 255 0 [(21, 7), (22, 1599), (24, 1), (25, 1)] none)
def wEntry404 : Entry := (ent 0 255 0 [(21, 7), (22, 0), (24, 1), (25, 1)] none)
def wEntry405 : Entry := (ent 0 255 0 [(20, 1), (21, 7), (22, 99), (24, 0x40), (25, 1)] none)
def wEntry406 : Entry := (ent 0 255 0 [(20, 2), (21, 7), (22, 39), (24, 0x60), (25, 1)] none)
def wEntry407 : Entry := (ent 0 0 0 [(20, 3), (21, 63), (24, 0x40), (25, 1)] none)
def wState408 : State := (cmdP { part0 with w := 10, h := 10 })
def wState409 : State := (cmdP { part0 with w := 10, h := 9 })
def wEntry410 : Entry := (ent 0 0 0 [(20, 0x12), (21, 2), (22, 1), (23, 2), (24, 1), (25, 16), (26, 8), (28, 0), (36, 4), (40, 10000), (44, 100)] none)
def wEntry411 : Entry := (ent 0 1 0 [(20, 0x12), (21, 2), (22, 1), (23, 2), (24, 1), (25, 16), (26, 8), (28, 0), (36, 4), (40, 10000), (44, 100)] none)
def wState412 : State := (cmdP { part0 with quiet := true, w := 10 })
def wState413 : State := (cmdP { part0 with share := 6001 })
def wState414 : State := (cmdP { part0 with state := .empty, w := 0 })
def wPartition415 : Partition := (getPart wState414 0).getD part0
def wState416 : State := (cmdMod (slotMod { lan with arrays := [(0, { programmed := true, cells := [(0, 1)] })] } { part0 with state := .loaded, prog := some prog0 }))
def wPartition417 : Partition := (getPart wState416 0).getD part0
def wEntry418 : Entry := (ent 0 0 0 [(24, 10000)] none)
def wPartition419 : Partition := (getPart wState378 0).getD part0
def wEntry420 : Entry := (ent 0 0 0 [(20, 1), (24, 4)] none)
def wEntry421 : Entry := (ent 0 0 0 [(20, 2), (24, 6100)] none)
def wState422 : State := (let s := cmdP part0; { s with parts := [(0, some part0), (1, some { part0 with fx0 := 5, vf := 2 })] })
def wPartition423 : Partition := (getPart wState422 0).getD part0
def wEntry424 : Entry := (ent 0 0 64 [] (some [1]))
def wState425 : State := (cmdP { part0 with state := .empty })
def wPartition426 : Partition := (getPart wState425 0).getD part0
def wState427 : State := (cmdP { part0 with state := .loaded, hold := true })
def wPartition428 : Partition := (getPart wState427 0).getD part0
def wState429 : State := (cmdP { part0 with state := .loaded })
def wPartition430 : Partition := (getPart wState429 0).getD part0
def wState431 : State := (cmdMod (slotMod {} { part0 with state := .loaded, prog := some prog0, wset := { status := .complete, plain := some 0 } }))
def wPartition432 : Partition := (getPart wState431 0).getD part0
def wState433 : State := (cmdMod (slotMod lan { part0 with state := .loaded, prog := some prog0, wset := { status := .complete, plain := some 0 } }))
def wPartition434 : Partition := (getPart wState433 0).getD part0
def wState435 : State := (cmdP { part0 with reqs := [req0] })
def wPartition436 : Partition := (getPart wState435 0).getD part0
def wEntry437 : Entry := (ent 0 0 0 [(20, 2)] none)
def wEntry438 : Entry := (ent 0 0 0 [(20, 3), (24, 9999)] none)
def wEntry439 : Entry := (ent 0 0 0 [(20, 13)] none)
def wEntry440 : Entry := (ent 0 0 0 [(20, 50)] none)
def wState441 : State := (cmdP { part0 with state := .loaded, prog := some { prog0 with ryile := true } })
def wPartition442 : Partition := (getPart wState441 0).getD part0
def wEntry443 : Entry := (ent 0 0 0 [(24, 60000)] none)
def wState444 : State := (cmdMod (slotMod lan { part0 with state := .loaded }))
def wPartition445 : Partition := (getPart wState444 0).getD part0
def wState446 : State := (cmdMod (slotMod {} { part0 with state := .loaded }))
def wPartition447 : Partition := (getPart wState446 0).getD part0
def wState448 : State := (cmdMod (slotMod { lan with arrays := [(0, { programmed := true, cells := [(0, 1)], samples := [[1, 1, 1, 1, 1, 1, 1, 1]] })] } part0))
def wPartition449 : Partition := (getPart wState448 0).getD part0
def wEntry450 : Entry := (ent 0 0 0 [(20, 3)] none)
def wState451 : State := (vfTurn ((cmdP { part0 with prog := some prog0, reqs := [req0] })))
def wEntry452 : Entry := (ent 1 0 264 [] (some (bytesWith 260 [(0, 9), (8, 4096), (16, 4), (18, 6), (19, 255), (24, 10), (28, 1), (40, 0x3F800000), (256, 5)])))
def wPartition453 : Partition := (getPart wState451 0).getD part0
def wProgram454 : Program := (wPartition453.prog).getD prog0
def wEntry455 : Entry := (ent 1 0 260 [] (some (bytesWith 260 [(0, 9), (8, 4096), (16, 1024), (18, 6), (19, 255), (24, 10), (28, 1), (40, 0x3F800000), (256, 5)])))
def wEntry456 : Entry := (ent 1 0 260 [] (some (bytesWith 260 [(0, 7), (8, 4096), (16, 4), (18, 6), (19, 255), (24, 10), (28, 1), (40, 0x3F800000), (256, 5)])))
def wEntry457 : Entry := (ent 1 0 260 [] (some (bytesWith 260 [(0, 9), (8, 4096), (16, 4), (18, 6), (19, 255), (24, 10), (28, 1), (40, 0x3F800000), (52, 5), (256, 5)])))
def wEntry458 : Entry := (ent 1 0 260 [] (some (bytesWith 260 [(0, 9), (8, 4096), (16, 4), (18, 6), (19, 255), (24, 10), (28, 1), (32, 8), (40, 0x3F800000), (256, 5)])))
def wState459 : State := (vfTurn ((let s := cmdP { part0 with prog := some prog0, reqs := [req0] }; { s with contexts := [{ ctx0 with layout := 1 }] })))
def wEntry460 : Entry := (ent 1 0 260 [] (some (bytesWith 260 [(0, 9), (8, 4096), (16, 4), (18, 6), (19, 255), (24, 10), (28, 1), (32, 8), (40, 0x3F800000), (56, 6), (256, 5)])))
def wPartition461 : Partition := (getPart wState459 0).getD part0
def wProgram462 : Program := (wPartition461.prog).getD prog0
def wState463 : State := (vfTurn ((let s := cmdP { part0 with prog := some prog0, reqs := [req0] }; { s with contexts := [ctx0] })))
def wPartition464 : Partition := (getPart wState463 0).getD part0
def wProgram465 : Program := (wPartition464.prog).getD prog0
def wState466 : State := (vfTurn ((cmdP { part0 with prog := some prog0, reqs := List.replicate 1024 req0 })))
def wEntry467 : Entry := (ent 1 0 260 [] (some (bytesWith 260 [(0, 9), (8, 4096), (16, 4), (18, 6), (19, 255), (24, 10), (28, 1), (40, 0x3F800000), (256, 5)])))
def wPartition468 : Partition := (getPart wState466 0).getD part0
def wProgram469 : Program := (wPartition468.prog).getD prog0
def wEntry470 : Entry := (ent 1 0 0 [(24, 7)] none)
def wRequest471 : Request := (findReq wPartition453 (BitVec.ofNat 64 (pf wEntry470 24 8))).getD req0
def wEntry472 : Entry := (ent 1 0 0 [(24, 8)] none)
def wState473 : State := (vfTurn ((cmdP { part0 with cistern := false })))
def wEntry474 : Entry := (ent 1 0 0 [(24, 7), (32, 86400)] none)
def wPartition475 : Partition := (getPart wState473 0).getD part0
def wRequest476 : Request := (findReq wPartition453 (BitVec.ofNat 64 (pf wEntry474 24 8))).getD req0
def wEntry477 : Entry := (ent 1 0 0 [(24, 8), (32, 86400)] none)
def wState478 : State := (vfTurn ((cmdP { part0 with adapters := [(3, some ⟨9, 1, true, 0, 0⟩)] })))
def wEntry479 : Entry := (ent 1 0 0 [(20, 9)] none)
def wPartition480 : Partition := (getPart wState478 0).getD part0
def wEntry481 : Entry := (ent 1 0 0 [(20, 8)] none)
def wState482 : State := (vfTurn ((let s := cmdP { part0 with wset := { key := some 5, plain := some 0 } }; { s with contexts := [{ ctx0 with shares := [⟨0, 0, 1, 0, 1⟩] }] })))
def wEntry483 : Entry := (ent 1 0 500 [(20, 1), (24, 6)] none)
def wPartition484 : Partition := (getPart wState482 0).getD part0
def wContext485 : Context := (liveCtx wState482 0 (BitVec.ofNat 64 (pf wEntry483 24 8))).getD ctx0
def wState486 : State := (vfTurn ((let s := cmdP { part0 with wset := { key := some 5, plain := some 0 } }; { s with contexts := [ctx0] })))
def wPartition487 : Partition := (getPart wState486 0).getD part0
def wState488 : State := (vfTurn ((cmdP { part0 with wset := { key := some 5, plain := some 0 } })))
def wEntry489 : Entry := (ent 1 0 144 [(32, 9)] (some (bytesWith 16 [(0, 0x43575653), (4, 1)])))
def wPartition490 : Partition := (getPart wState488 0).getD part0
def wEntry491 : Entry := (ent 1 0 0 [(24, 6)] none)
def wContext492 : Context := (liveCtx wState463 0 (BitVec.ofNat 64 (pf wEntry491 24 8))).getD ctx0
def wEntry493 : Entry := (ent 1 0 0 [(24, 6), (32, 86400)] none)
def wContext494 : Context := (liveCtx wState463 0 (BitVec.ofNat 64 (pf wEntry493 24 8))).getD ctx0
def wEntry495 : Entry := (ent 1 0 1056 [(24, 4096), (32, 6535)] (some wo))
def wState496 : State := (vfTurn ((let s := cmdP ({ part0 with state := .loaded }); { s with sec := { s.sec with retired := true } })))
def wPartition497 : Partition := (getPart wState496 0).getD part0
def wPartition498 : Partition := (getPart wState383 0).getD part0
def wEntry499 : Entry := (ent 1 0 1716 [(20, 1)] (some [1]))
def wState500 : State := (vfTurn ((cmdP { part0 with state := .loaded, wset := { key := none, load := some load0 } })))
def wPartition501 : Partition := (getPart wState500 0).getD part0
def wWeightLoad502 : WeightLoad := (wPartition501.wset.load).getD load0
def wEntry503 : Entry := (ent 1 0 2992 [(20, 2), (24, 1), (30, 2), (36, 2976)] (some []))
def wState504 : State := (vfTurn ((cmdMod (slotMod lan { part0 with state := .loaded, wset := { key := some 5, load := some { load0 with applied := [(1, 0, 0)] } } }))))
def wPartition505 : Partition := (getPart wState504 0).getD part0
def wWeightLoad506 : WeightLoad := (wPartition505.wset.load).getD load0
def wState507 : State := (vfTurn ((cmdMod (slotMod lan { part0 with state := .loaded, wset := { key := some 5, load := some load0 } }))))
def wPartition508 : Partition := (getPart wState507 0).getD part0
def wWeightLoad509 : WeightLoad := (wPartition508.wset.load).getD load0
def wEntry510 : Entry := (ent 1 0 1048592 [(20, 2), (24, 1), (30, 1), (36, 1048576)] (some []))
def wEntry511 : Entry := (ent 1 0 1072 [(20, 9), (24, 2)] (some (bytesWith 64 [(0, 0x50575653), (12, 1)])))
def wEntry512 : Entry := (ent 0 255 0 [(20, 1)] none)
def wEntry513 : Entry := (ent 0 255 4851 [] (some (bytesWith 16 [(0, 0x44575653), (4, 1), (7, 1)])))
def wBitVec32514 : BitVec 32 := (5 : BitVec 32)
def wState515 : State := { mod lan part0 with funcs := [(1, { en := true, qps := [(1, some qp0)], ring := some ring0 })] }
def wBitVec32516 : BitVec 32 := (16 : BitVec 32)
def wState517 : State := { mod lan part0 with funcs := [(1, { en := true, qps := [(1, some { qp0 with cqTail := 7 })] })] }
def wState518 : State := reqMod { req0 with written := 8 }
def wPartition519 : Partition := (getPart wState518 0).getD part0
def wBitVec32520 : BitVec 32 := (9 : BitVec 32)
def wFn521 : Fn := (⟨.a, 2⟩ : Fn)
def wState522 : State := { mod lan part0 with funcs := [(1, { en := true, ring := some { ring0 with k := 8 } })] }
def wState523 : State := { mod lan part0 with funcs := [(1, { q0Size := 0xF000F })] }
def wState524 : State := { mod lan part0 with funcs := [(1, { q0Size := 0xF0000 })] }
def wState525 : State := { mod lan part0 with funcs := [(1, { en := true, qps := [(0, some qp0)] })] }
def wFn526 : Fn := (⟨.a, 0⟩ : Fn)
def wState527 : State := { mod lan part0 with funcs := [(0, { alert := 7 })] }
def wPartition528 : Partition := (getPart wState527 0).getD part0
def wPartition529 : Partition := (getPart wState23 0).getD part0
def wBitVec32530 : BitVec 32 := (0x80829005 : BitVec 32)
def wBitVec32531 : BitVec 32 := (0x80000005 : BitVec 32)
def wBitVec32532 : BitVec 32 := (0x80FF0000 : BitVec 32)
def wBitVec32533 : BitVec 32 := (0x80FF0063 : BitVec 32)
def wBitVec32534 : BitVec 32 := (0x80000000 : BitVec 32)
def wBitVec32535 : BitVec 32 := (0x80000003 : BitVec 32)
def wState536 : State := { mod lan part0 with zen := [(0, { owner := [(0, 2)] })] }
def wPartition537 : Partition := (getPart wState536 0).getD part0
def wBitVec32538 : BitVec 32 := (0x0000A000 : BitVec 32)
def wState539 : State := (mod lan { part0 with debug := true })
def wPartition540 : Partition := (getPart wState539 0).getD part0
def wBitVec32541 : BitVec 32 := (0x0000A800 : BitVec 32)
def wBitVec32542 : BitVec 32 := (0x0000B000 : BitVec 32)

/-! ## Hypotheses of each clause of the statements -/

/-- Hypotheses of Obligations.StepTakesFront. -/
theorem test_witness_StepTakesFront : wState1.pending = Instr.rstdaa :: wListInstr0 := by decide +kernel

/-- Hypotheses of Obligations.IdleStep. -/
theorem test_witness_IdleStep : (wState2.pending = [] ∧ wState2.boot.vaon = false) ∧ (wState3.pending = [] ∧ wState3.boot.vaon = true) := by decide +kernel

/-- Hypotheses of the clauses of Obligations.QueueTimeAndFuses. -/
theorem test_witness_QueueTimeAndFuses :
    ((wState4.sec.retired = true) ∧ exec Instr.vaonGood wState4 = .next wState5)
    ∧ (exec Instr.vaonGood wState4 = .next wState5) :=
  ⟨⟨by decide +kernel, rfl⟩,
    rfl⟩

/-- Hypotheses of Obligations.MemoryWrites. -/
theorem test_witness_MemoryWrites : (Memory.wf wState6 = true ∧ (0 ≠ 0 ∨ 3 ≠ 65535)) ∧ (Memory.wf wState6 = true) := by decide +kernel

/-- Hypotheses of the clauses of Obligations.ScalarArithmetic. -/
theorem test_witness_ScalarArithmetic :
    ((getL wState8 0).pc ≠ 8191 ∧ 1 ≠ 0 ∧ 2 ≠ 1)
    ∧ (((getL wState8 0).pc ≠ 8191) ∧ Takes 0 (.add 0 wFmtS7) wState8 ∧ Takes 0 (.sub 0 wFmtS7) wState8 ∧ Takes 0 (.and 0 wFmtS7) wState8 ∧ Takes 0 (.or 0 wFmtS7) wState8 ∧ Takes 0 (.xor 0 wFmtS7) wState8 ∧ Takes 0 (.shl 0 wFmtS7) wState8 ∧ Takes 0 (.shr 0 wFmtS7) wState8 ∧ Takes 0 (.sar 0 wFmtS7) wState8 ∧ Takes 0 (.mul 0 wFmtS7) wState8 ∧ Takes 0 (.slt 0 wFmtS7) wState8 ∧ Takes 0 (.sltu 0 wFmtS7) wState8) :=
  ⟨by decide +kernel,
    ⟨by decide +kernel, takes_of (by decide +kernel), takes_of (by decide +kernel), takes_of (by decide +kernel), takes_of (by decide +kernel), takes_of (by decide +kernel), takes_of (by decide +kernel), takes_of (by decide +kernel), takes_of (by decide +kernel), takes_of (by decide +kernel), takes_of (by decide +kernel), takes_of (by decide +kernel)⟩⟩

/-- Hypotheses of the clauses of Obligations.ScalarImmediate. -/
theorem test_witness_ScalarImmediate :
    ((getL wState8 0).pc ≠ 8191 ∧ 7 < wFmtS12.imm.toNat)
    ∧ (((getL wState8 0).pc ≠ 8191) ∧ Takes 0 (.addi 0 wFmtS9) wState8)
    ∧ (((getL wState8 0).pc ≠ 8191) ∧ Takes 0 (.lih 0 wFmtS10) wState8)
    ∧ (((getL wState8 0).pc ≠ 8191 ∧ partOf wState8 0 = some 0 ∧ getPart wState8 0 = some part0) ∧ Takes 0 (.rds 0 wFmtS11) wState8) :=
  ⟨by decide +kernel,
    ⟨by decide +kernel, takes_of (by decide +kernel)⟩,
    ⟨by decide +kernel, takes_of (by decide +kernel)⟩,
    ⟨by decide +kernel, takes_of (by decide +kernel)⟩⟩

/-- Hypotheses of the clauses of Obligations.ScalarMemory. -/
theorem test_witness_ScalarMemory :
    (((getL wState14 0).pc ≠ 8191 ∧ rangeOk (getL wState14 0) ((getReg (getL wState14 0) wFmtS13.sa + wFmtS13.imm.signExtend 64).toNat) 1 = true ∧ (padAt (getL wState14 0) ((getReg (getL wState14 0) wFmtS13.sa + wFmtS13.imm.signExtend 64).toNat)).full = true ∧ (padAt (getL wState14 0) ((getReg (getL wState14 0) wFmtS13.sa + wFmtS13.imm.signExtend 64).toNat)).poison = false ∧ (padAt (getL wState14 0) ((getReg (getL wState14 0) wFmtS13.sa + wFmtS13.imm.signExtend 64).toNat)).parBad = false) ∧ Takes 0 (.sld 0 wFmtS13) wState14)
    ∧ (((getL wState16 0).pc ≠ 8191 ∧ rangeOk (getL wState16 0) ((getReg (getL wState16 0) wFmtS15.sa + wFmtS15.imm.signExtend 64).toNat) 1 = true ∧ (padAt (getL wState16 0) ((getReg (getL wState16 0) wFmtS15.sa + wFmtS15.imm.signExtend 64).toNat)).full = false) ∧ Takes 0 (.sst 0 wFmtS15) wState16) :=
  ⟨⟨by decide +kernel, takes_of (by decide +kernel)⟩,
    ⟨by decide +kernel, takes_of (by decide +kernel)⟩⟩

/-- Hypotheses of the clauses of Obligations.Branches. -/
theorem test_witness_Branches :
    (((((getReg (getL wState8 0) wFmtJ17.sa) = (getReg (getL wState8 0) wFmtJ17.sb) ∨ (getL wState8 0).pc ≠ 8191))) ∧ Takes 0 (.beq 0 wFmtJ17) wState8)
    ∧ (((((getReg (getL wState8 0) wFmtJ18.sa) ≠ (getReg (getL wState8 0) wFmtJ18.sb) ∨ (getL wState8 0).pc ≠ 8191)) ∧ (((getReg (getL wState8 0) wFmtJ18.sa).toInt < (getReg (getL wState8 0) wFmtJ18.sb).toInt ∨ (getL wState8 0).pc ≠ 8191)) ∧ (((getReg (getL wState8 0) wFmtJ18.sb).toInt ≤ (getReg (getL wState8 0) wFmtJ18.sa).toInt ∨ (getL wState8 0).pc ≠ 8191))) ∧ Takes 0 (.bne 0 wFmtJ18) wState8 ∧ Takes 0 (.blt 0 wFmtJ18) wState8 ∧ Takes 0 (.bge 0 wFmtJ18) wState8)
    ∧ (Takes 0 (.jmp 0 wFmtJ19) wState8)
    ∧ (((getReg (getL wState8 0) wFmtJ20.sa).toNat ≤ 8191) ∧ Takes 0 (.jr 0 wFmtJ20) wState8)
    ∧ ((8191 < (getReg (getL wState8 0) wFmtJ21.sa).toNat ∧ (partOf wState8 0).isSome = true) ∧ Takes 0 (.jr 0 wFmtJ21) wState8) :=
  ⟨⟨by decide +kernel, takes_of (by decide +kernel)⟩,
    ⟨by decide +kernel, takes_of (by decide +kernel), takes_of (by decide +kernel), takes_of (by decide +kernel)⟩,
    takes_of (by decide +kernel),
    ⟨by decide +kernel, takes_of (by decide +kernel)⟩,
    ⟨by decide +kernel, takes_of (by decide +kernel)⟩⟩

/-- Hypotheses of the clauses of Obligations.SequencerControl. -/
theorem test_witness_SequencerControl :
    (((getL wState23 0).pc ≠ 8191) ∧ Takes 0 (.nop 0 wFmtC22) wState23)
    ∧ (((getL wState23 0).pc ≠ 8191 ∧ ((∀ e, e < 7 → wFmtC24.imm.getLsbD e = true → engineIdle (getL wState23 0) e = true))) ∧ Takes 0 (.fence 0 wFmtC24) wState23)
    ∧ (((∃ e, e < 7 ∧ wFmtC25.imm.getLsbD e = true ∧ engineIdle (getL wState26 0) e = false)) ∧ Takes 0 (.fence 0 wFmtC25) wState26)
    ∧ (((getL wState23 0).pc ≠ 8191 ∧ partOf wState23 0 = some 0 ∧ getPart wState23 0 = some part0 ∧ (getL wState23 0).closed ≤ (getL wState23 0).step ∧ allIdle (getL wState23 0) = true ∧ declaredSum wState23 0 ((getL wState23 0).step + 1) + wFmtC27.imm.toNat ≤ part0.allowance ∧ (getL wState23 0).step + 1 < part0.window + (getL wState23 0).seen) ∧ Takes 0 (.step 0 wFmtC27) wState23)
    ∧ (((partOf wState23 0).isSome = true) ∧ Takes 0 (.trapi 0 wFmtC28) wState23) :=
  ⟨⟨by decide +kernel, takes_of (by decide +kernel)⟩,
    ⟨by decide +kernel, takes_of (by decide +kernel)⟩,
    ⟨by decide +kernel, takes_of (by decide +kernel)⟩,
    ⟨by decide +kernel, takes_of (by decide +kernel)⟩,
    ⟨by decide +kernel, takes_of (by decide +kernel)⟩⟩

/-- Hypotheses of the clauses of Obligations.WhereIssueStops. -/
theorem test_witness_WhereIssueStops :
    ((0 < 1600 ∧ (canIssue (getL wState29 0) = false ∨ wFmtS7.imm ≠ 0)) ∧ (0 < 1600 ∧ canIssue (getL wState30 0) = true ∧ wFmtS7.imm = 0 ∧ (tget {} (getL wState30 0).store (getL wState30 0).pc).parBad = true) ∧ (0 < 1600 ∧ canIssue (getL wState31 0) = true ∧ wFmtS7.imm = 0 ∧ (tget {} (getL wState31 0).store (getL wState31 0).pc).parBad = false ∧ ((wFmtS7.sd ∈ (getL wState31 0).pending ∨ wFmtS7.sa ∈ (getL wState31 0).pending ∨ wFmtS7.sb ∈ (getL wState31 0).pending))))
    ∧ ((0 < 1600 ∧ (getL wState32 0).pc = 8191) ∧ Takes 0 (.add 0 wFmtS7) wState32) :=
  ⟨by decide +kernel,
    ⟨by decide +kernel, takes_of (by decide +kernel)⟩⟩

/-- Hypotheses of the clauses of Obligations.AccumulatorPort. -/
theorem test_witness_AccumulatorPort :
    ((wFmtK33.acc.toNat + (wFmtK33.nb.toNat + 1) ≤ 512 ∧ accWaits (getL wState34 0) (getL wState34 0).issued wFmtK33.acc.toNat (wFmtK33.nb.toNat + 1) true = false) ∧ Runs 0 1 (.aclr 0 wFmtK33) wState34)
    ∧ ((wFmtK35.acc.toNat + (wFmtK35.nb.toNat + 1) ≤ 512 ∧ accWaits (getL wState34 0) (getL wState34 0).issued wFmtK35.acc.toNat (wFmtK35.nb.toNat + 1) true = false ∧ rangeOk (getL wState34 0) wFmtK35.line.toNat (linesFor (32 * (wFmtK35.nb.toNat + 1)) (lineElems wFmtK35.typ.toNat)) = true ∧ freeLines (getL wState34 0) wFmtK35.line.toNat ((readoutLines wFmtK35.typ.toNat (readBlocks (getL wState34 0).acc wFmtK35.acc.toNat (wFmtK35.nb.toNat + 1))).map (·.1)).length) ∧ Runs 0 1 (.ard 0 wFmtK35) wState34) :=
  ⟨⟨by decide +kernel, runs_of (by decide +kernel)⟩,
    ⟨by decide +kernel, runs_of (by decide +kernel)⟩⟩

/-- Hypotheses of the clauses of Obligations.AccumulatorMoves. -/
theorem test_witness_AccumulatorMoves :
    ((wFmtK36.acc.toNat + (wFmtK36.nb.toNat + 1) ≤ 512 ∧ accWaits (getL wState37 0) (getL wState37 0).issued wFmtK36.acc.toNat (wFmtK36.nb.toNat + 1) true = false ∧ slDestOk wState37 0 wFmtK36.ent.toNat = true ∧ (accxFlits 0 (getSl (getL wState37 0) wFmtK36.ent.toNat).num (getL wState37 0).acc wFmtK36.acc.toNat (wFmtK36.nb.toNat + 1)).length ≤ creditsLeft wState37 0 wFmtK36.ent.toNat ∧ (getSl (getL wState37 0) wFmtK36.ent.toNat).poisonNext = false) ∧ Runs 0 1 (.aexp 0 wFmtK36) wState37)
    ∧ ((wFmtK38.acc.toNat + (wFmtK38.nb.toNat + 1) ≤ 512 ∧ (importBlocks (getLane (getL wState39 0) wFmtK38.ent.toNat).buf wFmtK38.acc.toNat (wFmtK38.nb.toNat + 1) (getL wState39 0).acc).isSome = true ∧ ((∀ i, i < (wFmtK38.nb.toNat + 1) → accWaits (getL wState39 0) (getL wState39 0).issued (wFmtK38.acc.toNat + i) 1 false = false))) ∧ Runs 0 1 (.aimp 0 wFmtK38) wState39) :=
  ⟨⟨by decide +kernel, runs_of (by decide +kernel)⟩,
    ⟨by decide +kernel, runs_of (by decide +kernel)⟩⟩

/-- Hypotheses of Obligations.WideDots. -/
theorem test_witness_WideDots_0 : ((getReg (getL wState41 0) wFmtL40.sc).toNat % 2 ^ 48 < 2 ^ 43 ∧ 1 ≤ ((getReg (getL wState41 0) wFmtL40.sc).toNat % 2 ^ 32) ∧ ((getReg (getL wState41 0) wFmtL40.sc).toNat % 2 ^ 32) ≤ 65536 ∧ rangeOk (getL wState41 0) (wFmtL40.b.toNat + (getReg (getL wState41 0) wFmtL40.sc).toNat / 2 ^ 48) (((getReg (getL wState41 0) wFmtL40.sc).toNat / 2 ^ 32 % 2 ^ 7 + 1) * (linesFor ((getReg (getL wState41 0) wFmtL40.sc).toNat % 2 ^ 32) (lineElems ((getReg (getL wState41 0) wFmtL40.sc).toNat / 2 ^ 39 % 2 ^ 4)))) = true ∧ soundLines (getL wState41 0) (wFmtL40.b.toNat + (getReg (getL wState41 0) wFmtL40.sc).toNat / 2 ^ 48) (((getReg (getL wState41 0) wFmtL40.sc).toNat / 2 ^ 32 % 2 ^ 7 + 1) * (linesFor ((getReg (getL wState41 0) wFmtL40.sc).toNat % 2 ^ 32) (lineElems ((getReg (getL wState41 0) wFmtL40.sc).toNat / 2 ^ 39 % 2 ^ 4)))) ∧ hazard wState41 0 (wFmtL40.b.toNat + (getReg (getL wState41 0) wFmtL40.sc).toNat / 2 ^ 48) (((getReg (getL wState41 0) wFmtL40.sc).toNat / 2 ^ 32 % 2 ^ 7 + 1) * (linesFor ((getReg (getL wState41 0) wFmtL40.sc).toNat % 2 ^ 32) (lineElems ((getReg (getL wState41 0) wFmtL40.sc).toNat / 2 ^ 39 % 2 ^ 4)))) ((getReg (getL wState41 0) wFmtL40.sc).toNat / 2 ^ 39 % 2 ^ 4) = none ∧ ((getReg (getL wState41 0) wFmtL40.sc).toNat / 2 ^ 39 % 2 ^ 4) ≤ 2 ∧ ((getReg (getL wState41 0) wFmtL40.sc).toNat / 2 ^ 32 % 2 ^ 7 + 1) ≤ 64 ∧ wFmtL40.d.toNat + blocksFor ((getReg (getL wState41 0) wFmtL40.sc).toNat / 2 ^ 32 % 2 ^ 7 + 1) ≤ 512 ∧ accWaits (getL wState41 0) (getL wState41 0).issued wFmtL40.d.toNat (blocksFor ((getReg (getL wState41 0) wFmtL40.sc).toNat / 2 ^ 32 % 2 ^ 7 + 1)) (wFmtL40.f.getLsbD 0) = false ∧ rangeOk (getL wState41 0) (wFmtL40.a.toNat + (getReg (getL wState41 0) wFmtL40.sc).toNat / 2 ^ 48) (linesFor ((getReg (getL wState41 0) wFmtL40.sc).toNat % 2 ^ 32) (lineElems ((getReg (getL wState41 0) wFmtL40.sc).toNat / 2 ^ 39 % 2 ^ 4))) = true ∧ soundLines (getL wState41 0) (wFmtL40.a.toNat + (getReg (getL wState41 0) wFmtL40.sc).toNat / 2 ^ 48) (linesFor ((getReg (getL wState41 0) wFmtL40.sc).toNat % 2 ^ 32) (lineElems ((getReg (getL wState41 0) wFmtL40.sc).toNat / 2 ^ 39 % 2 ^ 4))) ∧ hazard wState41 0 (wFmtL40.a.toNat + (getReg (getL wState41 0) wFmtL40.sc).toNat / 2 ^ 48) (linesFor ((getReg (getL wState41 0) wFmtL40.sc).toNat % 2 ^ 32) (lineElems ((getReg (getL wState41 0) wFmtL40.sc).toNat / 2 ^ 39 % 2 ^ 4))) ((getReg (getL wState41 0) wFmtL40.sc).toNat / 2 ^ 39 % 2 ^ 4) = none ∧ (placeList ((List.range ((getReg (getL wState41 0) wFmtL40.sc).toNat / 2 ^ 32 % 2 ^ 7 + 1)).flatMap (fun o => intDot ((getReg (getL wState41 0) wFmtL40.sc).toNat / 2 ^ 39 % 2 ^ 4) ((getReg (getL wState41 0) wFmtL40.sc).toNat % 2 ^ 32) (linesAt (getL wState41 0) (wFmtL40.a.toNat + (getReg (getL wState41 0) wFmtL40.sc).toNat / 2 ^ 48) (linesFor ((getReg (getL wState41 0) wFmtL40.sc).toNat % 2 ^ 32) (lineElems ((getReg (getL wState41 0) wFmtL40.sc).toNat / 2 ^ 39 % 2 ^ 4)))) (((linesAt (getL wState41 0) (wFmtL40.b.toNat + (getReg (getL wState41 0) wFmtL40.sc).toNat / 2 ^ 48) (((getReg (getL wState41 0) wFmtL40.sc).toNat / 2 ^ 32 % 2 ^ 7 + 1) * (linesFor ((getReg (getL wState41 0) wFmtL40.sc).toNat % 2 ^ 32) (lineElems ((getReg (getL wState41 0) wFmtL40.sc).toNat / 2 ^ 39 % 2 ^ 4))))).drop (o * (linesFor ((getReg (getL wState41 0) wFmtL40.sc).toNat % 2 ^ 32) (lineElems ((getReg (getL wState41 0) wFmtL40.sc).toNat / 2 ^ 39 % 2 ^ 4))))).take (linesFor ((getReg (getL wState41 0) wFmtL40.sc).toNat % 2 ^ 32) (lineElems ((getReg (getL wState41 0) wFmtL40.sc).toNat / 2 ^ 39 % 2 ^ 4)))) wFmtL40.d.toNat o)) ⟨if wFmtL40.f.getLsbD 0 then clearBlocks (getL wState41 0).acc wFmtL40.d.toNat (blocksFor ((getReg (getL wState41 0) wFmtL40.sc).toNat / 2 ^ 32 % 2 ^ 7 + 1)) else (getL wState41 0).acc, 0, 0⟩).isSome = true) ∧ Runs 0 2 (.widot 0 wFmtL40) wState41 := ⟨by decide +kernel, runs_of (by decide +kernel)⟩

/-- Hypotheses of Obligations.WideDots. -/
theorem test_witness_WideDots_1 : ((getReg (getL wState43 0) wFmtL42.sc).toNat % 2 ^ 48 < 2 ^ 43 ∧ 1 ≤ ((getReg (getL wState43 0) wFmtL42.sc).toNat % 2 ^ 32) ∧ ((getReg (getL wState43 0) wFmtL42.sc).toNat % 2 ^ 32) ≤ 65536 ∧ rangeOk (getL wState43 0) (wFmtL42.b.toNat + (getReg (getL wState43 0) wFmtL42.sc).toNat / 2 ^ 48) (((getReg (getL wState43 0) wFmtL42.sc).toNat / 2 ^ 32 % 2 ^ 7 + 1) * (linesFor ((getReg (getL wState43 0) wFmtL42.sc).toNat % 2 ^ 32) (lineElems ((getReg (getL wState43 0) wFmtL42.sc).toNat / 2 ^ 39 % 2 ^ 4)))) = true ∧ soundLines (getL wState43 0) (wFmtL42.b.toNat + (getReg (getL wState43 0) wFmtL42.sc).toNat / 2 ^ 48) (((getReg (getL wState43 0) wFmtL42.sc).toNat / 2 ^ 32 % 2 ^ 7 + 1) * (linesFor ((getReg (getL wState43 0) wFmtL42.sc).toNat % 2 ^ 32) (lineElems ((getReg (getL wState43 0) wFmtL42.sc).toNat / 2 ^ 39 % 2 ^ 4)))) ∧ hazard wState43 0 (wFmtL42.b.toNat + (getReg (getL wState43 0) wFmtL42.sc).toNat / 2 ^ 48) (((getReg (getL wState43 0) wFmtL42.sc).toNat / 2 ^ 32 % 2 ^ 7 + 1) * (linesFor ((getReg (getL wState43 0) wFmtL42.sc).toNat % 2 ^ 32) (lineElems ((getReg (getL wState43 0) wFmtL42.sc).toNat / 2 ^ 39 % 2 ^ 4)))) ((getReg (getL wState43 0) wFmtL42.sc).toNat / 2 ^ 39 % 2 ^ 4) = none ∧ 4 ≤ ((getReg (getL wState43 0) wFmtL42.sc).toNat / 2 ^ 39 % 2 ^ 4) ∧ ((getReg (getL wState43 0) wFmtL42.sc).toNat / 2 ^ 39 % 2 ^ 4) ≤ 6 ∧ rangeOk (getL wState43 0) (wFmtL42.a.toNat + (getReg (getL wState43 0) wFmtL42.sc).toNat / 2 ^ 48) (linesFor ((getReg (getL wState43 0) wFmtL42.sc).toNat % 2 ^ 32) 34) = true ∧ soundLines (getL wState43 0) (wFmtL42.a.toNat + (getReg (getL wState43 0) wFmtL42.sc).toNat / 2 ^ 48) (linesFor ((getReg (getL wState43 0) wFmtL42.sc).toNat % 2 ^ 32) 34) ∧ hazard wState43 0 (wFmtL42.a.toNat + (getReg (getL wState43 0) wFmtL42.sc).toNat / 2 ^ 48) (linesFor ((getReg (getL wState43 0) wFmtL42.sc).toNat % 2 ^ 32) 34) 6 = none ∧ wFmtL42.f.getLsbD 1 = false ∧ wFmtL42.d.toNat + blocksFor ((getReg (getL wState43 0) wFmtL42.sc).toNat / 2 ^ 32 % 2 ^ 7 + 1) ≤ 512 ∧ accWaits (getL wState43 0) (getL wState43 0).issued wFmtL42.d.toNat (blocksFor ((getReg (getL wState43 0) wFmtL42.sc).toNat / 2 ^ 32 % 2 ^ 7 + 1)) (wFmtL42.f.getLsbD 0) = false ∧ (placeList ((((List.range ((getReg (getL wState43 0) wFmtL42.sc).toNat / 2 ^ 32 % 2 ^ 7 + 1)).map (fun o => floatDot ((getReg (getL wState43 0) wFmtL42.sc).toNat / 2 ^ 39 % 2 ^ 4) ((getReg (getL wState43 0) wFmtL42.sc).toNat % 2 ^ 32) (linesAt (getL wState43 0) (wFmtL42.a.toNat + (getReg (getL wState43 0) wFmtL42.sc).toNat / 2 ^ 48) (linesFor ((getReg (getL wState43 0) wFmtL42.sc).toNat % 2 ^ 32) 34)) (((linesAt (getL wState43 0) (wFmtL42.b.toNat + (getReg (getL wState43 0) wFmtL42.sc).toNat / 2 ^ 48) (((getReg (getL wState43 0) wFmtL42.sc).toNat / 2 ^ 32 % 2 ^ 7 + 1) * (linesFor ((getReg (getL wState43 0) wFmtL42.sc).toNat % 2 ^ 32) (lineElems ((getReg (getL wState43 0) wFmtL42.sc).toNat / 2 ^ 39 % 2 ^ 4))))).drop (o * (linesFor ((getReg (getL wState43 0) wFmtL42.sc).toNat % 2 ^ 32) (lineElems ((getReg (getL wState43 0) wFmtL42.sc).toNat / 2 ^ 39 % 2 ^ 4))))).take (linesFor ((getReg (getL wState43 0) wFmtL42.sc).toNat % 2 ^ 32) (lineElems ((getReg (getL wState43 0) wFmtL42.sc).toNat / 2 ^ 39 % 2 ^ 4)))))).zip (List.range ((getReg (getL wState43 0) wFmtL42.sc).toNat / 2 ^ 32 % 2 ^ 7 + 1))).map (fun (r, o) => contrOf32 (wFmtL42.d.toNat + o / 32) (o % 32) r.1 r.2)) ⟨if wFmtL42.f.getLsbD 0 then clearBlocks (getL wState43 0).acc wFmtL42.d.toNat (blocksFor ((getReg (getL wState43 0) wFmtL42.sc).toNat / 2 ^ 32 % 2 ^ 7 + 1)) else (getL wState43 0).acc, 0, 0⟩).isSome = true) ∧ Runs 0 2 (.wfdot 0 wFmtL42) wState43 := ⟨by decide +kernel, runs_of (by decide +kernel)⟩

/-- Hypotheses of Obligations.WideDots. -/
theorem test_witness_WideDots_2 : ((getReg (getL wState43 0) wFmtL44.sc).toNat % 2 ^ 48 < 2 ^ 43 ∧ 1 ≤ ((getReg (getL wState43 0) wFmtL44.sc).toNat % 2 ^ 32) ∧ ((getReg (getL wState43 0) wFmtL44.sc).toNat % 2 ^ 32) ≤ 65536 ∧ rangeOk (getL wState43 0) (wFmtL44.b.toNat + (getReg (getL wState43 0) wFmtL44.sc).toNat / 2 ^ 48) (((getReg (getL wState43 0) wFmtL44.sc).toNat / 2 ^ 32 % 2 ^ 7 + 1) * (linesFor ((getReg (getL wState43 0) wFmtL44.sc).toNat % 2 ^ 32) (lineElems ((getReg (getL wState43 0) wFmtL44.sc).toNat / 2 ^ 39 % 2 ^ 4)))) = true ∧ soundLines (getL wState43 0) (wFmtL44.b.toNat + (getReg (getL wState43 0) wFmtL44.sc).toNat / 2 ^ 48) (((getReg (getL wState43 0) wFmtL44.sc).toNat / 2 ^ 32 % 2 ^ 7 + 1) * (linesFor ((getReg (getL wState43 0) wFmtL44.sc).toNat % 2 ^ 32) (lineElems ((getReg (getL wState43 0) wFmtL44.sc).toNat / 2 ^ 39 % 2 ^ 4)))) ∧ hazard wState43 0 (wFmtL44.b.toNat + (getReg (getL wState43 0) wFmtL44.sc).toNat / 2 ^ 48) (((getReg (getL wState43 0) wFmtL44.sc).toNat / 2 ^ 32 % 2 ^ 7 + 1) * (linesFor ((getReg (getL wState43 0) wFmtL44.sc).toNat % 2 ^ 32) (lineElems ((getReg (getL wState43 0) wFmtL44.sc).toNat / 2 ^ 39 % 2 ^ 4)))) ((getReg (getL wState43 0) wFmtL44.sc).toNat / 2 ^ 39 % 2 ^ 4) = none ∧ 4 ≤ ((getReg (getL wState43 0) wFmtL44.sc).toNat / 2 ^ 39 % 2 ^ 4) ∧ ((getReg (getL wState43 0) wFmtL44.sc).toNat / 2 ^ 39 % 2 ^ 4) ≤ 6 ∧ rangeOk (getL wState43 0) (wFmtL44.a.toNat + (getReg (getL wState43 0) wFmtL44.sc).toNat / 2 ^ 48) (linesFor ((getReg (getL wState43 0) wFmtL44.sc).toNat % 2 ^ 32) 34) = true ∧ soundLines (getL wState43 0) (wFmtL44.a.toNat + (getReg (getL wState43 0) wFmtL44.sc).toNat / 2 ^ 48) (linesFor ((getReg (getL wState43 0) wFmtL44.sc).toNat % 2 ^ 32) 34) ∧ hazard wState43 0 (wFmtL44.a.toNat + (getReg (getL wState43 0) wFmtL44.sc).toNat / 2 ^ 48) (linesFor ((getReg (getL wState43 0) wFmtL44.sc).toNat % 2 ^ 32) 34) 6 = none ∧ wFmtL44.f.getLsbD 1 = true ∧ rangeOk (getL wState43 0) (wFmtL44.d.toNat + (getReg (getL wState43 0) wFmtL44.sc).toNat / 2 ^ 48) (linesFor ((getReg (getL wState43 0) wFmtL44.sc).toNat / 2 ^ 32 % 2 ^ 7 + 1) 17) = true ∧ freeLines (getL wState43 0) (wFmtL44.d.toNat + (getReg (getL wState43 0) wFmtL44.sc).toNat / 2 ^ 48) (linesFor ((getReg (getL wState43 0) wFmtL44.sc).toNat / 2 ^ 32 % 2 ^ 7 + 1) 17)) ∧ Runs 0 2 (.wfdot 0 wFmtL44) wState43 := ⟨by decide +kernel, runs_of (by decide +kernel)⟩

/-- Hypotheses of Obligations.WideVectors. -/
theorem test_witness_WideVectors_0 : (1 ≤ ((getReg (getL wState46 0) wFmtL45.sc).toNat % 2 ^ 32) ∧ ((getReg (getL wState46 0) wFmtL45.sc).toNat % 2 ^ 32) ≤ 65536 ∧ rangeOk (getL wState46 0) (wFmtL45.a.toNat + (getReg (getL wState46 0) wFmtL45.sc).toNat / 2 ^ 48) (linesFor ((getReg (getL wState46 0) wFmtL45.sc).toNat % 2 ^ 32) (if ((getReg (getL wState46 0) wFmtL45.sc).getLsbD 32) then 34 else 17)) = true ∧ soundLines (getL wState46 0) (wFmtL45.a.toNat + (getReg (getL wState46 0) wFmtL45.sc).toNat / 2 ^ 48) (linesFor ((getReg (getL wState46 0) wFmtL45.sc).toNat % 2 ^ 32) (if ((getReg (getL wState46 0) wFmtL45.sc).getLsbD 32) then 34 else 17)) ∧ hazard wState46 0 (wFmtL45.a.toNat + (getReg (getL wState46 0) wFmtL45.sc).toNat / 2 ^ 48) (linesFor ((getReg (getL wState46 0) wFmtL45.sc).toNat % 2 ^ 32) (if ((getReg (getL wState46 0) wFmtL45.sc).getLsbD 32) then 34 else 17)) (vecTy ((getReg (getL wState46 0) wFmtL45.sc).getLsbD 32)) = none ∧ (getReg (getL wState46 0) wFmtL45.sc).toNat % 2 ^ 48 < 2 ^ 34 ∧ false = (getReg (getL wState46 0) wFmtL45.sc).getLsbD 33 ∧ rangeOk (getL wState46 0) (wFmtL45.b.toNat + (getReg (getL wState46 0) wFmtL45.sc).toNat / 2 ^ 48) (linesFor ((getReg (getL wState46 0) wFmtL45.sc).toNat % 2 ^ 32) (if ((getReg (getL wState46 0) wFmtL45.sc).getLsbD 32) then 34 else 17)) = true ∧ soundLines (getL wState46 0) (wFmtL45.b.toNat + (getReg (getL wState46 0) wFmtL45.sc).toNat / 2 ^ 48) (linesFor ((getReg (getL wState46 0) wFmtL45.sc).toNat % 2 ^ 32) (if ((getReg (getL wState46 0) wFmtL45.sc).getLsbD 32) then 34 else 17)) ∧ hazard wState46 0 (wFmtL45.b.toNat + (getReg (getL wState46 0) wFmtL45.sc).toNat / 2 ^ 48) (linesFor ((getReg (getL wState46 0) wFmtL45.sc).toNat % 2 ^ 32) (if ((getReg (getL wState46 0) wFmtL45.sc).getLsbD 32) then 34 else 17)) (vecTy ((getReg (getL wState46 0) wFmtL45.sc).getLsbD 32)) = none ∧ rangeOk (getL wState46 0) (wFmtL45.d.toNat + (getReg (getL wState46 0) wFmtL45.sc).toNat / 2 ^ 48) (linesFor ((getReg (getL wState46 0) wFmtL45.sc).toNat % 2 ^ 32) (if false then 34 else 17)) = true ∧ wFmtL45.f ≠ 2 ∧ freeLines (getL wState46 0) (wFmtL45.d.toNat + (getReg (getL wState46 0) wFmtL45.sc).toNat / 2 ^ 48) (linesFor ((getReg (getL wState46 0) wFmtL45.sc).toNat % 2 ^ 32) (if false then 34 else 17))) ∧ Runs 0 2 (.wvb 0 wFmtL45) wState46 := ⟨by decide +kernel, runs_of (by decide +kernel)⟩

/-- Hypotheses of Obligations.WideVectors. -/
theorem test_witness_WideVectors_1 : (1 ≤ ((getReg (getL wState48 0) wFmtL47.sc).toNat % 2 ^ 32) ∧ ((getReg (getL wState48 0) wFmtL47.sc).toNat % 2 ^ 32) ≤ 65536 ∧ rangeOk (getL wState48 0) (wFmtL47.a.toNat + (getReg (getL wState48 0) wFmtL47.sc).toNat / 2 ^ 48) (linesFor ((getReg (getL wState48 0) wFmtL47.sc).toNat % 2 ^ 32) (if ((getReg (getL wState48 0) wFmtL47.sc).getLsbD 32) then 34 else 17)) = true ∧ soundLines (getL wState48 0) (wFmtL47.a.toNat + (getReg (getL wState48 0) wFmtL47.sc).toNat / 2 ^ 48) (linesFor ((getReg (getL wState48 0) wFmtL47.sc).toNat % 2 ^ 32) (if ((getReg (getL wState48 0) wFmtL47.sc).getLsbD 32) then 34 else 17)) ∧ hazard wState48 0 (wFmtL47.a.toNat + (getReg (getL wState48 0) wFmtL47.sc).toNat / 2 ^ 48) (linesFor ((getReg (getL wState48 0) wFmtL47.sc).toNat % 2 ^ 32) (if ((getReg (getL wState48 0) wFmtL47.sc).getLsbD 32) then 34 else 17)) (vecTy ((getReg (getL wState48 0) wFmtL47.sc).getLsbD 32)) = none ∧ (getReg (getL wState48 0) wFmtL47.sc).toNat % 2 ^ 48 < 2 ^ 34 ∧ false = (getReg (getL wState48 0) wFmtL47.sc).getLsbD 33 ∧ rangeOk (getL wState48 0) (wFmtL47.b.toNat + (getReg (getL wState48 0) wFmtL47.sc).toNat / 2 ^ 48) (linesFor ((getReg (getL wState48 0) wFmtL47.sc).toNat % 2 ^ 32) (if ((getReg (getL wState48 0) wFmtL47.sc).getLsbD 32) then 34 else 17)) = true ∧ soundLines (getL wState48 0) (wFmtL47.b.toNat + (getReg (getL wState48 0) wFmtL47.sc).toNat / 2 ^ 48) (linesFor ((getReg (getL wState48 0) wFmtL47.sc).toNat % 2 ^ 32) (if ((getReg (getL wState48 0) wFmtL47.sc).getLsbD 32) then 34 else 17)) ∧ hazard wState48 0 (wFmtL47.b.toNat + (getReg (getL wState48 0) wFmtL47.sc).toNat / 2 ^ 48) (linesFor ((getReg (getL wState48 0) wFmtL47.sc).toNat % 2 ^ 32) (if ((getReg (getL wState48 0) wFmtL47.sc).getLsbD 32) then 34 else 17)) (vecTy ((getReg (getL wState48 0) wFmtL47.sc).getLsbD 32)) = none ∧ rangeOk (getL wState48 0) (wFmtL47.d.toNat + (getReg (getL wState48 0) wFmtL47.sc).toNat / 2 ^ 48) (linesFor ((getReg (getL wState48 0) wFmtL47.sc).toNat % 2 ^ 32) (if false then 34 else 17)) = true ∧ wFmtL47.f = 2 ∧ soundLines (getL wState48 0) (wFmtL47.d.toNat + (getReg (getL wState48 0) wFmtL47.sc).toNat / 2 ^ 48) (linesFor ((getReg (getL wState48 0) wFmtL47.sc).toNat % 2 ^ 32) (if false then 34 else 17)) ∧ hazard wState48 0 (wFmtL47.d.toNat + (getReg (getL wState48 0) wFmtL47.sc).toNat / 2 ^ 48) (linesFor ((getReg (getL wState48 0) wFmtL47.sc).toNat % 2 ^ 32) (if false then 34 else 17)) (vecTy false) = none) ∧ Runs 0 2 (.wvb 0 wFmtL47) wState48 := ⟨by decide +kernel, runs_of (by decide +kernel)⟩

/-- Hypotheses of Obligations.WideVectors. -/
theorem test_witness_WideVectors_2 : (1 ≤ ((getReg (getL wState46 0) wFmtL49.sc).toNat % 2 ^ 32) ∧ ((getReg (getL wState46 0) wFmtL49.sc).toNat % 2 ^ 32) ≤ 65536 ∧ rangeOk (getL wState46 0) (wFmtL49.a.toNat + (getReg (getL wState46 0) wFmtL49.sc).toNat / 2 ^ 48) (linesFor ((getReg (getL wState46 0) wFmtL49.sc).toNat % 2 ^ 32) (if ((getReg (getL wState46 0) wFmtL49.sc).getLsbD 32) then 34 else 17)) = true ∧ soundLines (getL wState46 0) (wFmtL49.a.toNat + (getReg (getL wState46 0) wFmtL49.sc).toNat / 2 ^ 48) (linesFor ((getReg (getL wState46 0) wFmtL49.sc).toNat % 2 ^ 32) (if ((getReg (getL wState46 0) wFmtL49.sc).getLsbD 32) then 34 else 17)) ∧ hazard wState46 0 (wFmtL49.a.toNat + (getReg (getL wState46 0) wFmtL49.sc).toNat / 2 ^ 48) (linesFor ((getReg (getL wState46 0) wFmtL49.sc).toNat % 2 ^ 32) (if ((getReg (getL wState46 0) wFmtL49.sc).getLsbD 32) then 34 else 17)) (vecTy ((getReg (getL wState46 0) wFmtL49.sc).getLsbD 32)) = none ∧ (getReg (getL wState46 0) wFmtL49.sc).toNat % 2 ^ 48 < 2 ^ 34 ∧ false = (getReg (getL wState46 0) wFmtL49.sc).getLsbD 33 ∧ rangeOk (getL wState46 0) (wFmtL49.d.toNat + (getReg (getL wState46 0) wFmtL49.sc).toNat / 2 ^ 48) (linesFor ((getReg (getL wState46 0) wFmtL49.sc).toNat % 2 ^ 32) (if false then 34 else 17)) = true ∧ freeLines (getL wState46 0) (wFmtL49.d.toNat + (getReg (getL wState46 0) wFmtL49.sc).toNat / 2 ^ 48) (linesFor ((getReg (getL wState46 0) wFmtL49.sc).toNat % 2 ^ 32) (if false then 34 else 17))) ∧ Runs 0 2 (.wvu 0 wFmtL49) wState46 := ⟨by decide +kernel, runs_of (by decide +kernel)⟩

/-- Hypotheses of Obligations.WideVectors. -/
theorem test_witness_WideVectors_3 : (1 ≤ ((getReg (getL wState46 0) wFmtL50.sc).toNat % 2 ^ 32) ∧ ((getReg (getL wState46 0) wFmtL50.sc).toNat % 2 ^ 32) ≤ 65536 ∧ rangeOk (getL wState46 0) (wFmtL50.a.toNat + (getReg (getL wState46 0) wFmtL50.sc).toNat / 2 ^ 48) (linesFor ((getReg (getL wState46 0) wFmtL50.sc).toNat % 2 ^ 32) (if ((getReg (getL wState46 0) wFmtL50.sc).getLsbD 32) then 34 else 17)) = true ∧ soundLines (getL wState46 0) (wFmtL50.a.toNat + (getReg (getL wState46 0) wFmtL50.sc).toNat / 2 ^ 48) (linesFor ((getReg (getL wState46 0) wFmtL50.sc).toNat % 2 ^ 32) (if ((getReg (getL wState46 0) wFmtL50.sc).getLsbD 32) then 34 else 17)) ∧ hazard wState46 0 (wFmtL50.a.toNat + (getReg (getL wState46 0) wFmtL50.sc).toNat / 2 ^ 48) (linesFor ((getReg (getL wState46 0) wFmtL50.sc).toNat % 2 ^ 32) (if ((getReg (getL wState46 0) wFmtL50.sc).getLsbD 32) then 34 else 17)) (vecTy ((getReg (getL wState46 0) wFmtL50.sc).getLsbD 32)) = none ∧ (getReg (getL wState46 0) wFmtL50.sc).toNat % 2 ^ 48 < 2 ^ 33 ∧ rangeOk (getL wState46 0) (wFmtL50.d.toNat + (getReg (getL wState46 0) wFmtL50.sc).toNat / 2 ^ 48) 1 = true ∧ freeLines (getL wState46 0) (wFmtL50.d.toNat + (getReg (getL wState46 0) wFmtL50.sc).toNat / 2 ^ 48) 1) ∧ Runs 0 2 (.wred 0 wFmtL50) wState46 := ⟨by decide +kernel, runs_of (by decide +kernel)⟩

/-- Hypotheses of Obligations.WideConversions. -/
theorem test_witness_WideConversions_0 : ((getReg (getL wState52 0) wFmtL51.sc).toNat % 2 ^ 48 < 2 ^ 36 ∧ 1 ≤ ((getReg (getL wState52 0) wFmtL51.sc).toNat % 2 ^ 32) ∧ ((getReg (getL wState52 0) wFmtL51.sc).toNat % 2 ^ 32) ≤ 65536 ∧ ((getReg (getL wState52 0) wFmtL51.sc).toNat / 2 ^ 32 % 2 ^ 4) ≤ 5 ∧ rangeOk (getL wState52 0) (wFmtL51.a.toNat + (getReg (getL wState52 0) wFmtL51.sc).toNat / 2 ^ 48) (linesFor ((getReg (getL wState52 0) wFmtL51.sc).toNat % 2 ^ 32) 17) = true ∧ soundLines (getL wState52 0) (wFmtL51.a.toNat + (getReg (getL wState52 0) wFmtL51.sc).toNat / 2 ^ 48) (linesFor ((getReg (getL wState52 0) wFmtL51.sc).toNat % 2 ^ 32) 17) ∧ hazard wState52 0 (wFmtL51.a.toNat + (getReg (getL wState52 0) wFmtL51.sc).toNat / 2 ^ 48) (linesFor ((getReg (getL wState52 0) wFmtL51.sc).toNat % 2 ^ 32) 17) 7 = none ∧ rangeOk (getL wState52 0) (wFmtL51.d.toNat + (getReg (getL wState52 0) wFmtL51.sc).toNat / 2 ^ 48) (linesFor ((getReg (getL wState52 0) wFmtL51.sc).toNat % 2 ^ 32) (lineElems ((getReg (getL wState52 0) wFmtL51.sc).toNat / 2 ^ 32 % 2 ^ 4))) = true ∧ freeLines (getL wState52 0) (wFmtL51.d.toNat + (getReg (getL wState52 0) wFmtL51.sc).toNat / 2 ^ 48) (linesFor ((getReg (getL wState52 0) wFmtL51.sc).toNat % 2 ^ 32) (lineElems ((getReg (getL wState52 0) wFmtL51.sc).toNat / 2 ^ 32 % 2 ^ 4)))) ∧ Runs 0 2 (.wqnt 0 wFmtL51) wState52 := ⟨by decide +kernel, runs_of (by decide +kernel)⟩

/-- Hypotheses of Obligations.WideConversions. -/
theorem test_witness_WideConversions_1 : (1 ≤ ((getReg (getL wState53 0) wFmtL51.sc).toNat / 2 ^ 32 % 2 ^ 8) ∧ ((getReg (getL wState53 0) wFmtL51.sc).toNat / 2 ^ 40 % 2 ^ 4) ≤ 7 ∧ ((getReg (getL wState53 0) wFmtL51.sc).toNat / 2 ^ 44 % 2 ^ 4) ≤ 7 ∧ rangeOk (getL wState53 0) ((wFmtL51.a.toNat + (getReg (getL wState53 0) wFmtL51.sc).toNat / 2 ^ 48) + ((getReg (getL wState53 0) wFmtL51.sc).toNat % 2 ^ 32) * ((getReg (getL wState53 0) wFmtL51.sc).toNat / 2 ^ 32 % 2 ^ 8)) ((getReg (getL wState53 0) wFmtL51.sc).toNat / 2 ^ 32 % 2 ^ 8) = true ∧ soundLines (getL wState53 0) ((wFmtL51.a.toNat + (getReg (getL wState53 0) wFmtL51.sc).toNat / 2 ^ 48) + ((getReg (getL wState53 0) wFmtL51.sc).toNat % 2 ^ 32) * ((getReg (getL wState53 0) wFmtL51.sc).toNat / 2 ^ 32 % 2 ^ 8)) ((getReg (getL wState53 0) wFmtL51.sc).toNat / 2 ^ 32 % 2 ^ 8) ∧ hazard wState53 0 ((wFmtL51.a.toNat + (getReg (getL wState53 0) wFmtL51.sc).toNat / 2 ^ 48) + ((getReg (getL wState53 0) wFmtL51.sc).toNat % 2 ^ 32) * ((getReg (getL wState53 0) wFmtL51.sc).toNat / 2 ^ 32 % 2 ^ 8)) ((getReg (getL wState53 0) wFmtL51.sc).toNat / 2 ^ 32 % 2 ^ 8) ((getReg (getL wState53 0) wFmtL51.sc).toNat / 2 ^ 40 % 2 ^ 4) = none ∧ rangeOk (getL wState53 0) (wFmtL51.d.toNat + (getReg (getL wState53 0) wFmtL51.sc).toNat / 2 ^ 48) (if ((getReg (getL wState53 0) wFmtL51.sc).toNat / 2 ^ 40 % 2 ^ 4) = ((getReg (getL wState53 0) wFmtL51.sc).toNat / 2 ^ 44 % 2 ^ 4) then ((getReg (getL wState53 0) wFmtL51.sc).toNat / 2 ^ 32 % 2 ^ 8) else linesFor (((getReg (getL wState53 0) wFmtL51.sc).toNat / 2 ^ 32 % 2 ^ 8) * lineElems ((getReg (getL wState53 0) wFmtL51.sc).toNat / 2 ^ 40 % 2 ^ 4)) (lineElems ((getReg (getL wState53 0) wFmtL51.sc).toNat / 2 ^ 44 % 2 ^ 4))) = true ∧ freeLines (getL wState53 0) (wFmtL51.d.toNat + (getReg (getL wState53 0) wFmtL51.sc).toNat / 2 ^ 48) (if ((getReg (getL wState53 0) wFmtL51.sc).toNat / 2 ^ 40 % 2 ^ 4) = ((getReg (getL wState53 0) wFmtL51.sc).toNat / 2 ^ 44 % 2 ^ 4) then ((getReg (getL wState53 0) wFmtL51.sc).toNat / 2 ^ 32 % 2 ^ 8) else linesFor (((getReg (getL wState53 0) wFmtL51.sc).toNat / 2 ^ 32 % 2 ^ 8) * lineElems ((getReg (getL wState53 0) wFmtL51.sc).toNat / 2 ^ 40 % 2 ^ 4)) (lineElems ((getReg (getL wState53 0) wFmtL51.sc).toNat / 2 ^ 44 % 2 ^ 4)))) ∧ Runs 0 2 (.wgth 0 wFmtL51) wState53 := ⟨by decide +kernel, runs_of (by decide +kernel)⟩

/-- Hypotheses of Obligations.WideSelection. -/
theorem test_witness_WideSelection_0 : (1 ≤ ((getReg (getL wState52 0) wFmtL54.sc).toNat % 2 ^ 32) ∧ ((getReg (getL wState52 0) wFmtL54.sc).toNat % 2 ^ 32) ≤ 65536 ∧ (getReg (getL wState52 0) wFmtL54.sc).toNat % 2 ^ 48 < 2 ^ 41 ∧ 1 ≤ ((getReg (getL wState52 0) wFmtL54.sc).toNat / 2 ^ 32 % 2 ^ 9) ∧ ((getReg (getL wState52 0) wFmtL54.sc).toNat / 2 ^ 32 % 2 ^ 9) ≤ 256 ∧ rangeOk (getL wState52 0) (wFmtL54.a.toNat + (getReg (getL wState52 0) wFmtL54.sc).toNat / 2 ^ 48) (linesFor ((getReg (getL wState52 0) wFmtL54.sc).toNat % 2 ^ 32) 17) = true ∧ soundLines (getL wState52 0) (wFmtL54.a.toNat + (getReg (getL wState52 0) wFmtL54.sc).toNat / 2 ^ 48) (linesFor ((getReg (getL wState52 0) wFmtL54.sc).toNat % 2 ^ 32) 17) ∧ hazard wState52 0 (wFmtL54.a.toNat + (getReg (getL wState52 0) wFmtL54.sc).toNat / 2 ^ 48) (linesFor ((getReg (getL wState52 0) wFmtL54.sc).toNat % 2 ^ 32) 17) 7 = none ∧ rangeOk (getL wState52 0) (wFmtL54.b.toNat + (getReg (getL wState52 0) wFmtL54.sc).toNat / 2 ^ 48) (if wFmtL54.f.getLsbD 0 then linesFor ((getReg (getL wState52 0) wFmtL54.sc).toNat % 2 ^ 32) 17 else 1) = true ∧ soundLines (getL wState52 0) (wFmtL54.b.toNat + (getReg (getL wState52 0) wFmtL54.sc).toNat / 2 ^ 48) (if wFmtL54.f.getLsbD 0 then linesFor ((getReg (getL wState52 0) wFmtL54.sc).toNat % 2 ^ 32) 17 else 1) ∧ hazard wState52 0 (wFmtL54.b.toNat + (getReg (getL wState52 0) wFmtL54.sc).toNat / 2 ^ 48) (if wFmtL54.f.getLsbD 0 then linesFor ((getReg (getL wState52 0) wFmtL54.sc).toNat % 2 ^ 32) 17 else 1) 10 = none ∧ rangeOk (getL wState52 0) (wFmtL54.d.toNat + (getReg (getL wState52 0) wFmtL54.sc).toNat / 2 ^ 48) (2 * linesFor ((getReg (getL wState52 0) wFmtL54.sc).toNat / 2 ^ 32 % 2 ^ 9) 17) = true ∧ freeLines (getL wState52 0) (wFmtL54.d.toNat + (getReg (getL wState52 0) wFmtL54.sc).toNat / 2 ^ 48) (2 * linesFor ((getReg (getL wState52 0) wFmtL54.sc).toNat / 2 ^ 32 % 2 ^ 9) 17)) ∧ Runs 0 2 (.wtopk 0 wFmtL54) wState52 := ⟨by decide +kernel, runs_of (by decide +kernel)⟩

/-- Hypotheses of Obligations.WideSelection. -/
theorem test_witness_WideSelection_1 : (1 ≤ ((getReg (getL wState46 0) wFmtL54.sc).toNat % 2 ^ 32) ∧ ((getReg (getL wState46 0) wFmtL54.sc).toNat % 2 ^ 32) ≤ 4096 ∧ (getReg (getL wState46 0) wFmtL54.sc).toNat % 2 ^ 48 < 2 ^ 32 ∧ rangeOk (getL wState46 0) (wFmtL54.b.toNat + (getReg (getL wState46 0) wFmtL54.sc).toNat / 2 ^ 48) 1 = true ∧ soundLines (getL wState46 0) (wFmtL54.b.toNat + (getReg (getL wState46 0) wFmtL54.sc).toNat / 2 ^ 48) 1 ∧ hazard wState46 0 (wFmtL54.b.toNat + (getReg (getL wState46 0) wFmtL54.sc).toNat / 2 ^ 48) 1 7 = none ∧ (if wFmtL54.f.getLsbD 0 then takeScores (getL wState46 0).scores ((getReg (getL wState46 0) wFmtL54.sc).toNat % 2 ^ 32) = some ([(0x3F800000, false), (0x40000000, false)], []) else rangeOk (getL wState46 0) (wFmtL54.a.toNat + (getReg (getL wState46 0) wFmtL54.sc).toNat / 2 ^ 48) (linesFor ((getReg (getL wState46 0) wFmtL54.sc).toNat % 2 ^ 32) 17) = true ∧ soundLines (getL wState46 0) (wFmtL54.a.toNat + (getReg (getL wState46 0) wFmtL54.sc).toNat / 2 ^ 48) (linesFor ((getReg (getL wState46 0) wFmtL54.sc).toNat % 2 ^ 32) 17) ∧ hazard wState46 0 (wFmtL54.a.toNat + (getReg (getL wState46 0) wFmtL54.sc).toNat / 2 ^ 48) (linesFor ((getReg (getL wState46 0) wFmtL54.sc).toNat % 2 ^ 32) 17) 7 = none ∧ [(0x3F800000, false), (0x40000000, false)] = (List.range ((getReg (getL wState46 0) wFmtL54.sc).toNat % 2 ^ 32)).map (vecElem false (linesAt (getL wState46 0) (wFmtL54.a.toNat + (getReg (getL wState46 0) wFmtL54.sc).toNat / 2 ^ 48) (linesFor ((getReg (getL wState46 0) wFmtL54.sc).toNat % 2 ^ 32) 17))) ∧ [] = (getL wState46 0).scores) ∧ rangeOk (getL wState46 0) (wFmtL54.d.toNat + (getReg (getL wState46 0) wFmtL54.sc).toNat / 2 ^ 48) (if wFmtL54.f.getLsbD 1 then 1 else linesFor ((getReg (getL wState46 0) wFmtL54.sc).toNat % 2 ^ 32) 64 + 1) = true ∧ freeLines (getL wState46 0) (wFmtL54.d.toNat + (getReg (getL wState46 0) wFmtL54.sc).toNat / 2 ^ 48) (if wFmtL54.f.getLsbD 1 then 1 else linesFor ((getReg (getL wState46 0) wFmtL54.sc).toNat % 2 ^ 32) 64 + 1) ∧ wFmtL54.f.getLsbD 1 = false) ∧ Runs 0 2 (.wsmx 0 wFmtL54) wState46 := ⟨by decide +kernel, runs_of (by decide +kernel)⟩

/-- Hypotheses of Obligations.WideSelection. -/
theorem test_witness_WideSelection_2 : (1 ≤ ((getReg (getL wState56 0) wFmtL55.sc).toNat % 2 ^ 32) ∧ ((getReg (getL wState56 0) wFmtL55.sc).toNat % 2 ^ 32) ≤ 4096 ∧ (getReg (getL wState56 0) wFmtL55.sc).toNat % 2 ^ 48 < 2 ^ 32 ∧ rangeOk (getL wState56 0) (wFmtL55.b.toNat + (getReg (getL wState56 0) wFmtL55.sc).toNat / 2 ^ 48) 1 = true ∧ soundLines (getL wState56 0) (wFmtL55.b.toNat + (getReg (getL wState56 0) wFmtL55.sc).toNat / 2 ^ 48) 1 ∧ hazard wState56 0 (wFmtL55.b.toNat + (getReg (getL wState56 0) wFmtL55.sc).toNat / 2 ^ 48) 1 7 = none ∧ (if wFmtL55.f.getLsbD 0 then takeScores (getL wState56 0).scores ((getReg (getL wState56 0) wFmtL55.sc).toNat % 2 ^ 32) = some ([(0x3F800000, false), (0x40000000, false)], []) else rangeOk (getL wState56 0) (wFmtL55.a.toNat + (getReg (getL wState56 0) wFmtL55.sc).toNat / 2 ^ 48) (linesFor ((getReg (getL wState56 0) wFmtL55.sc).toNat % 2 ^ 32) 17) = true ∧ soundLines (getL wState56 0) (wFmtL55.a.toNat + (getReg (getL wState56 0) wFmtL55.sc).toNat / 2 ^ 48) (linesFor ((getReg (getL wState56 0) wFmtL55.sc).toNat % 2 ^ 32) 17) ∧ hazard wState56 0 (wFmtL55.a.toNat + (getReg (getL wState56 0) wFmtL55.sc).toNat / 2 ^ 48) (linesFor ((getReg (getL wState56 0) wFmtL55.sc).toNat % 2 ^ 32) 17) 7 = none ∧ [(0x3F800000, false), (0x40000000, false)] = (List.range ((getReg (getL wState56 0) wFmtL55.sc).toNat % 2 ^ 32)).map (vecElem false (linesAt (getL wState56 0) (wFmtL55.a.toNat + (getReg (getL wState56 0) wFmtL55.sc).toNat / 2 ^ 48) (linesFor ((getReg (getL wState56 0) wFmtL55.sc).toNat % 2 ^ 32) 17))) ∧ [] = (getL wState56 0).scores) ∧ rangeOk (getL wState56 0) (wFmtL55.d.toNat + (getReg (getL wState56 0) wFmtL55.sc).toNat / 2 ^ 48) (if wFmtL55.f.getLsbD 1 then 1 else linesFor ((getReg (getL wState56 0) wFmtL55.sc).toNat % 2 ^ 32) 64 + 1) = true ∧ freeLines (getL wState56 0) (wFmtL55.d.toNat + (getReg (getL wState56 0) wFmtL55.sc).toNat / 2 ^ 48) (if wFmtL55.f.getLsbD 1 then 1 else linesFor ((getReg (getL wState56 0) wFmtL55.sc).toNat % 2 ^ 32) 64 + 1) ∧ wFmtL55.f.getLsbD 1 = true ∧ (getL wState56 0).probs.length + ((getReg (getL wState56 0) wFmtL55.sc).toNat % 2 ^ 32) ≤ 4096) ∧ Runs 0 2 (.wsmx 0 wFmtL55) wState56 := ⟨by decide +kernel, runs_of (by decide +kernel)⟩

/-- Hypotheses of Obligations.WideSampling. -/
theorem test_witness_WideSampling : ((getReg (getL wState58 0) wFmtL57.sc).toNat % 2 ^ 48 < 2 ^ 9 ∧ 1 ≤ ((getReg (getL wState58 0) wFmtL57.sc).toNat % 2 ^ 9) ∧ ((getReg (getL wState58 0) wFmtL57.sc).toNat % 2 ^ 9) ≤ 256 ∧ rangeOk (getL wState58 0) (wFmtL57.a.toNat + (getReg (getL wState58 0) wFmtL57.sc).toNat / 2 ^ 48) (2 * (linesFor ((getReg (getL wState58 0) wFmtL57.sc).toNat % 2 ^ 9) 17)) = true ∧ soundLines (getL wState58 0) (wFmtL57.a.toNat + (getReg (getL wState58 0) wFmtL57.sc).toNat / 2 ^ 48) (2 * (linesFor ((getReg (getL wState58 0) wFmtL57.sc).toNat % 2 ^ 9) 17)) ∧ hazard wState58 0 (wFmtL57.a.toNat + (getReg (getL wState58 0) wFmtL57.sc).toNat / 2 ^ 48) (linesFor ((getReg (getL wState58 0) wFmtL57.sc).toNat % 2 ^ 9) 17) 10 = none ∧ hazard wState58 0 ((wFmtL57.a.toNat + (getReg (getL wState58 0) wFmtL57.sc).toNat / 2 ^ 48) + (linesFor ((getReg (getL wState58 0) wFmtL57.sc).toNat % 2 ^ 9) 17)) (linesFor ((getReg (getL wState58 0) wFmtL57.sc).toNat % 2 ^ 9) 17) 7 = none ∧ rangeOk (getL wState58 0) (wFmtL57.b.toNat + (getReg (getL wState58 0) wFmtL57.sc).toNat / 2 ^ 48) 1 = true ∧ soundLines (getL wState58 0) (wFmtL57.b.toNat + (getReg (getL wState58 0) wFmtL57.sc).toNat / 2 ^ 48) 1 ∧ rangeOk (getL wState58 0) (wFmtL57.d.toNat + (getReg (getL wState58 0) wFmtL57.sc).toNat / 2 ^ 48) 1 = true ∧ freeLines (getL wState58 0) (wFmtL57.d.toNat + (getReg (getL wState58 0) wFmtL57.sc).toNat / 2 ^ 48) 1 ∧ (wFmtL57.d.toNat + (getReg (getL wState58 0) wFmtL57.sc).toNat / 2 ^ 48) ≠ (wFmtL57.b.toNat + (getReg (getL wState58 0) wFmtL57.sc).toNat / 2 ^ 48) ∧ ((∀ i, i < 2 * (linesFor ((getReg (getL wState58 0) wFmtL57.sc).toNat % 2 ^ 9) 17) → (wFmtL57.b.toNat + (getReg (getL wState58 0) wFmtL57.sc).toNat / 2 ^ 48) ≠ (wFmtL57.a.toNat + (getReg (getL wState58 0) wFmtL57.sc).toNat / 2 ^ 48) + i))) ∧ Runs 0 2 (.wsmp 0 wFmtL57) wState58 := ⟨by decide +kernel, runs_of (by decide +kernel)⟩

/-- Hypotheses of Obligations.Attention. -/
theorem test_witness_Attention_0 : ((getReg (getL wState60 0) wFmtL59.sc).toNat % 2 ^ 48 < 2 ^ 7 ∧ 1 ≤ ((getReg (getL wState60 0) wFmtL59.sc).toNat % 2 ^ 7) ∧ wFmtL59.d.toNat + ((getReg (getL wState60 0) wFmtL59.sc).toNat % 2 ^ 7) ≤ 64 ∧ rangeOk (getL wState60 0) (wFmtL59.a.toNat + (getReg (getL wState60 0) wFmtL59.sc).toNat / 2 ^ 48) (2 * ((getReg (getL wState60 0) wFmtL59.sc).toNat % 2 ^ 7)) = true ∧ soundLines (getL wState60 0) (wFmtL59.a.toNat + (getReg (getL wState60 0) wFmtL59.sc).toNat / 2 ^ 48) (2 * ((getReg (getL wState60 0) wFmtL59.sc).toNat % 2 ^ 7)) ∧ hazard wState60 0 (wFmtL59.a.toNat + (getReg (getL wState60 0) wFmtL59.sc).toNat / 2 ^ 48) (2 * ((getReg (getL wState60 0) wFmtL59.sc).toNat % 2 ^ 7)) 2 = none) ∧ Runs 0 3 (.qld 0 wFmtL59) wState60 := ⟨by decide +kernel, runs_of (by decide +kernel)⟩

/-- Hypotheses of Obligations.Attention. -/
theorem test_witness_Attention_1 : ((getReg (getL wState62 0) wFmtL61.sc).toNat % 2 ^ 48 < 2 ^ 40 ∧ (wFmtL61.a.toNat + (getReg (getL wState62 0) wFmtL61.sc).toNat / 2 ^ 48) < 65536 ∧ (phaseArgs wFmtL61.b (getReg (getL wState62 0) wFmtL61.sc)).reg + (phaseArgs wFmtL61.b (getReg (getL wState62 0) wFmtL61.sc)).g * (phaseArgs wFmtL61.b (getReg (getL wState62 0) wFmtL61.sc)).h ≤ 64 ∧ (phaseArgs wFmtL61.b (getReg (getL wState62 0) wFmtL61.sc)).first + (phaseArgs wFmtL61.b (getReg (getL wState62 0) wFmtL61.sc)).n ≤ (countAhead (getL wState62 0) (wFmtL61.a.toNat + (getReg (getL wState62 0) wFmtL61.sc).toNat / 2 ^ 48)).1 ∧ (phaseArgs wFmtL61.b (getReg (getL wState62 0) wFmtL61.sc)).h0 + (phaseArgs wFmtL61.b (getReg (getL wState62 0) wFmtL61.sc)).h ≤ (descAt (getL wState62 0) (wFmtL61.a.toNat + (getReg (getL wState62 0) wFmtL61.sc).toNat / 2 ^ 48)).hloc ∧ ((∀ c, c ∈ phaseCycles (phaseArgs wFmtL61.b (getReg (getL wState62 0) wFmtL61.sc)).g (phaseArgs wFmtL61.b (getReg (getL wState62 0) wFmtL61.sc)).h (phaseArgs wFmtL61.b (getReg (getL wState62 0) wFmtL61.sc)).n (descAt (getL wState62 0) (wFmtL61.a.toNat + (getReg (getL wState62 0) wFmtL61.sc).toNat / 2 ^ 48)).w → common (phaseLines (getL wState62 0) (wFmtL61.a.toNat + (getReg (getL wState62 0) wFmtL61.sc).toNat / 2 ^ 48) 0 (phaseArgs wFmtL61.b (getReg (getL wState62 0) wFmtL61.sc)).first (phaseArgs wFmtL61.b (getReg (getL wState62 0) wFmtL61.sc)).h0 [c]) (earlierWrites (getL wState62 0) (getL wState62 0).issued) = false)) ∧ (getL wState62 0).scores.length + (phaseArgs wFmtL61.b (getReg (getL wState62 0) wFmtL61.sc)).g * (phaseArgs wFmtL61.b (getReg (getL wState62 0) wFmtL61.sc)).h * (phaseArgs wFmtL61.b (getReg (getL wState62 0) wFmtL61.sc)).n ≤ 4096) ∧ ShareReady (getL wState62 0) (wFmtL61.a.toNat + (getReg (getL wState62 0) wFmtL61.sc).toNat / 2 ^ 48) (phaseArgs wFmtL61.b (getReg (getL wState62 0) wFmtL61.sc)).first (phaseArgs wFmtL61.b (getReg (getL wState62 0) wFmtL61.sc)).n ∧ Runs 0 3 (.ascr 0 wFmtL61) wState62 := ⟨by decide +kernel, shareReady_of (by decide +kernel), runs_of (by decide +kernel)⟩

/-- Hypotheses of Obligations.Attention. -/
theorem test_witness_Attention_2 : ((getReg (getL wState64 0) wFmtL63.sc).toNat % 2 ^ 48 < 2 ^ 40 ∧ (wFmtL63.a.toNat + (getReg (getL wState64 0) wFmtL63.sc).toNat / 2 ^ 48) < 65536 ∧ (phaseArgs wFmtL63.b (getReg (getL wState64 0) wFmtL63.sc)).reg + (phaseArgs wFmtL63.b (getReg (getL wState64 0) wFmtL63.sc)).g * (phaseArgs wFmtL63.b (getReg (getL wState64 0) wFmtL63.sc)).h ≤ 64 ∧ (phaseArgs wFmtL63.b (getReg (getL wState64 0) wFmtL63.sc)).first + (phaseArgs wFmtL63.b (getReg (getL wState64 0) wFmtL63.sc)).n ≤ (countAhead (getL wState64 0) (wFmtL63.a.toNat + (getReg (getL wState64 0) wFmtL63.sc).toNat / 2 ^ 48)).1 ∧ (phaseArgs wFmtL63.b (getReg (getL wState64 0) wFmtL63.sc)).h0 + (phaseArgs wFmtL63.b (getReg (getL wState64 0) wFmtL63.sc)).h ≤ (descAt (getL wState64 0) (wFmtL63.a.toNat + (getReg (getL wState64 0) wFmtL63.sc).toNat / 2 ^ 48)).hloc ∧ ((∀ c, c ∈ phaseCycles (phaseArgs wFmtL63.b (getReg (getL wState64 0) wFmtL63.sc)).g (phaseArgs wFmtL63.b (getReg (getL wState64 0) wFmtL63.sc)).h (phaseArgs wFmtL63.b (getReg (getL wState64 0) wFmtL63.sc)).n (descAt (getL wState64 0) (wFmtL63.a.toNat + (getReg (getL wState64 0) wFmtL63.sc).toNat / 2 ^ 48)).w → common (phaseLines (getL wState64 0) (wFmtL63.a.toNat + (getReg (getL wState64 0) wFmtL63.sc).toNat / 2 ^ 48) 1 (phaseArgs wFmtL63.b (getReg (getL wState64 0) wFmtL63.sc)).first (phaseArgs wFmtL63.b (getReg (getL wState64 0) wFmtL63.sc)).h0 [c]) (earlierWrites (getL wState64 0) (getL wState64 0).issued) = false)) ∧ wFmtL63.d.toNat + 4 * (phaseArgs wFmtL63.b (getReg (getL wState64 0) wFmtL63.sc)).g * (phaseArgs wFmtL63.b (getReg (getL wState64 0) wFmtL63.sc)).h ≤ 512 ∧ accWaits (getL wState64 0) (getL wState64 0).issued wFmtL63.d.toNat (4 * (phaseArgs wFmtL63.b (getReg (getL wState64 0) wFmtL63.sc)).g * (phaseArgs wFmtL63.b (getReg (getL wState64 0) wFmtL63.sc)).h) false = false ∧ accWaits (getL wState64 0) (getL wState64 0).issued wFmtL63.d.toNat (4 * (phaseArgs wFmtL63.b (getReg (getL wState64 0) wFmtL63.sc)).g * (phaseArgs wFmtL63.b (getReg (getL wState64 0) wFmtL63.sc)).h) (wFmtL63.f.getLsbD 0) = false ∧ (valueFold (getL wState64 0) (wFmtL63.a.toNat + (getReg (getL wState64 0) wFmtL63.sc).toNat / 2 ^ 48) wFmtL63.d.toNat (phaseArgs wFmtL63.b (getReg (getL wState64 0) wFmtL63.sc)).g (phaseArgs wFmtL63.b (getReg (getL wState64 0) wFmtL63.sc)).first (phaseArgs wFmtL63.b (getReg (getL wState64 0) wFmtL63.sc)).h0 (phaseCycles (phaseArgs wFmtL63.b (getReg (getL wState64 0) wFmtL63.sc)).g (phaseArgs wFmtL63.b (getReg (getL wState64 0) wFmtL63.sc)).h (phaseArgs wFmtL63.b (getReg (getL wState64 0) wFmtL63.sc)).n (descAt (getL wState64 0) (wFmtL63.a.toNat + (getReg (getL wState64 0) wFmtL63.sc).toNat / 2 ^ 48)).w) (if wFmtL63.f.getLsbD 0 then clearBlocks (getL wState64 0).acc wFmtL63.d.toNat (4 * (phaseArgs wFmtL63.b (getReg (getL wState64 0) wFmtL63.sc)).g * (phaseArgs wFmtL63.b (getReg (getL wState64 0) wFmtL63.sc)).h) else (getL wState64 0).acc, (getL wState64 0).probs, (getL wState64 0).probOut)).isSome = true) ∧ ShareReady (getL wState64 0) (wFmtL63.a.toNat + (getReg (getL wState64 0) wFmtL63.sc).toNat / 2 ^ 48) (phaseArgs wFmtL63.b (getReg (getL wState64 0) wFmtL63.sc)).first (phaseArgs wFmtL63.b (getReg (getL wState64 0) wFmtL63.sc)).n ∧ Runs 0 3 (.aval 0 wFmtL63) wState64 := ⟨by decide +kernel, shareReady_of (by decide +kernel), runs_of (by decide +kernel)⟩

/-- Hypotheses of Obligations.KvAppend. -/
theorem test_witness_KvAppend_0 : (portQuiet (getL wState66 0) ∧ descOk (getL wState66 0) (wFmtL65.b.toNat + (getReg (getL wState66 0) wFmtL65.sc).toNat / 2 ^ 48) = true ∧ (padAt (getL wState66 0) (wFmtL65.b.toNat + (getReg (getL wState66 0) wFmtL65.sc).toNat / 2 ^ 48)).parBad = false ∧ (getReg (getL wState66 0) wFmtL65.sc).toNat % 2 ^ 48 < 2 ^ 25 ∧ (getReg (getL wState66 0) wFmtL65.sc).toNat / 2 ^ 20 % 2 ^ 4 + 1 = (descAt (getL wState66 0) (wFmtL65.b.toNat + (getReg (getL wState66 0) wFmtL65.sc).toNat / 2 ^ 48)).hloc ∧ common (shareLines (getL wState66 0) (wFmtL65.b.toNat + (getReg (getL wState66 0) wFmtL65.sc).toNat / 2 ^ 48) (descAt (getL wState66 0) (wFmtL65.b.toNat + (getReg (getL wState66 0) wFmtL65.sc).toNat / 2 ^ 48)).count (List.range (2 * (descAt (getL wState66 0) (wFmtL65.b.toNat + (getReg (getL wState66 0) wFmtL65.sc).toNat / 2 ^ 48)).w * (descAt (getL wState66 0) (wFmtL65.b.toNat + (getReg (getL wState66 0) wFmtL65.sc).toNat / 2 ^ 48)).hloc))) (earlierReads (getL wState66 0) (getL wState66 0).issued) = false ∧ localIndex (descAt (getL wState66 0) (wFmtL65.b.toNat + (getReg (getL wState66 0) wFmtL65.sc).toNat / 2 ^ 48)) ((getReg (getL wState66 0) wFmtL65.sc).toNat % 2 ^ 20) = some (descAt (getL wState66 0) (wFmtL65.b.toNat + (getReg (getL wState66 0) wFmtL65.sc).toNat / 2 ^ 48)).count ∧ (descAt (getL wState66 0) (wFmtL65.b.toNat + (getReg (getL wState66 0) wFmtL65.sc).toNat / 2 ^ 48)).count / pageDepth (descAt (getL wState66 0) (wFmtL65.b.toNat + (getReg (getL wState66 0) wFmtL65.sc).toNat / 2 ^ 48)) < (descAt (getL wState66 0) (wFmtL65.b.toNat + (getReg (getL wState66 0) wFmtL65.sc).toNat / 2 ^ 48)).pages ∧ rangeOk (getL wState66 0) (wFmtL65.a.toNat + (getReg (getL wState66 0) wFmtL65.sc).toNat / 2 ^ 48) (linesFor ((descAt (getL wState66 0) (wFmtL65.b.toNat + (getReg (getL wState66 0) wFmtL65.sc).toNat / 2 ^ 48)).hloc * 256) (if ((getReg (getL wState66 0) wFmtL65.sc).getLsbD 24) then 34 else 17)) = true ∧ soundLines (getL wState66 0) (wFmtL65.a.toNat + (getReg (getL wState66 0) wFmtL65.sc).toNat / 2 ^ 48) (linesFor ((descAt (getL wState66 0) (wFmtL65.b.toNat + (getReg (getL wState66 0) wFmtL65.sc).toNat / 2 ^ 48)).hloc * 256) (if ((getReg (getL wState66 0) wFmtL65.sc).getLsbD 24) then 34 else 17)) ∧ hazard wState66 0 (wFmtL65.a.toNat + (getReg (getL wState66 0) wFmtL65.sc).toNat / 2 ^ 48) (linesFor ((descAt (getL wState66 0) (wFmtL65.b.toNat + (getReg (getL wState66 0) wFmtL65.sc).toNat / 2 ^ 48)).hloc * 256) (if ((getReg (getL wState66 0) wFmtL65.sc).getLsbD 24) then 34 else 17)) (if ((getReg (getL wState66 0) wFmtL65.sc).getLsbD 24) then 6 else 7) = none ∧ walk (getL wState66 0) (descAt (getL wState66 0) (wFmtL65.b.toNat + (getReg (getL wState66 0) wFmtL65.sc).toNat / 2 ^ 48)) ((descAt (getL wState66 0) (wFmtL65.b.toNat + (getReg (getL wState66 0) wFmtL65.sc).toNat / 2 ^ 48)).count / pageDepth (descAt (getL wState66 0) (wFmtL65.b.toNat + (getReg (getL wState66 0) wFmtL65.sc).toNat / 2 ^ 48))) = some 5) ∧ Runs 0 6 (.kapp 0 wFmtL65) wState66 ∧ ShareReady (getL wState66 0) (wFmtL65.b.toNat + (getReg (getL wState66 0) wFmtL65.sc).toNat / 2 ^ 48) (descAt (getL wState66 0) (wFmtL65.b.toNat + (getReg (getL wState66 0) wFmtL65.sc).toNat / 2 ^ 48)).count 1 := ⟨by decide +kernel, runs_of (by decide +kernel), shareReady_of (by decide +kernel)⟩

/-- Hypotheses of Obligations.KvAppend. -/
theorem test_witness_KvAppend_1 : (portQuiet (getL wState62 0) ∧ descOk (getL wState62 0) (wFmtL67.b.toNat + (getReg (getL wState62 0) wFmtL67.sc).toNat / 2 ^ 48) = true ∧ (padAt (getL wState62 0) (wFmtL67.b.toNat + (getReg (getL wState62 0) wFmtL67.sc).toNat / 2 ^ 48)).parBad = false ∧ (getReg (getL wState62 0) wFmtL67.sc).toNat % 2 ^ 48 = 0) ∧ Runs 0 6 (.kmark 0 wFmtL67) wState62 ∧ Runs 0 6 (.krew 0 wFmtL67) wState62 ∧ Runs 0 6 (.krel 0 wFmtL67) wState62 := ⟨by decide +kernel, runs_of (by decide +kernel), runs_of (by decide +kernel), runs_of (by decide +kernel)⟩

/-- Hypotheses of Obligations.KvMoves. -/
theorem test_witness_KvMoves_0 : ((getReg (getL wState68 0) wFmtL67.sc).toNat % 2 ^ 48 < 2 ^ 32 ∧ portQuiet (getL wState68 0) ∧ walk (getL wState68 0) (descAt (getL wState68 0) (wFmtL67.b.toNat + (getReg (getL wState68 0) wFmtL67.sc).toNat / 2 ^ 48)) (((getReg (getL wState68 0) wFmtL67.sc).toNat % 2 ^ 20) / pageDepth (descAt (getL wState68 0) (wFmtL67.b.toNat + (getReg (getL wState68 0) wFmtL67.sc).toNat / 2 ^ 48)) + min 64 ((((getReg (getL wState68 0) wFmtL67.sc).toNat % 2 ^ 20) + ((getReg (getL wState68 0) wFmtL67.sc).toNat / 2 ^ 20 % 2 ^ 12 + 1) - 1) / pageDepth (descAt (getL wState68 0) (wFmtL67.b.toNat + (getReg (getL wState68 0) wFmtL67.sc).toNat / 2 ^ 48)) - ((getReg (getL wState68 0) wFmtL67.sc).toNat % 2 ^ 20) / pageDepth (descAt (getL wState68 0) (wFmtL67.b.toNat + (getReg (getL wState68 0) wFmtL67.sc).toNat / 2 ^ 48)) + 1) - 1) = some 5) ∧ ShareReady (getL wState68 0) (wFmtL67.b.toNat + (getReg (getL wState68 0) wFmtL67.sc).toNat / 2 ^ 48) ((getReg (getL wState68 0) wFmtL67.sc).toNat % 2 ^ 20) ((getReg (getL wState68 0) wFmtL67.sc).toNat / 2 ^ 20 % 2 ^ 12 + 1) ∧ Runs 0 6 (.kwalk 0 wFmtL67) wState68 := ⟨by decide +kernel, shareReady_of (by decide +kernel), runs_of (by decide +kernel)⟩

/-- Hypotheses of Obligations.KvMoves. -/
theorem test_witness_KvMoves_1 : ((getReg (getL wState68 0) wFmtL69.sc).toNat % 2 ^ 48 < 2 ^ 32 ∧ portQuiet (getL wState68 0) ∧ ((getReg (getL wState68 0) wFmtL69.sc).toNat % 2 ^ 20) + ((getReg (getL wState68 0) wFmtL69.sc).toNat / 2 ^ 20 % 2 ^ 12 + 1) ≤ (countAhead (getL wState68 0) (wFmtL69.b.toNat + (getReg (getL wState68 0) wFmtL69.sc).toNat / 2 ^ 48)).1 ∧ wFmtL69.f = 1 ∧ rangeOk (getL wState68 0) (wFmtL69.a.toNat + (getReg (getL wState68 0) wFmtL69.sc).toNat / 2 ^ 48) (((getReg (getL wState68 0) wFmtL69.sc).toNat / 2 ^ 20 % 2 ^ 12 + 1) * (2 * (descAt (getL wState68 0) (wFmtL69.b.toNat + (getReg (getL wState68 0) wFmtL69.sc).toNat / 2 ^ 48)).w * (descAt (getL wState68 0) (wFmtL69.b.toNat + (getReg (getL wState68 0) wFmtL69.sc).toNat / 2 ^ 48)).hloc)) = true ∧ freeLines (getL wState68 0) (wFmtL69.a.toNat + (getReg (getL wState68 0) wFmtL69.sc).toNat / 2 ^ 48) (((getReg (getL wState68 0) wFmtL69.sc).toNat / 2 ^ 20 % 2 ^ 12 + 1) * (2 * (descAt (getL wState68 0) (wFmtL69.b.toNat + (getReg (getL wState68 0) wFmtL69.sc).toNat / 2 ^ 48)).w * (descAt (getL wState68 0) (wFmtL69.b.toNat + (getReg (getL wState68 0) wFmtL69.sc).toNat / 2 ^ 48)).hloc))) ∧ ShareReady (getL wState68 0) (wFmtL69.b.toNat + (getReg (getL wState68 0) wFmtL69.sc).toNat / 2 ^ 48) ((getReg (getL wState68 0) wFmtL69.sc).toNat % 2 ^ 20) ((getReg (getL wState68 0) wFmtL69.sc).toNat / 2 ^ 20 % 2 ^ 12 + 1) ∧ Runs 0 6 (.kxfr 0 wFmtL69) wState68 := ⟨by decide +kernel, shareReady_of (by decide +kernel), runs_of (by decide +kernel)⟩

/-- Hypotheses of Obligations.KvMoves. -/
theorem test_witness_KvMoves_2 : ((getReg (getL wState71 0) wFmtL70.sc).toNat % 2 ^ 48 < 2 ^ 32 ∧ portQuiet (getL wState71 0) ∧ ((getReg (getL wState71 0) wFmtL70.sc).toNat % 2 ^ 20) + ((getReg (getL wState71 0) wFmtL70.sc).toNat / 2 ^ 20 % 2 ^ 12 + 1) ≤ (countAhead (getL wState71 0) (wFmtL70.b.toNat + (getReg (getL wState71 0) wFmtL70.sc).toNat / 2 ^ 48)).1 ∧ wFmtL70.f = 0 ∧ slDestOk wState71 0 wFmtL70.d.toNat = true ∧ (getSl (getL wState71 0) wFmtL70.d.toNat).poisonNext = false ∧ (kvMessage 0 (descAt (getL wState71 0) (wFmtL70.b.toNat + (getReg (getL wState71 0) wFmtL70.sc).toNat / 2 ^ 48)) (if (match tileOfDest (getSl (getL wState71 0) wFmtL70.d.toNat).dest with | some t => tileCistern t | none => false) then 0 else (descAt (getL wState71 0) (wFmtL70.b.toNat + (getReg (getL wState71 0) wFmtL70.sc).toNat / 2 ^ 48)).peer) ((getReg (getL wState71 0) wFmtL70.sc).toNat % 2 ^ 20) ((getReg (getL wState71 0) wFmtL70.sc).toNat / 2 ^ 20 % 2 ^ 12 + 1) (if (match tileOfDest (getSl (getL wState71 0) wFmtL70.d.toNat).dest with | some t => tileCistern t | none => false) then (descAt (getL wState71 0) (wFmtL70.b.toNat + (getReg (getL wState71 0) wFmtL70.sc).toNat / 2 ^ 48)).caddr else 0) ((List.range ((getReg (getL wState71 0) wFmtL70.sc).toNat / 2 ^ 20 % 2 ^ 12 + 1)).flatMap (fun i => heldLines (getL wState71 0) (wFmtL70.b.toNat + (getReg (getL wState71 0) wFmtL70.sc).toNat / 2 ^ 48) (List.range (2 * (descAt (getL wState71 0) (wFmtL70.b.toNat + (getReg (getL wState71 0) wFmtL70.sc).toNat / 2 ^ 48)).w * (descAt (getL wState71 0) (wFmtL70.b.toNat + (getReg (getL wState71 0) wFmtL70.sc).toNat / 2 ^ 48)).hloc)) (((getReg (getL wState71 0) wFmtL70.sc).toNat % 2 ^ 20) + i)))).length ≤ creditsLeft wState71 0 wFmtL70.d.toNat) ∧ ShareReady (getL wState71 0) (wFmtL70.b.toNat + (getReg (getL wState71 0) wFmtL70.sc).toNat / 2 ^ 48) ((getReg (getL wState71 0) wFmtL70.sc).toNat % 2 ^ 20) ((getReg (getL wState71 0) wFmtL70.sc).toNat / 2 ^ 20 % 2 ^ 12 + 1) ∧ Runs 0 6 (.kxfr 0 wFmtL70) wState71 := ⟨by decide +kernel, shareReady_of (by decide +kernel), runs_of (by decide +kernel)⟩

/-- Hypotheses of Obligations.SendUnit. -/
theorem test_witness_SendUnit_0 : ((getReg (getL wState73 0) wFmtL72.sc).toNat % 2 ^ 48 < 2 ^ 20 ∧ 1 ≤ ((getReg (getL wState73 0) wFmtL72.sc).toNat % 2 ^ 12) ∧ stridedSound (getL wState73 0) (wFmtL72.a.toNat + (getReg (getL wState73 0) wFmtL72.sc).toNat / 2 ^ 48) ((getReg (getL wState73 0) wFmtL72.sc).toNat % 2 ^ 12) ((getReg (getL wState73 0) wFmtL72.sc).toNat / 2 ^ 12 % 2 ^ 8 + 1) ∧ rangeOk (getL wState73 0) (wFmtL72.d.toNat + (getReg (getL wState73 0) wFmtL72.sc).toNat / 2 ^ 48) ((getReg (getL wState73 0) wFmtL72.sc).toNat / 2 ^ 12 % 2 ^ 8 + 1) = true ∧ freeLines (getL wState73 0) (wFmtL72.d.toNat + (getReg (getL wState73 0) wFmtL72.sc).toNat / 2 ^ 48) ((getReg (getL wState73 0) wFmtL72.sc).toNat / 2 ^ 12 % 2 ^ 8 + 1)) ∧ Runs 0 4 (.copy 0 wFmtL72) wState73 := ⟨by decide +kernel, runs_of (by decide +kernel)⟩

/-- Hypotheses of Obligations.SendUnit. -/
theorem test_witness_SendUnit_1 : ((getReg (getL wState74 0) wFmtL72.sc).toNat % 2 ^ 48 < 2 ^ 21 ∧ 1 ≤ ((getReg (getL wState74 0) wFmtL72.sc).toNat % 2 ^ 12) ∧ ((getReg (getL wState74 0) wFmtL72.sc).toNat / 2 ^ 14 % 2 ^ 7) % (if (getReg (getL wState74 0) wFmtL72.sc).getLsbD 12 then 32 else 16) = 0 ∧ ((getReg (getL wState74 0) wFmtL72.sc).toNat / 2 ^ 14 % 2 ^ 7) + (if (getReg (getL wState74 0) wFmtL72.sc).getLsbD 12 then 32 else 16) ≤ (if ((getReg (getL wState74 0) wFmtL72.sc).getLsbD 13) then 64 else 128) ∧ stridedSound (getL wState74 0) (wFmtL72.a.toNat + (getReg (getL wState74 0) wFmtL72.sc).toNat / 2 ^ 48) ((getReg (getL wState74 0) wFmtL72.sc).toNat % 2 ^ 12) (if (getReg (getL wState74 0) wFmtL72.sc).getLsbD 12 then 32 else 16) ∧ ((∀ i, i < (if (getReg (getL wState74 0) wFmtL72.sc).getLsbD 12 then 32 else 16) → hazard wState74 0 ((wFmtL72.a.toNat + (getReg (getL wState74 0) wFmtL72.sc).toNat / 2 ^ 48) + i * ((getReg (getL wState74 0) wFmtL72.sc).toNat % 2 ^ 12)) 1 (if ((getReg (getL wState74 0) wFmtL72.sc).getLsbD 13) then 2 else 1) = none)) ∧ rangeOk (getL wState74 0) (wFmtL72.d.toNat + (getReg (getL wState74 0) wFmtL72.sc).toNat / 2 ^ 48) ((if (getReg (getL wState74 0) wFmtL72.sc).getLsbD 12 then 32 else 16) * (if (getReg (getL wState74 0) wFmtL72.sc).getLsbD 12 then 32 else 16) / (if ((getReg (getL wState74 0) wFmtL72.sc).getLsbD 13) then 64 else 128)) = true ∧ freeLines (getL wState74 0) (wFmtL72.d.toNat + (getReg (getL wState74 0) wFmtL72.sc).toNat / 2 ^ 48) ((if (getReg (getL wState74 0) wFmtL72.sc).getLsbD 12 then 32 else 16) * (if (getReg (getL wState74 0) wFmtL72.sc).getLsbD 12 then 32 else 16) / (if ((getReg (getL wState74 0) wFmtL72.sc).getLsbD 13) then 64 else 128))) ∧ Runs 0 4 (.trd 0 wFmtL72) wState74 := ⟨by decide +kernel, runs_of (by decide +kernel)⟩

/-- Hypotheses of the clauses of Obligations.SendUnit. -/
theorem test_witness_SendUnit_2 :
    (((getReg (getL wState76 0) wFmtL75.sc).toNat % 2 ^ 48 < 2 ^ 24 ∧ 1 ≤ ((getReg (getL wState76 0) wFmtL75.sc).toNat % 2 ^ 12) ∧ stridedSound (getL wState76 0) (wFmtL75.a.toNat + (getReg (getL wState76 0) wFmtL75.sc).toNat / 2 ^ 48) ((getReg (getL wState76 0) wFmtL75.sc).toNat % 2 ^ 12) ((getReg (getL wState76 0) wFmtL75.sc).toNat / 2 ^ 12 % 2 ^ 8 + 1) ∧ slDestOk wState76 0 wFmtL75.d.toNat = true ∧ ((getReg (getL wState76 0) wFmtL75.sc).toNat / 2 ^ 12 % 2 ^ 8 + 1) ≤ creditsLeft wState76 0 wFmtL75.d.toNat ∧ (getSl (getL wState76 0) wFmtL75.d.toNat).poisonNext = false) ∧ Runs 0 4 (.send 0 wFmtL75) wState76)
    ∧ (((getReg (getL wState78 0) wFmtL77.sc).toNat % 2 ^ 48 < 2 ^ 16 ∧ rangeOk (getL wState78 0) (wFmtL77.d.toNat + (getReg (getL wState78 0) wFmtL77.sc).toNat / 2 ^ 48) ((getReg (getL wState78 0) wFmtL77.sc).toNat % 2 ^ 16 + 1) = true) ∧ Runs 0 4 (.clr 0 wFmtL77) wState78) :=
  ⟨⟨by decide +kernel, runs_of (by decide +kernel)⟩,
    ⟨by decide +kernel, runs_of (by decide +kernel)⟩⟩

/-- Hypotheses of the clauses of Obligations.QueueReceive. -/
theorem test_witness_QueueReceive :
    ((0 < (getQ (getL wState80 0) wFmtQ79.qn.val).depth ∧ ((∀ i, i < (wFmtQ79.n.toNat + 1) → ((fun n => padAt (getL wState80 0) ((getQ (getL wState80 0) wFmtQ79.qn.val).base + ((getQ (getL wState80 0) wFmtQ79.qn.val).rd + BitVec.ofNat 32 n).toNat % (getQ (getL wState80 0) wFmtQ79.qn.val).depth)) i).parBad = false)) ∧ wFmtQ79.reg = false ∧ (wFmtQ79.n.toNat + 1) ≤ ((getQ (getL wState80 0) wFmtQ79.qn.val).w - (getQ (getL wState80 0) wFmtQ79.qn.val).rd).toNat ∧ rangeOk (getL wState80 0) wFmtQ79.line.toNat (wFmtQ79.n.toNat + 1) = true ∧ freeLines (getL wState80 0) wFmtQ79.line.toNat (wFmtQ79.n.toNat + 1) ∧ ((∀ i, i < (wFmtQ79.n.toNat + 1) → ∀ j, j < (wFmtQ79.n.toNat + 1) → wFmtQ79.line.toNat + j ≠ (getQ (getL wState80 0) wFmtQ79.qn.val).base + ((getQ (getL wState80 0) wFmtQ79.qn.val).rd + BitVec.ofNat 32 i).toNat % (getQ (getL wState80 0) wFmtQ79.qn.val).depth))) ∧ Runs 0 5 (.recv 0 wFmtQ79) wState80)
    ∧ ((0 < (getQ (getL wState80 0) wFmtQ81.qn.val).depth ∧ ((∀ i, i < (wFmtQ81.n.toNat + 1) → ((fun n => padAt (getL wState80 0) ((getQ (getL wState80 0) wFmtQ81.qn.val).base + ((getQ (getL wState80 0) wFmtQ81.qn.val).rd + BitVec.ofNat 32 n).toNat % (getQ (getL wState80 0) wFmtQ81.qn.val).depth)) i).parBad = false)) ∧ wFmtQ81.reg = true ∧ (getQ (getL wState80 0) wFmtQ81.qn.val).rd ≠ (getQ (getL wState80 0) wFmtQ81.qn.val).w ∧ ((fun n => padAt (getL wState80 0) ((getQ (getL wState80 0) wFmtQ81.qn.val).base + ((getQ (getL wState80 0) wFmtQ81.qn.val).rd + BitVec.ofNat 32 n).toNat % (getQ (getL wState80 0) wFmtQ81.qn.val).depth)) 0).poison = false) ∧ Runs 0 5 (.recv 0 wFmtQ81) wState80) :=
  ⟨⟨by decide +kernel, runs_of (by decide +kernel)⟩,
    ⟨by decide +kernel, runs_of (by decide +kernel)⟩⟩

/-- Hypotheses of Obligations.QueuePeek. -/
theorem test_witness_QueuePeek_0 : (0 < (getQ (getL wState80 0) wFmtQ82.qn.val).depth ∧ (padAt (getL wState80 0) ((getQ (getL wState80 0) wFmtQ82.qn.val).base + (getQ (getL wState80 0) wFmtQ82.qn.val).rd.toNat % (getQ (getL wState80 0) wFmtQ82.qn.val).depth)).parBad = false ∧ ((wFmtQ82.reg = false → rangeOk (getL wState80 0) wFmtQ82.line.toNat 1 = true ∧ (padAt (getL wState80 0) wFmtQ82.line.toNat).full = false)) ∧ (((Instr.qpeek 0 ⟨15, 65535, 0, false, 0, false⟩) = .qpeek 0 wFmtQ82 ∧ false = false ∨ (Instr.qpeek 0 ⟨15, 65535, 0, false, 0, false⟩) = .qpop 0 wFmtQ82 ∧ false = true)) ∧ (getQ (getL wState80 0) wFmtQ82.qn.val).rd ≠ (getQ (getL wState80 0) wFmtQ82.qn.val).w ∧ ((wFmtQ82.reg = false ∨ (padAt (getL wState80 0) ((getQ (getL wState80 0) wFmtQ82.qn.val).base + (getQ (getL wState80 0) wFmtQ82.qn.val).rd.toNat % (getQ (getL wState80 0) wFmtQ82.qn.val).depth)).poison = false))) ∧ Runs 0 5 (Instr.qpeek 0 ⟨15, 65535, 0, false, 0, false⟩) wState80 := ⟨by decide +kernel, runs_of (by decide +kernel)⟩

/-- Hypotheses of Obligations.QueuePeek. -/
theorem test_witness_QueuePeek_1 : (0 < (getQ (getL wState83 0) wFmtQ81.qn.val).depth ∧ (padAt (getL wState83 0) ((getQ (getL wState83 0) wFmtQ81.qn.val).base + (getQ (getL wState83 0) wFmtQ81.qn.val).rd.toNat % (getQ (getL wState83 0) wFmtQ81.qn.val).depth)).parBad = false ∧ ((wFmtQ81.reg = false → rangeOk (getL wState83 0) wFmtQ81.line.toNat 1 = true ∧ (padAt (getL wState83 0) wFmtQ81.line.toNat).full = false)) ∧ (((Instr.qpop 0 ⟨15, 0, 31, true, 0, false⟩) = .qpeek 0 wFmtQ81 ∧ true = false ∨ (Instr.qpop 0 ⟨15, 0, 31, true, 0, false⟩) = .qpop 0 wFmtQ81 ∧ true = true)) ∧ (getQ (getL wState83 0) wFmtQ81.qn.val).rd = (getQ (getL wState83 0) wFmtQ81.qn.val).w ∧ ((wFmtQ81.reg = false ∨ (getQ (getL wState83 0) wFmtQ81.qn.val).lastPoison = false))) ∧ Runs 0 5 (Instr.qpop 0 ⟨15, 0, 31, true, 0, false⟩) wState83 := ⟨by decide +kernel, runs_of (by decide +kernel)⟩

/-- Hypotheses of the clauses of Obligations.QueueMarks. -/
theorem test_witness_QueueMarks :
    (Runs 0 5 (.qmark 0 wFmtQ84) wState83 ∧ Runs 0 5 (.qrewind 0 wFmtQ84) wState83 ∧ Runs 0 5 (.qrel 0 wFmtQ84) wState83)
    ∧ (Runs 0 5 (.qstat 0 wFmtQ85) wState83) :=
  ⟨⟨runs_of (by decide +kernel), runs_of (by decide +kernel), runs_of (by decide +kernel)⟩,
    runs_of (by decide +kernel)⟩

/-- Hypotheses of Obligations.ArrayIssue. -/
theorem test_witness_ArrayIssue : (physOf (getL wState87 0) wFmtA86.array.toNat = some 254 ∧ wFmtA86.acc.toNat + modeBlocks (getArr (getL wState87 0) 254).mode ≤ 512 ∧ rangeOk (getL wState87 0) wFmtA86.src.toNat (inputLines wFmtA86.ifmt.toNat (wFmtA86.rows.toNat + 1)) = true ∧ ((wFmtA86.otd ≠ 0 → ∀ i, i < (tget (0, 0) (getL wState87 0).odesc wFmtA86.otd.toNat).2 → rangeOk (getL wState87 0) (tget (0, false, 0) (getL wState87 0).oent ((tget (0, 0) (getL wState87 0).odesc wFmtA86.otd.toNat).1 + i)).2.2 (digitalLines (getArr (getL wState87 0) 254).mode) = true)) ∧ soundLines (getL wState87 0) wFmtA86.src.toNat (inputLines wFmtA86.ifmt.toNat (wFmtA86.rows.toNat + 1)) ∧ hazard wState87 0 wFmtA86.src.toNat (inputLines wFmtA86.ifmt.toNat (wFmtA86.rows.toNat + 1)) (ifmtType wFmtA86.ifmt.toNat) = none ∧ (phasesOf ((prepare (getL wState87 0) ⟨(getL wState87 0).issued, wFmtA86.array.toNat, 254, wFmtA86.src.toNat, wFmtA86.ifmt.toFin, wFmtA86.rows.toNat + 1, wFmtA86.acc.toNat, wFmtA86.set, wFmtA86.clip.toNat, wFmtA86.otd.toNat, false, false, 0, [], [], (if wFmtA86.ifmt = 3 then 1079 else 556), (getL wState87 0).temp, (getArr (getL wState87 0) 254).drift⟩ (linesAt (getL wState87 0) wFmtA86.src.toNat (inputLines wFmtA86.ifmt.toNat (wFmtA86.rows.toNat + 1)))).1)).isEmpty = false ∧ (getL wState87 0).charge + (if wFmtA86.ifmt = 3 then 1079 else 556) ≤ (getL wState87 0).declared ∧ governorHolds wState87 (fieldOf 0) = false ∧ (getBank (getL wState87 0) (254 / 8)).slot = none) ∧ Runs 0 0 (.aop 0 wFmtA86) wState87 := ⟨by decide +kernel, runs_of (by decide +kernel)⟩

/-- Hypotheses of the clauses of Obligations.ArrayPhases. -/
theorem test_witness_ArrayPhases_0 :
    ((0 < 1600 ∧ 0 < 32 ∧ (getBank (getL wState88 0) 0).slot = some op0 ∧ governorHolds wState88 (fieldOf 0) = false ∧ accWaits (getL wState88 0) op0.seq op0.acc (modeBlocks (getArr (getL wState88 0) op0.phys).mode) op0.set = false ∧ phasesOf op0 = ((phasesOf op0).headD ph0) :: ((phasesOf op0).tail) ∧ (getBank (getL wState88 0) 0).wait = 0 ∧ (getBank (getL wState88 0) 0).run = none ∧ (getBank (getL wState88 0) 0).prog = none ∧ (getBank (getL wState88 0) 0).on = true ∧ derateHolds wState88 0 = false) ∧ (0 < 1600 ∧ 0 < 32 ∧ (getBank (getL wState89 0) 0).slot = none))
    ∧ (0 < 1600 ∧ 0 < 32 ∧ (getBank (getL wState90 0) 0).run = some ({ run0 [⟨1, 4, [0, 1], 0, [], false⟩] with op := { op0 with amps := [(0, 1), (900, 1)] } }) ∧ ({ run0 [⟨1, 4, [0, 1], 0, [], false⟩] with op := { op0 with amps := [(0, 1), (900, 1)] } }).todo = (⟨1, 4, [0, 1], 0, [], false⟩ : Phase) :: ([] : List Phase) ∧ ((liveSubs (phaseAmps ({ run0 [⟨1, 4, [0, 1], 0, [], false⟩] with op := { op0 with amps := [(0, 1), (900, 1)] } }).op (⟨1, 4, [0, 1], 0, [], false⟩ : Phase).weight) (⟨1, 4, [0, 1], 0, [], false⟩ : Phase).split).find? (fun k => decide ((⟨1, 4, [0, 1], 0, [], false⟩ : Phase).sub < k))).isSome = true ∧ (⟨1, 4, [0, 1], 0, [], false⟩ : Phase).resplit = false)
    ∧ (0 < 1600 ∧ 0 < 32 ∧ (getBank (getL wState91 0) 0).run = some (run0 [ph0]) ∧ (run0 [ph0]).todo = ph0 :: ([] : List Phase) ∧ ((∀ k, k ∈ liveSubs (phaseAmps (run0 [ph0]).op ph0.weight) ph0.split → k ≤ ph0.sub))) :=
  ⟨by decide +kernel,
    by decide +kernel,
    by decide +kernel⟩

/-- Hypotheses of Obligations.ArrayPhases. -/
theorem test_witness_ArrayPhases_1 : 0 < 1600 ∧ 0 < 32 ∧ (getBank (getL wState92 0) 0).late = [] ∧ (getBank (getL wState92 0) 0).run = some (run0 []) ∧ (run0 []).todo = [] ∧ (run0 []).placed = false ∧ (run0 []).wait = 0 ∧ (placeIn wState92 0 (arrayContrs (getL wState92 0) (run0 []))).isSome = true := by decide +kernel

/-- Hypotheses of Obligations.ArrayPhases. -/
theorem test_witness_ArrayPhases_2 : 0 < 1600 ∧ 0 < 32 ∧ (getBank (getL wState93 0) 0).late = [] ∧ (getBank (getL wState93 0) 0).run = some ({ run0 [] with op := { op0 with resid := [(5, 2)] } }) ∧ ({ run0 [] with op := { op0 with resid := [(5, 2)] } }).residDone = false ∧ ({ run0 [] with op := { op0 with resid := [(5, 2)] } }).resWait = 0 ∧ ({ run0 [] with op := { op0 with resid := [(5, 2)] } }).rows = [] ∧ wideFree (getL wState93 0) = true ∧ gather 0 (rowReads ((getArr (getL wState93 0) ({ run0 [] with op := { op0 with resid := [(5, 2)] } }).op.phys).mode) ({ run0 [] with op := { op0 with resid := [(5, 2)] } }).op.resid) wState93 = (((gather 0 (rowReads 2 [(5, 2)]) (mod { lan with arrays := [(0, { mode := 2 })], pad := fls 5 [1, 2, 3, 4, 5, 6, 7, 8], banks := [(0, { on := true, run := some { run0 [] with op := { op0 with resid := [(5, 2)] } } })] } part0)).1), ((gather 0 (rowReads 2 [(5, 2)]) (mod { lan with arrays := [(0, { mode := 2 })], pad := fls 5 [1, 2, 3, 4, 5, 6, 7, 8], banks := [(0, { on := true, run := some { run0 [] with op := { op0 with resid := [(5, 2)] } } })] } part0)).2.1), .all) ∧ (placeIn (countL (updBank ((gather 0 (rowReads 2 [(5, 2)]) (mod { lan with arrays := [(0, { mode := 2 })], pad := fls 5 [1, 2, 3, 4, 5, 6, 7, 8], banks := [(0, { on := true, run := some { run0 [] with op := { op0 with resid := [(5, 2)] } } })] } part0)).1) 0 0 (fun B_i => { B_i with run := some { ({ run0 [] with op := { op0 with resid := [(5, 2)] } }) with rows := ((gather 0 (rowReads 2 [(5, 2)]) (mod { lan with arrays := [(0, { mode := 2 })], pad := fls 5 [1, 2, 3, 4, 5, 6, 7, 8], banks := [(0, { on := true, run := some { run0 [] with op := { op0 with resid := [(5, 2)] } } })] } part0)).2.1) } })) 0 0x2B (badCells 2 ((gather 0 (rowReads 2 [(5, 2)]) (mod { lan with arrays := [(0, { mode := 2 })], pad := fls 5 [1, 2, 3, 4, 5, 6, 7, 8], banks := [(0, { on := true, run := some { run0 [] with op := { op0 with resid := [(5, 2)] } } })] } part0)).2.1))) 0 ((List.range (2048 / slicesOf ((getArr (getL wState93 0) ({ run0 [] with op := { op0 with resid := [(5, 2)] } }).op.phys).mode))).flatMap (residColumn ({ run0 [] with op := { op0 with resid := [(5, 2)] } }).op (splitRows (digitalLines ((getArr (getL wState93 0) ({ run0 [] with op := { op0 with resid := [(5, 2)] } }).op.phys).mode)) ({ run0 [] with op := { op0 with resid := [(5, 2)] } }).op.resid ((gather 0 (rowReads 2 [(5, 2)]) (mod { lan with arrays := [(0, { mode := 2 })], pad := fls 5 [1, 2, 3, 4, 5, 6, 7, 8], banks := [(0, { on := true, run := some { run0 [] with op := { op0 with resid := [(5, 2)] } } })] } part0)).2.1))))).isSome = true := by decide +kernel

/-- Hypotheses of the clauses of Obligations.ReferenceAndTemperature. -/
theorem test_witness_ReferenceAndTemperature :
    ((0 < 1600 ∧ 255 < 256 ∧ (getBank (getL wState94 0) (255 / 8)).on = true ∧ (getBank (getL wState94 0) (255 / 8)).slot = none ∧ (getBank (getL wState94 0) (255 / 8)).run = none ∧ (getBank (getL wState94 0) (255 / 8)).prog = none ∧ (getArr (getL wState94 0) 255).fresh < 15 ∧ nowNs wState94 < (getArr (getL wState94 0) 255).lastSample + 10000000000 ∧ ((∀ q, q < 4 → (sensorAt (getF wState94 (fieldOf 0)) q).bad = false))) ∧ (0 < 1600 ∧ 255 < 256 ∧ (getBank (getL wState95 0) (255 / 8)).run.isSome = true) ∧ (0 < 1600 ∧ 255 < 256 ∧ (getArr (getL wState96 0) 255).lastSample + 10000000000 ≤ nowNs wState96 ∧ (getArr (getL wState96 0) 255).stale = false))
    ∧ (0 < 1600 ∧ 255 < 256 ∧ ((∀ q, q < 6 → (sensorAt (getF wState97 (fieldOf 0)) q).bad = true))) :=
  ⟨by decide +kernel,
    by decide +kernel⟩

/-- Hypotheses of the clauses of Obligations.WaitsAndStore. -/
theorem test_witness_WaitsAndStore_0 :
    ((0 < 1600 ∧ (getL wState2 0).on = true ∧ (getL wState2 0).running = true ∧ (getL wState2 0).trapped = false ∧ 2 < 7 ∧ (getEng (getL wState2 0) 2).q = [] ∧ ((2 = 6 → portQuiet (getL wState2 0))) ∧ (getL wState2 0).held = none ∧ ((∀ d, d < 7 → (getEng (getL wState2 0) d).q = [])) ∧ portQuiet (getL wState2 0)) ∧ (0 < 1600 ∧ (getL wState99 0).running = false))
    ∧ (0 < 1600 ∧ 2 < 7 ∧ (getEng (getL wState100 0) 2).q = [wEngEntry98] ∧ (opReads wEngEntry98.op).drop wEngEntry98.got.length = [] ∧ ((2 = 6 → portQuiet (getL wState100 0))) ∧ stepOp 0 2 wEngEntry98 wState100 = .done (writePad (mod { lan with engines := [(2, { q := [(⟨0, 7, 0, .emit 3 [{ data := 9, full := true }], []⟩ : EngEntry)], wait := 2 })] } part0) 0 3 9 false 0xA) ∧ getEng (getL (writePad (mod { lan with engines := [(2, { q := [(⟨0, 7, 0, .emit 3 [{ data := 9, full := true }], []⟩ : EngEntry)], wait := 2 })] } part0) 0 3 9 false 0xA) 0) 2 = (getEng (getL wState100 0) 2) ∧ ((2 = 6 → portQuiet (getL (writePad (mod { lan with engines := [(2, { q := [(⟨0, 7, 0, .emit 3 [{ data := 9, full := true }], []⟩ : EngEntry)], wait := 2 })] } part0) 0 3 9 false 0xA) 0))))
    ∧ (0 < 1600 ∧ 2 < 7 ∧ (getEng (getL wState101 0) 2).q = wEngEntry98 :: [] ∧ (opReads wEngEntry98.op).drop wEngEntry98.got.length = [] ∧ ((2 = 6 → portQuiet (getL wState101 0))) ∧ stepOp 0 2 wEngEntry98 wState101 = .wait (getEng (getL wState101 0) 2).wait wEngEntry98.op (mod { lan with pad := fls 3 [4], engines := [(2, { q := [(⟨0, 7, 0, .emit 3 [{ data := 9, full := true }], []⟩ : EngEntry)], wait := 2 })] } part0)) :=
  ⟨by decide +kernel,
    by decide +kernel,
    by decide +kernel⟩

/-- Hypotheses of Obligations.WaitsAndStore. -/
theorem test_witness_WaitsAndStore_1 : (0 < 1600 ∧ 4 < 7 ∧ (getEng (getL wState102 0) 4).q = wEngEntry103 :: [] ∧ (getEng (getL wState102 0) 4).wait = 1 ∧ (opReads wEngEntry103.op).drop wEngEntry103.got.length = (⟨0, false, some 2⟩ : LineRead) :: [⟨1, false, some 2⟩] ∧ (padAt (getL wState102 0) (⟨0, false, some 2⟩ : LineRead).addr).full = false ∧ ((4 = 6 → portQuiet (getL wState102 0)))) ∧ (0 < 1600 ∧ (getL wState104 0).held = some ((Instr.nop 0 ⟨0⟩), 15, 0) ∧ (getL wState104 0).on = true ∧ (getL wState104 0).running = true ∧ (getL wState104 0).trapped = false ∧ (getL (attempt 0 (Instr.nop 0 ⟨0⟩) (seqTry (Instr.nop 0 ⟨0⟩)) (updL wState104 0 (fun L => { L with held := none }))) 0).held = none) := by decide +kernel

/-- Hypotheses of the clauses of Obligations.Arrivals. -/
theorem test_witness_Arrivals_0 :
    ((0 < 1600 ∧ (getL wState107 0).rx = wListFlit105 ++ wFlit106 :: wListFlit105 ∧ ((∀ g, g ∈ wListFlit105 → g.kind ≠ wFlit106.kind)) ∧ wFlit106.kind = 0 ∧ 0 < (getQ (getL wState107 0) wFlit106.sub.val).depth ∧ ((getQ (getL wState107 0) wFlit106.sub.val).w - (getQ (getL wState107 0) wFlit106.sub.val).l).toNat < (getQ (getL wState107 0) wFlit106.sub.val).depth) ∧ (0 < 1600 ∧ (getL wState108 0).rx = wListFlit105 ++ wFlit106 :: wListFlit105 ∧ ((∀ g, g ∈ wListFlit105 → g.kind ≠ wFlit106.kind)) ∧ wFlit106.kind = 0 ∧ (getQ (getL wState108 0) wFlit106.sub.val).depth ≤ ((getQ (getL wState108 0) wFlit106.sub.val).w - (getQ (getL wState108 0) wFlit106.sub.val).l).toNat))
    ∧ ((0 < 1600 ∧ (getL wState110 0).rx = wListFlit105 ++ wFlit109 :: wListFlit105 ∧ ((∀ g, g ∈ wListFlit105 → g.kind ≠ wFlit109.kind)) ∧ wFlit109.kind = 2 ∧ (getLane (getL wState110 0) (wFlit109.sub.val % 8)).used = true ∧ (getLane (getL wState110 0) (wFlit109.sub.val % 8)).buf.length < 128) ∧ (0 < 1600 ∧ (getL wState111 0).rx = wListFlit105 ++ wFlit109 :: wListFlit105 ∧ ((∀ g, g ∈ wListFlit105 → g.kind ≠ wFlit109.kind)) ∧ wFlit109.kind = 2 ∧ 128 ≤ (getLane (getL wState111 0) (wFlit109.sub.val % 8)).buf.length))
    ∧ (0 < 1600 ∧ (getL wState113 0).rx = wListFlit105 ++ wFlit112 :: wListFlit105 ∧ ((∀ g, g ∈ wListFlit105 → g.kind ≠ wFlit112.kind)) ∧ wFlit112.kind = 3 ∧ matchEntry (getL wState113 0) wFlit112.src (lineByte wFlit112.line 4) wFlit112.sub.val = some 3 ∧ (getSl (getL wState113 0) 3).credits + (lineField wFlit112.line 0 4) ≤ (getSl (getL wState113 0) 3).grant) :=
  ⟨by decide +kernel,
    by decide +kernel,
    by decide +kernel⟩

/-- Hypotheses of Obligations.Arrivals. -/
theorem test_witness_Arrivals_1 : (0 < 1600 ∧ (getL wState114 0).rx = wListFlit105 ++ wFlit112 :: wListFlit105 ∧ ((∀ g, g ∈ wListFlit105 → g.kind ≠ wFlit112.kind)) ∧ wFlit112.kind = 3 ∧ matchEntry (getL wState114 0) wFlit112.src (lineByte wFlit112.line 4) wFlit112.sub.val = some 3 ∧ (getSl (getL wState114 0) 3).grant < (getSl (getL wState114 0) 3).credits + lineField wFlit112.line 0 4) ∧ (0 < 1600 ∧ (getL wState115 0).rx = wListFlit105 ++ wFlit112 :: wListFlit105 ∧ ((∀ g, g ∈ wListFlit105 → g.kind ≠ wFlit112.kind)) ∧ wFlit112.kind = 3 ∧ matchEntry (getL wState115 0) wFlit112.src (lineByte wFlit112.line 4) wFlit112.sub.val = none) := by decide +kernel

/-- Hypotheses of the clauses of Obligations.KvArrivals. -/
theorem test_witness_KvArrivals_0 :
    ((0 < 1600 ∧ (getL wState117 0).rx = wListFlit105 ++ wFlit116 :: wListFlit105 ∧ ((∀ g, g ∈ wListFlit105 → g.kind ≠ 1)) ∧ wFlit116.kind = 1 ∧ wFlit116.sub = 0 ∧ intakeOf (getL wState117 0) wFlit116.src = none) ∧ (0 < 1600 ∧ (getL wState119 0).rx = wListFlit105 ++ wFlit118 :: wListFlit105 ∧ ((∀ g, g ∈ wListFlit105 → g.kind ≠ 1)) ∧ wFlit118.kind = 1 ∧ wFlit118.sub = 1 ∧ intakeOf (getL wState119 0) wFlit118.src = none) ∧ (0 < 1600 ∧ (getL wState120 0).rx = wListFlit105 ++ wFlit118 :: wListFlit105 ∧ ((∀ g, g ∈ wListFlit105 → g.kind ≠ 1)) ∧ wFlit118.kind = 1 ∧ wFlit118.sub = 1 ∧ intakeOf (getL wState120 0) wFlit118.src = some 0 ∧ 64 ≤ ((getL wState120 0).kvIn.filter (fun e => e.1 == 0)).length))
    ∧ (0 < 1600 ∧ (getL wState121 0).rx = wListFlit105 ++ wFlit116 :: wListFlit105 ∧ ((∀ g, g ∈ wListFlit105 → g.kind ≠ 1)) ∧ wFlit116.kind = 1 ∧ wFlit116.sub = 0 ∧ getEng (getL wState121 0) 6 = {} ∧ portQuiet (getL wState121 0) ∧ (padAt (getL wState121 0) (lineField wFlit116.line 0 2)).parBad = false ∧ (padAt (getL wState121 0) (lineField wFlit116.line 0 2)).poison = false ∧ intakeOf (getL wState121 0) wFlit116.src = some 0 ∧ headerOk (getL wState121 0) 0 wFlit116.line = true) :=
  ⟨by decide +kernel,
    by decide +kernel⟩

/-- Hypotheses of the clauses of Obligations.KvArrivals. -/
theorem test_witness_KvArrivals_1 :
    (0 < 1600 ∧ (getL wState123 0).rx = wListFlit105 ++ wFlit122 :: wListFlit105 ∧ ((∀ g, g ∈ wListFlit105 → g.kind ≠ 1)) ∧ wFlit122.kind = 1 ∧ wFlit122.sub = 0 ∧ getEng (getL wState123 0) 6 = {} ∧ portQuiet (getL wState123 0) ∧ (padAt (getL wState123 0) (lineField wFlit122.line 0 2)).parBad = false ∧ (padAt (getL wState123 0) (lineField wFlit122.line 0 2)).poison = false ∧ intakeOf (getL wState123 0) wFlit122.src = some 0 ∧ headerOk (getL wState123 0) 0 wFlit122.line = false)
    ∧ (0 < 1600 ∧ (getL wState124 0).rx = wListFlit105 ++ wFlit118 :: wListFlit105 ∧ ((∀ g, g ∈ wListFlit105 → g.kind ≠ 1)) ∧ wFlit118.kind = 1 ∧ wFlit118.sub = 1 ∧ getEng (getL wState124 0) 6 = {} ∧ portQuiet (getL wState124 0) ∧ intakeOf (getL wState124 0) wFlit118.src = some 0 ∧ (tget {} (getL wState124 0).intakes 0).msg = some (⟨100, 2, 1, 0, 0, true⟩ : KvMsg) ∧ (⟨100, 2, 1, 0, 0, true⟩ : KvMsg).rejected = true) :=
  ⟨by decide +kernel,
    by decide +kernel⟩

/-- Hypotheses of Obligations.KvArrivals. -/
theorem test_witness_KvArrivals_2 : 0 < 1600 ∧ (getL wState125 0).rx = wListFlit105 ++ wFlit118 :: wListFlit105 ∧ ((∀ g, g ∈ wListFlit105 → g.kind ≠ 1)) ∧ wFlit118.kind = 1 ∧ wFlit118.sub = 1 ∧ getEng (getL wState125 0) 6 = {} ∧ (getL wState125 0).kvIn = [] ∧ (getL wState125 0).kvNow = some 0 ∧ (getL wState125 0).move = none ∧ intakeOf (getL wState125 0) wFlit118.src = some 0 ∧ (tget {} (getL wState125 0).intakes 0).msg = some (⟨100, 2, 1, 0, 0, false⟩ : KvMsg) ∧ (⟨100, 2, 1, 0, 0, false⟩ : KvMsg).rejected = false ∧ (writeShare 0 (⟨100, 2, 1, 0, 0, false⟩ : KvMsg).desc ((⟨100, 2, 1, 0, 0, false⟩ : KvMsg).first + (⟨100, 2, 1, 0, 0, false⟩ : KvMsg).written / (2 * (descAt (getL wState125 0) (⟨100, 2, 1, 0, 0, false⟩ : KvMsg).desc).w * (descAt (getL wState125 0) (⟨100, 2, 1, 0, 0, false⟩ : KvMsg).desc).hloc)) ((⟨100, 2, 1, 0, 0, false⟩ : KvMsg).written % (2 * (descAt (getL wState125 0) (⟨100, 2, 1, 0, 0, false⟩ : KvMsg).desc).w * (descAt (getL wState125 0) (⟨100, 2, 1, 0, 0, false⟩ : KvMsg).desc).hloc)) [(wFlit118.line, wFlit118.poison)] (updL wState125 0 (fun L => { L with rx := wListFlit105 ++ wListFlit105 }))).isSome = true ∧ (⟨100, 2, 1, 0, 0, false⟩ : KvMsg).unacked ≠ 15 ∧ (⟨100, 2, 1, 0, 0, false⟩ : KvMsg).written + 1 ≠ (⟨100, 2, 1, 0, 0, false⟩ : KvMsg).n * (2 * (descAt (getL wState125 0) (⟨100, 2, 1, 0, 0, false⟩ : KvMsg).desc).w * (descAt (getL wState125 0) (⟨100, 2, 1, 0, 0, false⟩ : KvMsg).desc).hloc) := by decide +kernel

/-- Hypotheses of Obligations.KvArrivals. -/
theorem test_witness_KvArrivals_3 : 0 < 1600 ∧ (getL wState126 0).rx = wListFlit105 ++ wFlit118 :: wListFlit105 ∧ ((∀ g, g ∈ wListFlit105 → g.kind ≠ 1)) ∧ wFlit118.kind = 1 ∧ wFlit118.sub = 1 ∧ getEng (getL wState126 0) 6 = {} ∧ (getL wState126 0).kvIn = [] ∧ (getL wState126 0).kvNow = some 0 ∧ (getL wState126 0).move = none ∧ intakeOf (getL wState126 0) wFlit118.src = some 0 ∧ (tget {} (getL wState126 0).intakes 0).msg = some (⟨100, 2, 20, 15, 15, false⟩ : KvMsg) ∧ (⟨100, 2, 20, 15, 15, false⟩ : KvMsg).rejected = false ∧ (writeShare 0 (⟨100, 2, 20, 15, 15, false⟩ : KvMsg).desc ((⟨100, 2, 20, 15, 15, false⟩ : KvMsg).first + (⟨100, 2, 20, 15, 15, false⟩ : KvMsg).written / (2 * (descAt (getL wState126 0) (⟨100, 2, 20, 15, 15, false⟩ : KvMsg).desc).w * (descAt (getL wState126 0) (⟨100, 2, 20, 15, 15, false⟩ : KvMsg).desc).hloc)) ((⟨100, 2, 20, 15, 15, false⟩ : KvMsg).written % (2 * (descAt (getL wState126 0) (⟨100, 2, 20, 15, 15, false⟩ : KvMsg).desc).w * (descAt (getL wState126 0) (⟨100, 2, 20, 15, 15, false⟩ : KvMsg).desc).hloc)) [(wFlit118.line, wFlit118.poison)] (updL wState126 0 (fun L => { L with rx := wListFlit105 ++ wListFlit105 }))).isSome = true ∧ (⟨100, 2, 20, 15, 15, false⟩ : KvMsg).unacked = 15 ∧ (⟨100, 2, 20, 15, 15, false⟩ : KvMsg).written + 1 ≠ (⟨100, 2, 20, 15, 15, false⟩ : KvMsg).n * (2 * (descAt (getL wState126 0) (⟨100, 2, 20, 15, 15, false⟩ : KvMsg).desc).w * (descAt (getL wState126 0) (⟨100, 2, 20, 15, 15, false⟩ : KvMsg).desc).hloc) := by decide +kernel

/-- Hypotheses of Obligations.KvArrivals. -/
theorem test_witness_KvArrivals_4 : 0 < 1600 ∧ (getL wState127 0).rx = wListFlit105 ++ wFlit118 :: wListFlit105 ∧ ((∀ g, g ∈ wListFlit105 → g.kind ≠ 1)) ∧ wFlit118.kind = 1 ∧ wFlit118.sub = 1 ∧ getEng (getL wState127 0) 6 = {} ∧ (getL wState127 0).kvIn = [] ∧ (getL wState127 0).kvNow = some 0 ∧ (getL wState127 0).move = none ∧ intakeOf (getL wState127 0) wFlit118.src = some 0 ∧ (tget {} (getL wState127 0).intakes 0).msg = some (⟨100, 2, 1, 1, 1, false⟩ : KvMsg) ∧ (⟨100, 2, 1, 1, 1, false⟩ : KvMsg).rejected = false ∧ (writeShare 0 (⟨100, 2, 1, 1, 1, false⟩ : KvMsg).desc ((⟨100, 2, 1, 1, 1, false⟩ : KvMsg).first + (⟨100, 2, 1, 1, 1, false⟩ : KvMsg).written / (2 * (descAt (getL wState127 0) (⟨100, 2, 1, 1, 1, false⟩ : KvMsg).desc).w * (descAt (getL wState127 0) (⟨100, 2, 1, 1, 1, false⟩ : KvMsg).desc).hloc)) ((⟨100, 2, 1, 1, 1, false⟩ : KvMsg).written % (2 * (descAt (getL wState127 0) (⟨100, 2, 1, 1, 1, false⟩ : KvMsg).desc).w * (descAt (getL wState127 0) (⟨100, 2, 1, 1, 1, false⟩ : KvMsg).desc).hloc)) [(wFlit118.line, wFlit118.poison)] (updL wState127 0 (fun L => { L with rx := wListFlit105 ++ wListFlit105 }))).isSome = true ∧ (⟨100, 2, 1, 1, 1, false⟩ : KvMsg).unacked ≠ 15 ∧ (⟨100, 2, 1, 1, 1, false⟩ : KvMsg).written + 1 = (⟨100, 2, 1, 1, 1, false⟩ : KvMsg).n * (2 * (descAt (getL wState127 0) (⟨100, 2, 1, 1, 1, false⟩ : KvMsg).desc).w * (descAt (getL wState127 0) (⟨100, 2, 1, 1, 1, false⟩ : KvMsg).desc).hloc) := by decide +kernel

/-- Hypotheses of Obligations.KvArrivals. -/
theorem test_witness_KvArrivals_5 : 0 < 1600 ∧ (getL wState128 0).rx = wListFlit105 ++ wFlit118 :: wListFlit105 ∧ ((∀ g, g ∈ wListFlit105 → g.kind ≠ 1)) ∧ wFlit118.kind = 1 ∧ wFlit118.sub = 1 ∧ getEng (getL wState128 0) 6 = {} ∧ (getL wState128 0).kvIn = [] ∧ (getL wState128 0).kvNow = some 0 ∧ (getL wState128 0).move = none ∧ intakeOf (getL wState128 0) wFlit118.src = some 0 ∧ (tget {} (getL wState128 0).intakes 0).msg = some (⟨100, 2, 8, 15, 15, false⟩ : KvMsg) ∧ (⟨100, 2, 8, 15, 15, false⟩ : KvMsg).rejected = false ∧ (writeShare 0 (⟨100, 2, 8, 15, 15, false⟩ : KvMsg).desc ((⟨100, 2, 8, 15, 15, false⟩ : KvMsg).first + (⟨100, 2, 8, 15, 15, false⟩ : KvMsg).written / (2 * (descAt (getL wState128 0) (⟨100, 2, 8, 15, 15, false⟩ : KvMsg).desc).w * (descAt (getL wState128 0) (⟨100, 2, 8, 15, 15, false⟩ : KvMsg).desc).hloc)) ((⟨100, 2, 8, 15, 15, false⟩ : KvMsg).written % (2 * (descAt (getL wState128 0) (⟨100, 2, 8, 15, 15, false⟩ : KvMsg).desc).w * (descAt (getL wState128 0) (⟨100, 2, 8, 15, 15, false⟩ : KvMsg).desc).hloc)) [(wFlit118.line, wFlit118.poison)] (updL wState128 0 (fun L => { L with rx := wListFlit105 ++ wListFlit105 }))).isSome = true ∧ (⟨100, 2, 8, 15, 15, false⟩ : KvMsg).unacked = 15 ∧ (⟨100, 2, 8, 15, 15, false⟩ : KvMsg).written + 1 = (⟨100, 2, 8, 15, 15, false⟩ : KvMsg).n * (2 * (descAt (getL wState128 0) (⟨100, 2, 8, 15, 15, false⟩ : KvMsg).desc).w * (descAt (getL wState128 0) (⟨100, 2, 8, 15, 15, false⟩ : KvMsg).desc).hloc) := by decide +kernel

/-- Hypotheses of the clauses of Obligations.KvArrivals. -/
theorem test_witness_KvArrivals_6 :
    (0 < 1600 ∧ (getL wState130 0).rx = wListFlit105 ++ wFlit129 :: wListFlit105 ∧ ((∀ g, g ∈ wListFlit105 → g.kind ≠ 1)) ∧ wFlit129.kind = 1 ∧ wFlit129.sub = 2 ∧ portQuiet (getL wState130 0) ∧ xackEntry (getL wState130 0) wFlit129.src = some 3 ∧ (getSl (getL wState130 0) 3).credits + (lineField wFlit129.line 0 4) ≤ (getSl (getL wState130 0) 3).grant ∧ lineByte wFlit129.line 4 ≠ 1)
    ∧ ((0 < 1600 ∧ (getL wState132 0).rx = wListFlit105 ++ wFlit131 :: wListFlit105 ∧ ((∀ g_i, g_i ∈ wListFlit105 → g_i.kind ≠ 1)) ∧ wFlit131.kind = 1 ∧ wFlit131.sub = 2 ∧ portQuiet (getL wState132 0) ∧ xackEntry (getL wState132 0) wFlit131.src = some 3 ∧ (getSl (getL wState132 0) 3).credits + (lineField wFlit131.line 0 4) ≤ (getSl (getL wState132 0) 3).grant ∧ lineByte wFlit131.line 4 = 1 ∧ (getEng (getL wState132 0) 6).q = [(⟨0, 7, 0, .kxfrAck 3, []⟩ : EngEntry)] ∧ (⟨0, 7, 0, .kxfrAck 3, []⟩ : EngEntry).op = .kxfrAck 3) ∧ (0 < 1600 ∧ (getL wState134 0).rx = wListFlit105 ++ wFlit133 :: wListFlit105 ∧ ((∀ g, g ∈ wListFlit105 → g.kind ≠ 1)) ∧ wFlit133.kind = 1 ∧ 3 ≤ wFlit133.sub.val)) :=
  ⟨by decide +kernel,
    by decide +kernel⟩

/-- Hypotheses of the clauses of Obligations.ManagementWrites. -/
theorem test_witness_ManagementWrites :
    ((0 < 1600 ∧ 1 < 5 ∧ 0 < 16 ∧ (getL wState137 0).ctBase + (getL wState137 0).ctCount ≤ 110) ∧ (0 < 1600 ∧ 1 < 5 ∧ 0 < 16 ∧ changesState wState138 0 100 7 = true) ∧ (0 < 1600 ∧ 1 < 5 ∧ 0 < 16 ∧ ((MgmtOp.permitMask 0 0 31) = .permitMask 0 0 31 ∨ (MgmtOp.permitMask 0 0 31) = .routeExceptions 0 wListNatNatNat135) ∧ wState139.sec.routesLocked = true) ∧ (0 < 1600 ∧ 1 < 5 ∧ 0 < 16 ∧ 0xC000000000000000 ∈ wListWord140 ∧ orderWordOk 0xC000000000000000 = false))
    ∧ ((0 < 1600 ∧ 1 < 5 ∧ 0 < 16 ∧ (getL wState137 0).ctBase ≤ 101 ∧ 101 < (getL wState137 0).ctBase + (getL wState137 0).ctCount ∧ changesState wState137 0 101 7 = false ∧ wState137.sec.routesLocked = false ∧ (getRP wState137 0 1).sched = true ∧ 0 ≤ 1 ∧ 1 ≤ 1023 ∧ portPassed wState137 0 10 = false) ∧ ((∀ w, w ∈ wListWord136 → orderWordOk w = true))) :=
  ⟨by decide +kernel,
    ⟨by decide +kernel, List.all_eq_true.mp (by decide +kernel)⟩⟩

/-- Hypotheses of the clauses of Obligations.Furrows. -/
theorem test_witness_Furrows_0 :
    ((0 < 1600 ∧ 0 < 5 ∧ 0 < 16 ∧ ¬ wState142.badRouters.contains 0 ∧ (getL wState142 0).tx = [] ∧ ((∀ q, q < 5 → ((edgeTile 0 q).map (fun x => (getT wState142 x).tx)).getD [] = [])) ∧ takeIn wState142 0 0 wFin4141 false = none ∧ ((getRP wState142 0 0).sched = false ∨ portRuns wState142 0 = false)) ∧ (0 < 1600 ∧ 0 < 5 ∧ 2 < 5 ∧ 0 < 16 ∧ ¬ wState144.badRouters.contains 0 ∧ (getL wState144 0).tx = [] ∧ ((∀ q, q < 5 → ((edgeTile 0 q).map (fun x => (getT wState144 x).tx)).getD [] = [])) ∧ takeIn wState144 0 2 wFin4141 false = some (wFlit145, wState142) ∧ 0 = nextPort wState144 0 wFlit145.src wFlit145.dest ∧ permitted wState144 0 0 wFlit145.part = false))
    ∧ (0 < 1600 ∧ 2 < 5 ∧ 0 < 5 ∧ 0 < 16 ∧ ¬ wState146.badRouters.contains 0 ∧ (getL wState146 0).tx = [] ∧ ((∀ q, q < 5 → ((edgeTile 0 q).map (fun x => (getT wState146 x).tx)).getD [] = [])) ∧ takeIn wState146 0 0 wFin4141 false = some (wFlit147, wState148) ∧ 2 = nextPort wState146 0 wFlit147.src wFlit147.dest ∧ permitted wState146 0 2 wFlit147.part = true ∧ linksUp wState146 0 2 = 0) :=
  ⟨by decide +kernel,
    by decide +kernel⟩

/-- Hypotheses of the clauses of Obligations.Furrows. -/
theorem test_witness_Furrows_1 :
    (0 < 1600 ∧ 0 < 5 ∧ 2 < 5 ∧ 0 < 16 ∧ ¬ wState149.badRouters.contains 0 ∧ (getL wState149 0).tx = [] ∧ ((∀ q, q < 5 → ((edgeTile 0 q).map (fun x => (getT wState149 x).tx)).getD [] = [])) ∧ takeIn wState149 0 2 wFin4141 false = some (wFlit143, wState142) ∧ 0 = nextPort wState149 0 wFlit143.src wFlit143.dest ∧ permitted wState149 0 0 wFlit143.part = true ∧ linksUp wState149 0 0 ≠ 0 ∧ roomBehind wState149 0 0 wFlit143 = true ∧ slotHolds wState149 0 wFlit143 = false ∧ slotTaken wState149 0 0 wFlit143 = false ∧ servedBefore wState149 0 0 2 wFlit143 = false ∧ ((wFin4141 ≠ 0 → inTurn wState149 0 0 wFin4141.val = true)))
    ∧ (0 < 1600 ∧ 0 < 5 ∧ 0 < 16 ∧ ¬ wState150.badRouters.contains 0 ∧ (getL wState150 0).tx = [] ∧ ((∀ q, q < 5 → ((edgeTile 0 q).map (fun x => (getT wState150 x).tx)).getD [] = [])) ∧ (getRP wState150 0 0).sched = true ∧ portRuns wState150 0 = true ∧ isRun (orderEntry (getRP wState150 0 0)) = true ∧ inputTaken wState150 0 0 (entryField (orderEntry (getRP wState150 0 0)) 59 3) = false ∧ takeSched wState150 0 (entryField (orderEntry (getRP wState150 0 0)) 59 3) = some (wFlit151, wState152) ∧ permitted wState150 0 0 wFlit151.part = true ∧ linksUp wState150 0 0 ≠ 0 ∧ roomBehind wState150 0 0 wFlit151 = true ∧ servedBefore wState150 0 0 (entryField (orderEntry (getRP wState150 0 0)) 59 3) wFlit151 = false ∧ inTurn wState150 0 0 0 = true ∧ debugOn wState150 ((partOf wState150 0).getD 16) = false) :=
  ⟨by decide +kernel,
    by decide +kernel⟩

/-- Hypotheses of the clauses of Obligations.Furrows. -/
theorem test_witness_Furrows_2 :
    ((0 < 1600 ∧ 0 < 5 ∧ 0 < 16 ∧ ¬ wState153.badRouters.contains 0 ∧ (getL wState153 0).weirHeld = (7, wFlit143) :: [] ∧ weirOpen (getL wState153 0).weirLast (getL wState153 0).weirK (nowNs wState153) = true) ∧ (0 < 1600 ∧ 0 < 5 ∧ 0 < 16 ∧ ¬ wState154.badRouters.contains 0 ∧ 39 < 40 ∧ (getT wState154 39).weirHeld = [{ flit 0 15 9 with tag := 3 }] ++ wFlit143 :: [] ∧ ((∀ x, x ∈ [{ flit 0 15 9 with tag := 3 }] → x.part ≠ 0)) ∧ wFlit143.part = 0 ∧ ((tget 0 (getT wState154 39).weirLast 0) = 0 ∨ (tget 0 (getT wState154 39).weirLast 0) - 1 + weirP (tget 0 (getT wState154 39).weirK 0) ≤ nowNs wState154)))
    ∧ ((0 < 1600 ∧ 0 < 5 ∧ 0 < 16 ∧ ¬ wState155.badRouters.contains 0 ∧ (getRP wState155 0 0).sched = true ∧ portRuns wState155 0 = true ∧ isEndstep (orderEntry (getRP wState155 0 0)) = true ∧ (getRP wState155 0 0).switchAt = none) ∧ (0 < 1600 ∧ 0 < 5 ∧ 0 < 16 ∧ ¬ wState156.badRouters.contains 0 ∧ (getRP wState156 0 0).sched = true ∧ portRuns wState156 0 = true ∧ isEndstep (orderEntry (getRP wState156 0 0)) = true ∧ (getRP wState156 0 0).switchAt = some 4 ∧ 4 ≤ (getRP wState156 0 0).steps + entryField (orderEntry (getRP wState156 0 0)) 0 12 + 1)) :=
  ⟨by decide +kernel,
    by decide +kernel⟩

/-- Hypotheses of the clauses of Obligations.LinkErrors. -/
theorem test_witness_LinkErrors_0 :
    (0 < 1600 ∧ 2 < 5 ∧ 1 < 4 ∧ linkPlace 0 2 1 = (0, 2, false, 1) ∧ (tget {} (getDir wState142 0 2 false).link 1).up = true ∧ (match (tget {} (getDir wState142 0 2 false).link 1).fails with | some (g, m) => if g = 9 then m + 1 else 1 | none => 1) < 3 ∧ (nowNs wState142 :: (tget {} (getDir wState142 0 2 false).link 1).misses.filter (fun t => decide (nowNs wState142 < t + 1000000))).length < 16)
    ∧ (0 < 1600 ∧ 2 < 5 ∧ 1 < 4 ∧ linkPlace 0 2 1 = (0, 2, false, 1) ∧ (tget {} (getDir wState157 0 2 false).link 1).up = true ∧ (3 ≤ (match (tget {} (getDir wState157 0 2 false).link 1).fails with | some (g, m) => if g = 9 then m + 1 else 1 | none => 1) ∨ 16 ≤ (nowNs wState157 :: (tget {} (getDir wState157 0 2 false).link 1).misses.filter (fun t => decide (nowNs wState157 < t + 1000000))).length) ∧ (tget {} (getDir wState157 0 2 false).link (1 - 1)).up = true)
    ∧ ((0 < 1600 ∧ 2 < 5 ∧ 1 < 4 ∧ linkPlace 0 2 1 = (0, 2, false, 1) ∧ (tget {} (getDir wState158 0 2 false).link 1).up = true ∧ (3 ≤ (match (tget {} (getDir wState158 0 2 false).link 1).fails with | some (g, m) => if g = 9 then m + 1 else 1 | none => 1) ∨ 16 ≤ (nowNs wState158 :: (tget {} (getDir wState158 0 2 false).link 1).misses.filter (fun t => decide (nowNs wState158 < t + 1000000))).length) ∧ (tget {} (getDir wState158 0 2 false).link (1 - 1)).up = false) ∧ (0 < 1600 ∧ 2 < 5 ∧ 1 < 4 ∧ linkPlace 0 2 1 = (0, 2, false, 1) ∧ (tget {} (getDir wState159 0 2 false).link 1).up = false) ∧ (0 < 1600 ∧ 2 < 5 ∧ 1 < 4 ∧ linkPlace 0 2 1 = (0, 2, false, 1) ∧ (tget {} (getDir wState142 0 2 false).link 1).up = true)) :=
  ⟨by decide +kernel,
    by decide +kernel,
    by decide +kernel⟩

/-- Hypotheses of the clauses of Obligations.LinkErrors. -/
theorem test_witness_LinkErrors_1 :
    ((0 < 1600 ∧ 2 < 5 ∧ 1 < 4 ∧ linkPlace 0 2 1 = (0, 2, false, 1) ∧ (tget {} (getDir wState159 0 2 false).link 1).up = false ∧ wLaneResult160.triplet ≤ 1 ∧ wLaneResult160.wires = []) ∧ (3 < 1600 ∧ 2 < 5 ∧ 1 < 4 ∧ linkPlace 3 2 1 = (3, 2, false, 1) ∧ (tget {} (getDir wState161 3 2 false).link 1).up = false ∧ 2 ≤ wLaneResult162.triplet ∧ boundaryLink 3 2 = true ∧ spareUsed wState161 (linkCode 3 2 (1 + (if false then 2 else 0))) = false ∧ wState161.repair.entries.length < 8192))
    ∧ (0 < 1600 ∧ 2 < 5 ∧ 1 < 4 ∧ linkPlace 0 2 1 = (0, 2, false, 1) ∧ (tget {} (getDir wState159 0 2 false).link 1).up = false ∧ 2 ≤ wLaneResult162.triplet ∧ (boundaryLink 0 2 = false ∨ spareUsed wState159 (linkCode 0 2 (1 + (if false then 2 else 0))) = true) ∧ wState159.repair.entries.length < 8192) :=
  ⟨by decide +kernel,
    by decide +kernel⟩

/-- Hypotheses of the clauses of Obligations.RimFlits. -/
theorem test_witness_RimFlits_0 :
    (23 < 40 ∧ (getT wState164 (tileMain 23)).rx = wListFlit105 ++ wFlit163 :: wListFlit105 ∧ wFlit163.kind = 4 ∧ wFlit163.sub = 0 ∧ (tileHost 23).isSome = true ∧ ((∀ g, g ∈ wListFlit105 → isRim (· == 0) g = false)) ∧ reqOn wState164 wFlit163.part (lineField wFlit163.line 16 2) = some req0 ∧ req0.written = BitVec.ofNat 32 (lineField wFlit163.line 18 4) ∧ (req0.written - req0.cons).toNat < 2 ^ req0.rlog2)
    ∧ (23 < 40 ∧ (getT wState166 (tileMain 23)).rx = wListFlit105 ++ wFlit165 :: wListFlit105 ∧ wFlit165.kind = 4 ∧ wFlit165.sub = 0 ∧ (tileHost 23).isSome = true ∧ ((∀ g, g ∈ wListFlit105 → isRim (· == 0) g = false)) ∧ reqOn wState166 wFlit165.part (lineField wFlit165.line 16 2) = some req0 ∧ 2 ^ req0.rlog2 ≤ (BitVec.ofNat 32 (lineField wFlit165.line 18 4) - req0.cons).toNat)
    ∧ ((23 < 40 ∧ (getT wState168 (tileMain 23)).rx = wListFlit105 ++ wFlit167 :: wListFlit105 ∧ wFlit167.kind = 4 ∧ wFlit167.sub = 1 ∧ (tileHost 23).isSome = true ∧ ((∀ g, g ∈ wListFlit105 → isRim (fun c => decide (c ≤ 1)) g = false)) ∧ reqOn wState168 wFlit167.part (lineField wFlit167.line 0 2) = some req0 ∧ 1 ≤ lineByte wFlit167.line 2 ∧ lineByte wFlit167.line 2 ≤ 8) ∧ (18 < 40 ∧ (getT wState169 (tileMain 18)).rx = wListFlit105 ++ wFlit163 :: wListFlit105 ∧ wFlit163.kind = 4 ∧ wFlit163.sub = 0 ∧ 18 = 18 ∧ ((∀ g, g ∈ wListFlit105 → isRim (· == 0) g = false)))) :=
  ⟨by decide +kernel,
    by decide +kernel,
    by decide +kernel⟩

/-- Hypotheses of the clauses of Obligations.RimFlits. -/
theorem test_witness_RimFlits_1 :
    ((33 < 40 ∧ (getT wState171 (tileMain 33)).rx = wListFlit105 ++ wFlit170 :: wListFlit105 ∧ wFlit170.kind = 4 ∧ tileZenden 33 = some 0 ∧ wFlit170.sub.val < 15 ∧ ((∀ g, g ∈ wListFlit105 → isRim (fun c => decide (c < 15)) g = false)) ∧ holdsChannel wState171 0 wFlit170.sub.val wFlit170.part = true) ∧ (33 < 40 ∧ (getT wState172 (tileMain 33)).rx = wListFlit105 ++ wFlit170 :: wListFlit105 ∧ wFlit170.kind = 4 ∧ tileZenden 33 = some 0 ∧ wFlit170.sub.val < 15 ∧ ((∀ g, g ∈ wListFlit105 → isRim (fun c => decide (c < 15)) g = false)) ∧ holdsChannel wState172 0 wFlit170.sub.val wFlit170.part = false))
    ∧ ((23 < 40 ∧ (getT wState174 (tileMain 23)).rx = wListFlit105 ++ wFlit173 :: wListFlit105 ∧ wFlit173.kind = 4 ∧ unlisted 23 wFlit173.sub.val = true ∧ ((∀ g, g ∈ wListFlit105 → isRim (unlisted 23) g = false))) ∧ (39 < 40 ∧ (getT wState175 (tileMain 39)).rx = wListFlit105 ++ wFlit173 :: wListFlit105 ∧ wFlit173.kind = 4 ∧ ((∀ e, e ∈ allParts (mod lan { part0 with cistern := false }) → granted e.2 39 = false))) ∧ (23 < 40 ∧ (getT wState164 (tileMain 23)).rx = wListFlit105 ++ wFlit163 :: wListFlit105 ∧ wFlit163.kind = 4 ∧ (mod lan part0).parts = [(0, some part0)] ∧ granted part0 23 = true)) :=
  ⟨by decide +kernel,
    by decide +kernel⟩

/-- Hypotheses of the clauses of Obligations.ZendenLinksAndRing. -/
theorem test_witness_ZendenLinksAndRing_0 :
    ((0 < 4 ∧ (getZ wState177 0).up = true ∧ wZGroup176.idle = false ∧ wZGroup176.check = true ∧ wZGroup176.failed = 0 ∧ wZGroup176.gseq = (getZ wState177 0).expect) ∧ (0 < 4 ∧ (getZ wState177 0).up = true ∧ ((wZGroup178.idle = true ∨ 0 < wZGroup178.failed ∨ wZGroup178.check = false ∨ wZGroup178.gseq ≠ (getZ wState177 0).expect))) ∧ (0 < 4 ∧ (getZ wState179 0).up = false) ∧ (0 < 4 ∧ ((getZ wState181 0).kept = [] ∨ (getZ wState181 0).up = false) ∧ (getZ wState181 0).up = true ∧ (getZ wState181 0).out = [] ∧ portIn wState181 0 = 0 ∧ portOut wState181 0 = 0) ∧ (0 < 4 ∧ (getZ wState182 0).up = true ∧ downCause wState182 0 ZDown.resent8 = true ∧ (getZ wState182 0).suspendTo ≤ nowNs wState182))
    ∧ ((0 < 4 ∧ ((getZ wState179 0).up = false ∨ nowNs wState179 < (getZ wState179 0).suspendTo ∨ downCause wState179 0 ZDown.resent8 = false)) ∧ (0 < 4 ∧ wState183.ring.size ≠ 0 ∧ (0 = 0 ∨ 0 = 2) ∧ wState183.ring.lost = none) ∧ (0 < 4 ∧ wState184.boot.rails = true ∧ (getZ wState184 0).up = false) ∧ (0 < 4 ∧ (wState177.boot.rails = false ∨ (getZ wState177 0).up = true)) ∧ (0 < 4 ∧ (getZ wState177 0).up = true ∧ wState177.ring.forming = none ∧ 3 ≤ 14 ∧ wState177.ring.index = 0 ∧ wState177.ring.taken = none) ∧ (0 < 4 ∧ (getZ wState177 0).up = true ∧ wState177.ring.forming = none ∧ 15 ≤ 15) ∧ (0 < 4 ∧ (getZ wState185 0).up = true ∧ wState185.ring.forming = some 5 ∧ 15 ≤ 15))
    ∧ ((0 < 4 ∧ (getZ wState180 0).kept = ({ gseq := 5, flits := [], times := 7, sentAt := 4, head := 0, check := 0 } : KeptGroup) :: [] ∧ (getZ wState180 0).up = true) ∧ ({ gseq := 5, flits := [], times := 7, sentAt := 4, head := 0, check := 0 } : KeptGroup).sentAt + ackTime 0 ≤ nowNs wState180) :=
  ⟨by decide +kernel,
    by decide +kernel,
    ⟨by decide +kernel, ackTime_le _ _ _ (by decide +kernel)⟩⟩

/-- Hypotheses of Obligations.ZendenLinksAndRing. -/
theorem test_witness_ZendenLinksAndRing_1 : (0 < 4 ∧ (getZ wState185 0).up = true ∧ wState185.ring.forming = some 5 ∧ 16 ≤ 16) ∧ (0 < 4 ∧ wState186.ring.index ≠ 0) ∧ (0 < 4 ∧ wState187.ring.forming = some 5 ∧ 5 + 10000000 ≤ nowNs wState187) ∧ (0 < 4 ∧ wState188.ring.forming = none ∧ wState188.ring.taken = some 5 ∧ 5 + 10000000 ≤ nowNs wState188) := by decide +kernel

/-- Hypotheses of the clauses of Obligations.StepTree. -/
theorem test_witness_StepTree :
    ((0 < 16 ∧ 0 < 1600 ∧ getPart wState189 0 = some wPartition190 ∧ wPartition190.running = true ∧ openLanterns wState189 wPartition190 = [] ∧ wPartition190.boundAt + stepNow wPartition190 ≤ nowNs wState189) ∧ (0 < 16 ∧ 0 < 1600 ∧ getPart wState191 0 = some wPartition192 ∧ (openLanterns wState191 wPartition192 ≠ [] ∨ nowNs wState191 < wPartition192.boundAt + stepNow wPartition192)) ∧ (0 < 16 ∧ 0 < 1600 ∧ getPart wState193 0 = some wPartition194 ∧ partOf wState193 0 = some 0 ∧ wPartition194.running = true ∧ (getL wState193 0).seen < wPartition194.bound))
    ∧ ((0 < 16 ∧ 0 < 1600 ∧ getPart wState195 0 = some wPartition196 ∧ wPartition196.bound ≤ (getL wState195 0).seen ∧ partOf wState195 0 = some 0 ∧ openLanterns wState195 wPartition196 = [] ∧ wPartition196.running = true) ∧ (0 < 16 ∧ 0 < 1600 ∧ getPart wState197 0 = some wPartition198 ∧ wPartition198.running = true ∧ wPartition198.state ≠ .empty ∧ wPartition198.state ≠ .loaded ∧ openLanterns wState197 wPartition198 = 0 :: [] ∧ wPartition198.boundAt + stepNow wPartition198 + 1000 * wPartition198.watchdog ≤ nowNs wState197) ∧ (0 < 16 ∧ 0 < 1600 ∧ getPart wState199 0 = some wPartition200 ∧ wPartition200.running = false)) :=
  ⟨by decide +kernel,
    by decide +kernel⟩

/-- Hypotheses of the clauses of Obligations.FaultHandling. -/
theorem test_witness_FaultHandling :
    ((0 < 16 ∧ getPart wState201 0 = some wPartition202 ∧ wPartition202.newFaults = rec0 :: []) ∧ (0 < 16 ∧ getPart wState195 0 = some wPartition196 ∧ wPartition196.newFaults = []) ∧ (0 < 16 ∧ getPart wState203 0 = some wPartition204 ∧ wPartition204.state = .faulted ∧ wPartition204.retested = false ∧ wPartition204.newFaults = [] ∧ wPartition204.handling = some rec0 ∧ reserveHeld wState203 wPartition204 = false ∧ rec0.cls = 0 ∧ rec0.cause ≠ 7 ∧ ((∀ l, l ∈ partLanterns wState203 wPartition204 → ¬ wState203.badLanterns.contains l)) ∧ [0] = nowNs wState203 :: wPartition204.progFaults.filter (fun t => decide (nowNs wState203 < t + 600000000000))))
    ∧ (0 < 16 ∧ getPart wState205 0 = some wPartition206 ∧ wPartition206.state = .faulted ∧ wPartition206.retested = false ∧ wPartition206.newFaults = [] ∧ wPartition206.handling = some rec0 ∧ reserveHeld wState205 wPartition206 = false ∧ 1 < 1600 ∧ 1 ∈ wPartition206.suspects ∧ (partOf wState205 1 = none ∨ partOf wState205 1 = some 0) ∧ 2 < 1640 ∧ 41 < 1640 ∧ 2 ≠ 41 ∧ isVoter 2 1 = true ∧ isVoter 41 1 = true ∧ ¬ wState205.badRouters.contains 2 ∧ ¬ wState205.badRouters.contains 41)
    ∧ (0 < 16 ∧ getPart wState207 0 = some wPartition208 ∧ wPartition208.state = .faulted ∧ wPartition208.retested = true ∧ wPartition208.newFaults = [] ∧ wState207.sec.restarting = false ∧ notReady wState207 wPartition208 = false ∧ wPartition208.handling = some rec0 ∧ wPartition208.wasDraining = false ∧ wPartition208.shortfall = false) :=
  ⟨by decide +kernel,
    by decide +kernel,
    by decide +kernel⟩

/-- Hypotheses of Obligations.ScrubsAndProcessors. -/
theorem test_witness_ScrubsAndProcessors : (0 < 1600 ∧ ((∀ e, e ∈ wState195.lanterns → e.2.crcBad = false)) ∧ ((∀ e, e ∈ wState195.routers → e.2.crcBad = false)) ∧ wState195.sec.restarting = false) ∧ (0 < 1600 ∧ (wState209.lanterns.filter (fun e => e.2.crcBad)).map (·.1) = [0] ∧ ((∀ e, e ∈ wState209.routers → e.2.crcBad = false)) ∧ partOf wState209 0 = some 0) ∧ (0 < 1600 ∧ wState210.boot.aUp = true ∧ wState210.boot.bUp = true ∧ wState210.boot.bActive = false) ∧ (0 < 1600 ∧ wState211.sec.rom = true ∧ wState211.sec.error = false) ∧ (0 < 1600 ∧ wState212.boot.aUp = true ∧ wState212.boot.bUp = false) ∧ (0 < 1600 ∧ wState213.boot.hold = true) ∧ (0 < 1600 ∧ wState214.sec.restarting = true ∧ wState214.sec.error = false) := by decide +kernel

/-- Hypotheses of the clauses of Obligations.RequestPasses. -/
theorem test_witness_RequestPasses_0 :
    ((0 < 16 ∧ getPart wState216 0 = some wPartition217 ∧ findReq wPartition217 7 = some wRequest218 ∧ wRequest218.inPass = true ∧ wRequest218.resuming = false ∧ wRequest218.gen = [] ∧ wRequest218.state = .prefill ∧ wTok215.poison = false ∧ stopOf wRequest218 [wTok215.id] wTok215.id = none) ∧ (0 < 16 ∧ getPart wState219 0 = some wPartition220 ∧ findReq wPartition220 7 = some wRequest221 ∧ wRequest221.inPass = true ∧ wRequest221.resuming = false ∧ wRequest221.gen = [] ∧ wRequest221.state = .prefill ∧ (if wTok215.poison then some (0x27, 0) else stopOf wRequest221 [wTok215.id] wTok215.id) = some (0x20, 1)))
    ∧ (0 < 16 ∧ getPart wState222 0 = some wPartition223 ∧ findReq wPartition223 7 = some wRequest224 ∧ wRequest224.inPass = true ∧ wRequest224.resuming = false ∧ wRequest224.state = .decode ∧ ([9, 5] : List (BitVec 32)).length = (if drafting wRequest224 then wRequest224.draftK else 0) ∧ ([⟨9, 0, false⟩, ⟨8, 0, false⟩, ⟨7, 0, false⟩] : List Tok).length = ([9, 5] : List (BitVec 32)).length + 1 ∧ 2 = acceptedDrafts ([⟨9, 0, false⟩, ⟨8, 0, false⟩, ⟨7, 0, false⟩] : List Tok) ([9, 5] : List (BitVec 32)) + 1 ∧ ((∀ x, x ∈ ([⟨9, 0, false⟩, ⟨8, 0, false⟩, ⟨7, 0, false⟩] : List Tok) → x.poison = false)) ∧ wRequest224.ends = [] ∧ wRequest224.stops = [] ∧ wRequest224.gen.length + 2 < wRequest224.maxNew)
    ∧ (0 < 16 ∧ getPart wState225 0 = some wPartition226 ∧ findReq wPartition226 7 = some wRequest227 ∧ wRequest227.state = .held ∧ wRequest227.inPass = false ∧ passYield wRequest227 ≤ runnelRoom wRequest227) :=
  ⟨by decide +kernel,
    by decide +kernel,
    by decide +kernel⟩

/-- Hypotheses of the clauses of Obligations.RequestPasses. -/
theorem test_witness_RequestPasses_1 :
    ((0 < 16 ∧ getPart wState228 0 = some wPartition229 ∧ findReq wPartition229 7 = some wRequest230 ∧ wRequest230.state = .held ∧ wRequest230.inPass = false ∧ runnelRoom wRequest230 < passYield wRequest230) ∧ (0 < 16 ∧ getPart wState231 0 = some wPartition232 ∧ findReq wPartition232 7 = some wRequest233 ∧ wRequest233.state = .ending ∧ wRequest233.inPass = false ∧ stageBusy wRequest233 = false ∧ wRequest233.written9 = false ∧ wRequest233.silent = false ∧ toStore wRequest233 = false ∧ getQp wState231 wRequest233.fn wRequest233.sqid = some qp0 ∧ qp0.held = [] ∧ cqRoom qp0 = true))
    ∧ (0 < 16 ∧ getPart wState234 0 = some wPartition235 ∧ findReq wPartition235 7 = some wRequest236 ∧ (wRequest236.inPass = true ∨ stageBusy wRequest236 = true)) :=
  ⟨by decide +kernel,
    by decide +kernel⟩

/-- Hypotheses of the clauses of Obligations.ContextsAndTimers. -/
theorem test_witness_ContextsAndTimers_0 :
    ((0 < 16 ∧ getPart wState237 0 = some wPartition238 ∧ findReq wPartition238 7 = some wRequest239 ∧ wRequest239.state = .ending ∧ wRequest239.inPass = false ∧ toStore wRequest239 = true ∧ wRequest239.handle = 0 ∧ wRequest239.resuming = false ∧ wState237.sec.restarting = false ∧ wRequest239.stage = .out [] []) ∧ (0 < 16 ∧ getPart wState240 0 = some wPartition241 ∧ findReq wPartition241 7 = some wRequest242 ∧ (wRequest242.stage = .out ((⟨0, 0, 1, 0⟩ : PageMove) :: ([] : List PageMove)) ([] : List PageMove) ∨ wRequest242.stage = .out ([] : List PageMove) ((⟨0, 0, 1, 0⟩ : PageMove) :: ([] : List PageMove)))))
    ∧ ((0 < 16 ∧ getPart wState234 0 = some wPartition235 ∧ findReq wPartition235 7 = some wRequest236 ∧ toStore wRequest236 = false) ∧ (0 < 16 ∧ getPart wState243 0 = some wPartition244 ∧ findReq wPartition244 7 = some wRequest245 ∧ wRequest245.resuming = true ∧ wState243.sec.restarting = false ∧ wState243.sec.error = false ∧ wRequest245.stage = .back [] [] false))
    ∧ ((0 < 16 ∧ getPart wState246 0 = some wPartition247 ∧ findReq wPartition247 7 = some wRequest248 ∧ wRequest248.resuming = true ∧ wState246.sec.error = false ∧ (wRequest248.stage = .back ((⟨0, 0, 1, 0⟩ : PageMove) :: ([] : List PageMove)) ([] : List PageMove) false ∨ wRequest248.stage = .back ([] : List PageMove) ((⟨0, 0, 1, 0⟩ : PageMove) :: ([] : List PageMove)) false)) ∧ (0 < 16 ∧ getPart wState249 0 = some wPartition250 ∧ findReq wPartition250 7 = some wRequest251 ∧ wRequest251.resuming = true ∧ wState249.sec.restarting = false ∧ wRequest251.state ≠ .ending ∧ wRequest251.stage = .back ([] : List PageMove) ([] : List PageMove) true)) :=
  ⟨by decide +kernel,
    by decide +kernel,
    by decide +kernel⟩

/-- Hypotheses of the clauses of Obligations.ContextsAndTimers. -/
theorem test_witness_ContextsAndTimers_1 :
    ((0 < 16 ∧ getPart wState252 0 = some wPartition253 ∧ findReq wPartition253 7 = some wRequest254 ∧ findCtx wState252 6 = some ctx0 ∧ ctx0.busy = false ∧ ctx0.expiry ≤ nowNs wState252) ∧ (0 < 16 ∧ getPart wState255 0 = some wPartition256 ∧ findReq wPartition256 7 = some wRequest257 ∧ findCtx wState255 6 = some ctx0 ∧ (ctx0.busy = true ∨ nowNs wState255 < ctx0.expiry)))
    ∧ (0 < 16 ∧ getPart wState258 0 = some wPartition259 ∧ findReq wPartition259 7 = some wRequest260 ∧ (⟨.a, 1⟩ : Fn).num ≤ 16 ∧ getQp wState258 (⟨.a, 1⟩ : Fn) 1 = some ({ qp0 with int := { vector := 3, time := 2, first := some 0 } }) ∧ ({ qp0 with int := { vector := 3, time := 2, first := some 0 } }).int.first = some 0 ∧ 0 < ({ qp0 with int := { vector := 3, time := 2, first := some 0 } }).int.time ∧ 0 + 1000 * ({ qp0 with int := { vector := 3, time := 2, first := some 0 } }).int.time ≤ nowNs wState258)
    ∧ (0 < 16 ∧ getPart wState261 0 = some wPartition262 ∧ findReq wPartition262 7 = some wRequest263 ∧ (⟨.a, 1⟩ : Fn).num ≤ 16 ∧ (getFn wState261 (⟨.a, 1⟩ : Fn)).ring = some ({ ring0 with int := { vector := 3, time := 2, first := some 0 } }) ∧ ({ ring0 with int := { vector := 3, time := 2, first := some 0 } }).int.first = some 0 ∧ 0 < ({ ring0 with int := { vector := 3, time := 2, first := some 0 } }).int.time ∧ 0 + 1000 * ({ ring0 with int := { vector := 3, time := 2, first := some 0 } }).int.time ≤ nowNs wState261)
    ∧ (0 < 16 ∧ getPart wState264 0 = some wPartition265 ∧ findReq wPartition265 7 = some wRequest266 ∧ (⟨.a, 1⟩ : Fn).num ≤ 16 ∧ (getFn wState264 (⟨.a, 1⟩ : Fn)).ring = some ring0 ∧ ring0.int.first = none) :=
  ⟨by decide +kernel,
    by decide +kernel,
    by decide +kernel,
    by decide +kernel⟩

/-- Hypotheses of the clauses of Obligations.WeightEvents. -/
theorem test_witness_WeightEvents_0 :
    (0 < 1600 ∧ 0 < 256 ∧ 0 < 16 ∧ (activeJobs wState267).find? (fun j_i => j_i.lantern == 0 && physOf (getL wState267 0) j_i.chunk.arr == some 0) = some wChunkJob268 ∧ partOf wState267 0 = some 0 ∧ (getBank (getL wState267 0) (0 / 8)).prog = some 0 ∧ (getArr (getL wState267 0) 0).cycles + 1 < 10000 ∧ ((∀ k, k ∈ wState267.jobs → k ≠ wChunkJob268 → k.lantern = 0 → jobArray wState267 k ≠ some 0)) ∧ (getArr (getL wState267 0) 0).retried = false ∧ wState267.erasing = [] ∧ getPart wState267 0 = some wPartition279 ∧ (touchOpen wPartition279 = false ∨ isRyile wPartition279 = false) ∧ wPartition279.idleSince = none)
    ∧ ((0 < 1600 ∧ 0 < 256 ∧ 0 < 16 ∧ (0, 0) ∈ wState269.erasing ∧ ¬ wState269.badLanterns.contains 0 ∧ ((∀ e, e ∈ wState269.erasing → (getL wState269 e.1).on = true ∨ wState269.badLanterns.contains e.1 = true)) ∧ ((∀ e, e ∈ ([(0, 0)] : List (Nat × Nat)) → e.1 < 1600 ∧ e.2 < 256))) ∧ (0 < 1600 ∧ 0 < 256 ∧ 0 < 16 ∧ (0, 0) ∈ wState270.erasing ∧ (getL wState270 0).on = false ∧ ¬ wState270.badLanterns.contains 0) ∧ (0 < 1600 ∧ 0 < 256 ∧ 0 < 16 ∧ getPart wState271 0 = some wPartition272 ∧ wPartition272.wset.load = some wWeightLoad273 ∧ ((∀ j, j ∈ wState271.jobs → partOf wState271 j.lantern = some 0 → j.silent = true)) ∧ wWeightLoad273.lastAt + 600000000000 ≤ nowNs wState271))
    ∧ (0 < 1600 ∧ 0 < 256 ∧ 0 < 16 ∧ getPart wState274 0 = some wPartition275 ∧ wPartition275.wset.load = some wWeightLoad276 ∧ nowNs wState274 < wWeightLoad276.lastAt + 600000000000) :=
  ⟨by decide +kernel,
    by decide +kernel,
    by decide +kernel⟩

/-- Hypotheses of the clauses of Obligations.WeightEvents. -/
theorem test_witness_WeightEvents_1 :
    ((0 < 1600 ∧ 0 < 256 ∧ 0 < 16 ∧ partOf wState277 0 = some 0 ∧ getPart wState277 0 = some wPartition278 ∧ (getArr (getL wState277 0) 0).touchQueued = true ∧ isRyile wPartition278 = true ∧ touchOpen wPartition278 = true ∧ (getBank (getL wState277 0) (0 / 8)).on = true ∧ (getBank (getL wState277 0) (0 / 8)).run = none ∧ (getBank (getL wState277 0) (0 / 8)).prog = none ∧ (getArr (getL wState277 0) 0).touchRow + 16 < 1024) ∧ (0 < 1600 ∧ 0 < 256 ∧ 0 < 16 ∧ getPart wState280 0 = some wPartition281 ∧ wPartition281.idleSince = some 0 ∧ isRyile wPartition281 = true ∧ hasRunning wPartition281 = false ∧ 0 + 10000000 ≤ nowNs wState280))
    ∧ (0 < 1600 ∧ 0 < 256 ∧ 0 < 16 ∧ getPart wState282 0 = some wPartition283 ∧ wPartition283.window10 = some (0, 3) ∧ 0 ≤ nowNs wState282) :=
  ⟨by decide +kernel,
    by decide +kernel⟩

/-- Hypotheses of the clauses of Obligations.PowerEvents. -/
theorem test_witness_PowerEvents :
    ((wState2.boot.pwrEn = false ∧ wState2.boot.downAt = none ∧ plateReady wState2 = true ∧ 21600 ≤ wState2.plant.vin) ∧ (wState285.boot.pwrEn = false ∧ wState285.boot.downAt.isSome = true) ∧ (wState286.boot.pwrEn = true ∧ wState286.boot.rails = true ∧ wState286.boot.downAt = none) ∧ (wState287.boot.pwrEn = true ∧ wState287.boot.rails = false) ∧ (Memory.wf wState288 = true ∧ twf {} (getL wState288 0).arrays = true ∧ wState288.boot.downAt.isSome = true) ∧ (wState2.boot.downAt = none ∧ wState2.boot.again = false) ∧ (wState289.boot.again = true ∧ wState289.boot.pwrEn = true ∧ plateReady wState289 = true) ∧ (wState2.boot.pwrEn = false))
    ∧ ((wState287.boot.pwrEn = true ∧ wState287.boot.rails = false ∧ wState287.plant.trip = false ∧ wState287.plant.railHold = false ∧ 21600 ≤ 27000) ∧ (wState290.boot.rails = true ∧ 26400 < 27000 ∧ 27000 ≤ 28000 ∧ wState290.plant.ovWarned = false) ∧ (wState291.boot.rails = true) ∧ (44 < 45 ∧ wState291.boot.rails = true ∧ groupOut wState291 44 = 0) ∧ (44 < 45 ∧ wState292.boot.rails = true ∧ 1 ≤ groupOut wState292 44) ∧ (403 < 404 ∧ wState291.boot.rails = true) ∧ (wState293.plant.trip = true ∧ wState293.boot.pwrEn = false ∧ tget 240 wState293.plant.coolant 2 < 480 ∧ tget 240 wState293.plant.coolant 3 < 480)) :=
  ⟨by decide +kernel,
    by decide +kernel⟩

/-- Hypotheses of the clauses of Obligations.HostPorts. -/
theorem test_witness_HostPorts :
    ((wFn294.num ≤ 16 ∧ (getLink wState295 HostPort.a).released = true ∧ (getLink wState295 HostPort.a).perst = false ∧ wState295.boot.hold = false ∧ (getLink wState295 HostPort.a).up = true ∧ (getLink wState295 HostPort.a).downAt = none) ∧ (wFn294.num ≤ 16 ∧ wState296.boot.hold = false) ∧ (wFn294.num ≤ 16 ∧ wState297.boot.hold = true) ∧ (wFn294.num ≤ 16 ∧ (getLink wState298 HostPort.a).downAt = some 0 ∧ nowNs wState298 < 0 + 100000000) ∧ (wFn294.num ≤ 16 ∧ (getLink wState299 HostPort.a).downAt = some 0 ∧ 0 + 100000000 ≤ nowNs wState299 ∧ wState299.boot.hold = false))
    ∧ ((wFn294.num ≤ 16 ∧ (getLink wState300 HostPort.a).failed = true ∧ (getLink wState300 HostPort.a).released = true ∧ (getLink wState300 HostPort.a).perst = false ∧ (getLink wState300 HostPort.a).cableHold = false) ∧ (wFn294.num ≤ 16 ∧ (getLink wState301 HostPort.a).released = true ∧ (getLink wState301 HostPort.a).perst = false ∧ (getLink wState301 HostPort.a).up = false ∧ (getLink wState301 HostPort.a).cableHold = false ∧ (getLink wState301 HostPort.a).downAt = none ∧ (getLink wState301 HostPort.a).failed = false) ∧ (wFn294.num ≤ 16 ∧ firmwareUp wState302 = true ∧ (true && false) = false) ∧ (wFn294.num ≤ 16 ∧ firmwareUp wState302 = true ∧ 3 < 4) ∧ (wFn294.num ≤ 16 ∧ firmwareUp wState302 = true)) :=
  ⟨by decide +kernel,
    by decide +kernel⟩

/-- Hypotheses of the clauses of Obligations.Heat. -/
theorem test_witness_Heat :
    ((0 < 16 ∧ 0 < 100 ∧ wState303.boot.rails = true ∧ (⟨[(0, [400, 401, 402, 403, 404, 405])], [200, 201], [300, 301]⟩ : Readings).fields = [(0, ([400, 401, 402, 403, 404, 405] : List Int))]) ∧ (0 < 16 ∧ 0 < 100 ∧ readingsOk (⟨[(0, [400, 401, 402, 403, 404, 405])], [200, 201], [300, 301]⟩ : Readings) = true ∧ wState195.boot.rails = false) ∧ (0 < 16 ∧ 0 < 100 ∧ wState304.plant.stopSince = some 0 ∧ wState304.plant.stop = true ∧ 0 + 10000000000 ≤ nowNs wState304) ∧ (0 < 16 ∧ 0 < 100 ∧ wState303.plant.stopSince = none ∧ wState303.boot.rails = true ∧ getPart wState303 0 = some part0 ∧ part0.thermal = none ∧ part0.hold = false))
    ∧ ((0 < 16 ∧ 0 < 100 ∧ getPart wState305 0 = some wPartition306 ∧ wPartition306.thermal = some 0 ∧ wPartition306.state = .draining ∧ 0 + 100000000 ≤ nowNs wState305 ∧ wPartition306.cistern = true ∧ cisternOn wState305 = true) ∧ (0 < 16 ∧ 0 < 100 ∧ getPart wState307 0 = some wPartition308 ∧ wPartition308.hold = true ∧ wPartition308.state = .loaded ∧ wState307.sec.restarting = false ∧ darkFields wState307 wPartition308 = [] ∧ notReady wState307 wPartition308 = false ∧ wPartition308.wset.status = .complete) ∧ (0 < 16 ∧ 0 < 100 ∧ 3 ≠ 1 ∧ 3 ≠ 2)) :=
  ⟨by decide +kernel,
    by decide +kernel⟩

/-- Hypotheses of the clauses of Obligations.CapsAndDomains. -/
theorem test_witness_CapsAndDomains_0 :
    ((0 < 16 ∧ 0 < 100 ∧ 0 < 1600 ∧ getPart wState195 0 = some part0 ∧ (getF wState195 0).ramping = none ∧ (getL wState195 0).on = true) ∧ (0 < 16 ∧ 0 < 100 ∧ 0 < 1600 ∧ getPart wState195 0 = some part0 ∧ part0.running = true ∧ effShare part0 < (10001 : Rat) ∧ part0.stepTime ≠ 20000) ∧ (0 < 16 ∧ 0 < 100 ∧ 0 < 1600 ∧ getPart wState195 0 = some part0 ∧ part0.running = true ∧ (8999 : Rat) < effShare part0 * 9 / 10) ∧ (0 < 16 ∧ 0 < 100 ∧ 0 < 1600 ∧ coolMax wState195 2 = some (240 : Int) ∧ coolMin wState195 0 = some (240 : Int) ∧ (150 : Rat) ≤ ((400000 : Rat) - 1000) / 1000) ∧ (0 < 16 ∧ 0 < 100 ∧ 0 < 1600 ∧ ((150999 : Rat) - 1000) / 1000 < 150))
    ∧ ((0 < 16 ∧ 0 < 100 ∧ 0 < 1600 ∧ wState309.plant.bandSince = some 0 ∧ 0 < wState309.plant.band ∧ 0 + 10000000000 ≤ nowNs wState309) ∧ (0 < 16 ∧ 0 < 100 ∧ 0 < 1600 ∧ wState310.boot.ready = true ∧ 2000 ≤ 2000 ∧ tget 0 (getF wState310 0).baseline 0 = 0 ∧ tget [] (getF wState310 0).sense 0 = [] ∧ 0 < (keep20 ((500 : Rat) / (1 + (39 : Rat) / 10000 * (meanTemp 0 (getF wState310 0) - 45))))) ∧ (0 < 16 ∧ 0 < 100 ∧ 0 < 1600 ∧ wState310.boot.ready = true) ∧ (0 < 16 ∧ 0 < 100 ∧ 0 < 1600 ∧ (getF wState311 0).ramps = (⟨0, none, 0, false⟩ : RampReq) :: [] ∧ rampTurn wState311 0 = true ∧ 4000 ≤ 4000))
    ∧ (0 < 16 ∧ 0 < 100 ∧ 0 < 1600 ∧ (getF wState311 0).ramps = (⟨0, none, 0, false⟩ : RampReq) :: [] ∧ rampTurn wState311 0 = true ∧ ((3999 < 4000 ∨ 4000 < 4000)) ∧ (⟨0, none, 0, false⟩ : RampReq).delayed = false) :=
  ⟨by decide +kernel,
    by decide +kernel,
    by decide +kernel⟩

/-- Hypotheses of the clauses of Obligations.CapsAndDomains. -/
theorem test_witness_CapsAndDomains_1 :
    ((0 < 16 ∧ 0 < 100 ∧ 0 < 1600 ∧ (getF wState312 0).ramps = (⟨0, none, 0, true⟩ : RampReq) :: [] ∧ rampTurn wState312 0 = true ∧ (⟨0, none, 0, true⟩ : RampReq).delayed = true ∧ (⟨0, none, 0, true⟩ : RampReq).since + 1000000 ≤ nowNs wState312) ∧ (0 < 16 ∧ 0 < 100 ∧ 0 < 1600 ∧ (getF wState313 0).ramping = some (⟨0, some 31, 0, true⟩ : RampReq) ∧ (⟨0, some 31, 0, true⟩ : RampReq).bank = some 31) ∧ (0 < 16 ∧ 0 < 100 ∧ 0 < 1600 ∧ (getF wState314 0).ramping = some (⟨0, none, 0, true⟩ : RampReq) ∧ (⟨0, none, 0, true⟩ : RampReq).bank = none ∧ partOf wState314 (⟨0, none, 0, true⟩ : RampReq).lantern = none))
    ∧ ((0 < 16 ∧ 0 < 100 ∧ 0 < 1600 ∧ (getF wState315 0).work = [0] ∧ workOn wState315 0 = false ∧ idleDomain wState315 0 = true) ∧ (0 < 16 ∧ 0 < 100 ∧ 0 < 1600 ∧ (getF wState316 0).work = [0] ∧ workOn wState316 0 = true) ∧ (0 < 16 ∧ 0 < 100 ∧ 0 < 1600 ∧ wState303.boot.rails = true) ∧ (0 < 16 ∧ 0 < 100 ∧ 0 < 1600)) :=
  ⟨by decide +kernel,
    by decide +kernel⟩

/-- Hypotheses of the clauses of Obligations.BringUp. -/
theorem test_witness_BringUp_0 :
    ((wState318.boot.rails = true ∧ wState318.boot.vaon = false) ∧ (wState319.boot.rails = false) ∧ (wState320.sec.rom = true ∧ wState320.sec.uds = false ∧ wState320.sec.error = false ∧ wState320.sec.retired = false) ∧ (wState321.sec.rom = true ∧ wState321.sec.uds = false ∧ wState321.sec.error = false ∧ wState321.sec.retired = true) ∧ (wState322.sec.uds = true ∧ wState322.sec.fw = false ∧ wState322.sec.error = false ∧ wState322.sec.pldmOnly = false ∧ bootSlot wState322 1 = some false) ∧ (wState323.sec.uds = true ∧ wState323.sec.fw = false ∧ wState323.sec.error = false ∧ wState323.sec.pldmOnly = false ∧ bootSlot wState323 1 = none))
    ∧ ((wState324.sec.fw = true ∧ wState324.sec.error = false ∧ wState324.boot.measured = false ∧ wState324.sec.pldmOnly = false ∧ ((∀ k, k ∈ [2, 3, 4, 5] → (bootSlot wState324 k).isSome = true))) ∧ (firmwareUp wState325 = true ∧ wState325.boot.cisternDone = false ∧ 11 < 12) ∧ (firmwareUp wState325 = true ∧ wState325.boot.selfTest = false ∧ 0 < 1600 ∧ 99 < 100) ∧ (wState327.boot.selfTest = true ∧ wState327.boot.neighbour = false ∧ 0 < 1600 ∧ 1 < 1640 ∧ 40 < 1640 ∧ isVoter 1 0 = true ∧ isVoter 40 0 = true ∧ 1 ≠ 40 ∧ ((∀ x, x ∈ [1, 40, 0] → ¬ wState327.badLanterns.contains x ∧ ¬ wState327.badRouters.contains x))) ∧ (wState328.boot.neighbour = true ∧ wState328.boot.repairDone = false))
    ∧ ((firmwareUp wState325 = true ∧ wState325.boot.cisternDone = false ∧ wState325.boot.calDone = false ∧ wState325.boot.dormantDone = false) ∧ wState325.cal = [])
    ∧ ((firmwareUp wState326 = true ∧ wState326.boot.calDone = false) ∧ wState326.cal = [((calKey 2 5), calR)] ∧ bestCopy (calKey 2 5) calR = some recB) :=
  ⟨by decide +kernel,
    by decide +kernel,
    ⟨by decide +kernel, rfl⟩,
    ⟨by decide +kernel, rfl, best_ok⟩⟩

/-- Hypotheses of Obligations.BringUp. -/
theorem test_witness_BringUp_1 : (wState329.boot.repairDone = true ∧ wState329.boot.retention = false ∧ retentionArrays wState329 = []) ∧ (((0, 255) : Nat × Nat) ∈ retentionArrays wState330 ∧ (getL wState330 ((0, 255) : Nat × Nat).1).on = false) ∧ (wState331.boot.repairDone = true ∧ wState331.boot.retention = false ∧ retentionArrays wState331 = [(0, 255)] ∧ (getL wState331 0).on = true ∧ (getArr (getL wState331 0) 255).programmed = true ∧ (getArr (getL wState331 0) 255).bad = false) ∧ (wState332.boot.retention = true) ∧ (firmwareUp wState333 = true ∧ wState333.boot.cisternDone = true ∧ wState333.boot.calDone = true ∧ wState333.boot.dormantDone = true ∧ wState333.boot.downAt = none ∧ wState333.boot.pwrEn = true) := by decide +kernel

/-- Hypotheses of the clauses of Obligations.SpdmAndSideband. -/
theorem test_witness_SpdmAndSideband_0 :
    (epOk wSpdmEp334 = true ∧ spdmServed wState335 wSpdmEp334 = true ∧ wState335.sec.error = false ∧ epUnbound wState335 wSpdmEp334 = false ∧ wState335.sec.retired = false)
    ∧ (epOk wSpdmEp334 = true ∧ spdmServed wState336 wSpdmEp334 = true ∧ wState336.sec.error = true ∧ (Instr.spdmHeartbeat (.vf ⟨.a, 1⟩) 7) ∈ [Instr.spdmGetVersion wSpdmEp334, .spdmGetCapabilities wSpdmEp334, .spdmNegotiateAlgorithms wSpdmEp334, .spdmGetDigests wSpdmEp334, .spdmGetCertificate wSpdmEp334 0, .spdmChallenge wSpdmEp334 0 9, .spdmGetMeasurements wSpdmEp334 0 true, .spdmGetMeasurements wSpdmEp334 0 false, .spdmKeyExchange wSpdmEp334 0, .spdmFinish wSpdmEp334 7 true, .spdmFinish wSpdmEp334 7 false, .spdmHeartbeat wSpdmEp334 7, .spdmKeyUpdate wSpdmEp334 7, .spdmEndSession wSpdmEp334 7, .spdmUnsupportedRequest wSpdmEp334 0])
    ∧ (epOk wSpdmEp337 = true ∧ spdmServed wState335 wSpdmEp337 = true ∧ wState335.sec.error = false ∧ epUnbound wState335 wSpdmEp337 = true ∧ (Instr.spdmHeartbeat (.vf ⟨.a, 2⟩) 7) ∈ [Instr.spdmGetCapabilities wSpdmEp337, .spdmNegotiateAlgorithms wSpdmEp337, .spdmGetDigests wSpdmEp337, .spdmGetCertificate wSpdmEp337 0, .spdmChallenge wSpdmEp337 0 9, .spdmGetMeasurements wSpdmEp337 0 true, .spdmKeyExchange wSpdmEp337 0, .spdmFinish wSpdmEp337 7 true, .spdmHeartbeat wSpdmEp337 7, .spdmKeyUpdate wSpdmEp337 7, .spdmEndSession wSpdmEp337 7])
    ∧ (epOk wSpdmEp334 = true ∧ spdmServed wState338 wSpdmEp334 = true ∧ wState338.sec.error = false ∧ epUnbound wState338 wSpdmEp334 = false ∧ hasSession wState338 wSpdmEp334 7 false = true) :=
  ⟨by decide +kernel,
    by decide +kernel,
    by decide +kernel,
    by decide +kernel⟩

/-- Hypotheses of the clauses of Obligations.SpdmAndSideband. -/
theorem test_witness_SpdmAndSideband_1 :
    ((epOk wSpdmEp334 = true ∧ spdmServed wState339 wSpdmEp334 = true ∧ wState339.sec.error = false ∧ epUnbound wState339 wSpdmEp334 = false ∧ hasSession wState339 wSpdmEp334 7 true = true) ∧ (epOk wSpdmEp334 = true ∧ spdmServed wState335 wSpdmEp334 = true ∧ wState335.sec.error = false ∧ epUnbound wState335 wSpdmEp334 = false ∧ hasSession wState335 wSpdmEp334 7 true = false ∧ (Instr.spdmHeartbeat (.vf ⟨.a, 1⟩) 7) ∈ [Instr.spdmHeartbeat wSpdmEp334 7, .spdmKeyUpdate wSpdmEp334 7, .spdmEndSession wSpdmEp334 7]))
    ∧ ((epOk wSpdmEp334 = true ∧ spdmServed wState340 wSpdmEp334 = true ∧ wState340.sec.error = false ∧ epUnbound wState340 wSpdmEp334 = false ∧ wState340.sec.retired = true ∧ (Instr.spdmKeyExchange (.vf ⟨.a, 1⟩) 0) ∈ [Instr.spdmChallenge wSpdmEp334 0 9, .spdmGetMeasurements wSpdmEp334 0 true, .spdmGetMeasurements wSpdmEp334 0 false, .spdmKeyExchange wSpdmEp334 0]) ∧ (wState335.boot.vaon = true ∧ wState335.mgmt.addr = none) ∧ (wState341.mgmt.addr = some 6) ∧ (wState335.sec.fw = true ∧ wState335.sec.pldmOnly = false) ∧ ((wState2.sec.fw = false ∨ wState2.sec.pldmOnly = true)) ∧ (wState335.sec.jtag = false)) :=
  ⟨by decide +kernel,
    by decide +kernel⟩

/-- Hypotheses of the clauses of Obligations.FirmwareUpdate. -/
theorem test_witness_FirmwareUpdate_0 :
    ((isPf wEntry342 = true ∧ 1 ≤ (pf wEntry342 20 1) ∧ (pf wEntry342 20 1) ≤ 5 ∧ (pf wEntry342 21 1) ≤ 3 ∧ targetBad (pf wEntry342 20 1) (pf wEntry342 22 1) = false ∧ (((pf wEntry342 21 1) = 0 → 5124 ≤ dlenOf wEntry342)) ∧ (((pf wEntry342 21 1) ≠ 0 → dlenOf wEntry342 = 0)) ∧ wState343.sec.updating = true) ∧ Fetches wEntry342 qpC wState343 ∧ Clean wEntry342 false [(20, 3)])
    ∧ ((isPf wEntry344 = true ∧ 1 ≤ (pf wEntry344 20 1) ∧ (pf wEntry344 20 1) ≤ 5 ∧ (pf wEntry344 21 1) ≤ 3 ∧ targetBad (pf wEntry344 20 1) (pf wEntry344 22 1) = false ∧ (((pf wEntry344 21 1) = 0 → 5124 ≤ dlenOf wEntry344)) ∧ (((pf wEntry344 21 1) ≠ 0 → dlenOf wEntry344 = 0)) ∧ wState345.sec.updating = false ∧ (pf wEntry344 21 1) = 0 ∧ wEntry344.data = some img) ∧ Fetches wEntry344 qpC wState345 ∧ Clean wEntry344 false [(20, 3)] ∧ lowest (imageFaults (some (pf wEntry344 20 1)) (padTo (dlenOf wEntry344) img)) = none)
    ∧ ((isPf wEntry342 = true ∧ 1 ≤ (pf wEntry342 20 1) ∧ (pf wEntry342 20 1) ≤ 5 ∧ (pf wEntry342 21 1) ≤ 3 ∧ targetBad (pf wEntry342 20 1) (pf wEntry342 22 1) = false ∧ (((pf wEntry342 21 1) = 0 → 5124 ≤ dlenOf wEntry342)) ∧ (((pf wEntry342 21 1) ≠ 0 → dlenOf wEntry342 = 0)) ∧ wState345.sec.updating = false ∧ ((pf wEntry342 21 1) = 1 ∨ (pf wEntry342 21 1) = 2) ∧ (fwKind wState345 (pf wEntry342 20 1)).staged = false) ∧ Fetches wEntry342 qpC wState345 ∧ Clean wEntry342 false [(20, 3)]) :=
  ⟨⟨by decide +kernel, fetches_of (by decide +kernel), clean_of (by decide +kernel)⟩,
    ⟨by decide +kernel, fetches_of (by decide +kernel), clean_of (by decide +kernel), img_ok _ (.inl rfl)⟩,
    ⟨by decide +kernel, fetches_of (by decide +kernel), clean_of (by decide +kernel)⟩⟩

/-- Hypotheses of the clauses of Obligations.FirmwareUpdate. -/
theorem test_witness_FirmwareUpdate_1 :
    ((isPf wEntry346 = true ∧ 1 ≤ (pf wEntry346 20 1) ∧ (pf wEntry346 20 1) ≤ 5 ∧ (pf wEntry346 21 1) ≤ 3 ∧ targetBad (pf wEntry346 20 1) (pf wEntry346 22 1) = false ∧ (((pf wEntry346 21 1) = 0 → 5124 ≤ dlenOf wEntry346)) ∧ (((pf wEntry346 21 1) ≠ 0 → dlenOf wEntry346 = 0)) ∧ wState347.sec.updating = false ∧ (pf wEntry346 21 1) = 1 ∧ (pf wEntry346 20 1) = 1 ∧ (fwKind wState347 (pf wEntry346 20 1)).staged = true ∧ (fwKind wState347 (pf wEntry346 20 1)).activated = [] ∧ loadOpen wState347 = false) ∧ Fetches wEntry346 qpC wState347 ∧ Clean wEntry346 false [(20, 3)])
    ∧ ((isPf wEntry348 = true ∧ 1 ≤ (pf wEntry348 20 1) ∧ (pf wEntry348 20 1) ≤ 5 ∧ (pf wEntry348 21 1) ≤ 3 ∧ targetBad (pf wEntry348 20 1) (pf wEntry348 22 1) = false ∧ (((pf wEntry348 21 1) = 0 → 5124 ≤ dlenOf wEntry348)) ∧ (((pf wEntry348 21 1) ≠ 0 → dlenOf wEntry348 = 0)) ∧ wState349.sec.updating = false ∧ (pf wEntry348 21 1) = 1 ∧ (pf wEntry348 20 1) = 2 ∧ (fwKind wState349 (pf wEntry348 20 1)).staged = true ∧ (fwKind wState349 (pf wEntry348 20 1)).activated = [] ∧ wState349.boot.aUp = true ∧ wState349.boot.bUp = true) ∧ Fetches wEntry348 qpC wState349 ∧ Clean wEntry348 false [(20, 3)]) :=
  ⟨⟨by decide +kernel, fetches_of (by decide +kernel), clean_of (by decide +kernel)⟩,
    ⟨by decide +kernel, fetches_of (by decide +kernel), clean_of (by decide +kernel)⟩⟩

/-- Hypotheses of the clauses of Obligations.FirmwareUpdate. -/
theorem test_witness_FirmwareUpdate_2 :
    ((isPf wEntry350 = true ∧ 1 ≤ (pf wEntry350 20 1) ∧ (pf wEntry350 20 1) ≤ 5 ∧ (pf wEntry350 21 1) ≤ 3 ∧ targetBad (pf wEntry350 20 1) (pf wEntry350 22 1) = false ∧ (((pf wEntry350 21 1) = 0 → 5124 ≤ dlenOf wEntry350)) ∧ (((pf wEntry350 21 1) ≠ 0 → dlenOf wEntry350 = 0)) ∧ wState351.sec.updating = false ∧ (pf wEntry350 21 1) = 1 ∧ (pf wEntry350 20 1) = 3 ∧ (pf wEntry350 22 1) ≠ 255 ∧ (fwKind wState351 (pf wEntry350 20 1)).staged = true ∧ (pf wEntry350 22 1) ∉ (fwKind wState351 (pf wEntry350 20 1)).activated ∧ rimBusy wState351 (pf wEntry350 22 1) = false) ∧ Fetches wEntry350 qpC wState351 ∧ Clean wEntry350 false [(20, 3)])
    ∧ ((isPf wEntry352 = true ∧ 1 ≤ (pf wEntry352 20 1) ∧ (pf wEntry352 20 1) ≤ 5 ∧ (pf wEntry352 21 1) ≤ 3 ∧ targetBad (pf wEntry352 20 1) (pf wEntry352 22 1) = false ∧ (((pf wEntry352 21 1) = 0 → 5124 ≤ dlenOf wEntry352)) ∧ (((pf wEntry352 21 1) ≠ 0 → dlenOf wEntry352 = 0)) ∧ wState351.sec.updating = false ∧ (pf wEntry352 21 1) = 1 ∧ (pf wEntry352 20 1) = 3 ∧ (pf wEntry352 22 1) ≠ 255 ∧ (fwKind wState351 (pf wEntry352 20 1)).staged = true ∧ (pf wEntry352 22 1) ∉ (fwKind wState351 (pf wEntry352 20 1)).activated ∧ rimBusy wState351 (pf wEntry352 22 1) = true) ∧ Fetches wEntry352 qpC wState351 ∧ Clean wEntry352 false [(20, 3)]) :=
  ⟨⟨by decide +kernel, fetches_of (by decide +kernel), clean_of (by decide +kernel)⟩,
    ⟨by decide +kernel, fetches_of (by decide +kernel), clean_of (by decide +kernel)⟩⟩

/-- Hypotheses of the clauses of Obligations.FirmwareUpdate. -/
theorem test_witness_FirmwareUpdate_3 :
    ((isPf wEntry353 = true ∧ 1 ≤ (pf wEntry353 20 1) ∧ (pf wEntry353 20 1) ≤ 5 ∧ (pf wEntry353 21 1) ≤ 3 ∧ targetBad (pf wEntry353 20 1) (pf wEntry353 22 1) = false ∧ (((pf wEntry353 21 1) = 0 → 5124 ≤ dlenOf wEntry353)) ∧ (((pf wEntry353 21 1) ≠ 0 → dlenOf wEntry353 = 0)) ∧ wState354.sec.updating = false ∧ (pf wEntry353 21 1) = 1 ∧ (pf wEntry353 20 1) = 4 ∧ (pf wEntry353 22 1) ≠ 255 ∧ (fwKind wState354 (pf wEntry353 20 1)).staged = true ∧ (pf wEntry353 22 1) ∉ (fwKind wState354 (pf wEntry353 20 1)).activated ∧ groupOut wState354 (pf wEntry353 22 1) = 0 ∧ wState354.plant.phaseUpd = 0) ∧ Fetches wEntry353 qpC wState354 ∧ Clean wEntry353 false [(20, 3)])
    ∧ ((isPf wEntry355 = true ∧ 1 ≤ (pf wEntry355 20 1) ∧ (pf wEntry355 20 1) ≤ 5 ∧ (pf wEntry355 21 1) ≤ 3 ∧ targetBad (pf wEntry355 20 1) (pf wEntry355 22 1) = false ∧ (((pf wEntry355 21 1) = 0 → 5124 ≤ dlenOf wEntry355)) ∧ (((pf wEntry355 21 1) ≠ 0 → dlenOf wEntry355 = 0)) ∧ wState356.sec.updating = false ∧ (pf wEntry355 21 1) = 1 ∧ (pf wEntry355 20 1) = 5 ∧ (fwKind wState356 (pf wEntry355 20 1)).staged = true ∧ ((∀ x, x ∈ allParts wState356 → getPart wState356 x.1 = some x.2 ∧ idleState x.2.state = true))) ∧ Fetches wEntry355 qpC wState356 ∧ Clean wEntry355 false [(20, 3)]) :=
  ⟨⟨by decide +kernel, fetches_of (by decide +kernel), clean_of (by decide +kernel)⟩,
    ⟨by decide +kernel, fetches_of (by decide +kernel), clean_of (by decide +kernel)⟩⟩

/-- Hypotheses of the clauses of Obligations.FirmwareUpdate. -/
theorem test_witness_FirmwareUpdate_4 :
    ((isPf wEntry357 = true ∧ 1 ≤ (pf wEntry357 20 1) ∧ (pf wEntry357 20 1) ≤ 5 ∧ (pf wEntry357 21 1) ≤ 3 ∧ targetBad (pf wEntry357 20 1) (pf wEntry357 22 1) = false ∧ (((pf wEntry357 21 1) = 0 → 5124 ≤ dlenOf wEntry357)) ∧ (((pf wEntry357 21 1) ≠ 0 → dlenOf wEntry357 = 0)) ∧ wState358.sec.updating = false ∧ (pf wEntry357 21 1) = 2 ∧ (pf wEntry357 20 1) ≠ 5 ∧ (fwKind wState358 (pf wEntry357 20 1)).staged = true ∧ ((∀ t, t ∈ fwTargets (pf wEntry357 20 1) → t ∈ (fwKind wState358 (pf wEntry357 20 1)).activated))) ∧ Fetches wEntry357 qpC wState358 ∧ Clean wEntry357 false [(20, 3)])
    ∧ ((isPf wEntry359 = true ∧ 1 ≤ (pf wEntry359 20 1) ∧ (pf wEntry359 20 1) ≤ 5 ∧ (pf wEntry359 21 1) ≤ 3 ∧ targetBad (pf wEntry359 20 1) (pf wEntry359 22 1) = false ∧ (((pf wEntry359 21 1) = 0 → 5124 ≤ dlenOf wEntry359)) ∧ (((pf wEntry359 21 1) ≠ 0 → dlenOf wEntry359 = 0)) ∧ wState360.sec.updating = false ∧ (pf wEntry359 21 1) = 2 ∧ (fwKind wState360 (pf wEntry359 20 1)).staged = true ∧ 18 ∈ targetsLeft wState360 (pf wEntry359 20 1)) ∧ Fetches wEntry359 qpC wState360 ∧ Clean wEntry359 false [(20, 3)]) :=
  ⟨⟨by decide +kernel, fetches_of (by decide +kernel), clean_of (by decide +kernel)⟩,
    ⟨by decide +kernel, fetches_of (by decide +kernel), clean_of (by decide +kernel)⟩⟩

/-- Hypotheses of the clauses of Obligations.FirmwareUpdate. -/
theorem test_witness_FirmwareUpdate_5 :
    ((isPf wEntry361 = true ∧ 1 ≤ (pf wEntry361 20 1) ∧ (pf wEntry361 20 1) ≤ 5 ∧ (pf wEntry361 21 1) ≤ 3 ∧ targetBad (pf wEntry361 20 1) (pf wEntry361 22 1) = false ∧ (((pf wEntry361 21 1) = 0 → 5124 ≤ dlenOf wEntry361)) ∧ (((pf wEntry361 21 1) ≠ 0 → dlenOf wEntry361 = 0)) ∧ wState362.sec.updating = false ∧ (pf wEntry361 21 1) = 3 ∧ (pf wEntry361 20 1) = 3 ∧ (fwKind wState362 (pf wEntry361 20 1)).staged = true ∧ (fwKind wState362 (pf wEntry361 20 1)).activated = [18] ∧ 18 < 19 ∧ rimBusy wState362 18 = false) ∧ Fetches wEntry361 qpC wState362 ∧ Clean wEntry361 false [(20, 3)])
    ∧ ((isPf wEntry361 = true ∧ 1 ≤ (pf wEntry361 20 1) ∧ (pf wEntry361 20 1) ≤ 5 ∧ (pf wEntry361 21 1) ≤ 3 ∧ targetBad (pf wEntry361 20 1) (pf wEntry361 22 1) = false ∧ (((pf wEntry361 21 1) = 0 → 5124 ≤ dlenOf wEntry361)) ∧ (((pf wEntry361 21 1) ≠ 0 → dlenOf wEntry361 = 0)) ∧ wState363.sec.updating = false ∧ (pf wEntry361 21 1) = 3 ∧ (fwKind wState363 (pf wEntry361 20 1)).staged = false ∧ (if (fwKind wState363 (pf wEntry361 20 1)).activeB then (fwKind wState363 (pf wEntry361 20 1)).a.present else (fwKind wState363 (pf wEntry361 20 1)).b.present) = false) ∧ Fetches wEntry361 qpC wState363 ∧ Clean wEntry361 false [(20, 3)])
    ∧ ((isPf wEntry364 = true ∧ 0 = partNo wEntry364 ∧ 0 < 16 ∧ getPart wState356 0 = some wPartition365 ∧ idleState wPartition365.state = true ∧ dlenOf wEntry364 = 0 ∧ wState356.sec.updating = false ∧ (fwKind wState356 5).staged = true ∧ (pf wEntry364 20 1) = 0) ∧ Fetches wEntry364 qpC wState356 ∧ Clean wEntry364 true [(20, 1)]) :=
  ⟨⟨by decide +kernel, fetches_of (by decide +kernel), clean_of (by decide +kernel)⟩,
    ⟨by decide +kernel, fetches_of (by decide +kernel), clean_of (by decide +kernel)⟩,
    ⟨by decide +kernel, fetches_of (by decide +kernel), clean_of (by decide +kernel)⟩⟩

/-- Hypotheses of the clauses of Obligations.FirmwareUpdate. -/
theorem test_witness_FirmwareUpdate_6 :
    ((isPf wEntry366 = true ∧ 0 = partNo wEntry366 ∧ 0 < 16 ∧ getPart wState356 0 = some wPartition365 ∧ idleState wPartition365.state = true ∧ dlenOf wEntry366 = 0 ∧ wState356.sec.updating = false ∧ (fwKind wState356 5).staged = true ∧ (pf wEntry366 20 1) = 1) ∧ Fetches wEntry366 qpC wState356 ∧ Clean wEntry366 true [(20, 1)])
    ∧ ((wState368.sec.plate = some (3, 4, [44]) ∧ 4 < 5) ∧ Fetches wEntry367 qpC wState368)
    ∧ ((wState369.sec.plate = some (3, 5, [44]) ∧ 5 ≤ 5) ∧ Fetches wEntry367 qpC wState369)
    ∧ ((wState370.sec.pldmOnly = true ∧ wState370.mgmt.addr.isSome = true ∧ 3 = fieldAt (padTo 5124 img) 6 1) ∧ Fetches wEntry367 qpC wState370 ∧ lowest (imageFaults none (padTo 5124 img)) = none)
    ∧ ((wState345.sec.pldmOnly = false) ∧ Fetches wEntry367 qpC wState345) :=
  ⟨⟨by decide +kernel, fetches_of (by decide +kernel), clean_of (by decide +kernel)⟩,
    ⟨by decide +kernel, fetches_of (by decide +kernel)⟩,
    ⟨by decide +kernel, fetches_of (by decide +kernel)⟩,
    ⟨by decide +kernel, fetches_of (by decide +kernel), img_ok _ (.inr rfl)⟩,
    ⟨by decide +kernel, fetches_of (by decide +kernel)⟩⟩

/-- Hypotheses of the clauses of Obligations.CommandsTurnedAway. -/
theorem test_witness_CommandsTurnedAway :
    ((entryOk wEntry371 = true ∧ canTake wState2 wEntry371 = false) ∧ (entryOk wEntry371 = true ∧ wState373.sec.restarting = true))
    ∧ ((opcodeAssigned wByte372.toNat = false ∧ isPf wEntry371 = false ∧ wState374.sec.restarting = false) ∧ Fetches wEntry371 qpC wState374)
    ∧ ((opcodeAssigned wByte375.toNat = true) ∧ Fetches wEntry371 qpC wState374)
    ∧ ((isPf wEntry376 = false ∧ isBound wState374 wEntry376 = false ∧ wState374.sec.restarting = false) ∧ Fetches wEntry376 qpC wState374)
    ∧ ((isBound wState378 wEntry377 = false ∧ wState378.sec.restarting = false) ∧ Fetches wEntry377 qpC wState378)
    ∧ ((isPf wEntry379 = true ∧ 16 ≤ partNo wEntry379) ∧ Fetches wEntry379 qpC wState378)
    ∧ ((isPf wEntry380 = true ∧ partNo wEntry380 < 16 ∧ getPart wState378 (partNo wEntry380) = none) ∧ Fetches wEntry380 qpC wState378)
    ∧ ((isPf wEntry377 = true ∧ partNo wEntry377 < 16 ∧ getPart wState381 (partNo wEntry377) = some wPartition382 ∧ wPartition382.state = .faulted) ∧ Fetches wEntry377 qpC wState381)
    ∧ ((isBound wState383 wEntry371 = true ∧ partNo wEntry371 < 16 ∧ getPart wState383 (partNo wEntry371) = some wPartition384 ∧ wPartition384.state = .loaded) ∧ Fetches wEntry371 qpC wState383) :=
  ⟨by decide +kernel,
    ⟨by decide +kernel, fetches_of (by decide +kernel)⟩,
    ⟨by decide +kernel, fetches_of (by decide +kernel)⟩,
    ⟨by decide +kernel, fetches_of (by decide +kernel)⟩,
    ⟨by decide +kernel, fetches_of (by decide +kernel)⟩,
    ⟨by decide +kernel, fetches_of (by decide +kernel)⟩,
    ⟨by decide +kernel, fetches_of (by decide +kernel)⟩,
    ⟨by decide +kernel, fetches_of (by decide +kernel)⟩,
    ⟨by decide +kernel, fetches_of (by decide +kernel)⟩⟩

/-- Hypotheses of the clauses of Obligations.ModuleCommands. -/
theorem test_witness_ModuleCommands_0 :
    ((dlenOf wEntry385 = 4096 ∧ pf wEntry385 20 1 = 0 ∧ partFree wEntry385 = false) ∧ Fetches wEntry385 qpC wState374 ∧ Clean wEntry385 true [(20, 1)])
    ∧ ((dlenOf wEntry386 = 4096 ∧ pf wEntry386 20 1 = 1 ∧ partFree wEntry386 = false) ∧ Fetches wEntry386 qpC wState374 ∧ Clean wEntry386 true [(20, 1)])
    ∧ ((dlenOf wEntry387 = 4096 ∧ pf wEntry387 20 1 = 2 ∧ (isPf wEntry387 = true ∨ isBound wState374 wEntry387 = true) ∧ partNo wEntry387 < 16 ∧ getPart wState374 (partNo wEntry387) = some part0) ∧ Fetches wEntry387 qpC wState374 ∧ Clean wEntry387 true [(20, 1)])
    ∧ ((3 ≤ pf wEntry388 20 1 ∧ partFree wEntry388 = false ∧ dlenOf wEntry388 = 4096) ∧ Fetches wEntry388 qpC wState374 ∧ Clean wEntry388 true [(20, 1)])
    ∧ ((pf wEntry389 20 1 ≠ 2 ∧ partFree wEntry389 = true ∧ dlenOf wEntry389 = 4096) ∧ Fetches wEntry389 qpC wState374 ∧ Clean wEntry389 true [(20, 1)])
    ∧ ((dlenOf wEntry390 = 0 ∧ 1 ≤ (pf wEntry390 20 2) ∧ (pf wEntry390 20 2) ≤ 63 ∧ 1 ≤ (pf wEntry390 22 2) ∧ (pf wEntry390 22 2) ≤ 4095 ∧ 1 ≤ (pf wEntry390 24 2) ∧ (pf wEntry390 24 2) ≤ 4095 ∧ ((pf wEntry390 26 1) = 255 ∨ (pf wEntry390 26 1) ≤ 63) ∧ pf wEntry390 32 8 % 4096 = 0 ∧ pf wEntry390 40 8 % 4096 = 0 ∧ getQp wState374 wEntry390.fn (pf wEntry390 20 2) = none) ∧ Fetches wEntry390 qpC wState374 ∧ Clean wEntry390 false [(20, 10), (32, 16)]) :=
  ⟨⟨by decide +kernel, fetches_of (by decide +kernel), clean_of (by decide +kernel)⟩,
    ⟨by decide +kernel, fetches_of (by decide +kernel), clean_of (by decide +kernel)⟩,
    ⟨by decide +kernel, fetches_of (by decide +kernel), clean_of (by decide +kernel)⟩,
    ⟨by decide +kernel, fetches_of (by decide +kernel), clean_of (by decide +kernel)⟩,
    ⟨by decide +kernel, fetches_of (by decide +kernel), clean_of (by decide +kernel)⟩,
    ⟨by decide +kernel, fetches_of (by decide +kernel), clean_of (by decide +kernel)⟩⟩

/-- Hypotheses of the clauses of Obligations.ModuleCommands. -/
theorem test_witness_ModuleCommands_1 :
    ((dlenOf wEntry391 = 0 ∧ 1 ≤ (pf wEntry391 20 2) ∧ (pf wEntry391 20 2) ≤ 63 ∧ 1 ≤ (pf wEntry391 22 2) ∧ (pf wEntry391 22 2) ≤ 4095 ∧ 1 ≤ (pf wEntry391 24 2) ∧ (pf wEntry391 24 2) ≤ 4095 ∧ ((pf wEntry391 26 1) = 255 ∨ (pf wEntry391 26 1) ≤ 63) ∧ pf wEntry391 32 8 % 4096 = 0 ∧ pf wEntry391 40 8 % 4096 = 0 ∧ (getQp wState374 wEntry391.fn (pf wEntry391 20 2)).isSome = true) ∧ Fetches wEntry391 qpC wState374 ∧ Clean wEntry391 false [(20, 10), (32, 16)])
    ∧ ((dlenOf wEntry392 = 0 ∧ (pf wEntry392 20 2) ≤ 63 ∧ (getQp (fetched wEntry392 qpC wState374) wEntry392.fn (pf wEntry392 20 2)).isSome = true ∧ pf wEntry392 20 1 = 1) ∧ Fetches wEntry392 qpC wState374 ∧ Clean wEntry392 false [(20, 2)] ∧ Clean wEntry392 false [(20, 16)])
    ∧ ((dlenOf wEntry393 = 0 ∧ (pf wEntry393 20 2) ≤ 63 ∧ getQp wState374 wEntry393.fn (pf wEntry393 20 2) = none) ∧ Fetches wEntry393 qpC wState374 ∧ Clean wEntry393 false [(20, 2)])
    ∧ ((isPf wEntry394 = true ∧ dlenOf wEntry394 = 0) ∧ Fetches wEntry394 qpC wState378 ∧ Clean wEntry394 false [])
    ∧ ((isPf wEntry395 = true ∧ dlenOf wEntry395 = 0 ∧ pf wEntry395 20 1 ≤ 2) ∧ Fetches wEntry395 qpC wState378 ∧ Clean wEntry395 false [(20, 1)])
    ∧ ((isPf wEntry396 = true ∧ dlenOf wEntry396 = 0 ∧ 3 ≤ pf wEntry396 20 1) ∧ Fetches wEntry396 qpC wState378 ∧ Clean wEntry396 false [(20, 1)]) :=
  ⟨⟨by decide +kernel, fetches_of (by decide +kernel), clean_of (by decide +kernel)⟩,
    ⟨by decide +kernel, fetches_of (by decide +kernel), clean_of (by decide +kernel), clean_of (by decide +kernel)⟩,
    ⟨by decide +kernel, fetches_of (by decide +kernel), clean_of (by decide +kernel)⟩,
    ⟨by decide +kernel, fetches_of (by decide +kernel), clean_of (by decide +kernel)⟩,
    ⟨by decide +kernel, fetches_of (by decide +kernel), clean_of (by decide +kernel)⟩,
    ⟨by decide +kernel, fetches_of (by decide +kernel), clean_of (by decide +kernel)⟩⟩

/-- Hypotheses of the clauses of Obligations.ModuleCommands. -/
theorem test_witness_ModuleCommands_2 :
    ((itemListed (pf wEntry397 20 2) = true ∧ itemUnitOk (pf wEntry397 20 2) (pf wEntry397 22 2) = true ∧ itemPermit wState378 wEntry397 (pf wEntry397 20 2) (pf wEntry397 22 2) = true ∧ ((if (pf wEntry397 20 2) = 0x20 ∨ (pf wEntry397 20 2) = 0x21 then partNo wEntry397 < 16 else partFree wEntry397 = false)) ∧ itemBytes (fetched wEntry397 qpC wState378) wEntry397 (pf wEntry397 20 2) (pf wEntry397 22 2) = some wListByte398 ∧ wListByte398.length ≤ dlenOf wEntry397) ∧ Fetches wEntry397 qpC wState378 ∧ Clean wEntry397 true [(20, 4)])
    ∧ ((itemListed (pf wEntry399 20 2) = true ∧ itemUnitOk (pf wEntry399 20 2) (pf wEntry399 22 2) = true ∧ itemPermit wState378 wEntry399 (pf wEntry399 20 2) (pf wEntry399 22 2) = true ∧ ((if (pf wEntry399 20 2) = 0x20 ∨ (pf wEntry399 20 2) = 0x21 then partNo wEntry399 < 16 else partFree wEntry399 = false)) ∧ itemBytes (fetched wEntry399 qpC wState378) wEntry399 (pf wEntry399 20 2) (pf wEntry399 22 2) = some wListByte400 ∧ dlenOf wEntry399 < wListByte400.length) ∧ Fetches wEntry399 qpC wState378 ∧ Clean wEntry399 true [(20, 4)])
    ∧ (((isPf wEntry401 = true ∨ isBound wState374 wEntry401 = true) ∧ partNo wEntry401 < 16 ∧ getPart wState374 (partNo wEntry401) = some part0 ∧ dlenOf wEntry401 = 4096) ∧ Fetches wEntry401 qpC wState374 ∧ Clean wEntry401 true [])
    ∧ ((dlenOf wEntry402 = 0 ∧ pf wEntry402 20 1 = 0 ∧ ((pf wEntry402 21 1) = 255 ∨ (pf wEntry402 21 1) ≤ 63) ∧ 6 ≤ pf wEntry402 22 1 ∧ pf wEntry402 22 1 ≤ 16 ∧ pf wEntry402 23 1 ≤ 5 ∧ pf wEntry402 24 8 % 4096 = 0) ∧ Fetches wEntry402 qpC wState374 ∧ Clean wEntry402 false [(20, 16)]) :=
  ⟨⟨by decide +kernel, fetches_of (by decide +kernel), clean_of (by decide +kernel)⟩,
    ⟨by decide +kernel, fetches_of (by decide +kernel), clean_of (by decide +kernel)⟩,
    ⟨by decide +kernel, fetches_of (by decide +kernel), clean_of (by decide +kernel)⟩,
    ⟨by decide +kernel, fetches_of (by decide +kernel), clean_of (by decide +kernel)⟩⟩

/-- Hypotheses of the clauses of Obligations.ModuleCommands. -/
theorem test_witness_ModuleCommands_3 :
    ((isPf wEntry403 = true ∧ (pf wEntry403 20 1 = 3 ∨ partFree wEntry403 = false) ∧ dlenOf wEntry403 = 0 ∧ pf wEntry403 25 1 ≤ 1 ∧ pf wEntry403 20 1 = 0 ∧ (pf wEntry403 21 1) < 8 ∧ (pf wEntry403 22 2) < 1600 ∧ sourceL (pf wEntry403 24 1) = true ∧ partOf wState378 (pf wEntry403 22 2) = none) ∧ Fetches wEntry403 qpC wState378 ∧ Clean wEntry403 true [(20, 6)])
    ∧ ((isPf wEntry404 = true ∧ (pf wEntry404 20 1 = 3 ∨ partFree wEntry404 = false) ∧ dlenOf wEntry404 = 0 ∧ pf wEntry404 25 1 ≤ 1 ∧ pf wEntry404 20 1 = 0 ∧ (pf wEntry404 21 1) < 8 ∧ (pf wEntry404 22 2) < 1600 ∧ sourceL (pf wEntry404 24 1) = true ∧ partOf wState378 (pf wEntry404 22 2) = some 0 ∧ getPart wState378 0 = some part0 ∧ part0.running = true) ∧ Fetches wEntry404 qpC wState378 ∧ Clean wEntry404 true [(20, 6)])
    ∧ ((isPf wEntry405 = true ∧ (pf wEntry405 20 1 = 3 ∨ partFree wEntry405 = false) ∧ dlenOf wEntry405 = 0 ∧ pf wEntry405 25 1 ≤ 1 ∧ pf wEntry405 20 1 = 1 ∧ (pf wEntry405 21 1) < 8 ∧ (pf wEntry405 22 2) < 100 ∧ sourceF (pf wEntry405 24 1) = true ∧ partOfField wState378 (pf wEntry405 22 2) = none) ∧ Fetches wEntry405 qpC wState378 ∧ Clean wEntry405 true [(20, 6)])
    ∧ ((isPf wEntry406 = true ∧ (pf wEntry406 20 1 = 3 ∨ partFree wEntry406 = false) ∧ dlenOf wEntry406 = 0 ∧ pf wEntry406 25 1 ≤ 1 ∧ pf wEntry406 20 1 = 2 ∧ (pf wEntry406 21 1) < 8 ∧ (pf wEntry406 22 2) < 40 ∧ sourceR (pf wEntry406 24 1) = true) ∧ Fetches wEntry406 qpC wState378 ∧ Clean wEntry406 true [(20, 6)]) :=
  ⟨⟨by decide +kernel, fetches_of (by decide +kernel), clean_of (by decide +kernel)⟩,
    ⟨by decide +kernel, fetches_of (by decide +kernel), clean_of (by decide +kernel)⟩,
    ⟨by decide +kernel, fetches_of (by decide +kernel), clean_of (by decide +kernel)⟩,
    ⟨by decide +kernel, fetches_of (by decide +kernel), clean_of (by decide +kernel)⟩⟩

/-- Hypotheses of the clauses of Obligations.ModuleCommands. -/
theorem test_witness_ModuleCommands_4 :
    ((isPf wEntry407 = true ∧ (pf wEntry407 20 1 = 3 ∨ partFree wEntry407 = false) ∧ dlenOf wEntry407 = 0 ∧ pf wEntry407 25 1 ≤ 1 ∧ pf wEntry407 20 1 = 3 ∧ (pf wEntry407 21 1) < 64 ∧ (pf wEntry407 22 2) = 0 ∧ (sourceL (pf wEntry407 24 1) || sourceF (pf wEntry407 24 1)) = true ∧ partNo wEntry407 < 16 ∧ getPart wState378 (partNo wEntry407) = some part0 ∧ part0.running = true) ∧ Fetches wEntry407 qpC wState378 ∧ Clean wEntry407 true [(20, 6)])
    ∧ ((isPf wEntry394 = true ∧ partNo wEntry394 = 255 ∧ pf wEntry394 20 1 = 0 ∧ dlenOf wEntry394 = 0 ∧ ((freeLanterns (fetched wEntry394 qpC wState408)).filter (fun l => !(getL (fetched wEntry394 qpC wState408) l).on)) = []) ∧ Fetches wEntry394 qpC wState408 ∧ Clean wEntry394 true [(20, 1)])
    ∧ ((isPf wEntry394 = true ∧ partNo wEntry394 = 255 ∧ pf wEntry394 20 1 = 0 ∧ dlenOf wEntry394 = 0 ∧ ((freeLanterns (fetched wEntry394 qpC wState409)).filter (fun l => !(getL (fetched wEntry394 qpC wState409) l).on)) ≠ []) ∧ Fetches wEntry394 qpC wState409 ∧ Clean wEntry394 true [(20, 1)]) :=
  ⟨⟨by decide +kernel, fetches_of (by decide +kernel), clean_of (by decide +kernel)⟩,
    ⟨by decide +kernel, fetches_of (by decide +kernel), clean_of (by decide +kernel)⟩,
    ⟨by decide +kernel, fetches_of (by decide +kernel), clean_of (by decide +kernel)⟩⟩

/-- Hypotheses of the clauses of Obligations.PartitionCommands. -/
theorem test_witness_PartitionCommands_0 :
    ((0 = partNo wEntry410 ∧ 0 < 16 ∧ isPf wEntry410 = true ∧ wState378.sec.restarting = false ∧ createFault wEntry410 = none ∧ createConflict wState378 0 (createParams wEntry410) = some 0x04) ∧ Fetches wEntry410 qpC wState378)
    ∧ ((1 = partNo wEntry411 ∧ 1 < 16 ∧ isPf wEntry411 = true ∧ wState412.sec.restarting = false ∧ createFault wEntry411 = none ∧ createConflict wState412 1 (createParams wEntry411) = none ∧ createRoutes wState412 (createParams wEntry411) = false) ∧ Fetches wEntry411 qpC wState412)
    ∧ ((1 = partNo wEntry411 ∧ 1 < 16 ∧ isPf wEntry411 = true ∧ wState413.sec.restarting = false ∧ createFault wEntry411 = none ∧ createConflict wState413 1 (createParams wEntry411) = none ∧ createRoutes wState413 (createParams wEntry411) = true ∧ 6100 < sharesSum wState413 16 + pf wEntry411 44 4) ∧ Fetches wEntry411 qpC wState413)
    ∧ ((1 = partNo wEntry411 ∧ 1 < 16 ∧ isPf wEntry411 = true ∧ wState378.sec.restarting = false ∧ createFault wEntry411 = none ∧ createConflict wState378 1 (createParams wEntry411) = none ∧ createRoutes wState378 (createParams wEntry411) = true ∧ sharesSum wState378 16 + pf wEntry411 44 4 ≤ 6100 ∧ wState378.dormant = []) ∧ Fetches wEntry411 qpC wState378)
    ∧ ((0 = partNo wEntry377 ∧ 0 < 16 ∧ isPf wEntry377 = true ∧ wState414.sec.restarting = false ∧ getPart wState414 0 = some wPartition415 ∧ idleState wPartition415.state = true ∧ dlenOf wEntry377 = 0 ∧ partArrays (fetched wEntry377 qpC wState414) wPartition415 = [] ∧ wState414.erasing = []) ∧ Fetches wEntry377 qpC wState414 ∧ Clean wEntry377 true []) :=
  ⟨⟨by decide +kernel, fetches_of (by decide +kernel)⟩,
    ⟨by decide +kernel, fetches_of (by decide +kernel)⟩,
    ⟨by decide +kernel, fetches_of (by decide +kernel)⟩,
    ⟨by decide +kernel, fetches_of (by decide +kernel)⟩,
    ⟨by decide +kernel, fetches_of (by decide +kernel), clean_of (by decide +kernel)⟩⟩

/-- Hypotheses of the clauses of Obligations.PartitionCommands. -/
theorem test_witness_PartitionCommands_1 :
    ((0 = partNo wEntry377 ∧ 0 < 16 ∧ isPf wEntry377 = true ∧ wState416.sec.restarting = false ∧ getPart wState416 0 = some wPartition417 ∧ idleState wPartition417.state = true ∧ dlenOf wEntry377 = 0 ∧ partArrays (fetched wEntry377 qpC wState416) wPartition417 ≠ []) ∧ Fetches wEntry377 qpC wState416 ∧ Clean wEntry377 true [])
    ∧ ((0 = partNo wEntry418 ∧ 0 < 16 ∧ isPf wEntry418 = true ∧ getPart wState378 0 = some wPartition419 ∧ wPartition419.state ≠ .faulted ∧ dlenOf wEntry418 = 0 ∧ pf wEntry418 20 1 = 0 ∧ 10 ≤ (pf wEntry418 24 4) ∧ (pf wEntry418 24 4) ≤ 10000) ∧ Fetches wEntry418 qpC wState378 ∧ Clean wEntry418 true [(20, 1), (24, 4)])
    ∧ ((0 = partNo wEntry420 ∧ 0 < 16 ∧ isPf wEntry420 = true ∧ getPart wState378 0 = some wPartition419 ∧ wPartition419.state ≠ .faulted ∧ dlenOf wEntry420 = 0 ∧ pf wEntry420 20 1 = 1 ∧ 1 ≤ (pf wEntry420 24 4) ∧ (pf wEntry420 24 4) ≤ 4) ∧ Fetches wEntry420 qpC wState378 ∧ Clean wEntry420 true [(20, 1), (24, 4)])
    ∧ ((0 = partNo wEntry421 ∧ 0 < 16 ∧ isPf wEntry421 = true ∧ getPart wState378 0 = some wPartition419 ∧ wPartition419.state ≠ .faulted ∧ dlenOf wEntry421 = 0 ∧ pf wEntry421 20 1 = 2 ∧ 50 * (wPartition419.w * wPartition419.h) ≤ (pf wEntry421 24 4) ∧ (pf wEntry421 24 4) ≤ 6100 ∧ sharesSum wState378 0 + (pf wEntry421 24 4) ≤ 6100) ∧ Fetches wEntry421 qpC wState378 ∧ Clean wEntry421 true [(20, 1), (24, 4)]) :=
  ⟨⟨by decide +kernel, fetches_of (by decide +kernel), clean_of (by decide +kernel)⟩,
    ⟨by decide +kernel, fetches_of (by decide +kernel), clean_of (by decide +kernel)⟩,
    ⟨by decide +kernel, fetches_of (by decide +kernel), clean_of (by decide +kernel)⟩,
    ⟨by decide +kernel, fetches_of (by decide +kernel), clean_of (by decide +kernel)⟩⟩

/-- Hypotheses of the clauses of Obligations.PartitionCommands. -/
theorem test_witness_PartitionCommands_2 :
    ((0 = partNo wEntry421 ∧ 0 < 16 ∧ isPf wEntry421 = true ∧ getPart wState422 0 = some wPartition423 ∧ wPartition423.state ≠ .faulted ∧ dlenOf wEntry421 = 0 ∧ pf wEntry421 20 1 = 2 ∧ 50 * (wPartition423.w * wPartition423.h) ≤ (pf wEntry421 24 4) ∧ (pf wEntry421 24 4) ≤ 6100 ∧ 6100 < sharesSum wState422 0 + (pf wEntry421 24 4)) ∧ Fetches wEntry421 qpC wState422 ∧ Clean wEntry421 true [(20, 1), (24, 4)])
    ∧ ((0 = partNo wEntry418 ∧ 0 < 16 ∧ isPf wEntry418 = true ∧ getPart wState378 0 = some wPartition419 ∧ wPartition419.state ≠ .faulted ∧ dlenOf wEntry418 = 0 ∧ wPartition419.running = true) ∧ Fetches wEntry418 qpC wState378 ∧ Clean wEntry418 true [(20, 1), (24, 4)])
    ∧ ((0 = partNo wEntry424 ∧ 0 < 16 ∧ (isPf wEntry424 = true ∨ isBound wState425 wEntry424 = true) ∧ wState425.sec.restarting = false ∧ getPart wState425 0 = some wPartition426 ∧ idleState wPartition426.state = true ∧ wEntry424.data = some [1]) ∧ Fetches wEntry424 qpC wState425 ∧ Clean wEntry424 true [])
    ∧ ((0 = partNo wEntry377 ∧ 0 < 16 ∧ (isPf wEntry377 = true ∨ isBound wState427 wEntry377 = true) ∧ getPart wState427 0 = some wPartition428 ∧ wPartition428.state = .loaded ∧ dlenOf wEntry377 = 0 ∧ wPartition428.hold = true) ∧ Fetches wEntry377 qpC wState427 ∧ Clean wEntry377 true [])
    ∧ ((0 = partNo wEntry377 ∧ 0 < 16 ∧ (isPf wEntry377 = true ∨ isBound wState429 wEntry377 = true) ∧ getPart wState429 0 = some wPartition430 ∧ wPartition430.state = .loaded ∧ dlenOf wEntry377 = 0 ∧ wPartition430.hold = false ∧ weightsFit wPartition430 = false) ∧ Fetches wEntry377 qpC wState429 ∧ Clean wEntry377 true []) :=
  ⟨⟨by decide +kernel, fetches_of (by decide +kernel), clean_of (by decide +kernel)⟩,
    ⟨by decide +kernel, fetches_of (by decide +kernel), clean_of (by decide +kernel)⟩,
    ⟨by decide +kernel, fetches_of (by decide +kernel), clean_of (by decide +kernel)⟩,
    ⟨by decide +kernel, fetches_of (by decide +kernel), clean_of (by decide +kernel)⟩,
    ⟨by decide +kernel, fetches_of (by decide +kernel), clean_of (by decide +kernel)⟩⟩

/-- Hypotheses of the clauses of Obligations.PartitionCommands. -/
theorem test_witness_PartitionCommands_3 :
    ((0 = partNo wEntry377 ∧ 0 < 16 ∧ (isPf wEntry377 = true ∨ isBound wState431 wEntry377 = true) ∧ getPart wState431 0 = some wPartition432 ∧ wPartition432.state = .loaded ∧ dlenOf wEntry377 = 0 ∧ wPartition432.hold = false ∧ weightsFit wPartition432 = true ∧ notReady wState431 wPartition432 = true) ∧ Fetches wEntry377 qpC wState431 ∧ Clean wEntry377 true [])
    ∧ ((0 = partNo wEntry377 ∧ 0 < 16 ∧ (isPf wEntry377 = true ∨ isBound wState433 wEntry377 = true) ∧ getPart wState433 0 = some wPartition434 ∧ wPartition434.state = .loaded ∧ dlenOf wEntry377 = 0 ∧ wPartition434.hold = false ∧ weightsFit wPartition434 = true ∧ notReady wState433 wPartition434 = false) ∧ Fetches wEntry377 qpC wState433 ∧ Clean wEntry377 true [])
    ∧ ((0 = partNo wEntry366 ∧ 0 < 16 ∧ (isPf wEntry366 = true ∨ isBound wState435 wEntry366 = true) ∧ getPart wState435 0 = some wPartition436 ∧ (wPartition436.state = .serving ∨ wPartition436.state = .draining) ∧ dlenOf wEntry366 = 0 ∧ pf wEntry366 20 1 ≤ 1) ∧ Fetches wEntry366 qpC wState435 ∧ Clean wEntry366 true [(20, 1)]) :=
  ⟨⟨by decide +kernel, fetches_of (by decide +kernel), clean_of (by decide +kernel)⟩,
    ⟨by decide +kernel, fetches_of (by decide +kernel), clean_of (by decide +kernel)⟩,
    ⟨by decide +kernel, fetches_of (by decide +kernel), clean_of (by decide +kernel)⟩⟩

/-- Hypotheses of the clauses of Obligations.PartitionSettings. -/
theorem test_witness_PartitionSettings_0 :
    ((0 = partNo wEntry366 ∧ 0 < 16 ∧ getPart wState378 0 = some wPartition419 ∧ dlenOf wEntry366 = 0 ∧ (isPf wEntry366 = true ∨ isBound wState378 wEntry366 = true) ∧ wPartition419.state ≠ .faulted ∧ pf wEntry366 20 1 = (if true then 1 else 0)) ∧ Fetches wEntry366 qpC wState378 ∧ Clean wEntry366 true [(20, 1)])
    ∧ ((0 = partNo wEntry437 ∧ 0 < 16 ∧ getPart wState378 0 = some wPartition419 ∧ dlenOf wEntry437 = 0 ∧ (isPf wEntry437 = true ∨ isBound wState378 wEntry437 = true) ∧ wPartition419.state ≠ .faulted ∧ 2 ≤ pf wEntry437 20 1 ∧ isPf wEntry437 = true ∧ pf wEntry437 20 1 = 2) ∧ Fetches wEntry437 qpC wState378 ∧ Clean wEntry437 true [(20, 1)])
    ∧ ((0 = partNo wEntry438 ∧ 0 < 16 ∧ getPart wState378 0 = some wPartition419 ∧ dlenOf wEntry438 = 0 ∧ (isPf wEntry438 = true ∨ isBound wState378 wEntry438 = true) ∧ wPartition419.state ≠ .faulted ∧ (pf wEntry438 20 1) ≤ 5 ∧ (monRange (pf wEntry438 20 1)).1 ≤ (pf wEntry438 24 4) ∧ (pf wEntry438 24 4) ≤ (monRange (pf wEntry438 20 1)).2 ∧ (monWith (wPartition419.monNext.getD wPartition419.mon) (pf wEntry438 20 1) (pf wEntry438 24 4)).rdfWarn ≤ (monWith (wPartition419.monNext.getD wPartition419.mon) (pf wEntry438 20 1) (pf wEntry438 24 4)).rdfErr) ∧ Fetches wEntry438 qpC wState378 ∧ Clean wEntry438 true [(20, 1), (24, 4)]) :=
  ⟨⟨by decide +kernel, fetches_of (by decide +kernel), clean_of (by decide +kernel)⟩,
    ⟨by decide +kernel, fetches_of (by decide +kernel), clean_of (by decide +kernel)⟩,
    ⟨by decide +kernel, fetches_of (by decide +kernel), clean_of (by decide +kernel)⟩⟩

/-- Hypotheses of the clauses of Obligations.PartitionSettings. -/
theorem test_witness_PartitionSettings_1 :
    ((0 = partNo wEntry439 ∧ 0 < 16 ∧ getPart wState429 0 = some wPartition430 ∧ dlenOf wEntry439 = 0 ∧ (isPf wEntry439 = true ∨ isBound wState429 wEntry439 = true) ∧ idleState wPartition430.state = true ∧ 13 ≤ pf wEntry439 20 1 ∧ pf wEntry439 20 1 ≤ 50 ∧ isRyile wPartition430 = false) ∧ Fetches wEntry439 qpC wState429 ∧ Clean wEntry439 true [(20, 1)])
    ∧ ((0 = partNo wEntry440 ∧ 0 < 16 ∧ getPart wState441 0 = some wPartition442 ∧ dlenOf wEntry440 = 0 ∧ (isPf wEntry440 = true ∨ isBound wState441 wEntry440 = true) ∧ idleState wPartition442.state = true ∧ 13 ≤ pf wEntry440 20 1 ∧ pf wEntry440 20 1 ≤ 50 ∧ isRyile wPartition442 = true) ∧ Fetches wEntry440 qpC wState441 ∧ Clean wEntry440 true [(20, 1)])
    ∧ ((0 = partNo wEntry443 ∧ 0 < 16 ∧ getPart wState378 0 = some wPartition419 ∧ dlenOf wEntry443 = 0 ∧ (isPf wEntry443 = true ∨ isBound wState378 wEntry443 = true) ∧ wPartition419.state ≠ .faulted ∧ 1 ≤ (pf wEntry443 24 4) ∧ (pf wEntry443 24 4) ≤ 60000 ∧ isRyile wPartition419 = false) ∧ Fetches wEntry443 qpC wState378 ∧ Clean wEntry443 true [(24, 4)])
    ∧ ((0 = partNo wEntry443 ∧ 0 < 16 ∧ getPart wState441 0 = some wPartition442 ∧ dlenOf wEntry443 = 0 ∧ (isPf wEntry443 = true ∨ isBound wState441 wEntry443 = true) ∧ wPartition442.state ≠ .faulted ∧ 1 ≤ (pf wEntry443 24 4) ∧ (pf wEntry443 24 4) ≤ 60000 ∧ isRyile wPartition442 = true ∧ wPartition442.window10 = none) ∧ Fetches wEntry443 qpC wState441 ∧ Clean wEntry443 true [(24, 4)]) :=
  ⟨⟨by decide +kernel, fetches_of (by decide +kernel), clean_of (by decide +kernel)⟩,
    ⟨by decide +kernel, fetches_of (by decide +kernel), clean_of (by decide +kernel)⟩,
    ⟨by decide +kernel, fetches_of (by decide +kernel), clean_of (by decide +kernel)⟩,
    ⟨by decide +kernel, fetches_of (by decide +kernel), clean_of (by decide +kernel)⟩⟩

/-- Hypotheses of the clauses of Obligations.PartitionSettings. -/
theorem test_witness_PartitionSettings_2 :
    ((0 = partNo wEntry377 ∧ 0 < 16 ∧ getPart wState444 0 = some wPartition445 ∧ dlenOf wEntry377 = 0 ∧ (isPf wEntry377 = true ∨ isBound wState444 wEntry377 = true) ∧ isPf wEntry377 = true ∧ pf wEntry377 20 1 = 0 ∧ idleState wPartition445.state = true ∧ ((partLanterns (fetched wEntry377 qpC wState444) wPartition445).filter (fun l => !(getL (fetched wEntry377 qpC wState444) l).on)) = []) ∧ Fetches wEntry377 qpC wState444 ∧ Clean wEntry377 true [(20, 1)])
    ∧ ((0 = partNo wEntry377 ∧ 0 < 16 ∧ getPart wState446 0 = some wPartition447 ∧ dlenOf wEntry377 = 0 ∧ (isPf wEntry377 = true ∨ isBound wState446 wEntry377 = true) ∧ isPf wEntry377 = true ∧ pf wEntry377 20 1 = 0 ∧ idleState wPartition447.state = true ∧ ((partLanterns (fetched wEntry377 qpC wState446) wPartition447).filter (fun l => !(getL (fetched wEntry377 qpC wState446) l).on)) ≠ []) ∧ Fetches wEntry377 qpC wState446 ∧ Clean wEntry377 true [(20, 1)])
    ∧ ((0 = partNo wEntry377 ∧ 0 < 16 ∧ getPart wState378 0 = some wPartition419 ∧ dlenOf wEntry377 = 0 ∧ (isPf wEntry377 = true ∨ isBound wState378 wEntry377 = true) ∧ isPf wEntry377 = true ∧ pf wEntry377 20 1 = 0 ∧ idleState wPartition419.state = false) ∧ Fetches wEntry377 qpC wState378 ∧ Clean wEntry377 true [(20, 1)])
    ∧ ((0 = partNo wEntry366 ∧ 0 < 16 ∧ getPart wState448 0 = some wPartition449 ∧ dlenOf wEntry366 = 0 ∧ (isPf wEntry366 = true ∨ isBound wState448 wEntry366 = true) ∧ isPf wEntry366 = true ∧ pf wEntry366 20 1 = 1) ∧ Fetches wEntry366 qpC wState448 ∧ Clean wEntry366 true [(20, 1)]) :=
  ⟨⟨by decide +kernel, fetches_of (by decide +kernel), clean_of (by decide +kernel)⟩,
    ⟨by decide +kernel, fetches_of (by decide +kernel), clean_of (by decide +kernel)⟩,
    ⟨by decide +kernel, fetches_of (by decide +kernel), clean_of (by decide +kernel)⟩,
    ⟨by decide +kernel, fetches_of (by decide +kernel), clean_of (by decide +kernel)⟩⟩

/-- Hypotheses of Obligations.PartitionSettings. -/
theorem test_witness_PartitionSettings_3 : (0 = partNo wEntry450 ∧ 0 < 16 ∧ getPart wState378 0 = some wPartition419 ∧ dlenOf wEntry450 = 0 ∧ (isPf wEntry450 = true ∨ isBound wState378 wEntry450 = true) ∧ isPf wEntry450 = true ∧ 3 ≤ pf wEntry450 20 1) ∧ Fetches wEntry450 qpC wState378 ∧ Clean wEntry450 true [(20, 1)] := ⟨by decide +kernel, fetches_of (by decide +kernel), clean_of (by decide +kernel)⟩

/-- Hypotheses of Obligations.RequestCommands. -/
theorem test_witness_RequestCommands_0 : (0 = partNo wEntry452 ∧ 0 < 16 ∧ getPart wState451 0 = some wPartition453 ∧ isBound wState451 wEntry452 = true ∧ wPartition453.state = .serving ∧ wEntry452.data = some (bytesWith 260 [(0, 9), (8, 4096), (16, 4), (18, 6), (19, 255), (24, 10), (28, 1), (40, 0x3F800000), (256, 5)]) ∧ wPartition453.prog = some wProgram454 ∧ 256 ≤ dlenOf wEntry452 ∧ dlenOf wEntry452 ≠ 256 + 4 * promptLen (padTo (dlenOf wEntry452) (bytesWith 260 [(0, 9), (8, 4096), (16, 4), (18, 6), (19, 255), (24, 10), (28, 1), (40, 0x3F800000), (256, 5)]))) ∧ Fetches wEntry452 qpC wState451 ∧ Clean wEntry452 true [] := ⟨by decide +kernel, fetches_of (by decide +kernel), clean_of (by decide +kernel)⟩

/-- Hypotheses of Obligations.RequestCommands. -/
theorem test_witness_RequestCommands_1 : (0 = partNo wEntry455 ∧ 0 < 16 ∧ getPart wState451 0 = some wPartition453 ∧ isBound wState451 wEntry455 = true ∧ wPartition453.state = .serving ∧ wEntry455.data = some (bytesWith 260 [(0, 9), (8, 4096), (16, 1024), (18, 6), (19, 255), (24, 10), (28, 1), (40, 0x3F800000), (256, 5)]) ∧ wPartition453.prog = some wProgram454 ∧ 256 ≤ dlenOf wEntry455 ∧ dlenOf wEntry455 = 256 + 4 * promptLen (padTo (dlenOf wEntry455) (bytesWith 260 [(0, 9), (8, 4096), (16, 1024), (18, 6), (19, 255), (24, 10), (28, 1), (40, 0x3F800000), (256, 5)])) ∧ blockFault wProgram454 (padTo (dlenOf wEntry455) (bytesWith 260 [(0, 9), (8, 4096), (16, 1024), (18, 6), (19, 255), (24, 10), (28, 1), (40, 0x3F800000), (256, 5)])) (resumedPositions (if modeBit (padTo (dlenOf wEntry455) (bytesWith 260 [(0, 9), (8, 4096), (16, 1024), (18, 6), (19, 255), (24, 10), (28, 1), (40, 0x3F800000), (256, 5)])) 3 then liveCtx wState451 0 (ctxHandle (padTo (dlenOf wEntry455) (bytesWith 260 [(0, 9), (8, 4096), (16, 1024), (18, 6), (19, 255), (24, 10), (28, 1), (40, 0x3F800000), (256, 5)]))) else none)) = some 16) ∧ Fetches wEntry455 qpC wState451 ∧ Clean wEntry455 true [] := ⟨by decide +kernel, fetches_of (by decide +kernel), clean_of (by decide +kernel)⟩

/-- Hypotheses of Obligations.RequestCommands. -/
theorem test_witness_RequestCommands_2 : (0 = partNo wEntry456 ∧ 0 < 16 ∧ getPart wState451 0 = some wPartition453 ∧ isBound wState451 wEntry456 = true ∧ wPartition453.state = .serving ∧ wEntry456.data = some (bytesWith 260 [(0, 7), (8, 4096), (16, 4), (18, 6), (19, 255), (24, 10), (28, 1), (40, 0x3F800000), (256, 5)]) ∧ wPartition453.prog = some wProgram454 ∧ 256 ≤ dlenOf wEntry456 ∧ dlenOf wEntry456 = 256 + 4 * promptLen (padTo (dlenOf wEntry456) (bytesWith 260 [(0, 7), (8, 4096), (16, 4), (18, 6), (19, 255), (24, 10), (28, 1), (40, 0x3F800000), (256, 5)])) ∧ blockFault wProgram454 (padTo (dlenOf wEntry456) (bytesWith 260 [(0, 7), (8, 4096), (16, 4), (18, 6), (19, 255), (24, 10), (28, 1), (40, 0x3F800000), (256, 5)])) (resumedPositions (if modeBit (padTo (dlenOf wEntry456) (bytesWith 260 [(0, 7), (8, 4096), (16, 4), (18, 6), (19, 255), (24, 10), (28, 1), (40, 0x3F800000), (256, 5)])) 3 then liveCtx wState451 0 (ctxHandle (padTo (dlenOf wEntry456) (bytesWith 260 [(0, 7), (8, 4096), (16, 4), (18, 6), (19, 255), (24, 10), (28, 1), (40, 0x3F800000), (256, 5)]))) else none)) = none ∧ ((∃ r, r ∈ wPartition453.reqs ∧ (r.tag.toNat = fieldAt (padTo (dlenOf wEntry456) (bytesWith 260 [(0, 7), (8, 4096), (16, 4), (18, 6), (19, 255), (24, 10), (28, 1), (40, 0x3F800000), (256, 5)])) 0 8 ∨ r.rn = fieldAt (padTo (dlenOf wEntry456) (bytesWith 260 [(0, 7), (8, 4096), (16, 4), (18, 6), (19, 255), (24, 10), (28, 1), (40, 0x3F800000), (256, 5)])) 16 2)))) ∧ Fetches wEntry456 qpC wState451 ∧ Clean wEntry456 true [] := ⟨by decide +kernel, fetches_of (by decide +kernel), clean_of (by decide +kernel)⟩

/-- Hypotheses of Obligations.RequestCommands. -/
theorem test_witness_RequestCommands_3 : (0 = partNo wEntry457 ∧ 0 < 16 ∧ getPart wState451 0 = some wPartition453 ∧ isBound wState451 wEntry457 = true ∧ wPartition453.state = .serving ∧ wEntry457.data = some (bytesWith 260 [(0, 9), (8, 4096), (16, 4), (18, 6), (19, 255), (24, 10), (28, 1), (40, 0x3F800000), (52, 5), (256, 5)]) ∧ wPartition453.prog = some wProgram454 ∧ 256 ≤ dlenOf wEntry457 ∧ dlenOf wEntry457 = 256 + 4 * promptLen (padTo (dlenOf wEntry457) (bytesWith 260 [(0, 9), (8, 4096), (16, 4), (18, 6), (19, 255), (24, 10), (28, 1), (40, 0x3F800000), (52, 5), (256, 5)])) ∧ blockFault wProgram454 (padTo (dlenOf wEntry457) (bytesWith 260 [(0, 9), (8, 4096), (16, 4), (18, 6), (19, 255), (24, 10), (28, 1), (40, 0x3F800000), (52, 5), (256, 5)])) (resumedPositions (if modeBit (padTo (dlenOf wEntry457) (bytesWith 260 [(0, 9), (8, 4096), (16, 4), (18, 6), (19, 255), (24, 10), (28, 1), (40, 0x3F800000), (52, 5), (256, 5)])) 3 then liveCtx wState451 0 (ctxHandle (padTo (dlenOf wEntry457) (bytesWith 260 [(0, 9), (8, 4096), (16, 4), (18, 6), (19, 255), (24, 10), (28, 1), (40, 0x3F800000), (52, 5), (256, 5)]))) else none)) = none ∧ ((∀ r, r ∈ wPartition453.reqs → r.tag.toNat ≠ fieldAt (padTo (dlenOf wEntry457) (bytesWith 260 [(0, 9), (8, 4096), (16, 4), (18, 6), (19, 255), (24, 10), (28, 1), (40, 0x3F800000), (52, 5), (256, 5)])) 0 8 ∧ r.rn ≠ fieldAt (padTo (dlenOf wEntry457) (bytesWith 260 [(0, 9), (8, 4096), (16, 4), (18, 6), (19, 255), (24, 10), (28, 1), (40, 0x3F800000), (52, 5), (256, 5)])) 16 2)) ∧ bindAdapter wPartition453 (padTo (dlenOf wEntry457) (bytesWith 260 [(0, 9), (8, 4096), (16, 4), (18, 6), (19, 255), (24, 10), (28, 1), (40, 0x3F800000), (52, 5), (256, 5)])) (if modeBit (padTo (dlenOf wEntry457) (bytesWith 260 [(0, 9), (8, 4096), (16, 4), (18, 6), (19, 255), (24, 10), (28, 1), (40, 0x3F800000), (52, 5), (256, 5)])) 3 then liveCtx wState451 0 (ctxHandle (padTo (dlenOf wEntry457) (bytesWith 260 [(0, 9), (8, 4096), (16, 4), (18, 6), (19, 255), (24, 10), (28, 1), (40, 0x3F800000), (52, 5), (256, 5)]))) else none) = .inr 0x0D) ∧ Fetches wEntry457 qpC wState451 ∧ Clean wEntry457 true [] := ⟨by decide +kernel, fetches_of (by decide +kernel), clean_of (by decide +kernel)⟩

/-- Hypotheses of Obligations.RequestCommands. -/
theorem test_witness_RequestCommands_4 : (0 = partNo wEntry458 ∧ 0 < 16 ∧ getPart wState451 0 = some wPartition453 ∧ isBound wState451 wEntry458 = true ∧ wPartition453.state = .serving ∧ wEntry458.data = some (bytesWith 260 [(0, 9), (8, 4096), (16, 4), (18, 6), (19, 255), (24, 10), (28, 1), (32, 8), (40, 0x3F800000), (256, 5)]) ∧ wPartition453.prog = some wProgram454 ∧ 256 ≤ dlenOf wEntry458 ∧ dlenOf wEntry458 = 256 + 4 * promptLen (padTo (dlenOf wEntry458) (bytesWith 260 [(0, 9), (8, 4096), (16, 4), (18, 6), (19, 255), (24, 10), (28, 1), (32, 8), (40, 0x3F800000), (256, 5)])) ∧ blockFault wProgram454 (padTo (dlenOf wEntry458) (bytesWith 260 [(0, 9), (8, 4096), (16, 4), (18, 6), (19, 255), (24, 10), (28, 1), (32, 8), (40, 0x3F800000), (256, 5)])) (resumedPositions (if modeBit (padTo (dlenOf wEntry458) (bytesWith 260 [(0, 9), (8, 4096), (16, 4), (18, 6), (19, 255), (24, 10), (28, 1), (32, 8), (40, 0x3F800000), (256, 5)])) 3 then liveCtx wState451 0 (ctxHandle (padTo (dlenOf wEntry458) (bytesWith 260 [(0, 9), (8, 4096), (16, 4), (18, 6), (19, 255), (24, 10), (28, 1), (32, 8), (40, 0x3F800000), (256, 5)]))) else none)) = none ∧ ((∀ r, r ∈ wPartition453.reqs → r.tag.toNat ≠ fieldAt (padTo (dlenOf wEntry458) (bytesWith 260 [(0, 9), (8, 4096), (16, 4), (18, 6), (19, 255), (24, 10), (28, 1), (32, 8), (40, 0x3F800000), (256, 5)])) 0 8 ∧ r.rn ≠ fieldAt (padTo (dlenOf wEntry458) (bytesWith 260 [(0, 9), (8, 4096), (16, 4), (18, 6), (19, 255), (24, 10), (28, 1), (32, 8), (40, 0x3F800000), (256, 5)])) 16 2)) ∧ bindAdapter wPartition453 (padTo (dlenOf wEntry458) (bytesWith 260 [(0, 9), (8, 4096), (16, 4), (18, 6), (19, 255), (24, 10), (28, 1), (32, 8), (40, 0x3F800000), (256, 5)])) (if modeBit (padTo (dlenOf wEntry458) (bytesWith 260 [(0, 9), (8, 4096), (16, 4), (18, 6), (19, 255), (24, 10), (28, 1), (32, 8), (40, 0x3F800000), (256, 5)])) 3 then liveCtx wState451 0 (ctxHandle (padTo (dlenOf wEntry458) (bytesWith 260 [(0, 9), (8, 4096), (16, 4), (18, 6), (19, 255), (24, 10), (28, 1), (32, 8), (40, 0x3F800000), (256, 5)]))) else none) = .inl 0 ∧ modeBit (padTo (dlenOf wEntry458) (bytesWith 260 [(0, 9), (8, 4096), (16, 4), (18, 6), (19, 255), (24, 10), (28, 1), (32, 8), (40, 0x3F800000), (256, 5)])) 3 = true ∧ (if modeBit (padTo (dlenOf wEntry458) (bytesWith 260 [(0, 9), (8, 4096), (16, 4), (18, 6), (19, 255), (24, 10), (28, 1), (32, 8), (40, 0x3F800000), (256, 5)])) 3 then liveCtx wState451 0 (ctxHandle (padTo (dlenOf wEntry458) (bytesWith 260 [(0, 9), (8, 4096), (16, 4), (18, 6), (19, 255), (24, 10), (28, 1), (32, 8), (40, 0x3F800000), (256, 5)]))) else none) = none) ∧ Fetches wEntry458 qpC wState451 ∧ Clean wEntry458 true [] := ⟨by decide +kernel, fetches_of (by decide +kernel), clean_of (by decide +kernel)⟩

/-- Hypotheses of Obligations.RequestCommands. -/
theorem test_witness_RequestCommands_5 : (0 = partNo wEntry460 ∧ 0 < 16 ∧ getPart wState459 0 = some wPartition461 ∧ isBound wState459 wEntry460 = true ∧ wPartition461.state = .serving ∧ wEntry460.data = some (bytesWith 260 [(0, 9), (8, 4096), (16, 4), (18, 6), (19, 255), (24, 10), (28, 1), (32, 8), (40, 0x3F800000), (56, 6), (256, 5)]) ∧ wPartition461.prog = some wProgram462 ∧ 256 ≤ dlenOf wEntry460 ∧ dlenOf wEntry460 = 256 + 4 * promptLen (padTo (dlenOf wEntry460) (bytesWith 260 [(0, 9), (8, 4096), (16, 4), (18, 6), (19, 255), (24, 10), (28, 1), (32, 8), (40, 0x3F800000), (56, 6), (256, 5)])) ∧ blockFault wProgram462 (padTo (dlenOf wEntry460) (bytesWith 260 [(0, 9), (8, 4096), (16, 4), (18, 6), (19, 255), (24, 10), (28, 1), (32, 8), (40, 0x3F800000), (56, 6), (256, 5)])) (resumedPositions (if modeBit (padTo (dlenOf wEntry460) (bytesWith 260 [(0, 9), (8, 4096), (16, 4), (18, 6), (19, 255), (24, 10), (28, 1), (32, 8), (40, 0x3F800000), (56, 6), (256, 5)])) 3 then liveCtx wState459 0 (ctxHandle (padTo (dlenOf wEntry460) (bytesWith 260 [(0, 9), (8, 4096), (16, 4), (18, 6), (19, 255), (24, 10), (28, 1), (32, 8), (40, 0x3F800000), (56, 6), (256, 5)]))) else none)) = none ∧ ((∀ r, r ∈ wPartition461.reqs → r.tag.toNat ≠ fieldAt (padTo (dlenOf wEntry460) (bytesWith 260 [(0, 9), (8, 4096), (16, 4), (18, 6), (19, 255), (24, 10), (28, 1), (32, 8), (40, 0x3F800000), (56, 6), (256, 5)])) 0 8 ∧ r.rn ≠ fieldAt (padTo (dlenOf wEntry460) (bytesWith 260 [(0, 9), (8, 4096), (16, 4), (18, 6), (19, 255), (24, 10), (28, 1), (32, 8), (40, 0x3F800000), (56, 6), (256, 5)])) 16 2)) ∧ bindAdapter wPartition461 (padTo (dlenOf wEntry460) (bytesWith 260 [(0, 9), (8, 4096), (16, 4), (18, 6), (19, 255), (24, 10), (28, 1), (32, 8), (40, 0x3F800000), (56, 6), (256, 5)])) (if modeBit (padTo (dlenOf wEntry460) (bytesWith 260 [(0, 9), (8, 4096), (16, 4), (18, 6), (19, 255), (24, 10), (28, 1), (32, 8), (40, 0x3F800000), (56, 6), (256, 5)])) 3 then liveCtx wState459 0 (ctxHandle (padTo (dlenOf wEntry460) (bytesWith 260 [(0, 9), (8, 4096), (16, 4), (18, 6), (19, 255), (24, 10), (28, 1), (32, 8), (40, 0x3F800000), (56, 6), (256, 5)]))) else none) = .inl 0 ∧ modeBit (padTo (dlenOf wEntry460) (bytesWith 260 [(0, 9), (8, 4096), (16, 4), (18, 6), (19, 255), (24, 10), (28, 1), (32, 8), (40, 0x3F800000), (56, 6), (256, 5)])) 3 = true ∧ (if modeBit (padTo (dlenOf wEntry460) (bytesWith 260 [(0, 9), (8, 4096), (16, 4), (18, 6), (19, 255), (24, 10), (28, 1), (32, 8), (40, 0x3F800000), (56, 6), (256, 5)])) 3 then liveCtx wState459 0 (ctxHandle (padTo (dlenOf wEntry460) (bytesWith 260 [(0, 9), (8, 4096), (16, 4), (18, 6), (19, 255), (24, 10), (28, 1), (32, 8), (40, 0x3F800000), (56, 6), (256, 5)]))) else none) = some ({ ctx0 with layout := 1 } : Context) ∧ (({ ctx0 with layout := 1 } : Context).layout ≠ wProgram462.clayout ∨ ({ ctx0 with layout := 1 } : Context).wset ≠ wPartition461.wset.plain.getD 0)) ∧ Fetches wEntry460 qpC wState459 ∧ Clean wEntry460 true [] := ⟨by decide +kernel, fetches_of (by decide +kernel), clean_of (by decide +kernel)⟩

/-- Hypotheses of Obligations.RequestCommands. -/
theorem test_witness_RequestCommands_6 : (0 = partNo wEntry460 ∧ 0 < 16 ∧ getPart wState463 0 = some wPartition464 ∧ isBound wState463 wEntry460 = true ∧ wPartition464.state = .serving ∧ wEntry460.data = some (bytesWith 260 [(0, 9), (8, 4096), (16, 4), (18, 6), (19, 255), (24, 10), (28, 1), (32, 8), (40, 0x3F800000), (56, 6), (256, 5)]) ∧ wPartition464.prog = some wProgram465 ∧ 256 ≤ dlenOf wEntry460 ∧ dlenOf wEntry460 = 256 + 4 * promptLen (padTo (dlenOf wEntry460) (bytesWith 260 [(0, 9), (8, 4096), (16, 4), (18, 6), (19, 255), (24, 10), (28, 1), (32, 8), (40, 0x3F800000), (56, 6), (256, 5)])) ∧ blockFault wProgram465 (padTo (dlenOf wEntry460) (bytesWith 260 [(0, 9), (8, 4096), (16, 4), (18, 6), (19, 255), (24, 10), (28, 1), (32, 8), (40, 0x3F800000), (56, 6), (256, 5)])) (resumedPositions (if modeBit (padTo (dlenOf wEntry460) (bytesWith 260 [(0, 9), (8, 4096), (16, 4), (18, 6), (19, 255), (24, 10), (28, 1), (32, 8), (40, 0x3F800000), (56, 6), (256, 5)])) 3 then liveCtx wState463 0 (ctxHandle (padTo (dlenOf wEntry460) (bytesWith 260 [(0, 9), (8, 4096), (16, 4), (18, 6), (19, 255), (24, 10), (28, 1), (32, 8), (40, 0x3F800000), (56, 6), (256, 5)]))) else none)) = none ∧ ((∀ r, r ∈ wPartition464.reqs → r.tag.toNat ≠ fieldAt (padTo (dlenOf wEntry460) (bytesWith 260 [(0, 9), (8, 4096), (16, 4), (18, 6), (19, 255), (24, 10), (28, 1), (32, 8), (40, 0x3F800000), (56, 6), (256, 5)])) 0 8 ∧ r.rn ≠ fieldAt (padTo (dlenOf wEntry460) (bytesWith 260 [(0, 9), (8, 4096), (16, 4), (18, 6), (19, 255), (24, 10), (28, 1), (32, 8), (40, 0x3F800000), (56, 6), (256, 5)])) 16 2)) ∧ bindAdapter wPartition464 (padTo (dlenOf wEntry460) (bytesWith 260 [(0, 9), (8, 4096), (16, 4), (18, 6), (19, 255), (24, 10), (28, 1), (32, 8), (40, 0x3F800000), (56, 6), (256, 5)])) (if modeBit (padTo (dlenOf wEntry460) (bytesWith 260 [(0, 9), (8, 4096), (16, 4), (18, 6), (19, 255), (24, 10), (28, 1), (32, 8), (40, 0x3F800000), (56, 6), (256, 5)])) 3 then liveCtx wState463 0 (ctxHandle (padTo (dlenOf wEntry460) (bytesWith 260 [(0, 9), (8, 4096), (16, 4), (18, 6), (19, 255), (24, 10), (28, 1), (32, 8), (40, 0x3F800000), (56, 6), (256, 5)]))) else none) = .inl 0 ∧ ((modeBit (padTo (dlenOf wEntry460) (bytesWith 260 [(0, 9), (8, 4096), (16, 4), (18, 6), (19, 255), (24, 10), (28, 1), (32, 8), (40, 0x3F800000), (56, 6), (256, 5)])) 3 = true → (if modeBit (padTo (dlenOf wEntry460) (bytesWith 260 [(0, 9), (8, 4096), (16, 4), (18, 6), (19, 255), (24, 10), (28, 1), (32, 8), (40, 0x3F800000), (56, 6), (256, 5)])) 3 then liveCtx wState463 0 (ctxHandle (padTo (dlenOf wEntry460) (bytesWith 260 [(0, 9), (8, 4096), (16, 4), (18, 6), (19, 255), (24, 10), (28, 1), (32, 8), (40, 0x3F800000), (56, 6), (256, 5)]))) else none).map (fun x => (x.layout, x.wset)) = some (wProgram465.clayout, wPartition464.wset.plain.getD 0))) ∧ wPartition464.reqs.length < 1024 ∧ reqsInFlight wState463 < 4096) ∧ Fetches wEntry460 qpC wState463 ∧ Clean wEntry460 true [] := ⟨by decide +kernel, fetches_of (by decide +kernel), clean_of (by decide +kernel)⟩

/-- Hypotheses of Obligations.RequestCommands. -/
theorem test_witness_RequestCommands_7 : (0 = partNo wEntry467 ∧ 0 < 16 ∧ getPart wState466 0 = some wPartition468 ∧ isBound wState466 wEntry467 = true ∧ wPartition468.state = .serving ∧ wEntry467.data = some (bytesWith 260 [(0, 9), (8, 4096), (16, 4), (18, 6), (19, 255), (24, 10), (28, 1), (40, 0x3F800000), (256, 5)]) ∧ wPartition468.prog = some wProgram469 ∧ 256 ≤ dlenOf wEntry467 ∧ dlenOf wEntry467 = 256 + 4 * promptLen (padTo (dlenOf wEntry467) (bytesWith 260 [(0, 9), (8, 4096), (16, 4), (18, 6), (19, 255), (24, 10), (28, 1), (40, 0x3F800000), (256, 5)])) ∧ blockFault wProgram469 (padTo (dlenOf wEntry467) (bytesWith 260 [(0, 9), (8, 4096), (16, 4), (18, 6), (19, 255), (24, 10), (28, 1), (40, 0x3F800000), (256, 5)])) (resumedPositions (if modeBit (padTo (dlenOf wEntry467) (bytesWith 260 [(0, 9), (8, 4096), (16, 4), (18, 6), (19, 255), (24, 10), (28, 1), (40, 0x3F800000), (256, 5)])) 3 then liveCtx wState466 0 (ctxHandle (padTo (dlenOf wEntry467) (bytesWith 260 [(0, 9), (8, 4096), (16, 4), (18, 6), (19, 255), (24, 10), (28, 1), (40, 0x3F800000), (256, 5)]))) else none)) = none ∧ ((∀ r, r ∈ wPartition468.reqs → r.tag.toNat ≠ fieldAt (padTo (dlenOf wEntry467) (bytesWith 260 [(0, 9), (8, 4096), (16, 4), (18, 6), (19, 255), (24, 10), (28, 1), (40, 0x3F800000), (256, 5)])) 0 8 ∧ r.rn ≠ fieldAt (padTo (dlenOf wEntry467) (bytesWith 260 [(0, 9), (8, 4096), (16, 4), (18, 6), (19, 255), (24, 10), (28, 1), (40, 0x3F800000), (256, 5)])) 16 2)) ∧ bindAdapter wPartition468 (padTo (dlenOf wEntry467) (bytesWith 260 [(0, 9), (8, 4096), (16, 4), (18, 6), (19, 255), (24, 10), (28, 1), (40, 0x3F800000), (256, 5)])) (if modeBit (padTo (dlenOf wEntry467) (bytesWith 260 [(0, 9), (8, 4096), (16, 4), (18, 6), (19, 255), (24, 10), (28, 1), (40, 0x3F800000), (256, 5)])) 3 then liveCtx wState466 0 (ctxHandle (padTo (dlenOf wEntry467) (bytesWith 260 [(0, 9), (8, 4096), (16, 4), (18, 6), (19, 255), (24, 10), (28, 1), (40, 0x3F800000), (256, 5)]))) else none) = .inl 0 ∧ modeBit (padTo (dlenOf wEntry467) (bytesWith 260 [(0, 9), (8, 4096), (16, 4), (18, 6), (19, 255), (24, 10), (28, 1), (40, 0x3F800000), (256, 5)])) 3 = false ∧ (1024 ≤ wPartition468.reqs.length ∨ 4096 ≤ reqsInFlight wState466)) ∧ Fetches wEntry467 qpC wState466 ∧ Clean wEntry467 true [] := ⟨by decide +kernel, fetches_of (by decide +kernel), clean_of (by decide +kernel)⟩

/-- Hypotheses of the clauses of Obligations.RequestCommands. -/
theorem test_witness_RequestCommands_8 :
    ((0 = partNo wEntry470 ∧ 0 < 16 ∧ getPart wState451 0 = some wPartition453 ∧ isBound wState451 wEntry470 = true ∧ dlenOf wEntry470 = 0 ∧ (wPartition453.state = .serving ∨ wPartition453.state = .draining ∨ wPartition453.state = .faulted) ∧ findReq wPartition453 (BitVec.ofNat 64 (pf wEntry470 24 8)) = some wRequest471) ∧ Fetches wEntry470 qpC wState451 ∧ Clean wEntry470 true [(24, 8)])
    ∧ ((0 = partNo wEntry472 ∧ 0 < 16 ∧ getPart wState451 0 = some wPartition453 ∧ isBound wState451 wEntry472 = true ∧ dlenOf wEntry472 = 0 ∧ (wPartition453.state = .serving ∨ wPartition453.state = .draining ∨ wPartition453.state = .faulted) ∧ findReq wPartition453 (BitVec.ofNat 64 (pf wEntry472 24 8)) = none) ∧ Fetches wEntry472 qpC wState451 ∧ Clean wEntry472 true [(24, 8)])
    ∧ ((0 = partNo wEntry474 ∧ 0 < 16 ∧ getPart wState473 0 = some wPartition475 ∧ isBound wState473 wEntry474 = true ∧ dlenOf wEntry474 = 0 ∧ (wPartition475.state = .serving ∨ wPartition475.state = .draining) ∧ 1 ≤ pf wEntry474 32 4 ∧ pf wEntry474 32 4 ≤ 86400 ∧ (wPartition475.cistern = false ∨ cisternOn wState473 = false)) ∧ Fetches wEntry474 qpC wState473 ∧ Clean wEntry474 true [(24, 12)]) :=
  ⟨⟨by decide +kernel, fetches_of (by decide +kernel), clean_of (by decide +kernel)⟩,
    ⟨by decide +kernel, fetches_of (by decide +kernel), clean_of (by decide +kernel)⟩,
    ⟨by decide +kernel, fetches_of (by decide +kernel), clean_of (by decide +kernel)⟩⟩

/-- Hypotheses of the clauses of Obligations.RequestCommands. -/
theorem test_witness_RequestCommands_9 :
    ((0 = partNo wEntry474 ∧ 0 < 16 ∧ getPart wState451 0 = some wPartition453 ∧ isBound wState451 wEntry474 = true ∧ dlenOf wEntry474 = 0 ∧ (wPartition453.state = .serving ∨ wPartition453.state = .draining) ∧ 1 ≤ pf wEntry474 32 4 ∧ pf wEntry474 32 4 ≤ 86400 ∧ wPartition453.cistern = true ∧ cisternOn wState451 = true ∧ findReq wPartition453 (BitVec.ofNat 64 (pf wEntry474 24 8)) = some wRequest476 ∧ wRequest476.state ≠ .ending) ∧ Fetches wEntry474 qpC wState451 ∧ Clean wEntry474 true [(24, 12)])
    ∧ ((0 = partNo wEntry477 ∧ 0 < 16 ∧ getPart wState451 0 = some wPartition453 ∧ isBound wState451 wEntry477 = true ∧ dlenOf wEntry477 = 0 ∧ (wPartition453.state = .serving ∨ wPartition453.state = .draining) ∧ 1 ≤ pf wEntry477 32 4 ∧ pf wEntry477 32 4 ≤ 86400 ∧ wPartition453.cistern = true ∧ cisternOn wState451 = true ∧ findReq wPartition453 (BitVec.ofNat 64 (pf wEntry477 24 8)) = none) ∧ Fetches wEntry477 qpC wState451 ∧ Clean wEntry477 true [(24, 12)])
    ∧ ((0 = partNo wEntry479 ∧ 0 < 16 ∧ getPart wState478 0 = some wPartition480 ∧ isBound wState478 wEntry479 = true ∧ (wPartition480.state = .loaded ∨ wPartition480.state = .serving ∨ wPartition480.state = .draining) ∧ dlenOf wEntry479 = 0 ∧ (pf wEntry479 20 4) ≠ 0 ∧ (adapterSlot wPartition480 (fun a => a.id == (pf wEntry479 20 4) && a.current)).isSome = true) ∧ Fetches wEntry479 qpC wState478 ∧ Clean wEntry479 true [(20, 4)]) :=
  ⟨⟨by decide +kernel, fetches_of (by decide +kernel), clean_of (by decide +kernel)⟩,
    ⟨by decide +kernel, fetches_of (by decide +kernel), clean_of (by decide +kernel)⟩,
    ⟨by decide +kernel, fetches_of (by decide +kernel), clean_of (by decide +kernel)⟩⟩

/-- Hypotheses of the clauses of Obligations.RequestCommands. -/
theorem test_witness_RequestCommands_10 :
    ((0 = partNo wEntry481 ∧ 0 < 16 ∧ getPart wState451 0 = some wPartition453 ∧ isBound wState451 wEntry481 = true ∧ (wPartition453.state = .loaded ∨ wPartition453.state = .serving ∨ wPartition453.state = .draining) ∧ dlenOf wEntry481 = 0 ∧ (pf wEntry481 20 4) ≠ 0 ∧ (adapterSlot wPartition453 (fun a => a.id == (pf wEntry481 20 4) && a.current)).isSome = false) ∧ Fetches wEntry481 qpC wState451 ∧ Clean wEntry481 true [(20, 4)])
    ∧ ((0 = partNo wEntry479 ∧ 0 < 16 ∧ getPart wState478 0 = some wPartition480 ∧ isBound wState478 wEntry479 = true ∧ (wPartition480.state = .loaded ∨ wPartition480.state = .serving ∨ wPartition480.state = .draining) ∧ dlenOf wEntry479 = 0 ∧ (pf wEntry479 20 4) ≠ 0 ∧ wPartition480.adapters = [(3, some (⟨9, 1, true, 0, 0⟩ : Adapter))] ∧ (⟨9, 1, true, 0, 0⟩ : Adapter).id = (pf wEntry479 20 4) ∧ (⟨9, 1, true, 0, 0⟩ : Adapter).current = true) ∧ Fetches wEntry479 qpC wState478 ∧ Clean wEntry479 true [(20, 4)])
    ∧ ((0 = partNo wEntry483 ∧ 0 < 16 ∧ getPart wState482 0 = some wPartition484 ∧ isBound wState482 wEntry483 = true ∧ wPartition484.state ≠ .empty ∧ wState482.sec.restarting = false ∧ wState482.sec.error = false ∧ pf wEntry483 20 1 ≤ 1 ∧ liveCtx wState482 0 (BitVec.ofNat 64 (pf wEntry483 24 8)) = some wContext485 ∧ wPartition484.wset.key = some (5 : BitVec 256) ∧ wPartition484.wset.exports < 2 ^ 32) ∧ Fetches wEntry483 qpC wState482 ∧ Clean wEntry483 true [(20, 1), (24, 8)] ∧ contextBytes wState482 wContext485 = none) :=
  ⟨⟨by decide +kernel, fetches_of (by decide +kernel), clean_of (by decide +kernel)⟩,
    ⟨by decide +kernel, fetches_of (by decide +kernel), clean_of (by decide +kernel)⟩,
    ⟨by decide +kernel, fetches_of (by decide +kernel), clean_of (by decide +kernel), rfl⟩⟩

/-- Hypotheses of the clauses of Obligations.RequestCommands. -/
theorem test_witness_RequestCommands_11 :
    ((0 = partNo wEntry483 ∧ 0 < 16 ∧ getPart wState486 0 = some wPartition487 ∧ isBound wState486 wEntry483 = true ∧ wPartition487.state ≠ .empty ∧ wState486.sec.restarting = false ∧ wState486.sec.error = false ∧ pf wEntry483 20 1 ≤ 1 ∧ liveCtx wState486 0 (BitVec.ofNat 64 (pf wEntry483 24 8)) = some ctx0 ∧ wPartition487.wset.key = some (5 : BitVec 256) ∧ wPartition487.wset.exports < 2 ^ 32) ∧ Fetches wEntry483 qpC wState486 ∧ Clean wEntry483 true [(20, 1), (24, 8)] ∧ contextBytes wState486 ctx0 = some ((contextBytes ((let s := cmdP { part0 with wset := { key := some 5, plain := some 0 } }; { s with contexts := [ctx0] })) ctx0).getD []))
    ∧ ((0 = partNo wEntry489 ∧ 0 < 16 ∧ getPart wState488 0 = some wPartition490 ∧ isBound wState488 wEntry489 = true ∧ wPartition490.state ≠ .empty ∧ wState488.sec.restarting = false ∧ wState488.sec.error = false ∧ 144 ≤ dlenOf wEntry489 ∧ 1 ≤ pf wEntry489 32 4 ∧ pf wEntry489 32 4 ≤ 86400 ∧ wEntry489.data = some (bytesWith 16 [(0, 0x43575653), (4, 1)]) ∧ fieldAt (padTo (dlenOf wEntry489) (bytesWith 16 [(0, 0x43575653), (4, 1)])) 0 4 = 0x43575653 ∧ fieldAt (padTo (dlenOf wEntry489) (bytesWith 16 [(0, 0x43575653), (4, 1)])) 4 2 = 1 ∧ fieldAt (padTo (dlenOf wEntry489) (bytesWith 16 [(0, 0x43575653), (4, 1)])) 6 2 = 0 ∧ fieldAt (padTo (dlenOf wEntry489) (bytesWith 16 [(0, 0x43575653), (4, 1)])) 104 8 + 144 = dlenOf wEntry489 ∧ fieldAt (padTo (dlenOf wEntry489) (bytesWith 16 [(0, 0x43575653), (4, 1)])) 124 4 = 0) ∧ Fetches wEntry489 qpC wState488 ∧ Clean wEntry489 true [(32, 4)]) :=
  ⟨⟨by decide +kernel, fetches_of (by decide +kernel), clean_of (by decide +kernel), rfl⟩,
    ⟨by decide +kernel, fetches_of (by decide +kernel), clean_of (by decide +kernel)⟩⟩

/-- Hypotheses of the clauses of Obligations.RequestCommands. -/
theorem test_witness_RequestCommands_12 :
    ((0 = partNo wEntry491 ∧ 0 < 16 ∧ getPart wState463 0 = some wPartition464 ∧ isBound wState463 wEntry491 = true ∧ wPartition464.state ≠ .empty ∧ dlenOf wEntry491 = 0 ∧ liveCtx wState463 0 (BitVec.ofNat 64 (pf wEntry491 24 8)) = some wContext492 ∧ findCtx wState463 wContext492.handle = some wContext492) ∧ Fetches wEntry491 qpC wState463 ∧ Clean wEntry491 true [(24, 8)])
    ∧ ((0 = partNo wEntry491 ∧ 0 < 16 ∧ getPart wState451 0 = some wPartition453 ∧ isBound wState451 wEntry491 = true ∧ wPartition453.state ≠ .empty ∧ dlenOf wEntry491 = 0 ∧ liveCtx wState451 0 (BitVec.ofNat 64 (pf wEntry491 24 8)) = none) ∧ Fetches wEntry491 qpC wState451 ∧ Clean wEntry491 true [(24, 8)])
    ∧ ((0 = partNo wEntry493 ∧ 0 < 16 ∧ getPart wState463 0 = some wPartition464 ∧ isBound wState463 wEntry493 = true ∧ wPartition464.state ≠ .empty ∧ dlenOf wEntry493 = 0 ∧ 1 ≤ pf wEntry493 32 4 ∧ pf wEntry493 32 4 ≤ 86400 ∧ liveCtx wState463 0 (BitVec.ofNat 64 (pf wEntry493 24 8)) = some wContext494) ∧ Fetches wEntry493 qpC wState463 ∧ Clean wEntry493 true [(24, 12)])
    ∧ ((0 = partNo wEntry493 ∧ 0 < 16 ∧ getPart wState451 0 = some wPartition453 ∧ isBound wState451 wEntry493 = true ∧ wPartition453.state ≠ .empty ∧ dlenOf wEntry493 = 0 ∧ 1 ≤ pf wEntry493 32 4 ∧ pf wEntry493 32 4 ≤ 86400 ∧ liveCtx wState451 0 (BitVec.ofNat 64 (pf wEntry493 24 8)) = none) ∧ Fetches wEntry493 qpC wState451 ∧ Clean wEntry493 true [(24, 12)]) :=
  ⟨⟨by decide +kernel, fetches_of (by decide +kernel), clean_of (by decide +kernel)⟩,
    ⟨by decide +kernel, fetches_of (by decide +kernel), clean_of (by decide +kernel)⟩,
    ⟨by decide +kernel, fetches_of (by decide +kernel), clean_of (by decide +kernel)⟩,
    ⟨by decide +kernel, fetches_of (by decide +kernel), clean_of (by decide +kernel)⟩⟩

/-- Hypotheses of the clauses of Obligations.WeightCommands. -/
theorem test_witness_WeightCommands_0 :
    ((0 = partNo wEntry495 ∧ 0 < 16 ∧ (isPf wEntry495 = true ∨ isBound wState496 wEntry495 = true) ∧ getPart wState496 0 = some wPartition497 ∧ idleState wPartition497.state = true ∧ wState496.sec.restarting = false ∧ wPartition497.wset.load = none ∧ dlenOf wEntry495 = 1056 ∧ 6535 ≤ pf wEntry495 32 4 ∧ wEntry495.data = some wo ∧ (wState496.sec.error = true ∨ wState496.sec.retired = true)) ∧ Fetches wEntry495 qpC wState496 ∧ Clean wEntry495 true [(24, 12)] ∧ lowest (headerFaults wPartition497 1 (padTo 1056 wo) 32 ++ [(124, fieldAt ((padTo 1056 wo).drop 32) 92 4 != 0), (128, fieldAt ((padTo 1056 wo).drop 32) 96 4 != 0)]) = none)
    ∧ ((0 = partNo wEntry495 ∧ 0 < 16 ∧ (isPf wEntry495 = true ∨ isBound wState383 wEntry495 = true) ∧ getPart wState383 0 = some wPartition498 ∧ idleState wPartition498.state = true ∧ wState383.sec.restarting = false ∧ wPartition498.wset.load = none ∧ dlenOf wEntry495 = 1056 ∧ 6535 ≤ pf wEntry495 32 4 ∧ wEntry495.data = some wo ∧ wState383.sec.error = false ∧ wState383.sec.retired = false) ∧ Fetches wEntry495 qpC wState383 ∧ Clean wEntry495 true [(24, 12)] ∧ lowest (headerFaults wPartition498 1 (padTo 1056 wo) 32 ++ [(124, fieldAt ((padTo 1056 wo).drop 32) 92 4 != 0), (128, fieldAt ((padTo 1056 wo).drop 32) 96 4 != 0)]) = none) :=
  ⟨⟨by decide +kernel, fetches_of (by decide +kernel), clean_of (by decide +kernel), hdr_ok _ (by decide +kernel) (by decide +kernel)⟩,
    ⟨by decide +kernel, fetches_of (by decide +kernel), clean_of (by decide +kernel), hdr_ok _ (by decide +kernel) (by decide +kernel)⟩⟩

/-- Hypotheses of the clauses of Obligations.WeightCommands. -/
theorem test_witness_WeightCommands_1 :
    ((0 = partNo wEntry371 ∧ 0 < 16 ∧ (isPf wEntry371 = true ∨ isBound wState383 wEntry371 = true) ∧ getPart wState383 0 = some wPartition498 ∧ idleState wPartition498.state = true ∧ wState383.sec.restarting = false ∧ wState383.sec.error = false ∧ wPartition498.wset.load = none ∧ dlenOf wEntry371 = 0) ∧ Fetches wEntry371 qpC wState383 ∧ Clean wEntry371 true [])
    ∧ ((0 = partNo wEntry499 ∧ 0 < 16 ∧ (isPf wEntry499 = true ∨ isBound wState500 wEntry499 = true) ∧ getPart wState500 0 = some wPartition501 ∧ idleState wPartition501.state = true ∧ wState500.sec.restarting = false ∧ wState500.sec.error = false ∧ wPartition501.wset.load = some wWeightLoad502 ∧ closing wState500 0 = false ∧ pf wEntry499 20 1 = 1 ∧ dlenOf wEntry499 = 1716 ∧ wEntry499.data = some [1] ∧ wWeightLoad502.hasKey = false ∧ fieldAt (padTo 1716 [1]) 97 3 = 0) ∧ Fetches wEntry499 qpC wState500 ∧ Clean wEntry499 true [(20, 1)]) :=
  ⟨⟨by decide +kernel, fetches_of (by decide +kernel), clean_of (by decide +kernel)⟩,
    ⟨by decide +kernel, fetches_of (by decide +kernel), clean_of (by decide +kernel)⟩⟩

/-- Hypotheses of Obligations.WeightCommands. -/
theorem test_witness_WeightCommands_2 : (0 = partNo wEntry503 ∧ 0 < 16 ∧ (isPf wEntry503 = true ∨ isBound wState504 wEntry503 = true) ∧ getPart wState504 0 = some wPartition505 ∧ idleState wPartition505.state = true ∧ wState504.sec.restarting = false ∧ wState504.sec.error = false ∧ wPartition505.wset.load = some wWeightLoad506 ∧ closing wState504 0 = false ∧ pf wEntry503 20 1 = 2 ∧ wPartition505.wset.key = some (5 : BitVec 256) ∧ dlenOf wEntry503 = fieldAt (descrOf wEntry503) 12 4 + 16 ∧ lowest (descrFaults (fetched wEntry503 qpC wState504) wPartition505 wWeightLoad506.chunks (descrOf wEntry503) 24) = none ∧ wEntry503.data = some [] ∧ slotLantern wState504 (fieldAtIx wPartition505 (fieldAt (descrOf wEntry503) 4 1)) (fieldAt (descrOf wEntry503) 5 1) = some 0 ∧ wWeightLoad506.applied.any (fun x => x.1 == (fieldAt (descrOf wEntry503) 0 4)) = true) ∧ Fetches wEntry503 qpC wState504 ∧ Clean wEntry503 true [(20, 1), (24, 32)] := ⟨by decide +kernel, fetches_of (by decide +kernel), clean_of (by decide +kernel)⟩

/-- Hypotheses of Obligations.WeightCommands. -/
theorem test_witness_WeightCommands_3 : (0 = partNo wEntry503 ∧ 0 < 16 ∧ (isPf wEntry503 = true ∨ isBound wState507 wEntry503 = true) ∧ getPart wState507 0 = some wPartition508 ∧ idleState wPartition508.state = true ∧ wState507.sec.restarting = false ∧ wState507.sec.error = false ∧ wPartition508.wset.load = some wWeightLoad509 ∧ closing wState507 0 = false ∧ pf wEntry503 20 1 = 2 ∧ wPartition508.wset.key = some (5 : BitVec 256) ∧ dlenOf wEntry503 = fieldAt (descrOf wEntry503) 12 4 + 16 ∧ lowest (descrFaults (fetched wEntry503 qpC wState507) wPartition508 wWeightLoad509.chunks (descrOf wEntry503) 24) = none ∧ wEntry503.data = some [] ∧ slotLantern wState507 (fieldAtIx wPartition508 (fieldAt (descrOf wEntry503) 4 1)) (fieldAt (descrOf wEntry503) 5 1) = some 0 ∧ wWeightLoad509.applied.any (fun x => x.1 == (fieldAt (descrOf wEntry503) 0 4)) = false ∧ wState507.jobs = [] ∧ fieldAt (descrOf wEntry503) 6 1 ≠ 1) ∧ Fetches wEntry503 qpC wState507 ∧ Clean wEntry503 true [(20, 1), (24, 32)] := ⟨by decide +kernel, fetches_of (by decide +kernel), clean_of (by decide +kernel)⟩

/-- Hypotheses of the clauses of Obligations.WeightCommands. -/
theorem test_witness_WeightCommands_4 :
    ((0 = partNo wEntry510 ∧ 0 < 16 ∧ (isPf wEntry510 = true ∨ isBound wState507 wEntry510 = true) ∧ getPart wState507 0 = some wPartition508 ∧ idleState wPartition508.state = true ∧ wState507.sec.restarting = false ∧ wState507.sec.error = false ∧ wPartition508.wset.load = some wWeightLoad509 ∧ closing wState507 0 = false ∧ pf wEntry510 20 1 = 2 ∧ wPartition508.wset.key = some (5 : BitVec 256) ∧ dlenOf wEntry510 = fieldAt (descrOf wEntry510) 12 4 + 16 ∧ lowest (descrFaults (fetched wEntry510 qpC wState507) wPartition508 wWeightLoad509.chunks (descrOf wEntry510) 24) = none ∧ wEntry510.data = some [] ∧ slotLantern wState507 (fieldAtIx wPartition508 (fieldAt (descrOf wEntry510) 4 1)) (fieldAt (descrOf wEntry510) 5 1) = some 0 ∧ wWeightLoad509.applied.any (fun x => x.1 == (fieldAt (descrOf wEntry510) 0 4)) = false ∧ wState507.jobs = [] ∧ fieldAt (descrOf wEntry510) 6 1 = 1 ∧ physOf (getL wState507 0) (fieldAt (descrOf wEntry510) 7 1) = some 0) ∧ Fetches wEntry510 qpC wState507 ∧ Clean wEntry510 true [(20, 1), (24, 32)])
    ∧ ((0 = partNo wEntry371 ∧ 0 < 16 ∧ (isPf wEntry371 = true ∨ isBound wState500 wEntry371 = true) ∧ getPart wState500 0 = some wPartition501 ∧ dlenOf wEntry371 = 0 ∧ idleState wPartition501.state = true ∧ wPartition501.wset.load.isSome = true ∧ closing wState500 0 = false) ∧ Fetches wEntry371 qpC wState500 ∧ Clean wEntry371 true []) :=
  ⟨⟨by decide +kernel, fetches_of (by decide +kernel), clean_of (by decide +kernel)⟩,
    ⟨by decide +kernel, fetches_of (by decide +kernel), clean_of (by decide +kernel)⟩⟩

/-- Hypotheses of Obligations.WeightCommands. -/
theorem test_witness_WeightCommands_5 : (0 = partNo wEntry511 ∧ 0 < 16 ∧ (isPf wEntry511 = true ∨ isBound wState383 wEntry511 = true) ∧ getPart wState383 0 = some wPartition498 ∧ (wPartition498.state = .loaded ∨ wPartition498.state = .serving) ∧ wState383.sec.restarting = false ∧ wState383.sec.error = false ∧ 1024 ≤ dlenOf wEntry511 ∧ (pf wEntry511 20 4) ≠ 0 ∧ wEntry511.data = some (bytesWith 64 [(0, 0x50575653), (12, 1)]) ∧ wPartition498.adapters = [] ∧ (packageChunks (padTo (dlenOf wEntry511) (bytesWith 64 [(0, 0x50575653), (12, 1)])) (min (fieldAt (padTo (dlenOf wEntry511) (bytesWith 64 [(0, 0x50575653), (12, 1)])) 12 4) (padTo (dlenOf wEntry511) (bytesWith 64 [(0, 0x50575653), (12, 1)])).length) 1024).length = fieldAt (padTo (dlenOf wEntry511) (bytesWith 64 [(0, 0x50575653), (12, 1)])) 12 4 ∧ 1024 + ((packageChunks (padTo (dlenOf wEntry511) (bytesWith 64 [(0, 0x50575653), (12, 1)])) (min (fieldAt (padTo (dlenOf wEntry511) (bytesWith 64 [(0, 0x50575653), (12, 1)])) 12 4) (padTo (dlenOf wEntry511) (bytesWith 64 [(0, 0x50575653), (12, 1)])).length) 1024).map (fun c => 32 + c.2.2.length)).sum = dlenOf wEntry511 ∧ ((∀ c, c ∈ (packageChunks (padTo (dlenOf wEntry511) (bytesWith 64 [(0, 0x50575653), (12, 1)])) (min (fieldAt (padTo (dlenOf wEntry511) (bytesWith 64 [(0, 0x50575653), (12, 1)])) 12 4) (padTo (dlenOf wEntry511) (bytesWith 64 [(0, 0x50575653), (12, 1)])).length) 1024) → c.2.2.length = fieldAt c.2.1 12 4 + 16))) ∧ Fetches wEntry511 qpC wState383 ∧ Clean wEntry511 true [(20, 8)] := ⟨by decide +kernel, fetches_of (by decide +kernel), clean_of (by decide +kernel)⟩

/-- Hypotheses of the clauses of Obligations.WeightCommands. -/
theorem test_witness_WeightCommands_6 :
    ((255 = partNo wEntry394 ∧ isPf wEntry394 = true ∧ ((∀ x, x ∈ allParts wState429 → idleState x.2.state = true)) ∧ dlenOf wEntry394 = 0 ∧ pf wEntry394 20 1 = 0) ∧ Fetches wEntry394 qpC wState429 ∧ Clean wEntry394 false [] ∧ Clean wEntry394 false [(20, 1)])
    ∧ ((255 = partNo wEntry394 ∧ isPf wEntry394 = true ∧ ((0, part0) : Nat × Partition) ∈ allParts wState378 ∧ idleState ((0, part0) : Nat × Partition).2.state = false) ∧ Fetches wEntry394 qpC wState378 ∧ Clean wEntry394 false [])
    ∧ ((255 = partNo wEntry512 ∧ isPf wEntry512 = true ∧ dlenOf wEntry512 = 0 ∧ pf wEntry512 20 1 = (if false then 2 else 1)) ∧ Fetches wEntry512 qpC wState429 ∧ Clean wEntry512 false [(20, 1)])
    ∧ ((255 = partNo wEntry396 ∧ isPf wEntry396 = true ∧ dlenOf wEntry396 = 0 ∧ 3 ≤ pf wEntry396 20 1) ∧ Fetches wEntry396 qpC wState429 ∧ Clean wEntry396 false [(20, 1)]) :=
  ⟨⟨by decide +kernel, fetches_of (by decide +kernel), clean_of (by decide +kernel), clean_of (by decide +kernel)⟩,
    ⟨by decide +kernel, fetches_of (by decide +kernel), clean_of (by decide +kernel)⟩,
    ⟨by decide +kernel, fetches_of (by decide +kernel), clean_of (by decide +kernel)⟩,
    ⟨by decide +kernel, fetches_of (by decide +kernel), clean_of (by decide +kernel)⟩⟩

/-- Hypotheses of Obligations.WeightCommands. -/
theorem test_witness_WeightCommands_7 : (255 = partNo wEntry513 ∧ isPf wEntry513 = true ∧ wState429.sec.restarting = false ∧ wState429.sec.error = false ∧ dlenOf wEntry513 = 4851 ∧ wEntry513.data = some (bytesWith 16 [(0, 0x44575653), (4, 1), (7, 1)]) ∧ fieldAt (padTo 4851 (bytesWith 16 [(0, 0x44575653), (4, 1), (7, 1)])) 0 4 = 0x44575653 ∧ fieldAt (padTo 4851 (bytesWith 16 [(0, 0x44575653), (4, 1), (7, 1)])) 4 2 = 1 ∧ fieldAt (padTo 4851 (bytesWith 16 [(0, 0x44575653), (4, 1), (7, 1)])) 6 1 ≤ 3 ∧ fieldAt (padTo 4851 (bytesWith 16 [(0, 0x44575653), (4, 1), (7, 1)])) 7 1 = 1 ∧ fieldAt (padTo 4851 (bytesWith 16 [(0, 0x44575653), (4, 1), (7, 1)])) 11 1 = 0 ∧ ((∀ i, i < 68 → fieldAt (padTo 4851 (bytesWith 16 [(0, 0x44575653), (4, 1), (7, 1)])) (60 + i) 1 = 0)) ∧ ((∀ y, y ∈ allParts wState429 → y.2.wset.debugErase = false))) ∧ Fetches wEntry513 qpC wState429 ∧ Clean wEntry513 false [] := ⟨by decide +kernel, fetches_of (by decide +kernel), clean_of (by decide +kernel)⟩

/-- Hypotheses of the clauses of Obligations.Doorbells. -/
theorem test_witness_Doorbells_0 :
    ((wFn294.num ≤ 16 ∧ 1 < 64 ∧ wState297.boot.hold = true) ∧ (wFn294.num ≤ 16 ∧ 1 < 64 ∧ wState515.boot.hold = false ∧ getQp wState515 wFn294 1 = some qp0 ∧ qp0.deleting = false ∧ wBitVec32514.toNat % 4096 < qp0.sqSize ∧ (qp0.cqSize ≤ (wBitVec32514.toNat % 4096) ∨ cqUsed qp0 < ((wBitVec32514.toNat % 4096) + qp0.cqSize - qp0.cqHead) % qp0.cqSize)) ∧ (wFn294.num ≤ 16 ∧ 1 < 64 ∧ wState515.boot.hold = false ∧ getQp wState515 wFn294 1 = some qp0 ∧ (qp0.sqSize ≤ wBitVec32516.toNat % 4096 ∨ qp0.deleting = true)) ∧ (wFn294.num ≤ 16 ∧ 2 < 64 ∧ wState515.boot.hold = false ∧ getQp wState515 wFn294 2 = none))
    ∧ (wFn294.num ≤ 16 ∧ 1 < 64 ∧ wState517.boot.hold = false ∧ getQp wState517 wFn294 1 = some ({ qp0 with cqTail := 7 }) ∧ (wBitVec32514.toNat % 4096) < ({ qp0 with cqTail := 7 }).cqSize ∧ ((wBitVec32514.toNat % 4096) + ({ qp0 with cqTail := 7 }).cqSize - ({ qp0 with cqTail := 7 }).cqHead) % ({ qp0 with cqTail := 7 }).cqSize ≤ cqUsed ({ qp0 with cqTail := 7 }) ∧ ({ qp0 with cqTail := 7 }).held = [])
    ∧ (wFn294.num ≤ 16 ∧ 1 < 64 ∧ wState518.boot.hold = false ∧ 3 < 1024 ∧ partBound wState518 wFn294 = some 0 ∧ getPart wState518 0 = some wPartition519 ∧ wPartition519.reqs.find? (fun r_i => r_i.rn == 3) = some (({ req0 with written := 8 }) : Request) ∧ (wBitVec32514 - (({ req0 with written := 8 }) : Request).cons).toNat ≤ ((({ req0 with written := 8 }) : Request).written - (({ req0 with written := 8 }) : Request).cons).toNat) :=
  ⟨by decide +kernel,
    by decide +kernel,
    by decide +kernel⟩

/-- Hypotheses of the clauses of Obligations.Doorbells. -/
theorem test_witness_Doorbells_1 :
    ((wFn294.num ≤ 16 ∧ 1 < 64 ∧ wState518.boot.hold = false ∧ 3 < 1024 ∧ partBound wState518 wFn294 = some 0 ∧ getPart wState518 0 = some wPartition519 ∧ wPartition519.reqs.find? (fun r_i => r_i.rn == 3) = some (({ req0 with written := 8 }) : Request) ∧ ((({ req0 with written := 8 }) : Request).written - (({ req0 with written := 8 }) : Request).cons).toNat < (wBitVec32520 - (({ req0 with written := 8 }) : Request).cons).toNat) ∧ (wFn521.num ≤ 16 ∧ 1 < 64 ∧ wState515.boot.hold = false ∧ partBound wState515 wFn521 = none ∧ (getFn wState515 wFn521).ring = none))
    ∧ ((wFn294.num ≤ 16 ∧ 1 < 64 ∧ wState522.boot.hold = false ∧ (getFn wState522 wFn294).ring = some ({ ring0 with k := 8 }) ∧ (wBitVec32514 - ({ ring0 with k := 8 }).cons).toNat ≤ (({ ring0 with k := 8 }).k - ({ ring0 with k := 8 }).cons).toNat) ∧ (wFn294.num ≤ 16 ∧ 1 < 64 ∧ 1 = 1 ∧ (getFn wState523 wFn294).en = false ∧ ((getFn wState523 wFn294).q0Size.toNat % 4096) ≠ 0 ∧ ((getFn wState523 wFn294).q0Size.toNat / 65536 % 4096) ≠ 0 ∧ getQp wState523 wFn294 0 = none) ∧ (wFn294.num ≤ 16 ∧ 1 < 64 ∧ 1 = 1 ∧ (getFn wState524 wFn294).en = false ∧ (((getFn wState524 wFn294).q0Size.toNat % 4096) = 0 ∨ ((getFn wState524 wFn294).q0Size.toNat / 65536 % 4096) = 0 ∨ (getQp wState524 wFn294 0).isSome = true)))
    ∧ ((wFn294.num ≤ 16 ∧ 1 < 64 ∧ 1 = 1 ∧ (getFn wState515 wFn294).en = true) ∧ (wFn294.num ≤ 16 ∧ 1 < 64 ∧ 0 = 0 ∧ (getFn wState525 wFn294).en = true ∧ getQp wState525 wFn294 0 = some qp0 ∧ qp0.busy = 0 ∧ wState525.waiting = [] ∧ qp0.held = []) ∧ (wFn294.num ≤ 16 ∧ 1 < 64 ∧ 0 = 0 ∧ (getFn wState2 wFn294).en = false)) :=
  ⟨by decide +kernel,
    by decide +kernel,
    by decide +kernel⟩

/-- Hypotheses of the clauses of Obligations.RegisterWrites. -/
theorem test_witness_RegisterWrites_0 :
    ((wFn526.num ≤ 16 ∧ 0 < 16 ∧ getPart wState527 0 = some wPartition528 ∧ (wFn526.num = 0 ∨ partBound wState527 wFn526 = some 0) ∧ wFn526.num = 0 ∧ wBitVec32514 &&& ~~~7#32 = 0) ∧ (wFn294.num ≤ 16 ∧ 0 < 16 ∧ getPart wState23 0 = some wPartition529 ∧ (wFn294.num = 0 ∨ partBound wState23 wFn294 = some 0) ∧ wFn294.num ≠ 0 ∧ wBitVec32514 &&& ~~~7#32 = 0 ∧ (0 = 0 ∨ wFn294.num ≠ 0) ∧ wBitVec32514 &&& ~~~0x3FF#32 = 0 ∧ wBitVec32514 &&& ~~~0x800FF7FF#32 = 0 ∧ wPartition529.debug = false ∧ wBitVec32514 &&& ~~~0xFFFF#32 = 0))
    ∧ ((wFn294.num ≤ 16 ∧ 0 < 16 ∧ getPart wState23 0 = some wPartition529 ∧ (wFn294.num = 0 ∨ partBound wState23 wFn294 = some 0) ∧ 2 < 4 ∧ wBitVec32530 &&& ~~~0x87FFFFFF#32 = 0 ∧ (wBitVec32530.getLsbD 31 = false ∨ hsPortOk wState23 0 wPartition529 wBitVec32530 = true)) ∧ (wFn294.num ≤ 16 ∧ 0 < 16 ∧ getPart wState23 0 = some wPartition529 ∧ (wFn294.num = 0 ∨ partBound wState23 wFn294 = some 0) ∧ 2 < 4 ∧ wBitVec32531 &&& ~~~0x87FFFFFF#32 = 0 ∧ wBitVec32531.getLsbD 31 = true ∧ hsPortOk wState23 0 wPartition529 wBitVec32531 = false))
    ∧ (wFn294.num ≤ 16 ∧ 0 < 16 ∧ getPart wState23 0 = some wPartition529 ∧ (wFn294.num = 0 ∨ partBound wState23 wFn294 = some 0) ∧ wBitVec32532 &&& ~~~0x8FFFFFFF#32 = 0 ∧ (wBitVec32532.getLsbD 31 = false ∨ ((wBitVec32532.toNat % 2048) < 1600 ∧ inRect wPartition529 (fieldOf (wBitVec32532.toNat % 2048)) = true))) :=
  ⟨by decide +kernel,
    by decide +kernel,
    by decide +kernel⟩

/-- Hypotheses of the clauses of Obligations.RegisterWrites. -/
theorem test_witness_RegisterWrites_1 :
    ((wFn294.num ≤ 16 ∧ 0 < 16 ∧ getPart wState23 0 = some wPartition529 ∧ (wFn294.num = 0 ∨ partBound wState23 wFn294 = some 0) ∧ wBitVec32533 &&& ~~~0x8FFFFFFF#32 = 0 ∧ wBitVec32533.getLsbD 31 = true ∧ (1600 ≤ (wBitVec32533.toNat % 2048) ∨ inRect wPartition529 (fieldOf (wBitVec32533.toNat % 2048)) = false)) ∧ (wFn294.num ≤ 16 ∧ 0 < 16 ∧ getPart wState23 0 = some wPartition529 ∧ (wFn294.num = 0 ∨ partBound wState23 wFn294 = some 0) ∧ wBitVec32534 &&& ~~~0x80000003#32 = 0 ∧ wBitVec32534.getLsbD 31 = true ∧ wPartition529.zen.testBit (wBitVec32534.toNat % 4) = true ∧ ((∀ x, x ∈ (getZ wState23 (wBitVec32534.toNat % 4)).owner → x.2 = 0 + 1))))
    ∧ ((wFn294.num ≤ 16 ∧ 0 < 16 ∧ getPart wState23 0 = some wPartition529 ∧ (wFn294.num = 0 ∨ partBound wState23 wFn294 = some 0) ∧ wBitVec32535 &&& ~~~0x80000003#32 = 0 ∧ wBitVec32535.getLsbD 31 = true ∧ wPartition529.zen.testBit (wBitVec32535.toNat % 4) = false) ∧ (wFn294.num ≤ 16 ∧ 0 < 16 ∧ getPart wState536 0 = some wPartition537 ∧ (wFn294.num = 0 ∨ partBound wState536 wFn294 = some 0) ∧ wBitVec32534 &&& ~~~0x80000003#32 = 0 ∧ wBitVec32534.getLsbD 31 = true ∧ ((0, 2) : Nat × Nat) ∈ (getZ wState536 (wBitVec32534.toNat % 4)).owner ∧ ((0, 2) : Nat × Nat).2 ≠ 0 + 1))
    ∧ (wFn294.num ≤ 16 ∧ 0 < 16 ∧ getPart wState539 0 = some wPartition540 ∧ (wFn294.num = 0 ∨ partBound wState539 wFn294 = some 0) ∧ wPartition540.debug = true ∧ (wBitVec32538.toNat % 2048) < 1600 ∧ inRect wPartition540 (fieldOf (wBitVec32538.toNat % 2048)) = true ∧ wBitVec32538.toNat / 2048 % 4 = 0 ∧ (wBitVec32538.toNat / 8192) < 65536) :=
  ⟨by decide +kernel,
    by decide +kernel,
    by decide +kernel⟩

/-- Hypotheses of the clauses of Obligations.RegisterWrites. -/
theorem test_witness_RegisterWrites_2 :
    (wFn294.num ≤ 16 ∧ 0 < 16 ∧ getPart wState539 0 = some wPartition540 ∧ (wFn294.num = 0 ∨ partBound wState539 wFn294 = some 0) ∧ wPartition540.debug = true ∧ (wBitVec32541.toNat % 2048) < 1600 ∧ inRect wPartition540 (fieldOf (wBitVec32541.toNat % 2048)) = true ∧ wBitVec32541.toNat / 2048 % 4 = 1 ∧ (wBitVec32541.toNat / 8192) < 327680 ∧ wBitVec32541 &&& ~~~0xFFFF#32 = 0)
    ∧ ((wFn294.num ≤ 16 ∧ 0 < 16 ∧ getPart wState539 0 = some wPartition540 ∧ (wFn294.num = 0 ∨ partBound wState539 wFn294 = some 0) ∧ wPartition540.debug = true ∧ (wBitVec32542.toNat % 2048) < 1600 ∧ inRect wPartition540 (fieldOf (wBitVec32542.toNat % 2048)) = true ∧ wBitVec32542.toNat / 2048 % 4 = 2 ∧ (wBitVec32542.toNat / 8192) < 8192) ∧ (wFn294.num ≤ 16 ∧ 0 < 16 ∧ getPart wState23 0 = some wPartition529 ∧ (wFn294.num = 0 ∨ partBound wState23 wFn294 = some 0) ∧ readOnly 0x10 = true) ∧ (wFn294.num ≤ 16 ∧ 0 < 16 ∧ getPart wState23 0 = some wPartition529 ∧ (wFn294.num = 0 ∨ partBound wState23 wFn294 = some 0) ∧ (7 : BitVec 64).toNat < 8))
    ∧ ((wFn294.num ≤ 16 ∧ 0 < 16 ∧ getPart wState23 0 = some wPartition529 ∧ (wFn294.num = 0 ∨ partBound wState23 wFn294 = some 0) ∧ (4096 : BitVec 64).toNat % 4096 = 0) ∧ (wFn294.num ≤ 16 ∧ 0 < 16 ∧ getPart wState23 0 = some wPartition529 ∧ (wFn294.num = 0 ∨ partBound wState23 wFn294 = some 0) ∧ 0x50 % 4 = 0 ∧ 0x50 < 0x100000 ∧ readOnly 0x50 = false ∧ 0x50 ∉ [0x1C, 0x24, 0x28, 0x30, 0x34])) :=
  ⟨by decide +kernel,
    by decide +kernel,
    by decide +kernel⟩

end Sys2Proof.Tests
end

section
/-!
PROOFS. 14 R415: what HOST_LINK_RETURN leaves in the table of links. It writes the link twice, first without its hold, then as trained. Two writes
of one key come to one only while the first does not take the entry out, and a write that leaves a link as it is at reset does: in a table that
lists keys in order this shows nowhere, in one that lists a port twice it drops the second listing too.
-/

open Sys2Proof Sys2Proof.Machine

namespace Sys2Proof.HostPorts

/-- A link without the writes it holds. -/
def unheld (k : HostLink) : HostLink := { k with downAt := none, held := [] }

/-- A link up at generation g. -/
def trained (g : PcieGen) (k : HostLink) : HostLink := { k with up := true, failed := false, gen := some g }

/-! ## Two writes of one key -/

theorem tdel_of_tabove {α : Type} {b k : Nat} (hk : k ≤ b) : ∀ {m : SMap α}, tabove b m → tdel m k = m
  | [], _ => rfl
  | (j, v) :: r, ⟨hj, hr⟩ => by
    have hne : j ≠ k := by omega
    rw [tdel, if_neg hne, tdel_of_tabove (by omega) hr]

theorem tins_of_tabove {α : Type} {k : Nat} (w : α) : ∀ {m : SMap α}, tabove k m → tins m k w = (k, w) :: m
  | [], _ => rfl
  | (j, v) :: r, ⟨hj, _⟩ => by rw [tins, if_neg (by omega), if_pos hj]

theorem tins_tdel_of_tsorted {α : Type} (m : SMap α) (k : Nat) (w : α) (hm : tsorted m = true) : tins (tdel m k) k w = tins m k w := by
  induction m with
  | nil => rfl
  | cons e r ih =>
    obtain ⟨j, v⟩ := e
    have hr := (tsorted_cons j v r).1 hm
    rcases lt_trichotomy j k with hlt | rfl | hgt
    · simp [tdel, tins, hlt.ne, hlt.le.not_gt, ih (tsorted_of_tabove hr)]
    · rw [tdel, if_pos rfl, tdel_of_tabove le_rfl hr, tins_of_tabove w hr, tins, if_pos rfl]
    · rw [tdel, if_neg hgt.ne', tdel_of_tabove hgt.le hr]

/-- In a table whose keys rise the second of two writes of a key stands, whatever the first wrote. -/
theorem tset_tset_of_tsorted {α : Type} [DecidableEq α] (d : α) (m : SMap α) (k : Nat) (v : α) {w : α} (hw : w ≠ d) (hm : tsorted m = true) :
    tset d (tset d m k v) k w = tset d m k w := by
  by_cases hv : v = d
  · simp only [tset, hv, if_true, hw, if_false, tins_tdel_of_tsorted m k w hm]
  · exact tset_tset d m k w hv

/-! ## A link that returns -/

theorem trained_ne_reset (g : PcieGen) (k : HostLink) : trained g k ≠ {} := fun h => Bool.noConfusion (congrArg HostLink.up h)

theorem exec_hostLinkReturn_within {s : State} {p : HostPort} {u : Nat} (hu : (getLink s p).downAt = some u) (hw : nowNs s < u + 100000000) :
    exec (.hostLinkReturn p) s
      = .next (forEach (getLink s p).held (fun o s => sendHost s p o) (linkUp p (updLink s p unheld))) := by
  rw [exec_hostLinkReturn, execHostLinkReturn, guarded_true, hostReturn, hu]
  exact congrArg _ (if_neg (Nat.not_le.2 hw))

theorem links_linkUp_unheld (s : State) (p : HostPort) :
    (linkUp p (updLink s p unheld)).links
      = tset {} (tset {} s.links (portIx p) (unheld (getLink s p))) (portIx p) (trained (genOf (Config.linkGen s.draws)) (unheld (getLink s p))) := by
  show tset {} _ _ (trained _ (getLink (updLink s p unheld) p)) = _
  rw [getLink_updLink_same]
  rfl

theorem linkUp_unheld_of_tsorted (s : State) (p : HostPort) (hs : tsorted s.links = true) :
    linkUp p (updLink s p unheld)
      = updLink { s with draws := s.draws + 1 } p (fun k => trained (genOf (Config.linkGen s.draws)) (unheld k)) := by
  have hl := links_linkUp_unheld s p
  rw [tset_tset_of_tsorted _ _ _ _ (trained_ne_reset _ _) hs] at hl
  exact congrArg (fun ls => { s with draws := s.draws + 1, links := ls }) hl

/-- While the table lists its keys in order, the clause of O47 that fails below holds: the two writes come to its single one. -/
theorem exec_hostLinkReturn_of_tsorted {s : State} {p : HostPort} {u : Nat} (hs : tsorted s.links = true) (hu : (getLink s p).downAt = some u)
    (hw : nowNs s < u + 100000000) :
    exec (.hostLinkReturn p) s
      = .next (forEach (getLink s p).held (fun o s => sendHost s p o)
          (updLink { s with draws := s.draws + 1 } p (fun k => trained (genOf (Config.linkGen s.draws)) (unheld k)))) := by
  rw [exec_hostLinkReturn_within hu hw, linkUp_unheld_of_tsorted s p hs]

/-! ## The counterexample -/

/-- Port A's link is listed twice; the first listing, which reads find, is a link as at reset that went down at time 0. -/
def twiceListed : State := { State.reset with links := [(0, { downAt := some 0 }), (0, { released := true })] }

theorem twiceListed_unheld : unheld (getLink twiceListed .a) = {} := rfl

/-- The model takes both listings out and puts one back. -/
theorem linkUp_unheld_twiceListed :
    (linkUp .a (updLink twiceListed .a unheld)).links = [(0, trained (genOf (Config.linkGen twiceListed.draws)) {})] := by
  rw [links_linkUp_unheld, twiceListed_unheld]
  simp only [tset, trained_ne_reset, if_true, if_false]
  rfl

/-- One write replaces the first listing and leaves the second. -/
theorem updLink_twiceListed (g : PcieGen) (n : Nat) :
    (updLink { twiceListed with draws := n } .a (fun k => trained g (unheld k))).links = [(0, trained g {}), (0, { released := true })] := by
  show tset {} twiceListed.links 0 (trained g (unheld (getLink twiceListed .a))) = _
  rw [twiceListed_unheld, tset, if_neg (trained_ne_reset _ _)]
  rfl

/-- Refutes O47, by the clause of HOST_LINK_RETURN within 100 ms: in a table that lists port A's link twice, the model leaves one listing
where the clause's single write leaves two. -/
theorem not_hostPorts : ¬ Obligations.HostPorts := by
  unfold Obligations.HostPorts
  intro h
  obtain ⟨-, -, -, -, -, hreturn, -⟩ := h .a pfA twiceListed _ _ rfl rfl (by decide)
  have hstated := hreturn 0 rfl (by decide)
  rw [exec_hostLinkReturn_within rfl (by decide)] at hstated
  have hlinks := congrArg State.links (Host.Outcome.next.inj hstated)
  have hone_two := linkUp_unheld_twiceListed.symm.trans (hlinks.trans (updLink_twiceListed _ _))
  exact absurd (congrArg List.length hone_two) (by decide)

end Sys2Proof.HostPorts
end

section
/-!
PROOFS. 01 R15 to R25, 10 R326: where the model stops. Every command but a JTAG instruction and WAIT_END is a next state guarded by the units that it names.
WAIT_END is guarded by its lantern alone: an engine number of 8 or more, which Table 5-1 does not have, changes nothing and stops nothing.
-/

open Sys2Proof Sys2Proof.Machine

namespace Sys2Proof.Stops

/-- Where command c stops in state s, as O3 says it: at a unit that does not exist, and at an enabled JTAG debug instruction. -/
def StopsAsStated (c : Instr) (s : State) : Prop :=
  (exec c s = .fault .noSuchUnit ↔ c.wf = false)
    ∧ (∀ r, exec c s = .refused r ↔ r = .jtagDebugInstruction ∧ s.sec.jtag = true ∧ ∃ n, c = .jtagInstruction (.debug n))
    ∧ (c.wf = true → (∀ n, c ≠ .jtagInstruction (.debug n)) → ∃ t, exec c s = .next t)

theorem onlyStops_iff : Obligations.OnlyStops ↔ ∀ c s, StopsAsStated c s := Iff.rfl

/-! ## Guarded commands -/

theorem exec_guarded {c : Instr} (hj : ∀ op, c ≠ .jtagInstruction op) (hw : ∀ l eng, c ≠ .waitEnd l eng) (s : State) : ∃ t, exec c s = guarded c.wf t := by
  cases c with
  | jtagInstruction op => exact absurd rfl (hj op)
  | waitEnd l eng => exact absurd rfl (hw l eng)
  | _ => exact ⟨_, rfl⟩

/-- WAIT_END is guarded by the number of its lantern, whatever its engine. -/
theorem exec_waitEnd_guarded (l eng : Nat) (s : State) : ∃ t, exec (.waitEnd l eng) s = guarded (lanternOk l) t := ⟨_, rfl⟩

theorem stopsAsStated_of_guarded {c : Instr} {s t : State} (h : exec c s = guarded c.wf t) (hj : ∀ op, c ≠ .jtagInstruction op) : StopsAsStated c s := by
  unfold StopsAsStated
  rw [h]
  cases c.wf with
  | true => exact ⟨by simp, fun r => by simp [hj], fun _ _ => ⟨t, rfl⟩⟩
  | false => exact ⟨by simp, fun r => by simp [hj], fun hf => absurd hf (by decide)⟩

/-! ## JTAG instructions (10 R326, R327) -/

theorem stopsAsStated_jtag (op : JtagOp) (s : State) : StopsAsStated (.jtagInstruction op) s := by
  have hwf : Instr.wf (.jtagInstruction op) = true := rfl
  unfold StopsAsStated
  rw [hwf, exec_jtagInstruction]
  cases op with
  | idcode => simp [execJtagInstruction, jtagNow]
  | bypass => simp [execJtagInstruction, jtagNow]
  | debug n => cases hj : s.sec.jtag <;> simp [execJtagInstruction, jtagNow, hj, eq_comm]

/-- What O3 says holds of every command but a WAIT_END of an engine that does not exist. -/
theorem stopsAsStated {c : Instr} (hc : ∀ l eng, c = .waitEnd l eng → eng < 8) (s : State) : StopsAsStated c s := by
  by_cases hj : ∃ op, c = .jtagInstruction op
  · obtain ⟨op, rfl⟩ := hj
    exact stopsAsStated_jtag op s
  · have hj' : ∀ op, c ≠ .jtagInstruction op := fun op h => hj ⟨op, h⟩
    by_cases hw : ∃ l eng, c = .waitEnd l eng
    · obtain ⟨l, eng, rfl⟩ := hw
      obtain ⟨t, ht⟩ := exec_waitEnd_guarded l eng s
      have hwf : Instr.wf (.waitEnd l eng) = lanternOk l := by simp [Instr.wf, hc l eng rfl]
      exact stopsAsStated_of_guarded (ht.trans (by rw [hwf])) hj'
    · obtain ⟨t, ht⟩ := exec_guarded hj' (fun l eng h => hw ⟨l, eng, h⟩) s
      exact stopsAsStated_of_guarded ht hj'

/-! ## The counterexample -/

/-- WAIT_END of engine 8 of lantern 0, as the module leaves the factory: the command is not well formed, and the module goes on unchanged. -/
theorem exec_waitEnd_engine8 : exec (.waitEnd 0 8) State.reset = .next State.reset := rfl

/-- Refutes O3: WAIT_END of engine 8, which no lantern has, does not fault. -/
theorem not_onlyStops : ¬ Obligations.OnlyStops := by
  rw [onlyStops_iff]
  intro h
  obtain ⟨hfault, -, -⟩ := h (.waitEnd 0 8) State.reset
  have hstop := hfault.2 (by decide)
  rw [exec_waitEnd_engine8] at hstop
  exact absurd hstop (by simp)

end Sys2Proof.Stops
end

section
/-!
PROOFS. 09 R264 to R272: one rule for each stage of a Prafer command: which byte of an entry is at fault, what passes a check, and what a command that is
fetched comes to, by whether it completes at once or waits.
-/

open Sys2Proof Sys2Proof.Machine

namespace Sys2Proof.Take

/-! ## The lowest faulty byte (Table 9-3) -/

/-- Offsets of the checks that fail. -/
def failing (l : List (Nat × Bool)) : List Nat := (l.filter (·.2)).map (·.1)

/-- One check more: the lowest failing offset so far is kept or replaced. -/
def lowerStep (m : Option Nat) (c : Nat × Bool) : Option Nat :=
  if c.2 then (match m with | some x => some (min x c.1) | none => some c.1) else m

theorem foldl_lowerStep (l : List (Nat × Bool)) : ∀ m : Option Nat, l.foldl lowerStep m = (m.toList ++ failing l).min? := by
  induction l with
  | nil => intro m; cases m <;> rfl
  | cons c l ih =>
    obtain ⟨k, b⟩ := c
    intro m
    rw [List.foldl_cons, ih]
    cases b with
    | false => rfl
    | true => cases m <;> rfl

theorem lowest_eq_min (l : List (Nat × Bool)) : lowest l = (failing l).min? := foldl_lowerStep l none

theorem mem_failing {l : List (Nat × Bool)} {k : Nat} : k ∈ failing l ↔ (k, true) ∈ l := by
  simp [failing]

theorem lowest_eq_none {l : List (Nat × Bool)} : lowest l = none ↔ ∀ c ∈ l, c.2 = false := by
  rw [lowest_eq_min, List.min?_eq_none_iff, List.eq_nil_iff_forall_not_mem]
  simp only [mem_failing]
  refine ⟨fun h c hc => ?_, fun h k hk => Bool.noConfusion (h _ hk)⟩
  obtain ⟨k, _ | _⟩ := c
  · rfl
  · exact absurd hc (h k)

theorem lowest_eq_some {l : List (Nat × Bool)} {k : Nat} (hk : (k, true) ∈ l) (hmin : ∀ c ∈ l, c.2 = true → k ≤ c.1) : lowest l = some k := by
  rw [lowest_eq_min, List.min?_eq_some_iff]
  exact ⟨mem_failing.2 hk, fun j hj => hmin _ (mem_failing.1 hj) rfl⟩

/-! ## The checks of a clean entry (Table 9-2) -/

theorem stray_false {e : Entry} {names : Bool} {used : List (Nat × Nat)} (hc : Clean e names used) : ∀ c ∈ strayBytes e used, c.2 = false := by
  intro c hm
  obtain ⟨i, hi, rfl⟩ := List.mem_map.1 hm
  cases hu : used.any (fun u => decide (u.1 ≤ 20 + i) && decide (20 + i < u.1 + u.2)) with
  | true => rfl
  | false =>
    have hz := hc.rest i (List.mem_range.1 hi) fun u h => by
      have := List.any_eq_false.1 hu u h
      simp only [Bool.and_eq_true, decide_eq_true_eq] at this
      omega
    simp [hz]

/-- A clean entry of a length that the command takes passes every check of its common fields and its reserved bytes. -/
theorem common_false {e : Entry} {names lenBad : Bool} {used : List (Nat × Nat)} (hc : Clean e names used) (hl : lenBad = false) :
    ∀ c ∈ [(1, decide (2 ≤ e.flags.toNat)), (4, !names && e.part != 255), (5, e.rsvd != 0), (8, !dptrOk e), (16, lenBad || decide (2 ^ 31 < dlenOf e))]
      ++ strayBytes e used, c.2 = false := by
  have hpart : (!names && e.part != 255) = false := by
    cases names with
    | true => rfl
    | false => simp [hc.part rfl]
  intro c hm
  rcases List.mem_append.1 hm with hm | hm
  · simp only [List.mem_cons, List.not_mem_nil, or_false] at hm
    rcases hm with rfl | rfl | rfl | rfl | rfl
    · simpa using hc.flags
    · exact hpart
    · simp [hc.rsvd]
    · simp [hc.data]
    · simpa [hl] using hc.len
  · exact stray_false hc c hm

theorem entryFault_none {e : Entry} {names lenBad : Bool} {used : List (Nat × Nat)} {bads : List (Nat × Bool)} (hc : Clean e names used)
    (hl : lenBad = false) (hb : ∀ c ∈ bads, c.2 = false) : entryFault e names used lenBad bads = none :=
  lowest_eq_none.2 fun c hm => (List.mem_append.1 hm).elim (common_false hc hl c) (hb c)

theorem bads_false_of_entryFault {e : Entry} {names lenBad : Bool} {used : List (Nat × Nat)} {bads : List (Nat × Bool)}
    (h : entryFault e names used lenBad bads = none) : ∀ c ∈ bads, c.2 = false := fun c hm => lowest_eq_none.1 h c (List.mem_append_right _ hm)

/-- A clean entry fails at the lowest byte at which the checks of its command fail. -/
theorem entryFault_some {e : Entry} {names lenBad : Bool} {used : List (Nat × Nat)} {bads : List (Nat × Bool)} {k : Nat} (hc : Clean e names used)
    (hl : lenBad = false) (hk : (k, true) ∈ bads) (hmin : ∀ c ∈ bads, c.2 = true → k ≤ c.1) : entryFault e names used lenBad bads = some k :=
  lowest_eq_some (List.mem_append_right _ hk) fun c hm ht =>
    (List.mem_append.1 hm).elim (fun h => absurd ht (by rw [common_false hc hl c h]; decide)) (fun h => hmin c h ht)

/-! ## What passes a check goes on -/

variable {e : Entry} {s : State}

theorem fieldsThen_none {bad : Option Nat} (k : State → Done) (h : bad = none) : fieldsThen bad k s = k s := by rw [h]; rfl
theorem fieldsThen_some {bad : Option Nat} {off : Nat} (k : State → Done) (h : bad = some off) : fieldsThen bad k s = failsField off s := by rw [h]; rfl
theorem pfCmd_of_isPf (k : State → Done) (h : isPf e = true) : pfCmd e k s = k s := if_pos h
theorem withData_some {d : List Byte} (k : List Byte → State → Done) (h : e.data = some d) : withData e k s = k (padTo (dlenOf e) d) s := by
  unfold withData; rw [h]

theorem partCmd_of {who : Issuer} {states : PState → Bool} {p : Partition} (k : Partition → State → Done) (hm : mayIssue s e who = true)
    (hn : partNo e < 16) (hp : getPart s (partNo e) = some p) (hst : states p.state = true) : partCmd who states e k s = k p s := by
  unfold partCmd
  rw [hm, hp, if_neg (by decide), if_neg (Nat.not_le.2 hn)]
  exact if_pos hst

theorem mayIssue_pfBound (h : isPf e = true ∨ isBound s e = true) : mayIssue s e .pfBound = true := Bool.or_eq_true_iff.2 h

/-! ## A command that is fetched (R264 to R267) -/

variable {q : Qp}

/-- A fetched entry changes the round of visits and its own queue pair only. -/
theorem getPart_fetched (n : Nat) : getPart (fetched e q s) n = getPart s n := rfl
theorem isBound_fetched : isBound (fetched e q s) e = isBound s e := rfl
theorem mayIssue_fetched (who : Issuer) : mayIssue (fetched e q s) e who = mayIssue s e who := by cases who <;> rfl

theorem partCmd_fetched {who : Issuer} {states : PState → Bool} {p : Partition} (k : Partition → State → Done) (hm : mayIssue s e who = true)
    (hn : partNo e < 16) (hp : getPart s (partNo e) = some p) (hst : states p.state = true) :
    partCmd who states e k (fetched e q s) = k p (fetched e q s) := partCmd_of k ((mayIssue_fetched who).trans hm) hn hp hst

theorem getQp_setQp_same (s : State) (fn : Fn) (n : Nat) (x : Option Qp) : getQp (setQp s fn n x) fn n = x := by
  unfold getQp setQp
  rw [getFn_updFn_same]
  exact tget_tset_same _ _ _ _

theorem getQp_setQp_other (s : State) (fn : Fn) {n m : Nat} (x : Option Qp) (h : m ≠ n) : getQp (setQp s fn n x) fn m = getQp s fn m := by
  unfold getQp setQp
  rw [getFn_updFn_same]
  exact tget_tset_other _ _ _ h

/-- Fetching leaves which queue pairs the function has. -/
theorem isSome_getQp_fetched (hq : getQp s e.fn e.sqid = some q) (n : Nat) : (getQp (fetched e q s) e.fn n).isSome = (getQp s e.fn n).isSome := by
  unfold fetched
  by_cases hn : n = e.sqid
  · rw [hn, getQp_setQp_same, hq]; rfl
  · rw [getQp_setQp_other _ _ _ hn]; rfl

theorem takeCmd_of_fetches (hf : Fetches e q s) {body : Nat → State → Done} {U : State} {a : Option Answer} (hb : body (nextHead q) (fetched e q s) = (U, a)) :
    takeCmd e body s = a.elim U (fun a => postPlain U e.fn (complOf e (nextHead q) a)) := by
  unfold takeCmd
  rw [hf.queue, hf.ready]
  show (match body (nextHead q) (fetched e q s) with
    | (s, a) => match a with
      | some a => postPlain s e.fn (complOf e (nextHead q) a)
      | none => s) = _
  rw [hb]
  cases a <;> rfl

theorem settled_of_fetches (hf : Fetches e q s) (t : State) : settled (entryOk e) t = .next (settle t) := by
  unfold settled
  rw [hf.names, guarded_true]

/-- A command whose body completes. -/
theorem taken_answers (hf : Fetches e q s) {body : Nat → State → Done} {U : State} {st r d : Nat} (hb : body (nextHead q) (fetched e q s) = (U, some ⟨st, r, d⟩)) :
    settled (entryOk e) (takeCmd e body s) = .next (answered e q st r d U) := by
  rw [settled_of_fetches hf, takeCmd_of_fetches hf hb]; rfl

/-- A command whose body leaves it to complete later. -/
theorem taken_later (hf : Fetches e q s) {body : Nat → State → Done} {U : State} (hb : body (nextHead q) (fetched e q s) = later U) :
    settled (entryOk e) (takeCmd e body s) = .next (settle U) := by
  rw [settled_of_fetches hf, takeCmd_of_fetches hf hb]; rfl

theorem taken_waits (hf : Fetches e q s) {body : Nat → State → Done} {U : State} {w : WaitFor}
    (hb : body (nextHead q) (fetched e q s) = later (waitFor e (nextHead q) w U)) : settled (entryOk e) (takeCmd e body s) = .next (awaited e q w U) :=
  taken_later hf hb

theorem takeLamp_running (body : Nat → State → Done) (h : s.sec.restarting = false) : takeLamp e body s = takeCmd e body s := by
  unfold takeLamp; rw [h]; rfl

end Sys2Proof.Take
end

section
/-!
PROOFS. 01 R28: every step keeps the partitions apart. Soundness of the partitions is a matter of their rectangles alone. Every command but PART_CREATE leaves
the rectangles or takes partitions away, and an idle step leaves them; PART_CREATE adds a rectangle that passed its checks, which meets no other.
-/

open Sys2Proof Sys2Proof.Machine

namespace Sys2Proof.Apart

open Sys2Proof.Take

/-! ## Rectangles -/

theorem rect_eq_iff {p q : Partition} : rect p = rect q ↔ p.fx0 = q.fx0 ∧ p.fy0 = q.fy0 ∧ p.w = q.w ∧ p.h = q.h := by
  simp [rect, Prod.ext_iff]

theorem rectOk_of_rect {p q : Partition} (h : rect p = rect q) : rectOk p = rectOk q := by
  obtain ⟨hx, hy, hw, hh⟩ := rect_eq_iff.1 h
  unfold rectOk
  rw [hx, hy, hw, hh]

theorem inRect_of_rect {p q : Partition} (h : rect p = rect q) (f : Nat) : inRect p f = inRect q f := by
  obtain ⟨hx, hy, hw, hh⟩ := rect_eq_iff.1 h
  unfold inRect
  rw [hx, hy, hw, hh]

theorem overlaps_of_rect {a b c d : Partition} (hac : rect a = rect c) (hbd : rect b = rect d) : overlaps a b = overlaps c d := by
  obtain ⟨hx, hy, hw, hh⟩ := rect_eq_iff.1 hac
  obtain ⟨kx, ky, kw, kh⟩ := rect_eq_iff.1 hbd
  unfold overlaps
  rw [hx, hy, hw, hh, kx, ky, kw, kh]

/-- Rectangles that share a field overlap. -/
theorem overlaps_of_inRect {p q : Partition} {f : Nat} (hp : inRect p f = true) (hq : inRect q f = true) : overlaps p q = true := by
  simp only [inRect, overlaps, decide_eq_true_eq] at *
  omega

/-! ## Sound partitions -/

theorem partsOk_of_rects {s t : State} (hs : PartsOk s) (h : ∀ n p, getPart t n = some p → ∃ q, getPart s n = some q ∧ rect p = rect q) : PartsOk t where
  number n p hp := by
    obtain ⟨q, hq, -⟩ := h n p hp
    exact hs.number n q hq
  rect n p hp := by
    obtain ⟨q, hq, hr⟩ := h n p hp
    rw [rectOk_of_rect hr]
    exact hs.rect n q hq
  apart n m p q f hp hq hpf hqf hf := by
    obtain ⟨p', hp', hpr⟩ := h n p hp
    obtain ⟨q', hq', hqr⟩ := h m q hq
    exact hs.apart n m p' q' f hp' hq' (inRect_of_rect hpr f ▸ hpf) (inRect_of_rect hqr f ▸ hqf) hf

theorem partsOk_of_grows {s t : State} (hs : PartsOk s) (h : Grows s t) : PartsOk t :=
  partsOk_of_rects hs fun n p hp => by
    rcases h.rects n with hr | hn
    · rw [hp, Option.map_some, eq_comm, Option.map_eq_some_iff] at hr
      obtain ⟨q, hq, hr⟩ := hr
      exact ⟨q, hq, hr.symm⟩
    · exact absurd (hp.symm.trans hn) (Option.some_ne_none p)

theorem partsOk_of_shape {s t : State} (hs : PartsOk s) (h : shape t = shape s) : PartsOk t := partsOk_of_grows hs (grows_of_shape h)

/-- A partition of a free rectangle joins the others. -/
theorem partsOk_setPart {s : State} (hs : PartsOk s) {n : Nat} {p : Partition} (hn : n < 16) (hp : rectOk p = true)
    (hfree : ∀ m q, getPart s m = some q → overlaps p q = false) : PartsOk (setPart s n (some p)) where
  number m q hq := by
    rw [getPart_setPart] at hq
    split at hq
    · next h => exact h ▸ hn
    · exact hs.number m q hq
  rect m q hq := by
    rw [getPart_setPart] at hq
    split at hq
    · exact Option.some.inj hq ▸ hp
    · exact hs.rect m q hq
  apart m k a b f ha hb haf hbf hf := by
    have hne : ∀ j q, getPart s j = some q → inRect p f = true → inRect q f = true → False := fun j q hq hpf hqf =>
      Bool.noConfusion ((hfree j q hq).symm.trans (overlaps_of_inRect hpf hqf))
    rw [getPart_setPart] at ha hb
    split at ha <;> split at hb
    · next hm hk => rw [hm, hk]
    · exact (hne k b hb (Option.some.inj ha ▸ haf) hbf).elim
    · exact (hne m a ha (Option.some.inj hb ▸ hbf) haf).elim
    · exact hs.apart m k a b f ha hb haf hbf hf

/-! ## PART_CREATE (09 R274) -/

theorem mem_of_tget_ne {α : Type} {d : α} {k : Nat} : ∀ {m : SMap α}, tget d m k ≠ d → (k, tget d m k) ∈ m
  | [], h => absurd rfl h
  | (j, v) :: r, h => by
    unfold tget at h ⊢
    split at h
    · next hj => rw [if_pos hj, ← hj]; exact List.mem_cons_self ..
    · next hj => rw [if_neg hj]; exact List.mem_cons_of_mem _ (mem_of_tget_ne h)

theorem mem_allParts {s : State} {n : Nat} {p : Partition} (h : getPart s n = some p) : (n, p) ∈ allParts s := by
  have hm := mem_of_tget_ne (d := none) (m := s.parts) (k := n) (by rw [show tget none s.parts n = some p from h]; exact Option.some_ne_none p)
  rw [show tget none s.parts n = some p from h] at hm
  exact List.mem_filterMap.2 ⟨_, hm, rfl⟩

theorem rectOk_of_createFault {e : Entry} (h : createFault e = none) : rectOk (createParams e) = true := by
  have hall := bads_false_of_entryFault h
  simp only [List.forall_mem_cons, Bool.or_eq_false_iff, beq_eq_false_iff_ne, decide_eq_false_iff_not] at hall
  obtain ⟨-, hw, hh, -⟩ := hall
  simp only [rectOk, Bool.and_eq_true, decide_eq_true_eq]
  omega

theorem not_overlaps_of_createConflict {s : State} {n : Nat} {p : Partition} (h : createConflict s n p = none) :
    ∀ m q, getPart s m = some q → overlaps p q = false := by
  intro m q hq
  unfold createConflict at h
  dsimp only at h
  split at h
  · exact absurd h (Option.some_ne_none _)
  · next hc =>
    simp only [Bool.or_eq_true, not_or, Bool.not_eq_true] at hc
    obtain ⟨⟨-, hany⟩, -⟩ := hc
    exact Bool.eq_false_iff.2 (List.any_eq_false.1 hany q (List.mem_map.2 ⟨_, mem_allParts hq, rfl⟩))

theorem rect_adopt (s : State) (n : Nat) (p : Partition) : rect (adopt s n p) = rect p := by
  unfold adopt
  split <;> rfl

/-- The partition made and what is written around it: the rectangles are those of setPart. -/
theorem partsOk_created {s t u : State} {n : Nat} {p : Partition} (hs : PartsOk s) (hn : n < 16) (hp : rectOk p = true)
    (hfree : ∀ m q, getPart s m = some q → overlaps p q = false) (ht : shape t = shape s) (hu : shape u = shape (setPart t n (some p))) : PartsOk u := by
  refine partsOk_of_shape (partsOk_setPart (partsOk_of_shape hs ht) hn hp fun m q hq => ?_) hu
  have hr := shape_rects ht m
  rw [hq, Option.map_some, eq_comm, Option.map_eq_some_iff] at hr
  obtain ⟨a, ha, hr⟩ := hr
  exact (overlaps_of_rect rfl hr.symm).trans (hfree m a ha)

theorem partCreate_partsOk (e : Entry) (h : Nat) {s : State} (hs : PartsOk s) : PartsOk (partCreate e h s).1 := by
  unfold partCreate
  dsimp only
  split
  · exact partsOk_of_shape hs (fails_shape _ _)
  split
  · exact partsOk_of_shape hs (failsField_shape _ _)
  next hn =>
  cases hf : createFault e with
  | some off => exact partsOk_of_shape hs (failsField_shape _ _)
  | none =>
    rw [fieldsThen_none _ rfl]
    split
    · exact partsOk_of_shape hs (fails_shape _ _)
    next hc =>
    split
    · exact partsOk_of_shape hs (fails_shape _ _)
    split
    · exact partsOk_of_shape hs (fails_shape _ _)
    have hr : ∀ sl d i, rect { adopt s (partNo e) (createParams e) with slot := sl, debug := d, idleSince := i } = rect (createParams e) :=
      fun _ _ _ => rect_adopt s _ _
    have hok := fun sl d i => (rectOk_of_rect (hr sl d i)).trans (rectOk_of_createFault hf)
    have hfree := fun sl d i m q hq => (overlaps_of_rect (hr sl d i) rfl).trans (not_overlaps_of_createConflict hc m q hq)
    have hshape : ∀ (p : Partition) (t : State), shape (takeChannels (partNo e) p (zeroCounters p (writeMasks (partNo e) t))) = shape t := fun p t =>
      (takeChannels_shape _ _ _).trans ((zeroCounters_shape _ _).trans (writeMasks_shape _ _))
    split
    · exact partsOk_created hs (Nat.not_le.1 hn) (hok _ _ _) (hfree _ _ _) (shape_congr rfl rfl rfl rfl) ((doneWith_shape _ _).trans (hshape _ _))
    · exact partsOk_created hs (Nat.not_le.1 hn) (hok _ _ _) (hfree _ _ _) (shape_congr rfl rfl rfl rfl) ((eraseThen_shape _ _ _ _ _ _ _).trans (hshape _ _))

theorem takeCmd_partsOk (e : Entry) (body : Nat → State → Done) {s : State} (hs : PartsOk s) (h : ∀ n t, PartsOk t → PartsOk (body n t).1) :
    PartsOk (takeCmd e body s) := by
  unfold takeCmd
  split
  · exact hs
  split
  · exact hs
  next q _ _ =>
  have hb := h (nextHead q) (setQp { s with visit := queueKey e.fn e.sqid } e.fn e.sqid (some { q with sqHead := nextHead q, busy := q.busy + 1 }))
    (partsOk_of_shape hs ((setQp_shape _ _ _ _).trans (shape_congr rfl rfl rfl rfl)))
  dsimp only
  split
  · exact partsOk_of_shape hb (postPlain_shape _ _ _)
  · exact hb

theorem exec_partCreate_partsOk {e : Entry} {s t : State} (hs : PartsOk s) (h : exec (.partCreate e) s = .next t) : PartsOk t := by
  rw [exec_partCreate, execPartCreate, settled, guarded_next] at h
  rw [h.2]
  refine partsOk_of_shape ?_ (settle_shape _)
  unfold takeLamp
  split
  · exact partsOk_of_shape hs (passBy_shape e s)
  · exact takeCmd_partsOk e _ hs fun n _ ht => partCreate_partsOk e n ht

/-! ## Every other command, and an idle step -/

/-- What each command but PART_CREATE does to the frame of the whole machine, by the frame lemma of its meaning. -/
theorem exec_grows {c : Instr} {s t : State} (hc : ∀ e, c ≠ .partCreate e) (h : exec c s = .next t) : Grows s t := by
  cases c with
  | identify e => exact grows_of_shape (execIdentify_shape e s h)
  | qpCreate e => exact grows_of_shape (execQpCreate_shape e s h)
  | qpDelete e => exact grows_of_shape (execQpDelete_shape e s h)
  | ringForm e => exact grows_of_shape (execRingForm_shape e s h)
  | ringMode e => exact grows_of_shape (execRingMode_shape e s h)
  | partCreate e => exact absurd rfl (hc e)
  | partDelete e => exact execPartDelete_grows e s h
  | partSet e => exact grows_of_shape (execPartSet_shape e s h)
  | programLoad e => exact grows_of_shape (execProgramLoad_shape e s h)
  | partStart e => exact grows_of_shape (execPartStart_shape e s h)
  | partDrain e => exact grows_of_shape (execPartDrain_shape e s h)
  | partQuery e => exact grows_of_shape (execPartQuery_shape e s h)
  | submit e => exact grows_of_shape (execSubmit_shape e s h)
  | cancel e => exact grows_of_shape (execCancel_shape e s h)
  | reqQuery e => exact grows_of_shape (execReqQuery_shape e s h)
  | adapterLoad e => exact grows_of_shape (execAdapterLoad_shape e s h)
  | adapterRelease e => exact grows_of_shape (execAdapterRelease_shape e s h)
  | pause e => exact grows_of_shape (execPause_shape e s h)
  | exportCtx e => exact grows_of_shape (execExportCtx_shape e s h)
  | importCtx e => exact grows_of_shape (execImportCtx_shape e s h)
  | discard e => exact grows_of_shape (execDiscard_shape e s h)
  | setTtl e => exact grows_of_shape (execSetTtl_shape e s h)
  | weightOpen e => exact grows_of_shape (execWeightOpen_shape e s h)
  | weightChunk e => exact grows_of_shape (execWeightChunk_shape e s h)
  | weightClose e => exact grows_of_shape (execWeightClose_shape e s h)
  | weightStatus e => exact grows_of_shape (execWeightStatus_shape e s h)
  | eraseWeights e => exact execEraseWeights_grows e s h
  | zeroise e => exact execZeroise_grows e s h
  | debugUnlock e => exact execDebugUnlock_grows e s h
  | debugLock e => exact grows_of_shape (execDebugLock_shape e s h)
  | telemetryRead e => exact grows_of_shape (execTelemetryRead_shape e s h)
  | monitorSet e => exact grows_of_shape (execMonitorSet_shape e s h)
  | eventRingSet e => exact grows_of_shape (execEventRingSet_shape e s h)
  | counterSelect e => exact grows_of_shape (execCounterSelect_shape e s h)
  | setSpares e => exact grows_of_shape (execSetSpares_shape e s h)
  | driftComp e => exact grows_of_shape (execDriftComp_shape e s h)
  | refreshSet e => exact grows_of_shape (execRefreshSet_shape e s h)
  | refreshWindow e => exact grows_of_shape (execRefreshWindow_shape e s h)
  | recalibrate e => exact grows_of_shape (execRecalibrate_shape e s h)
  | fwUpdate e => exact execFwUpdate_grows e s h
  | microcodeUpdate e => exact grows_of_shape (execMicrocodeUpdate_shape e s h)
  | unassignedOpcode e opcode => exact grows_of_shape (execUnassignedOpcode_shape e opcode s h)
  | sqTail fn q v => exact grows_of_shape (execSqTail_shape fn q v s h)
  | cqHead fn q v => exact grows_of_shape (execCqHead_shape fn q v s h)
  | runnelCons fn r v => exact grows_of_shape (execRunnelCons_shape fn r v s h)
  | mbCtrlEnable fn v => exact grows_of_shape (execMbCtrlEnable_shape fn v s h)
  | mbCtrlDisable fn v => exact grows_of_shape (execMbCtrlDisable_shape fn v s h)
  | evCons fn v => exact grows_of_shape (execEvCons_shape fn v s h)
  | alertStatusClear fn v => exact grows_of_shape (execAlertStatusClear_shape fn v s h)
  | traceCtrlWrite fn v => exact grows_of_shape (execTraceCtrlWrite_shape fn v s h)
  | pertHsdelayWrite fn part ix v => exact grows_of_shape (execPertHsdelayWrite_shape fn part ix v s h)
  | pertCreditWrite fn part v => exact grows_of_shape (execPertCreditWrite_shape fn part v s h)
  | pertStretchWrite fn part v => exact grows_of_shape (execPertStretchWrite_shape fn part v s h)
  | pertAdcWrite fn part v => exact grows_of_shape (execPertAdcWrite_shape fn part v s h)
  | pertRetrain fn part v => exact grows_of_shape (execPertRetrain_shape fn part v s h)
  | fiParity fn part v => exact grows_of_shape (execFiParity_shape fn part v s h)
  | fiPoison fn part v => exact grows_of_shape (execFiPoison_shape fn part v s h)
  | registerWrite fn bar2 offset v eight => exact grows_of_shape (execRegisterWrite_shape fn bar2 offset v eight s h)
  | nop l f => exact grows_of_shape (execNop_shape l f s h)
  | add l f => exact grows_of_shape (execAdd_shape l f s h)
  | sub l f => exact grows_of_shape (execSub_shape l f s h)
  | and l f => exact grows_of_shape (execAnd_shape l f s h)
  | or l f => exact grows_of_shape (execOr_shape l f s h)
  | xor l f => exact grows_of_shape (execXor_shape l f s h)
  | shl l f => exact grows_of_shape (execShl_shape l f s h)
  | shr l f => exact grows_of_shape (execShr_shape l f s h)
  | sar l f => exact grows_of_shape (execSar_shape l f s h)
  | mul l f => exact grows_of_shape (execMul_shape l f s h)
  | slt l f => exact grows_of_shape (execSlt_shape l f s h)
  | sltu l f => exact grows_of_shape (execSltu_shape l f s h)
  | addi l f => exact grows_of_shape (execAddi_shape l f s h)
  | lih l f => exact grows_of_shape (execLih_shape l f s h)
  | sld l f => exact grows_of_shape (execSld_shape l f s h)
  | sst l f => exact grows_of_shape (execSst_shape l f s h)
  | rds l f => exact grows_of_shape (execRds_shape l f s h)
  | beq l f => exact grows_of_shape (execBeq_shape l f s h)
  | bne l f => exact grows_of_shape (execBne_shape l f s h)
  | blt l f => exact grows_of_shape (execBlt_shape l f s h)
  | bge l f => exact grows_of_shape (execBge_shape l f s h)
  | jmp l f => exact grows_of_shape (execJmp_shape l f s h)
  | jr l f => exact grows_of_shape (execJr_shape l f s h)
  | step l f => exact grows_of_shape (execStep_shape l f s h)
  | fence l f => exact grows_of_shape (execFence_shape l f s h)
  | trapi l f => exact grows_of_shape (execTrapi_shape l f s h)
  | aop l f => exact grows_of_shape (execAop_shape l f s h)
  | aclr l f => exact grows_of_shape (execAclr_shape l f s h)
  | ard l f => exact grows_of_shape (execArd_shape l f s h)
  | aexp l f => exact grows_of_shape (execAexp_shape l f s h)
  | aimp l f => exact grows_of_shape (execAimp_shape l f s h)
  | widot l f => exact grows_of_shape (execWidot_shape l f s h)
  | wfdot l f => exact grows_of_shape (execWfdot_shape l f s h)
  | wvb l f => exact grows_of_shape (execWvb_shape l f s h)
  | wvu l f => exact grows_of_shape (execWvu_shape l f s h)
  | wred l f => exact grows_of_shape (execWred_shape l f s h)
  | wsmx l f => exact grows_of_shape (execWsmx_shape l f s h)
  | wqnt l f => exact grows_of_shape (execWqnt_shape l f s h)
  | wgth l f => exact grows_of_shape (execWgth_shape l f s h)
  | wtopk l f => exact grows_of_shape (execWtopk_shape l f s h)
  | wsmp l f => exact grows_of_shape (execWsmp_shape l f s h)
  | qld l f => exact grows_of_shape (execQld_shape l f s h)
  | ascr l f => exact grows_of_shape (execAscr_shape l f s h)
  | aval l f => exact grows_of_shape (execAval_shape l f s h)
  | kapp l f => exact grows_of_shape (execKapp_shape l f s h)
  | kmark l f => exact grows_of_shape (execKmark_shape l f s h)
  | krew l f => exact grows_of_shape (execKrew_shape l f s h)
  | krel l f => exact grows_of_shape (execKrel_shape l f s h)
  | kwalk l f => exact grows_of_shape (execKwalk_shape l f s h)
  | kxfr l f => exact grows_of_shape (execKxfr_shape l f s h)
  | copy l f => exact grows_of_shape (execCopy_shape l f s h)
  | trd l f => exact grows_of_shape (execTrd_shape l f s h)
  | send l f => exact grows_of_shape (execSend_shape l f s h)
  | clr l f => exact grows_of_shape (execClr_shape l f s h)
  | recv l f => exact grows_of_shape (execRecv_shape l f s h)
  | qpeek l f => exact grows_of_shape (execQpeek_shape l f s h)
  | qpop l f => exact grows_of_shape (execQpop_shape l f s h)
  | qmark l f => exact grows_of_shape (execQmark_shape l f s h)
  | qrewind l f => exact grows_of_shape (execQrewind_shape l f s h)
  | qrel l f => exact grows_of_shape (execQrel_shape l f s h)
  | qstat l f => exact grows_of_shape (execQstat_shape l f s h)
  | storeError l => exact grows_of_shape (execStoreError_shape l s h)
  | waitEnd l eng => exact grows_of_shape (execWaitEnd_shape l eng s h)
  | arrayOpStart l bank => exact grows_of_shape (execArrayOpStart_shape l bank s h)
  | phaseComplete l bank => exact grows_of_shape (execPhaseComplete_shape l bank s h)
  | arrayOpComplete l bank => exact grows_of_shape (execArrayOpComplete_shape l bank s h)
  | outlierResidual l bank => exact grows_of_shape (execOutlierResidual_shape l bank s h)
  | bankRestoreDone l bank => exact grows_of_shape (execBankRestoreDone_shape l bank s h)
  | referenceOperation l arr => exact grows_of_shape (execReferenceOperation_shape l arr s h)
  | driftStaleTimeout l arr => exact grows_of_shape (execDriftStaleTimeout_shape l arr s h)
  | temperatureUpdate field => exact grows_of_shape (execTemperatureUpdate_shape field s h)
  | flitHop router inPort cls vcb => exact grows_of_shape (execFlitHop_shape router inPort cls vcb s h)
  | weirRelease src part => exact grows_of_shape (execWeirRelease_shape src part s h)
  | linkCrcMismatch router port link flit => exact grows_of_shape (execLinkCrcMismatch_shape router port link flit s h)
  | laneTestDone router port link r => exact grows_of_shape (execLaneTestDone_shape router port link r s h)
  | orderRun router port => exact grows_of_shape (execOrderRun_shape router port s h)
  | orderEndstep router port => exact grows_of_shape (execOrderEndstep_shape router port s h)
  | qlineArrival l => exact grows_of_shape (execQlineArrival_shape l s h)
  | accxArrival l => exact grows_of_shape (execAccxArrival_shape l s h)
  | creditArrival l => exact grows_of_shape (execCreditArrival_shape l s h)
  | xhdrArrival l => exact grows_of_shape (execXhdrArrival_shape l s h)
  | xdataArrival l => exact grows_of_shape (execXdataArrival_shape l s h)
  | xackArrival l => exact grows_of_shape (execXackArrival_shape l s h)
  | kvReservedSub l => exact grows_of_shape (execKvReservedSub_shape l s h)
  | mgmtFlit op => exact grows_of_shape (execMgmtFlit_shape op s h)
  | rimRunnel tile => exact grows_of_shape (execRimRunnel_shape tile s h)
  | rimEndnote tile => exact grows_of_shape (execRimEndnote_shape tile s h)
  | rimTrace => exact grows_of_shape (execRimTrace_shape s h)
  | rimZendenChannel tile => exact grows_of_shape (execRimZendenChannel_shape tile s h)
  | rimUnlistedChannel tile => exact grows_of_shape (execRimUnlistedChannel_shape tile s h)
  | zendenGroupReceive z g => exact grows_of_shape (execZendenGroupReceive_shape z g s h)
  | zendenAckTimeout z => exact grows_of_shape (execZendenAckTimeout_shape z s h)
  | zendenIdleHeader z => exact grows_of_shape (execZendenIdleHeader_shape z s h)
  | zendenLinkDown z why => exact grows_of_shape (execZendenLinkDown_shape z why s h)
  | zendenLinkTrained z peer => exact grows_of_shape (execZendenLinkTrained_shape z peer s h)
  | ringFormReceive index => exact grows_of_shape (execRingFormReceive_shape index s h)
  | ringDoneReceive size => exact grows_of_shape (execRingDoneReceive_shape size s h)
  | ringFormTimeout => exact grows_of_shape (execRingFormTimeout_shape s h)
  | stepBoundary part => exact grows_of_shape (execStepBoundary_shape part s h)
  | boundarySeen l => exact grows_of_shape (execBoundarySeen_shape l s h)
  | stepWatchdogExpiry part => exact grows_of_shape (execStepWatchdogExpiry_shape part s h)
  | partitionStop part => exact grows_of_shape (execPartitionStop_shape part s h)
  | partitionFault part => exact grows_of_shape (execPartitionFault_shape part s h)
  | faultRetestDone part votes => exact grows_of_shape (execFaultRetestDone_shape part votes s h)
  | partitionReloadDone part => exact grows_of_shape (execPartitionReloadDone_shape part s h)
  | configCrcRecompute u => exact grows_of_shape (execConfigCrcRecompute_shape u s h)
  | configScrub => exact grows_of_shape (execConfigScrub_shape s h)
  | calibrationScrub => exact grows_of_shape (execCalibrationScrub_shape s h)
  | driftSave => exact grows_of_shape (execDriftSave_shape s h)
  | lockstepMismatch p => exact grows_of_shape (execLockstepMismatch_shape p s h)
  | holdClear => exact grows_of_shape (execHoldClear_shape s h)
  | standbySelftestDone p pass => exact grows_of_shape (execStandbySelftestDone_shape p pass s h)
  | lamplighterError => exact grows_of_shape (execLamplighterError_shape s h)
  | lamplighterRestartDone => exact grows_of_shape (execLamplighterRestartDone_shape s h)
  | prefillDone part tag t => exact grows_of_shape (execPrefillDone_shape part tag t s h)
  | decodePassDone part tag toks drafts => exact grows_of_shape (execDecodePassDone_shape part tag toks drafts s h)
  | passStart part tag => exact grows_of_shape (execPassStart_shape part tag s h)
  | requestEnd part tag => exact grows_of_shape (execRequestEnd_shape part tag s h)
  | interruptTimer fn src => exact grows_of_shape (execInterruptTimer_shape fn src s h)
  | cisternPauseDone part tag => exact grows_of_shape (execCisternPauseDone_shape part tag s h)
  | cisternResumeDone part tag authOk => exact grows_of_shape (execCisternResumeDone_shape part tag authOk s h)
  | contextTtlExpiry handle => exact grows_of_shape (execContextTtlExpiry_shape handle s h)
  | arrayProgrammingDone l arr r => exact grows_of_shape (execArrayProgrammingDone_shape l arr r s h)
  | weightLoadIdleTimeout part => exact grows_of_shape (execWeightLoadIdleTimeout_shape part s h)
  | erasureDone failed => exact execErasureDone_grows failed s h
  | touchUpChunk l arr ok => exact grows_of_shape (execTouchUpChunk_shape l arr ok s h)
  | refreshIdle part => exact grows_of_shape (execRefreshIdle_shape part s h)
  | pwrEnAssert slotId => exact grows_of_shape (execPwrEnAssert_shape slotId s h)
  | pwrEnDeassert => exact grows_of_shape (execPwrEnDeassert_shape s h)
  | powerDownSaveDone => exact execPowerDownSaveDone_grows s h
  | j1Connect mv => exact grows_of_shape (execJ1Connect_shape mv s h)
  | inputOvervoltageWarn mv => exact grows_of_shape (execInputOvervoltageWarn_shape mv s h)
  | railFault rail cause group mv => exact execRailFault_grows rail cause group mv s h
  | phaseFailure group => exact execPhaseFailure_grows group s h
  | hardTrip comparator => exact execHardTrip_grows comparator s h
  | perstAssert p => exact grows_of_shape (execPerstAssert_shape p s h)
  | perstDeassert p => exact grows_of_shape (execPerstDeassert_shape p s h)
  | functionLevelReset fn => exact grows_of_shape (execFunctionLevelReset_shape fn s h)
  | hostLinkDown p => exact grows_of_shape (execHostLinkDown_shape p s h)
  | hostLinkReturn p => exact grows_of_shape (execHostLinkReturn_shape p s h)
  | hostLinkHoldTimeout p => exact grows_of_shape (execHostLinkHoldTimeout_shape p s h)
  | hostPortRetrain p ok => exact grows_of_shape (execHostPortRetrain_shape p ok s h)
  | cableInsert cage answers powerOk => exact grows_of_shape (execCableInsert_shape cage answers powerOk s h)
  | sensorSample r => exact grows_of_shape (execSensorSample_shape r s h)
  | coolantStopClear => exact grows_of_shape (execCoolantStopClear_shape s h)
  | thermalModelUpdate => exact grows_of_shape (execThermalModelUpdate_shape s h)
  | thermalDrainTimeout part => exact grows_of_shape (execThermalDrainTimeout_shape part s h)
  | thermalHoldRelease part => exact grows_of_shape (execThermalHoldRelease_shape part s h)
  | capFactorUpdate => exact grows_of_shape (execCapFactorUpdate_shape s h)
  | powerWindow part mw => exact grows_of_shape (execPowerWindow_shape part mw s h)
  | flowEstimateUpdate pin pcis => exact grows_of_shape (execFlowEstimateUpdate_shape pin pcis s h)
  | flowBandRaise => exact grows_of_shape (execFlowBandRaise_shape s h)
  | pathResistanceSample field points mA => exact grows_of_shape (execPathResistanceSample_shape field points mA s h)
  | domainRampStart field vcoreHeadroom vanaHeadroom => exact grows_of_shape (execDomainRampStart_shape field vcoreHeadroom vanaHeadroom s h)
  | rampHeadroomTimeout field => exact grows_of_shape (execRampHeadroomTimeout_shape field s h)
  | domainRampDone field => exact grows_of_shape (execDomainRampDone_shape field s h)
  | lanternTimeAcquired l => exact grows_of_shape (execLanternTimeAcquired_shape l s h)
  | domainOffAfterWork field => exact grows_of_shape (execDomainOffAfterWork_shape field s h)
  | vcoreVoltageStep field => exact grows_of_shape (execVcoreVoltageStep_shape field s h)
  | timeBaseBroadcast => exact grows_of_shape (execTimeBaseBroadcast_shape s h)
  | vaonGood => exact execVaonGood_grows s h
  | romSelftestDone pass => exact grows_of_shape (execRomSelftestDone_shape pass s h)
  | lamplighterFwStart => exact grows_of_shape (execLamplighterFwStart_shape s h)
  | firmwareMeasured aOk bOk => exact grows_of_shape (execFirmwareMeasured_shape aOk bOk s h)
  | hostLinkTrained p ok => exact grows_of_shape (execHostLinkTrained_shape p ok s h)
  | cisternTrainingDone failed => exact grows_of_shape (execCisternTrainingDone_shape failed s h)
  | calibrationReconcile => exact grows_of_shape (execCalibrationReconcile_shape s h)
  | fieldSelfTestDone badRouters badIslands => exact grows_of_shape (execFieldSelfTestDone_shape badRouters badIslands s h)
  | neighbourTestDone votes => exact grows_of_shape (execNeighbourTestDone_shape votes s h)
  | repairMapApply => exact grows_of_shape (execRepairMapApply_shape s h)
  | retentionCheckDone event => exact grows_of_shape (execRetentionCheckDone_shape event s h)
  | dormantRecordCheck => exact grows_of_shape (execDormantRecordCheck_shape s h)
  | readyAssert => exact grows_of_shape (execReadyAssert_shape s h)
  | spdmGetVersion ep => exact grows_of_shape (execSpdmGetVersion_shape ep s h)
  | spdmGetCapabilities ep => exact grows_of_shape (execSpdmGetCapabilities_shape ep s h)
  | spdmNegotiateAlgorithms ep => exact grows_of_shape (execSpdmNegotiateAlgorithms_shape ep s h)
  | spdmGetDigests ep => exact grows_of_shape (execSpdmGetDigests_shape ep s h)
  | spdmGetCertificate ep slot => exact grows_of_shape (execSpdmGetCertificate_shape ep slot s h)
  | spdmChallenge ep slot nonce => exact grows_of_shape (execSpdmChallenge_shape ep slot nonce s h)
  | spdmGetMeasurements ep index sign => exact grows_of_shape (execSpdmGetMeasurements_shape ep index sign s h)
  | spdmKeyExchange ep reqSession => exact grows_of_shape (execSpdmKeyExchange_shape ep reqSession s h)
  | spdmFinish ep session ok => exact grows_of_shape (execSpdmFinish_shape ep session ok s h)
  | spdmHeartbeat ep session => exact grows_of_shape (execSpdmHeartbeat_shape ep session s h)
  | spdmKeyUpdate ep session => exact grows_of_shape (execSpdmKeyUpdate_shape ep session s h)
  | spdmEndSession ep session => exact grows_of_shape (execSpdmEndSession_shape ep session s h)
  | spdmUnsupportedRequest ep code => exact grows_of_shape (execSpdmUnsupportedRequest_shape ep code s h)
  | pldmFirmwareUpdate image => exact grows_of_shape (execPldmFirmwareUpdate_shape image s h)
  | coolantKind v => exact grows_of_shape (execCoolantKind_shape v s h)
  | pldmEventAck mask => exact grows_of_shape (execPldmEventAck_shape mask s h)
  | dynamicAddressAssign addr => exact grows_of_shape (execDynamicAddressAssign_shape addr s h)
  | rstdaa => exact grows_of_shape (execRstdaa_shape s h)
  | thermTripRelease => exact grows_of_shape (execThermTripRelease_shape s h)
  | rimFunctionLost tile => exact grows_of_shape (execRimFunctionLost_shape tile s h)
  | phaseUpdateDone ok => exact grows_of_shape (execPhaseUpdateDone_shape ok s h)
  | jtagInstruction op => exact grows_of_shape (execJtagInstruction_shape op s h)
  | zendenActivateNotice z => exact grows_of_shape (execZendenActivateNotice_shape z s h)
  | refreshWindowEnd part => exact grows_of_shape (execRefreshWindowEnd_shape part s h)
  | powerDownRestart => exact grows_of_shape (execPowerDownRestart_shape s h)

theorem exec_partsOk {c : Instr} {s t : State} (hs : PartsOk s) (h : exec c s = .next t) : PartsOk t := by
  by_cases hc : ∃ e, c = .partCreate e
  · obtain ⟨e, rfl⟩ := hc
    exact exec_partCreate_partsOk hs h
  · exact partsOk_of_grows hs (exec_grows (fun e he => hc ⟨e, he⟩) h)

/-- A nanosecond leaves the partitions' rectangles (08 R239). -/
theorem idle_partsOk {s : State} (hs : PartsOk s) : PartsOk (idle s) := by
  unfold idle
  split
  · exact hs
  · have hmoved : PartsOk (zTick (feedAll (movePages (forEach (s.lanterns.map (·.1)) (tickLantern (nowNs s)) (moveCopies s))))) := partsOk_of_shape hs (by
      rw [zTick_shape, feedAll_shape, movePages_shape, forEach_shape _ _ _ fun l s => tickLantern_shape _ l s, moveCopies_shape])
    exact ⟨hmoved.number, hmoved.rect, hmoved.apart⟩

/-- Settles O6: a step is a command on the queue's rest or a nanosecond, and each keeps sound partitions sound. -/
theorem partitionsStayApart : Obligations.PartitionsStayApart := by
  unfold Obligations.PartitionsStayApart
  intro s t hs h
  unfold step at h
  split at h
  · exact Host.Outcome.next.inj h ▸ idle_partsOk hs
  · next c rest _ =>
    have hrest : PartsOk { s with pending := rest } := ⟨hs.number, hs.rect, hs.apart⟩
    exact exec_partsOk hrest h

end Sys2Proof.Apart
end

section
/-!
PROOFS. The commands on the module: IDENTIFY, TELEMETRY_READ, PART_QUERY, queue pairs, rings, counters, spares and the lanterns outside every partition
(01 R18; 08 R259; 09 R263, R273; 11 R360; 13 R391, R397, R407 to R409). For each: its checks pass or fail at one byte, and its body is then computed.
-/

open Sys2Proof Sys2Proof.Machine

namespace Sys2Proof.ModuleCommands

open Sys2Proof.Take

variable {e : Entry} {q : Qp} {s : State}

/-! ## IDENTIFY (13 R407) -/

section
variable (hf : Fetches e q s) (hc : Clean e true [(20, 1)]) (hl : dlenOf e = 4096)
include hf hc hl

theorem exec_identify_module (hw : pf e 20 1 = 0) (hp : partFree e = false) :
    exec (.identify e) s = .next (answered e q 0 0 0 (writeOut e (padTo 4096 (identifyModule (fetched e q s))) (fetched e q s))) := by
  refine taken_answers hf ?_
  unfold identify
  dsimp only
  rw [fieldsThen_none _ (entryFault_none hc (by simp [hl]) (by simp [hw, hp])), if_pos hw]
  rfl

theorem exec_identify_function (hw : pf e 20 1 = 1) (hp : partFree e = false) :
    exec (.identify e) s = .next (answered e q 0 0 0 (writeOut e (padTo 4096 (identifyFunction (fetched e q s) e.fn)) (fetched e q s))) := by
  refine taken_answers hf ?_
  unfold identify
  dsimp only
  rw [fieldsThen_none _ (entryFault_none hc (by simp [hl]) (by simp [hw, hp])), if_neg (by omega), if_pos hw]
  rfl

theorem exec_identify_partition {p : Partition} (hw : pf e 20 1 = 2) (hi : isPf e = true ∨ isBound s e = true) (hn : partNo e < 16)
    (hp : getPart s (partNo e) = some p) :
    exec (.identify e) s = .next (answered e q 0 0 0 (writeOut e (padTo 4096 (configItem (fetched e q s) (partNo e) p)) (fetched e q s))) := by
  have hi' : (!isPf e && !isBound s e) = false := by rcases hi with h | h <;> simp [h]
  refine taken_answers hf ?_
  unfold identify
  dsimp only
  rw [fieldsThen_none _ (entryFault_none hc (by simp [hl]) (by simp [hw])), if_neg (by omega), if_neg (by omega), isBound_fetched, hi',
    if_neg Bool.false_ne_true, if_neg (Nat.not_le.2 hn), getPart_fetched, hp]
  rfl

theorem exec_identify_unlisted (hw : 3 ≤ pf e 20 1) (hp : partFree e = false) : exec (.identify e) s = .next (answered e q 0x02 0 20 (fetched e q s)) := by
  refine taken_answers hf ?_
  unfold identify
  dsimp only
  rw [fieldsThen_some _ (entryFault_some (k := 20) hc (by simp [hl]) (by simp; omega) (by simp [hp]))]
  rfl

theorem exec_identify_noPart (hw : pf e 20 1 ≠ 2) (hp : partFree e = true) : exec (.identify e) s = .next (answered e q 0x02 0 4 (fetched e q s)) := by
  refine taken_answers hf ?_
  unfold identify
  dsimp only
  rw [fieldsThen_some _ (entryFault_some (k := 4) hc (by simp [hl]) (by simp [hp, hw]) (by simp))]
  rfl

end

/-! ## Queue pairs (09 R263, R273) -/

/-- The fields of QP_CREATE lie in their ranges. -/
structure QpFields (e : Entry) : Prop where
  clean : Clean e false [(20, 10), (32, 16)]
  len : dlenOf e = 0
  qid : 1 ≤ pf e 20 2 ∧ pf e 20 2 ≤ 63
  sq : 1 ≤ pf e 22 2 ∧ pf e 22 2 ≤ 4095
  cq : 1 ≤ pf e 24 2 ∧ pf e 24 2 ≤ 4095
  vector : pf e 26 1 = 255 ∨ pf e 26 1 ≤ 63
  sqBase : pf e 32 8 % 4096 = 0
  cqBase : pf e 40 8 % 4096 = 0

theorem QpFields.pass (h : QpFields e) :
    entryFault e false [(20, 10), (32, 16)] (dlenOf e != 0)
      [(20, pf e 20 2 == 0 || decide (63 < pf e 20 2)), (22, pf e 22 2 == 0 || decide (4095 < pf e 22 2)), (24, pf e 24 2 == 0 || decide (4095 < pf e 24 2)),
        (26, pf e 26 1 != 255 && decide (63 < pf e 26 1)), (32, pf e 32 8 % 4096 != 0), (40, pf e 40 8 % 4096 != 0)] = none := by
  obtain ⟨hc, hl, hqid, hsq, hcq, hv, hsb, hcb⟩ := h
  refine entryFault_none hc (by simp [hl]) ?_
  simp only [List.forall_mem_cons, Bool.or_eq_false_iff, Bool.and_eq_false_iff, beq_eq_false_iff_ne, bne_eq_false_iff_eq, decide_eq_false_iff_not, hsb, hcb]
  exact ⟨by omega, by omega, by omega, by omega, trivial, trivial, by simp⟩

theorem exec_qpCreate_new (hf : Fetches e q s) (h : QpFields e) (hq : getQp s e.fn (pf e 20 2) = none) :
    exec (.qpCreate e) s = .next (answered e q 0 0 0 (setQp (fetched e q s) e.fn (pf e 20 2)
      (some ⟨pf e 32 8, pf e 22 2 + 1, 0, 0, pf e 40 8, pf e 24 2 + 1, 0, 0, true, { vector := pf e 26 1, count := pf e 27 1, time := pf e 28 2 }, [], 0, false⟩))) := by
  refine taken_answers hf ?_
  unfold qpCreate
  dsimp only
  rw [fieldsThen_none _ h.pass, isSome_getQp_fetched hf.queue, hq]
  rfl

theorem exec_qpCreate_duplicate (hf : Fetches e q s) (h : QpFields e) (hq : (getQp s e.fn (pf e 20 2)).isSome = true) :
    exec (.qpCreate e) s = .next (answered e q 0x0C 0 0 (fetched e q s)) := by
  refine taken_answers hf ?_
  unfold qpCreate
  dsimp only
  rw [fieldsThen_none _ h.pass, isSome_getQp_fetched hf.queue, hq]
  rfl

section
variable (hf : Fetches e q s) (hc : Clean e false [(20, 2)]) (hl : dlenOf e = 0) (hqid : pf e 20 2 ≤ 63)
include hf hc hl hqid

theorem exec_qpDelete_some {x : Qp} (hx : getQp (fetched e q s) e.fn (pf e 20 2) = some x) :
    exec (.qpDelete e) s = .next (awaited e q (.qpDelete (pf e 20 2))
      (setQp (fetched e q s) e.fn (pf e 20 2) (some { x with deleting := true, sqTail := x.sqHead }))) := by
  refine taken_waits hf ?_
  unfold qpDelete startDelete
  dsimp only
  rw [fieldsThen_none _ (entryFault_none hc (by simp [hl]) (by simpa using hqid)), hx]
  rfl

theorem exec_qpDelete_none (hx : getQp s e.fn (pf e 20 2) = none) : exec (.qpDelete e) s = .next (answered e q 0x0D 0 0 (fetched e q s)) := by
  have hnone : (getQp (fetched e q s) e.fn (pf e 20 2)).isNone = true := by
    rw [Option.isNone_iff_eq_none, ← Option.not_isSome_iff_eq_none, isSome_getQp_fetched hf.queue, hx]
    decide
  refine taken_answers hf ?_
  unfold qpDelete
  dsimp only
  rw [fieldsThen_none _ (entryFault_none hc (by simp [hl]) (by simpa using hqid)), hnone]
  rfl

end

/-! ## Rings and spares (08 R259; 01 R18) -/

theorem exec_ringForm_starts (hf : Fetches e q s) (hpf : isPf e = true) (hc : Clean e false []) (hl : dlenOf e = 0) :
    exec (.ringForm e) s = .next (awaited e q .ringForm { fetched e q s with ring := { s.ring with
      forming := some (nowNs s), taken := none, formed := false, index := 0, size := 0, lost := none, bypass := false, chain := false, sent := s.ring.sent ++ [(0, 0)] } }) := by
  refine taken_waits hf ?_
  unfold ringFormCmd
  rw [pfCmd_of_isPf _ hpf, fieldsThen_none _ (entryFault_none hc (by simp [hl]) (by simp))]
  rfl

section
variable (hf : Fetches e q s) (hpf : isPf e = true) (hc : Clean e false [(20, 1)]) (hl : dlenOf e = 0)
include hf hpf hc hl

theorem exec_ringMode_sets (hm : pf e 20 1 ≤ 2) :
    exec (.ringMode e) s = .next (answered e q 0 0 0 { fetched e q s with ring := { s.ring with mode := pf e 20 1 } }) := by
  refine taken_answers hf ?_
  unfold ringModeCmd
  dsimp only
  rw [pfCmd_of_isPf _ hpf, fieldsThen_none _ (entryFault_none hc (by simp [hl]) (by simpa using hm))]
  rfl

theorem exec_setSpares_sets (hm : pf e 20 1 ≤ 2) : exec (.setSpares e) s = .next (answered e q 0 0 0 { fetched e q s with sparesNext := pf e 20 1 }) := by
  refine taken_answers hf ?_
  unfold setSparesCmd
  dsimp only
  rw [pfCmd_of_isPf _ hpf, fieldsThen_none _ (entryFault_none hc (by simp [hl]) (by simpa using hm))]
  rfl

theorem exec_ringMode_range (hm : 3 ≤ pf e 20 1) : exec (.ringMode e) s = .next (answered e q 0x02 0 20 (fetched e q s)) := by
  refine taken_answers hf ?_
  unfold ringModeCmd
  dsimp only
  rw [pfCmd_of_isPf _ hpf, fieldsThen_some _ (entryFault_some (k := 20) hc (by simp [hl]) (by simp; omega) (by simp))]
  rfl

theorem exec_setSpares_range (hm : 3 ≤ pf e 20 1) : exec (.setSpares e) s = .next (answered e q 0x02 0 20 (fetched e q s)) := by
  refine taken_answers hf ?_
  unfold setSparesCmd
  dsimp only
  rw [pfCmd_of_isPf _ hpf, fieldsThen_some _ (entryFault_some (k := 20) hc (by simp [hl]) (by simp; omega) (by simp))]
  rfl

end

/-! ## TELEMETRY_READ and PART_QUERY (13 R408, R409) -/

/-- An item that is listed, for a unit of it, which the function may read, with the PART that it takes. -/
structure Readable (s : State) (e : Entry) : Prop where
  clean : Clean e true [(20, 4)]
  listed : itemListed (pf e 20 2) = true
  unit : itemUnitOk (pf e 20 2) (pf e 22 2) = true
  permit : itemPermit s e (pf e 20 2) (pf e 22 2) = true
  part : if pf e 20 2 = 0x20 ∨ pf e 20 2 = 0x21 then partNo e < 16 else partFree e = false

theorem Readable.pass (h : Readable s e) :
    entryFault e true [(20, 4)] false [(4, pf e 20 2 != 0x20 && pf e 20 2 != 0x21 && partFree e), (20, !itemListed (pf e 20 2)),
      (22, itemListed (pf e 20 2) && !itemUnitOk (pf e 20 2) (pf e 22 2))] = none := by
  obtain ⟨hc, hlist, hunit, -, hpart⟩ := h
  have hfree : (pf e 20 2 != 0x20 && pf e 20 2 != 0x21 && partFree e) = false := by
    split at hpart
    · next hi => rcases hi with hi | hi <;> simp [hi]
    · simp [hpart]
  exact entryFault_none hc rfl (by simp [hfree, hlist, hunit])

theorem telemetryRead_readable (h : Readable s e) {bs : List Byte} (hb : itemBytes (fetched e q s) e (pf e 20 2) (pf e 22 2) = some bs) :
    telemetryRead e (fetched e q s)
      = if dlenOf e < bs.length then (fetched e q s, some { status := stField, result := bs.length * 2 ^ 32, detail := 16 })
        else doneWith (bs.length + bs.length * 2 ^ 32) (writeOut e bs (fetched e q s)) := by
  have hpermit : itemPermit (fetched e q s) e (pf e 20 2) (pf e 22 2) = true := h.permit
  have hpart : ¬ ((pf e 20 2 = 0x20 ∨ pf e 20 2 = 0x21) ∧ 16 ≤ partNo e) := fun ⟨hi, hn⟩ => by
    have := h.part
    rw [if_pos hi] at this
    omega
  unfold telemetryRead
  dsimp only
  rw [fieldsThen_none _ h.pass, hpermit, if_neg (by decide), if_neg hpart, hb]

theorem exec_telemetryRead_whole (hf : Fetches e q s) (h : Readable s e) {bs : List Byte} (hb : itemBytes (fetched e q s) e (pf e 20 2) (pf e 22 2) = some bs)
    (hl : bs.length ≤ dlenOf e) :
    exec (.telemetryRead e) s = .next (answered e q 0 (bs.length + bs.length * 2 ^ 32) 0 (writeOut e bs (fetched e q s))) :=
  taken_answers hf ((telemetryRead_readable h hb).trans (if_neg (Nat.not_lt.2 hl)))

theorem exec_telemetryRead_short (hf : Fetches e q s) (h : Readable s e) {bs : List Byte} (hb : itemBytes (fetched e q s) e (pf e 20 2) (pf e 22 2) = some bs)
    (hl : dlenOf e < bs.length) : exec (.telemetryRead e) s = .next (answered e q 0x02 (bs.length * 2 ^ 32) 16 (fetched e q s)) :=
  taken_answers hf ((telemetryRead_readable h hb).trans (if_pos hl))

theorem exec_partQuery_writes (hf : Fetches e q s) {p : Partition} (hi : isPf e = true ∨ isBound s e = true) (hn : partNo e < 16)
    (hp : getPart s (partNo e) = some p) (hc : Clean e true []) (hl : dlenOf e = 4096) :
    exec (.partQuery e) s = .next (answered e q 0 0 0 (writeOut e (partItem (fetched e q s) (partNo e) p) (fetched e q s))) := by
  refine taken_answers hf ?_
  unfold partQuery
  rw [partCmd_fetched _ (mayIssue_pfBound hi) hn hp rfl, fieldsThen_none _ (entryFault_none hc (by simp [hl]) (by simp))]
  rfl

/-! ## Event rings (13 R397) -/

section
variable (hf : Fetches e q s) (hc : Clean e false [(20, 16)]) (hl : dlenOf e = 0)
include hf hc hl

theorem exec_eventRingSet_sets (ha : pf e 20 1 = 0) (hv : pf e 21 1 = 255 ∨ pf e 21 1 ≤ 63) (hlog : 6 ≤ pf e 22 1 ∧ pf e 22 1 ≤ 16) (hsev : pf e 23 1 ≤ 5)
    (hbase : pf e 24 8 % 4096 = 0) :
    exec (.eventRingSet e) s = .next (answered e q 0 0 0 (drainFn (updFn (fetched e q s) e.fn (fun f => { f with
      ring := some ⟨pf e 24 8, pf e 22 1, pf e 23 1, 0, 0, { vector := pf e 21 1, count := pf e 32 2, time := pf e 34 2 }⟩ })) e.fn)) := by
  have hpass : ∀ c ∈ [(20, decide (1 < pf e 20 1)), (21, pf e 21 1 != 255 && decide (63 < pf e 21 1)), (22, decide (pf e 22 1 < 6) || decide (16 < pf e 22 1)),
      (23, decide (5 < pf e 23 1)), (24, pf e 24 8 % 4096 != 0)], c.2 = false := by
    simp only [List.forall_mem_cons, Bool.or_eq_false_iff, Bool.and_eq_false_iff, bne_eq_false_iff_eq, decide_eq_false_iff_not, hbase]
    exact ⟨by omega, by omega, by omega, by omega, trivial, by simp⟩
  refine taken_answers hf ?_
  unfold eventRingSet
  dsimp only
  rw [if_pos ha, fieldsThen_none _ (entryFault_none hc (by simp [hl]) hpass), if_neg (by omega)]
  rfl

theorem exec_eventRingSet_clears (ha : pf e 20 1 = 1) :
    exec (.eventRingSet e) s = .next (answered e q 0 0 0 (updFn (fetched e q s) e.fn (fun f => { f with ring := none }))) := by
  refine taken_answers hf ?_
  unfold eventRingSet
  dsimp only
  rw [fieldsThen_none _ (entryFault_none hc (by simp [hl]) (by simp [ha])), if_pos ha]
  rfl

end

/-! ## COUNTER_SELECT (13 R391) -/

theorem selectAt_now (m : SMap Counter) (i src c : Nat) :
    selectAt m i src (decide (c = 1)) true = tupd {} m i (fun x => ⟨if c = 1 then 0 else x.count, src, none⟩) := by
  by_cases h : c = 1 <;> simp [selectAt, counterNow, h]

theorem selectAt_next (m : SMap Counter) (i src c : Nat) :
    selectAt m i src (decide (c = 1)) false = tupd {} m i (fun x => { x with next := some (src, decide (c = 1)) }) := rfl

theorem settleIdle_running {n : Nat} {p : Partition} {t : State} (hp : getPart t n = some p) (hr : p.running = true) : settleIdle n t = t := by
  unfold settleIdle
  rw [hp]
  exact if_pos hr

theorem unitPart_selectUnit (kind i src : Nat) (clr : Bool) (u : Nat) (t : State) : unitPart (selectUnit kind i src clr u t) kind u = unitPart t kind u := by
  unfold selectUnit unitPart
  split <;> rfl

theorem settleIdle_setPart_running (n : Nat) {p : Partition} (t : State) (hr : p.running = true) :
    settleIdle n (setPart t n (some p)) = setPart t n (some p) := settleIdle_running (getPart_setPart_same ..) hr

/-- COUNTER_SELECT of the PF with a clean entry. -/
structure Selects (e : Entry) : Prop where
  isPf : isPf e = true
  clean : Clean e true [(20, 6)]
  len : dlenOf e = 0
  clear : pf e 25 1 ≤ 1

section
variable (h : Selects e)
include h

theorem Selects.pass {part kind i u src : Bool} (h1 : part = false) (h2 : kind = false) (h3 : i = false) (h4 : u = false) (h5 : src = false) :
    entryFault e true [(20, 6)] (dlenOf e != 0) [(4, part), (20, kind), (21, i), (22, u), (24, src), (25, decide (1 < pf e 25 1))] = none :=
  entryFault_none h.clean (by simp [h.len]) (by simp [h1, h2, h3, h4, h5, h.clear])

/-- A counter of one lantern or field: its source is selected, and what waits for a boundary is settled in the partition that holds it. -/
theorem counterSelect_unit (t : State) (hp : partFree e = false) (hk : pf e 20 1 ≤ 1) (hi : pf e 21 1 < 8) (hu : pf e 22 2 < if pf e 20 1 = 0 then 1600 else 100)
    (hsrc : (if pf e 20 1 = 0 then sourceL (pf e 24 1) else sourceF (pf e 24 1)) = true) {S : State}
    (hS : selectUnit (pf e 20 1) (pf e 21 1) (pf e 24 1) (decide (pf e 25 1 = 1)) (pf e 22 2) t = S) :
    counterSelect e t = done ((unitPart t (pf e 20 1) (pf e 22 2)).elim S (fun n => settleIdle n S)) := by
  have hown := unitPart_selectUnit (pf e 20 1) (pf e 21 1) (pf e 24 1) (decide (pf e 25 1 = 1)) (pf e 22 2) t
  rw [hS] at hown
  have hne : pf e 22 2 ≠ 0xFFFF := by split at hu <;> omega
  have hnamed : (pf e 20 1 == 3 || pf e 20 1 != 2 && pf e 22 2 == 0xFFFF) = false := by
    simp only [Bool.or_eq_false_iff, Bool.and_eq_false_iff, beq_eq_false_iff_ne]
    omega
  have hunits : forEach (selectUnits t (pf e 20 1) (pf e 22 2) (partNo e)) (selectUnit (pf e 20 1) (pf e 21 1) (pf e 24 1) (decide (pf e 25 1 = 1))) t = S := by
    unfold selectUnits
    rw [if_pos hne]
    exact hS
  unfold counterSelect
  dsimp only
  simp only [hnamed, h.isPf, Bool.not_true, Bool.false_and, if_neg Bool.false_ne_true]
  rw [fieldsThen_none _ (h.pass hp ?_ ?_ ?_ ?_)]
  · rw [if_neg (by omega), if_neg (by omega), hunits, hown]
    cases unitPart t (pf e 20 1) (pf e 22 2) <;> rfl
  · simpa using hk.trans (by decide)
  · rw [if_neg (by omega)]; simpa using hi
  · split at hu
    · next h0 => simp [h0, hu]
    · next => simp [show pf e 20 1 = 1 by omega, hu]
  · split at hsrc
    · next h0 => simp [h0, hsrc]
    · next => simp [show pf e 20 1 = 1 by omega, hsrc]

/-- A counter of a rim tile, which belongs to no partition. -/
theorem counterSelect_tile (t : State) (hp : partFree e = false) (hk : pf e 20 1 = 2) (hi : pf e 21 1 < 8) (hu : pf e 22 2 < 40) (hsrc : sourceR (pf e 24 1) = true) :
    counterSelect e t = done (updT t (pf e 22 2) (fun T => { T with counters := selectAt T.counters (pf e 21 1) (pf e 24 1) (decide (pf e 25 1 = 1)) true })) := by
  unfold counterSelect
  simp only [hk, h.isPf, Bool.not_true, Bool.false_and, if_neg Bool.false_ne_true]
  rw [fieldsThen_none _ (h.pass ?_ ?_ ?_ ?_ ?_)]
  · rfl
  · exact hp
  · decide
  · simpa using hi
  · simpa using hu
  · simpa using hsrc

/-- An aggregated counter of a partition. -/
theorem counterSelect_part (t : State) {p : Partition} (hk : pf e 20 1 = 3) (hi : pf e 21 1 < 64) (hu : pf e 22 2 = 0)
    (hsrc : (sourceL (pf e 24 1) || sourceF (pf e 24 1)) = true) (hn : partNo e < 16) (hp : getPart t (partNo e) = some p) :
    counterSelect e t = done (settleIdle (partNo e) (setPart t (partNo e) (some { p with
      counters := selectAt p.counters (pf e 21 1) (pf e 24 1) (decide (pf e 25 1 = 1)) false }))) := by
  unfold counterSelect
  simp only [hk, hu, h.isPf, Bool.not_true, Bool.false_and, if_neg Bool.false_ne_true]
  rw [fieldsThen_none _ (h.pass ?_ ?_ ?_ ?_ ?_)]
  · rw [hp, updPart_some _ _ hp]; rfl
  · simpa using hn
  · decide
  · simpa using hi
  · decide
  · show (!(sourceL _ || sourceF _)) = false
    rw [hsrc]; rfl

end

section
variable (hf : Fetches e q s) (h : Selects e)
include hf h

theorem exec_counterSelect_unit (hp : partFree e = false) (hk : pf e 20 1 ≤ 1) (hi : pf e 21 1 < 8) (hu : pf e 22 2 < if pf e 20 1 = 0 then 1600 else 100)
    (hsrc : (if pf e 20 1 = 0 then sourceL (pf e 24 1) else sourceF (pf e 24 1)) = true) {S : State}
    (hS : selectUnit (pf e 20 1) (pf e 21 1) (pf e 24 1) (decide (pf e 25 1 = 1)) (pf e 22 2) (fetched e q s) = S)
    (hown : ∀ n, unitPart s (pf e 20 1) (pf e 22 2) = some n → ∃ p, getPart S n = some p ∧ p.running = true) :
    exec (.counterSelect e) s = .next (answered e q 0 0 0 S) := by
  have hset : (unitPart (fetched e q s) (pf e 20 1) (pf e 22 2)).elim S (fun n => settleIdle n S) = S := by
    cases hn : unitPart s (pf e 20 1) (pf e 22 2) with
    | none => rw [show unitPart (fetched e q s) _ _ = _ from hn]; rfl
    | some n =>
      obtain ⟨p, hp, hr⟩ := hown n hn
      rw [show unitPart (fetched e q s) _ _ = _ from hn]
      exact settleIdle_running hp hr
  refine taken_answers hf ?_
  rw [counterSelect_unit h _ hp hk hi hu hsrc hS, hset]
  rfl

theorem exec_counterSelect_lantern_now (hp : partFree e = false) (hk : pf e 20 1 = 0) (hi : pf e 21 1 < 8) (hu : pf e 22 2 < 1600)
    (hsrc : sourceL (pf e 24 1) = true) (hown : partOf s (pf e 22 2) = none) :
    exec (.counterSelect e) s = .next (answered e q 0 0 0 (updL (fetched e q s) (pf e 22 2) (fun L => { L with
      counters := tupd {} L.counters (pf e 21 1) (fun c => ⟨if pf e 25 1 = 1 then 0 else c.count, pf e 24 1, none⟩) }))) := by
  refine exec_counterSelect_unit hf h hp (by omega) hi (by rw [if_pos hk]; exact hu) (by rw [if_pos hk]; exact hsrc) ?_ fun n hn => ?_
  · simp only [hk, ← selectAt_now]
    exact congrArg (fun b : Bool => updL (fetched e q s) (pf e 22 2) (fun L => { L with
      counters := selectAt L.counters (pf e 21 1) (pf e 24 1) (decide (pf e 25 1 = 1)) b })) (congrArg Option.isNone hown)
  · rw [hk] at hn
    exact absurd (hown.symm.trans hn) (by simp)

theorem exec_counterSelect_lantern_next (hp : partFree e = false) (hk : pf e 20 1 = 0) (hi : pf e 21 1 < 8) (hu : pf e 22 2 < 1600)
    (hsrc : sourceL (pf e 24 1) = true) {n : Nat} {p : Partition} (hown : partOf s (pf e 22 2) = some n) (hpart : getPart s n = some p) (hr : p.running = true) :
    exec (.counterSelect e) s = .next (answered e q 0 0 0 (updL (fetched e q s) (pf e 22 2) (fun L => { L with
      counters := tupd {} L.counters (pf e 21 1) (fun c => { c with next := some (pf e 24 1, decide (pf e 25 1 = 1)) }) }))) := by
  refine exec_counterSelect_unit hf h hp (by omega) hi (by rw [if_pos hk]; exact hu) (by rw [if_pos hk]; exact hsrc) ?_ fun m hm => ?_
  · simp only [hk, ← selectAt_next]
    exact congrArg (fun b : Bool => updL (fetched e q s) (pf e 22 2) (fun L => { L with
      counters := selectAt L.counters (pf e 21 1) (pf e 24 1) (decide (pf e 25 1 = 1)) b })) (congrArg Option.isNone hown)
  · rw [hk] at hm
    obtain rfl := Option.some.inj (hown.symm.trans hm)
    exact ⟨p, hpart, hr⟩

theorem exec_counterSelect_field_now (hp : partFree e = false) (hk : pf e 20 1 = 1) (hi : pf e 21 1 < 8) (hu : pf e 22 2 < 100)
    (hsrc : sourceF (pf e 24 1) = true) (hown : partOfField s (pf e 22 2) = none) :
    exec (.counterSelect e) s = .next (answered e q 0 0 0 (updF (fetched e q s) (pf e 22 2) (fun T => { T with
      counters := tupd {} T.counters (pf e 21 1) (fun c => ⟨if pf e 25 1 = 1 then 0 else c.count, pf e 24 1, none⟩) }))) := by
  have hne : pf e 20 1 ≠ 0 := by omega
  refine exec_counterSelect_unit hf h hp (by omega) hi (by rw [if_neg hne]; exact hu) (by rw [if_neg hne]; exact hsrc) ?_ fun n hn => ?_
  · simp only [hk, ← selectAt_now]
    exact congrArg (fun b : Bool => updF (fetched e q s) (pf e 22 2) (fun T => { T with
      counters := selectAt T.counters (pf e 21 1) (pf e 24 1) (decide (pf e 25 1 = 1)) b })) (congrArg Option.isNone hown)
  · rw [hk] at hn
    exact absurd (hown.symm.trans hn) (by simp)

theorem exec_counterSelect_tile (hp : partFree e = false) (hk : pf e 20 1 = 2) (hi : pf e 21 1 < 8) (hu : pf e 22 2 < 40) (hsrc : sourceR (pf e 24 1) = true) :
    exec (.counterSelect e) s = .next (answered e q 0 0 0 (updT (fetched e q s) (pf e 22 2) (fun T => { T with
      counters := tupd {} T.counters (pf e 21 1) (fun c => ⟨if pf e 25 1 = 1 then 0 else c.count, pf e 24 1, none⟩) }))) := by
  simp only [← selectAt_now]
  exact taken_answers hf (counterSelect_tile h _ hp hk hi hu hsrc)

theorem exec_counterSelect_part {p : Partition} (hk : pf e 20 1 = 3) (hi : pf e 21 1 < 64) (hu : pf e 22 2 = 0)
    (hsrc : (sourceL (pf e 24 1) || sourceF (pf e 24 1)) = true) (hn : partNo e < 16) (hp : getPart s (partNo e) = some p) (hr : p.running = true) :
    exec (.counterSelect e) s = .next (answered e q 0 0 0 (setPart (fetched e q s) (partNo e) (some { p with
      counters := tupd {} p.counters (pf e 21 1) (fun c => { c with next := some (pf e 24 1, decide (pf e 25 1 = 1)) }) }))) := by
  refine taken_answers hf ?_
  exact (counterSelect_part h (fetched e q s) hk hi hu hsrc hn hp).trans (congrArg done (settleIdle_setPart_running _ _ hr))

end

/-! ## RECALIBRATE of lanterns (11 R360; 01 R30) -/

/-- The lanterns that are on, measured now under the next SETID. -/
def recalibrated (ls : List Nat) (t : State) : State := forEach (ls.filter (fun l => (getL t l).on)) (recalLantern (nextSetid 3 t)) (takeSetid t)

/-- Those that are off get their domains, and are measured then. -/
def recalWaits (ls : List Nat) (t : State) : State :=
  forEach (ls.filter (fun l => !(getL t l).on)) (fun l s => needForWork { s with recal := s.recal ++ [(l, nextSetid 3 t)] } l) (holdShown t (recalibrated ls t))

/-- RESULT of a recalibration of offsets: how many arrays, and the sequence number of the SETID. -/
def recalResult (ls : List Nat) (t : State) : Nat := goodArrays t ls + (t.setSeq + 1) % 2 ^ 24 * 2 ^ 32

theorem recalResult_fetched (ls : List Nat) :
    recalResult ls (fetched e q s) = goodArrays (fetched e q s) ls + (s.setSeq + 1) % 2 ^ 24 * 2 ^ 32 := by
  unfold recalResult
  rw [show (fetched e q s).setSeq = s.setSeq from rfl]

theorem recalOffsets_allOn {ls : List Nat} {t : State} (hd : ls.filter (fun l => !(getL t l).on) = []) (h : Nat) :
    recalOffsets e h ls t = doneWith (recalResult ls t) (recalibrated ls t) :=
  if_pos (show (ls.filter (fun l => !(getL t l).on)).isEmpty = true by rw [hd]; rfl)

theorem recalOffsets_someOff {ls : List Nat} {t : State} (hd : ls.filter (fun l => !(getL t l).on) ≠ []) (h : Nat) :
    recalOffsets e h ls t = later (waitFor e h (.recal (recalResult ls t)) (recalWaits ls t)) :=
  if_neg (show ¬ (ls.filter (fun l => !(getL t l).on)).isEmpty = true by rwa [List.isEmpty_iff])

section
variable (hf : Fetches e q s) (hpf : isPf e = true) (hn : partNo e = 255) (hk : pf e 20 1 = 0) (hc : Clean e true [(20, 1)]) (hl : dlenOf e = 0)
include hpf hn hk hc hl

/-- RECALIBRATE of no partition is that of the lanterns outside every one. -/
theorem recalibrate_free (h : Nat) (t : State) : recalibrate e h t = recalOffsets e h (freeLanterns t) t := by
  unfold recalibrate
  dsimp only
  rw [pfCmd_of_isPf _ hpf, fieldsThen_none _ (entryFault_none hc (by simp [hl]) (by simp [hk, hn])), if_pos ⟨hk, hn⟩]

include hf

theorem exec_recalibrate_allOn (hd : (freeLanterns (fetched e q s)).filter (fun l => !(getL (fetched e q s) l).on) = []) :
    exec (.recalibrate e) s
      = .next (answered e q 0 (recalResult (freeLanterns (fetched e q s)) (fetched e q s)) 0 (recalibrated (freeLanterns (fetched e q s)) (fetched e q s))) :=
  taken_answers hf ((recalibrate_free hpf hn hk hc hl _ _).trans (recalOffsets_allOn hd _))

theorem exec_recalibrate_someOff (hd : (freeLanterns (fetched e q s)).filter (fun l => !(getL (fetched e q s) l).on) ≠ []) :
    exec (.recalibrate e) s
      = .next (awaited e q (.recal (recalResult (freeLanterns (fetched e q s)) (fetched e q s))) (recalWaits (freeLanterns (fetched e q s)) (fetched e q s))) :=
  taken_waits hf ((recalibrate_free hpf hn hk hc hl _ _).trans (recalOffsets_someOff hd _))

end

/-! ## The statement -/

/-- Settles O54: each clause is the rule above of its command. -/
theorem moduleCommands : Obligations.ModuleCommands := by
  unfold Obligations.ModuleCommands
  rintro e q s F hf rfl
  refine ⟨fun hc hl => ⟨fun hw hp => ?_, fun hw hp => ?_, fun p hw hi hn hp => ?_⟩, fun hw hp hc hl => ?_, fun hw hp hc hl => ?_, ?_, ?_, fun hpf hc hl => ?_,
    fun hpf hc hl => ⟨fun hm => ⟨?_, ?_⟩, fun hm => ⟨?_, ?_⟩⟩, ?_, fun p hi hn hp hc hl => ?_, fun hc hl => ⟨?_, fun ha => ?_⟩, ?_, ?_⟩
  case refine_1 => exact exec_identify_module hf hc hl hw hp
  case refine_2 => exact exec_identify_function hf hc hl hw hp
  case refine_3 => exact exec_identify_partition hf hc hl hw hi hn hp
  case refine_4 => exact exec_identify_unlisted hf hc hl hw hp
  case refine_5 => exact exec_identify_noPart hf hc hl hw hp
  case refine_6 =>
    rintro _ _ _ _ rfl rfl rfl rfl hc hl hq1 hq2 hs1 hs2 hc1 hc2 hv hsb hcb
    have h : QpFields e := ⟨hc, hl, ⟨hq1, hq2⟩, ⟨hs1, hs2⟩, ⟨hc1, hc2⟩, hv, hsb, hcb⟩
    exact ⟨exec_qpCreate_new hf h, exec_qpCreate_duplicate hf h⟩
  case refine_7 =>
    rintro _ x rfl hc hl hqid
    exact ⟨exec_qpDelete_some hf hc hl hqid, exec_qpDelete_none hf hc hl hqid⟩
  case refine_8 => exact exec_ringForm_starts hf hpf hc hl
  case refine_9 => exact exec_ringMode_sets hf hpf hc hl hm
  case refine_10 => exact exec_setSpares_sets hf hpf hc hl hm
  case refine_11 => exact exec_ringMode_range hf hpf hc hl hm
  case refine_12 => exact exec_setSpares_range hf hpf hc hl hm
  case refine_13 =>
    rintro _ _ bs rfl rfl hc hlist hunit hpermit hpart hb
    have h : Readable s e := ⟨hc, hlist, hunit, hpermit, hpart⟩
    exact ⟨exec_telemetryRead_whole hf h hb, exec_telemetryRead_short hf h hb⟩
  case refine_14 => exact exec_partQuery_writes hf hi hn hp hc hl
  case refine_15 =>
    rintro _ rfl ha hv hlo hhi hsev hbase
    exact exec_eventRingSet_sets hf hc hl ha hv ⟨hlo, hhi⟩ hsev hbase
  case refine_16 => exact exec_eventRingSet_clears hf hc hl ha
  case refine_17 =>
    rintro _ _ _ rfl rfl rfl hpf hpart hc hl hclr
    have h : Selects e := ⟨hpf, hc, hl, hclr⟩
    have hfree : pf e 20 1 ≠ 3 → partFree e = false := hpart.resolve_left
    exact ⟨fun hk => exec_counterSelect_lantern_now hf h (hfree (by omega)) hk,
      fun n p hk hi hu hsrc hown hp hr => exec_counterSelect_lantern_next hf h (hfree (by omega)) hk hi hu hsrc hown hp hr,
      fun hk => exec_counterSelect_field_now hf h (hfree (by omega)) hk, fun hk => exec_counterSelect_tile hf h (hfree (by omega)) hk,
      fun p hk => exec_counterSelect_part hf h hk⟩
  case refine_18 =>
    intro ls dark S hpf hn hk hc hl hls hdark hS
    rw [hS, hdark, hls, ← recalResult_fetched]
    exact ⟨exec_recalibrate_allOn hf hpf hn hk hc hl, exec_recalibrate_someOff hf hpf hn hk hc hl⟩

end Sys2Proof.ModuleCommands
end

section
/-!
PROOFS. Operations that touch neither the table of partitions nor the arrays in erasure: records and completions on their way to a host, route tables, chunks
given up, contexts erased. What a partition command does around such an operation is then seen in these two.
-/

open Sys2Proof Sys2Proof.Machine

namespace Sys2Proof.Around

/-- The partitions and the arrays in erasure. -/
def partsErasing (s : State) : SMap (Option Partition) × List (Nat × Nat) := (s.parts, s.erasing)

theorem parts_of_partsErasing {t : State} {m : SMap (Option Partition)} {xs : List (Nat × Nat)} (h : partsErasing t = (m, xs)) : t.parts = m := congrArg Prod.fst h
theorem erasing_of_partsErasing {t : State} {m : SMap (Option Partition)} {xs : List (Nat × Nat)} (h : partsErasing t = (m, xs)) : t.erasing = xs := congrArg Prod.snd h
theorem getPart_of_parts {t : State} {m : SMap (Option Partition)} (h : t.parts = m) (n : Nat) : getPart t n = tget none m n := congrArg (fun m => tget none m n) h

theorem forEach_around {α : Type} (xs : List α) (f : α → State → State) (h : ∀ x s, partsErasing (f x s) = partsErasing s) (s : State) :
    partsErasing (forEach xs f s) = partsErasing s := forEach_keeps partsErasing f h xs s

theorem ite_around {c : Prop} [Decidable c] {a b s : State} (ha : partsErasing a = partsErasing s) (hb : partsErasing b = partsErasing s) :
    partsErasing (if c then a else b) = partsErasing s := by
  split
  · exact ha
  · exact hb

theorem updFn_around (s : State) (fn : Fn) (f : Func → Func) : partsErasing (updFn s fn f) = partsErasing s := rfl
theorem updL_around (s : State) (l : Nat) (f : Lantern → Lantern) : partsErasing (updL s l f) = partsErasing s := rfl
theorem updF_around (s : State) (k : Nat) (f : Field → Field) : partsErasing (updF s k f) = partsErasing s := rfl
theorem updR_around (s : State) (r : Nat) (f : Router → Router) : partsErasing (updR s r f) = partsErasing s := rfl
theorem updRP_around (s : State) (r k : Nat) (f : RPort → RPort) : partsErasing (updRP s r k f) = partsErasing s := rfl
theorem updT_around (s : State) (t : Nat) (f : RimTile → RimTile) : partsErasing (updT s t f) = partsErasing s := rfl
theorem updZ_around (s : State) (z : Nat) (f : Zenden → Zenden) : partsErasing (updZ s z f) = partsErasing s := rfl
theorem setCal_around (s : State) (k : Nat) (r : CalRec) : partsErasing (setCal s k r) = partsErasing s := rfl
theorem bankBusy_around (s : State) (l b : Nat) : partsErasing (bankBusy s l b) = partsErasing s := rfl
theorem vprogUse_around (s : State) : partsErasing (vprogUse s) = partsErasing s := rfl
theorem switchOff_around (s : State) (l : Nat) : partsErasing (switchOff s l) = partsErasing s := rfl
theorem sealExceptions_around (s : State) : partsErasing (sealExceptions s) = partsErasing s := rfl

/-! ## Writes to the hosts and event records (09 R267; 13 R394 to R400) -/

theorem countT_around (s : State) (t src n : Nat) : partsErasing (countT s t src n) = partsErasing s := by
  unfold countT
  split <;> rfl

theorem sendHost_around (s : State) (p : HostPort) (o : HostOut) : partsErasing (sendHost s p o) = partsErasing s := by
  unfold sendHost
  dsimp only
  split
  · rfl
  split
  · exact countT_around _ _ _ _
  · rfl

theorem sendMsix_around (s : State) (fn : Fn) (v : Nat) : partsErasing (sendMsix s fn v) = partsErasing s := by
  unfold sendMsix
  exact ite_around (sendHost_around _ _ _) rfl

/-- A message that may be due. -/
theorem sendMsix_if_around (due : Bool) (s : State) (fn : Fn) (v : Nat) : partsErasing (if due then sendMsix s fn v else s) = partsErasing s :=
  ite_around (sendMsix_around _ _ _) rfl

theorem ringWrite_around (s : State) (fn : Fn) (g : EvRing) (r : EventRec) : partsErasing (ringWrite s fn g r) = partsErasing s :=
  (sendMsix_if_around _ _ _ _).trans (sendHost_around _ _ _)

theorem drainRing_around (fn : Fn) (n : Nat) : ∀ s, partsErasing (drainRing fn n s) = partsErasing s := by
  induction n with
  | zero => intro s; rfl
  | succ n ih =>
    intro s
    unfold drainRing
    dsimp only
    split
    · split
      · exact (ih _).trans (ringWrite_around _ _ _ _)
      · rfl
    · rfl

theorem drainFn_around (s : State) (fn : Fn) : partsErasing (drainFn s fn) = partsErasing s := drainRing_around _ _ _

theorem offerFn_around (s : State) (fn : Fn) (r : EventRec) : partsErasing (offerFn s fn r) = partsErasing s := by
  unfold offerFn
  exact ite_around rfl (drainFn_around _ _)

theorem drainMgmt_around (n : Nat) : ∀ s, partsErasing (drainMgmt n s) = partsErasing s := by
  induction n with
  | zero => intro s; rfl
  | succ n ih =>
    intro s
    unfold drainMgmt
    split
    · exact ih _
    · rfl

theorem offerMgmt_around (s : State) (r : EventRec) : partsErasing (offerMgmt s r) = partsErasing s := drainMgmt_around _ _

theorem rimSend_around (a b : Nat) (m : RimMsg) (s : State) : partsErasing (rimSend a b m s) = partsErasing s := by
  show partsErasing (forEach _ _ s) = partsErasing s
  exact forEach_around _ _ (fun _ _ => by rfl) s

theorem raiseEv_around (s : State) (sev code part source unit detail : Nat) : partsErasing (raiseEv s sev code part source unit detail) = partsErasing s := by
  unfold raiseEv
  extract_lets r s1 s2 s3 s4 s5 s6
  have h2 : partsErasing s2 = partsErasing s := (updFn_around _ _ _).trans (updFn_around _ _ _)
  have h4 : partsErasing s4 = partsErasing s := (offerFn_around _ _ _).trans ((offerFn_around _ _ _).trans h2)
  have h5 : partsErasing s5 = partsErasing s := by
    refine Eq.trans ?_ h4
    unfold s5
    split
    · exact offerFn_around _ _ _
    · rfl
  have h6 : partsErasing s6 = partsErasing s := by
    refine Eq.trans ?_ h5
    unfold s6
    split
    · exact rimSend_around _ _ _ _
    · rfl
  exact ite_around ((offerMgmt_around _ _).trans h6) h6

theorem writeCompl_around (s : State) (fn : Fn) (n : Nat) (q : Qp) (c : Completion) : partsErasing (writeCompl s fn n q c) = partsErasing s :=
  (sendMsix_if_around _ _ _ _).trans (sendHost_around _ _ _)

theorem postPlain_around (s : State) (fn : Fn) (c : Completion) : partsErasing (postPlain s fn c) = partsErasing s := by
  unfold postPlain
  split
  · rfl
  dsimp only
  split
  · exact writeCompl_around _ _ _ _ _
  · rfl

theorem resolveWaits_around (p : WaitFor → Bool) (f : WaitFor → Nat × Nat) (s : State) : partsErasing (resolveWaits p f s) = partsErasing s :=
  forEach_around _ (fun (w : Waiting) s => postPlain s w.fn (waitCompl w (f w.what).1 (f w.what).2)) (fun _ _ => postPlain_around _ _ _) _

/-! ## Route tables (08 R237, R238, R248) -/

theorem maskTables_around (n : Nat) (s : State) : partsErasing (maskTables n s) = partsErasing s := by
  unfold maskTables
  dsimp only [partsErasing]

theorem writeMasks_around (n : Nat) (s : State) : partsErasing (writeMasks n s) = partsErasing s := by
  unfold writeMasks
  exact ite_around (maskTables_around n s) (raiseEv_around _ _ _ _ _ _ _)

theorem addException_around (d : Nat) (rp : Nat × Nat) (s : State) : partsErasing (addException d rp s) = partsErasing s := by
  unfold addException
  split <;> rfl

theorem detourFlow_around (fs : List Flow) (f : Flow) (s : State) : partsErasing (detourFlow fs f s) = partsErasing s := by
  unfold detourFlow
  split
  · rfl
  dsimp only
  split
  · exact forEach_around _ _ (addException_around _) _
  · rfl

theorem writeExceptions_around (s : State) : partsErasing (writeExceptions s) = partsErasing s := by
  unfold writeExceptions
  extract_lets s1 fs
  have h1 : partsErasing s1 = partsErasing s := forEach_around _ _ (fun _ _ => updR_around _ _ _) s
  exact (sealExceptions_around _).trans ((forEach_around _ _ (detourFlow_around fs) s1).trans h1)

theorem writeRoutes_around (s : State) : partsErasing (writeRoutes s) = partsErasing s :=
  (forEach_around _ _ writeMasks_around _).trans (writeExceptions_around s)

theorem recheckRoutes_around (s : State) : partsErasing (recheckRoutes s) = partsErasing s :=
  (forEach_around _ (fun (r : Nat × Nat × Nat × Nat) s => raiseEv s sevWarn 0x0402 r.2.2.1 srcFirmware 0 (r.1 + r.2.1 * 2048))
    (fun _ _ => raiseEv_around _ _ _ _ _ _ _) _).trans (writeRoutes_around s)

/-! ## Chunks, contexts, counters and channels of a partition -/

theorem pairCommit_around (s : State) (l a : Nat) (setid : Option (BitVec 32)) : partsErasing (pairCommit s l a setid) = partsErasing s :=
  ((updL_around _ _ _).trans (updL_around _ _ _)).trans (setCal_around _ _ _)

theorem startJob_around (j : ChunkJob) (s : State) : partsErasing (startJob j s) = partsErasing s := by
  unfold startJob
  split
  · rfl
  next a _ =>
    extract_lets s1 was s2
    have h2 : partsErasing s2 = partsErasing s := updL_around s1 _ _
    exact (bankBusy_around _ _ _).trans (ite_around ((pairCommit_around _ _ _ _).trans h2) h2)

theorem dropJobs_around (p : ChunkJob → Bool) (s : State) : partsErasing (dropJobs p s) = partsErasing s := by
  refine (vprogUse_around _).trans ((forEach_around _ _ startJob_around _).trans ((forEach_around _ _ (fun j s => ?_) _).trans (forEach_around _ _ (fun j s => ?_) _)))
  · split
    · exact (bankBusy_around _ _ _).trans (updL_around _ _ _)
    · rfl
  · exact ite_around rfl (postPlain_around _ _ _)

theorem eraseCtx_around (s : State) (h : BitVec 64) : partsErasing (eraseCtx s h) = partsErasing s := by
  unfold eraseCtx
  split <;> rfl

theorem zeroCounters_around (p : Partition) (s : State) : partsErasing (zeroCounters p s) = partsErasing s := by
  unfold zeroCounters
  exact forEach_around _ _ (fun f t => (forEach_around _ _ (fun l u => updL_around u l _) _).trans (updF_around t f _)) s

theorem takeChannels_around (n : Nat) (p : Partition) (s : State) : partsErasing (takeChannels n p s) = partsErasing s := by
  unfold takeChannels
  refine forEach_around _ _ (fun z t => forEach_around _ _ (fun c u => ?_) t) s
  exact ite_around (updZ_around u z _) rfl

/-- A partition removed: its entry of the table goes, and no array's erasure begins or ends. -/
theorem removePart_around (n : Nat) (p : Partition) (s : State) : partsErasing (removePart n p s) = (tset none s.parts n none, s.erasing) := by
  unfold removePart
  extract_lets s1 s2 s3 s4 s5 ls s6 s7
  have h2 : partsErasing s2 = partsErasing s := (resolveWaits_around _ _ _).trans (dropJobs_around _ _)
  have h3 : partsErasing s3 = partsErasing s := (forEach_around _ _ (fun (c : Context) s => eraseCtx_around s c.handle) _).trans h2
  have h4 : partsErasing s4 = partsErasing s := (forEach_around _ _ (fun _ _ => updZ_around _ _ _) _).trans h3
  have h5 : partsErasing s5 = partsErasing s := (forEach_around _ _ (fun _ _ => updT_around _ _ _) _).trans h4
  have h6 : partsErasing s6 = partsErasing s :=
    (forEach_around _ _ (fun _ _ => forEach_around _ _ (fun _ _ => by split <;> rfl) _) _).trans h5
  have hz : partsErasing (zeroCounters p s6) = partsErasing s := (zeroCounters_around p s6).trans h6
  have h7 : partsErasing s7 = (tset none s.parts n none, s.erasing) := (writeMasks_around n _).trans (by
    rw [← parts_of_partsErasing hz, ← erasing_of_partsErasing hz]; rfl)
  exact (recheckRoutes_around _).trans ((forEach_around _ _ (fun _ _ => switchOff_around _ _) _).trans h7)

theorem getPart_removePart (n : Nat) (p : Partition) (s : State) : getPart (removePart n p s) n = none :=
  (getPart_of_parts (parts_of_partsErasing (removePart_around n p s)) n).trans (tget_tset_same _ _ _ _)

theorem erasing_removePart (n : Nat) (p : Partition) (s : State) : (removePart n p s).erasing = s.erasing := erasing_of_partsErasing (removePart_around n p s)

end Sys2Proof.Around
end

section
/-!
PROOFS. The commands on partitions: PART_CREATE, PART_DELETE, PART_SET, PROGRAM_LOAD, PART_START and PART_DRAIN (01 R28; 09 R273 to R277; 12 R372, R382).
For each: what stands in its way, then its effect.
-/

open Sys2Proof Sys2Proof.Machine

namespace Sys2Proof.PartitionCommands

open Sys2Proof.Take Sys2Proof.Around Sys2Proof.ModuleCommands

variable {e : Entry} {q : Qp} {s : State}

/-! ## What a loop keeps and establishes -/

/-- What every turn keeps holds after the loop. -/
theorem forEach_holds {α : Type} {f : α → State → State} {P : State → Prop} (hkeep : ∀ y s, P s → P (f y s)) (xs : List α) :
    ∀ s, P s → P (forEach xs f s) := by
  induction xs with
  | nil => exact fun s h => h
  | cons y ys ih => exact fun s h => ih _ (hkeep y s h)

/-- What one turn establishes and no turn undoes holds after the loop. -/
theorem forEach_establishes {α : Type} {f : α → State → State} {P : State → Prop} {x : α} (hset : ∀ s, P (f x s)) (hkeep : ∀ y s, P s → P (f y s))
    (xs : List α) : ∀ s, x ∈ xs → P (forEach xs f s) := by
  induction xs with
  | nil => exact fun s hx => absurd hx List.not_mem_nil
  | cons y ys ih =>
    intro s hx
    rcases List.mem_cons.1 hx with rfl | hx
    · exact forEach_holds hkeep ys _ (hset s)
    · exact ih _ hx

/-! ## Counters of a new rectangle (13 R389) -/

theorem mem_partFields {p : Partition} {f : Nat} (h : inRect p f = true) : f ∈ partFields p := by
  simp only [inRect, decide_eq_true_eq] at h
  obtain ⟨hx0, hx1, hy0, hy1⟩ := h
  have hb : f % 10 - p.fx0 < p.w := by omega
  have hw : 0 < p.w := by omega
  refine List.mem_map.2 ⟨f % 10 - p.fx0 + p.w * (f / 10 - p.fy0), List.mem_range.2 ?_, ?_⟩
  · calc f % 10 - p.fx0 + p.w * (f / 10 - p.fy0) < p.w + p.w * (f / 10 - p.fy0) := Nat.add_lt_add_right hb _
      _ = p.w * (f / 10 - p.fy0 + 1) := by ring
      _ ≤ p.w * p.h := Nat.mul_le_mul_left _ (by omega)
  · rw [Nat.add_mul_div_left _ _ hw, Nat.div_eq_of_lt hb, Nat.add_mul_mod_self_left, Nat.mod_eq_of_lt hb]
    omega

/-- Counters of lantern l are zero. -/
def CountersZero (l : Nat) (s : State) : Prop := (getL s l).counters = []

theorem countersZero_zeroL {l k : Nat} {s : State} (h : k = l ∨ CountersZero l s) : CountersZero l (updL s k (fun L => { L with counters := [] })) := by
  unfold CountersZero at *
  by_cases hk : l = k
  · rw [hk, getL_updL_same]
  · rw [getL_updL_other _ _ hk]
    exact h.resolve_left (Ne.symm hk)

theorem countersZero_updF {l k : Nat} {s : State} (f : Field → Field) (h : CountersZero l s) : CountersZero l (updF s k f) := h

theorem countersZero_zeroCounters {p : Partition} {f l : Nat} (s : State) (hf : inRect p f = true) (hl : l ∈ lanternsIn f) : CountersZero l (zeroCounters p s) := by
  have hkeep : ∀ k t, CountersZero l t → CountersZero l (updL t k (fun L => { L with counters := [] })) := fun _ _ h => countersZero_zeroL (.inr h)
  refine forEach_establishes (P := CountersZero l) (x := f) (fun t => ?_) (fun k t h => ?_) _ s (mem_partFields hf)
  · exact forEach_establishes (x := l) (fun _ => countersZero_zeroL (.inl rfl)) hkeep _ _ hl
  · exact forEach_holds hkeep _ _ (countersZero_updF _ h)

theorem getL_takeChannels (n : Nat) (p : Partition) (s : State) (l : Nat) : getL (takeChannels n p s) l = getL s l := by
  unfold takeChannels
  refine forEach_keeps (getL · l) _ (fun z t => forEach_keeps (getL · l) _ (fun c u => ?_) _ t) _ s
  split <;> rfl

/-! ## PART_CREATE (01 R28; 09 R273, R274) -/

/-- The partition that PART_CREATE makes where no dormant record is. -/
def madePart (e : Entry) (s : State) : Partition :=
  { createParams e with slot := if (pf e 23 1).testBit 0 then (quietSlot s).getD 0 else 0, debug := s.sec.jtag, idleSince := some (nowNs s) }

/-- The state with the partition made. -/
def made (e : Entry) (s : State) : State :=
  takeChannels (partNo e) (madePart e s) (zeroCounters (madePart e s) (writeMasks (partNo e) (setPart { s with dormant := [] } (partNo e) (some (madePart e s)))))

theorem parts_made (e : Entry) (s : State) : (made e s).parts = tset none s.parts (partNo e) (some (madePart e s)) :=
  parts_of_partsErasing ((takeChannels_around _ _ _).trans ((zeroCounters_around _ _).trans (writeMasks_around _ _)))

theorem getPart_made (e : Entry) (s : State) : getPart (made e s) (partNo e) = some (madePart e s) :=
  (getPart_of_parts (parts_made e s) _).trans (tget_tset_same _ _ _ _)

theorem getPart_made_other (e : Entry) (s : State) {m : Nat} (h : m ≠ partNo e) : getPart (made e s) m = getPart s m :=
  (getPart_of_parts (parts_made e s) _).trans (tget_tset_other _ _ _ h)

theorem counters_made (e : Entry) (s : State) {f l : Nat} (hf : inRect (madePart e s) f = true) (hl : l ∈ lanternsIn f) : (getL (made e s) l).counters = [] := by
  unfold made
  rw [getL_takeChannels]
  exact countersZero_zeroCounters _ hf hl

theorem adopt_noDormant (n : Nat) (p : Partition) (h : s.dormant = []) : adopt s n p = p := by
  unfold adopt
  rw [h]
  rfl

section
variable (h : Nat) (hpf : isPf e = true) (hn : partNo e < 16) (hf : createFault e = none)
include hpf hn hf

theorem partCreate_conflict {st : Nat} (hc : createConflict s (partNo e) (createParams e) = some st) : partCreate e h s = fails st s := by
  unfold partCreate
  dsimp only
  rw [hpf, if_neg (by decide), if_neg (Nat.not_le.2 hn), fieldsThen_none _ hf, hc]

variable (hc : createConflict s (partNo e) (createParams e) = none)
include hc

theorem partCreate_noRoute (hr : createRoutes s (createParams e) = false) : partCreate e h s = fails stRoute s := by
  unfold partCreate
  dsimp only
  rw [hpf, if_neg (by decide), if_neg (Nat.not_le.2 hn), fieldsThen_none _ hf, hc, hr]
  rfl

variable (hr : createRoutes s (createParams e) = true)
include hr

theorem partCreate_noPower (hp : 6100 < sharesSum s 16 + pf e 44 4) : partCreate e h s = fails stPower s := by
  unfold partCreate
  dsimp only
  rw [hpf, if_neg (by decide), if_neg (Nat.not_le.2 hn), fieldsThen_none _ hf, hc, hr]
  exact if_pos hp

theorem partCreate_made (hp : sharesSum s 16 + pf e 44 4 ≤ 6100) (hd : s.dormant = []) : partCreate e h s = doneWith 1 (made e s) := by
  unfold partCreate
  dsimp only
  rw [hpf, if_neg (by decide), if_neg (Nat.not_le.2 hn), fieldsThen_none _ hf, hc, hr, adopt_noDormant _ _ hd, hd]
  exact if_neg (Nat.not_lt.2 hp)

end

section
variable (hf : Fetches e q s) (hpf : isPf e = true) (hrun : s.sec.restarting = false) (hn : partNo e < 16) (hfault : createFault e = none)
include hf hpf hrun hn hfault

theorem exec_partCreate_conflict {st : Nat} (hc : createConflict s (partNo e) (createParams e) = some st) :
    exec (.partCreate e) s = .next (answered e q st 0 0 (fetched e q s)) := by
  rw [exec_partCreate, execPartCreate, takeLamp_running _ hrun]
  exact taken_answers hf (partCreate_conflict _ hpf hn hfault hc)

variable (hc : createConflict s (partNo e) (createParams e) = none)
include hc

theorem exec_partCreate_noRoute (hr : createRoutes s (createParams e) = false) : exec (.partCreate e) s = .next (answered e q 0x06 0 0 (fetched e q s)) := by
  rw [exec_partCreate, execPartCreate, takeLamp_running _ hrun]
  exact taken_answers hf (partCreate_noRoute _ hpf hn hfault hc hr)

variable (hr : createRoutes s (createParams e) = true)
include hr

theorem exec_partCreate_noPower (hp : 6100 < sharesSum s 16 + pf e 44 4) : exec (.partCreate e) s = .next (answered e q 0x09 0 0 (fetched e q s)) := by
  rw [exec_partCreate, execPartCreate, takeLamp_running _ hrun]
  exact taken_answers hf (partCreate_noPower _ hpf hn hfault hc hr hp)

theorem exec_partCreate_made (hp : sharesSum s 16 + pf e 44 4 ≤ 6100) (hd : s.dormant = []) :
    exec (.partCreate e) s = .next (answered e q 0 1 0 (made e (fetched e q s))) := by
  rw [exec_partCreate, execPartCreate, takeLamp_running _ hrun]
  exact taken_answers hf (partCreate_made _ hpf hn hfault hc hr hp hd)

end

/-! ## PART_DELETE (09 R277) -/

section
variable {p : Partition} (hf : Fetches e q s) (hpf : isPf e = true) (hrun : s.sec.restarting = false) (hn : partNo e < 16)
  (hp : getPart s (partNo e) = some p) (hst : idleState p.state = true) (hc : Clean e true []) (hl : dlenOf e = 0)
include hpf hn hp hst hc hl

theorem partDelete_erases (h : Nat) :
    partDelete e h (fetched e q s)
      = eraseThen e h (partArrays (fetched e q s) p) false false 0 (fetched e q s) (removePart (partNo e) p (fetched e q s)) := by
  unfold partDelete
  rw [partCmd_fetched _ (by exact hpf) hn hp hst, fieldsThen_none _ (entryFault_none hc (by simp [hl]) (by simp))]

include hf hrun

theorem exec_partDelete_bare (hx : partArrays (fetched e q s) p = []) (he : s.erasing = []) :
    exec (.partDelete e) s = .next (answered e q 0 0 0 (removePart (partNo e) p (fetched e q s))) := by
  have her : (removePart (partNo e) p (fetched e q s)).erasing = [] := (erasing_removePart _ _ _).trans he
  rw [exec_partDelete, execPartDelete, takeLamp_running _ hrun]
  refine taken_answers hf ((partDelete_erases hpf hn hp hst hc hl _).trans ?_)
  unfold eraseThen
  rw [hx, her]
  rfl

theorem exec_partDelete_arrays (hx : partArrays (fetched e q s) p ≠ []) :
    exec (.partDelete e) s = .next (awaited e q (.erase false false 0)
      (startErase (partArrays (fetched e q s) p) (holdShown (fetched e q s) (removePart (partNo e) p (fetched e q s))))) := by
  rw [exec_partDelete, execPartDelete, takeLamp_running _ hrun]
  refine taken_waits hf ((partDelete_erases hpf hn hp hst hc hl _).trans ?_)
  unfold eraseThen
  exact if_neg fun h => hx (List.isEmpty_iff.1 h.1)

end

/-! ## PART_SET (09 R273; 12 R372) -/

/-- A share in range passes the checks of PART_SET. -/
theorem partSet_share_pass {p : Partition} (hc : Clean e true [(20, 1), (24, 4)]) (hl : dlenOf e = 0) (hi : pf e 20 1 = 2)
    (hlo : 50 * (p.w * p.h) ≤ pf e 24 4) (hhi : pf e 24 4 ≤ 6100) :
    entryFault e true [(20, 1), (24, 4)] (dlenOf e != 0) [(20, decide (2 < pf e 20 1)),
      (24, if pf e 20 1 = 0 then decide (pf e 24 4 < 10) || decide (10000 < pf e 24 4)
        else if pf e 20 1 = 1 then pf e 24 4 == 0 || decide (4 < pf e 24 4) else pf e 20 1 == 2 && shareBad p (pf e 24 4))] = none := by
  have hb : shareBad p (pf e 24 4) = false := by
    simp only [shareBad, Bool.or_eq_false_iff, decide_eq_false_iff_not]
    omega
  exact entryFault_none hc (by simp [hl]) (by simp [hi, hb])

section
variable {p : Partition} (hf : Fetches e q s) (hpf : isPf e = true) (hn : partNo e < 16) (hp : getPart s (partNo e) = some p) (hst : p.state ≠ .faulted)
  (hc : Clean e true [(20, 1), (24, 4)]) (hl : dlenOf e = 0)
include hf hpf hn hp hst hc hl

theorem exec_partSet_watchdog (hi : pf e 20 1 = 0) (hlo : 10 ≤ pf e 24 4) (hhi : pf e 24 4 ≤ 10000) :
    exec (.partSet e) s = .next (answered e q 0 0 0 (settleIdle (partNo e) (setPart (fetched e q s) (partNo e) (some { p with watchdogNext := some (pf e 24 4) })))) := by
  refine taken_answers hf ?_
  unfold partSet
  dsimp only
  rw [partCmd_fetched _ (by exact hpf) hn hp (by simpa [settingState] using hst),
    fieldsThen_none _ (entryFault_none hc (by simp [hl]) (by simp [hi]; omega)), if_neg (by omega), if_pos hi, updPart_some _ _ ((getPart_fetched _).trans hp)]
  rfl

theorem exec_partSet_window (hi : pf e 20 1 = 1) (hlo : 1 ≤ pf e 24 4) (hhi : pf e 24 4 ≤ 4) :
    exec (.partSet e) s = .next (answered e q 0 0 0 (setPart (fetched e q s) (partNo e) (some { p with windowNext := some (pf e 24 4) }))) := by
  refine taken_answers hf ?_
  unfold partSet
  dsimp only
  rw [partCmd_fetched _ (by exact hpf) hn hp (by simpa [settingState] using hst),
    fieldsThen_none _ (entryFault_none hc (by simp [hl]) (by simp [hi]; omega)), if_neg (by omega), if_neg (by omega), if_pos hi, updPart_some _ _ ((getPart_fetched _).trans hp)]
  rfl

variable (hi : pf e 20 1 = 2) (hlo : 50 * (p.w * p.h) ≤ pf e 24 4) (hhi : pf e 24 4 ≤ 6100)
include hi hlo hhi

theorem exec_partSet_share (hs : sharesSum s (partNo e) + pf e 24 4 ≤ 6100) :
    exec (.partSet e) s = .next (answered e q 0 0 0 (settleIdle (partNo e) (setPart (fetched e q s) (partNo e) (some { p with shareNext := some (pf e 24 4) })))) := by
  refine taken_answers hf ?_
  unfold partSet
  dsimp only
  rw [partCmd_fetched _ (by exact hpf) hn hp (by simpa [settingState] using hst), fieldsThen_none _ (partSet_share_pass hc hl hi hlo hhi),
    if_neg fun h => Nat.not_lt.2 hs h.2, if_neg (by omega), if_neg (by omega), updPart_some _ _ ((getPart_fetched _).trans hp)]
  rfl

theorem exec_partSet_share_noPower (hs : 6100 < sharesSum s (partNo e) + pf e 24 4) :
    exec (.partSet e) s = .next (answered e q 0x09 0 0 (fetched e q s)) := by
  refine taken_answers hf ?_
  unfold partSet
  dsimp only
  rw [partCmd_fetched _ (by exact hpf) hn hp (by simpa [settingState] using hst), fieldsThen_none _ (partSet_share_pass hc hl hi hlo hhi)]
  exact if_pos ⟨hi, hs⟩

end

/-! ## PROGRAM_LOAD (09 R276; 10 R321) -/

section
variable {p : Partition} {d im : List Byte} (hf : Fetches e q s) (hi : isPf e = true ∨ isBound s e = true) (hrun : s.sec.restarting = false)
  (hn : partNo e < 16) (hp : getPart s (partNo e) = some p) (hst : idleState p.state = true) (hc : Clean e true []) (hd : e.data = some d)
  (him : im = padTo (dlenOf e) d)
include hf hi hrun hn hp hst hc hd him

theorem exec_programLoad_bad {reason l i : Nat} (hchk : loadCheck (fetched e q s) (partNo e) p im = some (reason, l, i)) :
    exec (.programLoad e) s = .next (answered e q 0x08 (l % 65536 + i % 65536 * 65536) reason (fetched e q s)) := by
  rw [exec_programLoad, execProgramLoad, takeLamp_running _ hrun]
  refine taken_answers hf ?_
  unfold programLoad
  dsimp only
  rw [partCmd_fetched _ (mayIssue_pfBound hi) hn hp hst, fieldsThen_none _ (entryFault_none hc rfl (by simp)), withData_some _ hd, ← him, hchk]
  rfl

variable (hchk : loadCheck (fetched e q s) (partNo e) p im = none)
include hchk

/-- The weight set, if there is one that names its programs, names this one. -/
theorem exec_programLoad_allowed {U : State} (ha : p.wset.allow = [] ∨ imgDigest im ∈ p.wset.allow)
    (hU : U = commitRec (partNo e) (installProgram (partNo e) im) (fetched e q s)) :
    exec (.programLoad e) s = .next (answered e q 0 (loadResult U (partNo e)) 0 U) := by
  have hb : (!p.wset.allow.isEmpty && !p.wset.allow.contains (imgDigest im)) = false := by rcases ha with h | h <;> simp [h]
  rw [exec_programLoad, execProgramLoad, takeLamp_running _ hrun]
  refine taken_answers hf ?_
  unfold programLoad
  dsimp only
  rw [partCmd_fetched _ (mayIssue_pfBound hi) hn hp hst, fieldsThen_none _ (entryFault_none hc rfl (by simp)), withData_some _ hd, ← him, hchk, hb, hU]
  rfl

variable {U : State} (ha : ¬ (p.wset.allow = [] ∨ imgDigest im ∈ p.wset.allow))
  (hU : U = commitRec (partNo e) (installProgram (partNo e) im) (dropSet (partNo e) (fetched e q s)))
include ha hU

theorem exec_programLoad_barred_bare (hx : partArrays (fetched e q s) p = []) :
    exec (.programLoad e) s = .next (answered e q 0 (loadResult U (partNo e)) 0 U) := by
  have hb : (!p.wset.allow.isEmpty && !p.wset.allow.contains (imgDigest im)) = true := by simpa [not_or] using ha
  rw [exec_programLoad, execProgramLoad, takeLamp_running _ hrun]
  refine taken_answers hf ?_
  unfold programLoad
  dsimp only
  rw [partCmd_fetched _ (mayIssue_pfBound hi) hn hp hst, fieldsThen_none _ (entryFault_none hc rfl (by simp)), withData_some _ hd, ← him, hchk, hb, hx, hU]
  rfl

theorem exec_programLoad_barred_arrays (hx : partArrays (fetched e q s) p ≠ []) :
    exec (.programLoad e) s = .next (awaited e q (.erase false false (BitVec.ofNat 128 (loadResult U (partNo e))))
      (startErase (partArrays (fetched e q s) p) (holdShown (fetched e q s) U))) := by
  have hb : (!p.wset.allow.isEmpty && !p.wset.allow.contains (imgDigest im)) = true := by simpa [not_or] using ha
  have hne : ¬ (partArrays (fetched e q s) p).isEmpty = true := fun h => hx (List.isEmpty_iff.1 h)
  rw [exec_programLoad, execProgramLoad, takeLamp_running _ hrun]
  refine taken_waits hf ?_
  unfold programLoad
  dsimp only
  rw [partCmd_fetched _ (mayIssue_pfBound hi) hn hp hst, fieldsThen_none _ (entryFault_none hc rfl (by simp)), withData_some _ hd, ← him, hchk, hb, hU]
  dsimp only
  rw [if_pos rfl, if_pos rfl, if_neg hne, eraseThen, if_neg fun h => hne h.1]

end

/-! ## PART_START (09 R277; 12 R382) -/

/-- The settings that PART_START takes into force: the window, and the perturbations, which are none. -/
def startSettings (p : Partition) : Nat × SMap (BitVec 32) × BitVec 32 := (p.window, p.hsdelay, p.pstretch)

/-- Those of partition n. -/
def settingsOf (n : Nat) (s : State) : Option (Nat × SMap (BitVec 32) × BitVec 32) := (getPart s n).map startSettings

theorem settingsOf_updPart {n : Nat} {f : Partition → Partition} (hf : ∀ p, startSettings (f p) = startSettings p) (s : State) :
    settingsOf n (updPart s n f) = settingsOf n s := by
  unfold settingsOf
  rw [getPart_updPart_same, Option.map_map]
  exact congrArg (fun g => (getPart s n).map g) (funext hf)

theorem settingsOf_of_around {n : Nat} {s t : State} (h : partsErasing t = partsErasing s) : settingsOf n t = settingsOf n s :=
  congrArg (fun m => (tget none m n).map startSettings) (congrArg Prod.fst h)

theorem settingsOf_commitRec (n : Nat) (f : State → State) (s : State) : settingsOf n (commitRec n f s) = settingsOf n (f s) := by
  unfold commitRec
  dsimp only
  split
  · split
    · rfl
    · exact settingsOf_updPart (fun _ => by rfl) _
  · rfl

theorem settingsOf_applyPending (n : Nat) (s : State) : settingsOf n (applyPending s n) = settingsOf n s := by
  unfold applyPending
  split
  · rfl
  next p hp =>
    extract_lets a b t u
    have hu : partsErasing u = partsErasing t :=
      forEach_around _ _ (fun f v => (forEach_around _ _ (fun l w => updL_around w l _) _).trans (updF_around v f _)) t
    calc settingsOf n { u with cal := _ } = settingsOf n t := settingsOf_of_around hu
      _ = some (startSettings b) := by rw [settingsOf, getPart_setPart_same]; rfl
      _ = settingsOf n s := by rw [settingsOf, hp]; rfl

theorem settingsOf_startPart (n : Nat) (s : State) : settingsOf n (startPart s n) = settingsOf n s := by
  unfold startPart
  split
  · rfl
  next p _ =>
    split
    · rfl
    next g _ =>
      refine (settingsOf_updPart (fun _ => by rfl) _).trans (settingsOf_of_around ?_)
      refine (forEach_around _ _ (fun t u => ?_) _).trans (forEach_around _ _ (fun i u => updF_around u _ _) _)
      split
      · exact updL_around _ _ _
      · rfl

theorem settingsOf_beginPart (n : Nat) (s : State) : settingsOf n (beginPart s n) = settingsOf n s :=
  (settingsOf_startPart _ _).trans ((settingsOf_applyPending _ _).trans (settingsOf_updPart (fun _ => by rfl) s))

/-- The partition with the window that waits, and no perturbation. -/
def freshSettings (p : Partition) : Partition := { resetPert p with window := p.windowNext.getD p.window, windowNext := none }

/-- The state with the partition started. -/
def started (n : Nat) (s : State) : State := updPart (beginPart (commitRec n (fun s => updPart s n freshSettings) s) n) n (fun p => { p with state := .serving })

theorem getPart_started {n : Nat} {p : Partition} (hp : getPart s n = some p) :
    ∃ x, getPart (started n s) n = some x ∧ x.state = .serving ∧ x.window = p.windowNext.getD p.window ∧ x.hsdelay = [] ∧ x.pstretch = 0 := by
  have hs : settingsOf n (beginPart (commitRec n (fun s => updPart s n freshSettings) s) n) = some (startSettings (freshSettings p)) := by
    rw [settingsOf_beginPart, settingsOf_commitRec, settingsOf, getPart_updPart_same, hp]; rfl
  obtain ⟨b, hb, hbs⟩ := Option.map_eq_some_iff.1 hs
  obtain ⟨hw, hh, hps⟩ := (Prod.ext_iff.trans (and_congr_right' Prod.ext_iff)).1 hbs
  refine ⟨{ b with state := .serving }, ?_, rfl, hw, hh, hps⟩
  rw [started, getPart_updPart_same, hb]
  rfl

theorem startWaits_of {p : Partition} (hp : getPart s (partNo e) = some p) (hst : p.state = .loaded) :
    startWaits s e = (!p.hold && weightsFit p && notReady s p) := by
  unfold startWaits
  rw [hp]
  dsimp only
  rw [hst]
  rfl

section
variable {p : Partition} (hf : Fetches e q s) (hi : isPf e = true ∨ isBound s e = true) (hn : partNo e < 16) (hp : getPart s (partNo e) = some p)
  (hst : p.state = .loaded) (hc : Clean e true []) (hl : dlenOf e = 0)

section
include hi hn hp hst hc hl

theorem partStart_checked :
    partStart e (fetched e q s)
      = if p.hold then fails stPower (fetched e q s) else if !weightsFit p then fails stWeights (fetched e q s) else done (started (partNo e) (fetched e q s)) := by
  unfold partStart
  dsimp only
  rw [partCmd_fetched _ (mayIssue_pfBound hi) hn hp (by rw [hst]; rfl), fieldsThen_none _ (entryFault_none hc (by simp [hl]) (by simp))]
  rfl

end

include hf hi hn hp hst hc hl

theorem exec_partStart_held (hh : p.hold = true) : exec (.partStart e) s = .next (answered e q 0x09 0 0 (fetched e q s)) := by
  have hw : startWaits s e = false := by rw [startWaits_of hp hst, hh]; rfl
  rw [exec_partStart, execPartStart, hw, if_neg (by decide)]
  exact taken_answers hf ((partStart_checked hi hn hp hst hc hl).trans (if_pos hh))

variable (hh : p.hold = false)
include hh

theorem exec_partStart_unfit (hfit : weightsFit p = false) : exec (.partStart e) s = .next (answered e q 0x11 0 0 (fetched e q s)) := by
  have hw : startWaits s e = false := by rw [startWaits_of hp hst, hh, hfit]; rfl
  rw [exec_partStart, execPartStart, hw, if_neg (by decide)]
  refine taken_answers hf ((partStart_checked hi hn hp hst hc hl).trans ?_)
  rw [hh, hfit]
  rfl

variable (hfit : weightsFit p = true)
include hfit

theorem exec_partStart_serves (hr : notReady s p = false) : exec (.partStart e) s = .next (answered e q 0 0 0 (started (partNo e) (fetched e q s))) := by
  have hw : startWaits s e = false := by rw [startWaits_of hp hst, hh, hfit, hr]; rfl
  rw [exec_partStart, execPartStart, hw, if_neg (by decide)]
  refine taken_answers hf ((partStart_checked hi hn hp hst hc hl).trans ?_)
  rw [hh, hfit]
  rfl

omit hi hn hc hl in
theorem exec_partStart_waits (hr : notReady s p = true) : exec (.partStart e) s = .next (settle { s with visit := queueKey e.fn e.sqid }) := by
  have hw : startWaits s e = true := by rw [startWaits_of hp hst, hh, hfit, hr]; rfl
  rw [exec_partStart, execPartStart, hw, if_pos rfl, settled_of_fetches hf, passBy, if_pos hf.ready]

end

/-! ## PART_DRAIN (09 R277) -/

theorem testBit_zero_of_le_one {v : Nat} (h : v ≤ 1) : v.testBit 0 = decide (v = 1) := by
  rcases Nat.le_one_iff_eq_zero_or_eq_one.1 h with rfl | rfl <;> rfl

theorem exec_partDrain_drains {p : Partition} {U : State} (hf : Fetches e q s) (hi : isPf e = true ∨ isBound s e = true) (hn : partNo e < 16)
    (hp : getPart s (partNo e) = some p) (hst : p.state = .serving ∨ p.state = .draining) (hc : Clean e true [(20, 1)]) (hl : dlenOf e = 0)
    (hv : pf e 20 1 ≤ 1)
    (hU : U = if pf e 20 1 = 1 then
      forEach (p.reqs.filter (fun r => r.state != .ending)) (fun r s => setEnding s (partNo e) r.tag 0x23 0) (fetched e q s) else fetched e q s) :
    exec (.partDrain e) s = .next (settle (drainDone
      (waitFor e (nextHead q) (.drain (partNo e) (if pf e 20 1 = 1 then (p.reqs.filter (fun r => r.state != .ending)).length else 0))
        (updPart U (partNo e) (fun p => { p with state := .draining }))) (partNo e))) := by
  have hs : servingState p.state = true := by rcases hst with h | h <;> rw [h] <;> rfl
  refine taken_later hf ?_
  unfold partDrain
  dsimp only
  rw [partCmd_fetched _ (mayIssue_pfBound hi) hn hp hs, fieldsThen_none _ (entryFault_none hc (by simp [hl]) (by simpa using hv)), testBit_zero_of_le_one hv, hU]
  simp only [decide_eq_true_eq]
  rfl

/-! ## The statement -/

/-- Settles O55: each clause is the rule above of its command. -/
theorem partitionCommands : Obligations.PartitionCommands := by
  unfold Obligations.PartitionCommands
  rintro e q s _ _ hf rfl rfl hn
  refine ⟨fun hpf hrun hfault => ⟨fun st hc => ?_, fun hc hr => ?_, fun hc hr => ⟨fun hp => ?_, fun hp hd => ?_⟩⟩,
    fun p hpf hrun hp hst hc hl => ⟨fun hx he => ?_, fun hx => ?_, ?_⟩,
    ?_, ?_, fun p hi hp hst hc hl => ⟨fun hh => ?_, fun hh hfit => ?_, fun hh hfit hr => ?_, fun hh hfit hr => ?_⟩, ?_⟩
  case refine_1 => exact exec_partCreate_conflict hf hpf hrun hn hfault hc
  case refine_2 => exact exec_partCreate_noRoute hf hpf hrun hn hfault hc hr
  case refine_3 => exact exec_partCreate_noPower hf hpf hrun hn hfault hc hr hp
  case refine_4 =>
    exact ⟨made e (fetched e q s), madePart e (fetched e q s), exec_partCreate_made hf hpf hrun hn hfault hc hr hp hd, getPart_made _ _, rfl, rfl, rfl, rfl, rfl,
      rfl, rfl, rfl, rfl, rfl, fun m hm => getPart_made_other _ _ hm, fun f l hin _ hl => counters_made _ _ hin hl⟩
  case refine_5 => exact exec_partDelete_bare hf hpf hrun hn hp hst hc hl hx he
  case refine_6 => exact exec_partDelete_arrays hf hpf hrun hn hp hst hc hl hx
  case refine_7 => exact getPart_removePart _ _ _
  case refine_8 =>
    rintro p _ hpf rfl hp hst hc hl
    exact ⟨exec_partSet_watchdog hf hpf hn hp hst hc hl, exec_partSet_window hf hpf hn hp hst hc hl,
      fun hi hlo hhi => exec_partSet_share hf hpf hn hp hst hc hl hi hlo hhi,
      fun hi hlo hhi => exec_partSet_share_noPower hf hpf hn hp hst hc hl hi hlo hhi, fun t => settleIdle_running⟩
  case refine_9 =>
    intro p d im hi hrun hp hst hc hd him
    split
    · next reason l i hchk => exact exec_programLoad_bad hf hi hrun hn hp hst hc hd him hchk
    next hchk =>
    split
    · next ha => exact exec_programLoad_allowed hf hi hrun hn hp hst hc hd him hchk ha rfl
    next ha =>
    dsimp only
    split
    · next hx => exact exec_programLoad_barred_bare hf hi hrun hn hp hst hc hd him hchk ha rfl hx
    · next hx => exact exec_programLoad_barred_arrays hf hi hrun hn hp hst hc hd him hchk ha rfl hx
  case refine_10 => exact exec_partStart_held hf hi hn hp hst hc hl hh
  case refine_11 => exact exec_partStart_unfit hf hi hn hp hst hc hl hh hfit
  case refine_12 => exact exec_partStart_waits hf hp hst hh hfit hr
  case refine_13 =>
    obtain ⟨x, hx, hs, hw, hh', hps⟩ := getPart_started (s := fetched e q s) hp
    exact ⟨_, x, exec_partStart_serves hf hi hn hp hst hc hl hh hfit hr, hx, hs, hw, hh', hps⟩
  case refine_14 =>
    intro p U hi hp hst hc hl hv hU
    exact exec_partDrain_drains hf hi hn hp hst hc hl hv hU

end Sys2Proof.PartitionCommands
end

section
/-!
PROOFS. What a report leaves (09 R267; 13 R394 to R400): event records, completions and writes to the hosts touch the functions, the links, the rim and the
waiting commands, and nothing else of the module.
-/

open Sys2Proof Sys2Proof.Machine

namespace Sys2Proof.Reports

/-- Two values that are equal once b has blanked a part of them are equal in all that does not look at that part. -/
theorem same_of_blank {σ α : Type} (b : σ → σ) (v : σ → α) (hv : ∀ x, v (b x) = v x) {x y : σ} (h : b x = b y) : v x = v y :=
  (hv x).symm.trans ((congrArg v h).trans (hv y))

/-- The module but for what reports touch. -/
def unreported (s : State) : State := { s with funcs := [], links := [], out := [], tiles := [], rim := [], mgmt := {}, waiting := [] }

section
variable {s t : State} (h : unreported t = unreported s)
include h

theorem getL_of_unreported (l : Nat) : getL t l = getL s l := same_of_blank unreported (getL · l) (fun _ => rfl) h
theorem getPart_of_unreported (n : Nat) : getPart t n = getPart s n := same_of_blank unreported (getPart · n) (fun _ => rfl) h
theorem jobs_of_unreported : t.jobs = s.jobs := same_of_blank unreported State.jobs (fun _ => rfl) h

end

theorem updFn_unreported (s : State) (fn : Fn) (f : Func → Func) : unreported (updFn s fn f) = unreported s := rfl
theorem setQp_unreported (s : State) (fn : Fn) (q : Nat) (x : Option Qp) : unreported (setQp s fn q x) = unreported s := rfl

theorem ite_unreported {c : Prop} [Decidable c] {a b s : State} (ha : unreported a = unreported s) (hb : unreported b = unreported s) :
    unreported (if c then a else b) = unreported s := by
  split
  · exact ha
  · exact hb

/-! ## Writes to the hosts -/

theorem countT_unreported (s : State) (t src n : Nat) : unreported (countT s t src n) = unreported s := by
  unfold countT
  split <;> rfl

theorem sendHost_unreported (s : State) (p : HostPort) (o : HostOut) : unreported (sendHost s p o) = unreported s := by
  unfold sendHost
  dsimp only
  split
  · rfl
  split
  · exact countT_unreported _ _ _ _
  · rfl

theorem sendMsix_unreported (s : State) (fn : Fn) (v : Nat) : unreported (sendMsix s fn v) = unreported s := by
  unfold sendMsix
  exact ite_unreported (sendHost_unreported _ _ _) rfl

theorem writeSegs_unreported (fn : Fn) (xs : List (Nat × Nat)) : ∀ bs s, unreported (writeSegs fn xs bs s) = unreported s := by
  induction xs with
  | nil => exact fun _ _ => rfl
  | cons x xs ih => exact fun _ _ => ite_unreported rfl ((ih _ _).trans (sendHost_unreported _ _ _))

/-! ## Event records -/

theorem ringWrite_unreported (s : State) (fn : Fn) (g : EvRing) (r : EventRec) : unreported (ringWrite s fn g r) = unreported s := by
  unfold ringWrite
  exact ite_unreported ((sendMsix_unreported _ _ _).trans (sendHost_unreported _ _ _)) (sendHost_unreported _ _ _)

theorem drainRing_unreported (fn : Fn) (n : Nat) : ∀ s, unreported (drainRing fn n s) = unreported s := by
  induction n with
  | zero => exact fun _ => rfl
  | succ n ih =>
    intro s
    unfold drainRing
    dsimp only
    split
    · exact ite_unreported ((ih _).trans (ringWrite_unreported _ _ _ _)) rfl
    · rfl

theorem offerFn_unreported (s : State) (fn : Fn) (r : EventRec) : unreported (offerFn s fn r) = unreported s := by
  unfold offerFn
  exact ite_unreported rfl (drainRing_unreported _ _ _)

theorem drainMgmt_unreported (n : Nat) : ∀ s, unreported (drainMgmt n s) = unreported s := by
  induction n with
  | zero => exact fun _ => rfl
  | succ n ih =>
    intro s
    unfold drainMgmt
    split
    · exact ih _
    · rfl

theorem offerMgmt_unreported (s : State) (r : EventRec) : unreported (offerMgmt s r) = unreported s := drainMgmt_unreported _ _

theorem rimSend_unreported (a b : Nat) (m : RimMsg) (s : State) : unreported (rimSend a b m s) = unreported s := by
  show unreported (forEach _ _ s) = unreported s
  exact forEach_keeps unreported _ (fun _ _ => by rfl) _ s

theorem raiseEv_unreported (s : State) (sev code part source unit detail : Nat) : unreported (raiseEv s sev code part source unit detail) = unreported s := by
  unfold raiseEv
  extract_lets r s1 s2 s3 s4 s5 s6
  have h4 : unreported s4 = unreported s := (offerFn_unreported _ _ _).trans ((offerFn_unreported _ _ _).trans rfl)
  have h5 : unreported s5 = unreported s := by
    unfold s5
    split
    · exact (offerFn_unreported _ _ _).trans h4
    · exact h4
  have h6 : unreported s6 = unreported s := by
    unfold s6
    split
    · exact (rimSend_unreported _ _ _ _).trans h5
    · exact h5
  exact ite_unreported ((offerMgmt_unreported _ _).trans h6) h6

/-! ## Completions -/

theorem writeCompl_unreported (s : State) (fn : Fn) (n : Nat) (q : Qp) (c : Completion) : unreported (writeCompl s fn n q c) = unreported s := by
  unfold writeCompl
  exact ite_unreported ((sendMsix_unreported _ _ _).trans (sendHost_unreported _ _ _)) (sendHost_unreported _ _ _)

theorem postPlain_unreported (s : State) (fn : Fn) (c : Completion) : unreported (postPlain s fn c) = unreported s := by
  unfold postPlain
  split
  · rfl
  · exact ite_unreported (writeCompl_unreported _ _ _ _ _) rfl

theorem resolveWaits_unreported (p : WaitFor → Bool) (f : WaitFor → Nat × Nat) (s : State) : unreported (resolveWaits p f s) = unreported s :=
  forEach_keeps unreported (fun (w : Waiting) s => postPlain s w.fn (waitCompl w (f w.what).1 (f w.what).2)) (fun _ _ => postPlain_unreported _ _ _) _ _

end Sys2Proof.Reports
end

section
/-!
PROOFS. AOP (02 R39, R43, R60; 06 R182, R195, R196). Issue and the array-issue port are followed as one run of updates of lantern l, with counts between them:
what the lantern is after each, and that the rest of the module, the governor's window among it, stands.
-/

open Sys2Proof Sys2Proof.Machine

namespace Sys2Proof.ArrayIssue

open Sys2Proof.Reports

/-! ## The partition of a field after a count -/

/-- Whether an entry of the table of partitions holds field f. -/
def holdsField (f : Nat) (e : Nat × Option Partition) : Bool := match e.2 with | some p => inRect p f | none => false

theorem partOfField_eq (s : State) (f : Nat) : partOfField s f = (s.parts.find? (holdsField f)).map (·.1) := rfl

/-- The key found stays the one found when its first entry is written with as much of field f as it had. -/
theorem find_tins (f n : Nat) (v : Option Partition) (m : SMap (Option Partition)) (hn : (m.find? (holdsField f)).map (·.1) = some n)
    (hv : holdsField f (n, v) = holdsField f (n, tget none m n)) : ((tins m n v).find? (holdsField f)).map (·.1) = some n := by
  induction m with
  | nil => exact absurd hn (by simp)
  | cons e r ih =>
    obtain ⟨j, w⟩ := e
    by_cases hj : j = n
    · subst hj
      simp only [tins, tget, if_true, List.find?_cons] at hn hv ⊢
      rw [show holdsField f (j, v) = holdsField f (j, w) from hv]
      cases h : holdsField f (j, w)
      · simpa [h] using hn
      · rfl
    · have hw : holdsField f (j, w) = false := by
        cases h : holdsField f (j, w)
        · rfl
        · simp only [List.find?_cons, h, Option.map_some, Option.some.injEq] at hn
          exact absurd hn hj
      rw [List.find?_cons, hw] at hn
      rw [tget, if_neg hj] at hv
      by_cases hlt : n < j
      · rw [tins, if_neg hj, if_pos hlt, List.find?_cons, List.find?_cons, hw]
        cases holdsField f (n, v)
        · exact hn
        · rfl
      · rw [tins, if_neg hj, if_neg hlt, List.find?_cons, hw]
        exact ih hn hv

/-- Counters of a partition change; which partition holds the field does not. -/
theorem partOfField_countPart (s : State) (f src n : Nat) : partOfField (countPart s f src n) f = partOfField s f := by
  unfold countPart
  split
  · next k hk =>
    unfold updPart
    split
    · next p hp =>
      rw [hk]
      have hne : some { p with counters := bumpAll p.counters src n } ≠ none := Option.some_ne_none _
      rw [partOfField_eq, setPart, tset, if_neg hne]
      refine find_tins f k _ s.parts hk ?_
      rw [show tget none s.parts k = some p from hp]
      rfl
    · rfl
  · rfl

theorem partOf_countL (s : State) (l src n : Nat) : partOf (countL s l src n) l = partOf s l := by
  unfold countL
  split
  · rfl
  · exact partOfField_countPart _ _ _ _

/-! ## Lantern l followed through updates and counts -/

/-- A lantern but for its counters. -/
def tallyless (L : Lantern) : Lantern := { L with counters := [] }

/-- From s to t lantern l has become L; but for counters all else is as before. -/
structure Follows (l : Nat) (L : Lantern) (s t : State) : Prop where
  rest : others t = others s
  parts : ∀ n, (getPart t n).map uncounted = (getPart s n).map uncounted
  part : partOf t l = partOf s l
  lanterns : ∀ m, m ≠ l → getL t m = getL s m
  lantern : tallyless (getL t l) = tallyless L

theorem padAt_congr {K L : Lantern} (h : K.pad = L.pad) (a : Nat) : padAt K a = padAt L a := by
  unfold padAt
  rw [h]

section
variable {l : Nat} {L : Lantern} {s t : State}

theorem follows_refl (l : Nat) (s : State) : Follows l (getL s l) s s := ⟨rfl, fun _ => rfl, rfl, fun _ _ => rfl, rfl⟩

theorem follows_countL (h : Follows l L s t) (src n : Nat) : Follows l L s (countL t l src n) where
  rest := (others_countL _ _ _ _).trans h.rest
  parts k := (parts_countL _ _ _ _ _).trans (h.parts k)
  part := (partOf_countL _ _ _ _).trans h.part
  lanterns m hm := (getL_countL_other _ _ _ hm).trans (h.lanterns m hm)
  lantern := by
    obtain ⟨c, hc⟩ := getL_countL t l src n l
    rw [hc]
    exact h.lantern

/-- An update that does not look at the counters. -/
theorem follows_updL (h : Follows l L s t) {f : Lantern → Lantern} (hf : ∀ K, tallyless (f K) = tallyless (f (tallyless K))) :
    Follows l (f L) s (updL t l f) where
  rest := h.rest
  parts := h.parts
  part := h.part
  lanterns m hm := (getL_updL_other _ _ hm).trans (h.lanterns m hm)
  lantern := by rw [getL_updL_same, hf, h.lantern, ← hf]

/-- A lantern with one engine, or one bank, changed. -/
def withEngine (L : Lantern) (e : Nat) (f : Engine → Engine) : Lantern := { L with engines := tupd {} L.engines e f }
def withBank (L : Lantern) (b : Nat) (f : Bank → Bank) : Lantern := { L with banks := tupd {} L.banks b f }

theorem getEng_withEngine (L : Lantern) (e : Nat) (f : Engine → Engine) : getEng (withEngine L e f) e = f (getEng L e) := tget_tupd_same _ _ _ _
theorem getEng_withBank (L : Lantern) (b : Nat) (f : Bank → Bank) (e : Nat) : getEng (withBank L b f) e = getEng L e := rfl
theorem getEng_withEngine_other (L : Lantern) {e d : Nat} (f : Engine → Engine) (h : d ≠ e) : getEng (withEngine L e f) d = getEng L d := tget_tupd_other _ _ _ h

theorem follows_updEng (h : Follows l L s t) (e : Nat) (f : Engine → Engine) : Follows l (withEngine L e f) s (updEng t l e f) :=
  follows_updL h (f := (withEngine · e f)) fun _ => rfl
theorem follows_updBank (h : Follows l L s t) (b : Nat) (f : Bank → Bank) : Follows l (withBank L b f) s (updBank t l b f) :=
  follows_updL h (f := (withBank · b f)) fun _ => rfl

variable (h : Follows l L s t)
include h

theorem Follows.getEng (e : Nat) : getEng (getL t l) e = Machine.getEng L e := same_of_blank tallyless (Machine.getEng · e) (fun _ => rfl) h.lantern

theorem Follows.padAt (a : Nat) : padAt (getL t l) a = padAt L a := same_of_blank tallyless (Machine.padAt · a) (fun _ => rfl) h.lantern

/-- A partition is there as before, counters aside. -/
theorem Follows.getPart_some {n : Nat} {p : Partition} (hp : getPart s n = some p) : ∃ q, getPart t n = some q ∧ uncounted q = uncounted p := by
  have hn := h.parts n
  rw [hp] at hn
  exact Option.map_eq_some_iff.1 hn

theorem Follows.getPart_none {n : Nat} (hp : getPart s n = none) : getPart t n = none := by
  have hn := h.parts n
  rw [hp] at hn
  exact Option.map_eq_none_iff.1 hn

/-- The governor looks at the field's window, the time and the partition's allowance and step time (06 R196). -/
theorem Follows.governorHolds : governorHolds t (fieldOf l) = governorHolds s (fieldOf l) := by
  have hpart : partOfField t (fieldOf l) = partOfField s (fieldOf l) := h.part
  have hloc : localNow t (fieldOf l) = localNow s (fieldOf l) := same_of_blank others (localNow · (fieldOf l)) (fun _ => rfl) h.rest
  have hfield : getF t (fieldOf l) = getF s (fieldOf l) := same_of_blank others (getF · (fieldOf l)) (fun _ => rfl) h.rest
  unfold Machine.governorHolds windowSum
  rw [hpart, hloc, hfield]
  cases partOfField s (fieldOf l) with
  | none => rfl
  | some n =>
    rcases Option.eq_none_or_eq_some (getPart s n) with hp | ⟨p, hp⟩
    · simp only [hp, h.getPart_none hp]
    · obtain ⟨q, hq, hqp⟩ := h.getPart_some hp
      have hallow : q.allowance = p.allowance := same_of_blank uncounted Partition.allowance (fun _ => rfl) hqp
      have hstep : stepNow q = stepNow p := same_of_blank uncounted stepNow (fun _ => rfl) hqp
      simp only [hp, hq, hallow, hstep]

theorem Follows.debugOn (n : Nat) : debugOn t n = debugOn s n := by
  unfold Machine.debugOn
  rcases Option.eq_none_or_eq_some (getPart s n) with hp | ⟨p, hp⟩
  · simp only [hp, h.getPart_none hp]
  · obtain ⟨q, hq, hqp⟩ := h.getPart_some hp
    simp only [hp, hq]
    exact same_of_blank uncounted Partition.debug (fun _ => rfl) hqp

/-- The hazard detector looks at the scratchpad and at debug (06 R201). -/
theorem Follows.hazard (hpad : L.pad = (getL s l).pad) (a n ty : Nat) : hazard t l a n ty = hazard s l a n ty := by
  have hat : ∀ i, Machine.padAt (getL t l) i = Machine.padAt (getL s l) i := fun i => (h.padAt i).trans (padAt_congr hpad i)
  unfold Machine.hazard
  simp only [h.part, h.debugOn, hat]

end

/-! ## Lines of a sound range read KEEP -/

/-- A line that a KEEP read takes without a fault or a hazard. -/
structure ReadsSound (s : State) (l : Nat) (r : LineRead) : Prop where
  keep : r.take = false
  full : (padAt (getL s l) r.addr).full = true
  parity : (padAt (getL s l) r.addr).parBad = false
  clear : r.ty.bind (hazard s l r.addr 1) = none

theorem follows_readPad {l a : Nat} {L : Lantern} {s t : State} (h : Follows l L s t) (hb : (padAt L a).parBad = false) :
    ∃ u, readPad t l a false = (u, (padAt L a).data, (padAt L a).poison) ∧ Follows l L s u := by
  simp only [readPad, deliver, h.padAt, hb, Bool.or_false]
  cases hp : (padAt L a).poison
  · exact ⟨t, rfl, h⟩
  · exact ⟨countL t l 0x23 1, rfl, follows_countL h _ _⟩

theorem gather_sound {l : Nat} {L : Lantern} {s : State} (hpad : L.pad = (getL s l).pad) (rs : List LineRead) :
    (∀ r ∈ rs, ReadsSound s l r) → ∀ t, Follows l L s t →
      ∃ u, gather l rs t = (u, rs.map (fun r => ((padAt L r.addr).data, (padAt L r.addr).poison)), .all) ∧ Follows l L s u := by
  induction rs with
  | nil => exact fun _ t h => ⟨t, rfl, h⟩
  | cons r rs ih =>
    intro hrs t h
    obtain ⟨hr, hrest⟩ := List.forall_mem_cons.1 hrs
    have hat : padAt L r.addr = padAt (getL s l) r.addr := padAt_congr hpad _
    obtain ⟨u, hread, hu⟩ := follows_readPad h (a := r.addr) (by rw [hat, hr.parity])
    obtain ⟨w, hgather, hw⟩ := ih hrest u hu
    have hclear : r.ty.bind (hazard t l r.addr 1) = none := by
      rw [show hazard t l r.addr 1 = hazard s l r.addr 1 from funext (h.hazard hpad r.addr 1)]
      exact hr.clear
    refine ⟨w, ?_, hw⟩
    rw [gather, h.padAt, hat, hr.full, hclear, hr.keep, hread]
    dsimp only
    rw [hgather]
    simp

/-- No line of a range is a hazard when the range is none. -/
theorem hazard_line {s : State} {l a n ty i : Nat} (h : hazard s l a n ty = none) (hi : i < n) : hazard s l (a + i) 1 ty = none := by
  unfold hazard at h ⊢
  split
  · next hd =>
    rw [if_pos hd, List.find?_eq_none] at h
    have hline := h (a + i) (List.mem_map.2 ⟨i, List.mem_range.2 hi, rfl⟩)
    rw [List.find?_eq_none]
    intro x hx
    obtain rfl : x = a + i := by simpa using hx
    exact hline
  · rfl

theorem readsSound_keepReads {s : State} {l a n ty : Nat} (hs : soundLines (getL s l) a n) (hz : hazard s l a n ty = none) :
    ∀ r ∈ keepReads a n ty, ReadsSound s l r := by
  intro r hr
  obtain ⟨i, hi, rfl⟩ := List.mem_map.1 hr
  have hlt := List.mem_range.1 hi
  exact ⟨rfl, (hs i hlt).1, (hs i hlt).2, hazard_line hz hlt⟩

/-! ## One turn of an engine that was held on nothing -/

theorem waitEnded_zero (s : State) (l since : Nat) : waitEnded s l 0 since = s := rfl

section
variable {l e n : Nat} {s t u : State} {x : EngEntry} {r : List EngEntry} {xs : List (Line × Bool)}

theorem runEngine_idle (he : e ≠ 6) (hq : (getEng (getL s l) e).q = []) : runEngine l e n s = s := by
  cases n with
  | zero => rfl
  | succ n => simp only [runEngine, he, if_false, hq]

variable (he : e ≠ 6) (hq : (getEng (getL s l) e).q = x :: r) (hw : (getEng (getL s l) e).wait = 0)
  (hg : gather l ((opReads x.op).drop x.got.length) s = (t, xs, .all))
include he hq hw hg

theorem runEngine_more {op : EOp} (hs : stepOp l e { x with got := x.got ++ xs } t = .more op u) :
    runEngine l e (n + 1) s = runEngine l e n (setHead u l e { x with op := op, got := [] } 0 0) := by
  simp only [runEngine, he, if_false, decide_false, Bool.false_and, Bool.false_eq_true, hq, hw, hg, hs, waitEnded_zero]

theorem runEngine_done (hs : stepOp l e { x with got := x.got ++ xs } t = .done u) :
    runEngine l e (n + 1) s = runEngine l e n (popHead u l e) := by
  simp only [runEngine, he, if_false, decide_false, Bool.false_and, Bool.false_eq_true, hq, hw, hg, hs, waitEnded_zero]

end

/-! ## The inputs of an operation -/

/-- Alignment and clipping look at the outlier tables alone of a lantern (03 R81, R82). -/
theorem prepare_congr {K L : Lantern} (hd : K.odesc = L.odesc) (he : K.oent = L.oent) (p : ArrayOp) (xs : List (Line × Bool)) :
    prepare K p xs = prepare L p xs := by
  unfold prepare
  rw [hd, he]

theorem peekLines_sound {L : Lantern} {a n : Nat} (hs : soundLines L a n) : peekLines L a n = linesAt L a n := by
  unfold peekLines linesAt
  refine List.map_congr_left fun i hi => ?_
  simp only [(hs i (List.mem_range.1 hi)).2, Bool.or_false]

theorem padFull_sound {L : Lantern} {a n : Nat} (hs : soundLines L a n) : padFull L a n = true :=
  List.all_eq_true.2 fun i hi => (hs i (List.mem_range.1 hi)).1

theorem linesAt_keepReads (L : Lantern) (a n ty : Nat) :
    (keepReads a n ty).map (fun r => ((padAt L r.addr).data, (padAt L r.addr).poison)) = linesAt L a n := List.map_map

/-! ## AOP at the sequencer -/

theorem checked_pass {cs : List (Bool × Nat)} (t : State → Try) (s : State) (h : ∀ c ∈ cs, c.1 = true) : checked cs t s = t s := by
  unfold checked
  rw [List.find?_eq_none.2 fun c hc => by simp [h c hc]]

/-- The operation that AOP, n-th in issue order, hands to the array-issue port, charge c counted. -/
def opOf (n : Nat) (L : Lantern) (f : FmtA) (a c : Nat) : ArrayOp :=
  ⟨n, f.array.toNat, a, f.src.toNat, f.ifmt.toFin, f.rows.toNat + 1, f.acc.toNat, f.set, f.clip.toNat, f.otd.toNat, false, false, 0, [], [], c,
    L.temp, (getArr L a).drift⟩

/-- Input lines of AOP. -/
abbrev inputsOf (f : FmtA) : Nat := inputLines f.ifmt.toNat (f.rows.toNat + 1)

/-- What AOP needs of lantern l to issue and to reach its bank's slot at once. -/
structure Ready (l : Nat) (f : FmtA) (s : State) (a : Nat) (p : ArrayOp) : Prop where
  names : physOf (getL s l) f.array.toNat = some a
  prepared : p = (prepare (getL s l) (opOf (getL s l).issued (getL s l) f a (issueCharge f.ifmt.toFin)) (linesAt (getL s l) f.src.toNat (inputsOf f))).1
  blocks : f.acc.toNat + modeBlocks (getArr (getL s l) a).mode ≤ 512
  range : rangeOk (getL s l) f.src.toNat (inputsOf f) = true
  rows : f.otd ≠ 0 → ∀ i, i < (tget (0, 0) (getL s l).odesc f.otd.toNat).2 →
    rangeOk (getL s l) (tget (0, false, 0) (getL s l).oent ((tget (0, 0) (getL s l).odesc f.otd.toNat).1 + i)).2.2 (digitalLines (getArr (getL s l) a).mode) = true
  sound : soundLines (getL s l) f.src.toNat (inputsOf f)
  clear : hazard s l f.src.toNat (inputsOf f) (ifmtType f.ifmt.toNat) = none
  phases : (phasesOf p).isEmpty = false
  plan : (getL s l).charge + issueCharge f.ifmt.toFin ≤ (getL s l).declared
  governor : governorHolds s (fieldOf l) = false
  slot : (getBank (getL s l) (a / 8)).slot = none

section
variable {l : Nat} {f : FmtA} {s : State} {a : Nat} {p : ArrayOp}

/-- A lantern past the instruction it takes. -/
def passedL (L : Lantern) : Lantern := { L with pc := L.pc + 1, issued := L.issued + 1 }

theorem getL_passed_eq (l : Nat) (s : State) : getL (passed l s) l = passedL (getL s l) := getL_passed l s

/-- The phases seen at issue, by which AOP is charged, are those of the operation in its slot. -/
theorem phasesOf_peeked {L : Lantern} (hs : soundLines L f.src.toNat (inputsOf f)) (n c : Nat) :
    phasesOf (prepare (passedL L) (opOf n (passedL L) f a 0) (peekLines (passedL L) f.src.toNat (inputsOf f))).1
      = phasesOf (prepare L (opOf n L f a c) (linesAt L f.src.toNat (inputsOf f))).1 := by
  rw [peekLines_sound (L := passedL L) hs, prepare_congr (L := L) rfl rfl]
  rfl

theorem aopCharge_passed (h : Ready l f s a p) :
    aopCharge (passed l s) l (opOf (getL s l).issued (passedL (getL s l)) f a 0) = issueCharge f.ifmt.toFin := by
  have hlive := h.phases
  rw [h.prepared, ← phasesOf_peeked h.sound] at hlive
  unfold aopCharge
  rw [getL_passed_eq]
  refine if_neg fun hskip => ?_
  obtain ⟨-, hempty⟩ := Bool.and_eq_true_iff.1 hskip
  exact Bool.noConfusion (hlive.symm.trans hempty)

/-- The checks of AOP at issue: its blocks, its input lines and its digital rows may be addressed (06 R178, R182, R183). -/
def aopChecks (L : Lantern) (f : FmtA) (a : Nat) : List (Bool × Nat) :=
  let d := tget (0, 0) L.odesc f.otd.toNat
  let rows := if f.otd = 0 then [] else (List.range d.2).map (fun i => (tget (0, false, 0) L.oent (d.1 + i)).2.2)
  [blockCheck f.acc.toNat (modeBlocks (getArr L a).mode), lineCheck L f.src.toNat (inputLines f.ifmt.toFin.val (f.rows.toNat + 1))]
    ++ rows.map (fun x => lineCheck L x (digitalLines (getArr L a).mode))

theorem aopChecks_pass (h : Ready l f s a p) : ∀ c ∈ aopChecks (getL (passed l s) l) f a, c.1 = true := by
  rw [getL_passed_eq]
  intro c hc
  rcases List.mem_append.1 hc with hc | hc
  · rcases List.mem_cons.1 hc with rfl | hc
    · exact decide_eq_true h.blocks
    · obtain rfl := List.mem_singleton.1 hc
      exact h.range
  · obtain ⟨x, hx, rfl⟩ := List.mem_map.1 hc
    by_cases hotd : f.otd = 0
    · rw [if_pos hotd] at hx
      exact absurd hx List.not_mem_nil
    · rw [if_neg hotd] at hx
      obtain ⟨i, hi, rfl⟩ := List.mem_map.1 hx
      exact h.rows hotd i (List.mem_range.1 hi)

/-- AOP with its checks passed and its charge within the plan, engine 0 idle. -/
theorem tryAop_issues {t : State} {c : Nat} (hn : physOf (getL t l) f.array.toNat = some a) (hc : ∀ c ∈ aopChecks (getL t l) f a, c.1 = true)
    (hcharge : aopCharge t l (opOf (curSeq (getL t l)) (getL t l) f a 0) = c) (hplan : (getL t l).charge + c ≤ (getL t l).declared)
    (hq : (getEng (getL t l) 0).q = []) :
    tryAop l f t = .done (countL (updL (updEng t l 0 (fun g => { g with q := g.q ++ [⟨curSeq (getL t l), (getL t l).pc - 1, encodeWord (.aop l f),
      .aop (opOf (curSeq (getL t l)) (getL t l) f a c), []⟩] })) l (fun L => { L with charge := L.charge + c })) l 0x04 1) := by
  subst hcharge
  have hroom : ¬ engDepth 0 ≤ (getEng (getL t l) 0).q.length := by rw [hq]; decide
  unfold tryAop
  dsimp only
  rw [hn]
  refine (checked_pass _ t hc).trans ?_
  simp only [pushOp, if_neg hroom]
  exact if_neg (Nat.not_lt.2 hplan)

/-- The entry that AOP makes in engine 0. -/
def entryOf (l : Nat) (L : Lantern) (f : FmtA) (a : Nat) : EngEntry :=
  ⟨L.issued, L.pc, encodeWord (.aop l f), .aop (opOf L.issued L f a (issueCharge f.ifmt.toFin)), []⟩

/-- The lantern with that entry in engine 0 and the charge counted. -/
def issuedL (l : Nat) (f : FmtA) (a : Nat) (L : Lantern) : Lantern :=
  withEngine { passedL L with charge := L.charge + issueCharge f.ifmt.toFin } 0 (fun g => { g with q := g.q ++ [entryOf l L f a] })

theorem issue_aop (hr : Runs l 0 (.aop l f) s) (h : Ready l f s a p) : Follows l (issuedL l f a (getL s l)) s (issue l (.aop l f) (tryAop l f) s) := by
  have hpassed := follows_updL (follows_refl l s) (f := passedL) fun _ => rfl
  have hentry := follows_updEng hpassed 0 (fun g => { g with q := g.q ++ [entryOf l (getL s l) f a] })
  have hcharged := follows_countL (follows_updL hentry (f := fun L => { L with charge := L.charge + issueCharge f.ifmt.toFin }) fun _ => rfl) 0x04 1
  have hL := getL_passed_eq l s
  have htry := tryAop_issues (t := passed l s) (hL ▸ h.names) (aopChecks_pass h) (hL ▸ aopCharge_passed h) (hL ▸ h.plan) (hL ▸ congrArg Engine.q hr.idle)
  rw [hL] at htry
  rw [issue_done hr.takes htry]
  · exact follows_countL hcharged 0x02 1
  · have hpc := same_of_blank tallyless Lantern.pc (fun _ => rfl) hcharged.lantern
    exact fun hend => hr.last (Nat.succ.inj (hpc.symm.trans hend))

/-! ## AOP at the array-issue port -/

/-- What engine 0 holds once the inputs are read. -/
def readEngine (l : Nat) (L : Lantern) (f : FmtA) (a : Nat) (p : ArrayOp) (g : Engine) : Engine := ⟨{ entryOf l L f a with op := .aop p } :: g.q.drop 1, 0, 0⟩
/-- An engine whose head is done. -/
def popped (g : Engine) : Engine := ⟨g.q.drop 1, 0, 0⟩

/-- The lantern with the operation in its bank's issue slot. -/
def slottedL (l : Nat) (f : FmtA) (a : Nat) (p : ArrayOp) (L : Lantern) : Lantern :=
  withEngine (withBank (withEngine (issuedL l f a L) 0 (readEngine l L f a p)) (a / 8) (fun b => { b with slot := some p })) 0 popped

theorem runAop_reads {t : State} (h : Ready l f s a p) {K : Lantern} (ht : Follows l K s t) (hd : K.odesc = (getL s l).odesc) (he : K.oent = (getL s l).oent) :
    ∃ u, runAop l (opOf (getL s l).issued (getL s l) f a (issueCharge f.ifmt.toFin)) (linesAt (getL s l) f.src.toNat (inputsOf f)) t = .more (.aop p) u
      ∧ Follows l K s u := by
  have hprep := prepare_congr ((same_of_blank tallyless Lantern.odesc (fun _ => rfl) ht.lantern).trans hd)
    ((same_of_blank tallyless Lantern.oent (fun _ => rfl) ht.lantern).trans he)
    (opOf (getL s l).issued (getL s l) f a (issueCharge f.ifmt.toFin)) (linesAt (getL s l) f.src.toNat (inputsOf f))
  obtain ⟨cut, bads, hout⟩ : ∃ cut bads, prepare (getL s l) (opOf (getL s l).issued (getL s l) f a (issueCharge f.ifmt.toFin))
      (linesAt (getL s l) f.src.toNat (inputsOf f)) = (p, cut, bads) := ⟨_, _, Prod.ext h.prepared.symm rfl⟩
  refine ⟨_, ?_, follows_countL (follows_countL ht 0x0A (if cut then 1 else 0)) 0x2B bads⟩
  unfold runAop
  dsimp only
  rw [hprep, hout]
  dsimp only
  rw [h.phases]
  rfl

theorem runAop_slots {t : State} (h : Ready l f s a p) {K : Lantern} (ht : Follows l K s t) (hb : K.banks = (getL s l).banks) (xs : List (Line × Bool)) :
    runAop l p xs t = .done (updBank t l (a / 8) (fun b => { b with slot := some p })) := by
  have hready : p.ready = true := by rw [h.prepared]; rfl
  have hphys : p.phys = a := by rw [h.prepared]; rfl
  have hbanks := (same_of_blank tallyless Lantern.banks (fun _ => rfl) ht.lantern).trans hb
  have hslot : (getBank (getL t l) (a / 8)).slot = none := by
    unfold getBank
    rw [hbanks]
    exact h.slot
  unfold runAop
  dsimp only
  rw [hready, ht.governorHolds, h.governor, hphys, hslot]
  rfl

theorem getEng_issuedL (hr : Runs l 0 (.aop l f) s) : getEng (issuedL l f a (getL s l)) 0 = { q := [entryOf l (getL s l) f a] } := by
  have hidle : getEng { passedL (getL s l) with charge := (getL s l).charge + issueCharge f.ifmt.toFin } 0 = {} := hr.idle
  rw [issuedL, getEng_withEngine, hidle]
  rfl

theorem getEng_slottedL (hr : Runs l 0 (.aop l f) s) : getEng (slottedL l f a p (getL s l)) 0 = {} := by
  rw [slottedL, getEng_withEngine, getEng_withBank, getEng_withEngine, getEng_issuedL hr]
  rfl

/-- The port takes the entry, reads and aligns its inputs and puts the operation into the slot. -/
theorem runEngine_aop (hr : Runs l 0 (.aop l f) s) (h : Ready l f s a p) {t : State} (ht : Follows l (issuedL l f a (getL s l)) s t) :
    Follows l (slottedL l f a p (getL s l)) s (runEngine l 0 engineFuel t) := by
  have hready : p.ready = true := by rw [h.prepared]; rfl
  have hissued := (ht.getEng 0).trans (getEng_issuedL hr)
  obtain ⟨u, hread, hu⟩ := gather_sound (by rfl) _ (readsSound_keepReads h.sound h.clear) t ht
  rw [linesAt_keepReads] at hread
  obtain ⟨w, hmore, hw⟩ := runAop_reads h hu rfl rfl
  have hset := follows_updEng hw 0 (readEngine l (getL s l) f a p)
  have hheld := (hset.getEng 0).trans (getEng_withEngine _ 0 _)
  rw [getEng_issuedL hr] at hheld
  have hslot := runAop_slots h hset rfl []
  have hpop := follows_updEng (follows_updBank hset (a / 8) fun b => { b with slot := some p }) 0 popped
  have hidle := (hpop.getEng 0).trans (getEng_slottedL hr)
  have hnone : opReads (.aop p) = [] := if_pos hready
  have hread' : runEngine l 0 engineFuel t = runEngine l 0 63 (updEng w l 0 (readEngine l (getL s l) f a p)) :=
    runEngine_more (by decide) (congrArg Engine.q hissued) (congrArg Engine.wait hissued) hread hmore
  have hplace : runEngine l 0 63 (updEng w l 0 (readEngine l (getL s l) f a p)) = runEngine l 0 62 (updEng (updBank _ l (a / 8) _) l 0 popped) :=
    runEngine_done (by decide) (congrArg Engine.q hheld) (congrArg Engine.wait hheld) (by rw [hnone]; rfl) hslot
  rw [hread', hplace, runEngine_idle (by decide) (congrArg Engine.q hidle)]
  exact hpop

end

/-! ## The statement -/

/-- What Follows says of an instruction of engine 0. -/
theorem became_of_follows {l : Nat} {K L : Lantern} {s t : State} (h : Follows l K s t) (hL : uncountedL K = uncountedL L) (hpc : K.pc = (getL s l).pc + 1)
    (hissued : K.issued = (getL s l).issued + 1) (hidle : getEng K 0 = {}) (hengines : ∀ d, d ≠ 0 → getEng K d = getEng (getL s l) d) : Became l 0 L s t where
  rest := h.rest
  parts := h.parts
  lanterns := h.lanterns
  lantern := (same_of_blank tallyless uncountedL (fun _ => rfl) h.lantern).trans hL
  pc := (same_of_blank tallyless Lantern.pc (fun _ => rfl) h.lantern).trans hpc
  issued := (same_of_blank tallyless Lantern.issued (fun _ => rfl) h.lantern).trans hissued
  engine := (h.getEng 0).trans hidle
  engines d hd := (h.getEng d).trans (hengines d hd)

theorem getEng_slottedL_other {l : Nat} {f : FmtA} {a : Nat} {p : ArrayOp} {L : Lantern} {d : Nat} (hd : d ≠ 0) :
    getEng (slottedL l f a p L) d = getEng L d := by
  rw [slottedL, getEng_withEngine_other _ _ hd, getEng_withBank, getEng_withEngine_other _ _ hd, issuedL, getEng_withEngine_other _ _ hd]
  rfl

theorem exec_aop_slots {l : Nat} {f : FmtA} {s : State} {a : Nat} {p : ArrayOp} (hr : Runs l 0 (.aop l f) s) (h : Ready l f s a p) :
    ∃ t, exec (.aop l f) s = .next t ∧ Follows l (slottedL l f a p (getL s l)) s t := by
  have hissue := issue_aop hr h
  have hwait : (getEng (getL (issue l (.aop l f) (tryAop l f) s) l) 0).wait = 0 := by rw [hissue.getEng, getEng_issuedL hr]
  refine ⟨_, ?_, runEngine_aop hr h hissue⟩
  rw [exec_aop, execAop, show lanternOk l = true from decide_eq_true hr.takes.unit, guarded_true, issueTo, startEngine, if_pos hwait]

/-- Settles O29: the issue and the port's one run, followed to the slot. -/
theorem arrayIssue : Obligations.ArrayIssue := by
  unfold Obligations.ArrayIssue
  rintro l f s a n c xs p0 p hr hname rfl rfl rfl rfl hp hblocks hrange hrows hsound hclear hphases hplan hgov hslot
  have hcharge : (if f.ifmt = 3 then 1079 else 556) = issueCharge f.ifmt.toFin := by
    generalize f.ifmt = ifmt
    revert ifmt
    decide
  rw [hcharge] at hp hplan ⊢
  obtain ⟨t, hexec, ht⟩ := exec_aop_slots hr ⟨hname, hp, hblocks, hrange, hrows, hsound, hclear, hphases, hplan, hgov, hslot⟩
  exact ⟨t, hexec, became_of_follows ht rfl rfl rfl (getEng_slottedL hr) fun d hd => getEng_slottedL_other hd⟩

end Sys2Proof.ArrayIssue
end

section
/-!
PROOFS. Phases of an array operation (02 R40, R46, R49, R50, R52, R54, R55; 03 R83): what its start, the end of a sub-phase, the placing of its outputs and of
its residuals and the restore make of the bank, and what the counts and charges among them leave.
-/

open Sys2Proof Sys2Proof.Machine

namespace Sys2Proof.ArrayPhases

open Sys2Proof.Reports

/-! ## What charges and counts leave -/

theorem getL_countPart (s : State) (f src n m : Nat) : getL (countPart s f src n) m = getL s m := (bumpAll_parts s f src n).2.1 m

theorem getL_chargeField (s : State) (f c m : Nat) : getL (chargeField s f c) m = getL s m := by
  unfold chargeField countF
  dsimp only
  split
  · rfl
  · exact getL_countPart _ _ _ _ _

theorem draws_countPart (s : State) (f src n : Nat) : (countPart s f src n).draws = s.draws :=
  same_of_blank others State.draws (fun _ => rfl) (bumpAll_parts s f src n).1

theorem draws_countL (s : State) (l src n : Nat) : (countL s l src n).draws = s.draws := same_of_blank others State.draws (fun _ => rfl) (others_countL s l src n)

theorem draws_chargeField (s : State) (f c : Nat) : (chargeField s f c).draws = s.draws := by
  unfold chargeField countF
  dsimp only
  split
  · rfl
  · exact draws_countPart _ _ _ _

/-- Counting leaves what does not look at a lantern's counters. -/
theorem banks_countL (s : State) (l src n m : Nat) : (getL (countL s l src n) m).banks = (getL s m).banks := by
  obtain ⟨c, hc⟩ := getL_countL s l src n m
  rw [hc]

theorem banks_updL (s : State) (l m : Nat) {f : Lantern → Lantern} (hf : ∀ L, (f L).banks = L.banks) : (getL (updL s l f) m).banks = (getL s m).banks := by
  by_cases h : m = l
  · subst h
    rw [getL_updL_same, hf]
  · rw [getL_updL_other _ _ h]

theorem banks_raiseL (s : State) (l sev code detail m : Nat) : (getL (raiseL s l sev code detail) m).banks = (getL s m).banks :=
  congrArg Lantern.banks (getL_of_unreported (raiseEv_unreported _ _ _ _ _ _ _) m)

theorem getBank_congr {K L : Lantern} (b : Nat) (h : K.banks = L.banks) : getBank K b = getBank L b := by
  unfold getBank
  rw [h]

theorem updBank_congr (s : State) (l b : Nat) {f g : Bank → Bank} (h : f (getBank (getL s l) b) = g (getBank (getL s l) b)) : updBank s l b f = updBank s l b g :=
  updL_congr s l (congrArg (fun x => ({ getL s l with banks := tset {} (getL s l).banks b x } : Lantern)) h)

theorem getBank_updBank (s : State) (l b : Nat) (f : Bank → Bank) : getBank (getL (updBank s l b f) l) b = f (getBank (getL s l) b) := by
  unfold updBank
  rw [getL_updL_same]
  exact tget_tupd_same _ _ _ _

theorem units_ok {l b : Nat} (hl : l < 1600) (hb : b < 32) : (lanternOk l && bankOk b) = true := by
  rw [show lanternOk l = true from decide_eq_true hl, show bankOk b = true from decide_eq_true hb]
  rfl

section
variable {l b : Nat} {s : State}

/-! ## Start (02 R40, R52, R60; 06 R196) -/

theorem holdSlot_same {code : Nat} (h : (getBank (getL s l) b).wait = code) : holdSlot l b code s = s := if_pos h

theorem slotWait_zero {p : ArrayOp} (hgov : governorHolds s (fieldOf l) = false)
    (hacc : accWaits (getL s l) p.seq p.acc (modeBlocks (getArr (getL s l) p.phys).mode) p.set = false) : slotWait s l p = 0 := by
  unfold slotWait
  dsimp only
  rw [hgov, show accWaits (getL s l) p.seq p.acc (arrayBlocks (getL s l) p).2 p.set = false from hacc]
  rfl

theorem startArrayOp_starts {p : ArrayOp} {ph : Phase} {rest : List Phase} (hslot : (getBank (getL s l) b).slot = some p) (hwaits : slotWait s l p = 0)
    (hph : phasesOf p = ph :: rest) (hwait : (getBank (getL s l) b).wait = 0) (hrun : (getBank (getL s l) b).run = none)
    (hprog : (getBank (getL s l) b).prog = none) (hon : (getBank (getL s l) b).on = true) (hderate : derateHolds s l = false) :
    startArrayOp l b s = updBank (countL (countL
        (chargeField (if p.set then updL s l (fun L => { L with acc := clearBlocks L.acc p.acc (arrayBlocks L p).2 }) else s) (fieldOf l) (issueCharge p.ifmt))
        l 0x06 (if ph.split = 2 then 1 else 0)) l 0x07 (if ph.split = 4 then 1 else 0)) l b
      (fun B => { B with
        slot := none,
        run := some { op := p, todo := { ph with sub := (liveSubs (phaseAmps p ph.weight) ph.split).headD 0 } :: rest, convs := [], firstSat := [],
                      placed := false, residDone := p.resid.isEmpty, restored := false } }) := by
  unfold startArrayOp
  dsimp only
  rw [hslot]
  dsimp only
  rw [hwaits, holdSlot_same hwait, hwaits, hph, hrun, hprog, hon, hderate]
  rfl

theorem startArrayOp_empty (hslot : (getBank (getL s l) b).slot = none) : startArrayOp l b s = s := by
  unfold startArrayOp
  dsimp only
  rw [hslot]

/-! ## The end of a sub-phase (02 R46, R54, R55) -/

theorem endSubPhase_next {r : Run} {ph : Phase} {rest : List Phase} {xs : List (Nat × Int × Bool)} {n k : Nat} (hrun : (getBank (getL s l) b).run = some r)
    (htodo : r.todo = ph :: rest) (hsub : runSub s l r.op ph ph.sub = (xs, n))
    (hnext : (liveSubs (phaseAmps r.op ph.weight) ph.split).find? (fun k => decide (ph.sub < k)) = some k) (hfirst : ph.resplit = false) :
    endSubPhase l b s = updBank (chargeField { s with draws := s.draws + n } (fieldOf l) 305) l b
      (fun B => { B with run := some { r with todo := { ph with got := ph.got ++ xs, sub := k } :: rest } }) := by
  unfold endSubPhase
  rw [hrun]
  dsimp only
  rw [htodo]
  dsimp only
  rw [hsub]
  dsimp only
  rw [hnext, hfirst]
  rfl

/-- The state after the pass ph of the run r on bank b has ended. -/
def passDone (l b : Nat) (r : Run) (ph : Phase) (rest : List Phase) (s : State) : State :=
  updBank (endPass l r ph rest s).1 l b (fun B => { B with run := some (endPass l r ph rest s).2 })

theorem endSubPhase_last {r : Run} {ph : Phase} {rest : List Phase} {xs : List (Nat × Int × Bool)} {n : Nat} (hrun : (getBank (getL s l) b).run = some r)
    (htodo : r.todo = ph :: rest) (hsub : runSub s l r.op ph ph.sub = (xs, n)) (hlast : ∀ k, k ∈ liveSubs (phaseAmps r.op ph.weight) ph.split → k ≤ ph.sub) :
    endSubPhase l b s = passDone l b r { ph with got := ph.got ++ xs } rest { s with draws := s.draws + n } := by
  have hnone : (liveSubs (phaseAmps r.op ph.weight) ph.split).find? (fun k => decide (ph.sub < k)) = none :=
    List.find?_eq_none.2 fun k hk => by simpa using hlast k hk
  unfold endSubPhase
  rw [hrun]
  dsimp only
  rw [htodo]
  dsimp only
  rw [hsub]
  dsimp only
  rw [hnone]
  rfl

/-! ## The end of a pass (02 R55, R56) -/

/-- Column groups of a pass that returned an end code and may be split further. -/
def saturated (ph : Phase) : List Nat := ph.groups.filter (fun g => ph.split != 16 && ph.got.any (fun x => x.2.2 && x.1 / 64 == g))

/-- A run whose pass ph has ended: the conversions of its sound groups kept, its end codes noted. -/
def passEnded (r : Run) (ph : Phase) : Run :=
  { r with
    convs := r.convs ++ keepConvs ph (ph.groups.filter (fun g => !(saturated ph).contains g))
    firstSat := if ph.resplit then r.firstSat else r.firstSat ++ ((ph.got.filter (fun x => x.2.2)).map (·.1)).eraseDups }

/-- The pass that converts groups again at a finer split. -/
def finerPass (p : ArrayOp) (ph : Phase) : Phase :=
  ⟨ph.weight, finer ph.split, saturated ph, (liveSubs (phaseAmps p ph.weight) (finer ph.split)).headD 0, [], true⟩

theorem endPass_eq (l : Nat) (r : Run) (ph : Phase) (rest : List Phase) (s : State) :
    endPass l r ph rest s =
      if (saturated ph).isEmpty then
        match rest with
        | [] => (s, { passEnded r ph with todo := [] })
        | n :: rest => ((startPhase s l r.op n).1, { passEnded r ph with todo := (startPhase s l r.op n).2 :: rest })
      else (startSub s l true true, { passEnded r ph with todo := finerPass r.op ph :: rest }) := by
  have hsat : ph.groups.filter (fun g => ph.split != 16 && ((ph.got.filter (fun x => x.2.2)).map (·.1)).any (fun c => c / 64 == g)) = saturated ph := by
    simp only [saturated, List.any_map, List.any_filter, Function.comp_def]
  unfold endPass
  dsimp only
  rw [hsat]
  cases rest <;> rfl

theorem endPass_run (l : Nat) (r : Run) (ph : Phase) (rest : List Phase) (s : State) :
    ∃ todo, (endPass l r ph rest s).2 = { passEnded r ph with todo := todo }
      ∧ (saturated ph = [] → todo.map (fun x => (x.weight, x.split, x.groups)) = rest.map (fun x => (x.weight, x.split, x.groups)))
      ∧ (saturated ph ≠ [] → todo = finerPass r.op ph :: rest) := by
  rw [endPass_eq]
  by_cases h : saturated ph = []
  · rw [h]
    cases rest with
    | nil => exact ⟨[], rfl, fun _ => rfl, fun hne => absurd rfl hne⟩
    | cons n rest => exact ⟨_, rfl, fun _ => rfl, fun hne => absurd rfl hne⟩
  · rw [if_neg (by simpa using h)]
    exact ⟨_, rfl, fun he => absurd he h, fun _ => rfl⟩

/-- Starting a phase or a pass counts and charges. -/
theorem endPass_state (l : Nat) (r : Run) (ph : Phase) (rest : List Phase) (s : State) :
    (endPass l r ph rest s).1.draws = s.draws ∧ ∀ m, m ≠ l → getL (endPass l r ph rest s).1 m = getL s m := by
  rw [endPass_eq]
  split
  · cases rest with
    | nil => exact ⟨rfl, fun _ _ => rfl⟩
    | cons n rest =>
      exact ⟨(draws_countL _ _ _ _).trans (draws_countL _ _ _ _), fun m hm => (getL_countL_other _ _ _ hm).trans (getL_countL_other _ _ _ hm)⟩
  · have hsub : startSub s l true true = countL (chargeField s (fieldOf l) 360) l 0x08 1 := rfl
    dsimp only
    rw [hsub]
    exact ⟨(draws_countL _ _ _ _).trans (draws_chargeField _ _ _), fun m hm => (getL_countL_other _ _ _ hm).trans (getL_chargeField _ _ _ _)⟩

theorem passDone_run (l b : Nat) (r : Run) (ph : Phase) (rest : List Phase) (s : State) :
    (getBank (getL (passDone l b r ph rest s) l) b).run = some (endPass l r ph rest s).2 := by
  unfold passDone
  rw [getBank_updBank]

theorem passDone_state (l b : Nat) (r : Run) (ph : Phase) (rest : List Phase) (s : State) :
    (passDone l b r ph rest s).draws = s.draws ∧ ∀ m, m ≠ l → getL (passDone l b r ph rest s) m = getL s m := by
  obtain ⟨hdraws, hothers⟩ := endPass_state l r ph rest s
  exact ⟨hdraws, fun m hm => (getL_updL_other _ _ hm).trans (hothers m hm)⟩

theorem keepConvs_passed (ph : Phase) : keepConvs ph (ph.groups.filter (fun g => !(saturated ph).contains g))
    = (ph.got.filter (fun x => ph.groups.contains (x.1 / 64) && !(saturated ph).contains (x.1 / 64))).map (fun x => ⟨x.1, x.2.1, ph.weight, ph.split == 16 && x.2.2⟩) := by
  have hcontains : ∀ c, (ph.groups.filter (fun g => !(saturated ph).contains g)).contains c = (ph.groups.contains c && !(saturated ph).contains c) := fun c => by
    simp only [List.contains_eq_mem, List.mem_filter, Bool.decide_and, Bool.decide_eq_true]
  unfold keepConvs
  simp only [hcontains]

/-! ## Runs of a bank with one run (02 R48, R50; 03 R83) -/

theorem updRuns_run {B : Bank} {p : Run → Bool} {f : Run → Run} {r : Run} (hlate : B.late = []) (hrun : B.run = some r) (hp : p r = true) :
    updRuns B p f = { B with run := some (f r) } := by
  unfold updRuns
  rw [hlate, hrun]
  simp [hp]

theorem dropDone_empty {B : Bank} (hlate : B.late = []) : dropDone B = B := by
  unfold dropDone
  rw [hlate]
  obtain ⟨on, slot, wait, since, run, late, prog⟩ := B
  subst hlate
  rfl

theorem firstRun_run {B : Bank} {p : Run → Bool} {r : Run} (hlate : B.late = []) (hrun : B.run = some r) (hp : p r = true) : firstRun B p = some r := by
  unfold firstRun
  rw [hlate, hrun]
  exact List.find?_cons_of_pos hp

/-- A bank whose one run has placed what f notes. -/
theorem settleRun_run {s t : State} {p : Run → Bool} {f : Run → Run} {r q : Run} (hlate : (getBank (getL s l) b).late = [])
    (hrun : (getBank (getL s l) b).run = some q) (hp : p q = true) (hf : f q = f r) (ht : updBank s l b (fun B => { B with run := some (f r) }) = t) :
    settleRun l b p f r s = if (f r).placed && (f r).residDone then sampleMonitors t l (f r) else t := by
  have hupd : updBank s l b (fun B => dropDone (updRuns B p f)) = t := by
    rw [← ht]
    refine updBank_congr s l b ?_
    rw [updRuns_run hlate hrun hp, hf]
    exact dropDone_empty hlate
  unfold settleRun
  rw [hupd]

/-! ## Outputs and residuals -/

theorem banks_placeIn {s t : State} {cs : List Contr} {m : Nat} (h : placeIn s l cs = some t) : (getL t m).banks = (getL s m).banks := by
  unfold placeIn at h
  split at h
  · exact absurd h (by simp)
  · next a _ =>
    obtain rfl := Option.some.inj h
    rw [banks_countL, banks_countL]
    exact banks_updL _ _ _ fun _ => rfl

theorem placeOutputs_places {r : Run} {s' : State} (hlate : (getBank (getL s l) b).late = []) (hrun : (getBank (getL s l) b).run = some r)
    (htodo : r.todo = []) (hplaced : r.placed = false) (hwait : r.wait = 0) (hplace : placeIn s l (arrayContrs (getL s l) r) = some s') :
    placeOutputs l b s =
      (let done : Run := { r with placed := true, wait := 0, since := 0 }
       let t := updBank (countL s' l 0x09 (taggedOutputs (getL s l) r)) l b (fun B => { B with run := some done })
       if r.residDone then sampleMonitors t l done else t) := by
  have hto : toPlace r = true := by unfold toPlace; rw [htodo, hplaced]; rfl
  have hbank : getBank (getL (countL s' l 0x09 (taggedOutputs (getL s l) r)) l) b = getBank (getL s l) b :=
    getBank_congr b ((banks_countL _ _ _ _ _).trans (banks_placeIn hplace))
  unfold placeOutputs
  rw [firstRun_run hlate hrun hto]
  dsimp only
  rw [hplace, hwait]
  dsimp only
  rw [ArrayIssue.waitEnded_zero]
  exact settleRun_run (by rw [hbank, hlate]) (by rw [hbank, hrun]) hto rfl rfl

theorem banks_parityMiss (s : State) (l n a m : Nat) : (getL (parityMiss s l n a) m).banks = (getL s m).banks := by
  unfold parityMiss
  dsimp only
  rw [banks_raiseL]
  refine (banks_updL _ _ _ ?_).trans (banks_countL _ _ _ _ _)
  exact fun _ => rfl

theorem banks_deliver (s : State) (l n a m : Nat) (poison parBad : Bool) : (getL (deliver s l n a poison parBad).1 m).banks = (getL s m).banks := by
  have hmiss : (getL (if parBad then parityMiss s l n a else s) m).banks = (getL s m).banks := by
    split
    · exact banks_parityMiss _ _ _ _ _
    · rfl
  unfold deliver
  dsimp only
  split
  · exact (banks_countL _ _ _ _ _).trans hmiss
  · exact hmiss

theorem readPad_state (s : State) (l a : Nat) (take : Bool) :
    (readPad s l a take).1 =
      if take then updL (deliver s l 0 a (padAt (getL s l) a).poison (padAt (getL s l) a).parBad).1 l (fun L => { L with pad := tset {} L.pad a {} })
      else (deliver s l 0 a (padAt (getL s l) a).poison (padAt (getL s l) a).parBad).1 := rfl

theorem banks_readPad (s : State) (l a m : Nat) (take : Bool) : (getL (readPad s l a take).1 m).banks = (getL s m).banks := by
  rw [readPad_state]
  split
  · refine (banks_updL _ _ _ ?_).trans (banks_deliver _ _ _ _ _ _ _)
    exact fun _ => rfl
  · exact banks_deliver _ _ _ _ _ _ _

/-- Reading operands leaves the banks. -/
theorem banks_gather (l m : Nat) (rs : List LineRead) : ∀ s, (getL (gather l rs s).1 m).banks = (getL s m).banks := by
  induction rs with
  | nil => exact fun _ => rfl
  | cons r rs ih =>
    intro s
    unfold gather
    split
    · rfl
    · split
      · rfl
      · exact (ih _).trans (banks_readPad _ _ _ _ _)

theorem placeResidual_places {r : Run} {m : Fin 3} {s1 s2 : State} {xs : List (Line × Bool)} (hlate : (getBank (getL s l) b).late = [])
    (hrun : (getBank (getL s l) b).run = some r) (hresid : r.residDone = false) (hwait : r.resWait = 0) (hrows : r.rows = [])
    (hm : (getArr (getL s l) r.op.phys).mode = m) (hfree : wideFree (getL s l) = true) (hgather : gather l (rowReads m r.op.resid) s = (s1, xs, .all))
    (hplace : placeIn (countL (updBank s1 l b (fun B => { B with run := some { r with rows := xs } })) l 0x2B (badCells 2 xs)) l
      ((List.range (2048 / slicesOf m)).flatMap (residColumn r.op (splitRows (digitalLines m) r.op.resid xs))) = some s2) :
    placeResidual l b s =
      (let done : Run := { r with
         residDone := true, spoilt := spoiltColumns r.op m (splitRows (digitalLines m) r.op.resid xs), rows := [], resWait := 0, resSince := 0 }
       let t := updBank s2 l b (fun B => { B with run := some done })
       if r.placed then sampleMonitors t l done else t) := by
  have hto : toResid r = true := by unfold toResid; rw [hresid]; rfl
  have hto' : toResid { r with rows := xs } = true := hto
  have hbank1 : getBank (getL s1 l) b = getBank (getL s l) b := by
    have h := banks_gather l l (rowReads m r.op.resid) s
    rw [hgather] at h
    exact getBank_congr b h
  have hread : updBank s1 l b (fun B => updRuns B toResid (fun r => { r with rows := r.rows ++ xs })) = updBank s1 l b (fun B => { B with run := some { r with rows := xs } }) := by
    refine updBank_congr s1 l b ?_
    rw [hbank1, updRuns_run hlate hrun hto, hrows]
    rfl
  have hbank2 : getBank (getL s2 l) b = { getBank (getL s l) b with run := some { r with rows := xs } } := by
    rw [getBank_congr b ((banks_placeIn hplace).trans (banks_countL _ _ _ _ _)), getBank_updBank, hbank1]
  unfold placeResidual
  dsimp only
  rw [firstRun_run hlate hrun hto]
  dsimp only
  rw [hfree, hm, hrows, List.length_nil, List.drop_zero, hgather]
  dsimp only
  rw [hread, List.nil_append, if_neg (by decide), hplace]
  dsimp only
  rw [hwait, ArrayIssue.waitEnded_zero]
  refine Eq.trans (settleRun_run (q := { r with rows := xs }) (by rw [hbank2]; exact hlate) (by rw [hbank2]) hto' ?_ rfl) ?_
  · rfl
  dsimp only
  rw [Bool.and_true]

/-! ## The restore (02 R49) -/

theorem endRestore_frees {r : Run} (hlate : (getBank (getL s l) b).late = []) (hrun : (getBank (getL s l) b).run = some r) (htodo : r.todo = []) :
    endRestore l b s =
      updBank s l b (fun B => { B with run := none, late := if r.placed && r.residDone then [] else [{ r with restored := true }] }) := by
  unfold endRestore
  rw [hrun]
  dsimp only
  rw [htodo, if_pos List.isEmpty_nil]
  refine updBank_congr s l b ?_
  unfold dropDone
  dsimp only
  rw [hlate, List.nil_append]
  cases hplaced : r.placed
  · rfl
  · cases r.residDone <;> rfl

end

/-! ## The statement -/

/-- Settles O30: each event of a bank is the effect of its function above. -/
theorem arrayPhases : Obligations.ArrayPhases := by
  unfold Obligations.ArrayPhases
  intro l b s B hl hb hB
  subst hB
  have hok := units_ok hl hb
  refine ⟨?_, ?_, ?_, ?_, ?_, ?_, ?_⟩
  · intro p ph rest k hslot hk hgov hacc hph hwait hrun hprog hon hderate
    subst hk
    rw [exec_arrayOpStart, execArrayOpStart, hok, guarded_true, startArrayOp_starts hslot (slotWait_zero hgov hacc) hph hwait hrun hprog hon hderate]
    rfl
  · intro hslot
    rw [exec_arrayOpStart, execArrayOpStart, hok, guarded_true, startArrayOp_empty hslot]
  · intro r ph rest xs n k hrun htodo hsub hnext hfirst
    rw [exec_phaseComplete, execPhaseComplete, hok, guarded_true, endSubPhase_next hrun htodo hsub hnext hfirst]
  · intro r ph rest xs n sat hrun htodo hsub hlast hsat
    obtain ⟨todo, hend, hdone, hagain⟩ := endPass_run l r { ph with got := ph.got ++ xs } rest { s with draws := s.draws + n }
    obtain ⟨hdraws, hothers⟩ := passDone_state l b r { ph with got := ph.got ++ xs } rest { s with draws := s.draws + n }
    have hsaturated : sat = saturated { ph with got := ph.got ++ xs } := hsat
    have hevent : exec (.phaseComplete l b) s = .next (passDone l b r { ph with got := ph.got ++ xs } rest { s with draws := s.draws + n }) := by
      rw [exec_phaseComplete, execPhaseComplete, hok, guarded_true, endSubPhase_last hrun htodo hsub hlast]
    refine ⟨_, _, hevent, passDone_run _ _ _ _ _ _, ?_⟩
    rw [hend, hsaturated]
    refine ⟨rfl, congrArg (r.convs ++ ·) (keepConvs_passed _), hdone, hagain, fun hfirst => if_neg (by simp [hfirst]), hdraws, fun m hm => ?_⟩
    rw [hothers m hm]
    exact ⟨rfl, rfl, rfl⟩
  · intro r s' hlate hrun htodo hplaced hwait hplace
    rw [exec_arrayOpComplete, execArrayOpComplete, hok, guarded_true, placeOutputs_places hlate hrun htodo hplaced hwait hplace]
  · intro r m s1 s2 xs rows done hlate hrun hresid hwait hrows hm hfree hgather hsplit hdone hplace
    subst hsplit hdone
    rw [exec_outlierResidual, execOutlierResidual, hok, guarded_true, placeResidual_places hlate hrun hresid hwait hrows hm.symm hfree hgather hplace]
  · intro r hlate hrun htodo
    rw [exec_bankRestoreDone, execBankRestoreDone, hok, guarded_true, endRestore_frees hlate hrun htodo]

end Sys2Proof.ArrayPhases
end

section
/-!
PROOFS. What the events of the weights are about: the arrays, their logical numbers and temperatures, the chunks in programming, the arrays in erasure and the
partitions' weight sets; and the operations around such an event that leave all of these: counts, reports, commits of records, and the settling of queue pairs.
-/

open Sys2Proof Sys2Proof.Machine

namespace Sys2Proof.Weights

open Sys2Proof.Reports

/-! ## The views -/

/-- The wick arrays, by lantern and number. -/
def arrays (s : State) (l a : Nat) : WickArray := getArr (getL s l) a

/-- The logical numbers of each lantern's arrays, and its temperature. -/
def names (s : State) (l : Nat) : SMap ArrayName × Int := ((getL s l).amap, (getL s l).temp)

/-- The chunks in programming and the arrays in erasure. -/
def tasks (s : State) : List ChunkJob × List (Nat × Nat) × Bool := (s.jobs, s.erasing, s.erased)

/-- The weight sets of the partitions. -/
def wsets (s : State) (n : Nat) : Option WeightSet := (getPart s n).map Partition.wset

/-- All of these. -/
def kept (s : State) := (arrays s, names s, tasks s, wsets s)

section
variable {s t : State}

theorem arrays_of_kept (h : kept t = kept s) : arrays t = arrays s := congrArg Prod.fst h
theorem names_of_kept (h : kept t = kept s) : names t = names s := congrArg (fun x => x.2.1) h
theorem tasks_of_kept (h : kept t = kept s) : tasks t = tasks s := congrArg (fun x => x.2.2.1) h
theorem wsets_of_kept (h : kept t = kept s) : wsets t = wsets s := congrArg (fun x => x.2.2.2) h
theorem jobs_of_tasks (h : tasks t = tasks s) : t.jobs = s.jobs := congrArg Prod.fst h

theorem kept_of_unreported (h : unreported t = unreported s) : kept t = kept s := same_of_blank unreported kept (fun _ => rfl) h

theorem kept_of_views (ha : arrays t = arrays s) (hn : names t = names s) (ht : tasks t = tasks s) (hw : wsets t = wsets s) : kept t = kept s := by
  unfold kept
  rw [ha, hn, ht, hw]

theorem jobArray_of_names (h : names t = names s) (j : ChunkJob) : jobArray t j = jobArray s j := by
  have hmap : (getL t j.lantern).amap = (getL s j.lantern).amap := congrArg Prod.fst (congrFun h j.lantern)
  unfold jobArray physOf
  rw [hmap]

theorem wholeTemp_of_names (h : names t = names s) (l : Nat) : wholeTemp (getL t l) = wholeTemp (getL s l) := by
  have htemp : (getL t l).temp = (getL s l).temp := congrArg Prod.snd (congrFun h l)
  unfold wholeTemp
  rw [htemp]

end

theorem forEach_kept {α : Type} (xs : List α) (f : α → State → State) (h : ∀ x s, kept (f x s) = kept s) (s : State) : kept (forEach xs f s) = kept s :=
  forEach_keeps kept f h xs s

theorem ite_kept {c : Prop} [Decidable c] {a b s : State} (ha : kept a = kept s) (hb : kept b = kept s) : kept (if c then a else b) = kept s := by
  split
  · exact ha
  · exact hb

/-! ## Changes of a lantern and of a partition -/

/-- A change of a lantern that spares its arrays, their numbers and its temperature. -/
theorem updL_kept (s : State) (l : Nat) {f : Lantern → Lantern} (hf : ∀ L, (f L).arrays = L.arrays ∧ (f L).amap = L.amap ∧ (f L).temp = L.temp) :
    kept (updL s l f) = kept s := by
  have hsame : ∀ m, (getL (updL s l f) m).arrays = (getL s m).arrays ∧ (getL (updL s l f) m).amap = (getL s m).amap
      ∧ (getL (updL s l f) m).temp = (getL s m).temp := fun m => by
    by_cases h : m = l
    · subst h
      rw [getL_updL_same]
      exact hf _
    · rw [getL_updL_other _ _ h]
      exact ⟨rfl, rfl, rfl⟩
  refine kept_of_views (funext fun m => funext fun a => ?_) (funext fun m => ?_) rfl rfl
  · exact congrArg (fun x => tget {} x a) (hsame m).1
  · exact Prod.ext (hsame m).2.1 (hsame m).2.2

theorem setPart_kept (s : State) (n : Nat) {p : Option Partition} (h : p.map Partition.wset = wsets s n) : kept (setPart s n p) = kept s := by
  refine kept_of_views rfl rfl rfl (funext fun m => ?_)
  unfold wsets
  rw [getPart_setPart]
  split
  · next hm =>
    subst hm
    exact h
  · rfl

/-- A change of a partition that spares its weight set. -/
theorem updPart_kept (s : State) (n : Nat) {f : Partition → Partition} (hf : ∀ p, (f p).wset = p.wset) : kept (updPart s n f) = kept s := by
  unfold updPart
  split
  · next p hp => exact setPart_kept s n (by rw [wsets, hp]; exact congrArg some (hf p))
  · rfl

theorem noteIdle_wset (t : Nat) (p : Partition) : (noteIdle t p).wset = p.wset := by
  unfold noteIdle
  split <;> rfl

theorem mapParts_kept (s : State) {f : Nat → Partition → Partition} (hf : ∀ n p, (f n p).wset = p.wset) : kept (mapParts s f) = kept s :=
  forEach_kept _ (fun (e : Nat × Partition) s => updPart s e.1 (f e.1)) (fun _ _ => updPart_kept _ _ (hf _)) s

/-! ## Counts, charges and reports -/

theorem countPart_kept (s : State) (f src n : Nat) : kept (countPart s f src n) = kept s := by
  unfold countPart
  split
  · exact updPart_kept _ _ fun _ => rfl
  · rfl

theorem countL_kept (s : State) (l src n : Nat) : kept (countL s l src n) = kept s := by
  unfold countL
  refine ite_kept rfl ((countPart_kept _ _ _ _).trans (updL_kept _ _ ?_))
  exact fun _ => ⟨rfl, rfl, rfl⟩

theorem chargeField_kept (s : State) (f c : Nat) : kept (chargeField s f c) = kept s := by
  unfold chargeField countF
  exact ite_kept rfl (countPart_kept _ _ _ _)

theorem raiseL_kept (s : State) (l sev code detail : Nat) : kept (raiseL s l sev code detail) = kept s := kept_of_unreported (raiseEv_unreported _ _ _ _ _ _ _)
theorem raiseM_kept (s : State) (sev code detail : Nat) : kept (raiseM s sev code detail) = kept s := kept_of_unreported (raiseEv_unreported _ _ _ _ _ _ _)
theorem postPlain_kept (s : State) (fn : Fn) (c : Completion) : kept (postPlain s fn c) = kept s := kept_of_unreported (postPlain_unreported _ _ _)
theorem resolveWaits_kept (p : WaitFor → Bool) (f : WaitFor → Nat × Nat) (s : State) : kept (resolveWaits p f s) = kept s :=
  kept_of_unreported (resolveWaits_unreported _ _ _)

/-! ## Records, banks and VPROG -/

theorem startCapture_kept (s : State) (l a : Nat) : kept (startCapture s l a) = kept s := by
  unfold startCapture
  refine updL_kept _ _ ?_
  exact fun _ => ⟨rfl, rfl, rfl⟩

theorem setCal_kept (s : State) (key : Nat) (r : CalRec) : kept (setCal s key r) = kept s := rfl

theorem calCommit_kept (s : State) (key : Nat) (setid : Option (BitVec 32)) (pay : Nat) : kept (calCommit s key setid pay) = kept s := setCal_kept _ _ _

theorem pairCommit_kept (s : State) (l a : Nat) (setid : Option (BitVec 32)) : kept (pairCommit s l a setid) = kept s :=
  (startCapture_kept _ _ _).trans ((startCapture_kept _ _ _).trans (calCommit_kept _ _ _ _))

theorem bankBusy_kept (s : State) (l b : Nat) : kept (bankBusy s l b) = kept s := by
  unfold bankBusy
  refine updL_kept _ _ ?_
  exact fun _ => ⟨rfl, rfl, rfl⟩

theorem vprogUse_kept (s : State) : kept (vprogUse s) = kept s := rfl

theorem addRepair_kept (s : State) (e : RepairEntry) : kept (addRepair s e) = kept s := by
  unfold addRepair mapAdd
  split
  · next t ht =>
    split at ht
    · exact absurd ht (by simp)
    · rw [← Option.some.inj ht]
      rfl
  · exact raiseM_kept _ _ _ _

/-! ## The settling of queue pairs (09 R263, R267, R289) -/

theorem stopLanterns_kept (s : State) (n : Nat) : kept (stopLanterns s n) = kept s := by
  unfold stopLanterns
  split
  · rfl
  · refine forEach_kept _ _ (fun l s => updL_kept _ _ ?_) s
    exact fun _ => ⟨rfl, rfl, rfl⟩

theorem setShareState_kept (st : Nat) (h : Share) (s : State) : kept (setShareState st h s) = kept s := by
  unfold setShareState setDesc
  refine (updL_kept _ _ ?_).trans (updL_kept _ _ ?_)
  · exact fun _ => ⟨rfl, rfl, rfl⟩
  · exact fun _ => ⟨rfl, rfl, rfl⟩

theorem freeNow_kept (s : State) (n : Nat) : kept (freeNow s n) = kept s := by
  unfold freeNow
  split
  · rfl
  · refine (updPart_kept _ _ ?_).trans (forEach_kept _ _ (setShareState_kept 0) s)
    exact fun _ => rfl

theorem stopPart_kept (s : State) (n : Nat) : kept (stopPart s n) = kept s := by
  unfold stopPart
  refine (freeNow_kept _ _).trans ((stopLanterns_kept _ _).trans (updPart_kept _ _ ?_))
  exact fun _ => rfl

theorem switchOff_kept (s : State) (l : Nat) : kept (switchOff s l) = kept s := by
  unfold switchOff
  exact updL_kept (f := lanternOff) s l fun _ => ⟨rfl, rfl, rfl⟩

theorem drainDone_kept (s : State) (n : Nat) : kept (drainDone s n) = kept s := by
  unfold drainDone
  split
  · rfl
  · extract_lets hot s1 s2 s3
    have h2 : kept s2 = kept s := by
      refine (updPart_kept _ _ ?_).trans (stopPart_kept _ _)
      exact fun _ => rfl
    exact ite_kept rfl ((resolveWaits_kept _ _ _).trans (ite_kept ((forEach_kept _ _ (fun l s => switchOff_kept s l) _).trans h2) h2))

theorem freeReq_kept (s : State) (n : Nat) (tag : BitVec 64) : kept (freeReq s n tag) = kept s := by
  unfold freeReq
  split
  · rfl
  next p hp =>
  split
  · rfl
  next r hr =>
  extract_lets rest s1 s2
  have h1 : kept s1 = kept s := setPart_kept s n (by rw [wsets, hp]; exact congrArg some (noteIdle_wset _ _))
  exact (drainDone_kept _ _).trans ((resolveWaits_kept _ _ _).trans (ite_kept ((kept_of_unreported (updFn_unreported _ _ _)).trans h1) h1))

theorem cancelThrough_kept (fn : Fn) (q : Option Nat) (mute : Bool) (s : State) : kept (cancelThrough fn q mute s) = kept s := by
  unfold cancelThrough
  exact mapParts_kept s fun _ p => noteIdle_wset _ _

theorem deleteNow_kept (fn : Fn) (n : Nat) (s : State) : kept (deleteNow fn n s) = kept s := by
  unfold deleteNow
  split
  · rfl
  · extract_lets s1 s2 s3
    have h1 : kept s1 = kept s := kept_of_unreported (setQp_unreported _ _ _ _)
    have h2 : kept s2 = kept s := ite_kept ((kept_of_unreported (updFn_unreported _ _ _)).trans h1) h1
    refine (cancelThrough_kept _ _ _ _).trans ((forEach_kept _ _ (fun c t => ?_) s2).trans h2)
    split
    · exact freeReq_kept _ _ _
    · rfl

theorem settleQp_kept (fn : Fn) (n : Nat) (s : State) : kept (settleQp fn n s) = kept s := by
  unfold settleQp
  split
  · rfl
  · exact ite_kept rfl ((deleteNow_kept _ _ _).trans (forEach_kept _ _ (fun _ _ => postPlain_kept _ _ _) _))

theorem settle_kept (s : State) : kept (settle s) = kept s := by
  unfold settle
  exact forEach_kept _ _ (fun _ _ => settleQp_kept _ _ _) s

end Sys2Proof.Weights
end

section
/-!
PROOFS. Events of the weights (02 R62 to R66; 03 R75, R98, R99, R107, R108; 10 R318): programming, erasure, idle loads and touch-up.
-/

open Sys2Proof Sys2Proof.Machine

namespace Sys2Proof.WeightEvents

open Sys2Proof.Reports Sys2Proof.Weights

/-! ## The arrays with one of them changed -/

/-- The arrays with X in the place of array a of lantern l. -/
def put (v : Nat → Nat → WickArray) (l a : Nat) (X : WickArray) : Nat → Nat → WickArray := fun m b => if m = l ∧ b = a then X else v m b

theorem put_same (v : Nat → Nat → WickArray) (l a : Nat) (X : WickArray) : put v l a X l a = X := if_pos ⟨rfl, rfl⟩

theorem put_other (v : Nat → Nat → WickArray) {l a m b : Nat} (X : WickArray) (h : ¬(m = l ∧ b = a)) : put v l a X m b = v m b := if_neg h

theorem put_put (v : Nat → Nat → WickArray) (l a : Nat) (X Y : WickArray) : put (put v l a X) l a Y = put v l a Y := by
  funext m b
  by_cases h : m = l ∧ b = a
  · obtain ⟨rfl, rfl⟩ := h
    rw [put_same, put_same]
  · rw [put_other _ _ h, put_other _ _ h, put_other _ _ h]

/-- An array put in place with a property that the old one had leaves the property. -/
theorem put_view {α : Type} (w : WickArray → α) (v : Nat → Nat → WickArray) (l a : Nat) {X : WickArray} (h : w X = w (v l a)) (m b : Nat) :
    w (put v l a X m b) = w (v m b) := by
  by_cases hmb : m = l ∧ b = a
  · obtain ⟨rfl, rfl⟩ := hmb
    rw [put_same, h]
  · rw [put_other _ _ hmb]

theorem arrays_updArr (s : State) (l a : Nat) (f : WickArray → WickArray) : arrays (updArr s l a f) = put (arrays s) l a (f (arrays s l a)) := by
  funext m b
  unfold arrays updArr getArr
  by_cases hm : m = l
  · subst hm
    rw [getL_updL_same]
    by_cases hb : b = a
    · subst hb
      rw [put_same]
      exact tget_tupd_same _ _ _ _
    · rw [put_other _ _ (fun h => hb h.2)]
      exact tget_tupd_other _ _ _ hb
  · rw [getL_updL_other _ _ hm, put_other _ _ (fun h => hm h.1)]

theorem arrays_updArr_same (s : State) (l a : Nat) (f : WickArray → WickArray) : arrays (updArr s l a f) l a = f (arrays s l a) := by
  rw [arrays_updArr, put_same]

theorem names_updArr (s : State) (l a : Nat) (f : WickArray → WickArray) : names (updArr s l a f) = names s := by
  funext m
  unfold names updArr
  by_cases hm : m = l
  · subst hm
    rw [getL_updL_same]
  · rw [getL_updL_other _ _ hm]

theorem tasks_updArr (s : State) (l a : Nat) (f : WickArray → WickArray) : tasks (updArr s l a f) = tasks s := rfl

/-! ## Arrays that go bad (01 R22; 02 R39, R65) -/

theorem arrays_remapBad (s : State) (l a : Nat) : arrays (remapBad l a s) = arrays s ∧ tasks (remapBad l a s) = tasks s := by
  unfold remapBad
  split
  · exact ⟨rfl, rfl⟩
  · dsimp only
    refine ⟨(arrays_of_kept (raiseL_kept _ _ _ _ _)).trans (funext fun m => funext fun b => ?_), (tasks_of_kept (raiseL_kept _ _ _ _ _)).trans rfl⟩
    unfold arrays getArr
    by_cases hm : m = l
    · subst hm
      rw [getL_updL_same]
    · rw [getL_updL_other _ _ hm]

theorem arrays_arrayBad (typ source detail l a : Nat) (s : State) :
    arrays (arrayBad typ source detail l a s) = put (arrays s) l a { arrays s l a with bad := true } ∧ tasks (arrayBad typ source detail l a s) = tasks s := by
  unfold arrayBad
  split
  · next hbad =>
    have hsame : ({ arrays s l a with bad := true } : WickArray) = arrays s l a := by
      show _ = getArr (getL s l) a
      unfold arrays
      rw [← hbad]
    refine ⟨?_, rfl⟩
    rw [hsame]
    funext m b
    exact (put_view id (arrays s) l a rfl m b).symm
  · obtain ⟨harrays, htasks⟩ := arrays_remapBad (pairCommit (addRepair _ _) l a none) l a
    have hpair := fun t e => (pairCommit_kept (addRepair t e) l a none).trans (addRepair_kept t e)
    exact ⟨harrays.trans ((arrays_of_kept (hpair _ _)).trans (arrays_updArr _ _ _ _)), htasks.trans ((tasks_of_kept (hpair _ _)).trans (tasks_updArr _ _ _ _))⟩

theorem arrays_retireArray (l a : Nat) (s : State) :
    arrays (retireArray l a s) = put (arrays s) l a { arrays s l a with retired := true, bad := true } ∧ tasks (retireArray l a s) = tasks s := by
  obtain ⟨harrays, htasks⟩ := arrays_arrayBad 4 5 (getArr (getL s l) a).cycles l a (updArr s l a (fun A => { A with retired := true }))
  refine ⟨harrays.trans ?_, htasks⟩
  rw [arrays_updArr, put_same, put_put]

theorem cycleUp_kept (l a : Nat) (s : State) : kept (cycleUp l a s) = kept (updArr s l a (fun A => { A with cycles := A.cycles + 1 })) := by
  unfold cycleUp
  exact ite_kept (raiseL_kept _ _ _ _ _) rfl

/-! ## Erasure (02 R66) -/

/-- What becomes of an array whose erasure has ended. -/
def erasedArray (failed : Bool) (A : WickArray) : WickArray :=
  if failed then { A with cycles := A.cycles + 1, retired := true, bad := true }
  else if 10000 ≤ A.cycles + 1 then { blankArray { A with cycles := A.cycles + 1 } with retired := true, bad := true }
  else blankArray { A with cycles := A.cycles + 1 }

theorem arrays_eraseOne (failed : List (Nat × Nat)) (e : Nat × Nat) (s : State) :
    arrays (eraseOne failed e s) = put (arrays s) e.1 e.2 (erasedArray (failed.contains e) (arrays s e.1 e.2)) ∧ tasks (eraseOne failed e s) = tasks s := by
  have hup : arrays (cycleUp e.1 e.2 s) = put (arrays s) e.1 e.2 { arrays s e.1 e.2 with cycles := (arrays s e.1 e.2).cycles + 1 } :=
    (arrays_of_kept (cycleUp_kept _ _ _)).trans (arrays_updArr _ _ _ _)
  have htasks : tasks (cycleUp e.1 e.2 s) = tasks s := (tasks_of_kept (cycleUp_kept _ _ _)).trans (tasks_updArr _ _ _ _)
  have hblank : arrays (updArr (cycleUp e.1 e.2 s) e.1 e.2 blankArray)
      = put (arrays s) e.1 e.2 (blankArray { arrays s e.1 e.2 with cycles := (arrays s e.1 e.2).cycles + 1 }) := by
    rw [arrays_updArr, hup, put_same, put_put]
  unfold eraseOne
  extract_lets s1 s2 s3
  suffices h : arrays s3 = put (arrays s) e.1 e.2 (erasedArray (failed.contains e) (arrays s e.1 e.2)) ∧ tasks s3 = tasks s from
    ⟨(arrays_of_kept (pairCommit_kept _ _ _ _)).trans h.1, (tasks_of_kept (pairCommit_kept _ _ _ _)).trans h.2⟩
  unfold s3 erasedArray
  split
  · obtain ⟨hretired, hsame⟩ := arrays_retireArray e.1 e.2 s1
    refine ⟨(arrays_of_kept (raiseL_kept _ _ _ _ _)).trans (hretired.trans ?_), (tasks_of_kept (raiseL_kept _ _ _ _ _)).trans (hsame.trans htasks)⟩
    rw [hup, put_same, put_put]
  · have hcycles : (getArr (getL s2 e.1) e.2).cycles = (arrays s e.1 e.2).cycles + 1 := by
      show (arrays s2 e.1 e.2).cycles = _
      rw [hblank, put_same]
      rfl
    rw [hcycles]
    split
    · obtain ⟨hretired, hsame⟩ := arrays_retireArray e.1 e.2 s2
      refine ⟨hretired.trans ?_, hsame.trans htasks⟩
      rw [hblank, put_same, put_put]
    · exact ⟨hblank, htasks⟩

/-- An array that holds nothing. -/
def Blank (A : WickArray) : Prop := A.cells = [] ∧ A.programmed = false
/-- An array retired as bad. -/
def Retired (A : WickArray) : Prop := A.retired = true ∧ A.bad = true

theorem erasedArray_blank (A : WickArray) : Blank (erasedArray false A) := by
  unfold erasedArray
  rw [if_neg (by decide)]
  split <;> exact ⟨rfl, rfl⟩

theorem erasedArray_retired (A : WickArray) : Retired (erasedArray true A) := ⟨rfl, rfl⟩

theorem erasedArray_keeps_blank {A : WickArray} (failed : Bool) (h : Blank A) : Blank (erasedArray failed A) := by
  cases failed
  · exact erasedArray_blank A
  · exact h

theorem erasedArray_keeps_retired {A : WickArray} (failed : Bool) (h : Retired A) : Retired (erasedArray failed A) := by
  cases failed
  · unfold erasedArray
    rw [if_neg (by decide)]
    split
    · exact ⟨rfl, rfl⟩
    · exact h
  · exact erasedArray_retired A

/-- What the erasure of its array establishes, and no erasure undoes, holds of an array once the loop over the arrays is done. -/
theorem forEach_eraseOne {P : WickArray → Prop} {failed : List (Nat × Nat)} {l a : Nat} (hset : ∀ A, P (erasedArray (failed.contains (l, a)) A))
    (hkeep : ∀ b A, P A → P (erasedArray b A)) {xs : List (Nat × Nat)} (s : State) (hmem : (l, a) ∈ xs) :
    P (arrays (forEach xs (eraseOne failed) s) l a) := by
  refine PartitionCommands.forEach_establishes (P := fun s => P (arrays s l a)) (x := (l, a)) (fun s => ?_) (fun y s h => ?_) xs s hmem
  · rw [(arrays_eraseOne _ _ _).1, put_same]
    exact hset _
  · rw [(arrays_eraseOne _ _ _).1]
    by_cases hy : l = y.1 ∧ a = y.2
    · obtain ⟨hl, ha⟩ := hy
      rw [hl, ha, put_same]
      rw [hl, ha] at h
      exact hkeep _ _ h
    · rw [put_other _ _ hy]
      exact h

theorem clearRanges_kept (l : Nat) (s : State) : kept (clearRanges l s) = kept s := by
  unfold clearRanges
  refine ite_kept rfl (updL_kept _ _ ?_)
  exact fun _ => ⟨rfl, rfl, rfl⟩

theorem answerErase_kept (failed : List (Nat × Nat)) (w : Waiting) (s : State) : kept (answerErase failed w s) = kept s := by
  unfold answerErase
  split
  · refine (postPlain_kept _ _ _).trans ?_
    split
    · exact ite_kept (kept_of_unreported (writeSegs_unreported _ _ _ _)) rfl
    · exact ite_kept (kept_of_unreported (writeSegs_unreported _ _ _ _)) rfl
  · rfl

theorem showNow_kept (s : State) : kept (showNow s) = kept s := by
  unfold showNow
  exact ite_kept rfl rfl

/-- Arrays in erasure on lanterns that can erase. -/
def live (s : State) : List (Nat × Nat) := s.erasing.filter (fun e => !s.badLanterns.contains e.1)

/-- Those of them that failed. -/
def failures (fs : List (Nat × Nat)) (s : State) : List (Nat × Nat) := (live s).filter (fun e => fs.contains e)

theorem erasureDone_kept {fs : List (Nat × Nat)} {s : State} (hsome : s.erasing ≠ [])
    (hready : ∀ e, e ∈ s.erasing → (getL s e.1).on = true ∨ s.badLanterns.contains e.1 = true) :
    kept (erasureDone fs s) = kept (forEach (live s) (eraseOne (failures fs s)) { s with erasing := [], erased := true }) := by
  have hgo : ¬(s.erasing.isEmpty || s.erasing.any (fun e => !(getL s e.1).on && !s.badLanterns.contains e.1)) = true := by
    rw [Bool.or_eq_true, List.any_eq_true, List.isEmpty_iff]
    rintro (hnone | ⟨e, he, hdark⟩)
    · exact hsome hnone
    · rcases hready e he with h | h <;> rw [h] at hdark <;> simp at hdark
  unfold erasureDone
  extract_lets xs dark alive bad s1 s2 s3 ws
  rw [if_neg hgo]
  have h2 : kept s2 = kept s1 := forEach_kept _ _ clearRanges_kept s1
  have h3 : kept s3 = kept s2 := (vprogUse_kept _).trans (forEach_kept _ _ (fun _ _ => bankBusy_kept _ _ _) _)
  exact (showNow_kept _).trans ((forEach_kept _ _ (answerErase_kept _) _).trans (h3.trans h2))

theorem tasks_erasureDone {fs : List (Nat × Nat)} {s : State} (hsome : s.erasing ≠ [])
    (hready : ∀ e, e ∈ s.erasing → (getL s e.1).on = true ∨ s.badLanterns.contains e.1 = true) : tasks (erasureDone fs s) = (s.jobs, [], true) :=
  (tasks_of_kept (erasureDone_kept hsome hready)).trans (forEach_keeps tasks _ (fun _ _ => (arrays_eraseOne _ _ _).2) _ _)

theorem contains_failures {fs : List (Nat × Nat)} {s : State} {e : Nat × Nat} (h : e ∈ live s) : (failures fs s).contains e = fs.contains e := by
  unfold failures
  simp only [List.contains_eq_mem, List.mem_filter, h, true_and, decide_eq_true_eq]

theorem erasureDone_waits {fs : List (Nat × Nat)} {s : State} {e : Nat × Nat} (he : e ∈ s.erasing) (hoff : (getL s e.1).on = false)
    (hlive : ¬s.badLanterns.contains e.1) : erasureDone fs s = s := by
  unfold erasureDone
  refine if_pos ?_
  rw [Bool.or_eq_true, List.any_eq_true]
  exact Or.inr ⟨e, he, by rw [hoff, Bool.eq_false_iff.2 hlive]; rfl⟩

theorem erasureDone_nothing {fs : List (Nat × Nat)} {s : State} (h : s.erasing = []) : erasureDone fs s = s := by
  unfold erasureDone
  dsimp only
  rw [h]
  rfl

/-! ## The chunks that start (02 R61, R62, R64) -/

theorem forEach_holds_of_mem {α : Type} {f : α → State → State} {P : State → Prop} (xs : List α) (hkeep : ∀ x, x ∈ xs → ∀ s, P s → P (f x s)) :
    ∀ s, P s → P (forEach xs f s) := by
  induction xs with
  | nil => exact fun _ h => h
  | cons x xs ih => exact fun s h => ih (fun y hy => hkeep y (List.mem_cons_of_mem x hy)) _ (hkeep x List.mem_cons_self s h)

/-- One turn of the choice of jobs: the first of each bank. -/
def firstOfBank (s : State) (acc : List (ChunkJob × Nat × Nat)) (j : ChunkJob) : List (ChunkJob × Nat × Nat) :=
  match jobArray s j with
  | some a => if acc.any (fun e => e.2.1 == j.lantern && e.2.2 == a / 8) then acc else acc ++ [(j, j.lantern, a / 8)]
  | none => acc

theorem activeJobs_eq (s : State) :
    activeJobs s = (((s.jobs.filter (fun j => (getL s j.lantern).on)).foldl (firstOfBank s) []).take 36).map (·.1) := rfl

theorem mem_firstOfBank {s : State} {acc : List (ChunkJob × Nat × Nat)} {j : ChunkJob} {e : ChunkJob × Nat × Nat} (h : e ∈ firstOfBank s acc j) :
    e ∈ acc ∨ e.1 = j := by
  unfold firstOfBank at h
  split at h
  · split at h
    · exact Or.inl h
    · rcases List.mem_append.1 h with hacc | hj
      · exact Or.inl hacc
      · exact Or.inr (congrArg Prod.fst (List.mem_singleton.1 hj))
  · exact Or.inl h

theorem mem_foldl_firstOfBank {s : State} {e : ChunkJob × Nat × Nat} (xs : List ChunkJob) : ∀ acc, e ∈ xs.foldl (firstOfBank s) acc → e ∈ acc ∨ e.1 ∈ xs := by
  induction xs with
  | nil => exact fun _ h => Or.inl h
  | cons x xs ih =>
    intro acc h
    rcases ih _ h with hacc | hxs
    · rcases mem_firstOfBank hacc with hacc | hx
      · exact Or.inl hacc
      · exact Or.inr (hx ▸ List.mem_cons_self)
    · exact Or.inr (List.mem_cons_of_mem x hxs)

theorem mem_jobs_of_active {s : State} {j : ChunkJob} (h : j ∈ activeJobs s) : j ∈ s.jobs := by
  rw [activeJobs_eq] at h
  obtain ⟨e, he, rfl⟩ := List.mem_map.1 h
  rcases mem_foldl_firstOfBank _ _ (List.mem_of_mem_take he) with hnil | hjob
  · exact absurd hnil List.not_mem_nil
  · exact (List.mem_filter.1 hjob).1

theorem arrays_startJob {j : ChunkJob} {s : State} {b : Nat} (h : jobArray s j = some b) :
    arrays (startJob j s) = put (arrays s) j.lantern b (resetCells (arrays s j.lantern b)) := by
  unfold startJob
  split
  · next hnone => exact absurd (h.symm.trans hnone) (Option.some_ne_none b)
  next c hc =>
  obtain rfl := Option.some.inj (h.symm.trans hc)
  extract_lets s1 was s2
  have h2 : arrays s2 = put (arrays s) j.lantern b (resetCells (arrays s j.lantern b)) := arrays_updArr s1 _ _ _
  refine (arrays_of_kept (bankBusy_kept _ _ _)).trans ?_
  split
  · exact (arrays_of_kept (pairCommit_kept _ _ _ _)).trans h2
  · exact h2

theorem startJob_none {j : ChunkJob} {s : State} (h : jobArray s j = none) : startJob j s = s := by
  unfold startJob
  rw [h]

theorem names_startJob (j : ChunkJob) (s : State) : names (startJob j s) = names s := by
  unfold startJob
  split
  · rfl
  · extract_lets s1 was s2
    have h2 : names s2 = names s := names_updArr s1 _ _ _
    refine (names_of_kept (bankBusy_kept _ _ _)).trans ?_
    split
    · exact (names_of_kept (pairCommit_kept _ _ _ _)).trans h2
    · exact h2

/-- An array that no chunk goes to is not touched when chunks start. -/
theorem startJobs_array {s : State} {l a : Nat} (h : ∀ k, k ∈ s.jobs → k.lantern = l → jobArray s k ≠ some a) : arrays (startJobs s) l a = arrays s l a := by
  refine (congrFun (congrFun (arrays_of_kept (vprogUse_kept _)) l) a).trans
    (forEach_holds_of_mem (P := fun t => names t = names s ∧ arrays t l a = arrays s l a) _ (fun k hk t ht => ?_) s ⟨rfl, rfl⟩).2
  obtain ⟨hnames, harray⟩ := ht
  refine ⟨(names_startJob k t).trans hnames, ?_⟩
  have hjob : jobArray t k = jobArray s k := jobArray_of_names hnames k
  cases hb : jobArray s k with
  | none => rw [startJob_none (hjob.trans hb), harray]
  | some b =>
    have hother : ¬(l = k.lantern ∧ a = b) := fun ⟨hl, ha⟩ => h k (mem_jobs_of_active (List.mem_filter.1 hk).1) hl.symm (by rw [hb, ha])
    rw [arrays_startJob (hjob.trans hb), put_other _ _ hother, harray]

theorem startJobs_cycles (s : State) (l a : Nat) : (arrays (startJobs s) l a).cycles = (arrays s l a).cycles := by
  refine (forEach_keeps (fun t => (arrays t l a).cycles) _ (fun k t => ?_) _ s : (arrays (forEach _ startJob s) l a).cycles = _)
  cases hb : jobArray t k with
  | none => rw [startJob_none hb]
  | some b =>
    rw [arrays_startJob hb]
    exact put_view WickArray.cycles _ _ _ (X := resetCells _) rfl _ _

/-! ## Chunks that end (02 R63; 10 R314, R318) -/

theorem arrays_updPart (s : State) (n : Nat) (f : Partition → Partition) : arrays (updPart s n f) = arrays s := by
  unfold updPart
  split <;> rfl

theorem answerChunk_kept (j : ChunkJob) (status : Nat) (s : State) : kept (answerChunk j status s) = kept s := by
  unfold answerChunk
  exact ite_kept rfl (postPlain_kept _ _ _)

theorem finishChunk_leaves (n : Nat) (j : ChunkJob) (s : State) :
    arrays (finishChunk n j s) = arrays s ∧ names (finishChunk n j s) = names s ∧ (finishChunk n j s).jobs = s.jobs.filter (fun x => x != j) := by
  have hanswer : ∀ (status : Nat) (t : State), arrays t = arrays s → names t = names s → t.jobs = s.jobs.filter (fun x => x != j) →
      arrays (answerChunk j status t) = arrays s ∧ names (answerChunk j status t) = names s ∧ (answerChunk j status t).jobs = s.jobs.filter (fun x => x != j) := by
    intro status t ha hn hj
    have ht := answerChunk_kept j status t
    exact ⟨(arrays_of_kept ht).trans ha, (names_of_kept ht).trans hn, (jobs_of_tasks (tasks_of_kept ht)).trans hj⟩
  unfold finishChunk
  dsimp only
  split
  · exact hanswer _ _ rfl rfl rfl
  · split
    · exact ⟨rfl, rfl, rfl⟩
    · split
      · exact hanswer _ _ rfl rfl rfl
      · exact hanswer _ _ rfl rfl rfl

theorem arrays_failChunk (n : Nat) (j : ChunkJob) (s : State) : arrays (failChunk n j s) = arrays s := by
  unfold failChunk dropSlot
  dsimp only
  split
  · exact arrays_updPart _ _ _
  · exact (arrays_of_kept (answerChunk_kept _ _ _)).trans rfl

theorem commitRec_kept (n : Nat) (f : State → State) (s : State) : kept (commitRec n f s) = kept (f s) := by
  unfold commitRec
  dsimp only
  split
  · refine ite_kept rfl (updPart_kept _ _ ?_)
    exact fun _ => rfl
  · rfl

theorem arrays_endLoad (n : Nat) (s : State) : arrays (endLoad n s).1 = arrays s := by
  unfold endLoad
  split
  · rfl
  · split
    · rfl
    · exact (arrays_of_kept (commitRec_kept _ _ _)).trans (arrays_updPart _ _ _)

/-- A load that ends leaves the weight set that closing makes of it. -/
theorem endLoad_wset {n : Nat} {s : State} {p : Partition} {ld : WeightLoad} (hp : getPart s n = some p) (hld : p.wset.load = some ld) :
    wsets (endLoad n s).1 n = some (closeSet p.wset ld).1 := by
  unfold endLoad
  rw [hp]
  dsimp only
  rw [hld]
  refine (congrFun (wsets_of_kept (commitRec_kept _ _ _)) n).trans ?_
  unfold wsets
  rw [getPart_updPart_same, hp]
  rfl

theorem arrays_tryClose (n : Nat) (s : State) : arrays (tryClose n s) = arrays s := by
  unfold tryClose
  dsimp only
  split
  · rfl
  · exact (arrays_of_kept (forEach_kept _ _ (fun _ _ => postPlain_kept _ _ _) _)).trans (arrays_endLoad _ _)

/-! ## The end of a programming (02 R62, R63, R65; 03 R75, R98) -/

/-- What a measurement leaves of an array. -/
def core (A : WickArray) : SMap Int × Nat × Bool := (A.cells, A.cycles, A.retried)

theorem takeSample_leaves (s : State) (l a : Nat) :
    core (arrays (takeSample s l a) l a) = core (arrays s l a) ∧ names (takeSample s l a) = names s ∧ tasks (takeSample s l a) = tasks s := by
  unfold takeSample
  extract_lets xs s1
  have h1 : kept s1 = kept s := (countL_kept _ _ _ _).trans (chargeField_kept _ _ _)
  refine ⟨?_, (names_updArr _ _ _ _).trans (names_of_kept h1), (tasks_updArr _ _ _ _).trans (tasks_of_kept h1)⟩
  rw [arrays_updArr_same, arrays_of_kept h1]
  rfl

theorem takeSamples_leaves (n l a : Nat) (s : State) :
    core (arrays (takeSamples n l a s) l a) = core (arrays s l a) ∧ names (takeSamples n l a s) = names s ∧ tasks (takeSamples n l a s) = tasks s := by
  have hall : (core (arrays (takeSamples n l a s) l a), names (takeSamples n l a s), tasks (takeSamples n l a s)) = (core (arrays s l a), names s, tasks s) :=
    forEach_keeps (fun t => (core (arrays t l a), names t, tasks t)) (fun _ t => takeSample t l a) (fun _ t => by
      obtain ⟨hcore, hnames, htasks⟩ := takeSample_leaves t l a
      rw [hcore, hnames, htasks]) (List.range n) s
  exact ⟨congrArg Prod.fst hall, congrArg (fun x => x.2.1) hall, congrArg (fun x => x.2.2) hall⟩

/-- A measurement finds the cells as they are and starts the drift scale at 1. -/
theorem measureArray_leaves (l a : Nat) (s : State) :
    core (arrays (measureArray l a s) l a) = core (arrays s l a) ∧ (arrays (measureArray l a s) l a).drift = 32768
      ∧ names (measureArray l a s) = names s ∧ tasks (measureArray l a s) = tasks s := by
  unfold measureArray
  rcases directRef s l a with ⟨trim, ref, n⟩
  dsimp only
  generalize hs1 : updArr { s with draws := n } l a (fun A => { A with trim := trim, ref0 := min 255 ref, reft := min 255 ref }) = s1
  generalize hs2 : updArr (takeSamples 64 l a s1) l a (fun A => { A with base := baselines A, drift := 32768, fresh := 0 }) = s2
  rcases signature s2 l a 32768 with ⟨sig, n'⟩
  dsimp only
  have harray1 : core (arrays s1 l a) = core (arrays s l a) := by
    rw [← hs1, arrays_updArr_same]
    rfl
  have hnames1 : names s1 = names s := by
    rw [← hs1]
    exact names_updArr _ _ _ _
  have htasks1 : tasks s1 = tasks s := by
    rw [← hs1]
    rfl
  obtain ⟨hcore, hnames, htasks⟩ := takeSamples_leaves 64 l a s1
  have harray2 : arrays s2 l a = { arrays (takeSamples 64 l a s1) l a with base := baselines (arrays (takeSamples 64 l a s1) l a), drift := 32768, fresh := 0 } := by
    rw [← hs2, arrays_updArr_same]
  have hnames2 : names s2 = names s := by
    rw [← hs2, names_updArr, hnames, hnames1]
  have htasks2 : tasks s2 = tasks s := by
    rw [← hs2, tasks_updArr, htasks, htasks1]
  have hfinal : arrays (updArr { s2 with draws := n' } l a (fun A => { A with sig := sig })) l a = { arrays s2 l a with sig := sig } := arrays_updArr_same _ _ _ _
  rw [hfinal]
  refine ⟨?_, ?_, (names_updArr _ _ _ _).trans hnames2, htasks2⟩
  · rw [harray2]
    unfold core at hcore harray1 ⊢
    dsimp only
    exact hcore.trans harray1
  · rw [harray2]

/-- A programming that failed for the first time is tried again from an erased array. -/
theorem programFailed_retries {n l a : Nat} {j : ChunkJob} {s : State} (h : (arrays s l a).retried = false) :
    arrays (programFailed n l a j s) l a = { blankArray (arrays s l a) with retried := true } := by
  have hfirst : ¬(getArr (getL s l) a).retried = true := by
    show ¬(arrays s l a).retried = true
    rw [h]
    decide
  unfold programFailed
  rw [if_neg hfirst, arrays_of_kept (pairCommit_kept _ _ _ _), arrays_updArr_same]

theorem restartChunk_cycles (n l a : Nat) (j : ChunkJob) (s : State) : (arrays (restartChunk n l a j s) l a).cycles = (arrays s l a).cycles := by
  unfold restartChunk
  split
  · rw [startJobs_cycles, arrays_of_kept (bankBusy_kept _ _ _)]
    rfl
  · rw [startJobs_cycles, arrays_of_kept (bankBusy_kept _ _ _), arrays_failChunk]

theorem programFailed_cycles (n l a : Nat) (j : ChunkJob) (s : State) : (arrays (programFailed n l a j s) l a).cycles = (arrays s l a).cycles := by
  cases h : (arrays s l a).retried
  · rw [programFailed_retries h]
    rfl
  · have hagain : (getArr (getL s l) a).retried = true := h
    unfold programFailed programElsewhere
    rw [if_pos hagain, restartChunk_cycles, arrays_of_kept (pairCommit_kept _ _ _ _), arrays_updArr_same, (arrays_arrayBad _ _ _ _ _ _).1, put_same]
    rfl

/-- A programming that held leaves the array in service with what was measured. -/
theorem programOk_array {n l a : Nat} {j : ChunkJob} {s : State} (h : ∀ k, k ∈ s.jobs → k ≠ j → k.lantern = l → jobArray s k ≠ some a) :
    arrays (programOk n l a j s) l a = programmedArray s (wholeTemp (getL s l)) (arrays s l a) := by
  unfold programOk
  extract_lets s1 s2
  have h2 : kept s2 = kept s1 := pairCommit_kept (takeSetid s1) _ _ _
  obtain ⟨harrays, hnames, hjobs⟩ := finishChunk_leaves n j s2
  have hbusy := bankBusy_kept (finishChunk n j s2) l (a / 8)
  have hnow : names (bankBusy (finishChunk n j s2) l (a / 8)) = names s :=
    (names_of_kept hbusy).trans (hnames.trans ((names_of_kept h2).trans (names_updArr _ _ _ _)))
  rw [startJobs_array fun k hk hl => ?_, arrays_of_kept hbusy, harrays, arrays_of_kept h2]
  · exact arrays_updArr_same _ _ _ _
  · rw [jobs_of_tasks (tasks_of_kept hbusy), hjobs, jobs_of_tasks (tasks_of_kept h2)] at hk
    obtain ⟨hmem, hne⟩ := List.mem_filter.1 hk
    rw [jobArray_of_names hnow]
    exact h k hmem (by simpa using hne) hl

/-- The state in which the outcome of a programming is judged. -/
def verified (l a : Nat) (j : ChunkJob) (s : State) : State := measureArray l a (updArr (cycleUp l a s) l a (writeCells j))

/-- The end of a programming that its array survives (02 R62, R63). -/
theorem programDone_eq {n l a : Nat} {j : ChunkJob} {s : State} (ok : Bool)
    (hjob : (activeJobs s).find? (fun j => j.lantern == l && physOf (getL s l) j.chunk.arr == some a) = some j) (hpart : partOf s l = some n)
    (hprog : (getBank (getL s l) (a / 8)).prog = some a) (hcycles : (arrays s l a).cycles + 1 < 10000) :
    programDone l a ok s = tryClose n (
      if ok then
        if ((arrays (verified l a j s) l a).ref0 : Rat) ≤ refLimit (wholeTemp (getL (verified l a j s) l)) then programOk n l a j (verified l a j s)
        else programFailed n l a j (verified l a j s)
      else programFailed n l a j (cycleUp l a s)) := by
  have hworn : ¬10000 ≤ (getArr (getL (cycleUp l a s) l) a).cycles := by
    show ¬10000 ≤ (arrays (cycleUp l a s) l a).cycles
    rw [arrays_of_kept (cycleUp_kept _ _ _), arrays_updArr_same]
    exact Nat.not_le.2 hcycles
  unfold programDone
  rw [hjob, hpart]
  dsimp only
  rw [hprog, if_neg (by simp), if_neg hworn]
  cases ok <;> rfl

theorem arrays_cycleUp_same (l a : Nat) (s : State) : arrays (cycleUp l a s) l a = { arrays s l a with cycles := (arrays s l a).cycles + 1 } := by
  rw [arrays_of_kept (cycleUp_kept _ _ _), arrays_updArr_same]

/-- What is judged has the chunk's cells and one cycle more, at drift scale 1. -/
theorem verified_leaves (l a : Nat) (j : ChunkJob) (s : State) :
    core (arrays (verified l a j s) l a) = (j.cells, (arrays s l a).cycles + 1, (arrays s l a).retried) ∧ (arrays (verified l a j s) l a).drift = 32768
      ∧ names (verified l a j s) = names s ∧ (verified l a j s).jobs = s.jobs := by
  obtain ⟨hcore, hdrift, hnames, htasks⟩ := measureArray_leaves l a (updArr (cycleUp l a s) l a (writeCells j))
  have hup := cycleUp_kept l a s
  refine ⟨hcore.trans ?_, hdrift, ?_, jobs_of_tasks (htasks.trans ?_)⟩
  · rw [arrays_updArr_same, arrays_cycleUp_same]
    rfl
  · exact hnames.trans ((names_updArr _ _ _ _).trans ((names_of_kept hup).trans (names_updArr _ _ _ _)))
  · exact (tasks_updArr _ _ _ _).trans ((tasks_of_kept hup).trans (tasks_updArr _ _ _ _))

section
variable {n l a : Nat} {j : ChunkJob} {s : State}
  (hjob : (activeJobs s).find? (fun j => j.lantern == l && physOf (getL s l) j.chunk.arr == some a) = some j) (hpart : partOf s l = some n)
  (hprog : (getBank (getL s l) (a / 8)).prog = some a) (hcycles : (arrays s l a).cycles + 1 < 10000)
include hjob hpart hprog hcycles

/-- The array once the end of its programming is settled: what its outcome made of it. -/
theorem arrays_programDone (ok : Bool) : arrays (settle (programDone l a ok s)) = arrays (
    if ok then
      if ((arrays (verified l a j s) l a).ref0 : Rat) ≤ refLimit (wholeTemp (getL s l)) then programOk n l a j (verified l a j s)
      else programFailed n l a j (verified l a j s)
    else programFailed n l a j (cycleUp l a s)) := by
  obtain ⟨_, _, hnames, _⟩ := verified_leaves l a j s
  rw [arrays_of_kept (settle_kept _), programDone_eq ok hjob hpart hprog hcycles, arrays_tryClose, wholeTemp_of_names hnames]

theorem programDone_verifyFailed (hretried : (arrays s l a).retried = false) : arrays (settle (programDone l a false s)) l a =
    { blankArray { arrays s l a with cycles := (arrays s l a).cycles + 1 } with retried := true } := by
  rw [arrays_programDone hjob hpart hprog hcycles, if_neg (by decide), programFailed_retries (by rw [arrays_cycleUp_same]; exact hretried), arrays_cycleUp_same]

theorem programDone_held (hfree : ∀ k, k ∈ s.jobs → k ≠ j → k.lantern = l → jobArray s k ≠ some a)
    (href : ((arrays (verified l a j s) l a).ref0 : Rat) ≤ refLimit (wholeTemp (getL s l))) : arrays (settle (programDone l a true s)) l a =
    programmedArray (verified l a j s) (wholeTemp (getL (verified l a j s) l)) (arrays (verified l a j s) l a) := by
  obtain ⟨_, _, hnames, hjobs⟩ := verified_leaves l a j s
  rw [arrays_programDone hjob hpart hprog hcycles, if_pos rfl, if_pos href]
  refine programOk_array fun k hk hne hl => ?_
  rw [hjobs] at hk
  rw [jobArray_of_names hnames]
  exact hfree k hk hne hl

theorem programDone_overLimit (href : refLimit (wholeTemp (getL s l)) < ((arrays (verified l a j s) l a).ref0 : Rat)) :
    arrays (settle (programDone l a true s)) = arrays (programFailed n l a j (verified l a j s)) := by
  rw [arrays_programDone hjob hpart hprog hcycles, if_pos rfl, if_neg (not_le.2 href)]

end

/-! ## Loads that idle (10 R318) -/

theorem loadIdle_ends {n : Nat} {s : State} {p : Partition} {ld : WeightLoad} (hp : getPart s n = some p) (hld : p.wset.load = some ld)
    (hjobs : ∀ j, j ∈ s.jobs → partOf s j.lantern = some n → j.silent = true) (hidle : ld.lastAt + 600000000000 ≤ nowNs s) :
    loadIdle n s = (endLoad n s).1 := by
  have hnone : (s.jobs.any (fun j => jobOf s n j && !j.silent) || decide (nowNs s < ld.lastAt + 600000000000)) = false := by
    rw [Bool.or_eq_false_iff, List.any_eq_false]
    refine ⟨fun j hj => ?_, decide_eq_false (Nat.not_lt.2 hidle)⟩
    by_cases hpart : partOf s j.lantern = some n
    · rw [hjobs j hj hpart]
      simp
    · simp [jobOf, hpart]
  unfold loadIdle
  rw [hp, Option.bind_some, hld]
  dsimp only
  rw [hnone]
  rfl

theorem loadIdle_waits {n : Nat} {s : State} {p : Partition} {ld : WeightLoad} (hp : getPart s n = some p) (hld : p.wset.load = some ld)
    (hbusy : nowNs s < ld.lastAt + 600000000000) : loadIdle n s = s := by
  unfold loadIdle
  rw [hp, Option.bind_some, hld]
  exact if_pos (by rw [decide_eq_true hbusy, Bool.or_true])

/-! ## Touch-up (03 R105, R107, R108) -/

theorem touchChunk_next {n l a : Nat} {s : State} {p : Partition} (hpart : partOf s l = some n) (hp : getPart s n = some p)
    (hqueued : (getArr (getL s l) a).touchQueued = true) (hryile : isRyile p = true) (hopen : touchOpen p = true) (hon : (getBank (getL s l) (a / 8)).on = true)
    (hrun : (getBank (getL s l) (a / 8)).run = none) (hprog : (getBank (getL s l) (a / 8)).prog = none) (hrow : (getArr (getL s l) a).touchRow + 16 < 1024) :
    touchChunk l a true s = updArr (touchRows l a s) l a (fun A => { A with touchRow := A.touchRow + 16 }) := by
  unfold touchChunk
  rw [hpart, Option.bind_some, hp]
  dsimp only
  rw [hqueued, hryile, hopen, hon, hrun, hprog, if_neg (by decide), if_pos rfl, if_pos hrow]

theorem touchChunk_closed {n l a : Nat} {s : State} {p : Partition} (ok : Bool) (hpart : partOf s l = some n) (hp : getPart s n = some p)
    (hclosed : touchOpen p = false ∨ isRyile p = false) : touchChunk l a ok s = s := by
  unfold touchChunk
  rw [hpart, Option.bind_some, hp]
  refine if_pos ?_
  rcases hclosed with h | h <;> simp [h]

theorem refreshIdle_opens {n u : Nat} {s : State} {p : Partition} (hp : getPart s n = some p) (hidle : p.idleSince = some u) (hryile : isRyile p = true)
    (hrunning : hasRunning p = false) (hu : u + 10000000 ≤ nowNs s) : refreshIdle n s = setPart s n (some { p with idleTouch := true }) := by
  have hgo : (isRyile p && !hasRunning p && decide (u + 10000000 ≤ nowNs s)) = true := by
    rw [hryile, hrunning, decide_eq_true hu]
    rfl
  rw [← updPart_some s (fun p => { p with idleTouch := true }) hp]
  unfold refreshIdle
  rw [hp]
  dsimp only
  rw [hidle]
  exact if_pos hgo

theorem refreshIdle_busy {n : Nat} {s : State} {p : Partition} (hp : getPart s n = some p) (hidle : p.idleSince = none) : refreshIdle n s = s := by
  unfold refreshIdle
  rw [hp]
  dsimp only
  rw [hidle]

theorem windowEnd_closes {n u k : Nat} {s : State} {p : Partition} (hp : getPart s n = some p) (hwindow : p.window10 = some (u, k)) (hu : u ≤ nowNs s) :
    windowEnd n s = resolveWaits (fun w => w == .refreshWindow n) (fun _ => (0x00, k)) (setPart s n (some { p with window10 := none })) := by
  unfold windowEnd
  rw [hp]
  dsimp only
  rw [hwindow]
  dsimp only
  rw [if_neg (Nat.not_lt.2 hu), updPart_some _ _ hp]
  rfl

/-! ## The statement -/

theorem units_ok {l a : Nat} (hl : l < 1600) (ha : a < 256) : (lanternOk l && arrOk a) = true := by
  rw [show lanternOk l = true from decide_eq_true hl, show arrOk a = true from decide_eq_true ha]
  rfl

theorem settled_true (s : State) : settled true s = .next (settle s) := rfl

/-- Settles O45: the arrays and weight sets are read through the views, which the settling leaves. -/
theorem weightEvents : Obligations.WeightEvents := by
  unfold Obligations.WeightEvents
  intro l a n s A hl ha hn hA
  subst hA
  have hok := units_ok hl ha
  have hpartOk : partOk n = true := decide_eq_true hn
  refine ⟨?_, ?_, ?_, ?_, ?_, ?_, ?_, ?_, ?_, ?_, ?_⟩
  · intro j hjob hpart hprog hcycles
    refine ⟨fun M hfree hM => ?_, fun hretried => ?_⟩
    · obtain ⟨hcore, hdrift, hnames, hjobs⟩ := verified_leaves l a j s
      have hMV : M = arrays (verified l a j s) l a := hM
      rw [← hMV] at hcore hdrift
      have hcells : M.cells = j.cells := congrArg Prod.fst hcore
      have hcyc : M.cycles = (arrays s l a).cycles + 1 := congrArg (fun x => x.2.1) hcore
      have hagain : M.retried = (arrays s l a).retried := congrArg (fun x => x.2.2) hcore
      have hheld := programDone_held hjob hpart hprog hcycles hfree
      have hover := programDone_overLimit hjob hpart hprog hcycles
      rw [← hMV] at hheld hover
      refine ⟨settle (programDone l a true s), arrays (settle (programDone l a true s)) l a, ?_, rfl, ?_, fun href => ?_, fun href hretried => ?_⟩
      · rw [exec_arrayProgrammingDone, execArrayProgrammingDone, hok, settled_true]
      · rcases le_or_gt (M.ref0 : Rat) (refLimit (wholeTemp (getL s l))) with href | href
        · rw [hheld href]
          exact hcyc
        · rw [hover href, programFailed_cycles, ← hMV]
          exact hcyc
      · rw [hheld href]
        exact ⟨hcells, rfl, hdrift, rfl, rfl, rfl, rfl⟩
      · rw [hover href, programFailed_retries (by rw [← hMV, hagain]; exact hretried)]
        exact ⟨rfl, rfl, rfl⟩
    · refine ⟨settle (programDone l a false s), arrays (settle (programDone l a false s)) l a, ?_, rfl, ?_⟩
      · rw [exec_arrayProgrammingDone, execArrayProgrammingDone, hok, settled_true]
      · rw [programDone_verifyFailed hjob hpart hprog hcycles hretried]
        exact ⟨rfl, rfl, rfl, rfl⟩
  · intro fs hmem hlive hready hnames
    have hsome : s.erasing ≠ [] := List.ne_nil_of_mem hmem
    have hmemLive : (l, a) ∈ live s := List.mem_filter.2 ⟨hmem, by rw [Bool.eq_false_iff.2 hlive]; rfl⟩
    have hok : arraysOk fs = true := List.all_eq_true.2 fun e he => units_ok (hnames e he).1 (hnames e he).2
    have htasks : tasks (settle (erasureDone fs s)) = (s.jobs, [], true) := (tasks_of_kept (settle_kept _)).trans (tasks_erasureDone hsome hready)
    have harrays := (arrays_of_kept (settle_kept (erasureDone fs s))).trans (arrays_of_kept (erasureDone_kept hsome hready))
    refine ⟨settle (erasureDone fs s), arrays (settle (erasureDone fs s)) l a, ?_, congrArg (fun x => x.2.1) htasks, congrArg (fun x => x.2.2) htasks, rfl,
      fun hheld => ?_, fun hfailed => ?_⟩
    · rw [exec_erasureDone, execErasureDone, hok, settled_true]
    · rw [harrays]
      refine forEach_eraseOne (P := Blank) (fun A => ?_) (fun b _ h => erasedArray_keeps_blank b h) _ hmemLive
      rw [contains_failures hmemLive, hheld]
      exact erasedArray_blank A
    · rw [harrays]
      refine forEach_eraseOne (P := Retired) (fun A => ?_) (fun b _ h => erasedArray_keeps_retired b h) _ hmemLive
      rw [contains_failures hmemLive, hfailed]
      exact erasedArray_retired A
  · intro hnone
    rw [exec_erasureDone, execErasureDone, erasureDone_nothing hnone]
    rfl
  · intro hmem hoff hlive
    rw [exec_erasureDone, execErasureDone, erasureDone_waits hmem hoff hlive]
    rfl
  · intro p ld hp hld hjobs hidle
    have hset : wsets (settle (loadIdle n s)) n = some (closeSet p.wset ld).1 := by
      rw [wsets_of_kept (settle_kept _), loadIdle_ends hp hld hjobs hidle, endLoad_wset hp hld]
    obtain ⟨q, hq, hwset⟩ := Option.map_eq_some_iff.1 hset
    refine ⟨settle (loadIdle n s), q, ?_, hq, ?_, ?_⟩
    · rw [exec_weightLoadIdleTimeout, execWeightLoadIdleTimeout, hpartOk, settled_true]
    · rw [hwset]
      unfold closeSet
      dsimp only
      split
      · rfl
      · split <;> rfl
    · rw [hwset]
  · intro p ld hp hld hbusy
    rw [exec_weightLoadIdleTimeout, execWeightLoadIdleTimeout, hpartOk, settled_true, loadIdle_waits hp hld hbusy]
  · intro p B hpart hp hB hqueued hryile hopen hon hrun hprog hrow
    subst hB
    rw [exec_touchUpChunk, execTouchUpChunk, hok, guarded_true, touchChunk_next hpart hp hqueued hryile hopen hon hrun hprog hrow]
  · intro p hpart hp hclosed
    rw [exec_touchUpChunk, execTouchUpChunk, hok, guarded_true, touchChunk_closed true hpart hp hclosed]
  · intro p u hp hidle hryile hrunning hu
    rw [exec_refreshIdle, execRefreshIdle, hpartOk, guarded_true, refreshIdle_opens hp hidle hryile hrunning hu]
  · intro p hp hidle
    rw [exec_refreshIdle, execRefreshIdle, hpartOk, guarded_true, refreshIdle_busy hp hidle]
  · intro p u k hp hwindow hu
    rw [exec_refreshWindowEnd, execRefreshWindowEnd, hpartOk, settled_true, windowEnd_closes hp hwindow hu]

end Sys2Proof.WeightEvents
end

section
/-!
PROOFS. 03 R77: what DRIFT_STALE_TIMEOUT leaves in the table of lanterns. It writes the lantern twice, first with the event counted, then with its array stale;
the clause of O31 writes them the other way round. A write that leaves a lantern as it is at reset takes its entry out: in a table that lists keys in order
this shows nowhere, in one that lists a lantern twice it drops the second listing too.
-/

open Sys2Proof Sys2Proof.Machine

namespace Sys2Proof.DriftStale

open Sys2Proof.HostPorts Sys2Proof.WeightEvents

variable {s : State} {l a : Nat}

/-- An array whose drift scale has become stale (R77). -/
def staleArray (A : WickArray) : WickArray := { A with stale := true, fresh := 0, driftNext := none }

/-- A lantern with array a stale. -/
def withStale (a : Nat) (L : Lantern) : Lantern := { L with arrays := tupd {} L.arrays a staleArray }

/-- A lantern with n more events of a source. -/
def counted (src n : Nat) (L : Lantern) : Lantern := { L with counters := bumpAll L.counters src n }

theorem getArr_withStale (a : Nat) (L : Lantern) : getArr (withStale a L) a = staleArray (getArr L a) := tget_tupd_same _ _ _ _

/-- A lantern with a stale array is not as at reset. -/
theorem ne_reset_of_stale {L : Lantern} (h : (getArr L a).stale = true) : L ≠ {} := by
  rintro rfl
  exact Bool.noConfusion h

theorem withStale_ne_reset (a : Nat) (L : Lantern) : withStale a L ≠ {} := ne_reset_of_stale (congrArg WickArray.stale (getArr_withStale a L))

theorem counted_withStale_ne_reset (src n a : Nat) (L : Lantern) : counted src n (withStale a L) ≠ {} :=
  ne_reset_of_stale (congrArg WickArray.stale (getArr_withStale a L))

/-! ## Counting and another write of the lantern -/

theorem countL_eq (s : State) (l src : Nat) {n : Nat} (hn : n ≠ 0) : countL s l src n = countPart (updL s l (counted src n)) (fieldOf l) src n := if_neg hn

theorem lanterns_countPart (s : State) (f src n : Nat) : (countPart s f src n).lanterns = s.lanterns := by
  unfold countPart
  split
  · unfold updPart
    split <;> rfl
  · rfl

/-- Counting for the partition and a write of a lantern do not meet. -/
theorem updL_countPart (s : State) (l f src n : Nat) (g : Lantern → Lantern) : updL (countPart s f src n) l g = countPart (updL s l g) f src n := by
  unfold countPart
  rw [show partOfField (updL s l g) f = partOfField s f from rfl]
  split
  · next pn _ =>
    unfold updPart
    rw [show getPart (updL s l g) pn = getPart s pn from rfl]
    split <;> rfl
  · rfl

theorem lanterns_updL (s : State) (l : Nat) (f : Lantern → Lantern) : (updL s l f).lanterns = tset {} s.lanterns l (f (getL s l)) := rfl

theorem updL_updL_of_tsorted (hs : tsorted s.lanterns = true) {f g : Lantern → Lantern} (hg : g (f (getL s l)) ≠ {}) :
    updL (updL s l f) l g = updL s l (fun L => g (f L)) := by
  unfold updL
  rw [getL_setL_same]
  unfold setL
  simp only [tset_tset_of_tsorted _ _ _ _ hg hs]

/-! ## The time of a reference sample is over -/

/-- The clause of O31 writes the array, then counts. -/
theorem countL_updArr_stale (s : State) (l a : Nat) :
    countL (updArr s l a staleArray) l 0x0E 1 = countPart (updL s l (fun L => counted 0x0E 1 (withStale a L))) (fieldOf l) 0x0E 1 := by
  rw [countL_eq _ _ _ one_ne_zero]
  exact congrArg (fun t => countPart t (fieldOf l) 0x0E 1) (updL_updL s l (withStale a) (counted 0x0E 1) (withStale_ne_reset a _))

section
variable (hl : l < 1600) (ha : a < 256) (hdue : (getArr (getL s l) a).lastSample + 10000000000 ≤ nowNs s) (hfresh : (getArr (getL s l) a).stale = false)
include hl ha hdue hfresh

/-- The model counts, then writes the array. -/
theorem exec_driftStaleTimeout_due :
    exec (.driftStaleTimeout l a) s = .next (countPart (updL (updL s l (counted 0x0E 1)) l (withStale a)) (fieldOf l) 0x0E 1) := by
  rw [exec_driftStaleTimeout, execDriftStaleTimeout, units_ok hl ha, guarded_true, if_pos hdue]
  show Host.Outcome.next (updL (if (getArr (getL s l) a).stale then s else countL s l 0x0E 1) l (withStale a)) = _
  rw [hfresh, if_neg Bool.false_ne_true, countL_eq _ _ _ one_ne_zero, updL_countPart]

/-- While the table lists its keys in order, the clause of O31 that fails below holds: the two orders come to one write. -/
theorem exec_driftStaleTimeout_of_tsorted (hs : tsorted s.lanterns = true) :
    exec (.driftStaleTimeout l a) s = .next (countL (updArr s l a staleArray) l 0x0E 1) := by
  rw [exec_driftStaleTimeout_due hl ha hdue hfresh, countL_updArr_stale, updL_updL_of_tsorted hs (withStale_ne_reset a _)]
  rfl

end

/-! ## The counterexample -/

/-- Ten seconds after VAON lantern 0 is listed twice; the first listing, which reads find, is a lantern as at reset. -/
def twiceListed : State := { State.reset with now := 10000000000, lanterns := [(0, {}), (0, { on := true })] }

/-- A lantern as at reset has no counter that counts. -/
theorem counted_twiceListed : counted 0x0E 1 (getL twiceListed 0) = {} := rfl

/-- The model takes both listings out and puts one back. -/
theorem lanterns_counted_stale :
    (updL (updL twiceListed 0 (counted 0x0E 1)) 0 (withStale 0)).lanterns = [(0, withStale 0 {})] := by
  rw [lanterns_updL, getL_updL_same, lanterns_updL, counted_twiceListed]
  simp only [tset, withStale_ne_reset, if_true, if_false]
  rfl

/-- One write replaces the first listing and leaves the second. -/
theorem lanterns_stale_counted :
    (updL twiceListed 0 (fun L => counted 0x0E 1 (withStale 0 L))).lanterns = [(0, counted 0x0E 1 (withStale 0 {})), (0, { on := true })] := by
  rw [lanterns_updL, tset, if_neg (counted_withStale_ne_reset _ _ 0 _)]
  rfl

/-- Refutes O31, by the clause of an array without a sample for 10 s: in a table that lists lantern 0 twice, the model leaves one listing where the clause
leaves two. -/
theorem not_referenceAndTemperature : ¬ Obligations.ReferenceAndTemperature := by
  unfold Obligations.ReferenceAndTemperature
  intro h
  obtain ⟨-, -, hstale, -⟩ := h 0 0 twiceListed _ _ (by decide) (by decide) rfl rfl
  have hstated := hstale (by decide) rfl
  rw [exec_driftStaleTimeout_due (by decide) (by decide) (by decide) rfl] at hstated
  have hlanterns := congrArg State.lanterns ((Host.Outcome.next.inj hstated).trans (countL_updArr_stale twiceListed 0 0))
  rw [lanterns_countPart, lanterns_countPart, lanterns_counted_stale, lanterns_stale_counted] at hlanterns
  exact absurd (congrArg List.length hlanterns) (by decide)

end Sys2Proof.DriftStale
end

section
/-!
PROOFS. The settings of a partition: DRIFT_COMP, MONITOR_SET, REFRESH_SET, REFRESH_WINDOW and RECALIBRATE (03 R79, R89, R106, R107; 11 R360). For each: what
stands in its way, then its effect.
-/

open Sys2Proof Sys2Proof.Machine

namespace Sys2Proof.PartitionSettings

open Sys2Proof.Take Sys2Proof.ModuleCommands

variable {e : Entry} {q : Qp} {s : State} {p : Partition}

theorem settingState_of_ne_faulted (h : p.state ≠ .faulted) : settingState p.state = true := bne_iff_ne.2 h

/-! ## One partition changed -/

/-- The partition of a fetched entry takes its new form. -/
theorem updPart_fetched (f : Partition → Partition) (hp : getPart s (partNo e) = some p) :
    updPart (fetched e q s) (partNo e) f = setPart (fetched e q s) (partNo e) (some (f p)) := updPart_some _ f hp

/-- One partition changed and committed: its new form stands, its epoch as it was or one more. -/
theorem commitRec_updPart {n : Nat} {t : State} (f : Partition → Partition) (ht : getPart t n = some p) :
    ∃ x, (x = f p ∨ x = epochUp (f p) 1) ∧ commitRec n (fun s => updPart s n f) t = setPart t n (some x) := by
  unfold commitRec
  dsimp only
  rw [updPart_some t f ht, ht, getPart_setPart_same]
  dsimp only
  split
  · exact ⟨f p, .inl rfl, rfl⟩
  · refine ⟨epochUp (f p) 1, .inr rfl, ?_⟩
    rw [updPart_some _ _ (getPart_setPart_same _ _ _)]
    unfold setPart
    dsimp only
    rw [tset_tset none t.parts n _ (Option.some_ne_none (f p))]

section
variable (hf : Fetches e q s) (hi : isPf e = true ∨ isBound s e = true) (hn : partNo e < 16) (hp : getPart s (partNo e) = some p) (hl : dlenOf e = 0)
include hf hi hn hp hl

/-! ## DRIFT_COMP and MONITOR_SET (03 R79, R89) -/

section
variable (hst : p.state ≠ .faulted)
include hst

theorem exec_driftComp_sets (hc : Clean e true [(20, 1)]) {b : Bool} (hv : pf e 20 1 = if b then 1 else 0) :
    exec (.driftComp e) s = .next (answered e q 0 0 0 (settleIdle (partNo e) (setPart (fetched e q s) (partNo e) (some { p with driftNext := some b })))) := by
  have hle : pf e 20 1 ≤ 1 := by cases b <;> simp [hv]
  have hb : (pf e 20 1 == 1) = b := by rw [hv]; cases b <;> rfl
  refine taken_answers hf ?_
  unfold driftComp
  dsimp only
  rw [partCmd_fetched _ (mayIssue_pfBound hi) hn hp (settingState_of_ne_faulted hst),
    fieldsThen_none _ (entryFault_none hc (by simp [hl]) (by simpa using hle)), updPart_fetched _ hp, hb]
  rfl

theorem exec_driftComp_range (hc : Clean e true [(20, 1)]) (hv : 2 ≤ pf e 20 1) :
    exec (.driftComp e) s = .next (answered e q 0x02 0 20 (fetched e q s)) := by
  refine taken_answers hf ?_
  unfold driftComp
  dsimp only
  rw [partCmd_fetched _ (mayIssue_pfBound hi) hn hp (settingState_of_ne_faulted hst),
    fieldsThen_some _ (entryFault_some (k := 20) hc (by simp [hl]) (by simp; omega) (by simp))]
  rfl

theorem exec_monitorSet_sets (hc : Clean e true [(20, 1), (24, 4)]) (hk : pf e 20 1 ≤ 5) (hlo : (monRange (pf e 20 1)).1 ≤ pf e 24 4)
    (hhi : pf e 24 4 ≤ (monRange (pf e 20 1)).2) {m : MonSet} (hm : m = monWith (p.monNext.getD p.mon) (pf e 20 1) (pf e 24 4)) (hrdf : m.rdfWarn ≤ m.rdfErr) :
    exec (.monitorSet e) s = .next (answered e q 0 0 0 (settleIdle (partNo e) (setPart (fetched e q s) (partNo e) (some { p with monNext := some m })))) := by
  refine taken_answers hf ?_
  unfold monitorSet
  dsimp only
  rw [partCmd_fetched _ (mayIssue_pfBound hi) hn hp (settingState_of_ne_faulted hst), ← hm,
    fieldsThen_none _ (entryFault_none hc (by simp [hl]) (by simp [hk, hlo, hhi, hrdf])), updPart_fetched _ hp]
  rfl

end

/-! ## REFRESH_SET (03 R106) -/

section
variable (hst : idleState p.state = true) (hc : Clean e true [(20, 1)]) (hlo : 13 ≤ pf e 20 1) (hhi : pf e 20 1 ≤ 50)
include hst hc hlo hhi

theorem exec_refreshSet_notRyile (hr : isRyile p = false) : exec (.refreshSet e) s = .next (answered e q 0x03 0 0 (fetched e q s)) := by
  refine taken_answers hf ?_
  unfold refreshSet
  dsimp only
  rw [partCmd_fetched _ (mayIssue_pfBound hi) hn hp hst, fieldsThen_none _ (entryFault_none hc (by simp [hl]) (by simp; omega)), hr]
  rfl

theorem exec_refreshSet_sets (hr : isRyile p = true) :
    exec (.refreshSet e) s
      = .next (answered e q 0 0 0 (commitRec (partNo e) (fun s => updPart s (partNo e) (fun p => { p with refresh := pf e 20 1 })) (fetched e q s))) := by
  refine taken_answers hf ?_
  unfold refreshSet
  dsimp only
  rw [partCmd_fetched _ (mayIssue_pfBound hi) hn hp hst, fieldsThen_none _ (entryFault_none hc (by simp [hl]) (by simp; omega)), hr]
  rfl

end

/-! ## REFRESH_WINDOW (03 R107) -/

section
variable (hst : p.state ≠ .faulted) (hc : Clean e true [(24, 4)]) (hlo : 1 ≤ pf e 24 4) (hhi : pf e 24 4 ≤ 60000)
include hst hc hlo hhi

theorem exec_refreshWindow_notRyile (hr : isRyile p = false) : exec (.refreshWindow e) s = .next (answered e q 0x03 0 0 (fetched e q s)) := by
  refine taken_answers hf ?_
  unfold refreshWindow
  dsimp only
  rw [partCmd_fetched _ (mayIssue_pfBound hi) hn hp (settingState_of_ne_faulted hst),
    fieldsThen_none _ (entryFault_none hc (by simp [hl]) (by simp; omega)), hr]
  rfl

theorem exec_refreshWindow_opens (hr : isRyile p = true) (hw : p.window10 = none) :
    exec (.refreshWindow e) s = .next (awaited e q (.refreshWindow (partNo e))
      (setPart (fetched e q s) (partNo e) (some { p with window10 := some (nowNs s + pf e 24 4 * 1000000, 0) }))) := by
  refine taken_waits hf ?_
  unfold refreshWindow
  dsimp only
  rw [partCmd_fetched _ (mayIssue_pfBound hi) hn hp (settingState_of_ne_faulted hst),
    fieldsThen_none _ (entryFault_none hc (by simp [hl]) (by simp; omega)), hr, hw, updPart_fetched _ hp]
  rfl

end
end

/-! ## RECALIBRATE of a partition (11 R360) -/

section
variable (hpf : isPf e = true) (hn : partNo e < 16) (hp : getPart s (partNo e) = some p) (hl : dlenOf e = 0) (hc : Clean e true [(20, 1)])
include hpf hn hl hc

/-- On partition p a kind that RECALIBRATE has passes its checks. -/
theorem recalibrate_part (hp : getPart s (partNo e) = some p) (hk : pf e 20 1 ≤ 2) (h : Nat) :
    recalibrate e h (fetched e q s)
      = if pf e 20 1 = 0 then
          if idleState p.state then recalOffsets e h (partLanterns (fetched e q s) p) (fetched e q s) else fails stState (fetched e q s)
        else if pf e 20 1 = 1 then driftNow (partNo e) p (fetched e q s)
        else doneWith (goodArrays (fetched e q s) (partLanterns (fetched e q s) p))
          (forEach (partLanterns (fetched e q s) p) (fun l s => forEach (List.range 256) (fun a s => startCapture s l a) s) (fetched e q s)) := by
  unfold recalibrate
  dsimp only
  rw [pfCmd_of_isPf _ hpf, fieldsThen_none _ (entryFault_none hc (by simp [hl]) (by simp; omega)), if_neg (by omega), getPart_fetched, hp]

variable (hf : Fetches e q s)
include hf

theorem exec_recalibrate_range (hk : 3 ≤ pf e 20 1) : exec (.recalibrate e) s = .next (answered e q 0x02 0 20 (fetched e q s)) := by
  refine taken_answers hf ?_
  unfold recalibrate
  dsimp only
  rw [pfCmd_of_isPf _ hpf, fieldsThen_some _ (entryFault_some (k := 20) hc (by simp [hl]) (by simp; omega) (by simp; omega))]
  rfl

include hp

theorem exec_recalibrate_part_allOn (hk : pf e 20 1 = 0) (hst : idleState p.state = true) {ls : List Nat} (hls : ls = partLanterns (fetched e q s) p)
    (hd : ls.filter (fun l => !(getL (fetched e q s) l).on) = []) :
    exec (.recalibrate e) s = .next (answered e q 0 (recalResult ls (fetched e q s)) 0 (recalibrated ls (fetched e q s))) := by
  refine taken_answers hf ?_
  rw [recalibrate_part hpf hn hl hc hp (by omega), if_pos hk, if_pos hst, ← hls, recalOffsets_allOn hd]
  rfl

theorem exec_recalibrate_part_someOff (hk : pf e 20 1 = 0) (hst : idleState p.state = true) {ls : List Nat} (hls : ls = partLanterns (fetched e q s) p)
    (hd : ls.filter (fun l => !(getL (fetched e q s) l).on) ≠ []) :
    exec (.recalibrate e) s = .next (awaited e q (.recal (recalResult ls (fetched e q s))) (recalWaits ls (fetched e q s))) := by
  refine taken_waits hf ?_
  rw [recalibrate_part hpf hn hl hc hp (by omega), if_pos hk, if_pos hst, ← hls, recalOffsets_someOff hd]

theorem exec_recalibrate_busy (hk : pf e 20 1 = 0) (hst : idleState p.state = false) :
    exec (.recalibrate e) s = .next (answered e q 0x07 0 0 (fetched e q s)) := by
  refine taken_answers hf ?_
  rw [recalibrate_part hpf hn hl hc hp (by omega), if_pos hk, hst]
  rfl

theorem exec_recalibrate_drift (hk : pf e 20 1 = 1) {xs : List (Nat × Nat)}
    (hxs : xs = (partLanterns (fetched e q s) p).flatMap (fun l =>
      ((getL (fetched e q s) l).arrays.filter (fun x => x.2.programmed && !x.2.samples.isEmpty)).map (fun x => (l, x.1)))) :
    exec (.recalibrate e) s = .next (answered e q 0 xs.length 0 (settleIdle (partNo e) (forEach xs (fun x s => driftUpdate s x.1 x.2) (fetched e q s)))) := by
  refine taken_answers hf ?_
  rw [recalibrate_part hpf hn hl hc hp (by omega), if_neg (by omega), if_pos hk, hxs]
  rfl

theorem exec_recalibrate_captures (hk : pf e 20 1 = 2) :
    exec (.recalibrate e) s = .next (answered e q 0 (goodArrays (fetched e q s) (partLanterns (fetched e q s) p)) 0
      (forEach (partLanterns (fetched e q s) p) (fun l s => forEach (List.range 256) (fun a s => startCapture s l a) s) (fetched e q s))) := by
  refine taken_answers hf ?_
  rw [recalibrate_part hpf hn hl hc hp (by omega), if_neg (by omega), if_neg (by omega)]
  rfl

end

/-! ## The statement -/

/-- Settles O56: each clause is the rule above of its command. -/
theorem partitionSettings : Obligations.PartitionSettings := by
  unfold Obligations.PartitionSettings
  rintro e q s _ _ p hf rfl rfl hn hp hl hi
  refine ⟨fun hst hc => ⟨fun b hv => ?_, fun hv => ?_⟩, ?_, fun hst hc hlo hhi => ⟨fun hr => ?_, fun hr => ?_⟩, ?_,
    fun hpf hc => ⟨?_, fun hk hst => ?_, fun xs hk hxs => ?_, fun hk => ?_, fun hk => ?_⟩⟩
  case refine_1 => exact exec_driftComp_sets hf hi hn hp hl hst hc hv
  case refine_2 => exact exec_driftComp_range hf hi hn hp hl hst hc hv
  case refine_3 =>
    rintro _ _ m hst hc rfl rfl hk hm hlo hhi hrdf
    exact exec_monitorSet_sets hf hi hn hp hl hst hc hk hlo hhi hm hrdf
  case refine_4 => exact exec_refreshSet_notRyile hf hi hn hp hl hst hc hlo hhi hr
  case refine_5 =>
    obtain ⟨x, hx, hcommit⟩ := commitRec_updPart (n := partNo e) (t := fetched e q s) (fun p => { p with refresh := pf e 20 1 }) hp
    have hexec := exec_refreshSet_sets hf hi hn hp hl hst hc hlo hhi hr
    rw [hcommit] at hexec
    refine ⟨_, x, hexec, getPart_setPart_same _ _ _, ?_, rfl, ?_, fun m hm => getPart_setPart_other _ _ hm⟩
    · rcases hx with rfl | rfl <;> rfl
    · exact hx.imp (fun h => by rw [h]) (fun h => by rw [h]; rfl)
  case refine_6 =>
    rintro _ hst hc rfl hlo hhi
    exact ⟨exec_refreshWindow_notRyile hf hi hn hp hl hst hc hlo hhi, exec_refreshWindow_opens hf hi hn hp hl hst hc hlo hhi⟩
  case refine_7 =>
    intro ls dark S hk hst hls hdark hS
    rw [hS, hdark, ← recalResult_fetched]
    exact ⟨exec_recalibrate_part_allOn hpf hn hp hl hc hf hk hst hls, exec_recalibrate_part_someOff hpf hn hp hl hc hf hk hst hls⟩
  case refine_8 => exact exec_recalibrate_busy hpf hn hp hl hc hf hk hst
  case refine_9 => exact exec_recalibrate_drift hpf hn hp hl hc hf hk hxs
  case refine_10 => exact exec_recalibrate_captures hpf hn hp hl hc hf hk
  case refine_11 => exact exec_recalibrate_range hpf hn hl hc hf hk

end Sys2Proof.PartitionSettings
end

section
/-!
PROOFS. Writes of the memories (05 R142, R164; 07 R216), and the instructions that the sequencer completes by itself (06 Table 6-2): what each leaves, and where
one does not complete.
-/

open Sys2Proof Sys2Proof.Machine

namespace Sys2Proof.Scalars

/-! ## Writes of the memories -/

theorem padAt_writePad_same (s : State) (l a : Nat) (x : Line) (p : Bool) (sh : BitVec 4) :
    padAt (getL (writePad s l a x p sh) l) a = ⟨x, true, p, false, sh⟩ := by
  unfold writePad padAt
  rw [getL_updL_same]
  exact tget_tset_same _ _ _ _

theorem padAt_writePad_other (s : State) {l a m b : Nat} (x : Line) (p : Bool) (sh : BitVec 4) (h : m ≠ l ∨ b ≠ a) :
    padAt (getL (writePad s l a x p sh) m) b = padAt (getL s m) b := by
  unfold writePad padAt
  by_cases hm : m = l
  · subst hm
    rw [getL_updL_same]
    exact tget_tset_other _ _ _ (h.resolve_left fun h => h rfl)
  · rw [getL_updL_other _ _ hm]

theorem kv_writeKv_same (s : State) (l a : Nat) (x : Line) (p : Bool) : tget {} (getL (writeKv s l a x p) l).kv a = ⟨x, p, false⟩ := by
  unfold writeKv
  rw [getL_updL_same]
  exact tget_tset_same _ _ _ _

theorem kv_writeKv_other (s : State) {l a m b : Nat} (x : Line) (p : Bool) (h : m ≠ l ∨ b ≠ a) :
    tget {} (getL (writeKv s l a x p) m).kv b = tget {} (getL s m).kv b := by
  unfold writeKv
  by_cases hm : m = l
  · subst hm
    rw [getL_updL_same]
    exact tget_tset_other _ _ _ (h.resolve_left fun h => h rfl)
  · rw [getL_updL_other _ _ hm]

/-- Settles O7: canonical forms by the laws of the memories, reads by those of the tables. -/
theorem memoryWrites : Obligations.MemoryWrites := by
  unfold Obligations.MemoryWrites
  intro s l a x p sh h
  exact ⟨memory_wf_writePad l a x p sh h, memory_wf_writeKv l a x p h, padAt_writePad_same s l a x p sh, fun _ _ => padAt_writePad_other s x p sh,
    kv_writeKv_same s l a x p, fun _ _ => kv_writeKv_other s x p, fun n => memory_wf_clearLines l n a h, fun v => memory_wf_cistern a v h⟩

/-! ## Scalar instructions (06 Table 6-2, R177, R181) -/

section
variable {l : Nat} {f : FmtS} {s : State}

theorem lanternOk_of_lt (h : l < 1600) : lanternOk l = true := decide_eq_true h

theorem pc_setReg (s : State) (l : Nat) (r : Fin 32) (v : Word) : (getL (setReg s l r v) l).pc = (getL s l).pc := by
  unfold setReg
  split
  · rfl
  · rw [getL_updL_same]

theorem getReg_passed (r : Fin 32) : getReg (getL (passed l s) l) r = getReg (getL s l) r := by
  rw [getL_passed]
  rfl

/-- An instruction that only writes a register, short of the last index. -/
theorem issue_setReg {i : Instr} {t : State → Try} {r : Fin 32} {v : Word} (h : Takes l i s) (hpc : (getL s l).pc ≠ 8191)
    (ht : t (passed l s) = .done (setReg (passed l s) l r v)) : issue l i t s = retired l (setReg (passed l s) l r v) := by
  refine issue_done h ht ?_
  rw [pc_setReg, getL_passed]
  exact fun e => hpc (Nat.succ.inj e)

theorem pending_passed (h : (getL s l).pending = []) : (getL (passed l s) l).pending = [] := by rw [getL_passed, h]

theorem scalarOp_passed {i : Instr} (h : Takes l i s) (op : Word → Word → Word) :
    scalarOp l f op (passed l s) = .done (setReg (passed l s) l f.sd (op (getReg (getL s l) f.sa) (getReg (getL s l) f.sb))) := by
  unfold scalarOp
  rw [withRegs_free _ _ (pending_passed h.regs), getReg_passed, getReg_passed]

/-- The eleven register instructions: SD takes op of SA and SB. -/
theorem exec_scalarOp {i : Instr} {op : Word → Word → Word} (hi : exec i s = guarded (lanternOk l) (issue l i (scalarOp l f op) s)) (h : Takes l i s)
    (hpc : (getL s l).pc ≠ 8191) :
    exec i s = .next (retired l (setReg (passed l s) l f.sd (op (getReg (getL s l) f.sa) (getReg (getL s l) f.sb)))) := by
  rw [hi, lanternOk_of_lt h.unit, guarded_true, issue_setReg h hpc (scalarOp_passed h op)]

theorem sshiftRight_eq_ofInt (a : Word) (n : Nat) : a.sshiftRight n = BitVec.ofInt 64 (a.toInt / 2 ^ n) := by
  rw [BitVec.sshiftRight, Int.shiftRight_eq_div_pow]
  rfl

theorem mul_eq_ofNat (a b : Word) : a * b = BitVec.ofNat 64 (a.toNat * b.toNat) := BitVec.eq_of_toNat_eq (by simp)

/-- Settles O9: each instruction is the operation of its row on SA and SB. -/
theorem scalarArithmetic : Obligations.ScalarArithmetic := by
  unfold Obligations.ScalarArithmetic
  rintro l f s a b rfl rfl hpc
  refine ⟨fun r x v => ⟨rfl, rfl, getReg_setReg_same s l r v, getReg_setReg_other s l v⟩, fun h => exec_scalarOp (exec_add l f s) h hpc,
    fun h => exec_scalarOp (exec_sub l f s) h hpc, fun h => exec_scalarOp (exec_and l f s) h hpc, fun h => exec_scalarOp (exec_or l f s) h hpc,
    fun h => exec_scalarOp (exec_xor l f s) h hpc, fun h => exec_scalarOp (op := fun a b => a <<< (b.toNat % 64)) (exec_shl l f s) h hpc,
    fun h => exec_scalarOp (op := fun a b => a >>> (b.toNat % 64)) (exec_shr l f s) h hpc, fun h => ?sar, fun h => ?mul, fun h => ?slt, fun h => ?sltu⟩
  case sar =>
    rw [← sshiftRight_eq_ofInt]
    exact exec_scalarOp (op := fun a b => a.sshiftRight (b.toNat % 64)) (exec_sar l f s) h hpc
  case mul =>
    rw [← mul_eq_ofNat]
    exact exec_scalarOp (exec_mul l f s) h hpc
  case slt =>
    have hexec := exec_scalarOp (op := fun a b => if a.slt b then 1 else 0) (exec_slt l f s) h hpc
    simpa only [BitVec.slt, decide_eq_true_eq] using hexec
  case sltu =>
    have hexec := exec_scalarOp (op := fun a b => if a.ult b then 1 else 0) (exec_sltu l f s) h hpc
    simpa only [BitVec.ult, decide_eq_true_eq] using hexec

/-! ## Scratchpad lines (05 R142, R144) -/

theorem scalarAddr_passed : scalarAddr (getL (passed l s) l) f = scalarAddr (getL s l) f := by rw [getL_passed]; rfl
theorem rangeOk_passed (a n : Nat) : rangeOk (getL (passed l s) l) a n = rangeOk (getL s l) a n := by rw [getL_passed]; rfl
theorem padAt_passed (a : Nat) : padAt (getL (passed l s) l) a = padAt (getL s l) a := by rw [getL_passed]; rfl

/-- A KEEP read of a sound line that is not poisoned counts nothing. -/
theorem readPad_clean {t : State} {a : Nat} (hp : (padAt (getL t l) a).poison = false) (hb : (padAt (getL t l) a).parBad = false) :
    readPad t l a false = (t, (padAt (getL t l) a).data, false) := by
  simp [readPad, deliver, hp, hb]

theorem trySld_passed {i : Instr} (h : Takes l i s) (hr : rangeOk (getL s l) (scalarAddr (getL s l) f) 1 = true)
    (hfull : (padAt (getL s l) (scalarAddr (getL s l) f)).full = true) (hp : (padAt (getL s l) (scalarAddr (getL s l) f)).poison = false)
    (hb : (padAt (getL s l) (scalarAddr (getL s l) f)).parBad = false) :
    trySld l f (passed l s) = .done (setReg (passed l s) l f.sd ((padAt (getL s l) (scalarAddr (getL s l) f)).data.setWidth 64)) := by
  unfold trySld
  rw [withRegs_free _ _ (pending_passed h.regs)]
  have hread := readPad_clean (t := passed l s) (a := scalarAddr (getL s l) f) (by rw [padAt_passed, hp]) (by rw [padAt_passed, hb])
  simp only [scalarAddr_passed, rangeOk_passed, padAt_passed, hr, hfull, hread, Bool.not_true, Bool.false_eq_true, if_false]

theorem trySst_passed {i : Instr} (h : Takes l i s) (hr : rangeOk (getL s l) (scalarAddr (getL s l) f) 1 = true)
    (hfree : (padAt (getL s l) (scalarAddr (getL s l) f)).full = false) :
    trySst l f (passed l s) = .done (writePad (passed l s) l (scalarAddr (getL s l) f) ((getReg (getL s l) f.sb).setWidth 544) false 0xA) := by
  unfold trySst
  rw [withRegs_free _ _ (pending_passed h.regs)]
  simp only [scalarAddr_passed, rangeOk_passed, padAt_passed, hr, hfree, getReg_passed, Bool.not_true, Bool.false_eq_true, if_false]

/-- Settles O11: the range check and the line's tag let each pass, and the access is the effect. -/
theorem scalarMemory : Obligations.ScalarMemory := by
  unfold Obligations.ScalarMemory
  rintro l f s _ hpc rfl hr
  refine ⟨fun h hfull hp hb => ?_, fun h hfree => ?_⟩
  · rw [exec_sld, execSld, lanternOk_of_lt h.unit, guarded_true, issue_setReg h hpc (trySld_passed h hr hfull hp hb)]
    rfl
  · rw [exec_sst, execSst, lanternOk_of_lt h.unit, guarded_true, issue_done h (trySst_passed h hr hfree)]
    · rfl
    · rw [writePad, getL_updL_same, getL_passed]
      exact fun e => hpc (Nat.succ.inj e)

/-! ## Where issue stops (05 R136, R160; 06 R177, R192) -/

theorem fieldsOk_add : fieldsOk (.add l f) = true ↔ f.imm = 0 := beq_iff_eq

/-- A lantern that may not issue, or a word that program load rejects. -/
theorem issue_refused {i : Instr} {t : State → Try} (h : canIssue (getL s l) = false ∨ fieldsOk i = false) : issue l i t s = s := by
  unfold issue
  rcases h with h | h <;> simp [h]

theorem issue_parity {i : Instr} {t : State → Try} (hc : canIssue (getL s l) = true) (hf : fieldsOk i = true)
    (hb : (tget {} (getL s l).store (getL s l).pc).parBad = true) : issue l i t s = trapAt s l causeStore (getL s l).pc (getL s l).pc (encodeWord i) := by
  unfold issue attempt
  simp only [hc, hf, hb, Bool.and_self, if_true]

/-- A hold puts the program index and the issue count back: the lantern is as before but for what it holds. -/
theorem attempt_hold {i : Instr} {t : State → Try} {c : Nat} (hc : canIssue (getL s l) = true) (hb : (tget {} (getL s l).store (getL s l).pc).parBad = false)
    (ht : t (passed l s) = .hold c (passed l s)) : attempt l i t s = updL s l (fun L => { L with held := some (i, c, nowNs s) }) := by
  have hne : ({ getL s l with pc := (getL s l).pc + 1, issued := (getL s l).issued + 1 } : Lantern) ≠ {} :=
    ne_reset (L := { getL s l with pc := (getL s l).pc + 1, issued := (getL s l).issued + 1 }) (canIssue_on hc)
  unfold attempt
  simp only [hb, Bool.false_eq_true, if_false]
  rw [show updL s l (fun L => { L with pc := (getL s l).pc + 1, issued := (getL s l).issued + 1 }) = passed l s from updL_congr _ _ rfl, ht]
  simp only
  unfold passed
  rw [updL_updL _ _ _ _ hne]
  exact updL_congr _ _ rfl

theorem withRegs_pending {rs : List (Fin 32)} (t : State → Try) (h : ∃ r ∈ rs, r ∈ (getL s l).pending) : withRegs l rs t s = .hold 0x0E s := by
  unfold withRegs
  rw [if_pos]
  obtain ⟨r, hr, hp⟩ := h
  exact List.any_eq_true.2 ⟨r, hr, List.contains_iff_mem.2 hp⟩

theorem issue_pending {i : Instr} {op : Word → Word → Word} (hc : canIssue (getL s l) = true) (hf : fieldsOk i = true)
    (hb : (tget {} (getL s l).store (getL s l).pc).parBad = false) (hp : ∃ r ∈ [f.sd, f.sa, f.sb], r ∈ (getL s l).pending) :
    issue l i (scalarOp l f op) s = updL s l (fun L => { L with held := some (i, 0x0E, nowNs s) }) := by
  unfold issue
  rw [hc, hf]
  refine attempt_hold hc hb (withRegs_pending _ ?_)
  rw [getL_passed]
  exact hp

/-- A register instruction at the last index of the store completes, and then the lantern traps. -/
theorem issue_scalarOp_last {i : Instr} {op : Word → Word → Word} (h : Takes l i s) (hpc : (getL s l).pc = 8191) :
    issue l i (scalarOp l f op) s
      = trapAt (retired l (setReg (passed l s) l f.sd (op (getReg (getL s l) f.sa) (getReg (getL s l) f.sb)))) l causeRange 8192 8191 (encodeWord i) := by
  rw [issue_takes _ h, scalarOp_passed h]
  simp only [passEnd, pc_countL, pc_setReg, getL_passed, hpc, if_true]
  rfl

/-- Settles O14: the four places of issue where ADD stops. -/
theorem whereIssueStops : Obligations.WhereIssueStops := by
  unfold Obligations.WhereIssueStops
  intro l f s hl
  have hexec : exec (.add l f) s = .next (issue l (.add l f) (tryAdd l f) s) := by rw [exec_add, execAdd, lanternOk_of_lt hl, guarded_true]
  rw [hexec]
  refine ⟨fun h => ?_, fun hc hf hb => ?_, fun hc hf hb hp => ?_, fun h hpc => ?_⟩
  · rw [issue_refused (h.imp_right fun hf => by simpa [fieldsOk] using hf)]
  · rw [issue_parity hc (fieldsOk_add.2 hf) hb]
    rfl
  · exact congrArg _ (issue_pending hc (fieldsOk_add.2 hf) hb (by simpa using hp))
  · exact congrArg _ (issue_scalarOp_last h hpc)

end

/-! ## Sequencer control (05 R140; 06 R187, R189, R195) -/

section
open Sys2Proof.Reports Sys2Proof.ArrayIssue

/-- The partition found for a field is found again when it is written with as much of the field. -/
theorem partOfField_updPart {s : State} {f k : Nat} {g : Partition → Partition} (hk : partOfField s f = some k) (hg : ∀ p, inRect (g p) f = inRect p f) :
    partOfField (updPart s k g) f = some k := by
  unfold updPart
  split
  · next p hp =>
    rw [partOfField_eq, setPart, tset, if_neg (Option.some_ne_none _)]
    refine find_tins f k _ s.parts hk ?_
    rw [show tget none s.parts k = some p from hp]
    exact hg p
  · exact hk

/-- From s to t a trace record may have been made for lantern l: other lanterns, the fields and the windows of the partitions stand, and of lantern l all
but its counters and its latch. -/
structure Traced (l : Nat) (s t : State) : Prop where
  lanterns : ∀ m, m ≠ l → getL t m = getL s m
  lantern : ∃ c x, getL t l = { getL s l with counters := c, latch := x }
  fields : ∀ f, getF t f = getF s f
  part : partOf t l = partOf s l
  windows : ∀ n, (getPart t n).map Partition.window = (getPart s n).map Partition.window

section
variable {l : Nat} {s t u : State}

theorem traced_refl (l : Nat) (s : State) : Traced l s s := ⟨fun _ _ => rfl, ⟨_, _, rfl⟩, fun _ => rfl, rfl, fun _ => rfl⟩

theorem Traced.trans (h : Traced l s t) (k : Traced l t u) : Traced l s u where
  lanterns m hm := (k.lanterns m hm).trans (h.lanterns m hm)
  lantern := by
    obtain ⟨_, _, hst⟩ := h.lantern
    obtain ⟨_, _, htu⟩ := k.lantern
    rw [hst] at htu
    exact ⟨_, _, htu⟩
  fields f := (k.fields f).trans (h.fields f)
  part := k.part.trans h.part
  windows n := (k.windows n).trans (h.windows n)

theorem traced_countL (l : Nat) (s : State) (src n : Nat) : Traced l s (countL s l src n) where
  lanterns _ hm := getL_countL_other _ _ _ hm
  lantern := by
    obtain ⟨_, hc⟩ := getL_countL s l src n l
    exact ⟨_, _, hc⟩
  fields f := same_of_blank others (getF · f) (fun _ => rfl) (others_countL s l src n)
  part := partOf_countL s l src n
  windows k := by
    have hk := congrArg (Option.map Partition.window) (parts_countL s l src n k)
    rwa [Option.map_map, Option.map_map] at hk

theorem traced_offerFn (l : Nat) (s : State) (fn : Fn) (r : EventRec) : Traced l s (offerFn s fn r) where
  lanterns m _ := getL_of_unreported (offerFn_unreported s fn r) m
  lantern := ⟨_, _, getL_of_unreported (offerFn_unreported s fn r) l⟩
  fields f := same_of_blank unreported (getF · f) (fun _ => rfl) (offerFn_unreported s fn r)
  part := same_of_blank unreported (partOf · l) (fun _ => rfl) (offerFn_unreported s fn r)
  windows n := by rw [getPart_of_unreported (offerFn_unreported s fn r) n]

theorem traced_latch (l : Nat) (s : State) (r : EventRec) : Traced l s (updL s l (fun L => { L with latch := L.latch ++ [r] })) where
  lanterns _ hm := getL_updL_other _ _ hm
  lantern := ⟨_, _, getL_updL_same _ _ _⟩
  fields _ := rfl
  part := rfl
  windows _ := rfl

theorem getL_updPart (s : State) (n m : Nat) (f : Partition → Partition) : getL (updPart s n f) m = getL s m := by
  unfold updPart
  split <;> rfl

theorem getF_updPart (s : State) (n m : Nat) (f : Partition → Partition) : getF (updPart s n f) m = getF s m := by
  unfold updPart
  split <;> rfl

theorem traced_traceSeq {n : Nat} (hn : partOf s l = some n) (f : Partition → Nat) : Traced l s (updPart s n (fun p => { p with traceSeq := f p })) where
  lanterns m _ := getL_updPart _ _ _ _
  lantern := ⟨_, _, getL_updPart _ _ _ _⟩
  fields m := getF_updPart _ _ _ _
  part := (partOfField_updPart (g := fun p => { p with traceSeq := f p }) hn fun _ => rfl).trans hn.symm
  windows m := by
    by_cases hm : m = n
    · subst hm
      rw [getPart_updPart_same, Option.map_map]
      rfl
    · rw [getPart_updPart_other _ _ hm]

theorem traced_traceL (l : Nat) (s : State) (n detail : Nat) : Traced l s (traceL s l n detail) := by
  unfold traceL
  split
  · exact traced_refl l s
  · next n hn =>
    split
    · exact traced_refl l s
    · split
      · exact traced_refl l s
      · split
        · exact traced_countL l s _ _
        · exact ((((traced_traceSeq hn _).trans (traced_latch l _ _)).trans (traced_offerFn l _ _ _)).trans (traced_offerFn l _ _ _)).trans
            (traced_offerFn l _ _ _)

/-- A lantern that closes its step: all but the counters and the latch is as with one more step closed. -/
theorem traced_closeStep (l : Nat) (s : State) : Traced l (updL s l (fun L => { L with closed := L.closed + 1 })) (closeStep s l) :=
  (traced_countL l _ _ _).trans (traced_traceL l _ _ _)

end

section
variable {l : Nat} {f : FmtC} {s : State}

theorem lantern_ne_reset {L : Lantern} (h : canIssue L = true) : L ≠ {} := ne_reset (canIssue_on h)

theorem pc_passed_ne {i : Instr} (_h : Takes l i s) (hpc : (getL s l).pc ≠ 8191) : (getL (passed l s) l).pc ≠ 8192 := by
  rw [getL_passed]
  exact fun e => hpc (Nat.succ.inj e)

theorem engineIdle_passed (e : Nat) : engineIdle (getL (passed l s) l) e = engineIdle (getL s l) e := by rw [getL_passed]; rfl

theorem tryFence_passes (h : ∀ e, e < 7 → f.imm.getLsbD e = true → engineIdle (getL s l) e = true) : tryFence l f (passed l s) = .done (passed l s) := by
  unfold tryFence
  rw [if_pos]
  rw [List.all_eq_true]
  intro e he
  rw [engineIdle_passed]
  cases hb : f.imm.getLsbD e
  · rfl
  · rw [h e (List.mem_range.1 he) hb]
    rfl

theorem tryFence_holds (h : ∃ e, e < 7 ∧ f.imm.getLsbD e = true ∧ engineIdle (getL s l) e = false) :
    tryFence l f (passed l s) = .hold 0x0F (passed l s) := by
  obtain ⟨e, he, hb, hidle⟩ := h
  unfold tryFence
  rw [if_neg]
  intro hall
  have hat := List.all_eq_true.1 hall e (List.mem_range.2 he)
  rw [engineIdle_passed, hb, hidle] at hat
  exact Bool.noConfusion hat

/-! ### STEP -/

/-- The lantern past STEP, its plan for the step after counted in its field. -/
def planned (l : Nat) (f : FmtC) (s : State) : State :=
  updF (passed l s) (fieldOf l) (fun F => { F with declared := tset 0 F.declared ((getL s l).step + 1) (declaredSum s l ((getL s l).step + 1) + f.imm.toNat) })

/-- The next step opened, with its declared charge. -/
def opened (l c : Nat) (s : State) : State := updL s l (fun L => { L with step := L.step + 1, declared := c, charge := 0 })

theorem getL_planned (m : Nat) : getL (planned l f s) m = getL (passed l s) m := rfl

/-- Lantern l with the step closed. -/
theorem lantern_closed : ∃ c x, getL (closeStep (planned l f s) l) l
    = { getL s l with pc := (getL s l).pc + 1, issued := (getL s l).issued + 1, closed := (getL s l).closed + 1, counters := c, latch := x } := by
  obtain ⟨c, x, h⟩ := (traced_closeStep l (planned l f s)).lantern
  rw [getL_updL_same, getL_planned, getL_passed] at h
  exact ⟨c, x, h⟩

theorem window_closed {pn : Nat} {p : Partition} (hp : getPart s pn = some p) :
    ∃ q, getPart (closeStep (planned l f s) l) pn = some q ∧ q.window = p.window := by
  have h := (traced_closeStep l (planned l f s)).windows pn
  rw [show getPart (updL (planned l f s) l _) pn = some p from hp] at h
  obtain ⟨q, hq, hw⟩ := Option.map_eq_some_iff.1 h
  exact ⟨q, hq, hw⟩

theorem declared_closed : declaredSum (closeStep (planned l f s) l) l ((getL s l).step + 1) = declaredSum s l ((getL s l).step + 1) + f.imm.toNat := by
  have h := (traced_closeStep l (planned l f s)).fields (fieldOf l)
  unfold declaredSum
  rw [h]
  show tget 0 (getF (planned l f s) (fieldOf l)).declared _ = _
  rw [planned, getF_updF_same]
  exact tget_tset_same _ _ _ _

theorem lanterns_closed {m : Nat} (hm : m ≠ l) : getL (closeStep (planned l f s) l) m = getL s m := by
  rw [(traced_closeStep l (planned l f s)).lanterns m hm, getL_updL_other _ _ hm, getL_planned, getL_passed_other _ hm]

/-- What lets STEP close its step and open the next: the step is open, every instruction has completed, the plan and the window allow it. -/
structure Steps (l : Nat) (f : FmtC) (s : State) (pn : Nat) (p : Partition) : Prop where
  part : partOf s l = some pn
  holds : getPart s pn = some p
  isOpen : (getL s l).closed ≤ (getL s l).step
  idle : allIdle (getL s l) = true
  plan : declaredSum s l ((getL s l).step + 1) + f.imm.toNat ≤ p.allowance
  window : (getL s l).step + 1 < p.window + (getL s l).seen

theorem openStep_closed {pn : Nat} {p : Partition} (h : Steps l f s pn p) (c : Nat) :
    openStep l c (closeStep (planned l f s) l) = .done (opened l c (closeStep (planned l f s) l)) := by
  obtain ⟨_, _, hL⟩ := lantern_closed (l := l) (f := f) (s := s)
  obtain ⟨q, hq, hw⟩ := window_closed (l := l) (f := f) h.holds
  have hpart : (partOf (closeStep (planned l f s) l) l).getD 16 = pn := by
    rw [(traced_closeStep l (planned l f s)).part, show partOf (updL (planned l f s) l _) l = partOf s l from rfl, h.part]
    rfl
  unfold openStep
  simp only [hpart, hq, hw, hL]
  exact if_neg (Nat.not_le.2 h.window)

theorem tryStep_opens {pn : Nat} {p : Partition} (h : Steps l f s pn p) :
    tryStep l f (passed l s) = .done (opened l f.imm.toNat (closeStep (planned l f s) l)) := by
  have hopen : stepClosed (getL (passed l s) l) = false := by
    rw [getL_passed]
    exact decide_eq_false (Nat.not_lt.2 h.isOpen)
  have hidle : allIdle (getL (passed l s) l) = true := by
    rw [getL_passed]
    exact h.idle
  have hpart : (partOf (passed l s) l).getD 16 = pn := by
    rw [show partOf (passed l s) l = partOf s l from rfl, h.part]
    rfl
  have hholds : getPart (passed l s) pn = some p := h.holds
  have hstep : (getL (passed l s) l).step = (getL s l).step := by rw [getL_passed]
  have hsum : declaredSum (passed l s) l ((getL s l).step + 1) = declaredSum s l ((getL s l).step + 1) := rfl
  unfold tryStep
  simp only [hopen, hidle, hpart, hholds, hstep, hsum, Bool.not_true, Bool.false_eq_true, if_false, if_neg (Nat.not_lt.2 h.plan)]
  exact openStep_closed h _

/-- Lantern l past STEP, with the counters and the latch that the step's closure left. -/
theorem lantern_opened (c : Nat) : ∃ cs x, getL (retired l (opened l c (closeStep (planned l f s) l))) l
    = { getL s l with
        pc := (getL s l).pc + 1, issued := (getL s l).issued + 1, closed := (getL s l).closed + 1, counters := cs, latch := x,
        step := (getL s l).step + 1, declared := c, charge := 0 } := by
  obtain ⟨_, x, hL⟩ := lantern_closed (l := l) (f := f) (s := s)
  obtain ⟨cs, hcount⟩ := getL_countL (opened l c (closeStep (planned l f s) l)) l 0x02 1 l
  refine ⟨cs, x, ?_⟩
  rw [retired, hcount, opened, getL_updL_same, hL]

theorem exec_step_opens {pn : Nat} {p : Partition} (ht : Takes l (.step l f) s) (hpc : (getL s l).pc ≠ 8191) (h : Steps l f s pn p) :
    exec (.step l f) s = .next (retired l (opened l f.imm.toNat (closeStep (planned l f s) l))) := by
  obtain ⟨_, _, hL⟩ := lantern_closed (l := l) (f := f) (s := s)
  rw [exec_step, execStep, lanternOk_of_lt ht.unit, guarded_true, issue_done ht (tryStep_opens h)]
  rw [opened, getL_updL_same, hL]
  exact fun e => hpc (Nat.succ.inj e)

/-- Settles O13: the attempt of each, passed on, held, opened or trapped. -/
theorem sequencerControl : Obligations.SequencerControl := by
  unfold Obligations.SequencerControl
  intro l f s
  refine ⟨fun h hpc => ?_, fun h hpc hidle => ?_, fun h hbusy => ?_, fun pn p h hpc hpart hholds hopen hidle hplan hwindow => ?_, fun h hpart => ?_⟩
  · rw [exec_nop, execNop, lanternOk_of_lt h.unit, guarded_true, issue_done (t := tryNop l f) h rfl (pc_passed_ne h hpc)]
  · rw [exec_fence, execFence, lanternOk_of_lt h.unit, guarded_true, issue_done h (tryFence_passes hidle) (pc_passed_ne h hpc)]
  · rw [exec_fence, execFence, lanternOk_of_lt h.unit, guarded_true, issue_hold h (tryFence_holds hbusy)]
  · have hexec := exec_step_opens h hpc ⟨hpart, hholds, hopen, hidle, hplan, hwindow⟩
    obtain ⟨_, _, hL⟩ := lantern_opened (l := l) (f := f) (s := s) f.imm.toNat
    refine ⟨_, hexec, shape_pending (execStep_shape l f s hexec), ?_, ?_, ?_, ?_, ?_, ?_, ?_, ?_, fun m hm => ?_⟩
    case refine_8 =>
      have hfield := (traced_countL l (opened l f.imm.toNat (closeStep (planned l f s) l)) 0x02 1).fields (fieldOf l)
      rw [← declared_closed (l := l) (f := f) (s := s)]
      exact congrArg (fun F => tget 0 F.declared _) hfield
    case refine_9 =>
      rw [retired, getL_countL_other _ _ _ hm, opened, getL_updL_other _ _ hm, lanterns_closed hm]
    all_goals simp only [hL]
  · rw [exec_trapi, execTrapi, lanternOk_of_lt h.unit, guarded_true, issue_trap (t := tryTrapi l f) h rfl hpart]
    rfl

end
end
end Sys2Proof.Scalars
end

section
/-!
PROOFS. Flits that reach a lantern (05 R155, R156; 06 R185, R186): the oldest flit of a kind leaves the delivered ones, and what its arrival does with it.
-/

open Sys2Proof Sys2Proof.Machine

namespace Sys2Proof.Arriving

/-- Lantern l with the flits xs delivered. -/
def delivered (l : Nat) (xs : List Flit) (s : State) : State := updL s l (fun L => { L with rx := xs })

section
variable {l : Nat} {s : State} {pre rest : List Flit} {f : Flit}

theorem getL_delivered (l : Nat) (xs : List Flit) (s : State) : getL (delivered l xs s) l = { getL s l with rx := xs } := getL_updL_same _ _ _

theorem find_oldest {p : Flit → Bool} (hpre : ∀ g ∈ pre, p g = false) (hf : p f = true) : (pre ++ f :: rest).find? p = some f := by
  rw [List.find?_append, List.find?_eq_none.2 fun g hg => by simp [hpre g hg], List.find?_cons_of_pos hf]
  rfl

theorem eraseP_oldest {p : Flit → Bool} (hpre : ∀ g ∈ pre, p g = false) (hf : p f = true) : (pre ++ f :: rest).eraseP p = pre ++ rest := by
  rw [List.eraseP_append_right _ fun g hg => by simp [hpre g hg], List.eraseP_cons_of_pos hf]

theorem arrive_oldest {p : Flit → Bool} (t : Nat → Flit → State → State) (hrx : (getL s l).rx = pre ++ f :: rest) (hpre : ∀ g ∈ pre, p g = false)
    (hf : p f = true) : arrive l p t s = t l f (delivered l (pre ++ rest) s) := by
  have hS : updL s l (fun L => { L with rx := L.rx.eraseP p }) = delivered l (pre ++ rest) s :=
    updL_congr _ _ (by rw [hrx, eraseP_oldest hpre hf])
  unfold arrive takeRx
  rw [hrx, find_oldest hpre hf]
  exact congrArg (t l f) hS

/-- The command of a kind of flit hands the oldest of the kind to its meaning. -/
theorem exec_arrival {c : Instr} {k : Fin 8} {t : Nat → Flit → State → State} (hc : exec c s = guarded (lanternOk l) (arrive l (fun f => f.kind == k) t s))
    (hl : l < 1600) (hrx : (getL s l).rx = pre ++ f :: rest) (hpre : ∀ g, g ∈ pre → g.kind ≠ f.kind) (hk : f.kind = k) :
    exec c s = .next (t l f (delivered l (pre ++ rest) s)) := by
  rw [hc, show lanternOk l = true from decide_eq_true hl, guarded_true,
    arrive_oldest t hrx (fun g hg => beq_eq_false_iff_ne.2 (hk ▸ hpre g hg)) (beq_iff_eq.2 hk)]

end

/-! ## Queue lines (05 R155) -/

section
variable {l : Nat} {s : State} {f : Flit}

theorem storeQline_stores {Q : Queue} (hQ : Q = getQ (getL s l) f.sub.val) (hd : 0 < Q.depth) (hroom : (Q.w - Q.l).toNat < Q.depth) :
    storeQline l f s = updL s l (fun L => { L with
      pad := tset {} L.pad (Q.base + Q.w.toNat % Q.depth) ⟨f.line, false, f.poison, false, BitVec.ofNat 4 f.fmt.val⟩,
      queues := tset {} L.queues f.sub.val { Q with w := Q.w + 1 } }) := by
  have hfit : ¬ (Q.depth = 0 ∨ Q.depth ≤ (Q.w - Q.l).toNat) := by omega
  unfold storeQline
  simp only [← hQ, if_neg hfit]
  unfold updQ
  rw [updL_updL]
  · refine updL_congr _ _ ?_
    rw [tupd, show tget {} (getL s l).queues f.sub.val = Q from hQ.symm]
  · intro hreset
    have hnone : getQ (getL s l) f.sub.val = {} := by
      unfold getQ
      rw [show (getL s l).queues = [] from congrArg Lantern.queues hreset]
      rfl
    rw [hQ, hnone] at hd
    exact Nat.lt_irrefl 0 hd

theorem storeQline_full {Q : Queue} (hQ : Q = getQ (getL s l) f.sub.val) (hfull : Q.depth ≤ (Q.w - Q.l).toNat) :
    storeQline l f s = trapNow (countL s l 0x31 1) l causeCredit f.sub.val := by
  unfold storeQline
  simp only [← hQ, if_pos (Or.inr hfull)]

/-! ## Accumulator lines (06 R185) -/

theorem storeAccx_joins {k : Lane} (hk : k = getLane (getL s l) (f.sub.val % 8)) (hu : k.used = true) (hroom : k.buf.length < 128) :
    storeAccx l f s = updL s l (fun L => { L with
      lanes := tset {} L.lanes (f.sub.val % 8) { k with buf := k.buf ++ [(f.line, f.poison, decide (8 ≤ f.sub.val))] } }) := by
  have hfit : ¬ (!k.used || decide (128 ≤ k.buf.length)) = true := by simp [hu, hroom]
  unfold storeAccx
  simp only [← hk, if_neg hfit]
  refine updL_congr _ _ ?_
  rw [tupd, show tget {} (getL s l).lanes (f.sub.val % 8) = k from hk.symm]

theorem storeAccx_full (hfull : 128 ≤ (getLane (getL s l) (f.sub.val % 8)).buf.length) :
    storeAccx l f s = trapNow (countL s l 0x32 1) l causeCredit (f.sub.val % 8) := by
  unfold storeAccx
  simp only [decide_eq_true hfull, Bool.or_true, if_true]

/-! ## Credits (05 R156; 06 R186) -/

theorem takeCredit_named {e : Nat} (he : matchEntry (getL s l) f.src (lineByte f.line 4) f.sub.val = some e) :
    takeCredit l f s = addCredits l e (lineField f.line 0 4) s := by
  unfold takeCredit
  rw [he]

theorem takeCredit_unnamed (he : matchEntry (getL s l) f.src (lineByte f.line 4) f.sub.val = none) :
    takeCredit l f s = trapNow (countL s l 0x38 1) l causeCredit f.sub.val := by
  unfold takeCredit
  rw [he]

theorem addCredits_joins {e n : Nat} {k : Sluice} (hk : k = getSl (getL s l) e) (hroom : k.credits + n ≤ k.grant) :
    addCredits l e n s = updL s l (fun L => { L with sluices := tset {} L.sluices e { k with credits := k.credits + n } }) := by
  unfold addCredits
  simp only [← hk, if_neg (Nat.not_lt.2 hroom)]
  refine updL_congr _ _ ?_
  rw [tupd, show tget {} (getL s l).sluices e = k from hk.symm]

theorem addCredits_beyond {e n : Nat} (hover : (getSl (getL s l) e).grant < (getSl (getL s l) e).credits + n) :
    addCredits l e n s = trapNow s l causeCredit e := if_pos hover

end

/-- Settles O33: the oldest flit of the kind is handed on, and each clause is its meaning's rule above. -/
theorem arrivals : Obligations.Arrivals := by
  unfold Obligations.Arrivals
  rintro l s _ pre rest f hl hrx rfl hpre
  have hS := getL_delivered l (pre ++ rest) s
  refine ⟨?_, ?_, ?_, ?_, ?_, ?_, ?_⟩
  · rintro Q hkind rfl hd hroom
    rw [exec_arrival (exec_qlineArrival l s) hl hrx hpre hkind]
    exact congrArg _ (storeQline_stores (by rw [hS]; rfl) hd hroom)
  · rintro Q hkind rfl hfull
    rw [exec_arrival (exec_qlineArrival l s) hl hrx hpre hkind]
    exact congrArg _ (storeQline_full (by rw [hS]; rfl) hfull)
  · rintro _ k hkind rfl rfl hu hroom
    rw [exec_arrival (exec_accxArrival l s) hl hrx hpre hkind]
    exact congrArg _ (storeAccx_joins (by rw [hS]; rfl) hu hroom)
  · rintro _ hkind rfl hfull
    rw [exec_arrival (exec_accxArrival l s) hl hrx hpre hkind]
    exact congrArg _ (storeAccx_full (by rw [hS]; exact hfull))
  · rintro e k _ hkind he rfl rfl hroom
    rw [exec_arrival (exec_creditArrival l s) hl hrx hpre hkind, takeCredit_named (by rw [hS]; exact he)]
    exact congrArg _ (addCredits_joins (by rw [hS]; rfl) hroom)
  · rintro e k hkind he rfl hover
    rw [exec_arrival (exec_creditArrival l s) hl hrx hpre hkind, takeCredit_named (by rw [hS]; exact he)]
    exact congrArg _ (addCredits_beyond (by rw [hS]; exact hover))
  · intro hkind he
    rw [exec_arrival (exec_creditArrival l s) hl hrx hpre hkind, takeCredit_unnamed (by rw [hS]; exact he)]
    rfl

end Sys2Proof.Arriving
end

section
/-!
PROOFS. An instruction of an engine that is idle (05 R136 to R139; 06 R177, R178): the sequencer passes it on, the engine reads its operand lines, does its act and
writes its result lines. What the lantern, its engine and the rest of the module are between two of these is one relation, Busy, which every update of the run keeps.
-/

open Sys2Proof Sys2Proof.Machine

namespace Sys2Proof.EngineRun

open Sys2Proof.Reports Sys2Proof.ArrayIssue

/-! ## A lantern between the acts of one engine -/

/-- From s to t lantern l has issued one more instruction, to engine e, which now is g; but for the index, the engines and the counters the lantern is L, and all
else but counters is as before. Whatever stands in an engine and did not at s was issued no earlier. -/
structure Busy (l e : Nat) (L : Lantern) (g : Engine) (s t : State) : Prop where
  follows : Follows l (getL t l) s t
  lantern : uncountedL (getL t l) = uncountedL L
  pc : (getL t l).pc = (getL s l).pc + 1
  issued : (getL t l).issued = (getL s l).issued + 1
  engine : getEng (getL t l) e = g
  engines : ∀ d, d ≠ e → getEng (getL t l) d = getEng (getL s l) d
  order : ∀ y ∈ (getL t l).engines, y ∈ (getL s l).engines ∨ ∀ x ∈ y.2.q, (getL s l).issued ≤ x.seq
  front : ∀ x ∈ g.q, (getL s l).issued ≤ x.seq

/-- An update of a lantern that neither looks at nor changes its index, its issue count, its engines and its counters. -/
def DataOnly (f : Lantern → Lantern) : Prop :=
  ∀ K, f K = { f (uncountedL K) with pc := K.pc, issued := K.issued, engines := K.engines, counters := K.counters }

theorem mem_tset {α : Type} [DecidableEq α] {d v : α} {m : SMap α} {k : Nat} {y : Nat × α} (h : y ∈ tset d m k v) : y = (k, v) ∨ y ∈ m := by
  have hdel : ∀ m : SMap α, y ∈ tdel m k → y ∈ m := by
    intro m
    induction m with
    | nil => exact id
    | cons e r ih =>
      intro hy
      rw [tdel] at hy
      split at hy
      · exact List.mem_cons_of_mem _ (ih hy)
      · exact (List.mem_cons.1 hy).elim (fun he => he ▸ List.mem_cons_self) fun hr => List.mem_cons_of_mem _ (ih hr)
  have hins : ∀ m : SMap α, y ∈ tins m k v → y = (k, v) ∨ y ∈ m := by
    intro m
    induction m with
    | nil => exact fun hy => .inl (List.mem_singleton.1 hy)
    | cons e r ih =>
      intro hy
      rw [tins] at hy
      split at hy
      · exact (List.mem_cons.1 hy).imp_right fun hr => List.mem_cons_of_mem _ hr
      · split at hy
        · exact List.mem_cons.1 hy
        · rcases List.mem_cons.1 hy with rfl | hr
          · exact .inr List.mem_cons_self
          · exact (ih hr).imp_right fun hm => List.mem_cons_of_mem _ hm
  unfold tset at h
  split at h
  · exact .inr (hdel m h)
  · exact hins m h

section
variable {l e : Nat} {L : Lantern} {g : Engine} {s t u : State}

theorem became_of_busy (h : Busy l e L {} s t) : Became l e L s t :=
  ⟨h.follows.rest, h.follows.parts, h.follows.lanterns, h.lantern, h.pc, h.issued, h.engine, h.engines⟩

/-- What counts alone separate from a busy lantern is as busy. -/
theorem busy_of_follows (h : Busy l e L g s t) (hu : Follows l (getL t l) s u) : Busy l e L g s u where
  follows := ⟨hu.rest, hu.parts, hu.part, hu.lanterns, rfl⟩
  lantern := (same_of_blank tallyless uncountedL (fun _ => rfl) hu.lantern).trans h.lantern
  pc := (same_of_blank tallyless Lantern.pc (fun _ => rfl) hu.lantern).trans h.pc
  issued := (same_of_blank tallyless Lantern.issued (fun _ => rfl) hu.lantern).trans h.issued
  engine := (hu.getEng e).trans h.engine
  engines d hd := (hu.getEng d).trans (h.engines d hd)
  order y hy := h.order y (same_of_blank tallyless Lantern.engines (fun _ => rfl) hu.lantern ▸ hy)
  front := h.front

theorem busy_countL (h : Busy l e L g s t) (src n : Nat) : Busy l e L g s (countL t l src n) := busy_of_follows h (follows_countL h.follows src n)

theorem busy_updL (h : Busy l e L g s t) {f : Lantern → Lantern} (hf : DataOnly f) : Busy l e (f L) g s (updL t l f) := by
  have hL : getL (updL t l f) l = { f (uncountedL (getL t l)) with
      pc := (getL t l).pc, issued := (getL t l).issued, engines := (getL t l).engines, counters := (getL t l).counters } := by
    rw [getL_updL_same, ← hf]
  refine ⟨⟨h.follows.rest, h.follows.parts, h.follows.part, fun m hm => (getL_updL_other _ _ hm).trans (h.follows.lanterns m hm), rfl⟩, ?_, ?_, ?_, ?_, ?_, ?_, h.front⟩
  · rw [hL, hf L, h.lantern]
    rfl
  · rw [hL]
    exact h.pc
  · rw [hL]
    exact h.issued
  · rw [hL]
    exact h.engine
  · rw [hL]
    exact h.engines
  · rw [hL]
    exact h.order

theorem busy_updEng (h : Busy l e L g s t) {f : Engine → Engine} (hq : ∀ x ∈ (f g).q, (getL s l).issued ≤ x.seq) :
    Busy l e L (f g) s (updEng t l e f) where
  follows := ⟨h.follows.rest, h.follows.parts, h.follows.part, fun m hm => (getL_updL_other _ _ hm).trans (h.follows.lanterns m hm), rfl⟩
  lantern := by
    rw [updEng, getL_updL_same]
    exact h.lantern
  pc := by
    rw [updEng, getL_updL_same]
    exact h.pc
  issued := by
    rw [updEng, getL_updL_same]
    exact h.issued
  engine := by
    rw [updEng, getL_updL_same, ← h.engine]
    exact tget_tupd_same _ _ _ _
  engines d hd := by
    rw [updEng, getL_updL_same, ← h.engines d hd]
    exact tget_tupd_other _ _ _ hd
  order y hy := by
    rw [updEng, getL_updL_same] at hy
    rcases mem_tset hy with rfl | hy
    · refine .inr ?_
      change ∀ x ∈ (f (getEng (getL t l) e)).q, _
      rw [h.engine]
      exact hq
    · exact h.order y hy
  front := hq

theorem busy_passed (hi : getEng (getL s l) e = {}) : Busy l e (getL s l) {} s (passed l s) where
  follows := ⟨rfl, fun _ => rfl, rfl, fun _ hm => getL_passed_other s hm, rfl⟩
  lantern := by
    rw [getL_passed]
    rfl
  pc := by rw [getL_passed]
  issued := by rw [getL_passed]
  engine := by
    rw [getL_passed]
    exact hi
  engines d _ := by
    rw [getL_passed]
    rfl
  order y hy := by
    rw [getL_passed] at hy
    exact .inl hy
  front := fun _ hx => absurd hx List.not_mem_nil

end

/-! ## What a busy lantern still holds -/

section
variable {l e : Nat} {L : Lantern} {g : Engine} {s t : State} (h : Busy l e L g s t)
include h

/-- What looks neither at the index, the issue count nor the engines and counters. -/
theorem Busy.data {α : Type} (v : Lantern → α) (hv : ∀ K, v (uncountedL K) = v K) : v (getL t l) = v L := same_of_blank uncountedL v hv h.lantern

theorem Busy.padAt (a : Nat) : Machine.padAt (getL t l) a = Machine.padAt L a := h.data (Machine.padAt · a) fun _ => rfl
theorem Busy.getQ (q : Nat) : Machine.getQ (getL t l) q = Machine.getQ L q := h.data (Machine.getQ · q) fun _ => rfl
theorem Busy.getSl (e : Nat) : Machine.getSl (getL t l) e = Machine.getSl L e := h.data (Machine.getSl · e) fun _ => rfl

theorem Busy.nowNs : Machine.nowNs t = Machine.nowNs s := same_of_blank others Machine.nowNs (fun _ => rfl) h.follows.rest

/-- No operation issued before the engine's own still places into, or clears, the blocks (04 R133). -/
theorem Busy.accWaits {b n : Nat} {c : Bool} (hb : L.banks = (getL s l).banks) (ha : L.arrays = (getL s l).arrays)
    (hw : accWaits (getL s l) (getL s l).issued b n c = false) : Machine.accWaits (getL t l) (getL s l).issued b n c = false := by
  have hbanks : (getL t l).banks = (getL s l).banks := (h.data Lantern.banks fun _ => rfl).trans hb
  have hblocks : arrayBlocks (getL t l) = arrayBlocks (getL s l) := by
    funext p
    unfold arrayBlocks getArr
    rw [(h.data Lantern.arrays fun _ => rfl).trans ha]
  have hengines : ∀ p : EngEntry → Bool, (getL s l).engines.any (fun y => y.2.q.any (fun x => decide (x.seq < (getL s l).issued) && p x)) = false →
      (getL t l).engines.any (fun y => y.2.q.any (fun x => decide (x.seq < (getL s l).issued) && p x)) = false := by
    intro p hp
    rw [List.any_eq_false] at hp ⊢
    intro y hy
    rcases h.order y hy with hs | hlate
    · exact hp y hs
    · rw [List.any_eq_true]
      rintro ⟨x, hx, hlt⟩
      rw [Bool.and_eq_true, decide_eq_true_eq] at hlt
      exact absurd hlt.1 (Nat.not_lt.2 (hlate x hx))
  cases c
  · simp only [Machine.accWaits, Bool.false_eq_true, if_false, earlierClears, Bool.or_eq_false_iff, hbanks, hblocks] at hw ⊢
    exact ⟨hengines _ hw.1, hw.2⟩
  · simp only [Machine.accWaits, if_true, earlierPlaces, Bool.or_eq_false_iff, Bool.and_assoc, hbanks, hblocks] at hw ⊢
    exact ⟨hengines _ hw.1, hw.2⟩

end

/-! ## Issue -/

/-- The entry that instruction i, of operation op, makes in its engine. -/
def issuedEntry (L : Lantern) (i : Instr) (op : EOp) : EngEntry := ⟨L.issued, L.pc, encodeWord i, op, []⟩

section
variable {l e : Nat} {i : Instr} {s u : State} {t : State → Try} {op : EOp}

theorem pushOp_passed (hr : Runs l e i s) (op : EOp) :
    pushOp l e op i (passed l s) = .done (updEng (passed l s) l e (fun g => { g with q := g.q ++ [issuedEntry (getL s l) i op] })) := by
  have hroom : ¬ engDepth e ≤ 0 := by
    unfold engDepth
    split_ifs <;> decide
  have hq : (getEng (getL (passed l s) l) e).q = [] := by
    rw [(busy_passed hr.idle).engine]
  refine (if_neg (by rw [hq]; exact hroom)).trans ?_
  rw [getL_passed]
  rfl

theorem busy_pushed (hr : Runs l e i s) (op : EOp) :
    Busy l e (getL s l) ⟨[issuedEntry (getL s l) i op], 0, 0⟩ s (updEng (passed l s) l e (fun g => { g with q := g.q ++ [issuedEntry (getL s l) i op] })) :=
  busy_updEng (f := fun g => { g with q := g.q ++ [issuedEntry (getL s l) i op] }) (busy_passed hr.idle) fun x hx => by
    obtain rfl := List.mem_singleton.1 hx
    exact Nat.le_refl _

theorem issue_busy {L : Lantern} {g : Engine} (hr : Runs l e i s) (ht : t (passed l s) = .done u) (hu : Busy l e L g s u) :
    Busy l e L g s (issue l i t s) := by
  rw [issue_done hr.takes ht]
  · exact busy_countL hu 0x02 1
  · rw [hu.pc]
    exact fun hend => hr.last (Nat.succ.inj hend)

end

/-! ## The checks made at issue (06 R178, R180) -/

section
variable {l : Nat} {s : State}

/-- An L-format instruction whose SC register is read and whose checks pass. -/
theorem withSc_passes {i : Instr} {f : FmtL} {cs : Word → State → List (Bool × Nat)} {t : Word → State → Try} (h : Takes l i s)
    (hc : ∀ c ∈ cs (getReg (getL s l) f.sc) (passed l s), c.1 = true) :
    withSc l f (fun w s => checked (cs w s) (t w) s) (passed l s) = t (getReg (getL s l) f.sc) (passed l s) := by
  unfold withSc
  rw [withRegs_free _ _ (by rw [getL_passed]; exact h.regs), show getReg (getL (passed l s) l) f.sc = getReg (getL s l) f.sc by rw [getL_passed]; rfl]
  exact checked_pass _ _ hc

theorem passes_nil : ∀ c ∈ ([] : List (Bool × Nat)), c.1 = true := fun _ h => absurd h List.not_mem_nil
theorem passes_cons {c : Bool × Nat} {cs : List (Bool × Nat)} (h : c.1 = true) (hs : ∀ c ∈ cs, c.1 = true) : ∀ c' ∈ c :: cs, c'.1 = true :=
  List.forall_mem_cons.2 ⟨h, hs⟩

theorem scZero_passes {w : Word} {k : Nat} (h : w.toNat % 2 ^ 48 < 2 ^ k) : (scZero w k).1 = true := decide_eq_true h
theorem paramCheck_passes {w : Word} {x lo hi : Nat} (hlo : lo ≤ x) (hhi : x ≤ hi) : (paramCheck w x lo hi).1 = true := by simp [paramCheck, hlo, hhi]
theorem blockCheck_passes {b n : Nat} (h : b + n ≤ 512) : (blockCheck b n).1 = true := decide_eq_true h
theorem lineCheck_passes {a n : Nat} (h : rangeOk (getL s l) a n = true) : (lineCheck (getL (passed l s) l) a n).1 = true := by
  rw [getL_passed]
  exact h

theorem bitsAt_zero (x n : Nat) : bitsAt x 0 n = x % 2 ^ n := by rw [bitsAt, pow_zero, Nat.div_one]

end

/-! ## The run of an engine other than the KV port -/

/-- Engine e of lantern l, at work on x with the lantern as L, completes x within n attempts and leaves the lantern as M. -/
def Finishes (l e n : Nat) (x : EngEntry) (L M : Lantern) (s : State) : Prop :=
  ∀ t, Busy l e L ⟨[x], 0, 0⟩ s t → Busy l e M {} s (runEngine l e n t)

section
variable {l e n : Nat} {x : EngEntry} {K L M : Lantern} {s : State} (he : e ≠ 6)
include he

/-- An attempt that completes the operation. -/
theorem runEngine_completes {xs : List (Line × Bool)} {t v u : State} (ht : Busy l e L ⟨[x], 0, 0⟩ s t)
    (hread : gather l ((opReads x.op).drop x.got.length) t = (v, xs, .all)) (hdone : stepOp l e { x with got := x.got ++ xs } v = .done u)
    (hu : Busy l e M ⟨[x], 0, 0⟩ s u) : Busy l e M {} s (runEngine l e (n + 1) t) := by
  have hpop : Busy l e M {} s (popHead u l e) := busy_updEng (f := fun g => { q := g.q.drop 1, wait := 0, since := 0 }) hu fun _ hx => absurd hx List.not_mem_nil
  rw [runEngine_done he (congrArg Engine.q ht.engine) (congrArg Engine.wait ht.engine) hread hdone, runEngine_idle he (congrArg Engine.q hpop.engine)]
  exact hpop

/-- An attempt that leaves another operation to do. -/
theorem runEngine_goes_on {op : EOp} {xs : List (Line × Bool)} {t v u : State} (ht : Busy l e L ⟨[x], 0, 0⟩ s t)
    (hread : gather l ((opReads x.op).drop x.got.length) t = (v, xs, .all)) (hmore : stepOp l e { x with got := x.got ++ xs } v = .more op u)
    (hu : Busy l e K ⟨[x], 0, 0⟩ s u) : ∃ w, runEngine l e (n + 1) t = runEngine l e n w ∧ Busy l e K ⟨[{ x with op := op, got := [] }], 0, 0⟩ s w := by
  refine ⟨_, runEngine_more he (congrArg Engine.q ht.engine) (congrArg Engine.wait ht.engine) hread hmore,
    busy_updEng (f := fun g => { q := { x with op := op, got := [] } :: g.q.drop 1, wait := 0, since := 0 }) hu fun y hy => ?_⟩
  obtain rfl := List.mem_singleton.1 hy
  exact hu.front x (List.mem_singleton.2 rfl)

/-- The operation reads its operand lines and is done. -/
theorem finishes_done (h : ∀ t, Busy l e L ⟨[x], 0, 0⟩ s t → ∃ v xs u, gather l ((opReads x.op).drop x.got.length) t = (v, xs, .all)
      ∧ stepOp l e { x with got := x.got ++ xs } v = .done u ∧ Busy l e M ⟨[x], 0, 0⟩ s u) : Finishes l e (n + 1) x L M s := by
  intro t ht
  obtain ⟨v, xs, u, hread, hdone, hu⟩ := h t ht
  exact runEngine_completes he ht hread hdone hu

/-- The operation reads its operand lines and goes on with another. -/
theorem finishes_more {op : EOp} (h : ∀ t, Busy l e L ⟨[x], 0, 0⟩ s t → ∃ v xs u, gather l ((opReads x.op).drop x.got.length) t = (v, xs, .all)
      ∧ stepOp l e { x with got := x.got ++ xs } v = .more op u ∧ Busy l e K ⟨[x], 0, 0⟩ s u)
    (hrest : Finishes l e n { x with op := op, got := [] } K M s) : Finishes l e (n + 1) x L M s := by
  intro t ht
  obtain ⟨v, xs, u, hread, hmore, hu⟩ := h t ht
  obtain ⟨w, hrun, hw⟩ := runEngine_goes_on he ht hread hmore hu
  rw [hrun]
  exact hrest w hw

/-- An operation without operand lines is done. -/
theorem finishes_act (hnone : opReads x.op = [])
    (h : ∀ t, Busy l e L ⟨[x], 0, 0⟩ s t → ∃ u, stepOp l e x t = .done u ∧ Busy l e M ⟨[x], 0, 0⟩ s u) : Finishes l e (n + 1) x L M s := by
  refine finishes_done he fun t ht => ?_
  obtain ⟨u, hdone, hu⟩ := h t ht
  refine ⟨t, [], u, by rw [hnone, List.drop_nil, gather], ?_, hu⟩
  rw [List.append_nil]
  exact hdone

end

/-! ## Result lines (05 R144, R148) -/

/-- Lantern L with lines ls written from a on. -/
def wrote (L : Lantern) (a : Nat) (ls : List PadLine) : Lantern := { L with pad := putLines L.pad a ls }

theorem padAt_putLine_other {K : Lantern} {a b : Nat} (x : PadLine) (h : b ≠ a) : padAt { K with pad := tset {} K.pad a x } b = padAt K b :=
  tget_tset_other _ _ _ h

section
variable {l e n : Nat} {s : State}

theorem emitLines_free {g : Engine} (ls : List PadLine) : ∀ {L : Lantern} {a : Nat} {t : State}, Busy l e L g s t → freeLines L a ls.length →
    ∃ u, emitLines l ls a t = .done u ∧ Busy l e (wrote L a ls) g s u := by
  induction ls with
  | nil => exact fun {L a t} h _ => ⟨t, rfl, h⟩
  | cons x xs ih =>
    intro L a t h hfree
    have hat : (padAt (getL t l) a).full = false := by
      rw [h.padAt]
      exact hfree 0 (Nat.succ_pos _)
    have hnext := busy_updL h (f := fun L => { L with pad := tset {} L.pad a x }) fun _ => rfl
    obtain ⟨u, hemit, hu⟩ := ih (a := a + 1) hnext fun i hi => by
      rw [padAt_putLine_other x (by omega), Nat.add_right_comm, Nat.add_assoc]
      exact hfree (i + 1) (Nat.succ_lt_succ hi)
    refine ⟨u, ?_, hu⟩
    rw [emitLines, hat]
    exact hemit

theorem finishes_emit {L : Lantern} (he : e ≠ 6) {x : EngEntry} {a : Nat} {ls : List PadLine} (hop : x.op = .emit a ls)
    (hfree : freeLines L a ls.length) : Finishes l e (n + 1) x L (wrote L a ls) s := by
  refine finishes_act he (by rw [hop]; rfl) fun t ht => ?_
  obtain ⟨u, hemit, hu⟩ := emitLines_free ls ht hfree
  refine ⟨u, ?_, hu⟩
  unfold stepOp
  rw [hop]
  exact hemit

end

/-! ## Operand lines read KEEP (05 R148) -/

/-- The lines that reads name, with their poison. -/
def linesOf (L : Lantern) (rs : List LineRead) : List (Line × Bool) := rs.map (fun r => ((padAt L r.addr).data, (padAt L r.addr).poison))

theorem linesOf_append (L : Lantern) (rs qs : List LineRead) : linesOf L (rs ++ qs) = linesOf L rs ++ linesOf L qs := List.map_append

theorem linesOf_keepReads (L : Lantern) (a n ty : Nat) : linesOf L (keepReads a n ty) = linesAt L a n := linesAt_keepReads L a n ty

theorem linesOf_keepReads_append (L : Lantern) (a n ty b m ty' : Nat) :
    linesOf L (keepReads a n ty ++ keepReads b m ty') = linesAt L a n ++ linesAt L b m := by
  rw [linesOf_append, linesOf_keepReads, linesOf_keepReads]

theorem length_linesAt (L : Lantern) (a n : Nat) : (linesAt L a n).length = n := by simp [linesAt]

section
variable {l e n : Nat} {x : EngEntry} {L M : Lantern} {g : Engine} {s t : State}

theorem gather_keep (h : Busy l e L g s t) (hpad : L.pad = (getL s l).pad) {rs : List LineRead} (hrs : ∀ r ∈ rs, ReadsSound s l r) :
    ∃ u, gather l rs t = (u, linesOf (getL s l) rs, .all) ∧ Busy l e L g s u := by
  have hsame : (getL t l).pad = (getL s l).pad := (h.data Lantern.pad fun _ => rfl).trans hpad
  obtain ⟨u, hgather, hu⟩ := gather_sound hsame rs hrs t h.follows
  refine ⟨u, ?_, busy_of_follows h hu⟩
  rw [hgather, linesOf]
  simp only [padAt_congr hsame]

variable {xs : List (Line × Bool)} {d : Nat} {ls : List PadLine} (he : e ≠ 6) (hgot : x.got = []) (hrs : ∀ r ∈ opReads x.op, ReadsSound s l r) (hxs : linesOf (getL s l) (opReads x.op) = xs)
include he hgot hrs hxs

/-- The engine reads its operand lines KEEP and does its one act. -/
theorem finishes_reads
    (h : ∀ t, Busy l e (getL s l) ⟨[x], 0, 0⟩ s t → ∃ u, stepOp l e { x with got := xs } t = .done u ∧ Busy l e M ⟨[x], 0, 0⟩ s u) :
    Finishes l e (n + 1) x (getL s l) M s := by
  refine finishes_done he fun t ht => ?_
  obtain ⟨v, hread, hv⟩ := gather_keep ht rfl hrs
  obtain ⟨u, hdone, hu⟩ := h v hv
  exact ⟨v, xs, u, by rw [hgot, ← hxs]; exact hread, by rw [hgot]; exact hdone, hu⟩

/-- The engine reads its operand lines KEEP and writes its result lines. -/
theorem finishes_reads_emit
    (h : ∀ t, Busy l e (getL s l) ⟨[x], 0, 0⟩ s t → ∃ u, stepOp l e { x with got := xs } t = .more (.emit d ls) u ∧ Busy l e M ⟨[x], 0, 0⟩ s u)
    (hfree : freeLines M d ls.length) : Finishes l e (n + 2) x (getL s l) (wrote M d ls) s := by
  refine finishes_more he (fun t ht => ?_) (finishes_emit he rfl hfree)
  obtain ⟨v, hread, hv⟩ := gather_keep ht rfl hrs
  obtain ⟨u, hmore, hu⟩ := h v hv
  exact ⟨v, xs, u, by rw [hgot, ← hxs]; exact hread, by rw [hgot]; exact hmore, hu⟩

end

/-! ## The command -/

theorem runEngine_wait {l e n c : Nat} {s t u : State} {x : EngEntry} {r : List EngEntry} {xs : List (Line × Bool)} {op : EOp} (he : e ≠ 6)
    (hq : (getEng (getL s l) e).q = x :: r) (hw : (getEng (getL s l) e).wait = 0) (hg : gather l ((opReads x.op).drop x.got.length) s = (t, xs, .all))
    (hs : stepOp l e { x with got := x.got ++ xs } t = .wait c op u) (hc : c ≠ 0) :
    runEngine l e (n + 1) s = setHead u l e { x with got := x.got ++ xs, op := op } c (nowNs u) := by
  simp only [runEngine, he, if_false, decide_false, Bool.false_and, Bool.false_eq_true, hq, hw, hg, hs, hc, false_and, waitEnded_zero]

section
variable {l e : Nat} {i : Instr} {s u : State} {t : State → Try} {op : EOp}

/-- Issue, and the run of the engine on the entry that it made. -/
theorem exec_runs {L : Lantern} {x : EngEntry} (hexec : exec i s = guarded (lanternOk l) (issueTo l e i t s)) (hr : Runs l e i s)
    (ht : t (passed l s) = .done u) (hu : Busy l e L ⟨[x], 0, 0⟩ s u) :
    ∃ v, exec i s = .next (runEngine l e engineFuel v) ∧ Busy l e L ⟨[x], 0, 0⟩ s v := by
  have hissue := issue_busy hr ht hu
  refine ⟨_, ?_, hissue⟩
  rw [hexec, show lanternOk l = true from decide_eq_true hr.takes.unit, guarded_true, issueTo, startEngine, if_pos (congrArg Engine.wait hissue.engine)]

theorem exec_becomes {L M : Lantern} {x : EngEntry} (hexec : exec i s = guarded (lanternOk l) (issueTo l e i t s)) (hr : Runs l e i s)
    (ht : t (passed l s) = .done u) (hu : Busy l e L ⟨[x], 0, 0⟩ s u) (hfin : Finishes l e engineFuel x L M s) :
    ∃ v, exec i s = .next v ∧ Became l e M s v := by
  obtain ⟨v, hrun, hv⟩ := exec_runs hexec hr ht hu
  exact ⟨_, hrun, became_of_busy (hfin v hv)⟩

/-- An instruction that is handed to its engine as operation op. -/
theorem exec_engine {M : Lantern} (hexec : exec i s = guarded (lanternOk l) (issueTo l e i t s)) (hr : Runs l e i s)
    (ht : t (passed l s) = pushOp l e op i (passed l s)) (hfin : Finishes l e engineFuel (issuedEntry (getL s l) i op) (getL s l) M s) :
    ∃ v, exec i s = .next v ∧ Became l e M s v :=
  exec_becomes hexec hr (ht.trans (pushOp_passed hr op)) (busy_pushed hr op) hfin

end
end Sys2Proof.EngineRun
end

section
/-!
PROOFS. The wide engine (05 R161 to R163; 06 Table 6-3; 07 R221): each instruction reads its operand lines KEEP, computes, and places its products or writes its
result lines.
-/

open Sys2Proof Sys2Proof.Machine

namespace Sys2Proof.WideRun

open Sys2Proof.Reports Sys2Proof.ArrayIssue Sys2Proof.EngineRun

/-! ## Numbers of lines -/

theorem length_chunks {α : Type} (n k : Nat) : ∀ xs : List α, (chunks n k xs).length = k := by
  induction k with
  | zero => exact fun _ => rfl
  | succ k ih => exact fun xs => congrArg Nat.succ (ih _)

theorem length_resultLines (xs : List (Line × Bool)) (sh : Nat) : (resultLines xs sh).length = xs.length := List.length_map ..

theorem length_packVec (bf : Bool) (xs : List (F32 × Bool)) : (packVec bf xs).1.length = linesFor xs.length (lineElems (vecTy bf)) := by
  cases bf <;> simp [packVec, length_chunks]

theorem lineElems_vecTy (bf : Bool) : lineElems (vecTy bf) = if bf then 34 else 17 := by cases bf <;> rfl

theorem div_lt_linesFor {i n e : Nat} (h : i < n) (he : 0 < e) : i / e < linesFor n e := by
  unfold linesFor
  rw [Nat.lt_iff_add_one_le, Nat.le_div_iff_mul_le he, Nat.add_mul]
  have := Nat.div_mul_le_self i e
  omega

theorem nthLine_append {xs : List (Line × Bool)} (ys : List (Line × Bool)) {j : Nat} (h : j < xs.length) : nthLine (xs ++ ys) j = nthLine xs j :=
  List.getD_append _ _ _ _ h

/-- An element within the lines of the first operand. -/
theorem vecElem_append {bf : Bool} {xs : List (Line × Bool)} (ys : List (Line × Bool)) {i n : Nat} (hi : i < n)
    (hl : xs.length = linesFor n (lineElems (vecTy bf))) : vecElem bf (xs ++ ys) i = vecElem bf xs i := by
  cases bf
  · have hline : i / 17 < xs.length := hl ▸ div_lt_linesFor hi (by decide)
    simp only [vecElem, Bool.false_eq_true, if_false, nthLine_append ys hline]
  · have hline : i / 34 < xs.length := hl ▸ div_lt_linesFor hi (by decide)
    simp only [vecElem, if_true, nthLine_append ys hline]

theorem take_linesAt (L : Lantern) (a n : Nat) (ys : List (Line × Bool)) : (linesAt L a n ++ ys).take n = linesAt L a n :=
  List.take_left' (length_linesAt L a n)
theorem drop_linesAt (L : Lantern) (a n : Nat) (ys : List (Line × Bool)) : (linesAt L a n ++ ys).drop n = ys :=
  List.drop_left' (length_linesAt L a n)

/-! ## Dot products (05 R161) -/

section
variable {l e : Nat} {L : Lantern} {g : Engine} {s t : State}

theorem busy_noteCells (h : Busy l e L g s t) (ty : Nat) (xs : List (Line × Bool)) : Busy l e L g s (noteCells l ty xs t) := busy_countL h _ _

theorem placeIn_busy (h : Busy l e L g s t) {cs : List Contr} {a : Placed} (hp : placeList cs ⟨L.acc, 0, 0⟩ = some a) :
    ∃ u, placeIn t l cs = some u ∧ Busy l e { L with acc := a.acc } g s u := by
  refine ⟨_, ?_, busy_countL (busy_countL (busy_updL h (f := fun L => { L with acc := a.acc }) fun _ => rfl) 0x0B a.seconds) 0x0C a.ranges⟩
  unfold placeIn
  rw [h.data Lantern.acc fun _ => rfl, hp]

theorem placeDot_places (h : Busy l e (getL s l) g s t) {b n : Nat} {clr : Bool} {cs : List Contr} {a : Placed} (op : EOp) (s0 : State)
    (hw : accWaits (getL s l) (getL s l).issued b n clr = false)
    (hp : placeList cs ⟨if clr then clearBlocks (getL s l).acc b n else (getL s l).acc, 0, 0⟩ = some a) :
    ∃ u, placeDot l (getL s l).issued b n clr cs op s0 t = .done u ∧ Busy l e { getL s l with acc := a.acc } g s u := by
  have hplace : ∃ u, placeIn (if clr then updL t l (fun L => { L with acc := clearBlocks L.acc b n }) else t) l cs = some u
      ∧ Busy l e { getL s l with acc := a.acc } g s u := by
    cases clr
    · exact placeIn_busy h hp
    · exact placeIn_busy (busy_updL h (f := fun L => { L with acc := clearBlocks L.acc b n }) fun _ => rfl) hp
  obtain ⟨u, hu, hbusy⟩ := hplace
  refine ⟨u, ?_, hbusy⟩
  unfold placeDot
  rw [h.accWaits rfl rfl hw, hu]
  rfl

end

section
variable {l : Nat} {f : FmtL} {s : State} {w : Word} {a b len outs ty n : Nat}

/-- What WIDOT and WFDOT name in SC, and their second operand. -/
structure DotReads (l : Nat) (f : FmtL) (s : State) (w : Word) (a b len outs ty n : Nat) : Prop where
  sc : w = getReg (getL s l) f.sc
  first : a = f.a.toNat + w.toNat / 2 ^ 48
  second : b = f.b.toNat + w.toNat / 2 ^ 48
  length : len = w.toNat % 2 ^ 32
  outputs : outs = w.toNat / 2 ^ 32 % 2 ^ 7 + 1
  type : ty = w.toNat / 2 ^ 39 % 2 ^ 4
  lines : n = linesFor len (lineElems ty)
  zero : w.toNat % 2 ^ 48 < 2 ^ 43
  low : 1 ≤ len
  high : len ≤ 65536
  range : rangeOk (getL s l) b (outs * n) = true
  sound : soundLines (getL s l) b (outs * n)
  clear : hazard s l b (outs * n) ty = none

theorem tryWidot_passed (hr : Takes l (.widot l f) s) (h : DotReads l f s w a b len outs ty n) (hty : ty ≤ 2) (houts : outs ≤ 64)
    (hblk : f.d.toNat + blocksFor outs ≤ 512) (ha : rangeOk (getL s l) a n = true) :
    tryWidot l f (passed l s) = pushOp l 2 (.widot a b f.d.toNat len outs ty (f.f.getLsbD 0)) (.widot l f) (passed l s) := by
  obtain ⟨rfl, rfl, rfl, hlen, rfl, rfl, rfl, hz, hlo, hhi, hb, -, -⟩ := h
  rw [← bitsAt_zero] at hlen
  subst hlen
  exact withSc_passes hr (passes_cons (scZero_passes hz) <| passes_cons (paramCheck_passes hlo hhi) <|
    passes_cons (paramCheck_passes (Nat.succ_pos _) houts) <| passes_cons (paramCheck_passes (Nat.zero_le _) hty) <| passes_cons (lineCheck_passes ha) <|
    passes_cons (lineCheck_passes hb) <| passes_cons (blockCheck_passes hblk) passes_nil)

theorem exec_widot_places (hr : Runs l 2 (.widot l f) s) (h : DotReads l f s w a b len outs ty n) (hty : ty ≤ 2) (houts : outs ≤ 64)
    (hblk : f.d.toNat + blocksFor outs ≤ 512) (hw : accWaits (getL s l) (getL s l).issued f.d.toNat (blocksFor outs) (f.f.getLsbD 0) = false)
    (ha : rangeOk (getL s l) a n = true) (hs : soundLines (getL s l) a n) (hz : hazard s l a n ty = none) {acc : Placed}
    (hp : placeList ((List.range outs).flatMap (fun o => intDot ty len (linesAt (getL s l) a n) (((linesAt (getL s l) b (outs * n)).drop (o * n)).take n) f.d.toNat o))
      ⟨if f.f.getLsbD 0 then clearBlocks (getL s l).acc f.d.toNat (blocksFor outs) else (getL s l).acc, 0, 0⟩ = some acc) :
    ∃ t, exec (.widot l f) s = .next t ∧ Became l 2 { getL s l with acc := acc.acc } s t := by
  refine exec_engine (exec_widot l f s) hr (tryWidot_passed hr.takes h hty houts hblk ha) ?_
  obtain ⟨-, -, -, -, -, -, rfl, -, -, -, -, hsb, hzb⟩ := h
  refine finishes_reads (by decide) rfl (List.forall_mem_append.2 ⟨readsSound_keepReads hs hz, readsSound_keepReads hsb hzb⟩)
    (linesOf_keepReads_append _ _ _ _ _ _ _) fun t ht => ?_
  obtain ⟨u, hdone, hu⟩ := placeDot_places (busy_noteCells ht ty (linesAt (getL s l) a (linesFor len (lineElems ty)) ++ linesAt (getL s l) b (outs * linesFor len (lineElems ty)))) (.widot a b f.d.toNat len outs ty (f.f.getLsbD 0)) t hw hp
  refine ⟨u, ?_, hu⟩
  rw [← hdone]
  simp only [stepOp, runWidot, issuedEntry, take_linesAt, drop_linesAt]

/-- Outputs of WFDOT, from its two operands. -/
def floatDots (ty len outs n : Nat) (xs ws : List (Line × Bool)) : List (F32 × Bool) :=
  (List.range outs).map (fun o => floatDot ty len xs ((ws.drop (o * n)).take n))

/-- Where WFDOT puts its sums: blocks, or lines when F[1] is set. -/
def floatPlace (f : FmtL) (w : Word) : Nat := if f.f.getLsbD 1 then f.d.toNat + w.toNat / 2 ^ 48 else f.d.toNat

theorem tryWfdot_passed (hr : Takes l (.wfdot l f) s) (h : DotReads l f s w a b len outs ty n) (hlo : 4 ≤ ty) (hhi : ty ≤ 6)
    (ha : rangeOk (getL s l) a (linesFor len 34) = true)
    (hd : if f.f.getLsbD 1 then rangeOk (getL s l) (floatPlace f w) (linesFor outs 17) = true else floatPlace f w + blocksFor outs ≤ 512) :
    tryWfdot l f (passed l s)
      = pushOp l 2 (.wfdot a b (floatPlace f w) len outs ty (f.f.getLsbD 0) (f.f.getLsbD 1)) (.wfdot l f) (passed l s) := by
  obtain ⟨rfl, rfl, rfl, hlen, rfl, rfl, rfl, hz, hlow, hhigh, hb, -, -⟩ := h
  rw [← bitsAt_zero] at hlen
  subst hlen
  refine withSc_passes hr (passes_cons (scZero_passes hz) <| passes_cons (paramCheck_passes hlow hhigh) <|
    passes_cons (paramCheck_passes hlo hhi) <| passes_cons (lineCheck_passes ha) <| passes_cons (lineCheck_passes hb) <| passes_cons ?_ passes_nil)
  unfold floatPlace at hd
  cases hf : f.f.getLsbD 1
  · rw [hf] at hd
    exact blockCheck_passes hd
  · rw [hf] at hd
    exact lineCheck_passes hd

section
variable (hr : Runs l 2 (.wfdot l f) s) (h : DotReads l f s w a b len outs ty n) (hlo : 4 ≤ ty) (hhi : ty ≤ 6)
  (ha : rangeOk (getL s l) a (linesFor len 34) = true) (hs : soundLines (getL s l) a (linesFor len 34)) (hz : hazard s l a (linesFor len 34) 6 = none)
include hr h hlo hhi ha hs hz

theorem exec_wfdot_places (hln : f.f.getLsbD 1 = false) (hblk : f.d.toNat + blocksFor outs ≤ 512)
    (hw : accWaits (getL s l) (getL s l).issued f.d.toNat (blocksFor outs) (f.f.getLsbD 0) = false) {acc : Placed}
    (hp : placeList (((floatDots ty len outs n (linesAt (getL s l) a (linesFor len 34)) (linesAt (getL s l) b (outs * n))).zip (List.range outs)).map
        (fun (r, o) => contrOf32 (f.d.toNat + o / 32) (o % 32) r.1 r.2))
      ⟨if f.f.getLsbD 0 then clearBlocks (getL s l).acc f.d.toNat (blocksFor outs) else (getL s l).acc, 0, 0⟩ = some acc) :
    ∃ t, exec (.wfdot l f) s = .next t ∧ Became l 2 { getL s l with acc := acc.acc } s t := by
  have hplace : floatPlace f w = f.d.toNat := by rw [floatPlace, hln]; rfl
  have htry := tryWfdot_passed hr.takes h hlo hhi ha (by rw [hln, hplace]; exact hblk)
  rw [hplace, hln] at htry
  refine exec_engine (exec_wfdot l f s) hr htry ?_
  obtain ⟨-, -, -, -, -, -, rfl, -, -, -, -, hsb, hzb⟩ := h
  refine finishes_reads (by decide) rfl (List.forall_mem_append.2 ⟨readsSound_keepReads hs hz, readsSound_keepReads hsb hzb⟩)
    (linesOf_keepReads_append _ _ _ _ _ _ _) fun t ht => ?_
  obtain ⟨u, hdone, hu⟩ := placeDot_places (busy_noteCells ht ty (linesAt (getL s l) b (outs * linesFor len (lineElems ty)))) (.wfdot a b f.d.toNat len outs ty (f.f.getLsbD 0) false) t hw hp
  refine ⟨u, ?_, hu⟩
  rw [← hdone]
  simp only [stepOp, runWfdot, issuedEntry, take_linesAt, drop_linesAt, Bool.false_eq_true, if_false]
  rfl

theorem exec_wfdot_lines (hln : f.f.getLsbD 1 = true) (hd : rangeOk (getL s l) (f.d.toNat + w.toNat / 2 ^ 48) (linesFor outs 17) = true)
    (hfree : freeLines (getL s l) (f.d.toNat + w.toNat / 2 ^ 48) (linesFor outs 17)) :
    ∃ t, exec (.wfdot l f) s = .next t ∧ Became l 2 (wrote (getL s l) (f.d.toNat + w.toNat / 2 ^ 48)
      (resultLines (packVec false (floatDots ty len outs n (linesAt (getL s l) a (linesFor len 34)) (linesAt (getL s l) b (outs * n)))).1 7)) s t := by
  have hplace : floatPlace f w = f.d.toNat + w.toNat / 2 ^ 48 := by rw [floatPlace, hln]; rfl
  have htry := tryWfdot_passed hr.takes h hlo hhi ha (by rw [hln, hplace]; exact hd)
  rw [hplace, hln] at htry
  refine exec_engine (exec_wfdot l f s) hr htry ?_
  obtain ⟨-, -, -, -, -, -, rfl, -, -, -, -, hsb, hzb⟩ := h
  refine finishes_reads_emit (M := getL s l) (by decide) rfl (List.forall_mem_append.2 ⟨readsSound_keepReads hs hz, readsSound_keepReads hsb hzb⟩)
    (linesOf_keepReads_append _ _ _ _ _ _ _) (fun t ht => ⟨_, ?_, busy_noteCells ht ty (linesAt (getL s l) b (outs * linesFor len (lineElems ty)))⟩) ?_
  · simp only [stepOp, runWfdot, issuedEntry, take_linesAt, drop_linesAt, if_true]
    rfl
  · rw [length_resultLines, length_packVec, floatDots, List.length_map, List.length_range]
    exact hfree

end

/-- Settles O17: each dot product placed, or its sums written. -/
theorem wideDots : Obligations.WideDots := by
  unfold Obligations.WideDots
  intro l f s w a b len outs ty n hw ha hb hlen houts hty hn hz hlo hhi hrange hsound hclear
  have h : DotReads l f s w a b len outs ty n := ⟨hw, ha, hb, hlen, houts, hty, hn, hz, hlo, hhi, hrange, hsound, hclear⟩
  refine ⟨?_, ?_⟩
  · rintro acc _ _ _ hr rfl hty2 hout64 hblk hwait hra hsa hza rfl rfl hp
    exact exec_widot_places hr h hty2 hout64 hblk hwait hra hsa hza hp
  · rintro _ d _ _ hr h4 h6 hra hsa hza rfl rfl rfl
    refine ⟨?_, ?_⟩
    · rintro acc hln rfl hblk hwait hp
      exact exec_wfdot_places hr h h4 h6 hra hsa hza hln hblk hwait hp
    · rintro hln rfl hrd hfree
      exact exec_wfdot_lines hr h h4 h6 hra hsa hza hln hrd hfree

end

end Sys2Proof.WideRun
end

section
/-!
PROOFS. The vector functions of the wide engine (05 R162; 06 Table 6-3): WVB, WVU and WRED on FP32 or BF16 lines.
-/

open Sys2Proof Sys2Proof.Machine

namespace Sys2Proof.VectorRun

open Sys2Proof.Reports Sys2Proof.ArrayIssue Sys2Proof.EngineRun Sys2Proof.WideRun

/-- The lines of n FP32 or BF16 elements. -/
abbrev vecLines (bf : Bool) (n : Nat) : Nat := linesFor n (lineElems (vecTy bf))

theorem bits3_cases : ∀ k : BitVec 3, k = 0 ∨ k = 1 ∨ k = 2 ∨ k = 3 ∨ k = 4 ∨ k = 5 ∨ k = 6 ∨ k = 7 := by decide

theorem vecResult_emits {l e : Nat} {L : Lantern} {g : Engine} {s t : State} (h : Busy l e L g s t) (d : Nat) (bf : Bool) (rs : List (F32 × Bool)) :
    ∃ u, vecResult l d bf rs t = .more (.emit d (resultLines (packVec bf rs).1 (vecTy bf))) u ∧ Busy l e L g s u :=
  ⟨_, rfl, busy_countL h 0x28 (packVec bf rs).2⟩

theorem freeLines_vec {L : Lantern} {d n : Nat} {bf : Bool} {rs : List (F32 × Bool)} (hn : rs.length = n) (hfree : freeLines L d (vecLines bf n)) :
    freeLines L d (resultLines (packVec bf rs).1 (vecTy bf)).length := by
  rw [length_resultLines, length_packVec, hn]
  exact hfree

theorem vecLines_pos {n : Nat} (bf : Bool) (h : 1 ≤ n) : 0 < vecLines bf n :=
  Nat.zero_lt_of_lt (div_lt_linesFor (i := 0) h (by cases bf <;> decide))

theorem drop_two_linesAt (L : Lantern) (a b n : Nat) (ys : List (Line × Bool)) : (linesAt L a n ++ (linesAt L b n ++ ys)).drop (2 * n) = ys := by
  rw [Nat.two_mul, ← List.drop_drop, drop_linesAt, drop_linesAt]

/-! ## Results held on a full line (05 R144, R148) -/

section
variable {l e n : Nat} {x : EngEntry} {L M : Lantern} {s t : State} (he : e ≠ 6)
include he

/-- The engine reads its operand lines KEEP and goes on with another operation. -/
theorem runEngine_reads_more {xs : List (Line × Bool)} {op : EOp} (hgot : x.got = []) (hrs : ∀ r ∈ opReads x.op, ReadsSound s l r)
    (hxs : linesOf (getL s l) (opReads x.op) = xs)
    (h : ∀ t, Busy l e (getL s l) ⟨[x], 0, 0⟩ s t → ∃ u, stepOp l e { x with got := xs } t = .more op u ∧ Busy l e M ⟨[x], 0, 0⟩ s u)
    (ht : Busy l e (getL s l) ⟨[x], 0, 0⟩ s t) :
    ∃ u, runEngine l e (n + 1) t = runEngine l e n u ∧ Busy l e M ⟨[{ x with op := op, got := [] }], 0, 0⟩ s u := by
  obtain ⟨v, hread, hv⟩ := gather_keep ht rfl hrs
  obtain ⟨u, hmore, hu⟩ := h v hv
  exact runEngine_goes_on he ht (xs := xs) (by rw [hgot, ← hxs]; exact hread) (by rw [hgot]; exact hmore) hu

/-- Result lines wait under 0x02 for the first of their places to be emptied. -/
theorem runEngine_emit_held {a : Nat} {ls : List PadLine} (ht : Busy l e L ⟨[x], 0, 0⟩ s t) (hop : x.op = .emit a ls) (hgot : x.got = [])
    (hls : 0 < ls.length) (hfull : (padAt L a).full = true) : Busy l e L ⟨[x], 0x02, nowNs s⟩ s (runEngine l e (n + 1) t) := by
  obtain ⟨y, ys, rfl⟩ : ∃ y ys, ls = y :: ys := List.exists_cons_of_length_pos hls
  have hwait : stepOp l e { x with got := x.got ++ [] } t = .wait 0x02 x.op t := by
    unfold stepOp
    rw [hop]
    exact if_pos (by rw [ht.padAt]; exact hfull)
  rw [runEngine_wait he (congrArg Engine.q ht.engine) (congrArg Engine.wait ht.engine) (by rw [hop, hgot]; rfl) hwait (by decide), List.append_nil, ← ht.nowNs]
  exact busy_updEng (f := fun g => { q := x :: g.q.drop 1, wait := 0x02, since := nowNs t }) ht ht.front

end

section
variable {l : Nat} {f : FmtL} {s : State} {w : Word} {a d n : Nat} {bi bo : Bool}

/-- What the vector instructions name in SC, their first operand and the place of their results. -/
structure VecReads (l : Nat) (f : FmtL) (s : State) (w : Word) (a d n : Nat) (bi : Bool) : Prop where
  sc : w = getReg (getL s l) f.sc
  first : a = f.a.toNat + w.toNat / 2 ^ 48
  place : d = f.d.toNat + w.toNat / 2 ^ 48
  count : n = w.toNat % 2 ^ 32
  input : bi = w.getLsbD 32
  low : 1 ≤ n
  high : n ≤ 65536
  range : rangeOk (getL s l) a (vecLines bi n) = true
  sound : soundLines (getL s l) a (vecLines bi n)
  clear : hazard s l a (vecLines bi n) (vecTy bi) = none

/-! ## WVB -/

/-- The second operand of WVB. -/
structure SecondReads (l : Nat) (f : FmtL) (s : State) (w : Word) (b n : Nat) (bi : Bool) : Prop where
  second : b = f.b.toNat + w.toNat / 2 ^ 48
  range : rangeOk (getL s l) b (vecLines bi n) = true
  sound : soundLines (getL s l) b (vecLines bi n)
  clear : hazard s l b (vecLines bi n) (vecTy bi) = none

/-- The function of WVB on two elements, F other than 2. -/
def binary (fn : BitVec 3) (x y : F32) : F32 := if fn = 0 then fadd x y else if fn = 1 then fmul x y else if fn = 3 then fmax x y else fmin x y

/-- The fused multiply-add of every element, poison with poison. -/
def fused (bi bo : Bool) (n : Nat) (xs ys zs : List (Line × Bool)) : List (F32 × Bool) :=
  (List.range n).map (fun i => (ffma (vecElem bi xs i).1 (vecElem bi ys i).1 (vecElem bo zs i).1, (vecElem bi xs i).2 || (vecElem bi ys i).2 || (vecElem bo zs i).2))

theorem exists_vecResult_fused {e fn b : Nat} {L K : Lantern} {g : Engine} {t : State} (h : Busy l e L g s t) (hfn : fn = 2) :
    ∃ u, runWvb l fn d n bi bo (linesAt K a (vecLines bi n) ++ linesAt K b (vecLines bi n) ++ linesAt K d (vecLines bo n)) t
        = .more (.emit d (resultLines (packVec bo (fused bi bo n (linesAt K a (vecLines bi n)) (linesAt K b (vecLines bi n)) (linesAt K d (vecLines bo n)))).1 (vecTy bo))) u
      ∧ Busy l e L g s u := by
  obtain ⟨u, hmore, hu⟩ := vecResult_emits h d bo (fused bi bo n (linesAt K a (vecLines bi n)) (linesAt K b (vecLines bi n)) (linesAt K d (vecLines bo n)))
  refine ⟨u, ?_, hu⟩
  rw [← hmore]
  unfold runWvb
  refine congrArg (vecResult l d bo · t) (List.map_congr_left fun i hi => ?_)
  simp only [List.append_assoc, vecElem_append _ (List.mem_range.1 hi) (length_linesAt _ _ _), drop_linesAt, hfn, if_true, drop_two_linesAt]

section
variable {b : Nat} (hr : Runs l 2 (.wvb l f) s) (h : VecReads l f s w a d n bi) (hb : SecondReads l f s w b n bi) (hz : w.toNat % 2 ^ 48 < 2 ^ 34)
  (hbo : bo = w.getLsbD 33) (hd : rangeOk (getL s l) d (vecLines bo n) = true)
include hr h hb hz hbo hd

theorem tryWvb_passed : tryWvb l f (passed l s) = pushOp l 2 (.wvb f.f.toNat a b d n bi bo) (.wvb l f) (passed l s) := by
  obtain ⟨rfl, rfl, rfl, hn, rfl, hlo, hhi, ha, -, -⟩ := h
  obtain ⟨rfl, hrb, -, -⟩ := hb
  rw [← bitsAt_zero] at hn
  subst hn hbo
  exact withSc_passes hr.takes (passes_cons (scZero_passes hz) <| passes_cons (paramCheck_passes hlo hhi) <| passes_cons (lineCheck_passes ha) <|
    passes_cons (lineCheck_passes hrb) <| passes_cons (lineCheck_passes hd) passes_nil)

theorem exec_wvb_writes (hf : f.f ≠ 2) (hfree : freeLines (getL s l) d (vecLines bo n)) :
    ∃ t, exec (.wvb l f) s = .next t ∧ Became l 2 (wrote (getL s l) d (resultLines (packVec bo ((List.range n).map (fun i =>
      (binary f.f (vecElem bi (linesAt (getL s l) a (vecLines bi n)) i).1 (vecElem bi (linesAt (getL s l) b (vecLines bi n)) i).1,
        (vecElem bi (linesAt (getL s l) a (vecLines bi n)) i).2 || (vecElem bi (linesAt (getL s l) b (vecLines bi n)) i).2)))).1 (vecTy bo))) s t := by
  have hfn : f.f.toNat ≠ 2 := fun e => hf (BitVec.eq_of_toNat_eq e)
  have hreads : opReads (.wvb f.f.toNat a b d n bi bo) = keepReads a (vecLines bi n) (vecTy bi) ++ keepReads b (vecLines bi n) (vecTy bi) := by
    simp [opReads, hfn]
  refine exec_engine (exec_wvb l f s) hr (tryWvb_passed hr h hb hz hbo hd) ?_
  refine finishes_reads_emit (M := getL s l) (by decide) rfl (fun r hm => ?_) ?_ (fun t ht => ?_) (freeLines_vec (by simp) hfree)
    (xs := linesAt (getL s l) a (vecLines bi n) ++ linesAt (getL s l) b (vecLines bi n))
  · exact List.forall_mem_append.2 ⟨readsSound_keepReads h.sound h.clear, readsSound_keepReads hb.sound hb.clear⟩ r (hreads ▸ hm)
  · exact (congrArg (linesOf (getL s l)) hreads).trans (linesOf_keepReads_append _ _ _ _ _ _ _)
  · obtain ⟨u, hmore, hu⟩ := vecResult_emits ht d bo ((List.range n).map (fun i =>
      (binary f.f (vecElem bi (linesAt (getL s l) a (vecLines bi n)) i).1 (vecElem bi (linesAt (getL s l) b (vecLines bi n)) i).1,
        (vecElem bi (linesAt (getL s l) a (vecLines bi n)) i).2 || (vecElem bi (linesAt (getL s l) b (vecLines bi n)) i).2)))
    refine ⟨u, ?_, hu⟩
    rw [← hmore]
    show runWvb l f.f.toNat d n bi bo _ t = _
    unfold runWvb
    refine congrArg (vecResult l d bo · t) (List.map_congr_left fun i hi => ?_)
    simp only [vecElem_append _ (List.mem_range.1 hi) (length_linesAt _ _ _), drop_linesAt, hfn, if_false, Bool.or_false]
    rcases bits3_cases f.f with h0 | h1 | h2 | h3 | hmin | hmin | hmin | hmin
    · rw [h0]; rfl
    · rw [h1]; rfl
    · exact absurd h2 hf
    · rw [h3]; rfl
    all_goals rw [hmin]; rfl


theorem exec_wvb_held (hf : f.f = 2) (hs : soundLines (getL s l) d (vecLines bo n)) (hc : hazard s l d (vecLines bo n) (vecTy bo) = none) :
    ∃ t x, exec (.wvb l f) s = .next t ∧ Busy l 2 (getL s l) ⟨[x], 0x02, nowNs s⟩ s t ∧ x.op = .emit d (resultLines (packVec bo (fused bi bo n
      (linesAt (getL s l) a (vecLines bi n)) (linesAt (getL s l) b (vecLines bi n)) (linesAt (getL s l) d (vecLines bo n)))).1 (vecTy bo)) := by
  have hfn : f.f.toNat = 2 := congrArg BitVec.toNat hf
  have hreads : opReads (.wvb f.f.toNat a b d n bi bo)
      = keepReads a (vecLines bi n) (vecTy bi) ++ keepReads b (vecLines bi n) (vecTy bi) ++ keepReads d (vecLines bo n) (vecTy bo) := by
    simp only [opReads, hfn, if_true, vecLines]
  obtain ⟨v, hexec, hv⟩ := exec_runs (exec_wvb l f s) hr ((tryWvb_passed hr h hb hz hbo hd).trans (pushOp_passed hr _)) (busy_pushed hr _)
  have hsound : ∀ r ∈ opReads (.wvb f.f.toNat a b d n bi bo), ReadsSound s l r := by
    rw [hreads]
    exact List.forall_mem_append.2 ⟨List.forall_mem_append.2 ⟨readsSound_keepReads h.sound h.clear, readsSound_keepReads hb.sound hb.clear⟩,
      readsSound_keepReads hs hc⟩
  have hlines : linesOf (getL s l) (opReads (.wvb f.f.toNat a b d n bi bo))
      = linesAt (getL s l) a (vecLines bi n) ++ linesAt (getL s l) b (vecLines bi n) ++ linesAt (getL s l) d (vecLines bo n) := by
    rw [hreads, linesOf_append, linesOf_keepReads_append, linesOf_keepReads]
  obtain ⟨u, hrun, hu⟩ := runEngine_reads_more (n := 63) (x := issuedEntry (getL s l) (.wvb l f) (.wvb f.f.toNat a b d n bi bo)) (by decide) rfl hsound hlines (fun t ht => exists_vecResult_fused ht hfn) hv
  rw [show engineFuel = 63 + 1 from rfl, hrun] at hexec
  refine ⟨_, _, hexec, runEngine_emit_held (n := 62) (by decide) hu rfl rfl ?_ (hs 0 (vecLines_pos bo h.low)).1, rfl⟩
  rw [length_resultLines, length_packVec, fused, List.length_map, List.length_range]
  exact vecLines_pos bo h.low

end

/-! ## WVU and WRED -/

/-- The function of WVU on one element. -/
def unary (fn : BitVec 3) (x : F32) : F32 := if fn = 0 then fexp x else if fn = 1 then fdiv 0x3F800000#32 x else if fn = 2 then frsqrt x else toF32 (decode32 x)

theorem tryWvu_passed (hr : Takes l (.wvu l f) s) (h : VecReads l f s w a d n bi) (hz : w.toNat % 2 ^ 48 < 2 ^ 34) (hbo : bo = w.getLsbD 33)
    (hd : rangeOk (getL s l) d (vecLines bo n) = true) : tryWvu l f (passed l s) = pushOp l 2 (.wvu f.f.toNat a d n bi bo) (.wvu l f) (passed l s) := by
  obtain ⟨rfl, rfl, rfl, hn, rfl, hlo, hhi, ha, -, -⟩ := h
  rw [← bitsAt_zero] at hn
  subst hn hbo
  exact withSc_passes hr (passes_cons (scZero_passes hz) <| passes_cons (paramCheck_passes hlo hhi) <| passes_cons (lineCheck_passes ha) <|
    passes_cons (lineCheck_passes hd) passes_nil)

theorem runWvu_emits {e : Nat} {L : Lantern} {g : Engine} {t : State} (h : Busy l e L g s t) (fn : BitVec 3) (xs : List (Line × Bool)) :
    ∃ u, runWvu l fn.toNat d n bi bo xs t
        = .more (.emit d (resultLines (packVec bo ((List.range n).map (fun i => (unary fn (vecElem bi xs i).1, (vecElem bi xs i).2)))).1 (vecTy bo))) u
      ∧ Busy l e L g s u := by
  have hcounted : Busy l e L g s (if fn.toNat = 3 ∧ bo = false then
      countL t l 0x28 (((List.range n).map (vecElem bi xs)).filter (fun v => fisNan v.1)).length else t) := by
    split
    · exact busy_countL h _ _
    · exact h
  obtain ⟨u, hmore, hu⟩ := vecResult_emits hcounted d bo ((List.range n).map (fun i => (unary fn (vecElem bi xs i).1, (vecElem bi xs i).2)))
  refine ⟨u, ?_, hu⟩
  rw [← hmore]
  unfold runWvu
  refine congrArg (vecResult l d bo · _) (List.map_map.trans (List.map_congr_left fun i _ => ?_))
  rcases bits3_cases fn with rfl | rfl | rfl | rfl | rfl | rfl | rfl | rfl
  all_goals rfl

theorem exec_wvu_writes (hr : Runs l 2 (.wvu l f) s) (h : VecReads l f s w a d n bi) (hz : w.toNat % 2 ^ 48 < 2 ^ 34) (hbo : bo = w.getLsbD 33)
    (hd : rangeOk (getL s l) d (vecLines bo n) = true) (hfree : freeLines (getL s l) d (vecLines bo n)) :
    ∃ t, exec (.wvu l f) s = .next t ∧ Became l 2 (wrote (getL s l) d (resultLines (packVec bo ((List.range n).map (fun i =>
      (unary f.f (vecElem bi (linesAt (getL s l) a (vecLines bi n)) i).1, (vecElem bi (linesAt (getL s l) a (vecLines bi n)) i).2)))).1 (vecTy bo))) s t := by
  refine exec_engine (exec_wvu l f s) hr (tryWvu_passed hr.takes h hz hbo hd) ?_
  exact finishes_reads_emit (M := getL s l) (by decide) rfl (readsSound_keepReads h.sound h.clear) (linesOf_keepReads _ _ _ _)
    (fun t ht => runWvu_emits ht f.f _) (freeLines_vec (by simp) hfree)

/-- The reduction of WRED. -/
def reduction (fn : BitVec 3) (fs : List F32) : F32 := if fn = 0 then fsumExact fs else if fn = 1 then fsumSquares fs else (fs.drop 1).foldl fmax (fs.headD 0)

theorem tryWred_passed (hr : Takes l (.wred l f) s) (h : VecReads l f s w a d n bi) (hz : w.toNat % 2 ^ 48 < 2 ^ 33)
    (hd : rangeOk (getL s l) d 1 = true) : tryWred l f (passed l s) = pushOp l 2 (.wred f.f.toNat a d n bi) (.wred l f) (passed l s) := by
  obtain ⟨rfl, rfl, rfl, hn, rfl, hlo, hhi, ha, -, -⟩ := h
  rw [← bitsAt_zero] at hn
  subst hn
  exact withSc_passes hr (passes_cons (scZero_passes hz) <| passes_cons (paramCheck_passes hlo hhi) <| passes_cons (lineCheck_passes ha) <|
    passes_cons (lineCheck_passes hd) passes_nil)

theorem runWred_emits (fn : BitVec 3) (xs : List (Line × Bool)) (t : State) :
    runWred fn.toNat d n bi xs t
      = .more (.emit d (resultLines [(line32 [reduction fn ((List.range n).map (fun i => (vecElem bi xs i).1))], ((List.range n).map (vecElem bi xs)).any (·.2))] 7)) t := by
  rw [show (List.range n).map (fun i => (vecElem bi xs i).1) = ((List.range n).map (vecElem bi xs)).map (·.1) from List.map_map.symm]
  rcases bits3_cases fn with rfl | rfl | rfl | rfl | rfl | rfl | rfl | rfl
  all_goals rfl

theorem exec_wred_writes (hr : Runs l 2 (.wred l f) s) (h : VecReads l f s w a d n bi) (hz : w.toNat % 2 ^ 48 < 2 ^ 33)
    (hd : rangeOk (getL s l) d 1 = true) (hfree : freeLines (getL s l) d 1) :
    ∃ t, exec (.wred l f) s = .next t ∧ Became l 2 (wrote (getL s l) d (resultLines [(line32 [reduction f.f ((List.range n).map (fun i =>
      (vecElem bi (linesAt (getL s l) a (vecLines bi n)) i).1))], ((List.range n).map (vecElem bi (linesAt (getL s l) a (vecLines bi n)))).any (·.2))] 7)) s t := by
  refine exec_engine (exec_wred l f s) hr (tryWred_passed hr.takes h hz hd) ?_
  exact finishes_reads_emit (M := getL s l) (by decide) rfl (readsSound_keepReads h.sound h.clear) (linesOf_keepReads _ _ _ _)
    (fun t ht => ⟨t, runWred_emits f.f _ t, ht⟩) hfree

end

/-- Settles O18: the functions on the elements, then the results packed and written, or held. -/
theorem wideVectors : Obligations.WideVectors := by
  unfold Obligations.WideVectors
  rintro l f s w a d n _ _ bi bo _ hw ha hd hn hbi hlo hhi rfl rfl hra hsa hza rfl
  rw [← lineElems_vecTy, ← lineElems_vecTy] at *
  have h : VecReads l f s w a d n bi := ⟨hw, ha, hd, hn, hbi, hlo, hhi, hra, hsa, hza⟩
  refine ⟨?_, ?_, ?_, ?_⟩
  · rintro b _ hr hz hbo hb hrb hsb hzb rfl hrd hf hfree
    exact exec_wvb_writes hr h ⟨hb, hrb, hsb, hzb⟩ hz hbo hrd hf hfree
  · rintro b _ _ hr hz hbo hb hrb hsb hzb rfl hrd hf hsd hzd rfl
    obtain ⟨t, x, hexec, ht, hop⟩ := exec_wvb_held hr h ⟨hb, hrb, hsb, hzb⟩ hz hbo hrd hf hsd hzd
    exact ⟨t, x, hexec, ht.data Lantern.pad fun _ => rfl, congrArg Engine.q ht.engine, congrArg Engine.wait ht.engine, hop⟩
  · intro hr hz hbo hrd hfree
    exact exec_wvu_writes hr h hz hbo hrd hfree
  · intro hr hz hrd hfree
    exact exec_wred_writes hr h hz hrd hfree

end Sys2Proof.VectorRun
end

section
/-!
PROOFS. Conversions of the wide engine (05 R163; 06 Table 6-3): WQNT and WGTH.
-/

open Sys2Proof Sys2Proof.Machine

namespace Sys2Proof.ConversionRun

open Sys2Proof.Reports Sys2Proof.ArrayIssue Sys2Proof.EngineRun Sys2Proof.WideRun

/-- Values packed into n lines of a type, with their poison. -/
def packed (ty n : Nat) (vs : List (FV × Bool)) : List (Line × Bool) :=
  (chunks (lineElems ty) n vs).map (fun c => ((packLine ty (c.map (·.1))).1, c.any (·.2)))

theorem length_packed (ty n : Nat) (vs : List (FV × Bool)) : (packed ty n vs).length = n := (List.length_map ..).trans (length_chunks ..)

theorem packResult_emits {l e : Nat} {L : Lantern} {g : Engine} {s t : State} (h : Busy l e L g s t) (d ty n : Nat) {vs : List (FV × Bool)}
    (hn : linesFor vs.length (lineElems ty) = n) : ∃ u, packResult l d ty vs t = .more (.emit d (resultLines (packed ty n vs) ty)) u ∧ Busy l e L g s u := by
  subst hn
  rw [packed, show (fun c : List (FV × Bool) => ((packLine ty (c.map (·.1))).1, c.any (·.2)))
    = (fun y => (y.1.1, y.2)) ∘ fun c => (packLine ty (c.map (·.1)), c.any (·.2)) from rfl, ← List.map_map]
  exact ⟨_, rfl, busy_countL (busy_countL h 0x28 _) 0x29 _⟩

theorem freeLines_packed {L : Lantern} {d ty n sh : Nat} {vs : List (FV × Bool)} (hfree : freeLines L d n) :
    freeLines L d (resultLines (packed ty n vs) sh).length := by
  rw [length_resultLines, length_packed]
  exact hfree

section
variable {l : Nat} {f : FmtL} {s : State} {w : Word} {a d : Nat}

/-- What a conversion names in SC, and its two places. -/
structure Places (l : Nat) (f : FmtL) (s : State) (w : Word) (a d : Nat) : Prop where
  sc : w = getReg (getL s l) f.sc
  first : a = f.a.toNat + w.toNat / 2 ^ 48
  place : d = f.d.toNat + w.toNat / 2 ^ 48

section
variable {n ty : Nat} (hr : Runs l 2 (.wqnt l f) s) (h : Places l f s w a d) (hn : n = w.toNat % 2 ^ 32) (hty : ty = w.toNat / 2 ^ 32 % 2 ^ 4)
  (hz : w.toNat % 2 ^ 48 < 2 ^ 36) (hlo : 1 ≤ n) (hhi : n ≤ 65536) (ht : ty ≤ 5) (ha : rangeOk (getL s l) a (linesFor n 17) = true)
  (hd : rangeOk (getL s l) d (linesFor n (lineElems ty)) = true)
include hr h hn hty hz hlo hhi ht ha hd

theorem tryWqnt_passed : tryWqnt l f (passed l s) = pushOp l 2 (.wqnt a d n ty) (.wqnt l f) (passed l s) := by
  obtain ⟨rfl, rfl, rfl⟩ := h
  rw [← bitsAt_zero] at hn
  subst hn hty
  exact withSc_passes hr.takes (passes_cons (scZero_passes hz) <| passes_cons (paramCheck_passes hlo hhi) <|
    passes_cons (paramCheck_passes (Nat.zero_le _) ht) <| passes_cons (lineCheck_passes ha) <| passes_cons (lineCheck_passes hd) passes_nil)

theorem exec_wqnt_writes (hs : soundLines (getL s l) a (linesFor n 17)) (hc : hazard s l a (linesFor n 17) 7 = none)
    (hfree : freeLines (getL s l) d (linesFor n (lineElems ty))) :
    ∃ t, exec (.wqnt l f) s = .next t ∧ Became l 2 (wrote (getL s l) d (resultLines (packed ty (linesFor n (lineElems ty)) ((List.range n).map (fun i =>
      (decode32 (vecElem false (linesAt (getL s l) a (linesFor n 17)) i).1, (vecElem false (linesAt (getL s l) a (linesFor n 17)) i).2)))) ty)) s t := by
  refine exec_engine (exec_wqnt l f s) hr (tryWqnt_passed hr h hn hty hz hlo hhi ht ha hd) ?_
  exact finishes_reads_emit (M := getL s l) (by decide) rfl (readsSound_keepReads hs hc) (linesOf_keepReads _ _ _ _)
    (fun t hb => packResult_emits hb d ty _ (by rw [List.length_map, List.length_range])) (freeLines_packed hfree)

end

/-! ## WGTH -/

/-- The result lines of WGTH from the len lines of its row. -/
def gathered (len fi fo : Nat) (xs : List (Line × Bool)) : List (Line × Bool) :=
  if fi = fo then xs else packed fo (linesFor (len * lineElems fi) (lineElems fo)) ((List.range (len * lineElems fi)).map (elemOf fi xs))

/-- The number of result lines of WGTH. -/
def gatheredLines (len fi fo : Nat) : Nat := if fi = fo then len else linesFor (len * lineElems fi) (lineElems fo)

theorem length_gathered {len fi fo : Nat} {xs : List (Line × Bool)} (h : xs.length = len) : (gathered len fi fo xs).length = gatheredLines len fi fo := by
  unfold gathered gatheredLines
  split
  · exact h
  · exact length_packed ..

theorem runWgth_emits {e : Nat} {L : Lantern} {g : Engine} {t : State} (h : Busy l e L g s t) (len fi fo : Nat) (xs : List (Line × Bool)) :
    ∃ u, runWgth l d len fi fo xs t = .more (.emit d (resultLines (gathered len fi fo xs) fo)) u ∧ Busy l e L g s u := by
  have hnoted := busy_noteCells h fi xs
  unfold runWgth gathered
  split
  · exact ⟨_, rfl, hnoted⟩
  · exact packResult_emits hnoted d fo _ (by rw [List.length_map, List.length_range])

section
variable {r len fi fo : Nat} (hr : Runs l 2 (.wgth l f) s) (h : Places l f s w a d) (hrow : r = w.toNat % 2 ^ 32) (hlen : len = w.toNat / 2 ^ 32 % 2 ^ 8)
  (hfi : fi = w.toNat / 2 ^ 40 % 2 ^ 4) (hfo : fo = w.toNat / 2 ^ 44 % 2 ^ 4) (hlo : 1 ≤ len) (hi : fi ≤ 7) (ho : fo ≤ 7)
  (ha : rangeOk (getL s l) (a + r * len) len = true) (hd : rangeOk (getL s l) d (gatheredLines len fi fo) = true)
include hr h hrow hlen hfi hfo hlo hi ho ha hd

theorem tryWgth_passed : tryWgth l f (passed l s) = pushOp l 2 (.wgth a d r len fi fo) (.wgth l f) (passed l s) := by
  have hhi : len ≤ 255 := by
    rw [hlen]
    exact Nat.le_of_lt_succ (Nat.mod_lt _ (by decide))
  obtain ⟨rfl, rfl, rfl⟩ := h
  rw [← bitsAt_zero] at hrow
  subst hrow hlen hfi hfo
  exact withSc_passes hr.takes (passes_cons (paramCheck_passes hlo hhi) <| passes_cons (paramCheck_passes (Nat.zero_le _) hi) <|
    passes_cons (paramCheck_passes (Nat.zero_le _) ho) <| passes_cons (lineCheck_passes ha) <| passes_cons (lineCheck_passes hd) passes_nil)

theorem exec_wgth_writes (hs : soundLines (getL s l) (a + r * len) len) (hc : hazard s l (a + r * len) len fi = none)
    (hfree : freeLines (getL s l) d (gatheredLines len fi fo)) :
    ∃ t, exec (.wgth l f) s = .next t
      ∧ Became l 2 (wrote (getL s l) d (resultLines (gathered len fi fo (linesAt (getL s l) (a + r * len) len)) fo)) s t := by
  refine exec_engine (exec_wgth l f s) hr (tryWgth_passed hr h hrow hlen hfi hfo hlo hi ho ha hd) ?_
  refine finishes_reads_emit (M := getL s l) (by decide) rfl (readsSound_keepReads hs hc) (linesOf_keepReads _ _ _ _)
    (fun t hb => runWgth_emits hb len fi fo _) ?_
  rw [length_resultLines, length_gathered (length_linesAt _ _ _)]
  exact hfree

end
end

/-- Settles O19: the values packed, or the row copied, and the result lines written. -/
theorem wideConversions : Obligations.WideConversions := by
  unfold Obligations.WideConversions
  intro l f s w a d hw ha hd
  refine ⟨?_, ?_⟩
  · rintro n ty _ _ hr hn hty hz hlo hhi ht hra hsa hza rfl hrd hfree rfl
    exact exec_wqnt_writes hr ⟨hw, ha, hd⟩ hn hty hz hlo hhi ht hra hrd hsa hza hfree
  · rintro r len fi fo _ _ _ hr hrow hlen hfi hfo hlo hi ho rfl hra hsa hza rfl hrd hfree rfl
    obtain ⟨t, hexec, ht⟩ := exec_wgth_writes hr ⟨hw, ha, hd⟩ hrow hlen hfi hfo hlo hi ho hra hrd hsa hza hfree
    refine ⟨t, hexec, ?_⟩
    unfold gathered at ht
    split_ifs at ht ⊢
    · exact ht
    · exact ht

end Sys2Proof.ConversionRun
end

section
/-!
PROOFS. Selection and softmax of the wide engine (05 R162; 07 R221; 06 Table 6-3): WTOPK and WSMX.
-/

open Sys2Proof Sys2Proof.Machine

namespace Sys2Proof.SelectionRun

open Sys2Proof.Reports Sys2Proof.ArrayIssue Sys2Proof.EngineRun Sys2Proof.WideRun

section
variable {l : Nat} {f : FmtL} {s : State} {w : Word} {a b d n : Nat}

/-- What WTOPK and WSMX name in SC, and their places. -/
structure Places (l : Nat) (f : FmtL) (s : State) (w : Word) (a b d n : Nat) : Prop where
  sc : w = getReg (getL s l) f.sc
  first : a = f.a.toNat + w.toNat / 2 ^ 48
  second : b = f.b.toNat + w.toNat / 2 ^ 48
  place : d = f.d.toNat + w.toNat / 2 ^ 48
  count : n = w.toNat % 2 ^ 32
  low : 1 ≤ n

/-- FP32 elements of n values, whatever lines follow theirs. -/
theorem vecElem_linesAt {i : Nat} (L : Lantern) (a : Nat) (ys : List (Line × Bool)) (hi : i < n) :
    vecElem false (linesAt L a (linesFor n 17) ++ ys) i = vecElem false (linesAt L a (linesFor n 17)) i :=
  vecElem_append ys hi (length_linesAt _ _ _)

/-! ## WTOPK -/

/-- The candidates of WTOPK: n values, and their indices from as many lines or counted up from one (06 Table 6-3). -/
def candidates (n : Nat) (ix : Bool) (xs bs : List (Line × Bool)) : List Cand :=
  (List.range n).map (fun i =>
    Cand.mk (if ix then elem32 (nthLine bs (i / 17)).1 (i % 17) else elem32 (nthLine bs 0).1 0 + BitVec.ofNat 32 i) (vecElem false xs i).1
      ((vecElem false xs i).2 || (if ix then (nthLine bs (i / 17)).2 else (nthLine bs 0).2)))

/-- The indices and values of k places, those past the last candidate padded. -/
def ranked (k : Nat) (r : List Cand) : List (F32 × F32) := (List.range k).map (fun i => (r[i]?.map fun c => (c.ix, c.val)).getD (Config.topkPad i))

/-- One row of k FP32 or index values of the selection, with its poison. -/
def rankLines (k : Nat) (r : List Cand) (vs : List F32) : List (Line × Bool) := (chunks 17 (linesFor k 17) vs).map (fun c => (line32 c, r.any (·.bad)))

/-- The result lines of WTOPK. -/
def selection (k : Nat) (r : List Cand) : List PadLine :=
  resultLines (rankLines k r ((ranked k r).map (·.1))) 10 ++ resultLines (rankLines k r ((ranked k r).map (·.2))) 7

theorem length_selection (k : Nat) (r : List Cand) : (selection k r).length = 2 * linesFor k 17 := by
  simp only [selection, rankLines, List.length_append, length_resultLines, List.length_map, length_chunks, Nat.two_mul]

theorem ranked_indices (k : Nat) (r : List Cand) :
    (ranked k r).map (·.1) = (List.range k).map (fun i => match r[i]? with | some c => c.ix | none => (Config.topkPad i).1) := by
  rw [ranked, List.map_map]
  refine List.map_congr_left fun i _ => ?_
  simp only [Function.comp]
  cases r[i]? <;> rfl

theorem ranked_values (k : Nat) (r : List Cand) :
    (ranked k r).map (·.2) = (List.range k).map (fun i => match r[i]? with | some c => c.val | none => (Config.topkPad i).2) := by
  rw [ranked, List.map_map]
  refine List.map_congr_left fun i _ => ?_
  simp only [Function.comp]
  cases r[i]? <;> rfl

theorem runWtopk_emits (k : Nat) (ix : Bool) (L : Lantern) (bs : List (Line × Bool)) (t : State) :
    runWtopk d n k ix (linesAt L a (linesFor n 17) ++ bs) t
      = .more (.emit d (selection k (topK k (candidates n ix (linesAt L a (linesFor n 17)) bs)))) t := by
  have hcands : (List.range n).map (fun i =>
      Cand.mk (if ix then elem32 (nthLine bs (i / 17)).1 (i % 17) else elem32 (nthLine bs 0).1 0 + BitVec.ofNat 32 i)
        (vecElem false (linesAt L a (linesFor n 17) ++ bs) i).1
        ((vecElem false (linesAt L a (linesFor n 17) ++ bs) i).2 || (if ix then (nthLine bs (i / 17)).2 else (nthLine bs 0).2)))
      = candidates n ix (linesAt L a (linesFor n 17)) bs :=
    List.map_congr_left fun i hi => by rw [vecElem_linesAt L a bs (List.mem_range.1 hi)]
  have hranked : ∀ r : List Cand, ranked k r = (List.range k).map (fun i => match r[i]? with | some c => (c.ix, c.val) | none => Config.topkPad i) :=
    fun r => List.map_congr_left fun i _ => by cases r[i]? <;> rfl
  unfold runWtopk selection
  simp only [drop_linesAt, hcands, hranked]
  rfl

theorem tryWtopk_passed {k : Nat} (hr : Takes l (.wtopk l f) s) (h : Places l f s w a b d n) (hhi : n ≤ 65536) (hk : k = w.toNat / 2 ^ 32 % 2 ^ 9)
    (hz : w.toNat % 2 ^ 48 < 2 ^ 41) (hk1 : 1 ≤ k) (hk2 : k ≤ 256) (ha : rangeOk (getL s l) a (linesFor n 17) = true)
    (hb : rangeOk (getL s l) b (if f.f.getLsbD 0 then linesFor n 17 else 1) = true) (hd : rangeOk (getL s l) d (2 * linesFor k 17) = true) :
    tryWtopk l f (passed l s) = pushOp l 2 (.wtopk a b d n k (f.f.getLsbD 0)) (.wtopk l f) (passed l s) := by
  obtain ⟨rfl, rfl, rfl, rfl, hn, hlo⟩ := h
  rw [← bitsAt_zero] at hn
  subst hn hk
  exact withSc_passes hr (passes_cons (scZero_passes hz) <| passes_cons (paramCheck_passes hlo hhi) <| passes_cons (paramCheck_passes hk1 hk2) <|
    passes_cons (lineCheck_passes ha) <| passes_cons (lineCheck_passes hb) <| passes_cons (lineCheck_passes hd) passes_nil)

theorem exec_wtopk_writes {k nb : Nat} (hr : Runs l 2 (.wtopk l f) s) (h : Places l f s w a b d n) (hhi : n ≤ 65536) (hk : k = w.toNat / 2 ^ 32 % 2 ^ 9)
    (hz : w.toNat % 2 ^ 48 < 2 ^ 41) (hk1 : 1 ≤ k) (hk2 : k ≤ 256) (hnb : nb = if f.f.getLsbD 0 then linesFor n 17 else 1)
    (hra : rangeOk (getL s l) a (linesFor n 17) = true) (hsa : soundLines (getL s l) a (linesFor n 17)) (hza : hazard s l a (linesFor n 17) 7 = none)
    (hrb : rangeOk (getL s l) b nb = true) (hsb : soundLines (getL s l) b nb) (hzb : hazard s l b nb 10 = none)
    (hrd : rangeOk (getL s l) d (2 * linesFor k 17) = true) (hfree : freeLines (getL s l) d (2 * linesFor k 17)) :
    ∃ t, exec (.wtopk l f) s = .next t ∧ Became l 2 (wrote (getL s l) d (selection k (topK k (candidates n (f.f.getLsbD 0)
      (linesAt (getL s l) a (linesFor n 17)) (linesAt (getL s l) b nb))))) s t := by
  subst hnb
  refine exec_engine (exec_wtopk l f s) hr (tryWtopk_passed hr.takes h hhi hk hz hk1 hk2 hra hrb hrd) ?_
  refine finishes_reads_emit (M := getL s l) (by decide) rfl (List.forall_mem_append.2 ⟨readsSound_keepReads hsa hza, readsSound_keepReads hsb hzb⟩)
    (linesOf_keepReads_append _ _ _ _ _ _ _) (fun t ht => ⟨t, runWtopk_emits k _ _ _ t, ht⟩) ?_
  rw [length_selection]
  exact hfree

/-! ## WSMX -/

/-- The scores of WSMX, and what is left of the score buffer: the oldest query's, or FP32 lines. -/
def ScoresFrom (l : Nat) (f : FmtL) (s : State) (a n : Nat) (ss : List (F32 × Bool)) (rest : List (Nat × F32 × Bool)) : Prop :=
  if f.f.getLsbD 0 then takeScores (getL s l).scores n = some (ss, rest)
  else rangeOk (getL s l) a (linesFor n 17) = true ∧ soundLines (getL s l) a (linesFor n 17) ∧ hazard s l a (linesFor n 17) 7 = none
    ∧ ss = (List.range n).map (vecElem false (linesAt (getL s l) a (linesFor n 17))) ∧ rest = (getL s l).scores

theorem length_takeScores {buf rest : List (Nat × F32 × Bool)} {ss : List (F32 × Bool)} (h : takeScores buf n = some (ss, rest)) : ss.length = n := by
  unfold takeScores at h
  split at h
  · cases h
  · dsimp only at h
    split at h
    · cases h
    · next hlen =>
      cases h
      rw [List.length_map]
      exact Nat.le_antisymm (List.length_take_le _ _) (Nat.not_lt.1 hlen)

theorem length_softmaxOf (floor : F32 × Bool) (ss : List (F32 × Bool)) : (softmaxOf floor ss).1.length = linesFor ss.length 16 := by
  simp [softmaxOf, length_chunks]

theorem length_cellLines (cells : List (Cnv × Bool)) : (cellLines cells).length = linesFor cells.length 4 := by
  simp [cellLines, length_chunks]

theorem linesFor_linesFor (n : Nat) : linesFor (linesFor n 16) 4 = linesFor n 64 := by
  unfold linesFor
  omega

/-- The probabilities of query q: its n numerators, each with its cell's scale and their poison. -/
def probabilities (q n : Nat) (out : List (Cnv × Bool) × Line × Bool) : List (Nat × Nat × Int × Nat × Bool) :=
  (List.range n).map (fun i =>
    (q, i, signed 8 ((out.1.getD (i / 16) (⟨0, 0, 0⟩, false)).1.code / 2 ^ (8 * (i % 16))), (out.1.getD (i / 16) (⟨0, 0, 0⟩, false)).1.code / 2 ^ 128, out.2.2))

section
variable {e : Nat} {L : Lantern} {g : Engine} {t : State} (h : Busy l e L g s t) (floor : F32 × Bool) (ss : List (F32 × Bool)) (op : EOp) (s0 : State)
include h

theorem smxWrite_lines : ∃ u, smxWrite l d n false op s0 t floor ss = .more (.emit d (resultLines (cellLines (softmaxOf floor ss).1) 2
      ++ resultLines [((softmaxOf floor ss).2.1, (softmaxOf floor ss).2.2)] 7)) u ∧ Busy l e L g s u :=
  ⟨_, rfl, busy_countL (busy_countL h 0x28 _) 0x29 _⟩

theorem smxWrite_buffer (hroom : L.probs.length + n ≤ 4096) :
    ∃ u, smxWrite l d n true op s0 t floor ss = .more (.emit d (resultLines [((softmaxOf floor ss).2.1, (softmaxOf floor ss).2.2)] 7)) u
      ∧ Busy l e { L with
        probIn := L.probIn + 1, probs := L.probs ++ probabilities L.probIn n (softmaxOf floor ss) } g s u := by
  have hprobs : (getL t l).probs = L.probs := h.data Lantern.probs fun _ => rfl
  have hin : (getL t l).probIn = L.probIn := h.data Lantern.probIn fun _ => rfl
  unfold smxWrite
  simp only [if_true, hprobs, if_neg (Nat.not_lt.2 hroom), hin]
  exact ⟨_, rfl, busy_countL (busy_countL (busy_updL h (f := fun K => { K with
    probs := K.probs ++ probabilities L.probIn n (softmaxOf floor ss), probIn := L.probIn + 1 }) fun _ => rfl) 0x28 _) 0x29 _⟩

end

section
variable {ss : List (F32 × Bool)} {rest : List (Nat × F32 × Bool)} (hsc : ScoresFrom l f s a n ss rest)
include hsc

theorem length_scoresFrom : ss.length = n := by
  unfold ScoresFrom at hsc
  split at hsc
  · exact length_takeScores hsc
  · obtain ⟨-, -, -, rfl, -⟩ := hsc
    rw [List.length_map, List.length_range]

theorem tryWsmx_passed (hr : Takes l (.wsmx l f) s) (h : Places l f s w a b d n) (hhi : n ≤ 4096) (hz : w.toNat % 2 ^ 48 < 2 ^ 32)
    (hb : rangeOk (getL s l) b 1 = true) (hd : rangeOk (getL s l) d (if f.f.getLsbD 1 then 1 else linesFor n 64 + 1) = true) :
    tryWsmx l f (passed l s) = pushOp l 2 (.wsmx (if f.f.getLsbD 0 then 0 else a) b d n (f.f.getLsbD 0) (f.f.getLsbD 1)) (.wsmx l f) (passed l s) := by
  obtain ⟨rfl, rfl, rfl, rfl, hn, hlo⟩ := h
  rw [← bitsAt_zero] at hn
  subst hn
  refine withSc_passes hr (passes_cons (scZero_passes hz) <| passes_cons (paramCheck_passes hlo hhi) <| passes_cons ?_ <|
    passes_cons (lineCheck_passes hb) <| passes_cons (lineCheck_passes hd) passes_nil)
  unfold ScoresFrom at hsc
  cases hfb : f.f.getLsbD 0
  · rw [hfb] at hsc
    exact lineCheck_passes hsc.1
  · rfl

/-- The lines that WSMX reads, KEEP and sound. -/
theorem reads_wsmx (hsb : soundLines (getL s l) b 1) (hzb : hazard s l b 1 7 = none) (tb : Bool) :
    ∀ r ∈ opReads (.wsmx (if f.f.getLsbD 0 then 0 else a) b d n (f.f.getLsbD 0) tb), ReadsSound s l r := by
  have hfloor : ∀ r ∈ keepReads b 1 7, ReadsSound s l r := readsSound_keepReads hsb hzb
  unfold ScoresFrom at hsc
  cases hfb : f.f.getLsbD 0
  · rw [hfb] at hsc
    obtain ⟨-, hsa, hza, -, -⟩ := hsc
    exact List.forall_mem_append.2 ⟨readsSound_keepReads hsa hza, hfloor⟩
  · exact hfloor

/-- WSMX takes its scores and its floor, and is left with the rest of the score buffer. -/
theorem runWsmx_takes {e : Nat} {g : Engine} {t : State} (tb : Bool) (h : Busy l e (getL s l) g s t) :
    ∃ u op, runWsmx l (if f.f.getLsbD 0 then 0 else a) b d n (f.f.getLsbD 0) tb
        (linesOf (getL s l) (opReads (.wsmx (if f.f.getLsbD 0 then 0 else a) b d n (f.f.getLsbD 0) tb))) t
        = smxWrite l d n tb op t u (vecElem false (linesAt (getL s l) b 1) 0) ss
      ∧ Busy l e { getL s l with scores := rest } g s u := by
  unfold ScoresFrom at hsc
  cases hfb : f.f.getLsbD 0
  · rw [hfb] at hsc
    obtain ⟨-, -, -, rfl, rfl⟩ := hsc
    refine ⟨t, .wsmx a b d n false tb, ?_, h⟩
    have hlines : linesOf (getL s l) (opReads (.wsmx a b d n false tb)) = linesAt (getL s l) a (linesFor n 17) ++ linesAt (getL s l) b 1 :=
      linesOf_keepReads_append _ _ _ _ _ _ _
    have hscores : (List.range n).map (vecElem false (linesAt (getL s l) a (linesFor n 17) ++ linesAt (getL s l) b 1))
        = (List.range n).map (vecElem false (linesAt (getL s l) a (linesFor n 17))) :=
      List.map_congr_left fun i hi => vecElem_linesAt _ _ _ (List.mem_range.1 hi)
    simp only [Bool.false_eq_true, if_false, hlines, runWsmx, drop_linesAt, hscores]
  · rw [hfb] at hsc
    refine ⟨_, .wsmx 0 b d n true tb, ?_, busy_updL h (f := fun K => { K with scores := rest }) fun _ => rfl⟩
    have hlines : linesOf (getL s l) (opReads (.wsmx 0 b d n true tb)) = linesAt (getL s l) b 1 := linesOf_keepReads _ _ _ _
    have htaken : takeScores (getL t l).scores n = some (ss, rest) := (congrArg (takeScores · n) (h.data Lantern.scores fun _ => rfl)).trans hsc
    simp only [if_true, hlines, runWsmx, htaken]

section
variable (hr : Runs l 2 (.wsmx l f) s) (h : Places l f s w a b d n) (hhi : n ≤ 4096) (hz : w.toNat % 2 ^ 48 < 2 ^ 32) (hrb : rangeOk (getL s l) b 1 = true)
  (hsb : soundLines (getL s l) b 1) (hzb : hazard s l b 1 7 = none)
include hr h hhi hz hrb hsb hzb

theorem exec_wsmx_lines (htb : f.f.getLsbD 1 = false) (hrd : rangeOk (getL s l) d (linesFor n 64 + 1) = true) (hfree : freeLines (getL s l) d (linesFor n 64 + 1)) :
    ∃ t, exec (.wsmx l f) s = .next t ∧ Became l 2 (wrote { getL s l with scores := rest } d
      (resultLines (cellLines (softmaxOf (vecElem false (linesAt (getL s l) b 1) 0) ss).1) 2
        ++ resultLines [((softmaxOf (vecElem false (linesAt (getL s l) b 1) 0) ss).2.1, (softmaxOf (vecElem false (linesAt (getL s l) b 1) 0) ss).2.2)] 7)) s t := by
  refine exec_engine (exec_wsmx l f s) hr (tryWsmx_passed hsc hr.takes h hhi hz hrb (by rw [htb]; exact hrd)) ?_
  rw [htb]
  refine finishes_reads_emit (by decide) rfl (reads_wsmx hsc hsb hzb false) rfl (fun t ht => ?_) ?_
  · obtain ⟨u, op, htake, hu⟩ := runWsmx_takes (d := d) hsc false ht
    obtain ⟨v, hmore, hv⟩ := smxWrite_lines (d := d) (n := n) hu (vecElem false (linesAt (getL s l) b 1) 0) ss op t
    exact ⟨v, htake.trans hmore, hv⟩
  · rw [List.length_append, length_resultLines, length_cellLines, length_softmaxOf, length_scoresFrom hsc, linesFor_linesFor]
    exact hfree

theorem exec_wsmx_buffer (htb : f.f.getLsbD 1 = true) (hroom : (getL s l).probs.length + n ≤ 4096) (hrd : rangeOk (getL s l) d 1 = true)
    (hfree : freeLines (getL s l) d 1) :
    ∃ t, exec (.wsmx l f) s = .next t ∧ Became l 2 (wrote { getL s l with
      scores := rest, probIn := (getL s l).probIn + 1,
      probs := (getL s l).probs ++ probabilities (getL s l).probIn n (softmaxOf (vecElem false (linesAt (getL s l) b 1) 0) ss) } d
      (resultLines [((softmaxOf (vecElem false (linesAt (getL s l) b 1) 0) ss).2.1, (softmaxOf (vecElem false (linesAt (getL s l) b 1) 0) ss).2.2)] 7)) s t := by
  refine exec_engine (exec_wsmx l f s) hr (tryWsmx_passed hsc hr.takes h hhi hz hrb (by rw [htb]; exact hrd)) ?_
  rw [htb]
  refine finishes_reads_emit (by decide) rfl (reads_wsmx hsc hsb hzb true) rfl (fun t ht => ?_) hfree
  obtain ⟨u, op, htake, hu⟩ := runWsmx_takes (d := d) hsc true ht
  obtain ⟨v, hmore, hv⟩ := smxWrite_buffer (d := d) (n := n) hu (vecElem false (linesAt (getL s l) b 1) 0) ss op t hroom
  exact ⟨v, htake.trans hmore, hv⟩

end
end
end

/-- Settles O20: the candidates ranked, or the scores turned to numerators, and the result lines written. -/
theorem wideSelection : Obligations.WideSelection := by
  unfold Obligations.WideSelection
  intro l f s w a b d n hw ha hb hd hn hlo
  have h : Places l f s w a b d n := ⟨hw, ha, hb, hd, hn, hlo⟩
  refine ⟨?_, ?_⟩
  · rintro k nb _ _ _ _ hr hhi hk hz hk1 hk2 hnb hra hsa hza rfl hrb hsb hzb rfl hrd hfree rfl rfl
    obtain ⟨t, hexec, ht⟩ := exec_wtopk_writes hr h hhi hk hz hk1 hk2 hnb hra hsa hza hrb hsb hzb hrd hfree
    refine ⟨t, hexec, ?_⟩
    rw [selection, ranked_indices, ranked_values] at ht
    exact ht
  · rintro ss rest _ hr hhi hz hrb hsb hzb rfl hsc hrd hfree
    refine ⟨fun htb => ?_, ?_⟩
    · rw [htb] at hrd hfree
      exact exec_wsmx_lines hsc hr h hhi hz hrb hsb hzb htb hrd hfree
    · rintro _ htb hroom rfl
      rw [htb] at hrd hfree
      exact exec_wsmx_buffer hsc hr h hhi hz hrb hsb hzb htb hroom hrd hfree

end Sys2Proof.SelectionRun
end

section
/-!
PROOFS. The queue engine (05 R155 to R159; Tables 5-5 and 5-6): lines delivered in order, the head line, the pointers and the status word of a queue. What an engine
injects goes to the router or to the weir (08 R247).
-/

open Sys2Proof Sys2Proof.Machine

namespace Sys2Proof.QueueRun

open Sys2Proof.Reports Sys2Proof.ArrayIssue Sys2Proof.EngineRun

/-! ## What engines do to a busy lantern besides reading and writing lines -/

section
variable {l e : Nat} {L : Lantern} {g : Engine} {s t : State}

theorem busy_updQ (h : Busy l e L g s t) (q : Nat) (f : Queue → Queue) :
    Busy l e { L with queues := tset {} L.queues q (f (Machine.getQ L q)) } g s (updQ t l q f) :=
  busy_updL h (f := fun K => { K with queues := tupd {} K.queues q f }) fun _ => rfl

theorem busy_writePad (h : Busy l e L g s t) (a : Nat) (x : Line) (p : Bool) (sh : BitVec 4) :
    Busy l e { L with pad := tset {} L.pad a ⟨x, true, p, false, sh⟩ } g s (writePad t l a x p sh) :=
  busy_updL h (f := fun K => { K with pad := tset {} K.pad a ⟨x, true, p, false, sh⟩ }) fun _ => rfl

theorem busy_setReg (h : Busy l e L g s t) (r : Fin 32) (v : Word) :
    Busy l e { L with regs := if r = 0 then L.regs else tset 0 L.regs r v } g s (setReg t l r v) := by
  unfold setReg
  split
  · exact h
  · exact busy_updL h (f := fun K => { K with regs := tset 0 K.regs r v }) fun _ => rfl

/-- A sound stored line is delivered as it is, its poison counted. -/
theorem busy_deliver (h : Busy l e L g s t) (n a : Nat) (p : Bool) {bad : Bool} (hb : bad = false) : ∃ u, deliver t l n a p bad = (u, p) ∧ Busy l e L g s u := by
  subst hb
  cases p
  · exact ⟨t, rfl, h⟩
  · exact ⟨_, rfl, busy_countL h 0x23 1⟩

/-- An injected flit goes to the router, or behind those the weir holds. -/
theorem busy_injectL (h : Busy l e L g s t) (j : Nat) (f : Flit) : Busy l e (injectedL (nowNs s) j [f] L) g s (injectL t l j f) := by
  have hheld : (getL t l).weirHeld = L.weirHeld := h.data Lantern.weirHeld fun _ => rfl
  have hlast : (getL t l).weirLast = L.weirLast := h.data Lantern.weirLast fun _ => rfl
  have hk : (getL t l).weirK = L.weirK := h.data Lantern.weirK fun _ => rfl
  have hlaunch : ∀ {L : Lantern} {t : State}, Busy l e L g s t → Busy l e { L with tx := L.tx ++ [(j, f)] } g s (launchL t l j f) :=
    fun h => busy_countL (busy_updL h (f := fun K => { K with tx := K.tx ++ [(j, f)] }) fun _ => rfl) _ 1
  simp only [injectL, injectedL, hheld, hlast, hk, h.nowNs]
  by_cases hc : f.cls = 0
  · cases hopen : (L.weirHeld.isEmpty && weirOpen L.weirLast L.weirK (nowNs s))
    · simp only [hc, if_true, Bool.false_eq_true, if_false, and_self]
      exact busy_updL h (f := fun K => { K with weirHeld := K.weirHeld ++ [(j, f)] }) fun _ => rfl
    · simp only [hc, if_true, Bool.true_eq_false, and_false, if_false]
      exact hlaunch (busy_updL h (f := fun K => { K with weirLast := some (nowNs s) }) fun _ => rfl)
  · simp only [hc, if_false, false_and]
    exact hlaunch h

/-- An update of a lantern that neither looks at nor changes its flits and its weir. -/
structure FlitFree (f : Lantern → Lantern) : Prop where
  tx : ∀ K, (f K).tx = K.tx
  weir : ∀ K, (f K).weirHeld = K.weirHeld ∧ (f K).weirLast = K.weirLast ∧ (f K).weirK = K.weirK
  held : ∀ K h, f { K with weirHeld := h } = { f K with weirHeld := h }
  sent : ∀ K x last, f { K with tx := x, weirLast := last } = { f K with tx := x, weirLast := last }

theorem injectedL_cons (now j : Nat) (x : Flit) (fs : List Flit) (L : Lantern) :
    injectedL now j (x :: fs) L = injectedL now j fs (injectedL now j [x] L) := rfl

theorem injectedL_update {f : Lantern → Lantern} (hf : FlitFree f) (now j : Nat) (fs : List Flit) :
    ∀ L : Lantern, injectedL now j fs (f L) = f (injectedL now j fs L) := by
  induction fs with
  | nil => exact fun _ => rfl
  | cons x fs ih =>
    intro L
    obtain ⟨hheld, hlast, hk⟩ := hf.weir L
    have hone : injectedL now j [x] (f L) = f (injectedL now j [x] L) := by
      refine (if_congr (by rw [hheld, hlast, hk]) rfl rfl).trans ?_
      unfold injectedL injectedL
      split
      · exact (congrArg (fun h => ({ f L with weirHeld := h ++ [(j, x)] } : Lantern)) hheld).trans (hf.held L _).symm
      · exact (congrArg₂ (fun sent last => ({ f L with tx := sent ++ [(j, x)], weirLast := if x.cls = 0 then some now else last } : Lantern)) (hf.tx L) hlast).trans
          (hf.sent L _ _).symm
    rw [injectedL_cons, hone, ih]
    rfl

/-- What looks neither at the flits nor at the weir is the same after flits are injected. -/
theorem injectedL_keeps {α : Type} (v : Lantern → α) (hheld : ∀ K h, v { K with weirHeld := h } = v K) (hsent : ∀ K x last, v { K with tx := x, weirLast := last } = v K)
    (now j : Nat) (fs : List Flit) : ∀ L : Lantern, v (injectedL now j fs L) = v L := by
  induction fs with
  | nil => exact fun _ => rfl
  | cons f fs ih =>
    intro L
    rw [injectedL, ih]
    split
    · exact hheld _ _
    · exact hsent _ _ _

theorem getQ_injectedL (now j : Nat) (fs : List Flit) (q : Nat) (L : Lantern) : Machine.getQ (injectedL now j fs L) q = Machine.getQ L q :=
  injectedL_keeps (Machine.getQ · q) (fun _ _ => rfl) (fun _ _ _ => rfl) now j fs L

end

/-- A lantern with Q as its queue q. -/
def withQueue (L : Lantern) (q : Nat) (Q : Queue) : Lantern := { L with queues := tset {} L.queues q Q }

theorem injectedL_withQueue (now j : Nat) (fs : List Flit) (L : Lantern) (q : Nat) (Q : Queue) :
    injectedL now j fs (withQueue L q Q) = withQueue (injectedL now j fs L) q Q :=
  injectedL_update (f := fun K => withQueue K q Q) ⟨fun _ => rfl, fun _ => ⟨rfl, rfl, rfl⟩, fun _ _ => rfl, fun _ _ _ => rfl⟩ now j fs L

theorem Queue.ne_unused {Q : Queue} (h : 0 < Q.depth) : Q ≠ {} := fun e => absurd h (by rw [e]; decide)

/-! ## The head line (05 R157) -/

/-- Line of the stored line i of queue q past its read point. -/
def queueAddr (L : Lantern) (q i : Nat) : Nat := (getQ L q).base + ((getQ L q).rd + BitVec.ofNat 32 i).toNat % (getQ L q).depth

/-- What is delivered of that line. -/
def delivered (L : Lantern) (q i : Nat) : PadLine :=
  ⟨(padAt L (queueAddr L q i)).data, true, (padAt L (queueAddr L q i)).poison, false, (padAt L (queueAddr L q i)).shadow⟩

/-- Queue q past n lines, the last of them its last-value register. -/
def headed (L : Lantern) (q n : Nat) : Queue :=
  { getQ L q with
    rd := (getQ L q).rd + BitVec.ofNat 32 n, last := (delivered L q (n - 1)).data, lastPoison := (delivered L q (n - 1)).poison }

/-- Queue q after its head line is delivered, and taken with pop. -/
def peeked (L : Lantern) (q : Nat) (pop : Bool) : Queue :=
  { getQ L q with
    rd := if pop then (getQ L q).rd + 1 else (getQ L q).rd, last := (delivered L q 0).data, lastPoison := (delivered L q 0).poison }

theorem queueAddr_zero (L : Lantern) (q : Nat) : queueAddr L q 0 = (getQ L q).base + (getQ L q).rd.toNat % (getQ L q).depth := by
  rw [queueAddr]
  exact congrArg (fun c : BitVec 32 => (getQ L q).base + c.toNat % (getQ L q).depth) (BitVec.add_zero _)

section
variable {l e q : Nat} {L : Lantern} {g : Engine} {s t : State}

/-- The head line is delivered and taken, or only delivered. -/
theorem queueHead_delivers (h : Busy l e L g s t) (hd : 0 < (getQ L q).depth) (hpar : (padAt L (queueAddr L q 0)).parBad = false) (pop : Bool) :
    ∃ u, queueHead l q t = (u, (delivered L q 0).data, (delivered L q 0).poison, (delivered L q 0).shadow)
      ∧ Busy l e (withQueue L q (peeked L q pop)) g s (if pop then advanceRd u l q else u) := by
  obtain ⟨u, hdeliver, hu⟩ := busy_deliver h 2 (queueAddr L q 0) (padAt L (queueAddr L q 0)).poison hpar
  have hhead := busy_updQ hu q (fun Q => { Q with last := (delivered L q 0).data, lastPoison := (delivered L q 0).poison })
  rw [queueAddr_zero] at hdeliver
  refine ⟨updQ u l q (fun Q => { Q with last := (delivered L q 0).data, lastPoison := (delivered L q 0).poison }), ?_, ?_⟩
  · simp only [queueHead, queueLine, h.getQ, h.padAt, hdeliver, delivered, queueAddr_zero]
  · cases pop
    · exact hhead
    · have hpop := busy_updQ hhead q (fun Q => { Q with rd := Q.rd + 1 })
      rw [show getQ { L with queues := tset {} L.queues q { getQ L q with last := (delivered L q 0).data, lastPoison := (delivered L q 0).poison } } q
        = { getQ L q with last := (delivered L q 0).data, lastPoison := (delivered L q 0).poison } from tget_tset_same _ _ _ _, tset_tset _ _ _ _ (Queue.ne_unused (by exact hd))] at hpop
      exact hpop

end

/-! ## RECV to lines -/

/-- A lantern with n lines of queue q delivered to the lines from a on. -/
def received (L : Lantern) (q a n : Nat) : Lantern :=
  { L with
    pad := putLines L.pad a ((List.range n).map (delivered L q)), queues := if n = 0 then L.queues else tset {} L.queues q (headed L q n) }

section
variable {L : Lantern} {q a n : Nat}

theorem getQ_received_one : getQ (received L q a 1) q = headed L q 1 := tget_tset_same _ _ _ _

theorem queueAddr_received_one (i : Nat) : queueAddr (received L q a 1) q i = queueAddr L q (i + 1) := by
  unfold queueAddr
  rw [getQ_received_one, headed, BitVec.add_assoc, ← BitVec.ofNat_add, Nat.add_comm 1 i]

theorem padAt_received_one {b : Nat} (h : b ≠ a) : padAt (received L q a 1) b = padAt L b := tget_tset_other _ _ _ h

theorem delivered_received_one {i : Nat} (h : queueAddr L q (i + 1) ≠ a) : delivered (received L q a 1) q i = delivered L q (i + 1) := by
  unfold delivered
  rw [queueAddr_received_one, padAt_received_one h]

theorem received_one_more (hd : 0 < (getQ L q).depth) (hapart : ∀ i, i < n + 1 → queueAddr L q i ≠ a) :
    received (received L q a 1) q (a + 1) n = received L q a (n + 1) := by
  have hlines : (List.range n).map (delivered (received L q a 1) q) = (List.range n).map (delivered L q ∘ Nat.succ) :=
    List.map_congr_left fun i hi => delivered_received_one (hapart (i + 1) (Nat.succ_lt_succ (List.mem_range.1 hi)))
  have hpad : putLines (received L q a 1).pad (a + 1) ((List.range n).map (delivered (received L q a 1) q))
      = putLines L.pad a ((List.range (n + 1)).map (delivered L q)) := by
    rw [hlines, List.range_succ_eq_map, List.map_cons, List.map_map]
    rfl
  rw [received, hpad]
  cases n with
  | zero => rfl
  | succ m =>
    have hheaded : headed (received L q a 1) q (m + 1) = headed L q (m + 2) := by
      rw [headed, getQ_received_one, Nat.add_sub_cancel, delivered_received_one (hapart (m + 1) (Nat.lt_succ_self _)), headed, headed, BitVec.add_assoc,
        ← BitVec.ofNat_add, Nat.add_comm 1 (m + 1)]
      rfl
    have hset : tset {} (received L q a 1).queues q (headed L q (m + 2)) = tset {} L.queues q (headed L q (m + 2)) :=
      tset_tset _ _ _ _ (Queue.ne_unused (by exact hd))
    rw [hheaded, if_neg (Nat.succ_ne_zero _), hset]
    rfl

end

section
variable {l e q d : Nat} {g : Engine} {s : State}

theorem runRecv_delivers (n : Nat) : ∀ {L : Lantern} {t : State} {i : Nat}, Busy l e L g s t → 0 < (getQ L q).depth →
    (∀ j, j < n → (padAt L (queueAddr L q j)).parBad = false) → n ≤ ((getQ L q).w - (getQ L q).rd).toNat → freeLines L (d + i) n →
    (∀ j, j < n → ∀ k, k < n → queueAddr L q j ≠ d + i + k) → ∃ u, runRecv l q d i n t = .done u ∧ Busy l e (received L q (d + i) n) g s u := by
  induction n with
  | zero => exact fun h _ _ _ _ _ => ⟨_, rfl, h⟩
  | succ n ih =>
    intro L t i h hd hpar hcount hfree hapart
    have hnonempty : queueEmpty (getL t l) q = false := by
      rw [queueEmpty, h.getQ, beq_eq_false_iff_ne]
      bv_omega
    have hat : (padAt (getL t l) (d + i)).full = false := by
      rw [h.padAt]
      exact hfree 0 (Nat.succ_pos _)
    have hfirst : ∀ j, j < n + 1 → queueAddr L q j ≠ d + i := fun j hj => hapart j hj 0 (Nat.succ_pos _)
    obtain ⟨u, hhead, hu⟩ := queueHead_delivers h hd (hpar 0 (Nat.succ_pos _)) true
    have hone : Busy l e (received L q (d + i) 1) g s (writePad (advanceRd u l q) l (d + i) (delivered L q 0).data (delivered L q 0).poison (delivered L q 0).shadow) :=
      busy_writePad hu (d + i) _ _ _
    obtain ⟨v, hrest, hv⟩ := ih (i := i + 1) hone (by rw [getQ_received_one]; exact hd)
      (fun j hj => by
        rw [queueAddr_received_one, padAt_received_one (hfirst (j + 1) (Nat.succ_lt_succ hj))]
        exact hpar (j + 1) (Nat.succ_lt_succ hj))
      (by
        rw [getQ_received_one, headed]
        bv_omega)
      (fun k hk => by
        rw [padAt_received_one (by omega), show d + (i + 1) + k = d + i + (k + 1) by omega]
        exact hfree (k + 1) (Nat.succ_lt_succ hk))
      (fun j hj k hk => by
        rw [queueAddr_received_one, show d + (i + 1) + k = d + i + (k + 1) by omega]
        exact hapart (j + 1) (Nat.succ_lt_succ hj) (k + 1) (Nat.succ_lt_succ hk))
    rw [← Nat.add_assoc, received_one_more hd hfirst] at hv
    refine ⟨v, ?_, hv⟩
    simp only [runRecv, hnonempty, hat, Bool.false_eq_true, if_false, hhead]
    exact hrest

end

/-! ## Delivery to a register (05 R160; 06 R177) -/

/-- A lantern whose register sd waits for an engine. -/
def awaiting (L : Lantern) (sd : Fin 32) : Lantern := { L with pending := sd :: L.pending }

section
variable {l e : Nat} {L : Lantern} {g : Engine} {s t : State} {i : Instr}

theorem busy_pushReg (hr : Runs l e i s) (sd : Fin 32) (op : EOp) : ∃ u, withRegs l [sd] (pushReg l e sd op i) (passed l s) = .done u
    ∧ Busy l e (awaiting (getL s l) sd) ⟨[issuedEntry (getL s l) i op], 0, 0⟩ s u := by
  refine ⟨_, ?_, busy_updL (busy_pushed hr op) (f := fun K => awaiting K sd) fun _ => rfl⟩
  rw [withRegs_free _ _ (by rw [getL_passed]; exact hr.takes.regs), pushReg, pushOp_passed hr op]
  rfl

/-- The register takes its value and no longer waits. -/
theorem busy_arrived (h : Busy l e (awaiting L sd) g s t) (v : Word) :
    Busy l e { L with regs := if sd = 0 then L.regs else tset 0 L.regs sd v } g s (setReg (updL t l (fun K => { K with pending := K.pending.erase sd })) l sd v) := by
  have herase : (awaiting L sd).pending.erase sd = L.pending := List.erase_cons_head ..
  have hpend := busy_updL h (f := fun K => { K with pending := K.pending.erase sd }) fun _ => rfl
  rw [herase] at hpend
  exact busy_setReg hpend sd v

theorem toScalar_arrives (h : Busy l e (awaiting L sd) g s t) (q : Nat) (x : Line) {p : Bool} (hp : p = false) :
    ∃ u, toScalar l q sd x p t = .done u ∧ Busy l e { L with regs := if sd = 0 then L.regs else tset 0 L.regs sd (x.setWidth 64) } g s u := by
  subst hp
  exact ⟨_, rfl, busy_arrived h _⟩

theorem runRecvReg_delivers {q : Nat} (h : Busy l e (awaiting L sd) g s t) (hd : 0 < (getQ L q).depth) (hpar : (padAt L (queueAddr L q 0)).parBad = false)
    (hsome : (getQ L q).rd ≠ (getQ L q).w) (hsound : (padAt L (queueAddr L q 0)).poison = false) :
    ∃ u, runRecvReg l q sd t = .done u ∧ Busy l e { withQueue L q (peeked L q true) with
      regs := if sd = 0 then L.regs else tset 0 L.regs sd ((delivered L q 0).data.setWidth 64) } g s u := by
  have hnonempty : queueEmpty (getL t l) q = false := by
    rw [queueEmpty, h.getQ, beq_eq_false_iff_ne]
    exact hsome
  obtain ⟨u, hhead, hu⟩ := queueHead_delivers h hd hpar true
  obtain ⟨v, hdone, hv⟩ := toScalar_arrives (L := withQueue L q (peeked L q true)) hu q (delivered L q 0).data hsound
  refine ⟨v, ?_, hv⟩
  simp only [runRecvReg, hnonempty, Bool.false_eq_true, if_false, hhead]
  exact hdone

end

/-- Settles O26: the head line delivered as often as asked for. -/
theorem queueReceive : Obligations.QueueReceive := by
  unfold Obligations.QueueReceive
  rintro l f s _ _ at' rfl hdepth rfl hat hr hpar
  obtain rfl : at' = fun i => padAt (getL s l) (queueAddr (getL s l) f.qn.val i) := funext hat
  refine ⟨fun hreg hcount hrange hfree hapart => ?_, fun hreg hsome hsound => ?_⟩
  · have htry : tryRecv l f (passed l s) = pushOp l 5 (.recv f.qn.val f.line.toNat (f.n.toNat + 1) 0) (.recv l f) (passed l s) := by
      rw [tryRecv, hreg]
      exact checked_pass _ _ (passes_cons (lineCheck_passes hrange) passes_nil)
    exact exec_engine (M := received (getL s l) f.qn.val f.line.toNat (f.n.toNat + 1)) (exec_recv l f s) hr htry
      (finishes_act (by decide) rfl fun t ht => runRecv_delivers (i := 0) _ ht hdepth hpar hcount hfree fun j hj k hk => (hapart j hj k hk).symm)
  · obtain ⟨u, htry, hu⟩ := busy_pushReg hr f.sd (.recvReg f.qn.val f.sd)
    have hpoison : peeked (getL s l) f.qn.val true = { peeked (getL s l) f.qn.val true with lastPoison := false } := by
      rw [peeked, show (delivered (getL s l) f.qn.val 0).poison = false from hsound]
    obtain ⟨v, hexec, hv⟩ := exec_becomes (exec_recv l f s) hr (by rw [tryRecv, hreg]; exact htry) hu
      (finishes_act (by decide) rfl fun t ht => runRecvReg_delivers ht hdepth (hpar 0 (Nat.succ_pos _)) hsome hsound)
    refine ⟨v, hexec, ?_⟩
    rw [hpoison] at hv
    exact hv

/-! ## QPEEK and QPOP -/

/-- A line on its way to a line of the scratchpad, or to a register. -/
def placed (l q d : Nat) (reg : Bool) (sd : Fin 32) (x : PadLine) (t : State) : EngTry :=
  if reg then toScalar l q sd x.data x.poison t else .done (writePad t l d x.data x.poison x.shadow)

/-- The last-value register of queue q, as a line. -/
def lastValue (L : Lantern) (q : Nat) : PadLine := ⟨(getQ L q).last, true, (getQ L q).lastPoison, false, 0xA⟩

section
variable {l e q d : Nat} {L : Lantern} {g : Engine} {s t : State} {reg : Bool} {sd : Fin 32} (h : Busy l e L g s t)
  (hfree : reg = false → (padAt L d).full = false)
include h hfree

theorem peek_place_free : (!reg && (padAt (getL t l) d).full) = false := by
  cases reg
  · rw [h.padAt, hfree rfl]
    rfl
  · rfl

theorem runPeek_head (pop : Bool) (hd : 0 < (getQ L q).depth) (hpar : (padAt L (queueAddr L q 0)).parBad = false) (hsome : (getQ L q).rd ≠ (getQ L q).w) :
    ∃ u, runPeek l q d reg sd pop t = placed l q d reg sd (delivered L q 0) u ∧ Busy l e (withQueue L q (peeked L q pop)) g s u := by
  obtain ⟨u, hhead, hu⟩ := queueHead_delivers h hd hpar pop
  refine ⟨_, ?_, hu⟩
  simp only [runPeek, peek_place_free h hfree, Bool.false_eq_true, if_false, h.getQ, hsome, hhead]
  rfl

theorem runPeek_last (pop : Bool) (hnone : (getQ L q).rd = (getQ L q).w) :
    ∃ u, runPeek l q d reg sd pop t = placed l q d reg sd (lastValue L q) u ∧ Busy l e (withQueue L q { getQ L q with underrun := true }) g s u := by
  refine ⟨_, ?_, busy_countL (busy_updQ h q (fun Q => { Q with underrun := true })) 0x24 1⟩
  simp only [runPeek, peek_place_free h hfree, Bool.false_eq_true, if_false, h.getQ, hnone, if_true]
  rfl

end

section
variable {l : Nat} {f : FmtQ} {s : State} {pop : Bool} {i : Instr}

/-- What QPEEK and QPOP leave, of line x shown and queue Q as it then is. -/
def shown (L : Lantern) (f : FmtQ) (x : PadLine) (Q : Queue) : Lantern :=
  { withQueue L f.qn.val Q with
    pad := if f.reg then L.pad else tset {} L.pad f.line.toNat ⟨x.data, true, x.poison, false, x.shadow⟩,
    regs := if f.reg = false ∨ f.sd = 0 then L.regs else tset 0 L.regs f.sd.val (x.data.setWidth 64) }

/-- The operation of QPEEK or QPOP. -/
def peekOp (f : FmtQ) (pop : Bool) : EOp := .qpeek f.qn.val f.line.toNat f.reg f.sd pop

theorem exec_peek_issues (hi : i = .qpeek l f ∧ pop = false ∨ i = .qpop l f ∧ pop = true) :
    exec i s = guarded (lanternOk l) (issueTo l 5 i (tryPeek l f pop i) s) := by
  rcases hi with ⟨rfl, rfl⟩ | ⟨rfl, rfl⟩ <;> rfl

/-- The line that the queue shows reaches its place. -/
theorem exec_peek_shows {x : PadLine} {Q : Queue} (hi : i = .qpeek l f ∧ pop = false ∨ i = .qpop l f ∧ pop = true) (hr : Runs l 5 i s)
    (hline : f.reg = false → rangeOk (getL s l) f.line.toNat 1 = true) (hx : f.reg = false ∨ x.poison = false)
    (hrun : ∀ {L : Lantern} {g : Engine} {t : State}, (∃ p, L = { getL s l with pending := p }) → Busy l 5 L g s t →
      ∃ u, runPeek l f.qn.val f.line.toNat f.reg f.sd pop t = placed l f.qn.val f.line.toNat f.reg f.sd x u ∧ Busy l 5 (withQueue L f.qn.val Q) g s u) :
    ∃ t, exec i s = .next t ∧ Became l 5 (shown (getL s l) f x Q) s t := by
  have hexec := exec_peek_issues (s := s) hi
  cases hreg : f.reg
  · have htry : tryPeek l f pop i (passed l s) = pushOp l 5 (peekOp f pop) i (passed l s) := by
      rw [tryPeek, peekOp, hreg]
      exact checked_pass _ _ (passes_cons (lineCheck_passes (hline hreg)) passes_nil)
    refine exec_engine hexec hr htry (finishes_act (by decide) rfl fun t ht => ?_)
    obtain ⟨u, hshow, hu⟩ := hrun ⟨_, rfl⟩ ht
    have hput := busy_writePad hu f.line.toNat x.data x.poison x.shadow
    rw [shown, hreg]
    refine ⟨_, ?_, hput⟩
    exact hshow.trans (by rw [placed, hreg]; rfl)
  · obtain ⟨u, htry, hu⟩ := busy_pushReg hr f.sd (peekOp f pop)
    refine exec_becomes hexec hr (by rw [tryPeek, hreg]; rw [peekOp, hreg] at htry; exact htry) hu (finishes_act (by decide) rfl fun t ht => ?_)
    obtain ⟨v, hshow, hv⟩ := hrun ⟨_, rfl⟩ ht
    obtain ⟨z, hdone, hz⟩ := toScalar_arrives (L := withQueue (getL s l) f.qn.val Q) hv f.qn.val x.data (hx.resolve_left (by rw [hreg]; decide))
    rw [shown, hreg]
    refine ⟨z, ?_, ?_⟩
    · exact hshow.trans (by rw [placed, hreg]; exact hdone)
    · simp only [Bool.true_eq_false, false_or, if_true]
      exact hz

end

/-- Settles O27: the head line, or the last-value register, shown at its place. -/
theorem queuePeek : Obligations.QueuePeek := by
  unfold Obligations.QueuePeek
  rintro l f s _ _ rfl hdepth rfl hpar hplace pop i hi hr
  rw [← queueAddr_zero] at hpar ⊢
  refine ⟨fun hsome hx => ?_, fun hnone hx => ?_⟩
  · refine exec_peek_shows (x := delivered (getL s l) f.qn.val 0) (Q := peeked (getL s l) f.qn.val pop) hi hr (fun hreg => (hplace hreg).1) hx ?_
    rintro _ g t ⟨p, rfl⟩ ht
    exact runPeek_head ht (fun hreg => (hplace hreg).2) pop hdepth hpar hsome
  · refine exec_peek_shows (x := lastValue (getL s l) f.qn.val) (Q := { getQ (getL s l) f.qn.val with underrun := true }) hi hr (fun hreg => (hplace hreg).1) hx ?_
    rintro _ g t ⟨p, rfl⟩ ht
    exact runPeek_last ht (fun hreg => (hplace hreg).2) pop hnone

/-! ## QMARK, QREWIND, QREL and QSTAT -/

section
variable {l q : Nat} {L : Lantern} {g : Engine} {s t : State}

/-- Credits of the lines that QREL releases. -/
def releasedCredits (l : Nat) (L : Lantern) (q : Nat) : List Flit :=
  if (getQ L q).rd = (getQ L q).l then [] else [creditFlit l (getQ L q).cls (getQ L q).producer 0 q ((getQ L q).rd - (getQ L q).l).toNat]

theorem runQrel_releases {e : Nat} (h : Busy l e L g s t) : ∃ u, runQrel l q t = .done u
    ∧ Busy l e (injectedL (nowNs s) 5 (releasedCredits l L q) (withQueue L q { getQ L q with l := (getQ L q).rd, markV := false })) g s u := by
  have hcount : ((getQ L q).rd - (getQ L q).l).toNat = 0 ↔ (getQ L q).rd = (getQ L q).l := by bv_omega
  have hsent : Busy l e (injectedL (nowNs s) 5 (releasedCredits l L q) L) g s (if ((getQ L q).rd - (getQ L q).l).toNat = 0 then t
      else injectL t l 5 (creditFlit l (getQ L q).cls (getQ L q).producer 0 q ((getQ L q).rd - (getQ L q).l).toNat)) := by
    unfold releasedCredits
    simp only [hcount]
    split
    · exact h
    · exact busy_injectL h 5 _
  have hset := busy_updQ hsent q (fun Q => { Q with l := Q.rd, markV := false })
  rw [getQ_injectedL] at hset
  refine ⟨_, rfl, ?_⟩
  rw [injectedL_withQueue]
  simp only [h.getQ]
  exact hset

theorem runQstat_writes {e : Nat} {sd : Fin 32} (h : Busy l e (awaiting L sd) g s t) (clr : Bool) : ∃ u, runQstat l q sd clr t = .done u
    ∧ Busy l e { L with
      regs := if sd = 0 then L.regs else tset 0 L.regs sd (queueStatus L q),
      queues := if clr then tset {} L.queues q { getQ L q with underrun := false } else L.queues } g s u := by
  have hword : queueStatus (getL t l) q = queueStatus L q := h.data (queueStatus · q) fun _ => rfl
  have hput := busy_arrived h (queueStatus L q)
  rw [runQstat, hword]
  cases clr
  · exact ⟨_, rfl, hput⟩
  · exact ⟨_, rfl, busy_updQ hput q (fun Q => { Q with underrun := false })⟩

end

/-- Settles O28: each pointer moved, the credits injected, the status word written. -/
theorem queueMarks : Obligations.QueueMarks := by
  unfold Obligations.QueueMarks
  rintro l f s _ rfl
  refine ⟨fun hr => ?_, fun hr => ?_, fun hr => ?_, ?_⟩
  · exact exec_engine (exec_qmark l f s) hr rfl (finishes_act (by decide) rfl fun t ht => ⟨_, rfl, busy_updQ ht _ (fun Q => { Q with m := Q.rd, markV := true })⟩)
  · exact exec_engine (exec_qrewind l f s) hr rfl
      (finishes_act (by decide) rfl fun t ht => ⟨_, rfl, busy_updQ ht _ (fun Q => { Q with rd := if Q.markV then Q.m else Q.l })⟩)
  · exact exec_engine (exec_qrel l f s) hr rfl (finishes_act (by decide) rfl fun t ht => runQrel_releases ht)
  · rintro _ hr rfl
    obtain ⟨u, htry, hu⟩ := busy_pushReg hr f.sd (.qstat f.qn.val f.sd f.clr)
    exact exec_becomes (exec_qstat l f s) hr htry hu (finishes_act (by decide) rfl fun t ht => runQstat_writes ht f.clr)

end Sys2Proof.QueueRun
end

section
/-!
PROOFS. The send unit (05 R144, R149 to R151, R156; 06 Table 6-3): strided reads, taken or kept, copied, transposed or sent; lines emptied.
-/

open Sys2Proof Sys2Proof.Machine

namespace Sys2Proof.SendRun

open Sys2Proof.Reports Sys2Proof.ArrayIssue Sys2Proof.EngineRun Sys2Proof.WideRun Sys2Proof.QueueRun

/-! ## A strided read -/

/-- A scratchpad after one line is read, emptied by TAKE. -/
def taken (take : Bool) (m : SMap PadLine) (a : Nat) : SMap PadLine := if take then tset {} m a {} else m

theorem taken_true (m : SMap PadLine) (a : Nat) : taken true m a = tset {} m a {} := if_pos rfl

theorem tget_taken_other (take : Bool) (m : SMap PadLine) {a b : Nat} (h : b ≠ a) : tget {} (taken take m a) b = tget {} m b := by
  unfold taken
  split
  · exact tget_tset_other _ _ _ h
  · rfl

theorem takenLines_cons (take : Bool) (a : Nat) (as : List Nat) (m : SMap PadLine) : takenLines take (a :: as) m = takenLines take as (taken take m a) := by
  unfold takenLines taken
  split
  · rw [List.foldl_cons]
  · rfl

theorem takenLines_nil (take : Bool) (m : SMap PadLine) : takenLines take [] m = m := by rw [takenLines, List.foldl_nil, ite_self]

theorem takenLines_free (take : Bool) {b : Nat} (as : List Nat) :
    ∀ {m : SMap PadLine}, (tget {} m b).full = false → (tget {} (takenLines take as m) b).full = false := by
  induction as with
  | nil =>
    intro m h
    rw [takenLines_nil]
    exact h
  | cons a as ih =>
    intro m h
    rw [takenLines_cons]
    refine ih ?_
    by_cases hab : b = a
    · subst hab
      cases take
      · exact h
      · rw [taken, if_pos rfl, tget_tset_same]
    · rw [tget_taken_other take m hab]
      exact h

theorem strided_ne {st i k : Nat} (a : Nat) (hst : 1 ≤ st) (h : i ≠ k) : a + i * st ≠ a + k * st := fun e =>
  h (Nat.eq_of_mul_eq_mul_right hst (Nat.add_left_cancel e))

theorem strided_nodup {st : Nat} (a n : Nat) (hst : 1 ≤ st) : (strided a st n).Nodup :=
  List.nodup_range.map fun _ _ e => by_contra fun h => strided_ne a hst h e

theorem strideCheck_passes {l a st n : Nat} {s : State} (h : ∀ i, i < n → rangeOk (getL s l) (a + i * st) 1 = true) :
    (strideCheck (getL (passed l s) l) a st n).1 = true := by
  rw [getL_passed]
  exact List.all_eq_true.2 fun i hi => h i (List.mem_range.1 hi)

section
variable {l e : Nat} {L : Lantern} {g : Engine} {s t : State}

/-- An update of the scratchpad alone. -/
theorem dataOnly_pad (f : SMap PadLine → SMap PadLine) : DataOnly (fun K => { K with pad := f K.pad }) := fun _ => rfl

theorem busy_emptied (h : Busy l e L g s t) (a : Nat) : Busy l e { L with pad := tset {} L.pad a {} } g s (updL t l (fun K => { K with pad := tset {} K.pad a {} })) :=
  busy_updL h (dataOnly_pad fun m => tset {} m a {})

theorem busy_readPad (h : Busy l e L g s t) {a : Nat} (hb : (padAt L a).parBad = false) (take : Bool) :
    ∃ u, readPad t l a take = (u, (padAt L a).data, (padAt L a).poison) ∧ Busy l e { L with pad := taken take L.pad a } g s u := by
  obtain ⟨u, hdeliver, hu⟩ := busy_deliver h 0 a (padAt L a).poison hb
  unfold readPad
  simp only [h.padAt, hdeliver]
  cases take
  · exact ⟨u, rfl, hu⟩
  · rw [taken_true, if_pos rfl]
    exact ⟨_, rfl, busy_emptied hu a⟩

/-- The hazard detector at a line that is still as it was at s. -/
theorem busy_hazard_one (h : Busy l e L g s t) {a : Nat} (hat : padAt L a = padAt (getL s l) a) (ty : Nat) : hazard t l a 1 ty = hazard s l a 1 ty := by
  have hpad : padAt (getL t l) (a + 0) = padAt (getL s l) (a + 0) := (h.padAt a).trans hat
  unfold hazard
  simp only [h.follows.part, h.follows.debugOn, List.range_one, List.map_cons, List.map_nil, List.find?_cons, List.find?_nil, hpad]

theorem gather_takes (take : Bool) (ty : Nat) (as : List Nat) : ∀ {L : Lantern} {t : State}, Busy l e L g s t → as.Nodup → (∀ a ∈ as, padAt L a = padAt (getL s l) a) →
    (∀ a ∈ as, (padAt (getL s l) a).full = true ∧ (padAt (getL s l) a).parBad = false ∧ hazard s l a 1 ty = none) →
    ∃ u, gather l (as.map (fun a => ⟨a, take, some ty⟩)) t = (u, as.map (fun a => ((padAt (getL s l) a).data, (padAt (getL s l) a).poison)), .all)
      ∧ Busy l e { L with pad := takenLines take as L.pad } g s u := by
  induction as with
  | nil =>
    intro L t h _ _ _
    refine ⟨t, rfl, ?_⟩
    rw [takenLines_nil]
    exact h
  | cons a as ih =>
    intro L t h hnodup hsame hsound
    obtain ⟨hnot, hrest⟩ := List.nodup_cons.1 hnodup
    obtain ⟨hat, hsames⟩ := List.forall_mem_cons.1 hsame
    obtain ⟨⟨hfull, hpar, hclear⟩, hsounds⟩ := List.forall_mem_cons.1 hsound
    obtain ⟨u, hread, hu⟩ := busy_readPad h (a := a) (by rw [hat]; exact hpar) take
    obtain ⟨v, hgather, hv⟩ := ih hu hrest
      (fun b hb => (show padAt { L with pad := taken take L.pad a } b = padAt L b from tget_taken_other take L.pad fun e => hnot (e ▸ hb)).trans (hsames b hb)) hsounds
    refine ⟨v, ?_, ?_⟩
    · simp only [List.map_cons, gather, h.padAt, hat, hfull, Option.bind_some, busy_hazard_one h hat, hclear, hread, hgather, Bool.not_true, Bool.false_eq_true,
        if_false]
    · rw [takenLines_cons]
      exact hv

end

/-! ## COPY (05 R149) -/

section
variable {l e a st d : Nat} {take : Bool} {g : Engine} {s : State}

/-- A lantern with line a copied to line b. -/
def copied (take : Bool) (a b : Nat) (L : Lantern) : Lantern :=
  { L with
    pad := tset {} (taken take L.pad a) b ⟨(padAt L a).data, true, (padAt L a).poison, false, (padAt L a).shadow⟩ }

theorem padAt_copied_other (take : Bool) {a b c : Nat} (L : Lantern) (ha : c ≠ a) (hb : c ≠ b) : padAt (copied take a b L) c = padAt L c :=
  (tget_tset_other _ _ _ hb).trans (tget_taken_other take L.pad ha)

theorem runCopy_copies (hst : 1 ≤ st) (n : Nat) : ∀ {L : Lantern} {t : State} {i : Nat}, Busy l e L g s t →
    (∀ k ∈ List.range' i n, (padAt L (a + k * st)).full = true ∧ (padAt L (a + k * st)).parBad = false) → (∀ k ∈ List.range' i n, (padAt L (d + k)).full = false) →
    ∃ u, runCopy l a st d take i n t = .done u ∧ Busy l e { L with pad := copiedLines a st d take i n L.pad } g s u := by
  induction n with
  | zero => exact fun h _ _ => ⟨_, rfl, h⟩
  | succ n ih =>
    intro L t i h hsound hfree
    rw [List.range'_succ] at hsound hfree
    obtain ⟨⟨hfull, hpar⟩, hsounds⟩ := List.forall_mem_cons.1 hsound
    obtain ⟨hplace, hfrees⟩ := List.forall_mem_cons.1 hfree
    have hlater : ∀ k ∈ List.range' (i + 1) n, i ≠ k := fun k hk => Nat.ne_of_lt (List.mem_range'_1.1 hk).1
    have happart : ∀ {b c : Nat}, (padAt L b).full = true → (padAt L c).full = false → b ≠ c := fun hb hc e => by
      rw [e, hc] at hb
      exact absurd hb (by decide)
    obtain ⟨u, hread, hu⟩ := busy_readPad h hpar take
    have hput : Busy l e (copied take (a + i * st) (d + i) L) g s (writePad u l (d + i) (padAt L (a + i * st)).data (padAt L (a + i * st)).poison (padAt L (a + i * st)).shadow) :=
      busy_writePad hu (d + i) _ _ _
    obtain ⟨v, hcopy, hv⟩ := ih (i := i + 1) hput
      (fun k hk => by
        rw [padAt_copied_other take L (strided_ne a hst (hlater k hk)).symm (happart (hsounds k hk).1 hplace)]
        exact hsounds k hk)
      (fun k hk => by
        rw [padAt_copied_other take L (happart hfull (hfrees k hk)).symm fun e => hlater k hk (Nat.add_left_cancel e).symm]
        exact hfrees k hk)
    refine ⟨v, ?_, hv⟩
    simp only [runCopy, h.padAt, hfull, hplace, Bool.not_true, Bool.false_and, Bool.false_eq_true, if_false, hread]
    exact hcopy

end

section
variable {l : Nat} {f : FmtL} {s : State} {w : Word} {a st n d : Nat} {take : Bool}

/-- What the send unit's instructions with a strided read name in SC. -/
structure Strides (l : Nat) (f : FmtL) (s : State) (w : Word) (a st : Nat) (take : Bool) : Prop where
  sc : w = getReg (getL s l) f.sc
  first : a = f.a.toNat + w.toNat / 2 ^ 48
  stride : st = w.toNat % 2 ^ 12
  low : 1 ≤ st
  takes : take = f.f.getLsbD 0

theorem exec_copy_copies (hr : Runs l 4 (.copy l f) s) (h : Strides l f s w a st take) (hn : n = w.toNat / 2 ^ 12 % 2 ^ 8 + 1) (hz : w.toNat % 2 ^ 48 < 2 ^ 20)
    (hd : d = f.d.toNat + w.toNat / 2 ^ 48) (hsound : stridedSound (getL s l) a st n) (hrange : rangeOk (getL s l) d n = true) (hfree : freeLines (getL s l) d n) :
    ∃ t, exec (.copy l f) s = .next t ∧ Became l 4 { getL s l with pad := copiedLines a st d take 0 n (getL s l).pad } s t := by
  have htry : tryCopy l f (passed l s) = pushOp l 4 (.copy a st n d 0 take) (.copy l f) (passed l s) := by
    obtain ⟨rfl, rfl, hst, hlo, rfl⟩ := h
    rw [← bitsAt_zero] at hst
    subst hst hn hd
    exact withSc_passes hr.takes (passes_cons (scZero_passes hz) <| passes_cons (paramCheck_passes hlo (Nat.le_of_lt_succ (Nat.mod_lt _ (by decide)))) <|
      passes_cons (strideCheck_passes fun i hi => (hsound i hi).1) <| passes_cons (lineCheck_passes hrange) passes_nil)
  refine exec_engine (exec_copy l f s) hr htry (finishes_act (by decide) rfl fun t ht => ?_)
  have hin : ∀ k ∈ List.range' 0 n, k < n := fun k hk => by
    have := (List.mem_range'_1.1 hk).2
    omega
  exact runCopy_copies h.low n ht (fun k hk => (hsound k (hin k hk)).2) fun k hk => hfree k (hin k hk)

/-! ## TRD (05 R150, R151) -/

/-- The result lines of TRD from its r source lines. -/
def transposed (i8 : Bool) (r off : Nat) (xs : List (Line × Bool)) : List (Line × Bool) :=
  (chunks 4 (r * r / cellElems (if i8 then 2 else 1) / 4) ((List.range (r * r / cellElems (if i8 then 2 else 1))).map (fun c =>
    tileCell (if i8 then 2 else 1) ((List.range (cellElems (if i8 then 2 else 1))).map (fun i =>
      tileElem (if i8 then 2 else 1) off xs ((c * cellElems (if i8 then 2 else 1) + i) % r) ((c * cellElems (if i8 then 2 else 1) + i) / r)))))).map
    (fun c => (BitVec.ofNat 544 (natOfDigits 136 (c.map (·.1))), xs.any (·.2)))

theorem length_transposed (i8 : Bool) (r off : Nat) (xs : List (Line × Bool)) : (transposed i8 r off xs).length = r * r / (if i8 then 64 else 128) := by
  rw [transposed, List.length_map, length_chunks, Nat.div_div_eq_div_mul]
  cases i8 <;> rfl

theorem runTrd_emits {e : Nat} {L : Lantern} {g : Engine} {t : State} (h : Busy l e L g s t) (big i8 : Bool) (off : Nat) (xs : List (Line × Bool)) :
    ∃ u, runTrd l d big i8 off xs t = .more (.emit d (resultLines (transposed i8 (if big then 32 else 16) off xs) (if i8 then 2 else 1))) u ∧ Busy l e L g s u :=
  ⟨_, rfl, busy_countL (busy_countL h 0x25 _) 0x2B _⟩

theorem exec_trd_transposes {r off : Nat} {big i8 : Bool} (hr : Runs l 4 (.trd l f) s) (h : Strides l f s w a st take) (hz : w.toNat % 2 ^ 48 < 2 ^ 21)
    (hd : d = f.d.toNat + w.toNat / 2 ^ 48) (hbig : big = w.getLsbD 12) (hrows : r = if big then 32 else 16) (hi8 : i8 = w.getLsbD 13)
    (hoff : off = w.toNat / 2 ^ 14 % 2 ^ 7) (hmod : off % r = 0) (hfit : off + r ≤ if i8 then 64 else 128) (hsound : stridedSound (getL s l) a st r)
    (hclear : ∀ i, i < r → hazard s l (a + i * st) 1 (if i8 then 2 else 1) = none) (hrange : rangeOk (getL s l) d (r * r / if i8 then 64 else 128) = true)
    (hfree : freeLines (getL s l) d (r * r / if i8 then 64 else 128)) :
    ∃ t, exec (.trd l f) s = .next t ∧ Became l 4 (wrote { getL s l with pad := takenLines take (strided a st r) (getL s l).pad } d
      (resultLines (transposed i8 r off (stridedAt (getL s l) a st r)) (if i8 then 2 else 1))) s t := by
  have htry : tryTrd l f (passed l s) = pushOp l 4 (.trd a d st big i8 off take) (.trd l f) (passed l s) := by
    obtain ⟨rfl, rfl, hst, hlo, rfl⟩ := h
    rw [← bitsAt_zero] at hst
    subst hst hd hbig hi8 hoff hrows
    exact withSc_passes hr.takes (passes_cons (scZero_passes hz) <| passes_cons (paramCheck_passes hlo (Nat.le_of_lt_succ (Nat.mod_lt _ (by decide)))) <|
      passes_cons (beq_iff_eq.2 hmod) <| passes_cons (paramCheck_passes (Nat.zero_le _) hfit) <|
      passes_cons (strideCheck_passes fun i hi => (hsound i hi).1) <| passes_cons (lineCheck_passes hrange) passes_nil)
  have hlines : ∀ b ∈ strided a st r, (padAt (getL s l) b).full = true ∧ (padAt (getL s l) b).parBad = false ∧ hazard s l b 1 (if i8 then 2 else 1) = none := by
    intro b hb
    obtain ⟨i, hi, rfl⟩ := List.mem_map.1 hb
    obtain ⟨-, hfull, hpar⟩ := hsound i (List.mem_range.1 hi)
    exact ⟨hfull, hpar, hclear i (List.mem_range.1 hi)⟩
  refine exec_engine (exec_trd l f s) hr htry (finishes_more (by decide) (fun t ht => ?_) (finishes_emit (by decide) rfl ?_))
  · obtain ⟨v, hread, hv⟩ := gather_takes take _ _ ht (strided_nodup a r h.low) (fun _ _ => rfl) hlines
    have hxs : (strided a st r).map (fun b => ((padAt (getL s l) b).data, (padAt (getL s l) b).poison)) = stridedAt (getL s l) a st r := List.map_map
    rw [hxs] at hread
    subst hrows
    obtain ⟨u, hmore, hu⟩ := runTrd_emits (d := d) hv big i8 off (stridedAt (getL s l) a st (if big then 32 else 16))
    exact ⟨v, _, u, hread, hmore, hu⟩
  · rw [length_resultLines, length_transposed]
    exact fun i hi => takenLines_free take _ (hfree i hi)

end

/-! ## SEND (05 R156) -/

section
variable {l e : Nat} {L : Lantern} {g : Engine} {s t : State}

/-- Destinations of a partition look at its rectangle and its grants (04 R122). -/
theorem busy_slDestOk (h : Busy l e L g s t) {ent : Nat} (hd : (Machine.getSl L ent).dest = (Machine.getSl (getL s l) ent).dest) : slDestOk t l ent = slDestOk s l ent := by
  have hdest : ∀ pn d, destOk t pn d = destOk s pn d := by
    intro pn d
    unfold destOk
    rcases Option.eq_none_or_eq_some (getPart s pn) with hp | ⟨p, hp⟩
    · simp only [hp, h.follows.getPart_none hp]
    · obtain ⟨q, hq, hqp⟩ := h.follows.getPart_some hp
      have hrect : inRect q = inRect p := same_of_blank uncounted inRect (fun _ => rfl) hqp
      have hgrant : granted q = granted p := same_of_blank uncounted granted (fun _ => rfl) hqp
      simp only [hp, hq, hrect, hgrant]
  unfold slDestOk
  simp only [h.follows.part, h.getSl, hd, hdest]

/-- Credits that perturbation withholds are a matter of the partition's settings (13 R405). -/
theorem busy_withheld (h : Busy l e L g s t) (ent : Nat) : withheld t l ent = withheld s l ent := by
  unfold withheld
  rw [h.follows.part]
  rcases Option.eq_none_or_eq_some (getPart s ((partOf s l).getD 16)) with hp | ⟨p, hp⟩
  · simp only [hp, h.follows.getPart_none hp]
  · obtain ⟨q, hq, hqp⟩ := h.follows.getPart_some hp
    have hcredit : q.pcreditOn = p.pcreditOn := same_of_blank uncounted Partition.pcreditOn (fun _ => rfl) hqp
    simp only [hp, hq, hcredit]

/-- Flit i of tot that SEND makes of line x through sluice entry E. -/
def sentFlit (l : Nat) (E : Sluice) (fmt tot : Nat) (x : PadLine) (i : Nat) : Flit :=
  mkFlit l E.cls E.dest (if E.kind = 0 then 0 else 4) E.num fmt (decide (1 < tot) && decide (i + 1 = tot)) x.poison x.data

/-- Sluice entry E with n credits used. -/
def spent (E : Sluice) (n : Nat) : Sluice := { E with credits := E.credits - n }

/-- A lantern that has sent n flits fs of lines as through sluice entry ent. -/
def sent (now : Nat) (take : Bool) (ent n : Nat) (as : List Nat) (fs : List Flit) (L : Lantern) : Lantern :=
  injectedL now 4 fs { L with
    pad := takenLines take as L.pad, sluices := if n = 0 then L.sluices else tset {} L.sluices ent (spent (Machine.getSl L ent) n) }

/-- One flit of an entry with a credit. -/
theorem sendFlits_one (h : Busy l 4 L g s t) {ent : Nat} (hc : 0 < (Machine.getSl L ent).credits - withheld s l ent) (hp : (Machine.getSl L ent).poisonNext = false)
    (fmt tot : Nat) (x : PadLine) (i : Nat) : ∃ u, sendFlits l 4 ent [sentFlit l (Machine.getSl L ent) fmt tot x i] t = .done u
      ∧ Busy l 4 (injectedL (Machine.nowNs s) 4 [sentFlit l (Machine.getSl L ent) fmt tot x i] { L with
        sluices := tset {} L.sluices ent (spent (Machine.getSl L ent) 1) }) g s u := by
  have hspent : { spent (Machine.getSl L ent) 1 with poisonNext := false } = spent (Machine.getSl L ent) 1 := by
    rw [spent, ← hp]
  have hset : Busy l 4 { L with sluices := tset {} L.sluices ent (spent (Machine.getSl L ent) 1) } g s
      (updSl t l ent (fun E => { E with credits := E.credits - 1, poisonNext := false })) := by
    rw [← hspent]
    exact busy_updL h (f := fun K => { K with sluices := tupd {} K.sluices ent (fun E => { E with credits := E.credits - 1, poisonNext := false }) }) fun _ => rfl
  refine ⟨_, ?_, busy_injectL hset 4 _⟩
  have hleft : creditsLeft t l ent ≠ 0 := by
    rw [creditsLeft, h.getSl, busy_withheld h]
    omega
  simp only [sendFlits, hleft, if_false, h.getSl, hp, Bool.or_false]
  rfl

end

theorem sent_nil (now : Nat) (take : Bool) (ent : Nat) (L : Lantern) : sent now take ent 0 [] [] L = L := by
  rw [sent, takenLines_nil]
  rfl

/-- Entry ent with one credit used, and a line taken. -/
def sentOne (take : Bool) (ent a : Nat) (L : Lantern) : Lantern :=
  { L with
    pad := taken take L.pad a, sluices := tset {} L.sluices ent (spent (getSl L ent) 1) }

theorem getSl_sentOne (take : Bool) (ent a : Nat) (L : Lantern) : getSl (sentOne take ent a L) ent = spent (getSl L ent) 1 := tget_tset_same _ _ _ _

theorem sent_sentOne {now ent n a : Nat} {take : Bool} {as : List Nat} {fs : List Flit} {L : Lantern} (hn : n < (getSl L ent).credits) :
    sent now take ent n as fs (sentOne take ent a L) = sent now take ent (n + 1) (a :: as) fs L := by
  have hsluices : (if n = 0 then (sentOne take ent a L).sluices else tset {} (sentOne take ent a L).sluices ent (spent (getSl (sentOne take ent a L) ent) n))
      = tset {} L.sluices ent (spent (getSl L ent) (n + 1)) := by
    cases n with
    | zero => rfl
    | succ m =>
      have hused : spent (getSl L ent) 1 ≠ {} := fun e => by
        have hzero : (getSl L ent).credits - 1 = 0 := congrArg Sluice.credits e
        omega
      have htwice : spent (spent (getSl L ent) 1) (m + 1) = spent (getSl L ent) (m + 2) := by
        rw [spent, spent, spent, Nat.sub_sub, Nat.add_comm 1 (m + 1)]
      rw [if_neg (Nat.succ_ne_zero m), getSl_sentOne, htwice]
      exact tset_tset _ _ _ _ hused
  rw [sent, sent, hsluices, takenLines_cons]
  rfl

/-- Flits sent one after the other. -/
theorem sent_injectedL (now : Nat) (take : Bool) (ent n : Nat) (as : List Nat) (f : Flit) (fs : List Flit) (L : Lantern) :
    sent now take ent n as fs (injectedL now 4 [f] L) = sent now take ent n as (f :: fs) L := by
  have hpad : (injectedL now 4 [f] L).pad = L.pad := injectedL_keeps Lantern.pad (fun _ _ => rfl) (fun _ _ _ => rfl) now 4 [f] L
  have hsluices : (injectedL now 4 [f] L).sluices = L.sluices := injectedL_keeps Lantern.sluices (fun _ _ => rfl) (fun _ _ _ => rfl) now 4 [f] L
  have hsl : getSl (injectedL now 4 [f] L) ent = getSl L ent := by rw [getSl, hsluices, getSl]
  rw [sent, sent, injectedL_cons now 4 f fs, hpad, hsluices, hsl]
  exact congrArg (injectedL now 4 fs) (injectedL_update (f := fun K => { K with
    pad := takenLines take as L.pad, sluices := if n = 0 then L.sluices else tset {} L.sluices ent (spent (getSl L ent) n) })
    ⟨fun _ => rfl, fun _ => ⟨rfl, rfl, rfl⟩, fun _ _ => rfl, fun _ _ _ => rfl⟩ now 4 [f] L).symm

section
variable {l ent src st fmt tot : Nat} {take : Bool} {g : Engine} {s : State}

theorem runSend_sends (hst : 1 ≤ st) (hdest : slDestOk s l ent = true) (n : Nat) : ∀ {L : Lantern} {t : State} {i : Nat}, Busy l 4 L g s t → i + n = tot →
    (∀ k ∈ List.range' i n, padAt L (src + k * st) = padAt (getL s l) (src + k * st)) →
    (∀ k ∈ List.range' i n, (padAt (getL s l) (src + k * st)).full = true ∧ (padAt (getL s l) (src + k * st)).parBad = false) →
    n ≤ (getSl L ent).credits - withheld s l ent → (getSl L ent).poisonNext = false → (getSl L ent).dest = (getSl (getL s l) ent).dest →
    ∃ u, runSend l src st ent fmt tot take i n t = .done u ∧ Busy l 4 (sent (nowNs s) take ent n ((List.range' i n).map fun k => src + k * st)
      ((List.range' i n).map fun k => sentFlit l (getSl L ent) fmt tot (padAt (getL s l) (src + k * st)) k) L) g s u := by
  induction n with
  | zero =>
    intro L t i h _ _ _ _ _ _
    refine ⟨t, rfl, ?_⟩
    rw [List.range'_zero, List.map_nil, List.map_nil, sent_nil]
    exact h
  | succ n ih =>
    intro L t i h htot hsame hsound hcredits hpoison hd
    rw [List.range'_succ] at hsame hsound ⊢
    obtain ⟨hat, hsames⟩ := List.forall_mem_cons.1 hsame
    obtain ⟨⟨hfull, hpar⟩, hsounds⟩ := List.forall_mem_cons.1 hsound
    have hlater : ∀ k ∈ List.range' (i + 1) n, k ≠ i := fun k hk => Nat.ne_of_gt (List.mem_range'_1.1 hk).1
    have hlast : decide (i + 1 = tot) = decide (n = 0) := decide_eq_decide.2 (by omega)
    obtain ⟨u, hread, hu⟩ := busy_readPad h (a := src + i * st) (by rw [hat]; exact hpar) take
    obtain ⟨v, hsend, hv⟩ := sendFlits_one (ent := ent) hu (by exact Nat.lt_of_lt_of_le (Nat.succ_pos n) hcredits) hpoison fmt tot (padAt (getL s l) (src + i * st)) i
    have hone : Busy l 4 (injectedL (nowNs s) 4 [sentFlit l (getSl L ent) fmt tot (padAt (getL s l) (src + i * st)) i] (sentOne take ent (src + i * st) L)) g s v := hv
    have hsl : getSl (injectedL (nowNs s) 4 [sentFlit l (getSl L ent) fmt tot (padAt (getL s l) (src + i * st)) i] (sentOne take ent (src + i * st) L)) ent
        = spent (getSl L ent) 1 :=
      (injectedL_keeps (getSl · ent) (fun _ _ => rfl) (fun _ _ _ => rfl) _ 4 _ _).trans (getSl_sentOne _ _ _ _)
    obtain ⟨z, hrest, hz⟩ := ih (i := i + 1) hone (by omega)
      (fun k hk => (injectedL_keeps (padAt · (src + k * st)) (fun _ _ => rfl) (fun _ _ _ => rfl) _ 4 _ _).trans
        ((tget_taken_other take L.pad (strided_ne src hst (hlater k hk))).trans (hsames k hk)))
      hsounds (by rw [hsl, spent]; dsimp only; omega) (by rw [hsl]; exact hpoison) (by rw [hsl]; exact hd)
    refine ⟨z, ?_, ?_⟩
    · have hflit : sendFlits l 4 ent [mkFlit l (getSl L ent).cls (getSl L ent).dest (if (getSl L ent).kind = 0 then 0 else 4) (getSl L ent).num fmt
          (decide (1 < tot) && decide (n = 0)) (padAt L (src + i * st)).poison (padAt L (src + i * st)).data] u = .done v := by
        rw [hat, ← hlast]
        exact hsend
      have hleft : (getSl L ent).credits - withheld s l ent ≠ 0 := Nat.ne_of_gt (Nat.lt_of_lt_of_le (Nat.succ_pos n) hcredits)
      simp only [runSend, busy_slDestOk h hd, hdest, h.padAt, show (padAt L (src + i * st)).full = true by rw [hat]; exact hfull, creditsLeft, h.getSl,
        busy_withheld h, hleft, hread, Bool.not_true, Bool.false_eq_true, if_false, hflit]
      exact hrest
    · rw [hsl, sent_injectedL, sent_sentOne (by omega)] at hz
      exact hz

end

section
variable {l : Nat} {f : FmtL} {s : State} {w : Word} {a st n d : Nat} {take : Bool}

theorem exec_send_sends (hr : Runs l 4 (.send l f) s) (h : Strides l f s w a st take) (hn : n = w.toNat / 2 ^ 12 % 2 ^ 8 + 1) (hz : w.toNat % 2 ^ 48 < 2 ^ 24)
    (hsound : stridedSound (getL s l) a st n) (hdest : slDestOk s l f.d.toNat = true) (hcredits : n ≤ creditsLeft s l f.d.toNat)
    (hpoison : (getSl (getL s l) f.d.toNat).poisonNext = false) :
    ∃ t, exec (.send l f) s = .next t ∧ Became l 4 (sent (nowNs s) take f.d.toNat n (strided a st n)
      ((List.range n).map fun i => sentFlit l (getSl (getL s l) f.d.toNat) (w.toNat / 2 ^ 20 % 2 ^ 4) n (padAt (getL s l) (a + i * st)) i) (getL s l)) s t := by
  have htry : trySend l f (passed l s) = pushOp l 4 (.send a st n f.d.toNat (w.toNat / 2 ^ 20 % 2 ^ 4) 0 take) (.send l f) (passed l s) := by
    obtain ⟨rfl, rfl, hst, hlo, rfl⟩ := h
    rw [← bitsAt_zero] at hst
    subst hst hn
    exact withSc_passes hr.takes (passes_cons (scZero_passes hz) <| passes_cons (paramCheck_passes hlo (Nat.le_of_lt_succ (Nat.mod_lt _ (by decide)))) <|
      passes_cons (strideCheck_passes fun i hi => (hsound i hi).1) passes_nil)
  refine exec_engine (exec_send l f s) hr htry (finishes_act (by decide) rfl fun t ht => ?_)
  rw [strided, List.range_eq_range']
  exact runSend_sends h.low hdest n ht (Nat.zero_add n) (fun _ _ => rfl)
    (fun k hk => (hsound k (by have := (List.mem_range'_1.1 hk).2; omega)).2) hcredits hpoison rfl

/-! ## CLR (05 R144) -/

theorem dropLines_succ (m : SMap PadLine) (a n : Nat) : dropLines m a (n + 1) = dropLines (tset {} m a {}) (a + 1) n := by
  delta dropLines
  exact rfl

theorem clearLines_drops {e : Nat} {g : Engine} (n : Nat) : ∀ {m : SMap PadLine} {t : State} {a : Nat}, Busy l e { getL s l with pad := m } g s t →
    Busy l e { getL s l with pad := dropLines m a n } g s (clearLines l a n t) := by
  induction n with
  | zero => exact fun h => h
  | succ n ih =>
    intro m t a h
    rw [clearLines, dropLines_succ]
    exact ih (busy_emptied h a)

theorem exec_clr_drops (hr : Runs l 4 (.clr l f) s) (hw : w = getReg (getL s l) f.sc) (hz : w.toNat % 2 ^ 48 < 2 ^ 16) (hd : d = f.d.toNat + w.toNat / 2 ^ 48)
    (hrange : rangeOk (getL s l) d (w.toNat % 2 ^ 16 + 1) = true) :
    ∃ t, exec (.clr l f) s = .next t ∧ Became l 4 { getL s l with pad := dropLines (getL s l).pad d (w.toNat % 2 ^ 16 + 1) } s t := by
  have htry : tryClr l f (passed l s) = pushOp l 4 (.clr d (w.toNat % 2 ^ 16 + 1)) (.clr l f) (passed l s) := by
    rw [← bitsAt_zero] at hrange ⊢
    subst hw hd
    exact withSc_passes hr.takes (passes_cons (scZero_passes hz) <| passes_cons (lineCheck_passes hrange) passes_nil)
  exact exec_engine (exec_clr l f s) hr htry (finishes_act (by decide) rfl fun t ht => ⟨_, rfl, clearLines_drops _ ht⟩)

end

/-- Settles O25: lines copied, transposed, sent and emptied one after the other. -/
theorem sendUnit : Obligations.SendUnit := by
  unfold Obligations.SendUnit
  intro l f s w a st n d take hw ha hst hn htake
  have h : 1 ≤ st → Strides l f s w a st take := fun hlo => ⟨hw, ha, hst, hlo, htake⟩
  refine ⟨?_, ?_, ?_, ?_⟩
  · intro hr hz hlo hd hsound hrange hfree
    exact exec_copy_copies hr (h hlo) hn hz hd hsound hrange hfree
  · rintro r i8 off _ _ _ _ hr hz hlo hd hrows hi8 hoff hmod hfit hsound hclear rfl rfl hrange hfree rfl rfl
    exact exec_trd_transposes hr (h hlo) hz hd rfl hrows hi8 hoff hmod hfit hsound hclear hrange hfree
  · rintro _ _ hr hz hlo hsound rfl hdest hcredits hpoison rfl
    obtain ⟨t, hexec, ht⟩ := exec_send_sends hr (h hlo) hn hz hsound hdest hcredits hpoison
    refine ⟨t, hexec, ?_⟩
    rw [sent, if_neg (by omega)] at ht
    exact ht
  · intro hr hz hd hrange
    exact exec_clr_drops hr hw hz hd hrange

end Sys2Proof.SendRun
end

section
/-!
PROOFS. Reads of a share of the key/value store (07 R203 to R210, R216): a page resolves as the tables say, whatever the look-aside buffer holds, so long as it agrees
with them; the buffer alone changes.
-/

open Sys2Proof Sys2Proof.Machine

namespace Sys2Proof.ShareRun

open Sys2Proof.Reports Sys2Proof.ArrayIssue Sys2Proof.EngineRun Sys2Proof.QueueRun

/-! ## The look-aside buffer and the tables -/

/-- A look-aside buffer that holds what the tables of L say. -/
def Agrees (L : Lantern) (b : List (Nat × Nat × Nat)) : Prop := ∀ x ∈ b, walk L (descAt L x.1) x.2.1 = some x.2.2

/-- A lantern with b as its look-aside buffer. -/
def withAside (L : Lantern) (b : List (Nat × Nat × Nat)) : Lantern := { L with lookaside := b }

section
variable {K L : Lantern} {b : List (Nat × Nat × Nat)} {d x p i : Nat}

theorem agrees_touchEntry (h : Agrees L b) (hp : walk L (descAt L d) x = some p) : Agrees L (touchEntry b d x p) := by
  intro y hy
  rcases List.mem_cons.1 (List.mem_of_mem_take hy) with rfl | hold
  · exact hp
  · exact h y (List.mem_filter.1 hold).1

theorem aside_agrees (h : Agrees L b) (hp : aside (withAside L b) d x = some p) : walk L (descAt L d) x = some p := by
  obtain ⟨y, hfind, rfl⟩ := Option.map_eq_some_iff.1 hp
  have hkey := List.find?_some hfind
  rw [Bool.and_eq_true, beq_iff_eq, beq_iff_eq] at hkey
  obtain ⟨rfl, rfl⟩ := hkey
  exact h y (List.mem_of_find?_eq_some hfind)

theorem aside_orElse_walk (h : Agrees L b) : (aside (withAside L b) d x).orElse (fun _ => walk L (descAt L d) x) = walk L (descAt L d) x := by
  rcases Option.eq_none_or_eq_some (aside (withAside L b) d x) with hmiss | ⟨p, hhit⟩
  · rw [hmiss]
    rfl
  · rw [hhit, aside_agrees h hhit]
    rfl

theorem walk_congr (h : K.pad = L.pad) (k : Desc) (x : Nat) : walk K k x = walk L k x := by
  have htable : tableEntry K = tableEntry L := funext₂ fun a n => by rw [tableEntry, tableEntry, padAt_congr h]
  have hdir : dirEntry K k x = dirEntry L k x := by rw [dirEntry, dirEntry, htable]
  rw [walk, walk, hdir, htable]

theorem descAt_congr (h : K.pad = L.pad) (d : Nat) : descAt K d = descAt L d := by
  rw [descAt, descAt, padAt_congr h]

/-- The lines of a share that an access touches, by the tables. -/
theorem shareLines_agrees (h : K.pad = L.pad) (hK : Agrees L K.lookaside) (hL : Agrees L L.lookaside) (d i : Nat) (cs : List Nat) :
    shareLines K d i cs = shareLines L d i cs := by
  have hwalk : ∀ {J : Lantern} {x : Nat}, Agrees L J.lookaside → (aside J d x).orElse (fun _ => walk L (descAt L d) x) = walk L (descAt L d) x :=
    fun hJ => aside_orElse_walk (b := _) hJ
  simp only [shareLines, descAt_congr h, walk_congr h, hwalk hK, hwalk hL]

theorem phaseLines_agrees (h : K.pad = L.pad) (hK : Agrees L K.lookaside) (hL : Agrees L L.lookaside) (d kv first h0 : Nat) (cs : List Cycle) :
    phaseLines K d kv first h0 cs = phaseLines L d kv first h0 cs := by
  simp only [phaseLines, shareLines_agrees h hK hL, descAt_congr h]

theorem earlierWrites_agrees (h : K.pad = L.pad) (hK : Agrees L K.lookaside) (hL : Agrees L L.lookaside) (hq : getEng K 6 = getEng L 6) (seq : Nat) :
    earlierWrites K seq = earlierWrites L seq := by
  simp only [earlierWrites, countOver, hq, shareLines_agrees h hK hL, descAt_congr h]

end

/-! ## Pages resolved and lines read -/

/-- The tables and the store hold no line of bad parity (05 R160). -/
structure SoundStore (L : Lantern) : Prop where
  tables : ∀ a, (padAt L a).parBad = false
  store : ∀ a, (tget {} L.kv a).parBad = false

/-- The lantern is as L but for the look-aside buffer, which agrees with the tables. -/
def Looks (l e : Nat) (L : Lantern) (g : Engine) (s t : State) : Prop := ∃ b, Busy l e (withAside L b) g s t ∧ Agrees L b

section
variable {l e : Nat} {L : Lantern} {g : Engine} {s t : State} {d x p i : Nat}

theorem busy_tableRead (h : Busy l e L g s t) {a : Nat} (hb : (padAt L a).parBad = false) : Busy l e L g s (tableRead t l a) := by
  obtain ⟨u, hdeliver, hu⟩ := busy_deliver h 0 a (padAt L a).poison hb
  unfold tableRead
  simp only [h.padAt, hdeliver]
  exact hu

theorem busy_walkReads (h : Busy l e L g s t) (hb : ∀ a, (padAt L a).parBad = false) (k : Desc) (x : Nat) : Busy l e L g s (walkReads t l k x) := by
  unfold walkReads
  split
  · exact h
  · dsimp only
    split
    · exact busy_tableRead h (hb _)
    · exact busy_tableRead (busy_tableRead h (hb _)) (hb _)

/-- The lookup of a page: what it counts, and what the buffer or the tables say. -/
theorem resolveOne_looks {b : List (Nat × Nat × Nat)} (h : Busy l e (withAside L b) g s t) (hb : Agrees L b) (hs : SoundStore L) (d x : Nat) :
    ∃ u, resolveOne t l d x = (walk L (descAt L d) x).map (fun p => (updL u l (fun K => { K with lookaside := touchEntry K.lookaside d x p }), p))
      ∧ Busy l e (withAside L b) g s u := by
  have hdesc : descAt (getL t l) d = descAt L d := h.data (descAt · d) fun _ => rfl
  have haside : aside (getL t l) d x = aside (withAside L b) d x := h.data (aside · d x) fun _ => rfl
  have hcounted : Busy l e (withAside L b) g s (if (aside (withAside L b) d x).isSome then t else walkReads t l (descAt L d) x) := by
    split
    · exact h
    · exact busy_walkReads h hs.tables _ _
  refine ⟨_, ?_, hcounted⟩
  have hwalk := hcounted.data (walk · (descAt L d) x) fun _ => rfl
  have hfound := (congrArg (fun w => (aside (withAside L b) d x).orElse fun _ => w) hwalk).trans (aside_orElse_walk (d := d) (x := x) hb)
  simp only [resolveOne, hdesc, haside, hfound]
  cases walk L (descAt L d) x <;> rfl

/-- The buffer with the page most recently used. -/
theorem looks_touch {b : List (Nat × Nat × Nat)} (h : Busy l e (withAside L b) g s t) (hb : Agrees L b) (hp : walk L (descAt L d) x = some p) :
    Looks l e L g s (updL t l (fun K => { K with lookaside := touchEntry K.lookaside d x p })) :=
  ⟨_, busy_updL h (f := fun K => { K with lookaside := touchEntry K.lookaside d x p }) fun _ => rfl, agrees_touchEntry hb hp⟩

/-- A page that the tables hold. -/
theorem resolve_page (h : Looks l e L g s t) (hs : SoundStore L) (hp : walk L (descAt L d) x = some p) :
    ∃ u, resolve t l d x = some (u, p) ∧ Looks l e L g s u := by
  obtain ⟨b, hbusy, hb⟩ := h
  obtain ⟨u, hone, hu⟩ := resolveOne_looks hbusy hb hs d x
  rw [hp, Option.map_some] at hone
  obtain ⟨b', hbusy', hb'⟩ := looks_touch hu hb hp
  obtain ⟨v, hnext, hv⟩ := resolveOne_looks hbusy' hb' hs d (x + 1)
  unfold resolve
  simp only [hone, hnext]
  rcases Option.eq_none_or_eq_some (walk L (descAt L d) (x + 1)) with hnone | ⟨p', hsome⟩
  · rw [hnone]
    exact ⟨_, rfl, looks_touch hbusy' hb' hp⟩
  · obtain ⟨b'', hbusy'', hb''⟩ := looks_touch hv hb' hsome
    rw [hsome]
    exact ⟨_, rfl, looks_touch hbusy'' hb'' hp⟩

theorem looks_readKv (h : Looks l e L g s t) (hs : SoundStore L) (a : Nat) :
    ∃ u, readKv t l a = (u, (tget {} L.kv a).data, (tget {} L.kv a).poison) ∧ Looks l e L g s u := by
  obtain ⟨b, hbusy, hb⟩ := h
  obtain ⟨u, hdeliver, hu⟩ := busy_deliver hbusy 1 a (tget {} L.kv a).poison (hs.store a)
  have hkv : (getL t l).kv = L.kv := hbusy.data Lantern.kv fun _ => rfl
  refine ⟨u, ?_, b, hu, hb⟩
  unfold readKv
  simp only [hkv, hdeliver]

/-- The lines of a share at one local index. -/
theorem readShare_held (hs : SoundStore L) (hp : (walk L (descAt L d) (i / pageDepth (descAt L d))).isSome = true) (cs : List Nat) :
    ∀ {t : State}, Looks l e L g s t → ∃ u, readShare l d i cs t = some (u, heldLines L d cs i) ∧ Looks l e L g s u := by
  induction cs with
  | nil => exact fun h => ⟨_, rfl, h⟩
  | cons c cs ih =>
    intro t h
    obtain ⟨p, hpage⟩ := Option.isSome_iff_exists.1 hp
    have hdesc : descAt (getL t l) d = descAt L d := by
      obtain ⟨b, hbusy, -⟩ := h
      exact hbusy.data (descAt · d) fun _ => rfl
    obtain ⟨u, hresolve, hu⟩ := resolve_page h hs hpage
    obtain ⟨v, hread, hv⟩ := looks_readKv hu hs (kvAddr (descAt L d) p c i)
    obtain ⟨z, hrest, hz⟩ := ih hv
    refine ⟨z, ?_, hz⟩
    simp only [readShare, hdesc, hresolve, hread, hrest, heldLines, List.map_cons, hpage, Option.getD_some]

/-- The lines of a head for n tokens. -/
theorem headLines_held (hs : SoundStore L) (hd kv n : Nat) : ∀ {t : State} {i : Nat}, Looks l e L g s t →
    (∀ j, i ≤ j → j < i + n → (walk L (descAt L d) (j / pageDepth (descAt L d))).isSome = true) →
    ∃ u, headLines l d hd kv i n t = some (u, (List.range n).map (fun j => heldLines L d (headCols (descAt L d) hd kv) (i + j))) ∧ Looks l e L g s u := by
  induction n with
  | zero => exact fun h _ => ⟨_, rfl, h⟩
  | succ n ih =>
    intro t i h hp
    have hdesc : descAt (getL t l) d = descAt L d := by
      obtain ⟨b, hbusy, -⟩ := h
      exact hbusy.data (descAt · d) fun _ => rfl
    obtain ⟨u, hread, hu⟩ := readShare_held hs (hp i (Nat.le_refl i) (by omega)) (headCols (descAt L d) hd kv) h
    obtain ⟨v, hrest, hv⟩ := ih (i := i + 1) hu fun j hlo hhi => hp j (by omega) (by omega)
    refine ⟨v, ?_, hv⟩
    simp only [headLines, hdesc, hread, hrest, List.range_succ_eq_map, List.map_cons, List.map_map, Nat.add_zero]
    refine congrArg (fun r => some (v, _ :: r)) (List.map_congr_left fun j _ => ?_)
    simp only [Function.comp, Nat.add_assoc, Nat.add_comm 1 j, Nat.succ_eq_add_one]

end
end Sys2Proof.ShareRun
end

section
/-!
PROOFS. The attention unit (05 R166 to R168; 07 R220): query loads, the score phase and the value phase, cycle after cycle.
-/

open Sys2Proof Sys2Proof.Machine

namespace Sys2Proof.AttentionRun

open Sys2Proof.Reports Sys2Proof.ArrayIssue Sys2Proof.EngineRun Sys2Proof.WideRun Sys2Proof.QueueRun Sys2Proof.ShareRun

/-! ## QLD -/

theorem foldl_range_succ {β : Type} (n : Nat) (f : β → Nat → β) (b : β) : (List.range (n + 1)).foldl f b = (List.range n).foldl (fun m i => f m (i + 1)) (f b 0) := by
  rw [List.range_succ_eq_map, List.foldl_cons, List.foldl_map]

/-- Query register i of a load from line a on. -/
def loadedQuery (L : Lantern) (a i : Nat) : QueryReg :=
  ⟨(padAt L (a + 2 * i)).data, (padAt L (a + 2 * i + 1)).data, (padAt L (a + 2 * i)).poison || (padAt L (a + 2 * i + 1)).poison⟩

/-- The query registers once n of them are loaded from r on. -/
def loadedQueries (L : Lantern) (a r n : Nat) (m : SMap QueryReg) : SMap QueryReg := (List.range n).foldl (fun m i => tset {} m (r + i) (loadedQuery L a i)) m

theorem loadedQuery_succ (L : Lantern) (a i : Nat) : loadedQuery L a (i + 1) = loadedQuery L (a + 2) i := by
  rw [loadedQuery, loadedQuery, show a + 2 * (i + 1) = a + 2 + 2 * i by omega]

theorem loadedQueries_succ (L : Lantern) (a r n : Nat) (m : SMap QueryReg) :
    loadedQueries L a r (n + 1) m = loadedQueries L (a + 2) (r + 1) n (tset {} m r (loadedQuery L a 0)) := by
  unfold loadedQueries
  rw [foldl_range_succ]
  simp only [loadedQuery_succ, Nat.add_zero, Nat.add_assoc, Nat.add_comm 1]

theorem linesAt_two_more (L : Lantern) (a n : Nat) :
    linesAt L a (2 * (n + 1)) = ((padAt L a).data, (padAt L a).poison) :: ((padAt L (a + 1)).data, (padAt L (a + 1)).poison) :: linesAt L (a + 2) (2 * n) := by
  unfold linesAt
  rw [show 2 * (n + 1) = 2 * n + 1 + 1 by omega, List.range_succ_eq_map, List.range_succ_eq_map]
  simp only [List.map_cons, List.map_map, Function.comp_def, Nat.succ_eq_add_one, Nat.add_zero, Nat.add_assoc, Nat.zero_add, Nat.reduceAdd, Nat.add_comm 2]

section
variable {l e : Nat} {g : Engine} {s : State}

theorem loadQueries_loads (J : Lantern) (n : Nat) : ∀ {L : Lantern} {t : State} {a r : Nat}, Busy l e L g s t →
    Busy l e { L with queries := loadedQueries J a r n L.queries } g s (loadQueries l r (linesAt J a (2 * n)) t) := by
  induction n with
  | zero => exact fun h => h
  | succ n ih =>
    intro L t a r h
    rw [linesAt_two_more, loadedQueries_succ, loadQueries]
    exact ih (busy_updL (busy_countL h 0x2B _) (f := fun K => { K with queries := tset {} K.queries r (loadedQuery J a 0) }) fun _ => rfl)

end

/-! ## The cycles of a phase (05 R166) -/

/-- Tokens in each cycle but the last of a query group of r. -/
def cycleTokens (r w : Nat) : Nat := 64 / groupQ r / w

/-- The cycles of one query group of a head. -/
def groupCycles (g n w a b : Nat) : List Cycle :=
  (List.range ((n + cycleTokens (min 8 (g - 8 * b)) w - 1) / cycleTokens (min 8 (g - 8 * b)) w)).map (fun i =>
    ⟨a, 8 * b, min 8 (g - 8 * b), i * cycleTokens (min 8 (g - 8 * b)) w,
      min (cycleTokens (min 8 (g - 8 * b)) w) (n - i * cycleTokens (min 8 (g - 8 * b)) w),
      decide (i + 1 = (n + cycleTokens (min 8 (g - 8 * b)) w - 1) / cycleTokens (min 8 (g - 8 * b)) w)⟩)

theorem phaseCycles_groups (g h n w : Nat) :
    phaseCycles g h n w = (List.range h).flatMap (fun a => (List.range ((g + 7) / 8)).flatMap (groupCycles g n w a)) := rfl

/-- No cycle goes past the last token. -/
theorem cycle_within {g h n w : Nat} {c : Cycle} (hc : c ∈ phaseCycles g h n w) : c.t0 + c.cnt ≤ n := by
  rw [phaseCycles_groups] at hc
  obtain ⟨a, -, hc⟩ := List.mem_flatMap.1 hc
  obtain ⟨b, -, hc⟩ := List.mem_flatMap.1 hc
  obtain ⟨i, hi, rfl⟩ := List.mem_map.1 hc
  generalize cycleTokens (min 8 (g - 8 * b)) w = k at hi ⊢
  have hlt : i < (n + k - 1) / k := List.mem_range.1 hi
  have hk : 0 < k := Nat.pos_of_ne_zero fun h0 => absurd hlt (by rw [h0, Nat.div_zero]; exact Nat.not_lt_zero i)
  have hstart : i * k ≤ n := by
    have := (Nat.le_div_iff_mul_le hk).1 hlt
    rw [Nat.succ_mul] at this
    omega
  dsimp only
  omega

theorem sum_flatMap {α : Type} (v : α → Nat) (f : Nat → List α) (xs : List Nat) : ((xs.flatMap f).map v).sum = (xs.map (fun x => ((f x).map v).sum)).sum := by
  induction xs with
  | nil => rfl
  | cons x xs ih => rw [List.flatMap_cons, List.map_append, List.sum_append, ih, List.map_cons, List.sum_cons]

theorem sum_map_le_mul {f : Nat → Nat} {m : Nat} (h : ∀ x, f x ≤ m) (k : Nat) : ((List.range k).map f).sum ≤ k * m := by
  have := List.sum_le_card_nsmul ((List.range k).map f) m fun y hy => by
    obtain ⟨x, -, rfl⟩ := List.mem_map.1 hy
    exact h x
  rwa [List.length_map, List.length_range, smul_eq_mul] at this

/-- The parts of n, k at a time. -/
theorem sum_parts (n k m : Nat) : ((List.range m).map (fun i => min k (n - i * k))).sum = min n (m * k) := by
  induction m with
  | zero => simp
  | succ m ih =>
    rw [List.range_succ, List.map_append, List.sum_append, ih, Nat.succ_mul]
    simp only [List.map_cons, List.map_nil, List.sum_cons, List.sum_nil]
    omega

/-- The scores of a phase: one for each query and token (05 R167). -/
theorem sum_cycles_le (g h n w : Nat) : ((phaseCycles g h n w).map (fun c => c.r * c.cnt)).sum ≤ g * h * n := by
  have hgroup : ∀ a b, ((groupCycles g n w a b).map (fun c => c.r * c.cnt)).sum ≤ min 8 (g - 8 * b) * n := by
    intro a b
    rw [groupCycles, List.map_map]
    simp only [Function.comp_def]
    rw [List.sum_map_mul_left, sum_parts]
    exact Nat.mul_le_mul_left _ (Nat.min_le_left _ _)
  have hhead : ∀ a, (((List.range ((g + 7) / 8)).flatMap (groupCycles g n w a)).map (fun c => c.r * c.cnt)).sum ≤ g * n := by
    intro a
    rw [sum_flatMap]
    calc ((List.range ((g + 7) / 8)).map (fun b => ((groupCycles g n w a b).map (fun c => c.r * c.cnt)).sum)).sum
        ≤ ((List.range ((g + 7) / 8)).map (fun b => min 8 (g - b * 8) * n)).sum :=
          List.sum_le_sum fun b _ => by rw [Nat.mul_comm b 8]; exact hgroup a b
      _ = min g ((g + 7) / 8 * 8) * n := by rw [List.sum_map_mul_right, sum_parts]
      _ ≤ g * n := Nat.mul_le_mul_right _ (Nat.min_le_left _ _)
  rw [phaseCycles_groups, sum_flatMap]
  exact (sum_map_le_mul hhead h).trans_eq (by rw [Nat.mul_left_comm, Nat.mul_assoc])

/-- A phase has a cycle. -/
theorem phaseCycles_ne_nil {g h n w : Nat} (hg : 1 ≤ g) (hh : 1 ≤ h) (hn : 1 ≤ n) (hw : w = 1 ∨ w = 2) : phaseCycles g h n w ≠ [] := by
  have hk : 0 < cycleTokens (min 8 (g - 8 * 0)) w := by
    unfold cycleTokens groupQ
    rcases hw with rfl | rfl <;> split_ifs <;> decide
  intro hnil
  have hmem : (⟨0, 8 * 0, min 8 (g - 8 * 0), 0 * cycleTokens (min 8 (g - 8 * 0)) w, min (cycleTokens (min 8 (g - 8 * 0)) w) (n - 0 * cycleTokens (min 8 (g - 8 * 0)) w),
      decide (0 + 1 = (n + cycleTokens (min 8 (g - 8 * 0)) w - 1) / cycleTokens (min 8 (g - 8 * 0)) w)⟩ : Cycle) ∈ phaseCycles g h n w := by
    rw [phaseCycles_groups]
    refine List.mem_flatMap.2 ⟨0, List.mem_range.2 hh, List.mem_flatMap.2 ⟨0, List.mem_range.2 (by omega), List.mem_map.2 ⟨0, List.mem_range.2 ?_, rfl⟩⟩⟩
    exact Nat.div_pos (by omega) hk
  rw [hnil] at hmem
  exact absurd hmem List.not_mem_nil

/-! ## Cycles over a share -/

/-- What a phase from token first on needs of the share at d (07 R206 to R210). -/
structure PhaseReady (l d first n : Nat) (s : State) : Prop where
  store : SoundStore (getL s l)
  pages : ∀ j, first ≤ j → j < first + n → (walk (getL s l) (descAt (getL s l) d) (j / pageDepth (descAt (getL s l) d))).isSome = true
  agree : Agrees (getL s l) (getL s l).lookaside

/-- The lines of the head of a cycle, token by token. -/
def cycleLines (L : Lantern) (d kv first h0 : Nat) (c : Cycle) : List (List (Line × Bool)) :=
  (List.range c.cnt).map (fun j => heldLines L d (headCols (descAt L d) (h0 + c.head) kv) (first + c.t0 + j))

/-- The type of the elements of a share. -/
def shareTy (L : Lantern) (d : Nat) : Nat := if (descAt L d).w = 2 then 2 else 1

section
variable {l d first n : Nat} {L : Lantern} {g : Engine} {s t : State}

/-- Cycles that read no line of an earlier append at s read none later (05 R165). -/
theorem looks_common (h : Looks l 3 L g s t) (hr : PhaseReady l d first n s) (hpad : L.pad = (getL s l).pad) {kv h0 seq : Nat} {cs : List Cycle} {b : Bool}
    (hc : common (phaseLines (getL s l) d kv first h0 cs) (earlierWrites (getL s l) seq) = b) :
    common (phaseLines (getL t l) d kv first h0 cs) (earlierWrites (getL t l) seq) = b := by
  obtain ⟨a, hbusy, ha⟩ := h
  have hsame : (getL t l).pad = (getL s l).pad := (hbusy.data Lantern.pad fun _ => rfl).trans hpad
  have hagree : Agrees (getL s l) (getL t l).lookaside := by
    rw [show (getL t l).lookaside = a from hbusy.data Lantern.lookaside fun _ => rfl]
    intro x hx
    rw [← walk_congr hpad, ← descAt_congr hpad]
    exact ha x hx
  rw [phaseLines_agrees hsame hagree hr.agree, earlierWrites_agrees hsame hagree hr.agree (hbusy.engines 6 (by decide))]
  exact hc

end

/-! ## ASCR (05 R167) -/

/-- The scores of one cycle. -/
def cycleScores (L : Lantern) (d g f first h0 : Nat) (c : Cycle) : List (Nat × F32 × Bool) :=
  (List.range c.r).flatMap (fun m => (cycleLines L d 0 first h0 c).map (fun ks =>
    (c.head * g + c.m0 + m, scoreOf (tget {} L.queries (f + c.head * g + c.m0 + m)) (shareTy L d) ks)))

/-- Query by query, token by token. -/
theorem cycleScores_tokens (L : Lantern) (d g f first h0 : Nat) (c : Cycle) : cycleScores L d g f first h0 c = (List.range c.r).flatMap (fun m => (List.range c.cnt).map (fun j =>
    (c.head * g + c.m0 + m, scoreOf (tget {} L.queries (f + c.head * g + c.m0 + m)) (if (descAt L d).w = 2 then 2 else 1)
      (heldLines L d (headCols (descAt L d) (h0 + c.head) 0) (first + c.t0 + j))))) := by
  simp only [cycleScores, cycleLines, List.map_map]
  rfl

theorem length_cycleScores (L : Lantern) (d g f first h0 : Nat) (c : Cycle) : (cycleScores L d g f first h0 c).length = c.r * c.cnt := by
  simp [cycleScores, cycleLines, List.length_flatMap]

/-- A lantern with its score buffer at S. -/
def withScores (L : Lantern) (S : List (Nat × F32 × Bool)) : Lantern := { L with scores := S }

section
variable {l d gg f first n h0 h : Nat} {g : Engine} {s : State} (hr : PhaseReady l d first n s)
include hr

theorem runAscr_scores (cs : List Cycle) : ∀ {t : State} {i : Nat} {S : List (Nat × F32 × Bool)}, Looks l 3 (withScores (getL s l) S) g s t →
    (∀ c ∈ cs, c.t0 + c.cnt ≤ n) → (∀ c ∈ cs, common (phaseLines (getL s l) d 0 first h0 [c]) (earlierWrites (getL s l) (getL s l).issued) = false) →
    S.length + (cs.map (fun c => c.r * c.cnt)).sum ≤ 4096 →
    ∃ u, runAscr l (getL s l).issued d gg f first n h0 h i cs t = .done u
      ∧ Looks l 3 (withScores (getL s l) (S ++ cs.flatMap (cycleScores (getL s l) d gg f first h0))) g s u := by
  induction cs with
  | nil =>
    intro t i S ht _ _ _
    refine ⟨t, rfl, ?_⟩
    rw [List.flatMap_nil, List.append_nil]
    exact ht
  | cons c cs ih =>
    intro t i S ht hin hfree hroom
    obtain ⟨hinc, hins⟩ := List.forall_mem_cons.1 hin
    obtain ⟨hfreec, hfrees⟩ := List.forall_mem_cons.1 hfree
    rw [List.map_cons, List.sum_cons] at hroom
    have hcommon := looks_common ht hr rfl hfreec
    obtain ⟨u, hhead, hu⟩ := headLines_held (L := withScores (getL s l) S) ⟨hr.store.tables, hr.store.store⟩ (h0 + c.head) 0 c.cnt (i := first + c.t0) ht
      fun j hlo hhi => hr.pages j (by omega) (by omega)
    obtain ⟨b, hbusy, -⟩ := ht
    have hscores : (getL t l).scores = S := hbusy.data Lantern.scores fun _ => rfl
    have hqueries : (getL t l).queries = (getL s l).queries := hbusy.data Lantern.queries fun _ => rfl
    have hdesc : descAt (getL t l) d = descAt (getL s l) d := hbusy.data (descAt · d) fun _ => rfl
    obtain ⟨b', hbusy', hb'⟩ := hu
    have hput : Looks l 3 (withScores (getL s l) (S ++ cycleScores (getL s l) d gg f first h0 c)) g s
        (updL (countL u l 0x2B (((cycleLines (getL s l) d 0 first h0 c).map (badCells (shareTy (getL s l) d))).sum)) l
          (fun K => { K with scores := K.scores ++ cycleScores (getL s l) d gg f first h0 c })) :=
      ⟨b', busy_updL (busy_countL hbusy' 0x2B _) (f := fun K => { K with scores := K.scores ++ cycleScores (getL s l) d gg f first h0 c }) fun _ => rfl, hb'⟩
    obtain ⟨v, hrest, hv⟩ := ih (i := i + 1) hput hins hfrees (by
      rw [List.length_append, length_cycleScores]
      omega)
    refine ⟨v, ?_, ?_⟩
    · simp only [runAscr, hcommon, Bool.false_eq_true, if_false, hscores, if_neg (show ¬ 4096 < S.length + c.r * c.cnt by omega), hhead, hdesc, hqueries]
      exact hrest
    · rw [List.flatMap_cons, ← List.append_assoc]
      exact hv

end

/-! ## AVAL (05 R168) -/

/-- A lantern with its accumulator, its probability buffer and the first query of the next group. -/
def withValues (L : Lantern) (r : SMap Block × List (Nat × Nat × Int × Nat × Bool) × Nat) : Lantern := { L with acc := r.1, probs := r.2.1, probOut := r.2.2 }

/-- The probabilities that a cycle uses, query by query. -/
def cycleProbs (c : Cycle) (ps : List (Nat × Nat × Int × Nat × Bool)) (po : Nat) : List (Option (List (Int × Nat × Bool))) :=
  (List.range c.r).map (fun m => probsFor ps (po + m) c.t0 c.cnt)

/-- The contributions of a cycle, and the cycles run again. -/
def cycleValues (L : Lantern) (d blk gg first h0 : Nat) (c : Cycle) (ps : List (Nat × Nat × Int × Nat × Bool)) (po : Nat) : List Contr × Nat :=
  valueCycle (shareTy L d) 6 ((((cycleProbs c ps po).map (fun o => o.getD [])).zip (List.range c.r)).map (fun (p, m) =>
    (blk + 4 * (c.head * gg + c.m0 + m), valueBad p (cycleLines L d 1 first h0 c) (shareTy L d), p))) (cycleLines L d 1 first h0 c)

/-- The probability buffer without those that a cycle used. -/
def unused (c : Cycle) (ps : List (Nat × Nat × Int × Nat × Bool)) (po : Nat) : List (Nat × Nat × Int × Nat × Bool) :=
  ps.filter (fun e => !(decide (po ≤ e.1) && decide (e.1 < po + c.r) && decide (c.t0 ≤ e.2.1) && decide (e.2.1 < c.t0 + c.cnt)))

/-- A value phase that goes through its next cycle. -/
theorem valueFold_cons {L : Lantern} {d blk gg first h0 : Nat} {c : Cycle} {cs : List Cycle} {r0 r : SMap Block × List (Nat × Nat × Int × Nat × Bool) × Nat}
    (h : valueFold L d blk gg first h0 (c :: cs) r0 = some r) : (cycleProbs c r0.2.1 r0.2.2).any Option.isNone = false
      ∧ ∃ a, placeList (cycleValues L d blk gg first h0 c r0.2.1 r0.2.2).1 ⟨r0.1, 0, 0⟩ = some a
        ∧ valueFold L d blk gg first h0 cs (a.acc, unused c r0.2.1 r0.2.2, if c.fin then r0.2.2 + c.r else r0.2.2) = some r := by
  rw [valueFold] at h
  dsimp only at h
  split at h
  · cases h
  · next hall =>
    obtain ⟨a, hplace, hrest⟩ := Option.bind_eq_some_iff.1 h
    exact ⟨Bool.eq_false_of_not_eq_true hall, a, hplace, hrest⟩

/-- The blocks of a phase cleared before its first cycle. -/
theorem busy_cleared {l e : Nat} {L : Lantern} {g : Engine} {s t : State} (h : Busy l e L g s t) (now : Bool) (blk n : Nat) :
    Busy l e { L with acc := if now then clearBlocks L.acc blk n else L.acc } g s (if now then updL t l (fun K => { K with acc := clearBlocks K.acc blk n }) else t) := by
  cases now
  · exact h
  · exact busy_updL h (f := fun K => { K with acc := clearBlocks K.acc blk n }) fun _ => rfl

section
variable {l d gg f blk first n h0 h : Nat} {clr : Bool} {g : Engine} {s : State} (hr : PhaseReady l d first n s)
  (hwait : accWaits (getL s l) (getL s l).issued blk (4 * gg * h) false = false) (hwaitc : accWaits (getL s l) (getL s l).issued blk (4 * gg * h) clr = false)
include hr hwait hwaitc

theorem runAval_values (cs : List Cycle) : ∀ {t : State} {i : Nat} {r0 r : SMap Block × List (Nat × Nat × Int × Nat × Bool) × Nat},
    Looks l 3 (withValues (getL s l) r0) g s t → (cs = [] → (clr && i == 0) = false) →
    (∀ c ∈ cs, c.t0 + c.cnt ≤ n) → (∀ c ∈ cs, common (phaseLines (getL s l) d 1 first h0 [c]) (earlierWrites (getL s l) (getL s l).issued) = false) →
    valueFold (getL s l) d blk gg first h0 cs (if clr && i == 0 then clearBlocks r0.1 blk (4 * gg * h) else r0.1, r0.2) = some r →
    ∃ u, runAval l (getL s l).issued d gg f blk first n h0 h clr i cs t = .done u ∧ Looks l 3 (withValues (getL s l) r) g s u := by
  induction cs with
  | nil =>
    intro t i r0 r ht hlate _ _ hfold
    rw [hlate rfl, if_neg (by decide)] at hfold
    cases hfold
    exact ⟨t, rfl, ht⟩
  | cons c cs ih =>
    intro t i r0 r ht _ hin hfree hfold
    obtain ⟨hinc, hins⟩ := List.forall_mem_cons.1 hin
    obtain ⟨hfreec, hfrees⟩ := List.forall_mem_cons.1 hfree
    obtain ⟨hall, a, hplace, hrest⟩ := valueFold_cons hfold
    have hcommon := looks_common ht hr rfl hfreec
    obtain ⟨u, hhead, hu⟩ := headLines_held (L := withValues (getL s l) r0) ⟨hr.store.tables, hr.store.store⟩ (h0 + c.head) 1 c.cnt (i := first + c.t0) ht
      fun j hlo hhi => hr.pages j (by omega) (by omega)
    obtain ⟨b, hbusy, -⟩ := ht
    have hprobs : (getL t l).probs = r0.2.1 := hbusy.data Lantern.probs fun _ => rfl
    have hout : (getL t l).probOut = r0.2.2 := hbusy.data Lantern.probOut fun _ => rfl
    have hdesc : descAt (getL t l) d = descAt (getL s l) d := hbusy.data (descAt · d) fun _ => rfl
    have hacc : accWaits (getL t l) (getL s l).issued blk (4 * gg * h) (clr && i == 0) = false := by
      refine hbusy.accWaits rfl rfl ?_
      cases hnow : clr && i == 0
      · exact hwait
      · rw [← (Bool.and_eq_true_iff.1 hnow).1]
        exact hwaitc
    have hlater : (clr && i + 1 == 0) = false := by
      rw [show (i + 1 == 0) = false from rfl, Bool.and_false]
    obtain ⟨b', hbusy', hb'⟩ := hu
    obtain ⟨v, hput, hv⟩ := placeIn_busy (busy_cleared hbusy' (clr && i == 0) blk (4 * gg * h)) hplace
    have hnext := busy_updL (busy_countL (busy_countL hv 0x26 (cycleValues (getL s l) d blk gg first h0 c r0.2.1 r0.2.2).2) 0x2B
      (((cycleLines (getL s l) d 1 first h0 c).map (badCells (shareTy (getL s l) d))).sum))
      (f := fun K => { K with probs := unused c K.probs K.probOut, probOut := if c.fin then K.probOut + c.r else K.probOut }) fun _ => rfl
    obtain ⟨z, hgo, hz⟩ := ih (i := i + 1) (r0 := (a.acc, unused c r0.2.1 r0.2.2, if c.fin then r0.2.2 + c.r else r0.2.2)) ⟨b', hnext, hb'⟩
      (fun _ => hlater) hins hfrees (by
        rw [hlater, if_neg (by decide)]
        exact hrest)
    refine ⟨z, ?_, hz⟩
    have hany : ((List.range c.r).map (fun m => probsFor r0.2.1 (r0.2.2 + m) c.t0 c.cnt)).any Option.isNone = false := hall
    simp only [runAval, hcommon, hacc, hprobs, hout, hany, Bool.false_eq_true, if_false, hhead, hdesc]
    split
    · next hnone => exact absurd (hput.symm.trans hnone) (Option.some_ne_none v)
    · next w hsome =>
      obtain rfl : v = w := Option.some.inj (hput.symm.trans hsome)
      exact hgo

end

/-! ## The commands -/

/-- An operation without operand lines is done. -/
theorem runEngine_act {l e n : Nat} {x : EngEntry} {L M : Lantern} {s t u : State} (he : e ≠ 6) (hnone : opReads x.op = []) (ht : Busy l e L ⟨[x], 0, 0⟩ s t)
    (hact : stepOp l e x t = .done u) (hu : Busy l e M ⟨[x], 0, 0⟩ s u) : Busy l e M {} s (runEngine l e (n + 1) t) :=
  runEngine_completes he ht (xs := []) (by rw [hnone, List.drop_nil, gather]) (by rw [List.append_nil]; exact hact) hu

section
variable {l d : Nat} {f : FmtL} {s : State} {w : Word} {p : Phase3}

/-- What ASCR and AVAL name in SC, and the checks of a phase (07 R206, R220; 06 Table 6-3). -/
structure PhaseNamed (l : Nat) (f : FmtL) (s : State) (w : Word) (d : Nat) (p : Phase3) : Prop where
  sc : w = getReg (getL s l) f.sc
  desc : d = f.a.toNat + w.toNat / 2 ^ 48
  args : p = phaseArgs f.b w
  zero : w.toNat % 2 ^ 48 < 2 ^ 40
  line : d < 65536
  queries : p.reg + p.g * p.h ≤ 64
  share : ShareReady (getL s l) d p.first p.n
  tokens : p.first + p.n ≤ (countAhead (getL s l) d).1
  heads : p.h0 + p.h ≤ (descAt (getL s l) d).hloc

theorem PhaseNamed.ready (h : PhaseNamed l f s w d p) : PhaseReady l d p.first p.n s where
  store := by
    obtain ⟨-, -, -, htables, hsound⟩ := h.share
    have hpad : ∀ a, (!(padAt (getL s l) a).parBad) = true :=
      tget_all (p := fun x : PadLine => !x.parBad) rfl (List.all_eq_true.2 fun y hy => by rw [htables y hy]; rfl)
    have hkv : ∀ a, (!(tget {} (getL s l).kv a).parBad) = true :=
      tget_all (p := fun x : KvLine => !x.parBad) rfl (List.all_eq_true.2 fun y hy => by rw [hsound y hy]; rfl)
    exact ⟨fun a => by simpa using hpad a, fun a => by simpa using hkv a⟩
  pages := h.share.pages
  agree := h.share.agree

theorem phaseChecks_pass (h : PhaseNamed l f s w d p) : ∀ c ∈ phaseChecks (getL (passed l s) l) d w p, c.1 = true := by
  rw [getL_passed]
  exact passes_cons (scZero_passes h.zero) <| passes_cons (decide_eq_true h.line) <| passes_cons h.share.active <|
    passes_cons (paramCheck_passes (Nat.zero_le _) h.queries) <| passes_cons (decide_eq_true h.tokens) <| passes_cons (decide_eq_true h.heads) passes_nil

/-- A phase is handed to its engine, its descriptor read. -/
theorem busy_pushDesc {i : Instr} (h : PhaseNamed l f s w d p) (hr : Runs l 3 i s) (op : EOp) :
    ∃ u, pushDesc l 3 d op i (passed l s) = .done u ∧ Busy l 3 (getL s l) ⟨[issuedEntry (getL s l) i op], 0, 0⟩ s u := by
  refine ⟨_, ?_, busy_tableRead (busy_pushed hr op) (h.ready.store.tables d)⟩
  rw [pushDesc, pushOp_passed hr op]

/-- The engine begins a phase as the lantern was at issue. -/
theorem looks_start {g : Engine} {t : State} (h : PhaseNamed l f s w d p) (ht : Busy l 3 (getL s l) g s t) : Looks l 3 (getL s l) g s t :=
  ⟨(getL s l).lookaside, ht, h.share.agree⟩

theorem exec_ascr_scores (h : PhaseNamed l f s w d p) (hr : Runs l 3 (.ascr l f) s)
    (hfree : ∀ c ∈ phaseCycles p.g p.h p.n (descAt (getL s l) d).w, common (phaseLines (getL s l) d 0 p.first p.h0 [c]) (earlierWrites (getL s l) (getL s l).issued) = false)
    (hroom : (getL s l).scores.length + p.g * p.h * p.n ≤ 4096) :
    ∃ t b, exec (.ascr l f) s = .next t ∧ Became l 3 (withAside (withScores (getL s l) ((getL s l).scores
      ++ (phaseCycles p.g p.h p.n (descAt (getL s l) d).w).flatMap (cycleScores (getL s l) d p.g p.reg p.first p.h0))) b) s t := by
  obtain ⟨u, hpush, hu⟩ := busy_pushDesc h hr (.ascr d p.g p.reg p.first p.n p.h0 p.h 0)
  have htry : tryAscr l f (passed l s) = .done u := by
    have hchecks := phaseChecks_pass h
    obtain ⟨rfl, rfl, rfl, -⟩ := h
    exact (withSc_passes hr.takes hchecks).trans hpush
  obtain ⟨v, hexec, hv⟩ := exec_runs (exec_ascr l f s) hr htry hu
  have hdesc : descAt (getL v l) d = descAt (getL s l) d := hv.data (descAt · d) fun _ => rfl
  obtain ⟨z, hrun, b, hz, -⟩ := runAscr_scores (i := 0) (h := p.h) h.ready (phaseCycles p.g p.h p.n (descAt (getL s l) d).w) (S := (getL s l).scores) (looks_start h hv)
    (fun c hc => cycle_within hc) hfree (Nat.le_trans (Nat.add_le_add_left (sum_cycles_le _ _ _ _) _) hroom)
  refine ⟨_, b, hexec, became_of_busy (runEngine_act (n := 63) (by decide) rfl hv ?_ hz)⟩
  simp only [stepOp, issuedEntry, startAscr, hdesc, List.drop_zero]
  exact hrun

theorem exec_aval_values (h : PhaseNamed l f s w d p) (hr : Runs l 3 (.aval l f) s)
    (hfree : ∀ c ∈ phaseCycles p.g p.h p.n (descAt (getL s l) d).w, common (phaseLines (getL s l) d 1 p.first p.h0 [c]) (earlierWrites (getL s l) (getL s l).issued) = false)
    (hblk : f.d.toNat + 4 * p.g * p.h ≤ 512) (hwait : accWaits (getL s l) (getL s l).issued f.d.toNat (4 * p.g * p.h) false = false)
    (hwaitc : accWaits (getL s l) (getL s l).issued f.d.toNat (4 * p.g * p.h) (f.f.getLsbD 0) = false) {r : SMap Block × List (Nat × Nat × Int × Nat × Bool) × Nat}
    (hfold : valueFold (getL s l) d f.d.toNat p.g p.first p.h0 (phaseCycles p.g p.h p.n (descAt (getL s l) d).w)
      (if f.f.getLsbD 0 then clearBlocks (getL s l).acc f.d.toNat (4 * p.g * p.h) else (getL s l).acc, (getL s l).probs, (getL s l).probOut) = some r) :
    ∃ t b, exec (.aval l f) s = .next t ∧ Became l 3 (withAside (withValues (getL s l) r) b) s t := by
  obtain ⟨u, hpush, hu⟩ := busy_pushDesc h hr (.aval d p.g p.reg f.d.toNat p.first p.n p.h0 p.h (f.f.getLsbD 0) 0)
  have hsome : phaseCycles p.g p.h p.n (descAt (getL s l) d).w ≠ [] := by
    rw [h.args]
    refine phaseCycles_ne_nil (Nat.succ_pos _) (Nat.succ_pos _) (Nat.succ_pos _) ?_
    unfold descAt descOf
    dsimp only
    split_ifs
    · exact .inr rfl
    · exact .inl rfl
  have htry : tryAval l f (passed l s) = .done u := by
    have hchecks := List.forall_mem_append.2 ⟨phaseChecks_pass h, passes_cons (blockCheck_passes hblk) passes_nil⟩
    obtain ⟨rfl, rfl, rfl, -⟩ := h
    exact (withSc_passes hr.takes hchecks).trans hpush
  obtain ⟨v, hexec, hv⟩ := exec_runs (exec_aval l f s) hr htry hu
  have hdesc : descAt (getL v l) d = descAt (getL s l) d := hv.data (descAt · d) fun _ => rfl
  obtain ⟨z, hrun, b, hz, -⟩ := runAval_values (i := 0) (f := p.reg) h.ready hwait hwaitc (phaseCycles p.g p.h p.n (descAt (getL s l) d).w)
    (r0 := ((getL s l).acc, (getL s l).probs, (getL s l).probOut)) (looks_start h hv) (fun hnil => absurd hnil hsome) (fun c hc => cycle_within hc) hfree
    (by rw [show (0 == 0) = true from rfl, Bool.and_true]; exact hfold)
  refine ⟨_, b, hexec, became_of_busy (runEngine_act (n := 63) (by decide) rfl hv ?_ hz)⟩
  simp only [stepOp, issuedEntry, startAval, hdesc, List.drop_zero]
  exact hrun

theorem exec_qld_loads {a n : Nat} (hr : Runs l 3 (.qld l f) s) (hw : w = getReg (getL s l) f.sc) (ha : a = f.a.toNat + w.toNat / 2 ^ 48) (hn : n = w.toNat % 2 ^ 7)
    (hz : w.toNat % 2 ^ 48 < 2 ^ 7) (hlo : 1 ≤ n) (hfit : f.d.toNat + n ≤ 64) (hrange : rangeOk (getL s l) a (2 * n) = true)
    (hsound : soundLines (getL s l) a (2 * n)) (hclear : hazard s l a (2 * n) 2 = none) :
    ∃ t, exec (.qld l f) s = .next t ∧ Became l 3 { getL s l with queries := loadedQueries (getL s l) a f.d.toNat n (getL s l).queries } s t := by
  have htry : tryQld l f (passed l s) = pushOp l 3 (.qld a f.d.toNat n) (.qld l f) (passed l s) := by
    rw [← bitsAt_zero] at hn
    subst hw ha hn
    exact withSc_passes hr.takes (passes_cons (scZero_passes hz) <| passes_cons (paramCheck_passes hlo (by omega)) <|
      passes_cons (paramCheck_passes (by omega) hfit) <| passes_cons (lineCheck_passes hrange) passes_nil)
  exact exec_engine (exec_qld l f s) hr htry (finishes_reads (by decide) rfl (readsSound_keepReads hsound hclear) (linesOf_keepReads _ _ _ _)
    fun t ht => ⟨_, rfl, loadQueries_loads (getL s l) n ht⟩)

end

/-- Settles O22: registers loaded, and each phase taken cycle by cycle. -/
theorem attention : Obligations.Attention := by
  unfold Obligations.Attention
  intro l f s w hw
  refine ⟨?_, ?_⟩
  · intro a n hr ha hn hz hlo hfit hrange hsound hclear
    exact exec_qld_loads hr hw ha hn hz hlo hfit hrange hsound hclear
  · intro d p hd hp hz hline hqueries hshare htokens hheads
    have h : PhaseNamed l f s w d p := ⟨hw, hd, hp, hz, hline, hqueries, hshare, htokens, hheads⟩
    refine ⟨fun hr hfree hroom => ?_, fun r hr hfree hblk hwait hwaitc hfold => ?_⟩
    · obtain ⟨t, b, hexec, ht⟩ := exec_ascr_scores h hr hfree hroom
      refine ⟨t, b, hexec, ?_⟩
      rw [funext (cycleScores_tokens (getL s l) d p.g p.reg p.first p.h0)] at ht
      exact ht
    · exact exec_aval_values h hr hfree hblk hwait hwaitc hfold

end Sys2Proof.AttentionRun
end

section
/-!
PROOFS. Words of lantern instructions (06 R174, R175): each format's fields read back from a packed word, and so each instruction from its word.
-/

open Sys2Proof Sys2Proof.Machine

namespace Sys2Proof.Words

open BitVec

/-! ## The fields of a packed word, format by format (Table 6-1) -/

theorem toFin_ofNat_reg (r : Fin 32) : ((BitVec.ofNat 5 r.val).toFin : Fin 32) = r := Fin.ext (Nat.mod_eq_of_lt r.isLt)
theorem toFin_ofNat_queue (q : Fin 16) : ((BitVec.ofNat 4 q.val).toFin : Fin 16) = q := Fin.ext (Nat.mod_eq_of_lt q.isLt)

/-- A bit of the upper of two parts of a word. -/
theorem getLsbD_append_high {v w i : Nat} (x : BitVec v) (y : BitVec w) (h : w ≤ i) : (x ++ y).getLsbD i = x.getLsbD (i - w) := by
  rw [getLsbD_append, if_neg (Nat.not_lt.2 h)]

/-- A bit of the lower of two parts of a word. -/
theorem getLsbD_append_low {v w i : Nat} (x : BitVec v) (y : BitVec w) (h : i < w) : (x ++ y).getLsbD i = y.getLsbD i := by
  rw [getLsbD_append, if_pos h]

theorem getLsbD_ofBool_zero (b : Bool) : (ofBool b).getLsbD 0 = b := by cases b <;> rfl

section
variable (op : Nat)

theorem readC_packC (f : FmtC) : readC (packC op f) = f := by
  simp (disch := omega) only [readC, packC, extractLsb'_append_eq_of_add_le, extractLsb'_eq_self]

theorem readS_packS (f : FmtS) : readS (packS op f) = f := by
  simp (disch := omega) only [readS, regAt, packS, extractLsb'_append_eq_of_add_le, extractLsb'_append_eq_of_le, extractLsb'_eq_self, Nat.reduceSub,
    toFin_ofNat_reg]

theorem readJ_packJ (f : FmtJ) : readJ (packJ op f) = f := by
  simp (disch := omega) only [readJ, regAt, packJ, extractLsb'_append_eq_of_add_le, extractLsb'_append_eq_of_le, extractLsb'_eq_self, Nat.reduceSub,
    toFin_ofNat_reg]

theorem readA_packA (f : FmtA) : readA (packA op f) = f := by
  simp (disch := omega) only [readA, packA, extractLsb'_append_eq_of_add_le, extractLsb'_append_eq_of_le, extractLsb'_eq_self, Nat.reduceSub,
    getLsbD_append_low, getLsbD_append_high, getLsbD_ofBool_zero]

theorem readK_packK (f : FmtK) : readK (packK op f) = f := by
  simp (disch := omega) only [readK, packK, extractLsb'_append_eq_of_add_le, extractLsb'_append_eq_of_le, extractLsb'_eq_self, Nat.reduceSub,
    getLsbD_append_low, getLsbD_append_high, getLsbD_ofBool_zero]

theorem readL_packL (f : FmtL) : readL (packL op f) = f := by
  simp (disch := omega) only [readL, regAt, packL, extractLsb'_append_eq_of_add_le, extractLsb'_append_eq_of_le, extractLsb'_eq_self, Nat.reduceSub,
    toFin_ofNat_reg]

theorem readQ_packQ (f : FmtQ) : readQ (packQ op f) = f := by
  simp (disch := omega) only [readQ, regAt, packQ, extractLsb'_append_eq_of_add_le, extractLsb'_append_eq_of_le, extractLsb'_eq_self, Nat.reduceSub,
    getLsbD_append_low, getLsbD_append_high, getLsbD_ofBool_zero, toFin_ofNat_reg, toFin_ofNat_queue]

/-! ## The opcode of a packed word -/

theorem opcode_packC (f : FmtC) : (packC op f).extractLsb' 56 8 = BitVec.ofNat 8 op := by
  simp (disch := omega) only [packC, extractLsb'_append_eq_of_le, extractLsb'_eq_self, Nat.reduceSub]
theorem opcode_packS (f : FmtS) : (packS op f).extractLsb' 56 8 = BitVec.ofNat 8 op := by
  simp (disch := omega) only [packS, extractLsb'_append_eq_of_le, extractLsb'_eq_self, Nat.reduceSub]
theorem opcode_packJ (f : FmtJ) : (packJ op f).extractLsb' 56 8 = BitVec.ofNat 8 op := by
  simp (disch := omega) only [packJ, extractLsb'_append_eq_of_le, extractLsb'_eq_self, Nat.reduceSub]
theorem opcode_packA (f : FmtA) : (packA op f).extractLsb' 56 8 = BitVec.ofNat 8 op := by
  simp (disch := omega) only [packA, extractLsb'_append_eq_of_le, extractLsb'_eq_self, Nat.reduceSub]
theorem opcode_packK (f : FmtK) : (packK op f).extractLsb' 56 8 = BitVec.ofNat 8 op := by
  simp (disch := omega) only [packK, extractLsb'_append_eq_of_le, extractLsb'_eq_self, Nat.reduceSub]
theorem opcode_packL (f : FmtL) : (packL op f).extractLsb' 56 8 = BitVec.ofNat 8 op := by
  simp (disch := omega) only [packL, extractLsb'_append_eq_of_le, extractLsb'_eq_self, Nat.reduceSub]
theorem opcode_packQ (f : FmtQ) : (packQ op f).extractLsb' 56 8 = BitVec.ofNat 8 op := by
  simp (disch := omega) only [packQ, extractLsb'_append_eq_of_le, extractLsb'_eq_self, Nat.reduceSub]

end

/-! ## Instructions and their words -/

/-- An instruction of a lantern is what its word spells there. -/
theorem decodeFields_encodeWord {i : Instr} (h : fieldsOk i = true) : ∃ l, decodeFields l (encodeWord i) = some i := by
  cases i with
  | nop l f | step l f | fence l f | trapi l f =>
    exact ⟨l, by rw [encodeWord, decodeFields, opcode_packC, readC_packC]; rfl⟩
  | add l f | sub l f | and l f | or l f | xor l f | shl l f | shr l f | sar l f | mul l f | slt l f | sltu l f | addi l f | lih l f | sld l f | sst l f
  | rds l f =>
    exact ⟨l, by rw [encodeWord, decodeFields, opcode_packS, readS_packS]; rfl⟩
  | beq l f | bne l f | blt l f | bge l f | jmp l f | jr l f =>
    exact ⟨l, by rw [encodeWord, decodeFields, opcode_packJ, readJ_packJ]; rfl⟩
  | aop l f => exact ⟨l, by rw [encodeWord, decodeFields, opcode_packA, readA_packA]; rfl⟩
  | aclr l f | ard l f | aexp l f | aimp l f =>
    exact ⟨l, by rw [encodeWord, decodeFields, opcode_packK, readK_packK]; rfl⟩
  | widot l f | wfdot l f | wvb l f | wvu l f | wred l f | wsmx l f | wqnt l f | wgth l f | wtopk l f | wsmp l f | qld l f | ascr l f | aval l f | kapp l f
  | kmark l f | krew l f | krel l f | kwalk l f | kxfr l f | copy l f | trd l f | send l f | clr l f =>
    exact ⟨l, by rw [encodeWord, decodeFields, opcode_packL, readL_packL]; rfl⟩
  | recv l f | qpeek l f | qpop l f | qmark l f | qrewind l f | qrel l f | qstat l f =>
    exact ⟨l, by rw [encodeWord, decodeFields, opcode_packQ, readQ_packQ]; rfl⟩
  | _ => exact absurd h Bool.false_ne_true

/-- A word is read as i when its opcode and fields spell i, its reserved bits are zero and the fields of i pass. -/
theorem decodeWord_eq_some {l : Nat} {w : Word} {i : Instr} :
    decodeWord l w = some i ↔ decodeFields l w = some i ∧ encodeWord i = w ∧ fieldsOk i = true := by
  unfold decodeWord reservedZero
  cases decodeFields l w with
  | none => simp
  | some j =>
    simp only [Option.ite_none_right_eq_some, Bool.and_eq_true, beq_iff_eq, Option.some.injEq]
    constructor
    · rintro ⟨hok, rfl⟩
      exact ⟨rfl, hok⟩
    · rintro ⟨rfl, hok⟩
      exact ⟨hok, rfl⟩

/-- Settles O8: what is packed is read back field by field, and the checks of a word compare it with what is read. -/
theorem wordsRoundTrip : Obligations.WordsRoundTrip := by
  unfold Obligations.WordsRoundTrip
  refine ⟨fun i hok => ?_, fun l w i h => (decodeWord_eq_some.1 h).2⟩
  obtain ⟨l, hl⟩ := decodeFields_encodeWord hok
  exact ⟨l, decodeWord_eq_some.2 ⟨hl, rfl, hok⟩⟩

end Sys2Proof.Words
end

section
/-!
PROOFS. RDS (06 R181, Table 6-4; 08 R240): the value it reads, and the value 4 of a lantern whose copy of the time base stands before time 0.
-/

open Sys2Proof Sys2Proof.Machine

namespace Sys2Proof.RdsValues

open Sys2Proof.Scalars

section
variable {l : Nat} {f : FmtS} {s : State}

theorem rdsValue_passed (n : Nat) : rdsValue (passed l s) l n = rdsValue s l n := by
  unfold rdsValue
  rw [getL_passed]
  rfl

theorem tryRds_passed {i : Instr} (h : Takes l i s) : tryRds l f (passed l s) = .done (setReg (passed l s) l f.sd (rdsValue s l f.imm.toNat)) := by
  unfold tryRds
  rw [withRegs_free _ _ (pending_passed h.regs), rdsValue_passed]

theorem exec_rds_reads (h : Takes l (.rds l f) s) (hpc : (getL s l).pc ≠ 8191) :
    exec (.rds l f) s = .next (retired l (setReg (passed l s) l f.sd (rdsValue s l f.imm.toNat))) := by
  rw [exec_rds, execRds, lanternOk_of_lt h.unit, guarded_true, issue_setReg h hpc (tryRds_passed h)]

theorem getReg_retired_setReg {r : Fin 32} (t : State) (v : Word) (hr : r ≠ 0) : getReg (getL (retired l (setReg t l r v)) l) r = v := by
  obtain ⟨_, hc⟩ := getL_countL (setReg t l r v) l 0x02 1 l
  rw [retired, hc]
  exact getReg_setReg_same t l r v hr

/-- Value 4 is the sum of O10 as long as that sum is not negative; a copy before time 0 reads 0, where a sum of words wraps. -/
theorem rdsValue_time (h : 0 ≤ (nowNs s : Int) + tget 0 s.skew (200 + l)) : rdsValue s l 4 = s.now + BitVec.ofInt 64 (tget 0 s.skew (200 + l)) := by
  show BitVec.ofNat 64 ((nowNs s : Int) + tget 0 s.skew (200 + l)).toNat = _
  rw [← BitVec.ofInt_natCast, Int.toNat_of_nonneg h, BitVec.ofInt_add, BitVec.ofInt_natCast, nowNs, BitVec.ofNat_toNat,
    BitVec.setWidth_eq]

end

/-! ## The counterexample -/

/-- A partition of field 0. -/
def oneField : Partition :=
  { state := .loaded, fx0 := 0, fy0 := 0, w := 1, h := 1, quiet := false, cistern := false, port := .a, vf := 1, zen := 0, hgonly := 0, zchan := 0, window := 1,
    windowNext := none, watchdog := 10, watchdogNext := none, share := 100, shareNext := none, share0 := 100, epoch := 0 }

/-- At time 0 lantern 0 runs, and its copy of the time base is 1 ns behind. -/
def copyBehindZero : State :=
  { State.reset with
    lanterns := [(0, { on := true, timeOk := true, running := true })], parts := [(0, some oneField)], skew := [(200, -1)] }

/-- RDS of the time base into s1. -/
def readTime : FmtS := ⟨1, 0, 0, 4⟩

theorem takes_readTime : Takes 0 (.rds 0 readTime) copyBehindZero := ⟨by decide, by decide, by decide, by decide, by decide⟩

/-- Refutes O10, by the clause of RDS 4: the model reads 0 from a copy 1 ns before time 0, where the clause's sum of words is 2 ^ 64 - 1. -/
theorem not_scalarImmediate : ¬ Obligations.ScalarImmediate := by
  unfold Obligations.ScalarImmediate
  intro h
  have hpc : (getL copyBehindZero 0).pc ≠ 8191 := by decide
  obtain ⟨-, -, hrds, -⟩ := h 0 readTime copyBehindZero hpc
  have hstated := hrds takes_readTime 0 oneField (by decide) rfl
  rw [exec_rds_reads takes_readTime hpc] at hstated
  have hreg := congrArg (fun t => getReg (getL t 0) readTime.sd) (Host.Outcome.next.inj hstated)
  rw [getReg_retired_setReg _ _ (by decide), getReg_retired_setReg _ _ (by decide)] at hreg
  exact absurd hreg (by decide)

end Sys2Proof.RdsValues
end

section
/-!
PROOFS. The accumulator port (04 R133, R134; 06 R184, R185; 05 R156): blocks emptied, read out to lines, sent line by line through a sluice entry, and placed from
the lines of an import lane.
-/

open Sys2Proof Sys2Proof.Machine

namespace Sys2Proof.PortRun

open Sys2Proof.ArrayIssue Sys2Proof.EngineRun Sys2Proof.WideRun Sys2Proof.QueueRun Sys2Proof.SendRun

/-- An operation without operand lines leaves another to do. -/
theorem finishes_goes_on {l e n : Nat} {x : EngEntry} {K L M : Lantern} {s : State} (he : e ≠ 6) (hnone : opReads x.op = []) {op : EOp}
    (h : ∀ t, Busy l e L ⟨[x], 0, 0⟩ s t → ∃ u, stepOp l e x t = .more op u ∧ Busy l e K ⟨[x], 0, 0⟩ s u)
    (hrest : Finishes l e n { x with op := op, got := [] } K M s) : Finishes l e (n + 1) x L M s := by
  refine finishes_more he (fun t ht => ?_) hrest
  obtain ⟨u, hmore, hu⟩ := h t ht
  refine ⟨t, [], u, by rw [hnone, List.drop_nil, gather], ?_, hu⟩
  rw [List.append_nil]
  exact hmore

/-! ## Clears and readouts (06 R184) -/

section
variable {l e : Nat} {L : Lantern} {g : Engine} {s t : State}

theorem busy_withAcc (h : Busy l e L g s t) (f : SMap Block → SMap Block) : Busy l e { L with acc := f L.acc } g s (updL t l (fun K => { K with acc := f K.acc })) :=
  busy_updL h (f := fun K => { K with acc := f K.acc }) fun _ => rfl

/-- A lantern after ARD or AEXP with CLR as clr. -/
def clearedBy (clr : Bool) (b n : Nat) (L : Lantern) : Lantern := { L with acc := if clr then clearBlocks L.acc b n else L.acc }

theorem busy_cleared (h : Busy l e L g s t) (clr : Bool) (b n : Nat) : Busy l e (clearedBy clr b n L) g s
    (if clr then updL t l (fun K => { K with acc := clearBlocks K.acc b n }) else t) := by
  cases clr
  · exact h
  · exact busy_withAcc h fun m => clearBlocks m b n

theorem busy_acc (h : Busy l e L g s t) : (getL t l).acc = L.acc := h.data Lantern.acc fun _ => rfl

end

section
variable {l : Nat} {f : FmtK} {s : State} {b n : Nat}

/-- The blocks that an instruction of the port names. -/
structure Blocks (f : FmtK) (b n : Nat) : Prop where
  first : b = f.acc.toNat
  count : n = f.nb.toNat + 1
  fit : b + n ≤ 512

theorem Blocks.check (h : Blocks f b n) : (blockCheck f.acc.toNat (f.nb.toNat + 1)).1 = true := by
  obtain ⟨rfl, rfl, hfit⟩ := h
  exact blockCheck_passes hfit

theorem exec_aclr_clears (h : Blocks f b n) (hw : accWaits (getL s l) (getL s l).issued b n true = false) (hr : Runs l 1 (.aclr l f) s) :
    ∃ t, exec (.aclr l f) s = .next t ∧ Became l 1 { getL s l with acc := clearBlocks (getL s l).acc b n } s t := by
  have htry : tryAclr l f (passed l s) = pushOp l 1 (.aclr b n) (.aclr l f) (passed l s) := by
    rw [h.first, h.count]
    exact checked_pass _ _ (passes_cons h.check passes_nil)
  refine exec_engine (exec_aclr l f s) hr htry (finishes_act (by decide) rfl fun t ht => ⟨_, ?_, busy_withAcc ht fun m => clearBlocks m b n⟩)
  simp only [stepOp, issuedEntry, runAclr, ht.accWaits rfl rfl hw, Bool.false_eq_true, if_false]

theorem runArd_emits {g : Engine} {t : State} (ht : Busy l 1 (getL s l) g s t) (hw : accWaits (getL s l) (getL s l).issued b n true = false)
    (line ty : Nat) (clr : Bool) : ∃ u, runArd l (getL s l).issued b n line ty clr t
        = .more (.emit line (resultLines ((readoutLines ty (readBlocks (getL s l).acc b n)).map (·.1)) ty)) u
      ∧ Busy l 1 (clearedBy clr b n (getL s l)) g s u := by
  unfold runArd
  simp only [ht.accWaits rfl rfl hw, Bool.false_eq_true, if_false, busy_acc ht]
  exact ⟨_, rfl, busy_cleared (busy_countL (busy_countL (busy_countL ht 0x28 _) 0x29 _) 0x2A _) clr b n⟩

theorem exec_ard_reads (h : Blocks f b n) (hw : accWaits (getL s l) (getL s l).issued b n true = false) (hr : Runs l 1 (.ard l f) s) {xs : List (Line × Bool)}
    (hxs : xs = (readoutLines f.typ.toNat (readBlocks (getL s l).acc b n)).map (·.1))
    (hrange : rangeOk (getL s l) f.line.toNat (linesFor (32 * n) (lineElems f.typ.toNat)) = true) (hfree : freeLines (getL s l) f.line.toNat xs.length) :
    ∃ t, exec (.ard l f) s = .next t
      ∧ Became l 1 (wrote (clearedBy f.clr b n (getL s l)) f.line.toNat (resultLines xs f.typ.toNat)) s t := by
  have htry : tryArd l f (passed l s) = pushOp l 1 (.ard b n f.line.toNat f.typ.toNat f.clr) (.ard l f) (passed l s) := by
    rw [h.first, h.count]
    rw [h.count] at hrange
    exact checked_pass _ _ (passes_cons h.check <| passes_cons (lineCheck_passes hrange) passes_nil)
  subst hxs
  refine exec_engine (exec_ard l f s) hr htry (finishes_goes_on (by decide) rfl (fun t ht => runArd_emits ht hw _ _ _) (finishes_emit (by decide) rfl ?_))
  rw [length_resultLines]
  exact hfree

end

/-- Settles O15: the port waits for nothing, so the blocks are cleared, or read out to lines that are empty. -/
theorem accumulatorPort : Obligations.AccumulatorPort := by
  unfold Obligations.AccumulatorPort
  intro l f s b n hb hn hfit hw
  have h : Blocks f b n := ⟨hb, hn, hfit⟩
  exact ⟨exec_aclr_clears h hw, fun _ hr hxs hrange hfree => exec_ard_reads h hw hr hxs hrange hfree⟩

/-! ## Flits through a sluice entry (05 R156) -/

/-- Flit f as sluice entry E sends it. -/
def posted (E : Sluice) (f : Flit) : Flit := { f with cls := E.cls, dst := BitVec.ofNat 11 E.dest }

/-- Lantern L with n credits of entry ent used. -/
def withSpent (L : Lantern) (ent n : Nat) : Lantern := { L with sluices := tset {} L.sluices ent (spent (getSl L ent) n) }

theorem getSl_withSpent (L : Lantern) (ent n : Nat) : getSl (withSpent L ent n) ent = spent (getSl L ent) n := tget_tset_same _ _ _ _

theorem withSpent_withSpent {L : Lantern} {ent : Nat} (n : Nat) (h : 1 < (getSl L ent).credits) : withSpent (withSpent L ent 1) ent n = withSpent L ent (n + 1) := by
  have hused : spent (getSl L ent) 1 ≠ {} := fun e => by
    have hzero : (getSl L ent).credits - 1 = 0 := congrArg Sluice.credits e
    omega
  have htwice : spent (spent (getSl L ent) 1) n = spent (getSl L ent) (n + 1) := by rw [spent, spent, spent, Nat.sub_sub, Nat.add_comm 1 n]
  rw [withSpent, getSl_withSpent, htwice]
  exact congrArg (fun m => ({ L with sluices := m } : Lantern)) (tset_tset _ _ _ _ hused)

theorem getSl_injectedL (now e : Nat) (fs : List Flit) (L : Lantern) (ent : Nat) : getSl (injectedL now e fs L) ent = getSl L ent :=
  injectedL_keeps (getSl · ent) (fun _ _ => rfl) (fun _ _ _ => rfl) now e fs L

theorem withSpent_injectedL (now e : Nat) (fs : List Flit) (L : Lantern) (ent n : Nat) :
    withSpent (injectedL now e fs L) ent n = injectedL now e fs (withSpent L ent n) := by
  have hset := injectedL_update (f := fun K => { K with sluices := tset {} L.sluices ent (spent (getSl L ent) n) })
    ⟨fun _ => rfl, fun _ => ⟨rfl, rfl, rfl⟩, fun _ _ => rfl, fun _ _ _ => rfl⟩ now e fs L
  have hsluices : (injectedL now e fs L).sluices = L.sluices := injectedL_keeps Lantern.sluices (fun _ _ => rfl) (fun _ _ _ => rfl) now e fs L
  rw [withSpent, getSl_injectedL, hsluices]
  exact hset.symm

section
variable {l e ent : Nat} {g : Engine} {s : State}

/-- The first flit of a list, of an entry with a credit. -/
theorem sendFlits_cons {L : Lantern} {t : State} (h : Busy l e L g s t) (hc : 0 < (getSl L ent).credits - withheld s l ent) (hp : (getSl L ent).poisonNext = false)
    (f : Flit) (fs : List Flit) : ∃ u, sendFlits l e ent (f :: fs) t = sendFlits l e ent fs u
      ∧ Busy l e (injectedL (nowNs s) e [posted (getSl L ent) f] (withSpent L ent 1)) g s u := by
  have hspent : { spent (getSl L ent) 1 with poisonNext := false } = spent (getSl L ent) 1 := by rw [spent, ← hp]
  have hset : Busy l e (withSpent L ent 1) g s (updSl t l ent (fun E => { E with credits := E.credits - 1, poisonNext := false })) := by
    rw [withSpent, ← hspent]
    exact busy_updL h (f := fun K => { K with sluices := tupd {} K.sluices ent (fun E => { E with credits := E.credits - 1, poisonNext := false }) }) fun _ => rfl
  refine ⟨_, ?_, busy_injectL hset e _⟩
  have hleft : creditsLeft t l ent ≠ 0 := by
    rw [creditsLeft, h.getSl, busy_withheld h]
    omega
  simp only [sendFlits, hleft, if_false, h.getSl, hp, Bool.or_false]
  rfl

/-- An entry with a credit for each of its flits sends them all. -/
theorem sendFlits_sends (fs : List Flit) : ∀ {L : Lantern} {t : State}, Busy l e L g s t → fs ≠ [] → fs.length ≤ (getSl L ent).credits - withheld s l ent →
    (getSl L ent).poisonNext = false →
    ∃ u, sendFlits l e ent fs t = .done u ∧ Busy l e (injectedL (nowNs s) e (fs.map (posted (getSl L ent))) (withSpent L ent fs.length)) g s u := by
  induction fs with
  | nil => exact fun _ h => absurd rfl h
  | cons f fs ih =>
    intro L t h _ hcredits hp
    rw [List.length_cons] at hcredits
    obtain ⟨u, hsend, hu⟩ := sendFlits_cons h (by omega) hp f fs
    by_cases hfs : fs = []
    · subst hfs
      exact ⟨u, hsend, hu⟩
    · have hlen : 0 < fs.length := List.length_pos_iff.2 hfs
      have hsl : getSl (injectedL (nowNs s) e [posted (getSl L ent) f] (withSpent L ent 1)) ent = spent (getSl L ent) 1 := by
        rw [getSl_injectedL, getSl_withSpent]
      obtain ⟨v, hrest, hv⟩ := ih hu hfs (by rw [hsl, spent]; dsimp only; omega) (by rw [hsl]; exact hp)
      refine ⟨v, hsend.trans hrest, ?_⟩
      rw [hsl, withSpent_injectedL, withSpent_withSpent _ (by omega)] at hv
      exact hv

end

/-! ## Blocks sent (06 R185) -/

theorem exportLines_ne_nil (b : Block) : exportLines b ≠ [] := by
  unfold exportLines
  split
  · exact List.cons_ne_nil _ _
  · exact List.cons_ne_nil _ _

theorem length_accxFlits (l lane : Nat) (acc : SMap Block) (b n : Nat) :
    (accxFlits l lane acc b n).length = ((List.range n).flatMap (fun i => exportLines (getBlk { acc := acc } (b + i)))).length := by
  rw [accxFlits, List.length_map, List.length_zip, List.length_range, Nat.min_self]

theorem accxFlits_ne_nil (l lane : Nat) (acc : SMap Block) (b n : Nat) : accxFlits l lane acc b (n + 1) ≠ [] := by
  rw [← List.length_pos_iff, length_accxFlits, List.length_pos_iff]
  exact fun hnil => exportLines_ne_nil _ (List.flatMap_eq_nil_iff.1 hnil 0 (List.mem_range.2 (Nat.succ_pos n)))

section
variable {l : Nat} {f : FmtK} {s : State} {b n : Nat}

theorem runAexp_injects {g : Engine} {t : State} (ht : Busy l 1 (getL s l) g s t) (hw : accWaits (getL s l) (getL s l).issued b n true = false) {ent : Nat}
    (hdest : slDestOk s l ent = true) (clr : Bool) :
    ∃ u, runAexp l (getL s l).issued b n ent clr t = .more (.inject ent (accxFlits l (getSl (getL s l) ent).num (getL s l).acc b n)) u
      ∧ Busy l 1 (clearedBy clr b n (getL s l)) g s u := by
  unfold runAexp
  simp only [ht.accWaits rfl rfl hw, busy_slDestOk ht rfl, hdest, Bool.not_true, Bool.false_eq_true, if_false, busy_acc ht, ht.getSl]
  exact ⟨_, rfl, busy_cleared ht clr b n⟩

/-- The port sends the flits that it has made. -/
theorem finishes_inject {m ent : Nat} {x : EngEntry} {fs : List Flit} {L : Lantern} (hop : x.op = .inject ent fs) (hne : fs ≠ [])
    (hcredits : fs.length ≤ (getSl L ent).credits - withheld s l ent) (hp : (getSl L ent).poisonNext = false) :
    Finishes l 1 (m + 1) x L (injectedL (nowNs s) 1 (fs.map (posted (getSl L ent))) (withSpent L ent fs.length)) s := by
  refine finishes_act (by decide) (by rw [hop]; rfl) fun t ht => ?_
  obtain ⟨u, hsend, hu⟩ := sendFlits_sends fs ht hne hcredits hp
  refine ⟨u, ?_, hu⟩
  unfold stepOp
  rw [hop]
  simp only [hsend]
  rfl

theorem exec_aexp_sends (h : Blocks f b n) (hr : Runs l 1 (.aexp l f) s) (hw : accWaits (getL s l) (getL s l).issued b n true = false)
    (hdest : slDestOk s l f.ent.toNat = true) {fs : List Flit} (hfs : fs = accxFlits l (getSl (getL s l) f.ent.toNat).num (getL s l).acc b n)
    (hcredits : fs.length ≤ creditsLeft s l f.ent.toNat) (hp : (getSl (getL s l) f.ent.toNat).poisonNext = false) :
    ∃ t, exec (.aexp l f) s = .next t ∧ Became l 1 (injectedL (nowNs s) 1 (fs.map (posted (getSl (getL s l) f.ent.toNat)))
      (withSpent (clearedBy f.clr b n (getL s l)) f.ent.toNat fs.length)) s t := by
  have htry : tryAexp l f (passed l s) = pushOp l 1 (.aexp b n f.ent.toNat f.clr) (.aexp l f) (passed l s) := by
    rw [h.first, h.count]
    exact checked_pass _ _ (passes_cons h.check passes_nil)
  have hne : fs ≠ [] := by
    rw [hfs, h.count]
    exact accxFlits_ne_nil _ _ _ _ _
  subst hfs
  exact exec_engine (exec_aexp l f s) hr htry (finishes_goes_on (by decide) rfl (fun t ht => runAexp_injects ht hw hdest _)
    (finishes_inject (L := clearedBy f.clr b n (getL s l)) rfl hne hcredits hp))

end

/-! ## Blocks placed from a lane (06 R185) -/

/-- Lantern L with accumulator acc and lines rest left in a lane. -/
def imported (L : Lantern) (lane : Nat) (acc : SMap Block) (rest : List (Line × Bool × Bool)) : Lantern :=
  { L with acc := acc, lanes := tset {} L.lanes lane { getLane L lane with buf := rest } }

theorem getLane_imported (L : Lantern) (lane : Nat) (acc : SMap Block) (rest : List (Line × Bool × Bool)) :
    getLane (imported L lane acc rest) lane = { getLane L lane with buf := rest } := tget_tset_same _ _ _ _

theorem imported_imported {L : Lantern} {lane : Nat} {acc acc' : SMap Block} {xs rest : List (Line × Bool × Bool)} (hxs : xs ≠ []) :
    imported (imported L lane acc xs) lane acc' rest = imported L lane acc' rest := by
  have hne : ({ getLane L lane with buf := xs } : Lane) ≠ {} := fun e => hxs (congrArg Lane.buf e)
  rw [imported, getLane_imported]
  exact congrArg (fun m => ({ L with acc := acc', lanes := m } : Lantern)) (tset_tset _ _ _ _ hne)

section
variable {l lane : Nat} {g : Engine} {s : State}

/-- One line of a lane placed into block b. -/
theorem placeLane_busy {L : Lantern} {t : State} (h : Busy l 1 L g s t) {b : Nat} {x : Line} {p e : Bool} {rest : List (Line × Bool × Bool)} {a : Placed}
    (ha : placeList (importLine b x p e) ⟨L.acc, 0, 0⟩ = some a) :
    ∃ u, placeIn t l (importLine b x p e) = some u ∧ Busy l 1 (imported L lane a.acc rest) g s (updLane u l lane (fun k => { k with buf := rest })) := by
  obtain ⟨u, hplace, hu⟩ := placeIn_busy h ha
  exact ⟨u, hplace, busy_updL hu (f := fun K => { K with lanes := tupd {} K.lanes lane (fun k => { k with buf := rest }) }) fun _ => rfl⟩

theorem importBlocks_nil_succ (b n : Nat) (acc : SMap Block) : importBlocks [] b (n + 1) acc = none := by rw [importBlocks]

/-- What an import of a line and then of the rest takes is what it takes of the whole. -/
theorem importBlocks_cons {x : Line} {p e : Bool} {xs rest : List (Line × Bool × Bool)} {b n m : Nat} {A acc : SMap Block}
    (h : importBlocks ((x, p, e) :: xs) b (n + 1) A = some (acc, rest, m)) : ∃ a k, placeList (importLine b x p e) ⟨A, 0, 0⟩ = some a ∧ m = k + 1
      ∧ (if importLast x e then importBlocks xs (b + 1) n a.acc else importBlocks xs b (n + 1) a.acc) = some (acc, rest, k) := by
  rw [importBlocks] at h
  obtain ⟨a, ha, hmap⟩ := Option.bind_eq_some_iff.1 h
  obtain ⟨⟨acc', rest', k⟩, hrec, heq⟩ := Option.map_eq_some_iff.1 hmap
  cases heq
  exact ⟨a, k, ha, rfl, hrec⟩

/-- A lantern with a line placed, and then the rest of an import of n blocks. -/
theorem imported_rest {L : Lantern} {xs rest : List (Line × Bool × Bool)} {b n m : Nat} {A acc : SMap Block}
    (h : importBlocks xs b n A = some (acc, rest, m)) :
    (if n = 0 then imported L lane A xs else imported (imported L lane A xs) lane acc rest) = imported L lane acc rest := by
  cases n with
  | zero =>
    rw [importBlocks] at h
    cases h
    rfl
  | succ n =>
    cases xs with
    | nil =>
      rw [importBlocks_nil_succ] at h
      exact absurd h.symm (Option.some_ne_none _)
    | cons x xs => exact imported_imported (List.cons_ne_nil _ _)

theorem busy_getLane {L : Lantern} {t : State} (h : Busy l 1 L g s t) : Machine.getLane (getL t l) lane = Machine.getLane L lane :=
  h.data (Machine.getLane · lane) fun _ => rfl

/-- The CREDIT flit for n lines of a lane of lantern L. -/
def laneCredit (l lane : Nat) (L : Lantern) (n : Nat) : Flit := creditFlit l (getLane L lane).cls (getLane L lane).producer 1 lane n

/-- With no block left the import returns its credits. -/
theorem runAimp_ends {L : Lantern} {t : State} (h : Busy l 1 L g s t) (seq b taken : Nat) {fuel : Nat} (hfuel : 0 < fuel) :
    ∃ u, runAimp l seq fuel b 0 lane taken t = .done u ∧ Busy l 1 (injectedL (nowNs s) 1 [laneCredit l lane L taken] L) g s u := by
  obtain ⟨k, rfl⟩ := Nat.exists_eq_add_one.2 hfuel
  refine ⟨_, ?_, busy_injectL h 1 _⟩
  simp only [runAimp, if_true, busy_getLane h]
  rfl

theorem runAimp_places (xs : List (Line × Bool × Bool)) : ∀ {L : Lantern} {t : State} {fuel b n taken m : Nat} {acc : SMap Block}
    {rest : List (Line × Bool × Bool)}, Busy l 1 L g s t → xs.length < fuel → (getLane L lane).buf = xs → L.banks = (getL s l).banks → L.arrays = (getL s l).arrays →
    (∀ i, i < n → accWaits (getL s l) (getL s l).issued (b + i) 1 false = false) → importBlocks xs b n L.acc = some (acc, rest, m) →
    ∃ u, runAimp l (getL s l).issued fuel b n lane taken t = .done u
      ∧ Busy l 1 (injectedL (nowNs s) 1 [laneCredit l lane L (taken + m)] (if n = 0 then L else imported L lane acc rest)) g s u := by
  induction xs with
  | nil =>
    intro L t fuel b n taken m acc rest h hfuel _ _ _ _ himport
    cases n with
    | zero =>
      rw [importBlocks] at himport
      cases himport
      exact runAimp_ends h _ b taken hfuel
    | succ n =>
      rw [importBlocks_nil_succ] at himport
      exact absurd himport.symm (Option.some_ne_none _)
  | cons y xs ih =>
    obtain ⟨x, p, e⟩ := y
    intro L t fuel b n taken m acc rest h hfuel hbuf hbanks harrays hwait himport
    cases n with
    | zero =>
      rw [importBlocks] at himport
      cases himport
      exact runAimp_ends h _ b taken (Nat.zero_lt_of_lt hfuel)
    | succ n =>
      obtain ⟨fuel, rfl⟩ := Nat.exists_eq_add_one.2 (Nat.zero_lt_of_lt hfuel)
      rw [List.length_cons, Nat.add_lt_add_iff_right] at hfuel
      obtain ⟨a, k, ha, rfl, hrec⟩ := importBlocks_cons himport
      obtain ⟨u, hplace, hu⟩ := placeLane_busy (lane := lane) (rest := xs) h ha
      have hbuf' : (getLane (imported L lane a.acc xs) lane).buf = xs := by rw [getLane_imported]
      have hcredit : ∀ n, laneCredit l lane (imported L lane a.acc xs) n = laneCredit l lane L n := fun n => by
        rw [laneCredit, getLane_imported]
        rfl
      have hfree : accWaits (getL t l) (getL s l).issued b 1 false = false := h.accWaits hbanks harrays (hwait 0 (Nat.succ_pos n))
      have hgo : ∀ {b' n'}, (∀ i, i < n' → accWaits (getL s l) (getL s l).issued (b' + i) 1 false = false) →
          importBlocks xs b' n' a.acc = some (acc, rest, k) →
          ∃ v, runAimp l (getL s l).issued fuel b' n' lane (taken + 1) (updLane u l lane (fun k => { k with buf := xs })) = .done v
            ∧ Busy l 1 (injectedL (nowNs s) 1 [laneCredit l lane L (taken + (k + 1))] (imported L lane acc rest)) g s v := by
        intro b' n' hw hr
        obtain ⟨v, hrun, hv⟩ := ih (taken := taken + 1) hu hfuel hbuf' hbanks harrays hw hr
        rw [imported_rest hr, hcredit, Nat.add_assoc, Nat.add_comm 1 k] at hv
        exact ⟨v, hrun, hv⟩
      rw [if_neg (Nat.succ_ne_zero n)]
      simp only [runAimp, Nat.succ_ne_zero, if_false, busy_getLane h, hbuf, hfree, Bool.false_eq_true, hplace, Nat.add_sub_cancel]
      cases hlast : importLast x e with
      | true =>
        rw [hlast, if_pos rfl] at hrec
        exact hgo (fun i hi => by rw [Nat.add_assoc, Nat.add_comm 1 i]; exact hwait (i + 1) (Nat.succ_lt_succ hi)) hrec
      | false =>
        rw [hlast, if_neg Bool.false_ne_true] at hrec
        exact hgo hwait hrec

end

section
variable {l : Nat} {f : FmtK} {s : State} {b n : Nat}

theorem exec_aimp_places (h : Blocks f b n) (hr : Runs l 1 (.aimp l f) s) {acc : SMap Block} {rest : List (Line × Bool × Bool)} {m : Nat}
    (himport : importBlocks (getLane (getL s l) f.ent.toNat).buf b n (getL s l).acc = some (acc, rest, m))
    (hwait : ∀ i, i < n → accWaits (getL s l) (getL s l).issued (b + i) 1 false = false) :
    ∃ t, exec (.aimp l f) s = .next t
      ∧ Became l 1 (injectedL (nowNs s) 1 [laneCredit l f.ent.toNat (getL s l) m] (imported (getL s l) f.ent.toNat acc rest)) s t := by
  have htry : tryAimp l f (passed l s) = pushOp l 1 (.aimp b n f.ent.toNat 0) (.aimp l f) (passed l s) := by
    rw [h.first, h.count]
    exact checked_pass _ _ (passes_cons h.check passes_nil)
  have hn : n ≠ 0 := by
    rw [h.count]
    exact Nat.succ_ne_zero _
  refine exec_engine (exec_aimp l f s) hr htry (finishes_act (by decide) rfl fun t ht => ?_)
  have hlen : (getLane (getL s l) f.ent.toNat).buf.length < (getLane (getL t l) f.ent.toNat).buf.length + n + 1 := by
    rw [busy_getLane ht]
    omega
  have hplaces := runAimp_places (lane := f.ent.toNat) (taken := 0) _ ht hlen rfl rfl rfl hwait himport
  rw [if_neg hn, Nat.zero_add] at hplaces
  exact hplaces

end

/-- Settles O16: each block's lines leave with a credit each, or come from the lane until the last block has its last. -/
theorem accumulatorMoves : Obligations.AccumulatorMoves := by
  unfold Obligations.AccumulatorMoves
  intro l f s b n hb hn hfit
  have h : Blocks f b n := ⟨hb, hn, hfit⟩
  refine ⟨?_, ?_⟩
  · rintro fs _ hr hw hdest rfl hfs hcredits hp
    exact exec_aexp_sends h hr hw hdest hfs hcredits hp
  · rintro _ acc rest m hr rfl himport hwait
    exact exec_aimp_places h hr himport hwait

end Sys2Proof.PortRun
end

section
/-!
PROOFS. Ends of waits and store errors (06 R176, R192; 13 R402): one attempt of an engine whose head has read its lines, or waits for one, with the KV port quiet;
and the sequencer's held instruction tried again.
-/

open Sys2Proof Sys2Proof.Machine

namespace Sys2Proof.WaitRun

open Sys2Proof.ArrayIssue Sys2Proof.Scalars

/-! ## The KV port with nothing to do between its instructions (07 R219, R228) -/

section
variable {l : Nat} {s : State}

theorem portWork_quiet (h : portQuiet (getL s l)) : portWork l s = s := by
  obtain ⟨hin, -, hmove⟩ := h
  have hserve : serveKv l s = s := by rw [serveKv, hin]; rfl
  rw [portWork, hserve, startMove, hmove]

theorem kvPortOpen_quiet {L : Lantern} (h : portQuiet L) : kvPortOpen L = true := by
  obtain ⟨-, hnow, hmove⟩ := h
  rw [kvPortOpen, hnow, moving, hmove]
  rfl

end

section
variable {l e : Nat} {s : State} (h : e = 6 → portQuiet (getL s l))
include h

theorem portWork_idle : (if e = 6 then portWork l s else s) = s := by
  split
  · next he => exact portWork_quiet (h he)
  · rfl

theorem portOpen_idle : (decide (e = 6) && !kvPortOpen (getL s l)) = false := by
  by_cases he : e = 6
  · rw [kvPortOpen_quiet (h he), Bool.not_true, Bool.and_false]
  · rw [decide_eq_false he, Bool.false_and]

/-! ## One attempt of an engine (06 R192) -/

theorem runEngine_noQueue (n : Nat) (hq : (getEng (getL s l) e).q = []) : runEngine l e n s = s := by
  cases n with
  | zero => rfl
  | succ n => simp only [runEngine, portWork_idle h, hq]

variable {g : Engine} {x : EngEntry} {r : List EngEntry} (hg : g = getEng (getL s l) e) (hq : g.q = x :: r)
include hg hq

/-- The head is held on a line that is still empty. -/
theorem runEngine_lineEmpty (n : Nat) {y : LineRead} {ys : List LineRead} (hw : g.wait = 1) (hreads : (opReads x.op).drop x.got.length = y :: ys)
    (hempty : (padAt (getL s l) y.addr).full = false) : runEngine l e (n + 1) s = s := by
  subst hg
  simp only [runEngine, portWork_idle h, portOpen_idle h, hq, hreads, gather, hempty, hw, Bool.not_false, Bool.false_eq_true, if_true, if_false, and_self]

variable (hreads : (opReads x.op).drop x.got.length = [])
include hreads

/-- The head's cause remains. -/
theorem runEngine_waits (n : Nat) {t : State} (hs : stepOp l e x s = .wait g.wait x.op t) : runEngine l e (n + 1) s = t := by
  subst hg
  simp only [runEngine, portWork_idle h, portOpen_idle h, hq, hreads, gather, List.append_nil, hs, Bool.false_eq_true, if_true, if_false, and_self]

/-- The head's cause is gone: its wait ends, it leaves the queue, and the engine goes on. -/
theorem runEngine_ends (n : Nat) {t : State} (hs : stepOp l e x s = .done t) :
    runEngine l e (n + 1) s = runEngine l e n (popHead (waitEnded t l g.wait g.since) l e) := by
  subst hg
  simp only [runEngine, portWork_idle h, portOpen_idle h, hq, hreads, gather, List.append_nil, hs, Bool.false_eq_true, if_false]

end

/-! ## After the wait (13 R402) -/

section
variable {l e : Nat} {s t : State}

theorem traced_waitEnded (l : Nat) (s : State) (code since : Nat) : Traced l s (waitEnded s l code since) := by
  unfold waitEnded
  split
  · exact traced_refl l s
  · exact traced_traceL l s _ _

theorem getEng_waitEnded (code since : Nat) : getEng (getL (waitEnded t l code since) l) e = getEng (getL t l) e := by
  obtain ⟨_, _, hL⟩ := (traced_waitEnded l t code since).lantern
  rw [hL]
  rfl

theorem portQuiet_waitEnded (code since : Nat) (h : portQuiet (getL t l)) : portQuiet (getL (waitEnded t l code since) l) := by
  obtain ⟨_, _, hL⟩ := (traced_waitEnded l t code since).lantern
  rw [hL]
  exact h

/-- The last entry done leaves the engine as it is at reset. -/
theorem popHead_last {x : EngEntry} (hq : (getEng (getL t l) e).q = [x]) : popHead t l e = updEng t l e (fun _ => {}) := by
  refine updL_congr t l (f := (withEngine · e fun g => { q := g.q.drop 1, wait := 0, since := 0 })) (g := (withEngine · e fun _ => {})) ?_
  rw [withEngine, tupd, show tget {} (getL t l).engines e = getEng (getL t l) e from rfl, hq]
  rfl

theorem queue_emptied : (getEng (getL (updEng t l e (fun _ => {})) l) e).q = [] := by
  rw [updEng, getL_updL_same]
  exact congrArg Engine.q (getEng_withEngine (getL t l) e fun _ => {})

theorem portQuiet_updEng (f : Engine → Engine) (h : portQuiet (getL t l)) : portQuiet (getL (updEng t l e f) l) := by
  rw [updEng, getL_updL_same]
  exact h

end

/-! ## WAIT_END and STORE_ERROR -/

section
variable {l e : Nat} {s : State} {g : Engine} {x : EngEntry} (hl : l < 1600)
include hl

theorem exec_waitEnd_engine (he : e < 7) : exec (.waitEnd l e) s = .next (runEngine l e engineFuel s) := by
  rw [exec_waitEnd, execWaitEnd, lanternOk_of_lt hl, guarded_true, if_neg (Nat.ne_of_lt he), if_pos he]

theorem exec_waitEnd_sequencer : exec (.waitEnd l 7) s = .next (startAll l (retryHeld l s)) := by
  rw [exec_waitEnd, execWaitEnd, lanternOk_of_lt hl, guarded_true, if_pos rfl]

theorem exec_waitEnd_completes (he : e < 7) (hg : g = getEng (getL s l) e) (hq : g.q = [x]) (hreads : (opReads x.op).drop x.got.length = [])
    (h : e = 6 → portQuiet (getL s l)) {t : State} (hs : stepOp l e x s = .done t) (ht : getEng (getL t l) e = g) (hquiet : e = 6 → portQuiet (getL t l)) :
    exec (.waitEnd l e) s = .next (updEng (waitEnded t l g.wait g.since) l e (fun _ => {})) := by
  have hlast : (getEng (getL (waitEnded t l g.wait g.since) l) e).q = [x] := by rw [getEng_waitEnded, ht, hq]
  rw [exec_waitEnd_engine hl he, engineFuel, runEngine_ends h hg hq hreads 63 hs, popHead_last hlast]
  exact congrArg _ (runEngine_noQueue (fun h6 => portQuiet_updEng _ (portQuiet_waitEnded _ _ (hquiet h6))) 63 queue_emptied)

theorem exec_storeError_traps (hon : (getL s l).on = true) (hrun : (getL s l).running = true) (htrap : (getL s l).trapped = false) :
    exec (.storeError l) s = .next (trapAt s l 7 (getL s l).pc (getL s l).pc (tget {} (getL s l).store (getL s l).pc).bits) := by
  rw [exec_storeError, execStoreError, lanternOk_of_lt hl, guarded_true, hon, hrun, htrap]
  rfl

theorem exec_storeError_stopped (hrun : (getL s l).running = false) : exec (.storeError l) s = .next s := by
  rw [exec_storeError, execStoreError, lanternOk_of_lt hl, guarded_true, hrun, Bool.and_false, Bool.false_and]
  rfl

end

section
variable {l : Nat} {s : State}

/-- The held instruction issues now, so its wait ends. -/
theorem retryHeld_issues {i : Instr} {c t0 : Nat} {t : State} (hheld : (getL s l).held = some (i, c, t0)) (hon : (getL s l).on = true)
    (hrun : (getL s l).running = true) (htrap : (getL s l).trapped = false) (ht : t = attempt l i (seqTry i) (updL s l (fun L => { L with held := none })))
    (hfree : (getL t l).held = none) : retryHeld l s = waitEnded t l c t0 := by
  subst ht
  unfold retryHeld
  simp only [hheld, hon, hrun, htrap, Bool.not_true, Bool.or_self, Bool.false_eq_true, if_false, hfree]

theorem retryHeld_none (h : (getL s l).held = none) : retryHeld l s = s := by
  unfold retryHeld
  simp only [h]

theorem startEngine_noQueue {e : Nat} (h : e = 6 → portQuiet (getL s l)) (hq : (getEng (getL s l) e).q = []) : startEngine l e s = s := by
  unfold startEngine
  split
  · exact runEngine_noQueue h _ hq
  · rfl

theorem startAll_noQueue (hq : ∀ d, d < 7 → (getEng (getL s l) d).q = []) (h : portQuiet (getL s l)) : startAll l s = s := by
  have hfold : ∀ ds : List Nat, (∀ d ∈ ds, d < 7) → forEach ds (startEngine l) s = s := by
    intro ds
    induction ds with
    | nil => exact fun _ => rfl
    | cons d ds ih =>
      intro hds
      obtain ⟨hd, hrest⟩ := List.forall_mem_cons.1 hds
      rw [forEach, List.foldl_cons, startEngine_noQueue (fun _ => h) (hq d hd)]
      exact ih hrest
  exact hfold _ fun d hd => List.mem_range.1 hd

end

/-- Settles O32: one attempt of the engine, or of the sequencer, says what becomes of the wait. -/
theorem waitsAndStore : Obligations.WaitsAndStore := by
  unfold Obligations.WaitsAndStore
  intro l e s g x hl hg
  refine ⟨exec_storeError_traps hl, exec_storeError_stopped hl, ?completes, ?stays, ?lineEmpty, ?noQueue, ?issues, ?nothing⟩
  case completes => exact fun t he hq hreads h hs ht hquiet => exec_waitEnd_completes hl he hg hq hreads h hs ht hquiet
  case stays =>
    intro t r he hq hreads h hs
    rw [exec_waitEnd_engine hl he, engineFuel, runEngine_waits h hg hq hreads 63 hs]
  case lineEmpty =>
    intro r y ys he hq hw hreads hempty h
    rw [exec_waitEnd_engine hl he, engineFuel, runEngine_lineEmpty h hg hq 63 hw hreads hempty]
  case noQueue =>
    intro he hq h
    rw [exec_waitEnd_engine hl he, runEngine_noQueue h _ (hg ▸ hq)]
  case issues =>
    intro i c t0 t hheld hon hrun htrap ht hfree
    rw [exec_waitEnd_sequencer hl, retryHeld_issues hheld hon hrun htrap ht hfree]
  case nothing =>
    intro hheld hq h
    rw [exec_waitEnd_sequencer hl, retryHeld_none hheld, startAll_noQueue hq h]

end Sys2Proof.WaitRun
end

section
/-!
PROOFS. Step boundaries, the watchdog and the stop of a partition's lanterns (06 R188, R190, R191, R198). What a boundary brings into force is put into force by
one operation; what follows it (shares of sequences, declared charges, counts and a trace) leaves the settings of the partition and the temperatures of its lanterns.
-/

open Sys2Proof Sys2Proof.Machine

namespace Sys2Proof.Boundaries

open Sys2Proof.Reports Sys2Proof.PartitionCommands Sys2Proof.WeightEvents

/-! ## What the operations after a boundary leave -/

/-- A partition but for its counters, its trace number, its requests and the shares that they give up. -/
def settingsOf (p : Partition) : Partition := { p with counters := [], traceSeq := 0, reqs := [], idleSince := none, idleTouch := false, freeing := [] }

/-- The temperature of a lantern and the one that waits. -/
def heatOf (L : Lantern) : Int × Option Int := (L.temp, L.tempNext)

/-- The settings of every partition and the temperatures of every lantern. -/
def inForce (s : State) : (Nat → Option Partition) × (Nat → Int × Option Int) := (fun n => (getPart s n).map settingsOf, fun l => heatOf (getL s l))

section
variable {s t : State}

theorem inForce_ext (hp : ∀ n, (getPart t n).map settingsOf = (getPart s n).map settingsOf) (hl : ∀ l, heatOf (getL t l) = heatOf (getL s l)) :
    inForce t = inForce s := Prod.ext (funext hp) (funext hl)

theorem inForce_of_unreported (h : unreported t = unreported s) : inForce t = inForce s := same_of_blank unreported inForce (fun _ => rfl) h

theorem heatOf_of_inForce (h : inForce t = inForce s) (l : Nat) : heatOf (getL t l) = heatOf (getL s l) := congrFun (congrArg Prod.snd h) l

theorem getPart_of_inForce {n : Nat} {p : Partition} (h : inForce t = inForce s) (hp : getPart s n = some p) :
    ∃ q, getPart t n = some q ∧ settingsOf q = settingsOf p := by
  have hn : (getPart t n).map settingsOf = (getPart s n).map settingsOf := congrFun (congrArg Prod.fst h) n
  rw [hp] at hn
  exact Option.map_eq_some_iff.1 hn

end

theorem updL_inForce (s : State) (l : Nat) {f : Lantern → Lantern} (hf : ∀ L, heatOf (f L) = heatOf L) : inForce (updL s l f) = inForce s := by
  refine inForce_ext (fun _ => rfl) fun m => ?_
  by_cases h : m = l
  · subst h
    rw [getL_updL_same]
    exact hf _
  · rw [getL_updL_other _ _ h]

theorem updPart_inForce (s : State) (n : Nat) {f : Partition → Partition} (hf : ∀ p, settingsOf (f p) = settingsOf p) : inForce (updPart s n f) = inForce s := by
  refine inForce_ext (fun m => ?_) fun l => by rw [Scalars.getL_updPart]
  by_cases h : m = n
  · subst h
    rw [getPart_updPart_same, Option.map_map]
    exact congrArg (Option.map · _) (funext hf)
  · rw [getPart_updPart_other _ _ h]

theorem forEach_inForce {α : Type} (xs : List α) {f : α → State → State} (h : ∀ x s, inForce (f x s) = inForce s) (s : State) :
    inForce (forEach xs f s) = inForce s := forEach_keeps inForce f h xs s

/-! ### Counts and traces -/

theorem countPart_inForce (s : State) (f src n : Nat) : inForce (countPart s f src n) = inForce s := by
  unfold countPart
  split
  · exact updPart_inForce _ _ fun _ => rfl
  · rfl

theorem countL_inForce (s : State) (l src n : Nat) : inForce (countL s l src n) = inForce s := by
  unfold countL
  split
  · rfl
  · refine (countPart_inForce _ _ _ _).trans (updL_inForce _ _ ?_)
    exact fun _ => rfl

theorem countF_inForce (s : State) (f src n : Nat) : inForce (countF s f src n) = inForce s := by
  unfold countF
  split
  · rfl
  · exact countPart_inForce _ _ _ _

theorem traceL_inForce (s : State) (l n detail : Nat) : inForce (traceL s l n detail) = inForce s := by
  have hoffer : ∀ t fn r, inForce (offerFn t fn r) = inForce t := fun t fn r => inForce_of_unreported (offerFn_unreported t fn r)
  unfold traceL
  split
  · rfl
  · split
    · rfl
    · split
      · rfl
      · split
        · exact countL_inForce _ _ _ _
        · refine (hoffer _ _ _).trans <| (hoffer _ _ _).trans <| (hoffer _ _ _).trans <| (updL_inForce _ _ ?_).trans (updPart_inForce _ _ ?_)
          · exact fun _ => rfl
          · exact fun _ => rfl

/-! ### Shares of sequences (07 R206, R228, R230) -/

theorem setDesc_inForce (s : State) (l d i n v : Nat) : inForce (setDesc s l d i n v) = inForce s := by
  unfold setDesc
  refine updL_inForce _ _ ?_
  exact fun _ => rfl

theorem setShareState_inForce (st : Nat) (h : Share) (s : State) : inForce (setShareState st h s) = inForce s := by
  unfold setShareState
  refine (updL_inForce _ _ ?_).trans (setDesc_inForce _ _ _ _ _ _)
  exact fun _ => rfl

theorem bindShare_inForce (seq : BitVec 32) (st : Nat) (h : Share) (s : State) : inForce (bindShare seq st h s) = inForce s := by
  unfold bindShare tableWrite
  refine updL_inForce _ _ ?_
  exact fun _ => rfl

theorem movingShare_inForce (h : Share) (s : State) : inForce (movingShare h s) = inForce s := (setShareState_inForce _ _ _).trans (setDesc_inForce _ _ _ _ _ _)

theorem settingsOf_noteIdle (t : Nat) (p : Partition) : settingsOf (noteIdle t p) = settingsOf p := by
  unfold noteIdle
  split <;> rfl

theorem updReq_inForce (s : State) (n : Nat) (tag : BitVec 64) (f : Request → Request) : inForce (updReq s n tag f) = inForce s := by
  unfold updReq
  refine updPart_inForce _ _ fun p => ?_
  rw [settingsOf_noteIdle]
  rfl

theorem boundaryReq_inForce (store : Request → Bool) (n : Nat) (r : Request) (s : State) : inForce (boundaryReq store n r s) = inForce s := by
  unfold boundaryReq
  split
  · exact (updReq_inForce _ _ _ _).trans (forEach_inForce _ (bindShare_inForce _ _) _)
  · split
    · exact (updReq_inForce _ _ _ _).trans (forEach_inForce _ movingShare_inForce _)
    · rfl
  · exact (updReq_inForce _ _ _ _).trans (forEach_inForce _ (setShareState_inForce 1) _)
  · rfl

theorem freeNow_inForce (s : State) (n : Nat) : inForce (freeNow s n) = inForce s := by
  unfold freeNow
  split
  · rfl
  · refine (updPart_inForce _ _ ?_).trans (forEach_inForce _ (setShareState_inForce 0) _)
    exact fun _ => rfl

theorem boundaryShares_inForce (store : Request → Bool) (n : Nat) (s : State) : inForce (boundaryShares store n s) = inForce s := by
  unfold boundaryShares
  split
  · rfl
  · exact (freeNow_inForce _ _).trans (forEach_inForce _ (boundaryReq_inForce store n) _)

/-! ## What a boundary brings into force (R188) -/

theorem mem_lanternsIn {l f : Nat} : l ∈ lanternsIn f ↔ fieldOf l = f := by
  simp only [lanternsIn, List.mem_map, List.mem_range, lanternIn, fieldOf, lanternX, lanternY]
  constructor
  · rintro ⟨i, hi, rfl⟩
    omega
  · rintro rfl
    exact ⟨l / 40 % 4 * 4 + l % 40 % 4, by omega, by omega⟩

/-- The partition's settings after a boundary. -/
def settingsInForce (p : Partition) : Partition := { settingsNow p with stepTime := stepFor (settingsNow p) }

/-- The fields and lanterns of one field at a boundary. -/
def fieldNow (off : Bool) (f : Nat) (s : State) : State :=
  forEach (lanternsIn f) (fun l s => updL s l (lanternNow off)) (updF s f (fun F => { F with counters := countersNow F.counters }))

section
variable {s : State} {n : Nat} {p : Partition}

theorem inForce_applyPending (hp : getPart s n = some p) :
    inForce (applyPending s n) = inForce (forEach (partFields p) (fieldNow (!(settingsInForce p).drift)) (setPart s n (some (settingsInForce p)))) := by
  unfold applyPending
  rw [hp]
  rfl

/-- A lantern's temperature, once the one that waits is in force. -/
def dueTemp (L : Lantern) : Int := L.tempNext.getD L.temp

theorem getL_lanternNow (off : Bool) (l m : Nat) (s : State) : getL (updL s m (lanternNow off)) l = if l = m then lanternNow off (getL s l) else getL s l := by
  split
  · next h => rw [h, getL_updL_same]
  · next h => exact getL_updL_other _ _ h

theorem dueTemp_turn (off : Bool) (l m : Nat) (s : State) : dueTemp (getL (updL s m (lanternNow off)) l) = dueTemp (getL s l) := by
  rw [getL_lanternNow]
  split <;> rfl

theorem tempNext_turn (off : Bool) {l : Nat} (m : Nat) (s : State) (h : (getL s l).tempNext = none) : (getL (updL s m (lanternNow off)) l).tempNext = none := by
  rw [getL_lanternNow]
  split
  · rfl
  · exact h

theorem tempNext_own (off : Bool) (l : Nat) (s : State) : (getL (updL s l (lanternNow off)) l).tempNext = none := by
  rw [getL_updL_same]
  rfl

theorem dueTemp_fieldNow (off : Bool) (l f : Nat) (s : State) : dueTemp (getL (fieldNow off f s) l) = dueTemp (getL s l) :=
  forEach_keeps (fun t => dueTemp (getL t l)) _ (dueTemp_turn off l) _ _

theorem tempNext_fieldNow (off : Bool) {l : Nat} (f : Nat) (s : State) (h : (getL s l).tempNext = none) : (getL (fieldNow off f s) l).tempNext = none :=
  forEach_holds (P := fun t => (getL t l).tempNext = none) (tempNext_turn off) _ _ h

theorem tempNext_ownField (off : Bool) (l : Nat) (s : State) : (getL (fieldNow off (fieldOf l) s) l).tempNext = none :=
  forEach_establishes (P := fun t => (getL t l).tempNext = none) (x := l) (tempNext_own off l) (tempNext_turn off) _ _ (mem_lanternsIn.2 rfl)

theorem heatOf_otherField (off : Bool) {l f : Nat} (h : fieldOf l ≠ f) (s : State) : heatOf (getL (fieldNow off f s) l) = heatOf (getL s l) :=
  forEach_holds_of_mem (P := fun t => heatOf (getL t l) = heatOf (getL s l)) _
    (fun m hm t ht => by
      rw [getL_updL_other _ _ (show l ≠ m from fun e => h ((congrArg fieldOf e).trans (mem_lanternsIn.1 hm)))]
      exact ht) _ rfl

/-- A lantern of one of the fields: its waiting temperature is in force. -/
theorem heatOf_fieldsNow (off : Bool) {l : Nat} {fs : List Nat} (h : fieldOf l ∈ fs) (s : State) :
    heatOf (getL (forEach fs (fieldNow off) s) l) = (dueTemp (getL s l), none) := by
  have hnext : (getL (forEach fs (fieldNow off) s) l).tempNext = none :=
    forEach_establishes (P := fun t => (getL t l).tempNext = none) (tempNext_ownField off l) (tempNext_fieldNow off) _ _ h
  have hdue : dueTemp (getL (forEach fs (fieldNow off) s) l) = dueTemp (getL s l) := forEach_keeps (fun t => dueTemp (getL t l)) _ (dueTemp_fieldNow off l) _ _
  rw [dueTemp, hnext] at hdue
  exact Prod.ext hdue hnext

/-- A lantern of another field. -/
theorem heatOf_fieldsNow_other (off : Bool) {l : Nat} {fs : List Nat} (h : fieldOf l ∉ fs) (s : State) :
    heatOf (getL (forEach fs (fieldNow off) s) l) = heatOf (getL s l) :=
  forEach_holds_of_mem (P := fun t => heatOf (getL t l) = heatOf (getL s l)) _
    (fun _ hf t ht => (heatOf_otherField off (fun e => h (e ▸ hf)) t).trans ht) _ rfl

theorem parts_fieldNow (off : Bool) (f : Nat) (s : State) : (fieldNow off f s).parts = s.parts := by
  rw [fieldNow, forEach_keeps State.parts (fun l s => updL s l (lanternNow off)) fun _ _ => rfl]
  rfl

theorem getPart_fieldsNow (off : Bool) (fs : List Nat) (s : State) : getPart (forEach fs (fieldNow off) s) n = getPart s n := by
  unfold getPart
  rw [forEach_keeps State.parts _ (parts_fieldNow off)]

end

/-! ## STEP_BOUNDARY (R188) -/

section
variable {s : State} {n : Nat} {p : Partition}

/-- A partition at its next boundary, its settings not yet in force. -/
def atBoundary (t : Nat) (p : Partition) : Partition := { p with bound := p.bound + 1, boundAt := t }

/-- What follows a boundary leaves what it brought into force. -/
theorem stepBoundary_inForce (hp : getPart s n = some p) (hrun : p.running = true) (hclosed : openLanterns s p = []) (hdue : p.boundAt + stepNow p ≤ nowNs s) :
    inForce (stepBoundary n s) = inForce (applyPending (updPart s n (atBoundary (nowNs s))) n) := by
  have hfield : ∀ f t, inForce (countF (updF t f (fun F => { F with declared := F.declared.filter (fun e => decide (p.bound < e.1)) })) f 0x48 1) = inForce t :=
    fun f t => countF_inForce _ _ _ _
  unfold stepBoundary
  simp only [hp, hrun, hclosed, decide_eq_false (Nat.not_lt.2 hdue), List.isEmpty_nil, Bool.not_true, Bool.or_self, Bool.false_eq_true, if_false]
  split
  · exact (traceL_inForce _ _ _ _).trans <| (forEach_inForce _ hfield _).trans (boundaryShares_inForce _ _ _)
  · exact (forEach_inForce _ hfield _).trans (boundaryShares_inForce _ _ _)

section
variable (hp : getPart s n = some p) (hrun : p.running = true) (hclosed : openLanterns s p = []) (hdue : p.boundAt + stepNow p ≤ nowNs s)
include hp hrun hclosed hdue

/-- The settings and temperatures at the boundary are those that applyPending leaves. -/
theorem inForce_boundary : inForce (stepBoundary n s) = inForce (forEach (partFields p) (fieldNow (!(settingsInForce (atBoundary (nowNs s) p)).drift))
    (setPart (updPart s n (atBoundary (nowNs s))) n (some (settingsInForce (atBoundary (nowNs s) p))))) := by
  have hbound : getPart (updPart s n (atBoundary (nowNs s))) n = some (atBoundary (nowNs s) p) := by
    rw [getPart_updPart_same, hp]
    rfl
  rw [stepBoundary_inForce hp hrun hclosed hdue, inForce_applyPending hbound]
  rfl

theorem getPart_stepBoundary : ∃ q, getPart (stepBoundary n s) n = some q ∧ settingsOf q = settingsOf (settingsInForce (atBoundary (nowNs s) p)) :=
  getPart_of_inForce (inForce_boundary hp hrun hclosed hdue) (by rw [getPart_fieldsNow, getPart_setPart_same])

theorem heatOf_stepBoundary {l : Nat} (h : fieldOf l ∈ partFields p) : heatOf (getL (stepBoundary n s) l) = (dueTemp (getL s l), none) := by
  rw [heatOf_of_inForce (inForce_boundary hp hrun hclosed hdue), heatOf_fieldsNow _ h, getL_setPart, Scalars.getL_updPart]

theorem heatOf_stepBoundary_other {l : Nat} (h : fieldOf l ∉ partFields p) : heatOf (getL (stepBoundary n s) l) = heatOf (getL s l) := by
  rw [heatOf_of_inForce (inForce_boundary hp hrun hclosed hdue), heatOf_fieldsNow_other _ h, getL_setPart, Scalars.getL_updPart]

end

/-- A lantern has the step open, or the step time has not passed. -/
theorem stepBoundary_early (hp : getPart s n = some p) (h : openLanterns s p ≠ [] ∨ nowNs s < p.boundAt + stepNow p) : stepBoundary n s = s := by
  unfold stepBoundary
  simp only [hp]
  rw [if_pos]
  rcases h with hopen | hsoon
  · simp [List.isEmpty_eq_false_iff.2 hopen]
  · simp [hsoon]

/-! ## BOUNDARY_SEEN (R190) -/

section
variable {l : Nat} (hl : partOf s l = some n) (hp : getPart s n = some p)
include hl hp

theorem boundarySeen_next (hrun : p.running = true) (h : (getL s l).seen < p.bound) : boundarySeen l s = updL s l (fun L => { L with seen := L.seen + 1 }) := by
  simp only [boundarySeen, hl, Option.bind_some, hp, hrun, h, and_self, if_true]

theorem boundarySeen_all (h : p.bound ≤ (getL s l).seen) : boundarySeen l s = s := by
  simp only [boundarySeen, hl, Option.bind_some, hp, Nat.not_lt.2 h, and_false, if_false]

end

/-! ## The watchdog (R191) -/

theorem raiseFault_running (hp : getPart s n = some p) (hempty : p.state ≠ .empty) (hloaded : p.state ≠ .loaded) (r : FaultRec) :
    raiseFault s n r = setPart s n (some { p with running := false, newFaults := p.newFaults ++ [{ r with part := n, epoch := p.epoch, time := nowNs s }] }) := by
  rw [raiseFault, updPart_some _ _ hp, if_neg fun h => h.elim hempty hloaded]

theorem watchdogExpiry_overdue (hp : getPart s n = some p) (hrun : p.running = true) (hempty : p.state ≠ .empty) (hloaded : p.state ≠ .loaded)
    {x : Nat} {xs : List Nat} (hopen : openLanterns s p = x :: xs) (hdue : p.boundAt + stepNow p + 1000 * p.watchdog ≤ nowNs s) :
    watchdogExpiry n s = setPart s n (some { p with running := false, newFaults := p.newFaults ++
      [⟨0, 1, n, x, p.bound, 65535, 0, 0, nowNs s, p.epoch, 0, ((x :: xs).take 16).map (stoppedAt s)⟩] }) := by
  unfold watchdogExpiry
  simp only [hp, hrun, hopen, List.isEmpty_cons, decide_eq_false (Nat.not_lt.2 hdue), Bool.not_true, Bool.or_self, Bool.false_eq_true, if_false,
    raiseFault_running hp hempty hloaded]
  rfl

theorem watchdogExpiry_closed (hp : getPart s n = some p) (hclosed : openLanterns s p = []) : watchdogExpiry n s = s := by
  simp only [watchdogExpiry, hp, hclosed, List.isEmpty_nil, Bool.or_true, Bool.true_or, if_true]

/-! ## PARTITION_STOP (R198) -/

/-- A lantern that issues nothing: its sequencer stands, and no bank has an operation to start. -/
structure Stopped (L : Lantern) : Prop where
  running : L.running = false
  held : L.held = none
  slots : ∀ b, (getBank L b).slot = none

theorem stopped_tidy (L : Lantern) : Stopped (tidyLantern (stopLantern L)) where
  running := rfl
  held := rfl
  slots b := by
    refine Option.isNone_iff_eq_none.1 (tget_all (p := fun B : Bank => B.slot.isNone) rfl (List.all_eq_true.2 fun e he => ?_) b)
    obtain ⟨_, _, rfl⟩ := List.mem_map.1 (List.mem_filter.1 he).1
    rfl

/-- One turn of the stop. -/
def stopTurn (l : Nat) (s : State) : State := updL s l (fun L => tidyLantern (stopLantern L))

theorem stopped_turn (l : Nat) (s : State) : Stopped (getL (stopTurn l s) l) := by
  rw [stopTurn, getL_updL_same]
  exact stopped_tidy _

theorem stopped_keeps {l : Nat} (m : Nat) (s : State) (h : Stopped (getL s l)) : Stopped (getL (stopTurn m s) l) := by
  by_cases hm : l = m
  · rw [hm]
    exact stopped_turn m s
  · rw [stopTurn, getL_updL_other _ _ hm]
    exact h

section
variable (hp : getPart s n = some p) (hrun : p.running = false)
include hp hrun

theorem partitionStop_eq : partitionStop n s = forEach (partLanterns s p) stopTurn s := by
  simp only [partitionStop, hp, hrun, Bool.false_eq_true, if_false, stopLanterns]
  rfl

theorem others_partitionStop : others (partitionStop n s) = others s := by
  rw [partitionStop_eq hp hrun]
  exact forEach_keeps others stopTurn (fun _ _ => rfl) _ _

theorem parts_partitionStop : (partitionStop n s).parts = s.parts := by
  rw [partitionStop_eq hp hrun]
  exact forEach_keeps State.parts stopTurn (fun _ _ => rfl) _ _

theorem stopped_partitionStop {l : Nat} (h : l ∈ partLanterns s p) : Stopped (getL (partitionStop n s) l) := by
  rw [partitionStop_eq hp hrun]
  exact forEach_establishes (P := fun t => Stopped (getL t l)) (stopped_turn l) stopped_keeps _ _ h

theorem getL_partitionStop_other {l : Nat} (h : l ∉ partLanterns s p) : getL (partitionStop n s) l = getL s l := by
  rw [partitionStop_eq hp hrun]
  exact forEach_holds_of_mem (P := fun t => getL t l = getL s l) _
    (fun m hm t ht => (getL_updL_other t _ (show l ≠ m from fun e => h (e ▸ hm))).trans ht) _ rfl

end

theorem partitionStop_runs (hp : getPart s n = some p) (hrun : p.running = true) : partitionStop n s = s := by
  simp only [partitionStop, hp, hrun, if_true]

/-! ## The statement -/

section
variable (hn : n < 16)
include hn

theorem exec_stepBoundary_next : exec (.stepBoundary n) s = .next (stepBoundary n s) := by
  rw [exec_stepBoundary, execStepBoundary, show partOk n = true from decide_eq_true hn, guarded_true]

theorem exec_stepWatchdogExpiry_next : exec (.stepWatchdogExpiry n) s = .next (watchdogExpiry n s) := by
  rw [exec_stepWatchdogExpiry, execStepWatchdogExpiry, show partOk n = true from decide_eq_true hn, guarded_true]

theorem exec_partitionStop_next : exec (.partitionStop n) s = .next (partitionStop n s) := by
  rw [exec_partitionStop, execPartitionStop, show partOk n = true from decide_eq_true hn, guarded_true]

end

theorem exec_boundarySeen_next {l : Nat} (hl : l < 1600) : exec (.boundarySeen l) s = .next (boundarySeen l s) := by
  rw [exec_boundarySeen, execBoundarySeen, Scalars.lanternOk_of_lt hl, guarded_true]

end

/-- Settles O40: each event's guard opens or stays shut, and what a boundary brings into force outlasts what follows it. -/
theorem stepTree : Obligations.StepTree := by
  unfold Obligations.StepTree
  intro n l s p hn hl hp
  rw [exec_stepBoundary_next hn, exec_boundarySeen_next hl, exec_stepWatchdogExpiry_next hn, exec_partitionStop_next hn]
  refine ⟨?boundary, ?early, ?seen, ?seenAll, ?overdue, ?closed, ?stop, ?runs⟩
  case boundary =>
    intro hrun hclosed hdue
    obtain ⟨q, hq, hsame⟩ := getPart_stepBoundary hp hrun hclosed hdue
    have hset : ∀ {α : Type} (v : Partition → α), (∀ p, v (settingsOf p) = v p) → v q = v (settingsInForce (atBoundary (nowNs s) p)) :=
      fun v hv => same_of_blank settingsOf v hv hsame
    refine ⟨_, q, rfl, hq, hset Partition.bound fun _ => rfl, hset Partition.boundAt fun _ => rfl, hset Partition.share fun _ => rfl,
      hset Partition.watchdog fun _ => rfl, hset Partition.mon fun _ => rfl, hset Partition.drift fun _ => rfl, hset Partition.shareNext fun _ => rfl,
      hset Partition.watchdogNext fun _ => rfl, hset Partition.monNext fun _ => rfl, hset Partition.driftNext fun _ => rfl,
      (hset Partition.running fun _ => rfl).trans hrun, fun h => ?_, fun h => ?_⟩
    · exact Prod.ext_iff.1 (heatOf_stepBoundary hp hrun hclosed hdue h)
    · exact Prod.ext_iff.1 (heatOf_stepBoundary_other hp hrun hclosed hdue h)
  case early => exact fun h => congrArg _ (stepBoundary_early hp h)
  case seen => exact fun hpart hrun h => congrArg _ (boundarySeen_next hpart hp hrun h)
  case seenAll => exact fun h hpart => congrArg _ (boundarySeen_all hpart hp h)
  case overdue => exact fun x xs hrun hempty hloaded hopen hdue => congrArg _ (watchdogExpiry_overdue hp hrun hempty hloaded hopen hdue)
  case closed => exact fun h => congrArg _ (watchdogExpiry_closed hp h)
  case stop =>
    intro hrun
    refine ⟨_, rfl, others_partitionStop hp hrun, parts_partitionStop hp hrun, fun h => ?_, getL_partitionStop_other hp hrun⟩
    obtain ⟨hstand, hheld, hslots⟩ := stopped_partitionStop hp hrun h
    exact ⟨hstand, hheld, hslots⟩
  case runs => exact fun hrun => congrArg _ (partitionStop_runs hp hrun)

end Sys2Proof.Boundaries
end

section
/-!
PROOFS. The KV port at work on an instruction of its own (07 R211 to R216): with no message to take and none in progress it runs like any engine. What it appends,
marks, walks and moves.
-/

open Sys2Proof Sys2Proof.Machine

namespace Sys2Proof.KvPortRun

open Sys2Proof.ArrayIssue Sys2Proof.EngineRun Sys2Proof.WideRun Sys2Proof.QueueRun Sys2Proof.SendRun Sys2Proof.ShareRun Sys2Proof.AttentionRun Sys2Proof.PortRun
  Sys2Proof.WaitRun

/-! ## Attempts of the KV port with no message about (07 R219) -/

theorem portQuiet_busy {l e : Nat} {L : Lantern} {g : Engine} {s t : State} (h : Busy l e L g s t) (hq : portQuiet L) : portQuiet (getL t l) := by
  rw [h.data portQuiet fun _ => rfl]
  exact hq

section
variable {l n : Nat} {x : EngEntry} {xs : List (Line × Bool)} {K L M : Lantern} {s t v u : State} (ht : Busy l 6 L ⟨[x], 0, 0⟩ s t) (hquiet : portQuiet L)
  (hread : gather l ((opReads x.op).drop x.got.length) t = (v, xs, .all))
include ht hquiet hread

/-- An attempt that completes the operation. -/
theorem runPort_completes (hdone : stepOp l 6 { x with got := x.got ++ xs } v = .done u) (hu : Busy l 6 M ⟨[x], 0, 0⟩ s u) (hM : portQuiet M) :
    Busy l 6 M {} s (runEngine l 6 (n + 1) t) := by
  have hport : portQuiet (getL t l) := portQuiet_busy ht hquiet
  have hpop : Busy l 6 M {} s (popHead u l 6) := busy_updEng (f := fun g => { q := g.q.drop 1, wait := 0, since := 0 }) hu fun _ hx => absurd hx List.not_mem_nil
  have hrun : runEngine l 6 (n + 1) t = runEngine l 6 n (popHead u l 6) := by
    rw [runEngine]
    simp only [portWork_quiet hport, kvPortOpen_quiet hport, ht.engine, hread, hdone, waitEnded_zero, Bool.false_eq_true, Bool.not_true, Bool.and_false, if_true, if_false]
  rw [hrun, runEngine_noQueue (fun _ => portQuiet_busy hpop hM) n (congrArg Engine.q hpop.engine)]
  exact hpop

/-- An attempt that leaves another operation to do. -/
theorem runPort_goes_on {op : EOp} (hmore : stepOp l 6 { x with got := x.got ++ xs } v = .more op u) (hu : Busy l 6 K ⟨[x], 0, 0⟩ s u) :
    ∃ w, runEngine l 6 (n + 1) t = runEngine l 6 n w ∧ Busy l 6 K ⟨[{ x with op := op, got := [] }], 0, 0⟩ s w := by
  have hport : portQuiet (getL t l) := portQuiet_busy ht hquiet
  refine ⟨setHead u l 6 { x with op := op, got := [] } 0 0, ?_,
    busy_updEng (f := fun g => { q := { x with op := op, got := [] } :: g.q.drop 1, wait := 0, since := 0 }) hu fun y hy => ?_⟩
  · rw [runEngine]
    simp only [portWork_quiet hport, kvPortOpen_quiet hport, ht.engine, hread, hmore, waitEnded_zero, Bool.false_eq_true, Bool.not_true, Bool.and_false, if_true, if_false]
  · obtain rfl := List.mem_singleton.1 hy
    exact hu.front x (List.mem_singleton.2 rfl)

/-- An attempt that begins to wait. -/
theorem runPort_waits {op : EOp} {c : Nat} (hwait : stepOp l 6 { x with got := x.got ++ xs } v = .wait c op u) (hc : c ≠ 0) (hu : Busy l 6 K ⟨[x], 0, 0⟩ s u) :
    Busy l 6 K ⟨[{ x with got := x.got ++ xs, op := op }], c, nowNs s⟩ s (runEngine l 6 (n + 1) t) := by
  have hport : portQuiet (getL t l) := portQuiet_busy ht hquiet
  have hrun : runEngine l 6 (n + 1) t = setHead u l 6 { x with got := x.got ++ xs, op := op } c (nowNs s) := by
    rw [runEngine]
    simp only [portWork_quiet hport, kvPortOpen_quiet hport, ht.engine, hread, hwait, hc, waitEnded_zero, hu.nowNs, Bool.false_eq_true, Bool.not_true, Bool.and_false, false_and,
      if_true, if_false]
  rw [hrun]
  refine busy_updEng (f := fun g => { q := { x with got := x.got ++ xs, op := op } :: g.q.drop 1, wait := c, since := nowNs s }) hu fun y hy => ?_
  obtain rfl := List.mem_singleton.1 hy
  exact hu.front x (List.mem_singleton.2 rfl)

end

/-- An operation without operand lines reads none. -/
theorem gather_none {l : Nat} {x : EngEntry} (hnone : opReads x.op = []) (t : State) : gather l ((opReads x.op).drop x.got.length) t = (t, [], .all) := by
  rw [hnone, List.drop_nil, gather]

/-! ## An instruction that names a descriptor (07 R204, R206) -/

section
variable {l d : Nat} {i : Instr} {f : FmtL} {s : State}

/-- An instruction of the KV port, its checks passed, has read its descriptor and the port begins on it. -/
theorem exec_port_begins {t : State → Try} (op : EOp) (hexec : exec i s = guarded (lanternOk l) (issueTo l 6 i t s)) (hr : Runs l 6 i s)
    (hpar : (padAt (getL s l) d).parBad = false) (htry : t (passed l s) = pushDesc l 6 d op i (passed l s)) :
    ∃ v, exec i s = .next (runEngine l 6 engineFuel v) ∧ Busy l 6 (getL s l) ⟨[issuedEntry (getL s l) i op], 0, 0⟩ s v := by
  refine exec_runs hexec hr (u := tableRead (updEng (passed l s) l 6 fun g => { g with q := g.q ++ [issuedEntry (getL s l) i op] }) l d) ?_
    (busy_tableRead (busy_pushed hr op) hpar)
  rw [htry, pushDesc, pushOp_passed hr op]

theorem descCheck_passes (h : descOk (getL s l) d = true) : (descCheck (getL (passed l s) l) d).1 = true := by
  rw [getL_passed]
  exact h

/-- With the port idle the counters ahead are those of the descriptor. -/
theorem countAhead_idle {L : Lantern} (h : getEng L 6 = {}) (d : Nat) : (countAhead L d).1 = (descAt L d).count := by
  rw [countAhead, h]
  rfl

end

/-! ## KMARK, KREW, KREL (07 R214, Table 7-3) -/

/-- A lantern with field i of n bytes of the descriptor at d set to v. -/
def withField (L : Lantern) (d i n v : Nat) : Lantern := { L with pad := tupd {} L.pad d (fun x => { x with data := lineSet x.data i n v }) }

theorem withField_withField (L : Lantern) (d i n v j m w : Nat) : withField (withField L d i n v) d j m w
    = { L with pad := tupd {} (tupd {} L.pad d (fun x => { x with data := lineSet x.data i n v })) d (fun x => { x with data := lineSet x.data j m w }) } := rfl

theorem portQuiet_withField {L : Lantern} {d i n v : Nat} (h : portQuiet L) : portQuiet (withField L d i n v) := h

theorem busy_setDesc {l e : Nat} {L : Lantern} {g : Engine} {s t : State} (h : Busy l e L g s t) (d i n v : Nat) :
    Busy l e (withField L d i n v) g s (setDesc t l d i n v) := busy_updL h (f := fun K => withField K d i n v) fun _ => rfl

section
variable {l d : Nat} {f : FmtL} {s : State} {w : Word} {i : Instr} {op : Nat → EOp} {M : Lantern}

/-- An instruction that names its descriptor alone and changes its counters. -/
theorem exec_descriptor (hexec : exec i s = guarded (lanternOk l) (issueTo l 6 i (fun s => tryDesc l f op i s) s)) (hr : Runs l 6 i s)
    (hw : w = getReg (getL s l) f.sc) (hd : d = f.b.toNat + w.toNat / 2 ^ 48) (hz : w.toNat % 2 ^ 48 = 0) (hquiet : portQuiet (getL s l)) (hM : portQuiet M)
    (hok : descOk (getL s l) d = true) (hpar : (padAt (getL s l) d).parBad = false) (hnone : opReads (op d) = [])
    (hact : ∀ t, Busy l 6 (getL s l) ⟨[issuedEntry (getL s l) i (op d)], 0, 0⟩ s t →
      ∃ u, stepOp l 6 (issuedEntry (getL s l) i (op d)) t = .done u ∧ Busy l 6 M ⟨[issuedEntry (getL s l) i (op d)], 0, 0⟩ s u) :
    ∃ t, exec i s = .next t ∧ Became l 6 M s t := by
  have htry : tryDesc l f op i (passed l s) = pushDesc l 6 d (op d) i (passed l s) := by
    subst hw hd
    exact withSc_passes hr.takes (passes_cons (scZero_passes (by omega)) <| passes_cons (descCheck_passes hok) passes_nil)
  obtain ⟨v, hrun, hv⟩ := exec_port_begins (op d) hexec hr hpar htry
  obtain ⟨u, hdone, hu⟩ := hact v hv
  exact ⟨_, hrun, became_of_busy (runPort_completes (n := 63) hv hquiet (gather_none hnone v) (by rw [List.append_nil]; exact hdone) hu hM)⟩

end

/-! ## KAPP (07 R212, R213; 05 R165) -/

/-- The tables and the store of a lantern whose share at d is ready are sound (05 R160). -/
theorem soundStore_of_share {L : Lantern} {d i n : Nat} (h : ShareReady L d i n) : SoundStore L where
  tables a := by
    have hpad : (!(padAt L a).parBad) = true :=
      tget_all (p := fun x : PadLine => !x.parBad) rfl (List.all_eq_true.2 fun y hy => by rw [h.tables y hy]; rfl) a
    simpa using hpad
  store a := by
    have hkv : (!(tget {} L.kv a).parBad) = true :=
      tget_all (p := fun x : KvLine => !x.parBad) rfl (List.all_eq_true.2 fun y hy => by rw [h.sound y hy]; rfl) a
    simpa using hkv

/-- The engine begins as the lantern was at issue. -/
theorem looks_begin {l e d i n : Nat} {g : Engine} {s t : State} (h : ShareReady (getL s l) d i n) (ht : Busy l e (getL s l) g s t) : Looks l e (getL s l) g s t :=
  ⟨(getL s l).lookaside, ht, h.agree⟩

theorem looks_countL {l e : Nat} {L : Lantern} {g : Engine} {s t : State} (h : Looks l e L g s t) (src n : Nat) : Looks l e L g s (countL t l src n) := by
  obtain ⟨b, hbusy, hb⟩ := h
  exact ⟨b, busy_countL hbusy src n, hb⟩

theorem descAt_looks {l e : Nat} {L : Lantern} {g : Engine} {s t : State} (h : Looks l e L g s t) (d : Nat) : descAt (getL t l) d = descAt L d := by
  obtain ⟨b, hbusy, -⟩ := h
  exact hbusy.data (descAt · d) fun _ => rfl

/-- The lines that phases are still to read, by the tables. -/
theorem earlierReads_agrees {K L : Lantern} (h : K.pad = L.pad) (hK : Agrees L K.lookaside) (hL : Agrees L L.lookaside) (hq : getEng K 3 = getEng L 3) (seq : Nat) :
    earlierReads K seq = earlierReads L seq := by
  simp only [earlierReads, hq, phaseLines_agrees h hK hL, descAt_congr h]

/-- A key/value store with lines ys from column c on of local index i of the share k, in page q. -/
def appended (k : Desc) (q i c : Nat) (ys : List (Line × Bool)) (m : SMap KvLine) : SMap KvLine :=
  (ys.zip (List.range' c ys.length)).foldl (fun m y => tset {} m (kvAddr k q y.2 i) ⟨y.1.1, y.1.2, false⟩) m

theorem appended_cons (k : Desc) (q i c : Nat) (y : Line × Bool) (ys : List (Line × Bool)) (m : SMap KvLine) :
    appended k q i c (y :: ys) m = appended k q i (c + 1) ys (tset {} m (kvAddr k q c i) ⟨y.1, y.2, false⟩) := rfl

/-- A lantern with m as its key/value store. -/
def withKv (L : Lantern) (m : SMap KvLine) : Lantern := { L with kv := m }

section
variable {l e d i q : Nat} {L : Lantern} {g : Engine} {s : State}

theorem looks_writeKv {m : SMap KvLine} {t : State} (h : Looks l e (withKv L m) g s t) (a : Nat) (x : Line) (p : Bool) :
    Looks l e (withKv L (tset {} m a ⟨x, p, false⟩)) g s (writeKv t l a x p) := by
  obtain ⟨b, hbusy, hb⟩ := h
  exact ⟨b, busy_updL hbusy (f := fun K => { K with kv := tset {} K.kv a ⟨x, p, false⟩ }) fun _ => rfl, hb⟩

theorem soundStore_written {m : SMap KvLine} (h : SoundStore (withKv L m)) (a : Nat) (x : Line) (p : Bool) : SoundStore (withKv L (tset {} m a ⟨x, p, false⟩)) where
  tables := h.tables
  store b := by
    show (tget {} (tset {} m a ⟨x, p, false⟩) b).parBad = false
    rw [tget_tset]
    split
    · rfl
    · exact h.store b

/-- Lines written to columns of one local index. -/
theorem writeShare_writes (hp : walk L (descAt L d) (i / pageDepth (descAt L d)) = some q) (ys : List (Line × Bool)) :
    ∀ {m : SMap KvLine} {t : State} {c : Nat}, Looks l e (withKv L m) g s t → SoundStore (withKv L m) →
      ∃ u, writeShare l d i c ys t = some u ∧ Looks l e (withKv L (appended (descAt L d) q i c ys m)) g s u := by
  induction ys with
  | nil => exact fun h _ => ⟨_, rfl, h⟩
  | cons y ys ih =>
    intro m t c h hs
    have hdesc : descAt (getL t l) d = descAt L d := descAt_looks h d
    obtain ⟨u, hresolve, hu⟩ := resolve_page h hs (d := d) (p := q) hp
    obtain ⟨v, hrest, hv⟩ := ih (c := c + 1) (looks_writeKv hu (kvAddr (descAt L d) q c i) y.1 y.2) (soundStore_written hs _ _ _)
    refine ⟨v, ?_, ?_⟩
    · simp only [writeShare, hdesc]
      rw [show resolve t l d (i / pageDepth (descAt L d)) = some (u, q) from hresolve]
      exact hrest
    · rw [appended_cons]
      exact hv

end

theorem portQuiet_appended {L : Lantern} {m : SMap KvLine} {b : List (Nat × Nat × Nat)} {d i n v : Nat} (h : portQuiet L) :
    portQuiet (withField (withAside (withKv L m) b) d i n v) := h

/-- The columns of one position, quantised, with their poison (07 R212). -/
def columnLines (k : Desc) (bf : Bool) (xs : List (Line × Bool)) : List (Line × Bool) :=
  (chunks (128 / k.w) (2 * k.w * k.hloc) (kappElems bf (k.hloc * 256) xs)).map (fun c => ((packLine (if k.w = 2 then 2 else 1) (c.map (·.1))).1, c.any (·.2)))

section
variable {l d q : Nat} {g : Engine} {s : State}

/-- The port appends one position, no earlier phase still reading the lines it writes. -/
theorem runKapp_appends (h : ShareReady (getL s l) d (descAt (getL s l) d).count 1)
    (hfree : common (shareLines (getL s l) d (descAt (getL s l) d).count (List.range (2 * (descAt (getL s l) d).w * (descAt (getL s l) d).hloc)))
      (earlierReads (getL s l) (getL s l).issued) = false)
    (hp : walk (getL s l) (descAt (getL s l) d) ((descAt (getL s l) d).count / pageDepth (descAt (getL s l) d)) = some q) {t : State}
    (ht : Busy l 6 (getL s l) g s t) (a pos heads : Nat) (bf : Bool) (xs : List (Line × Bool)) :
    ∃ u b, runKapp l (getL s l).issued a d pos heads bf xs t = .done u ∧ Busy l 6 (withField (withAside (withKv (getL s l)
      (appended (descAt (getL s l) d) q (descAt (getL s l) d).count 0 (columnLines (descAt (getL s l) d) bf xs) (getL s l).kv)) b) d 16 4
        ((descAt (getL s l) d).count + 1)) g s u := by
  have hdesc : descAt (getL t l) d = descAt (getL s l) d := ht.data (descAt · d) fun _ => rfl
  have hpad : (getL t l).pad = (getL s l).pad := ht.data Lantern.pad fun _ => rfl
  have hagree : Agrees (getL s l) (getL t l).lookaside := by
    rw [ht.data Lantern.lookaside fun _ => rfl]
    exact h.agree
  have hcommon : common (shareLines (getL t l) d (descAt (getL s l) d).count (List.range (2 * (descAt (getL s l) d).w * (descAt (getL s l) d).hloc)))
      (earlierReads (getL t l) (getL s l).issued) = false := by
    rw [shareLines_agrees hpad hagree h.agree, earlierReads_agrees hpad hagree h.agree (ht.engines 3 (by decide))]
    exact hfree
  have hlines : ((chunks (128 / (descAt (getL s l) d).w) (2 * (descAt (getL s l) d).w * (descAt (getL s l) d).hloc)
      (kappElems bf ((descAt (getL s l) d).hloc * 256) xs)).map (fun c => (packLine (if (descAt (getL s l) d).w = 2 then 2 else 1) (c.map (·.1)), c.any (·.2)))).map
        (fun y => (y.1.1, y.2)) = columnLines (descAt (getL s l) d) bf xs := List.map_map
  unfold runKapp
  simp only [hdesc, hcommon, Bool.false_eq_true, if_false, hlines]
  obtain ⟨u, hwrite, b, hu, -⟩ := writeShare_writes (L := getL s l) (m := (getL s l).kv) (c := 0) hp (columnLines (descAt (getL s l) d) bf xs)
    (looks_countL (looks_countL (looks_begin h ht) 0x28 _) 0x29 _) (soundStore_of_share h)
  rw [hwrite]
  exact ⟨_, b, rfl, busy_setDesc hu d 16 4 _⟩

end

section
variable {l d : Nat} {f : FmtL} {s : State} {w : Word}

/-- What KAPP names in SC and in its share, and the checks of its issue (07 R206, R212; 06 Table 6-3). -/
structure Appends (l : Nat) (f : FmtL) (s : State) (w : Word) (a d pos n : Nat) (bf : Bool) : Prop where
  sc : w = getReg (getL s l) f.sc
  desc : d = f.b.toNat + w.toNat / 2 ^ 48
  lines : a = f.a.toNat + w.toNat / 2 ^ 48
  position : pos = w.toNat % 2 ^ 20
  form : bf = w.getLsbD 24
  zero : w.toNat % 2 ^ 48 < 2 ^ 25
  heads : w.toNat / 2 ^ 20 % 2 ^ 4 + 1 = (descAt (getL s l) d).hloc
  local_ : localIndex (descAt (getL s l) d) pos = some (descAt (getL s l) d).count
  page : (descAt (getL s l) d).count / pageDepth (descAt (getL s l) d) < (descAt (getL s l) d).pages
  count : n = linesFor ((descAt (getL s l) d).hloc * 256) (if bf then 34 else 17)
  range : rangeOk (getL s l) a n = true

theorem tryKapp_passes {a pos n : Nat} {bf : Bool} (h : Appends l f s w a d pos n bf) (hr : Runs l 6 (.kapp l f) s) (hok : descOk (getL s l) d = true) :
    tryKapp l f (passed l s) = pushDesc l 6 d (.kapp a d pos (descAt (getL s l) d).hloc bf) (.kapp l f) (passed l s) := by
  obtain ⟨rfl, rfl, rfl, hpos, rfl, hz, hheads, hlocal, hpage, rfl, hrange⟩ := h
  rw [← bitsAt_zero] at hpos
  subst hpos
  rw [← hheads]
  have hahead : some (descAt (getL s l) (f.b.toNat + (getReg (getL s l) f.sc).toNat / 2 ^ 48)).count
      = some (countAhead (getL (passed l s) l) (f.b.toNat + (getReg (getL s l) f.sc).toNat / 2 ^ 48)).1 := by
    rw [getL_passed]
    exact congrArg some (countAhead_idle (L := getL s l) hr.idle _).symm
  have hdesc : descAt (getL (passed l s) l) = descAt (getL s l) := by
    rw [getL_passed]
    rfl
  refine withSc_passes hr.takes (passes_cons (scZero_passes hz) <| passes_cons (descCheck_passes hok) <| passes_cons (beq_iff_eq.2 ?_) <|
    passes_cons (decide_eq_true ?_) <| passes_cons (beq_iff_eq.2 ?_) <| passes_cons ?_ passes_nil)
  · rw [hdesc]
    exact hlocal.trans hahead
  · rw [hdesc]
    exact Option.some.inj hahead ▸ hpage
  · rw [hdesc]
    exact hheads
  · rw [hdesc]
    exact lineCheck_passes hrange

end

section
variable {l d : Nat} {f : FmtL} {s : State} {w : Word}

theorem exec_kapp_appends {a pos n q : Nat} {bf : Bool} (hr : Runs l 6 (.kapp l f) s) (h : Appends l f s w a d pos n bf) (hquiet : portQuiet (getL s l))
    (hok : descOk (getL s l) d = true) (hpar : (padAt (getL s l) d).parBad = false) (hshare : ShareReady (getL s l) d (descAt (getL s l) d).count 1)
    (hfree : common (shareLines (getL s l) d (descAt (getL s l) d).count (List.range (2 * (descAt (getL s l) d).w * (descAt (getL s l) d).hloc)))
      (earlierReads (getL s l) (getL s l).issued) = false)
    (hsound : soundLines (getL s l) a n) (hclear : hazard s l a n (if bf then 6 else 7) = none)
    (hp : walk (getL s l) (descAt (getL s l) d) ((descAt (getL s l) d).count / pageDepth (descAt (getL s l) d)) = some q) :
    ∃ t b, exec (.kapp l f) s = .next t ∧ Became l 6 (withField (withAside (withKv (getL s l)
      (appended (descAt (getL s l) d) q (descAt (getL s l) d).count 0 (columnLines (descAt (getL s l) d) bf (linesAt (getL s l) a n)) (getL s l).kv)) b) d 16 4
        ((descAt (getL s l) d).count + 1)) s t := by
  have hreads : opReads (.kapp a d pos (descAt (getL s l) d).hloc bf) = keepReads a n (if bf then 6 else 7) := by
    rw [h.count]
    cases bf <;> rfl
  obtain ⟨v, hrun, hv⟩ := exec_port_begins _ (exec_kapp l f s) hr hpar (tryKapp_passes h hr hok)
  obtain ⟨t, hread, ht⟩ := gather_keep hv rfl (readsSound_keepReads hsound hclear)
  obtain ⟨u, b, hdone, hu⟩ := runKapp_appends hshare hfree hp ht a pos (descAt (getL s l) d).hloc bf (linesAt (getL s l) a n)
  rw [linesOf_keepReads] at hread
  have hgather : gather l ((opReads (issuedEntry (getL s l) (.kapp l f) (.kapp a d pos (descAt (getL s l) d).hloc bf)).op).drop 0) v = (t, linesAt (getL s l) a n, .all) := by
    rw [issuedEntry, hreads]
    exact hread
  exact ⟨_, b, hrun, became_of_busy (runPort_completes (n := 63) hv hquiet hgather (by rw [← hdone]; rfl) hu (portQuiet_appended hquiet))⟩

end

/-- Settles O23: the port reads its lines and writes a position column by column, or changes the counters of the descriptor. -/
theorem kvAppend : Obligations.KvAppend := by
  unfold Obligations.KvAppend
  rintro l f s w d _ hw hd rfl hquiet hok hpar
  refine ⟨?kapp, ?kmark, ?krew, ?krel⟩
  case kapp =>
    rintro a pos bf n _ _ _ q hr ha hpos hbf hz hheads hfree hshare hlocal hpage hn hrange hsound hclear rfl rfl rfl hp
    have h : Appends l f s w a d pos n bf := ⟨hw, hd, ha, hpos, hbf, hz, hheads, hlocal, hpage, hn, hrange⟩
    obtain ⟨t, b, hexec, ht⟩ := exec_kapp_appends hr h hquiet hok hpar hshare hfree hsound hclear hp
    refine ⟨t, b, hexec, ?_⟩
    rw [List.range_eq_range']
    exact ht
  case kmark =>
    intro hr hz
    refine exec_descriptor (exec_kmark l f s) hr hw hd hz hquiet (portQuiet_withField hquiet) hok hpar rfl fun t ht => ⟨_, rfl, ?_⟩
    rw [ht.data (descAt · d) fun _ => rfl]
    exact busy_setDesc ht d 20 4 _
  case krew =>
    intro hr hz
    refine exec_descriptor (exec_krew l f s) hr hw hd hz hquiet (portQuiet_withField hquiet) hok hpar rfl fun t ht => ⟨_, rfl, ?_⟩
    rw [ht.data (descAt · d) fun _ => rfl]
    exact busy_setDesc ht d 16 4 _
  case krel =>
    intro hr hz
    rw [← withField_withField]
    refine exec_descriptor (exec_krel l f s) hr hw hd hz hquiet (portQuiet_withField (portQuiet_withField hquiet)) hok hpar rfl fun t ht => ⟨_, rfl, ?_⟩
    rw [ht.data (descAt · d) fun _ => rfl]
    exact busy_setDesc (busy_setDesc ht d 24 4 _) d 20 4 _

/-! ## KWALK (07 R211) -/

section
variable {l e d : Nat} {L : Lantern} {g : Engine} {s : State}

/-- Pages resolved one after the other: the look-aside buffer alone changes, and holds the last one first. -/
theorem walkPages_resolves (hs : SoundStore L) (m : Nat) : ∀ {x q : Nat} {t : State}, Looks l e L g s t →
    (∀ j, x ≤ j → j ≤ x + m → (walk L (descAt L d) j).isSome = true) → walk L (descAt L d) (x + m) = some q →
    ∃ u b, walkPages l d x (m + 1) t = .done u ∧ b.head? = some (d, x + m, q) ∧ Busy l e (withAside L b) g s u := by
  induction m with
  | zero =>
    intro x q t h _ hq
    obtain ⟨b, hbusy, hb⟩ := h
    obtain ⟨u, hone, hu⟩ := resolveOne_looks hbusy hb hs d x
    rw [Nat.add_zero] at hq
    rw [hq, Option.map_some] at hone
    refine ⟨_, touchEntry b d x q, ?_, rfl, busy_updL hu (f := fun K => { K with lookaside := touchEntry K.lookaside d x q }) fun _ => rfl⟩
    rw [walkPages, hone]
    rfl
  | succ m ih =>
    intro x q t h hpages hq
    obtain ⟨b, hbusy, hb⟩ := h
    obtain ⟨p, hp⟩ := Option.isSome_iff_exists.1 (hpages x (Nat.le_refl x) (Nat.le_add_right _ _))
    obtain ⟨u, hone, hu⟩ := resolveOne_looks hbusy hb hs d x
    rw [hp, Option.map_some] at hone
    rw [show x + (m + 1) = x + 1 + m by omega] at hq ⊢
    obtain ⟨v, c, hrest, hhead, hv⟩ := ih (looks_touch hu hb hp) (fun j hlo hhi => hpages j (by omega) (by omega)) hq
    refine ⟨v, c, ?_, hhead, hv⟩
    rw [walkPages, hone]
    exact hrest

end

/-- Every page between that of the first of n local indices and that of the last holds one of them. -/
theorem index_of_page {t first n p : Nat} (hn : 0 < n) (hlo : first / t ≤ p) (hhi : p ≤ (first + n - 1) / t) : ∃ j, first ≤ j ∧ j < first + n ∧ j / t = p := by
  rcases Nat.eq_zero_or_pos t with rfl | ht
  · rw [Nat.div_zero] at hhi
    exact ⟨first, Nat.le_refl _, by omega, by rw [Nat.div_zero]; omega⟩
  · have hend := (Nat.le_div_iff_mul_le ht).1 hhi
    refine ⟨max first (p * t), Nat.le_max_left _ _, by omega, Nat.le_antisymm ?_ ?_⟩
    · rcases Nat.le_total first (p * t) with h | h
      · rw [Nat.max_eq_right h, Nat.mul_div_cancel _ ht]
      · rw [Nat.max_eq_left h]
        exact hlo
    · exact (Nat.le_div_iff_mul_le ht).2 (Nat.le_max_right _ _)

/-! ## KXFR (07 R216) -/

section
variable {l e d : Nat} {L : Lantern} {g : Engine} {s : State}

/-- Lines of n local indices from i on, all columns, in index order. -/
def indexLines (L : Lantern) (d i n : Nat) : List (Line × Bool) :=
  (List.range n).flatMap (fun j => heldLines L d (List.range (2 * (descAt L d).w * (descAt L d).hloc)) (i + j))

theorem indexLines_succ (L : Lantern) (d i n : Nat) :
    indexLines L d i (n + 1) = heldLines L d (List.range (2 * (descAt L d).w * (descAt L d).hloc)) i ++ indexLines L d (i + 1) n := by
  rw [indexLines, List.range_succ_eq_map, List.flatMap_cons, List.flatMap_map, indexLines]
  simp only [Nat.add_zero, Nat.succ_eq_add_one, Nat.add_assoc, Nat.add_comm 1]

theorem readIndices_held (hs : SoundStore L) (n : Nat) : ∀ {t : State} {i : Nat}, Looks l e L g s t →
    (∀ j, i ≤ j → j < i + n → (walk L (descAt L d) (j / pageDepth (descAt L d))).isSome = true) →
    ∃ u, readIndices l d i n t = some (u, indexLines L d i n) ∧ Looks l e L g s u := by
  induction n with
  | zero => exact fun h _ => ⟨_, rfl, h⟩
  | succ n ih =>
    intro t i h hp
    obtain ⟨u, hread, hu⟩ := readShare_held hs (hp i (Nat.le_refl i) (by omega)) (List.range (2 * (descAt L d).w * (descAt L d).hloc)) h
    obtain ⟨v, hrest, hv⟩ := ih (i := i + 1) hu fun j hlo hhi => hp j (by omega) (by omega)
    refine ⟨v, ?_, hv⟩
    rw [indexLines_succ]
    simp only [readIndices, descAt_looks h d, hread, hrest]

end

section
variable {l d first n : Nat} {f : FmtL} {s : State} {w : Word}

/-- What KWALK and KXFR name in SC, and their share (07 R206, R211, R216; 06 Table 6-3). -/
structure Tokens (l : Nat) (f : FmtL) (s : State) (w : Word) (d first n : Nat) : Prop where
  sc : w = getReg (getL s l) f.sc
  desc : d = f.b.toNat + w.toNat / 2 ^ 48
  start : first = w.toNat % 2 ^ 20
  count : n = w.toNat / 2 ^ 20 % 2 ^ 12 + 1
  zero : w.toNat % 2 ^ 48 < 2 ^ 32
  quiet : portQuiet (getL s l)
  share : ShareReady (getL s l) d first n

theorem Tokens.sound (h : Tokens l f s w d first n) : ∀ a, (padAt (getL s l) a).parBad = false := (soundStore_of_share h.share).tables

/-- Pages that KWALK resolves besides the first. -/
def walkedMore (k : Desc) (first n : Nat) : Nat := min 64 ((first + n - 1) / pageDepth k - first / pageDepth k + 1) - 1

theorem exec_kwalk_resolves (h : Tokens l f s w d first n) (hr : Runs l 6 (.kwalk l f) s) {x q : Nat}
    (hx : x = first / pageDepth (descAt (getL s l) d) + walkedMore (descAt (getL s l) d) first n) (hq : walk (getL s l) (descAt (getL s l) d) x = some q) :
    ∃ t b, exec (.kwalk l f) s = .next t ∧ b.head? = some (d, x, q) ∧ Became l 6 (withAside (getL s l) b) s t := by
  have htry : tryKwalk l f (passed l s) = pushDesc l 6 d (.kwalk d first n) (.kwalk l f) (passed l s) := by
    obtain ⟨rfl, rfl, hfirst, rfl, hz, -, hshare⟩ := h
    rw [← bitsAt_zero] at hfirst
    subst hfirst
    exact withSc_passes hr.takes (passes_cons (scZero_passes hz) <| passes_cons (descCheck_passes hshare.active) passes_nil)
  obtain ⟨v, hrun, hv⟩ := exec_port_begins _ (exec_kwalk l f s) hr (h.sound d) htry
  have hn : 0 < n := h.count ▸ Nat.succ_pos _
  have hdesc : descAt (getL v l) d = descAt (getL s l) d := hv.data (descAt · d) fun _ => rfl
  have hpages : ∀ j, first / pageDepth (descAt (getL s l) d) ≤ j → j ≤ first / pageDepth (descAt (getL s l) d) + walkedMore (descAt (getL s l) d) first n →
      (walk (getL s l) (descAt (getL s l) d) j).isSome = true := by
    intro j hlo hhi
    have hlast : first / pageDepth (descAt (getL s l) d) ≤ (first + n - 1) / pageDepth (descAt (getL s l) d) := Nat.div_le_div_right (by omega)
    obtain ⟨i, hfrom, hto, rfl⟩ := index_of_page hn hlo (by unfold walkedMore at hhi; omega)
    exact h.share.pages i hfrom hto
  subst hx
  obtain ⟨u, b, hwalk, hhead, hu⟩ := walkPages_resolves (soundStore_of_share h.share) _ (looks_begin h.share hv) hpages hq
  have hdone : stepOp l 6 { issuedEntry (getL s l) (.kwalk l f) (.kwalk d first n) with got := [] ++ [] } v = .done u := by
    rw [← hwalk]
    show runKwalk l d first n v = _
    rw [runKwalk, hdesc, walkedMore, Nat.sub_add_cancel (by omega)]
  exact ⟨_, b, hrun, hhead, became_of_busy (runPort_completes (n := 63) hv h.quiet (gather_none rfl v) hdone hu (by exact h.quiet))⟩

end

theorem length_indexLines (L : Lantern) (d i n : Nat) : (indexLines L d i n).length = n * (2 * (descAt L d).w * (descAt L d).hloc) := by
  have hcols : ∀ j, (heldLines L d (List.range (2 * (descAt L d).w * (descAt L d).hloc)) (i + j)).length = 2 * (descAt L d).w * (descAt L d).hloc :=
    fun j => (List.length_map ..).trans List.length_range
  rw [indexLines, List.length_flatMap]
  simp only [hcols, List.map_const', List.length_range, List.sum_replicate, smul_eq_mul]

/-- What the port reads of the share before it copies or sends. -/
theorem readIndices_begins {l d first n : Nat} {s v : State} {g : Engine} (h : ShareReady (getL s l) d first n) (hv : Busy l 6 (getL s l) g s v) :
    ∃ u b, readIndices l d first n v = some (u, indexLines (getL s l) d first n) ∧ Busy l 6 (withAside (getL s l) b) g s u := by
  obtain ⟨u, hread, b, hu, -⟩ := readIndices_held (soundStore_of_share h) n (looks_begin h hv) h.pages
  exact ⟨u, b, hread, hu⟩

section
variable {l d first n : Nat} {f : FmtL} {s : State} {w : Word} (h : Tokens l f s w d first n) (hr : Runs l 6 (.kxfr l f) s)
  (hahead : first + n ≤ (countAhead (getL s l) d).1)
include h hr hahead

/-- KXFR with F = 1 is a copy, to line a on; with F = 0 a message through a sluice entry. -/
theorem exec_kxfr_begins {cp : Bool} (hcp : (f.f == 1) = cp) {a : Nat} (ha : a = if cp then f.a.toNat + w.toNat / 2 ^ 48 else 0)
    (hrange : cp = true → rangeOk (getL s l) a (n * (2 * (descAt (getL s l) d).w * (descAt (getL s l) d).hloc)) = true) :
    ∃ v, exec (.kxfr l f) s = .next (runEngine l 6 engineFuel v) ∧ Busy l 6 (getL s l)
      ⟨[issuedEntry (getL s l) (.kxfr l f) (.kxfr a d (if cp then 0 else f.d.toNat) first n cp)], 0, 0⟩ s v := by
  refine exec_port_begins _ (exec_kxfr l f s) hr (h.sound d) ?_
  obtain ⟨rfl, rfl, hfirst, rfl, hz, -, hshare⟩ := h
  rw [← bitsAt_zero] at hfirst
  subst hfirst hcp
  have hcount : (countAhead (getL (passed l s) l) (f.b.toNat + (getReg (getL s l) f.sc).toNat / 2 ^ 48)).1
      = (countAhead (getL s l) (f.b.toNat + (getReg (getL s l) f.sc).toNat / 2 ^ 48)).1 := by
    rw [getL_passed]
    rfl
  have hdesc : descAt (getL (passed l s) l) = descAt (getL s l) := by
    rw [getL_passed]
    rfl
  rw [ha]
  refine withSc_passes hr.takes (passes_cons (scZero_passes hz) <| passes_cons (descCheck_passes hshare.active) <| passes_cons (decide_eq_true ?_) <|
    passes_cons ?_ passes_nil)
  · exact hcount ▸ hahead
  · split
    · next hcopy =>
      have hlines := hrange hcopy
      rw [ha, if_pos hcopy] at hlines
      rw [hdesc]
      exact lineCheck_passes hlines
    · rfl

theorem exec_kxfr_copies {a : Nat} (hf : f.f = 1) (ha : a = f.a.toNat + w.toNat / 2 ^ 48)
    (hrange : rangeOk (getL s l) a (n * (2 * (descAt (getL s l) d).w * (descAt (getL s l) d).hloc)) = true)
    (hfree : freeLines (getL s l) a (n * (2 * (descAt (getL s l) d).w * (descAt (getL s l) d).hloc))) :
    ∃ t b, exec (.kxfr l f) s = .next t ∧ Became l 6 (wrote (withAside (getL s l) b) a (resultLines (indexLines (getL s l) d first n)
      (if (descAt (getL s l) d).w = 2 then 2 else 1))) s t := by
  obtain ⟨v, hrun, hv⟩ := exec_kxfr_begins h hr hahead (cp := true) (by rw [hf]; rfl) ha fun _ => hrange
  obtain ⟨u, b, hread, hu⟩ := readIndices_begins h.share hv
  have hdesc : descAt (getL v l) d = descAt (getL s l) d := hv.data (descAt · d) fun _ => rfl
  have hmore : stepOp l 6 { issuedEntry (getL s l) (.kxfr l f) (.kxfr a d 0 first n true) with got := [] ++ [] } v
      = .more (.emit a (resultLines (indexLines (getL s l) d first n) (if (descAt (getL s l) d).w = 2 then 2 else 1))) u := by
    show runKxfr l a d 0 first n true v = _
    unfold runKxfr
    simp only [hread, hdesc, if_true]
  obtain ⟨t, hnext, ht⟩ := runPort_goes_on (n := 63) hv h.quiet (gather_none rfl v) hmore hu
  obtain ⟨z, hemit, hz⟩ := emitLines_free (resultLines (indexLines (getL s l) d first n) (if (descAt (getL s l) d).w = 2 then 2 else 1)) ht (a := a) (by
    rw [length_resultLines, length_indexLines]
    exact hfree)
  refine ⟨_, b, hrun, ?_⟩
  rw [engineFuel, hnext]
  exact became_of_busy (runPort_completes (n := 62) ht h.quiet (gather_none rfl t) hemit hz h.quiet)

theorem exec_kxfr_sends {cis : Bool} {fs : List Flit} (hf : f.f = 0) (hdest : slDestOk s l f.d.toNat = true)
    (hpoison : (getSl (getL s l) f.d.toNat).poisonNext = false)
    (hcis : cis = match tileOfDest (getSl (getL s l) f.d.toNat).dest with | some t => tileCistern t | none => false)
    (hfs : fs = kvMessage l (descAt (getL s l) d) (if cis then 0 else (descAt (getL s l) d).peer) first n (if cis then (descAt (getL s l) d).caddr else 0)
      (indexLines (getL s l) d first n)) (hcredits : fs.length ≤ creditsLeft s l f.d.toNat) :
    ∃ t b x, exec (.kxfr l f) s = .next t ∧ x.op = .kxfrAck f.d.toNat ∧ Busy l 6 (injectedL (nowNs s) 6 (fs.map (posted (getSl (getL s l) f.d.toNat)))
      (withSpent (withAside (getL s l) b) f.d.toNat fs.length)) ⟨[x], 4, nowNs s⟩ s t := by
  obtain ⟨v, hrun, hv⟩ := exec_kxfr_begins h hr hahead (cp := false) (by rw [hf]; rfl) rfl fun hcopy => absurd hcopy (by decide)
  obtain ⟨u, b, hread, hu⟩ := readIndices_begins h.share hv
  have hdesc : descAt (getL v l) d = descAt (getL s l) d := hv.data (descAt · d) fun _ => rfl
  have hmore : stepOp l 6 { issuedEntry (getL s l) (.kxfr l f) (.kxfr 0 d f.d.toNat first n false) with got := [] ++ [] } v = .more (.inject f.d.toNat fs) u := by
    show runKxfr l 0 d f.d.toNat first n false v = _
    unfold runKxfr
    simp only [hread, hdesc, busy_slDestOk hv rfl, hdest, hv.getSl, Bool.false_eq_true, Bool.not_true, if_false]
    subst hcis hfs
    rfl
  obtain ⟨t, hnext, ht⟩ := runPort_goes_on (n := 63) hv h.quiet (gather_none rfl v) hmore hu
  obtain ⟨z, hsend, hz⟩ := sendFlits_sends (ent := f.d.toNat) fs ht (by rw [hfs]; exact List.cons_ne_nil _ _) hcredits hpoison
  have hacked : ∀ x : EngEntry, x.op = .inject f.d.toNat fs → stepOp l 6 x t = .more (.kxfrAck f.d.toNat) z := fun x hx => by
    unfold stepOp
    simp only [hx, hsend, if_true]
  have hquiet : portQuiet (injectedL (nowNs s) 6 (fs.map (posted (getSl (getL s l) f.d.toNat))) (withSpent (withAside (getL s l) b) f.d.toNat fs.length)) := by
    rw [injectedL_keeps portQuiet (fun _ _ => rfl) fun _ _ _ => rfl]
    exact h.quiet
  obtain ⟨y, hlast, hy⟩ := runPort_goes_on (n := 62) ht h.quiet (gather_none rfl t) (hacked _ rfl) hz
  have hwaits := runPort_waits (n := 61) hy hquiet (gather_none rfl y) (op := .kxfrAck f.d.toNat) rfl (by decide) hy
  rw [← hlast, ← hnext] at hwaits
  exact ⟨_, b, _, hrun, rfl, hwaits⟩

end

/-- Settles O24: pages resolved one after the other; the lines of the share read in index order, then written out or sent. -/
theorem kvMoves : Obligations.KvMoves := by
  unfold Obligations.KvMoves
  rintro l f s w d first n _ hw hd rfl hfirst hn hz hquiet hshare
  have h : Tokens l f s w d first n := ⟨hw, hd, hfirst, hn, hz, hquiet, hshare⟩
  refine ⟨?walk, ?transfer⟩
  case walk =>
    rintro x q hr hx hq
    refine exec_kwalk_resolves h hr ?_ hq
    rw [walkedMore, ← Nat.add_sub_assoc (by omega)]
    exact hx
  case transfer =>
    rintro _ rfl hahead hr
    refine ⟨fun a hf ha hrange hfree => ?_, ?_⟩
    · exact exec_kxfr_copies h hr hahead hf ha hrange hfree
    · rintro _ fs cis hf rfl hdest hpoison hcis hfs hcredits
      obtain ⟨t, b, x, hexec, hop, ht⟩ := exec_kxfr_sends h hr hahead hf hdest hpoison hcis hfs hcredits
      exact ⟨t, b, x, hexec, congrArg Engine.q ht.engine, hop, congrArg Engine.wait ht.engine, ht.lantern⟩
end Sys2Proof.KvPortRun
end

section
/-!
PROOFS. 08 R238, 11 R352: a management write of a route table that is not locked. The router takes what is written, and the Lamplighter's check values of its exceptions
and masks follow: O35 leaves them as they were.
-/

open Sys2Proof Sys2Proof.Machine

namespace Sys2Proof.RouteWrites

/-- A router whose check values are those of what it holds (11 R352). -/
def checkedAnew (R : Router) : Router := { R with goldExceptions := R.exceptions, goldPermit := R.permit }

section
variable {s : State} {r pn m : Nat} (hlock : s.sec.routesLocked = false)
include hlock

theorem routeWrite_unlocked (f : Router → Router) : routeWrite r f s = updR s r (fun R => checkedAnew (f R)) := by
  unfold routeWrite
  rw [if_neg (by rw [hlock]; decide)]
  rfl

theorem exec_permitMask_unlocked (hr : r < 1600) (hpn : pn < 16) :
    exec (.mgmtFlit (.permitMask r pn m)) s = .next (updR s r (fun R => checkedAnew { R with permit := tset 0 R.permit pn (m % 32) })) := by
  have hok : mgmtOk (.permitMask r pn m) = true := by simp [mgmtOk, lanternOk, partOk, hr, hpn]
  rw [exec_mgmtFlit, execMgmtFlit, hok, guarded_true, mgmtWrite, routeWrite_unlocked hlock]

end

/-! ## The counterexample -/

/-- The module as it leaves the factory has its route tables unlocked. -/
theorem reset_unlocked : State.reset.sec.routesLocked = false := rfl

/-- Router 0 is given mask 1 for tag 0: its check value is the new mask, not the one of reset. -/
theorem goldPermit_written : (getR (updR State.reset 0 (fun R => checkedAnew { R with permit := tset 0 R.permit 0 (1 % 32) })) 0).goldPermit = [(0, 1)] := by
  rw [getR_updR_same]
  rfl

theorem goldPermit_stated : (getR (updR State.reset 0 (fun R => { R with permit := tset 0 R.permit 0 (1 % 32) })) 0).goldPermit = [] := by
  rw [getR_updR_same]
  rfl

/-- Refutes O35, by the clause of a permit mask in a table that is not locked: the model writes the check value of the mask too, which the clause leaves. -/
theorem not_managementWrites : ¬ Obligations.ManagementWrites := by
  unfold Obligations.ManagementWrites
  intro h
  obtain ⟨-, -, -, -, -, hmask, -⟩ := h 0 0 0 0 0 0 0 1 0 0 0 [] [] State.reset _ (by decide) (by decide) (by decide) (by decide) rfl
  have hstated := hmask reset_unlocked
  rw [exec_permitMask_unlocked reset_unlocked (by decide) (by decide)] at hstated
  have hgold := congrArg (fun t => (getR t 0).goldPermit) (Host.Outcome.next.inj hstated)
  exact absurd (goldPermit_written.symm.trans (hgold.trans goldPermit_stated)) (by decide)

end Sys2Proof.RouteWrites
end

section
/-!
PROOFS. Contexts and timers (07 R228 to R230; 09 R268, R291, R293): what an update of a request, a share given up and a page image erased leave, and from these what a
pause, a resume, an expiry and a timed interrupt come to.
-/

open Sys2Proof Sys2Proof.Machine

namespace Sys2Proof.Contexts

open Sys2Proof.Reports

/-! ## One request of a partition changed -/

section
variable {s : State} {n : Nat} {tag : BitVec 64} {p : Partition} {r : Request}

theorem reqs_noteIdle (t : Nat) (p : Partition) : (noteIdle t p).reqs = p.reqs := by
  unfold noteIdle
  split <;> rfl

theorem running_noteIdle (t : Nat) (p : Partition) : (noteIdle t p).running = p.running := by
  unfold noteIdle
  split <;> rfl

/-- The first request of a tag stays the first when requests of the tag change and keep it. -/
theorem find_lmap (rs : List Request) {f : Request → Request} (hf : ∀ r, (f r).tag = r.tag) :
    (lmap (fun r => r.tag == tag) f rs).find? (fun r => r.tag == tag) = (rs.find? (fun r => r.tag == tag)).map f := by
  have htag : ∀ r : Request, ((if (r.tag == tag) = true then f r else r).tag == tag) = (r.tag == tag) := by
    intro r
    split
    · rw [hf]
    · rfl
  induction rs with
  | nil => rfl
  | cons r rs ih =>
    rw [lmap, List.map_cons, List.find?_cons, List.find?_cons, htag]
    cases h : r.tag == tag
    · exact ih
    · simp only [if_true, Option.map_some]

/-- A partition whose requests of a tag are changed by f. -/
def requestNow (t : Nat) (tag : BitVec 64) (f : Request → Request) (p : Partition) : Partition :=
  noteIdle t { p with reqs := lmap (fun r => r.tag == tag) f p.reqs }

theorem findReq_requestNow (h : findReq p tag = some r) (t : Nat) {f : Request → Request} (hf : ∀ r, (f r).tag = r.tag) :
    findReq (requestNow t tag f p) tag = some (f r) := by
  rw [findReq, requestNow, reqs_noteIdle]
  exact (find_lmap p.reqs hf).trans (congrArg (Option.map f) h)

theorem running_requestNow (t : Nat) (tag : BitVec 64) (f : Request → Request) (p : Partition) : (requestNow t tag f p).running = p.running := running_noteIdle _ _

theorem updReq_found (hp : getPart s n = some p) (f : Request → Request) : updReq s n tag f = setPart s n (some (requestNow (nowNs s) tag f p)) := updPart_some s _ hp

end

/-! ## Shares given up (07 R206, R214) -/

section
variable {s : State} {n : Nat} {tag : BitVec 64} {p : Partition} {r : Request}

/-- A request without shares. -/
def shareless (r : Request) : Request := { r with shares := [] }

/-- A partition whose request of a tag gives its shares up. -/
def givenUp (tag : BitVec 64) (p : Partition) : Partition :=
  { p with
    freeing := p.freeing ++ (p.reqs.filter (fun r => r.tag == tag)).flatMap (·.shares), reqs := lmap (fun r => r.tag == tag) shareless p.reqs }

theorem findReq_givenUp (h : findReq p tag = some r) : findReq (givenUp tag p) tag = some (shareless r) :=
  (find_lmap p.reqs (f := shareless) fun _ => rfl).trans (congrArg (Option.map shareless) h)

theorem mem_freeing_givenUp (h : findReq p tag = some r) {x : Share} (hx : x ∈ r.shares) : x ∈ (givenUp tag p).freeing :=
  List.mem_append_right _ (List.mem_flatMap.2 ⟨r, List.mem_filter.2 ⟨List.mem_of_find?_eq_some h, List.find?_some (p := fun r : Request => r.tag == tag) h⟩, hx⟩)

theorem giveUp_found (hp : getPart s n = some p) :
    giveUp n tag s = if p.running then setPart s n (some (givenUp tag p)) else freeNow (setPart s n (some (givenUp tag p))) n := by
  unfold giveUp
  simp only [hp, updPart_some s _ hp]
  rfl

/-- The module but for its lanterns. -/
def unlanterned (s : State) : State := { s with lanterns := [] }

theorem forEach_setShareState (st : Nat) (hs : List Share) (s : State) : unlanterned (forEach hs (setShareState st) s) = unlanterned s :=
  forEach_keeps unlanterned (setShareState st) (fun _ _ => rfl) hs s

theorem freeNow_found (hp : getPart s n = some p) : ∃ t, unlanterned t = unlanterned s ∧ freeNow s n = setPart t n (some { p with freeing := [] }) := by
  have hkeeps := forEach_setShareState 0 p.freeing s
  refine ⟨_, hkeeps, ?_⟩
  unfold freeNow
  simp only [hp]
  exact updPart_some _ _ ((same_of_blank unlanterned (getPart · n) (fun _ => rfl) hkeeps).trans hp)

end

/-! ## CISTERN_PAUSE_DONE (07 R228, R229; 09 R291) -/

section
variable {s : State} {n : Nat} {tag : BitVec 64} {p : Partition} {r : Request} (hp : getPart s n = some p) (hr : findReq p tag = some r)

/-- The adapter that a context names, when its request has one. -/
def adapterOf (p : Partition) (r : Request) : Nat × Nat :=
  match tget none p.adapters (r.adapter - 1) with
  | some a => if r.adapter = 0 then (0, 0) else (a.id, a.ver)
  | none => (0, 0)

/-- The context of handle h that a request leaves (09 R291). -/
def contextOf (h : BitVec 64) (s : State) (n : Nat) (p : Partition) (r : Request) : Context :=
  ⟨h, n, layoutOf p, p.wset.plain.getD 0, r.gen.getLastD 0, nextPos r - 1, (adapterOf p r).1, (adapterOf p r).2,
    expiryAt s (if r.endStatus = stPaused then r.pauseTtl else r.keepTtl), heldCache s r, r.image, true⟩

/-- The module with one more context. -/
def withContext (s : State) (c : Context) : State := { s with contexts := s.contexts ++ [c], serial := s.serial + 1 }

theorem updReq_withContext {s : State} {n : Nat} {p : Partition} (hp : getPart s n = some p) (c : Context) (tag : BitVec 64) (f : Request → Request) :
    updReq (withContext s c) n tag f = setPart (withContext s c) n (some (requestNow (nowNs s) tag f p)) := updPart_some (withContext s c) _ hp

/-- A request whose context has handle h. -/
def handled (h : BitVec 64) (r : Request) : Request := { r with handle := h }

theorem tag_handled (h : BitVec 64) (r : Request) : (handled h r).tag = r.tag := rfl
theorem shares_handled (h : BitVec 64) (r : Request) : (handled h r).shares = r.shares := rfl
theorem shareless_handled (h : BitVec 64) (r : Request) : shareless (handled h r) = { r with handle := h, shares := [] } := rfl

/-- Every page of a request that stores its context has moved, and the cistern is to have it. -/
structure AllMoved (s : State) (r : Request) : Prop where
  ending : r.state = .ending
  still : r.inPass = false
  stores : toStore r = true
  unnamed : r.handle = 0
  fresh : r.resuming = false
  running : s.sec.restarting = false
  moved : r.stage = .out [] []

theorem exec_pauseDone (hn : n < 16) (tag : BitVec 64) (s : State) : exec (.cisternPauseDone n tag) s = .next (pauseDone n tag s) := by
  rw [exec_cisternPauseDone, execCisternPauseDone, show partOk n = true from decide_eq_true hn, guarded_true]

include hp hr

/-- A request whose pages have not all moved, or that stores nothing, is left as it is. -/
theorem pauseDone_waits (h : toStore r = false ∨ r.stage ≠ .out [] []) : pauseDone n tag s = s := by
  unfold pauseDone
  simp only [hp, hr]
  refine if_pos ?_
  rcases h with hs | hs
  · simp [hs]
  · simp [hs]

theorem pauseDone_refused (h : storeStatus s p (recPages (heldCache s r)) ≠ 0) : pauseDone n tag s = s := by
  unfold pauseDone
  simp only [hp, hr, if_pos h, ite_self]

theorem pauseDone_makes (h : AllMoved s r) (hroom : storeStatus s p (recPages (heldCache s r)) = 0) :
    pauseDone n tag s = giveUp n tag (updReq (withContext s (contextOf (newHandle s n) s n p r)) n tag (handled (newHandle s n))) := by
  obtain ⟨hending, hstill, hstores, hunnamed, hfresh, hrunning, hmoved⟩ := h
  unfold pauseDone
  simp only [hp, hr, hending, hstill, hstores, hunnamed, hfresh, hrunning, hmoved, hroom]
  rfl

/-- The partition once its request has the handle and gives its shares up. -/
def pausedPart (s : State) (n : Nat) (tag : BitVec 64) (p : Partition) : Partition :=
  givenUp tag (requestNow (nowNs s) tag (handled (newHandle s n)) p)

theorem pauseDone_leaves (h : AllMoved s r) (hroom : storeStatus s p (recPages (heldCache s r)) = 0) :
    ∃ t q, pauseDone n tag s = setPart t n (some q) ∧ t.contexts = s.contexts ++ [contextOf (newHandle s n) s n p r] ∧ t.serial = s.serial + 1
      ∧ findReq q tag = some (shareless (handled (newHandle s n) r)) ∧ (p.running = true → ∀ x ∈ r.shares, x ∈ q.freeing) ∧ (p.running = false → q.freeing = []) := by
  have hfound : findReq (requestNow (nowNs s) tag (handled (newHandle s n)) p) tag = some (handled (newHandle s n) r) := findReq_requestNow hr _ (tag_handled _)
  have hset : updReq (withContext s (contextOf (newHandle s n) s n p r)) n tag (handled (newHandle s n))
      = setPart (withContext s (contextOf (newHandle s n) s n p r)) n (some (requestNow (nowNs s) tag (handled (newHandle s n)) p)) := updReq_withContext hp _ _ _
  have hrun : (requestNow (nowNs s) tag (handled (newHandle s n)) p).running = p.running := running_requestNow _ _ _ _
  rw [pauseDone_makes hp hr h hroom, hset, giveUp_found (getPart_setPart_same _ _ _), hrun]
  cases hrunning : p.running
  · rw [if_neg (by decide)]
    obtain ⟨t, ht, hfree⟩ := freeNow_found (n := n) (p := pausedPart s n tag p) (getPart_setPart_same
      (setPart (withContext s (contextOf (newHandle s n) s n p r)) n (some (requestNow (nowNs s) tag (handled (newHandle s n)) p))) n _)
    refine ⟨t, { pausedPart s n tag p with freeing := [] }, hfree, ?_, ?_, findReq_givenUp hfound, fun e => absurd e (by decide), fun _ => rfl⟩
    · exact same_of_blank unlanterned State.contexts (fun _ => rfl) ht
    · exact same_of_blank unlanterned State.serial (fun _ => rfl) ht
  · rw [if_pos rfl]
    exact ⟨_, pausedPart s n tag p, rfl, rfl, rfl, findReq_givenUp hfound, fun _ x hx => mem_freeing_givenUp hfound (by rw [shares_handled]; exact hx),
      fun e => absurd e (by decide)⟩

end

/-! ## CISTERN_RESUME_DONE (07 R229, R230) -/

section
variable {s : State} {n : Nat} {tag : BitVec 64} {p : Partition} {r : Request}

theorem exec_resumeDone (hn : n < 16) (tag : BitVec 64) (ok : Bool) (s : State) : exec (.cisternResumeDone n tag ok) s = .next (resumeDone n tag ok s) := by
  rw [exec_cisternResumeDone, execCisternResumeDone, show partOk n = true from decide_eq_true hn, guarded_true]

/-- A request at a stage of its cache. -/
def staged (x : CacheStage) (r : Request) : Request := { r with stage := x }

variable (hp : getPart s n = some p) (hr : findReq p tag = some r) (hresuming : r.resuming = true)
include hp hr hresuming

theorem resumeDone_ready (hrunning : s.sec.restarting = false) (herror : s.sec.error = false) (hstage : r.stage = .back [] [] false) :
    resumeDone n tag true s = setPart (dropImages s r.image) n (some (requestNow (nowNs s) tag (staged .ready) p)) := by
  have hset : updReq (dropImages s r.image) n tag (staged .ready) = setPart (dropImages s r.image) n (some (requestNow (nowNs s) tag (staged .ready) p)) :=
    updPart_some (dropImages s r.image) _ hp
  rw [← hset]
  unfold resumeDone
  simp only [hp, Option.bind_some, hr, hresuming, hrunning, herror, hstage]
  rfl

/-- Pages are still to come back. -/
theorem resumeDone_waits {todo busy : List PageMove} (herror : s.sec.error = false) (hstage : r.stage = .back todo busy false) (hmore : todo ≠ [] ∨ busy ≠ []) :
    resumeDone n tag true s = s := by
  have hsome : (todo.isEmpty && busy.isEmpty) = false := by
    rcases hmore with h | h
    · rw [List.isEmpty_eq_false_iff.2 h, Bool.false_and]
    · rw [List.isEmpty_eq_false_iff.2 h, Bool.and_false]
  unfold resumeDone
  simp only [hp, Option.bind_some, hr, hresuming, herror, hstage, hsome, Bool.not_true, Bool.false_and, Bool.false_or, Bool.or_self, Bool.false_eq_true, if_false, ite_self]

/-- A line failed authentication, now or before. -/
theorem resumeDone_loses {todo busy : List PageMove} {failed : Bool} (hrunning : s.sec.restarting = false) (hstage : r.stage = .back todo busy failed) :
    ∃ u, unreported u = unreported s ∧ resumeDone n tag false s = resumeLost n tag r u := by
  unfold resumeDone
  simp only [hp, Option.bind_some, hr, hresuming, hrunning, hstage]
  cases failed
  · exact ⟨_, countT_unreported s _ 0x66 1, rfl⟩
  · exact ⟨s, rfl, rfl⟩

end

/-! ### The sequence reports CONTEXT_LOST -/

section
variable {s : State} {n : Nat} {tag : BitVec 64} {p : Partition} {r : Request}

/-- A request that resumes no more. -/
def unresumed (r : Request) : Request := { r with resuming := false, inPass := false }

/-- A request that ends with a status, unless it is already ending. -/
def endingWith (status hit : Nat) (r : Request) : Request :=
  if r.state = .ending ∧ r.endStatus ≠ stPaused then r else { r with state := .ending, endStatus := status, reason := reasonOf status, hit := hit }

theorem tag_endingWith (status hit : Nat) (r : Request) : (endingWith status hit r).tag = r.tag := by
  unfold endingWith
  split <;> rfl

theorem endingWith_running {r : Request} (h : r.state ≠ .ending) (status hit : Nat) :
    endingWith status hit r = { r with state := .ending, endStatus := status, reason := reasonOf status, hit := hit } := if_neg fun hand => h hand.1

/-- The module but for its partitions and its cistern. -/
def unmoved (s : State) : State := { s with parts := [], cistern := [] }

theorem updReq_unmoved (s : State) (n : Nat) (tag : BitVec 64) (f : Request → Request) : unmoved (updReq s n tag f) = unmoved s := by
  unfold updReq updPart
  split <;> rfl

theorem contexts_resumeLost (s : State) : (resumeLost n tag r s).contexts = s.contexts :=
  (same_of_blank unmoved State.contexts (fun _ => rfl) (updReq_unmoved _ _ _ _)).trans (same_of_blank unmoved State.contexts (fun _ => rfl) (updReq_unmoved _ _ _ _))

theorem getPart_updReq (hp : getPart s n = some p) (f : Request → Request) : getPart (updReq s n tag f) n = some (requestNow (nowNs s) tag f p) := by
  rw [updReq_found hp, getPart_setPart_same]

theorem resumeLost_ends (hp : getPart s n = some p) (hr : findReq p tag = some r) (hstate : r.state ≠ .ending) :
    ∃ q x, getPart (resumeLost n tag r s) n = some q ∧ findReq q tag = some x ∧ x.state = .ending ∧ x.endStatus = stLost ∧ x.inPass = false := by
  have hdropped : getPart (dropImages s r.image) n = some p := hp
  refine ⟨_, endingWith stLost 0 (unresumed r), getPart_updReq (getPart_updReq hdropped unresumed) (endingWith stLost 0),
    findReq_requestNow (findReq_requestNow (f := unresumed) hr _ fun _ => rfl) _ (tag_endingWith _ _), ?_⟩
  rw [endingWith_running (r := unresumed r) hstate]
  exact ⟨rfl, rfl, rfl⟩

end

/-! ## CONTEXT_TTL_EXPIRY (09 R293) -/

section
variable {s : State} {h : BitVec 64} {c : Context} (hc : findCtx s h = some c)
include hc

theorem exec_ttlExpiry_erases (hidle : c.busy = false) (hdue : c.expiry ≤ nowNs s) :
    exec (.contextTtlExpiry h) s = .next (dropRecord (dropImages s c.image) h) := by
  rw [exec_contextTtlExpiry, execContextTtlExpiry, guarded_true, ttlExpiry]
  simp only [hc, hidle, hdue, Bool.not_false, and_self, if_true, eraseCtx]

theorem exec_ttlExpiry_keeps (h' : c.busy = true ∨ nowNs s < c.expiry) : exec (.contextTtlExpiry h) s = .next s := by
  have hnot : ¬ ((!c.busy) = true ∧ c.expiry ≤ nowNs s) := by
    rintro ⟨hidle, hdue⟩
    rcases h' with hbusy | hearly
    · rw [hbusy] at hidle
      exact absurd hidle (by decide)
    · exact absurd hdue (Nat.not_le.2 hearly)
  rw [exec_contextTtlExpiry, execContextTtlExpiry, guarded_true, ttlExpiry]
  simp only [hc, if_neg hnot]

end

/-! ## INTERRUPT_TIMER (09 R268) -/

section
variable {s : State} {fn : Fn} (hf : fn.num ≤ 16)
include hf

theorem exec_timer (src : IntSource) : exec (.interruptTimer fn src) s = .next (interruptTimer fn src s) := by
  rw [exec_interruptTimer, execInterruptTimer, show fnOk fn = true from decide_eq_true hf, guarded_true]

theorem exec_timer_queuePair {q : Nat} {x : Qp} (hq : getQp s fn q = some x) (hdue : intDue x.int (nowNs s) = true) :
    exec (.interruptTimer fn (.queuePair q)) s = .next (sendMsix (setQp s fn q (some { x with int := intSent x.int })) fn x.int.vector) := by
  rw [exec_timer hf, interruptTimer]
  simp only [hq, hdue, if_true]

theorem exec_timer_eventRing {g : EvRing} (hg : (getFn s fn).ring = some g) : exec (.interruptTimer fn .eventRing) s
    = .next (if intDue g.int (nowNs s) then sendMsix (updFn s fn (fun f => { f with ring := some { g with int := intSent g.int } })) fn g.int.vector else s) := by
  rw [exec_timer hf, interruptTimer]
  simp only [hg]

end

theorem intDue_of_first {c : IntCoal} {t u : Nat} (hu : c.first = some u) (ht : 0 < c.time) (hpast : u + 1000 * c.time ≤ t) : intDue c t = true := by
  simp [intDue, hu, ht, hpast]

theorem intDue_none {c : IntCoal} (h : c.first = none) (t : Nat) : intDue c t = false := by simp [intDue, h]

/-- Settles O44: the request found at each event, and what becomes of its context, its shares and its stage; expiry and timers by their conditions. -/
theorem contextsAndTimers : Obligations.ContextsAndTimers := by
  unfold Obligations.ContextsAndTimers
  intro n tag s p r hn hp hr
  refine ⟨?paused, ?moving, ?unstored, ?ready, ?coming, ?lost, ?expired, ?kept, ?pair, ?ring, ?silent⟩
  case paused =>
    intro hending hstill hstores hunnamed hfresh hrunning hmoved
    have hall : AllMoved s r := ⟨hending, hstill, hstores, hunnamed, hfresh, hrunning, hmoved⟩
    refine ⟨_, exec_pauseDone hn tag s, pauseDone_refused hp hr, fun hroom => ?_⟩
    obtain ⟨t, q, hdone, hcontexts, hserial, hfound, hwaits, hgone⟩ := pauseDone_leaves hp hr hall hroom
    generalize hnew : newHandle s n = h at hcontexts hfound
    rw [hdone]
    exact ⟨q, _, contextOf h s n p r, hcontexts, hserial, hnew.symm, rfl, rfl, rfl, rfl, rfl, rfl, rfl, rfl, getPart_setPart_same _ _ _, hfound,
      shareless_handled h r, hwaits, hgone⟩
  case moving =>
    intro m ms busy hstage
    rw [exec_pauseDone hn, pauseDone_waits hp hr (.inr ?_)]
    rcases hstage with h | h <;> simp [h]
  case unstored =>
    intro hstores
    rw [exec_pauseDone hn, pauseDone_waits hp hr (.inl hstores)]
  case ready =>
    intro hresuming hrunning herror hstage
    refine ⟨_, requestNow (nowNs s) tag (staged .ready) p, exec_resumeDone hn tag true s, ?_⟩
    rw [resumeDone_ready hp hr hresuming hrunning herror hstage]
    exact ⟨rfl, getPart_setPart_same _ _ _, findReq_requestNow (f := staged .ready) hr _ fun _ => rfl⟩
  case coming =>
    intro m ms busy hresuming herror hstage
    rw [exec_resumeDone hn]
    rcases hstage with h | h
    · rw [resumeDone_waits hp hr hresuming herror h (.inl (List.cons_ne_nil _ _))]
    · rw [resumeDone_waits hp hr hresuming herror h (.inr (List.cons_ne_nil _ _))]
  case lost =>
    intro ms busy failed hresuming hrunning hstate hstage
    obtain ⟨u, hu, hlost⟩ := resumeDone_loses hp hr hresuming hrunning hstage
    obtain ⟨q, x, hq, hx, hending, hstatus, hpass⟩ := resumeLost_ends ((getPart_of_unreported hu n).trans hp) hr hstate
    refine ⟨_, q, x, exec_resumeDone hn tag false s, ?_⟩
    rw [hlost]
    exact ⟨hq, hx, hending, hstatus, hpass, (contexts_resumeLost u).trans (same_of_blank unreported State.contexts (fun _ => rfl) hu)⟩
  case expired => exact fun h c hc hidle hdue => exec_ttlExpiry_erases hc hidle hdue
  case kept => exact fun h c hc hkeep => exec_ttlExpiry_keeps hc hkeep
  case pair => exact fun fn q x u hf hq hu ht hpast => exec_timer_queuePair hf hq (intDue_of_first hu ht hpast)
  case ring =>
    intro fn g u hf hg hu ht hpast
    rw [exec_timer_eventRing hf hg, intDue_of_first hu ht hpast, if_pos rfl]
    rfl
  case silent =>
    intro fn g hf hg hnone
    rw [exec_timer_eventRing hf hg, intDue_none hnone, if_neg (by decide)]

end Sys2Proof.Contexts
end

section
/-!
PROOFS. KV messages as they arrive (07 R215, R217 to R219). An arrival enters its channel and, the KV port idle, leaves it at once: what the port then does with a header
or a line leaves its arrivals, its engine and the messages of module firmware alone, so the port stops there.
-/

open Sys2Proof Sys2Proof.Machine

namespace Sys2Proof.KvArriving

open Sys2Proof.Arriving Sys2Proof.WaitRun Sys2Proof.Reports

/-! ## What the KV port has to do (07 R219, R228) -/

/-- What waits for the KV port: arrivals, a message of module firmware, the engines' queues. -/
def portPending (L : Lantern) : List (Nat × Flit) × Option KvMove × SMap Engine := (L.kvIn, L.move, L.engines)

/-- The KV port has nothing to take, nothing to send and no instruction, though a message may be open. -/
structure PortIdle (L : Lantern) : Prop where
  arrivals : L.kvIn = []
  firmware : L.move = none
  engine : getEng L 6 = {}

theorem PortIdle.of_pending {K L : Lantern} (h : PortIdle L) (hK : portPending K = portPending L) : PortIdle K where
  arrivals := (congrArg Prod.fst hK).trans h.arrivals
  firmware := (congrArg (fun v => v.2.1) hK).trans h.firmware
  engine := (congrArg (fun v : List (Nat × Flit) × Option KvMove × SMap Engine => tget ({} : Engine) v.2.2 6) hK).trans h.engine

section
variable {l : Nat} {s : State} (h : PortIdle (getL s l))
include h

theorem portWork_portIdle : portWork l s = s := by
  rw [portWork, serveKv, h.arrivals]
  show startMove l s = s
  rw [startMove, h.firmware]

theorem startEngine_portIdle : startEngine l 6 s = s := by
  have hwait : (getEng (getL s l) 6).wait = 0 := congrArg Engine.wait h.engine
  have hqueue : (getEng (getL s l) 6).q = [] := congrArg Engine.q h.engine
  rw [startEngine, if_pos hwait, engineFuel, runEngine]
  simp only [if_true, portWork_portIdle h, hqueue]

end

/-! ## What leaves the port's work as it is -/

section
variable {l : Nat} {s : State}

theorem pending_updL {f : Lantern → Lantern} {t : State} (h : portPending (getL t l) = portPending (getL s l)) (hf : ∀ L, portPending (f L) = portPending L) :
    portPending (getL (updL t l f) l) = portPending (getL s l) := by
  rw [getL_updL_same, hf, h]

theorem pending_countL (s : State) (l src n : Nat) : portPending (getL (countL s l src n) l) = portPending (getL s l) := by
  obtain ⟨_, hc⟩ := getL_countL s l src n l
  rw [hc]
  rfl

theorem pending_raiseL (s : State) (l sev code detail : Nat) : portPending (getL (raiseL s l sev code detail) l) = portPending (getL s l) :=
  congrArg portPending (getL_of_unreported (raiseEv_unreported _ _ _ _ _ _ _) l)

theorem pending_trapNow (s : State) (l cause detail : Nat) : portPending (getL (trapNow s l cause detail) l) = portPending (getL s l) := by
  rw [trapNow, trapAt]
  split
  · rfl
  · rw [raiseFault, Scalars.getL_updPart, getL_updL_same]
    rfl

theorem pending_setDesc (s : State) (l d i n v : Nat) : portPending (getL (setDesc s l d i n v) l) = portPending (getL s l) := pending_updL rfl fun _ => rfl
theorem pending_setIntake (s : State) (l j : Nat) (f : Intake → Intake) : portPending (getL (setIntake s l j f) l) = portPending (getL s l) :=
  pending_updL rfl fun _ => rfl
theorem pending_setKvNow (s : State) (l : Nat) (j : Option Nat) : portPending (getL (setKvNow s l j) l) = portPending (getL s l) := pending_updL rfl fun _ => rfl
theorem pending_writeKv (s : State) (l a : Nat) (x : Line) (p : Bool) : portPending (getL (writeKv s l a x p) l) = portPending (getL s l) :=
  pending_updL rfl fun _ => rfl

theorem pending_deliver (s : State) (l n a : Nat) (poison parBad : Bool) : portPending (getL (deliver s l n a poison parBad).1 l) = portPending (getL s l) := by
  have hmiss : portPending (getL (parityMiss s l n a) l) = portPending (getL s l) :=
    (pending_raiseL _ _ _ _ _).trans (pending_updL (pending_countL _ _ _ _) fun _ => rfl)
  have hread : portPending (getL (if parBad then parityMiss s l n a else s) l) = portPending (getL s l) := by
    split
    · exact hmiss
    · rfl
  unfold deliver
  dsimp only
  split
  · exact (pending_countL _ _ _ _).trans hread
  · exact hread

theorem pending_tableRead (s : State) (l a : Nat) : portPending (getL (tableRead s l a) l) = portPending (getL s l) := pending_deliver _ _ _ _ _ _

theorem pending_walkReads (s : State) (l : Nat) (k : Desc) (x : Nat) : portPending (getL (walkReads s l k x) l) = portPending (getL s l) := by
  unfold walkReads
  dsimp only
  split
  · rfl
  · split
    · exact pending_tableRead _ _ _
    · exact (pending_tableRead _ _ _).trans (pending_tableRead _ _ _)

theorem pending_resolveOne {t : State} {d x p : Nat} (h : resolveOne s l d x = some (t, p)) : portPending (getL t l) = portPending (getL s l) := by
  unfold resolveOne at h
  dsimp only at h
  split at h
  · cases h
  · obtain ⟨rfl, -⟩ := Prod.mk.inj (Option.some.inj h)
    refine pending_updL ?_ fun _ => rfl
    split
    · rfl
    · exact pending_walkReads _ _ _ _

theorem pending_resolve {t : State} {d x p : Nat} (h : resolve s l d x = some (t, p)) : portPending (getL t l) = portPending (getL s l) := by
  unfold resolve at h
  split at h
  · cases h
  · next u q hfirst =>
    obtain ⟨rfl, -⟩ := Prod.mk.inj (Option.some.inj h)
    refine pending_updL ?_ fun _ => rfl
    split
    · next v r hnext => exact (pending_resolveOne hnext).trans (pending_resolveOne hfirst)
    · exact pending_resolveOne hfirst

theorem pending_writeShare {d i : Nat} (xs : List (Line × Bool)) : ∀ {c : Nat} {s t : State}, writeShare l d i c xs s = some t →
    portPending (getL t l) = portPending (getL s l) := by
  induction xs with
  | nil =>
    intro c s t h
    rw [Option.some.inj h]
  | cons x xs ih =>
    intro c s t h
    unfold writeShare at h
    dsimp only at h
    split at h
    · cases h
    · next u p hresolve => exact (ih h).trans ((pending_writeKv _ _ _ _ _).trans (pending_resolve hresolve))

theorem pending_injectL (s : State) (l e : Nat) (f : Flit) : portPending (getL (injectL s l e f) l) = portPending (getL s l) := by
  have hlaunch : ∀ t, portPending (getL (launchL t l e f) l) = portPending (getL t l) := fun t => (pending_countL _ _ _ _).trans (pending_updL rfl fun _ => rfl)
  unfold injectL
  dsimp only
  split
  · split
    · exact (hlaunch _).trans (pending_updL rfl fun _ => rfl)
    · exact pending_updL rfl fun _ => rfl
  · exact hlaunch _

theorem pending_sendXack (s : State) (l j n : Nat) (last : Bool) : portPending (getL (sendXack l j n last s) l) = portPending (getL s l) := pending_injectL _ _ _ _

end

/-! ## An arrival at an idle port (07 R217, R219) -/

section
variable {l j : Nat} {s : State} {f : Flit} {xs : List Flit}

theorem pending_delivered (l : Nat) (xs : List Flit) (s : State) : portPending (getL (delivered l xs s) l) = portPending (getL s l) := pending_updL rfl fun _ => rfl

/-- A flit put into an idle port's channels. -/
def waiting (j : Nat) (f : Flit) (L : Lantern) : Lantern := { L with kvIn := L.kvIn ++ [(j, f)] }

theorem ne_reset_of_intake {L : Lantern} {src : Nat} (h : intakeOf L src = some j) : L ≠ {} := by
  rintro rfl
  cases h

/-- What enters the channels of an idle port and is taken leaves the lantern as it was. -/
theorem waiting_taken (h : PortIdle (getL s l)) (hj : intakeOf (getL s l) f.src = some j) :
    updL (updL (delivered l xs s) l (waiting j f)) l (fun L => { L with kvIn := L.kvIn.erase (j, f) }) = delivered l xs s := by
  have hL : getL (delivered l xs s) l = { getL s l with rx := xs } := getL_delivered l xs s
  have hfull : waiting j f (getL (delivered l xs s) l) ≠ {} := fun hreset => absurd (congrArg Lantern.kvIn hreset) (List.append_ne_nil_of_right_ne_nil _ (List.cons_ne_nil _ _))
  have hsame : { waiting j f { getL s l with rx := xs } with kvIn := (waiting j f { getL s l with rx := xs }).kvIn.erase (j, f) } = { getL s l with rx := xs } := by
    have hnone : ((getL s l).kvIn ++ [(j, f)]).erase (j, f) = (getL s l).kvIn := by
      rw [h.arrivals]
      simp
    simp only [waiting, hnone]
  rw [updL_updL _ _ _ _ hfull, delivered, updL_updL _ _ _ _ (ne_reset_of_intake (L := { getL s l with rx := xs }) hj)]
  exact updL_congr _ _ hsame

/-- What the idle port does with the one flit that arrives. -/
theorem arriveKv_idle (h : PortIdle (getL s l)) (hnow : ∀ i, (getL s l).kvNow = some i → i = j) (hj : intakeOf (getL s l) f.src = some j) {t : State}
    (ht : t = if f.sub = 0 then takeHeader l j f (delivered l xs s) else takeData l j f (delivered l xs s))
    (hkeeps : portPending (getL t l) = portPending (getL s l)) : arriveKv l f (delivered l xs s) = t := by
  have hL : getL (delivered l xs s) l = { getL s l with rx := xs } := getL_delivered l xs s
  have hentered : getL (updL (delivered l xs s) l (waiting j f)) l = { getL s l with rx := xs, kvIn := [(j, f)] } := by
    rw [getL_updL_same, hL, waiting, h.arrivals]
    rfl
  have hfree : kvPortFree { getL s l with rx := xs, kvIn := [(j, f)] } = true := by
    show kvPortFree { getL s l with kvIn := [(j, f)] } = true
    rw [kvPortFree, moving, show getEng { getL s l with kvIn := [(j, f)] } 6 = {} from h.engine, h.firmware]
    rfl
  have hnext : nextKv { getL s l with rx := xs, kvIn := [(j, f)] } = some (j, f) := by
    unfold nextKv
    dsimp only
    cases hk : (getL s l).kvNow with
    | none => rfl
    | some i => simp [hnow i hk]
  have htake : takeKv l (j, f) (updL (delivered l xs s) l (waiting j f)) = t := by
    rw [takeKv, waiting_taken h hj, ht]
  have hidle : PortIdle (getL t l) := h.of_pending hkeeps
  have hwork : portWork l (updL (delivered l xs s) l (waiting j f)) = t := by
    have hserve : serveKv l (updL (delivered l xs s) l (waiting j f)) = t := by
      rw [serveKv, hentered]
      show serveArrivals l 1 _ = t
      rw [serveArrivals, hentered, hfree, hnext]
      exact htake
    rw [portWork, hserve, startMove, hidle.firmware]
  have hroom : ¬ 64 ≤ ((getL (delivered l xs s) l).kvIn.filter (fun e => e.1 == j)).length := by
    rw [hL]
    simp [h.arrivals]
  unfold arriveKv
  simp only [show intakeOf (getL (delivered l xs s) l) f.src = some j by rw [hL]; exact hj, if_neg hroom]
  show startEngine l 6 (portWork l (updL (delivered l xs s) l (waiting j f))) = t
  rw [hwork, startEngine_portIdle hidle]

end

/-! ## Headers (07 R218) -/

/-- The message that a header opens. -/
def openedBy (f : Flit) : KvMsg := ⟨lineField f.line 0 2, lineField f.line 12 4, lineField f.line 16 2, 0, 0, false⟩

section
variable {l j : Nat} {s t : State} {f : Flit}

theorem tableRead_sound {a : Nat} (hpar : (padAt (getL s l) a).parBad = false) (hpoison : (padAt (getL s l) a).poison = false) : tableRead s l a = s := by
  rw [tableRead]
  simp only [hpar, hpoison]
  rfl

variable (hpar : (padAt (getL t l) (lineField f.line 0 2)).parBad = false) (hpoison : (padAt (getL t l) (lineField f.line 0 2)).poison = false)
include hpar hpoison

theorem takeHeader_opens (hok : headerOk (getL t l) j f.line = true) :
    takeHeader l j f t = setKvNow (setIntake (if (descAt (getL t l) (lineField f.line 0 2)).guest ∧ (descAt (getL t l) (lineField f.line 0 2)).count = 0
      then setDesc t l (lineField f.line 0 2) 8 4 (lineField f.line 4 4) else t) l j (fun k => { k with msg := some (openedBy f) })) l (some j) := by
  unfold takeHeader
  simp only [tableRead_sound hpar hpoison, hok, if_true, Bool.and_eq_true, beq_iff_eq]
  rfl

theorem takeHeader_rejects (hbad : headerOk (getL t l) j f.line = false) :
    takeHeader l j f t = setKvNow (setIntake (trapNow t l causeRange (lineField f.line 0 2)) l j (fun k => { k with msg := some { openedBy f with rejected := true } })) l none := by
  unfold takeHeader
  simp only [tableRead_sound hpar hpoison, hbad, Bool.false_eq_true, if_false]
  rfl

end

/-! ## Lines (07 R217, R218) -/

section
variable {l j : Nat} {s t u : State} {f : Flit} {m : KvMsg}

theorem takeData_drops (hm : (tget {} (getL t l).intakes j).msg = some m) (hrej : m.rejected = true) :
    takeData l j f t = setIntake t l j (fun k => { k with msg := if f.last then none else some m }) := by
  unfold takeData
  simp only [hm, hrej, if_true]

/-- Lines of one local index of a share (07 R207). -/
def columnsOf (k : Desc) : Nat := 2 * k.w * k.hloc

/-- The acknowledgement after every 16 lines. -/
def acked (l j : Nat) (m : KvMsg) (u : State) : State := if m.unacked + 1 = 16 then sendXack l j 16 false u else u

/-- Lines unacknowledged after one more. -/
def unackedNext (m : KvMsg) : Nat := if m.unacked + 1 = 16 then 0 else m.unacked + 1

section
variable (hm : (tget {} (getL t l).intakes j).msg = some m) (hrej : m.rejected = false)
  (hwrite : writeShare l m.desc (m.first + m.written / columnsOf (descAt (getL t l) m.desc)) (m.written % columnsOf (descAt (getL t l) m.desc)) [(f.line, f.poison)] t = some u)
include hm hrej hwrite

theorem takeData_goes_on (hmore : m.written + 1 ≠ m.n * columnsOf (descAt (getL t l) m.desc)) :
    takeData l j f t = setIntake (acked l j m u) l j (fun k => { k with msg := some { m with written := m.written + 1, unacked := unackedNext m } }) := by
  unfold columnsOf at hwrite hmore
  unfold takeData acked unackedNext
  by_cases h16 : m.unacked + 1 = 16
  · simp only [hm, hrej, hwrite, h16, hmore, Bool.false_eq_true, if_true, if_false]
  · simp only [hm, hrej, hwrite, h16, hmore, Bool.false_eq_true, if_false]

theorem takeData_ends (hend : m.written + 1 = m.n * columnsOf (descAt (getL t l) m.desc)) :
    takeData l j f t = setKvNow (setIntake (sendXack l j (unackedNext m + 1) true (setDesc (acked l j m u) l m.desc 16 4 (m.first + m.n))) l j
      (fun k => { k with msg := none })) l none := by
  unfold columnsOf at hwrite hend
  unfold takeData acked unackedNext
  by_cases h16 : m.unacked + 1 = 16
  · simp only [hm, hrej, hwrite, h16, hend, Bool.false_eq_true, if_true, if_false]
  · simp only [hm, hrej, hwrite, h16, hend, Bool.false_eq_true, if_true, if_false]

end

theorem acked_sixteenth (h : m.unacked = 15) (u : State) : acked l j m u = sendXack l j 16 false u := if_pos (by rw [h])
theorem acked_other (h : m.unacked ≠ 15) (u : State) : acked l j m u = u := if_neg (by omega)
theorem unackedNext_sixteenth (h : m.unacked = 15) : unackedNext m = 0 := if_pos (by rw [h])
theorem unackedNext_other (h : m.unacked ≠ 15) : unackedNext m = m.unacked + 1 := if_neg (by omega)

theorem pending_acked (l j : Nat) (m : KvMsg) (u : State) : portPending (getL (acked l j m u) l) = portPending (getL u l) := by
  unfold acked
  split
  · exact pending_sendXack _ _ _ _ _
  · rfl

end

/-! ## Acknowledgements (07 R217; log 25) -/

section
variable {l e c : Nat} {s t : State} {f : Flit}

theorem addCredits_granted (hroom : (getSl (getL t l) e).credits + c ≤ (getSl (getL t l) e).grant) :
    addCredits l e c t = updSl t l e (fun k => { k with credits := k.credits + c }) := if_neg (Nat.not_lt.2 hroom)

section
variable (hmove : (getL t l).move = none) (he : xackEntry (getL t l) f.src = some e)
  (hroom : (getSl (getL t l) e).credits + lineField f.line 0 4 ≤ (getSl (getL t l) e).grant)
include hmove he hroom

theorem takeXack_credits (hlast : lineByte f.line 4 ≠ 1) : takeXack l f t = updSl t l e (fun k => { k with credits := k.credits + lineField f.line 0 4 }) := by
  unfold takeXack
  simp only [moving, hmove, Option.any_none, Bool.false_and, Bool.false_eq_true, he, addCredits_granted hroom, if_false, if_neg hlast]

theorem takeXack_ends (hlast : lineByte f.line 4 = 1) {x : EngEntry} {w b : Nat} (hg : getEng (getL t l) 6 = ⟨[x], w, b⟩) (hop : x.op = .kxfrAck e) :
    takeXack l f t = startEngine l 6 (portWork l (popHead (waitEnded (updSl t l e (fun k => { k with credits := k.credits + lineField f.line 0 4 })) l w b) l 6)) := by
  have hcredited : getEng (getL (updSl t l e (fun k => { k with credits := k.credits + lineField f.line 0 4 })) l) 6 = ⟨[x], w, b⟩ := by
    rw [updSl, getL_updL_same]
    exact hg
  obtain ⟨seq, idx, word, op, got⟩ := x
  dsimp only at hop
  subst hop
  unfold takeXack
  simp only [moving, hmove, Option.any_none, Bool.false_and, Bool.false_eq_true, he, addCredits_granted hroom, hlast, hcredited, if_false, if_true]

end

/-- The KXFR that waits for its last acknowledgement leaves the port idle. -/
theorem port_stops (hquiet : portQuiet (getL t l)) {x : EngEntry} {w b : Nat} (hg : getEng (getL t l) 6 = ⟨[x], w, b⟩) :
    startEngine l 6 (portWork l (popHead (waitEnded t l w b) l 6)) = updEng (waitEnded t l w b) l 6 (fun _ => {}) := by
  have hlast : (getEng (getL (waitEnded t l w b) l) 6).q = [x] := by rw [getEng_waitEnded, hg]
  have hport : portQuiet (getL (updEng (waitEnded t l w b) l 6 fun _ => {}) l) := portQuiet_updEng _ (portQuiet_waitEnded _ _ hquiet)
  rw [popHead_last hlast, portWork_quiet hport, startEngine_noQueue (fun _ => hport) queue_emptied]

end

/-! ## The commands of arrivals -/

section
variable {l j : Nat} {s : State} {pre rest : List Flit} {f : Flit} (hl : l < 1600) (hrx : (getL s l).rx = pre ++ f :: rest) (hpre : ∀ g, g ∈ pre → g.kind ≠ 1) (hkind : f.kind = 1)
include hl hrx hpre hkind

/-- The command of some KV codes hands the oldest KV flit, which has one of them, to its meaning. -/
theorem exec_kvArrival {c : Instr} {p : Flit → Bool} {t : Nat → Flit → State → State} (hc : exec c s = guarded (lanternOk l) (arrive l (fun f => f.kind == 1 && p f) t s))
    (hp : p f = true) : exec c s = .next (t l f (delivered l (pre ++ rest) s)) := by
  rw [hc, Scalars.lanternOk_of_lt hl, guarded_true, arrive_oldest t hrx (fun g hg => by rw [beq_eq_false_iff_ne.2 (hpre g hg), Bool.false_and]) (by rw [hkind, hp]; rfl)]

theorem exec_header (hsub : f.sub = 0) : exec (.xhdrArrival l) s = .next (arriveKv l f (delivered l (pre ++ rest) s)) :=
  exec_kvArrival hl hrx hpre hkind (exec_xhdrArrival l s) (beq_iff_eq.2 hsub)

theorem exec_data (hsub : f.sub = 1) : exec (.xdataArrival l) s = .next (arriveKv l f (delivered l (pre ++ rest) s)) :=
  exec_kvArrival hl hrx hpre hkind (exec_xdataArrival l s) (beq_iff_eq.2 hsub)

theorem exec_xack (hsub : f.sub = 2) : exec (.xackArrival l) s = .next (takeXack l f (delivered l (pre ++ rest) s)) :=
  exec_kvArrival hl hrx hpre hkind (exec_xackArrival l s) (beq_iff_eq.2 hsub)

end

theorem arriveKv_unknown {l : Nat} {f : Flit} {s : State} (h : intakeOf (getL s l) f.src = none) : arriveKv l f s = kvViolation l f s := by
  unfold arriveKv
  simp only [h]

theorem arriveKv_full {l j : Nat} {f : Flit} {s : State} (h : intakeOf (getL s l) f.src = some j) (hfull : 64 ≤ ((getL s l).kvIn.filter (fun e => e.1 == j)).length) :
    arriveKv l f s = kvViolation l f s := by
  unfold arriveKv
  simp only [h, if_pos hfull]

/-! ## The idle port -/

section
variable {l j : Nat} {s : State} {f : Flit} {xs : List Flit} (h : PortIdle (getL s l)) (hj : intakeOf (getL s l) f.src = some j)
include h hj

/-- A header taken at once, no message open. -/
theorem arriveKv_header (hnow : (getL s l).kvNow = none) (hsub : f.sub = 0) {t : State} (ht : takeHeader l j f (delivered l xs s) = t)
    (hkeeps : portPending (getL t l) = portPending (getL (delivered l xs s) l)) : arriveKv l f (delivered l xs s) = t :=
  arriveKv_idle h (fun i hi => by rw [hnow] at hi; cases hi) hj (by rw [if_pos hsub, ht]) (hkeeps.trans (pending_delivered l xs s))

/-- A line taken at once, no message open or its channel's. -/
theorem arriveKv_data (hnow : ∀ i, (getL s l).kvNow = some i → i = j) (hsub : f.sub = 1) {t : State} (ht : takeData l j f (delivered l xs s) = t)
    (hkeeps : portPending (getL t l) = portPending (getL (delivered l xs s) l)) : arriveKv l f (delivered l xs s) = t :=
  arriveKv_idle h hnow hj (by rw [if_neg (by rw [hsub]; decide), ht]) (hkeeps.trans (pending_delivered l xs s))

end

section
variable {l j : Nat} {s u : State} {f : Flit} {m : KvMsg} {xs : List Flit} (h : PortIdle (getL s l)) (hj : intakeOf (getL s l) f.src = some j)
  (hnow : ∀ i, (getL s l).kvNow = some i → i = j) (hsub : f.sub = 1) (hm : (tget {} (getL (delivered l xs s) l).intakes j).msg = some m) (hrej : m.rejected = false)
  (hwrite : writeShare l m.desc (m.first + m.written / columnsOf (descAt (getL (delivered l xs s) l) m.desc))
    (m.written % columnsOf (descAt (getL (delivered l xs s) l) m.desc)) [(f.line, f.poison)] (delivered l xs s) = some u)
include h hj hnow hsub hm hrej hwrite

theorem arriveKv_goes_on (hmore : m.written + 1 ≠ m.n * columnsOf (descAt (getL (delivered l xs s) l) m.desc)) :
    arriveKv l f (delivered l xs s) = setIntake (acked l j m u) l j (fun k => { k with msg := some { m with written := m.written + 1, unacked := unackedNext m } }) :=
  arriveKv_data h hj hnow hsub (takeData_goes_on hm hrej hwrite hmore)
    ((pending_setIntake _ _ _ _).trans ((pending_acked _ _ _ _).trans (pending_writeShare _ hwrite)))

theorem arriveKv_ends (hend : m.written + 1 = m.n * columnsOf (descAt (getL (delivered l xs s) l) m.desc)) :
    arriveKv l f (delivered l xs s) = setKvNow (setIntake (sendXack l j (unackedNext m + 1) true (setDesc (acked l j m u) l m.desc 16 4 (m.first + m.n))) l j
      (fun k => { k with msg := none })) l none :=
  arriveKv_data h hj hnow hsub (takeData_ends hm hrej hwrite hend) ((pending_setKvNow _ _ _).trans ((pending_setIntake _ _ _ _).trans
    ((pending_sendXack _ _ _ _ _).trans ((pending_setDesc _ _ _ _ _ _).trans ((pending_acked _ _ _ _).trans (pending_writeShare _ hwrite))))))

end


/-- Settles O34: the oldest KV flit is handed on; an idle port takes a header or a line at once, and each clause is what it then does. -/
theorem kvArrivals : Obligations.KvArrivals := by
  unfold Obligations.KvArrivals
  rintro l j s _ pre rest f _ _ _ hl hrx rfl hpre hkind rfl rfl rfl
  have hS : getL (delivered l (pre ++ rest) s) l = { getL s l with rx := pre ++ rest } := getL_delivered l (pre ++ rest) s
  have hdesc : descAt (getL (delivered l (pre ++ rest) s) l) = descAt (getL s l) := by rw [hS]; rfl
  refine ⟨?headerUnknown, ?dataUnknown, ?full, ?opens, ?rejects, ?drops, ?written, ?xack, ?reserved⟩
  case headerUnknown =>
    intro hsub hnone
    rw [exec_header hl hrx hpre hkind hsub, arriveKv_unknown (by rw [hS]; exact hnone)]
    rfl
  case dataUnknown =>
    intro hsub hnone
    rw [exec_data hl hrx hpre hkind hsub, arriveKv_unknown (by rw [hS]; exact hnone)]
    rfl
  case full =>
    intro hsub hj hfull
    rw [exec_data hl hrx hpre hkind hsub, arriveKv_full (by rw [hS]; exact hj) (by rw [hS]; exact hfull)]
    rfl
  case opens =>
    rintro hsub hengine ⟨hin, hnow, hmove⟩ hpar hpoison hj hok
    have htake := takeHeader_opens (f := f) (t := delivered l (pre ++ rest) s) (by rw [hS]; exact hpar) (by rw [hS]; exact hpoison) (by rw [hS]; exact hok)
    rw [hdesc] at htake
    rw [exec_header hl hrx hpre hkind hsub, arriveKv_header ⟨hin, hmove, hengine⟩ hj hnow hsub htake ?_]
    · rfl
    · refine (pending_setKvNow _ _ _).trans ((pending_setIntake _ _ _ _).trans ?_)
      split
      · exact pending_setDesc _ _ _ _ _ _
      · rfl
  case rejects =>
    rintro hsub hengine ⟨hin, hnow, hmove⟩ hpar hpoison hj hbad
    have htake := takeHeader_rejects (f := f) (t := delivered l (pre ++ rest) s) (by rw [hS]; exact hpar) (by rw [hS]; exact hpoison) (by rw [hS]; exact hbad)
    rw [exec_header hl hrx hpre hkind hsub, arriveKv_header ⟨hin, hmove, hengine⟩ hj hnow hsub htake
      ((pending_setKvNow _ _ _).trans ((pending_setIntake _ _ _ _).trans (pending_trapNow _ _ _ _)))]
    rfl
  case drops =>
    rintro m hsub hengine ⟨hin, hnow, hmove⟩ hj hm hrej
    rw [exec_data hl hrx hpre hkind hsub, arriveKv_data ⟨hin, hmove, hengine⟩ hj (fun i hi => by rw [hnow] at hi; cases hi) hsub
      (takeData_drops (by rw [hS]; exact hm) hrej) (pending_setIntake _ _ _ _)]
    rfl
  case written =>
    intro m c S' hsub hengine hin hnow hmove hj hm hrej hc hwrite
    have hm' : (tget {} (getL (delivered l (pre ++ rest) s) l).intakes j).msg = some m := by rw [hS]; exact hm
    have hcols : c = columnsOf (descAt (getL (delivered l (pre ++ rest) s) l) m.desc) := by rw [hdesc]; exact hc
    have hone : ∀ i, (getL s l).kvNow = some i → i = j := fun i hi => Option.some.inj (hi.symm.trans hnow)
    rw [hcols] at hwrite ⊢
    rw [exec_data hl hrx hpre hkind hsub]
    refine ⟨fun h15 hmore => ?_, fun h15 hmore => ?_, fun h15 hend => ?_, fun h15 hend => ?_⟩
    · rw [arriveKv_goes_on ⟨hin, hmove, hengine⟩ hj hone hsub hm' hrej hwrite hmore, acked_other h15, unackedNext_other h15]
    · rw [arriveKv_goes_on ⟨hin, hmove, hengine⟩ hj hone hsub hm' hrej hwrite hmore, acked_sixteenth h15, unackedNext_sixteenth h15]
    · rw [arriveKv_ends ⟨hin, hmove, hengine⟩ hj hone hsub hm' hrej hwrite hend, acked_other h15, unackedNext_other h15]
    · rw [arriveKv_ends ⟨hin, hmove, hengine⟩ hj hone hsub hm' hrej hwrite hend, acked_sixteenth h15, unackedNext_sixteenth h15]
  case xack =>
    rintro e _ _ hsub hquiet he rfl rfl hroom
    have hquiet' : portQuiet (getL (delivered l (pre ++ rest) s) l) := by rw [hS]; exact hquiet
    have ⟨_, _, hmove⟩ := hquiet'
    have he' : xackEntry (getL (delivered l (pre ++ rest) s) l) f.src = some e := by rw [hS]; exact he
    have hroom' : (getSl (getL (delivered l (pre ++ rest) s) l) e).credits + lineField f.line 0 4 ≤ (getSl (getL (delivered l (pre ++ rest) s) l) e).grant := by
      rw [hS]; exact hroom
    refine ⟨fun hlast => ?_, ?_⟩
    · rw [exec_xack hl hrx hpre hkind hsub, takeXack_credits hmove he' hroom' hlast]
      rfl
    · rintro g x hlast hg hq hop
      obtain ⟨q, w, b⟩ := g
      dsimp only at hq
      subst hq
      have hengine : getEng (getL (delivered l (pre ++ rest) s) l) 6 = ⟨[x], w, b⟩ := by rw [hS]; exact hg.symm
      rw [exec_xack hl hrx hpre hkind hsub, takeXack_ends hmove he' hroom' hlast hengine hop, port_stops (x := x)]
      · rfl
      · rw [updSl, getL_updL_same]
        exact hquiet'
      · rw [updSl, getL_updL_same]
        exact hengine
  case reserved =>
    intro hsub
    rw [exec_kvArrival hl hrx hpre hkind (exec_kvReservedSub l s) (decide_eq_true hsub)]
    rfl

end Sys2Proof.KvArriving
end

section
/-!
PROOFS. Log 1; 08 R239; 10 R305 and Table 10-16: what no command does to the queue, the time base, the retirement fuse and the OTP counters. The queue, the fuse
and the counters are parts of what every command but PART_CREATE keeps or raises; the time base is kept by every command but VAON_GOOD; PART_CREATE
keeps all four, as the partition that it makes is no part of them.
-/

open Sys2Proof Sys2Proof.Machine

namespace Sys2Proof.Steady

/-! ## Taking a command keeps what its body keeps -/

section
variable {β : Type} {v : State → β} (hv : ∀ {s t : State}, shape t = shape s → v t = v s)
include hv

theorem takeCmd_keeps (e : Entry) (body : Nat → State → Done) (s : State) (h : ∀ n s, v (body n s).1 = v s) : v (takeCmd e body s) = v s := by
  unfold takeCmd
  split
  · rfl
  split
  · rfl
  next q _ _ =>
  have hb := (h (nextHead q) _).trans (hv ((setQp_shape { s with visit := queueKey e.fn e.sqid } e.fn e.sqid
    (some { q with sqHead := nextHead q, busy := q.busy + 1 })).trans (shape_congr rfl rfl rfl rfl : _ = shape s)))
  dsimp only
  split
  · exact (hv (postPlain_shape _ _ _)).trans hb
  · exact hb

theorem takeLamp_keeps (e : Entry) (body : Nat → State → Done) (s : State) (h : ∀ n s, v (body n s).1 = v s) : v (takeLamp e body s) = v s := by
  unfold takeLamp
  split
  · exact hv (passBy_shape e s)
  · exact takeCmd_keeps hv e body s h

theorem fieldsThen_keeps (bad : Option Nat) (k : State → Done) (s : State) (h : ∀ s, v (k s).1 = v s) : v (fieldsThen bad k s).1 = v s := by
  unfold fieldsThen
  split
  · exact hv (failsField_shape _ _)
  · exact h s

theorem withData_keeps (e : Entry) (k : List Byte → State → Done) (s : State) (h : ∀ d s, v (k d s).1 = v s) : v (withData e k s).1 = v s := by
  unfold withData
  split
  · exact hv (fails_shape _ _)
  · exact h _ s

theorem pfCmd_keeps (e : Entry) (k : State → Done) (s : State) (h : ∀ s, v (k s).1 = v s) : v (pfCmd e k s).1 = v s := by
  unfold pfCmd
  split
  · exact h s
  · exact hv (fails_shape _ _)

theorem settled_keeps {ok : Bool} {s t u : State} (h : settled ok u = .next t) (hu : v u = v s) : v t = v s := by
  rw [settled, guarded_next] at h
  rw [h.2, hv (settle_shape u), hu]

end

theorem guarded_now {ok : Bool} {s t u : State} (h : guarded ok u = .next t) (hu : u.now = s.now) : t.now = s.now := by
  rw [guarded_next] at h
  rw [h.2, hu]

/-! ## The time base over the commands that raise a fuse or a counter, or take partitions away -/

theorem retireIf_now (c : Bool) (s : State) : (if c then { s with sec := { s.sec with retired := true } } else s).now = s.now := by
  split <;> rfl

theorem answerErase_now (failed : List (Nat × Nat)) (w : Waiting) (s : State) : (answerErase failed w s).now = s.now := by
  unfold answerErase
  split
  · next list retire result _ =>
    refine (shape_now (postPlain_shape _ _ _)).trans ((retireIf_now _ _).trans ?_)
    split
    · exact shape_now (writeSegs_shape _ _ _ _)
    · rfl
  · rfl

theorem eraseThen_now (e : Entry) (h : Nat) (xs : List (Nat × Nat)) (list retire : Bool) (result : Nat) (s0 s : State) :
    (eraseThen e h xs list retire result s0 s).1.now = s.now := by
  unfold eraseThen
  split
  · exact retireIf_now retire s
  · exact shape_now ((waitFor_shape _ _ _ _).trans ((startErase_shape xs _).trans (holdShown_shape s0 s)))

theorem erasureDone_now (failed : List (Nat × Nat)) (s : State) : (erasureDone failed s).now = s.now := by
  unfold erasureDone
  extract_lets xs dark live bad s1 s2 s3 ws
  split
  · rfl
  · have h1 : shape s1 = shape s := (forEach_shape _ _ _ (fun e s => eraseOne_shape _ e s)).trans (shape_congr rfl rfl rfl rfl)
    have h2 : shape s2 = shape s := (forEach_shape _ _ _ (fun l s => clearRanges_shape l s)).trans h1
    have h3 : shape s3 = shape s := (vprogUse_shape _).trans ((forEach_shape _ _ _ (fun (e : Nat × Nat) s => bankBusy_shape s e.1 (e.2 / 8))).trans h2)
    exact (shape_now (showNow_shape _)).trans ((forEach_keeps State.now _ (answerErase_now _) _ _).trans (shape_now h3))

theorem eraseWeights_now (e : Entry) (h : Nat) (s : State) : (eraseWeights e h s).1.now = s.now := by
  unfold eraseWeights
  refine pfCmd_keeps shape_now _ _ _ fun s => fieldsThen_keeps shape_now _ _ _ fun s => ?_
  split
  · exact shape_now (fails_shape _ _)
  · exact (eraseThen_now _ _ _ _ _ _ _ _).trans (shape_now (dropSets_shape s))

theorem zeroise_now (e : Entry) (h : Nat) (s : State) : (zeroise e h s).1.now = s.now := by
  unfold zeroise
  refine pfCmd_keeps shape_now _ _ _ fun s => fieldsThen_keeps shape_now _ _ _ fun s => ?_
  split
  · exact shape_now (zeroKeys_shape s)
  · exact (eraseThen_now _ _ _ _ _ _ _ _).trans
      (shape_now ((dropSets_shape _).trans ((forEach_shape _ _ _ fun n s => toLoaded_shape n s).trans (zeroKeys_shape s))))

theorem debugUnlock_now (e : Entry) (h : Nat) (s : State) : (debugUnlock e h s).1.now = s.now := by
  unfold debugUnlock
  refine pfCmd_keeps shape_now _ _ _ fun s => fieldsThen_keeps shape_now _ _ _ fun s => withData_keeps shape_now _ _ _ fun d s => ?_
  extract_lets s' whole mask ps xs src1 s1 s2 src2 s3 s4
  have h2 : s2.now = s1.now := shape_now (forEach_shape _ _ _ fun n s => debugPart_shape n s)
  have h4 : s4.now = s.now := (show s4.now = s2.now from shape_now (raiseEv_shape _ _ _ _ _ _ _)).trans h2
  clear_value s4
  split
  · exact shape_now (fails_shape _ _)
  split
  · exact shape_now (failsData_shape _ _)
  split
  · exact shape_now (fails_shape _ _)
  split
  · exact shape_now (failsData_shape _ _)
  split
  · exact shape_now (fails_shape _ _)
  split
  · exact h4
  · exact (eraseThen_now _ _ _ _ _ _ _ _).trans h4

theorem fwCommit_now (kind : Nat) (s : State) : (fwCommit kind s).1.now = s.now := by
  unfold fwCommit
  extract_lets k b s1 src s2 s3
  split
  · exact shape_now (fails_shape _ _)
  · have h2 : s2.now = s.now := show s1.now = s.now from shape_now (setKind_shape s kind _)
    have h3 : s3.now = s2.now := by
      unfold s3
      split
      · exact shape_now (mapParts_shape _ _ fun _ _ => rfl)
      · rfl
    exact h3.trans h2

theorem fwUpdate_now (e : Entry) (h : Nat) (s : State) : (fwUpdate e h s).1.now = s.now := by
  unfold fwUpdate
  refine pfCmd_keeps shape_now _ _ _ fun s => fieldsThen_keeps shape_now _ _ _ fun s => ?_
  split
  · exact shape_now (fails_shape _ _)
  split
  · exact withData_keeps shape_now _ _ _ fun d s => shape_now (fwStage_shape _ _ _)
  split
  · exact shape_now (fwActivate_shape _ _ _ _ _)
  split
  · exact fwCommit_now _ _
  · exact shape_now (fwRevert_shape _ _ _ _)

theorem removePart_now (n : Nat) (p : Partition) (s : State) : (removePart n p s).now = s.now := by
  unfold removePart
  extract_lets s1 s2 s3 s4 s5 ls s6 s7
  have h2 : shape s2 = shape s := (resolveWaits_shape _ _ _).trans (dropJobs_shape _ _)
  have h3 : shape s3 = shape s := (forEach_shape _ _ _ (fun (c : Context) s => eraseCtx_shape s c.handle)).trans h2
  have h4 : shape s4 = shape s := (forEach_shape _ _ _ (fun z s => updZ_shape s z _)).trans h3
  have h5 : shape s5 = shape s := (forEach_shape _ _ _ (fun z s => updT_shape s z _)).trans h4
  have h6 : shape s6 = shape s := by
    refine (forEach_shape _ _ _ (fun l s => forEach_shape _ _ _ (fun q s => ?_))).trans h5
    split
    · exact updRP_shape _ _ _ _
    · rfl
  have h7 : s7.now = s.now := (shape_now (writeMasks_shape n _)).trans
    (show (zeroCounters p s6).now = s.now from shape_now ((zeroCounters_shape p s6).trans h6))
  exact (shape_now ((recheckRoutes_shape _).trans (forEach_shape _ _ _ (fun l s => switchOff_shape s l)))).trans h7

theorem partDelete_now (e : Entry) (h : Nat) (s : State) : (partDelete e h s).1.now = s.now := by
  unfold partDelete partCmd
  split
  · exact shape_now (fails_shape _ _)
  split
  · exact shape_now (failsField_shape _ _)
  split
  · exact shape_now (fails_shape _ _)
  split
  · exact fieldsThen_keeps shape_now _ _ _ fun s => (eraseThen_now _ _ _ _ _ _ _ _).trans (removePart_now _ _ s)
  · exact shape_now (fails_shape _ _)

theorem hardTripNow_now (c : Nat) (s : State) : (hardTripNow c s).now = s.now := by
  unfold hardTripNow
  split <;> rfl

theorem railFaultNow_now (rail cause group mv : Nat) (s : State) : (railFaultNow rail cause group mv s).now = s.now := by
  unfold railFaultNow
  split <;> rfl

theorem powerDownDone_now (s : State) : (powerDownDone s).now = s.now := by
  unfold powerDownDone
  split
  · rfl
  · show (driftSave s).now = s.now
    exact shape_now (driftSave_shape s)

theorem phaseFailure_now (g : Nat) (s : State) : (phaseFailure g s).now = s.now := by
  unfold phaseFailure
  split
  · rfl
  split
  · exact railFaultNow_now _ _ _ _ s
  · exact shape_now ((raiseM_shape _ _ _ _).trans (shape_congr rfl rfl rfl rfl))

theorem execHardTrip_now {c : Nat} {s t : State} (h : execHardTrip c s = .next t) : t.now = s.now := guarded_now h (hardTripNow_now c s)

theorem execRailFault_now {rail cause group mv : Nat} {s t : State} (h : execRailFault rail cause group mv s = .next t) : t.now = s.now :=
  guarded_now h (railFaultNow_now rail cause group mv s)

theorem execPowerDownSaveDone_now {s t : State} (h : execPowerDownSaveDone s = .next t) : t.now = s.now := guarded_now h (powerDownDone_now s)

theorem execPhaseFailure_now {g : Nat} {s t : State} (h : execPhaseFailure g s = .next t) : t.now = s.now := guarded_now h (phaseFailure_now g s)

/-- VAON_GOOD sets the time base to 0, or finds VAON good already and changes nothing. -/
theorem execVaonGood_now {s t : State} (h : execVaonGood s = .next t) : t.now = s.now ∨ t.now = 0 := (execVaonGood_grows s h).now

/-! ## PART_CREATE -/

/-- What the statement is about. -/
def steady (s : State) : List Instr × BitVec 64 × Bool × SMap Nat := (s.pending, s.now, s.sec.retired, s.sec.counters)

theorem steady_of_shape {s t : State} (h : shape t = shape s) : steady t = steady s := by
  rw [steady, shape_pending h, shape_now h, shape_retired h, shape_counters h, steady]

theorem steady_setPart (s : State) (n : Nat) (x : Option Partition) : steady (setPart s n x) = steady s := rfl

theorem partCreate_steady (e : Entry) (h : Nat) (s : State) : steady (partCreate e h s).1 = steady s := by
  unfold partCreate
  dsimp only
  split
  · exact steady_of_shape (fails_shape _ _)
  split
  · exact steady_of_shape (failsField_shape _ _)
  refine fieldsThen_keeps steady_of_shape _ _ _ fun s => ?_
  split
  · exact steady_of_shape (fails_shape _ _)
  split
  · exact steady_of_shape (fails_shape _ _)
  split
  · exact steady_of_shape (fails_shape _ _)
  have hmade : ∀ (p : Partition) (t : State), steady (takeChannels (partNo e) p (zeroCounters p (writeMasks (partNo e) t))) = steady t := fun p t =>
    steady_of_shape ((takeChannels_shape _ _ _).trans ((zeroCounters_shape _ _).trans (writeMasks_shape _ _)))
  split
  · exact (steady_of_shape (doneWith_shape _ _)).trans ((hmade _ _).trans (steady_setPart _ _ _))
  · exact (steady_of_shape (eraseThen_shape _ _ _ _ _ _ _)).trans ((hmade _ _).trans (steady_setPart _ _ _))

theorem exec_partCreate_steady {e : Entry} {s t : State} (h : exec (.partCreate e) s = .next t) : steady t = steady s :=
  settled_keeps steady_of_shape h (takeLamp_keeps steady_of_shape e _ s (partCreate_steady e))

/-! ## Every command -/

/-- Every command keeps the time base, but VAON_GOOD, which may set it to 0 (08 R239). -/
theorem exec_now {c : Instr} {s t : State} (h : exec c s = .next t) : t.now = s.now ∨ (c = .vaonGood ∧ t.now = 0) := by
  by_cases hc : c = .vaonGood
  · rw [hc] at h ⊢
    exact (execVaonGood_now h).imp_right fun h0 => ⟨rfl, h0⟩
  refine .inl ?_
  cases c with
  | identify e => exact shape_now (execIdentify_shape e s h)
  | qpCreate e => exact shape_now (execQpCreate_shape e s h)
  | qpDelete e => exact shape_now (execQpDelete_shape e s h)
  | ringForm e => exact shape_now (execRingForm_shape e s h)
  | ringMode e => exact shape_now (execRingMode_shape e s h)
  | partCreate e => exact congrArg (·.2.1) (exec_partCreate_steady h)
  | partDelete e => exact settled_keeps shape_now h (takeLamp_keeps shape_now e _ s (partDelete_now e))
  | partSet e => exact shape_now (execPartSet_shape e s h)
  | programLoad e => exact shape_now (execProgramLoad_shape e s h)
  | partStart e => exact shape_now (execPartStart_shape e s h)
  | partDrain e => exact shape_now (execPartDrain_shape e s h)
  | partQuery e => exact shape_now (execPartQuery_shape e s h)
  | submit e => exact shape_now (execSubmit_shape e s h)
  | cancel e => exact shape_now (execCancel_shape e s h)
  | reqQuery e => exact shape_now (execReqQuery_shape e s h)
  | adapterLoad e => exact shape_now (execAdapterLoad_shape e s h)
  | adapterRelease e => exact shape_now (execAdapterRelease_shape e s h)
  | pause e => exact shape_now (execPause_shape e s h)
  | exportCtx e => exact shape_now (execExportCtx_shape e s h)
  | importCtx e => exact shape_now (execImportCtx_shape e s h)
  | discard e => exact shape_now (execDiscard_shape e s h)
  | setTtl e => exact shape_now (execSetTtl_shape e s h)
  | weightOpen e => exact shape_now (execWeightOpen_shape e s h)
  | weightChunk e => exact shape_now (execWeightChunk_shape e s h)
  | weightClose e => exact shape_now (execWeightClose_shape e s h)
  | weightStatus e => exact shape_now (execWeightStatus_shape e s h)
  | eraseWeights e => exact settled_keeps shape_now h (takeCmd_keeps shape_now e _ s (eraseWeights_now e))
  | zeroise e => exact settled_keeps shape_now h (takeCmd_keeps shape_now e _ s (zeroise_now e))
  | debugUnlock e => exact settled_keeps shape_now h (takeLamp_keeps shape_now e _ s (debugUnlock_now e))
  | debugLock e => exact shape_now (execDebugLock_shape e s h)
  | telemetryRead e => exact shape_now (execTelemetryRead_shape e s h)
  | monitorSet e => exact shape_now (execMonitorSet_shape e s h)
  | eventRingSet e => exact shape_now (execEventRingSet_shape e s h)
  | counterSelect e => exact shape_now (execCounterSelect_shape e s h)
  | setSpares e => exact shape_now (execSetSpares_shape e s h)
  | driftComp e => exact shape_now (execDriftComp_shape e s h)
  | refreshSet e => exact shape_now (execRefreshSet_shape e s h)
  | refreshWindow e => exact shape_now (execRefreshWindow_shape e s h)
  | recalibrate e => exact shape_now (execRecalibrate_shape e s h)
  | fwUpdate e => exact settled_keeps shape_now h (takeCmd_keeps shape_now e _ s (fwUpdate_now e))
  | microcodeUpdate e => exact shape_now (execMicrocodeUpdate_shape e s h)
  | unassignedOpcode e opcode => exact shape_now (execUnassignedOpcode_shape e opcode s h)
  | sqTail fn q v => exact shape_now (execSqTail_shape fn q v s h)
  | cqHead fn q v => exact shape_now (execCqHead_shape fn q v s h)
  | runnelCons fn r v => exact shape_now (execRunnelCons_shape fn r v s h)
  | mbCtrlEnable fn v => exact shape_now (execMbCtrlEnable_shape fn v s h)
  | mbCtrlDisable fn v => exact shape_now (execMbCtrlDisable_shape fn v s h)
  | evCons fn v => exact shape_now (execEvCons_shape fn v s h)
  | alertStatusClear fn v => exact shape_now (execAlertStatusClear_shape fn v s h)
  | traceCtrlWrite fn v => exact shape_now (execTraceCtrlWrite_shape fn v s h)
  | pertHsdelayWrite fn part ix v => exact shape_now (execPertHsdelayWrite_shape fn part ix v s h)
  | pertCreditWrite fn part v => exact shape_now (execPertCreditWrite_shape fn part v s h)
  | pertStretchWrite fn part v => exact shape_now (execPertStretchWrite_shape fn part v s h)
  | pertAdcWrite fn part v => exact shape_now (execPertAdcWrite_shape fn part v s h)
  | pertRetrain fn part v => exact shape_now (execPertRetrain_shape fn part v s h)
  | fiParity fn part v => exact shape_now (execFiParity_shape fn part v s h)
  | fiPoison fn part v => exact shape_now (execFiPoison_shape fn part v s h)
  | registerWrite fn bar2 offset v eight => exact shape_now (execRegisterWrite_shape fn bar2 offset v eight s h)
  | nop l f => exact shape_now (execNop_shape l f s h)
  | add l f => exact shape_now (execAdd_shape l f s h)
  | sub l f => exact shape_now (execSub_shape l f s h)
  | and l f => exact shape_now (execAnd_shape l f s h)
  | or l f => exact shape_now (execOr_shape l f s h)
  | xor l f => exact shape_now (execXor_shape l f s h)
  | shl l f => exact shape_now (execShl_shape l f s h)
  | shr l f => exact shape_now (execShr_shape l f s h)
  | sar l f => exact shape_now (execSar_shape l f s h)
  | mul l f => exact shape_now (execMul_shape l f s h)
  | slt l f => exact shape_now (execSlt_shape l f s h)
  | sltu l f => exact shape_now (execSltu_shape l f s h)
  | addi l f => exact shape_now (execAddi_shape l f s h)
  | lih l f => exact shape_now (execLih_shape l f s h)
  | sld l f => exact shape_now (execSld_shape l f s h)
  | sst l f => exact shape_now (execSst_shape l f s h)
  | rds l f => exact shape_now (execRds_shape l f s h)
  | beq l f => exact shape_now (execBeq_shape l f s h)
  | bne l f => exact shape_now (execBne_shape l f s h)
  | blt l f => exact shape_now (execBlt_shape l f s h)
  | bge l f => exact shape_now (execBge_shape l f s h)
  | jmp l f => exact shape_now (execJmp_shape l f s h)
  | jr l f => exact shape_now (execJr_shape l f s h)
  | step l f => exact shape_now (execStep_shape l f s h)
  | fence l f => exact shape_now (execFence_shape l f s h)
  | trapi l f => exact shape_now (execTrapi_shape l f s h)
  | aop l f => exact shape_now (execAop_shape l f s h)
  | aclr l f => exact shape_now (execAclr_shape l f s h)
  | ard l f => exact shape_now (execArd_shape l f s h)
  | aexp l f => exact shape_now (execAexp_shape l f s h)
  | aimp l f => exact shape_now (execAimp_shape l f s h)
  | widot l f => exact shape_now (execWidot_shape l f s h)
  | wfdot l f => exact shape_now (execWfdot_shape l f s h)
  | wvb l f => exact shape_now (execWvb_shape l f s h)
  | wvu l f => exact shape_now (execWvu_shape l f s h)
  | wred l f => exact shape_now (execWred_shape l f s h)
  | wsmx l f => exact shape_now (execWsmx_shape l f s h)
  | wqnt l f => exact shape_now (execWqnt_shape l f s h)
  | wgth l f => exact shape_now (execWgth_shape l f s h)
  | wtopk l f => exact shape_now (execWtopk_shape l f s h)
  | wsmp l f => exact shape_now (execWsmp_shape l f s h)
  | qld l f => exact shape_now (execQld_shape l f s h)
  | ascr l f => exact shape_now (execAscr_shape l f s h)
  | aval l f => exact shape_now (execAval_shape l f s h)
  | kapp l f => exact shape_now (execKapp_shape l f s h)
  | kmark l f => exact shape_now (execKmark_shape l f s h)
  | krew l f => exact shape_now (execKrew_shape l f s h)
  | krel l f => exact shape_now (execKrel_shape l f s h)
  | kwalk l f => exact shape_now (execKwalk_shape l f s h)
  | kxfr l f => exact shape_now (execKxfr_shape l f s h)
  | copy l f => exact shape_now (execCopy_shape l f s h)
  | trd l f => exact shape_now (execTrd_shape l f s h)
  | send l f => exact shape_now (execSend_shape l f s h)
  | clr l f => exact shape_now (execClr_shape l f s h)
  | recv l f => exact shape_now (execRecv_shape l f s h)
  | qpeek l f => exact shape_now (execQpeek_shape l f s h)
  | qpop l f => exact shape_now (execQpop_shape l f s h)
  | qmark l f => exact shape_now (execQmark_shape l f s h)
  | qrewind l f => exact shape_now (execQrewind_shape l f s h)
  | qrel l f => exact shape_now (execQrel_shape l f s h)
  | qstat l f => exact shape_now (execQstat_shape l f s h)
  | storeError l => exact shape_now (execStoreError_shape l s h)
  | waitEnd l eng => exact shape_now (execWaitEnd_shape l eng s h)
  | arrayOpStart l bank => exact shape_now (execArrayOpStart_shape l bank s h)
  | phaseComplete l bank => exact shape_now (execPhaseComplete_shape l bank s h)
  | arrayOpComplete l bank => exact shape_now (execArrayOpComplete_shape l bank s h)
  | outlierResidual l bank => exact shape_now (execOutlierResidual_shape l bank s h)
  | bankRestoreDone l bank => exact shape_now (execBankRestoreDone_shape l bank s h)
  | referenceOperation l arr => exact shape_now (execReferenceOperation_shape l arr s h)
  | driftStaleTimeout l arr => exact shape_now (execDriftStaleTimeout_shape l arr s h)
  | temperatureUpdate field => exact shape_now (execTemperatureUpdate_shape field s h)
  | flitHop router inPort cls vcb => exact shape_now (execFlitHop_shape router inPort cls vcb s h)
  | weirRelease src part => exact shape_now (execWeirRelease_shape src part s h)
  | linkCrcMismatch router port link flit => exact shape_now (execLinkCrcMismatch_shape router port link flit s h)
  | laneTestDone router port link r => exact shape_now (execLaneTestDone_shape router port link r s h)
  | orderRun router port => exact shape_now (execOrderRun_shape router port s h)
  | orderEndstep router port => exact shape_now (execOrderEndstep_shape router port s h)
  | qlineArrival l => exact shape_now (execQlineArrival_shape l s h)
  | accxArrival l => exact shape_now (execAccxArrival_shape l s h)
  | creditArrival l => exact shape_now (execCreditArrival_shape l s h)
  | xhdrArrival l => exact shape_now (execXhdrArrival_shape l s h)
  | xdataArrival l => exact shape_now (execXdataArrival_shape l s h)
  | xackArrival l => exact shape_now (execXackArrival_shape l s h)
  | kvReservedSub l => exact shape_now (execKvReservedSub_shape l s h)
  | mgmtFlit op => exact shape_now (execMgmtFlit_shape op s h)
  | rimRunnel tile => exact shape_now (execRimRunnel_shape tile s h)
  | rimEndnote tile => exact shape_now (execRimEndnote_shape tile s h)
  | rimTrace => exact shape_now (execRimTrace_shape s h)
  | rimZendenChannel tile => exact shape_now (execRimZendenChannel_shape tile s h)
  | rimUnlistedChannel tile => exact shape_now (execRimUnlistedChannel_shape tile s h)
  | zendenGroupReceive z g => exact shape_now (execZendenGroupReceive_shape z g s h)
  | zendenAckTimeout z => exact shape_now (execZendenAckTimeout_shape z s h)
  | zendenIdleHeader z => exact shape_now (execZendenIdleHeader_shape z s h)
  | zendenLinkDown z why => exact shape_now (execZendenLinkDown_shape z why s h)
  | zendenLinkTrained z peer => exact shape_now (execZendenLinkTrained_shape z peer s h)
  | ringFormReceive index => exact shape_now (execRingFormReceive_shape index s h)
  | ringDoneReceive size => exact shape_now (execRingDoneReceive_shape size s h)
  | ringFormTimeout => exact shape_now (execRingFormTimeout_shape s h)
  | stepBoundary part => exact shape_now (execStepBoundary_shape part s h)
  | boundarySeen l => exact shape_now (execBoundarySeen_shape l s h)
  | stepWatchdogExpiry part => exact shape_now (execStepWatchdogExpiry_shape part s h)
  | partitionStop part => exact shape_now (execPartitionStop_shape part s h)
  | partitionFault part => exact shape_now (execPartitionFault_shape part s h)
  | faultRetestDone part votes => exact shape_now (execFaultRetestDone_shape part votes s h)
  | partitionReloadDone part => exact shape_now (execPartitionReloadDone_shape part s h)
  | configCrcRecompute u => exact shape_now (execConfigCrcRecompute_shape u s h)
  | configScrub => exact shape_now (execConfigScrub_shape s h)
  | calibrationScrub => exact shape_now (execCalibrationScrub_shape s h)
  | driftSave => exact shape_now (execDriftSave_shape s h)
  | lockstepMismatch p => exact shape_now (execLockstepMismatch_shape p s h)
  | holdClear => exact shape_now (execHoldClear_shape s h)
  | standbySelftestDone p pass => exact shape_now (execStandbySelftestDone_shape p pass s h)
  | lamplighterError => exact shape_now (execLamplighterError_shape s h)
  | lamplighterRestartDone => exact shape_now (execLamplighterRestartDone_shape s h)
  | prefillDone part tag t => exact shape_now (execPrefillDone_shape part tag t s h)
  | decodePassDone part tag toks drafts => exact shape_now (execDecodePassDone_shape part tag toks drafts s h)
  | passStart part tag => exact shape_now (execPassStart_shape part tag s h)
  | requestEnd part tag => exact shape_now (execRequestEnd_shape part tag s h)
  | interruptTimer fn src => exact shape_now (execInterruptTimer_shape fn src s h)
  | cisternPauseDone part tag => exact shape_now (execCisternPauseDone_shape part tag s h)
  | cisternResumeDone part tag authOk => exact shape_now (execCisternResumeDone_shape part tag authOk s h)
  | contextTtlExpiry handle => exact shape_now (execContextTtlExpiry_shape handle s h)
  | arrayProgrammingDone l arr r => exact shape_now (execArrayProgrammingDone_shape l arr r s h)
  | weightLoadIdleTimeout part => exact shape_now (execWeightLoadIdleTimeout_shape part s h)
  | erasureDone failed => exact settled_keeps shape_now h (erasureDone_now failed s)
  | touchUpChunk l arr ok => exact shape_now (execTouchUpChunk_shape l arr ok s h)
  | refreshIdle part => exact shape_now (execRefreshIdle_shape part s h)
  | pwrEnAssert slotId => exact shape_now (execPwrEnAssert_shape slotId s h)
  | pwrEnDeassert => exact shape_now (execPwrEnDeassert_shape s h)
  | powerDownSaveDone => exact execPowerDownSaveDone_now h
  | j1Connect mv => exact shape_now (execJ1Connect_shape mv s h)
  | inputOvervoltageWarn mv => exact shape_now (execInputOvervoltageWarn_shape mv s h)
  | railFault rail cause group mv => exact execRailFault_now h
  | phaseFailure group => exact execPhaseFailure_now h
  | hardTrip comparator => exact execHardTrip_now h
  | perstAssert p => exact shape_now (execPerstAssert_shape p s h)
  | perstDeassert p => exact shape_now (execPerstDeassert_shape p s h)
  | functionLevelReset fn => exact shape_now (execFunctionLevelReset_shape fn s h)
  | hostLinkDown p => exact shape_now (execHostLinkDown_shape p s h)
  | hostLinkReturn p => exact shape_now (execHostLinkReturn_shape p s h)
  | hostLinkHoldTimeout p => exact shape_now (execHostLinkHoldTimeout_shape p s h)
  | hostPortRetrain p ok => exact shape_now (execHostPortRetrain_shape p ok s h)
  | cableInsert cage answers powerOk => exact shape_now (execCableInsert_shape cage answers powerOk s h)
  | sensorSample r => exact shape_now (execSensorSample_shape r s h)
  | coolantStopClear => exact shape_now (execCoolantStopClear_shape s h)
  | thermalModelUpdate => exact shape_now (execThermalModelUpdate_shape s h)
  | thermalDrainTimeout part => exact shape_now (execThermalDrainTimeout_shape part s h)
  | thermalHoldRelease part => exact shape_now (execThermalHoldRelease_shape part s h)
  | capFactorUpdate => exact shape_now (execCapFactorUpdate_shape s h)
  | powerWindow part mw => exact shape_now (execPowerWindow_shape part mw s h)
  | flowEstimateUpdate pin pcis => exact shape_now (execFlowEstimateUpdate_shape pin pcis s h)
  | flowBandRaise => exact shape_now (execFlowBandRaise_shape s h)
  | pathResistanceSample field points mA => exact shape_now (execPathResistanceSample_shape field points mA s h)
  | domainRampStart field vcoreHeadroom vanaHeadroom => exact shape_now (execDomainRampStart_shape field vcoreHeadroom vanaHeadroom s h)
  | rampHeadroomTimeout field => exact shape_now (execRampHeadroomTimeout_shape field s h)
  | domainRampDone field => exact shape_now (execDomainRampDone_shape field s h)
  | lanternTimeAcquired l => exact shape_now (execLanternTimeAcquired_shape l s h)
  | domainOffAfterWork field => exact shape_now (execDomainOffAfterWork_shape field s h)
  | vcoreVoltageStep field => exact shape_now (execVcoreVoltageStep_shape field s h)
  | timeBaseBroadcast => exact shape_now (execTimeBaseBroadcast_shape s h)
  | vaonGood => exact absurd rfl hc
  | romSelftestDone pass => exact shape_now (execRomSelftestDone_shape pass s h)
  | lamplighterFwStart => exact shape_now (execLamplighterFwStart_shape s h)
  | firmwareMeasured aOk bOk => exact shape_now (execFirmwareMeasured_shape aOk bOk s h)
  | hostLinkTrained p ok => exact shape_now (execHostLinkTrained_shape p ok s h)
  | cisternTrainingDone failed => exact shape_now (execCisternTrainingDone_shape failed s h)
  | calibrationReconcile => exact shape_now (execCalibrationReconcile_shape s h)
  | fieldSelfTestDone badRouters badIslands => exact shape_now (execFieldSelfTestDone_shape badRouters badIslands s h)
  | neighbourTestDone votes => exact shape_now (execNeighbourTestDone_shape votes s h)
  | repairMapApply => exact shape_now (execRepairMapApply_shape s h)
  | retentionCheckDone event => exact shape_now (execRetentionCheckDone_shape event s h)
  | dormantRecordCheck => exact shape_now (execDormantRecordCheck_shape s h)
  | readyAssert => exact shape_now (execReadyAssert_shape s h)
  | spdmGetVersion ep => exact shape_now (execSpdmGetVersion_shape ep s h)
  | spdmGetCapabilities ep => exact shape_now (execSpdmGetCapabilities_shape ep s h)
  | spdmNegotiateAlgorithms ep => exact shape_now (execSpdmNegotiateAlgorithms_shape ep s h)
  | spdmGetDigests ep => exact shape_now (execSpdmGetDigests_shape ep s h)
  | spdmGetCertificate ep slot => exact shape_now (execSpdmGetCertificate_shape ep slot s h)
  | spdmChallenge ep slot nonce => exact shape_now (execSpdmChallenge_shape ep slot nonce s h)
  | spdmGetMeasurements ep index sign => exact shape_now (execSpdmGetMeasurements_shape ep index sign s h)
  | spdmKeyExchange ep reqSession => exact shape_now (execSpdmKeyExchange_shape ep reqSession s h)
  | spdmFinish ep session ok => exact shape_now (execSpdmFinish_shape ep session ok s h)
  | spdmHeartbeat ep session => exact shape_now (execSpdmHeartbeat_shape ep session s h)
  | spdmKeyUpdate ep session => exact shape_now (execSpdmKeyUpdate_shape ep session s h)
  | spdmEndSession ep session => exact shape_now (execSpdmEndSession_shape ep session s h)
  | spdmUnsupportedRequest ep code => exact shape_now (execSpdmUnsupportedRequest_shape ep code s h)
  | pldmFirmwareUpdate image => exact shape_now (execPldmFirmwareUpdate_shape image s h)
  | coolantKind v => exact shape_now (execCoolantKind_shape v s h)
  | pldmEventAck mask => exact shape_now (execPldmEventAck_shape mask s h)
  | dynamicAddressAssign addr => exact shape_now (execDynamicAddressAssign_shape addr s h)
  | rstdaa => exact shape_now (execRstdaa_shape s h)
  | thermTripRelease => exact shape_now (execThermTripRelease_shape s h)
  | rimFunctionLost tile => exact shape_now (execRimFunctionLost_shape tile s h)
  | phaseUpdateDone ok => exact shape_now (execPhaseUpdateDone_shape ok s h)
  | jtagInstruction op => exact shape_now (execJtagInstruction_shape op s h)
  | zendenActivateNotice z => exact shape_now (execZendenActivateNotice_shape z s h)
  | refreshWindowEnd part => exact shape_now (execRefreshWindowEnd_shape part s h)
  | powerDownRestart => exact shape_now (execPowerDownRestart_shape s h)

/-- Settles O4: the time base by exec_now; the rest of PART_CREATE by what it keeps, of every other command by what the whole machine's frame says. -/
theorem queueTimeAndFuses : Obligations.QueueTimeAndFuses := by
  unfold Obligations.QueueTimeAndFuses
  intro c s t h
  by_cases hc : ∃ e, c = .partCreate e
  · obtain ⟨e, rfl⟩ := hc
    obtain ⟨hpending, -, hretired, hcounters⟩ := by simpa only [steady, Prod.mk.injEq] using exec_partCreate_steady h
    exact ⟨hpending, exec_now h, fun hr => hretired.trans hr, fun k => by rw [counterAt, counterAt, hcounters]⟩
  · have hgrows := Apart.exec_grows (fun e he => hc ⟨e, he⟩) h
    exact ⟨hgrows.pending, exec_now h, hgrows.retired, hgrows.counters⟩

end Sys2Proof.Steady
end

section
/-!
PROOFS. 08 R234 to R252: how flits hop. While nothing waits to come in at a router, feeding it changes nothing; a hop, a scheduled run and a release of the weir
are then followed through their checks, and what leaves a router is one state, whatever the port it leaves by.
-/

open Sys2Proof Sys2Proof.Machine

namespace Sys2Proof.Furrows

variable {s s' : State} {r p i l : Nat} {f g : Flit}

/-! ## Nothing waits to come in (08 R236) -/

theorem feedL_of_none (h : (getL s l).tx = []) : feedL s l = s := by
  rw [feedL, h]
  rfl

theorem feedT_of_none {t : Nat} (h : (getT s t).tx = []) : feedT t s = s := by
  rw [feedT, h]
  rfl

theorem feedRouter_of_none (hL : (getL s r).tx = []) (hT : ∀ q, q < 5 → ((edgeTile r q).map (fun x => (getT s x).tx)).getD [] = []) :
    feedRouter s r = s := by
  rw [feedRouter, feedL_of_none hL]
  refine WeightEvents.forEach_holds_of_mem (P := (· = s)) _ (fun t ht u hu => ?_) s rfl
  rw [hu]
  refine feedT_of_none ?_
  obtain ⟨q, hq, hedge⟩ := List.mem_filterMap.1 ht
  have hq5 : q < 5 := by
    simp only [List.mem_cons, List.not_mem_nil, or_false] at hq
    omega
  have hnone := hT q hq5
  rw [hedge] at hnone
  exact hnone

/-! ## Heads of buffers, and counts of a field -/

theorem routerUp_of_good (h : ¬ s.badRouters.contains r) : routerUp s r = true := by
  rw [routerUp, Bool.eq_false_iff.2 h]
  rfl

/-- Taking a head flit leaves the partitions and which lanterns are on. -/
theorem takeIn_leaves {cls : Fin 4} {vcb : Bool} (h : takeIn s r i cls vcb = some (f, s')) :
    partOf s' r = partOf s r ∧ (getL s' r).on = (getL s r).on := by
  unfold takeIn at h
  split at h
  · obtain ⟨-, rfl⟩ := Prod.mk.inj (Option.some.inj h)
    exact ⟨rfl, rfl⟩
  split at h
  · split at h
    · obtain ⟨-, rfl⟩ := Prod.mk.inj (Option.some.inj h)
      exact ⟨rfl, by rw [getL_updL_same]⟩
    · cases h
  · cases h

theorem getL_countF (s : State) (k src n l : Nat) : getL (countF s k src n) l = getL s l := by
  unfold countF
  split
  · rfl
  · exact (bumpAll_parts _ _ _ _).2.1 l

theorem partOf_countF (s : State) (r src n : Nat) : partOf (countF s (fieldOf r) src n) r = partOf s r := by
  unfold countF
  split
  · rfl
  · exact ArrayIssue.partOfField_countPart _ _ _ _

theorem countF_if (c : Prop) [Decidable c] (s : State) (k src : Nat) : (if c then countF s k src 1 else s) = countF s k src (if c then 1 else 0) := by
  split <;> rfl

/-! ## What leaves a router (08 R234, R235, R246) -/

/-- Flit g is counted and goes over the links of output port p of router r. -/
def sentOver (r p : Nat) (g : Flit) (u : State) : State :=
  updRP (countF (countF u (fieldOf r) 0x40 1) (fieldOf r) 0x41 (if g.cls = 0 then 1 else 0)) r p (fun P => { P with out := passLinks g P.out })

/-- The flit with one hop more. -/
def hopped (f : Flit) : Flit := { f with hops := min 127 (f.hops + 1) }

theorem getL_sentOver (u : State) (l : Nat) : getL (sentOver r p g u) l = getL u l := (getL_countF _ _ _ _ _).trans (getL_countF _ _ _ _ _)
theorem partOf_sentOver (u : State) : partOf (sentOver r p g u) r = partOf u r := (partOf_countF _ _ _ _).trans (partOf_countF _ _ _ _)

theorem sendOut_eq (u : State) : sendOut u r p f =
    if p = 0 then
      if (getL (sentOver r p (hopped f) u) r).on then updL (sentOver r p (hopped f) u) r (fun L => { L with rx := L.rx ++ [hopped f] })
      else raiseEv (countF (sentOver r p (hopped f) u) (fieldOf r) 0x44 1) sevError 0x0403 ((partOf (sentOver r p (hopped f) u) r).getD partModule)
        srcField (fieldOf r) (linkCode r 0 0)
    else match edgeTile r p with
      | some t => deliverTile (sentOver r p (hopped f) u) t (hopped f)
      | none => updRP (sentOver r p (hopped f) u) (neighbour r p) (facing p) (fillBuf (hopped f)) := by
  unfold sendOut
  dsimp only
  rw [countF_if]
  rfl

theorem sendOut_lantern {u : State} (hp : p = 0) (hon : (getL u r).on = true) :
    sendOut u r p f = updL (sentOver r p (hopped f) u) r (fun L => { L with rx := L.rx ++ [hopped f] }) := by
  rw [sendOut_eq, if_pos hp, getL_sentOver, if_pos hon]

theorem sendOut_lanternOff {u : State} (hp : p = 0) (hon : (getL u r).on = false) :
    sendOut u r p f = raiseEv (countF (sentOver r p (hopped f) u) (fieldOf r) 0x44 1) sevError 0x0403 ((partOf u r).getD partModule)
      srcField (fieldOf r) (linkCode r 0 0) := by
  rw [sendOut_eq, if_pos hp, getL_sentOver, if_neg (by rw [hon]; decide), partOf_sentOver]

theorem sendOut_neighbour {u : State} (hp : p ≠ 0) (he : edgeTile r p = none) :
    sendOut u r p f = updRP (sentOver r p (hopped f) u) (neighbour r p) (facing p) (fillBuf (hopped f)) := by
  rw [sendOut_eq, if_neg hp, he]

theorem sendOut_tile {u : State} {t : Nat} (hp : p ≠ 0) (he : edgeTile r p = some t) :
    sendOut u r p f = deliverTile (sentOver r p (hopped f) u) t (hopped f) := by
  rw [sendOut_eq, if_neg hp, he]

/-! ## FLIT_HOP (08 R237, R238, R244, R246, R252) -/

section
variable {cls : Fin 4} {vcb : Bool}

/-- The state a flit of class cls leaves router r from: the round robin of its port has moved on, unless it is of class 0. -/
def turned (s : State) (r p : Nat) (cls : Fin 4) (s' : State) : State :=
  if cls = 0 then s'
  else updRP s' r p (fun P => { P with turn := ((nextTurn (streamsAt s r p) (getRP s r p).turn).1, (nextTurn (streamsAt s r p) (getRP s r p).turn).2 + 1) })

/-- The round robin is of the router: it leaves the partitions and the lanterns. -/
theorem turned_leaves (s : State) (r p : Nat) (cls : Fin 4) (s' : State) :
    partOf (turned s r p cls s') r = partOf s' r ∧ (getL (turned s r p cls s') r).on = (getL s' r).on := by
  unfold turned
  split <;> exact ⟨rfl, rfl⟩

theorem sendTurn_eq (u : State) : sendTurn s r p (if cls = 0 then 4 else cls.val) f u = sendOut (turned s r p cls u) r p f := by
  unfold sendTurn turned
  by_cases hc : cls = 0
  · simp [hc]
  · have hk : cls.val ≠ 4 := by omega
    simp [hc, hk]

theorem exec_flitHop_eq (hr : r < 1600) (hi : i < 5) : exec (.flitHop r i cls vcb) s = .next (hop r i cls vcb s) := by
  rw [exec_flitHop, execFlitHop, guarded_next]
  exact ⟨by simp [lanternOk, portOk, hr, hi], rfl⟩

variable (hup : routerUp s r = true) (hfed : feedRouter s r = s)
include hup hfed

theorem hop_of_empty (h : takeIn s r i cls vcb = none) : hop r i cls vcb s = s := by
  simp only [hop, hup, hfed, h, ite_self]

variable (htake : takeIn s r i cls vcb = some (f, s')) (hp : p = nextPort s r f.src f.dest)
include htake hp

theorem hop_unpermitted (h : permitted s r p f.part = false) : hop r i cls vcb s =
    raiseEv (countF s' (fieldOf r) 0x45 1) sevSecurity 0x0501 ((partOf s r).getD partModule) srcLantern r f.part := by
  simp [hop, hup, hfed, htake, ← hp, h, permitDiscard, (takeIn_leaves htake).1]

theorem hop_unlinked (h : permitted s r p f.part = true) (hlinks : linksUp s r p = 0) : hop r i cls vcb s = s' := by
  simp [hop, hup, hfed, htake, ← hp, h, hlinks]

theorem hop_sends (h : permitted s r p f.part = true) (hlinks : linksUp s r p ≠ 0) (hroom : roomBehind s r p f = true) (hslot : slotHolds s r f = false)
    (htaken : slotTaken s r p f = false) (hbefore : servedBefore s r p i f = false) (hturn : cls ≠ 0 → inTurn s r p cls.val = true) :
    hop r i cls vcb s = sendOut (turned s r p cls s') r p { f with vcb := f.vcb || (exceptionFor s r f.dest).isSome } := by
  simp [hop, hup, hfed, htake, ← hp, h, hlinks, hroom, hslot, htaken, hbefore, sendTurn_eq]
  exact fun hc hlater => absurd (hturn hc) (by simp [hlater])

end

/-! ## Scheduled ports (08 R242 to R245) -/

theorem updRP_congr {h k : RPort → RPort} (heq : h (getRP s r p) = k (getRP s r p)) : updRP s r p h = updRP s r p k :=
  congrArg (fun P => setR s r { getR s r with ports := tset {} (getR s r).ports p P }) heq

theorem exec_orderRun_eq (hr : r < 1600) (hp : p < 5) : exec (.orderRun r p) s = .next (runOrder r p s) := by
  rw [exec_orderRun, execOrderRun, guarded_next]
  exact ⟨by simp [lanternOk, portOk, hr, hp], rfl⟩

theorem exec_orderEndstep_eq (hr : r < 1600) (hp : p < 5) : exec (.orderEndstep r p) s = .next (endstepOrder r p s) := by
  rw [exec_orderEndstep, execOrderEndstep, guarded_next]
  exact ⟨by simp [lanternOk, portOk, hr, hp], rfl⟩

theorem runOrder_idle (h : (getRP s r p).sched = false ∨ portRuns s r = false) : runOrder r p s = s := by
  unfold runOrder
  rcases h with h | h <;> simp [h]

theorem endstepOrder_idle (h : (getRP s r p).sched = false ∨ portRuns s r = false) : endstepOrder r p s = s := by
  unfold endstepOrder
  rcases h with h | h <;> simp [h]

section
variable {P : RPort} {w : Word} (hP : P = getRP s r p) (hw : w = orderEntry P) (hsched : P.sched = true) (hruns : portRuns s r = true)
include hP hw hsched hruns

/-- The port counts the flit of its run; the round robin of the port moves on. -/
theorem runOrder_sends (hrun : isRun w = true) (hup : routerUp s r = true) (hfed : feedRouter s r = s) (hi : i = entryField w 59 3)
    (hfree : inputTaken s r p i = false) (htake : takeSched s r i = some (f, s')) (h : permitted s r p f.part = true) (hlinks : linksUp s r p ≠ 0)
    (hroom : roomBehind s r p f = true) (hbefore : servedBefore s r p i f = false) (hturn : inTurn s r p 0 = true)
    (hdebug : debugOn s ((partOf s r).getD 16) = false) :
    runOrder r p s = sendOut (updRP (updRP s' r p (fun P => if P.done = entryField w 17 12 then advanceEntry P else { P with done := P.done + 1 }))
      r p (fun Q => { Q with turn := ((nextTurn (streamsAt s r p) P.turn).1, (nextTurn (streamsAt s r p) P.turn).2 + 1) })) r p f := by
  subst hP hw hi
  simp [runOrder, hsched, hruns, hrun, hup, hfed, hfree, htake, h, hlinks, hroom, hbefore, hturn, hdebug, sendTurn]

theorem endstepOrder_stays (hend : isEndstep w = true) (hs : P.switchAt = none) :
    endstepOrder r p s = updRP s r p (fun P => { advanceEntry P with steps := P.steps + entryField w 0 12 + 1 }) := by
  subst hP hw
  simp only [endstepOrder, hsched, hruns, hend]
  refine updRP_congr ?_
  simp [advanceEntry, hs]

theorem endstepOrder_switches {k : Nat} (hend : isEndstep w = true) (hs : P.switchAt = some k) (hk : k ≤ P.steps + entryField w 0 12 + 1) :
    endstepOrder r p s =
      updRP s r p (fun P => { P with steps := P.steps + entryField w 0 12 + 1, bank := 1 - P.bank, entry := 0, done := 0, switchAt := none }) := by
  subst hP hw
  simp only [endstepOrder, hsched, hruns, hend]
  refine updRP_congr ?_
  simp [advanceEntry, hs, hk]

end

/-! ## The weir (08 R247) -/

theorem updT_updT {t : Nat} {h k : RimTile → RimTile} (hne : h (getT s t) ≠ {}) : updT (updT s t h) t k = updT s t (fun T => k (h T)) := by
  unfold updT
  rw [getT_setT_same]
  unfold setT
  simp only [tset_tset _ _ _ _ hne]

theorem exec_weirRelease_lantern (hr : r < 1600) {pn : Nat} (hpn : pn < 16) : exec (.weirRelease r pn) s = .next (releaseLantern r s) := by
  have hdest : tileOfDest r = none := if_neg (by omega)
  rw [exec_weirRelease, execWeirRelease, hdest, guarded_next]
  exact ⟨by simp [partOk, hpn]; omega, rfl⟩

theorem exec_weirRelease_tile {t pn : Nat} (ht : t < 40) (hpn : pn < 16) : exec (.weirRelease (1600 + t) pn) s = .next (releaseTile t pn s) := by
  have hdest : tileOfDest (1600 + t) = some t := by
    rw [tileOfDest, if_pos (by omega), Nat.add_sub_cancel_left]
  rw [exec_weirRelease, execWeirRelease, hdest, guarded_next]
  exact ⟨by simp [partOk, hpn]; omega, rfl⟩

theorem releaseLantern_sends {e : Nat} {rest : List (Nat × Flit)} (hheld : (getL s l).weirHeld = (e, f) :: rest)
    (hopen : weirOpen (getL s l).weirLast (getL s l).weirK (nowNs s) = true) :
    releaseLantern l s = countL (updL s l (fun L => { L with weirHeld := rest, weirLast := some (nowNs s), tx := L.tx ++ [(e, f)] })) l (0x2D + f.cls.val) 1 := by
  simp only [releaseLantern, hheld, hopen, if_true, launchL]
  rw [updL_updL]
  intro h
  exact absurd (congrArg Lantern.weirLast h) (by simp)

theorem find_held {pre rest : List Flit} {pn : Nat} (hpre : ∀ x, x ∈ pre → x.part ≠ pn) (hf : f.part = pn) :
    (pre ++ f :: rest).find? (fun g => g.part == pn) = some f := by
  rw [List.find?_append, List.find?_eq_none.2 (by simpa using hpre)]
  simp [hf]

theorem erase_held {pre rest : List Flit} {pn : Nat} (hpre : ∀ x, x ∈ pre → x.part ≠ pn) (hf : f.part = pn) :
    (pre ++ f :: rest).eraseP (fun g => g.part == pn) = pre ++ rest := by
  rw [List.eraseP_append_right _ (by simpa using hpre), List.eraseP_cons_of_pos (by simp [hf])]

theorem updT_congr {t : Nat} {h k : RimTile → RimTile} (heq : h (getT s t) = k (getT s t)) : updT s t h = updT s t k := congrArg (setT s t) heq

theorem releaseTile_sends {t pn last : Nat} {pre rest : List Flit} (hheld : (getT s t).weirHeld = pre ++ f :: rest) (hpre : ∀ x, x ∈ pre → x.part ≠ pn)
    (hf : f.part = pn) (hlast : last = tget 0 (getT s t).weirLast pn) (hopen : last = 0 ∨ last - 1 + weirP (tget 0 (getT s t).weirK pn) ≤ nowNs s) :
    releaseTile t pn s = countT (updT s t (fun T => { T with
      weirHeld := pre ++ rest, weirLast := tset 0 T.weirLast pn (nowNs s + 1), tx := T.tx ++ [{ f with inj := injNow s (tileIsland t) f }] })) t 0x61 1 := by
  subst hlast
  have hopen' : tget 0 (getT s t).weirLast pn = 0 ∨ weirOpen (some (tget 0 (getT s t).weirLast pn - 1)) (tget 0 (getT s t).weirK pn) (nowNs s) = true := by
    simpa only [weirOpen, decide_eq_true_eq] using hopen
  have hne : { getT s t with weirHeld := pre ++ rest, weirLast := tset 0 (getT s t).weirLast pn (nowNs s + 1) } ≠ ({} : RimTile) := by
    intro h
    have hnow := congrArg (fun T : RimTile => tget 0 T.weirLast pn) h
    rw [tget_tset_same] at hnow
    exact absurd hnow (Nat.succ_ne_zero _)
  have herase : updT s t (fun T => { T with weirHeld := T.weirHeld.eraseP (fun g => g.part == pn), weirLast := tset 0 T.weirLast pn (nowNs s + 1) })
      = updT s t (fun T => { T with weirHeld := pre ++ rest, weirLast := tset 0 T.weirLast pn (nowNs s + 1) }) :=
    updT_congr (by rw [hheld, erase_held hpre hf])
  simp only [releaseTile, hheld, find_held hpre hf, if_pos hopen', herase, launchT]
  rw [updT_updT hne]
  rfl

/-! ## The statement -/

/-- Settles O36: each clause is the rule of its command above. -/
theorem furrows : Obligations.Furrows := by
  unfold Obligations.Furrows
  intro r p i pn cls vcb s s' f g P w hr hp hi hpn hP hw hgood
  have hup := routerUp_of_good hgood
  refine ⟨fun htx htiles => ⟨?empty, ?hop, ?run⟩, ?weirL, ?weirT, ?stays, ?switches, ?idle⟩
  case empty => exact fun hnone => (exec_flitHop_eq hr hi).trans (congrArg _ (hop_of_empty hup (feedRouter_of_none htx htiles) hnone))
  case hop =>
    rintro htake hport rfl
    have hfed := feedRouter_of_none htx htiles
    obtain ⟨hpart, hon⟩ := takeIn_leaves htake
    rw [exec_flitHop_eq hr hi]
    refine ⟨fun h => by rw [hop_unpermitted hup hfed htake hport h], fun h hl => by rw [hop_unlinked hup hfed htake hport h hl], ?_⟩
    intro h hl hroom hslot htaken hbefore hturn
    rw [hop_sends hup hfed htake hport h hl hroom hslot htaken hbefore hturn]
    subst hP
    have hpart' := (turned_leaves s r p cls s').1.trans hpart
    have hon' := (turned_leaves s r p cls s').2.trans hon
    refine ⟨fun h0 h1 => ?_, fun h0 h1 => ?_, fun h0 he => ?_, fun x h0 he => ?_⟩
    · exact congrArg _ (sendOut_lantern h0 (hon'.trans h1))
    · rw [← hpart']
      exact congrArg _ (sendOut_lanternOff h0 (hon'.trans h1))
    · exact congrArg _ (sendOut_neighbour h0 he)
    · exact congrArg _ (sendOut_tile h0 he)
  case run =>
    intro hsched hruns hrun hfree htake h hl hroom hbefore hturn hdebug
    rw [exec_orderRun_eq hr hp,
      runOrder_sends hP hw hsched hruns hrun hup (feedRouter_of_none htx htiles) rfl hfree htake h hl hroom hbefore hturn hdebug]
  case weirL =>
    intro e rest hheld hopen
    rw [exec_weirRelease_lantern hr hpn, releaseLantern_sends hheld hopen]
  case weirT =>
    intro t pre rest last ht hheld hpre hf hlast hopen
    rw [exec_weirRelease_tile ht hpn, releaseTile_sends hheld hpre hf hlast hopen]
  case stays =>
    intro hsched hruns hend hs
    rw [exec_orderEndstep_eq hr hp, endstepOrder_stays hP hw hsched hruns hend hs]
  case switches =>
    intro k hsched hruns hend hs hk
    rw [exec_orderEndstep_eq hr hp, endstepOrder_switches hP hw hsched hruns hend hs hk]
  case idle =>
    intro h
    rw [hP] at h
    rw [exec_orderRun_eq hr hp, exec_orderEndstep_eq hr hp, runOrder_idle h, endstepOrder_idle h]
    exact ⟨rfl, rfl⟩

end Sys2Proof.Furrows
end

section
/-!
PROOFS. 08 R234, R235, R250, R251: errors on a link. A CRC mismatch is a count and a note on the link; a link that leaves service leaves its port with as many
working links as the other one gives; a lane test is the first repair of Table 8-6 that fits.
-/

open Sys2Proof Sys2Proof.Machine

namespace Sys2Proof.LinkErrors

variable {s : State} {r p k k' : Nat} {inb : Bool}

/-! ## The links of a port -/

theorem getRP_updRP_same (s : State) (r p : Nat) (f : RPort → RPort) : getRP (updRP s r p f) r p = f (getRP s r p) := by
  unfold getRP updRP
  rw [getR_updR_same, tget_tupd_same]

theorem getDir_updDir_same (f : LinkDir → LinkDir) (s : State) : getDir (updDir r p inb f s) r p inb = f (getDir s r p inb) := by
  unfold getDir updDir
  rw [getRP_updRP_same]
  cases inb <;> rfl

theorem routers_countPart (s : State) (x src n : Nat) : (countPart s x src n).routers = s.routers :=
  Reports.same_of_blank others State.routers (fun _ => rfl) (bumpAll_parts s x src n).1

theorem getDir_countF (s : State) (x src n : Nat) : getDir (countF s x src n) r p inb = getDir s r p inb := by
  have hrouters : (countF s x src n).routers = s.routers := by
    unfold countF
    split
    · rfl
    · exact routers_countPart _ _ _ _
  unfold getDir getRP getR
  rw [hrouters]

/-- Links have numbers 0 and 1 in a direction. -/
theorem linkPlace_lt {r' p' : Nat} (hk : k < 4) (h : linkPlace r p k = (r', p', inb, k')) : k' < 2 := by
  unfold linkPlace at h
  split at h
  · simp only [Prod.mk.injEq] at h
    omega
  split at h
  all_goals
    simp only [Prod.mk.injEq] at h
    omega

/-- A link that leaves service leaves the other one of its direction as it was. -/
theorem dropLink_other (d : LinkDir) (hk : k < 2) : (tget {} (dropLink k d).link (1 - k)).up = (tget {} d.link (1 - k)).up := by
  have hne : 1 - k ≠ k := by omega
  unfold dropLink
  dsimp only
  split
  · rw [tget_tset_other _ _ _ hne]
  · rw [tget_tupd_same, tget_tset_other _ _ _ hne]
    rfl

theorem dropLink_same (d : LinkDir) (hk : k < 2) : (tget {} (dropLink k d).link k).up = false := by
  have hne : k ≠ 1 - k := by omega
  unfold dropLink
  dsimp only
  split
  · rw [tget_tset_same]
  · rw [tget_tupd_other _ _ _ hne, tget_tset_same]

/-- A direction without link k works as far as its other link does. -/
theorem working_of_down {d : LinkDir} (hk : k < 2) (h : (tget {} d.link k).up = false) : working d = if (tget {} d.link (1 - k)).up then 1 else 0 := by
  unfold working
  interval_cases k
  · simp [h]
  · simp [h]

theorem working_dropLink (d : LinkDir) (hk : k < 2) : working (dropLink k d) = if (tget {} d.link (1 - k)).up then 1 else 0 := by
  rw [working_of_down hk (dropLink_same d hk), dropLink_other d hk]

/-! ## LINK_CRC_MISMATCH (08 R234, R251) -/

/-- CRC failures in a row of a flit, this one counted. -/
def failsNow (x : Link) (flit : Nat) : Nat := match x.fails with | some (g, m) => if g = flit then m + 1 else 1 | none => 1

/-- The mismatches of a link within 1 ms, this one first. -/
def missesNow (s : State) (x : Link) : List Nat := nowNs s :: x.misses.filter (fun t => decide (nowNs s < t + 1000000))

/-- The mismatch counted, and noted on link k of its direction. -/
def noted (s : State) (r p : Nat) (inb : Bool) (k flit : Nat) (x : Link) : State :=
  updDir r p inb (fun d => { d with link := tset {} d.link k { x with misses := missesNow s x, fails := some (flit, failsNow x flit), replays := x.replays + 1 } })
    (countF (countF s (fieldOf r) 0x42 1) (fieldOf r) 0x43 1)

theorem exec_linkCrcMismatch_eq (hr : r < 1600) (hp : p < 5) (hk : k < 4) (flit : Nat) :
    exec (.linkCrcMismatch r p k flit) s = .next (crcMismatch r p k flit s) := by
  rw [exec_linkCrcMismatch, execLinkCrcMismatch, guarded_next]
  exact ⟨by simp [lanternOk, portOk, linkOk, hr, hp, hk], rfl⟩

section
variable {r' p' flit : Nat} {x : Link} (hplace : linkPlace r p k = (r', p', inb, k')) (hx : x = tget {} (getDir s r' p' inb).link k')
include hplace hx

theorem crcMismatch_down (hdown : x.up = false) : crcMismatch r p k flit s = s := by
  unfold crcMismatch
  rw [hplace]
  dsimp only
  rw [← hx, if_pos (by rw [hdown]; rfl)]

theorem crcMismatch_up (hup : x.up = true) : crcMismatch r p k flit s =
    if 3 ≤ failsNow x flit ∨ 16 ≤ (missesNow s x).length then linkOut r' p' inb k' (noted s r' p' inb k' flit x) else noted s r' p' inb k' flit x := by
  unfold crcMismatch
  rw [hplace]
  dsimp only
  rw [← hx, if_neg (by rw [hup]; decide)]
  rfl

end

/-- The other link of the direction is as it was before the mismatch was noted. -/
theorem other_noted (flit : Nat) (x : Link) (hk : k < 2) :
    (tget {} (getDir (noted s r p inb k flit x) r p inb).link (1 - k)).up = (tget {} (getDir s r p inb).link (1 - k)).up := by
  have hne : 1 - k ≠ k := by omega
  rw [noted, getDir_updDir_same, getDir_countF, getDir_countF, tget_tset_other _ _ _ hne]

theorem linkOut_shared (hk : k < 2) (h : (tget {} (getDir s r p inb).link (1 - k)).up = true) : linkOut r p inb k s = updDir r p inb (dropLink k) s := by
  unfold linkOut
  dsimp only
  rw [getDir_updDir_same, working_dropLink _ hk, h]
  rfl

theorem linkOut_last (hk : k < 2) (h : (tget {} (getDir s r p inb).link (1 - k)).up = false) :
    linkOut r p inb k s = portLost r p inb k (updDir r p inb (dropLink k) s) := by
  unfold linkOut
  dsimp only
  rw [getDir_updDir_same, working_dropLink _ hk, h]
  rfl

/-! ## LANE_TEST_DONE (08 R250, R251; Table 8-6) -/

theorem exec_laneTestDone_eq (hr : r < 1600) (hp : p < 5) (hk : k < 4) (y : LaneResult) : exec (.laneTestDone r p k y) s = .next (laneTest r p k y 3 s) := by
  rw [exec_laneTestDone, execLaneTestDone, guarded_next]
  exact ⟨by simp [lanternOk, portOk, linkOk, hr, hp, hk], rfl⟩

/-- Link k of a direction is disabled for good. -/
def disableLink (k : Nat) (d : LinkDir) : LinkDir := { d with link := tupd {} d.link k (fun x => { x with disabled := true }) }

/-- An entry for the map with room leaves which partition holds a lantern. -/
theorem partOf_addRepair {e : RepairEntry} (h : s.repair.entries.length < 8192) (l : Nat) : partOf (addRepair s e) l = partOf s l := by
  rw [addRepair, mapAdd, if_neg (Nat.not_le.2 h)]
  rfl

section
variable {r' p' w source : Nat} {y : LaneResult} {x : Link} (hplace : linkPlace r p k = (r', p', inb, k')) (hx : x = tget {} (getDir s r' p' inb).link k')
include hplace hx

theorem laneTest_up (hup : x.up = true) : laneTest r p k y source s = s := by
  unfold laneTest
  rw [hplace]
  dsimp only
  rw [← hx, if_pos hup]

variable (hdown : x.up = false) (hw : w = linkCode r' p' (k' + (if inb then 2 else 0)))
include hdown hw

/-- No repair is needed: the link returns. -/
theorem laneTest_clean (hfit : fitRepair s r' p' w source y = []) : laneTest r p k y source s =
    raiseEv (recheckRoutes (updDir r' p' inb (restoreLink k') s)) sevWarn 0x0401 ((partOf s r').getD partModule) srcFirmware 0 w := by
  subst hw
  unfold laneTest
  rw [hplace]
  dsimp only
  rw [← hx, hfit, if_neg (by rw [hdown]; decide)]
  rfl

/-- The spare takes the link's place: the link returns with an entry of the repair map. -/
theorem laneTest_spare (hfit : fitRepair s r' p' w source y = [⟨6, source, w, 0, 0⟩]) (hroom : s.repair.entries.length < 8192) : laneTest r p k y source s =
    raiseEv (recheckRoutes (addRepair (updDir r' p' inb (restoreLink k') s) ⟨6, source, w, 0, 0⟩)) sevWarn 0x0401 ((partOf s r').getD partModule) srcFirmware 0 w := by
  have hpart : partOf (addRepair (updDir r' p' inb (restoreLink k') s) ⟨6, source, w, 0, 0⟩) r' = partOf s r' :=
    partOf_addRepair (s := updDir r' p' inb (restoreLink k') s) hroom r'
  subst hw
  unfold laneTest
  rw [hplace]
  dsimp only
  rw [← hx, hfit, if_neg (by rw [hdown]; decide)]
  rw [← hpart]
  rfl

theorem laneTest_disabled (hfit : fitRepair s r' p' w source y = [⟨7, source, w, 0, 0⟩]) (hroom : s.repair.entries.length < 8192) : laneTest r p k y source s =
    raiseEv (recheckRoutes (addRepair (updDir r' p' inb (disableLink k') s) ⟨7, source, w, 0, 0⟩)) sevWarn 0x0400 ((partOf s r').getD partModule) srcFirmware 0 w := by
  have hpart : partOf (addRepair (updDir r' p' inb (disableLink k') s) ⟨7, source, w, 0, 0⟩) r' = partOf s r' :=
    partOf_addRepair (s := updDir r' p' inb (disableLink k') s) hroom r'
  subst hw
  unfold laneTest
  rw [hplace]
  dsimp only
  rw [← hx, hfit, if_neg (by rw [hdown]; decide)]
  rw [← hpart]
  rfl

end

/-! ## Table 8-6: the first repair that fits -/

theorem fitRepair_clean {w source : Nat} {y : LaneResult} (ht : y.triplet ≤ 1) (hw : y.wires = []) : fitRepair s r p w source y = [] := by
  unfold fitRepair
  rw [if_pos ⟨ht, hw⟩]

theorem fitRepair_spare {w source : Nat} {y : LaneResult} (ht : 2 ≤ y.triplet) (hb : boundaryLink r p = true) (hs : spareUsed s w = false) :
    fitRepair s r p w source y = [⟨6, source, w, 0, 0⟩] := by
  have ht' : ¬ y.triplet ≤ 1 := by omega
  simp [fitRepair, ht', hb, hs]

theorem fitRepair_disabled {w source : Nat} {y : LaneResult} (ht : 2 ≤ y.triplet) (h : boundaryLink r p = false ∨ spareUsed s w = true) :
    fitRepair s r p w source y = [⟨7, source, w, 0, 0⟩] := by
  have ht' : ¬ y.triplet ≤ 1 := by omega
  rcases h with h | h <;> simp [fitRepair, ht', h]

/-! ## The statement -/

/-- Settles O37: a mismatch by what it notes and whether its link then leaves service, a lane test by the repair that fits. -/
theorem linkErrors : Obligations.LinkErrors := by
  unfold Obligations.LinkErrors
  intro r p k r' p' k' flit inb s S d x ms n w hr hp hk hplace hd hx hms hn hS hw
  subst hd
  have hk' : k' < 2 := linkPlace_lt hk hplace
  have hfails : n = failsNow x flit := hn
  have hmisses : ms = missesNow s x := hms
  have hnoted : S = noted s r' p' inb k' flit x := by rw [hS, hfails, hmisses]; rfl
  have hcrc := exec_linkCrcMismatch_eq (s := s) hr hp hk flit
  have hlane := exec_laneTestDone_eq (s := s) hr hp hk
  have hout : ∀ b, (tget {} (getDir s r' p' inb).link (1 - k')).up = b → (tget {} (getDir S r' p' inb).link (1 - k')).up = b := fun b h => by
    rw [hnoted, other_noted flit x hk', h]
  subst hfails hmisses
  refine ⟨fun hup hn3 hm => ?few, fun hup hmany hother => ?shared, fun u v hup hmany hother hu hv => ?last, fun hdown => ?down, fun y hup => ?up,
    fun y hdown ht hwires => ?clean, fun y hdown ht hb hs hroom => ?spare, fun y hdown ht h hroom => ?disabled⟩
  case few =>
    rw [hcrc, crcMismatch_up hplace hx hup, if_neg (by omega), hnoted]
  case shared =>
    rw [hcrc, crcMismatch_up hplace hx hup, if_pos hmany, ← hnoted, linkOut_shared hk' (hout _ hother)]
  case last =>
    rw [hcrc, crcMismatch_up hplace hx hup, if_pos hmany, ← hnoted, linkOut_last hk' (hout _ hother), ← hu, hv, hw]
    unfold portLost
    cases inb <;> rfl
  case down => rw [hcrc, crcMismatch_down hplace hx hdown]
  case up => rw [hlane, laneTest_up hplace hx hup]
  case clean => rw [hlane, laneTest_clean hplace hx hdown hw (fitRepair_clean ht hwires)]
  case spare => rw [hlane, laneTest_spare hplace hx hdown hw (fitRepair_spare ht hb hs) hroom]
  case disabled =>
    rw [hlane, laneTest_disabled hplace hx hdown hw (fitRepair_disabled ht h) hroom]
    rfl

end Sys2Proof.LinkErrors
end

section
/-!
PROOFS. Log 12; 08 R236, R239, R240, R255: a nanosecond on an empty queue. What time and the links do is seen in counters, copies of the time base, routers,
headgates and Zenden ports only; moves between the key/value stores and the cistern do more, but leave the powered time; while nothing moves, they do nothing.
-/

open Sys2Proof Sys2Proof.Machine

namespace Sys2Proof.Idling

variable {s t : State}

/-! ## What stands while time passes and flits go on -/

/-- The module but for partitions, lanterns, copies of the time base, routers, headgates and Zenden ports. -/
def still (s : State) : State := { others s with skew := [], routers := [], tiles := [], zen := [] }
/-- A lantern but for its counters and the flits that wait for its router. -/
def unticked (L : Lantern) : Lantern := { L with counters := [], tx := [] }

/-- What stands: the module but for the above, the partitions and the lanterns but for what counts and waits. -/
def standing (s : State) : State × (Nat → Option Partition) × (Nat → Lantern) :=
  (still s, fun n => (getPart s n).map uncounted, fun l => unticked (getL s l))

theorem still_of_standing (h : standing t = standing s) : still t = still s := congrArg (·.1) h
theorem parts_of_standing (h : standing t = standing s) (n : Nat) : (getPart t n).map uncounted = (getPart s n).map uncounted := congrArg (·.2.1 n) h
theorem lanterns_of_standing (h : standing t = standing s) (l : Nat) : unticked (getL t l) = unticked (getL s l) := congrArg (·.2.2 l) h
theorem powered_of_standing (h : standing t = standing s) : t.powered = s.powered :=
  Reports.same_of_blank still State.powered (fun _ => rfl) (still_of_standing h)

/-- The times set anew, what stands of the rest of the module. -/
theorem rest_of_standing (h : standing t = standing s) (n : BitVec 64) (p : Nat) :
    { others { t with now := n, powered := p } with now := s.now, powered := s.powered, skew := [], routers := [], tiles := [], zen := [] }
      = { others s with skew := [], routers := [], tiles := [], zen := [] } :=
  congrArg (fun u : State => { u with now := s.now, powered := s.powered }) (still_of_standing h)

theorem ite_standing {c : Prop} [Decidable c] {a b : State} (ha : standing a = standing s) (hb : standing b = standing s) :
    standing (if c then a else b) = standing s := by
  split
  · exact ha
  · exact hb

theorem forEach_standing {α : Type} (xs : List α) {f : α → State → State} (h : ∀ x s, standing (f x s) = standing s) (s : State) :
    standing (forEach xs f s) = standing s := forEach_keeps standing f h xs s

theorem updL_standing (s : State) (l : Nat) {f : Lantern → Lantern} (h : ∀ L, unticked (f L) = unticked L) : standing (updL s l f) = standing s := by
  refine Prod.ext rfl (Prod.ext rfl (funext fun m => ?_))
  by_cases hm : m = l
  · subst hm
    exact (congrArg unticked (getL_updL_same _ _ _)).trans (h _)
  · exact congrArg unticked (getL_updL_other _ _ hm)

theorem updRP_standing (s : State) (r p : Nat) (f : RPort → RPort) : standing (updRP s r p f) = standing s := rfl
theorem updT_standing (s : State) (n : Nat) (f : RimTile → RimTile) : standing (updT s n f) = standing s := rfl
theorem setZ_standing (s : State) (z : Nat) (Z : Zenden) : standing (setZ s z Z) = standing s := rfl
theorem updZ_standing (s : State) (z : Nat) (f : Zenden → Zenden) : standing (updZ s z f) = standing s := rfl

/-! ## Counters and copies of the time base (08 R240; 13 Table 13-1) -/

theorem countL_standing (s : State) (l src n : Nat) : standing (countL s l src n) = standing s := by
  refine Prod.ext ?_ (Prod.ext (funext fun k => parts_countL s l src n k) (funext fun m => ?_))
  · exact congrArg (fun u : State => { u with skew := [], routers := [], tiles := [], zen := [] }) (others_countL s l src n)
  · obtain ⟨c, hc⟩ := getL_countL s l src n m
    exact (congrArg unticked hc).trans rfl

theorem tickLantern_standing (t l : Nat) (s : State) : standing (tickLantern t l s) = standing s := by
  unfold tickLantern
  extract_lets L n s1 s2
  have h2 : standing s2 = standing s := (ite_standing rfl (countL_standing _ _ _ _)).trans (countL_standing _ _ _ _)
  exact ite_standing rfl ((forEach_standing _ (fun c s => countL_standing _ _ _ _) _).trans h2)

theorem moveCopies_standing (s : State) : standing (moveCopies s) = standing s := by
  unfold moveCopies
  exact ite_standing rfl rfl

/-! ## Flits that enter the mesh (08 R236) -/

theorem enterRouter_standing (r i : Nat) (f : Flit) (s : State) : standing (enterRouter r i f s) = standing s := updRP_standing _ _ _ _

theorem feedLocal_standing (l n : Nat) : ∀ s, standing (feedLocal l n s) = standing s := by
  induction n with
  | zero => exact fun _ => rfl
  | succ n ih =>
    intro s
    unfold feedLocal
    refine ite_standing rfl ?_
    split
    · rfl
    · refine (ih _).trans ((enterRouter_standing _ _ _ _).trans (updL_standing _ _ ?_))
      exact fun _ => rfl

theorem feedTile_standing (t n : Nat) : ∀ s, standing (feedTile t n s) = standing s := by
  induction n with
  | zero => exact fun _ => rfl
  | succ n ih =>
    intro s
    unfold feedTile
    split
    · rfl
    · exact (ih _).trans ((enterRouter_standing _ _ _ _).trans (updT_standing _ _ _))

theorem feedAll_standing (s : State) : standing (feedAll s) = standing s :=
  (forEach_standing _ (fun t s => feedTile_standing t _ s) _).trans (forEach_standing _ (fun l s => feedLocal_standing l _ s) _)

/-! ## Zenden ports (08 R255) -/

theorem zSend_standing (z n : Nat) : ∀ s, standing (zSend z n s) = standing s := by
  induction n with
  | zero => exact fun _ => rfl
  | succ n ih =>
    intro s
    unfold zSend
    exact ite_standing rfl ((ih _).trans (setZ_standing _ _ _))

theorem zFlush_standing (s : State) (z : Nat) : standing (zFlush s z) = standing s := by
  unfold zFlush
  refine ite_standing rfl ((zSend_standing _ _ _).trans (ite_standing rfl ?_))
  exact (updZ_standing _ _ _).trans (updZ_standing _ _ _)

theorem zTick_standing (s : State) : standing (zTick s) = standing s := by
  unfold zTick
  refine forEach_standing _ (fun z s => ?_) s
  exact ite_standing ((updZ_standing _ _ _).trans (zFlush_standing s z)) (zFlush_standing s z)

/-! ## Nothing moves to or from the cistern (07 R228 to R231) -/

/-- No request has a page to move. -/
abbrev nothingMoves (s : State) : Prop :=
  ∀ n p r, getPart s n = some p → r ∈ p.reqs → r.stage = .bind ∨ r.stage = .live ∨ r.stage = .ready

theorem nothingMoves_of_standing (h : standing t = standing s) (hs : nothingMoves s) : nothingMoves t := by
  intro n p r hp hr
  have hmap := parts_of_standing h n
  rw [hp, Option.map_some, eq_comm, Option.map_eq_some_iff] at hmap
  obtain ⟨q, hq, hpq⟩ := hmap
  have hreqs : q.reqs = p.reqs := Reports.same_of_blank uncounted Partition.reqs (fun _ => rfl) hpq
  exact hs n q r hq (hreqs ▸ hr)

theorem nextPage_of_stage {pn : Nat} {p : Partition} {r : Request} (h : r.stage = .bind ∨ r.stage = .live ∨ r.stage = .ready) :
    nextPage pn p r s = s := by
  unfold nextPage
  rcases h with h | h | h <;> rw [h]

theorem movePages_of_nothing (h : nothingMoves s) : movePages s = s := by
  unfold movePages
  split
  · rfl
  refine WeightEvents.forEach_holds_of_mem (P := (· = s)) _ (fun e he u hu => ?_) s rfl
  refine WeightEvents.forEach_holds_of_mem (P := (· = s)) _ (fun tag htag v hv => ?_) u hu
  rw [hv]
  split
  · next p hp =>
    split
    · next r hr => exact nextPage_of_stage (h _ p r hp (List.mem_of_find?_eq_some hr))
    · rfl
  · rfl

/-! ## The powered time over a move (07 R228 to R231) -/

theorem forEach_powered {α : Type} (xs : List α) {f : α → State → State} (h : ∀ x s, (f x s).powered = s.powered) (s : State) :
    (forEach xs f s).powered = s.powered := forEach_keeps State.powered f h xs s

theorem powered_of_unreported (h : Reports.unreported t = Reports.unreported s) : t.powered = s.powered :=
  Reports.same_of_blank Reports.unreported State.powered (fun _ => rfl) h

theorem countL_powered (s : State) (l src n : Nat) : (countL s l src n).powered = s.powered := powered_of_standing (countL_standing _ _ _ _)

theorem updPart_powered (s : State) (n : Nat) (f : Partition → Partition) : (updPart s n f).powered = s.powered := by
  unfold updPart
  split <;> rfl

theorem trapNow_powered (s : State) (l cause detail : Nat) : (trapNow s l cause detail).powered = s.powered := by
  unfold trapNow trapAt
  split
  · rfl
  · exact updPart_powered _ _ _

/-! ### Reads of a share -/

theorem ite_powered {c : Prop} [Decidable c] {a b : State} {n : Nat} (ha : a.powered = n) (hb : b.powered = n) : (if c then a else b).powered = n := by
  split
  · exact ha
  · exact hb

theorem parityMiss_powered (s : State) (l n a : Nat) : (parityMiss s l n a).powered = s.powered := by
  unfold parityMiss raiseL
  extract_lets s1 s2
  have h2 : s2.powered = s1.powered := rfl
  exact (powered_of_unreported (Reports.raiseEv_unreported _ _ _ _ _ _ _)).trans (h2.trans (countL_powered _ _ _ _))

theorem deliver_powered (s : State) (l n a : Nat) (poison parBad : Bool) : (deliver s l n a poison parBad).1.powered = s.powered := by
  have hmiss : (if parBad then parityMiss s l n a else s).powered = s.powered := ite_powered (parityMiss_powered _ _ _ _) rfl
  exact ite_powered ((countL_powered _ _ _ _).trans hmiss) hmiss

theorem walkReads_powered (s : State) (l : Nat) (k : Desc) (x : Nat) : (walkReads s l k x).powered = s.powered := by
  unfold walkReads
  exact ite_powered rfl (ite_powered (deliver_powered _ _ _ _ _ _) ((deliver_powered _ _ _ _ _ _).trans (deliver_powered _ _ _ _ _ _)))

theorem resolveOne_powered {l d x : Nat} {u : State × Nat} (h : resolveOne s l d x = some u) : u.1.powered = s.powered := by
  unfold resolveOne at h
  extract_lets k hit s1 at h
  have h1 : s1.powered = s.powered := ite_powered rfl (walkReads_powered _ _ _ _)
  split at h
  · cases h
  · rw [← Option.some.inj h]
    exact h1

theorem resolve_powered {l d x : Nat} {u : State × Nat} (h : resolve s l d x = some u) : u.1.powered = s.powered := by
  unfold resolve at h
  split at h
  · cases h
  next s1 p h1 =>
  rw [← Option.some.inj h]
  have hfirst := resolveOne_powered h1
  split
  · next h2 => exact (resolveOne_powered h2).trans hfirst
  · exact hfirst

theorem readShare_powered (l d i : Nat) (cs : List Nat) : ∀ {s : State} {u : State × List (Line × Bool)}, readShare l d i cs s = some u → u.1.powered = s.powered := by
  induction cs with
  | nil =>
    intro s u h
    rw [← Option.some.inj h]
  | cons c cs ih =>
    intro s u h
    unfold readShare at h
    dsimp only at h
    split at h
    · cases h
    next s1 p h1 =>
    split at h
    · next h2 =>
      rw [← Option.some.inj h]
      exact (ih h2).trans ((deliver_powered _ _ _ _ _ _).trans (resolve_powered h1))
    · cases h

theorem readIndices_powered (l d n : Nat) : ∀ {i : Nat} {s : State} {u : State × List (Line × Bool)}, readIndices l d i n s = some u → u.1.powered = s.powered := by
  induction n with
  | zero =>
    intro i s u h
    rw [← Option.some.inj h]
  | succ n ih =>
    intro i s u h
    unfold readIndices at h
    dsimp only at h
    split at h
    · cases h
    next s1 xs h1 =>
    split at h
    · next h2 =>
      rw [← Option.some.inj h]
      exact (ih h2).trans (readShare_powered _ _ _ _ h1)
    · cases h

/-! ### A page goes out -/

theorem injectL_powered (s : State) (l e : Nat) (f : Flit) : (injectL s l e f).powered = s.powered := by
  have hlaunch : ∀ s, (launchL s l e f).powered = s.powered := fun s => countL_powered _ _ _ _
  unfold injectL
  exact ite_powered (ite_powered (hlaunch _) rfl) (hlaunch _)

theorem sendFlits_powered (l e ent : Nat) (fs : List Flit) : ∀ s, (sendFlits l e ent fs s).state.powered = s.powered := by
  induction fs with
  | nil => exact fun _ => rfl
  | cons f fs ih =>
    intro s
    unfold sendFlits
    dsimp only
    split
    · rfl
    · exact (ih _).trans (injectL_powered _ _ _ _)

theorem feedMove_powered (l : Nat) (s : State) : (feedMove l s).powered = s.powered := by
  unfold feedMove
  split
  · next m _ =>
    split
    · next f fs _ =>
      have hsent := sendFlits_powered l 7 32 (f :: fs) s
      split
      · next h =>
        rw [h] at hsent
        exact hsent
      · next h =>
        rw [h] at hsent
        exact hsent
      · rfl
    · rfl
  · rfl

theorem startMove_powered (l : Nat) (s : State) : (startMove l s).powered = s.powered := by
  unfold startMove
  split
  · split
    · rfl
    split
    · exact trapNow_powered _ _ _ _
    · next h => exact (feedMove_powered _ _).trans (readIndices_powered _ _ _ h)
  · rfl

theorem sendPageOut_powered (pn : Nat) (r : Request) (h : Share) (m : PageMove) (todo busy : List PageMove) (s : State) :
    (sendPageOut pn r h m todo busy s).powered = s.powered := (startMove_powered _ _).trans (updPart_powered _ _ _)

/-! ### A page comes back -/

theorem countT_powered (s : State) (t src n : Nat) : (countT s t src n).powered = s.powered := powered_of_unreported (Reports.countT_unreported _ _ _ _)

theorem injectT_powered (s : State) (t : Nat) (f : Flit) : (injectT s t f).powered = s.powered := by
  have hlaunch : ∀ s, (launchT s t f).powered = s.powered := fun s => countT_powered _ _ _ _
  unfold injectT
  exact ite_powered (ite_powered (hlaunch _) rfl) (hlaunch _)

theorem sendT_powered (s : State) (t key : Nat) (f : Flit) : (sendT s t key f).powered = s.powered := by
  unfold sendT
  exact ite_powered rfl (injectT_powered _ _ _)

theorem sendPageBack_powered (pn : Nat) (r : Request) (h : Share) (m : PageMove) (todo busy : List PageMove) (s : State) :
    (sendPageBack pn r h m todo busy s).powered = s.powered := by
  unfold sendPageBack
  exact ite_powered ((forEach_powered _ (fun f s => sendT_powered s _ _ f) _).trans (updPart_powered _ _ _)) ((updPart_powered _ _ _).trans (countT_powered _ _ _ _))

theorem nextPage_powered (pn : Nat) (p : Partition) (r : Request) (s : State) : (nextPage pn p r s).powered = s.powered := by
  unfold nextPage
  dsimp only
  split
  · split
    · split
      · exact sendPageOut_powered _ _ _ _ _ _ _
      · rfl
    · rfl
  · split
    · rfl
    split
    · split
      · exact sendPageBack_powered _ _ _ _ _ _ _
      · rfl
    · rfl
  · rfl

theorem movePages_powered (s : State) : (movePages s).powered = s.powered := by
  unfold movePages
  split
  · rfl
  refine forEach_powered _ (fun e s => forEach_powered _ (fun tag s => ?_) s) s
  split
  · split
    · exact nextPage_powered _ _ _ _
    · rfl
  · rfl

/-! ## The statement -/

/-- The module after the copies and the counters of a nanosecond. -/
def ticked (s : State) : State := forEach (s.lanterns.map (·.1)) (tickLantern (nowNs s)) (moveCopies s)

/-- The module after the moves and the links of a nanosecond, before the time base moves. -/
def elapsed (s : State) : State := zTick (feedAll (movePages (ticked s)))

theorem ticked_standing (s : State) : standing (ticked s) = standing s :=
  (forEach_standing _ (fun l s => tickLantern_standing _ l s) _).trans (moveCopies_standing s)

theorem elapsed_standing_moved (s : State) : standing (elapsed s) = standing (movePages (ticked s)) := (zTick_standing _).trans (feedAll_standing _)

theorem elapsed_shape (s : State) : shape (elapsed s) = shape s := by
  rw [elapsed, zTick_shape, feedAll_shape, movePages_shape, ticked, forEach_shape _ _ _ fun l s => tickLantern_shape _ l s, moveCopies_shape]

theorem elapsed_powered (s : State) : (elapsed s).powered = s.powered :=
  (powered_of_standing (elapsed_standing_moved s)).trans ((movePages_powered _).trans (powered_of_standing (ticked_standing s)))

theorem elapsed_standing (h : nothingMoves s) : standing (elapsed s) = standing s := by
  rw [elapsed_standing_moved, movePages_of_nothing (nothingMoves_of_standing (ticked_standing s) h), ticked_standing]

theorem idle_off (h : s.boot.vaon = false) : idle s = s := by
  unfold idle
  rw [h]
  rfl

theorem idle_on (h : s.boot.vaon = true) : idle s = { elapsed s with now := (elapsed s).now + 1, powered := (elapsed s).powered + 1 } := by
  unfold idle
  rw [h]
  rfl

/-- Settles O2: before VAON is good nothing passes; then what passes leaves the queue, the time base and the powered time, and all that stands while nothing moves. -/
theorem idleStep : Obligations.IdleStep := by
  unfold Obligations.IdleStep
  intro s hs
  have hstep : step s = .next (idle s) := by rw [step, hs]
  rw [hstep]
  refine ⟨fun hoff => by rw [idle_off hoff], fun hon => ⟨_, rfl, ?_⟩⟩
  rw [idle_on hon]
  have hshape := elapsed_shape s
  have hpowered := elapsed_powered s
  have hstands := elapsed_standing (s := s)
  generalize elapsed s = u at hshape hpowered hstands ⊢
  refine ⟨(shape_pending hshape).trans hs, by rw [shape_now hshape], by rw [hpowered], fun hmoves => ?_⟩
  have hu := hstands hmoves
  exact ⟨rest_of_standing hu _ _, fun n => parts_of_standing hu n, fun l => lanterns_of_standing hu l⟩

end Sys2Proof.Idling
end

section
/-!
PROOFS. Sampling (09 R285; 06 Table 6-3): WSMP reads the shortlist KEEP and takes the parameter line, which it writes again with the generator advanced before the
result line.
-/

open Sys2Proof Sys2Proof.Machine

namespace Sys2Proof.SamplingRun

open Sys2Proof.Reports Sys2Proof.ArrayIssue Sys2Proof.EngineRun Sys2Proof.WideRun Sys2Proof.QueueRun Sys2Proof.SendRun

/-- A read of more lines goes on where the first ones end. -/
theorem gather_append {l : Nat} {qs : List LineRead} {t u : State} {e : ReadEnd} {ys : List (Line × Bool)} (rs : List LineRead) :
    ∀ {s : State} {xs : List (Line × Bool)}, gather l rs s = (t, xs, .all) → gather l qs t = (u, ys, e) → gather l (rs ++ qs) s = (u, xs ++ ys, e) := by
  induction rs with
  | nil =>
    intro s xs hrs hqs
    cases hrs
    exact hqs
  | cons r rs ih =>
    intro s xs hrs hqs
    rw [List.cons_append, gather]
    rw [gather] at hrs
    split at hrs
    · cases hrs
    · next hfull =>
      rw [if_neg hfull]
      split at hrs
      · cases hrs
      · dsimp only at hrs ⊢
        rcases hg : gather l rs (readPad s l r.addr r.take).1 with ⟨v, zs, f⟩
        rw [hg] at hrs
        cases hrs
        rw [ih hg hqs]
        rfl

section
variable {l : Nat} {f : FmtL} {s : State} {w : Word} {a b d k n : Nat}

/-- What WSMP names in SC, and its places. -/
structure Places (l : Nat) (f : FmtL) (s : State) (w : Word) (a b d k n : Nat) : Prop where
  sc : w = getReg (getL s l) f.sc
  first : a = f.a.toNat + w.toNat / 2 ^ 48
  second : b = f.b.toNat + w.toNat / 2 ^ 48
  place : d = f.d.toNat + w.toNat / 2 ^ 48
  count : k = w.toNat % 2 ^ 9
  lines : n = linesFor k 17

/-- The token, its log-probability and their poison, from the shortlist and the parameter line. -/
def sampled (k : Nat) (ids vals : List (Line × Bool)) (par : Line × Bool) : BitVec 32 × Nat × Nat :=
  let q := Config.wsmpParams par.1
  sampleToken q.1 q.2.1 q.2.2.1 q.2.2.2.1 q.2.2.2.2.1 q.2.2.2.2.2 (shortlist k ids vals)

/-- The poison of a sample: that of its operands. -/
def sampleBad (ids vals : List (Line × Bool)) (par : Line × Bool) : Bool := par.2 || ids.any (·.2) || vals.any (·.2)

/-- The result line of WSMP (06 Table 6-3). -/
def sampleLine (k : Nat) (ids vals : List (Line × Bool)) (par : Line × Bool) : Line × Bool :=
  (BitVec.ofNat 544 ((sampled k ids vals par).1.toNat + (sampled k ids vals par).2.1 * 2 ^ 32 + (if sampleBad ids vals par then 2 ^ 48 else 0)), sampleBad ids vals par)

theorem tryWsmp_passed (hr : Takes l (.wsmp l f) s) (h : Places l f s w a b d k n) (hz : w.toNat % 2 ^ 48 < 2 ^ 9) (hlo : 1 ≤ k) (hhi : k ≤ 256)
    (ha : rangeOk (getL s l) a (2 * n) = true) (hb : rangeOk (getL s l) b 1 = true) (hd : rangeOk (getL s l) d 1 = true) :
    tryWsmp l f (passed l s) = pushOp l 2 (.wsmp a b d k) (.wsmp l f) (passed l s) := by
  obtain ⟨rfl, rfl, rfl, rfl, hk, rfl⟩ := h
  rw [← bitsAt_zero] at hk
  subst hk
  exact withSc_passes hr (passes_cons (scZero_passes hz) <| passes_cons (paramCheck_passes hlo hhi) <| passes_cons (lineCheck_passes ha) <|
    passes_cons (lineCheck_passes hb) <| passes_cons (lineCheck_passes hd) passes_nil)

/-- The parameter line of WSMP; the scratchpad once it is taken, and with the line of the next draw in its place. -/
def parLine (L : Lantern) (b : Nat) : Line × Bool := ((padAt L b).data, (padAt L b).poison)
def withoutLine (L : Lantern) (b : Nat) : Lantern := { L with pad := tset {} L.pad b {} }
def withNextDraw (L : Lantern) (b : Nat) (par : Line × Bool) : Lantern := { L with pad := tset {} L.pad b ⟨Config.wsmpAdvance par.1, true, par.2, false, 0xA⟩ }

/-- The shortlist is read KEEP and the parameter line TAKE. -/
theorem gather_wsmp {e : Nat} {g : Engine} {t : State} (h : Busy l e (getL s l) g s t) (hn : n = linesFor k 17) (hs : soundLines (getL s l) a (2 * n))
    (hza : hazard s l a n 10 = none) (hzv : hazard s l (a + n) n 7 = none) (hb : soundLines (getL s l) b 1) :
    ∃ u, gather l (opReads (.wsmp a b d k)) t
        = (u, linesAt (getL s l) a n ++ (linesAt (getL s l) (a + n) n ++ [parLine (getL s l) b]), .all)
      ∧ Busy l e (withoutLine (getL s l) b) g s u := by
  subst hn
  have hids : ∀ r ∈ keepReads a (linesFor k 17) 10, ReadsSound s l r := readsSound_keepReads (fun i hi => hs i (by omega)) hza
  have hvals : ∀ r ∈ keepReads (a + linesFor k 17) (linesFor k 17) 7, ReadsSound s l r :=
    readsSound_keepReads (fun i hi => by rw [Nat.add_assoc]; exact hs _ (by omega)) hzv
  obtain ⟨u, hlist, hu⟩ := gather_keep h rfl (List.forall_mem_append.2 ⟨hids, hvals⟩)
  rw [linesOf_keepReads_append] at hlist
  obtain ⟨v, hpar, hv⟩ := busy_readPad hu (a := b) (hb 0 Nat.one_pos).2 true
  rw [taken_true] at hv
  have hline : gather l [⟨b, true, none⟩] u = (v, [parLine (getL s l) b], .all) := by
    have hfull : (padAt (getL u l) b).full = true := (congrArg PadLine.full (hu.padAt b)).trans (hb 0 Nat.one_pos).1
    simp [gather, hfull, hpar, parLine]
  refine ⟨v, ?_, hv⟩
  rw [← List.append_assoc]
  exact gather_append _ hlist hline

theorem runWsmp_emits {e : Nat} {L : Lantern} {g : Engine} {t : State} (h : Busy l e L g s t) {ids vals : List (Line × Bool)} (par : Line × Bool)
    (hids : ids.length = linesFor k 17) (hvals : vals.length = linesFor k 17) :
    ∃ u, runWsmp l b d k (ids ++ (vals ++ [par])) t = .more (.emit d (resultLines [sampleLine k ids vals par] 10)) u
      ∧ Busy l e (withNextDraw L b par) g s u := by
  have hpar : nthLine (ids ++ (vals ++ [par])) (2 * linesFor k 17) = par := by
    rw [nthLine, ← List.append_assoc, List.getD_append_right _ _ _ _ (by simp [hids, hvals, Nat.two_mul])]
    simp [hids, hvals, Nat.two_mul]
  have hcounted : Busy l e L g s (if marginEvent (headMargin (countL (countL t l 0x34 1) l 0x28 (sampled k ids vals par).2.2) l) k vals
      then countL (countL (countL t l 0x34 1) l 0x28 (sampled k ids vals par).2.2) l 0x0F 1
      else countL (countL t l 0x34 1) l 0x28 (sampled k ids vals par).2.2) := by
    have h2 := busy_countL (busy_countL h 0x34 1) 0x28 (sampled k ids vals par).2.2
    split
    · exact busy_countL h2 0x0F 1
    · exact h2
  refine ⟨_, ?_, busy_writePad hcounted b (Config.wsmpAdvance par.1) par.2 0xA⟩
  unfold runWsmp
  simp only [hpar, List.take_left' hids, List.drop_left' hids, List.take_left' hvals]
  rfl

theorem padAt_withNextDraw_other {L : Lantern} {b d : Nat} (par : Line × Bool) (h : d ≠ b) : padAt (withNextDraw (withoutLine L b) b par) d = padAt L d :=
  (padAt_putLine_other (K := withoutLine L b) _ h).trans (padAt_putLine_other (K := L) {} h)

theorem exec_wsmp_writes (hr : Runs l 2 (.wsmp l f) s) (h : Places l f s w a b d k n) (hz : w.toNat % 2 ^ 48 < 2 ^ 9) (hlo : 1 ≤ k) (hhi : k ≤ 256)
    (hra : rangeOk (getL s l) a (2 * n) = true) (hsa : soundLines (getL s l) a (2 * n)) (hzi : hazard s l a n 10 = none) (hzv : hazard s l (a + n) n 7 = none)
    (hrb : rangeOk (getL s l) b 1 = true) (hsb : soundLines (getL s l) b 1) (hrd : rangeOk (getL s l) d 1 = true) (hfree : freeLines (getL s l) d 1)
    (hdb : d ≠ b) :
    ∃ t, exec (.wsmp l f) s = .next t ∧ Became l 2 (wrote (withNextDraw (withoutLine (getL s l) b) b (parLine (getL s l) b)) d
      (resultLines [sampleLine k (linesAt (getL s l) a n) (linesAt (getL s l) (a + n) n) (parLine (getL s l) b)] 10)) s t := by
  refine exec_engine (exec_wsmp l f s) hr (tryWsmp_passed hr.takes h hz hlo hhi hra hrb hrd) ?_
  refine finishes_more (by decide) (fun t ht => ?_) (finishes_emit (by decide) rfl ?_)
  · obtain ⟨v, hread, hv⟩ := gather_wsmp (d := d) ht h.lines hsa hzi hzv hsb
    obtain ⟨u, hmore, hu⟩ := runWsmp_emits (b := b) (d := d) hv (parLine (getL s l) b) ((length_linesAt _ _ _).trans h.lines) ((length_linesAt _ _ _).trans h.lines)
    refine ⟨v, linesAt (getL s l) a n ++ (linesAt (getL s l) (a + n) n ++ [parLine (getL s l) b]), u, ?_, ?_, hu⟩
    · show gather l (List.drop 0 (opReads (.wsmp a b d k))) t = _
      rw [List.drop_zero, hread]
    · show runWsmp l b d k ([] ++ _) v = _
      rw [List.nil_append, hmore]
  · intro i hi
    obtain rfl : i = 0 := Nat.lt_one_iff.1 hi
    rw [Nat.add_zero, padAt_withNextDraw_other _ hdb]
    exact hfree 0 Nat.one_pos

end

/-- Settles O21: the shortlist kept, the parameter line taken and written again, and the token's line written. -/
theorem wideSampling : Obligations.WideSampling := by
  unfold Obligations.WideSampling
  rintro l f s w a b d k n _ _ _ _ _ _ hw ha hb hd hk hn hr hz hlo hhi hra hsa hzi hzv hrb hsb hrd hfree hdb - rfl rfl rfl rfl rfl rfl
  obtain ⟨t, hexec, ht⟩ := exec_wsmp_writes hr ⟨hw, ha, hb, hd, hk, hn⟩ hz hlo hhi hra hsa hzi hzv hrb hsb hrd hfree hdb
  refine ⟨t, hexec, ?_⟩
  simp only [wrote, withNextDraw, withoutLine, parLine, sampleLine, sampled, sampleBad, resultLines, List.map, putLines] at ht
  exact ht

end Sys2Proof.SamplingRun
end

section
/-!
PROOFS. 09 R261, R264 to R266, R271, R272, R275: what turns a command away before it does anything: its queue's turn, a Lamplighter that restarts, its opcode, the
function that issues it, the number and the state of its partition.
-/

open Sys2Proof Sys2Proof.Machine

namespace Sys2Proof.TurnedAway

open Sys2Proof.Take

section
variable {e : Entry} {q : Qp} {s : State} {c : Instr} {body : Nat → State → Done}

/-! ## Commands that are not fetched (R264 to R266; 11 R357) -/

theorem takeCmd_of_not_canTake (body : Nat → State → Done) (h : canTake s e = false) : takeCmd e body s = s := by
  unfold takeCmd
  split
  · rfl
  · rw [h]
    rfl

theorem passBy_of_not_canTake (h : canTake s e = false) : passBy e s = s := if_neg (by simp [h])

theorem takeLamp_of_not_canTake (body : Nat → State → Done) (h : canTake s e = false) : takeLamp e body s = s := by
  unfold takeLamp
  split
  · exact passBy_of_not_canTake h
  · exact takeCmd_of_not_canTake body h

theorem takeLamp_restarting (body : Nat → State → Done) (h : s.sec.restarting = true) : takeLamp e body s = passBy e s := if_pos h

theorem settled_next (hn : entryOk e = true) (t : State) : settled (entryOk e) t = .next (settle t) := by
  unfold settled
  rw [hn, guarded_true]

theorem exec_not_fetched (hexec : exec c s = settled (entryOk e) (takeCmd e body s)) (hn : entryOk e = true) (h : canTake s e = false) :
    exec c s = .next (settle s) := by
  rw [hexec, takeCmd_of_not_canTake body h, settled_next hn]

theorem exec_lamp_not_fetched (hexec : exec c s = settled (entryOk e) (takeLamp e body s)) (hn : entryOk e = true) (h : canTake s e = false) :
    exec c s = .next (settle s) := by
  rw [hexec, takeLamp_of_not_canTake body h, settled_next hn]

theorem exec_passed_by (hexec : exec c s = settled (entryOk e) (takeLamp e body s)) (hn : entryOk e = true) (h : s.sec.restarting = true) :
    exec c s = .next (settle (if canTake s e then { s with visit := queueKey e.fn e.sqid } else s)) := by
  rw [hexec, takeLamp_restarting body h, settled_next hn]
  rfl

/-- While the Lamplighter runs, a command that needs it is taken as any other. -/
theorem exec_lamp_running (hr : s.sec.restarting = false) (hexec : exec c s = settled (entryOk e) (takeLamp e body s)) :
    exec c s = settled (entryOk e) (takeCmd e body s) := by
  rw [hexec, takeLamp_running body hr]

/-! ## Commands that are fetched and refused (R261, R271, R272, R275) -/

/-- A command whose body fails with a status and does nothing. -/
theorem exec_refused {st d : Nat} (hf : Fetches e q s) (hexec : exec c s = settled (entryOk e) (takeCmd e body s))
    (hb : body (nextHead q) (fetched e q s) = (fetched e q s, some ⟨st, 0, d⟩)) : exec c s = .next (answered e q st 0 d (fetched e q s)) :=
  hexec.trans (taken_answers hf hb)

theorem pfCmd_of_not_isPf (k : State → Done) (h : isPf e = false) : pfCmd e k s = fails stPermit s := if_neg (by simp [h])

theorem exec_pf_permission {k : Nat → State → Done} (hf : Fetches e q s) (h : isPf e = false)
    (hexec : exec c s = settled (entryOk e) (takeCmd e (fun n => pfCmd e (k n)) s)) : exec c s = .next (answered e q 0x03 0 0 (fetched e q s)) :=
  exec_refused hf hexec (pfCmd_of_not_isPf _ h)

section
variable {who : Issuer} {states : PState → Bool} {k : Nat → Partition → State → Done} (hf : Fetches e q s)
  (hexec : exec c s = settled (entryOk e) (takeCmd e (fun n => partCmd who states e (k n)) s))
include hf hexec

theorem exec_permission (h : mayIssue s e who = false) : exec c s = .next (answered e q 0x03 0 0 (fetched e q s)) :=
  exec_refused hf hexec (by rw [partCmd, mayIssue_fetched, h]; rfl)

variable (hm : mayIssue s e who = true)
include hm

theorem exec_part_number (hn : 16 ≤ partNo e) : exec c s = .next (answered e q 0x02 0 4 (fetched e q s)) :=
  exec_refused hf hexec (by rw [partCmd, mayIssue_fetched, hm, if_pos hn]; rfl)

variable (hn : partNo e < 16)
include hn

theorem exec_part_absent (hp : getPart s (partNo e) = none) : exec c s = .next (answered e q 0x07 0 0 (fetched e q s)) :=
  exec_refused hf hexec (by rw [partCmd, mayIssue_fetched, hm, if_neg (Nat.not_le.2 hn), getPart_fetched, hp]; rfl)

theorem exec_part_state {p : Partition} (hp : getPart s (partNo e) = some p) (hst : states p.state = false) :
    exec c s = .next (answered e q 0x07 0 0 (fetched e q s)) :=
  exec_refused hf hexec (by rw [partCmd, mayIssue_fetched, hm, if_neg (Nat.not_le.2 hn), getPart_fetched, hp]; exact if_neg (Bool.not_eq_true _ ▸ hst))

end

theorem mayIssue_pfBound_of_pf (h : isPf e = true) : mayIssue s e .pfBound = true := mayIssue_pfBound (.inl h)
theorem mayIssue_pfBound_false (hp : isPf e = false) (hb : isBound s e = false) : mayIssue s e .pfBound = false := Bool.or_eq_false_iff.2 ⟨hp, hb⟩

/-! ## Opcodes that Table 9-5 does not list (R272) -/

theorem exec_opcode_unlisted {op : Byte} (h : opcodeAssigned op.toNat = false) :
    exec (.unassignedOpcode e op) s = settled (entryOk e) (takeCmd e (fun _ => fails stOpcode) s) :=
  congrArg (settled (entryOk e)) (if_neg (Bool.not_eq_true _ ▸ h))

theorem exec_opcode_listed {op : Byte} (hn : entryOk e = true) (h : opcodeAssigned op.toNat = true) : exec (.unassignedOpcode e op) s = .next (settle s) :=
  (congrArg (settled (entryOk e)) (if_pos h)).trans (settled_next hn s)

theorem exec_opcode_not_fetched (op : Byte) (hn : entryOk e = true) (h : canTake s e = false) : exec (.unassignedOpcode e op) s = .next (settle s) := by
  cases hop : opcodeAssigned op.toNat
  · exact exec_not_fetched (exec_opcode_unlisted hop) hn h
  · exact exec_opcode_listed hn hop

/-! ## PART_CREATE and PART_START, which look at more first (09 R274, R277) -/

theorem exec_partCreate_permission (hf : Fetches e q s) (hr : s.sec.restarting = false) (h : isPf e = false) :
    exec (.partCreate e) s = .next (answered e q 0x03 0 0 (fetched e q s)) :=
  exec_refused hf (exec_lamp_running hr rfl) (by simp only [partCreate, h, Bool.not_false, if_true]; rfl)

/-- PART_START waits for the domains of a partition that is LOADED; otherwise it is taken as any other. -/
theorem exec_partStart_taken (h : startWaits s e = false) : exec (.partStart e) s = settled (entryOk e) (takeCmd e (fun _ => partStart e) s) := by
  show settled (entryOk e) (if startWaits s e then passBy e s else takeCmd e (fun _ => partStart e) s) = _
  rw [h]
  rfl

theorem startWaits_absent (hp : getPart s (partNo e) = none) : startWaits s e = false := by rw [startWaits, hp]
theorem startWaits_faulted {p : Partition} (hp : getPart s (partNo e) = some p) (hst : p.state = .faulted) : startWaits s e = false := by
  rw [startWaits, hp]
  simp [hst]

end

/-- Settles O53: each list of commands is turned away by the rule of its first check that fails. -/
theorem commandsTurnedAway : Obligations.CommandsTurnedAway := by
  unfold Obligations.CommandsTurnedAway
  simp only [List.forall_mem_cons]
  intro e op s
  refine ⟨fun hn h => ?_, fun hn hr => ?_, ?_⟩
  · have cmd {c body} (hexec : exec c s = settled (entryOk e) (takeCmd e body s)) := exec_not_fetched hexec hn h
    exact ⟨cmd rfl, cmd rfl, cmd rfl, cmd rfl, cmd rfl, cmd rfl, cmd rfl, cmd rfl, cmd rfl, cmd rfl, cmd rfl, cmd rfl, cmd rfl,
      exec_lamp_not_fetched rfl hn h, exec_opcode_not_fetched op hn h, List.forall_mem_nil _⟩
  · have lamp {c body} (hexec : exec c s = settled (entryOk e) (takeLamp e body s)) := exec_passed_by hexec hn hr
    exact ⟨lamp rfl, lamp rfl, lamp rfl, lamp rfl, lamp rfl, lamp rfl, lamp rfl, lamp rfl, lamp rfl, List.forall_mem_nil _⟩
  rintro q _ hf rfl
  refine ⟨?_, ?_, fun hp => ?_, fun hp hr => ?_, fun hp hb => ?_, fun hp hb hr => ?_, fun hb => ?_, fun hb hr => ?_, fun hp hn => ?_, fun hp hn hg => ?_,
    fun p hp hn hg hst => ?_, fun p hb hn hg hst => ?_⟩
  · exact fun hop => exec_refused hf (exec_opcode_unlisted hop) rfl
  · exact exec_opcode_listed hf.names
  · have pf {c k} hexec := exec_pf_permission (c := c) (k := k) hf hp hexec
    have part {c states k} hexec := exec_permission (c := c) (who := .pf) (states := states) (k := k) hf hexec hp
    exact ⟨pf rfl, pf rfl, part rfl, pf rfl, pf rfl, pf rfl, pf rfl, pf rfl, part rfl, List.forall_mem_nil _⟩
  · exact ⟨exec_partCreate_permission hf hr hp, exec_permission (who := .pf) hf (exec_lamp_running hr rfl) hp,
      exec_pf_permission hf hp (exec_lamp_running hr rfl), List.forall_mem_nil _⟩
  · have part {c states k} hexec := exec_permission (c := c) (who := .pfBound) (states := states) (k := k) hf hexec (mayIssue_pfBound_false hp hb)
    exact ⟨part rfl, part rfl, part rfl, part rfl, part rfl, part rfl, part rfl, part rfl, part rfl, List.forall_mem_nil _⟩
  · have part {c states k} hexec :=
      exec_permission (c := c) (who := .pfBound) (states := states) (k := k) hf (exec_lamp_running hr hexec) (mayIssue_pfBound_false hp hb)
    exact ⟨part rfl, part rfl, part rfl, part rfl, List.forall_mem_nil _⟩
  · have part {c states k} hexec := exec_permission (c := c) (who := .bound) (states := states) (k := k) hf hexec hb
    exact ⟨part rfl, part rfl, part rfl, part rfl, part rfl, part rfl, List.forall_mem_nil _⟩
  · have part {c states k} hexec := exec_permission (c := c) (who := .bound) (states := states) (k := k) hf (exec_lamp_running hr hexec) hb
    exact ⟨part rfl, part rfl, List.forall_mem_nil _⟩
  · have pf {c states k} hexec := exec_part_number (c := c) (who := .pf) (states := states) (k := k) hf hexec hp hn
    have part {c states k} hexec := exec_part_number (c := c) (who := .pfBound) (states := states) (k := k) hf hexec (mayIssue_pfBound_of_pf hp) hn
    exact ⟨pf rfl, part rfl, part rfl, part rfl, part rfl, part rfl, part rfl, part rfl, part rfl, part rfl, pf rfl, List.forall_mem_nil _⟩
  · have pf {c states k} hexec := exec_part_absent (c := c) (who := .pf) (states := states) (k := k) hf hexec hp hn hg
    have part {c states k} hexec := exec_part_absent (c := c) (who := .pfBound) (states := states) (k := k) hf hexec (mayIssue_pfBound_of_pf hp) hn hg
    exact ⟨pf rfl, part (exec_partStart_taken (startWaits_absent hg)), part rfl, part rfl, part rfl, part rfl, part rfl, part rfl, part rfl, part rfl, part rfl,
      pf rfl, List.forall_mem_nil _⟩
  · have pf {c states k} hexec (hno : states .faulted = false) := exec_part_state (c := c) (who := .pf) (states := states) (k := k) hf hexec hp hn hg (hst ▸ hno)
    have part {c states k} hexec (hno : states .faulted = false) :=
      exec_part_state (c := c) (who := .pfBound) (states := states) (k := k) hf hexec (mayIssue_pfBound_of_pf hp) hn hg (hst ▸ hno)
    exact ⟨pf rfl rfl, part (exec_partStart_taken (startWaits_faulted hg hst)) rfl, part rfl rfl, part rfl rfl, part rfl rfl, part rfl rfl, part rfl rfl,
      part rfl rfl, part rfl rfl, pf rfl rfl, List.forall_mem_nil _⟩
  · have part {c states k} hexec (hno : states .loaded = false) := exec_part_state (c := c) (who := .bound) (states := states) (k := k) hf hexec hb hn hg (hst ▸ hno)
    exact ⟨part rfl rfl, part rfl rfl, part rfl rfl, part rfl rfl, List.forall_mem_nil _⟩

end Sys2Proof.TurnedAway
end

section
/-!
PROOFS. Commands on requests and contexts (09 R278 to R280, R289 to R294, R296; 10 R323, R324): one rule for each way in which such a command, fetched and clean,
completes, waits or takes its slot.
-/

open Sys2Proof Sys2Proof.Machine

namespace Sys2Proof.RequestCommands

open Sys2Proof.Take Sys2Proof.Reports Sys2Proof.TurnedAway

variable {e : Entry} {q : Qp} {s : State} {p : Partition}

theorem mayIssue_bound (h : isBound s e = true) : mayIssue s e .bound = true := h

theorem liveCtx_fetched (n : Nat) (tag : BitVec 64) : liveCtx (fetched e q s) n tag = liveCtx s n tag := rfl

/-! ## SUBMIT (09 R278 to R280) -/

/-- What block d submits to a partition, and the context that it resumes. -/
structure Submits (e : Entry) (s : State) (p : Partition) (d : List Byte) (g : Program) (c : Option Context) : Prop where
  part : partNo e < 16
  holds : getPart s (partNo e) = some p
  bound : isBound s e = true
  serving : p.state = .serving
  clean : Clean e true []
  data : ∃ d0, e.data = some d0 ∧ d = padTo (dlenOf e) d0
  prog : p.prog = some g
  head : 256 ≤ dlenOf e
  ctx : c = if modeBit d 3 then liveCtx s (partNo e) (ctxHandle d) else none

section
variable {d : List Byte} {g : Program} {c : Option Context} (hf : Fetches e q s) (h : Submits e s p d g c)
include h

/-- A block without the resume bit names no context, and so no positions. -/
theorem positions_resumed : (if modeBit d 3 then resumedPositions c else 0) = resumedPositions c := by
  split
  · rfl
  · next hm => rw [h.ctx, if_neg hm]; rfl

theorem submit_checks (hd : Nat) :
    submit e hd (fetched e q s) = if dlenOf e ≠ 256 + 4 * promptLen d then failsField 16 (fetched e q s)
      else (blockFault g d (resumedPositions c)).elim (enterOrRefuse e hd (partNo e) p g d c (fetched e q s)) (failsData · (fetched e q s)) := by
  obtain ⟨hn, hp, hb, hst, hc, ⟨d0, hd0, rfl⟩, hg, hlen, rfl⟩ := h
  unfold submit
  dsimp only
  rw [partCmd_fetched _ (mayIssue_bound hb) hn hp (by rw [hst]; rfl), fieldsThen_none _ (entryFault_none hc (by simpa using hlen) (by simp)), withData_some _ hd0, hg]
  simp only [liveCtx_fetched]
  generalize blockFault g _ _ = x
  cases x <;> rfl

section
variable (hlen : dlenOf e = 256 + 4 * promptLen d) (hblock : blockFault g d (resumedPositions c) = none)
include hlen hblock

theorem submit_enters (hd : Nat) : submit e hd (fetched e q s) = enterOrRefuse e hd (partNo e) p g d c (fetched e q s) := by
  rw [submit_checks h, if_neg (not_not.2 hlen), hblock, Option.elim_none]

include hf

theorem exec_submit_refused {st : Nat} (hr : enterOrRefuse e (nextHead q) (partNo e) p g d c (fetched e q s) = fails st (fetched e q s)) :
    exec (.submit e) s = .next (answered e q st 0 0 (fetched e q s)) := taken_answers hf ((submit_enters h hlen hblock _).trans hr)

end

include hf

theorem exec_submit_length (hlen : dlenOf e ≠ 256 + 4 * promptLen d) : exec (.submit e) s = .next (answered e q 0x02 0 16 (fetched e q s)) :=
  taken_answers hf (by rw [submit_checks h, if_pos hlen]; rfl)

theorem exec_submit_block {off : Nat} (hlen : dlenOf e = 256 + 4 * promptLen d) (hblock : blockFault g d (resumedPositions c) = some off) :
    exec (.submit e) s = .next (answered e q 0x02 0 (2 ^ 31 + off) (fetched e q s)) :=
  taken_answers hf (by rw [submit_checks h, if_neg (not_not.2 hlen), hblock]; rfl)

end

/-! ### The checks of R279 from step 3 on -/

section
variable {hd n : Nat} {g : Program} {d : List Byte} {c : Option Context} {t : State}

/-- A request in flight has the tag or the runnel of the block. -/
def taken (p : Partition) (d : List Byte) : Bool := p.reqs.any (fun r => r.tag.toNat == fieldAt d 0 8 || r.rn == fieldAt d 16 2)

theorem taken_iff : taken p d = true ↔ ∃ r, r ∈ p.reqs ∧ (r.tag.toNat = fieldAt d 0 8 ∨ r.rn = fieldAt d 16 2) := by simp [taken]

theorem taken_false (h : ∀ r, r ∈ p.reqs → r.tag.toNat ≠ fieldAt d 0 8 ∧ r.rn ≠ fieldAt d 16 2) : taken p d = false := by
  rw [Bool.eq_false_iff]
  rintro ht
  obtain ⟨r, hr, hsame⟩ := taken_iff.1 ht
  exact hsame.elim (h r hr).1 (h r hr).2

theorem enter_duplicate (h : taken p d = true) : enterOrRefuse e hd n p g d c t = fails stDuplicate t := if_pos h

section
variable (hfree : taken p d = false)
include hfree

theorem enter_adapter {st : Nat} (ha : bindAdapter p d c = .inr st) : enterOrRefuse e hd n p g d c t = fails st t := by
  unfold enterOrRefuse
  rw [show p.reqs.any _ = false from hfree, ha]
  rfl

variable {a : Nat} (ha : bindAdapter p d c = .inl a)
include ha

theorem enter_noContext (hm : modeBit d 3 = true) (hc : c = none) : enterOrRefuse e hd n p g d c t = fails stNotFound t := by
  subst hc
  unfold enterOrRefuse
  rw [show p.reqs.any _ = false from hfree, ha, hm]
  rfl

theorem enter_layout {x : Context} (hm : modeBit d 3 = true) (hc : c = some x) (hx : x.layout ≠ g.clayout ∨ x.wset ≠ p.wset.plain.getD 0) :
    enterOrRefuse e hd n p g d c t = fails stLayout t := by
  subst hc
  unfold enterOrRefuse
  simp only [show p.reqs.any _ = false from hfree, ha, hm, if_true, if_pos hx]
  rfl

/-- The context, if one is resumed, is there and of the program's layout and weight set. -/
def ContextFits (p : Partition) (g : Program) (d : List Byte) (c : Option Context) : Prop :=
  modeBit d 3 = true → c.map (fun x => (x.layout, x.wset)) = some (g.clayout, p.wset.plain.getD 0)

variable (hfit : ContextFits p g d c)
include hfit

/-- The request takes its slot and its shares, and its prompt enters the mesh. -/
def entered (e : Entry) (n : Nat) (p : Partition) (d : List Byte) (c : Option Context) (t : State) (r : Request) : State :=
  sendPrompt n p r.tag (promptLen d + (if r.resume then 1 else 0)) (enterRequest e n r c t)

theorem enter_fits {pos : Nat} (hpos : (if modeBit d 3 then resumedPositions c else 0) = pos) :
    enterOrRefuse e hd n p g d c t = if 1024 ≤ p.reqs.length ∨ 4096 ≤ reqsInFlight t then fails stSlot t
      else (admitShares t p g.clayout c (pos + promptLen d + fieldAt d 24 4 + 9)).elim (fails stCache t) (fun shares => later (entered e n p d c t
        (newRequest e hd d pos a t.seqTag shares c (ownersOf t (BitVec.ofNat 64 (fieldAt d 0 8)) pos (promptLen d))))) := by
  unfold enterOrRefuse
  dsimp only
  rw [show p.reqs.any _ = false from hfree, ha, hpos]
  by_cases hm : modeBit d 3 = true
  · obtain ⟨x, rfl, hx⟩ := Option.map_eq_some_iff.1 (hfit hm)
    obtain ⟨hl, hw⟩ := Prod.mk.inj hx
    simp only [if_pos hm, hl, hw, ne_eq, not_true_eq_false, or_self, if_false]
    cases hx : admitShares t p g.clayout (some x) (pos + promptLen d + fieldAt d 24 4 + 9) <;> rfl
  · simp only [if_neg hm]
    cases hx : admitShares t p g.clayout c (pos + promptLen d + fieldAt d 24 4 + 9) <;> rfl

theorem enter_noSlot (hfull : 1024 ≤ p.reqs.length ∨ 4096 ≤ reqsInFlight t) : enterOrRefuse e hd n p g d c t = fails stSlot t := by
  rw [enter_fits hfree ha hfit rfl, if_pos hfull]

end
end

/-! ### The command -/

section
variable {d : List Byte} {g : Program} {c : Option Context} {a : Nat} (hf : Fetches e q s) (h : Submits e s p d g c)
  (hlen : dlenOf e = 256 + 4 * promptLen d) (hblock : blockFault g d (resumedPositions c) = none) (hfree : taken p d = false)
  (ha : bindAdapter p d c = .inl a) (hfit : ContextFits p g d c)
include hf h hlen hblock hfree ha hfit

theorem exec_submit_noSlot (hfull : 1024 ≤ p.reqs.length ∨ 4096 ≤ reqsInFlight s) : exec (.submit e) s = .next (answered e q 0x0A 0 0 (fetched e q s)) :=
  exec_submit_refused hf h hlen hblock (enter_noSlot hfree ha hfit hfull)

variable (hslot : p.reqs.length < 1024) (hroom : reqsInFlight s < 4096)
include hslot hroom

omit hf in
theorem submit_reserves (hd : Nat) :
    submit e hd (fetched e q s) = (admitShares (fetched e q s) p g.clayout c (resumedPositions c + promptLen d + fieldAt d 24 4 + 9)).elim
      (fails stCache (fetched e q s)) (fun shares => later (entered e (partNo e) p d c (fetched e q s) (newRequest e hd d (resumedPositions c) a s.seqTag shares c
        (ownersOf (fetched e q s) (BitVec.ofNat 64 (fieldAt d 0 8)) (resumedPositions c) (promptLen d))))) := by
  have hnot : ¬ (1024 ≤ p.reqs.length ∨ 4096 ≤ reqsInFlight (fetched e q s)) := fun hor => hor.elim (Nat.not_le.2 hslot) (Nat.not_le.2 hroom)
  rw [submit_enters h hlen hblock, enter_fits hfree ha hfit (positions_resumed h), if_neg hnot]
  rfl

theorem exec_submit_noCache
    (hx : admitShares (fetched e q s) p g.clayout c (resumedPositions c + promptLen d + fieldAt d 24 4 + 9) = none) :
    exec (.submit e) s = .next (answered e q 0x0B 0 0 (fetched e q s)) :=
  taken_answers hf (by rw [submit_reserves h hlen hblock hfree ha hfit hslot hroom, hx]; rfl)

theorem exec_submit_enters {shares : List Share}
    (hx : admitShares (fetched e q s) p g.clayout c (resumedPositions c + promptLen d + fieldAt d 24 4 + 9) = some shares) :
    exec (.submit e) s = .next (settle (entered e (partNo e) p d c (fetched e q s) (newRequest e (nextHead q) d (resumedPositions c) a s.seqTag shares c
      (ownersOf (fetched e q s) (BitVec.ofNat 64 (fieldAt d 0 8)) (resumedPositions c) (promptLen d))))) :=
  taken_later hf (by rw [submit_reserves h hlen hblock hfree ha hfit hslot hroom, hx]; rfl)

end

/-! ## Commands of the function bound to the partition (R261, R275) -/

section
variable {states : PState → Bool} {used : List (Nat × Nat)} {lenBad : Bool} {bads : List (Nat × Bool)} {k : Partition → State → Done}

/-- A clean command of the bound function, in a state that allows it, does its work. -/
theorem bound_passes (hn : partNo e < 16) (hp : getPart s (partNo e) = some p) (hb : isBound s e = true) (hst : states p.state = true) (hc : Clean e true used)
    (hl : lenBad = false) (hbads : ∀ c ∈ bads, c.2 = false) :
    partCmd .bound states e (fun p => fieldsThen (entryFault e true used lenBad bads) (k p)) (fetched e q s) = k p (fetched e q s) := by
  rw [partCmd_fetched _ (mayIssue_bound hb) hn hp hst, fieldsThen_none _ (entryFault_none hc hl hbads)]

end

/-! ## CANCEL, REQ_QUERY, PAUSE (09 R289, R290) -/

/-- The status of a tag with no request in flight. -/
theorem goneTag_eq (p : Partition) (tag : BitVec 64) (t : State) : goneTag p tag t = fails (if tag ∈ p.doneTags then 0x0E else 0x0D) t := by
  unfold goneTag
  by_cases h : tag ∈ p.doneTags <;> simp [h, stComplete, stNotFound]

theorem requestState_of (h : p.state = .serving ∨ p.state = .draining ∨ p.state = .faulted) : requestState p.state = true := by
  rcases h with h | h | h <;> rw [h] <;> rfl

theorem servingState_of (h : p.state = .serving ∨ p.state = .draining) : servingState p.state = true := by
  rcases h with h | h <;> rw [h] <;> rfl

/-- What REQ_QUERY answers of a request. -/
def progress (r : Request) : Nat :=
  (Config.reqStateCode (stateCode r.state)).toNat + (if drafting r then 256 else 0) + r.delivered % 2 ^ 32 * 2 ^ 32 + r.written.toNat * 2 ^ 64

section
variable (hf : Fetches e q s) (hn : partNo e < 16) (hp : getPart s (partNo e) = some p) (hb : isBound s e = true)
include hf hn hp hb

section
variable (hst : p.state = .serving ∨ p.state = .draining ∨ p.state = .faulted) (hc : Clean e true [(24, 8)]) (hl : dlenOf e = 0)
include hst hc hl

theorem exec_cancel_waits {r : Request} (hr : findReq p (tagOf e) = some r) :
    exec (.cancel e) s = .next (awaited e q (.cancel (partNo e) (tagOf e)) (endBy (partNo e) (tagOf e) stCancelled 0 (fetched e q s))) := by
  refine taken_waits hf ((bound_passes hn hp hb (requestState_of hst) hc (by simp [hl]) (by simp)).trans ?_)
  rw [hr]

theorem exec_cancel_gone (hr : findReq p (tagOf e) = none) :
    exec (.cancel e) s = .next (answered e q (if tagOf e ∈ p.doneTags then 0x0E else 0x0D) 0 0 (fetched e q s)) := by
  refine taken_answers hf ((bound_passes hn hp hb (requestState_of hst) hc (by simp [hl]) (by simp)).trans ?_)
  rw [hr]
  exact goneTag_eq _ _ _

theorem exec_reqQuery_answers {r : Request} (hr : findReq p (tagOf e) = some r) :
    exec (.reqQuery e) s = .next (answered e q 0 (progress r) 0 (fetched e q s)) := by
  refine taken_answers hf ((bound_passes hn hp hb (requestState_of hst) hc (by simp [hl]) (by simp)).trans ?_)
  rw [hr]
  rfl

theorem exec_reqQuery_gone (hr : findReq p (tagOf e) = none) :
    exec (.reqQuery e) s = .next (answered e q (if tagOf e ∈ p.doneTags then 0x0E else 0x0D) 0 0 (fetched e q s)) := by
  refine taken_answers hf ((bound_passes hn hp hb (requestState_of hst) hc (by simp [hl]) (by simp)).trans ?_)
  rw [hr]
  exact goneTag_eq _ _ _

end

section
variable (hst : p.state = .serving ∨ p.state = .draining) (hc : Clean e true [(24, 12)]) (hl : dlenOf e = 0) (hlo : 1 ≤ pf e 32 4) (hhi : pf e 32 4 ≤ 86400)
include hst hc hl hlo hhi

theorem exec_pause_noCistern (hoff : p.cistern = false ∨ cisternOn s = false) : exec (.pause e) s = .next (answered e q 0x07 0 0 (fetched e q s)) := by
  refine taken_answers hf ((bound_passes hn hp hb (servingState_of hst) hc (by simp [hl]) (by simp; omega)).trans ?_)
  rw [if_pos]
  · rfl
  · rcases hoff with h | h
    · simp [h]
    · simp [show cisternOn (fetched e q s) = false from h]

variable (hcistern : p.cistern = true) (hon : cisternOn s = true)
include hcistern hon

theorem exec_pause_waits {r : Request} (hr : findReq p (tagOf e) = some r) (hlive : r.state ≠ .ending) :
    exec (.pause e) s = .next (awaited e q (.pause (partNo e) (tagOf e)) (endBy (partNo e) (tagOf e) stPaused (pf e 32 4) (fetched e q s))) := by
  refine taken_waits hf ((bound_passes hn hp hb (servingState_of hst) hc (by simp [hl]) (by simp; omega)).trans ?_)
  rw [if_neg (by simp [hcistern, show cisternOn (fetched e q s) = true from hon]), hr]
  exact if_neg fun hend => hlive hend.1

theorem exec_pause_gone (hr : findReq p (tagOf e) = none) :
    exec (.pause e) s = .next (answered e q (if tagOf e ∈ p.doneTags then 0x0E else 0x0D) 0 0 (fetched e q s)) := by
  refine taken_answers hf ((bound_passes hn hp hb (servingState_of hst) hc (by simp [hl]) (by simp; omega)).trans ?_)
  rw [if_neg (by simp [hcistern, show cisternOn (fetched e q s) = true from hon]), hr]
  exact goneTag_eq _ _ _

end

/-! ## ADAPTER_RELEASE (09 R296) -/

section
variable (hst : p.state = .loaded ∨ p.state = .serving ∨ p.state = .draining) (hc : Clean e true [(20, 4)]) (hl : dlenOf e = 0) (hid : pf e 20 4 ≠ 0)
include hst hc hl hid

omit hf in
/-- ADAPTER_RELEASE on a partition, once its fields are sound. -/
theorem adapterRelease_passes :
    adapterRelease e (fetched e q s) = if (adapterSlot p (fun a => a.id == pf e 20 4 && a.current)).isNone then fails stNotFound (fetched e q s)
      else doneWith (adapterRefs (pf e 20 4) (releaseAdapter (pf e 20 4) p.adapters))
        (updPart (fetched e q s) (partNo e) (fun x => { x with adapters := releaseAdapter (pf e 20 4) p.adapters })) := by
  have hstate : adapterState p.state = true := by rcases hst with h | h | h <;> rw [h] <;> rfl
  unfold adapterRelease
  dsimp only
  rw [partCmd_fetched _ (mayIssue_pfBound (.inr hb)) hn hp hstate, fieldsThen_none _ (entryFault_none hc (by simp [hl]) (by simp [hid]))]

theorem exec_adapterRelease_releases (ha : (adapterSlot p (fun a => a.id == pf e 20 4 && a.current)).isSome = true) :
    exec (.adapterRelease e) s = .next (answered e q 0 (adapterRefs (pf e 20 4) (releaseAdapter (pf e 20 4) p.adapters)) 0
      (setPart (fetched e q s) (partNo e) (some { p with adapters := releaseAdapter (pf e 20 4) p.adapters }))) := by
  refine taken_answers hf ?_
  rw [adapterRelease_passes hn hp hb hst hc hl hid, if_neg (by rw [Option.isNone_eq_false_iff.2 ha]; decide),
    updPart_some _ _ ((getPart_fetched _).trans hp)]
  rfl

theorem exec_adapterRelease_unknown (ha : (adapterSlot p (fun a => a.id == pf e 20 4 && a.current)).isSome = false) :
    exec (.adapterRelease e) s = .next (answered e q 0x0D 0 0 (fetched e q s)) := by
  refine taken_answers hf ?_
  rw [adapterRelease_passes hn hp hb hst hc hl hid, if_pos (by simpa using ha)]
  rfl

end

end

/-! ## EXPORT_CTX (09 R294; 10 R323, R324) -/

theorem contextState_of (hst : p.state ≠ .empty) : contextState p.state = true := by simpa [contextState] using hst

/-- The module once a record is written out: one more draw, one more record counted, the record in the command's buffer. -/
def exported (e : Entry) (p : Partition) (bs : List Byte) (s : State) : State :=
  writeOut e bs (setPart { s with sec := { s.sec with draws := s.sec.draws + 1 } } (partNo e) (some { p with wset := { p.wset with exports := p.wset.exports + 1 } }))

/-- EXPORT_CTX of context c under the key of the weight set, and what becomes of c. -/
def exporting (e : Entry) (p : Partition) (key : BitVec 256) (c : Context) (s : State) : Done :=
  (contextBytes s c).elim (fails stLost (countBad s c)) (fun text =>
    if dlenOf e < (exportRecord p key c text s.sec.draws).length then failsField 16 s
    else doneWith (exportRecord p key c text s.sec.draws).length
      (if pf e 20 1 = 1 then eraseCtx (exported e p (exportRecord p key c text s.sec.draws) s) (tagOf e) else exported e p (exportRecord p key c text s.sec.draws) s))

theorem testBit_zero_of_le_one {n : Nat} (h : n ≤ 1) : n.testBit 0 = decide (n = 1) := by
  rcases Nat.le_one_iff_eq_zero_or_eq_one.1 h with rfl | rfl <;> rfl

section
variable {c : Context} {key : BitVec 256} (hf : Fetches e q s) (hn : partNo e < 16) (hp : getPart s (partNo e) = some p) (hb : isBound s e = true)
  (hst : p.state ≠ .empty) (hs : s.sec.error = false) (hc : Clean e true [(20, 1), (24, 8)]) (herase : pf e 20 1 ≤ 1)
  (hctx : liveCtx s (partNo e) (tagOf e) = some c) (hkey : p.wset.key = some key) (hcount : p.wset.exports < 2 ^ 32)
include hn hp hb hst hs hc herase hctx hkey hcount

theorem exportCmd_exports : exportCmd e (fetched e q s) = exporting e p key c (fetched e q s) := by
  refine (bound_passes hn hp hb (contextState_of hst) hc rfl (by simpa using herase)).trans ?_
  rw [show (fetched e q s).sec.error = false from hs, liveCtx_fetched, hctx, hkey]
  simp only [Bool.false_eq_true, if_false, if_neg (Nat.not_le.2 hcount), testBit_zero_of_le_one herase, decide_eq_true_eq]
  unfold exporting
  cases hx : contextBytes (fetched e q s) c with
  | none => rfl
  | some text =>
    rw [updPart_some { fetched e q s with sec := { (fetched e q s).sec with draws := (fetched e q s).sec.draws + 1 } } _ hp]
    rfl

include hf

variable (hr : s.sec.restarting = false)
include hr

theorem exec_exportCtx_lost (hx : contextBytes s c = none) : exec (.exportCtx e) s = .next (answered e q 0x25 0 0 (countBad (fetched e q s) c)) := by
  refine (exec_lamp_running hr rfl).trans (taken_answers hf ((exportCmd_exports hn hp hb hst hs hc herase hctx hkey hcount).trans ?_))
  rw [exporting, show contextBytes (fetched e q s) c = none from hx]
  rfl

section
variable {text bs : List Byte} (hx : contextBytes s c = some text) (hbs : bs = exportRecord p key c text s.sec.draws)
include hx hbs

theorem exec_exportCtx_short (hlen : dlenOf e < bs.length) : exec (.exportCtx e) s = .next (answered e q 0x02 0 16 (fetched e q s)) := by
  subst hbs
  refine (exec_lamp_running hr rfl).trans (taken_answers hf ((exportCmd_exports hn hp hb hst hs hc herase hctx hkey hcount).trans ?_))
  rw [exporting, show contextBytes (fetched e q s) c = some text from hx]
  exact if_pos hlen

theorem exec_exportCtx_writes (hlen : ¬ dlenOf e < bs.length) :
    exec (.exportCtx e) s = .next (answered e q 0 bs.length 0
      (if pf e 20 1 = 1 then eraseCtx (exported e p bs (fetched e q s)) (tagOf e) else exported e p bs (fetched e q s))) := by
  subst hbs
  refine (exec_lamp_running hr rfl).trans (taken_answers hf ((exportCmd_exports hn hp hb hst hs hc herase hctx hkey hcount).trans ?_))
  rw [exporting, show contextBytes (fetched e q s) c = some text from hx]
  exact if_neg hlen

end
end

/-! ## DISCARD and SET_TTL (09 R292, R293) -/

/-- Context c is found by its handle: erasing it takes its record and its page images. -/
theorem eraseCtx_found {h : BitVec 64} {c : Context} (hc : findCtx s h = some c) :
    eraseCtx s h = { s with contexts := s.contexts.filter (fun x => x.handle != h), cistern := s.cistern.filter (fun x => x.1 / 2 ^ 32 != c.image) } := by
  unfold eraseCtx
  rw [hc]
  rfl

section
variable (hf : Fetches e q s) (hn : partNo e < 16) (hp : getPart s (partNo e) = some p) (hb : isBound s e = true) (hst : p.state ≠ .empty) (hl : dlenOf e = 0)
include hf hn hp hb hst hl

section
variable (hc : Clean e true [(24, 8)])
include hc

theorem exec_discard_erases {c : Context} (hctx : liveCtx s (partNo e) (tagOf e) = some c) :
    exec (.discard e) s = .next (answered e q 0 0 0 (eraseCtx (fetched e q s) c.handle)) := by
  refine taken_answers hf ((bound_passes hn hp hb (contextState_of hst) hc (by simp [hl]) (by simp)).trans ?_)
  rw [liveCtx_fetched, hctx]
  rfl

theorem exec_discard_unknown (hctx : liveCtx s (partNo e) (tagOf e) = none) : exec (.discard e) s = .next (answered e q 0x0D 0 0 (fetched e q s)) := by
  refine taken_answers hf ((bound_passes hn hp hb (contextState_of hst) hc (by simp [hl]) (by simp)).trans ?_)
  rw [liveCtx_fetched, hctx]
  rfl

end

section
variable (hc : Clean e true [(24, 12)]) (hlo : 1 ≤ pf e 32 4) (hhi : pf e 32 4 ≤ 86400)
include hc hlo hhi

theorem exec_setTtl_sets {c : Context} (hctx : liveCtx s (partNo e) (tagOf e) = some c) :
    exec (.setTtl e) s = .next (answered e q 0 0 0 { fetched e q s with
      contexts := lmap (fun x => x.handle == c.handle) (fun x => { x with expiry := nowNs s + pf e 32 4 * 1000000000 }) s.contexts }) := by
  refine taken_answers hf ((bound_passes hn hp hb (contextState_of hst) hc (by simp [hl]) (by simp; omega)).trans ?_)
  rw [liveCtx_fetched, hctx]
  rfl

theorem exec_setTtl_unknown (hctx : liveCtx s (partNo e) (tagOf e) = none) : exec (.setTtl e) s = .next (answered e q 0x0D 0 0 (fetched e q s)) := by
  refine taken_answers hf ((bound_passes hn hp hb (contextState_of hst) hc (by simp [hl]) (by simp; omega)).trans ?_)
  rw [liveCtx_fetched, hctx]
  rfl

end
end

/-- What a fetch leaves of the contexts, their numbers and the time. -/
theorem fetched_rest (n : Nat) :
    newHandle (fetched e q s) n = newHandle s n ∧ nowNs (fetched e q s) = nowNs s ∧ (fetched e q s).contexts = s.contexts
      ∧ (fetched e q s).serial = s.serial ∧ (fetched e q s).seqTag = s.seqTag := ⟨rfl, rfl, rfl, rfl, rfl⟩

/-! ## IMPORT_CTX (09 R294; 10 R324) -/

/-- The module but for the lines of its cistern. -/
def uncisterned (s : State) : State := { s with cistern := [] }

theorem storeImages_uncisterned (tag : Nat) (rs : List ShareRec) (bs : List Byte) (s : State) : uncisterned (storeImages tag rs bs s) = uncisterned s := by
  unfold storeImages
  refine forEach_keeps uncisterned _ (fun ⟨n, k⟩ t => ?_) _ s
  refine forEach_keeps uncisterned _ ?_ _ t
  exact fun _ _ => rfl

theorem storeImages_contexts (tag : Nat) (rs : List ShareRec) (bs : List Byte) (s : State) : (storeImages tag rs bs s).contexts = s.contexts :=
  same_of_blank uncisterned State.contexts (fun _ => rfl) (storeImages_uncisterned tag rs bs s)
theorem storeImages_serial (tag : Nat) (rs : List ShareRec) (bs : List Byte) (s : State) : (storeImages tag rs bs s).serial = s.serial :=
  same_of_blank uncisterned State.serial (fun _ => rfl) (storeImages_uncisterned tag rs bs s)
theorem storeImages_seqTag (tag : Nat) (rs : List ShareRec) (bs : List Byte) (s : State) : (storeImages tag rs bs s).seqTag = s.seqTag :=
  same_of_blank uncisterned State.seqTag (fun _ => rfl) (storeImages_uncisterned tag rs bs s)

/-- The header of an exported record: its magic, version and reserved bytes, and the length of its text (Table 10-14). -/
structure RecordHead (e : Entry) (d : List Byte) : Prop where
  magic : fieldAt d 0 4 = 0x43575653
  version : fieldAt d 4 2 = 1
  reserved : fieldAt d 6 2 = 0
  length : fieldAt d 104 8 + 144 = dlenOf e
  tail : fieldAt d 124 4 = 0

/-- What the record's tag authenticates under the partition's session key. -/
def openRecord (p : Partition) (d : List Byte) : Option (List Byte) :=
  p.wset.key.bind (fun key => Config.gcmOpen (sessionKey p key) ((d.drop 112).take 12) (d.take 128) ((d.drop 128).take (fieldAt d 104 8)) (d.drop (128 + fieldAt d 104 8)))

/-- The shares of a context record. -/
def recordShares (xs : List (Nat × Nat × Nat × Nat × Nat)) : List ShareRec := xs.map (fun (lay, base, k, j, count) => (⟨lay, base, k, j, count⟩ : ShareRec))

/-- The context made of an imported record, with its page images in the cistern. -/
def imported (s : State) (n ttl : Nat) (d : List Byte) (x : Nat × Nat × Nat × Nat × List (Nat × Nat × Nat × Nat × Nat) × List Byte) (t : State) : State :=
  { storeImages s.seqTag.toNat (recordShares x.2.2.2.2.1) x.2.2.2.2.2 t with
    contexts := s.contexts ++ [⟨newHandle s n, n, digestAt d 56, digestAt d 8, BitVec.ofNat 32 x.1, x.2.1, x.2.2.1, x.2.2.2.1, nowNs s + ttl * 1000000000,
      recordShares x.2.2.2.2.1, s.seqTag.toNat, false⟩],
    serial := s.serial + 1, seqTag := s.seqTag + 1 }

section
variable {d : List Byte} (hf : Fetches e q s) (hn : partNo e < 16) (hp : getPart s (partNo e) = some p) (hb : isBound s e = true) (hst : p.state ≠ .empty)
  (hs : s.sec.error = false) (hc : Clean e true [(32, 4)]) (hlen : 144 ≤ dlenOf e) (hlo : 1 ≤ pf e 32 4) (hhi : pf e 32 4 ≤ 86400)
  (hdata : ∃ d0, e.data = some d0 ∧ d = padTo (dlenOf e) d0) (hd : RecordHead e d)
include hn hp hb hst hs hc hlen hlo hhi hdata hd

theorem importCmd_unauthentic (ho : openRecord p d = none) : importCmd e (fetched e q s) = fails stAuth (fetched e q s) := by
  obtain ⟨d0, hd0, rfl⟩ := hdata
  obtain ⟨hmagic, hver, hres, hsum, htail⟩ := hd
  unfold openRecord at ho
  refine (bound_passes hn hp hb (contextState_of hst) hc (by simpa using hlen) (by simp; omega)).trans ?_
  rw [withData_some _ hd0, show (fetched e q s).sec.error = false from hs, if_neg Bool.false_ne_true,
    lowest_eq_none.2 (by simp [hmagic, hver, hres, hsum, htail])]
  dsimp only
  rw [ho]

theorem importCmd_text {text : List Byte} (ho : openRecord p d = some text) :
    (importCmd e (fetched e q s)) = if storeStatus (fetched e q s) p (recPages (recordShares (Config.contextParse text).2.2.2.2.1)) ≠ 0
      then fails (storeStatus (fetched e q s) p (recPages (recordShares (Config.contextParse text).2.2.2.2.1))) (fetched e q s)
      else doneWith (newHandle s (partNo e)).toNat (imported s (partNo e) (pf e 32 4) d (Config.contextParse text) (fetched e q s)) := by
  obtain ⟨d0, hd0, rfl⟩ := hdata
  obtain ⟨hmagic, hver, hres, hsum, htail⟩ := hd
  unfold openRecord at ho
  refine (bound_passes hn hp hb (contextState_of hst) hc (by simpa using hlen) (by simp; omega)).trans ?_
  rw [withData_some _ hd0, show (fetched e q s).sec.error = false from hs, if_neg Bool.false_ne_true,
    lowest_eq_none.2 (by simp [hmagic, hver, hres, hsum, htail])]
  dsimp only
  rw [ho]
  simp only [storeImages_contexts, storeImages_serial, storeImages_seqTag, fetched_rest (partNo e), imported, recordShares, expiryAt]
  congr 1

include hf

variable (hr : s.sec.restarting = false)
include hr

theorem exec_importCtx_unauthentic (ho : openRecord p d = none) : exec (.importCtx e) s = .next (answered e q 0x13 0 0 (fetched e q s)) :=
  (exec_lamp_running hr rfl).trans (taken_answers hf (importCmd_unauthentic hn hp hb hst hs hc hlen hlo hhi hdata hd ho))

section
variable {text : List Byte} {st : Nat} (ho : openRecord p d = some text)
  (hst' : st = storeStatus (fetched e q s) p (recPages (recordShares (Config.contextParse text).2.2.2.2.1)))
include ho hst'

theorem exec_importCtx_noRoom (hne : st ≠ 0) : exec (.importCtx e) s = .next (answered e q st 0 0 (fetched e q s)) := by
  subst hst'
  exact (exec_lamp_running hr rfl).trans (taken_answers hf ((importCmd_text hn hp hb hst hs hc hlen hlo hhi hdata hd ho).trans (if_pos hne)))

theorem exec_importCtx_makes (hz : st = 0) :
    exec (.importCtx e) s = .next (answered e q 0 (newHandle s (partNo e)).toNat 0
      (imported s (partNo e) (pf e 32 4) d (Config.contextParse text) (fetched e q s))) := by
  subst hst'
  exact (exec_lamp_running hr rfl).trans (taken_answers hf ((importCmd_text hn hp hb hst hs hc hlen hlo hhi hdata hd ho).trans (if_neg (not_not.2 hz))))

end
end

/-! ## The statement -/

/-- Settles O57: each clause is the rule above of its command. -/
theorem requestCommands : Obligations.RequestCommands := by
  unfold Obligations.RequestCommands
  rintro e q s _ _ p _ hf rfl rfl hn hp hb rfl
  refine ⟨?_, ?_, ?_, ?_, ?_, ?_, ?_, ?_⟩
  · intro d0 d g c hst hc hd0 hd hg hhead hctx
    have h : Submits e s p d g c := ⟨hn, hp, hb, hst, hc, ⟨d0, hd0, hd⟩, hg, hhead, hctx⟩
    refine ⟨exec_submit_length hf h, fun off => exec_submit_block hf h, fun hlen hblock => ⟨fun hdup => ?_, fun hfree => ?_⟩⟩
    · exact exec_submit_refused hf h hlen hblock (enter_duplicate (taken_iff.2 hdup))
    · have hnot := taken_false hfree
      have refused {st} (hr : enterOrRefuse e (nextHead q) (partNo e) p g d c (fetched e q s) = fails st (fetched e q s)) := exec_submit_refused hf h hlen hblock hr
      refine ⟨fun st hst => refused (enter_adapter hnot hst), fun a ha hm hnone => refused (enter_noContext hnot ha hm hnone),
        fun a x ha hm hx hbad => refused (enter_layout hnot ha hm hx hbad), ?_, ?_⟩
      · rintro a _ ha rfl hfit hslot hroom
        split
        · next hx => exact exec_submit_noCache hf h hlen hblock hnot ha hfit hslot hroom hx
        · next shares hx => exact exec_submit_enters hf h hlen hblock hnot ha hfit hslot hroom hx
      · intro a ha hm hfull
        exact exec_submit_noSlot hf h hlen hblock hnot ha (fun hm' => absurd hm' (by rw [hm]; decide)) hfull
  · intro hc hl hst
    refine ⟨fun r hr => ⟨exec_cancel_waits hf hn hp hb hst hc hl hr, exec_reqQuery_answers hf hn hp hb hst hc hl hr⟩, fun hr => ?_⟩
    exact List.forall_mem_cons.2 ⟨exec_cancel_gone hf hn hp hb hst hc hl hr, List.forall_mem_singleton.2 (exec_reqQuery_gone hf hn hp hb hst hc hl hr)⟩
  · intro hc hl hst hlo hhi
    exact ⟨exec_pause_noCistern hf hn hp hb hst hc hl hlo hhi, fun r hon hc' hr hlive => exec_pause_waits hf hn hp hb hst hc hl hlo hhi hon hc' hr hlive,
      fun hon hc' hr => exec_pause_gone hf hn hp hb hst hc hl hlo hhi hon hc' hr⟩
  · rintro _ _ hst hc hl rfl hid rfl
    refine ⟨exec_adapterRelease_releases hf hn hp hb hst hc hl hid, exec_adapterRelease_unknown hf hn hp hb hst hc hl hid, ?_⟩
    intro k a ha haid hcur
    rw [ha, ← haid]
    unfold releaseAdapter
    by_cases hz : a.refs = 0 <;> simp [hcur, hz]
  · intro c key hst hr hs hc herase hctx hkey hcount
    refine ⟨exec_exportCtx_lost hf hn hp hb hst hs hc herase hctx hkey hcount hr, ?_⟩
    rintro text bs _ hx hbs rfl
    split
    · next hlen => exact exec_exportCtx_short hf hn hp hb hst hs hc herase hctx hkey hcount hr hx hbs hlen
    · next hlen => exact exec_exportCtx_writes hf hn hp hb hst hs hc herase hctx hkey hcount hr hx hbs hlen
  · intro d0 d hst hr hs hc hlen hlo hhi hd0 hd hmagic hver hres hsum htail
    have hhead : RecordHead e d := ⟨hmagic, hver, hres, hsum, htail⟩
    split
    · next ho => exact exec_importCtx_unauthentic hf hn hp hb hst hs hc hlen hlo hhi ⟨d0, hd0, hd⟩ hhead hr ho
    · next text ho =>
      have hroom := exec_importCtx_noRoom hf hn hp hb hst hs hc hlen hlo hhi ⟨d0, hd0, hd⟩ hhead hr ho rfl
      have hmakes := exec_importCtx_makes hf hn hp hb hst hs hc hlen hlo hhi ⟨d0, hd0, hd⟩ hhead hr ho rfl
      dsimp only
      split
      · next hne => exact hroom hne
      · next hz => exact hmakes (not_not.1 hz)
  · intro hst hc hl
    exact ⟨fun c hctx => ⟨exec_discard_erases hf hn hp hb hst hl hc hctx, fun hfound => eraseCtx_found hfound⟩, exec_discard_unknown hf hn hp hb hst hl hc⟩
  · intro hst hc hl hlo hhi
    exact ⟨fun c hctx => exec_setTtl_sets hf hn hp hb hst hl hc hlo hhi hctx, exec_setTtl_unknown hf hn hp hb hst hl hc hlo hhi⟩

end Sys2Proof.RequestCommands
end

section
/-!
PROOFS. Doorbells and queue pair 0 (09 R264, R265, R267, R283; 13 R397): what a doorbell finds of its queue, its runnel or its ring once it has crossed the rim channel,
what it then does, and that a queue pair deleted stays away while the others settle.
-/

open Sys2Proof Sys2Proof.Machine

namespace Sys2Proof.Doorbells

open Sys2Proof.Take Sys2Proof.Reports Sys2Proof.PartitionCommands

/-! ## A doorbell on its way to the control processor (01 R27; 00 R12) -/

section
variable {fn : Fn} {k n : Nat} {v : BitVec 32} {s : State}

/-- The module once doorbell n of a kind, written with v, has crossed the rim channel. -/
def rung (fn : Fn) (kind n : Nat) (v : BitVec 32) (s : State) : State := rimSend (hostTile fn.port) (firmwareTile s) (.doorbell fn kind n v) s

theorem rung_funcs (fn : Fn) (kind n : Nat) (v : BitVec 32) (s : State) : (rung fn kind n v s).funcs = s.funcs := by
  show (forEach _ _ s).funcs = s.funcs
  exact forEach_keeps State.funcs _ (fun _ _ => by rfl) _ s

theorem rung_unreported (fn : Fn) (kind n : Nat) (v : BitVec 32) (s : State) : unreported (rung fn kind n v s) = unreported s := rimSend_unreported _ _ _ _

theorem getFn_of_funcs {t : State} (h : t.funcs = s.funcs) (g : Fn) : getFn t g = getFn s g := by
  unfold getFn
  rw [h]
theorem getQp_of_funcs {t : State} (h : t.funcs = s.funcs) (g : Fn) (n : Nat) : getQp t g n = getQp s g n := by
  unfold getQp
  rw [getFn_of_funcs h]

theorem getFn_rung (kind n : Nat) (g : Fn) : getFn (rung fn kind n v s) g = getFn s g := getFn_of_funcs (rung_funcs _ _ _ _ _) g
theorem partBound_rung (kind n : Nat) (g : Fn) : partBound (rung fn kind n v s) g = partBound s g :=
  same_of_blank unreported (partBound · g) (fun _ => rfl) (rung_unreported _ _ _ _ _)
theorem getPart_rung (kind n m : Nat) : getPart (rung fn kind n v s) m = getPart s m := getPart_of_unreported (rung_unreported _ _ _ _ _) m

/-- Noting a reserved bit leaves the queue pairs. -/
theorem getQp_noteRsvd (mask : BitVec 32) (n : Nat) : getQp (noteRsvd fn mask v s) fn n = getQp s fn n := by
  unfold noteRsvd
  split
  · rfl
  · show tget none (getFn (updFn s fn _) fn).qps n = _
    rw [getFn_updFn_same]
    rfl

theorem getQp_rung (kind m : Nat) (mask : BitVec 32) (n : Nat) : getQp (rung fn kind m v (noteRsvd fn mask v s)) fn n = getQp s fn n :=
  (getQp_of_funcs (rung_funcs _ _ _ _ _) fn n).trans (getQp_noteRsvd mask n)

theorem hold_noteRsvd (mask : BitVec 32) : (noteRsvd fn mask v s).boot.hold = s.boot.hold := by
  unfold noteRsvd
  split <;> rfl

/-! ## HOLD keeps the last write of a doorbell (R265) -/

/-- The module with a write to doorbell n of a kind kept. -/
def latching (fn : Fn) (kind n : Nat) (v : BitVec 32) (s : State) : State :=
  updFn s fn (fun f => { f with latched := f.latched.filter (fun d => !(d.kind == kind && d.num == n)) ++ [⟨kind, n, v⟩] })

theorem doorbell_held (kind n : Nat) (h : s.boot.hold = true) : doorbell fn kind n v s = latching fn kind n v s := if_pos h
theorem doorbell_acts (kind n : Nat) (h : s.boot.hold = false) : doorbell fn kind n v s = doorbellNow fn ⟨kind, n, v⟩ s := if_neg (by simp [h])

/-! ## The commands -/

section
variable (hfn : fn.num ≤ 16)
include hfn

theorem exec_sqTail_rings (hk : k < 64) : exec (.sqTail fn k v) s = .next (doorbell fn 0 k v (noteRsvd fn 0xFFF v s)) := by
  rw [exec_sqTail, execSqTail, show (fnOk fn && decide (k < 64)) = true by simp [fnOk, hfn, hk], guarded_true]

theorem exec_cqHead_rings (hk : k < 64) : exec (.cqHead fn k v) s = .next (settle (doorbell fn 1 k v (noteRsvd fn 0xFFF v s))) := by
  rw [exec_cqHead, execCqHead, show (fnOk fn && decide (k < 64)) = true by simp [fnOk, hfn, hk], settled, guarded_true]

theorem exec_runnelCons_rings (hk : k < 1024) : exec (.runnelCons fn k v) s = .next (doorbell fn 2 k v s) := by
  rw [exec_runnelCons, execRunnelCons, show (fnOk fn && decide (k < 1024)) = true by simp [fnOk, hfn, hk], guarded_true]

theorem exec_evCons_rings : exec (.evCons fn v) s = .next (doorbell fn 3 0 v s) := by
  rw [exec_evCons, execEvCons, show fnOk fn = true from decide_eq_true hfn, guarded_true]

variable (hhold : s.boot.hold = false)
include hhold

/-! ### SQ_TAIL (R265) -/

theorem exec_sqTail_acts (hk : k < 64) : exec (.sqTail fn k v) s = .next (sqTailNow fn k v (rung fn 0 k v (noteRsvd fn 0xFFF v s))) := by
  rw [exec_sqTail_rings hfn hk, doorbell_acts 0 k ((hold_noteRsvd _).trans hhold)]
  rfl

theorem exec_sqTail_moves {x : Qp} (hk : k < 64) (hx : getQp s fn k = some x) (hlive : x.deleting = false) (hin : v.toNat % 4096 < x.sqSize) :
    exec (.sqTail fn k v) s = .next (setQp (rung fn 0 k v (noteRsvd fn 0xFFF v s)) fn k (some { x with sqTail := v.toNat % 4096 })) := by
  rw [exec_sqTail_acts hfn hhold hk, sqTailNow, getQp_rung, hx]
  exact congrArg _ (if_neg (by simp [hlive, hin]))

theorem exec_sqTail_bad {x : Qp} (hk : k < 64) (hx : getQp s fn k = some x) (hbad : x.sqSize ≤ v.toNat % 4096 ∨ x.deleting = true) :
    exec (.sqTail fn k v) s = .next (badDoorbell (rung fn 0 k v (noteRsvd fn 0xFFF v s)) fn (0x101000 + 8 * k)) := by
  rw [exec_sqTail_acts hfn hhold hk, sqTailNow, getQp_rung, hx]
  exact congrArg _ (if_pos hbad.symm)

theorem exec_sqTail_absent (hk : k < 64) (hx : getQp s fn k = none) :
    exec (.sqTail fn k v) s = .next (badDoorbell (rung fn 0 k v (noteRsvd fn 0xFFF v s)) fn (0x101000 + 8 * k)) := by
  rw [exec_sqTail_acts hfn hhold hk, sqTailNow, getQp_rung, hx]

/-! ### CQ_HEAD (R267) -/

theorem exec_cqHead_acts (hk : k < 64) : exec (.cqHead fn k v) s = .next (settle (cqHeadNow fn k v (rung fn 1 k v (noteRsvd fn 0xFFF v s)))) := by
  rw [exec_cqHead_rings hfn hk, doorbell_acts 1 k ((hold_noteRsvd _).trans hhold)]
  rfl

theorem exec_cqHead_absent (hk : k < 64) (hx : getQp s fn k = none) :
    exec (.cqHead fn k v) s = .next (settle (badDoorbell (rung fn 1 k v (noteRsvd fn 0xFFF v s)) fn (0x101004 + 8 * k))) := by
  rw [exec_cqHead_acts hfn hhold hk, cqHeadNow, getQp_rung, hx]

theorem exec_cqHead_bad {x : Qp} (hk : k < 64) (hx : getQp s fn k = some x)
    (hbad : x.cqSize ≤ v.toNat % 4096 ∨ cqUsed x < (v.toNat % 4096 + x.cqSize - x.cqHead) % x.cqSize) :
    exec (.cqHead fn k v) s = .next (settle (badDoorbell (rung fn 1 k v (noteRsvd fn 0xFFF v s)) fn (0x101004 + 8 * k))) := by
  rw [exec_cqHead_acts hfn hhold hk, cqHeadNow, getQp_rung, hx]
  exact congrArg (fun t => Host.Outcome.next (settle t)) (if_pos hbad)

omit hfn hhold in
/-- A queue that holds no completion writes none. -/
theorem flushQp_none_held {x : Qp} {t : State} (hx : getQp t fn n = some x) (hheld : x.held = []) : ∀ i, flushQp fn n i t = t
  | 0 => rfl
  | i + 1 => by rw [flushQp, hx]; simp only [hheld]

theorem exec_cqHead_frees {x : Qp} (hk : k < 64) (hx : getQp s fn k = some x) (hin : v.toNat % 4096 < x.cqSize)
    (hused : (v.toNat % 4096 + x.cqSize - x.cqHead) % x.cqSize ≤ cqUsed x) (hheld : x.held = []) :
    exec (.cqHead fn k v) s = .next (settle (setQp (rung fn 1 k v (noteRsvd fn 0xFFF v s)) fn k
      (some { x with cqHead := v.toNat % 4096, int := if v.toNat % 4096 = x.cqTail then { x.int with first := none } else x.int }))) := by
  rw [exec_cqHead_acts hfn hhold hk, cqHeadNow, getQp_rung, hx]
  refine congrArg (fun t => Host.Outcome.next (settle t)) ((if_neg (by omega)).trans ?_)
  exact flushQp_none_held (x := { x with cqHead := v.toNat % 4096, int := if v.toNat % 4096 = x.cqTail then { x.int with first := none } else x.int })
    (getQp_setQp_same _ _ _ _) hheld _

/-! ### RUNNEL_CONS (R283) -/

theorem exec_runnelCons_acts (hk : k < 1024) : exec (.runnelCons fn k v) s = .next (runnelConsNow fn k v (rung fn 2 k v s)) := by
  rw [exec_runnelCons_rings hfn hk, doorbell_acts 2 k hhold]
  rfl

theorem exec_runnelCons_unbound (hk : k < 1024) (hb : partBound s fn = none) : exec (.runnelCons fn k v) s = .next (rung fn 2 k v s) := by
  rw [exec_runnelCons_acts hfn hhold hk, runnelConsNow, partBound_rung, hb]

section
variable {p : Partition} {r : Request} (hk : k < 1024) (hb : partBound s fn = some n) (hp : getPart s n = some p) (hr : p.reqs.find? (fun r => r.rn == k) = some r)
include hk hb hp hr

theorem exec_runnelCons_frees (hin : (v - r.cons).toNat ≤ (r.written - r.cons).toNat) :
    exec (.runnelCons fn k v) s = .next (updReq (rung fn 2 k v s) n r.tag (fun r => { r with
      cons := v, int := if v = r.written then { r.int with first := none } else r.int })) := by
  rw [exec_runnelCons_acts hfn hhold hk, runnelConsNow, partBound_rung, hb]
  simp only [getPart_rung, hp, Option.bind_some, hr, if_neg (Nat.not_lt.2 hin)]
  rfl

theorem exec_runnelCons_bad (hout : (r.written - r.cons).toNat < (v - r.cons).toNat) :
    exec (.runnelCons fn k v) s = .next (badDoorbell (rung fn 2 k v s) fn (0x110000 + 4 * k)) := by
  rw [exec_runnelCons_acts hfn hhold hk, runnelConsNow, partBound_rung, hb]
  simp only [getPart_rung, hp, Option.bind_some, hr, if_pos hout]

end

/-! ### EV_CONS (13 R397) -/

theorem exec_evCons_acts : exec (.evCons fn v) s = .next (evConsNow fn v (rung fn 3 0 v s)) := by
  rw [exec_evCons_rings hfn, doorbell_acts 3 0 hhold]
  rfl

theorem exec_evCons_frees {g : EvRing} (hg : (getFn s fn).ring = some g) (hin : (v - g.cons).toNat ≤ (g.k - g.cons).toNat) :
    exec (.evCons fn v) s = .next (drainFn (updFn (rung fn 3 0 v s) fn (fun f => { f with
      ring := some { g with cons := v, int := if v = g.k then { g.int with first := none } else g.int } })) fn) := by
  rw [exec_evCons_acts hfn hhold, evConsNow, getFn_rung, hg]
  exact congrArg _ (if_neg (Nat.not_lt.2 hin))

theorem exec_evCons_noRing (hg : (getFn s fn).ring = none) : exec (.evCons fn v) s = .next (badDoorbell (rung fn 3 0 v s) fn 0x30) := by
  rw [exec_evCons_acts hfn hhold, evConsNow, getFn_rung, hg]

end
end

/-! ## A queue pair deleted stays away (R264) -/

section
variable {fn : Fn} {s t : State}

/-- The function has no queue pair 0, and EN is clear. -/
def Gone (fn : Fn) (s : State) : Prop := getQp s fn 0 = none ∧ (getFn s fn).en = false

theorem gone_of_funcs (ht : t.funcs = s.funcs) (h : Gone fn s) : Gone fn t := by
  rwa [Gone, getQp_of_funcs ht, getFn_of_funcs ht]

theorem gone_updFn {g : Fn} {f : Func → Func} (hq : ∀ x, (f x).qps = x.qps) (he : ∀ x : Func, x.en = false → (f x).en = false) (h : Gone fn s) : Gone fn (updFn s g f) := by
  obtain ⟨hn, hen⟩ := h
  unfold Gone getQp at *
  by_cases hg : fnIx fn = fnIx g
  · have hgf : getFn (updFn s g f) fn = f (getFn s fn) := by
      unfold getFn updFn setFn
      rw [hg]
      exact tget_tset_same _ _ _ _
    rw [hgf, hq]
    exact ⟨hn, he _ hen⟩
  · rw [getFn_updFn_other s f hg]
    exact ⟨hn, hen⟩

/-- A queue pair is written over where there was one, or taken away. -/
theorem gone_setQp {g : Fn} {n : Nat} {x : Option Qp} (hx : (getQp s g n).isSome = true ∨ x = none) (h : Gone fn s) : Gone fn (setQp s g n x) := by
  obtain ⟨hn, hen⟩ := h
  by_cases hg : fnIx fn = fnIx g
  · have hgf : getFn (setQp s g n x) fn = { getFn s fn with qps := tset none (getFn s fn).qps n x } := by
      unfold getFn setQp updFn setFn getFn
      rw [hg]
      exact tget_tset_same _ _ _ _
    have hgq : getQp s g 0 = none := by
      unfold getQp getFn at *
      rwa [← hg]
    refine ⟨?_, by rw [hgf]; exact hen⟩
    unfold getQp at *
    rw [hgf]
    by_cases h0 : n = 0
    · subst h0
      rcases hx with hx | rfl
      · rw [hgq] at hx
        cases hx
      · show tget none (tset none (getFn s fn).qps 0 none) 0 = none
        exact tget_tset_same _ _ _ _
    · exact (tget_tset_other _ _ _ (Ne.symm h0)).trans hn
  · unfold Gone getQp setQp at *
    rw [getFn_updFn_other s _ hg]
    exact ⟨hn, hen⟩

/-! ### What leaves the functions -/

theorem sendHost_funcs (s : State) (p : HostPort) (o : HostOut) : (sendHost s p o).funcs = s.funcs := by
  unfold sendHost countT
  dsimp only
  split
  · rfl
  · split
    · split <;> rfl
    · rfl

theorem updPart_funcs (s : State) (n : Nat) (f : Partition → Partition) : (updPart s n f).funcs = s.funcs := by
  unfold updPart
  split <;> rfl

theorem cancelThrough_funcs (g : Fn) (q : Option Nat) (mute : Bool) (s : State) : (cancelThrough g q mute s).funcs = s.funcs := by
  unfold cancelThrough mapParts
  exact forEach_keeps State.funcs _ (fun _ _ => updPart_funcs _ _ _) (allParts s) s

theorem freeNow_funcs (s : State) (n : Nat) : (freeNow s n).funcs = s.funcs := by
  unfold freeNow
  split
  · rfl
  · exact (updPart_funcs _ _ _).trans (forEach_keeps State.funcs (setShareState 0) (fun _ _ => rfl) _ s)

theorem stopLanterns_funcs (s : State) (n : Nat) : (stopLanterns s n).funcs = s.funcs := by
  unfold stopLanterns
  split
  · rfl
  · exact forEach_keeps State.funcs (fun l s => updL s l _) (fun _ _ => rfl) _ s

theorem stopPart_funcs (s : State) (n : Nat) : (stopPart s n).funcs = s.funcs :=
  (freeNow_funcs _ n).trans ((stopLanterns_funcs _ n).trans (updPart_funcs s n _))

/-! ### What completions do -/

theorem gone_sendMsix {g : Fn} {k : Nat} (h : Gone fn s) : Gone fn (sendMsix s g k) := by
  unfold sendMsix
  split
  · exact gone_of_funcs (sendHost_funcs _ _ _) h
  · exact h

theorem gone_writeCompl {g : Fn} {n : Nat} {q : Qp} {c : Completion} (hq : (getQp s g n).isSome = true) (h : Gone fn s) : Gone fn (writeCompl s g n q c) := by
  have hset (x : Qp) (port : HostPort) (o : HostOut) : Gone fn (setQp (sendHost s port o) g n (some x)) :=
    gone_setQp (.inl (by rwa [getQp_of_funcs (sendHost_funcs s port o)])) (gone_of_funcs (sendHost_funcs s port o) h)
  unfold writeCompl
  dsimp only
  split
  · exact gone_sendMsix (hset _ _ _)
  · exact hset _ _ _

theorem gone_postPlain {g : Fn} {c : Completion} (h : Gone fn s) : Gone fn (postPlain s g c) := by
  unfold postPlain
  split
  · exact h
  next q hq =>
    have hsome : (getQp s g c.sqid).isSome = true := by rw [hq]; rfl
    dsimp only
    split
    · exact gone_writeCompl hsome h
    · exact gone_setQp (.inl hsome) h

theorem gone_posts (c : Waiting → Completion) (ws : List Waiting) (h : Gone fn s) : Gone fn (forEach ws (fun w s => postPlain s w.fn (c w)) s) :=
  forEach_holds (P := Gone fn) (fun _ _ => gone_postPlain) ws s h

theorem gone_resolveWaits (p : WaitFor → Bool) (f : WaitFor → Nat × Nat) (h : Gone fn s) : Gone fn (resolveWaits p f s) :=
  gone_posts (fun w => waitCompl w (f w.what).1 (f w.what).2) (s.waiting.filter fun w => p w.what)
    (gone_of_funcs (s := s) (t := { s with waiting := s.waiting.filter fun w => !p w.what }) rfl h)

theorem gone_drainDone (n : Nat) (h : Gone fn s) : Gone fn (drainDone s n) := by
  unfold drainDone
  split
  · exact h
  · dsimp only
    split
    · exact h
    · refine gone_resolveWaits _ _ ?_
      split
      · exact gone_of_funcs ((forEach_keeps State.funcs (fun l s => switchOff s l) (fun _ _ => rfl) _ _).trans ((updPart_funcs _ n _).trans (stopPart_funcs s n))) h
      · exact gone_of_funcs ((updPart_funcs _ n _).trans (stopPart_funcs s n)) h

theorem gone_freeReq (n : Nat) (tag : BitVec 64) (h : Gone fn s) : Gone fn (freeReq s n tag) := by
  unfold freeReq
  split
  · exact h
  · split
    · exact h
    · refine gone_drainDone _ (gone_resolveWaits _ _ ?_)
      split
      · exact gone_updFn (fun _ => rfl) (fun _ hx => hx) (gone_of_funcs rfl h)
      · exact gone_of_funcs rfl h

theorem gone_deleteNow (g : Fn) (n : Nat) (h : Gone fn s) : Gone fn (deleteNow g n s) := by
  unfold deleteNow
  split
  · exact h
  · refine gone_of_funcs (cancelThrough_funcs _ _ _ _) (forEach_holds (P := Gone fn) (fun c t ht => ?_) _ _ ?_)
    · split
      · exact gone_freeReq _ _ ht
      · exact ht
    · split
      · exact gone_updFn (fun _ => rfl) (fun _ _ => rfl) (gone_setQp (.inr rfl) h)
      · exact gone_setQp (.inr rfl) h

theorem gone_settleQp (g : Fn) (n : Nat) (h : Gone fn s) : Gone fn (settleQp g n s) := by
  unfold settleQp
  split
  · exact h
  · dsimp only
    split
    · exact h
    · exact gone_deleteNow _ _ (gone_posts (fun w => waitCompl w stSuccess 0) _ (gone_of_funcs (s := s) rfl h))

theorem gone_settle (h : Gone fn s) : Gone fn (settle s) := by
  unfold settle
  exact forEach_holds (P := Gone fn) (fun e t ht => gone_settleQp e.1 e.2 ht) _ _ h

/-! ### EN cleared -/

/-- A queue pair with nothing open and no completion held is deleted at once. -/
theorem settleQp_idle {g : Fn} {n : Nat} {x : Qp} (hx : getQp s g n = some x) (hdel : x.deleting = true) (hbusy : x.busy = 0) (hwaits : s.waiting = []) :
    settleQp g n s = deleteNow g n s := by
  unfold settleQp
  simp only [hx, hdel, hbusy, hwaits, List.filter_nil]
  rw [if_neg (by simp)]
  show deleteNow g n { s with waiting := [] } = _
  rw [← hwaits]

theorem gone_of_deleteNow_zero {x : Qp} (hx : getQp s fn 0 = some x) (hheld : x.held = []) : Gone fn (deleteNow fn 0 s) := by
  unfold deleteNow
  simp only [hx, hheld, if_true]
  refine gone_of_funcs (cancelThrough_funcs fn (some 0) false (updFn (setQp s fn 0 none) fn fun f => { f with en := false })) ⟨?_, ?_⟩
  · unfold getQp
    rw [getFn_updFn_same]
    exact getQp_setQp_same s fn 0 none
  · rw [getFn_updFn_same]

/-- The module while queue pair 0 of a function is being deleted. -/
def closing (fn : Fn) (x : Qp) (s : State) : State :=
  setQp (updFn s fn (fun f => { f with en := false })) fn 0 (some { x with deleting := true, sqTail := x.sqHead })

theorem gone_of_closing {x : Qp} (hbusy : x.busy = 0) (hheld : x.held = []) (hwaits : s.waiting = []) : Gone fn (settleQp fn 0 (closing fn x s)) := by
  have hx : getQp (closing fn x s) fn 0 = some { x with deleting := true, sqTail := x.sqHead } := getQp_setQp_same _ _ _ _
  rw [settleQp_idle hx rfl hbusy hwaits]
  exact gone_of_deleteNow_zero hx hheld

end

/-! ## MB_CTRL (R264) -/

section
variable {fn : Fn} {s : State}

/-- EN is no reserved bit of MB_CTRL. -/
theorem noteRsvd_en {v : BitVec 32} (hv : v = 0 ∨ v = 1) : noteRsvd fn 1 v s = s := by
  rcases hv with rfl | rfl
  · exact if_pos (by decide)
  · exact if_pos (by decide)

/-- The write of EN set. -/
theorem writeCtrl_one : writeCtrl fn 1 s =
    if (getFn s fn).en then s
    else if (getFn s fn).q0Size.toNat % 4096 = 0 ∨ (getFn s fn).q0Size.toNat / 65536 % 4096 = 0 ∨ (getQp s fn 0).isSome then
      updFn s fn (fun f => { f with en := false, cfgErr := true })
    else
      updFn (setQp s fn 0 (some ⟨(getFn s fn).sq0Base.toNat / 4096 * 4096, (getFn s fn).q0Size.toNat % 4096 + 1, 0, 0, (getFn s fn).cq0Base.toNat / 4096 * 4096,
        (getFn s fn).q0Size.toNat / 65536 % 4096 + 1, 0, 0, true, intOf (getFn s fn).q0Int 0, [], 0, false⟩)) fn (fun f => { f with en := true, cfgErr := false }) := by
  unfold writeCtrl
  rw [noteRsvd_en (.inr rfl)]
  exact if_pos (by decide)

/-- The write of EN clear. -/
theorem writeCtrl_zero : writeCtrl fn 0 s = if (getFn s fn).en then settleQp fn 0 (startDelete fn 0 (updFn s fn (fun f => { f with en := false }))) else s := by
  unfold writeCtrl
  rw [noteRsvd_en (.inl rfl)]
  exact if_neg (by decide)

theorem getQp_updFn {f : Func → Func} (hq : ∀ x, (f x).qps = x.qps) (n : Nat) : getQp (updFn s fn f) fn n = getQp s fn n := by
  unfold getQp
  rw [getFn_updFn_same, hq]

theorem startDelete_enClear {x : Qp} (hx : getQp s fn 0 = some x) : startDelete fn 0 (updFn s fn (fun f => { f with en := false })) = closing fn x s := by
  have hx' := (getQp_updFn (s := s) (fn := fn) (f := fun f => { f with en := false }) (fun _ => rfl) 0).trans hx
  unfold startDelete
  rw [hx']
  rfl

section
variable (hfn : fn.num ≤ 16)
include hfn

theorem exec_mbCtrlEnable_write (v : BitVec 32) : exec (.mbCtrlEnable fn v) s = .next (writeCtrl fn v s) := by
  show guarded (fnOk fn) _ = _
  rw [show fnOk fn = true from decide_eq_true hfn, guarded_true]

theorem exec_mbCtrlDisable_write (v : BitVec 32) : exec (.mbCtrlDisable fn v) s = .next (settle (writeCtrl fn v s)) := by
  show settled (fnOk fn) _ = _
  rw [show fnOk fn = true from decide_eq_true hfn, settled, guarded_true]

theorem exec_mbCtrlDisable_gone {x : Qp} (hen : (getFn s fn).en = true) (hx : getQp s fn 0 = some x) (hbusy : x.busy = 0) (hwaits : s.waiting = []) (hheld : x.held = []) :
    ∃ t, exec (.mbCtrlDisable fn 0) s = .next t ∧ getQp t fn 0 = none ∧ (getFn t fn).en = false := by
  refine ⟨_, exec_mbCtrlDisable_write hfn 0, ?_⟩
  rw [writeCtrl_zero, if_pos hen, startDelete_enClear hx]
  exact gone_settle (gone_of_closing hbusy hheld hwaits)

end
end

/-- Settles O59: a doorbell crosses the rim and then finds what stood before it, each with its own bounds; HOLD keeps the write instead; EN makes or refuses queue pair 0, and once it
is deleted no completion and no other deletion brings it back. -/
theorem doorbells : Obligations.Doorbells := by
  intro fn k v s N B hfn hk hN hB
  subst hN hB
  refine ⟨fun hhold => ?_, fun hhold => ?_, ?_⟩
  · have hnoted (kind : Nat) := doorbell_held (fn := fn) (v := v) kind k ((hold_noteRsvd (fn := fn) (v := v) (s := s) 0xFFF).trans hhold)
    refine ⟨?_, ?_, ?_, ?_⟩
    · exact (exec_sqTail_rings hfn hk).trans (congrArg _ (hnoted 0))
    · exact (exec_cqHead_rings hfn hk).trans (congrArg (fun t => Host.Outcome.next (settle t)) (hnoted 1))
    · exact (exec_runnelCons_rings hfn (by omega)).trans (congrArg _ (doorbell_held 2 k hhold))
    · exact (exec_evCons_rings hfn).trans (congrArg _ (doorbell_held 3 0 hhold))
  · refine ⟨?_, ?_, ?_, ?_, ?_, ?_, ?_, ?_, ?_, ?_⟩
    · exact fun _ hx hlive hin => exec_sqTail_moves hfn hhold hk hx hlive hin
    · exact fun _ hx hbad => exec_sqTail_bad hfn hhold hk hx hbad
    · exact fun hx => ⟨exec_sqTail_absent hfn hhold hk hx, exec_cqHead_absent hfn hhold hk hx⟩
    · rintro _ _ hx rfl hin hused hheld
      exact exec_cqHead_frees hfn hhold hk hx hin hused hheld
    · rintro _ _ hx rfl hbad
      exact exec_cqHead_bad hfn hhold hk hx hbad
    · exact fun _ _ _ _ hm hb hp hr hin => exec_runnelCons_frees hfn hhold hm hb hp hr hin
    · exact fun _ _ _ _ hm hb hp hr hout => exec_runnelCons_bad hfn hhold hm hb hp hr hout
    · exact exec_runnelCons_unbound hfn hhold (by omega)
    · exact fun _ hg hin => exec_evCons_frees hfn hhold hg hin
    · exact exec_evCons_noRing hfn hhold
  · rintro _ _ _ rfl rfl rfl
    refine ⟨?_, ?_, ?_, ?_, ?_⟩
    · rintro rfl hen hsq hcq hnone
      rw [exec_mbCtrlEnable_write hfn, writeCtrl_one, if_neg (by simp [hen]), if_neg (by simp [hsq, hcq, hnone])]
      rfl
    · rintro rfl hen hbad
      rw [exec_mbCtrlEnable_write hfn, writeCtrl_one, if_neg (by simp [hen]), if_pos hbad]
    · rintro rfl hen
      rw [exec_mbCtrlEnable_write hfn, writeCtrl_one, if_pos hen]
    · rintro _ rfl hen hx hbusy hwaits hheld
      exact exec_mbCtrlDisable_gone hfn hen hx hbusy hwaits hheld
    · rintro rfl hen
      rw [exec_mbCtrlDisable_write hfn, writeCtrl_zero, if_neg (by simp [hen])]

end Sys2Proof.Doorbells
end

section
/-!
PROOFS. A RUNNEL flit where two requests of a partition bear one tag (09 R298): the model names the requests it updates by their tag (`updReq`), and sets each of them to the entry count of
the one that was found on the runnel.
-/

open Sys2Proof Sys2Proof.Machine

namespace Sys2Proof.RunnelFlits

/-- A request of tag 7 on a runnel of 64 entries, with some of them written; it is muted, so that no entry leaves for the host. -/
def twin (rn : Nat) (written : BitVec 32) : Request :=
  { tag := 7, fn := ⟨.a, 1⟩, sqid := 1, sqhd := 0, cid := 5, state := .decode, rbase := 4096, rn := rn, rlog2 := 6, int := {}, cons := 0, written := written, delivered := 0,
    maxNew := 100, sample := false, spec := false, keep := false, resume := false, draftK := 0, topK := 0, temp := 0, topP := 0, seed := 0, promptLen := 2, prompt := [1, 2],
    ends := [], stops := [], keepTtl := 0, adapter := 0, pos0 := 0, gen := [], passes := [], draftOff := none, inPass := true, endStatus := 0, reason := 0, hit := 0, final := false,
    pauseTtl := 0, resuming := false, handle := 0, seq := 4, shares := [], stage := .live, image := 0, owners := [], lastTok := none, storeErr := 0, note := none, written9 := false,
    silent := false, mute := true }

/-- A serving partition with two requests of one tag, on runnels 0 and 1. -/
def twinned : Partition :=
  { state := .serving, fx0 := 0, fy0 := 0, w := 1, h := 1, quiet := false, cistern := true, port := .a, vf := 1, zen := 1, hgonly := 0, zchan := 0, window := 2, windowNext := none,
    watchdog := 100, watchdogNext := none, share := 100, shareNext := none, share0 := 100, epoch := 1, running := true, allowance := 1000, reqs := [twin 0 0, twin 1 5] }

/-- Entry 0 for runnel 0 of partition 0, from another tile. -/
def entryFlit : Flit :=
  { cls := 0, poison := false, dst := 0, tag := 0, kind := 4, sub := 0, fmt := 0, last := true,
    line := .ofFin ⟨0, Nat.two_pow_pos 544⟩, src := 1600, sched := false, vcb := false, inj := 0, hops := 0 }

/-- The module with that flit at the tile of port a. -/
def twinnedModule : State := { parts := [(0, some twinned)], tiles := [(23, { rx := [entryFlit] })] }

/-- That module once the tile has taken the flit. -/
def flitTaken : State := rimHandled (updT twinnedModule 23 (fun T => { T with rx := [] })) 23 entryFlit

/-- The entries that partition 0's requests have written. -/
def writtenCounts (s : State) : Option (List (BitVec 32)) := (getPart s 0).map (·.reqs.map (·.written))

/-- One more entry written, as the statement has it, for each request by its own count. -/
def oneMore (f : Flit) (r : Request) : Request :=
  if (lineField f.line 10 2).testBit 3 then { r with written := r.written + 1 }
  else { r with written := r.written + 1, delivered := r.delivered + 1, gen := r.gen ++ [BitVec.ofNat 32 (lineField f.line 0 4)] }

theorem exec_rimRunnel_twinned : exec (.rimRunnel 23) twinnedModule = .next (rimRunnelOp 23 twinnedModule) := rfl

/-- The model writes the count of the request found to both. -/
theorem writtenCounts_rimRunnelOp : writtenCounts (rimRunnelOp 23 twinnedModule) = some [1, 1] := by decide

theorem writtenCounts_oneMore : writtenCounts (updReq (writeRunnel flitTaken 0 (twin 0 0) 0 ((lineBytes entryFlit.line).take 16)) 0 7 (oneMore entryFlit)) = some [1, 6] := by decide

/-- Refutes O38, by its first clause: nothing keeps two requests of a partition from bearing one tag, and where two do, an entry written for the first sets the second's count to the
first's, not to its own and one. -/
theorem not_rimFlits : ¬ Obligations.RimFlits := by
  intro h
  obtain ⟨hrunnel, -⟩ := h 23 23 twinnedModule flitTaken [] [] entryFlit (by decide) rfl rfl rfl rfl
  obtain ⟨hwritten, -⟩ := hrunnel (twin 0 0) rfl rfl (List.forall_mem_nil _) rfl
  have hsame : rimRunnelOp 23 twinnedModule = updReq (writeRunnel flitTaken 0 (twin 0 0) 0 ((lineBytes entryFlit.line).take 16)) 0 7 (oneMore entryFlit) :=
    Host.Outcome.next.inj (exec_rimRunnel_twinned.symm.trans (hwritten (by decide) (by decide)))
  exact absurd (writtenCounts_rimRunnelOp.symm.trans ((congrArg writtenCounts hsame).trans writtenCounts_oneMore)) (by decide)

end Sys2Proof.RunnelFlits
end

section
/-!
PROOFS. The tags a partition remembers (09 R267, R280, R284): what an ended request, and a queue pair deleted with completions held, leave of a partition's requests and of the 4,096 tags
it keeps of those that are done.
-/

open Sys2Proof Sys2Proof.Machine

namespace Sys2Proof.DoneTags

open Sys2Proof.Reports Sys2Proof.Contexts Sys2Proof.Doorbells

/-! ## The books of partition 0 -/

/-- The tags of a partition's requests, those it remembers as done, and its state. -/
structure Books where
  tags : List (BitVec 64)
  done : List (BitVec 64)
  state : PState

def books (p : Partition) : Books := ⟨p.reqs.map (·.tag), p.doneTags, p.state⟩

def booksOf (s : State) : Option Books := (getPart s 0).map books

/-- The books once the slot of a tag is freed. -/
def Books.without (b : Books) (tag : BitVec 64) : Books := ⟨b.tags.filter (· != tag), (tag :: b.done).take 4096, b.state⟩

section
variable {s t : State}

theorem books_noteIdle (u : Nat) (p : Partition) : books (noteIdle u p) = books p := by
  unfold noteIdle
  split <;> rfl

theorem booksOf_setPart (s : State) (p : Partition) : booksOf (setPart s 0 (some p)) = some (books p) := by
  rw [booksOf, getPart_setPart_same]
  rfl

theorem booksOf_unreported (h : unreported t = unreported s) : booksOf t = booksOf s := congrArg (Option.map books) (getPart_of_unreported h 0)

theorem booksOf_updPart (s : State) (n : Nat) {f : Partition → Partition} (hf : ∀ p, books (f p) = books p) : booksOf (updPart s n f) = booksOf s := by
  unfold updPart
  split
  next p hp =>
    by_cases hn : n = 0
    · subst hn
      rw [booksOf_setPart, hf, booksOf, hp, Option.map_some]
    · exact congrArg (Option.map books) (getPart_setPart_other s _ (Ne.symm hn))
  · rfl

/-- Requests keep their tags when those of one tag change and keep it. -/
theorem tags_lmap (tag : BitVec 64) {f : Request → Request} (hf : ∀ r, r.tag = tag → (f r).tag = tag) (rs : List Request) :
    (lmap (fun r => r.tag == tag) f rs).map (·.tag) = rs.map (·.tag) := by
  rw [lmap, List.map_map]
  refine List.map_congr_left fun r _ => ?_
  rw [Function.comp_apply]
  split
  next h =>
    have h := eq_of_beq h
    exact (hf r h).trans h.symm
  · rfl

theorem books_requests {f : Request → Request} {tag : BitVec 64} (hf : ∀ r, r.tag = tag → (f r).tag = tag) (p : Partition) :
    books { p with reqs := lmap (fun r => r.tag == tag) f p.reqs } = books p := congrArg (Books.mk · p.doneTags p.state) (tags_lmap tag hf p.reqs)

theorem booksOf_updReq (s : State) (n : Nat) {tag : BitVec 64} {f : Request → Request} (hf : ∀ r, r.tag = tag → (f r).tag = tag) : booksOf (updReq s n tag f) = booksOf s :=
  booksOf_updPart s n fun p => (books_noteIdle _ _).trans (books_requests hf p)

theorem booksOf_freeNow (s : State) (n : Nat) : booksOf (freeNow s n) = booksOf s := by
  unfold freeNow
  split
  · rfl
  · refine (booksOf_updPart _ n ?_).trans (forEach_keeps booksOf (setShareState 0) (fun _ _ => rfl) _ s)
    exact fun _ => rfl

theorem booksOf_giveUp (s : State) (n : Nat) (tag : BitVec 64) : booksOf (giveUp n tag s) = booksOf s := by
  have hgiven (f : Partition → List Share) :
      booksOf (updPart s n fun p => { p with freeing := f p, reqs := lmap (fun r => r.tag == tag) (fun r => { r with shares := [] }) p.reqs }) = booksOf s :=
    booksOf_updPart s n fun p => books_requests (f := fun r => { r with shares := [] }) (fun _ h => h) p
  unfold giveUp
  split
  · rfl
  · dsimp only
    split
    · exact hgiven _
    · exact (booksOf_freeNow _ n).trans (hgiven _)

theorem booksOf_writeRunnel (s : State) (n : Nat) (r : Request) (k : BitVec 32) (bytes : List Byte) : booksOf (writeRunnel s n r k bytes) = booksOf s := by
  unfold writeRunnel
  dsimp only
  split
  · rfl
  · split
    · rw [booksOf_unreported (sendMsix_unreported _ _ _)]
      refine (booksOf_updReq _ n ?_).trans (booksOf_unreported (sendHost_unreported _ _ _))
      exact fun _ h => h
    · refine (booksOf_updReq _ n ?_).trans (booksOf_unreported (sendHost_unreported _ _ _))
      exact fun _ h => h

theorem booksOf_nextEntry (s : State) (n : Nat) (r : Request) (bytes : List Byte) (token : Bool) : booksOf (nextEntry s n r bytes token) = booksOf s := by
  unfold nextEntry
  refine (booksOf_updReq _ n ?_).trans (booksOf_writeRunnel s n r _ _)
  exact fun _ h => h

theorem booksOf_cancelThrough (g : Fn) (q : Option Nat) (mute : Bool) (s : State) : booksOf (cancelThrough g q mute s) = booksOf s := by
  unfold cancelThrough mapParts
  refine forEach_keeps booksOf _ (fun e t => booksOf_updPart t e.1 fun p => (books_noteIdle _ _).trans ?_) (allParts s) s
  refine congrArg (Books.mk · p.doneTags p.state) ?_
  rw [List.map_map]
  refine List.map_congr_left fun r _ => ?_
  rw [Function.comp_apply]
  dsimp only
  split
  · split <;> rfl
  · rfl

end

/-! ## A slot freed -/

section
variable {s t : State} {p : Partition} {tag : BitVec 64} {b : Books}

theorem drainDone_serving (hp : getPart s 0 = some p) (hst : p.state ≠ .draining) : drainDone s 0 = s := by
  unfold drainDone
  simp only [hp]
  exact if_pos (.inl hst)

/-- A partition without the requests of a tag, which it remembers as done. -/
def freed (u : Nat) (tag : BitVec 64) (r : Request) (p : Partition) : Partition :=
  noteIdle u { p with
    reqs := p.reqs.filter (fun x => x.tag != tag), doneTags := (tag :: p.doneTags).take 4096,
    adapters := if r.adapter = 0 then p.adapters else dropAdapter p.adapters (r.adapter - 1) }

theorem books_freed (u : Nat) (tag : BitVec 64) (r : Request) (p : Partition) : books (freed u tag r p) = (books p).without tag :=
  (books_noteIdle _ _).trans (congrArg (Books.mk · ((tag :: p.doneTags).take 4096) p.state) (List.filter_map (f := Request.tag) (p := (· != tag)) (l := p.reqs)).symm)

theorem freeReq_found {r : Request} (hp : getPart s 0 = some p) (hr : findReq p tag = some r) :
    ∃ t, unreported t = unreported (setPart s 0 (some (freed (nowNs s) tag r p))) ∧ freeReq s 0 tag = drainDone t 0 := by
  unfold freeReq
  simp only [hp, hr]
  refine ⟨_, (resolveWaits_unreported _ _ _).trans ?_, rfl⟩
  exact ite_unreported rfl rfl

/-- A slot freed takes the request's tag from those in use to those done. -/
theorem booksOf_freeReq (hb : booksOf s = some b) (hst : b.state ≠ .draining) (htag : tag ∈ b.tags) : booksOf (freeReq s 0 tag) = some (b.without tag) := by
  obtain ⟨p, hp, rfl⟩ := Option.map_eq_some_iff.1 hb
  obtain ⟨r, hr⟩ : ∃ r, findReq p tag = some r := by
    obtain ⟨r, hmem, htag⟩ := List.mem_map.1 htag
    exact Option.isSome_iff_exists.1 (List.find?_isSome.2 ⟨r, hmem, beq_iff_eq.2 htag⟩)
  obtain ⟨t, ht, hfree⟩ := freeReq_found hp hr
  have hq : getPart t 0 = some (freed (nowNs s) tag r p) := (getPart_of_unreported ht 0).trans (getPart_setPart_same _ _ _)
  have hstate : (freed (nowNs s) tag r p).state = p.state := congrArg Books.state (books_freed (nowNs s) tag r p)
  rw [hfree, drainDone_serving hq (hstate ▸ hst), booksOf, hq, Option.map_some, books_freed]

theorem freeReq_absent (hb : booksOf s = some b) (htag : tag ∉ b.tags) : freeReq s 0 tag = s := by
  obtain ⟨p, hp, rfl⟩ := Option.map_eq_some_iff.1 hb
  have hr : findReq p tag = none := List.find?_eq_none.2 fun r hr h => htag (List.mem_map.2 ⟨r, hr, eq_of_beq h⟩)
  unfold freeReq
  simp only [hp, hr]

/-! ## A request ended, with others in flight -/

/-- A partition that does not drain has requests of each of some tags, and remembers no more tags than it may. -/
structure Owes (tags : List (BitVec 64)) (b : Books) : Prop where
  serves : b.state ≠ .draining
  bounded : b.done.length ≤ 4096
  tags : ∀ x, x ∈ tags → x ∈ b.tags

/-- So is it with partition 0. -/
def Owing (tags : List (BitVec 64)) (s : State) : Prop := ∃ b, booksOf s = some b ∧ Owes tags b

variable {tags : List (BitVec 64)}

theorem owes_without (h : Owes tags b) (htag : tag ∉ tags) : Owes tags (b.without tag) where
  serves := h.serves
  bounded := List.length_take_le _ _
  tags x hx := List.mem_filter.2 ⟨h.tags x hx, bne_iff_ne.2 fun he => htag (he ▸ hx)⟩

theorem owing_of_books (h : booksOf t = booksOf s) (hs : Owing tags s) : Owing tags t := by
  unfold Owing
  rwa [h]

theorem owing_freeReq (htag : tag ∉ tags) (hs : Owing tags s) : Owing tags (freeReq s 0 tag) := by
  obtain ⟨b, hb, howes⟩ := hs
  by_cases h : tag ∈ b.tags
  · exact ⟨_, booksOf_freeReq hb howes.serves h, owes_without howes htag⟩
  · rw [freeReq_absent hb h]
    exact ⟨b, hb, howes⟩

theorem owing_postReq {r : Request} (c : Completion) (htag : r.tag ∉ tags) (hs : Owing tags s) : Owing tags (postReq s 0 r c) := by
  unfold postReq
  split
  · split
    · exact owing_freeReq htag (owing_of_books (booksOf_unreported (writeCompl_unreported _ _ _ _ _)) hs)
    · exact owing_of_books rfl hs
  · exact owing_freeReq htag hs

/-- A request as its end is written, when no context of it is to be stored. -/
def closed (r : Request) : Request := { r with shares := [], storeErr := 0, written9 := true }

/-- The module once a request without a handle has given up its shares and its page images. -/
def released (n : Nat) (r : Request) (s : State) : State :=
  giveUp n r.tag (dropImages { s with contexts := lmap (fun c => c.handle == r.handle) (fun c => { c with busy := false }) s.contexts } r.image)

/-- The module once the END entry of a request stands in its runnel, where that has room. -/
def ended (n : Nat) (r : Request) (s : State) : State :=
  if 0 < runnelRoom (closed r) then
    nextEntry (updReq (released n r s) n r.tag (fun _ => closed r)) n (closed r) (runnelEntry 0 r.delivered 0 (8 + 16 * r.reason) 0) false
  else updReq (released n r s) n r.tag (fun _ => closed r)

theorem finishReq_found {n : Nat} {r : Request} (hp : getPart s n = some p) (hr : findReq p r.tag = some r) (hst : r.state = .ending) (hpass : r.inPass = false) (hend : r.written9 = false)
    (hbusy : stageBusy r = false) (hstore : toStore r = false) (hhandle : r.handle = 0) : finishReq n r.tag s = postReq (ended n r s) n (closed r) (reqCompl (closed r)) := by
  have hfound : (getPart s n).bind (findReq · r.tag) = some r := by rw [hp, Option.bind_some, hr]
  unfold finishReq
  rw [if_neg (by rw [hfound]; simp [hbusy])]
  unfold endReq
  simp only [hp, hr]
  rw [if_neg (by simp [hst, hpass, hend])]
  simp only [hstore, Bool.false_eq_true, false_and, if_false, if_pos hhandle]
  rfl

theorem booksOf_ended (n : Nat) (r : Request) (s : State) : booksOf (ended n r s) = booksOf s := by
  have hclosed : booksOf (updReq (released n r s) n r.tag fun _ => closed r) = booksOf s := (booksOf_updReq (f := fun _ => closed r) _ n fun _ _ => rfl).trans (booksOf_giveUp _ n _)
  unfold ended
  split
  · exact (booksOf_nextEntry _ n (closed r) _ _).trans hclosed
  · exact hclosed

/-! ## A queue pair deleted with completions held -/

/-- A completion that holds the slot of a tag. -/
def holding (tag : BitVec 64) : Completion := ⟨0, 0, 0, 2, 0, 0, some (0, tag)⟩

/-- The slot that a completion holds is freed. -/
def drop (c : Completion) (s : State) : State := match c.req with | some (n, tag) => freeReq s n tag | none => s

theorem take_append_take {α : Type} (n : Nat) (xs ys : List α) : (xs ++ ys.take n).take n = (xs ++ ys).take n := by
  rw [List.take_append, List.take_append, List.take_take, Nat.min_eq_left (Nat.sub_le _ _)]

/-- Slots freed one after the other leave their tags at the head of those done, the last first. -/
theorem done_drops (hbound : b.done.length ≤ 4096) : ∀ {s : State}, booksOf s = some b → b.state ≠ .draining → tags.Nodup → (∀ x, x ∈ tags → x ∈ b.tags) →
    ∃ c, booksOf (forEach (tags.map holding) drop s) = some c ∧ c.done = (tags.reverse ++ b.done).take 4096 := by
  induction tags generalizing b with
  | nil => exact fun hb _ _ _ => ⟨b, hb, (List.take_of_length_le hbound).symm⟩
  | cons tag tags ih =>
    intro s hb hst hnodup hmem
    obtain ⟨hnew, hnodup⟩ := List.nodup_cons.1 hnodup
    have howes : Owes tags (b.without tag) := owes_without ⟨hst, hbound, fun x hx => hmem x (List.mem_cons_of_mem _ hx)⟩ hnew
    obtain ⟨c, hc, hdone⟩ := ih howes.bounded (booksOf_freeReq hb hst (hmem tag List.mem_cons_self)) hst hnodup howes.tags
    refine ⟨c, hc, hdone.trans ?_⟩
    rw [List.reverse_cons, List.append_assoc]
    exact take_append_take _ _ _

/-- A queue pair in deletion that holds completions of some tags, with nothing open, is deleted with the slots they hold. -/
theorem done_settleQp {fn : Fn} {n : Nat} {x : Qp} (howing : Owing tags s) (hnodup : tags.Nodup) (hx : getQp s fn n = some x) (hdel : x.deleting = true) (hbusy : x.busy = 0)
    (hheld : x.held = tags.map holding) (hwaits : s.waiting = []) (hn : n ≠ 0) :
    ∃ c D, booksOf (settleQp fn n s) = some c ∧ c.done = (tags.reverse ++ D).take 4096 := by
  obtain ⟨b, hb, howes⟩ := howing
  obtain ⟨c, hc, hdone⟩ := done_drops (tags := tags) howes.bounded (s := setQp s fn n none) hb howes.serves hnodup howes.tags
  refine ⟨c, b.done, ?_, hdone⟩
  rw [settleQp_idle hx hdel hbusy hwaits]
  unfold deleteNow
  simp only [hx, hheld, if_neg hn]
  exact (booksOf_cancelThrough _ _ _ _).trans hc

end

/-- The queue pairs in deletion. -/
def leavings (s : State) : List (Fn × Nat) :=
  s.funcs.flatMap (fun e => (e.2.qps.filter (fun q => match q.2 with | some x => x.deleting | none => false)).map (fun q => (fnOfIx e.1, q.1)))

theorem settle_one {s : State} {fn : Fn} {n : Nat} (h : leavings s = [(fn, n)]) : settle s = settleQp fn n s :=
  (show settle s = forEach (leavings s) (fun e s => settleQp e.1 e.2 s) s from rfl).trans (by rw [h]; rfl)

/-! ## The counterexample -/

open Sys2Proof.RunnelFlits (twin twinned)

/-- The function of the requests. -/
def vf : Fn := ⟨.a, 1⟩

/-- A request ended, of tag 0, and one in flight. -/
def endedReq : Request := { twin 0 0 with tag := 0, state := .ending, inPass := false }
def flightReq (tag : BitVec 64) : Request := { twin 1 0 with tag := tag }

/-- An empty queue pair, and one in deletion that holds completions of some tags. -/
def liveQp : Qp := ⟨0, 16, 0, 0, 0, 16, 0, 0, true, {}, [], 0, false⟩
def leavingQp (tags : List (BitVec 64)) : Qp := ⟨0, 16, 0, 0, 0, 16, 0, 0, true, {}, tags.map holding, 0, true⟩

/-- The module with a request ended, and with requests of tag 1 and of some tags whose completions are held. -/
def crowded (tags : List (BitVec 64)) : State :=
  { parts := [(0, some { twinned with reqs := endedReq :: (1 :: tags).map flightReq })],
    funcs := [(1, { en := true, qps := [(1, some liveQp), (2, some (leavingQp (1 :: tags)))] })] }

/-- The module once the request has ended. -/
def afterEnd (tags : List (BitVec 64)) : State := postReq (ended 0 endedReq (crowded tags)) 0 (closed endedReq) (reqCompl (closed endedReq))

theorem finishReq_crowded (tags : List (BitVec 64)) : finishReq 0 0 (crowded tags) = afterEnd tags :=
  finishReq_found (r := endedReq) (p := { twinned with reqs := endedReq :: (1 :: tags).map flightReq }) rfl rfl rfl rfl rfl rfl rfl rfl

theorem waiting_afterEnd (tags : List (BitVec 64)) : (afterEnd tags).waiting = [] := by rfl

/-- The live queue pair with one completion written. -/
def usedQp : Qp := { liveQp with cqTail := 1 }

theorem funcs_afterEnd (tags : List (BitVec 64)) : (afterEnd tags).funcs = [(1, { en := true, qps := [(1, some usedQp), (2, some (leavingQp (1 :: tags)))] })] := by rfl

theorem leaving_afterEnd (tags : List (BitVec 64)) : getQp (afterEnd tags) vf 2 = some (leavingQp (1 :: tags)) := by
  unfold getQp getFn
  rw [funcs_afterEnd]
  rfl

theorem leavings_afterEnd (tags : List (BitVec 64)) : leavings (afterEnd tags) = [(vf, 2)] := by
  unfold leavings
  rw [funcs_afterEnd]
  rfl

/-! ### The 4,096 tags -/

/-- Tags 2 to 4,096. -/
def lateTags : List (BitVec 64) := (List.range' 2 4095).map (BitVec.ofNat 64)

theorem lateTags_all : 1 :: lateTags = (List.range' 1 4096).map (BitVec.ofNat 64) := by
  rw [show 4096 = 4095 + 1 from rfl, List.range'_succ, List.map_cons]
  rfl

theorem length_lateTags : (1 :: lateTags).length = 4096 := by rw [lateTags_all, List.length_map, List.length_range']

theorem mem_lateTags {x : BitVec 64} (h : x ∈ 1 :: lateTags) : ∃ i, 1 ≤ i ∧ i < 4097 ∧ x = BitVec.ofNat 64 i := by
  rw [lateTags_all] at h
  obtain ⟨i, hi, rfl⟩ := List.mem_map.1 h
  obtain ⟨hlo, hhi⟩ := List.mem_range'_1.1 hi
  exact ⟨i, hlo, hhi, rfl⟩

theorem zero_notMem_lateTags : (0 : BitVec 64) ∉ 1 :: lateTags := by
  intro h
  obtain ⟨i, hlo, hhi, h⟩ := mem_lateTags h
  have := congrArg BitVec.toNat h
  rw [BitVec.toNat_ofNat, Nat.mod_eq_of_lt (by omega)] at this
  exact absurd this.symm (by simp; omega)

theorem nodup_lateTags : (1 :: lateTags).Nodup := by
  rw [lateTags_all]
  refine List.Nodup.map_on (fun i hi j hj h => ?_) List.nodup_range'
  have hi := (List.mem_range'_1.1 hi).2
  have hj := (List.mem_range'_1.1 hj).2
  have := congrArg BitVec.toNat h
  rwa [BitVec.toNat_ofNat, BitVec.toNat_ofNat, Nat.mod_eq_of_lt (by omega), Nat.mod_eq_of_lt (by omega)] at this

theorem owing_crowded (tags : List (BitVec 64)) : Owing (1 :: tags) (crowded tags) := by
  refine ⟨⟨0 :: 1 :: tags, [], .serving⟩, ?_, PState.noConfusion, Nat.zero_le _, fun x hx => List.mem_cons_of_mem _ hx⟩
  refine congrArg (fun xs => some (Books.mk (0 :: xs) [] .serving)) ?_
  rw [List.map_map]
  exact List.map_id _

theorem owing_afterEnd {tags : List (BitVec 64)} (h : 0 ∉ 1 :: tags) : Owing (1 :: tags) (afterEnd tags) :=
  owing_postReq (r := closed endedReq) _ h (owing_of_books (booksOf_ended 0 endedReq _) (owing_crowded tags))

theorem exec_requestEnd_crowded (tags : List (BitVec 64)) : exec (.requestEnd 0 0) (crowded tags) = .next (settleQp vf 2 (afterEnd tags)) := by
  rw [← settle_one (leavings_afterEnd tags), ← finishReq_crowded]
  rfl

/-- Of 4,096 tags done after that of the request ended, it is the request's own that partition 0 no longer remembers. -/
theorem done_requestEnd {t : State} {q : Partition} (ht : exec (.requestEnd 0 0) (crowded lateTags) = .next t) (hq : getPart t 0 = some q) : 0 ∉ q.doneTags := by
  obtain ⟨c, D, hc, hdone⟩ :=
    done_settleQp (owing_afterEnd zero_notMem_lateTags) nodup_lateTags (leaving_afterEnd lateTags) rfl rfl rfl (waiting_afterEnd lateTags) (by decide)
  obtain rfl := Host.Outcome.next.inj ((exec_requestEnd_crowded lateTags).symm.trans ht)
  have hbooks : books q = c := Option.some.inj ((congrArg (Option.map books) hq).symm.trans hc)
  have hq : q.doneTags = (1 :: lateTags).reverse := by
    rw [show q.doneTags = c.done from congrArg Books.done hbooks, hdone]
    exact List.take_left' ((List.length_reverse).trans length_lateTags)
  rw [hq, List.mem_reverse]
  exact zero_notMem_lateTags

/-- Refutes O43, by the clause of an ended request that is completed: where a queue pair in deletion holds the completions of 4,096 other requests, it is deleted in the same step, and
their tags push the request's own off the list of those done. -/
theorem not_requestPasses : ¬ Obligations.RequestPasses := by
  intro h
  obtain ⟨-, -, -, -, -, hend, -⟩ := h 0 0 ⟨0, 0, false⟩ (crowded lateTags) { twinned with reqs := endedReq :: (1 :: lateTags).map flightReq } endedReq (by decide) rfl rfl
  obtain ⟨t, q, ht, hq, -, hdone⟩ := hend liveQp rfl rfl rfl rfl rfl rfl rfl rfl rfl
  exact done_requestEnd ht hq hdone

end Sys2Proof.DoneTags
end
